-- ==== Sys2Proof/Word.lean ====
section
/-! DEFINITION. The word types of the device, and the type of a sparse table. -/

namespace Sys2Proof

/-- One byte of memory. -/
abbrev Byte := BitVec 8

/-- One 32-bit register word (R9, R348). -/
abbrev Word := BitVec 32

/-- A sparse table: keys strictly rising, no entry equal to the default that an unlisted key reads as. -/
abbrev SMap (α : Type) := List (Nat × α)

end Sys2Proof
end

