-- ==== Sys2Proof/Machine/Sparse.lean ====
section
/-! DEFINITION. Reading and writing a sparse table, and the canonical form every write keeps. -/

namespace Sys2Proof.Machine

/-- The value at key `k`; an unlisted key reads as the default `d`. -/
def getD {α : Type} (d : α) : SMap α → Nat → α
  | [], _ => d
  | (k', v) :: r, k => if k' = k then v else getD d r k

/-- The table without key `k`. -/
def dropKey {α : Type} (m : SMap α) (k : Nat) : SMap α :=
  m.filter (fun e => e.1 != k)

/-- The table with `v` at key `k`, in its place in the rising order. -/
def insKey {α : Type} : SMap α → Nat → α → SMap α
  | [], k, v => [(k, v)]
  | (k', v') :: r, k, v =>
    if k < k' then (k, v) :: (k', v') :: r
    else if k = k' then (k, v) :: r
    else (k', v') :: insKey r k v

/-- Write `v` at key `k`; writing the default removes the entry, so that equal tables are equal data. -/
def putD {α : Type} [DecidableEq α] (d : α) (m : SMap α) (k : Nat) (v : α) : SMap α :=
  if v = d then dropKey m k else insKey m k v

/-- Apply `f` to the value at key `k`. -/
def modD {α : Type} [DecidableEq α] (d : α) (m : SMap α) (k : Nat) (f : α → α) : SMap α :=
  putD d m k (f (getD d m k))

/-- Write a run of values from key `k` upwards. -/
def putRun {α : Type} [DecidableEq α] (d : α) (m : SMap α) : Nat → List α → SMap α
  | _, [] => m
  | k, v :: vs => putRun d (putD d m k v) (k + 1) vs

/-- Read `n` values from key `k` upwards. -/
def getRun {α : Type} (d : α) (m : SMap α) (k n : Nat) : List α :=
  (List.range n).map (fun j => getD d m (k + j))

/-- Every key of the table is at least `lo`, keys rise strictly, and no value is the default. -/
def sortedFrom {α : Type} [DecidableEq α] (d : α) : Nat → SMap α → Bool
  | _, [] => true
  | lo, (k, v) :: r => decide (lo ≤ k) && decide (v ≠ d) && sortedFrom d (k + 1) r

/-- The canonical form of a sparse table. -/
def canonical {α : Type} [DecidableEq α] (d : α) (m : SMap α) : Bool := sortedFrom d 0 m

/-- Bits `[lo + width - 1 : lo]` of a number. -/
def bits (x lo width : Nat) : Nat := (x >>> lo) % 2 ^ width

/-- One bit of a number. -/
def bit (x i : Nat) : Bool := x.testBit i

/-- Truth as a number. -/
def b2n (b : Bool) : Nat := if b then 1 else 0

/-- A number as a two's complement value of `width` bits. -/
def toSigned (x width : Nat) : Int :=
  let y := x % 2 ^ width
  if 2 * y < 2 ^ width then (y : Int) else (y : Int) - (2 ^ width : Nat)

/-- A signed value as a two's complement field of `width` bits. -/
def ofSigned (x : Int) (width : Nat) : Nat := (x % ((2 ^ width : Nat) : Int)).toNat

/-- The smallest whole number not below `a / b`. -/
def ceilDiv (a b : Nat) : Nat := (a + b - 1) / b

/-- The least multiple of `m` not below `x`. -/
def roundUp (x m : Nat) : Nat := ceilDiv x m * m

/-- Little-endian bytes as a number. -/
def leNat : List Byte → Nat
  | [] => 0
  | b :: bs => b.toNat + 256 * leNat bs

/-- The `n` little-endian bytes of a number. -/
def toLe : Nat → Nat → List Byte
  | 0, _ => []
  | n + 1, x => BitVec.ofNat 8 x :: toLe n (x / 256)

/-- Big-endian bytes as a number. -/
def beNat (bs : List Byte) : Nat := leNat bs.reverse

/-- Serial-number arithmetic modulo `2^w` (R338, R354): `a` is newer than `b` when their difference lies in 1 to 2^(w-1) − 1. -/
def serialNewer (w a b : Nat) : Bool :=
  let d := (2 ^ w + a - b % 2 ^ w) % 2 ^ w
  decide (1 ≤ d) && decide (d < 2 ^ (w - 1))

end Sys2Proof.Machine
end

