-- ==== Sys2Proof/Syntax.lean ====
section
/-! DEFINITION. The commands of the block: one constructor per row of the opcode table, with the row's operands.
What the world brings (a parity outcome, a measured time, the bytes of a frame) is an operand. -/

namespace Sys2Proof

/-- Who makes a register or memory access (R375, R492 source codes 0 to 3). -/
inductive Source where
  /-- an RDMA request of a pen -/
  | rdma (pen : Fin 16)
  /-- a management core -/
  | core (k : Fin 4)
  /-- the debug port -/
  | jtag
  /-- a DEBUG message of pen 0 -/
  | debug
  deriving DecidableEq, Repr

/-- The outcome of the SEC-DED check of the tile storage an operation reads (R134). -/
inductive Ecc where
  | ok | corrected | uncorrectable
  deriving DecidableEq, Repr

/-- A 64-byte line found in error: its device address and its number of symbols in error (R256 to R258). -/
structure LineErr where
  /-- device address of the line -/
  addr : Nat
  /-- symbols in error: 1 or 2 corrected, 3 to 6 uncorrectable -/
  syms : Nat
  deriving DecidableEq, Repr

/-- Where a bus parity failure lies (R374, R499). -/
inductive BusFail where
  | none | noc (die : Fin 2) | bridge (die : Fin 2) | iodb (die : Fin 2)
  deriving DecidableEq, Repr

/-- A VEC syllable but for its opcode (R176), and whether its residue or table parity check fails (R374). -/
structure VecSyl where
  /-- format, bits [25:24] -/
  fmt : BitVec 2
  /-- bits [23:9], which must be zero -/
  rsv : BitVec 15
  /-- vector descriptor -/
  desc : Fin 512
  /-- a residue mismatch or a function-table parity failure -/
  residue : Bool
  deriving DecidableEq, Repr

/-- One flock entry of a marker (R208). -/
structure FlockEntry where
  /-- flock index -/
  flock : Fin 16
  /-- state, by marker kind -/
  state : Nat
  /-- step number -/
  step : Nat
  deriving DecidableEq, Repr

/-- The SWAP fields of a marker (R213). -/
structure SwapFields where
  /-- flock index -/
  flock : Fin 16
  /-- status of a refusal -/
  status : Nat
  /-- digest of the outgoing drove -/
  outgoing : List Byte
  /-- digest of the incoming drove -/
  incoming : List Byte
  /-- T_s -/
  ts : Nat
  deriving DecidableEq, Repr

/-- One entry of a SLACK or CREDIT marker (R443): a device and its slack. -/
structure SlackEntry where
  /-- device ID -/
  dev : Nat
  /-- unspent slack, cycles -/
  slack : Nat
  deriving DecidableEq, Repr

/-- A marker payload (R208). The kind is the command that carries it. -/
structure Marker where
  /-- domain ID -/
  domain : Nat
  /-- sender's device ID -/
  sender : Nat
  /-- hop count from the bellwether -/
  hop : Nat
  /-- tally number -/
  num : Nat
  /-- TICK: the sender's timebase at departure; DECIDE: F(n + 1) -/
  time : Nat
  /-- quanta -/
  q : Nat
  /-- REPORT: the exchange is COMMIT -/
  commitExchange : Bool
  /-- REPORT: a child report was missing -/
  childMissing : Bool
  /-- flock entries -/
  flocks : List FlockEntry
  /-- readiness byte of each flock with an announced swap -/
  ready : List (Fin 16 × Nat)
  /-- SLACK and CREDIT entries -/
  slacks : List SlackEntry
  deriving DecidableEq, Repr

/-- What a boot calibration finds on one array (R69). -/
structure CalResult where
  /-- gain trims, unsigned 2.14 -/
  g : List Nat
  /-- offset trims, 1/64 LSB -/
  o : List Int
  /-- gain-step ratio trims, one per gain setting -/
  ratio : List Rat
  /-- residual nonlinearity, 1/256 LSB, rounded up; an array keeps it within 0.25 LSB (R70) -/
  inl : Fin 65
  /-- sums of z by column over the 256 zero-input conversions that end the sequence (R56, R69) -/
  zs : List Int
  /-- sums of z² by column over them -/
  zq : List Nat
  deriving DecidableEq, Repr

/-- A transfer of which another command gives the effect, and this one the parity of its passage (R374). -/
inductive Passage where
  | hwr | laneBlock | lsnd | loader
  deriving DecidableEq, Repr

/-- Which pending transfer becomes visible (R22, R331), or passes a bus for a fold (R374). -/
inductive VisSrc where
  | fold (f : Fin 68)
  | link (l : Fin 96)
  | passing (what : Passage) (f : Fin 68)
  deriving DecidableEq, Repr

/-- Which marker is missing (R209). -/
inductive Missing where
  | tick | decide | commit
  deriving DecidableEq, Repr

/-- The transport fields of a RoCEv2 packet, or of the first of several that one command stands for (R346, R350). -/
structure Pkt where
  /-- packet sequence number -/
  psn : BitVec 24
  /-- a packet was marked ECN Congestion Experienced -/
  ce : Bool
  /-- the ICRC fails -/
  icrcBad : Bool
  deriving DecidableEq, Repr

/-- The head of a Shobuic message (R353), the channel it came on, and the SENDs that carried it; a message of the ring path has
come in RDMA WRITEs, and nothing looks at its `pkt` (R355). -/
structure MsgHead where
  /-- pen of the channel -/
  pen : Fin 16
  /-- channel index -/
  ch : Fin 128
  /-- sequence -/
  seq : BitVec 24
  /-- host tag -/
  tag : BitVec 64
  /-- a reserved field of the header is not zero, or the length exceeds 65,536 -/
  bad : Bool
  /-- the packets that carried it -/
  pkt : Pkt
  /-- which opening of its channel the message belongs to: the device's own count, which it writes here as it takes the message -/
  life : Nat := 0
  deriving DecidableEq, Repr

/-- What every incoming flit carries besides its body (R322, R323). -/
structure FlitHead where
  /-- flit sequence -/
  seq : BitVec 12
  /-- acknowledged sequence -/
  ack : BitVec 12
  /-- NACK bit -/
  nack : Bool
  /-- the CRC that it carries -/
  crc : Word
  /-- FEC marks it uncorrectable -/
  fec : Bool
  deriving DecidableEq, Repr

/-- A marker flit as it arrives: its header's transport fields and its payload (R208, R322). -/
structure MarkerFlit where
  /-- header -/
  head : FlitHead
  /-- payload -/
  body : Marker
  deriving DecidableEq, Repr

/-- A SWAP marker flit as it arrives: its header's transport fields, its payload, and the swap's fields (R208, R213, R322). -/
structure SwapFlit where
  /-- header -/
  head : FlitHead
  /-- payload -/
  body : Marker
  /-- the swap -/
  swap : SwapFields
  deriving DecidableEq, Repr

/-- The transfer descriptor that a MOV syllable names, with the errors that the transfer's reads of staging find (R161, R256). -/
structure MovRef where
  /-- descriptor index -/
  desc : Fin 1024
  /-- staging lines in error -/
  lines : List LineErr
  deriving DecidableEq, Repr

/-- A flit that carries no marker, as it arrives (R322). Bytes 6 to 15 of its header count for DATA only, and are zero in others. -/
structure Flit where
  /-- sequence, acknowledgement, CRC -/
  head : FlitHead
  /-- zero-payload bit -/
  zero : Bool
  /-- destination device ID -/
  dev : BitVec 15
  /-- destination logical slot -/
  slot : BitVec 6
  /-- destination space -/
  space : BitVec 2
  /-- destination address, 256-byte units -/
  addr : Word
  /-- tally number bits [15:0] of the sending tick -/
  tally : BitVec 16
  /-- payload, 256 bytes -/
  payload : List Byte
  /-- CTRL: the backpressure stop bit of its payload, whose layout the spec leaves open -/
  stop : Bool
  deriving DecidableEq, Repr

/-- A complete message of the message layer (R337). -/
structure LinkMsg where
  /-- source device ID -/
  source : Fin 32768
  /-- message sequence -/
  seq : BitVec 16
  /-- data -/
  data : List Byte
  deriving DecidableEq, Repr

/-- An Ethernet frame as the address, type and PAUSE rules see it (R343 to R345, R364). -/
structure EthFrame where
  /-- destination MAC address -/
  dst : BitVec 48
  /-- source MAC address -/
  src : BitVec 48
  /-- VLAN tag, when tagged -/
  vlan : Option (BitVec 12)
  /-- EtherType -/
  etype : BitVec 16
  /-- FCS error -/
  fcsBad : Bool
  /-- frame length without FCS, bytes -/
  len : Nat
  /-- payload -/
  payload : List Byte
  deriving DecidableEq, Repr

/-- An RDMA request to a region (R347 to R349). -/
structure RdmaReq where
  /-- queue pair -/
  qp : Fin 2048
  /-- packet sequence number -/
  psn : BitVec 24
  /-- key -/
  key : Word
  /-- virtual address: region-relative -/
  addr : Nat
  /-- length, bytes -/
  len : Nat
  /-- the packet was CE-marked -/
  ce : Bool
  /-- its ICRC fails -/
  icrcBad : Bool
  deriving DecidableEq, Repr

/-- The transport fields of the request's packets. -/
def RdmaReq.pkt (r : RdmaReq) : Pkt := { psn := r.psn, ce := r.ce, icrcBad := r.icrcBad }

/-- The header of a CHANNEL_OPEN, which comes on a queue pair and not on a channel (R352, R353). -/
structure OpenHead where
  /-- sequence -/
  seq : BitVec 24
  /-- a reserved field of the header is not zero, or the length exceeds 65,536 -/
  bad : Bool
  /-- the packets that carried it -/
  pkt : Pkt
  deriving DecidableEq, Repr

/-- What an acknowledgement packet says (R346 and the InfiniBand Architecture Specification's acknowledgement syndromes). -/
inductive AckKind where
  /-- acknowledged -/
  | ack
  /-- NAK: PSN sequence error -/
  | sequence
  /-- NAK: receiver not ready -/
  | notReady
  /-- NAK: invalid request -/
  | invalid
  /-- NAK: remote access error -/
  | access
  /-- NAK: remote operational error -/
  | operational
  deriving DecidableEq, Repr

/-- How an NVMe read ended, and the packets that say so (R271, R346). -/
structure NvmeEnd where
  /-- it ended with its data; else with an error status -/
  ok : Bool
  /-- the packets: the data's RDMA WRITEs, and the completion entry's SEND -/
  pkt : Pkt
  deriving DecidableEq, Repr

/-- A connection-manager message (R346). -/
structure CmMsg where
  /-- pen whose address it was sent to -/
  pen : Fin 16
  /-- set up, or tear down -/
  setup : Bool
  /-- queue pair, for a teardown -/
  qp : Fin 2048
  /-- path MTU asked for -/
  mtu : Nat
  /-- the peer's first PSN -/
  psn : BitVec 24
  /-- retry count of the peer's connection parameters -/
  retries : Fin 8
  /-- the NVMe target whose answer to the device's own request it is (`setup`: it accepts); none for a host's message -/
  target : Option (Fin 64)
  /-- the packet was marked ECN Congestion Experienced -/
  ce : Bool
  /-- its ICRC fails -/
  icrcBad : Bool
  deriving DecidableEq, Repr

/-- A PTP message with its timestamps (R351), ns. -/
structure PtpMsg where
  /-- origin timestamp of the grandmaster -/
  origin : Int
  /-- local receive timestamp -/
  rx : Int
  /-- local transmit timestamp of the delay request -/
  tx : Int
  /-- correction field -/
  corr : Int
  /-- a Follow_Up comes -/
  twoStep : Bool
  /-- PTP sequence -/
  seq : BitVec 16
  deriving DecidableEq, Repr

/-- The commands (opcode table). -/
inductive Instr where
  /-- REGISTER_WRITE, R9 -/
  | registerWrite (src : Source) (page : Fin 256) (word : Fin 1024) (v : Word)
  /-- HI_WORD_LATCH, R489 -/
  | hiWordLatch (src : Source) (page : Fin 256) (word : Fin 1024)
  /-- CNT_CLR, R485 -/
  | cntClr (src : Source) (page : Fin 256)
  /-- BOOT_LOCK, R485 -/
  | bootLock (src : Source) (page : Fin 256)
  /-- LOG_ENTRY_LATCH, R497 -/
  | logEntryLatch (src : Source)
  /-- LOG_AUTO_ADVANCE, R497 -/
  | logAutoAdvance (src : Source)
  /-- TICK_FIRE, R204 -/
  | tickFire
  /-- BUNDLE_ISSUE, R156 -/
  | bundleIssue (fold : Fin 68) (parityFail : Bool)
  /-- TEND, R157 -/
  | tend (fold : Fin 68)
  /-- SEND, R157 -/
  | send (fold : Fin 68)
  /-- ANOP, R162 -/
  | anop (fold : Fin 68) (rest : BitVec 28)
  /-- LNOP, R162 -/
  | lnop (fold : Fin 68) (rest : BitVec 20)
  /-- VEC_NOP, R162 -/
  | vecNop (fold : Fin 68) (rest : BitVec 26)
  /-- MNOP, R162 -/
  | mnop (fold : Fin 68) (rest : BitVec 28)
  /-- CONV, R165 -/
  | conv (fold : Fin 68) (mask : BitVec 16) (rsv : BitVec 2) (desc : Fin 1024)
  /-- CONV_LATCH, R168 -/
  | convLatch (fold : Fin 68) (array : Fin 16)
  /-- ZERO_INPUT_CONVERSION, R36 -/
  | zeroInputConversion (fold : Fin 68) (array : Fin 16)
  /-- CONV_DELIVER, R35 -/
  | convDeliver (fold : Fin 68) (array : Fin 16) (residue : Bool)
  /-- ADD_ALIGN, R136 -/
  | addAlign (fold : Fin 68) (ecc : Ecc)
  /-- PSW, R169 -/
  | psw (fold : Fin 68) (mask : BitVec 16) (rsv : BitVec 12)
  /-- PLANE_SWITCH, R39 -/
  | planeSwitch (fold : Fin 68)
  /-- PLD, R175 -/
  | pld (fold : Fin 68) (a0 count1 : Fin 16) (rsv : BitVec 3) (desc : Fin 512) (badRows : List (Fin 16 × Fin 1024)) (lines : List LineErr)
  /-- TCLR, R170 -/
  | tclr (fold : Fin 68) (mode : BitVec 2) (tag te : BitVec 8) (rsv : BitVec 3) (tile : Fin 128)
  /-- TRND, R172 -/
  | trnd (fold : Fin 68) (tile : Fin 128) (tag : BitVec 8) (close : Bool) (rsv : BitVec 3) (desc : Fin 512) (ecc : Ecc)
  /-- RESOLVE_WINDOW_END, R122 -/
  | resolveWindowEnd (fold : Fin 68) (residue : Bool)
  /-- TRND_DELIVER, R172 -/
  | trndDeliver (fold : Fin 68)
  /-- TCMB, R173 -/
  | tcmb (fold : Fin 68) (tile : Fin 128) (tag : BitVec 8) (image : BitVec 13) (ecc : Ecc)
  /-- COMBINE_LAND, R173 -/
  | combineLand (fold : Fin 68)
  /-- VADD, R177 -/
  | vadd (fold : Fin 68) (v : VecSyl)
  /-- VSUB, R177 -/
  | vsub (fold : Fin 68) (v : VecSyl)
  /-- VMUL, R177 -/
  | vmul (fold : Fin 68) (v : VecSyl)
  /-- VFMA, R177 -/
  | vfma (fold : Fin 68) (v : VecSyl)
  /-- VMAX, R178 -/
  | vmax (fold : Fin 68) (v : VecSyl)
  /-- VMIN, R178 -/
  | vmin (fold : Fin 68) (v : VecSyl)
  /-- VCMPLT, R177 -/
  | vcmplt (fold : Fin 68) (v : VecSyl)
  /-- VWIDE, R177 -/
  | vwide (fold : Fin 68) (v : VecSyl)
  /-- VNARR, R177 -/
  | vnarr (fold : Fin 68) (v : VecSyl)
  /-- VDEC, R178 -/
  | vdec (fold : Fin 68) (v : VecSyl)
  /-- VEXP, R179 -/
  | vexp (fold : Fin 68) (v : VecSyl)
  /-- VRCP, R179 -/
  | vrcp (fold : Fin 68) (v : VecSyl)
  /-- VRSQ, R179 -/
  | vrsq (fold : Fin 68) (v : VecSyl)
  /-- VSILU, R179 -/
  | vsilu (fold : Fin 68) (v : VecSyl)
  /-- VGELU, R179 -/
  | vgelu (fold : Fin 68) (v : VecSyl)
  /-- VROPE, R179 -/
  | vrope (fold : Fin 68) (v : VecSyl)
  /-- VRSUM, R180 -/
  | vrsum (fold : Fin 68) (v : VecSyl)
  /-- VRMAX, R180 -/
  | vrmax (fold : Fin 68) (v : VecSyl)
  /-- VARGMX, R181 -/
  | vargmx (fold : Fin 68) (v : VecSyl)
  /-- VDRAW, R181 -/
  | vdraw (fold : Fin 68) (v : VecSyl)
  /-- VWALK, R181 -/
  | vwalk (fold : Fin 68) (v : VecSyl)
  /-- VQMX4, R177 -/
  | vqmx4 (fold : Fin 68) (v : VecSyl)
  /-- VQI4, R177 -/
  | vqi4 (fold : Fin 68) (v : VecSyl)
  /-- XFER, R183 -/
  | xfer (fold : Fin 68) (rsv : BitVec 18) (desc : MovRef)
  /-- HRD, R245 -/
  | hrd (fold : Fin 68) (rsv : BitVec 18) (desc : Fin 1024) (lines : List LineErr)
  /-- HWR, R245 -/
  | hwr (fold : Fin 68) (rsv : BitVec 18) (desc : MovRef)
  /-- LSND, R328 -/
  | lsnd (fold : Fin 68) (rsv : BitVec 18) (desc : MovRef)
  /-- TSND, R183 -/
  | tsnd (fold : Fin 68) (tile : Fin 128) (tag : BitVec 8) (rsv : BitVec 3) (desc : Fin 1024) (ecc : Ecc)
  /-- DATA_VISIBLE, R22 -/
  | dataVisible (src : VisSrc) (late : Nat) (parity : BusFail)
  /-- HWR_COMPLETE, R245 -/
  | hwrComplete (fold : Fin 68)
  /-- PAUSE_RELEASE, R138 -/
  | pauseRelease
  /-- FOLD_STATE, R146 -/
  | foldState (src : Source) (fold : Fin 68) (v : BitVec 2)
  /-- TILE_WINDOW_WRITE, R516 -/
  | tileWindowWrite (src : Source) (fold : Fin 68) (offset : BitVec 24) (v : BitVec 64)
  /-- CAL_FORCE, R51 -/
  | calForce (src : Source) (fold : Fin 68)
  /-- CAL_PERIOD_EXPIRY, R51 -/
  | calPeriodExpiry (fold : Fin 68)
  /-- CAL_WINDOW_CLOSE, R54 -/
  | calWindowClose (fold : Fin 68) (array : Fin 16)
  /-- CAL_WINDOW_TIMEOUT, R54 -/
  | calWindowTimeout (fold : Fin 68) (array : Fin 16)
  /-- CAL_APPLY, R59 -/
  | calApply (fold : Fin 68) (array : Fin 16)
  /-- BOOT_CALIBRATION, R69 -/
  | bootCalibration (fold : Fin 68) (results : List CalResult)
  /-- HOLD_CUTOFF, R220 -/
  | holdCutoff
  /-- HOLD_REPORT_SEND, R220 -/
  | holdReportSend
  /-- REPORT, R220 -/
  | report (link : Fin 96) (m : MarkerFlit)
  /-- SLACK, R443 -/
  | slack (link : Fin 96) (m : MarkerFlit)
  /-- DECIDE_SEND, R220 -/
  | decideSend
  /-- DECIDE, R204 -/
  | decide (link : Fin 96) (m : MarkerFlit)
  /-- CREDIT, R444 -/
  | credit (link : Fin 96) (m : MarkerFlit)
  /-- TICK, R209 -/
  | tick (link : Fin 96) (m : MarkerFlit) (offset : Int)
  /-- MARKER_MISSING, R209 -/
  | markerMissing (what : Missing)
  /-- COMMIT_POINT, R224 -/
  | commitPoint
  /-- COMMIT_REPORT_SEND, R226 -/
  | commitReportSend
  /-- COMMIT_SEND, R226 -/
  | commitSend
  /-- COMMIT, R227 -/
  | commit (link : Fin 96) (m : MarkerFlit)
  /-- TALLY_ENABLE, R209 -/
  | tallyEnable (src : Source) (on : Bool)
  /-- TALLY_START, R209 -/
  | tallyStart (src : Source)
  /-- DROVE_LOAD, R200 -/
  | droveLoad (h : MsgHead) (body : List Byte)
  /-- DROVE_UNLOAD, R200 -/
  | droveUnload (h : MsgHead) (body : List Byte)
  /-- DROVE_SWAP, R211 -/
  | droveSwap (h : MsgHead) (body : List Byte)
  /-- SWAP_ANNOUNCE, R213 -/
  | swapAnnounce (link : Fin 96) (w : SwapFlit)
  /-- SWAP_CONFIRM, R213 -/
  | swapConfirm (link : Fin 96) (w : SwapFlit)
  /-- SWAP_REFUSE, R213 -/
  | swapRefuse (link : Fin 96) (w : SwapFlit)
  /-- PAGE_TICK, R231 -/
  | pageTick
  /-- PAGE_WINDOW_SET, R231 -/
  | pageWindowSet
  /-- CKPT_WRITE_DONE, R399 -/
  | ckptWriteDone (pen : Fin 16) (flock : Fin 16)
  /-- LANE_BLOCK_BUILD, R304 -/
  | laneBlockBuild (flock : Fin 16)
  /-- LANE_BLOCK_LAND, R28 -/
  | laneBlockLand (fold : Fin 68)
  /-- ADMIT, R358 -/
  | admitMsg (h : MsgHead) (body : List Byte)
  /-- ABORT, R316 -/
  | abort (h : MsgHead) (body : List Byte)
  /-- PFX_KEY, R312 -/
  | pfxKey (src : Source) (pen : Fin 16) (k : Fin 4) (v : Word)
  /-- SCRUB, R258 -/
  | scrub (line : LineErr)
  /-- HBM_RETIRE_START, R259 -/
  | hbmRetireStart (src : Source) (stack : Fin 8)
  /-- RETIRE_COPY_DONE, R260 -/
  | retireCopyDone (stack : Fin 8)
  /-- STAGING_WRITE_RESUME, R255 -/
  | stagingWriteResume
  /-- EPOCH_OPEN, R279 -/
  | epochOpen (h : MsgHead) (body : List Byte)
  /-- SHARD_FETCH, R271 -/
  | shardFetch (h : MsgHead) (body : List Byte)
  /-- SHARD_PUSH, R272 -/
  | shardPush (h : MsgHead) (body : List Byte)
  /-- ARRIVAL_CANCEL, R285 -/
  | arrivalCancel (h : MsgHead) (body : List Byte)
  /-- EPOCH_SWITCH, R281 -/
  | epochSwitch (h : MsgHead) (body : List Byte)
  /-- EPOCH_RETIRE, R284 -/
  | epochRetire (h : MsgHead) (body : List Byte)
  /-- NVME_COMPLETION, R271 -/
  | nvmeCompletion (target : Fin 64) (cid : Nat) (ends : NvmeEnd) (data : List Byte)
  /-- NVME_TIMEOUT, R271 -/
  | nvmeTimeout (target : Fin 64) (cid : Nat)
  /-- SHARD_COMPLETE, R273 -/
  | shardComplete (pen : Fin 16) (tag : BitVec 64)
  /-- RECHECK, R277 -/
  | recheck
  /-- SHARD_REPAIR, R278 -/
  | shardRepair (pen : Fin 16) (epoch shard : Nat)
  /-- LINK_ENABLE, R324 -/
  | linkEnable (src : Source) (link : Fin 96) (on : Bool)
  /-- RETRAIN, R324 -/
  | retrain (src : Source) (link : Fin 96)
  /-- TRAINING_DONE, R324 -/
  | trainingDone (link : Fin 96) (peer : Fin 32768) (peerLink : Fin 96) (install : Word) (lambda : Nat)
  /-- TRAINING_TIMEOUT, R324 -/
  | trainingTimeout (link : Fin 96)
  /-- FAILED_RETRY_TIMER, R324 -/
  | failedRetryTimer (link : Fin 96)
  /-- DATA_FLIT, R331 -/
  | dataFlit (link : Fin 96) (f : Flit)
  /-- IDLE_FLIT, R322 -/
  | idleFlit (link : Fin 96) (f : Flit)
  /-- CTRL_FLIT, R322 -/
  | ctrlFlit (link : Fin 96) (f : Flit)
  /-- ACK_TIMEOUT, R325 -/
  | ackTimeout (link : Fin 96)
  /-- RETRY_EPISODE_TIMEOUT, R326 -/
  | retryEpisodeTimeout (link : Fin 96)
  /-- SEND_SLOT, R328 -/
  | sendSlot (link : Fin 96)
  /-- FORWARD_SLOT, R334 -/
  | forwardSlot (link : Fin 96)
  /-- MGMT_MESSAGE, R337 -/
  | mgmtMessage (m : LinkMsg)
  /-- LANE_BLOCK_MESSAGE, R290 -/
  | laneBlockMessage (m : LinkMsg)
  /-- CHECKPOINT_MESSAGE, R397 -/
  | checkpointMessage (m : LinkMsg)
  /-- MESSAGE_ACK, R338 -/
  | messageAck (source : Fin 32768) (cls : Fin 8) (seq : BitVec 16)
  /-- MESSAGE_TIMEOUT, R338 -/
  | messageTimeout (dest : Fin 32768) (cls : Fin 8)
  /-- MUSTER_FRAME, R340 -/
  | musterFrame (v : Fin 32)
  /-- MUSTER_HEAD_TIMEOUT, R340 -/
  | musterHeadTimeout
  /-- MUSTER_TIMEOUT, R340 -/
  | musterTimeout
  /-- MUSTER_FRAME_SEND, R340 -/
  | musterFrameSend
  /-- ETH_FRAME, R344 -/
  | ethFrame (f : EthFrame)
  /-- ARP_REQUEST, R345 -/
  | arpRequest (f : EthFrame)
  /-- NEIGHBOUR_SOLICITATION, R345 -/
  | neighbourSolicitation (f : EthFrame)
  /-- ECHO_REQUEST, R345 -/
  | echoRequest (f : EthFrame)
  /-- RDMA_WRITE, R347 -/
  | rdmaWrite (r : RdmaReq) (data : List Byte)
  /-- RDMA_READ, R347 -/
  | rdmaRead (r : RdmaReq)
  /-- ATOMIC, R346 -/
  | atomic (qp : Fin 2048) (pkt : Pkt)
  /-- RC_ACK, R346 -/
  | rcAck (qp : Fin 2048) (pkt : Pkt) (kind : AckKind)
  /-- RC_ACK_TIMEOUT, R346 -/
  | rcAckTimeout (qp : Fin 2048)
  /-- CM_MESSAGE, R346 -/
  | cmMessage (m : CmMsg)
  /-- CNP, R350 -/
  | cnp (qp : Fin 2048)
  /-- RATE_RECOVERY, R350 -/
  | rateRecovery (qp : Fin 2048)
  /-- PTP_SYNC, R351 -/
  | ptpSync (p : PtpMsg)
  /-- PTP_FOLLOW_UP, R351 -/
  | ptpFollowUp (p : PtpMsg)
  /-- PTP_DELAY_RESP, R351 -/
  | ptpDelayResp (p : PtpMsg)
  /-- PTP_HOLDOVER, R351 -/
  | ptpHoldover
  /-- CHANNEL_OPEN, R352 -/
  | channelOpen (pen : Fin 16) (qp : Fin 2048) (head : OpenHead) (tag : BitVec 64) (body : List Byte)
  /-- CHANNEL_CLOSE, R356 -/
  | channelClose (h : MsgHead) (body : List Byte)
  /-- NOP, R356 -/
  | nop (h : MsgHead) (body : List Byte)
  /-- NVME_TARGET_ENTRY, R356 -/
  | nvmeTargetEntry (h : MsgHead) (body : List Byte)
  /-- UPD_BEGIN, R473 -/
  | updBegin (h : MsgHead) (body : List Byte)
  /-- UPD_PIECE, R473 -/
  | updPiece (h : MsgHead) (body : List Byte)
  /-- UPD_STATUS, R473 -/
  | updStatus (h : MsgHead) (body : List Byte)
  /-- UPD_ACTIVATE, R475 -/
  | updActivate (h : MsgHead) (body : List Byte)
  /-- UPD_CONFIRM, R475 -/
  | updConfirm (h : MsgHead) (body : List Byte)
  /-- UPD_ABANDON, R473 -/
  | updAbandon (h : MsgHead) (body : List Byte)
  /-- UPD_REVERT, R475 -/
  | updRevert (h : MsgHead) (body : List Byte)
  /-- DEBUG_READ, R469 -/
  | debugRead (h : MsgHead) (body : List Byte)
  /-- DEBUG_WRITE, R469 -/
  | debugWrite (h : MsgHead) (body : List Byte)
  /-- DEBUG_HALT, R469 -/
  | debugHalt (h : MsgHead) (body : List Byte)
  /-- DEBUG_RESUME, R469 -/
  | debugResume (h : MsgHead) (body : List Byte)
  /-- CH_SQ_TAIL, R355 -/
  | chSqTail (src : Source) (pen : Fin 16) (ch : Fin 128) (v : Word)
  /-- CH_TR_HEAD, R361 -/
  | chTrHead (src : Source) (pen : Fin 16) (ch : Fin 128) (v : Word)
  /-- QP_ERROR, R363 -/
  | qpError (qp : Fin 2048)
  /-- ORPHAN_TIMEOUT, R363 -/
  | orphanTimeout (pen : Fin 16) (ch : Fin 128)
  /-- COLLIE_BLOCK_CLOSE, R370 -/
  | collieBlockClose (fold : Fin 68) (array : Fin 16)
  /-- AUDIT_SAMPLE, R373 -/
  | auditSample (fold : Fin 68) (array : Fin 16)
  /-- ARBITRATION_STAGE1, R379 -/
  | arbitrationStage1 (fold : Fin 68) (array : Fin 16)
  /-- ARBITRATION_STAGE3, R379 -/
  | arbitrationStage3 (fold : Fin 68) (array : Fin 16)
  /-- SPARE_FILL_DONE, R383 -/
  | spareFillDone (spare : Fin 68) (bad : List LineErr)
  /-- SPARE_SWITCH_END, R384 -/
  | spareSwitchEnd (spare : Fin 68)
  /-- ROTATION, R391 -/
  | rotation (die : Fin 2)
  /-- QUARANTINE_TEST_START, R388 -/
  | quarantineTestStart (fold : Fin 68)
  /-- SCAN_TEST_DONE, R390 -/
  | scanTestDone (fold : Fin 68) (pass : Bool) (results : List CalResult)
  /-- TEST_OVERDUE, R392 -/
  | testOverdue (fold : Fin 68)
  /-- RETIRE, R388 -/
  | retire (src : Source)
  /-- REPLAY_ENABLE, R412 -/
  | replayEnable (src : Source) (pen : Fin 16) (on : Bool)
  /-- HK_ROUND_START, R421 -/
  | hkRoundStart (unit : Fin 3)
  /-- HK_ENTRY_END, R418 -/
  | hkEntryEnd (unit : Fin 3) (codes : List (BitVec 12))
  /-- SPOT_REQUEST, R423 -/
  | spotRequest (unit : Fin 3) (ch : Fin 128) (avg : Fin 4)
  /-- SPOT_REQ_START, R423 -/
  | spotReqStart (src : Source) (unit : Fin 3)
  /-- HK_CAL_FORCE, R427 -/
  | hkCalForce (src : Source) (unit : Fin 3)
  /-- SWEEP_START, R428 -/
  | sweepStart (unit : Fin 3)
  /-- SWEEP_END, R429 -/
  | sweepEnd (unit : Fin 3) (a b : List Rat)
  /-- SENSOR_PUBLISH_TIMEOUT, R517 -/
  | sensorPublishTimeout (fold : Fin 68)
  /-- AVS_COMPLETE, R437 -/
  | avsComplete (rail : Fin 3)
  /-- VOLTAGE_SETTLED, R438 -/
  | voltageSettled
  /-- AVS_TIMEOUT, R437 -/
  | avsTimeout
  /-- MARGIN_INTERVAL, R439 -/
  | marginInterval (die : Fin 2) (guardFail tightFail : Bool)
  /-- MARGIN_EN, R453 -/
  | marginEn (src : Source) (on : Bool)
  /-- POWER_BIN, R441 -/
  | powerBin
  /-- DROOP_TRIP, R445 -/
  | droopTrip (die : Fin 2)
  /-- DROOP_STRETCH_END, R445 -/
  | droopStretchEnd
  /-- REG_ALERT_ASSERT, R447 -/
  | regAlertAssert (n : Fin 4)
  /-- REG_ALERT_RELEASE, R447 -/
  | regAlertRelease
  /-- ALERT_HOLD_END, R447 -/
  | alertHoldEnd
  /-- COMP_DISABLE, R450 -/
  | compDisable (die : Fin 3) (comp : Fin 8)
  /-- THERMAL_TRIP, R451 -/
  | thermalTrip (die : Fin 3) (comp : Fin 8)
  /-- THERMAL_RELEASE, R451 -/
  | thermalRelease
  /-- PWR_OK_RISE, R455 -/
  | pwrOkRise
  /-- PWR_OK_FALL, R507 -/
  | pwrOkFall
  /-- RESET_N_ASSERT, R455 -/
  | resetNAssert
  /-- RESET_RELEASE, R506 -/
  | resetRelease
  /-- SOFT_RESET, R455 -/
  | softReset (src : Source)
  /-- JTAG_RESET, R455 -/
  | jtagReset
  /-- JTAG_ACCESS, R468 -/
  | jtagAccess (write : Bool) (addr : Nat) (v : Word)
  /-- JTAG_HALT, R468 -/
  | jtagHalt (core : Fin 4)
  /-- JTAG_RESUME, R468 -/
  | jtagResume (core : Fin 4)
  /-- ANCHOR_CLEAR, R468 -/
  | anchorClear
  /-- TAP_LEAVE_RESET, R468 -/
  | tapLeaveReset
  /-- ATTEST_START, R463 -/
  | attestStart (src : Source)
  /-- ATTEST_DONE, R463 -/
  | attestDone
  /-- MSG_FLIT, R337 -/
  | msgFlit (link : Fin 96) (f : Flit)
  /-- ETH_LINK_CHANGE, R365 -/
  | ethLinkChange (up : Bool)
  /-- HBM_TEMP_REPORT, R419 -/
  | hbmTempReport (stack : Fin 8) (t : Int)
  /-- DROVE_LOAD_DONE, R200 -/
  | droveLoadDone (entry : Fin 32)
  /-- UNKNOWN_MESSAGE_TYPE, R359 -/
  | unknownMessageType (h : MsgHead) (typ : BitVec 8) (body : List Byte)
  deriving DecidableEq, Repr

end Sys2Proof
end

