-- ==== Sys2Proof/Decode.lean ====
section
/-! DEFINITION. The command that a word spells by the bits of the opcode table, and the syllables of a fold's bundle: the word of
each operation, and the operation of each word (R161 to R164, R174, R176, R177, R183). -/

namespace Sys2Proof

/-- The opcode table gives no row any bits: its rows are events and requests, not words. No word spells a command. -/
def decodeTableWord (_nbits _w : Nat) : Option Instr := none

/-! ## The words of a bundle's syllables -/

/-- CONV (R164). -/
def convWord (mask : BitVec 16) (rsv : BitVec 2) (desc : Fin 1024) : Nat := 2 ^ 28 + 4096 * mask.toNat + 1024 * rsv.toNat + desc

/-- PSW (R164). -/
def pswWord (mask : BitVec 16) (rsv : BitVec 12) : Nat := 2 * 2 ^ 28 + 4096 * mask.toNat + rsv.toNat

/-- TCLR (R164). -/
def tclrWord (mode : BitVec 2) (tag te : BitVec 8) (rsv : BitVec 3) (tile : Fin 128) : Nat :=
  3 * 2 ^ 28 + 2 ^ 26 * mode.toNat + 2 ^ 18 * tag.toNat + 1024 * te.toNat + 128 * rsv.toNat + tile

/-- TRND (R164). -/
def trndWord (tile : Fin 128) (tag : BitVec 8) (close : Bool) (rsv : BitVec 3) (desc : Fin 512) : Nat :=
  4 * 2 ^ 28 + 2 ^ 21 * tile + 8192 * tag.toNat + 4096 * close.toNat + 512 * rsv.toNat + desc

/-- TCMB (R164). -/
def tcmbWord (tile : Fin 128) (tag : BitVec 8) (image : BitVec 13) : Nat := 5 * 2 ^ 28 + 2 ^ 21 * tile + 8192 * tag.toNat + image.toNat

/-- PLD (R174). -/
def pldWord (a0 count1 : Fin 16) (rsv : BitVec 3) (desc : Fin 512) : Nat :=
  2 ^ 20 + 65536 * a0 + 4096 * count1 + 512 * rsv.toNat + desc

/-- A vector operation of opcode `op` (R176). -/
def vecWord (op : Nat) (v : VecSyl) : Nat := 2 ^ 26 * op + 2 ^ 24 * v.fmt.toNat + 512 * v.rsv.toNat + v.desc

/-- A transfer of opcode `op` with a descriptor alone (R183). -/
def movWord (op : Nat) (rsv : BitVec 18) (desc : Fin 1024) : Nat := 2 ^ 28 * op + 1024 * rsv.toNat + desc

/-- TSND (R183). -/
def tsndWord (tile : Fin 128) (tag : BitVec 8) (rsv : BitVec 3) (desc : Fin 1024) : Nat :=
  5 * 2 ^ 28 + 2 ^ 21 * tile + 8192 * tag.toNat + 1024 * rsv.toNat + desc

/-! ## The operations of the words -/

/-- A field of a word. -/
def wordBits (w lo : Nat) (n : Nat) : BitVec n := BitVec.ofNat n (w / 2 ^ lo)

/-- A field of a word as an index. -/
def wordFin (w lo n : Nat) : Fin (2 ^ n) := Fin.ofNat _ (w / 2 ^ lo)

/-- The operation of an ARR syllable; none for a reserved opcode (R164). What the world brings is as it is when nothing fails. -/
def arrCommand (fold : Fin 68) (w : Nat) : Option Instr := match w / 2 ^ 28 % 16 with
  | 0 => some (.anop fold (wordBits w 0 28))
  | 1 => some (.conv fold (wordBits w 12 16) (wordBits w 10 2) (wordFin w 0 10))
  | 2 => some (.psw fold (wordBits w 12 16) (wordBits w 0 12))
  | 3 => some (.tclr fold (wordBits w 26 2) (wordBits w 18 8) (wordBits w 10 8) (wordBits w 7 3) (wordFin w 0 7))
  | 4 => some (.trnd fold (wordFin w 21 7) (wordBits w 13 8) (w / 4096 % 2 == 1) (wordBits w 9 3) (wordFin w 0 9) .ok)
  | 5 => some (.tcmb fold (wordFin w 21 7) (wordBits w 13 8) (wordBits w 0 13) .ok)
  | _ => none

/-- The operation of an LDP syllable (R174). -/
def ldpCommand (fold : Fin 68) (w : Nat) : Option Instr := match w / 2 ^ 20 % 16 with
  | 0 => some (.lnop fold (wordBits w 0 20))
  | 1 => some (.pld fold (wordFin w 16 4) (wordFin w 12 4) (wordBits w 9 3) (wordFin w 0 9) [] [])
  | _ => none

/-- The operation of a VEC syllable (R176, R177). -/
def vecCommand (fold : Fin 68) (w : Nat) : Option Instr :=
  let v : VecSyl := ⟨wordBits w 24 2, wordBits w 9 15, wordFin w 0 9, false⟩
  match w / 2 ^ 26 % 64 with
  | 0x00 => some (.vecNop fold (wordBits w 0 26))
  | 0x01 => some (.vadd fold v)
  | 0x02 => some (.vsub fold v)
  | 0x03 => some (.vmul fold v)
  | 0x04 => some (.vfma fold v)
  | 0x05 => some (.vmax fold v)
  | 0x06 => some (.vmin fold v)
  | 0x07 => some (.vcmplt fold v)
  | 0x08 => some (.vwide fold v)
  | 0x09 => some (.vnarr fold v)
  | 0x0A => some (.vdec fold v)
  | 0x10 => some (.vexp fold v)
  | 0x11 => some (.vrcp fold v)
  | 0x12 => some (.vrsq fold v)
  | 0x13 => some (.vsilu fold v)
  | 0x14 => some (.vgelu fold v)
  | 0x15 => some (.vrope fold v)
  | 0x18 => some (.vrsum fold v)
  | 0x19 => some (.vrmax fold v)
  | 0x1A => some (.vargmx fold v)
  | 0x20 => some (.vdraw fold v)
  | 0x21 => some (.vwalk fold v)
  | 0x28 => some (.vqmx4 fold v)
  | 0x29 => some (.vqi4 fold v)
  | _ => none

/-- The operation of a MOV syllable (R183). -/
def movCommand (fold : Fin 68) (w : Nat) : Option Instr := match w / 2 ^ 28 % 16 with
  | 0 => some (.mnop fold (wordBits w 0 28))
  | 1 => some (.xfer fold (wordBits w 10 18) ⟨wordFin w 0 10, []⟩)
  | 2 => some (.hrd fold (wordBits w 10 18) (wordFin w 0 10) [])
  | 3 => some (.hwr fold (wordBits w 10 18) ⟨wordFin w 0 10, []⟩)
  | 4 => some (.lsnd fold (wordBits w 10 18) ⟨wordFin w 0 10, []⟩)
  | 5 => some (.tsnd fold (wordFin w 21 7) (wordBits w 13 8) (wordBits w 10 3) (wordFin w 0 10) .ok)
  | _ => none

/-- The operation of a syllable: 0 ARR, 1 LDP, 2 VEC, 3 MOV. -/
def syllableCommand (fold : Fin 68) : Nat → Nat → Option Instr
  | 0 => arrCommand fold
  | 1 => ldpCommand fold
  | 2 => vecCommand fold
  | _ => movCommand fold

/-- A syllable of a bundle (R161). -/
def syllableWord (b : Nat) : Nat → Nat
  | 0 => Machine.bits b 88 32
  | 1 => Machine.bits b 64 24
  | 2 => Machine.bits b 32 32
  | _ => Machine.bits b 0 32

/-- A syllable with a reserved opcode (R192 code 1). -/
def reservedOp (slot w : Nat) : Bool := (syllableCommand 0 slot w).isNone

end Sys2Proof
end

