-- ==== Sys2Proof/Config.lean ====
section
/-! DEFINITION. The values the spec leaves open: opaque constants without a body, so that nothing can be proved of
their values. -/

namespace Sys2Proof

/-- The deviation of a column's analogue value from S_c / Δ, in LSB, for the n-th free value drawn (R46; DESIGN CHOICE, log entry 8). -/
opaque Config.analogue : Nat → Rat

/-- Whether an array's analogue sequence fails in the n-th free value drawn: a failing array keeps no limit of R70 (R113; DESIGN
CHOICE, log entry 8). -/
opaque Config.arrayFails : Nat → Bool

/-- The mesh outputs on the way from one router or edge port of the device to another, each with the number of hops before it: the device
derives its routes itself, and the spec gives no geometry of the mesh (R21, R199; DESIGN CHOICE, log entry 26). -/
opaque Config.meshRoute : Nat → Nat → List (Nat × Nat)

/-- A free whole number for the n-th free value drawn (DESIGN CHOICE, log entry 7). -/
opaque Config.freeNat : Nat → Nat

/-- Which of a drafting lane's draws a VDRAW makes: the drove's own choice at a place of a step, for a lane entry (R182, R313; DESIGN
CHOICE, log entry 12). -/
opaque Config.drawPlace : List Nat → Nat

/-- The position of a continuing decode lane whose request this device does not hold: the drove's own state, for a handle and a step
(R299; DESIGN CHOICE, log entry 44). -/
opaque Config.lanePos : Nat → Nat → Nat

/-- The vector function tables: operation, format and operand bits give the result bits (R179; DESIGN CHOICE, log entry 9). -/
opaque Config.vectorTable : Nat → Nat → Nat → Nat

/-- Whether an SLH-DSA signature verifies: key, message, signature (R459, R471; DESIGN CHOICE, log entry 10). -/
opaque Config.signatureOk : List Byte → List Byte → List Byte → Bool

/-- The attestation signature over a report with the key of an identity (R463; DESIGN CHOICE, log entry 10). -/
opaque Config.signReport : List Byte → List Byte → List Byte

/-- The 256-bit seed that the SRAM-PUF and its helper data rebuild, none when they do not (R461; DESIGN CHOICE, log entry 10). -/
opaque Config.pufSeed : List Byte → Option (List Byte)

/-- The public key of slh_keygen_internal of FIPS 205 from SK.seed, SK.prf and PK.seed (R461; DESIGN CHOICE, log entry 10). -/
opaque Config.slhPublic : List Byte → List Byte

/-- Trellyn's public key in the boot ROM (R457; DESIGN CHOICE, log entry 10). -/
opaque Config.romKey : List Byte

/-- The boot ROM image (R462; DESIGN CHOICE, log entry 10). -/
opaque Config.romImage : List Byte

/-- The version of the boot ROM (R471; DESIGN CHOICE, log entry 10). -/
opaque Config.romVersion : Nat

/-- The scan table of a housekeeping unit in the signed housekeeping tables of an image: channel and averaging code of each
entry (R420; DESIGN CHOICE, log entry 11). -/
opaque Config.scanTable : List Byte → Nat → List (Nat × Nat)

/-- What the settings converter of an image makes of a settings area (R476; DESIGN CHOICE, log entry 10). -/
opaque Config.convertSettings : List Byte → List Byte → List Byte

/-- The physical value of a channel in the units of its telemetry register, from the exact mean of its trimmed codes: the housekeeping
tables of the image that runs, the channel's coefficients of the package record, unit, channel and mean. The layout of the tables and the
formula are open (R418; DESIGN CHOICE, log entry 11). -/
opaque Config.housekeeping : List Byte → List Rat → Nat → Nat → Rat → Rat

/-- The leakage of a die, W, at the hottest valid temperature of the die in 1/16 °C, or without one: the package record's bytes, die and
temperature (R441; DESIGN CHOICE, log entry 117). -/
opaque Config.leakage : List Byte → Nat → Option Int → Rat

/-- Byte `n` of the 4 KiB anchor record that holds a digest (R464, R470; DESIGN CHOICE, log entry 118). -/
opaque Config.anchorByte : List Byte → Nat → Byte

/-- The management core that runs an IOD service, by the service's number (R469; DESIGN CHOICE, log entry 119). -/
opaque Config.serviceCore : Nat → Nat

/-- Byte `n` of the payload of a CTRL flit that carries the backpressure stop bit: the spec leaves its layout open (R322, R333; DESIGN
CHOICE, log entry 96). -/
opaque Config.ctrlPayload : Bool → Nat → Byte

end Sys2Proof
end

