-- ==== Sys2Proof/Machine/RegTable.lean ====
section
/-! DEFINITION. The register map: every register field of the register tables, with its place, access code,
reset value and the limits a write is brought into (R9, R19, R71, R104, R132, R152, R195, R238, R262 to R264,
R287, R288, R318, R319, R341, R342, R365, R366, R400 to R402, R416, R435, R453, R454, R481 to R483, R485,
R495 to R499). A field "loaded by boot" or "by calibration" reads 0 until it is loaded (DESIGN CHOICE, log entry 4). -/

namespace Sys2Proof.Machine

/-- The access codes of R9. -/
inductive Access where
  | ro | rw | w1c | rwl | sc | sat
  deriving DecidableEq, Repr

/-- One register field. Instance `i` of an indexed register lies `stride * i` bytes further. -/
structure Field where
  /-- byte offset of the word in the page -/
  off : Nat
  /-- number of instances -/
  n : Nat
  /-- bytes from one instance to the next -/
  stride : Nat
  /-- lowest bit -/
  lo : Nat
  /-- width in bits -/
  width : Nat
  /-- access code -/
  acc : Access
  /-- reset value -/
  reset : Nat
  /-- the least value a write stores -/
  wlo : Nat
  /-- the largest value a write stores -/
  whi : Nat
  deriving DecidableEq, Repr

/-- The page types of R484. -/
inductive PageType where
  | dir | iod | pen | fold | hbm | link | eth | shob | tally | drover | wload | hka | pwr | therm | log
  | boot | sec | upd | test | noc
  deriving DecidableEq, Repr

namespace F

/-- IOD page, R19: Heft signature bits [31:0]: enabled slots 0–31 -/
def HEFT_SIG_LO : Field := ⟨0x040, 1, 0, 0, 32, .ro, 0, 0, 4294967295⟩
/-- IOD page, R19: Heft signature bits [63:32]: enabled slots 32–63 -/
def HEFT_SIG_HI : Field := ⟨0x044, 1, 0, 0, 32, .ro, 0, 0, 4294967295⟩
/-- IOD page, R19: Physical fold number of the first spare on CD0 -/
def HEFT_SPARE_CD0_FOLD1 : Field := ⟨0x048, 1, 0, 0, 7, .ro, 0, 0, 127⟩
/-- IOD page, R19: 1: the first spare entry is valid -/
def HEFT_SPARE_CD0_VALID1 : Field := ⟨0x048, 1, 0, 7, 1, .ro, 0, 0, 1⟩
/-- IOD page, R19: Physical fold number of the second spare on CD0 -/
def HEFT_SPARE_CD0_FOLD2 : Field := ⟨0x048, 1, 0, 8, 7, .ro, 0, 0, 127⟩
/-- IOD page, R19: 1: the second spare entry is valid -/
def HEFT_SPARE_CD0_VALID2 : Field := ⟨0x048, 1, 0, 15, 1, .ro, 0, 0, 1⟩
/-- IOD page, R19: As HEFT_SPARE_CD0, for CD1 -/
def HEFT_SPARE_CD1_FOLD1 : Field := ⟨0x04C, 1, 0, 0, 7, .ro, 0, 0, 127⟩
/-- IOD page, R19: As HEFT_SPARE_CD0, for CD1 -/
def HEFT_SPARE_CD1_VALID1 : Field := ⟨0x04C, 1, 0, 7, 1, .ro, 0, 0, 1⟩
/-- IOD page, R19: As HEFT_SPARE_CD0, for CD1 -/
def HEFT_SPARE_CD1_FOLD2 : Field := ⟨0x04C, 1, 0, 8, 7, .ro, 0, 0, 127⟩
/-- IOD page, R19: As HEFT_SPARE_CD0, for CD1 -/
def HEFT_SPARE_CD1_VALID2 : Field := ⟨0x04C, 1, 0, 15, 1, .ro, 0, 0, 1⟩
/-- IOD page, R19: Heft map generation. Boot sets it to 1, and the device adds 1 at each live map change. Wraps to 1 af -/
def HEFT_GEN : Field := ⟨0x050, 1, 0, 0, 32, .ro, 0, 0, 4294967295⟩
/-- IOD page, R19: Low 32 bits of the tally number at which the last live map change took effect -/
def HEFT_TALLY_LO : Field := ⟨0x054, 1, 0, 0, 32, .ro, 0, 0, 4294967295⟩
/-- IOD page, R19: High 32 bits of that tally number -/
def HEFT_TALLY_HI : Field := ⟨0x058, 1, 0, 0, 32, .ro, 0, 0, 4294967295⟩
/-- IOD page, R19: Physical fold (0–67) serving logical slot s; meaningful only when bit [7] is 1 -/
def HEFT_SLOT_FOLD : Field := ⟨0x100, 64, 4, 0, 7, .ro, 0, 0, 127⟩
/-- IOD page, R19: 1: slot s is enabled -/
def HEFT_SLOT_EN : Field := ⟨0x100, 64, 4, 7, 1, .ro, 0, 0, 1⟩
/-- FOLD page, R71: CAL_DT in °C, 1–15. A write of 0 stores 1 -/
def ARR_CAL_CTRL_DT : Field := ⟨0x400, 1, 0, 0, 4, .rw, 3, 1, 15⟩
/-- FOLD page, R71: CAL_PERIOD in minutes, 1–255. A write of 0 stores 1 -/
def ARR_CAL_CTRL_PERIOD : Field := ⟨0x400, 1, 0, 4, 8, .rw, 60, 1, 255⟩
/-- FOLD page, R71: CAL_HOLD (R52) -/
def ARR_CAL_CTRL_HOLD : Field := ⟨0x400, 1, 0, 12, 1, .rw, 0, 0, 1⟩
/-- FOLD page, R71: CAL_FORCE: a trigger under R51 -/
def ARR_CAL_CTRL_FORCE : Field := ⟨0x400, 1, 0, 13, 1, .sc, 0, 0, 1⟩
/-- FOLD page, R71: Bit a is 1 while array a has a window open -/
def ARR_CAL_PEND : Field := ⟨0x404, 1, 0, 0, 16, .ro, 0, 0, 65535⟩
/-- FOLD page, R71: Bit a: the last candidate set of array a failed R57 -/
def ARR_CALREJ : Field := ⟨0x408, 1, 0, 0, 16, .w1c, 0, 0, 65535⟩
/-- FOLD page, R71: Bit a: three consecutive rejects (R58) -/
def ARR_CAL_FAIL : Field := ⟨0x40C, 1, 0, 0, 16, .ro, 0, 0, 65535⟩
/-- FOLD page, R71: Bit a: 1.25 × σ_meas exceeds σ_max(T) (R64) -/
def ARR_NOISY : Field := ⟨0x410, 1, 0, 0, 16, .ro, 0, 0, 65535⟩
/-- FOLD page, R71: Bit a: ¦ΔT¦ exceeds 20 °C (R67) -/
def ARR_RANGE_OUT : Field := ⟨0x414, 1, 0, 0, 16, .ro, 0, 0, 65535⟩
/-- FOLD page, R71: Fold temperature used at the last tick boundary, signed, 1/16 °C; 0x07D0 (125 °C) under R68 -/
def ARR_CAL_TEMP : Field := ⟨0x418, 1, 0, 0, 16, .ro, 0, 0, 65535⟩
/-- FOLD page, R71: Array of the last rejected set -/
def ARR_REJ_CAUSE_ARRAY : Field := ⟨0x41C, 1, 0, 0, 4, .ro, 0, 0, 15⟩
/-- FOLD page, R71: 1: gain limit; 2: offset limit; 3: both -/
def ARR_REJ_CAUSE_CAUSE : Field := ⟨0x41C, 1, 0, 4, 2, .ro, 0, 0, 3⟩
/-- FOLD page, R71: Array selected for ARR_TRIM_DATA -/
def ARR_TRIM_SEL_ARRAY : Field := ⟨0x420, 1, 0, 0, 4, .rw, 0, 0, 15⟩
/-- FOLD page, R71: Column selected -/
def ARR_TRIM_SEL_COL : Field := ⟨0x420, 1, 0, 4, 8, .rw, 0, 0, 255⟩
/-- FOLD page, R71: g_c of the selected column, unsigned 2.14 -/
def ARR_TRIM_DATA_G : Field := ⟨0x424, 1, 0, 0, 16, .ro, 0, 0, 65535⟩
/-- FOLD page, R71: o_c of the selected column, signed, 1/64 LSB -/
def ARR_TRIM_DATA_O : Field := ⟨0x424, 1, 0, 16, 16, .ro, 0, 0, 65535⟩
/-- FOLD page, R71: Row parity failures (R44) -/
def ARR_PARITY_CNT : Field := ⟨0x428, 1, 0, 0, 32, .sat, 0, 0, 4294967295⟩
/-- FOLD page, R71: Applied updates, one per array per update -/
def ARR_CAL_UPDATES : Field := ⟨0x42C, 1, 0, 0, 32, .sat, 0, 0, 4294967295⟩
/-- FOLD page, R71: Windows discarded under R55 -/
def ARR_CAL_RESTARTS : Field := ⟨0x430, 1, 0, 0, 32, .sat, 0, 0, 4294967295⟩
/-- FOLD page, R71: r_s, 1/256 LSB, rounded up -/
def ARR_BOUND_RS : Field := ⟨0x440, 16, 4, 0, 10, .ro, 0, 0, 1023⟩
/-- FOLD page, R71: σ_used, 1/1,024 LSB, rounded up -/
def ARR_BOUND_SIGMA : Field := ⟨0x440, 16, 4, 10, 8, .ro, 0, 0, 255⟩
/-- FOLD page, R71: ε, 1/256 LSB, rounded up -/
def ARR_BOUND_EPS : Field := ⟨0x440, 16, 4, 18, 12, .ro, 0, 0, 4095⟩
/-- FOLD page, R71: STALE (R53, R66) -/
def ARR_BOUND_STALE : Field := ⟨0x440, 16, 4, 31, 1, .ro, 0, 0, 1⟩
/-- FOLD page, R71: Temperature at the last applied update or boot calibration, signed, 1/16 °C -/
def ARR_TREF : Field := ⟨0x480, 16, 4, 0, 16, .ro, 0, 0, 65535⟩
/-- FOLD page, R71: r_inl, 1/256 LSB, rounded up -/
def ARR_INL : Field := ⟨0x4C0, 16, 4, 0, 8, .ro, 0, 0, 255⟩
/-- FOLD page, R71: Clipped column conversions (R48) -/
def ARR_CLIP : Field := ⟨0x500, 16, 4, 0, 32, .sat, 0, 0, 4294967295⟩
/-- FOLD page, R104: RP_SHIFT, 6–15. A write below 6 stores 6 -/
def RP_CTRL_SHIFT : Field := ⟨0x600, 1, 0, 0, 4, .rw, 12, 6, 15⟩
/-- FOLD page, R104: RP_MIN, 1–255. A write of 0 stores 1 -/
def RP_CTRL_MIN : Field := ⟨0x600, 1, 0, 4, 8, .rw, 16, 1, 255⟩
/-- FOLD page, R104: Number of layer tags with any recipe flag set, 0–1,024 -/
def RECIPE_SUM_TAGS : Field := ⟨0x604, 1, 0, 0, 11, .ro, 0, 0, 2047⟩
/-- FOLD page, R104: Bit b: flag bit b is set for at least one layer tag -/
def RECIPE_SUM_ANY : Field := ⟨0x604, 1, 0, 16, 6, .ro, 0, 0, 63⟩
/-- FOLD page, R104: Layer tag of the most recent 0-to-1 flag transition -/
def RECIPE_LAST_TAG : Field := ⟨0x608, 1, 0, 0, 10, .ro, 0, 0, 1023⟩
/-- FOLD page, R104: Flag bits that the transition set -/
def RECIPE_LAST_BITS : Field := ⟨0x608, 1, 0, 10, 6, .ro, 0, 0, 63⟩
/-- FOLD page, R104: Stray activations sent to the Crook unit -/
def STRAY_ACT_CNT : Field := ⟨0x60C, 1, 0, 0, 32, .sat, 0, 0, 4294967295⟩
/-- FOLD page, R104: Conversions with more than 32 activation strays in a span (R93) -/
def CROOK_SPILL_CNT : Field := ⟨0x610, 1, 0, 0, 32, .sat, 0, 0, 4294967295⟩
/-- FOLD page, R104: Cycles of device-wide pause that this fold's conversions required under R93 -/
def CROOK_PAUSE_CYC : Field := ⟨0x614, 1, 0, 0, 32, .sat, 0, 0, 4294967295⟩
/-- FOLD page, R104: Strays saturated under SATURATE (R93) -/
def STRAY_SAT_CNT : Field := ⟨0x618, 1, 0, 0, 32, .sat, 0, 0, 4294967295⟩
/-- FOLD page, R104: Non-finite activation elements replaced (R85) -/
def ACT_NONFINITE_CNT : Field := ⟨0x61C, 1, 0, 0, 32, .sat, 0, 0, 4294967295⟩
/-- FOLD page, R104: Recipe flags of layer tag 4j, bits as in R95 -/
def RECIPE_FLAGS0 : Field := ⟨0xC00, 256, 4, 0, 8, .w1c, 0, 0, 255⟩
/-- FOLD page, R104: Recipe flags of layer tag 4j + 1 -/
def RECIPE_FLAGS1 : Field := ⟨0xC00, 256, 4, 8, 8, .w1c, 0, 0, 255⟩
/-- FOLD page, R104: Recipe flags of layer tag 4j + 2 -/
def RECIPE_FLAGS2 : Field := ⟨0xC00, 256, 4, 16, 8, .w1c, 0, 0, 255⟩
/-- FOLD page, R104: Recipe flags of layer tag 4j + 3 -/
def RECIPE_FLAGS3 : Field := ⟨0xC00, 256, 4, 24, 8, .w1c, 0, 0, 255⟩
/-- FOLD page, R132: Certified outputs that passed the test (R117) -/
def CERT_PASS_CNT : Field := ⟨0x700, 1, 0, 0, 32, .sat, 0, 0, 4294967295⟩
/-- FOLD page, R132: Certified outputs resolved (R118) -/
def RES_CNT : Field := ⟨0x704, 1, 0, 0, 32, .sat, 0, 0, 4294967295⟩
/-- FOLD page, R132: Outputs resolved because of a clipped conversion, in certified mode or under the resolve clip policy -/
def RES_CLIP_CNT : Field := ⟨0x708, 1, 0, 0, 32, .sat, 0, 0, 4294967295⟩
/-- FOLD page, R132: Tiles resolved whole as exponent-doubtful (R120) -/
def RES_XDOUBT_CNT : Field := ⟨0x70C, 1, 0, 0, 32, .sat, 0, 0, 4294967295⟩
/-- FOLD page, R132: Resolve slots used for resolve work, excluding reference conversions -/
def RES_SLOT_CNT : Field := ⟨0x710, 1, 0, 0, 32, .sat, 0, 0, 4294967295⟩
/-- FOLD page, R132: Cycles of device-wide pause that this fold's resolve work required (R123) -/
def RES_PAUSE_CYC : Field := ⟨0x714, 1, 0, 0, 32, .sat, 0, 0, 4294967295⟩
/-- FOLD page, R132: Step faults caused by a resolve overrun (R124) -/
def RES_FAULT_CNT : Field := ⟨0x718, 1, 0, 0, 32, .sat, 0, 0, 4294967295⟩
/-- FOLD page, R132: Bounded outputs delivered with BOUND_VOID (R128) -/
def BND_VOID_CNT : Field := ⟨0x71C, 1, 0, 0, 32, .sat, 0, 0, 4294967295⟩
/-- FOLD page, R132: Reference-mode conversions (R130) -/
def REF_CONV_CNT : Field := ⟨0x720, 1, 0, 0, 32, .sat, 0, 0, 4294967295⟩
/-- FOLD page, R132: Resolved share of the certified outputs delivered in the last ended tick, in units of 1/65,536. Each -/
def RES_FRAC : Field := ⟨0x724, 1, 0, 0, 16, .ro, 0, 0, 65535⟩
/-- FOLD page, R132: RESOLVE_STALL (R124) -/
def RES_STATUS_STALL : Field := ⟨0x728, 1, 0, 0, 1, .ro, 0, 0, 1⟩
/-- FOLD page, R132: Consecutive resolve step faults of the current step, 0–4 -/
def RES_STATUS_FAULTS : Field := ⟨0x728, 1, 0, 1, 3, .ro, 0, 0, 7⟩
/-- FOLD page, R152: 0 SERVICE, 1 TEST, 2 RECOVERY; writes as in R146. A write of 3 is ignored and recorded as an access  -/
def FOLD_STATE : Field := ⟨0x780, 1, 0, 0, 2, .rw, 0, 0, 3⟩
/-- FOLD page, R152: RS_MIN, 1–255 (R139). A write of 0 stores 1 -/
def ACC_CTRL : Field := ⟨0x784, 1, 0, 0, 8, .rw, 4, 1, 255⟩
/-- FOLD page, R152: Bit t: tile t is carried in the active drove (R143) -/
def ACC_CARRIED : Field := ⟨0x788, 1, 0, 0, 16, .ro, 0, 0, 65535⟩
/-- FOLD page, R152: Repeat passes, in adds and combines (R139) -/
def ACC_REPEAT_CNT : Field := ⟨0x78C, 1, 0, 0, 32, .sat, 0, 0, 4294967295⟩
/-- FOLD page, R152: Cycles of device-wide pause that this fold's repeats required (R138) -/
def ACC_REPEAT_CYC : Field := ⟨0x790, 1, 0, 0, 32, .sat, 0, 0, 4294967295⟩
/-- FOLD page, R152: Tiles saturated with te above 119 (R137, R148) -/
def ACC_SAT_CNT : Field := ⟨0x794, 1, 0, 0, 32, .sat, 0, 0, 4294967295⟩
/-- FOLD page, R152: Corrected tile-storage errors (R134) -/
def ACC_ECC_CORR : Field := ⟨0x798, 1, 0, 0, 32, .sat, 0, 0, 4294967295⟩
/-- FOLD page, R152: Uncorrectable tile-storage errors (R134) -/
def ACC_ECC_UNCORR : Field := ⟨0x79C, 1, 0, 0, 32, .sat, 0, 0, 4294967295⟩
/-- FOLD page, R152: Tile-clash faults (R142) -/
def TILE_CLASH_CNT : Field := ⟨0x7A0, 1, 0, 0, 32, .sat, 0, 0, 4294967295⟩
/-- FOLD page, R152: Tile of the first clash in the most recent tick that had one -/
def TILE_CLASH_INFO_TILE : Field := ⟨0x7A4, 1, 0, 0, 7, .ro, 0, 0, 127⟩
/-- FOLD page, R152: Cause, 1–7 (R141) -/
def TILE_CLASH_INFO_CAUSE : Field := ⟨0x7A4, 1, 0, 8, 3, .ro, 0, 0, 7⟩
/-- FOLD page, R152: Claim tag held by the tile -/
def TILE_CLASH_INFO_HELD : Field := ⟨0x7A4, 1, 0, 11, 8, .ro, 0, 0, 255⟩
/-- FOLD page, R152: Claim tag named by the operation -/
def TILE_CLASH_INFO_NAMED : Field := ⟨0x7A4, 1, 0, 19, 8, .ro, 0, 0, 255⟩
/-- FOLD page, R152: 1: the clash recurred on replay (R142) -/
def TILE_CLASH_INFO_RECUR : Field := ⟨0x7A4, 1, 0, 27, 1, .ro, 0, 0, 1⟩
/-- FOLD page, R152: CLASH_STOP (R142) -/
def ACC_STATUS_CLASH_STOP : Field := ⟨0x7A8, 1, 0, 0, 1, .ro, 0, 0, 1⟩
/-- FOLD page, R152: CTX_BUSY: 1 while the context interval of R144 is performing a switch -/
def ACC_STATUS_CTX_BUSY : Field := ⟨0x7A8, 1, 0, 1, 1, .ro, 0, 0, 1⟩
/-- FOLD page, R152: Bit i: tile 32k + i is poisoned. The device clears each bit when it zeroes or restores the tile (R14 -/
def TILE_POISON : Field := ⟨0x7B0, 4, 4, 0, 32, .ro, 0, 0, 4294967295⟩
/-- FOLD page, R195: 1 while the fold issues bundles in the current tick -/
def SEQ_STATUS_ISSUING : Field := ⟨0x800, 1, 0, 0, 1, .ro, 0, 0, 1⟩
/-- FOLD page, R195: 1 after TEND or SEND in the current tick -/
def SEQ_STATUS_ENDED : Field := ⟨0x800, 1, 0, 1, 1, .ro, 0, 0, 1⟩
/-- FOLD page, R195: CONTRACT_STOP (R193) -/
def SEQ_STATUS_CONTRACT_STOP : Field := ⟨0x800, 1, 0, 2, 1, .ro, 0, 0, 1⟩
/-- FOLD page, R195: 1 while a device-wide pause or stretch freezes the fold -/
def SEQ_STATUS_FROZEN : Field := ⟨0x800, 1, 0, 3, 1, .ro, 0, 0, 1⟩
/-- FOLD page, R195: Loop stack depth, 0–4 -/
def SEQ_STATUS_DEPTH : Field := ⟨0x800, 1, 0, 4, 3, .ro, 0, 0, 7⟩
/-- FOLD page, R195: Index of the bundle issued most recently -/
def SEQ_PC : Field := ⟨0x804, 1, 0, 0, 14, .ro, 0, 0, 16383⟩
/-- FOLD page, R195: Contract faults (R192) -/
def CONTRACT_CNT : Field := ⟨0x808, 1, 0, 0, 32, .sat, 0, 0, 4294967295⟩
/-- FOLD page, R195: Code of the first fault in the most recent tick that had one -/
def CONTRACT_INFO_CODE : Field := ⟨0x80C, 1, 0, 0, 5, .ro, 0, 0, 31⟩
/-- FOLD page, R195: Bundle index -/
def CONTRACT_INFO_BUNDLE : Field := ⟨0x80C, 1, 0, 5, 14, .ro, 0, 0, 16383⟩
/-- FOLD page, R195: Syllable: 0 ARR, 1 LDP, 2 VEC, 3 MOV -/
def CONTRACT_INFO_SYL : Field := ⟨0x80C, 1, 0, 19, 2, .ro, 0, 0, 3⟩
/-- FOLD page, R195: 1: the fault recurred on replay -/
def CONTRACT_INFO_RECUR : Field := ⟨0x80C, 1, 0, 21, 1, .ro, 0, 0, 1⟩
/-- FOLD page, R195: Port of a PORT_OVERCOMMIT: 0 injection, 1 ejection, 2 local, 3 VS-Q, 4 VS-V, 5 VS-R, 6 staging load, -/
def CONTRACT_INFO_PORT : Field := ⟨0x80C, 1, 0, 22, 4, .ro, 0, 0, 15⟩
/-- FOLD page, R195: Low 32 bits of the tally number of that tick -/
def CONTRACT_TALLY : Field := ⟨0x810, 1, 0, 0, 32, .ro, 0, 0, 4294967295⟩
/-- FOLD page, R195: Bundles issued -/
def BUNDLE_CNT : Field := ⟨0x814, 1, 0, 0, 32, .sat, 0, 0, 4294967295⟩
/-- FOLD page, R195: Beats after TEND or SEND before the tick fired -/
def IDLE_BEATS : Field := ⟨0x818, 1, 0, 0, 32, .sat, 0, 0, 4294967295⟩
/-- FOLD page, R195: Cycles during which the fold was frozen (R160) -/
def PAUSE_SEEN_CYC : Field := ⟨0x81C, 1, 0, 0, 32, .sat, 0, 0, 4294967295⟩
/-- FOLD page, R195: Bits 32k to 32k + 31 of the applied mask (R186) -/
def LANE_APPLIED : Field := ⟨0x820, 8, 4, 0, 32, .ro, 0, 0, 4294967295⟩
/-- FOLD page, R195: VEC results that were NaN -/
def VEC_NAN_CNT : Field := ⟨0x840, 1, 0, 0, 32, .sat, 0, 0, 4294967295⟩
/-- FOLD page, R195: Operations run masked (R187) -/
def MASKED_OP_CNT : Field := ⟨0x844, 1, 0, 0, 32, .sat, 0, 0, 4294967295⟩
/-- TALLY page, R238: ENABLE (R209) -/
def TALLY_CTRL_ENABLE : Field := ⟨0x040, 1, 0, 0, 1, .rw, 0, 0, 1⟩
/-- TALLY page, R238: ROOT: this device is the bellwether -/
def TALLY_CTRL_ROOT : Field := ⟨0x040, 1, 0, 1, 1, .rw, 0, 0, 1⟩
/-- TALLY page, R238: START: on the bellwether in LOCKED, starts the domain. The next scheduled idle fire carries TALLY_BA -/
def TALLY_CTRL_START : Field := ⟨0x040, 1, 0, 2, 1, .sc, 0, 0, 1⟩
/-- TALLY page, R238: Domain ID -/
def TALLY_DOMAIN_ID : Field := ⟨0x044, 1, 0, 0, 16, .rw, 0, 0, 65535⟩
/-- TALLY page, R238: D, 1–24. A write of 0 stores 1, and a write above 24 stores 24 -/
def TALLY_DOMAIN_D : Field := ⟨0x044, 1, 0, 16, 5, .rw, 24, 1, 24⟩
/-- TALLY page, R238: Parent link -/
def TALLY_LINKS_PARENT : Field := ⟨0x048, 1, 0, 0, 7, .rw, 0, 0, 127⟩
/-- TALLY page, R238: Parent valid -/
def TALLY_LINKS_PVALID : Field := ⟨0x048, 1, 0, 7, 1, .rw, 0, 0, 1⟩
/-- TALLY page, R238: Backup parent link -/
def TALLY_LINKS_BACKUP : Field := ⟨0x048, 1, 0, 8, 7, .rw, 0, 0, 127⟩
/-- TALLY page, R238: Backup valid -/
def TALLY_LINKS_BVALID : Field := ⟨0x048, 1, 0, 15, 1, .rw, 0, 0, 1⟩
/-- TALLY page, R238: Bit i: link 32k + i leads to a child -/
def TALLY_CHILD : Field := ⟨0x04C, 3, 4, 0, 32, .rw, 0, 0, 4294967295⟩
/-- TALLY page, R238: 0 OFF, 1 ACQUIRE, 2 LOCKED, 3 RUN, 4 LOST -/
def TALLY_STATE_STATE : Field := ⟨0x058, 1, 0, 0, 3, .ro, 0, 0, 7⟩
/-- TALLY page, R238: Own depth d -/
def TALLY_STATE_DEPTH : Field := ⟨0x058, 1, 0, 3, 5, .ro, 0, 0, 31⟩
/-- TALLY page, R238: h_s in 64-cycle units -/
def TALLY_STATE_HS : Field := ⟨0x058, 1, 0, 8, 8, .ro, 0, 0, 255⟩
/-- TALLY page, R238: X in timebase units -/
def TALLY_RTT : Field := ⟨0x05C, 1, 0, 0, 24, .ro, 0, 0, 16777215⟩
/-- TALLY page, R238: Tally number of the first tick in RUN (bellwether only) -/
def TALLY_BASE_LO : Field := ⟨0x060, 1, 0, 0, 32, .rw, 0, 0, 4294967295⟩
/-- TALLY page, R238: Tally number of the first tick in RUN (bellwether only) -/
def TALLY_BASE_HI : Field := ⟨0x064, 1, 0, 0, 32, .rw, 0, 0, 4294967295⟩
/-- TALLY page, R238: Tally number of the current tick -/
def TALLY_NUM_LO : Field := ⟨0x068, 1, 0, 0, 32, .ro, 0, 0, 4294967295⟩
/-- TALLY page, R238: Tally number of the current tick -/
def TALLY_NUM_HI : Field := ⟨0x06C, 1, 0, 0, 32, .ro, 0, 0, 4294967295⟩
/-- TALLY page, R238: Timebase -/
def TB_LO : Field := ⟨0x070, 1, 0, 0, 32, .ro, 0, 0, 4294967295⟩
/-- TALLY page, R238: Timebase -/
def TB_HI : Field := ⟨0x074, 1, 0, 0, 32, .ro, 0, 0, 4294967295⟩
/-- TALLY page, R238: Last measured offset, signed, 1/256 unit -/
def TB_OFFSET : Field := ⟨0x078, 1, 0, 0, 16, .ro, 0, 0, 65535⟩
/-- TALLY page, R238: N in force, up to 71,875 (2 ms at P0); TALLY_IDLE_N while the domain is idle (R216) -/
def TICK_CFG_N : Field := ⟨0x07C, 1, 0, 0, 18, .ro, 0, 0, 262143⟩
/-- TALLY page, R238: Design performance state in force -/
def TICK_CFG_PSTATE : Field := ⟨0x07C, 1, 0, 18, 3, .ro, 2, 0, 7⟩
/-- TALLY page, R238: N of idle ticks at P2, 63–62,500. Writes outside the range store the nearest limit -/
def TALLY_IDLE_N : Field := ⟨0x080, 1, 0, 0, 16, .rw, 200, 63, 62500⟩
/-- TALLY page, R238: Ticks with q above 0 -/
def STRETCH_TICKS : Field := ⟨0x084, 1, 0, 0, 32, .sat, 0, 0, 4294967295⟩
/-- TALLY page, R238: Sum of q -/
def STRETCH_QUANTA : Field := ⟨0x088, 1, 0, 0, 32, .sat, 0, 0, 4294967295⟩
/-- TALLY page, R238: HOLD raises by this device (R219) -/
def HOLD_RAISED : Field := ⟨0x08C, 1, 0, 0, 32, .sat, 0, 0, 4294967295⟩
/-- TALLY page, R238: HOLDs that stretched nothing (R220) -/
def HOLD_LATE : Field := ⟨0x090, 1, 0, 0, 32, .sat, 0, 0, 4294967295⟩
/-- TALLY page, R238: Child reports missing at send time -/
def MARKER_LATE : Field := ⟨0x094, 1, 0, 0, 32, .sat, 0, 0, 4294967295⟩
/-- TALLY page, R238: Faulted attempts (R225) -/
def STEP_FAULT_CNT : Field := ⟨0x098, 1, 0, 0, 32, .sat, 0, 0, 4294967295⟩
/-- TALLY page, R238: Cause, 1–6 (R224) -/
def STEP_FAULT_INFO_CAUSE : Field := ⟨0x09C, 1, 0, 0, 4, .ro, 0, 0, 15⟩
/-- TALLY page, R238: Flock index -/
def STEP_FAULT_INFO_FLOCK : Field := ⟨0x09C, 1, 0, 4, 4, .ro, 0, 0, 15⟩
/-- TALLY page, R238: Tick position -/
def STEP_FAULT_INFO_POS : Field := ⟨0x09C, 1, 0, 8, 8, .ro, 0, 0, 255⟩
/-- TALLY page, R238: Low 16 bits of the tally number -/
def STEP_FAULT_INFO_TALLY : Field := ⟨0x09C, 1, 0, 16, 16, .ro, 0, 0, 65535⟩
/-- TALLY page, R238: Unspent slack at the last deadline, cycles -/
def SLACK_LAST : Field := ⟨0x0A0, 1, 0, 0, 24, .ro, 0, 0, 16777215⟩
/-- TALLY page, R238: Slack spent (R223) -/
def SLACK_USED_CYC : Field := ⟨0x0A4, 1, 0, 0, 32, .sat, 0, 0, 4294967295⟩
/-- TALLY page, R238: Limiter pauses (R234) -/
def RAMP_PAUSE_CYC : Field := ⟨0x0A8, 1, 0, 0, 32, .sat, 0, 0, 4294967295⟩
/-- TALLY page, R238: Page ticks run -/
def PAGE_TICK_CNT : Field := ⟨0x0AC, 1, 0, 0, 32, .sat, 0, 0, 4294967295⟩
/-- TALLY page, R238: 0 EMPTY, 1 LOADING, 2 LOADED, 3 ACTIVE, 4 HELD -/
def DRV_ENTRY0_STATE : Field := ⟨0x100, 32, 16, 0, 3, .ro, 0, 0, 7⟩
/-- TALLY page, R238: Pen -/
def DRV_ENTRY0_PEN : Field := ⟨0x100, 32, 16, 8, 4, .ro, 0, 0, 15⟩
/-- TALLY page, R238: Flock index -/
def DRV_ENTRY0_FLOCK : Field := ⟨0x100, 32, 16, 12, 4, .ro, 0, 0, 15⟩
/-- TALLY page, R238: Last status (R200, R212) -/
def DRV_ENTRY0_STATUS : Field := ⟨0x100, 32, 16, 16, 8, .ro, 0, 0, 255⟩
/-- TALLY page, R238: Image address in the pen window, 4 KiB units -/
def DRV_ENTRY1 : Field := ⟨0x104, 32, 16, 0, 32, .ro, 0, 0, 4294967295⟩
/-- TALLY page, R238: Image digest bytes 0–3 -/
def DRV_ENTRY2 : Field := ⟨0x108, 32, 16, 0, 32, .ro, 0, 0, 4294967295⟩
/-- TALLY page, R238: Low 32 bits of the activation tally -/
def DRV_ENTRY3 : Field := ⟨0x10C, 32, 16, 0, 32, .ro, 0, 0, 4294967295⟩
/-- TALLY page, R238: Step number of the last committed step of flock f, over two words -/
def FLOCK_STEP_LO : Field := ⟨0x300, 16, 8, 0, 32, .ro, 0, 0, 4294967295⟩
/-- TALLY page, R238: Step number of the last committed step of flock f, over two words -/
def FLOCK_STEP_HI : Field := ⟨0x304, 16, 8, 0, 32, .ro, 0, 0, 4294967295⟩
/-- HBM page, R262: PC_CE_LIMIT, 1–4,095 corrected lines per hour. A write of 0 stores 1 -/
def HBM_CFG : Field := ⟨0x040, 1, 0, 0, 12, .rw, 256, 1, 4095⟩
/-- HBM page, R262: Stack temperature, signed, 1/16 °C -/
def HBM_TEMP_T : Field := ⟨0x044, 1, 0, 0, 16, .ro, 0, 0, 65535⟩
/-- HBM page, R262: 1: doubled refresh in force (R252) -/
def HBM_TEMP_DOUBLED : Field := ⟨0x044, 1, 0, 16, 1, .ro, 0, 0, 1⟩
/-- HBM page, R262: Corrected lines, all paths -/
def HBM_CE_CNT : Field := ⟨0x048, 1, 0, 0, 32, .sat, 0, 0, 4294967295⟩
/-- HBM page, R262: Pause cycles for slow decoding (R257) -/
def HBM_CE_PAUSE_CYC : Field := ⟨0x04C, 1, 0, 0, 32, .sat, 0, 0, 4294967295⟩
/-- HBM page, R262: Uncorrectable lines -/
def HBM_UE_CNT : Field := ⟨0x050, 1, 0, 0, 32, .sat, 0, 0, 4294967295⟩
/-- HBM page, R262: Refresh pauses (R252) -/
def HBM_REFRESH_PAUSE_CYC : Field := ⟨0x054, 1, 0, 0, 32, .sat, 0, 0, 4294967295⟩
/-- HBM page, R262: Pauses for late data (R247) -/
def HBM_LATE_CYC : Field := ⟨0x058, 1, 0, 0, 32, .sat, 0, 0, 4294967295⟩
/-- HBM page, R262: Completed patrol passes over the stack -/
def HBM_SCRUB_PASSES : Field := ⟨0x05C, 1, 0, 0, 32, .sat, 0, 0, 4294967295⟩
/-- HBM page, R262: Bit i: stack pseudo-channel 32k + i is retired -/
def HBM_RETIRED : Field := ⟨0x060, 2, 4, 0, 32, .ro, 0, 0, 4294967295⟩
/-- HBM page, R262: Stack pseudo-channel to retire -/
def HBM_RETIRE_REQ_PC : Field := ⟨0x068, 1, 0, 0, 6, .rw, 0, 0, 63⟩
/-- HBM page, R262: Start retirement (R259) -/
def HBM_RETIRE_REQ_START : Field := ⟨0x068, 1, 0, 6, 1, .sc, 0, 0, 1⟩
/-- HBM page, R262: 0 none, 1 copying, 2 awaiting switch, 3 blocked -/
def HBM_RETIRE_STATE_STATE : Field := ⟨0x06C, 1, 0, 0, 2, .ro, 0, 0, 3⟩
/-- HBM page, R262: Stack pseudo-channel concerned -/
def HBM_RETIRE_STATE_PC : Field := ⟨0x06C, 1, 0, 2, 6, .ro, 0, 0, 63⟩
/-- HBM page, R262: Device address of the last uncorrectable line; _HI [31:16] reserved -/
def HBM_LAST_UE_LO : Field := ⟨0x070, 1, 0, 0, 32, .ro, 0, 0, 4294967295⟩
/-- HBM page, R262: Device address of the last uncorrectable line; _HI [31:16] reserved -/
def HBM_LAST_UE_HI : Field := ⟨0x074, 1, 0, 0, 32, .ro, 0, 0, 4294967295⟩
/-- HBM page, R262: Populated data capacity, 64 MiB units -/
def HBM_CAP : Field := ⟨0x078, 1, 0, 0, 16, .ro, 1536, 0, 65535⟩
/-- FOLD page, R263: Corrected slice lines -/
def STG_CE_CNT : Field := ⟨0x880, 1, 0, 0, 32, .sat, 0, 0, 4294967295⟩
/-- FOLD page, R263: Uncorrectable slice lines -/
def STG_UE_CNT : Field := ⟨0x884, 1, 0, 0, 32, .sat, 0, 0, 4294967295⟩
/-- FOLD page, R263: Completed scrub passes over the slice -/
def STG_SCRUB_PASSES : Field := ⟨0x888, 1, 0, 0, 32, .sat, 0, 0, 4294967295⟩
/-- FOLD page, R263: Line of the last uncorrectable error, 64-byte units -/
def STG_LAST_UE : Field := ⟨0x88C, 1, 0, 0, 18, .ro, 0, 0, 262143⟩
/-- PEN page, R264: Port -/
def EXT0_PORT : Field := ⟨0x200, 64, 8, 0, 5, .rwl, 0, 0, 31⟩
/-- PEN page, R264: Valid -/
def EXT0_VALID : Field := ⟨0x200, 64, 8, 5, 1, .rwl, 0, 0, 1⟩
/-- PEN page, R264: Start in the port, 16 MiB units, 0–1,535 -/
def EXT0_START : Field := ⟨0x200, 64, 8, 16, 11, .rwl, 0, 0, 2047⟩
/-- PEN page, R264: Length − 1, 16 MiB units -/
def EXT1 : Field := ⟨0x204, 64, 8, 0, 11, .rwl, 0, 0, 2047⟩
/-- PEN page, R264: Window size, 16 MiB units -/
def WIN_SIZE : Field := ⟨0x400, 1, 0, 0, 16, .ro, 0, 0, 65535⟩
/-- PEN page, R264: Journal ring base (R261) -/
def JRNL_BASE : Field := ⟨0x404, 1, 0, 0, 32, .rw, 0, 0, 4294967295⟩
/-- PEN page, R264: Journal ring size, 0–1,048,576; 0: no journal -/
def JRNL_SIZE : Field := ⟨0x408, 1, 0, 0, 21, .rw, 0, 0, 2097151⟩
/-- PEN page, R264: Prefix table base -/
def PFX_BASE : Field := ⟨0x40C, 1, 0, 0, 32, .rw, 0, 0, 4294967295⟩
/-- PEN page, R264: k, 1–21; 0: no prefix table -/
def PFX_SETS : Field := ⟨0x410, 1, 0, 0, 5, .rw, 0, 0, 31⟩
/-- PEN page, R264: Context area base -/
def CTX_BASE : Field := ⟨0x414, 1, 0, 0, 32, .rw, 0, 0, 4294967295⟩
/-- PEN page, R264: Checkpoint area base -/
def CKPT_BASE : Field := ⟨0x418, 1, 0, 0, 32, .rw, 0, 0, 4294967295⟩
/-- PEN page, R264: Checkpoint area size -/
def CKPT_SIZE : Field := ⟨0x41C, 1, 0, 0, 32, .rw, 0, 0, 4294967295⟩
/-- PEN page, R264: KV pool base -/
def KV_BASE : Field := ⟨0x420, 1, 0, 0, 32, .rw, 0, 0, 4294967295⟩
/-- PEN page, R264: KV pool size -/
def KV_SIZE : Field := ⟨0x424, 1, 0, 0, 32, .rw, 0, 0, 4294967295⟩
/-- WLOAD page, R287: WL_RECHECK, minutes, 1–1,440; writes outside the range store the nearest limit -/
def WL_CTRL : Field := ⟨0x040, 1, 0, 0, 11, .rw, 15, 1, 1440⟩
/-- WLOAD page, R287: Shards arriving, 0–256 -/
def WL_ACTIVE : Field := ⟨0x044, 1, 0, 0, 9, .ro, 0, 0, 511⟩
/-- WLOAD page, R287: Shards completed -/
def WL_SHARDS_OK : Field := ⟨0x048, 1, 0, 0, 32, .sat, 0, 0, 4294967295⟩
/-- WLOAD page, R287: Shards ended with any other status -/
def WL_SHARDS_REFUSED : Field := ⟨0x04C, 1, 0, 0, 32, .sat, 0, 0, 4294967295⟩
/-- WLOAD page, R287: MiB of stored payload received -/
def WL_MIB_IN : Field := ⟨0x050, 1, 0, 0, 32, .sat, 0, 0, 4294967295⟩
/-- WLOAD page, R287: Command retries (R271) -/
def WL_NVME_RETRY : Field := ⟨0x054, 1, 0, 0, 32, .sat, 0, 0, 4294967295⟩
/-- WLOAD page, R287: Matching re-checks (R277) -/
def WL_RECHECK_PASS : Field := ⟨0x058, 1, 0, 0, 32, .sat, 0, 0, 4294967295⟩
/-- WLOAD page, R287: Failed re-checks (R277) -/
def WL_RECHECK_FAIL : Field := ⟨0x05C, 1, 0, 0, 32, .sat, 0, 0, 4294967295⟩
/-- WLOAD page, R287: Repaired shards (R278) -/
def WL_REPAIR_CNT : Field := ⟨0x060, 1, 0, 0, 32, .sat, 0, 0, 4294967295⟩
/-- WLOAD page, R287: Status of the last refused shard -/
def WL_LAST_REFUSE_STATUS : Field := ⟨0x064, 1, 0, 0, 8, .ro, 0, 0, 255⟩
/-- WLOAD page, R287: Pen -/
def WL_LAST_REFUSE_PEN : Field := ⟨0x064, 1, 0, 8, 4, .ro, 0, 0, 15⟩
/-- WLOAD page, R287: Shard index -/
def WL_LAST_REFUSE_SHARD : Field := ⟨0x064, 1, 0, 12, 16, .ro, 0, 0, 65535⟩
/-- WLOAD page, R287: 0 unused, 1 connecting, 2 ready, 3 failed -/
def WL_TARGET_STATE : Field := ⟨0x100, 64, 4, 0, 2, .ro, 0, 0, 3⟩
/-- WLOAD page, R287: Owning pen -/
def WL_TARGET_PEN : Field := ⟨0x100, 64, 4, 2, 4, .ro, 0, 0, 15⟩
/-- WLOAD page, R287: Outstanding commands -/
def WL_TARGET_OUT : Field := ⟨0x100, 64, 4, 6, 10, .ro, 0, 0, 1023⟩
/-- PEN page, R288: Epoch ID -/
def EPOCH0_ID : Field := ⟨0x480, 2, 16, 0, 16, .ro, 0, 0, 65535⟩
/-- PEN page, R288: 0 EMPTY, 1 ARRIVING, 2 RESIDENT, 3 CURRENT, 4 OLD -/
def EPOCH0_STATE : Field := ⟨0x480, 2, 16, 16, 3, .ro, 0, 0, 7⟩
/-- PEN page, R288: DAMAGED (R277) -/
def EPOCH0_DAMAGED : Field := ⟨0x480, 2, 16, 19, 1, .ro, 0, 0, 1⟩
/-- PEN page, R288: DRAINED (R282, R283) -/
def EPOCH0_DRAINED : Field := ⟨0x480, 2, 16, 20, 1, .ro, 0, 0, 1⟩
/-- PEN page, R288: Shard count -/
def EPOCH1_COUNT : Field := ⟨0x484, 2, 16, 0, 16, .ro, 0, 0, 65535⟩
/-- PEN page, R288: Shards resident -/
def EPOCH1_RESIDENT : Field := ⟨0x484, 2, 16, 16, 16, .ro, 0, 0, 65535⟩
/-- PEN page, R288: Requests pinned, 0–4,096 -/
def EPOCH2 : Field := ⟨0x488, 2, 16, 0, 13, .ro, 0, 0, 8191⟩
/-- PEN page, R288: Epoch digest bytes 0–3; zero until RESIDENT -/
def EPOCH3 : Field := ⟨0x48C, 2, 16, 0, 32, .ro, 0, 0, 4294967295⟩
/-- PEN page, R288: A switch is pending -/
def EPOCH_SWITCH_PENDING : Field := ⟨0x4A0, 1, 0, 0, 1, .ro, 0, 0, 1⟩
/-- PEN page, R288: Policy: 0 PIN, 1 DRAIN -/
def EPOCH_SWITCH_POLICY : Field := ⟨0x4A0, 1, 0, 1, 1, .ro, 0, 0, 1⟩
/-- PEN page, R288: Entry of the new epoch -/
def EPOCH_SWITCH_ENTRY : Field := ⟨0x4A0, 1, 0, 2, 1, .ro, 0, 0, 1⟩
/-- PEN page, R288: T of the pending switch -/
def EPOCH_SW_T_LO : Field := ⟨0x4A4, 1, 0, 0, 32, .ro, 0, 0, 4294967295⟩
/-- PEN page, R288: T of the pending switch -/
def EPOCH_SW_T_HI : Field := ⟨0x4A8, 1, 0, 0, 32, .ro, 0, 0, 4294967295⟩
/-- DROVER page, R318: LB_EN (R306) -/
def DRV_CTRL : Field := ⟨0x040, 1, 0, 0, 1, .rw, 1, 0, 1⟩
/-- DROVER page, R318: Requests resident, 0–4,096 -/
def DRV_RESIDENT : Field := ⟨0x044, 1, 0, 0, 13, .ro, 0, 0, 8191⟩
/-- DROVER page, R318: Requests in QUEUED -/
def DRV_QUEUED : Field := ⟨0x048, 1, 0, 0, 13, .ro, 0, 0, 8191⟩
/-- DROVER page, R318: Live lanes in the last lane blocks built, all flocks -/
def DRV_LANES_LIVE : Field := ⟨0x04C, 1, 0, 0, 13, .ro, 0, 0, 8191⟩
/-- DROVER page, R318: Requests admitted -/
def ADMIT_CNT : Field := ⟨0x050, 1, 0, 0, 32, .sat, 0, 0, 4294967295⟩
/-- DROVER page, R318: Admissions refused -/
def ADMIT_REFUSED : Field := ⟨0x054, 1, 0, 0, 32, .sat, 0, 0, 4294967295⟩
/-- DROVER page, R318: Blocks looked up (R310) -/
def PFX_LOOKUP : Field := ⟨0x058, 1, 0, 0, 32, .sat, 0, 0, 4294967295⟩
/-- DROVER page, R318: Blocks matched -/
def PFX_HIT : Field := ⟨0x05C, 1, 0, 0, 32, .sat, 0, 0, 4294967295⟩
/-- DROVER page, R318: Keys found that failed a check -/
def PFX_VERIFY_FAIL : Field := ⟨0x060, 1, 0, 0, 32, .sat, 0, 0, 4294967295⟩
/-- DROVER page, R318: Keys inserted (R311) -/
def PFX_INSERT : Field := ⟨0x064, 1, 0, 0, 32, .sat, 0, 0, 4294967295⟩
/-- DROVER page, R318: Insertions skipped -/
def PFX_NO_WAY : Field := ⟨0x068, 1, 0, 0, 32, .sat, 0, 0, 4294967295⟩
/-- DROVER page, R318: Cached blocks evicted (R302) -/
def PFX_EVICT : Field := ⟨0x06C, 1, 0, 0, 32, .sat, 0, 0, 4294967295⟩
/-- DROVER page, R318: Draft tokens verified in committed steps -/
def SPEC_DRAFTED : Field := ⟨0x070, 1, 0, 0, 32, .sat, 0, 0, 4294967295⟩
/-- DROVER page, R318: Draft tokens accepted in committed steps -/
def SPEC_ACCEPTED : Field := ⟨0x074, 1, 0, 0, 32, .sat, 0, 0, 4294967295⟩
/-- DROVER page, R318: Suspensions (R314) -/
def SPEC_SUSPEND : Field := ⟨0x078, 1, 0, 0, 32, .sat, 0, 0, 4294967295⟩
/-- DROVER page, R318: Interactive aborts applied -/
def CANCEL_INT : Field := ⟨0x07C, 1, 0, 0, 32, .sat, 0, 0, 4294967295⟩
/-- DROVER page, R318: Bulk aborts applied -/
def CANCEL_BULK : Field := ⟨0x080, 1, 0, 0, 32, .sat, 0, 0, 4294967295⟩
/-- DROVER page, R318: Requests ended with DEADLINE -/
def DEADLINE_CNT : Field := ⟨0x084, 1, 0, 0, 32, .sat, 0, 0, 4294967295⟩
/-- DROVER page, R318: Aborts answered ALREADY_COMPLETE -/
def ABORT_LATE : Field := ⟨0x088, 1, 0, 0, 32, .sat, 0, 0, 4294967295⟩
/-- DROVER page, R318: Requests ended with KV_LOST -/
def KV_LOST_CNT : Field := ⟨0x08C, 1, 0, 0, 32, .sat, 0, 0, 4294967295⟩
/-- DROVER page, R318: Transfers to unmapped virtual blocks (R301) -/
def KV_UNMAPPED : Field := ⟨0x090, 1, 0, 0, 32, .sat, 0, 0, 4294967295⟩
/-- DROVER page, R318: HOLDs raised because a lane block was late (R28) -/
def BLOCK_HOLD : Field := ⟨0x094, 1, 0, 0, 32, .sat, 0, 0, 4294967295⟩
/-- PEN page, R319: Bytes 4k to 4k + 3 of the pen's SipHash key. A write acts as R312 -/
def PFX_KEY : Field := ⟨0x430, 4, 4, 0, 32, .rw, 0, 0, 4294967295⟩
/-- PEN page, R319: Free physical KV blocks, saturating at 0xFF_FFFF -/
def KV_FREE : Field := ⟨0x440, 1, 0, 0, 24, .ro, 0, 0, 16777215⟩
/-- PEN page, R319: Blocks held only by valid prefix entries -/
def KV_CACHED : Field := ⟨0x444, 1, 0, 0, 24, .ro, 0, 0, 16777215⟩
/-- LINK page, R341: ENABLE (R324) -/
def LINK_CTRL_ENABLE : Field := ⟨0x040, 1, 0, 0, 1, .rw, 1, 0, 1⟩
/-- LINK page, R341: RETRAIN: to TRAIN -/
def LINK_CTRL_RETRAIN : Field := ⟨0x040, 1, 0, 1, 1, .sc, 0, 0, 1⟩
/-- LINK page, R341: 0 OFF, 1 TRAIN, 2 UP, 3 FAILED -/
def LINK_STATE_STATE : Field := ⟨0x044, 1, 0, 0, 2, .ro, 0, 0, 3⟩
/-- LINK page, R341: 1: kind 0 entries on this link are sent by their alternates (R335) -/
def LINK_STATE_ALT : Field := ⟨0x044, 1, 0, 2, 1, .ro, 0, 0, 1⟩
/-- LINK page, R341: Last failure: 1 training, 2 replay count, 3 episode time, 4 identity -/
def LINK_STATE_CAUSE : Field := ⟨0x044, 1, 0, 3, 3, .ro, 0, 0, 7⟩
/-- LINK page, R341: 1: the receiver is sending stop (R333) -/
def LINK_STATE_STOP : Field := ⟨0x044, 1, 0, 6, 1, .ro, 0, 0, 1⟩
/-- LINK page, R341: Peer device ID -/
def LINK_PEER_ID : Field := ⟨0x048, 1, 0, 0, 15, .ro, 0, 0, 32767⟩
/-- LINK page, R341: Peer valid -/
def LINK_PEER_VALID : Field := ⟨0x048, 1, 0, 15, 1, .ro, 0, 0, 1⟩
/-- LINK page, R341: Peer link number -/
def LINK_PEER_LINK : Field := ⟨0x048, 1, 0, 16, 7, .ro, 0, 0, 127⟩
/-- LINK page, R341: λ, timebase units -/
def LINK_LATENCY : Field := ⟨0x04C, 1, 0, 0, 16, .ro, 0, 0, 65535⟩
/-- LINK page, R341: Symbols corrected by FEC -/
def FEC_CORR_SYM : Field := ⟨0x050, 1, 0, 0, 32, .sat, 0, 0, 4294967295⟩
/-- LINK page, R341: Uncorrectable codewords -/
def FEC_UNCORR_CW : Field := ⟨0x054, 1, 0, 0, 32, .sat, 0, 0, 4294967295⟩
/-- LINK page, R341: Flits discarded by CRC (R323) -/
def FLIT_CRC_ERR : Field := ⟨0x058, 1, 0, 0, 32, .sat, 0, 0, 4294967295⟩
/-- LINK page, R341: Replays (R325) -/
def LINK_REPLAY_CNT : Field := ⟨0x05C, 1, 0, 0, 32, .sat, 0, 0, 4294967295⟩
/-- LINK page, R341: Entries to FAILED -/
def LINK_FAIL_CNT : Field := ⟨0x060, 1, 0, 0, 32, .sat, 0, 0, 4294967295⟩
/-- LINK page, R341: DATA flits discarded (R331) -/
def STALE_DISCARD : Field := ⟨0x064, 1, 0, 0, 32, .sat, 0, 0, 4294967295⟩
/-- LINK page, R341: Pauses for late data (R332) -/
def LATE_PAUSE_CYC : Field := ⟨0x068, 1, 0, 0, 32, .sat, 0, 0, 4294967295⟩
/-- LINK page, R341: Pauses for backpressure (R333) -/
def BP_PAUSE_CYC : Field := ⟨0x06C, 1, 0, 0, 32, .sat, 0, 0, 4294967295⟩
/-- LINK page, R341: Ticks begun on alternates (R335) -/
def ALT_ROUTE_CNT : Field := ⟨0x070, 1, 0, 0, 32, .sat, 0, 0, 4294967295⟩
/-- LINK page, R341: Sequenced flits sent; flits accepted -/
def FLITS_TX : Field := ⟨0x074, 1, 0, 0, 32, .sat, 0, 0, 4294967295⟩
/-- LINK page, R341: Sequenced flits sent; flits accepted -/
def FLITS_RX : Field := ⟨0x078, 1, 0, 0, 32, .sat, 0, 0, 4294967295⟩
/-- IOD page, R342: Board position -/
def MUSTER_STATUS_POS : Field := ⟨0x200, 1, 0, 0, 4, .ro, 0, 0, 15⟩
/-- IOD page, R342: Position valid -/
def MUSTER_STATUS_VALID : Field := ⟨0x200, 1, 0, 4, 1, .ro, 0, 0, 1⟩
/-- IOD page, R342: MUSTER_ERR (R340) -/
def MUSTER_STATUS_ERR : Field := ⟨0x200, 1, 0, 5, 1, .ro, 0, 0, 1⟩
/-- IOD page, R342: Destination device ID selected -/
def MSG_RT_SEL : Field := ⟨0x204, 1, 0, 0, 15, .rw, 0, 0, 32767⟩
/-- IOD page, R342: Primary link for the selected destination -/
def MSG_RT_DATA_PRI : Field := ⟨0x208, 1, 0, 0, 7, .rw, 0, 0, 127⟩
/-- IOD page, R342: Primary valid -/
def MSG_RT_DATA_PVALID : Field := ⟨0x208, 1, 0, 7, 1, .rw, 0, 0, 1⟩
/-- IOD page, R342: Alternate link -/
def MSG_RT_DATA_ALT : Field := ⟨0x208, 1, 0, 8, 7, .rw, 0, 0, 127⟩
/-- IOD page, R342: Alternate valid -/
def MSG_RT_DATA_AVALID : Field := ⟨0x208, 1, 0, 15, 1, .rw, 0, 0, 1⟩
/-- IOD page, R342: Resends after timeout (R338) -/
def MSG_TIMEOUT_CNT : Field := ⟨0x20C, 1, 0, 0, 32, .sat, 0, 0, 4294967295⟩
/-- IOD page, R342: Duplicates discarded (R339) -/
def MSG_DUP_CNT : Field := ⟨0x210, 1, 0, 0, 32, .sat, 0, 0, 4294967295⟩
/-- IOD page, R342: Destinations marked unreachable -/
def MSG_UNREACH_CNT : Field := ⟨0x214, 1, 0, 0, 32, .sat, 0, 0, 4294967295⟩
/-- ETH page, R365: Link up -/
def ETH_STATUS_UP : Field := ⟨0x040, 1, 0, 0, 1, .ro, 0, 0, 1⟩
/-- ETH page, R365: PCS aligned on all eight lanes -/
def ETH_STATUS_PCS : Field := ⟨0x040, 1, 0, 1, 1, .ro, 0, 0, 1⟩
/-- ETH page, R365: PTP_STATE: 0 unsynchronised, 1 synchronised, 2 holdover -/
def ETH_STATUS_PTP : Field := ⟨0x040, 1, 0, 2, 2, .ro, 0, 0, 3⟩
/-- ETH page, R365: MAC base bits [31:0] -/
def ETH_MAC_LO : Field := ⟨0x044, 1, 0, 0, 32, .ro, 0, 0, 4294967295⟩
/-- ETH page, R365: MAC base bits [47:32] -/
def ETH_MAC_HI : Field := ⟨0x048, 1, 0, 0, 16, .ro, 0, 0, 65535⟩
/-- ETH page, R365: Frames accepted -/
def FRAMES_RX : Field := ⟨0x04C, 1, 0, 0, 32, .sat, 0, 0, 4294967295⟩
/-- ETH page, R365: Frames sent -/
def FRAMES_TX : Field := ⟨0x050, 1, 0, 0, 32, .sat, 0, 0, 4294967295⟩
/-- ETH page, R365: Frames discarded for FCS -/
def FCS_ERR : Field := ⟨0x054, 1, 0, 0, 32, .sat, 0, 0, 4294967295⟩
/-- ETH page, R365: Uncorrectable codewords -/
def ETH_FEC_UNCORR : Field := ⟨0x058, 1, 0, 0, 32, .sat, 0, 0, 4294967295⟩
/-- ETH page, R365: Discards under R345 -/
def ADDR_DISCARD : Field := ⟨0x05C, 1, 0, 0, 32, .sat, 0, 0, 4294967295⟩
/-- ETH page, R365: RoCEv2 packets discarded for ICRC -/
def ICRC_ERR : Field := ⟨0x060, 1, 0, 0, 32, .sat, 0, 0, 4294967295⟩
/-- ETH page, R365: CNPs received -/
def CNP_RX : Field := ⟨0x064, 1, 0, 0, 32, .sat, 0, 0, 4294967295⟩
/-- ETH page, R365: CNPs sent -/
def CNP_TX : Field := ⟨0x068, 1, 0, 0, 32, .sat, 0, 0, 4294967295⟩
/-- ETH page, R365: CE-marked packets received -/
def ECN_CE_RX : Field := ⟨0x06C, 1, 0, 0, 32, .sat, 0, 0, 4294967295⟩
/-- ETH page, R365: Go-back-N retransmissions -/
def RC_RETRANS : Field := ⟨0x070, 1, 0, 0, 32, .sat, 0, 0, 4294967295⟩
/-- ETH page, R365: Last offset from the grandmaster, signed, ns -/
def PTP_OFFSET : Field := ⟨0x074, 1, 0, 0, 32, .ro, 0, 0, 4294967295⟩
/-- ETH page, R365: PTP time at the most recent fire, ns -/
def PTP_FIRE_LO : Field := ⟨0x078, 1, 0, 0, 32, .ro, 0, 0, 4294967295⟩
/-- ETH page, R365: PTP time at the most recent fire, ns -/
def PTP_FIRE_HI : Field := ⟨0x07C, 1, 0, 0, 32, .ro, 0, 0, 4294967295⟩
/-- ETH page, R365: Current PTP time, ns; reading _LO latches _HI -/
def PTP_NOW_LO : Field := ⟨0x080, 1, 0, 0, 32, .ro, 0, 0, 4294967295⟩
/-- ETH page, R365: Current PTP time, ns; reading _LO latches _HI -/
def PTP_NOW_HI : Field := ⟨0x084, 1, 0, 0, 32, .ro, 0, 0, 4294967295⟩
/-- PEN page, R366: IPv6 address bytes 4k to 4k + 3, network order -/
def PEN_IPV6 : Field := ⟨0x600, 4, 4, 0, 32, .ro, 0, 0, 4294967295⟩
/-- PEN page, R366: IPv4 address, network order -/
def PEN_IPV4 : Field := ⟨0x610, 1, 0, 0, 32, .ro, 0, 0, 4294967295⟩
/-- PEN page, R366: VLAN ID -/
def PEN_NET_VLAN : Field := ⟨0x614, 1, 0, 0, 12, .ro, 0, 0, 4095⟩
/-- PEN page, R366: VLAN valid -/
def PEN_NET_VLANV : Field := ⟨0x614, 1, 0, 12, 1, .ro, 0, 0, 1⟩
/-- PEN page, R366: IPv4 valid -/
def PEN_NET_IP4V : Field := ⟨0x614, 1, 0, 13, 1, .ro, 0, 0, 1⟩
/-- PEN page, R366: QP quota, 0–1,024 -/
def PEN_QP_QUOTA : Field := ⟨0x618, 1, 0, 0, 11, .ro, 0, 0, 2047⟩
/-- PEN page, R366: QPs in use -/
def PEN_QP_USED : Field := ⟨0x618, 1, 0, 16, 11, .ro, 0, 0, 2047⟩
/-- PEN page, R366: Messages executed -/
def SHOB_MSG_CNT : Field := ⟨0x620, 1, 0, 0, 32, .sat, 0, 0, 4294967295⟩
/-- PEN page, R366: Messages answered with a status of 0xF0–0xF4 -/
def SHOB_BAD_CNT : Field := ⟨0x624, 1, 0, 0, 32, .sat, 0, 0, 4294967295⟩
/-- PEN page, R366: Doorbells ignored (R355) -/
def DB_BAD : Field := ⟨0x628, 1, 0, 0, 32, .sat, 0, 0, 4294967295⟩
/-- PEN page, R366: Channels closed under R362 -/
def STREAM_OVERRUN : Field := ⟨0x62C, 1, 0, 0, 32, .sat, 0, 0, 4294967295⟩
/-- PEN page, R366: Submission tail (R355) -/
def CH_SQ_TAIL : Field := ⟨0x800, 128, 16, 0, 32, .rw, 0, 0, 4294967295⟩
/-- PEN page, R366: Device head -/
def CH_SQ_HEAD : Field := ⟨0x804, 128, 16, 0, 32, .ro, 0, 0, 4294967295⟩
/-- PEN page, R366: Token ring head (R361) -/
def CH_TR_HEAD : Field := ⟨0x808, 128, 16, 0, 32, .rw, 0, 0, 4294967295⟩
/-- PEN page, R366: 0 closed, 1 open, 2 orphaned -/
def CH_STATE_STATE : Field := ⟨0x80C, 128, 16, 0, 2, .ro, 0, 0, 3⟩
/-- PEN page, R366: Path: 1 ring -/
def CH_STATE_RING : Field := ⟨0x80C, 128, 16, 2, 1, .ro, 0, 0, 1⟩
/-- PEN page, R366: QP number -/
def CH_STATE_QP : Field := ⟨0x80C, 128, 16, 3, 10, .ro, 0, 0, 1023⟩
/-- PEN page, R366: Spill records held, 0–16,384 -/
def CH_STATE_SPILL : Field := ⟨0x80C, 128, 16, 13, 15, .ro, 0, 0, 32767⟩
/-- FOLD page, R400: 0 SERVING, 1 SPARE, 2 FILLING, 3 TESTING, 4 QUARANTINED, 5 RETIRED (R381) -/
def FOLD_ROLE_ROLE : Field := ⟨0x900, 1, 0, 0, 3, .ro, 0, 0, 7⟩
/-- FOLD page, R400: Logical slot served or being filled -/
def FOLD_ROLE_SLOT : Field := ⟨0x900, 1, 0, 3, 6, .ro, 0, 0, 63⟩
/-- FOLD page, R400: Slot field valid -/
def FOLD_ROLE_SLOTV : Field := ⟨0x900, 1, 0, 9, 1, .ro, 0, 0, 1⟩
/-- FOLD page, R400: Array of the last ARRAY verdict, 0–15 -/
def FOLD_ROLE_ARRAY : Field := ⟨0x900, 1, 0, 10, 4, .ro, 0, 0, 15⟩
/-- FOLD page, R400: Quarantined once since reset -/
def FOLD_ROLE_QUAR : Field := ⟨0x900, 1, 0, 14, 1, .ro, 0, 0, 1⟩
/-- FOLD page, R400: Checked conversions (R369) -/
def COLLIE_CHK_CNT : Field := ⟨0x904, 1, 0, 0, 32, .sat, 0, 0, 4294967295⟩
/-- FOLD page, R400: Unchecked conversions -/
def COLLIE_SKIP_CNT : Field := ⟨0x908, 1, 0, 0, 32, .sat, 0, 0, 4294967295⟩
/-- FOLD page, R400: Failed tests, all kinds (R370) -/
def COLLIE_FAIL_CNT : Field := ⟨0x90C, 1, 0, 0, 32, .sat, 0, 0, 4294967295⟩
/-- FOLD page, R400: Array of the last failure -/
def COLLIE_LAST_ARRAY : Field := ⟨0x910, 1, 0, 0, 4, .ro, 0, 0, 15⟩
/-- FOLD page, R400: 1 instant, 2 block, 3 row -/
def COLLIE_LAST_KIND : Field := ⟨0x910, 1, 0, 4, 2, .ro, 0, 0, 3⟩
/-- FOLD page, R400: Row, for a row test -/
def COLLIE_LAST_ROW : Field := ⟨0x910, 1, 0, 6, 10, .ro, 0, 0, 1023⟩
/-- FOLD page, R400: ¦q¦, rms or ¦t¦, rounded up, saturating at 0xFFFF -/
def COLLIE_LAST_VALUE : Field := ⟨0x910, 1, 0, 16, 16, .ro, 0, 0, 65535⟩
/-- FOLD page, R400: Audits (R373) -/
def AUDIT_CNT : Field := ⟨0x914, 1, 0, 0, 32, .sat, 0, 0, 4294967295⟩
/-- FOLD page, R400: Failed audits -/
def AUDIT_FAIL_CNT : Field := ⟨0x918, 1, 0, 0, 32, .sat, 0, 0, 4294967295⟩
/-- FOLD page, R400: Residue mismatches (R374) -/
def RESIDUE_FAIL_CNT : Field := ⟨0x91C, 1, 0, 0, 32, .sat, 0, 0, 4294967295⟩
/-- FOLD page, R400: Suspects raised on this fold, both classes -/
def SUSPECT_CNT : Field := ⟨0x920, 1, 0, 0, 32, .sat, 0, 0, 4294967295⟩
/-- FOLD page, R400: Switch and fill pauses while taking over a slot (R384, R385) -/
def SPARE_PAUSE_CYC : Field := ⟨0x924, 1, 0, 0, 32, .sat, 0, 0, 4294967295⟩
/-- FOLD page, R400: Tally of the last passed test; 0 when none since reset -/
def LAST_TEST_LO : Field := ⟨0x928, 1, 0, 0, 32, .ro, 0, 0, 4294967295⟩
/-- FOLD page, R400: Tally of the last passed test; 0 when none since reset -/
def LAST_TEST_HI : Field := ⟨0x92C, 1, 0, 0, 32, .ro, 0, 0, 4294967295⟩
/-- TEST page, R401: τ_i, LSB. A write of 0 stores 1 -/
def COLLIE_CFG_TI : Field := ⟨0x040, 1, 0, 0, 8, .rw, 48, 1, 255⟩
/-- TEST page, R401: τ_r, LSB. A write of 0 stores 1 -/
def COLLIE_CFG_TR : Field := ⟨0x040, 1, 0, 8, 8, .rw, 24, 1, 255⟩
/-- TEST page, R401: τ_t, 6–63. A write below 6 stores 6 -/
def COLLIE_CFG_TT : Field := ⟨0x040, 1, 0, 16, 6, .rw, 9, 6, 63⟩
/-- TEST page, R401: ROT_EN -/
def ROT_CTRL_EN : Field := ⟨0x044, 1, 0, 0, 1, .rw, 1, 0, 1⟩
/-- TEST page, R401: ROT_INTERVAL, minutes; writes outside 1–1,440 store the nearest limit -/
def ROT_CTRL_INTERVAL : Field := ⟨0x044, 1, 0, 1, 11, .rw, 40, 1, 1440⟩
/-- TEST page, R401: CD0: 0 idle, 1 filling, 2 testing -/
def ROT_STATE_CD0 : Field := ⟨0x048, 1, 0, 0, 2, .ro, 0, 0, 3⟩
/-- TEST page, R401: CD1, as CD0 -/
def ROT_STATE_CD1 : Field := ⟨0x048, 1, 0, 2, 2, .ro, 0, 0, 3⟩
/-- TEST page, R401: Physical fold concerned on CD0 -/
def ROT_STATE_FOLD0 : Field := ⟨0x048, 1, 0, 4, 7, .ro, 0, 0, 127⟩
/-- TEST page, R401: Physical fold concerned on CD1 -/
def ROT_STATE_FOLD1 : Field := ⟨0x048, 1, 0, 11, 7, .ro, 0, 0, 127⟩
/-- TEST page, R401: Passed tests -/
def TEST_PASS_CNT : Field := ⟨0x04C, 1, 0, 0, 32, .sat, 0, 0, 4294967295⟩
/-- TEST page, R401: Failed tests -/
def TEST_FAIL_CNT : Field := ⟨0x050, 1, 0, 0, 32, .sat, 0, 0, 4294967295⟩
/-- TEST page, R401: Planned fills abandoned (R377) -/
def ROT_ABANDON : Field := ⟨0x054, 1, 0, 0, 32, .sat, 0, 0, 4294967295⟩
/-- TEST page, R401: Located suspects replayed without a spare -/
def SUSPECT_SAME_HW : Field := ⟨0x058, 1, 0, 0, 32, .sat, 0, 0, 4294967295⟩
/-- TEST page, R401: Verdicts (R380) -/
def ARB_CNT : Field := ⟨0x05C, 1, 0, 0, 32, .sat, 0, 0, 4294967295⟩
/-- TEST page, R401: 1 ROWSUM, 2 CHECKER, 3 ARRAY, 4 DATA, 5 BIAS -/
def ARB_LAST_VERDICT : Field := ⟨0x060, 1, 0, 0, 3, .ro, 0, 0, 7⟩
/-- TEST page, R401: Physical fold -/
def ARB_LAST_FOLD : Field := ⟨0x060, 1, 0, 3, 7, .ro, 0, 0, 127⟩
/-- TEST page, R401: Array -/
def ARB_LAST_ARRAY : Field := ⟨0x060, 1, 0, 10, 4, .ro, 0, 0, 15⟩
/-- TEST page, R401: Stage 2 repeated the failure -/
def ARB_LAST_REPEAT : Field := ⟨0x060, 1, 0, 14, 1, .ro, 0, 0, 1⟩
/-- TEST page, R401: Low 32 bits of the disputed conversion's tally -/
def ARB_TALLY : Field := ⟨0x064, 1, 0, 0, 32, .ro, 0, 0, 4294967295⟩
/-- TEST page, R401: Bit i: physical fold 32k + i is overdue (R392); bits above fold 67 reserved -/
def TEST_OVERDUE : Field := ⟨0x068, 3, 4, 0, 32, .ro, 0, 0, 4294967295⟩
/-- TEST page, R401: Physical fold to retire (R388) -/
def RETIRE_REQ_FOLD : Field := ⟨0x074, 1, 0, 0, 7, .rw, 0, 0, 127⟩
/-- TEST page, R401: Retire. Ignored, and recorded as an access error, once a drove is active or while the fold serves a  -/
def RETIRE_REQ_GO : Field := ⟨0x074, 1, 0, 7, 1, .sc, 0, 0, 1⟩
/-- TEST page, R401: Bit s: logical slot s has failed (R377) -/
def SLOT_FAILED_LO : Field := ⟨0x078, 1, 0, 0, 32, .ro, 0, 0, 4294967295⟩
/-- TEST page, R401: Bit s: logical slot s has failed (R377) -/
def SLOT_FAILED_HI : Field := ⟨0x07C, 1, 0, 0, 32, .ro, 0, 0, 4294967295⟩
/-- PEN page, R402: R, rounds; 0: no checkpoints (R396) -/
def CKPT_CTRL_R : Field := ⟨0x4C0, 1, 0, 0, 8, .rw, 0, 0, 255⟩
/-- PEN page, R402: Mirror on (R397). A write that R399 forbids is ignored -/
def CKPT_CTRL_MIRROR : Field := ⟨0x4C0, 1, 0, 8, 1, .rw, 0, 0, 1⟩
/-- PEN page, R402: CKPT_FLOCKS: bit f, flock f is checkpointed (R399) -/
def CKPT_CTRL_FLOCKS : Field := ⟨0x4C0, 1, 0, 16, 16, .rw, 0, 0, 65535⟩
/-- PEN page, R402: Partner device ID -/
def CKPT_PARTNER_ID : Field := ⟨0x4C4, 1, 0, 0, 15, .rw, 0, 0, 32767⟩
/-- PEN page, R402: Partner valid -/
def CKPT_PARTNER_VALID : Field := ⟨0x4C4, 1, 0, 15, 1, .rw, 0, 0, 1⟩
/-- PEN page, R402: Checkpoints skipped, including those that do not fit CKPT_SLOT -/
def CKPT_SKIP : Field := ⟨0x4C8, 1, 0, 0, 32, .sat, 0, 0, 4294967295⟩
/-- PEN page, R402: Size of one checkpoint slot, 4 KiB units (R399) -/
def CKPT_SLOT : Field := ⟨0x4CC, 1, 0, 0, 24, .rw, 0, 0, 16777215⟩
/-- PEN page, R402: Round of the last completed checkpoint of flock f -/
def CKPT_DONE0 : Field := ⟨0x4D0, 16, 8, 0, 32, .ro, 0, 0, 4294967295⟩
/-- PEN page, R402: Round of the last checkpoint mirrored and acknowledged -/
def CKPT_DONE1 : Field := ⟨0x4D4, 16, 8, 0, 32, .ro, 0, 0, 4294967295⟩
/-- PEN page, R416: Next write position in the ring, 64-byte units -/
def JRNL_TAIL : Field := ⟨0x560, 1, 0, 0, 26, .ro, 0, 0, 67108863⟩
/-- PEN page, R416: Sequence number of the next entry -/
def JRNL_SEQ : Field := ⟨0x564, 1, 0, 0, 32, .ro, 0, 0, 4294967295⟩
/-- PEN page, R416: Host read position, 64-byte units (R407) -/
def JRNL_HOST_HEAD : Field := ⟨0x568, 1, 0, 0, 26, .rw, 0, 0, 67108863⟩
/-- PEN page, R416: Overwrites past JRNL_HOST_HEAD -/
def JRNL_OVERRUN : Field := ⟨0x56C, 1, 0, 0, 32, .sat, 0, 0, 4294967295⟩
/-- PEN page, R416: ENABLE (R412) -/
def REPLAY_CTRL_ENABLE : Field := ⟨0x570, 1, 0, 0, 1, .rw, 0, 0, 1⟩
/-- PEN page, R416: Flock index -/
def REPLAY_CTRL_FLOCK : Field := ⟨0x570, 1, 0, 1, 4, .rw, 0, 0, 15⟩
/-- PEN page, R416: Channel for token records -/
def REPLAY_CTRL_CHAN : Field := ⟨0x570, 1, 0, 5, 7, .rw, 0, 0, 127⟩
/-- PEN page, R416: STOP_ON_DIV (R414) -/
def REPLAY_CTRL_STOP : Field := ⟨0x570, 1, 0, 12, 1, .rw, 0, 0, 1⟩
/-- PEN page, R416: Source base, window-relative, 4 KiB units -/
def REPLAY_SRC : Field := ⟨0x574, 1, 0, 0, 32, .rw, 0, 0, 4294967295⟩
/-- PEN page, R416: Source size, 4 KiB units, 0–1,048,576 -/
def REPLAY_SRC_SIZE : Field := ⟨0x578, 1, 0, 0, 21, .rw, 0, 0, 2097151⟩
/-- PEN page, R416: Sequence of the first entry to apply -/
def REPLAY_START_SEQ : Field := ⟨0x57C, 1, 0, 0, 32, .rw, 0, 0, 4294967295⟩
/-- PEN page, R416: 0 IDLE, 1 WAITING, 2 RUNNING, 3 DIVERGED, 4 ENDED, 5 STOPPED -/
def REPLAY_STATE_STATE : Field := ⟨0x580, 1, 0, 0, 3, .ro, 0, 0, 7⟩
/-- PEN page, R416: STOPPED cause: 1 poisoned line, 2 sequence gap, 3 digest -/
def REPLAY_STATE_CAUSE : Field := ⟨0x580, 1, 0, 3, 2, .ro, 0, 0, 3⟩
/-- PEN page, R416: Sequence of the next entry to apply -/
def REPLAY_POS : Field := ⟨0x584, 1, 0, 0, 32, .ro, 0, 0, 4294967295⟩
/-- PEN page, R416: Step of the first divergence -/
def REPLAY_DIV_STEP_LO : Field := ⟨0x588, 1, 0, 0, 32, .ro, 0, 0, 4294967295⟩
/-- PEN page, R416: Step of the first divergence -/
def REPLAY_DIV_STEP_HI : Field := ⟨0x58C, 1, 0, 0, 32, .ro, 0, 0, 4294967295⟩
/-- PEN page, R416: Divergences found (R414) -/
def REPLAY_DIV_CNT : Field := ⟨0x590, 1, 0, 0, 32, .sat, 0, 0, 4294967295⟩
/-- HKA page, R435: ROUND_US, 250–10,000; writes outside the range store the nearest limit (R421) -/
def HK_CTRL_ROUND_US : Field := ⟨0x040, 1, 0, 0, 14, .rw, 1000, 250, 10000⟩
/-- HKA page, R435: LOWPWR (R422) -/
def HK_CTRL_LOWPWR : Field := ⟨0x040, 1, 0, 14, 1, .rw, 0, 0, 1⟩
/-- HKA page, R435: CAL_FORCE (R427) -/
def HK_CTRL_CAL_FORCE : Field := ⟨0x040, 1, 0, 15, 1, .sc, 0, 0, 1⟩
/-- HKA page, R435: CAP_DIV, 0–10; a write above 10 stores 10 (R426) -/
def HK_CTRL_CAP_DIV : Field := ⟨0x040, 1, 0, 16, 4, .rw, 4, 0, 10⟩
/-- HKA page, R435: 0 idle, 1 scanning or spot, 2 self-calibration, 3 droop capture -/
def HK_STATUS_STATE : Field := ⟨0x044, 1, 0, 0, 2, .ro, 0, 0, 3⟩
/-- HKA page, R435: CONV_A_RET (R432) -/
def HK_STATUS_A_RET : Field := ⟨0x044, 1, 0, 2, 1, .ro, 0, 0, 1⟩
/-- HKA page, R435: CONV_B_RET -/
def HK_STATUS_B_RET : Field := ⟨0x044, 1, 0, 3, 1, .ro, 0, 0, 1⟩
/-- HKA page, R435: UNIT_FAIL -/
def HK_STATUS_UNIT_FAIL : Field := ⟨0x044, 1, 0, 4, 1, .ro, 0, 0, 1⟩
/-- HKA page, R435: CAL_REJ (R429) -/
def HK_STATUS_CAL_REJ : Field := ⟨0x044, 1, 0, 5, 1, .w1c, 0, 0, 1⟩
/-- HKA page, R435: Entry in progress or due next -/
def HK_STATUS_ENTRY : Field := ⟨0x044, 1, 0, 8, 8, .ro, 0, 0, 255⟩
/-- HKA page, R435: Low 16 bits of the round number -/
def HK_STATUS_ROUND : Field := ⟨0x044, 1, 0, 16, 16, .ro, 0, 0, 65535⟩
/-- HKA page, R435: Rounds completed -/
def HK_ROUND_CNT : Field := ⟨0x048, 1, 0, 0, 32, .sat, 0, 0, 4294967295⟩
/-- HKA page, R435: Rounds started late (R421) -/
def HK_OVERRUN : Field := ⟨0x04C, 1, 0, 0, 32, .sat, 0, 0, 4294967295⟩
/-- HKA page, R435: Channel -/
def SPOT_REQ_CH : Field := ⟨0x050, 1, 0, 0, 7, .rw, 0, 0, 127⟩
/-- HKA page, R435: Averaging code: n = 1, 2, 4, 8 -/
def SPOT_REQ_AVG : Field := ⟨0x050, 1, 0, 7, 2, .rw, 0, 0, 3⟩
/-- HKA page, R435: Start (R423) -/
def SPOT_REQ_START : Field := ⟨0x050, 1, 0, 9, 1, .sc, 0, 0, 1⟩
/-- HKA page, R435: Value, in the channel kind's units -/
def SPOT_RESULT_VALUE : Field := ⟨0x054, 1, 0, 0, 16, .ro, 0, 0, 65535⟩
/-- HKA page, R435: 0 none, 1 pending, 2 done, 3 DROPPED -/
def SPOT_RESULT_STATUS : Field := ⟨0x054, 1, 0, 16, 2, .ro, 0, 0, 3⟩
/-- HKA page, R435: Spot requests dropped (R425) -/
def SPOT_DROP : Field := ⟨0x058, 1, 0, 0, 32, .sat, 0, 0, 4294967295⟩
/-- HKA page, R435: Spot requests refused on a full queue (R423) -/
def SPOT_OVF : Field := ⟨0x05C, 1, 0, 0, 32, .sat, 0, 0, 4294967295⟩
/-- HKA page, R435: Sweeps applied -/
def HK_CAL_CNT : Field := ⟨0x060, 1, 0, 0, 32, .sat, 0, 0, 4294967295⟩
/-- HKA page, R435: Sweeps rejected -/
def HK_CAL_REJ : Field := ⟨0x064, 1, 0, 0, 32, .sat, 0, 0, 4294967295⟩
/-- HKA page, R435: Die temperature at the last applied sweep, signed, 1/16 °C -/
def HK_CAL_TEMP : Field := ⟨0x068, 1, 0, 0, 16, .ro, 0, 0, 65535⟩
/-- HKA page, R435: Entries in use, 1–256 -/
def HK_SCAN_LEN : Field := ⟨0x06C, 1, 0, 0, 9, .rwl, 0, 0, 511⟩
/-- HKA page, R435: Offset trim, signed, 1/64 LSB -/
def HK_TRIM_A_O : Field := ⟨0x070, 1, 0, 0, 12, .ro, 0, 0, 4095⟩
/-- HKA page, R435: Offset trim, signed, 1/64 LSB -/
def HK_TRIM_B_O : Field := ⟨0x074, 1, 0, 0, 12, .ro, 0, 0, 4095⟩
/-- HKA page, R435: Gain trim, unsigned 2.14 -/
def HK_TRIM_A_G : Field := ⟨0x070, 1, 0, 12, 16, .ro, 0, 0, 65535⟩
/-- HKA page, R435: Gain trim, unsigned 2.14 -/
def HK_TRIM_B_G : Field := ⟨0x074, 1, 0, 12, 16, .ro, 0, 0, 65535⟩
/-- HKA page, R435: Channel (R420) -/
def SCAN_CH : Field := ⟨0x100, 256, 4, 0, 7, .rwl, 0, 0, 127⟩
/-- HKA page, R435: Averaging code -/
def SCAN_AVG : Field := ⟨0x100, 256, 4, 7, 2, .rwl, 0, 0, 3⟩
/-- HKA page, R435: Last published value, in the kind's units; zero for D and reserved channels -/
def TELEM_VALUE : Field := ⟨0x500, 128, 4, 0, 16, .ro, 0, 0, 65535⟩
/-- HKA page, R435: STALE (R430) -/
def TELEM_STALE : Field := ⟨0x500, 128, 4, 16, 1, .ro, 0, 0, 1⟩
/-- HKA page, R435: FAULT: substituted value (R433) -/
def TELEM_FAULT : Field := ⟨0x500, 128, 4, 17, 1, .ro, 0, 0, 1⟩
/-- HKA page, R435: NEVER: not yet published since reset -/
def TELEM_NEVER : Field := ⟨0x500, 128, 4, 18, 1, .ro, 1, 0, 1⟩
/-- HKA page, R435: Low 8 bits of the round number of the publication -/
def TELEM_ROUND : Field := ⟨0x500, 128, 4, 24, 8, .ro, 0, 0, 255⟩
/-- PWR page, R453: Sustained device limit, W (R237). Writes above 2,200 store 2,200, and writes below 400 store 400. A  -/
def PWR_LIMIT : Field := ⟨0x040, 1, 0, 0, 12, .rw, 2200, 400, 2200⟩
/-- PWR page, R453: CREDIT_W, W, 0–400. A write above 400 stores 400 -/
def PWR_CREDIT_W : Field := ⟨0x044, 1, 0, 0, 10, .rw, 0, 0, 400⟩
/-- PWR page, R453: CREDIT_N, 0–16. A write above 16 stores 16 -/
def PWR_CREDIT_N : Field := ⟨0x044, 1, 0, 10, 5, .rw, 0, 0, 16⟩
/-- PWR page, R453: CREDIT_SLACK, cycles (R443) -/
def PWR_CREDIT_SLACK : Field := ⟨0x048, 1, 0, 0, 24, .rw, 0, 0, 16777215⟩
/-- PWR page, R453: MARGIN_EN (R439). A write of 0 sets o to 0 at once -/
def PWR_MARGIN : Field := ⟨0x04C, 1, 0, 0, 1, .rw, 1, 0, 1⟩
/-- PWR page, R453: Table voltage of state p, mV -/
def VTAB : Field := ⟨0x050, 8, 4, 0, 10, .ro, 0, 0, 1023⟩
/-- PWR page, R453: Droop trip depth below the commanded voltage, mV (R445) -/
def DROOP_LVL : Field := ⟨0x070, 1, 0, 0, 7, .ro, 0, 0, 127⟩
/-- PWR page, R453: Largest offset o, mV, a multiple of 5 -/
def MARGIN_MAX : Field := ⟨0x074, 1, 0, 0, 6, .ro, 0, 0, 63⟩
/-- THERM page, R454: T taken at the last tick boundary (R448), signed, 1/16 °C -/
def THERM_TMAX : Field := ⟨0x040, 1, 0, 0, 16, .ro, 0, 0, 65535⟩
/-- THERM page, R454: Bit k: comparator k of CD0 is disabled (R450) -/
def COMP_OFF_CD0 : Field := ⟨0x044, 1, 0, 0, 8, .ro, 0, 0, 255⟩
/-- THERM page, R454: As [7:0], for CD1 -/
def COMP_OFF_CD1 : Field := ⟨0x044, 1, 0, 8, 8, .ro, 0, 0, 255⟩
/-- THERM page, R454: As [7:0], for the IOD -/
def COMP_OFF_IOD : Field := ⟨0x044, 1, 0, 16, 8, .ro, 0, 0, 255⟩
/-- BOOT page, R481: Cause of the last reset (R455) -/
def RESET_CAUSE_LAST : Field := ⟨0x040, 1, 0, 0, 3, .ro, 1, 0, 7⟩
/-- BOOT page, R481: Cause of the reset before it -/
def RESET_CAUSE_PREV : Field := ⟨0x040, 1, 0, 3, 3, .ro, 0, 0, 7⟩
/-- BOOT page, R481: Warm resets since the last cold reset, stopping at 255 -/
def RESET_CAUSE_WARM : Field := ⟨0x040, 1, 0, 6, 8, .ro, 0, 0, 255⟩
/-- BOOT page, R481: Status (R460) -/
def BOOT_STATUS_STATUS : Field := ⟨0x044, 1, 0, 0, 8, .ro, 0, 0, 255⟩
/-- BOOT page, R481: Bank booted -/
def BOOT_STATUS_BANK : Field := ⟨0x044, 1, 0, 8, 1, .ro, 0, 0, 1⟩
/-- BOOT page, R481: Trial boot -/
def BOOT_STATUS_TRIAL : Field := ⟨0x044, 1, 0, 9, 1, .ro, 0, 0, 1⟩
/-- BOOT page, R481: Provisioning mode (R467) -/
def BOOT_STATUS_PROV : Field := ⟨0x044, 1, 0, 10, 1, .ro, 0, 0, 1⟩
/-- BOOT page, R481: Identity matches the certificate -/
def BOOT_STATUS_IDENT : Field := ⟨0x044, 1, 0, 11, 1, .ro, 0, 0, 1⟩
/-- BOOT page, R481: Running firmware version -/
def FW_VERSION : Field := ⟨0x048, 1, 0, 0, 32, .ro, 0, 0, 4294967295⟩
/-- BOOT page, R481: Reset release to end of stage 7, µs -/
def BOOT_TIME : Field := ⟨0x04C, 1, 0, 0, 32, .ro, 0, 0, 4294967295⟩
/-- BOOT page, R481: SOFT_RESET -/
def RESET_CTRL : Field := ⟨0x050, 1, 0, 0, 1, .sc, 0, 0, 1⟩
/-- BOOT page, R481: Device ID (R466) -/
def DEVICE_ID_ID : Field := ⟨0x054, 1, 0, 0, 15, .ro, 0, 0, 32767⟩
/-- BOOT page, R481: Valid -/
def DEVICE_ID_VALID : Field := ⟨0x054, 1, 0, 15, 1, .ro, 0, 0, 1⟩
/-- BOOT page, R481: Installation ID -/
def INSTALL_ID : Field := ⟨0x058, 1, 0, 0, 32, .ro, 0, 0, 4294967295⟩
/-- BOOT page, R481: Serial of the applied policy; 0 in provisioning mode -/
def POLICY_SERIAL : Field := ⟨0x05C, 1, 0, 0, 32, .ro, 0, 0, 4294967295⟩
/-- SEC page, R482: START (R463) -/
def ATTEST_CTRL : Field := ⟨0x040, 1, 0, 0, 1, .sc, 0, 0, 1⟩
/-- SEC page, R482: 0 idle, 1 busy, 2 done, 3 refused -/
def ATTEST_STATUS_STATUS : Field := ⟨0x044, 1, 0, 0, 2, .ro, 0, 0, 3⟩
/-- SEC page, R482: Refusal: 1 identity, 2 address -/
def ATTEST_STATUS_REFUSAL : Field := ⟨0x044, 1, 0, 2, 2, .ro, 0, 0, 3⟩
/-- SEC page, R482: Report address, window-relative, 4 KiB units -/
def ATTEST_ADDR : Field := ⟨0x048, 1, 0, 0, 32, .rw, 0, 0, 4294967295⟩
/-- SEC page, R482: Reports written -/
def ATTEST_CNT : Field := ⟨0x04C, 1, 0, 0, 32, .sat, 0, 0, 4294967295⟩
/-- SEC page, R482: Nonce bytes 4k to 4k + 3 -/
def ATTEST_NONCE : Field := ⟨0x060, 8, 4, 0, 32, .rw, 0, 0, 4294967295⟩
/-- SEC page, R482: M_6 bytes 4k to 4k + 3 (R462) -/
def MEAS : Field := ⟨0x080, 8, 4, 0, 32, .ro, 0, 0, 4294967295⟩
/-- UPD page, R483: Bank state (R472) -/
def UPD_BANK0_STATE : Field := ⟨0x040, 1, 0, 0, 3, .ro, 0, 0, 7⟩
/-- UPD page, R483: Bank state (R472) -/
def UPD_BANK1_STATE : Field := ⟨0x044, 1, 0, 0, 3, .ro, 0, 0, 7⟩
/-- UPD page, R483: Trial count -/
def UPD_BANK0_TRIAL : Field := ⟨0x040, 1, 0, 3, 2, .ro, 0, 0, 3⟩
/-- UPD page, R483: Trial count -/
def UPD_BANK1_TRIAL : Field := ⟨0x044, 1, 0, 3, 2, .ro, 0, 0, 3⟩
/-- UPD page, R483: Pieces written in the object being filled -/
def UPD_PIECES_DONE : Field := ⟨0x048, 1, 0, 0, 11, .ro, 0, 0, 2047⟩
/-- UPD page, R483: Piece count of that object -/
def UPD_PIECES_COUNT : Field := ⟨0x048, 1, 0, 16, 11, .ro, 0, 0, 2047⟩
/-- UPD page, R483: Firmware version of the inactive bank; 0 when EMPTY -/
def UPD_FW_NEXT : Field := ⟨0x04C, 1, 0, 0, 32, .ro, 0, 0, 4294967295⟩
/-- UPD page, R483: Staged policy slot: 0 empty, 1 filling, 2 complete -/
def UPD_POLICY_STAGED : Field := ⟨0x050, 1, 0, 0, 2, .ro, 0, 0, 3⟩
/-- UPD page, R483: Slot of the applied policy -/
def UPD_POLICY_SLOT : Field := ⟨0x050, 1, 0, 2, 1, .ro, 0, 0, 1⟩
/-- UPD page, R483: Pieces refused -/
def UPD_PIECE_ERR : Field := ⟨0x054, 1, 0, 0, 32, .sat, 0, 0, 4294967295⟩
/-- UPD page, R483: Flash write attempts that failed read-back -/
def UPD_FLASH_ERR : Field := ⟨0x058, 1, 0, 0, 32, .sat, 0, 0, 4294967295⟩
/-- ANY page, R485: Page type (R484) -/
def PAGE_ID_TYPE : Field := ⟨0x000, 1, 0, 0, 8, .ro, 0, 0, 255⟩
/-- ANY page, R485: Instance number -/
def PAGE_ID_INSTANCE : Field := ⟨0x000, 1, 0, 8, 8, .ro, 0, 0, 255⟩
/-- ANY page, R485: Page index -/
def PAGE_ID_INDEX : Field := ⟨0x000, 1, 0, 16, 8, .ro, 0, 0, 255⟩
/-- ANY page, R485: Layout minor version -/
def PAGE_VER_MINOR : Field := ⟨0x004, 1, 0, 0, 8, .ro, 0, 0, 255⟩
/-- ANY page, R485: Layout major version -/
def PAGE_VER_MAJOR : Field := ⟨0x004, 1, 0, 8, 8, .ro, 1, 0, 255⟩
/-- ANY page, R485: 1: a pen other than pen 0 can own the page (PEN, FOLD, LINK) -/
def CAPS_OWNABLE : Field := ⟨0x008, 1, 0, 0, 1, .ro, 0, 0, 1⟩
/-- ANY page, R485: 1: some registers of the page keep their values over a warm reset (BOOT, LOG) -/
def CAPS_KEEPS : Field := ⟨0x008, 1, 0, 1, 1, .ro, 0, 0, 1⟩
/-- ANY page, R485: CNT_CLR: clears every SAT counter of the page and STATUS [0] (R488) -/
def CTRL : Field := ⟨0x00C, 1, 0, 0, 1, .sc, 0, 0, 1⟩
/-- ANY page, R485: SAT: a SAT counter of the page has stopped at 0xFFFF_FFFF (R9) -/
def STATUS_SAT : Field := ⟨0x010, 1, 0, 0, 1, .w1c, 0, 0, 1⟩
/-- ANY page, R485: FAULT: ERR_SUM AND NOT ERR_MASK is non-zero -/
def STATUS_FAULT : Field := ⟨0x010, 1, 0, 1, 1, .ro, 0, 0, 1⟩
/-- ANY page, R485: LOCKED: the boot lock of the page is set -/
def STATUS_LOCKED : Field := ⟨0x010, 1, 0, 2, 1, .ro, 0, 0, 1⟩
/-- ANY page, R485: Error bits (R491, R492) -/
def ERR_SUM : Field := ⟨0x014, 1, 0, 0, 16, .w1c, 0, 0, 65535⟩
/-- ANY page, R485: Bit b: leave ERR_SUM bit b out of FAULT and out of DIR_ERR -/
def ERR_MASK : Field := ⟨0x018, 1, 0, 0, 16, .rw, 0, 0, 65535⟩
/-- ANY page, R485: Bit number of the first error (R486) -/
def ERR_FIRST_BIT : Field := ⟨0x01C, 1, 0, 0, 4, .ro, 0, 0, 15⟩
/-- ANY page, R485: Tally number bits [23:0] at that error -/
def ERR_FIRST_TALLY : Field := ⟨0x01C, 1, 0, 8, 24, .ro, 0, 0, 16777215⟩
/-- ANY page, R485: Events that set ERR_SUM bit 0 -/
def EVT_ACCESS : Field := ⟨0x020, 1, 0, 0, 32, .sat, 0, 0, 4294967295⟩
/-- ANY page, R485: Events that set ERR_SUM bit 1 -/
def EVT_UNCORR : Field := ⟨0x024, 1, 0, 0, 32, .sat, 0, 0, 4294967295⟩
/-- ANY page, R485: Events that set ERR_SUM bit 2 -/
def EVT_PARITY : Field := ⟨0x028, 1, 0, 0, 32, .sat, 0, 0, 4294967295⟩
/-- ANY page, R485: Trouble-log entries whose source is this page -/
def EVT_LOG : Field := ⟨0x02C, 1, 0, 0, 32, .sat, 0, 0, 4294967295⟩
/-- ANY page, R485: OWNER: the owning pen (R466) -/
def LOCK_OWNER : Field := ⟨0x030, 1, 0, 0, 4, .rwl, 0, 0, 15⟩
/-- ANY page, R485: BOOT_LOCK: a write of 1 sets the boot lock, and only a reset clears it -/
def LOCK_BOOT_LOCK : Field := ⟨0x030, 1, 0, 8, 1, .rwl, 0, 0, 1⟩
/-- PEN page, R495: Bit i: page 32k + i is visible to this pen. On pen 0's PEN page, bits 0–206 are 1 -/
def PEN_PAGES : Field := ⟨0x040, 8, 4, 0, 32, .ro, 0, 0, 4294967295⟩
/-- DIR page, R496: Pages present -/
def DIR_INFO : Field := ⟨0x040, 1, 0, 0, 9, .ro, 207, 0, 511⟩
/-- DIR page, R496: Bit i: page 32k + i has FAULT set -/
def DIR_ERR : Field := ⟨0x060, 8, 4, 0, 32, .ro, 0, 0, 4294967295⟩
/-- DIR page, R496: Bit i: page 32k + i has STATUS [0] set -/
def DIR_SAT : Field := ⟨0x080, 8, 4, 0, 32, .ro, 0, 0, 4294967295⟩
/-- DIR page, R496: Type code of page i; zero for indices 207–255 -/
def DIR_ENTRY_TYPE : Field := ⟨0x100, 256, 4, 0, 8, .ro, 0, 0, 255⟩
/-- DIR page, R496: Instance number -/
def DIR_ENTRY_INSTANCE : Field := ⟨0x100, 256, 4, 8, 8, .ro, 0, 0, 255⟩
/-- DIR page, R496: Owning pen, as LOCK of page i -/
def DIR_ENTRY_OWNER : Field := ⟨0x100, 256, 4, 16, 4, .ro, 0, 0, 15⟩
/-- LOG page, R497: Index of the next entry to be written -/
def LOG_INDEX : Field := ⟨0x040, 1, 0, 0, 32, .ro, 0, 0, 4294967295⟩
/-- LOG page, R497: Pen 0's read position: the oldest index not yet read -/
def LOG_READ : Field := ⟨0x044, 1, 0, 0, 32, .rw, 0, 0, 4294967295⟩
/-- LOG page, R497: Entries overwritten at or after LOG_READ -/
def LOG_OVERRUN : Field := ⟨0x048, 1, 0, 0, 32, .sat, 0, 0, 4294967295⟩
/-- LOG page, R497: Index of the entry to read -/
def LOG_SEL : Field := ⟨0x04C, 1, 0, 0, 32, .rw, 0, 0, 4294967295⟩
/-- LOG page, R497: State of the latched entry: 0 valid, 1 overwritten, 2 not yet written -/
def LOG_SEL_STATUS : Field := ⟨0x050, 1, 0, 0, 2, .ro, 0, 0, 3⟩
/-- LOG page, R497: AUTO -/
def LOG_CTRL : Field := ⟨0x054, 1, 0, 0, 1, .rw, 1, 0, 1⟩
/-- LOG page, R497: Word w of the latched entry -/
def LOG_ENTRY : Field := ⟨0x100, 16, 4, 0, 32, .ro, 0, 0, 4294967295⟩
/-- SHOB page, R498: QPs in use across the device, the weight loader's included (R346) -/
def SHOB_STATUS_QPS : Field := ⟨0x040, 1, 0, 0, 11, .ro, 0, 0, 2047⟩
/-- SHOB page, R498: Channels open or orphaned, all pens, 0–2,048 -/
def SHOB_STATUS_CHANNELS : Field := ⟨0x040, 1, 0, 11, 12, .ro, 0, 0, 4095⟩
/-- SHOB page, R498: Messages executed, all pens -/
def SHOB_MSG_ALL : Field := ⟨0x044, 1, 0, 0, 32, .sat, 0, 0, 4294967295⟩
/-- SHOB page, R498: Largest spill-buffer occupancy of any channel since reset, records (R362) -/
def SHOB_SPILL_PEAK : Field := ⟨0x048, 1, 0, 0, 15, .ro, 0, 0, 32767⟩
/-- SHOB page, R498: Channels orphaned (R363) -/
def SHOB_ORPHAN_CNT : Field := ⟨0x04C, 1, 0, 0, 32, .sat, 0, 0, 4294967295⟩
/-- SHOB page, R498: Orphaned channels adopted -/
def SHOB_ADOPT_CNT : Field := ⟨0x050, 1, 0, 0, 32, .sat, 0, 0, 4294967295⟩
/-- SHOB page, R498: Orphaned channels closed after 10 s -/
def SHOB_ORPHAN_CLOSE : Field := ⟨0x054, 1, 0, 0, 32, .sat, 0, 0, 4294967295⟩
/-- NOC page, R499: Parity failures on mesh links and routers of the die (R374) -/
def NOC_PARITY_CNT : Field := ⟨0x040, 1, 0, 0, 32, .sat, 0, 0, 4294967295⟩
/-- NOC page, R499: Parity failures on die-bridge transfers received by the die -/
def BRIDGE_PARITY_CNT : Field := ⟨0x044, 1, 0, 0, 32, .sat, 0, 0, 4294967295⟩
/-- NOC page, R499: Parity failures on the die's IOD bridge ports -/
def IODB_PARITY_CNT : Field := ⟨0x048, 1, 0, 0, 32, .sat, 0, 0, 4294967295⟩
/-- NOC page, R499: PORT_OVERCOMMIT faults on the die with port code 7 or 8 (R192) -/
def NOC_OVERCOMMIT_CNT : Field := ⟨0x04C, 1, 0, 0, 32, .sat, 0, 0, 4294967295⟩
/-- NOC page, R499: Largest landing-buffer occupancy of any router of the die since reset, in 256-byte units (R22) -/
def NOC_LAND_PEAK : Field := ⟨0x050, 1, 0, 0, 16, .ro, 0, 0, 65535⟩
/-- NOC page, R499: Longest IOD bridge transfer latency since reset, ns; at most 1,000 under R25 -/
def IODB_LAT_MAX : Field := ⟨0x054, 1, 0, 0, 10, .ro, 0, 0, 1023⟩

end F

/-- The fields of the common header (R485). -/
def headerFields : List Field :=
  [F.PAGE_ID_TYPE, F.PAGE_ID_INSTANCE, F.PAGE_ID_INDEX, F.PAGE_VER_MINOR, F.PAGE_VER_MAJOR, F.CAPS_OWNABLE, F.CAPS_KEEPS, F.CTRL, F.STATUS_SAT, F.STATUS_FAULT, F.STATUS_LOCKED, F.ERR_SUM, F.ERR_MASK, F.ERR_FIRST_BIT, F.ERR_FIRST_TALLY, F.EVT_ACCESS, F.EVT_UNCORR, F.EVT_PARITY, F.EVT_LOG, F.LOCK_OWNER, F.LOCK_BOOT_LOCK]

/-- The block fields of each page type, from offset 0x040 (R493). -/
def blockFields : PageType → List Field
  | .dir => [F.DIR_INFO, F.DIR_ERR, F.DIR_SAT, F.DIR_ENTRY_TYPE, F.DIR_ENTRY_INSTANCE, F.DIR_ENTRY_OWNER]
  | .iod => [F.HEFT_SIG_LO, F.HEFT_SIG_HI, F.HEFT_SPARE_CD0_FOLD1, F.HEFT_SPARE_CD0_VALID1, F.HEFT_SPARE_CD0_FOLD2,
      F.HEFT_SPARE_CD0_VALID2, F.HEFT_SPARE_CD1_FOLD1, F.HEFT_SPARE_CD1_VALID1, F.HEFT_SPARE_CD1_FOLD2,
      F.HEFT_SPARE_CD1_VALID2, F.HEFT_GEN, F.HEFT_TALLY_LO, F.HEFT_TALLY_HI, F.HEFT_SLOT_FOLD, F.HEFT_SLOT_EN,
      F.MUSTER_STATUS_POS, F.MUSTER_STATUS_VALID, F.MUSTER_STATUS_ERR, F.MSG_RT_SEL, F.MSG_RT_DATA_PRI,
      F.MSG_RT_DATA_PVALID, F.MSG_RT_DATA_ALT, F.MSG_RT_DATA_AVALID, F.MSG_TIMEOUT_CNT, F.MSG_DUP_CNT,
      F.MSG_UNREACH_CNT]
  | .pen => [F.EXT0_PORT, F.EXT0_VALID, F.EXT0_START, F.EXT1, F.WIN_SIZE, F.JRNL_BASE, F.JRNL_SIZE, F.PFX_BASE, F.PFX_SETS,
      F.CTX_BASE, F.CKPT_BASE, F.CKPT_SIZE, F.KV_BASE, F.KV_SIZE, F.EPOCH0_ID, F.EPOCH0_STATE,
      F.EPOCH0_DAMAGED, F.EPOCH0_DRAINED, F.EPOCH1_COUNT, F.EPOCH1_RESIDENT, F.EPOCH2, F.EPOCH3,
      F.EPOCH_SWITCH_PENDING, F.EPOCH_SWITCH_POLICY, F.EPOCH_SWITCH_ENTRY, F.EPOCH_SW_T_LO, F.EPOCH_SW_T_HI,
      F.PFX_KEY, F.KV_FREE, F.KV_CACHED, F.PEN_IPV6, F.PEN_IPV4, F.PEN_NET_VLAN, F.PEN_NET_VLANV,
      F.PEN_NET_IP4V, F.PEN_QP_QUOTA, F.PEN_QP_USED, F.SHOB_MSG_CNT, F.SHOB_BAD_CNT, F.DB_BAD,
      F.STREAM_OVERRUN, F.CH_SQ_TAIL, F.CH_SQ_HEAD, F.CH_TR_HEAD, F.CH_STATE_STATE, F.CH_STATE_RING,
      F.CH_STATE_QP, F.CH_STATE_SPILL, F.CKPT_CTRL_R, F.CKPT_CTRL_MIRROR, F.CKPT_CTRL_FLOCKS,
      F.CKPT_PARTNER_ID, F.CKPT_PARTNER_VALID, F.CKPT_SKIP, F.CKPT_SLOT, F.CKPT_DONE0, F.CKPT_DONE1,
      F.JRNL_TAIL, F.JRNL_SEQ, F.JRNL_HOST_HEAD]
    ++ [F.JRNL_OVERRUN, F.REPLAY_CTRL_ENABLE, F.REPLAY_CTRL_FLOCK, F.REPLAY_CTRL_CHAN, F.REPLAY_CTRL_STOP,
      F.REPLAY_SRC, F.REPLAY_SRC_SIZE, F.REPLAY_START_SEQ, F.REPLAY_STATE_STATE, F.REPLAY_STATE_CAUSE,
      F.REPLAY_POS, F.REPLAY_DIV_STEP_LO, F.REPLAY_DIV_STEP_HI, F.REPLAY_DIV_CNT, F.PEN_PAGES]
  | .fold => [F.ARR_CAL_CTRL_DT, F.ARR_CAL_CTRL_PERIOD, F.ARR_CAL_CTRL_HOLD, F.ARR_CAL_CTRL_FORCE, F.ARR_CAL_PEND,
      F.ARR_CALREJ, F.ARR_CAL_FAIL, F.ARR_NOISY, F.ARR_RANGE_OUT, F.ARR_CAL_TEMP, F.ARR_REJ_CAUSE_ARRAY,
      F.ARR_REJ_CAUSE_CAUSE, F.ARR_TRIM_SEL_ARRAY, F.ARR_TRIM_SEL_COL, F.ARR_TRIM_DATA_G, F.ARR_TRIM_DATA_O,
      F.ARR_PARITY_CNT, F.ARR_CAL_UPDATES, F.ARR_CAL_RESTARTS, F.ARR_BOUND_RS, F.ARR_BOUND_SIGMA,
      F.ARR_BOUND_EPS, F.ARR_BOUND_STALE, F.ARR_TREF, F.ARR_INL, F.ARR_CLIP, F.RP_CTRL_SHIFT, F.RP_CTRL_MIN,
      F.RECIPE_SUM_TAGS, F.RECIPE_SUM_ANY, F.RECIPE_LAST_TAG, F.RECIPE_LAST_BITS, F.STRAY_ACT_CNT,
      F.CROOK_SPILL_CNT, F.CROOK_PAUSE_CYC, F.STRAY_SAT_CNT, F.ACT_NONFINITE_CNT, F.RECIPE_FLAGS0,
      F.RECIPE_FLAGS1, F.RECIPE_FLAGS2, F.RECIPE_FLAGS3, F.CERT_PASS_CNT, F.RES_CNT, F.RES_CLIP_CNT,
      F.RES_XDOUBT_CNT, F.RES_SLOT_CNT, F.RES_PAUSE_CYC, F.RES_FAULT_CNT, F.BND_VOID_CNT, F.REF_CONV_CNT,
      F.RES_FRAC, F.RES_STATUS_STALL, F.RES_STATUS_FAULTS, F.FOLD_STATE, F.ACC_CTRL, F.ACC_CARRIED,
      F.ACC_REPEAT_CNT, F.ACC_REPEAT_CYC, F.ACC_SAT_CNT, F.ACC_ECC_CORR]
    ++ [F.ACC_ECC_UNCORR, F.TILE_CLASH_CNT, F.TILE_CLASH_INFO_TILE, F.TILE_CLASH_INFO_CAUSE, F.TILE_CLASH_INFO_HELD,
      F.TILE_CLASH_INFO_NAMED, F.TILE_CLASH_INFO_RECUR, F.ACC_STATUS_CLASH_STOP, F.ACC_STATUS_CTX_BUSY,
      F.TILE_POISON, F.SEQ_STATUS_ISSUING, F.SEQ_STATUS_ENDED, F.SEQ_STATUS_CONTRACT_STOP,
      F.SEQ_STATUS_FROZEN, F.SEQ_STATUS_DEPTH, F.SEQ_PC, F.CONTRACT_CNT, F.CONTRACT_INFO_CODE,
      F.CONTRACT_INFO_BUNDLE, F.CONTRACT_INFO_SYL, F.CONTRACT_INFO_RECUR, F.CONTRACT_INFO_PORT,
      F.CONTRACT_TALLY, F.BUNDLE_CNT, F.IDLE_BEATS, F.PAUSE_SEEN_CYC, F.LANE_APPLIED, F.VEC_NAN_CNT,
      F.MASKED_OP_CNT, F.STG_CE_CNT, F.STG_UE_CNT, F.STG_SCRUB_PASSES, F.STG_LAST_UE, F.FOLD_ROLE_ROLE,
      F.FOLD_ROLE_SLOT, F.FOLD_ROLE_SLOTV, F.FOLD_ROLE_ARRAY, F.FOLD_ROLE_QUAR, F.COLLIE_CHK_CNT,
      F.COLLIE_SKIP_CNT, F.COLLIE_FAIL_CNT, F.COLLIE_LAST_ARRAY, F.COLLIE_LAST_KIND, F.COLLIE_LAST_ROW,
      F.COLLIE_LAST_VALUE, F.AUDIT_CNT, F.AUDIT_FAIL_CNT, F.RESIDUE_FAIL_CNT, F.SUSPECT_CNT,
      F.SPARE_PAUSE_CYC, F.LAST_TEST_LO, F.LAST_TEST_HI]
  | .hbm => [F.HBM_CFG, F.HBM_TEMP_T, F.HBM_TEMP_DOUBLED, F.HBM_CE_CNT, F.HBM_CE_PAUSE_CYC, F.HBM_UE_CNT,
      F.HBM_REFRESH_PAUSE_CYC, F.HBM_LATE_CYC, F.HBM_SCRUB_PASSES, F.HBM_RETIRED, F.HBM_RETIRE_REQ_PC,
      F.HBM_RETIRE_REQ_START, F.HBM_RETIRE_STATE_STATE, F.HBM_RETIRE_STATE_PC, F.HBM_LAST_UE_LO,
      F.HBM_LAST_UE_HI, F.HBM_CAP]
  | .link => [F.LINK_CTRL_ENABLE, F.LINK_CTRL_RETRAIN, F.LINK_STATE_STATE, F.LINK_STATE_ALT, F.LINK_STATE_CAUSE,
      F.LINK_STATE_STOP, F.LINK_PEER_ID, F.LINK_PEER_VALID, F.LINK_PEER_LINK, F.LINK_LATENCY, F.FEC_CORR_SYM,
      F.FEC_UNCORR_CW, F.FLIT_CRC_ERR, F.LINK_REPLAY_CNT, F.LINK_FAIL_CNT, F.STALE_DISCARD, F.LATE_PAUSE_CYC,
      F.BP_PAUSE_CYC, F.ALT_ROUTE_CNT, F.FLITS_TX, F.FLITS_RX]
  | .eth => [F.ETH_STATUS_UP, F.ETH_STATUS_PCS, F.ETH_STATUS_PTP, F.ETH_MAC_LO, F.ETH_MAC_HI, F.FRAMES_RX, F.FRAMES_TX,
      F.FCS_ERR, F.ETH_FEC_UNCORR, F.ADDR_DISCARD, F.ICRC_ERR, F.CNP_RX, F.CNP_TX, F.ECN_CE_RX, F.RC_RETRANS,
      F.PTP_OFFSET, F.PTP_FIRE_LO, F.PTP_FIRE_HI, F.PTP_NOW_LO, F.PTP_NOW_HI]
  | .shob => [F.SHOB_STATUS_QPS, F.SHOB_STATUS_CHANNELS, F.SHOB_MSG_ALL, F.SHOB_SPILL_PEAK, F.SHOB_ORPHAN_CNT,
      F.SHOB_ADOPT_CNT, F.SHOB_ORPHAN_CLOSE]
  | .tally => [F.TALLY_CTRL_ENABLE, F.TALLY_CTRL_ROOT, F.TALLY_CTRL_START, F.TALLY_DOMAIN_ID, F.TALLY_DOMAIN_D,
      F.TALLY_LINKS_PARENT, F.TALLY_LINKS_PVALID, F.TALLY_LINKS_BACKUP, F.TALLY_LINKS_BVALID, F.TALLY_CHILD,
      F.TALLY_STATE_STATE, F.TALLY_STATE_DEPTH, F.TALLY_STATE_HS, F.TALLY_RTT, F.TALLY_BASE_LO,
      F.TALLY_BASE_HI, F.TALLY_NUM_LO, F.TALLY_NUM_HI, F.TB_LO, F.TB_HI, F.TB_OFFSET, F.TICK_CFG_N,
      F.TICK_CFG_PSTATE, F.TALLY_IDLE_N, F.STRETCH_TICKS, F.STRETCH_QUANTA, F.HOLD_RAISED, F.HOLD_LATE,
      F.MARKER_LATE, F.STEP_FAULT_CNT, F.STEP_FAULT_INFO_CAUSE, F.STEP_FAULT_INFO_FLOCK,
      F.STEP_FAULT_INFO_POS, F.STEP_FAULT_INFO_TALLY, F.SLACK_LAST, F.SLACK_USED_CYC, F.RAMP_PAUSE_CYC,
      F.PAGE_TICK_CNT, F.DRV_ENTRY0_STATE, F.DRV_ENTRY0_PEN, F.DRV_ENTRY0_FLOCK, F.DRV_ENTRY0_STATUS,
      F.DRV_ENTRY1, F.DRV_ENTRY2, F.DRV_ENTRY3, F.FLOCK_STEP_LO, F.FLOCK_STEP_HI]
  | .drover => [F.DRV_CTRL, F.DRV_RESIDENT, F.DRV_QUEUED, F.DRV_LANES_LIVE, F.ADMIT_CNT, F.ADMIT_REFUSED, F.PFX_LOOKUP,
      F.PFX_HIT, F.PFX_VERIFY_FAIL, F.PFX_INSERT, F.PFX_NO_WAY, F.PFX_EVICT, F.SPEC_DRAFTED, F.SPEC_ACCEPTED,
      F.SPEC_SUSPEND, F.CANCEL_INT, F.CANCEL_BULK, F.DEADLINE_CNT, F.ABORT_LATE, F.KV_LOST_CNT, F.KV_UNMAPPED,
      F.BLOCK_HOLD]
  | .wload => [F.WL_CTRL, F.WL_ACTIVE, F.WL_SHARDS_OK, F.WL_SHARDS_REFUSED, F.WL_MIB_IN, F.WL_NVME_RETRY, F.WL_RECHECK_PASS,
      F.WL_RECHECK_FAIL, F.WL_REPAIR_CNT, F.WL_LAST_REFUSE_STATUS, F.WL_LAST_REFUSE_PEN,
      F.WL_LAST_REFUSE_SHARD, F.WL_TARGET_STATE, F.WL_TARGET_PEN, F.WL_TARGET_OUT]
  | .hka => [F.HK_CTRL_ROUND_US, F.HK_CTRL_LOWPWR, F.HK_CTRL_CAL_FORCE, F.HK_CTRL_CAP_DIV, F.HK_STATUS_STATE,
      F.HK_STATUS_A_RET, F.HK_STATUS_B_RET, F.HK_STATUS_UNIT_FAIL, F.HK_STATUS_CAL_REJ, F.HK_STATUS_ENTRY,
      F.HK_STATUS_ROUND, F.HK_ROUND_CNT, F.HK_OVERRUN, F.SPOT_REQ_CH, F.SPOT_REQ_AVG, F.SPOT_REQ_START,
      F.SPOT_RESULT_VALUE, F.SPOT_RESULT_STATUS, F.SPOT_DROP, F.SPOT_OVF, F.HK_CAL_CNT, F.HK_CAL_REJ,
      F.HK_CAL_TEMP, F.HK_SCAN_LEN, F.HK_TRIM_A_O, F.HK_TRIM_B_O, F.HK_TRIM_A_G, F.HK_TRIM_B_G, F.SCAN_CH,
      F.SCAN_AVG, F.TELEM_VALUE, F.TELEM_STALE, F.TELEM_FAULT, F.TELEM_NEVER, F.TELEM_ROUND]
  | .pwr => [F.PWR_LIMIT, F.PWR_CREDIT_W, F.PWR_CREDIT_N, F.PWR_CREDIT_SLACK, F.PWR_MARGIN, F.VTAB, F.DROOP_LVL,
      F.MARGIN_MAX]
  | .therm => [F.THERM_TMAX, F.COMP_OFF_CD0, F.COMP_OFF_CD1, F.COMP_OFF_IOD]
  | .log => [F.LOG_INDEX, F.LOG_READ, F.LOG_OVERRUN, F.LOG_SEL, F.LOG_SEL_STATUS, F.LOG_CTRL, F.LOG_ENTRY]
  | .boot => [F.RESET_CAUSE_LAST, F.RESET_CAUSE_PREV, F.RESET_CAUSE_WARM, F.BOOT_STATUS_STATUS, F.BOOT_STATUS_BANK,
      F.BOOT_STATUS_TRIAL, F.BOOT_STATUS_PROV, F.BOOT_STATUS_IDENT, F.FW_VERSION, F.BOOT_TIME, F.RESET_CTRL,
      F.DEVICE_ID_ID, F.DEVICE_ID_VALID, F.INSTALL_ID, F.POLICY_SERIAL]
  | .sec => [F.ATTEST_CTRL, F.ATTEST_STATUS_STATUS, F.ATTEST_STATUS_REFUSAL, F.ATTEST_ADDR, F.ATTEST_CNT, F.ATTEST_NONCE,
      F.MEAS]
  | .upd => [F.UPD_BANK0_STATE, F.UPD_BANK1_STATE, F.UPD_BANK0_TRIAL, F.UPD_BANK1_TRIAL, F.UPD_PIECES_DONE,
      F.UPD_PIECES_COUNT, F.UPD_FW_NEXT, F.UPD_POLICY_STAGED, F.UPD_POLICY_SLOT, F.UPD_PIECE_ERR,
      F.UPD_FLASH_ERR]
  | .test => [F.COLLIE_CFG_TI, F.COLLIE_CFG_TR, F.COLLIE_CFG_TT, F.ROT_CTRL_EN, F.ROT_CTRL_INTERVAL, F.ROT_STATE_CD0,
      F.ROT_STATE_CD1, F.ROT_STATE_FOLD0, F.ROT_STATE_FOLD1, F.TEST_PASS_CNT, F.TEST_FAIL_CNT, F.ROT_ABANDON,
      F.SUSPECT_SAME_HW, F.ARB_CNT, F.ARB_LAST_VERDICT, F.ARB_LAST_FOLD, F.ARB_LAST_ARRAY, F.ARB_LAST_REPEAT,
      F.ARB_TALLY, F.TEST_OVERDUE, F.RETIRE_REQ_FOLD, F.RETIRE_REQ_GO, F.SLOT_FAILED_LO, F.SLOT_FAILED_HI]
  | .noc => [F.NOC_PARITY_CNT, F.BRIDGE_PARITY_CNT, F.IODB_PARITY_CNT, F.NOC_OVERCOMMIT_CNT, F.NOC_LAND_PEAK,
      F.IODB_LAT_MAX]

end Sys2Proof.Machine
end

