-- ==== Sys2Proof/Machine/BootState.lean ====
section
/-! DEFINITION. The state of resets, boot, the package record, the boot flash, identity, protection and update
(R455 to R477, R504 to R513). -/

namespace Sys2Proof.Machine

/-- The trim seeds of one array (R69, R457). -/
structure Seed where
  /-- gain trims, unsigned 2.14; empty reads as 16,384 -/
  g : List Nat
  /-- offset trims, 1/64 LSB; empty reads as 0 -/
  o : List Int
  deriving DecidableEq, Repr

/-- The package record (R457): the signed bytes, whose layout the spec leaves open, and the items they carry. -/
structure Record where
  /-- the signed bytes -/
  bytes : List Byte
  /-- Trellyn's signature over them -/
  signature : List Byte
  /-- GQZ96-56 -/
  order56 : Bool
  /-- stepping, as the record codes it; which number stands for A1 and which for B0 is open (R1; DESIGN CHOICE, log entry 5) -/
  stepping : Nat
  /-- arithmetic compatibility class -/
  cls : Nat
  /-- heft signature -/
  sig : Nat
  /-- serial number, 16 bytes -/
  serial : List Byte
  /-- MAC base -/
  macBase : Nat
  /-- heft map as tested: logical slot and physical fold -/
  slots : List (Nat × Nat)
  /-- spares, up to two a die -/
  spares : List Nat
  /-- voltage table, P0 to P7, mV -/
  vtab : List Nat
  /-- DROOP_LVL -/
  droopLvl : Nat
  /-- MARGIN_MAX -/
  marginMax : Nat
  /-- power-estimate energy coefficients: J of an array conversion, of a plane-load cycle, of an HBM byte and of a Fraeth flit (R441) -/
  energy : List Rat
  /-- housekeeping channel coefficients, keyed `128 * unit + channel` (R418) -/
  coefs : SMap (List Rat)
  /-- trim seeds, keyed `16 * fold + array` -/
  seeds : SMap Seed
  /-- housekeeping converter seeds, keyed `2 * unit + converter`: offset and gain trims -/
  hkSeeds : SMap (Int × Nat)
  /-- PUF helper data -/
  puf : List Byte
  /-- device certificate, 7,912 bytes -/
  cert : List Byte
  deriving DecidableEq, Repr

/-- One copy of a bank header (R459, R470); the layout of its 4 KiB is open. -/
structure BankHead where
  /-- sequence count -/
  seq : Nat
  /-- 0 EMPTY, 1 FILLING, 2 COMPLETE, 3 PENDING, 4 TRIAL, 5 ACTIVE, 6 FALLBACK, 7 REJECTED -/
  st : Nat
  /-- trial count -/
  trial : Nat
  deriving DecidableEq, Repr

/-- One firmware bank of the boot flash (R459, R470, R472). -/
structure Bank where
  /-- first copy of the header; none when it is not valid -/
  head0 : Option BankHead
  /-- second copy of the header -/
  head1 : Option BankHead
  /-- manifest, up to 64 KiB -/
  manifest : List Byte
  /-- pieces written, by index -/
  pieces : SMap (List Byte)
  /-- what the settings area of 1 MiB holds; the rest of it is erased -/
  settings : List Byte
  deriving DecidableEq, Repr

/-- An erased bank. -/
def Bank.empty : Bank := { head0 := none, head1 := none, manifest := [], pieces := [], settings := [] }

/-- The copy of the header that the ROM uses: the valid one with the newer sequence count (R459). -/
def Bank.head (b : Bank) : BankHead := match b.head0, b.head1 with
  | some x, some y => if x.seq < y.seq then y else x
  | some x, none => x
  | none, some y => y
  | none, none => { seq := 0, st := 0, trial := 0 }

/-- The state of a bank (R472); an erased bank is EMPTY. -/
def Bank.st (b : Bank) : Nat := b.head.st

/-- The trial count of a bank. -/
def Bank.trial (b : Bank) : Nat := b.head.trial

/-- Write a state and a trial count into a bank's header: over the copy that is not in force, with the next sequence count (R459). -/
def Bank.mark (b : Bank) (st trial : Nat) : Bank :=
  let h : BankHead := { seq := b.head.seq + 1, st := st, trial := trial }
  match b.head0, b.head1 with
  | some x, some y => if x.seq < y.seq then { b with head0 := some h } else { b with head1 := some h }
  | some _, none => { b with head1 := some h }
  | none, _ => { b with head0 := some h }

/-- One policy slot of the boot flash (R470, R477). -/
structure PolicySlot where
  /-- 0 empty, 1 filling, 2 complete -/
  st : Nat
  /-- length of the policy, bytes -/
  size : Nat
  /-- header of the policy as UPD_BEGIN found it -/
  header : List Byte
  /-- pieces written, by index -/
  pieces : SMap (List Byte)
  deriving DecidableEq, Repr

/-- An empty policy slot. -/
def PolicySlot.empty : PolicySlot := { st := 0, size := 0, header := [], pieces := [] }

/-- The boot flash. -/
structure Flash where
  /-- digest in the first copy of the anchor record; none when it is empty -/
  anchor0 : Option (List Byte)
  /-- digest in the second copy of the anchor record -/
  anchor1 : Option (List Byte)
  /-- policy slots 0 and 1 -/
  pol0 : PolicySlot
  /-- policy slot 1 -/
  pol1 : PolicySlot
  /-- bank 0 -/
  bank0 : Bank
  /-- bank 1 -/
  bank1 : Bank
  deriving DecidableEq, Repr

/-- The anchor: the first copy of its record that is not empty (R464, R470; which of two that differ: DESIGN CHOICE, log entry 118). -/
def Flash.anchor (x : Flash) : Option (List Byte) := x.anchor0.orElse (fun _ => x.anchor1)

/-- Write both copies of the anchor record. -/
def Flash.withAnchor (x : Flash) (a : Option (List Byte)) : Flash := { x with anchor0 := a, anchor1 := a }

/-- The areas of the flash map (R470). -/
inductive FlashArea where
  /-- a copy of the anchor record -/
  | anchor (copy : Nat)
  /-- header and bitmap of a policy slot -/
  | policyHead (slot : Nat)
  /-- a policy -/
  | policy (slot : Nat)
  /-- a copy of a bank header -/
  | bankHead (bank copy : Nat)
  /-- the piece bitmap of a bank -/
  | bitmap (bank : Nat)
  /-- the manifest of a bank -/
  | manifest (bank : Nat)
  /-- the settings area of a bank -/
  | settings (bank : Nat)
  /-- the image of a bank -/
  | image (bank : Nat)
  deriving DecidableEq, Repr

/-- Flash offset of a policy slot. -/
def slotBase (i : Nat) : Nat := if i = 0 then 0x0100000 else 0x0500000

/-- Flash offset of a bank. -/
def bankBase (i : Nat) : Nat := if i = 0 then 0x1000000 else 0x5800000

/-- Flash offset of an area. -/
def FlashArea.start : FlashArea → Nat
  | .anchor c => 0x1000 * c
  | .policyHead i => slotBase i
  | .policy i => slotBase i + 0x10000
  | .bankHead i c => bankBase i + 0x1000 * c
  | .bitmap i => bankBase i + 0x2000
  | .manifest i => bankBase i + 0x10000
  | .settings i => bankBase i + 0x100000
  | .image i => bankBase i + 0x800000

/-- Bytes of an area; those of a policy end with its slot, and those of a bitmap at the manifest. -/
def FlashArea.size : FlashArea → Nat
  | .anchor _ | .bankHead _ _ => 0x1000
  | .policyHead _ => 0x2000
  | .policy _ => 0x3F0000
  | .bitmap _ => 0xE000
  | .manifest _ => 0x10000
  | .settings _ => 0x100000
  | .image _ => 0x4000000

/-- What the applied policy grants a pen beside its registers (R464, R466). -/
structure PenGrant where
  /-- the pen is defined -/
  defined : Bool
  /-- share mask -/
  share : Nat
  /-- fold mask over logical slots -/
  folds : Nat
  /-- link mask -/
  links : Nat
  deriving DecidableEq, Repr

/-- An undefined pen. -/
def PenGrant.none : PenGrant := { defined := false, share := 0, folds := 0, links := 0 }

/-- An attestation report in preparation (R463). -/
structure Attest where
  /-- nonce -/
  nonce : List Byte
  /-- report address, window-relative bytes -/
  addr : Nat
  /-- tally number at the request -/
  tally : Nat
  /-- PTP time at the request, ns -/
  ptp : Nat
  deriving DecidableEq, Repr

/-- Resets, boot and identity. -/
structure Boot where
  /-- the package record -/
  record : Record
  /-- the boot flash -/
  flash : Flash
  /-- PWR_OK is high -/
  powerOk : Bool
  /-- RESET_N is asserted -/
  resetN : Bool
  /-- a thermal trip holds the device off (R451) -/
  tripped : Bool
  /-- stages 1 to 5 of boot have run; stage 6 waits for the board position -/
  waiting : Bool
  /-- reset is released and boot has run -/
  up : Bool
  /-- the ROM halted: only the debug port works (R460) -/
  romHalt : Bool
  /-- management cores halted -/
  halted : List Nat
  /-- pens as the applied policy grants -/
  pens : SMap PenGrant
  /-- debug channel key of the profile (R464) -/
  debugKey : List Byte
  /-- SK.seed, SK.prf and PK.seed of the device identity, none when it could not be rebuilt -/
  key : Option (List Byte)
  /-- the six digests of R462 -/
  digests : List (List Byte)
  /-- attestation in preparation -/
  attest : Option Attest
  /-- the bank that runs -/
  bank : Nat
  /-- the slot of the applied policy, none in provisioning mode -/
  policy : Option Nat
  deriving DecidableEq, Repr

/-- A heft map of the record at reset: slots 0 to 31 on folds 0 to 31, slots 32 to 63 on folds 34 to 65 (DESIGN CHOICE, log entry 5). -/
def resetSlots : List (Nat × Nat) := (List.range 64).map (fun k => (k, if k < 32 then k else k + 2))

/-- The package record of the state at reset (DESIGN CHOICE, log entry 5). -/
def Record.init : Record :=
  { bytes := [], signature := [], order56 := false, stepping := 0, cls := 1, sig := 2 ^ 64 - 1, serial := List.replicate 16 0,
    macBase := 0, slots := resetSlots, spares := [32, 33, 66, 67], vtab := [], droopLvl := 0, marginMax := 0, energy := [], coefs := [], seeds := [],
    hkSeeds := [], puf := [], cert := [] }

/-- An empty boot flash (DESIGN CHOICE, log entry 5). -/
def Flash.init : Flash :=
  { anchor0 := Option.none, anchor1 := Option.none, pol0 := PolicySlot.empty, pol1 := PolicySlot.empty, bank0 := Bank.empty, bank1 := Bank.empty }

/-- Before reset release. -/
def Boot.init : Boot :=
  { record := Record.init, flash := Flash.init, powerOk := false, resetN := false, tripped := false, waiting := false, up := false, romHalt := false,
    halted := [], pens := [], debugKey := [], key := Option.none, digests := [], attest := Option.none, bank := 0, policy := Option.none }

end Sys2Proof.Machine
end

