-- ==== Sys2Proof/Machine/PowerState.lean ====
section
/-! DEFINITION. The state of power, droop, temperature and the housekeeping units (R417 to R451). -/

namespace Sys2Proof.Machine

/-- The margin of one die (R439). -/
structure Margin where
  /-- offset o, mV -/
  off : Nat
  /-- boot learning -/
  learn : Bool
  /-- intervals since the last step: of learning, or in a row with every replica passing the tight margin -/
  run : Nat
  deriving DecidableEq, Repr

/-- No margin reclaimed. -/
def Margin.init : Margin := { off := 0, learn := true, run := 0 }

/-- What the power estimate counts (R441). -/
structure Spent where
  /-- array conversions -/
  convs : Nat
  /-- plane-load cycles -/
  loads : Nat
  /-- HBM bytes -/
  hbm : Nat
  /-- Fraeth flits -/
  flits : Nat
  deriving DecidableEq, Repr

/-- Nothing counted. -/
def Spent.zero : Spent := { convs := 0, loads := 0, hbm := 0, flits := 0 }

/-- Counts added. -/
def Spent.add (x y : Spent) : Spent :=
  { convs := x.convs + y.convs, loads := x.loads + y.loads, hbm := x.hbm + y.hbm, flits := x.flits + y.flits }

/-- What has been counted since `y`. -/
def Spent.since (x y : Spent) : Spent :=
  { convs := x.convs - y.convs, loads := x.loads - y.loads, hbm := x.hbm - y.hbm, flits := x.flits - y.flits }

/-- Power management. -/
structure Power where
  /-- performance state in force, 0 to 7 -/
  state : Nat
  /-- states that the power cap takes from the target (R441) -/
  cap : Nat
  /-- thermal throttle level in force: idle beats after each 16 issuing beats (R448) -/
  throttle : Nat
  /-- margins of the compute dies -/
  margins : SMap Margin
  /-- commanded voltages by rail, mV; 0 before the first command -/
  volts : SMap Nat
  /-- rails whose command has not completed, as a mask -/
  waits : Nat
  /-- the state whose voltage is being raised: its commands are out (0), it settles (1), it has settled (2) (R438) -/
  rise : Option (Nat × Nat)
  /-- milliseconds before a faster state is considered again after a timeout (R437) -/
  backoff : Nat
  /-- milliseconds since the last change of state, up to 100 -/
  since : Nat
  /-- the last 1,000 power bins, W, newest first (R441) -/
  bins : List Rat
  /-- energy coefficients that boot has loaded from the package record (R441, R458): J of an array conversion, of a plane-load cycle, of an
  HBM byte and of a Fraeth flit -/
  energy : List Rat
  /-- what had been counted at the end of the last bin (R441) -/
  spent : Spent
  /-- a droop stretch is active (R445) -/
  droop : Bool
  /-- stretched cycles since the last trip that are in the tick's time already (R445, R446) -/
  stretched : Nat
  /-- REG_ALERT_N inputs asserted, as a mask (R447) -/
  inputs : Nat
  /-- alert: 0 none, 1 inputs asserted, 2 released, 3 ended and waiting for a tick boundary -/
  alert : Nat
  /-- readings of the last droop capture of each housekeeping unit, in channel order (R426) -/
  readings : SMap (List Nat)
  deriving DecidableEq, Repr

/-- Power management at reset. -/
def Power.init : Power :=
  { state := 2, cap := 0, throttle := 0, margins := [], volts := [], waits := 0, rise := none, backoff := 0, since := 0, bins := [],
    energy := [], spent := Spent.zero, droop := false, stretched := 0, inputs := 0, alert := 0, readings := [] }

/-- Core clock of a performance state, MHz (Headline figures, R436). -/
def freqOf (p : Nat) : Nat := match p with
  | 0 => 2300 | 1 => 2100 | 2 => 2000 | 3 => 1800 | 4 => 1600 | 5 => 1400 | 6 => 1200 | _ => 800

/-- A spot request in the queue (R423). -/
structure Spot where
  /-- channel -/
  ch : Nat
  /-- averaging code -/
  avg : Nat
  /-- it came from SPOT_REQ -/
  own : Bool
  /-- it arrived after the trigger of a privileged sequence that has yet to start (R425) -/
  after : Bool := false
  deriving DecidableEq, Repr

/-- One housekeeping unit (R417 to R433). -/
structure Hk where
  /-- a round is in progress -/
  busy : Bool
  /-- an entry or a spot request is being converted -/
  on : Bool
  /-- entry in progress or due next -/
  entry : Nat
  /-- a round start that fell due waits (R421, R425) -/
  late : Bool
  /-- number of rounds started since reset -/
  round : Nat
  /-- low-power mode in force (R422) -/
  low : Bool
  /-- spot requests, oldest first; the first is in progress -/
  spots : List Spot
  /-- sweep: 0 none, 1 pending, 2 running -/
  sweep : Nat
  /-- droop capture: 0 none, 1 it waits for the spot request in progress, 2 running, with every integrator frozen (R426) -/
  capture : Nat
  /-- the unit has started its first round -/
  started : Bool
  /-- values of the valid T channels published in this round, in 1/16 °C -/
  seen : SMap Int
  /-- the same of the last round that has ended (R427, R429) -/
  lastSeen : SMap Int
  /-- rounds in a row in which a converter missed a reference, by converter (R431) -/
  miss : SMap Nat
  /-- converters that missed a reference in this round -/
  missNow : List Nat
  /-- sweeps in a row in which A alone failed (0), B alone (1), or every working converter (2) (R432) -/
  failed : SMap Nat
  /-- broken channels: rounds in a row in which both tests passed, plus 1 (R433) -/
  broken : SMap Nat
  /-- broken channels converted in this round, with whether every test passed -/
  tested : SMap Bool
  /-- housekeeping tables of the image that runs, as boot has loaded them (R418, R458) -/
  tables : List Byte
  /-- coefficients of the channels, as boot has loaded them from the package record (R418, R458) -/
  coefs : SMap (List Rat)
  deriving DecidableEq, Repr

/-- A unit at reset. -/
def Hk.init : Hk :=
  { busy := false, on := false, entry := 0, late := false, round := 0, low := false, spots := [], sweep := 0, capture := 0, started := false, seen := [], lastSeen := [], miss := [],
    missNow := [], failed := [], broken := [], tested := [], tables := [], coefs := [] }

end Sys2Proof.Machine
end

