-- ==== Sys2Proof/Machine/FoldState.lean ====
section
/-! DEFINITION. The state of a fold: planes, arrays, tiles, the sequencer, and the operations in flight. -/

namespace Sys2Proof.Machine

/-- One weight plane of an array (R29, R38, R42, R175, R386). -/
structure Plane where
  /-- cell values, keyed `256 * row + column` -/
  cells : SMap Int
  /-- row sums as held (R42), keyed by row -/
  sums : SMap Int
  /-- weight scale code of each column -/
  scales : SMap Nat
  /-- stray list of each column: row and BF16 value (R89) -/
  strays : SMap (List (Nat × Nat))
  /-- plane kind of the last load (R174): 0 INT4, 1 FP4, 2 INT8 high half, 3 INT8 low half -/
  kind : Nat
  /-- poisoned mark (R44) -/
  poisoned : Bool
  /-- staging address of the load that last wrote each 16-row group, plus 1; 0 when none (R386) -/
  origins : SMap Nat
  /-- plane kind of the load that last wrote each group (R386) -/
  kinds : SMap Nat
  /-- staging offset of the plane slot whose side record the last load with g0 = 0 read, plus 1 (R386) -/
  side : Nat
  deriving DecidableEq, Repr

/-- A plane of zeros. -/
def Plane.empty : Plane :=
  { cells := [], sums := [], scales := [], strays := [], kind := 0, poisoned := false, origins := [], kinds := [], side := 0 }

/-- Candidate trims of a closed calibration window (R56). -/
structure Candidates where
  /-- gain trims -/
  g : List Nat
  /-- offset trims, 1/64 LSB -/
  o : List Int
  /-- tick boundary at which a passing set applies, counted in fires since reset (R59) -/
  due : Nat
  deriving DecidableEq, Repr

/-- An open calibration window (R51 to R56). -/
structure Window where
  /-- tick boundary at which it opened, counted in fires since reset -/
  opened : Nat
  /-- temperature recorded at opening, 1/16 °C (R55) -/
  temp : Int
  /-- zero-input conversions gathered -/
  nz : Nat
  /-- usable product conversions gathered -/
  np : Nat
  /-- sums of z by column -/
  zs : SMap Int
  /-- sums of z² by column -/
  zq : SMap Int
  /-- sum of X² -/
  sXX : Rat
  /-- sum of q X -/
  sqX : Rat
  /-- sums of x² by column -/
  sxx : SMap Rat
  /-- sums of q x by column -/
  sqx : SMap Rat
  /-- sums of x X by column -/
  sxX : SMap Rat
  /-- the passing candidates once it has closed -/
  closed : Option Candidates
  deriving DecidableEq, Repr

/-- A window with nothing gathered. -/
def Window.fresh (opened : Nat) (temp : Int) : Window :=
  { opened := opened, temp := temp, nz := 0, np := 0, zs := [], zq := [], sXX := 0, sqX := 0, sxx := [], sqx := [], sxX := [], closed := none }

/-- The block of checked conversions that the Collie checker gathers on an array (R370, R371). -/
structure CollieBlock where
  /-- conversions gathered -/
  n : Nat
  /-- sum of q² -/
  q2 : Rat
  /-- sum of (q d)² -/
  pp : Rat
  /-- sums of a² by row -/
  sa : SMap Int
  /-- sums of q d a by row -/
  sq : SMap Rat
  /-- tally number of the block's first conversion -/
  first : Nat
  deriving DecidableEq, Repr

/-- An empty block. -/
def CollieBlock.empty : CollieBlock := { n := 0, q2 := 0, pp := 0, sa := [], sq := [], first := 0 }

/-- The fields of a conversion that its descriptor and syllable fix at issue (R165, R166). -/
structure ConvOp where
  /-- array -/
  array : Nat
  /-- cycle of issue -/
  c : Nat
  /-- latch boundary A, cycle -/
  lat : Nat
  /-- bundle index -/
  bundle : Nat
  /-- iteration index -/
  iter : Nat
  /-- layer tag -/
  layer : Nat
  /-- mode code (R111) -/
  mode : Nat
  /-- gain setting -/
  gain : Nat
  /-- activation format code -/
  afmt : Nat
  /-- recipe -/
  recipe : Nat
  /-- pass index -/
  pass : Nat
  /-- STATIC scaling -/
  static : Bool
  /-- stray budget -/
  ka : Nat
  /-- static scale code -/
  es : Nat
  /-- resolve clip policy -/
  clipResolve : Bool
  /-- SATURATE spill policy -/
  spillSat : Bool
  /-- tile -/
  tile : Nat
  /-- tile row -/
  row : Nat
  /-- claim tag -/
  tag : Nat
  /-- vector store byte address of the span -/
  base : Nat
  /-- span length -/
  n : Nat
  /-- the conversion's lane is masked (R187) -/
  masked : Bool
  /-- its add is suppressed (R142, R192) -/
  noAdd : Bool
  deriving DecidableEq, Repr

/-- What a conversion holds from its latch on (R33, R119, R369). -/
structure ConvData where
  /-- drive codes by row, as driven -/
  drive : List Int
  /-- scale exponent ea and shift da of the activations -/
  ea : Int
  /-- 1 for FP4 activations -/
  da : Int
  /-- stray activations sent to the Crook unit: row and BF16 value -/
  strays : List (Nat × Nat)
  /-- strays were saturated on the grid (R93) -/
  satStrays : Bool
  /-- exact column values S_c over the cells as written (R32) -/
  exact : List Int
  /-- crook terms by column (R91) -/
  crook : List Rat
  /-- weight scale exponent less dw, by column -/
  wexp : List Int
  /-- converter codes -/
  codes : List Nat
  /-- trimmed estimates (R49) -/
  est : List Rat
  /-- effective step d of each column (R113) -/
  step : List Rat
  /-- Δ times the ratio trim -/
  delta : Rat
  /-- gain trims used -/
  g : List Nat
  /-- offset trims used -/
  o : List Int
  /-- ε of its tick -/
  eps : Rat
  /-- exact checksum chk (R369) -/
  chk : Int
  /-- it read a poisoned plane -/
  poisoned : Bool
  /-- its array has ARR_RANGE_OUT set -/
  rangeOut : Bool
  /-- tally number of the tick of its latch -/
  tally : Nat
  /-- row sums of the driven rows as the plane holds them -/
  held : List Int
  /-- staging origins of the active plane's groups (R386) -/
  origins : SMap Nat
  /-- plane kind of the active plane's groups -/
  kinds : SMap Nat
  deriving DecidableEq, Repr

/-- A conversion, from issue until its tile's rounding operation has delivered (R119, R168). -/
structure Conv where
  /-- the fixed fields -/
  op : ConvOp
  /-- what it holds from the latch on -/
  data : Option ConvData
  /-- estimates delivered (A + 40) -/
  delivered : Bool
  deriving DecidableEq, Repr

/-- One analogue array. Its STALE, pending, reject, fail, noisy and range bits, ARR_TREF and ARR_INL are registers (R71). -/
structure Arr where
  /-- plane 0 -/
  p0 : Plane
  /-- plane 1 -/
  p1 : Plane
  /-- plane 1 is active -/
  act1 : Bool
  /-- gain trims, unsigned 2.14 -/
  g : SMap Nat
  /-- offset trims, 1/64 LSB -/
  o : SMap Int
  /-- gain-step ratio trims by gain setting -/
  ratio : SMap Rat
  /-- σ_meas, 1/1,024 LSB (R64) -/
  sigma : Nat
  /-- r_s in force this tick, LSB (R63) -/
  rs : Rat
  /-- σ_used in force this tick, LSB (R64) -/
  su : Rat
  /-- ε in force this tick, LSB (R65) -/
  eps : Rat
  /-- open window -/
  win : Option Window
  /-- a window opens at the next tick boundary (R57) -/
  reopen : Bool
  /-- consecutive rejected sets (R58) -/
  rejects : Nat
  /-- temperature sample at the third reject (R58) -/
  failTemp : Option Int
  /-- Collie block -/
  blk : CollieBlock
  /-- device cycle until which the loader is busy (R175) -/
  loadEnd : Nat
  /-- device cycle of the last row write of a load into the shadow plane, plus 1 -/
  lastRow : Nat
  /-- boundaries of the array cycles that CONVs named so far hold, as device cycles; a suppressed CONV holds its own (R37, R192) -/
  held : List Nat
  /-- results of a boot calibration that apply at the next tick boundary, with the sample that it used (R50, R69) -/
  pend : Option (CalResult × Int)
  /-- the conversion that the audit of the current step takes, once delivered (R373) -/
  audit : Option Conv
  /-- the array has been audited in this step -/
  audited : Bool
  deriving DecidableEq, Repr

/-- An array at reset: cells zero, trims at unit factor (DESIGN CHOICE, log entry 4). -/
def Arr.init : Arr :=
  { p0 := Plane.empty, p1 := Plane.empty, act1 := false, g := [], o := [], ratio := [], sigma := 0, rs := 0, su := 0, eps := 0,
    win := none, reopen := false, rejects := 0, failTemp := none, blk := CollieBlock.empty, loadEnd := 0, lastRow := 0,
    held := [], pend := none, audit := none, audited := false }

/-- The active plane. -/
def Arr.active (a : Arr) : Plane := if a.act1 then a.p1 else a.p0

/-- The shadow plane. -/
def Arr.shadow (a : Arr) : Plane := if a.act1 then a.p0 else a.p1

/-- Replace plane 1 or plane 0. -/
def Arr.setPlane (a : Arr) (one : Bool) (p : Plane) : Arr := if one then { a with p1 := p } else { a with p0 := p }

/-- Plane 1 or plane 0. -/
def Arr.plane (a : Arr) (one : Bool) : Plane := if one then a.p1 else a.p0

/-- Replace the active plane. -/
def Arr.setActive (a : Arr) (p : Plane) : Arr := if a.act1 then { a with p1 := p } else { a with p0 := p }

/-- Replace the shadow plane. -/
def Arr.setShadow (a : Arr) (p : Plane) : Arr := if a.act1 then { a with p0 := p } else { a with p1 := p }

/-- One accumulator tile (R133). Elements and doubts are keyed `256 * row + column`. -/
structure Tile where
  /-- elements -/
  m : SMap Int
  /-- doubts -/
  b : SMap Nat
  /-- tile exponent -/
  te : Int
  /-- exponent that the clear gave -/
  te0 : Int
  /-- saturation mark -/
  sat : Bool
  /-- exponent-doubt mark -/
  xdoubt : Bool
  /-- poison mark -/
  poison : Bool
  /-- claim open -/
  open_ : Bool
  /-- claim tag -/
  tag : Nat
  /-- rows-written mask -/
  rows : Nat
  /-- carried tile -/
  carried : Bool
  /-- mode code at the clear -/
  mode : Nat
  /-- layer tag of the last operation that wrote the tile (R145) -/
  layer : Nat
  /-- the tile holds a window write (R516) -/
  windowed : Bool
  /-- the tile has received a combine (R518) -/
  combined : Bool
  /-- the conversions of the tile's adds (R119), oldest first -/
  convs : List Conv
  deriving DecidableEq, Repr

/-- A tile of zeros with its claim closed (R143). -/
def Tile.zero : Tile :=
  { m := [], b := [], te := 0, te0 := 0, sat := false, xdoubt := false, poison := false, open_ := false, tag := 0, rows := 0,
    carried := false, mode := 0, layer := 0, windowed := false, combined := false, convs := [] }

/-- A rounding operation in flight (R172). -/
structure Trnd where
  /-- tile -/
  tile : Nat
  /-- close the claim -/
  close : Bool
  /-- cycle of issue -/
  c : Nat
  /-- output format code -/
  fo : Nat
  /-- output exponent -/
  eo : Int
  /-- resolve window, beats -/
  w : Nat
  /-- vector store byte address of the outputs -/
  dst : Nat
  /-- row mask -/
  rows : Nat
  /-- layer tag -/
  layer : Nat
  /-- elements to resolve, keyed `256 * row + column`, in service order -/
  fails : List Nat
  /-- the whole tile is resolved (R120) -/
  whole : Bool
  /-- resolve slots the work costs -/
  slots : Nat
  /-- slots of it that no window's end has accounted for yet (R121) -/
  left : Nat
  /-- its resolve window has ended -/
  ended : Bool
  /-- the tile as read -/
  snap : Tile
  /-- the reference tile that the Resolve unit has computed by the end of the window -/
  ref : Tile
  /-- bundle that issued it -/
  bundle : Nat
  deriving DecidableEq, Repr

/-- A combine in flight (R173). -/
structure Combine where
  /-- tile -/
  tile : Nat
  /-- the landed operand -/
  operand : Tile
  /-- layer tag of the image -/
  layer : Nat
  /-- cycle of issue -/
  c : Nat
  /-- bundle that issued it -/
  bundle : Nat
  deriving DecidableEq, Repr

/-- A transfer in flight (R183 to R185, R245). -/
structure Xfer where
  /-- it completes by HWR_COMPLETE -/
  hwr : Bool
  /-- cycle of issue -/
  c : Nat
  /-- device address of its first destination byte -/
  dst : Nat
  /-- the bytes moved, or the bytes that an HWR replaced; empty when it writes nothing -/
  data : List Byte
  /-- cycle at which it is visible or completes -/
  vis : Nat
  /-- cycle from which it is no longer in flight (R185) -/
  fly : Nat
  /-- HBM port it used, plus 1; 0 when none -/
  port : Nat
  /-- bundle that issued it -/
  bundle : Nat
  deriving DecidableEq, Repr

/-- An operation in flight that no event of its own ends: a TCLR, a plane load, a vector operation or a link send (R192 code 12). -/
structure Busy where
  /-- cycle from which it is no longer in flight -/
  stop : Nat
  /-- bundle that issued it -/
  bundle : Nat
  /-- syllable: 0 ARR, 1 LDP, 2 VEC, 3 MOV -/
  syl : Nat
  deriving DecidableEq, Repr

/-- A plane load whose later groups are still to be written (R38, R175). -/
structure Load where
  /-- array -/
  array : Nat
  /-- it writes plane 1 -/
  plane1 : Bool
  /-- staging offset of the plane slot -/
  src : Nat
  /-- next group -/
  g : Nat
  /-- groups left -/
  left : Nat
  /-- cycle that writes the next group -/
  c : Nat
  /-- plane kind -/
  kind : Nat
  deriving DecidableEq, Repr

/-- The conversions and the clear's exponent of a carried tile whose drove is away from its time-shared fold (R119, R144). -/
structure Kept where
  /-- digest of the drove -/
  digest : List Byte
  /-- pen -/
  pen : Nat
  /-- tile -/
  tile : Nat
  /-- conversions of its adds -/
  convs : List Conv
  /-- exponent that the clear gave -/
  te0 : Int
  /-- the tile has received a combine (R518) -/
  combined : Bool
  deriving DecidableEq, Repr

/-- A pending access of the vector store (R191), in 64-byte granules. -/
structure VsPend where
  /-- first granule -/
  lo : Nat
  /-- granules -/
  n : Nat
  /-- first cycle of a read; the issue of a write -/
  c0 : Nat
  /-- the cycle after a read's last; the usable cycle of a write -/
  c1 : Nat
  /-- the cycle before which no write may land in what a read takes (R168); the cycle at which a write lands -/
  mark : Nat
  /-- it is a write -/
  wr : Bool
  deriving DecidableEq, Repr

/-- A port booking (R153): bytes per cycle over a span of cycles. -/
structure Book where
  /-- port code of CONTRACT_INFO (R195) -/
  port : Nat
  /-- instance of the port: HBM port, die of the bridge or Fraeth port; 256 × source + destination on the mesh; else 0 -/
  inst : Nat
  /-- first cycle -/
  c0 : Nat
  /-- last cycle -/
  c1 : Nat
  /-- bytes per cycle -/
  bytes : Nat
  deriving DecidableEq, Repr

/-- An active loop (R158). -/
structure Loop where
  /-- loop table index -/
  idx : Nat
  /-- first bundle -/
  first : Nat
  /-- last bundle -/
  last : Nat
  /-- count left -/
  left : Nat
  /-- completed iterations -/
  iter : Nat
  deriving DecidableEq, Repr

/-- A fault raised in a step, kept to compare with its replay (R142, R193). -/
structure StepFaultRec where
  /-- a tile clash; otherwise a contract fault -/
  clash : Bool
  /-- fault code or clash cause -/
  code : Nat
  /-- bundle index -/
  bundle : Nat
  /-- syllable, or tile of a clash -/
  syl : Nat
  deriving DecidableEq, Repr

/-- One physical fold. Its role, counters, recipe flags and status words are registers. -/
structure Fold where
  /-- arrays 0 to 15 -/
  arrays : SMap Arr
  /-- tiles 0 to 127 -/
  tiles : SMap Tile
  /-- carry store, tiles 0 to 15 (R143) -/
  carry : SMap Tile
  /-- conversions issued whose add has not landed, in issue order -/
  convs : List Conv
  /-- rounding operations in flight, in issue order -/
  trnds : List Trnd
  /-- combines in flight -/
  combines : List Combine
  /-- transfers in flight -/
  xfers : List Xfer
  /-- operations in flight that end by time alone -/
  busy : List Busy
  /-- plane loads with groups still to write -/
  loads : List Load
  /-- Resolve cycles booked ahead of resolve work: first cycle and count of reference conversions and audit samples (R121, R189) -/
  resBooks : List (Nat × Nat)
  /-- plane switches named: array mask, boundary and bundle -/
  switches : List (Nat × Nat × Nat)
  /-- pending vector store accesses -/
  vs : List VsPend
  /-- port bookings -/
  books : List Book
  /-- drove table entry of the active drove -/
  drove : Option Nat
  /-- cycle of the tick at which the next bundle issues -/
  next : Nat
  /-- device cycle of the last bundle issued -/
  now : Nat
  /-- the bundle issued last (R161) -/
  word : Nat
  /-- its syllables not taken yet: 0 ARR, 1 LDP, 2 VEC, 3 MOV -/
  todo : List Nat
  /-- index of the next bundle -/
  pc : Nat
  /-- index of the last bundle issued -/
  lastPc : Nat
  /-- iteration index of the last bundle issued (R159) -/
  iter : Nat
  /-- loop stack, top first -/
  loops : List Loop
  /-- issue has stopped for the rest of the step (R192 SEQ_FAULT, R225) -/
  halted : Bool
  /-- applied mask, 256 bits (R186) -/
  applied : Nat
  /-- latched cancel mask -/
  cancel : Nat
  /-- END of the current tick: TEND or SEND has acted and the pauses it saw -/
  endCycle : Nat
  /-- lane block buffer that holds the current step's block -/
  laneBuf : Nat
  /-- step number of the block that has landed in the other buffer (R28) -/
  landed : Option Nat
  /-- cycle at which the Resolve unit finishes the work queued so far -/
  resolveEnd : Nat
  /-- conversions of each layer tag this tick (R94) -/
  layerN : SMap Nat
  /-- clipped column conversions of each layer tag this tick -/
  layerC : SMap Nat
  /-- repeat passes of each layer tag this tick (R139) -/
  layerR : SMap Nat
  /-- certified outputs delivered this tick (R132 RES_FRAC) -/
  certOut : Nat
  /-- certified outputs resolved this tick -/
  certRes : Nat
  /-- a contract fault was recorded this tick -/
  faultTick : Bool
  /-- a clash was recorded this tick -/
  clashTick : Bool
  /-- faults of this attempt of the step -/
  faults : List StepFaultRec
  /-- faults of the last attempt of the step -/
  oldFaults : List StepFaultRec
  /-- CAL_FORCE has arrived and waits for a tick boundary (R51) -/
  force : Bool
  /-- CAL_FORCE has arrived while CAL_HOLD is 1 and waits for the first tick boundary at which it is 0 (R52) -/
  forceHeld : Bool
  /-- a period trigger waits for a tick boundary -/
  period : Bool
  /-- a located suspect was replayed on the fold for want of a spare (R377) -/
  sameHw : Bool
  /-- step number of the last data suspect, plus 1 (R376) -/
  lastData : Nat
  /-- CAL_HOLD was 1 at the last tick boundary (R52) -/
  calHeld : Bool
  /-- a boot calibration is due (R61, R69) -/
  calDue : Bool
  /-- the calibration due is that of the boot: it is checked against the seeds -/
  calBoot : Bool
  /-- a resolve overrun has paused the device in this tick for this fold (R124) -/
  resPaused : Bool
  /-- what the power estimate has counted on the fold since reset (R441) -/
  spent : Spent
  /-- the checks at the end of the current tick have run -/
  closed : Bool
  /-- on a time-shared fold, the drove whose tiles the file holds: digest, pen and carried mask (R144) -/
  ctx : Option (List Byte × Nat × Nat)
  /-- records of carried tiles of droves that are away -/
  kept : List Kept
  /-- the current attempt has had a resolve step fault on this fold (R124) -/
  resFaulted : Bool
  deriving DecidableEq, Repr

/-- A fold at reset. -/
def Fold.init : Fold :=
  { arrays := [], tiles := [], carry := [], convs := [], trnds := [], combines := [], xfers := [], busy := [], loads := [], resBooks := [], switches := [], vs := [],
    books := [], drove := none, next := 0, now := 0, word := 0, todo := [], pc := 0, lastPc := 0, iter := 0, loops := [], halted := false,
    applied := 0, cancel := 0, endCycle := 0, laneBuf := 0, landed := none, resolveEnd := 0, layerN := [], layerC := [], layerR := [],
    certOut := 0, certRes := 0, faultTick := false, clashTick := false, faults := [], oldFaults := [], force := false, forceHeld := false,
    period := false, sameHw := false, lastData := 0, calHeld := false, calDue := false, calBoot := false, resPaused := false,
    spent := Spent.zero, closed := false, ctx := none, kept := [], resFaulted := false }

end Sys2Proof.Machine
end

