-- ==== Sys2Proof/Machine/CareState.lean ====
section
/-! DEFINITION. The state of suspects, disputes, substitutions and tests (R376 to R393). -/

namespace Sys2Proof.Machine

/-- A disputed conversion with its arbitration record (R372, R379). -/
structure Dispute where
  /-- physical fold of the failure -/
  fold : Nat
  /-- logical slot it served -/
  slot : Nat
  /-- array -/
  array : Nat
  /-- bundle index of the CONV -/
  bundle : Nat
  /-- iteration index -/
  iter : Nat
  /-- the arbitration record -/
  data : ConvData
  /-- stage 1 has run and found the row sums in agreement -/
  located : Bool
  /-- stage 2: the failure was repeated in the replay -/
  repeated : Bool
  /-- a spare repeated it -/
  away : Bool
  /-- a verdict was reached without stage 3 or the dispute came from an audit, a block or a row test -/
  direct : Bool
  deriving DecidableEq, Repr

/-- A substitution in progress (R382 to R385, R521). -/
structure Fill where
  /-- spare fold -/
  spare : Nat
  /-- fold it replaces -/
  fold : Nat
  /-- logical slot -/
  slot : Nat
  /-- 0 planned for a test rotation, 1 located suspect, 2 after a clean replay (R521) -/
  why : Nat
  /-- bytes left to copy -/
  left : Nat
  /-- the fill is complete and the switch is scheduled -/
  done : Bool
  /-- the pause of the switch has begun and the fill ends within it (R385) -/
  due : Bool
  deriving DecidableEq, Repr

/-- What the device keeps of silent-error handling. -/
structure Care where
  /-- disputes without a verdict -/
  disputes : List Dispute
  /-- substitutions in progress -/
  fills : List Fill
  /-- folds with a located suspect in the current attempt, in order of arrival -/
  located : List Nat
  /-- folds released by a switch and awaiting the dispute's verdict -/
  released : List Nat
  /-- plane slots whose shards a DATA verdict has re-digested: logical slot and staging offset (R380) -/
  redigest : List (Nat × Nat)
  /-- uncorrectable HBM lines of KV blocks and prefix tables that the Drover has not acted on: region and device address (R258) -/
  lines : List (Nat × Nat)
  /-- lines that an uncorrectable error has poisoned and nothing has rewritten since, other than those above: region code, 0 staging, and
  device address (R258) -/
  bad : List (Nat × Nat)
  /-- HBM lines that have had an uncorrectable error since reset (R259) -/
  ues : List Nat
  /-- flocks whose page tick has passed since a retirement's copy ended, as a mask, by stack (R260) -/
  turned : SMap Nat
  /-- corrected HBM lines within the last hour: the timebase of each, by pseudo-channel `64 * stack + pc` (R259) -/
  ces : SMap (List Nat)
  /-- folds that become SPARE when their boot calibration succeeds -/
  calib : List Nat
  /-- timebase of the last passed test of each fold; 0 when none since reset (R392) -/
  tested : SMap Nat
  /-- due folds that wait for the test of their die to end (R392) -/
  forced : List Nat
  /-- a first drove has become active since reset (R388, R401) -/
  droveRan : Bool
  deriving DecidableEq, Repr

/-- Nothing suspect. -/
def Care.init : Care :=
  { disputes := [], fills := [], located := [], released := [], redigest := [], lines := [], bad := [], ues := [], turned := [], ces := [], calib := [], tested := [], forced := [], droveRan := false }

end Sys2Proof.Machine
end

