-- ==== Sys2Proof/Machine/LinkState.lean ====
section
/-! DEFINITION. The state of the Fraeth links, the message layer and the muster chain (R320 to R342). -/

namespace Sys2Proof.Machine

/-- A scheduled DATA flit (R322). -/
structure DataFlit where
  /-- zero-payload bit -/
  zero : Bool
  /-- destination device ID -/
  dev : Nat
  /-- destination logical slot -/
  slot : Nat
  /-- destination space: 0 vector store, 1 staging -/
  space : Nat
  /-- destination address, 256-byte units -/
  addr : Nat
  /-- tally number bits [15:0] of the sending tick -/
  tally : Nat
  /-- payload, 256 bytes -/
  payload : List Byte
  deriving DecidableEq, Repr

/-- One MSG flit (R337). -/
structure MsgFlit where
  /-- destination device ID -/
  dest : Nat
  /-- source device ID -/
  source : Nat
  /-- class -/
  cls : Nat
  /-- first flit -/
  first : Bool
  /-- last flit -/
  last : Bool
  /-- message sequence -/
  seq : Nat
  /-- flit index -/
  idx : Nat
  /-- data, 1 to 240 bytes -/
  data : List Byte
  deriving DecidableEq, Repr

/-- What a sequenced flit carries. -/
inductive Body where
  /-- a scheduled flit -/
  | data (f : DataFlit)
  /-- a marker of a kind (R208: 1 TICK, 2 DECIDE, 3 COMMIT, 8 REPORT; R443: 9 SLACK, 10 CREDIT) -/
  | marker (kind : Nat) (m : Marker)
  /-- a SWAP marker of a phase (R213: 1 ANNOUNCE, 2 CONFIRM, 3 REFUSE) -/
  | swap (phase : Nat) (m : Marker) (w : SwapFields)
  /-- a flit of a message -/
  | msg (f : MsgFlit)
  /-- the stop bit, in a CTRL flit (R333) -/
  | ctrl (stop : Bool)
  deriving DecidableEq, Repr

/-- A scheduled flit that waits for its slot. -/
structure OutFlit where
  /-- booked entry, as a device cycle -/
  enter : Nat
  /-- it arrived to be forwarded only after its booked entry (R334) -/
  late : Bool
  /-- the flit -/
  flit : DataFlit
  deriving DecidableEq, Repr

/-- A DATA flit that was accepted and waits for its visible cycle (R331). -/
structure Landing where
  /-- visible cycle, as a device cycle -/
  vis : Nat
  /-- device address -/
  addr : Nat
  /-- bytes -/
  data : List Byte
  deriving DecidableEq, Repr

/-- One Fraeth link. Its state, peer, λ and counters are registers. -/
structure Link where
  /-- next flit sequence to send -/
  txSeq : Nat
  /-- replay buffer: sequenced flits that no acknowledgement covers, oldest first, at most 512 (R325) -/
  buffer : List (Nat × Body)
  /-- sequenced flits that wait for room in the replay buffer -/
  held : List Body
  /-- next flit sequence expected -/
  rxSeq : Nat
  /-- a flit is missing: flits are discarded until the expected sequence arrives -/
  gap : Bool
  /-- the next outgoing flit carries the NACK -/
  nackDue : Bool
  /-- replays of the retry episode in progress; 0 when none (R326) -/
  replays : Nat
  /-- timebase at which the episode started -/
  epStart : Nat
  /-- sequence after the last flit outstanding at the episode's start -/
  epEnd : Nat
  /-- scheduled flits that wait for their slots -/
  sched : List OutFlit
  /-- flits to forward that have arrived -/
  fwd : List OutFlit
  /-- accepted flits that wait for their visible cycle, at most 512 (R333) -/
  landing : List Landing
  /-- flits landed of each receive entry in this tick, keyed by its index in the schedule -/
  got : SMap Nat
  /-- flits forwarded of each forward entry in this tick -/
  passed : SMap Nat
  /-- cycles by which the last awaited flit is predicted to land late after a replay (R332) -/
  lateBy : Nat
  /-- the peer's CTRL flits carry the stop bit -/
  stopped : Bool
  /-- kind 0 entries go by their alternates from the next tick boundary (R335) -/
  altNext : Bool
  /-- flocks whose kind 0 entries go by their alternates, as a mask (R335) -/
  alts : Nat
  /-- flits that have passed the port since reset, sent and received, as the power estimate counts them (R441) -/
  flits : Nat
  deriving DecidableEq, Repr

/-- A link at reset. -/
def Link.init : Link :=
  { txSeq := 0, buffer := [], held := [], rxSeq := 0, gap := false, nackDue := false, replays := 0, epStart := 0, epEnd := 0
    sched := [], fwd := [], landing := [], got := [], passed := [], lateBy := 0, stopped := false, altNext := false, alts := 0, flits := 0 }

/-- The messages to one destination of one class (R338). -/
structure TxMsgs where
  /-- next message sequence -/
  next : Nat
  /-- unacknowledged messages: sequence and data, oldest first -/
  unacked : List (Nat × List Byte)
  deriving DecidableEq, Repr

/-- Nothing sent. -/
def TxMsgs.init : TxMsgs := { next := 0, unacked := [] }

/-- A message in reassembly. -/
structure Part where
  /-- message sequence -/
  seq : Nat
  /-- next flit index -/
  idx : Nat
  /-- data so far -/
  data : List Byte
  deriving DecidableEq, Repr

/-- The message layer. -/
structure Msgs where
  /-- sent, keyed `8 * destination + class` -/
  tx : SMap TxMsgs
  /-- last sequence accepted in order plus 1, keyed `8 * source + class`; 0 when none -/
  rx : SMap Nat
  /-- consecutive timeouts of each destination -/
  timeouts : SMap Nat
  /-- destinations marked unreachable -/
  unreach : List Nat
  /-- messages in reassembly, keyed `8 * source + class` -/
  parts : SMap Part
  deriving DecidableEq, Repr

/-- No messages. -/
def Msgs.init : Msgs := { tx := [], rx := [], timeouts := [], unreach := [], parts := [] }

/-- The muster chain (R340). The position and MUSTER_ERR are registers. -/
structure Muster where
  /-- value of the last frame on MUSTER_IN plus 1; 0 when none -/
  last : Nat
  /-- frames sent -/
  sent : Nat
  deriving DecidableEq, Repr

/-- The muster chain at reset. -/
def Muster.init : Muster := { last := 0, sent := 0 }

end Sys2Proof.Machine
end

