-- ==== Sys2Proof/Machine/NetState.lean ====
section
/-! DEFINITION. The state of queue pairs and Shobuic channels (R346, R350, R352 to R363). -/

namespace Sys2Proof.Machine

/-- A queue pair. -/
structure Qp where
  /-- 0 unused, 1 connected, 2 in error, 3 connecting to an NVMe target -/
  st : Nat
  /-- pen -/
  pen : Nat
  /-- path MTU -/
  mtu : Nat
  /-- next PSN expected as responder -/
  epsn : Nat
  /-- next PSN to send as requester -/
  psn : Nat
  /-- first PSN not acknowledged -/
  acked : Nat
  /-- timeouts in a row, and the retry limit -/
  tries : Nat
  /-- retry limit -/
  limit : Nat
  /-- a sequence-error NAK has gone out since the last packet that came in order -/
  naked : Bool
  /-- send rate, Mb/s -/
  rate : Rat
  /-- a CNP has been acted on in the current 50 µs -/
  acted : Bool
  /-- a CNP has been sent in the current 50 µs -/
  notified : Bool
  /-- channel of its pen plus 1; 0 when none -/
  chan : Nat
  deriving DecidableEq, Repr

/-- An unused queue pair. -/
def Qp.init : Qp :=
  { st := 0, pen := 0, mtu := 0, epsn := 0, psn := 0, acked := 0, tries := 0, limit := 0, naked := false, rate := 0, acted := false,
    notified := false, chan := 0 }

/-- A Shobuic channel. Its state, path, QP number, head and tail registers are in CH_STATE and its neighbours. -/
structure Chan where
  /-- channel key, 8 bytes -/
  key : List Byte
  /-- ring slots S; 0 on the SEND path -/
  slots : Nat
  /-- ring base, window address -/
  base : Nat
  /-- token ring address in host memory -/
  ring : Nat
  /-- token ring R_Key -/
  rkey : Nat
  /-- token ring records T -/
  records : Nat
  /-- last executed sequence -/
  seq : Nat
  /-- the last responses: sequence and message bytes, newest last (R354) -/
  answers : List (Nat × List Byte)
  /-- executed messages without an answer yet -/
  open_ : List Nat
  /-- free-running tail of the token ring -/
  tail : Nat
  /-- records that wait in the spill buffer, oldest first (R362) -/
  spill : List (List Byte)
  deriving DecidableEq, Repr

/-- A closed channel. -/
def Chan.init : Chan :=
  { key := [], slots := 0, base := 0, ring := 0, rkey := 0, records := 0, seq := 0, answers := [], open_ := [], tail := 0, spill := [] }

/-- The network side. -/
structure Net where
  /-- queue pairs -/
  qps : SMap Qp
  /-- channels, keyed `128 * pen + channel` -/
  chans : SMap Chan
  /-- how often each channel index has closed: answers still to come from before a close are dropped (R352, R359) -/
  lives : SMap Nat
  deriving DecidableEq, Repr

/-- The network at reset. -/
def Net.init : Net := { qps := [], chans := [], lives := [] }

end Sys2Proof.Machine
end

