-- ==== Sys2Proof/Machine/ServeState.lean ====
section
/-! DEFINITION. The state of the Drover: requests, lane blocks, the latch of host inputs, the journal and replay
(R289 to R317, R360, R407 to R415). -/

namespace Sys2Proof.Machine

/-- A resident request (R293 to R295). -/
structure Request where
  /-- pen -/
  pen : Nat
  /-- channel that admitted it -/
  ch : Nat
  /-- flock -/
  flock : Nat
  /-- handle (R294) -/
  handle : Nat
  /-- host tag -/
  tag : Nat
  /-- class: BULK -/
  bulk : Bool
  /-- greedy -/
  greedy : Bool
  /-- temperature, BF16 -/
  temp : Nat
  /-- seed, 16 bytes -/
  seed : List Byte
  /-- maximum new tokens -/
  maxNew : Nat
  /-- stop tokens -/
  stops : List Nat
  /-- deadline, PTP ns; 0 none -/
  deadline : Nat
  /-- prompt tokens -/
  prompt : List Nat
  /-- epoch ID it is pinned to (R280) -/
  epoch : Nat
  /-- tally number of its admission -/
  admitted : Nat
  /-- 0 QUEUED, 1 PREFILL, 2 READY, 3 DECODE -/
  phase : Nat
  /-- DRAINING: a bulk abort is latched -/
  draining : Bool
  /-- prompt tokens placed in chunks through the last lane block built, the matched prefix included -/
  fed : Nat
  /-- prompt tokens whose steps have committed, the matched prefix included -/
  done : Nat
  /-- new tokens released -/
  tokens : Nat
  /-- new tokens that committed steps have drawn, those that were dropped among them -/
  drawn : Nat
  /-- last token drawn -/
  last : Nat
  /-- decode lane -/
  lane : Option Nat
  /-- physical blocks of the matched prefix, in virtual order (R310) -/
  matched : List Nat
  /-- first physical block of the tail (R302) -/
  tail : Nat
  /-- blocks of the tail -/
  tailLen : Nat
  /-- blocks 0 to chain − 1 all matched or were inserted (R311) -/
  chain : Nat
  /-- consecutive committed steps with a draft and none accepted (R314) -/
  z : Nat
  /-- committed steps for which drafting stays suspended -/
  suspended : Nat
  /-- phase, tokens placed and decode lane before the last lane block was built -/
  before : Nat × Nat × Option Nat
  deriving DecidableEq, Repr

/-- A request that has ended. -/
structure Ended where
  /-- pen -/
  pen : Nat
  /-- handle -/
  handle : Nat
  /-- host tag -/
  tag : Nat
  /-- flock -/
  flock : Nat
  /-- class: BULK -/
  bulk : Bool
  deriving DecidableEq, Repr

/-- What one lane holds in a step (R298, R299). -/
structure Placed where
  /-- lane -/
  lane : Nat
  /-- request handle -/
  handle : Nat
  /-- pen of the request -/
  pen : Nat
  /-- 1 decode lane, 2 chunk slot -/
  kind : Nat
  /-- the request is new to the lane -/
  fresh : Bool
  /-- chunk: tokens placed before it -/
  start : Nat
  /-- chunk tokens -/
  chunk : Nat
  /-- last chunk of the prompt -/
  final : Bool
  /-- draft length d -/
  d : Nat
  deriving DecidableEq, Repr

/-- What the Drover holds for one flock. -/
structure Serving where
  /-- lanes of the step that runs -/
  cur : List Placed
  /-- lanes of the lane block built for the next step -/
  next : List Placed
  /-- step number of the lane block built plus 1; 0 when none -/
  built : Nat
  /-- lane block to write into the folds: built here or received (R290) -/
  block : List Byte
  /-- step number of that block plus 1; 0 when none -/
  blockStep : Nat
  /-- the last commit: step, requests with tokens or a final status, tokens released, release digest (R408, R411) -/
  commit : Nat × Nat × Nat × List Byte
  deriving DecidableEq, Repr

/-- A flock that serves nothing. -/
def Serving.init : Serving := { cur := [], next := [], built := 0, block := [], blockStep := 0, commit := (0, 0, 0, []) }

/-- An input that waits for the next fire (R360). -/
inductive Latch where
  /-- an admission -/
  | admission (h : MsgHead) (body : List Byte)
  /-- an abort -/
  | abort (h : MsgHead) (body : List Byte)
  /-- the close of a channel; a message waits for its answer, or records are discarded (R356, R362, R363) -/
  | close (pen ch : Nat) (h : Option MsgHead)
  /-- a host write that the journal records (R408): page, offset, value -/
  | config (page off v : Nat)
  deriving DecidableEq, Repr

/-- A PLACE entry that is OPEN in a journal (R409). -/
structure OpenPlace where
  /-- pen -/
  pen : Nat
  /-- flock -/
  flock : Nat
  /-- step of the lane block -/
  step : Nat
  /-- window address of the entry -/
  addr : Nat
  deriving DecidableEq, Repr

/-- A replay in progress in a pen (R412 to R415). -/
structure Replay where
  /-- source offset of the next entry, bytes -/
  off : Nat
  /-- the swap that brings in the replay's drove has taken effect -/
  ready : Bool
  /-- sequence number of the next entry -/
  next : Nat
  /-- the first entry has been found -/
  begun : Bool
  deriving DecidableEq, Repr

/-- No replay. -/
def Replay.init : Replay := { off := 0, ready := false, next := 0, begun := false }

/-- The checkpoints of one flock of one pen (R396, R397, R399). -/
structure Ckpt where
  /-- the checkpoint being written: round, slot 0 or 1, record -/
  writing : Option (Nat × Nat × List Byte)
  /-- slot of the newest complete checkpoint plus 1; 0 when none -/
  newest : Nat
  /-- mirrors not yet acknowledged: round and the sequence of its last message -/
  mirrors : List (Nat × Nat)
  deriving DecidableEq, Repr

/-- No checkpoint. -/
def Ckpt.init : Ckpt := { writing := none, newest := 0, mirrors := [] }

/-- The Drover. -/
structure Drover where
  /-- resident requests, by record index -/
  reqs : SMap (List Request)
  /-- generation count of each record index -/
  gens : SMap Nat
  /-- the last request of each record index that has ended -/
  ended : SMap (List Ended)
  /-- flocks -/
  flocks : SMap Serving
  /-- inputs that wait for a fire, in order -/
  latch : List Latch
  /-- open PLACE entries -/
  opens : List OpenPlace
  /-- replays, by pen -/
  replays : SMap Replay
  /-- checkpoints, keyed `16 * pen + flock` -/
  ckpts : SMap Ckpt
  /-- pause cycles of the fold of each logical slot when the current round started, or when the fold took the slot over (R306) -/
  roundStart : SMap Nat
  /-- pause cycles of each logical slot in the current round on folds that no longer serve it -/
  roundMore : SMap Nat
  /-- pause cycles of each logical slot in the last completed round -/
  roundCost : SMap Nat
  deriving DecidableEq, Repr

/-- The Drover at reset. -/
def Drover.init : Drover :=
  { reqs := [], gens := [], ended := [], flocks := [], latch := [], opens := [], replays := [], ckpts := [], roundStart := [], roundMore := [], roundCost := [] }

end Sys2Proof.Machine
end

