-- ==== Sys2Proof/Machine/TallyState.lean ====
section
/-! DEFINITION. The state of droves, flocks, the tally and the device-wide pauses. -/

namespace Sys2Proof.Machine

/-- A fold segment of a drove (R198). -/
structure Segment where
  /-- logical slot -/
  slot : Nat
  /-- the fold is time-shared -/
  shared : Bool
  /-- window count W -/
  windows : Nat
  /-- carried tile mask -/
  carried : Nat
  /-- window sequence, L entries -/
  seq : List Nat
  /-- offset of the first window in the image -/
  off : Nat
  deriving DecidableEq, Repr

/-- An edge-port booking (R199). -/
structure EdgeBook where
  /-- tick position -/
  pos : Nat
  /-- first cycle -/
  first : Nat
  /-- cycle count -/
  count : Nat
  /-- class: 0 HBM, 1 Fraeth, 2 die bridge -/
  cls : Nat
  /-- port within its class -/
  port : Nat
  /-- bytes per cycle -/
  bytes : Nat
  deriving DecidableEq, Repr

/-- A link schedule entry (R329). -/
structure LinkEntry where
  /-- kind: 0 send, 1 forward, 2 alternate send, 3 alternate forward, 4 receive -/
  kind : Nat
  /-- tick position -/
  pos : Nat
  /-- entry cycle of the first flit, or visible cycle of the last -/
  cycle : Nat
  /-- flit count -/
  count : Nat
  /-- outgoing link; incoming link of a receive entry -/
  link : Nat
  /-- destination or source device ID; incoming link of a forward entry -/
  peer : Nat
  /-- declared latency L_d -/
  lat : Nat
  /-- index of the alternate send entry, 0xFFFF for none -/
  alt : Nat
  deriving DecidableEq, Repr

/-- One lane of a lane table (R296). -/
structure LaneDef where
  /-- lane number -/
  lane : Nat
  /-- kind: 1 decode lane, 2 chunk slot -/
  kind : Nat
  /-- epoch index -/
  epoch : Nat
  /-- d_max of a decode lane -/
  dmax : Nat
  /-- chunk capacity of a chunk slot -/
  cap : Nat
  /-- classes: bit 0 interactive, bit 1 bulk -/
  classes : Nat
  /-- backing lane, 0xFF for none -/
  backing : Nat
  /-- fold mask -/
  folds : Nat
  deriving DecidableEq, Repr

/-- A lane table (R296); no lanes and all zero when the drove has none. -/
structure LaneTable where
  /-- KV stripes S -/
  stripes : Nat
  /-- stripe size, 4 KiB units -/
  stripe : Nat
  /-- piece size, 256-byte units -/
  piece : Nat
  /-- maximum context, tokens -/
  ctx : Nat
  /-- results area, window address -/
  results : Nat
  /-- lanes -/
  lanes : List LaneDef
  deriving DecidableEq, Repr

/-- An absent lane table. -/
def LaneTable.none : LaneTable := { stripes := 0, stripe := 0, piece := 0, ctx := 0, results := 0, lanes := [] }

/-- A drove table entry (R196 to R200). -/
structure Drove where
  /-- 0 EMPTY, 1 LOADING, 2 LOADED, 3 ACTIVE, 4 HELD (R238) -/
  st : Nat
  /-- pen -/
  pen : Nat
  /-- flock index -/
  flock : Nat
  /-- last status -/
  status : Nat
  /-- image address in the pen window, bytes -/
  addr : Nat
  /-- image length, bytes -/
  size : Nat
  /-- image digest -/
  digest : List Byte
  /-- tally of activation -/
  actTally : Nat
  /-- it is the incoming drove of a confirmed swap -/
  confirmed : Bool
  /-- message that waits for the load -/
  waiting : Option MsgHead
  /-- firmware version required, compatibility class, heft signature -/
  needs : Nat × Nat × Nat
  /-- tally period N -/
  n : Nat
  /-- design performance state -/
  pstate : Nat
  /-- ticks per step K -/
  k : Nat
  /-- steps per round S -/
  s : Nat
  /-- the drove time-shares folds -/
  shared : Bool
  /-- hold cutoff, per mille, 700 for 0 -/
  hold : Nat
  /-- fold mask -/
  folds : Nat
  /-- slack reserve, cycles -/
  slack : Nat
  /-- commit window C, cycles -/
  commit : Nat
  /-- sustained power budget, watts -/
  sustained : Nat
  /-- peak power budget, watts -/
  peak : Nat
  /-- share period P -/
  shareP : Nat
  /-- share mask -/
  shareMask : Nat
  /-- flock size, devices -/
  flockSize : Nat
  /-- epochs required: ID and digest -/
  epochs : List (Nat × List Byte)
  /-- tick table E_j -/
  ticks : List Nat
  /-- rank table: device IDs -/
  ranks : List Nat
  /-- fold segments -/
  segs : List Segment
  /-- edge-port bookings -/
  edges : List EdgeBook
  /-- HBM ports named: port, M, I -/
  ports : List (Nat × Nat × Nat)
  /-- staging read ranges: slot, first 64 KiB block, count -/
  ranges : List (Nat × Nat × Nat)
  /-- link schedule -/
  links : List LinkEntry
  /-- lane table -/
  lanes : LaneTable
  deriving DecidableEq, Repr

/-- An empty drove table entry. -/
def Drove.empty : Drove :=
  { st := 0, pen := 0, flock := 0, status := 0, addr := 0, size := 0, digest := [], actTally := 0, confirmed := false, waiting := none,
    needs := (0, 0, 0), n := 0, pstate := 0, k := 0, s := 0, shared := false, hold := 0, folds := 0, slack := 0, commit := 0, sustained := 0,
    peak := 0, shareP := 1, shareMask := 1, flockSize := 0, epochs := [], ticks := [], ranks := [], segs := [], edges := [],
    ports := [], ranges := [], links := [], lanes := LaneTable.none }

/-- A swap announced for a flock and not yet decided, or confirmed and not yet in effect (R211 to R213). -/
structure Swap where
  /-- digest of the incoming drove; empty to stop the flock -/
  incoming : List Byte
  /-- T_s -/
  ts : Nat
  /-- it is confirmed -/
  confirmed : Bool
  /-- this device's readiness: 1 ready, 2 not ready -/
  ready : Nat
  /-- on the bellwether: the requesting message -/
  origin : Option MsgHead
  /-- the pen whose drove comes in, as far as the device knows it -/
  pen : Option Nat
  deriving DecidableEq, Repr

/-- One flock (R211 to R230, R519). -/
structure Flock where
  /-- 0 idle, 1 waiting after its page tick for a new tally period (R215), 2 page tick, 3 stepping, 4 held -/
  phase : Nat
  /-- drove table entries active for the flock -/
  entries : List Nat
  /-- tick position j in the step -/
  pos : Nat
  /-- step within the round -/
  step : Nat
  /-- round number since activation (R218) -/
  round : Nat
  /-- number of the current step (R519) -/
  num : Nat
  /-- faulted attempts of the current step in a row (R229) -/
  attempts : Nat
  /-- quanta that the last attempt lacked on each tick position that faulted on resolve work (R124) -/
  lack : SMap Nat
  /-- the attempt is a replay -/
  replay : Bool
  /-- first fault of this attempt; 0 none (R224) -/
  fault : Nat
  /-- the drove is stalled on this device (R229) -/
  stalled : Bool
  /-- merged state of the children's commit reports: 1 clean, 2 faulted, 3 stalled -/
  childState : Nat
  /-- children whose commit report has arrived -/
  childSeen : Nat
  /-- decision of the COMMIT marker for the next fire: 0 none, 1 commit, 2 replay, 3 hold -/
  decision : Nat
  /-- swap in progress -/
  swap : Option Swap
  /-- readiness for an announced swap in the children's REPORTs of this tick, keyed by link -/
  childReady : SMap Nat
  /-- the commit point of the current tick has passed -/
  done : Bool
  /-- a drove that this device does not hold is active for the flock in the domain: its N and its design state (R206, R215) -/
  away : Option (Nat × Nat)
  deriving DecidableEq, Repr

/-- A flock that runs nothing. -/
def Flock.init : Flock :=
  { phase := 0, entries := [], pos := 0, step := 0, round := 0, num := 1, attempts := 0, lack := [], replay := false,
    fault := 0, stalled := false, childState := 1, childSeen := 0, decision := 0, swap := none,
    childReady := [], done := false, away := none }

/-- The first copy of a downward marker, as it was acted on (R207). -/
structure Copy where
  /-- tally number -/
  num : Nat
  /-- link that it came on -/
  link : Nat
  /-- its copy by the other parent has come too -/
  both : Bool
  deriving DecidableEq, Repr

/-- The tally unit and the timebase (R203 to R216). Its state, depth, h_s, N and counters are registers (R238). -/
structure Tally where
  /-- timebase, 1/16 ns units -/
  tb : Nat
  /-- F(n): timebase of the last fire -/
  fire : Nat
  /-- tally number of the current tick; 0 before RUN -/
  num : Nat
  /-- ticks fired since reset -/
  fires : Nat
  /-- q decided for the current tick -/
  q : Option Nat
  /-- F(n + 1) that the DECIDE marker named -/
  next : Option Nat
  /-- START waits for the next idle fire (R209) -/
  start : Bool
  /-- consecutive offsets within 1 unit (ACQUIRE) -/
  good : Nat
  /-- quanta of HOLD raised by this device in the tick (R219) -/
  hold : Nat
  /-- largest HOLD of the children's REPORTs in the tick -/
  childHold : Nat
  /-- children whose HOLD REPORT has arrived -/
  childSeen : List Nat
  /-- the hold cutoff has passed in this tick -/
  cutoff : Bool
  /-- this device's HOLD REPORT has been sent in this tick -/
  sent : Bool
  /-- page tick: 0 nothing has run in this tick, 1 the actions of cycle 0 have, 2 those of cycle 2,304 have too -/
  paged : Nat
  /-- the last downward marker acted on of each kind but SWAP (R207) -/
  seen : SMap Copy
  /-- SWAP markers acted on in the tick that they name: tally number, phase and fields -/
  swaps : List (Nat × Nat × SwapFields)
  /-- SLACK entries gathered from the subtree in this exchange (R443) -/
  slacks : List SlackEntry
  /-- last tally number for which this device holds a credit (R444) -/
  credit : Nat
  /-- CREDIT_W of that credit, watts -/
  creditW : Nat
  /-- smallest unspent slack recorded since the last SLACK exchange, plus 1; 0 when none (R443) -/
  least : Nat
  deriving DecidableEq, Repr

/-- The tally unit at reset. -/
def Tally.init : Tally :=
  { tb := 0, fire := 0, num := 0, fires := 0, q := none, next := none, start := false, good := 0, hold := 0, childHold := 0,
    childSeen := [], cutoff := false, sent := false, paged := 0, seen := [],
    swaps := [], slacks := [], credit := 0, creditW := 0, least := 0 }

/-- The device-wide pause (R23, R138, R160) and the ramp limiter (R234). -/
structure Pauses where
  /-- cycles owed by each source of the pause in progress, keyed `16 * unit + cause` -/
  owed : SMap Nat
  /-- pause cycles already taken in this tick -/
  taken : Nat
  /-- timebase units that droop stretches have added in this tick (R445) -/
  extra : Nat
  /-- timebase units of this tick that passed at a faster clock than the one now in force (R447) -/
  saved : Nat
  /-- unpaused cycles of the ticks that have ended since reset: the device cycle at cycle 0 of the tick in progress -/
  base : Nat
  /-- cycle of the tick of the last beat in which a fold issued, plus 1; 0 before the first -/
  beat : Nat
  /-- beats with issue since the last throttle pause (R448) -/
  beats : Nat
  /-- device cycle of the array cycle in which each die's ramp started, plus 1; 0 before any activity (R234) -/
  rampStart : SMap Nat
  /-- array cycles that ramp pauses have counted since -/
  rampSteps : SMap Nat
  /-- device cycle of each die's last array cycle with a product conversion or a new load, plus 1 -/
  rampAt : SMap Nat
  /-- arrays active in that array cycle, 16 × fold + array -/
  rampUsed : SMap (List Nat)
  deriving DecidableEq, Repr

/-- No pause, both dies quiet (DESIGN CHOICE, log entry 3). -/
def Pauses.init : Pauses :=
  { owed := [], taken := 0, extra := 0, saved := 0, base := 0, beat := 0, beats := 0, rampStart := [], rampSteps := []
    rampAt := [], rampUsed := [] }

end Sys2Proof.Machine
end

