-- ==== Sys2Proof/Machine/WeightState.lean ====
section
/-! DEFINITION. The state of the weight loader: epochs, shards, arrivals and NVMe targets (R265 to R288). -/

namespace Sys2Proof.Machine

/-- Where a shard came from. -/
structure ShardSource where
  /-- a push; otherwise a fetch -/
  push : Bool
  /-- target index of a fetch -/
  target : Nat
  /-- namespace ID of a fetch -/
  nsid : Nat
  /-- first logical block of a fetch, or window address of a push -/
  addr : Nat
  /-- container length, bytes -/
  len : Nat
  deriving DecidableEq, Repr

/-- A resident shard of an epoch. -/
structure Shard where
  /-- shard index -/
  index : Nat
  /-- post-transform digest -/
  digest : List Byte
  /-- window address of its resident form -/
  addr : Nat
  /-- plane records P -/
  planes : Nat
  /-- staging placement: logical slot and first plane slot -/
  stage : Option (Nat × Nat)
  /-- source -/
  source : ShardSource
  /-- tally number of its last matching check -/
  checked : Nat
  /-- its last re-check failed -/
  damaged : Bool
  deriving DecidableEq, Repr

/-- One read command of a fetch (R271). -/
structure NvmeCmd where
  /-- command identifier -/
  cid : Nat
  /-- offset in the container -/
  off : Nat
  /-- length -/
  len : Nat
  /-- retries so far -/
  tries : Nat
  /-- data once it has completed -/
  data : Option (List Byte)
  deriving DecidableEq, Repr

/-- A shard that is arriving (R270 to R276). -/
structure Arrival where
  /-- the message, whose tag is the request tag; none for a fetch that the device starts itself (R278) -/
  head : Option MsgHead
  /-- source -/
  source : ShardSource
  /-- commands issued, in container order -/
  cmds : List NvmeCmd
  /-- bytes of the container covered by commands issued -/
  asked : Nat
  /-- pen's epoch entry, shard index, first window address of the buffer and end of the resident form, once the header is known -/
  place : Option (Nat × Nat × Nat × Nat)
  /-- its first 256 bytes, once read -/
  header : List Byte
  /-- it replaces a damaged shard of its epoch (R278) -/
  repair : Bool
  /-- resident form and digest of a shard whose writes wait for its staging blocks (R255) -/
  held : Option (List Byte × List Byte)
  deriving DecidableEq, Repr

/-- An NVMe target (R271, R356). The owner and the state are in WL_TARGET. -/
structure Target where
  /-- port -/
  port : Nat
  /-- IPv6 or IPv4-mapped address, 16 bytes -/
  addr : List Byte
  /-- subsystem NQN -/
  nqn : List Byte
  /-- its queue pair number plus 1; 0 when there is none -/
  qp : Nat
  deriving DecidableEq, Repr

/-- No target. -/
def Target.none : Target := { port := 0, addr := [], nqn := [], qp := 0 }

/-- The weight loader. The epochs' IDs, states and counts are registers. -/
structure Weights where
  /-- resident shards of the epoch entry `2 * pen + k` -/
  shards : SMap (List Shard)
  /-- epoch digests, 32 bytes -/
  digests : SMap (List Byte)
  /-- epoch entries that become EMPTY at the next tick boundary -/
  retiring : List Nat
  /-- arriving shards, in order -/
  arriving : List Arrival
  /-- bytes of stored payload received since WL_MIB_IN last rose -/
  inBytes : Nat
  /-- next command identifier -/
  cid : Nat
  /-- targets -/
  targets : SMap Target
  /-- flocks on which each pen's pending switch has taken effect, as a mask -/
  switched : SMap Nat
  /-- epoch entries that a switch under DRAIN made CURRENT (R283) -/
  drained : List Nat
  deriving DecidableEq, Repr

/-- The weight loader at reset. -/
def Weights.init : Weights :=
  { shards := [], digests := [], retiring := [], arriving := [], inBytes := 0, cid := 0, targets := [], switched := [], drained := [] }

end Sys2Proof.Machine
end

