-- ==== Sys2Proof/Machine/State.lean ====
section
/-! DEFINITION. The state of the block, its faults and refusals, and the state after reset. -/

namespace Sys2Proof.Machine

/-- Reasons the block stops. -/
inductive Fault where
  /-- not raised by any command: the spec's faults are effects on the state -/
  | none
  deriving DecidableEq, Repr

/-- Reasons a command is turned away. -/
inductive Refusal where
  /-- raised by an arm of exec whose command has no meaning yet; safe -/
  | notModelled (mnemonic : String)
  deriving DecidableEq, Repr

/-- What the device sends out. The list of them is the model's own record. -/
inductive Out where
  /-- the 276 bytes of a flit on a link (R322) -/
  | flit (link : Nat) (bytes : List Byte)
  /-- a frame on MUSTER_OUT -/
  | muster (v : Nat)
  /-- a Shobuic message to the host on a channel -/
  | response (pen ch : Nat) (bytes : List Byte)
  /-- a record written into the token ring of a channel, at a host address -/
  | record (pen ch addr : Nat) (bytes : List Byte)
  /-- the write with immediate that carries a token ring's new tail -/
  | tail (pen ch v : Nat)
  /-- an acknowledgement of a request packet, or a NAK: 1 sequence error, 2 invalid request, 3 remote access error -/
  | ack (qp psn nak : Nat)
  /-- the data of an RDMA READ -/
  | readData (qp psn : Nat) (data : List Byte)
  /-- packets of a queue pair are sent again from a PSN -/
  | resend (qp psn : Nat)
  /-- a congestion notification packet -/
  | cnp (qp : Nat)
  /-- a connection manager reply -/
  | cmReply (pen : Nat) (accept : Bool) (qp : Nat)
  /-- the connection manager's request to an NVMe target, for a queue pair -/
  | cmRequest (target qp : Nat)
  /-- a Shobuic message on a queue pair that has no channel -/
  | reply (qp : Nat) (bytes : List Byte)
  /-- an ARP reply, or an ICMP or ICMPv6 message with the address it goes to: sending pen, destination MAC, and the bytes from
  the ARP or ICMP header on (the other fields of the IP header are left open) -/
  | frame (pen dst : Nat) (dest : List Byte) (payload : List Byte)
  /-- an NVMe read command: the fetch's first logical block, with the byte offset from it -/
  | nvme (target cid nsid lba off len : Nat)
  /-- a PTP delay request -/
  | delayReq
  /-- a command to the regulator of a rail, millivolts -/
  | avs (rail mv : Nat)
  /-- what the debug data register shifts out after a read -/
  | tdo (v : Nat)
  /-- an output pin changes -/
  | pin (name : String) (v : Bool)
  deriving DecidableEq, Repr

/-- The latches of register reads (R489, R497) and the message route table behind MSG_RT_SEL (R342). -/
structure Views where
  /-- high word latched for a reader, keyed `reader * 2^18 + page * 1024 + word`, plus 1 -/
  hi : SMap Nat
  /-- latched log entry (R497) -/
  entry : Nat
  /-- message routes, by device ID -/
  routes : SMap Nat
  /-- at least 32,768 log entries have been written since the last cold reset -/
  full : Bool
  deriving DecidableEq, Repr

/-- The PTP clock (R351). -/
structure Ptp where
  /-- current PTP time, ns -/
  now : Nat
  /-- it has synchronised since reset -/
  everSync : Bool
  /-- Sync awaiting its Follow_Up: sequence and receive time -/
  waiting : Option (Nat × Int)
  /-- last measured path delay, ns -/
  delay : Int
  /-- last Sync: grandmaster time and receive time, ns -/
  lastSync : Int × Int
  deriving DecidableEq, Repr

/-- The state of the block. -/
structure State where
  /-- commands waiting, first in, first out -/
  pending : List Instr
  /-- counter of free values drawn: the model's own -/
  free : Nat
  /-- register fields that do not hold their reset value, keyed by page, offset and lowest bit -/
  regs : SMap Nat
  /-- read latches -/
  views : Views
  /-- PTP clock -/
  ptp : Ptp
  /-- HBM ports whose pseudo-channel retirement has switched: they hold 22.5 GiB (R260) -/
  hbmShort : Nat
  /-- trouble log ring: 512-bit entries by slot (R478) -/
  log : SMap Nat
  /-- HBM, staging and vector stores, by device address (R239) -/
  mem : List Host.Cell
  /-- bytes that the IOD has written since the last tick boundary: what scheduled work still reads there, plus 1 (R248) -/
  fresh : SMap Nat
  /-- segment stores, keyed `fold * 2^18 + offset` (R155) -/
  seg : List Host.Cell
  /-- physical folds -/
  folds : SMap Fold
  /-- drove table -/
  droves : SMap Drove
  /-- flocks -/
  flocks : SMap Flock
  /-- tally unit -/
  tally : Tally
  /-- device-wide pause and ramp limiter -/
  pause : Pauses
  /-- silent-error handling -/
  care : Care
  /-- power, droop and temperature -/
  power : Power
  /-- housekeeping units -/
  hks : SMap Hk
  /-- resets, boot, flash and identity -/
  boot : Boot
  /-- Fraeth links -/
  links : SMap Link
  /-- message layer -/
  msgs : Msgs
  /-- muster chain -/
  muster : Muster
  /-- the Drover, journal and replay -/
  drover : Drover
  /-- weight loader -/
  weights : Weights
  /-- queue pairs and channels -/
  net : Net
  /-- channels whose doorbell has come and whose ring is to be served, keyed `128 * pen + channel`; empty between commands -/
  rung : List Nat
  /-- what the device has sent, oldest first: the model's own -/
  out : List Out
  deriving DecidableEq, Repr

/-! ## Replacing one field -/

/-- Replace `pending`. -/
def State.setPending (s : State) (v : List Instr) : State := { s with pending := v }

/-- Replace `free`. -/
def State.setFree (s : State) (v : Nat) : State := { s with free := v }

/-- Replace `regs`. -/
def State.setRegs (s : State) (v : SMap Nat) : State := { s with regs := v }

/-- Replace `views`. -/
def State.setViews (s : State) (v : Views) : State := { s with views := v }

/-- Replace `ptp`. -/
def State.setPtp (s : State) (v : Ptp) : State := { s with ptp := v }

/-- Replace `hbmShort`. -/
def State.setHbmShort (s : State) (v : Nat) : State := { s with hbmShort := v }

/-- Replace `log`. -/
def State.setLog (s : State) (v : SMap Nat) : State := { s with log := v }

/-- Replace `mem`. -/
def State.setMem (s : State) (v : List Host.Cell) : State := { s with mem := v }

/-- Replace `fresh`. -/
def State.setFresh (s : State) (v : SMap Nat) : State := { s with fresh := v }

/-- Replace `seg`. -/
def State.setSeg (s : State) (v : List Host.Cell) : State := { s with seg := v }

/-- Replace `folds`. -/
def State.setFolds (s : State) (v : SMap Fold) : State := { s with folds := v }

/-- Replace `droves`. -/
def State.setDroves (s : State) (v : SMap Drove) : State := { s with droves := v }

/-- Replace `flocks`. -/
def State.setFlocks (s : State) (v : SMap Flock) : State := { s with flocks := v }

/-- Replace `tally`. -/
def State.setTally (s : State) (v : Tally) : State := { s with tally := v }

/-- Replace `pause`. -/
def State.setPause (s : State) (v : Pauses) : State := { s with pause := v }

/-- Replace `care`. -/
def State.setCare (s : State) (v : Care) : State := { s with care := v }

/-- Replace `power`. -/
def State.setPower (s : State) (v : Power) : State := { s with power := v }

/-- Replace `hks`. -/
def State.setHks (s : State) (v : SMap Hk) : State := { s with hks := v }

/-- Replace `boot`. -/
def State.setBoot (s : State) (v : Boot) : State := { s with boot := v }

/-- Replace `links`. -/
def State.setLinks (s : State) (v : SMap Link) : State := { s with links := v }

/-- Replace `msgs`. -/
def State.setMsgs (s : State) (v : Msgs) : State := { s with msgs := v }

/-- Replace `muster`. -/
def State.setMuster (s : State) (v : Muster) : State := { s with muster := v }

/-- Replace `drover`. -/
def State.setDrover (s : State) (v : Drover) : State := { s with drover := v }

/-- Replace `weights`. -/
def State.setWeights (s : State) (v : Weights) : State := { s with weights := v }

/-- Replace `net`. -/
def State.setNet (s : State) (v : Net) : State := { s with net := v }

/-- Replace `rung`. -/
def State.setRung (s : State) (v : List Nat) : State := { s with rung := v }

/-- Replace `out`. -/
def State.setOut (s : State) (v : List Out) : State := { s with out := v }

/-- No latch taken, and every route zero. -/
def Views.init : Views := { hi := [], entry := 0, routes := [], full := false }

/-- The PTP clock at reset. -/
def Ptp.init : Ptp := { now := 0, everSync := false, waiting := Option.none, delay := 0, lastSync := (0, 0) }

/-- The block right after a cold reset: PWR_OK is high and reset is not yet released. Every register holds the reset value of
its field, the boot flash is empty (DESIGN CHOICE, log entry 5), and nothing is listed in any memory. -/
def State.reset : State :=
  { pending := [], free := 0, regs := [], views := Views.init, ptp := Ptp.init, hbmShort := 0, log := [], mem := [], fresh := [], seg := []
    folds := [], droves := [], flocks := [], tally := Tally.init, pause := Pauses.init, care := Care.init, power := Power.init, hks := []
    boot := { Boot.init with powerOk := true }, links := [], msgs := Msgs.init, muster := Muster.init, drover := Drover.init
    weights := Weights.init, net := Net.init, rung := [], out := [] }

end Sys2Proof.Machine
end

