-- ==== Sys2Proof/Machine/Ops.lean ====
section
/-! DEFINITION. The shared operations over registers, counters, error bits, the trouble log, memory, the heft map and
the device-wide pause. -/

namespace Sys2Proof.Machine

/-! ## Register fields -/

/-- The key of instance `i` of field `f` on page `pg`. -/
def fkey (pg : Nat) (f : Field) (i : Nat) : Nat := pg * 131072 + (f.off + f.stride * i) * 32 + f.lo

/-- Read a field. -/
def rd (s : State) (pg : Nat) (f : Field) (i : Nat := 0) : Nat := getD f.reset s.regs (fkey pg f i)

/-- Write a field; only the bits of its width are stored. -/
def wr (s : State) (pg : Nat) (f : Field) (i : Nat) (v : Nat) : State :=
  s.setRegs (putD f.reset s.regs (fkey pg f i) (v % 2 ^ f.width))

/-- Write a one-instance field. -/
def wr0 (s : State) (pg : Nat) (f : Field) (v : Nat) : State := wr s pg f 0 v

/-- Read bit `b` of a field. -/
def rdBit (s : State) (pg : Nat) (f : Field) (i b : Nat) : Bool := bit (rd s pg f i) b

/-- A number with bit `b` set to a value. -/
def putBit (x b : Nat) (v : Bool) : Nat :=
  if bit x b then (if v then x else x - 2 ^ b) else (if v then x + 2 ^ b else x)

/-- Set or clear bit `b` of a field. -/
def wrBit (s : State) (pg : Nat) (f : Field) (i b : Nat) (v : Bool) : State := wr s pg f i (putBit (rd s pg f i) b v)

/-- Write a value over a _LO and _HI pair of fields. -/
def wrPair (s : State) (pg : Nat) (lo hi : Field) (v : Nat) : State := wr0 (wr0 s pg lo v) pg hi (v / 2 ^ 32)

/-- Read a _LO and _HI pair of fields. -/
def rdPair (s : State) (pg : Nat) (lo hi : Field) : Nat := rd s pg lo + 2 ^ 32 * rd s pg hi

/-- Add to a SAT counter; it stops at 0xFFFF_FFFF with STATUS [0] set (R9, R485). -/
def bumpI (s : State) (pg : Nat) (f : Field) (i n : Nat) : State :=
  let v := rd s pg f i + n
  if v < 2 ^ 32 - 1 then wr s pg f i v
  else wr0 (wr s pg f i (2 ^ 32 - 1)) pg F.STATUS_SAT 1

/-- Add to a one-instance SAT counter. -/
def bump (s : State) (pg : Nat) (f : Field) (n : Nat := 1) : State := bumpI s pg f 0 n

/-! ## Page indices (R484) -/

/-- Page of pen `p`. -/
def penPg (p : Nat) : Nat := 2 + p
/-- Page of physical fold `f`. -/
def foldPg (f : Nat) : Nat := 18 + f
/-- Page of stack `k`. -/
def hbmPg (k : Nat) : Nat := 86 + k
/-- Page of link `l`. -/
def linkPg (l : Nat) : Nat := 94 + l
/-- Page of housekeeping unit `u`. -/
def hkPg (u : Nat) : Nat := 195 + u
/-- Page of NoC half `d`. -/
def nocPg (d : Nat) : Nat := 205 + d
/-- IOD page. -/
def iodPg : Nat := 1
/-- ETH page. -/
def ethPg : Nat := 190
/-- SHOB page. -/
def shobPg : Nat := 191
/-- TALLY page. -/
def tallyPg : Nat := 192
/-- DROVER page. -/
def droverPg : Nat := 193
/-- WLOAD page. -/
def wloadPg : Nat := 194
/-- PWR page. -/
def pwrPg : Nat := 198
/-- THERM page. -/
def thermPg : Nat := 199
/-- LOG page. -/
def logPg : Nat := 200
/-- BOOT page. -/
def bootPg : Nat := 201
/-- SEC page. -/
def secPg : Nat := 202
/-- UPD page. -/
def updPg : Nat := 203
/-- TEST page. -/
def testPg : Nat := 204

/-- The type of page `i`; none for 207 to 255 (R484). -/
def pageType (i : Nat) : Option PageType :=
  if i = 0 then some .dir else if i = 1 then some .iod else if i < 18 then some .pen else if i < 86 then some .fold
  else if i < 94 then some .hbm else if i < 190 then some .link else if i = 190 then some .eth
  else if i = 191 then some .shob else if i = 192 then some .tally else if i = 193 then some .drover
  else if i = 194 then some .wload else if i < 198 then some .hka else if i = 198 then some .pwr
  else if i = 199 then some .therm else if i = 200 then some .log else if i = 201 then some .boot
  else if i = 202 then some .sec else if i = 203 then some .upd else if i = 204 then some .test
  else if i < 207 then some .noc else none

/-- The type code of a page type (R484). -/
def typeCode : PageType → Nat
  | .dir => 1 | .iod => 2 | .pen => 3 | .fold => 4 | .hbm => 5 | .link => 6 | .eth => 7 | .shob => 8 | .tally => 9
  | .drover => 10 | .wload => 11 | .hka => 12 | .pwr => 13 | .therm => 14 | .log => 15 | .boot => 16 | .sec => 17
  | .upd => 18 | .test => 19 | .noc => 20

/-- The type code of page `i`; 0 when there is no page. -/
def pageCode (i : Nat) : Nat := match pageType i with
  | some t => typeCode t
  | none => 0

/-- The instance number of page `i` (R484). -/
def pageInstance (i : Nat) : Nat := match pageType i with
  | some .pen => i - 2
  | some .fold => i - 18
  | some .hbm => i - 86
  | some .link => i - 94
  | some .hka => i - 195
  | some .noc => i - 205
  | _ => 0

/-! ## Error bits (R486, R491) -/

/-- The header counter of error bits 0 to 2. -/
def evtField : Nat → Option Field
  | 0 => some F.EVT_ACCESS
  | 1 => some F.EVT_UNCORR
  | 2 => some F.EVT_PARITY
  | _ => none

/-- An event sets ERR_SUM bit `b` of a page; the first error is named when ERR_SUM was all zero (R486). -/
def errEvent (s : State) (pg b : Nat) : State :=
  let first := rd s pg F.ERR_SUM == 0
  let s := wrBit s pg F.ERR_SUM 0 b true
  let s := if first then wr0 (wr0 s pg F.ERR_FIRST_BIT b) pg F.ERR_FIRST_TALLY s.tally.num else s
  match evtField b with
  | some f => bump s pg f
  | none => s

/-! ## The trouble log (R478 to R480, R492, R497) -/

/-- A field of log data: byte position in 32 to 63, and value. -/
abbrev LogField := Nat × Nat

/-- Entry data as a number. -/
def logData (fs : List LogField) : Nat := (fs.map (fun f => f.2 * 2 ^ (8 * f.1))).sum

/-- Write a trouble-log entry with source page `pg` and event code `ev`; its PTP time is the PTP_FIRE record (R351, R479). -/
def logWrite (s : State) (pg ev pen : Nat) (fs : List LogField) : State :=
  let i := rd s logPg F.LOG_INDEX
  let e := rdPair s ethPg F.PTP_FIRE_LO F.PTP_FIRE_HI + s.tally.num % 2 ^ 64 * 2 ^ 64 + i * 2 ^ 128 + pg * 2 ^ 160
    + (ev + 256 * pageCode pg) * 2 ^ 176 + pen * 2 ^ 192 + (if s.ptp.everSync then 0 else 2 ^ 200) + logData fs
  let s := if s.views.full ∧ (2 ^ 33 - 32768 + i - rd s logPg F.LOG_READ) % 2 ^ 32 < 2 ^ 31 then bump s logPg F.LOG_OVERRUN else s
  let s := s.setLog (putD 0 s.log (i % 32768) (e % 2 ^ 512))
  let s := if i + 1 = 32768 then s.setViews { s.views with full := true } else s
  let s := wr0 s logPg F.LOG_INDEX (i + 1)
  bump s pg F.EVT_LOG

/-- The order of the entries of one cycle: by source page, then by code (R480). -/
def logKey (e : Nat) : Nat := bits e 160 16 * 65536 + bits e 176 16

/-- A log entry with another index. -/
def reindex (e i : Nat) : Nat := e - bits e 128 32 * 2 ^ 128 + i % 2 ^ 32 * 2 ^ 128

/-- Put an entry after those that come before it in the order of a cycle. -/
def insLog (e : Nat) : List Nat → List Nat
  | [] => [e]
  | x :: xs => if logKey e < logKey x then e :: x :: xs else x :: insLog e xs

/-- Bring the entries that one cycle has added to the log between `s` and `t` into the order of R480. -/
def orderLog (s t : State) : State :=
  let i := rd s logPg F.LOG_INDEX
  let n := (2 ^ 32 + rd t logPg F.LOG_INDEX - i) % 2 ^ 32
  if n < 2 then t
  else
    let es := ((List.range (min n 32768)).map (fun j => getD 0 t.log ((i + j) % 32768))).foldl (fun acc e => insLog e acc) []
    t.setLog (es.zipIdx.foldl (fun m e => putD 0 m ((i + e.2) % 32768) (reindex e.1 (i + e.2))) t.log)

/-- The source code of an access for the log (R492). -/
def srcCode : Source → Nat
  | .rdma _ => 0
  | .core _ => 1
  | .jtag => 2
  | .debug => 3

/-- The pen of an access: the debug port, DEBUG messages and the management cores act as pen 0 (R239, R468, R469). -/
def srcPen : Source → Nat
  | .rdma p => p
  | _ => 0

/-- The number of a reader (R489). -/
def srcReader : Source → Nat
  | .rdma p => p
  | .core k => 16 + k
  | .jtag => 20
  | .debug => 21

/-- A refused or ignored access to a page (R491); a management core's access also writes a log entry (R492). -/
def accessError (s : State) (pg off : Nat) (src : Source) (row v : Nat) : State :=
  let s := errEvent s pg 0
  if srcCode src = 1 then
    logWrite s pg 1 (srcPen src) [(32, off), (34, srcPen src), (35, srcCode src), (36, row), (40, v % 2 ^ 32)]
  else s

/-! ## Free values -/

/-- The next free whole number, and the state with the counter advanced (DESIGN CHOICE, log entry 7). -/
def drawNat (s : State) : Nat × State := (Config.freeNat s.free, s.setFree (s.free + 1))

/-- The PTP clock has moved on by an amount that is free: it counts by itself, apart from the tally timebase (R351). -/
def passTime (s : State) : State :=
  let (v, s) := drawNat s
  s.setPtp { s.ptp with now := (s.ptp.now + v) % 2 ^ 64 }

/-- The next `n` free bytes, and the state with the counter advanced (DESIGN CHOICE, log entry 7). -/
def freeBytes (s : State) (n : Nat) : List Byte × State :=
  ((List.range n).map (fun j => BitVec.ofNat 8 (Config.freeNat (s.free + j))), s.setFree (s.free + n))

/-! ## Memory (R239) -/

/-- What an unlisted byte reads as (DESIGN CHOICE, log entry 6). -/
def emptyByte : Byte := 0

/-- Device address of byte `a` of the staging slice of fold `f`. -/
def stagingAddr (f a : Nat) : Nat := 0x10000000000 + 0x1000000 * f + a
/-- Device address of byte `a` of the vector store of fold `f`. -/
def vsAddr (f a : Nat) : Nat := 0x10200000000 + 0x1000000 * f + a

/-- Whether a device address holds memory: populated HBM, staging or vector store. HBM port `q` ends at its capacity (R239, R260). -/
def isMem (s : State) (a : Nat) : Bool :=
  if a < 0x10000000000 then
    decide (a % 0x800000000 < 0x600000000 - (if bit s.hbmShort (a / 0x800000000) then 0x60000000 else 0))
  else if a < 0x10100000000 then decide ((a - 0x10000000000) / 0x1000000 < 68) && decide (a % 0x1000000 < 0xC00000)
  else if 0x10200000000 ≤ a ∧ a < 0x10300000000 then
    decide ((a - 0x10200000000) / 0x1000000 < 68) && decide (a % 0x1000000 < 0x400000)
  else false

/-- Read one byte of memory; zero where none is populated (R239). -/
def readByte (s : State) (a : Nat) : Byte := if isMem s a then getD emptyByte s.mem a else 0

/-- Write one byte; ignored where none is populated. -/
def writeByte (s : State) (a : Nat) (v : Byte) : State :=
  if isMem s a then s.setMem (putD emptyByte s.mem a v) else s

/-- The byte that scheduled work reads: an IOD write shows only from the next tick boundary (R248). -/
def droveByte (s : State) (a : Nat) : Byte :=
  let v := getD 0 s.fresh a
  if v = 0 then readByte s a else BitVec.ofNat 8 (v - 1)

/-- Write one byte from the IOD. -/
def iodByte (s : State) (a : Nat) (v : Byte) : State :=
  if isMem s a then
    let s := if getD 0 s.fresh a = 0 then s.setFresh (putD 0 s.fresh a ((readByte s a).toNat + 1)) else s
    writeByte s a v
  else s

/-- Write a run of bytes from the IOD upwards from `a`. -/
def iodBytes (s : State) (a : Nat) : List Byte → State
  | [] => s
  | b :: bs => iodBytes (iodByte s a b) (a + 1) bs

/-- Write a run of bytes from scheduled work upwards from `a`. -/
def droveBytes (s : State) (a : Nat) : List Byte → State
  | [] => s
  | b :: bs => droveBytes ((writeByte s a b).setFresh (putD 0 s.fresh a 0)) (a + 1) bs

/-- Read `n` bytes upwards from `a` as scheduled work. -/
def droveRead (s : State) (a n : Nat) : List Byte := (List.range n).map (fun j => droveByte s (a + j))

/-- Read a little-endian number of `n` bytes as scheduled work. -/
def droveLe (s : State) (a n : Nat) : Nat := leNat (droveRead s a n)

/-- Read `n` bytes upwards from `a`. -/
def readBytes (s : State) (a n : Nat) : List Byte := (List.range n).map (fun j => readByte s (a + j))

/-- Write a run of bytes upwards from `a`. -/
def writeBytes (s : State) (a : Nat) : List Byte → State
  | [] => s
  | b :: bs => writeBytes (writeByte s a b) (a + 1) bs

/-- Read a little-endian number of `n` bytes. -/
def readLe (s : State) (a n : Nat) : Nat := leNat (readBytes s a n)

/-! ## The heft map (R18, R19) -/

/-- The die of a physical fold. -/
def dieOf (f : Nat) : Nat := f / 34

/-- The physical fold that serves a logical slot. -/
def foldOfSlot (s : State) (slot : Nat) : Option Nat :=
  if rd s iodPg F.HEFT_SLOT_EN slot = 1 then some (rd s iodPg F.HEFT_SLOT_FOLD slot) else none

/-- Logical slot `k` has failed (R377). -/
def slotFailed (s : State) (k : Nat) : Bool :=
  if k < 32 then rdBit s testPg F.SLOT_FAILED_LO 0 k else rdBit s testPg F.SLOT_FAILED_HI 0 (k - 32)

/-- The logical slot that a physical fold serves. The live map still names the fold of a slot that has failed, which may be free again
(R388): a spare serves none. -/
def slotOfFold (s : State) (f : Nat) : Option Nat :=
  let mine := (List.range 64).filter (fun k => foldOfSlot s k == some f)
  match mine.find? (fun k => !slotFailed s k) with
  | some k => some k
  | none => if rd s (foldPg f) F.FOLD_ROLE_ROLE = 1 ∨ rd s (foldPg f) F.FOLD_ROLE_ROLE = 2 then none else mine.head?

/-! ## Folds, arrays, tiles -/

/-- A physical fold. -/
def getFold (s : State) (f : Nat) : Fold := getD Fold.init s.folds f

/-- Replace a physical fold. -/
def putFold (s : State) (f : Nat) (x : Fold) : State := s.setFolds (putD Fold.init s.folds f x)

/-- Change a physical fold. -/
def modFold (s : State) (f : Nat) (g : Fold → Fold) : State := putFold s f (g (getFold s f))

/-- An array of a fold. -/
def Fold.arr (x : Fold) (a : Nat) : Arr := getD Arr.init x.arrays a

/-- Replace an array. -/
def Fold.setArr (x : Fold) (a : Nat) (y : Arr) : Fold := { x with arrays := putD Arr.init x.arrays a y }

/-- Change an array of a fold. -/
def modArr (s : State) (f a : Nat) (g : Arr → Arr) : State := modFold s f (fun x => x.setArr a (g (x.arr a)))

/-- A tile of a fold. -/
def Fold.tile (x : Fold) (t : Nat) : Tile := getD Tile.zero x.tiles t

/-- Replace a tile. -/
def Fold.setTile (x : Fold) (t : Nat) (y : Tile) : Fold := { x with tiles := putD Tile.zero x.tiles t y }

/-- Change a tile of a fold. -/
def modTile (s : State) (f t : Nat) (g : Tile → Tile) : State := modFold s f (fun x => x.setTile t (g (x.tile t)))

/-- A drove table entry. -/
def getDrove (s : State) (e : Nat) : Drove := getD Drove.empty s.droves e

/-- Replace a drove table entry and show it in DRV_ENTRY (R238). -/
def putDrove (s : State) (e : Nat) (d : Drove) : State :=
  let s := s.setDroves (putD Drove.empty s.droves e d)
  let s := wr s tallyPg F.DRV_ENTRY0_STATE e d.st
  let s := wr s tallyPg F.DRV_ENTRY0_PEN e d.pen
  let s := wr s tallyPg F.DRV_ENTRY0_FLOCK e d.flock
  let s := wr s tallyPg F.DRV_ENTRY0_STATUS e d.status
  let s := wr s tallyPg F.DRV_ENTRY1 e (d.addr / 4096)
  let s := wr s tallyPg F.DRV_ENTRY2 e (leNat (d.digest.take 4))
  wr s tallyPg F.DRV_ENTRY3 e (d.actTally % 2 ^ 32)

/-- A flock. -/
def getFlock (s : State) (f : Nat) : Flock := getD Flock.init s.flocks f

/-- Replace a flock. -/
def putFlock (s : State) (f : Nat) (x : Flock) : State := s.setFlocks (putD Flock.init s.flocks f x)

/-- Change a flock. -/
def modFlock (s : State) (f : Nat) (g : Flock → Flock) : State := putFlock s f (g (getFlock s f))

/-- The request with a handle. -/
def getReq (s : State) (handle : Nat) : Option Request := (getD [] s.drover.reqs (handle % 4096)).find? (fun r => r.handle == handle)

/-- Absolute position of the next token that a request's lane draws. -/
def drawnPos (r : Request) : Nat := r.prompt.length + r.drawn

/-- The drove active on a fold. -/
def foldDrove (s : State) (f : Nat) : Option Drove := (getFold s f).drove.map (getDrove s)

/-- The flock whose drove is active on a fold. -/
def foldFlock (s : State) (f : Nat) : Option Nat := (foldDrove s f).map (·.flock)

/-- Apply a change to each number of a list in order. -/
def forEach {α : Type} (s : State) (xs : List α) (g : State → α → State) : State := xs.foldl g s

/-- All physical folds. -/
def allFolds : List Nat := List.range 68

/-! ## The device-wide pause (R138, R160) -/

/-- Ask for `n` cycles of device-wide pause on behalf of source `k`; requests of one source in one pause run one after
another, and the pause lasts for the longest source (R138). -/
def askPause (s : State) (k n : Nat) : State :=
  if n = 0 then s else s.setPause { s.pause with owed := modD 0 s.pause.owed k (· + n) }

/-- Cycles that the pause in progress owes: its longest source. -/
def owedCycles (s : State) : Nat := s.pause.owed.foldl (fun m e => max m e.2) 0

/-- A device-wide pause is in progress; one for a partner's stop bit lasts until the bit clears (R333). -/
def frozen (s : State) : Bool := decide (0 < owedCycles s) || s.links.any (fun e => e.2.stopped)

/-- Pause causes: the low part of a source key. -/
def causeCrook : Nat := 0
/-- resolve work (R122) -/
def causeResolve : Nat := 1
/-- accumulator repeat (R138) -/
def causeRepeat : Nat := 2
/-- corrected line (R257) -/
def causeEcc : Nat := 3
/-- refresh (R252) -/
def causeRefresh : Nat := 4
/-- late data (R247, R332) -/
def causeLate : Nat := 5
/-- backpressure (R333) -/
def causeStop : Nat := 6
/-- ramp limiter (R234) -/
def causeRamp : Nat := 7
/-- substitution (R384) -/
def causeSwitch : Nat := 8
/-- thermal throttle (R448) -/
def causeThrottle : Nat := 9

/-- The source key of a unit and a cause. -/
def pauseKey (unit cause : Nat) : Nat := 16 * unit + cause

/-! ## Step faults (R224, R225, R368) -/

/-- A step fault of flock `k` with a cause of R224: counted and recorded when it is the first of the attempt (R225). -/
def stepFault (s : State) (k cause : Nat) : State :=
  let x := getFlock s k
  if x.phase = 3 ∧ x.fault = 0 then
    let s := putFlock s k { x with fault := cause }
    let s := bump s tallyPg F.STEP_FAULT_CNT
    let s := wr0 s tallyPg F.STEP_FAULT_INFO_CAUSE cause
    let s := wr0 s tallyPg F.STEP_FAULT_INFO_FLOCK k
    let s := wr0 s tallyPg F.STEP_FAULT_INFO_POS x.pos
    wr0 s tallyPg F.STEP_FAULT_INFO_TALLY s.tally.num
  else s

/-- A step fault of the flock whose drove runs on a fold. -/
def foldStepFault (s : State) (f cause : Nat) : State :=
  match foldFlock s f with
  | some k => stepFault s k cause
  | none => s

/-- Mark the current step of the flock that a fold serves suspect: cause 5 (R224, R368). -/
def markSuspect (s : State) (f : Nat) : State := foldStepFault s f 5

end Sys2Proof.Machine
end

