-- ==== Sys2Proof/Machine/Window.lean ====
section
/-! DEFINITION. Pen windows, their regions, and the HBM ports (R239 to R245, R260, R261, R264). -/

namespace Sys2Proof.Machine

/-- 16 MiB. -/
def mib16 : Nat := 0x1000000

/-- The valid extents of a pen in index order: port, start and length in bytes (R243). -/
def extents (s : State) (p : Nat) : List (Nat × Nat × Nat) :=
  ((List.range 64).filter (fun i => rd s (penPg p) F.EXT0_VALID i == 1)).map (fun i =>
    (rd s (penPg p) F.EXT0_PORT i, mib16 * rd s (penPg p) F.EXT0_START i, mib16 * (rd s (penPg p) F.EXT1 i + 1)))

/-- Size of a pen's window, bytes. -/
def winSize (s : State) (p : Nat) : Nat := ((extents s p).map (fun e => e.2.2)).sum

/-- The extent that a window address falls in: port and port offset, with the bytes left in the extent. -/
def findExtent : List (Nat × Nat × Nat) → Nat → Option (Nat × Nat × Nat)
  | [], _ => none
  | (q, st, len) :: r, w => if w < len then some (q, st + w, len - w) else findExtent r (w - len)

/-- The device address of a window range that lies in one extent (R243, R244). -/
def windowAddr (s : State) (p w n : Nat) : Option Nat :=
  match findExtent (extents s p) w with
  | some (q, off, left) => if n ≤ left then some (0x800000000 * q + off) else none
  | none => none

/-- The device address of a window byte; an address past the window is unpopulated. -/
def windowByte (s : State) (p w : Nat) : Option Nat := windowAddr s p w 1

/-! ## What the IOD reads under a drove's writes (R246, R248) -/

/-- An HWR that has not completed covers a device address. -/
def Xfer.covers (x : Xfer) (a : Nat) : Bool := x.hwr && decide (x.dst ≤ a) && decide (a < x.dst + x.data.length)

/-- The byte that an HWR replaced at an address that it covers. -/
def Xfer.replaced (x : Xfer) (a : Nat) : Byte := x.data.getD (a - x.dst) 0

/-- The HWR that issued first among the transfers that cover an address. -/
def firstWrite (xs : List Xfer) (a : Nat) : Option Xfer :=
  (xs.filter (·.covers a)).foldl (fun m x => match m with | some y => if x.c < y.c then some x else m | none => some x) none

/-- The byte of memory as the IOD reads it: under HWRs that have not completed, the byte that the first of them replaced (R248). -/
def iodRead (s : State) (a : Nat) : Byte := match firstWrite (s.folds.flatMap (·.2.xfers)) a with
  | some x => x.replaced a
  | none => readByte s a

/-- Read one byte of a pen's window as the IOD does; zero outside it. -/
def winByte (s : State) (p w : Nat) : Byte := match windowByte s p w with
  | some a => iodRead s a
  | none => 0

/-- Read bytes of a pen's window. -/
def winBytes (s : State) (p w n : Nat) : List Byte := (List.range n).map (fun j => winByte s p (w + j))

/-- Read a little-endian number of a pen's window. -/
def winLe (s : State) (p w n : Nat) : Nat := leNat (winBytes s p w n)

/-- Store bytes in a pen's window from the IOD; bytes outside it are dropped. -/
def winPut (s : State) (p w : Nat) : List Byte → State
  | [] => s
  | b :: bs => match windowByte s p w with
    | some a => winPut (iodByte s a b) p (w + 1) bs
    | none => winPut s p (w + 1) bs

/-- The window address of a device address in the window of a pen's extents, from `base` on. -/
def windowOf : List (Nat × Nat × Nat) → Nat → Nat → Option Nat
  | [], _, _ => none
  | (q, st, len) :: r, a, base =>
    let lo := 0x800000000 * q + st
    if lo ≤ a ∧ a < lo + len then some (base + (a - lo)) else windowOf r a (base + len)

/-- Poisoned lines that meet a test have been rewritten whole (R258). -/
def cureLines (s : State) (test : Nat → Bool) : State := s.setCare { s.care with bad := s.care.bad.filter (fun e => !test e.2) }

/-- A line lies whole in a range of device addresses. -/
def lineIn (lo n a : Nat) : Bool := decide (lo ≤ a) && decide (a + 64 ≤ lo + n)

/-- A line lies whole in a range of a pen's window. -/
def lineInWindow (s : State) (p w n a : Nat) : Bool := match windowOf (extents s p) a 0 with
  | some v => lineIn w n v
  | none => false

/-- Write bytes into a pen's window from the IOD: poisoned lines that they cover hold data again (R258). -/
def winWrite (s : State) (p w : Nat) (bs : List Byte) : State :=
  cureLines (winPut s p w bs) (lineInWindow s p w bs.length)

/-- Whether a window range lies wholly in the pen's window. -/
def inWindow (s : State) (p w n : Nat) : Bool := decide (w + n ≤ winSize s p)

/-- Write a run of bytes from scheduled work: poisoned lines that it covers whole hold data again (R258). -/
def droveStore (s : State) (a : Nat) (bs : List Byte) : State := cureLines (droveBytes s a bs) (lineIn a bs.length)

/-- A management core's write into a pen's window: one that leaves the pen's extents is refused and recorded (R243, R375). -/
def coreWrite (s : State) (p w : Nat) (bs : List Byte) : State :=
  if inWindow s p w bs.length then winWrite s p w bs else accessError s (penPg p) 0 (.core 0) 6 (w % 2 ^ 32)

/-! ## Regions (R261) -/

/-- A region of a pen: its base and size in bytes. -/
structure Region where
  /-- base, window address -/
  base : Nat
  /-- size -/
  size : Nat
  deriving DecidableEq, Repr

/-- 4 KiB units. -/
def kib4 : Nat := 4096

/-- The journal ring. -/
def journalRegion (s : State) (p : Nat) : Region := ⟨kib4 * rd s (penPg p) F.JRNL_BASE, kib4 * rd s (penPg p) F.JRNL_SIZE⟩

/-- Sets of a pen's prefix table. -/
def prefixSets (s : State) (p : Nat) : Nat := if rd s (penPg p) F.PFX_SETS = 0 then 0 else 2 ^ rd s (penPg p) F.PFX_SETS

/-- The prefix table: four 64-byte entries a set. -/
def prefixRegion (s : State) (p : Nat) : Region := ⟨kib4 * rd s (penPg p) F.PFX_BASE, 256 * prefixSets s p⟩

/-- The KV pool. -/
def kvRegion (s : State) (p : Nat) : Region := ⟨kib4 * rd s (penPg p) F.KV_BASE, kib4 * rd s (penPg p) F.KV_SIZE⟩

/-- The context area: 32 MiB when one is placed. -/
def contextRegion (s : State) (p : Nat) : Region := ⟨kib4 * rd s (penPg p) F.CTX_BASE, if rd s (penPg p) F.CTX_BASE = 0 then 0 else 0x2000000⟩

/-- The checkpoint area. -/
def checkpointRegion (s : State) (p : Nat) : Region := ⟨kib4 * rd s (penPg p) F.CKPT_BASE, kib4 * rd s (penPg p) F.CKPT_SIZE⟩

/-- Whether a window address lies in a region. -/
def Region.has (r : Region) (w : Nat) : Bool := decide (r.base ≤ w) && decide (w < r.base + r.size)

/-- Whether two regions share a byte. -/
def Region.meets (a b : Region) : Bool := decide (0 < a.size) && decide (0 < b.size) && decide (a.base < b.base + b.size) && decide (b.base < a.base + a.size)

/-! ## HBM ports (R241, R245, R260) -/

/-- Die of an HBM port. -/
def portDie (q : Nat) : Nat := q / 16

/-- c_p of a port at performance state `p` (R241). -/
def designRate (p : Nat) : Nat := min 256 (512000 / freqOf p)

/-- Bytes per cycle of a port at performance state `p`; a retired pseudo-channel takes a sixteenth (R241, R260). -/
def portRate (s : State) (q p : Nat) : Nat := if bit s.hbmShort q then designRate p * 15 / 16 else designRate p

/-- L_R (R245). -/
def readLat (p : Nat) : Nat := match p with
  | 0 => 368 | 1 => 336 | 2 => 320 | 3 => 288 | 4 => 256 | 5 => 224 | _ => 192

/-- L_W (R245). -/
def writeLat (p : Nat) : Nat := match p with
  | 0 => 221 | 1 => 202 | 2 => 192 | 3 => 173 | 4 => 154 | 5 => 135 | _ => 116

/-- A window address lies in a resident shard of one of the pen's epochs. -/
def inShard (s : State) (p w : Nat) : Bool :=
  (List.range 2).any (fun k => (getD [] s.weights.shards (2 * p + k)).any (fun x => decide (x.addr ≤ w) && decide (w < x.addr + 149504 * x.planes)))

/-- The region code of a window address of a pen (R492). -/
def regionCode (s : State) (p w : Nat) : Nat :=
  if inShard s p w then 1 else if (kvRegion s p).has w then 3 else if (prefixRegion s p).has w then 4 else if (journalRegion s p).has w then 5
  else if (checkpointRegion s p).has w then 6
  else if s.droves.any (fun e => e.2.st != 0 && e.2.pen == p && decide (e.2.addr ≤ w) && decide (w < e.2.addr + e.2.size)) then 2
  else 7

/-- The pen whose window holds an HBM address, with the window address (R243). -/
def lineWindow (s : State) (a : Nat) : Option (Nat × Nat) :=
  (List.range 16).findSome? (fun p => (windowOf (extents s p) a 0).map (fun w => (p, w)))

/-- The region code of an HBM line: that of the pen whose window holds it (R243, R492). -/
def lineRegion (s : State) (a : Nat) : Nat := match lineWindow s a with
  | some (p, w) => regionCode s p w
  | none => 7

end Sys2Proof.Machine
end

