-- ==== Sys2Proof/Machine/Hbm.lean ====
section
/-! DEFINITION. Retiring an HBM pseudo-channel (R259, R260). -/

namespace Sys2Proof.Machine

/-- The stack pseudo-channel that holds a device address: 16 a port, by 256-byte units (R240, R241). -/
def pcOf (a : Nat) : Nat := 16 * (a / 0x800000000 % 4) + a / 256 % 16

/-- The HBM port of a stack pseudo-channel. -/
def portOfPc (stack pc : Nat) : Nat := 4 * stack + pc / 16

/-- Capacity of a port whose pseudo-channel has retired: 22.5 GiB. -/
def shortPort : Nat := 0x5A0000000

/-- An extent of any pen reaches above 22.5 GiB in a port. -/
def reachesTop (s : State) (q : Nat) : Bool :=
  (List.range 16).any (fun p => (extents s p).any (fun e => e.1 == q && decide (shortPort < e.2.1 + e.2.2)))

/-- Show the state of a retirement. -/
def retireState (s : State) (stack st pc : Nat) : State :=
  wr0 (wr0 s (hbmPg stack) F.HBM_RETIRE_STATE_STATE st) (hbmPg stack) F.HBM_RETIRE_STATE_PC pc

/-- The check of R260. A port that has lost a pseudo-channel has no units left to copy into, so a second one is blocked too,
and a request while a copy or its switch is in progress waits for nothing and is dropped (DESIGN CHOICE, log entry 18). -/
def startRetire (s : State) (stack pc : Nat) : State :=
  let q := portOfPc stack pc
  let st := rd s (hbmPg stack) F.HBM_RETIRE_STATE_STATE
  if st = 1 ∨ st = 2 ∨ rdBit s (hbmPg stack) F.HBM_RETIRED (pc / 32) (pc % 32) then s
  else if reachesTop s q ∨ bit s.hbmShort q then
    logWrite (errEvent (retireState s stack 3 pc) (hbmPg stack) 3) (hbmPg stack) 0x31 0xFF [(32, pc)]
  else retireState s stack 1 pc

/-- The mapping switches (R260 step 3): the port holds 22.5 GiB. -/
def switchRetired (s : State) (stack pc : Nat) : State :=
  let q := portOfPc stack pc
  let lost := fun (a : Nat) => a / 0x800000000 == q && decide (shortPort ≤ a % 0x800000000)
  let s := (s.setMem (s.mem.filter (fun e => !lost e.1))).setFresh (s.fresh.filter (fun e => !lost e.1))
  let s := s.setHbmShort (s.hbmShort ||| 2 ^ q)
  let s := wrBit s (hbmPg stack) F.HBM_RETIRED (pc / 32) (pc % 32) true
  let s := wr0 s (hbmPg stack) F.HBM_CAP (rd s (hbmPg stack) F.HBM_CAP - 24)
  let s := s.setCare { s.care with turned := putD 0 s.care.turned stack 0 }
  errEvent (retireState s stack 0 pc) (hbmPg stack) 4

/-- An active drove names the port. -/
def portActive (s : State) (q : Nat) : Bool := s.droves.any (fun e => e.2.st == 3 && e.2.ports.any (fun r => r.1 == q))

/-- RETIRE_COPY_DONE (R260): the copy ends. -/
def execRetireCopyDone (stack : Fin 8) (s : State) : Host.Outcome State Fault Refusal :=
  let pc := rd s (hbmPg stack) F.HBM_RETIRE_STATE_PC
  if rd s (hbmPg stack) F.HBM_RETIRE_STATE_STATE = 1 then
    .next (if portActive s (portOfPc stack pc) then retireState s stack 2 pc else switchRetired s stack pc)
  else .next s

/-- At a page tick of flock `k` its share of a waiting retirement is done; the mapping, which the port has one of, switches once every
flock whose drove names the port has had its page tick (R260; DEDUCED, log entry 18). -/
def pageRetired (s : State) (k : Nat) : State :=
  forEach s (List.range 8) (fun s stack =>
    let pc := rd s (hbmPg stack) F.HBM_RETIRE_STATE_PC
    let q := portOfPc stack pc
    if rd s (hbmPg stack) F.HBM_RETIRE_STATE_STATE = 2 then
      let turned := getD 0 s.care.turned stack ||| 2 ^ k
      let waits := s.droves.any (fun e => e.2.st == 3 && e.2.ports.any (fun r => r.1 == q) && !bit turned e.2.flock)
      if waits then s.setCare { s.care with turned := putD 0 s.care.turned stack turned } else switchRetired s stack pc
    else s)

/-- Timebase units of an hour. -/
def hourUnits : Nat := 3600 * 16000000000

/-- A corrected line of a pseudo-channel: the one that makes PC_CE_LIMIT within an hour retires it (R259). -/
def countCe (s : State) (a : Nat) : State :=
  let stack := a / 0x800000000 / 4
  let key := 64 * stack + pcOf a
  let ts := (s.tally.tb :: getD [] s.care.ces key).filter (fun t => decide (s.tally.tb < t + hourUnits))
  let s := s.setCare { s.care with ces := insKey s.care.ces key ts }
  if rd s (hbmPg stack) F.HBM_CFG ≤ ts.length then startRetire s stack (pcOf a) else s

/-- An uncorrectable error in a line that has had one since reset recurs on re-read, whatever failed in between (R259; DEDUCED, log
entry 18). -/
def countUe (s : State) (a : Nat) : State :=
  if s.care.ues.contains a then startRetire s (a / 0x800000000 / 4) (pcOf a)
  else s.setCare { s.care with ues := s.care.ues ++ [a] }

end Sys2Proof.Machine
end

