-- ==== Sys2Proof/Machine/Clock.lean ====
section
/-! DEFINITION. The cycles of a tick, the events that wait for theirs, and which of them is due (R22, R23, R25, R38, R122, R160,
R168, R172, R173, R192, R194, R203 to R205, R218, R245, R331, R332). -/

namespace Sys2Proof.Machine

/-! ## Ticks in cycles (R203 to R205, R214, R218) -/

/-- Timebase units of `n` cycles at performance state `p`, rounded up. -/
def unitsOf (n p : Nat) : Nat := ceilDiv (n * 16000) (freqOf p)

/-- A stretch quantum in timebase units (R203). -/
def quantum (p : Nat) : Nat := unitsOf 256 p

/-- N in force. -/
def tickN (s : State) : Nat := rd s tallyPg F.TICK_CFG_N

/-- Design performance state in force. -/
def tickP (s : State) : Nat := rd s tallyPg F.TICK_CFG_PSTATE

/-- U in timebase units (R203). -/
def tickU (s : State) : Nat := unitsOf (tickN s * 64) (tickP s)

/-- A drove runs the rounds that its share mask names (R218). -/
def runsIn (d : Drove) (r : Nat) : Bool := bit d.shareMask (r % d.shareP)

/-- The drove of a flock that runs in its round, or its first active one in a round that no drove names (R218). -/
def flockDrove (s : State) (k : Nat) : Option Drove :=
  let ds := (getFlock s k).entries.map (getDrove s)
  (ds.find? (fun d => runsIn d (getFlock s k).round)).orElse (fun _ => ds.head?)

/-- Whether the current tick is the last of flock `k`'s step. -/
def lastTick (s : State) (k : Nat) : Bool :=
  match flockDrove s k with
  | some d => (getFlock s k).pos + 1 == d.k
  | none => false

/-- E_j of the current tick of flock `k`, cycles. -/
def tickE (s : State) (k : Nat) : Nat :=
  match flockDrove s k with
  | some d => d.ticks.getD (getFlock s k).pos 0
  | none => 0

/-- The work deadline of flock `k` in cycles at the design state, with `q` quanta of stretch. -/
def deadline (s : State) (k q : Nat) : Nat :=
  match flockDrove s k with
  | some d => if lastTick s k then d.n * 64 + q * 256 - d.commit else d.n * 64 + q * 256
  | none => 0

/-- The flocks that are stepping. -/
def stepping (s : State) : List Nat := (List.range 16).filter (fun k => (getFlock s k).phase == 3)

/-- Unpaused core cycles of the tick in progress, from its fire to the next one (R203 to R205, R445, R447). -/
def tickSpan (s : State) : Nat :=
  let stop := s.tally.next.getD (s.tally.fire + tickU s)
  (stop - s.tally.fire + s.pause.saved - s.pause.extra) * freqOf s.power.state / 16000 - s.pause.taken

/-- Unpaused cycles of the tick, never fewer than a fold has issued in. -/
def tickLength (s : State) : Nat := s.folds.foldl (fun m e => max m e.2.next) (tickSpan s)

/-- The device cycle at which the tick in progress ends. -/
def tickStop (s : State) : Nat := s.pause.base + tickLength s

/-- The cycle of the tick of a device cycle. -/
def tickCycle (s : State) (c : Nat) : Nat := c - s.pause.base

/-- The first array-cycle boundary at or after a device cycle: array cycles start at cycle 0 of the tick (R26). -/
def arrayBoundary (s : State) (c : Nat) : Nat := s.pause.base + roundUp (c - s.pause.base) 32

/-- The last cycle in which a booking may use its port; a hop of the mesh comes within 64 cycles (R22, R153). -/
def lastUse (b : Book) : Nat := if b.port = 7 then b.c1 + 64 else b.c1

/-- The tally unit fires ticks: LOCKED or RUN (R209). -/
def ticking (s : State) : Bool := rd s tallyPg F.TALLY_STATE_STATE == 2 || rd s tallyPg F.TALLY_STATE_STATE == 3

/-- A step runs on the fold. -/
def foldSteps (s : State) (f : Nat) : Bool :=
  match foldFlock s f with
  | some k => (getFlock s k).phase == 3
  | none => false

/-- A fold that still issues bundles in this tick: neither TEND, SEND nor a stop has ended its issue (R157, R192, R225). -/
def issuing (s : State) (f : Nat) : Bool :=
  foldSteps s f && !(getFold s f).halted && rd s (foldPg f) F.SEQ_STATUS_ENDED == 0

/-- The folds that still issue. -/
def issuers (s : State) : List Nat := (s.folds.map (·.1)).filter (issuing s)

/-- How far the tick has come, as a device cycle: the next bundle of the fold that is furthest behind, or the bundle whose syllables
are still being taken, or the end of the tick once no fold issues (DEDUCED, log entry 87). -/
def clock (s : State) : Nat :=
  match (issuers s).map (fun f => s.pause.base + (getFold s f).next) ++ (s.folds.filter (fun e => !e.2.todo.isEmpty)).map (·.2.now) with
  | [] => tickStop s
  | n :: ns => ns.foldl min n

/-! ## The events that wait (R168, R169, R172, R173, R245, R331) -/

/-- A transfer's data may come late: that of an HBM read alone (R23, R247). -/
def Xfer.maybeLate (x : Xfer) : Bool := !x.hwr && x.port != 0

/-- The cycle of a conversion's next event: its latch, its delivery or its add (R168). -/
def convTime (k : Conv) : Nat := if k.data.isNone then k.op.lat else if k.delivered then k.op.lat + 48 else k.op.lat + 40

/-- The cycle of a rounding operation's next event: the end of its resolve window or its delivery (R172). -/
def trndTime (t : Trnd) : Nat := if t.ended then t.c + 32 + 4 * t.w else t.c + 12 + 4 * t.w

/-- The cycles of a fold's events that happen on time. -/
def fixedTimes (x : Fold) : List Nat :=
  x.convs.map convTime ++ x.trnds.map trndTime ++ x.combines.map (fun k => k.c + 32) ++ x.switches.map (fun w => w.2.1)
    ++ (x.xfers.filter (fun t => !t.maybeLate)).map (fun t => t.vis + 1)

/-- The cycles at which a fold's HBM reads have become visible; their data may be late, and no other transfer's (R23, R247). -/
def landTimes (x : Fold) : List Nat := (x.xfers.filter (·.maybeLate)).map (fun t => t.vis + 1)

/-- A slot of a link every s_p cycles (R327). -/
def slotCycles (p : Nat) : Nat := ceilDiv (12 * freqOf p) 1000

/-- The schedule entries that act in the current tick: drove table entry, index and entry. -/
def tickEntries (s : State) : List (Nat × Nat × LinkEntry) :=
  ((stepping s).flatMap (fun k => (getFlock s k).entries.flatMap (fun e =>
    if runsIn (getDrove s e) (getFlock s k).round then
      (((getDrove s e).links).zipIdx.filter (fun p => p.1.pos == (getFlock s k).pos)).map (fun p => (e, p.2, p.1))
    else [])))

/-- The key of a schedule entry. -/
def entryKey (e : Nat × Nat × LinkEntry) : Nat := 65536 * e.1 + e.2.1

/-- The visible cycle of flit `k` of a receive entry (R331). -/
def flitVis (s : State) (e : Nat × Nat × LinkEntry) (k : Nat) : Nat :=
  s.pause.base + (e.2.2.cycle - (e.2.2.count - 1 - k) * slotCycles (getDrove s e.1).pstate)

/-- The flits that have arrived for a receive entry. -/
def gotFlits (s : State) (e : Nat × Nat × LinkEntry) : Nat := getD 0 (getD Link.init s.links e.2.2.link).got (entryKey e)

/-- The receive entries of this tick that still await flits. -/
def awaiting (s : State) : List (Nat × Nat × LinkEntry) :=
  (tickEntries s).filter (fun e => e.2.2.kind == 4 && decide (gotFlits s e < e.2.2.count))

/-- The cycles from which the flits that have arrived, or that the device still awaits, are visible (R331, R332). -/
def linkTimes (s : State) : List Nat :=
  s.links.flatMap (fun e => e.2.landing.map (fun x => x.vis + 1)) ++ (awaiting s).map (fun e => flitVis s e (gotFlits s e) + 1)

/-- The cycles of the events that happen on time. -/
def onTime (s : State) : List Nat := s.folds.flatMap (fun e => fixedTimes e.2)

/-- The cycles of the data that may be late. -/
def lateable (s : State) : List Nat := s.folds.flatMap (fun e => landTimes e.2) ++ linkTimes s

/-- No event waits for a cycle before `t`. -/
def noneBefore (s : State) (t : Nat) : Bool := (onTime s).all (fun u => decide (t ≤ u)) && (lateable s).all (fun u => decide (t ≤ u))

/-- The passing set of an array that applies at the boundary which has just passed (R59). -/
def dueTrims (s : State) (y : Arr) : Option Candidates := (y.win.bind (·.closed)).filter (fun c => c.due == s.tally.fires)

/-- A page tick has begun, and its actions of cycle 0 are still to come (R231). -/
def pageDue (s : State) : Bool := s.tally.paged == 0 && (List.range 16).any (fun k => (getFlock s k).phase == 2)

/-- The role code of a fold that serves a slot (R381, R400). -/
def roleServing : Nat := 0

/-- A passing set of a serving fold waits to be applied at the boundary that has just passed: trims change at a tick boundary, before
anything of the tick happens (R50, R59). -/
def trimsDue (s : State) : Bool :=
  s.folds.any (fun e => rd s (foldPg e.1) F.FOLD_ROLE_ROLE == roleServing && e.2.arrays.any (fun a => (dueTrims s a.2).isSome))

/-- An event of cycle `t` may happen now: the trims of the boundary are in force, the tick has come so far, and every earlier event has
happened (R23, R50, R194). -/
def due (s : State) (t : Nat) : Bool := !trimsDue s && decide (t ≤ clock s) && noneBefore s t

/-- Data of a cycle before `t` is awaited, so that the count of cycles does not reach `t` (R247, R332). -/
def stalledBefore (s : State) (t : Nat) : Bool := (lateable s).any (fun u => decide (u < t))

/-- Every event of the tick has happened, but for those that late data keeps waiting (R332). -/
def eventsDone (s : State) : Bool := (onTime s).all (fun t => decide (tickStop s < t) || stalledBefore s t)

/-- A flit booked in the tick has entered its link, or late data keeps its slot from coming (R328, R332, R335). -/
def slotPast (s : State) (x : OutFlit) : Bool := decide (tickStop s ≤ x.enter) || stalledBefore s x.enter

/-- Every flit booked in the tick has entered its link, but for those that came late to be forwarded (R328, R334). -/
def slotsDone (s : State) : Bool := s.links.all (fun e => e.2.sched.all (slotPast s) && e.2.fwd.all (fun x => x.late || slotPast s x))


/-- Everything that the tick brings has happened: its events, its slots, and the syllables of the bundles issued (log entry 87). -/
def tickQuiet (s : State) : Bool := eventsDone s && slotsDone s && s.folds.all (fun e => e.2.todo.isEmpty)

end Sys2Proof.Machine
end

