-- ==== Sys2Proof/Machine/Spares.lean ====
section
/-! DEFINITION. Fold roles, suspects, and the choice of a spare (R15, R368, R376 to R378, R381, R388, R521). -/

namespace Sys2Proof.Machine

/-! ## Roles (R381, R400) -/

/-- SPARE. -/
def roleSpare : Nat := 1
/-- FILLING. -/
def roleFilling : Nat := 2
/-- TESTING. -/
def roleTesting : Nat := 3
/-- QUARANTINED. -/
def roleQuarantined : Nat := 4
/-- RETIRED. -/
def roleRetired : Nat := 5

/-- The role of a physical fold. -/
def roleOf (s : State) (f : Nat) : Nat := rd s (foldPg f) F.FOLD_ROLE_ROLE

/-- The physical folds of a die. -/
def foldsOf (die : Nat) : List Nat := (List.range 34).map (· + 34 * die)

/-- The spares of a die in state SPARE, ascending. -/
def sparesOf (s : State) (die : Nat) : List Nat := (foldsOf die).filter (fun f => roleOf s f == roleSpare)

/-- Show the spares of both dies in HEFT_SPARE_CD0 and HEFT_SPARE_CD1 (R19). -/
def showSpares (s : State) : State :=
  let a := sparesOf s 0
  let b := sparesOf s 1
  let s := wr0 (wr0 s iodPg F.HEFT_SPARE_CD0_FOLD1 (a.getD 0 0)) iodPg F.HEFT_SPARE_CD0_VALID1 (b2n (decide (0 < a.length)))
  let s := wr0 (wr0 s iodPg F.HEFT_SPARE_CD0_FOLD2 (a.getD 1 0)) iodPg F.HEFT_SPARE_CD0_VALID2 (b2n (decide (1 < a.length)))
  let s := wr0 (wr0 s iodPg F.HEFT_SPARE_CD1_FOLD1 (b.getD 0 0)) iodPg F.HEFT_SPARE_CD1_VALID1 (b2n (decide (0 < b.length)))
  wr0 (wr0 s iodPg F.HEFT_SPARE_CD1_FOLD2 (b.getD 1 0)) iodPg F.HEFT_SPARE_CD1_VALID2 (b2n (decide (1 < b.length)))

/-- Give a fold a role, with the slot it serves or is filled for. -/
def setRole (s : State) (f role : Nat) (slot : Option Nat) : State :=
  let s := wr0 s (foldPg f) F.FOLD_ROLE_ROLE role
  let s := wr0 s (foldPg f) F.FOLD_ROLE_SLOT (slot.getD 0)
  let s := wr0 s (foldPg f) F.FOLD_ROLE_SLOTV (b2n slot.isSome)
  showSpares s

/-- Quarantine a fold; a second quarantine since reset retires it (R388). -/
def quarantine (s : State) (f : Nat) : State :=
  if rd s (foldPg f) F.FOLD_ROLE_QUAR = 1 then setRole s f roleRetired none
  else setRole (wr0 s (foldPg f) F.FOLD_ROLE_QUAR 1) f roleQuarantined none

/-- What ROT_STATE shows of a die: 0 idle, 1 filling, 2 testing (R401). -/
def setRot (s : State) (die st f : Nat) : State :=
  if die = 0 then wr0 (wr0 s testPg F.ROT_STATE_CD0 st) testPg F.ROT_STATE_FOLD0 f
  else wr0 (wr0 s testPg F.ROT_STATE_CD1 st) testPg F.ROT_STATE_FOLD1 f

/-! ## A failed slot (R377, Composition of the device) -/

/-- Slot `k` has failed: no further step of a drove that uses it commits. -/
def failSlot (s : State) (k : Nat) : State :=
  let s := if k < 32 then wrBit s testPg F.SLOT_FAILED_LO 0 k true else wrBit s testPg F.SLOT_FAILED_HI 0 (k - 32) true
  forEach s (List.range 16) (fun s q =>
    let x := getFlock s q
    if x.entries.any (fun e => bit (getDrove s e).folds k) then putFlock s q { x with stalled := true } else s)

/-! ## The choice of a spare (R377, R378, R382) -/

/-- Bytes of a full fill (R382). -/
def fillBytes : Nat := 12582912

/-- Start filling spare `sp` for slot `k` of fold `f`. -/
def startFill (s : State) (sp f k why : Nat) : State :=
  let s := s.setCare { s.care with fills := s.care.fills ++ [{ spare := sp, fold := f, slot := k, why := why, left := fillBytes, done := false, due := false }] }
  setRole s sp roleFilling (some k)

/-- Drop the fill of a spare. -/
def dropFill (s : State) (sp : Nat) : State := s.setCare { s.care with fills := s.care.fills.filter (fun x => x.spare != sp) }

/-- The planned fill of a spare is given up, and its die's rotation is idle (R377, R401). -/
def abandonFill (s : State) (x : Fill) : State := setRot (dropFill (bump s testPg F.ROT_ABANDON) x.spare) (dieOf x.spare) 0 0

/-- No spare is available: the suspect replays on the same fold; when a located suspect recurs there the fold is quarantined and the
slot fails (R377). -/
def noSpare (s : State) (f k : Nat) : State :=
  if (getFold s f).sameHw then failSlot (quarantine s f) k
  else modFold (bump s testPg F.SUSPECT_SAME_HW) f (fun x => { x with sameHw := true })

/-- The lowest spare of a die in state SPARE whose boot calibration has run (R377, R517). -/
def freeSpare (s : State) (die : Nat) : Option Nat := (sparesOf s die).find? (fun g => !(getFold s g).calBoot)

/-- The spare that a die gives next: a free one, else the one that a rotation fills, whose fill is abandoned (R377). -/
def nextSpare (s : State) (die : Nat) : Option Nat × State :=
  match freeSpare s die with
  | some sp => (some sp, s)
  | none => match s.care.fills.find? (fun x => dieOf x.spare == die && x.why == 0) with
    | some x => (some x.spare, abandonFill s x)
    | none => (none, s)

/-- A located suspect's fill of the step that runs on fold `f`, on the same die. -/
def stepFill (s : State) (f : Nat) (x : Fill) : Bool :=
  dieOf x.spare == dieOf f && x.why == 1 && !x.due && s.care.located.contains x.fold && foldFlock s x.fold == foldFlock s f

/-- Insert a fill by ascending slot. -/
def bySlot (x : Fill) : List Fill → List Fill
  | [] => [x]
  | y :: ys => if x.slot < y.slot then x :: y :: ys else y :: bySlot x ys

/-- Insert a number in ascending order. -/
def byNumber (n : Nat) : List Nat → List Nat
  | [] => [n]
  | m :: ms => if n < m then n :: m :: ms else m :: byNumber n ms

/-- The located slots of one die and step have its spares in ascending logical order; a spare that moves to another slot starts its fill
again (R378; DEDUCED, log entry 110). -/
def orderSpares (s : State) (f : Nat) : State :=
  let mine := (s.care.fills.filter (stepFill s f)).foldr bySlot []
  let given := (mine.map (·.spare)).foldr byNumber []
  forEach s (mine.zip given) (fun s (x, sp) =>
    if x.spare = sp then s
    else
      let s := s.setCare { s.care with fills := s.care.fills.map (fun y => if y.slot = x.slot then { y with spare := sp, left := fillBytes, done := false } else y) }
      setRole s sp roleFilling (some x.slot))

/-- The fill that slot `k` takes the spare of: the one of the highest higher slot of the same step (R378). -/
def higherFill (s : State) (f k : Nat) : Option Fill :=
  ((s.care.fills.filter (fun x => stepFill s f x && decide (k < x.slot))).foldr bySlot []).getLast?

/-- Take a spare for slot `k`, served by fold `f`. A planned fill for the slot itself ends: its spare is free again, unless it is the one
that is taken (R377, R378, R521; DEDUCED, log entry 110). -/
def takeSpare (s : State) (f k why : Nat) : State :=
  if s.care.fills.any (fun x => x.slot == k && x.why != 0) then
    s.setCare { s.care with fills := s.care.fills.map (fun x => if x.slot = k then { x with why := min x.why why } else x) }
  else
    let (sp, s) := nextSpare s (dieOf f)
    let s := forEach s (s.care.fills.filter (fun x => x.slot == k)) (fun s x => setRole (abandonFill s x) x.spare roleSpare none)
    match sp with
    | some sp => orderSpares (startFill s sp f k why) f
    | none => match (if why = 1 then higherFill s f k else none) with
      | some x => orderSpares (startFill (noSpare (dropFill s x.spare) x.fold x.slot) x.spare f k why) f
      | none => noSpare s f k

/-- Pause cycles of a fold since reset (R306). -/
def foldPause (s : State) (f : Nat) : Nat :=
  rd s (foldPg f) F.RES_PAUSE_CYC + rd s (foldPg f) F.CROOK_PAUSE_CYC + rd s (foldPg f) F.ACC_REPEAT_CYC

/-! ## Suspects (R376, R377) -/

/-- A suspect is located on a fold: a spare is taken for the slot that the fold serves, once in an attempt. -/
def locate (s : State) (f : Nat) : State :=
  match slotOfFold s f with
  | none => s
  | some k =>
    if s.care.located.contains f then s
    else takeSpare (s.setCare { s.care with located := s.care.located ++ [f] }) f k 1

/-- A suspect is raised on a fold: it counts, and the step that runs there is suspect. -/
def raiseSuspect (s : State) (f : Nat) : State := markSuspect (bump s (foldPg f) F.SUSPECT_CNT) f

/-- A located suspect on a fold (R376). -/
def locatedSuspect (s : State) (f : Nat) : State := locate (raiseSuspect s f) f

/-- A suspect on a fold is a data suspect; it is located when the fold had another in its last 1,024 steps (R376). -/
def classifyData (s : State) (f : Nat) : State :=
  let x := getFold s f
  let step := (foldFlock s f).map (fun k => (getFlock s k).num) |>.getD 0
  let s := if 0 < x.lastData ∧ step + 1 - x.lastData < 1024 then locate s f else s
  modFold s f (fun y => { y with lastData := step + 1 })

/-- A data suspect from a fold (R376). -/
def dataSuspect (s : State) (f : Nat) : State := classifyData (raiseSuspect s f) f

end Sys2Proof.Machine
end

