-- ==== Sys2Proof/Machine/Sequencer.lean ====
section
/-! DEFINITION. The sequencer of a fold, contract faults and tile clashes, recipe flags, and the overrun prediction. -/

namespace Sys2Proof.Machine

/-! ## The segment store (R155, R161) -/

/-- Read `n` bytes of a fold's segment store. -/
def segBytes (s : State) (f off n : Nat) : List Byte := (List.range n).map (fun j => getD emptyByte s.seg (f * 262144 + off + j))

/-- Bundle `i` as a 128-bit number (R161). -/
def bundleAt (s : State) (f i : Nat) : Nat := leNat (segBytes s f (16 * i) 16)

/-- Conversion descriptor. -/
def convDesc (s : State) (f i : Nat) : Nat := leNat (segBytes s f (0x30000 + 16 * i) 16)
/-- Rounding descriptor. -/
def roundDesc (s : State) (f i : Nat) : Nat := leNat (segBytes s f (0x34000 + 16 * i) 16)
/-- Load descriptor. -/
def loadDesc (s : State) (f i : Nat) : Nat := leNat (segBytes s f (0x36000 + 8 * i) 8)
/-- Transfer descriptor. -/
def xferDesc (s : State) (f i : Nat) : Nat := leNat (segBytes s f (0x37000 + 16 * i) 16)
/-- Vector descriptor. -/
def vecDesc (s : State) (f i : Nat) : Nat := leNat (segBytes s f (0x3B000 + 16 * i) 16)
/-- Loop table entry. -/
def loopEntry (s : State) (f i : Nat) : Nat := leNat (segBytes s f (0x3D000 + 8 * i) 8)
/-- Control block. -/
def controlBlock (s : State) (f : Nat) : Nat := leNat (segBytes s f 0x3D080 16)

/-! ## Contract faults and clashes (R142, R192 to R194) -/

/-- Stop the drove on a fold: it is stalled on the device, and its entry in the log names why (R124, R142, R193, R229). -/
def stopDrove (s : State) (f why : Nat) : State :=
  let dg := match foldDrove s f with
    | some d => leNat (d.digest.take 4)
    | none => 0
  let s := errEvent s (foldPg f) 6
  let s := logWrite s (foldPg f) 0x14 0xFF [(32, why), (36, dg)]
  match foldFlock s f with
  | some k => modFlock s k (fun x => { x with stalled := true })
  | none => s

/-- Raise a contract fault at a bundle and syllable; `port` is the port of a PORT_OVERCOMMIT (R192, R193). -/
def contractFault (s : State) (f code bundle syl port : Nat) : State :=
  let x := getFold s f
  let pg := foldPg f
  let rec_ : StepFaultRec := { clash := false, code := code, bundle := bundle, syl := syl }
  let again := x.oldFaults.contains rec_
  let s := bump s pg F.CONTRACT_CNT
  let s := if x.faultTick then s else
    let s := wr0 s pg F.CONTRACT_INFO_CODE code
    let s := wr0 s pg F.CONTRACT_INFO_BUNDLE bundle
    let s := wr0 s pg F.CONTRACT_INFO_SYL syl
    let s := wr0 s pg F.CONTRACT_INFO_RECUR (b2n again)
    let s := wr0 s pg F.CONTRACT_INFO_PORT port
    wr0 s pg F.CONTRACT_TALLY s.tally.num
  let s := if code = 7 ∧ 7 ≤ port then bump s (nocPg (dieOf f)) F.NOC_OVERCOMMIT_CNT else s
  let s := errEvent s pg 4
  let s := logWrite s pg 0x12 0xFF [(32, code), (34, bundle), (36, syl)]
  let s := modFold s f (fun y => { y with faultTick := true, faults := y.faults ++ [rec_] })
  let s := foldStepFault s f 3
  if again then stopDrove (wr0 s pg F.SEQ_STATUS_CONTRACT_STOP 1) f 3 else s

/-- Raise a contract fault of the last bundle issued. -/
def faultHere (s : State) (f code syl : Nat) : State := contractFault s f code (getFold s f).lastPc syl 0

/-- Raise a tile clash (R141, R142): the tile is poisoned and the step faults. -/
def clash (s : State) (f tile cause named : Nat) : State :=
  let x := getFold s f
  let pg := foldPg f
  let held := (x.tile tile).tag
  let rec_ : StepFaultRec := { clash := true, code := cause, bundle := x.lastPc, syl := tile }
  let again := x.oldFaults.contains rec_
  let s := bump s pg F.TILE_CLASH_CNT
  let s := if x.clashTick then s else
    let s := wr0 s pg F.TILE_CLASH_INFO_TILE tile
    let s := wr0 s pg F.TILE_CLASH_INFO_CAUSE cause
    let s := wr0 s pg F.TILE_CLASH_INFO_HELD held
    let s := wr0 s pg F.TILE_CLASH_INFO_NAMED named
    wr0 s pg F.TILE_CLASH_INFO_RECUR (b2n again)
  let s := errEvent s pg 3
  let s := logWrite s pg 0x11 0xFF [(32, tile), (33, cause), (34, held), (35, named), (36, x.lastPc)]
  let s := modTile s f tile (fun t => { t with poison := true })
  let s := modFold s f (fun y => { y with clashTick := true, faults := y.faults ++ [rec_] })
  let s := foldStepFault s f 4
  if again then stopDrove (wr0 s pg F.ACC_STATUS_CLASH_STOP 1) f 2 else s

/-- What stops a syllable at its issue. -/
inductive Stop where
  /-- a contract fault: code, syllable and port (R192) -/
  | contract (code syl port : Nat)
  /-- a tile clash: tile, cause and tag named (R141) -/
  | clash (tile cause tag : Nat)
  deriving DecidableEq, Repr

/-- Raise what stops a syllable of the last bundle issued. -/
def stopAt (s : State) (f : Nat) : Stop → State
  | .contract code syl port => contractFault s f code (getFold s f).lastPc syl port
  | .clash tile cause tag => clash s f tile cause tag

/-- Raise everything that stops a syllable of the last bundle issued (R194). -/
def stopAll (s : State) (f : Nat) (stops : List Stop) : State := forEach s stops (fun s x => stopAt s f x)

/-- A syllable at its issue: everything that its checks find is raised, and nothing found lets `go` be its effect (R192, R194). -/
def issueWith (s : State) (f : Nat) (stops : List Stop) (go : State) : State := match stops with
  | [] => go
  | _ => stopAll s f stops

/-- A check of R192 or R141: what it finds when its condition holds. -/
def stopIf (b : Bool) (x : Stop) : List Stop := if b then [x] else []

/-- The checks of a syllable: its fields, and the other rules of R192 and R141, of which every one that breaks counts (R192, R194). A rule
that hangs on a field which names nothing is not checked (DESIGN CHOICE, log entry 88). -/
def allStops (fields rules : List Stop) : List Stop := fields ++ rules

/-! ## Recipe flags (R95, R96) -/

/-- The flag byte field of a layer tag. -/
def flagField (tag : Nat) : Field := match tag % 4 with
  | 0 => F.RECIPE_FLAGS0
  | 1 => F.RECIPE_FLAGS1
  | 2 => F.RECIPE_FLAGS2
  | _ => F.RECIPE_FLAGS3

/-- Set recipe flag bits of a layer on a fold; bits that were clear are a transition (R96). -/
def setRecipe (s : State) (f tag mask : Nat) : State :=
  let pg := foldPg f
  let old := rd s pg (flagField tag) (tag / 4)
  let add := mask &&& (old ^^^ 0xFF)
  if add = 0 then s
  else
    let s := wr s pg (flagField tag) (tag / 4) (old ||| mask)
    let s := wr0 s pg F.RECIPE_LAST_TAG tag
    let s := wr0 s pg F.RECIPE_LAST_BITS add
    logWrite s pg 0x10 0xFF [(32, (slotOfFold s f).getD 0), (34, tag), (36, add)]

/-- STRAY_SPILL. -/
def flagSpill : Nat := 1
/-- RANGE_PRESSURE. -/
def flagRange : Nat := 2
/-- RESOLVE_OVERFLOW. -/
def flagResolve : Nat := 4
/-- BOUND_VOID. -/
def flagVoid : Nat := 8
/-- REPEAT_STORM. -/
def flagStorm : Nat := 16
/-- NONFINITE. -/
def flagNonfinite : Nat := 32

/-! ## The overrun prediction (R124, R219) -/

/-- The cycle at which work of `n` Resolve cycles that may start at cycle `t` ends, past the cycles booked ahead of it (R121). -/
def finishAt : List (Nat × Nat) → Nat → Nat → Nat
  | [], t, n => t + n
  | (b, k) :: r, t, n =>
    if t + n ≤ b then t + n
    else if b + k ≤ t then finishAt r t n
    else finishAt r (b + k) (n - (b - t))

/-- The cycle of the end of a rounding operation's resolve window (R172). -/
def windowStop (t : Trnd) : Nat := t.c + 12 + 4 * t.w

/-- The rounding operation whose resolve window ends next: the least end, the first issued among equals (R122). -/
def nextWindow (x : Fold) : Option Trnd :=
  x.trnds.foldl (fun m t => if t.ended then m else match m with
    | some u => if windowStop t < windowStop u then some t else m
    | none => some t) none

/-- What of the Resolve unit's bookings lies before cycle `stop`: a pause that begins there freezes the rest (R160). -/
def booksBefore (bs : List (Nat × Nat)) (stop : Nat) : List (Nat × Nat) :=
  (bs.filter (fun b => decide (b.1 < stop))).map (fun b => (b.1, min b.2 (stop - b.1)))

/-- The cycle at which the resolve work of the rounding operations issued up to cycle `c` ends, in the order of issue, when the unit is
free from `e` on and `bs` is booked ahead of it (R119, R121). -/
def workStop (x : Fold) (bs : List (Nat × Nat)) (c e : Nat) : Nat :=
  (x.trnds.filter (fun t => decide (t.c ≤ c))).foldl
    (fun e t => if t.left = 0 then e else finishAt bs (max (t.c + 12) e) (ceilDiv t.left 16)) e

/-- The end of the resolve window of rounding operation `t`: the fold after it, and the cycles for which work of `t` goes on past it.
A pause lets that work, and all before it, end at the window's end; the bookings beyond it are frozen meanwhile (R121, R122, R160). -/
def endWindow (x : Fold) (t : Trnd) : Fold × Nat :=
  let stop := windowStop t
  let fin := workStop x (booksBefore x.resBooks stop) t.c x.resolveEnd
  let n := if t.left = 0 then 0 else fin - stop
  let rest := if t.left = 0 then x.trnds else x.trnds.map (fun u => if u.c ≤ t.c then { u with left := 0 } else u)
  ({ x with
      trnds := rest.map (fun u => if u.c = t.c then { u with ended := true } else u)
      resolveEnd := if t.left = 0 then x.resolveEnd else min fin stop }, n)

/-- The windows of a fold still to end, in the order in which they end: cycle and the pause that the end will ask for. -/
def windowsToCome : Nat → Fold → List (Nat × Nat)
  | 0, _ => []
  | n + 1, x => match nextWindow x with
    | none => []
    | some t => let (y, k) := endWindow x t; (windowStop t, k) :: windowsToCome n y

/-- The resolve pauses of the device that are known to come: for each cycle at which windows end, the largest requirement of any fold
(R122, R219). -/
def resolveOver (s : State) : Nat :=
  let all := s.folds.map (fun e => windowsToCome e.2.trnds.length e.2)
  let ends := (all.flatten.map (·.1)).dedup
  (ends.map (fun c => (all.map (fun ws => ((ws.filter (fun r => r.1 == c)).map (·.2)).sum)).foldl max 0)).sum

/-- The lateness of awaited link data that replays have made known (R332). -/
def linkLate (s : State) : Nat := s.links.foldl (fun m e => max m e.2.lateBy) 0

/-- Pause cycles still owed to work whose length is known: the pause in progress, resolve work beyond windows to come, and link data that
a replay makes late (R219, R332). -/
def knownOwed (s : State) : Nat := owedCycles s + resolveOver s + linkLate s

/-- When unpaused cycle `n` of the tick comes, timebase units after the fire. -/
def cycleTime (s : State) (n : Nat) : Nat := unitsOf (n + s.pause.taken + knownOwed s) s.power.state + s.pause.extra - s.pause.saved

/-- The quanta that flock `k` needs: its predicted end past its deadline (R219). -/
def neededQuanta (s : State) (k : Nat) : Nat :=
  let stop := cycleTime s (tickE s k)
  let limit := unitsOf (deadline s k 0) (tickP s)
  min 64 (ceilDiv (stop - limit) (quantum (tickP s)))

/-- Raise HOLD with `q` quanta; a HOLD raised is never lowered (R219). After the cutoff it stretches nothing (R220). -/
def raiseHold (s : State) (q : Nat) : State :=
  if q ≤ s.tally.hold then s
  else if s.tally.cutoff then bump s tallyPg F.HOLD_LATE
  else bump (s.setTally { s.tally with hold := q }) tallyPg F.HOLD_RAISED

/-- `n` cycles of a droop stretch have passed: each adds one period to the time of the tick (R445, R446). -/
def stretchBy (s : State) (n : Nat) : State :=
  (s.setPower { s.power with stretched := s.power.stretched + n }).setPause { s.pause with extra := s.pause.extra + unitsOf n s.power.state }

/-- The time that an active droop stretch has taken until now. How many cycles that were is what happened, so it is free (R446). -/
def passStretch (s : State) : State :=
  if s.power.droop then
    let (v, s) := drawNat s
    stretchBy s v
  else s

/-- The overrun prediction of one beat (R219); it counts the time that a droop stretch has taken (R446). -/
def predict (s : State) : State :=
  let s := passStretch s
  if s.tally.cutoff then s
  else forEach s (stepping s) (fun s k => raiseHold s (neededQuanta s k))

/-! ## Issue (R156 to R163) -/

/-- Insert a loop into a list with the later last bundle first. -/
def insLoop (l : Loop) : List Loop → List Loop
  | [] => [l]
  | x :: xs => if x.last < l.last then l :: x :: xs else x :: insLoop l xs

/-- Loop table entry `i` of a fold. -/
def loopOf (s : State) (f i : Nat) : Loop :=
  let e := loopEntry s f i
  { idx := i, first := bits e 0 14, last := bits e 16 14, left := bits e 32 16, iter := 0 }

/-- The loop table entries of a fold in use (R155). -/
def loopsInUse (s : State) (f : Nat) : List Loop := ((List.range 16).filter (fun i => loopEntry s f i != 0)).map (loopOf s f)

/-- A loop table entry in use that no bundle issues beside (R192 code 10). -/
def badLoop (l : Loop) : Bool := decide (l.last < l.first) || decide (12287 < l.last) || decide (12287 < l.first)

/-- The loop stack after it has pushed the entries whose first bundle is `p`; none when a rule of R192 code 10 breaks. -/
def pushLoops (s : State) (f p : Nat) : Option (List Loop) :=
  let x := getFold s f
  let all := loopsInUse s f
  let ls := (all.filter (fun l => l.first == p && !(x.loops.any (fun y => y.idx == l.idx)))).foldr insLoop []
  if all.any badLoop || ls.any (fun l => l.left == 0) then none
  else
    let st := ls.foldl (fun acc l => l :: acc) x.loops
    if 4 < st.length then none else some st

/-- The stack and the next bundle after bundle `p` has issued (R158). -/
def popLoops (p : Nat) : List Loop → List Loop × Nat
  | [] => ([], p + 1)
  | l :: ls =>
    if l.last = p then
      if 1 < l.left then ({ l with left := l.left - 1, iter := l.iter + 1 } :: ls, l.first)
      else popLoops p ls
    else (l :: ls, p + 1)

/-- A fold comes before another in the order of R192 code 7: the earlier cycle, then the lower logical slot. -/
def comesFirst (s : State) (f g : Nat) : Bool :=
  let a := (getFold s f).next
  let b := (getFold s g).next
  decide (a < b) || (a == b && decide ((slotOfFold s f).getD (64 + f) ≤ (slotOfFold s g).getD (64 + g)))

/-- A pause holds back the beat at cycle `n` of the tick, unless the beat has begun. -/
def held (s : State) (n : Nat) : Bool := frozen s && s.pause.beat != n + 1

/-- Whether a fold issues its next bundle now: no trims and no page tick wait for the boundary before it, it still issues, no pause holds
it back, every event before it has happened, every syllable issued before it has been taken, and no other fold's bundle comes before its
own (R23, R156, R186, R192, R332). -/
def canIssue (s : State) (f : Nat) : Bool :=
  let x := getFold s f
  !trimsDue s && !pageDue s && issuing s f && !held s x.next && noneBefore s (s.pause.base + x.next + 1)
    && s.folds.all (fun e => e.2.todo.isEmpty) && (issuers s).all (comesFirst s f)

/-- The bundle issued last in this tick ends issue, though its TEND or SEND command has not been taken yet. -/
def endPending (s : State) (f : Nat) : Bool :=
  let b := (getFold s f).word
  rd s (foldPg f) F.SEQ_STATUS_ISSUING == 1 && (bit b 127 || bit b 126)

/-- Issue stops at once (R192 code 10). -/
def seqFault (s : State) (f p : Nat) : State :=
  let s := wr0 (contractFault s f 10 p 0 0) (foldPg f) F.SEQ_STATUS_ISSUING 0
  modFold s f (fun y => { y with halted := true })

/-- A beat in which a fold issues begins; after 16 of them the device pauses for the throttle level's beats (R448). -/
def startBeat (s : State) (n : Nat) : State :=
  if s.pause.beat = n + 1 then s
  else
    let b := s.pause.beats + 1
    let s := s.setPause { s.pause with beat := n + 1, beats := if 16 ≤ b then 0 else b }
    if 16 ≤ b then askPause s (pauseKey 9000 causeThrottle) (4 * s.power.throttle) else s

/-- The syllables that the commands of a bundle take, in the order of R163; a bundle with a reserved header bit has none. -/
def syllables (b : Nat) : List Nat := if bits b 120 6 = 0 then [0, 1, 2, 3] else []

/-- The syllable at the head of a fold's bundle has been dealt with. -/
def dropSyllable (s : State) (f : Nat) : State := modFold s f (fun x => { x with todo := x.todo.drop 1 })

/-- Deal with the syllable at the head when no command stands for it: a reserved opcode raises BAD_OPCODE, and a no-operation of
zeros does nothing (R162, R192 code 1). -/
def settleSyllable (f : Nat) (s : State) (y : Nat) : State :=
  let x := getFold s f
  let w := syllableWord x.word y
  if x.todo.head? = some y then
    if w = 0 then dropSyllable s f
    else if reservedOp y w then contractFault (dropSyllable s f) f 1 x.lastPc y 0
    else s
  else s

/-- Deal with every syllable at the head that no command stands for. -/
def settleTodo (s : State) (f : Nat) : State := [0, 1, 2, 3].foldl (settleSyllable f) s

/-- The bundle at index `p` issues with loop stack `st` (R156 to R163). -/
def issueAt (s : State) (f p : Nat) (st : List Loop) : State :=
  let x := getFold s f
  let pg := foldPg f
  let b := bundleAt s f p
  let (st', pc') := popLoops p st
  let iter := match st with
    | l :: _ => l.iter
    | [] => 0
  let s := startBeat s x.next
  let s := putFold s f { x with
    pc := pc', lastPc := p, iter := iter, loops := st', now := s.pause.base + x.next, next := x.next + 4, word := b, todo := syllables b }
  let s := bump s pg F.BUNDLE_CNT
  let s := wr0 s pg F.SEQ_PC p
  let s := wr0 s pg F.SEQ_STATUS_ISSUING 1
  let s := wr0 s pg F.SEQ_STATUS_DEPTH st'.length
  let s := if bits b 120 6 = 0 then s else contractFault s f 1 p 0 0
  let last := match foldFlock s f with
    | some k => lastTick s k
    | none => false
  let s := if bit b 126 && (!last || !st'.isEmpty) then seqFault s f p else s
  predict (settleTodo s f)

/-- Issue the next bundle of a fold (R156 to R163). -/
def issueBundle (s : State) (f : Nat) : State :=
  let p := (getFold s f).pc
  if 12287 < p then seqFault s f p
  else match pushLoops s f p with
    | none => seqFault s f p
    | some st => issueAt s f p st

/-- BUNDLE_ISSUE (R156): a parity failure of the segment store read or the bundle fetch is a data suspect (R374). -/
def execBundleIssue (fold : Fin 68) (parityFail : Bool) (s : State) : Host.Outcome State Fault Refusal :=
  if canIssue s fold && !endPending s fold then
    let s := if parityFail then dataSuspect (errEvent s (foldPg fold) 2) fold else s
    .next (issueBundle s fold)
  else .next s

/-- The bundle issued last in this tick carries TEND or SEND, and its end has not been taken. -/
def endsIssue (s : State) (f b : Nat) : Bool :=
  foldSteps s f && bit (getFold s f).word b && rd s (foldPg f) F.SEQ_STATUS_ENDED == 0 && decide (0 < (getFold s f).next)

/-- End bundle issue for the tick (R157): TEND is bit 127 of the bundle, SEND bit 126. -/
def endIssue (s : State) (f b : Nat) : State :=
  if endsIssue s f b then
    let s := wr0 (wr0 s (foldPg f) F.SEQ_STATUS_ISSUING 0) (foldPg f) F.SEQ_STATUS_ENDED 1
    modFold s f (fun y => { y with endCycle := y.next })
  else s

/-- TEND (R157). -/
def execTend (fold : Fin 68) (s : State) : Host.Outcome State Fault Refusal := .next (endIssue s fold 127)

/-- SEND (R157): it ends issue for the tick and the step; a SEND outside the last tick is the fault that the bundle's issue raised. -/
def execSend (fold : Fin 68) (s : State) : Host.Outcome State Fault Refusal := .next (endIssue s fold 126)

/-- A command takes the syllable of the bundle issued last that carries its word, once the syllables before it have been taken (R161, R163). -/
def takes (s : State) (f slot word : Nat) : Bool :=
  let x := getFold s f
  foldSteps s f && x.todo.head? == some slot && syllableWord x.word slot == word

/-- The effect of a syllable that its command takes. -/
def syllable (s : State) (f slot word : Nat) (go : State → State) : State :=
  if takes s f slot word then settleTodo (go (dropSyllable s f)) f else s

/-- A no-operation syllable whose other bits are not all zero raises BAD_OPCODE (R162). -/
def noOperation (s : State) (f syl rest : Nat) : State :=
  syllable s f syl rest (fun s => if rest = 0 then s else faultHere s f 1 syl)

/-- ANOP (R162). -/
def execAnop (fold : Fin 68) (rest : BitVec 28) (s : State) : Host.Outcome State Fault Refusal :=
  .next (noOperation s fold 0 rest.toNat)

/-- LNOP (R162). -/
def execLnop (fold : Fin 68) (rest : BitVec 20) (s : State) : Host.Outcome State Fault Refusal :=
  .next (noOperation s fold 1 rest.toNat)

/-- VEC opcode 0 (R162). -/
def execVecNop (fold : Fin 68) (rest : BitVec 26) (s : State) : Host.Outcome State Fault Refusal :=
  .next (noOperation s fold 2 rest.toNat)

/-- MNOP (R162). -/
def execMnop (fold : Fin 68) (rest : BitVec 28) (s : State) : Host.Outcome State Fault Refusal :=
  .next (noOperation s fold 3 rest.toNat)

end Sys2Proof.Machine
end

