-- ==== Sys2Proof/Machine/Num.lean ====
section
/-! DEFINITION. Exact numbers, the rounding functions of the spec, and the number formats of R73 to R79. -/

namespace Sys2Proof.Machine

/-- `pow2(e)` of R83: 2 to a whole power, exact. -/
def pow2 (e : Int) : Rat :=
  if 0 ≤ e then ((2 ^ e.toNat : Nat) : Rat) else 1 / ((2 ^ (-e).toNat : Nat) : Rat)

/-- The nearest whole number, ties to even: `rne` of R108. -/
def rne (x : Rat) : Int :=
  let f := x.floor
  let d := x - (f : Rat)
  if d < 1 / 2 then f
  else if 1 / 2 < d then f + 1
  else if f % 2 = 0 then f else f + 1

/-- `round_ne(x, f)` of R49: the nearest multiple of 2^−f, ties to the even multiple. -/
def roundNe (x : Rat) (f : Nat) : Rat := (rne (x * pow2 f) : Rat) / pow2 f

/-- The smallest whole number not below `x`. -/
def ceilR (x : Rat) : Int := x.ceil

/-- The smallest natural number not below `x` (0 for a negative `x`). -/
def ceilN (x : Rat) : Nat := x.ceil.toNat

/-- `clamp(x, lo, hi)` of R108. -/
def clamp (x lo hi : Int) : Int := if x < lo then lo else if hi < x then hi else x

/-- The magnitude of an exact value. -/
def absR (x : Rat) : Rat := if x < 0 then -x else x

/-- The larger of two exact values. -/
def maxR (x y : Rat) : Rat := if x < y then y else x

/-- The exact sum of a list. -/
def sumR : List Rat → Rat
  | [] => 0
  | x :: xs => x + sumR xs

/-- The exact sum of a list of whole numbers. -/
def sumZ : List Int → Int
  | [] => 0
  | x :: xs => x + sumZ xs

/-- Bit length of a natural number below `2^fuel`. -/
def bitLen (x : Nat) : Nat := if x = 0 then 0 else Nat.log2 x + 1

/-- `floor(log2 x)` for a positive exact value. -/
def floorLog2 (x : Rat) : Int :=
  let e : Int := (bitLen x.num.natAbs : Int) - (bitLen x.den : Int)
  if pow2 e ≤ x then e else e - 1

/-- The whole square root of a natural number, from above: the least `r` with `n ≤ r * r`. -/
def ceilSqrt (n : Nat) : Nat :=
  let r := Nat.sqrt n
  if r * r = n then r else r + 1

/-- The exact square root of a non-negative value, rounded upwards to a multiple of `1 / u`: the least `k / u` with `x ≤ (k / u)²`. -/
def sqrtUp (x : Rat) (u : Nat) : Nat :=
  if x ≤ 0 then 0 else ceilSqrt (ceilN (x * (u * u : Nat)))

/-! ## Four-bit codes (R74, R75) -/

/-- The grid value of a 4-bit code as INT4 (R74). -/
def int4Grid (c : Nat) : Int := toSigned c 4

/-- The grid value of a 4-bit code as FP4 (R74): twice its E2M1 value; code 0b1000 is zero (R75). -/
def fp4Grid (c : Nat) : Int :=
  let mag : Int := match c % 8 with
    | 0 => 0 | 1 => 1 | 2 => 2 | 3 => 3 | 4 => 4 | 5 => 6 | 6 => 8 | _ => 12
  if c % 16 < 8 then mag else -mag

/-- The FP4 code of a grid value; zero is 0b0000 (R75). -/
def fp4OfGrid (g : Int) : Nat :=
  let mag : Nat := match g.natAbs with
    | 0 => 0 | 1 => 1 | 2 => 2 | 3 => 3 | 4 => 4 | 6 => 5 | 8 => 6 | _ => 7
  if g < 0 then 8 + mag else mag

/-! ## Rounding to a format (R83, R109) -/

/-- The output and operand formats. The numbers are the codes of R171. -/
inductive Fmt where
  | int4 | fp4 | int8 | fp8 | bf16
  deriving DecidableEq, Repr

/-- `fo` of R171; 5 to 7 are reserved. -/
def Fmt.ofCode : Nat → Option Fmt
  | 0 => some .int4
  | 1 => some .fp4
  | 2 => some .int8
  | 3 => some .fp8
  | 4 => some .bf16
  | _ => none

/-- The least exponent of a binary format's normal numbers, its fraction bits, and its largest exponent. -/
structure FloatFmt where
  /-- exponent bias -/
  bias : Int
  /-- fraction bits -/
  man : Nat
  /-- exponent field width -/
  ebits : Nat
  deriving DecidableEq, Repr

/-- BF16 (R77). -/
def bf16F : FloatFmt := ⟨127, 7, 8⟩

/-- FP32 (R77). -/
def fp32F : FloatFmt := ⟨127, 23, 8⟩

/-- The unit in the last place of a positive value, as an exponent, with gradual underflow. -/
def ulpExp (emin : Int) (man : Nat) (x : Rat) : Int :=
  let e := floorLog2 x
  (if e < emin then emin else e) - man

/-- The nearest multiple of the format's unit at `x`, ties to even; unlimited exponent upwards. -/
def roundFloat (emin : Int) (man : Nat) (x : Rat) : Rat :=
  if x = 0 then 0
  else
    let u := ulpExp emin man (absR x)
    (rne (x / pow2 u) : Rat) * pow2 u

/-- `round_fmt(v, f)` of R83 and R109: the value of the format nearest to `v`. FP4 rounds to the value whose E2M1 mantissa bit is 0 on a tie. The result may lie outside the format's finite range; `satFmt` limits it. -/
def roundFmt (v : Rat) : Fmt → Rat
  | .int4 => (rne v : Rat)
  | .int8 => (rne v : Rat)
  | .fp4 => roundFloat 0 1 v
  | .fp8 => roundFloat (-6) 3 v
  | .bf16 => roundFloat (-126) 7 v

/-- The largest finite value of each format (R109). -/
def fmtMax : Fmt → Rat
  | .int4 => 7
  | .fp4 => 6
  | .int8 => 127
  | .fp8 => 448
  | .bf16 => (2 - pow2 (-7)) * pow2 127

/-- The least finite value of each format (R109). -/
def fmtMin : Fmt → Rat
  | .int4 => -8
  | .fp4 => -6
  | .int8 => -128
  | .fp8 => -448
  | .bf16 => -((2 - pow2 (-7)) * pow2 127)

/-- `sat` of R109. -/
def satFmt (v : Rat) (f : Fmt) : Rat :=
  if fmtMax f < v then fmtMax f else if v < fmtMin f then fmtMin f else v

/-- The encoding of a finite non-zero value of a binary format. -/
def packFloat (f : FloatFmt) (x : Rat) : Nat :=
  let a := absR x
  let e := floorLog2 a
  let emin : Int := 1 - f.bias
  let sgn := if x < 0 then 2 ^ (f.man + f.ebits) else 0
  if e < emin then sgn + ((a / pow2 (emin - f.man)).floor).toNat
  else sgn + (e + f.bias).toNat * 2 ^ f.man + ((a / pow2 (e - f.man)).floor).toNat - 2 ^ f.man

/-- E4M3 as a binary format with bias 7 and 3 fraction bits (R77). -/
def fp8F : FloatFmt := ⟨7, 3, 4⟩

/-- The encoding of a value of a format (R74, R77); zero is +0 (R109). -/
def encodeFmt (v : Rat) : Fmt → Nat
  | .int4 => ofSigned v.floor 4
  | .int8 => ofSigned v.floor 8
  | .fp4 => fp4OfGrid (v * 2).floor
  | .fp8 => if v = 0 then 0 else packFloat fp8F v
  | .bf16 => if v = 0 then 0 else packFloat bf16F v

/-- `round_out(m, te, eo, fo)` of R109, as the value delivered. -/
def roundOut (m te eo : Int) (fo : Fmt) : Rat :=
  satFmt (roundFmt ((m : Rat) * pow2 (te - eo)) fo) fo

/-! ## Floating-point values (R77, R178) -/

/-- A floating-point value: the quiet NaN of R178, an infinity, or a finite number with its zero's sign. -/
inductive FV where
  | nan
  | inf (neg : Bool)
  | zero (neg : Bool)
  | num (x : Rat)
  deriving DecidableEq, Repr

/-- The value of an encoding of a binary format with infinities (BF16, FP32). -/
def decodeFloat (f : FloatFmt) (w : Nat) : FV :=
  let neg := bit w (f.man + f.ebits)
  let e := bits w f.man f.ebits
  let m := bits w 0 f.man
  let s : Rat := if neg then -1 else 1
  if e = 2 ^ f.ebits - 1 then (if m = 0 then .inf neg else .nan)
  else if e = 0 then (if m = 0 then .zero neg else .num (s * (m : Rat) * pow2 (1 - f.bias - f.man)))
  else .num (s * ((2 ^ f.man + m : Nat) : Rat) * pow2 ((e : Int) - f.bias - f.man))

/-- One rounding of an exact value to a binary format, ties to even, overflow to infinity (R178). `negZero` is the sign of a zero result. -/
def roundToFloat (f : FloatFmt) (x : Rat) (negZero : Bool) : FV :=
  if x = 0 then .zero negZero
  else
    let y := roundFloat (1 - f.bias) f.man x
    let lim := pow2 ((2 ^ f.ebits : Nat) - 1 - f.bias)
    if lim ≤ absR y then .inf (decide (x < 0))
    else if y = 0 then .zero (decide (x < 0))
    else .num y

/-- The encoding of a value; every NaN is the quiet NaN with the sign bit clear (R178). -/
def encodeFloat (f : FloatFmt) : FV → Nat
  | .nan => (2 ^ f.ebits - 1) * 2 ^ f.man + 2 ^ (f.man - 1)
  | .inf neg => (if neg then 2 ^ (f.man + f.ebits) else 0) + (2 ^ f.ebits - 1) * 2 ^ f.man
  | .zero neg => if neg then 2 ^ (f.man + f.ebits) else 0
  | .num x => packFloat f x

/-- The finite value of a floating-point value, when it has one. -/
def FV.fin? : FV → Option Rat
  | .num x => some x
  | .zero _ => some 0
  | _ => none

/-- Whether the value is negative (a zero by its sign). -/
def FV.neg? : FV → Bool
  | .nan => false
  | .inf n => n
  | .zero n => n
  | .num x => decide (x < 0)

/-- The value with its sign reversed. -/
def FV.negate : FV → FV
  | .nan => .nan
  | .inf n => .inf (!n)
  | .zero n => .zero (!n)
  | .num x => .num (-x)

/-- Addition under R178: one rounding; `x − x` and `x + (−x)` give +0. -/
def fAdd (f : FloatFmt) : FV → FV → FV
  | .nan, _ => .nan
  | _, .nan => .nan
  | .inf a, .inf b => if a = b then .inf a else .nan
  | .inf a, _ => .inf a
  | _, .inf b => .inf b
  | .zero a, .zero b => .zero (a && b)
  | .zero _, .num y => .num y
  | .num x, .zero _ => .num x
  | .num x, .num y => roundToFloat f (x + y) false

/-- Subtraction under R178. -/
def fSub (f : FloatFmt) (a b : FV) : FV := fAdd f a b.negate

/-- Multiplication under R178. -/
def fMul (f : FloatFmt) (a b : FV) : FV :=
  let neg := xor a.neg? b.neg?
  match a, b with
  | .nan, _ => .nan
  | _, .nan => .nan
  | .inf _, .zero _ => .nan
  | .zero _, .inf _ => .nan
  | .inf _, _ => .inf neg
  | _, .inf _ => .inf neg
  | .zero _, _ => .zero neg
  | _, .zero _ => .zero neg
  | .num x, .num y => roundToFloat f (x * y) neg

/-- A × B + D, rounded once (R177, R178). -/
def fFma (f : FloatFmt) (a b d : FV) : FV :=
  let neg := xor a.neg? b.neg?
  match a.fin?, b.fin?, d with
  | some x, some y, .num z => roundToFloat f (x * y + z) false
  | some x, some y, .zero nd =>
    if x * y = 0 then .zero (neg && nd) else roundToFloat f (x * y) neg
  | some _, some _, .inf n => .inf n
  | some _, some _, .nan => .nan
  | _, _, _ => fAdd f (fMul f a b) d

/-- The order of two values that are no NaN: `a < b`; zeros are equal. -/
def fLt : FV → FV → Bool
  | .nan, _ => false
  | _, .nan => false
  | .inf a, .inf b => a && !b
  | .inf a, _ => a
  | _, .inf b => !b
  | a, b => decide (a.fin?.getD 0 < b.fin?.getD 0)

/-- VMAX under R178: NaN when either operand is NaN; VMAX(+0, −0) is +0. -/
def fMax (a b : FV) : FV :=
  match a, b with
  | .nan, _ => .nan
  | _, .nan => .nan
  | .zero x, .zero y => .zero (x && y)
  | _, _ => if fLt a b then b else a

/-- VMIN under R178: VMIN(+0, −0) is −0. -/
def fMin (a b : FV) : FV :=
  match a, b with
  | .nan, _ => .nan
  | _, .nan => .nan
  | .zero x, .zero y => .zero (x || y)
  | _, _ => if fLt b a then b else a

/-- The exact value of an FP8 E4M3 code; none for a NaN (R77). -/
def fp8Value (c : Nat) : Option Rat :=
  let s : Rat := if bit c 7 then -1 else 1
  let e := bits c 3 4
  let m := bits c 0 3
  if e = 15 ∧ m = 7 then none
  else if e = 0 then some (s * (m : Rat) * pow2 (-9))
  else some (s * ((8 + m : Nat) : Rat) * pow2 ((e : Int) - 10))

/-- The exact value of a code of a product output format (R74, R77); none for a non-finite value. -/
def fmtValue (c : Nat) : Fmt → Option Rat
  | .int4 => some (int4Grid c : Rat)
  | .fp4 => some ((fp4Grid c : Rat) / 2)
  | .int8 => some (toSigned c 8 : Rat)
  | .fp8 => fp8Value c
  | .bf16 => (decodeFloat bf16F c).fin?

/-! ## Block scales and spans (R76, R79, R83) -/

/-- The scale exponent of an E8M0 code (R76). -/
def e8m0Exp (code : Nat) : Int := (code : Int) - 127

/-- `mmax` of R83. -/
def mmax : Fmt → Rat
  | .int4 => 7
  | .fp4 => 6
  | _ => 127

/-- `pmax` of R83. -/
def pmax : Fmt → Rat
  | .int4 => 7
  | .fp4 => 6
  | _ => 127

/-- `nmin` of R83. -/
def nmin : Fmt → Rat
  | .int4 => -8
  | .fp4 => -6
  | _ => -128

/-- `scale_exp(m, f)` of R83: −127 for 0, else the least `e ≥ −127` with `m ≤ mmax × 2^e`, capped at 127. -/
def scaleExp (m : Rat) (f : Fmt) : Int :=
  if m = 0 then -127
  else
    let e := floorLog2 (m / mmax f)
    let e := if m ≤ mmax f * pow2 e then e else e + 1
    clamp e (-127) 127

/-- Insert a magnitude into a falling list. -/
def insDesc (x : Rat) : List Rat → List Rat
  | [] => [x]
  | y :: ys => if y < x then x :: y :: ys else y :: insDesc x ys

/-- `kth_mag(x, n, j)` of R83: the j-th largest magnitude, counted with repeats; 0 when j > n. -/
def kthMag (xs : List Rat) (j : Nat) : Rat :=
  (xs.foldr (fun x acc => insDesc (absR x) acc) []).getD (j - 1) 0

/-- `grid(u, f)` of R83. -/
def gridOf (u : Rat) : Fmt → Int
  | .fp4 => (u * 2).floor
  | _ => u.floor

/-- The result of `quantise_span` of R83: the scale exponent, the grid values, and the indices of the strays in ascending order. -/
structure Span where
  /-- scale exponent -/
  e : Int
  /-- grid value of each element; 0 for a stray -/
  g : List Int
  /-- indices of the strays, ascending -/
  stray : List Nat
  deriving DecidableEq, Repr

/-- Whether a scaled value is outside the grid of the format (R83). -/
def isStray (v : Rat) (f : Fmt) : Bool := decide (pmax f < v) || decide (v < nmin f)

/-- The span quantised at exponent `e` (the loop of R83). -/
def quantiseAt (xs : List Rat) (f : Fmt) (e : Int) : Span :=
  let vs := xs.map (fun x => x / pow2 e)
  { e := e
    g := vs.map (fun v => if isStray v f then 0 else gridOf (roundFmt v f) f)
    stray := (List.range vs.length).filter (fun i => isStray (vs.getD i 0) f) }

/-- `quantise_span` of R83. `es` is the static exponent when the policy is STATIC. -/
def quantiseSpan (xs : List Rat) (f : Fmt) (k : Nat) (es : Option Int) : Span :=
  match es with
  | some e => quantiseAt xs f e
  | none => quantiseAt xs f (scaleExp (kthMag xs (k + 1)) f)

/-- `d` of R80: 1 for FP4, 0 otherwise. -/
def gridShift : Fmt → Int
  | .fp4 => 1
  | _ => 0

/-- The high half of an INT8 grid value (R100). -/
def splitHi (q : Int) : Int := q / 16

/-- The low half of an INT8 grid value (R100). -/
def splitLo (q : Int) : Int := q % 16

/-- The shared scale exponent of an MXFP4, MXFP8 or INT4-E8M0 block the device writes (R79), clamped to [−127, 127]. -/
def blockExp (amax : Rat) (f : Fmt) : Int :=
  if amax = 0 then -127
  else match f with
    | .fp4 => clamp (floorLog2 amax - 2) (-127) 127
    | .fp8 => clamp (floorLog2 amax - 8) (-127) 127
    | _ => scaleExp amax .int4

end Sys2Proof.Machine
end

