-- ==== Sys2Proof/Machine/Tiles.lean ====
section
/-! DEFINITION. The arithmetic of accumulator tiles: adds with repeats, doubts, combines, images and outputs
(R105 to R118, R135 to R137, R145, R148, R518). -/

namespace Sys2Proof.Machine

/-- Largest element, 2^39 − 1. -/
def elemMax : Int := 2 ^ 39 - 1
/-- Least element, −2^39. -/
def elemMin : Int := -(2 ^ 39)

/-- Whether a value lies in 40 bits. -/
def fits (n : Int) : Bool := decide (elemMin ≤ n) && decide (n ≤ elemMax)

/-- Whether [n − b, n + b] holds both a value inside 40 bits and one outside it (R115). -/
def straddles (n : Int) (b : Nat) : Bool :=
  (decide (n - b < elemMin) || decide (elemMax < n + b)) && decide (elemMin ≤ n + b) && decide (n - b ≤ elemMax)

/-- The doubt at a repeat: 0xFFFF stays (R114). -/
def doubtRepeat (b : Nat) : Nat := if b = 0xFFFF then b else min 0xFFFF (ceilDiv b 256 + 1)

/-- The doubt after an add of `n` units (R114). -/
def doubtAdd (b n : Nat) : Nat := if b = 0xFFFF then b else min 0xFFFF (b + n)

/-- All element keys of a tile. -/
def allKeys : List Nat := List.range 4096

/-- One repeat pass: every element is divided by 256, te rises by 8, and every doubt follows when doubts are kept (R137). -/
def repeatPass (t : Tile) (doubts : Bool) : Tile :=
  { t with
    m := allKeys.foldl (fun m k => putD 0 m k (rne (((getD (0 : Int) t.m k : Int) : Rat) / 256))) []
    b := if doubts then allKeys.foldl (fun b k => putD 0 b k (doubtRepeat (getD 0 t.b k))) [] else t.b
    te := t.te + 8 }

/-- The result of an add: the tile, its repeat passes, and whether it saturated. -/
structure AddResult where
  /-- the tile after the add -/
  tile : Tile
  /-- repeat passes -/
  passes : Nat
  /-- the elements were saturated -/
  sat : Bool
  deriving DecidableEq, Repr

/-- `acc_add` of R108 into row `v`: `sums` and `errs` are the exact contribution and error of each column in value units.
The doubts follow R114 and the exponent-doubt mark R115 when `doubts` is set. The fuel bounds the repeats: te rises by 8 at each. -/
def accAdd (doubts : Bool) (v : Nat) (sums errs : List Rat) : Nat → Tile → Nat → AddResult
  | 0, t, p => { tile := t, passes := p, sat := false }
  | fuel + 1, t, p =>
    let cols := List.range 256
    let n := cols.map (fun c => getD 0 t.m (256 * v + c) + rne (sums.getD c 0 / pow2 t.te))
    let b := cols.map (fun c => if doubts then doubtAdd (getD 0 t.b (256 * v + c)) (ceilN (errs.getD c 0 / pow2 t.te) + 1) else getD 0 t.b (256 * v + c))
    let x := doubts && cols.any (fun c => straddles (n.getD c 0) (b.getD c 0))
    let t := { t with xdoubt := t.xdoubt || x }
    if n.all fits then
      { tile := { t with m := putRun 0 t.m (256 * v) n, b := putRun 0 t.b (256 * v) b }, passes := p, sat := false }
    else if 119 < t.te then
      { tile := { t with
          m := putRun 0 t.m (256 * v) (n.map (fun y => clamp y elemMin elemMax)), b := putRun 0 t.b (256 * v) b,
          sat := true, xdoubt := t.xdoubt || doubts }
        passes := p, sat := true }
    else accAdd doubts v sums errs fuel (repeatPass t doubts) (p + 1)

/-- An add with enough fuel for every te of R105. -/
def accAddFull (doubts : Bool) (v : Nat) (sums errs : List Rat) (t : Tile) : AddResult := accAdd doubts v sums errs 40 t 0

/-! ## Conversions as contributions (R91, R106, R114, R135) -/

/-- Pass weight of a recipe and pass (R106). -/
def passWeight (recipe pass : Nat) : Int := match recipe, pass with
  | 0, _ => 1
  | 1, 0 => 16
  | 2, 0 => 16
  | 3, 0 => 256
  | 3, 1 => 16
  | 3, 2 => 16
  | _, _ => 1

/-- Passes of a recipe. -/
def passCount (recipe : Nat) : Nat := match recipe with
  | 0 => 1
  | 1 => 2
  | 2 => 2
  | _ => 4

/-- Scale exponent sc of column `c` (R91). -/
def scaleOf (d : ConvData) (c : Nat) : Int := d.ea - d.da + d.wexp.getD c 0

/-- Value-unit contribution of a conversion to a column: the exact value or the estimate, and the crook term (R108, R114). -/
def contribution (exact : Bool) (k : Conv) (c : Nat) : Rat :=
  match k.data with
  | none => 0
  | some d =>
    let v : Rat := if exact then (d.exact.getD c 0 : Rat) else d.est.getD c 0
    (passWeight k.op.recipe k.op.pass : Rat) * v * pow2 (scaleOf d c) + d.crook.getD c 0

/-- The error bound of a conversion's estimate in value units (R113, R114). -/
def errorOf (k : Conv) (c : Nat) : Rat :=
  match k.data with
  | none => 0
  | some d => (d.eps * d.step.getD c 0 + 1 / 512) * (passWeight k.op.recipe k.op.pass : Rat) * pow2 (scaleOf d c)

/-- Whether a conversion clipped in a column (R47). -/
def clippedAt (k : Conv) (c : Nat) : Bool :=
  match k.data with
  | none => false
  | some d => k.op.mode != 2 && (d.codes.getD c 64 == 0 || d.codes.getD c 64 == 127)

/-- Columns of the sums of a list of conversions. -/
def sumsOf (exact : Bool) (ks : List Conv) : List Rat :=
  (List.range 256).map (fun c => sumR (ks.map (fun k => contribution exact k c)))

/-- Columns of the summed error bounds. -/
def errsOf (ks : List Conv) : List Rat :=
  (List.range 256).map (fun c => sumR (ks.map (fun k => errorOf k c)))

/-- The void marks of one add of a bounded tile (R518): clipped columns under the saturate policy, and whole rows under
saturated strays or ARR_RANGE_OUT. -/
def voidMarks (v : Nat) (ks : List Conv) (t : Tile) : Tile :=
  let row := ks.any (fun k => match k.data with
    | none => false
    | some d => d.satStrays || d.rangeOut)
  { t with b := (List.range 256).foldl (fun b c =>
      if row || ks.any (fun k => !k.op.clipResolve && clippedAt k c) then putD 0 b (256 * v + c) 0xFFFF else b) t.b }

/-- One add of conversions `ks` into row `v` of a tile (R107, R114, R130, R136). -/
def addRow (v : Nat) (ks : List Conv) (t : Tile) : AddResult :=
  let ref := t.mode == 2
  let r := accAddFull (!ref) v (sumsOf ref ks) (if ref then [] else errsOf ks) t
  let t := if t.mode == 0 then voidMarks v ks r.tile else r.tile
  { r with tile := { t with rows := t.rows ||| 2 ^ v } }

/-! ## The reference tile (R108, R120) -/

/-- The adds of a tile in array-cycle order: groups of conversions of one boundary and row. -/
def addGroups : List Conv → List (Nat × List Conv)
  | [] => []
  | k :: ks =>
    match addGroups ks with
    | (v, g) :: r => if (g.head?.map (fun x => x.op.lat)) = some k.op.lat ∧ v = k.op.row then (v, k :: g) :: r
        else (k.op.row, [k]) :: (v, g) :: r
    | [] => [(k.op.row, [k])]

/-- The tile as its clear left it, without its adds. -/
def clearedTile (te : Int) (mode : Nat) : Tile := { Tile.zero with te := te, te0 := te, mode := mode, open_ := true }

/-- The reference tile over the adds of a tile, from exponent `te0` (R108). -/
def referenceTile (te0 : Int) (ks : List Conv) : Tile :=
  (addGroups ks).foldl (fun t g => (accAddFull false g.1 (sumsOf true g.2) [] t).tile) (clearedTile te0 2)

/-! ## The certification test (R116) -/

/-- The finite values of FP8 in ascending order as multiples of 2^-10, non-negative half. -/
def fp8Codes : List Nat := List.range 127

/-- The midpoints between adjacent finite values of a format, as far as they are needed: positive and negative halves by symmetry. -/
def boundaries : Fmt → List Rat
  | .int4 => (List.range 15).map (fun i => (i : Rat) - 15 / 2)
  | .fp4 => [-5, -7 / 2, -5 / 2, -7 / 4, -5 / 4, -3 / 4, -1 / 4, 1 / 4, 3 / 4, 5 / 4, 7 / 4, 5 / 2, 7 / 2, 5]
  | .int8 => (List.range 255).map (fun i => (i : Rat) - 255 / 2)
  | .fp8 =>
    let h := (List.range 126).map (fun i => (((fp8Value i).getD 0) + ((fp8Value (i + 1)).getD 0)) / 2)
    h ++ h.map (fun x => -x)
  | .bf16 => []

/-- Whether [y − β, y + β] contains a rounding boundary of the format. -/
def boundaryInside (y beta : Rat) (fo : Fmt) : Bool :=
  (boundaries fo).any (fun x => decide (y - beta ≤ x) && decide (x ≤ y + beta))

/-- Whether an element of a certified tile fails the certification test (R116). -/
def certFails (t : Tile) (v c : Nat) (eo : Int) (fo : Fmt) : Bool :=
  let ks := t.convs.filter (fun k => k.op.row == v)
  let m := getD 0 t.m (256 * v + c)
  let b := getD 0 t.b (256 * v + c)
  ks.any (fun k => clippedAt k c) || t.xdoubt || b == 0xFFFF
    || ks.any (fun k => match k.data with | some d => d.rangeOut | none => false)
    || boundaryInside ((m : Rat) * pow2 (t.te - eo)) ((b : Rat) * pow2 (t.te - eo)) fo

/-! ## Combines (R148) -/

/-- The doubt of a combined element at exponent `te`: 0xFFFF stays (R148, R518). -/
def combineDoubt (a b : Tile) (te : Int) (k : Nat) : Nat :=
  let x := getD 0 a.b k
  let y := getD 0 b.b k
  if x = 0xFFFF ∨ y = 0xFFFF then 0xFFFF
  else min 0xFFFF (ceilN ((x : Rat) * pow2 (a.te - te)) + ceilN ((y : Rat) * pow2 (b.te - te)) + 1)

/-- The loop of `red_add` (R148): the exponent, elements, doubts, passes, saturation and straddle. -/
def redLoop (bounded : Bool) (a b : Tile) : Nat → Int → Nat → Bool → AddResult
  | 0, te, p, x => { tile := { a with te := te, xdoubt := x }, passes := p, sat := false }
  | fuel + 1, te, p, x =>
    let n := allKeys.map (fun k => rne ((((getD (0 : Int) a.m k : Int) : Rat) * pow2 a.te + ((getD (0 : Int) b.m k : Int) : Rat) * pow2 b.te) / pow2 te))
    let d := allKeys.map (fun k => if bounded then combineDoubt a b te k else 0)
    let x := x || (bounded && (List.zip n d).any (fun e => straddles e.1 e.2))
    if n.all fits then { tile := { a with te := te, m := putRun 0 [] 0 n, b := putRun 0 [] 0 d, xdoubt := x }, passes := p, sat := false }
    else if 119 < te then
      { tile := { a with te := te, m := putRun 0 [] 0 (n.map (fun y => clamp y elemMin elemMax)), b := putRun 0 [] 0 d, xdoubt := x, sat := true }
        passes := p, sat := true }
    else redLoop bounded a b fuel (te + 8) (p + 1) x

/-- `red_add` (R148). The claim, mode and records are those of the tile in the fold, `a`. -/
def redAdd (a b : Tile) : AddResult :=
  let te := if a.te < b.te then b.te else a.te
  let r := redLoop (a.mode == 0) a b 40 te 0 false
  { r with tile := { r.tile with
      sat := r.tile.sat || a.sat || b.sat, poison := a.poison || b.poison, rows := a.rows ||| b.rows,
      xdoubt := r.tile.xdoubt || a.xdoubt || b.xdoubt, combined := true } }

/-- `tree(p, n)` of R149 with one pass of pairings. -/
def treePass {α : Type} (op : α → α → α) : List α → List α
  | a :: b :: r => op a b :: treePass op r
  | r => r

/-- `tree(p, n)` of R149; the fuel bounds the number of passes. -/
def tree {α : Type} (op : α → α → α) : Nat → List α → List α
  | 0, l => l
  | fuel + 1, l => if l.length ≤ 1 then l else tree op fuel (treePass op l)

/-! ## Tile images (R145) -/

/-- Byte 1 of a tile image. -/
def imageMarks (t : Tile) : Nat :=
  b2n t.sat + 2 * b2n t.xdoubt + 4 * b2n t.poison + 8 * b2n t.open_ + 16 * b2n t.carried + 32 * (t.mode % 4)

/-- The bytes of a tile image; with doubts it is 28,928 bytes long, without 20,736. -/
def imageBytes (t : Tile) (tileNo slot tally : Nat) (doubts : Bool) : List Byte :=
  toLe 1 (ofSigned t.te 8) ++ toLe 1 (imageMarks t) ++ toLe 1 t.tag ++ toLe 1 0 ++ toLe 2 (t.layer % 1024) ++ toLe 2 t.rows
    ++ toLe 2 (slot % 64) ++ toLe 2 tileNo ++ toLe 8 tally ++ toLe 236 0
    ++ (allKeys.map (fun k => toLe 5 (ofSigned (if t.poison then 0 else getD 0 t.m k) 40))).flatten
    ++ (if doubts then (allKeys.map (fun k => toLe 2 (if t.poison then 0 else getD 0 t.b k))).flatten else [])

/-- Read a tile image. -/
def imageTile (bs : List Byte) (doubts : Bool) : Tile :=
  let f := fun o n => leNat ((bs.drop o).take n)
  let mk := f 1 1
  { m := allKeys.foldl (fun m k => putD 0 m k (toSigned (f (256 + 5 * k) 5) 40)) []
    b := if doubts then allKeys.foldl (fun m k => putD 0 m k (f (20736 + 2 * k) 2)) [] else []
    te := toSigned (f 0 1) 8, te0 := toSigned (f 0 1) 8, sat := bit mk 0, xdoubt := bit mk 1, poison := bit mk 2, open_ := bit mk 3, carried := bit mk 4,
    mode := bits mk 5 2, tag := f 2 1, layer := f 4 2 % 1024, rows := f 6 2, windowed := false, combined := false, convs := [] }

/-- The doubts a TSND sends: elements that depend on a conversion clipped under the resolve policy carry 0xFFFF (R518). -/
def sendMarks (t : Tile) : Tile :=
  if t.mode = 0 then
    { t with b := allKeys.foldl (fun b k =>
        if t.convs.any (fun x => x.op.row == k / 256 && x.op.clipResolve && clippedAt x (k % 256)) then putD 0 b k 0xFFFF else b) t.b }
  else t

/-! ## Outputs (R109, R171) -/

/-- The bytes of one row of outputs in a format. -/
def packRow (codes : List Nat) : Fmt → List Byte
  | .int4 => (List.range 128).map (fun j => BitVec.ofNat 8 (codes.getD (2 * j) 0 % 16 + 16 * (codes.getD (2 * j + 1) 0 % 16)))
  | .fp4 => (List.range 128).map (fun j => BitVec.ofNat 8 (codes.getD (2 * j) 0 % 16 + 16 * (codes.getD (2 * j + 1) 0 % 16)))
  | .int8 => codes.map (fun c => BitVec.ofNat 8 c)
  | .fp8 => codes.map (fun c => BitVec.ofNat 8 c)
  | .bf16 => (codes.map (fun c => toLe 2 c)).flatten

/-- Bytes of one row of outputs (R171). -/
def rowBytes : Fmt → Nat
  | .int4 => 128
  | .fp4 => 128
  | .int8 => 256
  | .fp8 => 256
  | .bf16 => 512

end Sys2Proof.Machine
end

