-- ==== Sys2Proof/Machine/Ports.lean ====
section
/-! DEFINITION. The checks of the contract that several operations share: ports, vector store hazards, claims, masks,
memory codes and the current ramp (R140, R141, R153, R186, R191, R192, R234, R256 to R258). -/

namespace Sys2Proof.Machine

/-! ## Ports (R153, R191) -/

/-- Bytes that a list of bookings asks of a port in a cycle. -/
def askedAt (bs : List Book) (port inst x : Nat) : Nat :=
  ((bs.filter (fun b => b.port == port && b.inst == inst && decide (b.c0 ≤ x) && decide (x ≤ b.c1))).map (·.bytes)).sum

/-- Whether a new booking would pass a port's capacity in some cycle. -/
def overbooked (bs : List Book) (n : Book) (cap : Nat) : Bool :=
  let starts := n.c0 :: (bs.filter (fun b => b.port == n.port && b.inst == n.inst && decide (n.c0 ≤ b.c0) && decide (b.c0 ≤ n.c1))).map (·.c0)
  starts.any (fun x => decide (cap < askedAt bs n.port n.inst x + n.bytes))

/-- The mesh outputs that a transfer between two ends of the mesh uses: a router forwards in 2 cycles a hop. A booking of the mesh names
its ends in its instance, 256 × source + destination (R21). -/
def meshUses (b : Book) : List Book :=
  (Config.meshRoute (b.inst / 256) (b.inst % 256)).map (fun e => { b with inst := e.1, c0 := b.c0 + 2 * e.2, c1 := b.c1 + 2 * e.2 })

/-- A transfer would pass the capacity of a mesh output; one that is alone on the mesh passes none (R21, R191). -/
def meshOver (bs : List Book) (n : Book) (cap : Nat) : Bool := match bs with
  | [] => false
  | _ => (meshUses n).any (fun u => overbooked (bs.flatMap meshUses) u cap)

/-- The bookings of the mesh, which all folds share. -/
def meshBooks (s : State) : List Book := s.folds.flatMap (fun e => e.2.books.filter (fun b => b.port == 7))

/-- Keep a booking on a fold. -/
def addBook (s : State) (f : Nat) (b : Book) : State := modFold s f (fun x => { x with books := x.books ++ [b] })

/-- The bookings of the edge ports, which all folds share. -/
def edgeBooks (s : State) : List Book := s.folds.flatMap (fun e => e.2.books.filter (fun b => b.port == 8))

/-- The bookings that a new booking of fold `f` shares its port with. -/
def sharedBooks (s : State) (f : Nat) (b : Book) : List Book :=
  if b.port = 7 then meshBooks s else if b.port = 8 then edgeBooks s else (getFold s f).books

/-- A new booking of fold `f` would pass its port's capacity. -/
def overPort (s : State) (f : Nat) (b : Book) (cap : Nat) : Bool :=
  if b.port = 7 then meshOver (sharedBooks s f b) b cap else overbooked (sharedBooks s f b) b cap

/-! ## Vector store hazards (R191) -/

/-- Granules of a byte range. -/
def granules (a n : Nat) : Nat × Nat := (a / 64, ceilDiv (a % 64 + n) 64)

/-- Whether two granule ranges meet. -/
def meets (p q : VsPend) : Bool := decide (p.lo < q.lo + q.n) && decide (q.lo < p.lo + p.n)

/-- A read of bytes in the cycles from `c0` to before `c1`, in which no write may land before `mark`. -/
def vsRead (a n c0 c1 mark : Nat) : VsPend := ⟨(granules a n).1, if n = 0 then 0 else (granules a n).2, c0, c1, mark, false⟩

/-- A write of bytes from its issue to its usable cycle `c1`, landing at `mark`. -/
def vsWrite (a n c0 c1 mark : Nat) : VsPend := ⟨(granules a n).1, if n = 0 then 0 else (granules a n).2, c0, c1, mark, true⟩

/-- Two accesses of the same granules break R191: a read while a write is pending, a write that lands while a read remains, or two
pending writes. -/
def clashes (p q : VsPend) : Bool :=
  0 < p.n && 0 < q.n && meets p q && (match p.wr, q.wr with
    | false, false => false
    | true, true => decide (p.c0 < q.c1) && decide (q.c0 < p.c1)
    | false, true => decide (p.c0 < q.c1) && (decide (q.c0 < p.c1) || decide (q.mark < p.mark))
    | true, false => decide (q.c0 < p.c1) && (decide (p.c0 < q.c1) || decide (p.mark < q.mark)))

/-- A new access breaks a vector store rule with an earlier operation's (R191, R192 code 8). -/
def vsHazard (x : Fold) (q : VsPend) : Bool := x.vs.any (clashes q)

/-- Record an access. -/
def pendVs (x : Fold) (q : VsPend) : Fold :=
  if q.n = 0 then x else { x with vs := x.vs.filter (fun p => decide (x.now < max p.c1 p.mark)) ++ [q] }

/-- Record an operation of the last bundle that is in flight until step cycle `stop` and ends by time alone. -/
def occupy (x : Fold) (stop syl : Nat) : Fold :=
  { x with busy := x.busy.filter (fun p => decide (x.now < p.stop)) ++ [⟨stop, x.lastPc, syl⟩] }

/-! ## Claims (R140, R141) -/

/-- The segment of the drove active on a fold declares the fold time-shared (R144). -/
def timeShared (s : State) (f : Nat) : Bool := match foldDrove s f, slotOfFold s f with
  | some d, some sl => d.segs.any (fun g => g.slot == sl && g.shared)
  | _, _ => false

/-- The carry copy or the context interval occupies the tile file at this cycle of the tick (R143, R144). -/
def carryBusy (s : State) (f : Nat) : Bool :=
  let c := tickCycle s (getFold s f).now
  match foldFlock s f with
  | none => false
  | some k =>
    let w := getFlock s k
    rd s (foldPg f) F.ACC_CARRIED != 0 && w.pos == 0
      && (if timeShared s f && w.step == 0 then decide (c < 3872) else decide (c < 256))

/-- An add or a combine to a tile is in flight. -/
def addInFlight (x : Fold) (t : Nat) : Bool :=
  x.convs.any (fun k => k.op.tile == t && !k.op.masked && !k.op.noAdd) || x.combines.any (fun k => k.tile == t)

/-- The cause of the clash that an operation raises on a tile, none when its claim admits it (R141 causes 1, 2 and 7, the
first of them when several hold; DESIGN CHOICE, log entry 127). -/
def claimCause (s : State) (f t tag : Nat) : Option Nat :=
  let y := (getFold s f).tile t
  if !y.open_ then some 1
  else if y.tag ≠ tag then some 2
  else if y.carried && carryBusy s f then some 7
  else none

/-! ## Lanes (R186, R187) -/

/-- Whether a lane is masked on a fold. -/
def laneMasked (x : Fold) (valid : Bool) (lane : Nat) : Bool := valid && !bit x.applied lane

/-! ## Memory codes (R257, R258) -/

/-- The fold whose staging slice holds a device address. -/
def stagingFold (a : Nat) : Option Nat :=
  if 0x10000000000 ≤ a ∧ a < 0x10000000000 + 0x1000000 * 68 then some ((a - 0x10000000000) / 0x1000000) else none

/-- The stack whose port holds a device address. -/
def hbmStack (a : Nat) : Option Nat := if a < 0x10000000000 then some (a / 0x800000000 / 4) else none

/-- The page that counts a line's errors, with its corrected and uncorrectable counters. -/
def lineCounters (a : Nat) : Option (Nat × Field × Field) :=
  match stagingFold a, hbmStack a with
  | some f, _ => some (foldPg f, F.STG_CE_CNT, F.STG_UE_CNT)
  | none, some k => some (hbmPg k, F.HBM_CE_CNT, F.HBM_UE_CNT)
  | none, none => none

/-- The region code of a line in error (R492): 0 for staging. -/
def errorRegion (s : State) (a : Nat) : Nat := if (stagingFold a).isSome then 0 else lineRegion s a

/-- The data of a poisoned line is lost: what it holds is open until it is rewritten (R258; DESIGN CHOICE, log entry 101). -/
def loseData (s : State) (a : Nat) : State :=
  let (bs, s) := freeBytes s 64
  droveBytes s a bs

/-- Keep that a line is poisoned: the Drover acts on lines of KV blocks and prefix tables, a rewrite ends any other (R258). -/
def noteBad (s : State) (region a : Nat) : State :=
  if region = 3 ∨ region = 4 then s.setCare { s.care with lines := s.care.lines ++ [(region, a)] }
  else if s.care.bad.contains (region, a) then s
  else s.setCare { s.care with bad := s.care.bad ++ [(region, a)] }

/-- The shards whose HBM copies hold a lost line are damaged, so that their repair rewrites it (R258, R278). -/
def damageShards (s : State) (a : Nat) : State := match lineWindow s a with
  | none => s
  | some (p, w) => forEach s [0, 1] (fun s k =>
    let xs := getD [] s.weights.shards (2 * p + k)
    if xs.any (fun x => decide (x.addr ≤ w) && decide (w < x.addr + 149504 * x.planes)) then
      wr (s.setWeights { s.weights with shards := putD [] s.weights.shards (2 * p + k) (xs.map (fun x =>
        if x.addr ≤ w ∧ w < x.addr + 149504 * x.planes then { x with damaged := true } else x)) }) (penPg p) F.EPOCH0_DAMAGED k 1
    else s)

/-- A weight copy or drove image has a lost line that is still to be rewritten (R258). -/
def rewriting (s : State) : Bool := s.care.bad.any (fun e => e.1 == 1 || e.1 == 2)

/-- The HOLD while a line is rewritten; its quanta are open (R258; DESIGN CHOICE, log entry 101). -/
def holdForLine (s : State) : State :=
  if rewriting s then
    let (v, s) := drawNat s
    raiseHold s (1 + v % 64)
  else s

/-- A line with three to six symbols in error is poisoned, counted and logged (R258). -/
def lineLost (s : State) (pg : Nat) (ue : Field) (e : LineErr) : State :=
  let region := errorRegion s e.addr
  let s := if (hbmStack e.addr).isSome then countUe s e.addr else s
  let s := bump s pg ue
  let s := if region = 0 then wr0 s pg F.STG_LAST_UE ((e.addr % 0x1000000) / 64) else wrPair s pg F.HBM_LAST_UE_LO F.HBM_LAST_UE_HI e.addr
  let s := errEvent s pg 1
  let s := logWrite s pg 2 0xFF [(32, e.addr), (40, region)]
  let s := noteBad (loseData s e.addr) region e.addr
  let s := if region = 1 then damageShards s e.addr else s
  if region = 1 ∨ region = 2 then holdForLine s else s

/-- Whether the step of a drove that reads a line of a region is unaffected by its loss: journals and checkpoints (R258). -/
def spared (region : Nat) : Bool := region == 5 || region == 6

/-- A line in error. On a drove's read path of fold `f` a corrected line pauses the device 16 cycles (R257), and a lost one makes the step
suspect unless it lies in a region whose step is unaffected (R258). -/
def lineError (s : State) (drove : Option Nat) (e : LineErr) : State :=
  match lineCounters e.addr with
  | none => s
  | some (pg, ce, ue) =>
    if e.syms = 0 ∨ 6 < e.syms then s
    else if e.syms ≤ 2 then
      let s := bump s pg ce
      let s := if (hbmStack e.addr).isSome then countCe s e.addr else s
      match drove, hbmStack e.addr with
      | some f, some k => askPause (bump s (hbmPg k) F.HBM_CE_PAUSE_CYC 16) (pauseKey (16 * f) causeEcc) 16
      | some f, none => askPause s (pauseKey (16 * f) causeEcc) 16
      | none, _ => s
    else
      let region := errorRegion s e.addr
      let s := lineLost s pg ue e
      match drove with
      | some f => if spared region then s else dataSuspect s f
      | none => s

/-- A drove's read on fold `f` of the lines that meet `hit`: `lines` are those in error, and one that is still poisoned from an earlier error
makes the step suspect again (R256 to R258; DEDUCED, log entry 101). -/
def readLines (s : State) (f : Nat) (hit : Nat → Bool) (lines : List LineErr) : State :=
  let mine := lines.filter (fun e => hit e.addr)
  let again := s.care.bad.any (fun b => hit b.2 && !spared b.1 && !mine.any (fun e => e.addr == b.2))
  let s := forEach s mine (fun s e => lineError s (some f) e)
  if again then dataSuspect s f else s

/-! ## The current ramp (R234) -/

/-- The arrays of a die whose loaders are busy in the array cycle that starts at device cycle `t`, 16 × fold + array. -/
def loadingArrays (s : State) (die t : Nat) : List Nat :=
  (s.folds.filter (fun e => dieOf e.1 == die)).flatMap (fun e =>
    (e.2.arrays.filter (fun a => decide (t < a.2.loadEnd))).map (fun a => 16 * e.1 + a.1))

/-- The end of a die's last plane-load cycle. -/
def lastLoad (s : State) (die : Nat) : Nat :=
  (s.folds.filter (fun e => dieOf e.1 == die)).foldl (fun m e => e.2.arrays.foldl (fun m a => max m a.2.loadEnd) m) 0

/-- Arrays of a die convert or begin to load at device cycle `c`: the limiter pauses the device until the ramp's allowance covers the
arrays active in that array cycle (R234). It is called before the new loads are recorded. -/
def rampDemand (s : State) (die c : Nat) (new : List Nat) : State :=
  let p := s.pause
  let t := s.pause.base + (c - s.pause.base) / 32 * 32
  let at_ := getD 0 p.rampAt die
  let last := max (if at_ = 0 then 0 else at_ + 31) (lastLoad s die)
  let quiet := decide (last = 0) || decide (last + 2048 ≤ t)
  let start := if quiet then t else getD 0 p.rampStart die - 1
  let steps := if quiet then 0 else getD 0 p.rampSteps die
  let used := ((if at_ = t + 1 then getD [] p.rampUsed die else []) ++ new ++ loadingArrays s die t).dedup
  let k := (t - start) / 32 + steps
  let need := if 16 ≤ k then 0 else min 16 (ceilDiv used.length 32 - 1) - k
  let s := s.setPause { p with
    rampStart := putD 0 p.rampStart die (start + 1), rampSteps := putD 0 p.rampSteps die (steps + need)
    rampAt := putD 0 p.rampAt die (t + 1), rampUsed := putD [] p.rampUsed die used }
  askPause (bump s tallyPg F.RAMP_PAUSE_CYC (32 * need)) (pauseKey (2000 + die) causeRamp) (32 * need)

end Sys2Proof.Machine
end

