-- ==== Sys2Proof/Machine/Arrays.lean ====
section
/-! DEFINITION. Conversions, plane switches and plane loads (R29 to R49, R80 to R101, R164 to R169, R174, R175). -/

namespace Sys2Proof.Machine

/-! ## CONV (R165, R166) -/

/-- The plane of an array that is active at step cycle `lat`, with the switches named so far. -/
def planeAt (x : Fold) (a lat : Nat) : Plane :=
  let n := (x.switches.filter (fun w => bit w.1 a && decide (w.2.1 ≤ lat))).length
  if n % 2 = 0 then (x.arr a).active else (x.arr a).shadow

/-- The plane kind that a recipe and pass want: 0 a narrow plane, 2 high halves, 3 low halves (R106, R192). -/
def wantedKind (recipe pass : Nat) : Nat := match recipe, pass with
  | 2, 0 => 2
  | 2, _ => 3
  | 3, 0 => 2
  | 3, 2 => 2
  | 3, _ => 3
  | _, _ => 0

/-- Whether a plane kind agrees with a recipe and pass. -/
def kindAgrees (kind recipe pass : Nat) : Bool :=
  let w := wantedKind recipe pass
  if w = 0 then decide (kind < 2) else kind == w

/-- The boundary A of a CONV that issues now: the first array-cycle boundary not before c + 24 (R165). -/
def convBoundary (s : State) (f : Nat) : Nat := arrayBoundary s ((getFold s f).now + 24)

/-- The conversions a CONV of arrays `mask` with descriptor `d` starts, for a boundary `lat` (R165, R166). -/
def convOps (x : Fold) (lat mask d : Nat) : List ConvOp :=
  let i := x.iter
  let n := bits d 86 10 + 1
  let lane := (bits d 96 8 + i * bits d 104 4) % 256
  let masked := laneMasked x (bit d 108) lane
  ((List.range 16).filter (bit mask)).map (fun a =>
    { array := a, c := x.now, lat := lat, bundle := x.lastPc, iter := i, layer := bits d 0 10,
      mode := bits d 10 2, gain := bits d 12 2, afmt := bits d 14 2, recipe := bits d 16 2, pass := bits d 18 2,
      static := bit d 20, ka := bits d 21 6, es := bits d 27 8, clipResolve := bit d 35, spillSat := bit d 36,
      tile := bits d 37 7 + (if bit d 52 then a else 0), row := (bits d 44 4 + i * bits d 48 4) % 16, tag := bits d 53 8,
      base := 64 * (bits d 61 16 + i * bits d 77 8 + (if bit d 85 then 32 * a else 0)), n := n, masked := masked, noAdd := false })

/-- A field of a conversion holds an undefined value (BAD_FIELD, R192). -/
def convBadField (x : Fold) (ops : List ConvOp) (d : Nat) : Bool :=
  let recipe := bits d 16 2
  let afmt := bits d 14 2
  bits d 10 2 == 3 || decide (32 < bits d 21 6) || (bit d 20 && bits d 27 8 == 0xFF) || afmt == 3
    || ((recipe == 1 || recipe == 3) != (afmt == 2)) || decide (passCount recipe ≤ bits d 18 2)
    || ops.any (fun o => !kindAgrees (planeAt x o.array o.lat).kind o.recipe o.pass || decide (127 < o.tile)
        || decide (0x400000 < o.base + 2 * o.n))

/-- The span bytes that a CONV books: one span under SAME, one per array under STEP (R166, R168). -/
def spanReads (ops : List ConvOp) (d : Nat) : List (Nat × Nat) :=
  if bit d 85 then ops.map (fun o => (o.base, 2 * o.n)) else (ops.take 1).map (fun o => (o.base, 2 * o.n))

/-- The conversions that a CONV starts. -/
def convsOf (s : State) (f mask desc : Nat) : List ConvOp := convOps (getFold s f) (convBoundary s f) mask (convDesc s f desc)

/-- Cycles that the quantiser reads for a CONV. -/
def spanCycles (s : State) (f mask desc : Nat) : Nat :=
  ceilDiv ((spanReads (convsOf s f mask desc) (convDesc s f desc)).map (·.2)).sum 1536

/-- The vector store reads of a CONV; a masked one reads nothing (R168, R187). -/
def convReads (s : State) (f mask desc : Nat) : List VsPend :=
  let ops := convsOf s f mask desc
  let lat := convBoundary s f
  if ops.any (·.masked) then []
  else (spanReads ops (convDesc s f desc)).map (fun r => vsRead r.1 r.2 (lat - 24) (lat - 24 + spanCycles s f mask desc) lat)

/-- What a CONV books on the span port: cycles and bytes (R168, R191), the last cycle as full (DESIGN CHOICE, log entry 109). -/
def convBook (s : State) (f mask desc : Nat) : Book :=
  let lat := convBoundary s f
  let total := ((spanReads (convsOf s f mask desc) (convDesc s f desc)).map (·.2)).sum
  { port := 3, inst := 0, c0 := lat - 24, c1 := lat - 25 + ceilDiv total 1536, bytes := min total 1536 }

/-- The tiles on which a conversion of a CONV meets a claim clash, each once (R141 causes 1, 2 and 7). -/
def convClashes (s : State) (f : Nat) (ops : List ConvOp) : List (Nat × Nat × Nat) :=
  ((ops.filter (fun o => decide (o.tile < 128))).filterMap (fun o => (claimCause s f o.tile o.tag).map (fun c => (o.tile, c, o.tag)))).dedup

/-- The fields of a CONV that break R192 codes 1 and 2. -/
def convFields (s : State) (f mask rsv desc : Nat) : List Stop :=
  let d := convDesc s f desc
  stopIf (rsv != 0 || bits d 110 18 != 0) (.contract 1 0 0) ++ stopIf (convBadField (getFold s f) (convsOf s f mask desc) d) (.contract 2 0 0)

/-- The other rows of R192 that a CONV breaks. -/
def convRules (s : State) (f mask desc : Nat) : List Stop :=
  let d := convDesc s f desc
  let x := getFold s f
  let ops := convsOf s f mask desc
  let lat := convBoundary s f
  let refs := (x.convs.filter (fun k => k.op.lat == lat && k.op.mode == 2)).length
  stopIf (ops.any (fun o => (x.tile o.tile).open_ && (x.tile o.tile).tag == o.tag && (x.tile o.tile).mode != o.mode)) (.contract 3 0 0)
    ++ stopIf (ops.any (fun o => (x.arr o.array).held.contains o.lat)) (.contract 4 0 0)
    ++ stopIf (decide (0 < spanCycles s f mask desc) && overbooked x.books (convBook s f mask desc) 1536) (.contract 7 0 3)
    ++ stopIf ((convReads s f mask desc).any (vsHazard x)) (.contract 8 0 0)
    ++ stopIf (bits d 10 2 == 2 && decide (2 < refs + ops.length)) (.contract 9 0 0)

/-- What stops a CONV at its issue; a clash of its tiles counts beside a contract fault (R141, R192, R194). -/
def convCheck (s : State) (f mask rsv desc : Nat) : List Stop :=
  let found := convFields s f mask rsv desc ++ convRules s f mask desc
  if found.isEmpty then [] else found ++ (convClashes s f (convsOf s f mask desc)).map (fun c => .clash c.1 c.2.1 c.2.2)

/-- The arrays of a CONV hold the array cycle of its boundary (R37, R192). -/
def holdArrays (s : State) (f : Nat) (ops : List ConvOp) : State :=
  modFold s f (fun x => { x with arrays := ops.foldl (fun m o => modD Arr.init m o.array (fun y => { y with held := y.held ++ [o.lat] })) x.arrays })

/-- Schedule a checked conversion of each array (R168). -/
def scheduleConvs (s : State) (f : Nat) (ops : List ConvOp) : State :=
  modFold (holdArrays s f ops) f (fun x => { x with convs := x.convs ++ ops.map (fun o => { op := o, data := none, delivered := false }) })

/-- Cause 5 (R141): conversions of one array cycle name different rows of tile `t`, masked ones among them; every one but those of the
lowest row loses its add. -/
def rowClash (s : State) (f lat t tag : Nat) : State :=
  let x := getFold s f
  let rows := (x.convs.filter (fun k => k.op.lat == lat && k.op.tile == t && !k.op.noAdd)).map (·.op.row)
  let low := rows.foldl min 16
  if rows.all (· == low) then s
  else
    let s := clash s f t 5 tag
    modFold s f (fun x => { x with convs := x.convs.map (fun k =>
      if k.op.lat == lat && k.op.tile == t && k.op.row != low then { k with op := { k.op with noAdd := true } } else k) })

/-- The Resolve cycles that reference conversions book from their boundary on: 16 for each (R189). -/
def bookReference (x : Fold) (lat n : Nat) : Fold :=
  let k := (x.resBooks.find? (fun b => b.1 == lat)).elim 0 (·.2)
  let rest := x.resBooks.filter (fun b => b.1 != lat)
  { x with resBooks := rest.filter (fun b => decide (b.1 < lat)) ++ [(lat, k + 16 * n)] ++ rest.filter (fun b => decide (lat < b.1)) }

/-- A CONV that its check lets through (R165 to R168, R189). A conversion whose tile's claim does not admit it keeps its array cycle
and loses its add (R141, R142). -/
def doConv (s : State) (f mask desc : Nat) : State :=
  let ops := convsOf s f mask desc
  let reads := convReads s f mask desc
  let book := convBook s f mask desc
  let lat := convBoundary s f
  let hits := convClashes s f ops
  let s := if ops.any (·.masked) then bump s (foldPg f) F.MASKED_OP_CNT else s
  let s := modFold s f (fun x => reads.foldl pendVs { x with books := x.books ++ [book] })
  let s := if bits (convDesc s f desc) 10 2 = 2 then modFold s f (fun x => bookReference x lat ops.length) else s
  let s := hits.foldl (fun s c => clash s f c.1 c.2.1 c.2.2) s
  let s := scheduleConvs s f (ops.map (fun o => { o with noAdd := hits.any (fun c => c.1 == o.tile) }))
  ((ops.map (fun o => (o.tile, o.tag))).dedup).foldl (fun s e => rowClash s f lat e.1 e.2) s

/-- The lane mask in force at a CONV: its descriptor may take back cancelled lanes first (R186). -/
def convMask (s : State) (f desc : Nat) : State :=
  if bit (convDesc s f desc) 109 then modFold s f (fun x => { x with applied := x.applied &&& (x.cancel ^^^ (2 ^ 256 - 1)) }) else s

/-- CONV at its issue (R165 to R168, R186, R192). A suppressed CONV still runs its arrays, as zero-input conversions, in the array cycle
that it names (R192). -/
def issueConv (s : State) (f mask rsv desc : Nat) : State :=
  let s := convMask s f desc
  match convCheck s f mask rsv desc with
  | [] => doConv s f mask desc
  | stops => stopAll (holdArrays s f (convsOf s f mask desc)) f stops

/-- CONV (R165). -/
def execConv (fold : Fin 68) (mask : BitVec 16) (rsv : BitVec 2) (desc : Fin 1024) (s : State) :
    Host.Outcome State Fault Refusal :=
  .next (syllable s fold 0 (convWord mask rsv desc) (fun s => issueConv s fold mask.toNat rsv.toNat desc))

/-! ## The latch (R33, R83 to R93, R168) -/

/-- The activation format of a code. -/
def actFmt : Nat → Fmt
  | 0 => .int4
  | 1 => .fp4
  | _ => .int8

/-- The elements of a span: BF16 codes from the vector store. -/
def spanCodes (s : State) (f base n : Nat) : List Nat := (List.range n).map (fun j => leNat (droveRead s (vsAddr f (base + 2 * j)) 2))

/-- The exact value of a BF16 code with non-finite values replaced by zero (R85). -/
def bf16Value (w : Nat) : Rat := ((decodeFloat bf16F w).fin?).getD 0

/-- Whether a BF16 code is infinite or NaN. -/
def bf16NonFinite (w : Nat) : Bool := (decodeFloat bf16F w).fin?.isNone

/-- The strays that stay with the Crook unit under SATURATE: the 32 of largest magnitude, the lower row first among equals (R93). -/
def keepStrays (vals : List Rat) (strays : List Nat) : List Nat :=
  let better := fun (i j : Nat) => decide (absR (vals.getD j 0) < absR (vals.getD i 0)) || (absR (vals.getD i 0) == absR (vals.getD j 0) && decide (i < j))
  strays.filter (fun i => decide ((strays.filter (fun j => j != i && better j i)).length < 32))

/-- A quantised activation span as the arrays and the Crook unit take it. -/
structure ActSpan where
  /-- scale exponent -/
  ea : Int
  /-- grid values, saturated strays included -/
  g : List Int
  /-- rows of the strays that go to the Crook unit -/
  strays : List Nat
  /-- all strays found -/
  found : Nat
  /-- strays saturated on the grid -/
  saturated : Nat
  deriving DecidableEq, Repr

/-- Quantise an activation span and apply the spill policy (R83 to R86, R93). -/
def actSpan (vals : List Rat) (o : ConvOp) : ActSpan :=
  let f := actFmt o.afmt
  let q := quantiseSpan vals f o.ka (if o.static then some (e8m0Exp o.es) else none)
  let ns := q.stray.length
  if 32 < ns ∧ o.mode = 0 ∧ o.spillSat then
    let keep := keepStrays vals q.stray
    let lim := fun (v : Rat) => if v < 0 then gridOf (nmin f) f else gridOf (pmax f) f
    { ea := q.e
      g := (List.range vals.length).map (fun i =>
        if q.stray.contains i && !keep.contains i then lim (vals.getD i 0) else q.g.getD i 0)
      strays := keep, found := ns, saturated := ns - keep.length }
  else { ea := q.e, g := q.g, strays := q.stray, found := ns, saturated := 0 }

/-- The half of an activation grid value that a pass drives (R100, R106, R167). -/
def actHalf (recipe pass : Nat) (q : Int) : Int := match recipe, pass with
  | 1, 0 => splitHi q
  | 1, _ => splitLo q
  | 3, 0 => splitHi q
  | 3, 1 => splitHi q
  | 3, _ => splitLo q
  | _, _ => q

/-! ### The staging copy of a plane (R92, R119, R254, R386) -/

/-- The cell value of a 4-bit code under a plane kind (R174). -/
def cellValue (kind code : Nat) : Int := match kind with
  | 1 => fp4Grid code
  | 3 => (code % 16 : Nat)
  | _ => int4Grid code

/-- The narrow code of row `r`, column `c` of the plane slot at staging offset `o` (R254, R267). -/
def slotCode (s : State) (f o r c : Nat) : Nat :=
  let b := (droveByte s (stagingAddr f (o + 128 * r + c / 2))).toNat
  if c % 2 = 0 then bits b 0 4 else bits b 4 4

/-- The weight that the staging copy holds for a cell, at the origin and with the kind of the load that wrote its group; `w`, the plane's own
cell, where no load has written the group (DESIGN CHOICE, log entry 123). -/
def stagedWeight (s : State) (f : Nat) (origins kinds : SMap Nat) (r c : Nat) (w : Int) : Int :=
  let o := getD 0 origins (r / 16)
  if o = 0 then w else cellValue (getD 0 kinds (r / 16)) (slotCode s f (o - 1) r c)

/-- The exact column value of drive codes over the staging copy of a plane (R32, R119). -/
def stagedColumn (s : State) (f : Nat) (drive : List Int) (origins kinds : SMap Nat) (cell : Nat → Int) (c : Nat) : Int :=
  sumZ ((List.range drive.length).map (fun r => if drive.getD r 0 = 0 then 0 else drive.getD r 0 * stagedWeight s f origins kinds r c (cell r)))

/-- Every group of a record's driven rows has a load's origin. -/
def covered (d : ConvData) : Bool := (List.range (ceilDiv d.drive.length 16)).all (fun g => decide (0 < getD 0 d.origins g))

/-- S_c of a conversion as the Resolve unit of fold `f` computes it: from its drive codes over the staging copy of the plane that it
used (R119). A plane with groups that no load has written has no whole copy; its cells as latched stand for it (DEDUCED, log entry 90). -/
def resolvedColumn (s : State) (f : Nat) (d : ConvData) (c : Nat) : Int :=
  if covered d then stagedColumn s f d.drive d.origins d.kinds (fun _ => 0) c else d.exact.getD c 0

/-- The whole weight grid value that a stray activation meets: the staged weight, and for a high half 16 times it and the low half
128 KiB above its load's origin (R92). -/
def wholeWeight (s : State) (f : Nat) (p : Plane) (r c : Nat) : Int :=
  let w := stagedWeight s f p.origins p.kinds r c (getD 0 p.cells (256 * r + c))
  let o := getD 0 p.origins (r / 16)
  if p.kind = 2 ∧ 0 < o then 16 * w + (slotCode s f (o - 1 + 131072) r c : Nat) else w

/-- The crook terms of a column (R91). The Crook unit is taken to read the staging rows at the latch (DESIGN CHOICE, log entry 123). -/
def crookOf (s : State) (f : Nat) (p : Plane) (vals : List Rat) (sp : ActSpan) (da : Int) (c : Nat) : Rat :=
  let ew := e8m0Exp (getD 0 p.scales c)
  let dw : Int := if p.kind = 1 then 1 else 0
  let ws := getD [] p.strays c
  let wval := fun (r : Nat) => match ws.find? (fun e => e.1 == r) with
    | some e => bf16Value e.2
    | none => (wholeWeight s f p r c : Rat) * pow2 (ew - dw)
  sumR (sp.strays.map (fun r => vals.getD r 0 * wval r))
    + sumR ((ws.filter (fun e => !sp.strays.contains e.1)).map (fun e => (sp.g.getD e.1 0 : Rat) * pow2 (sp.ea - da) * bf16Value e.2))

/-- The converter code of an analogue value (R46). -/
def converterCode (v : Rat) : Nat := (clamp (64 + (v + 1 / 2).floor) 0 127).toNat

/-- Δ of a gain setting (R45). -/
def deltaOf : Nat → Nat
  | 0 => 512
  | 1 => 256
  | 2 => 128
  | _ => 64

/-- The trimmed estimate of a code (R49). -/
def estimateOf (code : Nat) (o : Int) (g : Nat) (d : Rat) : Rat :=
  roundNe (((code : Rat) - 64 - (o : Rat) / 64) * ((g : Rat) / 16384) * d) 8

/-- A code that keeps the bound of R113 for a column whose exact value is `v`: an unclipped estimate lies within ε·d + 2^−9 of it, and
a clip code stands on the side of the range that `v` lies beyond. -/
def keepsBound (v : Int) (code : Nat) (o : Int) (g : Nat) (delta eps : Rat) : Bool :=
  let est := estimateOf code o g delta
  let b := eps * (delta * ((g : Rat) / 16384)) + 1 / 512
  decide (absR (est - v) ≤ b) || (code == 127 && decide (est ≤ v + b)) || (code == 0 && decide ((v : Rat) - b ≤ est))

/-- The code of a column whose analogue deviation is free. An array that meets R70 keeps the bound of R113, so that a code outside it
is replaced by the one nearest to the exact value under the trims; a failing array gives any code (R46, R70, R113; DESIGN CHOICE,
log entry 8). -/
def columnCode (v : Int) (free : Rat) (o : Int) (g : Nat) (delta nominal eps : Rat) (fails : Bool) : Nat :=
  let code := converterCode ((v : Rat) / nominal + free)
  if fails || keepsBound v code o g delta eps then code
  else converterCode ((v : Rat) * 16384 / (delta * (g : Rat)) + (o : Rat) / 64)

/-- The columns of an array. -/
def cols : List Nat := List.range 256

/-- What a conversion holds from its latch on, drawing 256 free values for the analogue deviations (R32 to R34, R46, R49, R91). The
exact value of a reference conversion is the Resolve unit's, over the staging copy (R119, R130). -/
def latchData (s : State) (f : Nat) (o : ConvOp) (vals : List Rat) (sp : ActSpan) : ConvData :=
  let x := (getFold s f).arr o.array
  let p := x.active
  let da := gridShift (actFmt o.afmt)
  let drive := if o.masked then [] else sp.g.map (actHalf o.recipe o.pass)
  let idx := List.range drive.length
  let cell := fun (c r : Nat) => getD 0 p.cells (256 * r + c)
  let exact := cols.map (fun c => if o.mode = 2 then stagedColumn s f drive p.origins p.kinds (cell c) c
    else sumZ (idx.map (fun r => drive.getD r 0 * cell c r)))
  let delta : Rat := (deltaOf o.gain : Rat) * getD 1 x.ratio o.gain
  let g := cols.map (fun c => getD 16384 x.g c)
  let off := cols.map (fun c => getD 0 x.o c)
  let codes := cols.map (fun c => columnCode (exact.getD c 0) (Config.analogue (s.free + c)) (off.getD c 0) (g.getD c 16384) delta
    (deltaOf o.gain) x.eps (Config.arrayFails s.free))
  { drive := drive, ea := sp.ea, da := da
    strays := if o.masked then [] else sp.strays.map (fun r => (r, leNat (droveRead s (vsAddr f (o.base + 2 * r)) 2)))
    satStrays := !o.masked && decide (0 < sp.saturated)
    exact := exact
    crook := if o.masked || o.pass != 0 then [] else cols.map (crookOf s f p vals sp da)
    wexp := cols.map (fun c => e8m0Exp (getD 0 p.scales c) - (if p.kind = 1 then 1 else 0))
    codes := codes
    est := cols.map (fun c => estimateOf (codes.getD c 64) (off.getD c 0) (g.getD c 16384) delta)
    step := cols.map (fun c => delta * ((g.getD c 16384 : Rat) / 16384))
    delta := delta, g := g, o := off, eps := x.eps
    chk := sumZ (idx.map (fun r => drive.getD r 0 * getD 0 p.sums r))
    poisoned := p.poisoned
    rangeOut := rdBit s (foldPg f) F.ARR_RANGE_OUT 0 o.array
    tally := s.tally.num, held := idx.map (getD 0 p.sums), origins := p.origins, kinds := p.kinds }

/-- The counters, flags and pause of a span (R85, R93, R97). Non-finite elements count in every pass, since every pass quantises the
span again, and under SAME addressing each array of the mask counts the span that feeds it (DESIGN CHOICE, log entry 122). Strays count, spill and pause in the first pass alone: R93 says so of split activations, and no other pass of any recipe
sends strays to the Crook unit (R106; DEDUCED, log entry 89). Where a SATURATE event sets STRAY_SPILL and BOUND_VOID it makes two
transitions, STRAY_SPILL first, and each conversion adds its own length to CROOK_PAUSE_CYC, whatever the merged pause lasts (DESIGN
CHOICE, log entry 89). -/
def spillEffects (s : State) (f : Nat) (o : ConvOp) (nonfinite : Nat) (sp : ActSpan) : State :=
  let pg := foldPg f
  if o.masked then s
  else
    let s := if 0 < nonfinite then setRecipe (bump s pg F.ACT_NONFINITE_CNT nonfinite) f o.layer flagNonfinite else s
    if o.pass ≠ 0 then s
    else
      let s := bump s pg F.STRAY_ACT_CNT sp.strays.length
      if sp.found ≤ 32 then s
      else
        let s := bump s pg F.CROOK_SPILL_CNT
        let s := setRecipe s f o.layer flagSpill
        if 0 < sp.saturated then setRecipe (bump s pg F.STRAY_SAT_CNT sp.saturated) f o.layer flagVoid
        else
          let n := 32 * ceilDiv (sp.found - 32) 32
          askPause (bump s pg F.CROOK_PAUSE_CYC n) (pauseKey (16 * f + o.array) causeCrook) n

/-- The conversion of an array that latches next: the one of the least boundary not latched yet. -/
def nextLatch (x : Fold) (a : Nat) : Option Conv := x.convs.find? (fun k => k.op.array == a && k.data.isNone)

/-- Replace the first conversion of an array that meets a test. -/
def setConv (p : Conv → Bool) (g : Conv → Conv) : List Conv → List Conv
  | [] => []
  | k :: ks => if p k then g k :: ks else k :: setConv p g ks

/-- CONV_LATCH: the array latches and converts (R33, R34, R168). -/
def latchConv (s : State) (f a : Nat) (k : Conv) : State :=
  let o := k.op
  let codes := if o.masked then [] else spanCodes s f o.base o.n
  let vals := codes.map bf16Value
  let sp := actSpan vals o
  let d := latchData s f o vals sp
  let s := s.setFree (s.free + 256)
  let s := modFold s f (fun x => { x with
    convs := setConv (fun q => q.op.array == a && q.data.isNone) (fun q => { q with data := some d }) x.convs
    spent := if o.mode = 2 then x.spent else { x.spent with convs := x.spent.convs + 1 } })
  let s := spillEffects s f o (codes.filter bf16NonFinite).length sp
  if o.mode = 2 then s else rampDemand s (dieOf f) o.lat [16 * f + a]

/-- A conversion may latch: its boundary is due, and the plane switches named for it have taken effect (R33, R39). -/
def mayLatch (s : State) (f : Nat) (k : Conv) : Bool :=
  due s k.op.lat && (getFold s f).switches.all (fun w => decide (k.op.lat < w.2.1))

/-- CONV_LATCH (R168). -/
def execConvLatch (fold : Fin 68) (array : Fin 16) (s : State) : Host.Outcome State Fault Refusal :=
  match nextLatch (getFold s fold) array with
  | some k => .next (if mayLatch s fold k then latchConv s fold array k else s)
  | none => .next s

/-! ## Plane loads in progress (R38, R42, R175, R254) -/

/-- Write one 16-row group into a plane, with its row sums and its origin (R38, R42, R386). -/
def loadGroup (s : State) (f o kind : Nat) (p : Plane) (g : Nat) : Plane :=
  (List.range 16).foldl (fun p i =>
    let r := 16 * g + i
    let vs := cols.map (fun c => cellValue kind (slotCode s f o r c))
    { p with cells := putRun 0 p.cells (256 * r) vs, sums := putD 0 p.sums r (sumZ vs) })
    { p with origins := putD 0 p.origins g (o + 1), kinds := putD 0 p.kinds g kind }

/-- The groups that a load writes before device cycle `t`. -/
def loadDue (l : Load) (t : Nat) : Nat := min l.left (t - l.c)

/-- What a load has written before device cycle `t`. -/
def loadPart (s : State) (f t : Nat) (l : Load) : State :=
  modArr s f l.array (fun x => x.setPlane l.plane1 ((List.range (loadDue l t)).foldl (fun p j => loadGroup s f l.src l.kind p (l.g + j)) (x.plane l.plane1)))

/-- The loads of a fold go on to device cycle `t`: each group is written in its own cycle from the staging bytes of that cycle (R38, R175). -/
def loadsTo (s : State) (f t : Nat) : State :=
  let s := (getFold s f).loads.foldl (fun s l => loadPart s f t l) s
  modFold s f (fun x => { x with loads := (x.loads.map (fun l =>
    { l with g := l.g + loadDue l t, left := l.left - loadDue l t, c := l.c + loadDue l t })).filter (fun l => decide (0 < l.left)) })

/-! ## PSW and the plane switch (R39, R40, R169) -/

/-- PSW at its issue (R169): the first array-cycle boundary after c. -/
def issuePsw (s : State) (f mask rsv : Nat) : State :=
  issueWith s f (stopIf (rsv != 0) (.contract 1 0 0))
    (modFold s f (fun x => { x with switches := x.switches ++ [(mask, arrayBoundary s (x.now + 1), x.lastPc)] }))

/-- PSW (R169). -/
def execPsw (fold : Fin 68) (mask : BitVec 16) (rsv : BitVec 12) (s : State) : Host.Outcome State Fault Refusal :=
  .next (syllable s fold 0 (pswWord mask rsv) (fun s => issuePsw s fold mask.toNat rsv.toNat))

/-- The arrays of a mask change their planes. -/
def flipPlanes (x : Fold) (mask : Nat) : Fold :=
  ((List.range 16).filter (bit mask)).foldl (fun x a => x.setArr a { x.arr a with act1 := !(x.arr a).act1 }) x

/-- The earliest switch named takes effect, or every array of it keeps its planes (R39, R40). -/
def switchPlanes (s : State) (f mask b bundle : Nat) : State :=
  let s := modFold (loadsTo s f b) f (fun x => { x with switches := x.switches.drop 1 })
  if ((List.range 16).filter (bit mask)).any (fun a => decide (b < ((getFold s f).arr a).lastRow)) then contractFault s f 5 bundle 0 0
  else modFold s f (flipPlanes · mask)

/-- PLANE_SWITCH (R39, R40): at the boundary that the switch names. -/
def execPlaneSwitch (fold : Fin 68) (s : State) : Host.Outcome State Fault Refusal :=
  match (getFold s fold).switches with
  | [] => .next s
  | (mask, b, bundle) :: _ => .next (if due s b then switchPlanes s fold mask b bundle else s)

/-! ## PLD (R38 to R44, R174, R175, R254) -/

/-- The side record's scales and stray lists of plane slot at offset `o` (R254). -/
def loadSide (s : State) (f o : Nat) (p : Plane) : Plane :=
  let rec_ := 0xA80000 + 18432 * (o / 131072)
  let at_ := fun (k n : Nat) => leNat (droveRead s (stagingAddr f (rec_ + k)) n)
  { p with
    scales := cols.foldl (fun m c => putD 0 m c (at_ c 1)) p.scales
    strays := cols.foldl (fun m c => putD [] m c ((List.range (bits (at_ (256 + 68 * c) 1) 0 5)).map (fun e =>
      let w := at_ (256 + 68 * c + 4 + 4 * e) 4
      (bits w 0 10, bits w 16 16)))) p.strays
    side := o + 1 }

/-- A load of groups g0 to g0 + n − 1 of one array's shadow plane begins: the plane takes its kind, its lists when g0 is 0, and its mark. -/
def beginLoad (s : State) (f a o g0 n kind : Nat) (bad : Bool) : State :=
  let c := (getFold s f).now
  let one := !((getFold s f).arr a).act1
  let s := modArr s f a (fun x =>
    let p := if g0 = 0 then loadSide s f o x.shadow else x.shadow
    let p := { p with kind := kind, poisoned := if bad then true else if g0 = 0 ∧ n = 64 then false else p.poisoned }
    { x.setShadow p with loadEnd := c + n, lastRow := c + n })
  modFold s f (fun x => { x with loads := x.loads ++ [⟨a, one, o, g0, n, c, kind⟩] })

/-- The arrays a PLD names, with their sources: arrays beyond 15 wrap (R174). -/
def loadSources (a0 count d : Nat) : List (Nat × Nat) :=
  (List.range count).map (fun j => ((a0 + j) % 16, 128 * (bits d 0 17 + j * bits d 17 17)))

/-- The staging load port's bank residue of a load: two loads collide when their residues are equal (R253). -/
def bankOf (src g0 c : Nat) : Nat := (src / 131072 + g0 + 16 * (c + 1) - c) % 16

/-- What a PLD books on the staging load port. -/
def loadBooks (s : State) (f a0 count desc : Nat) : List Book :=
  let d := loadDesc s f desc
  let c := (getFold s f).now
  (loadSources a0 count d).map (fun e => { port := 6, inst := bankOf e.2 (bits d 34 6) c, c0 := c, c1 := c + bits d 40 6, bytes := 1 })

/-- The fields of a PLD that break R192 codes 1 and 2: the array stride is a multiple of a plane slot whatever the count (R254). -/
def loadFields (s : State) (f a0 count rsv desc : Nat) : List Stop :=
  let d := loadDesc s f desc
  stopIf (rsv != 0 || bits d 48 16 != 0) (.contract 1 1 0)
    ++ stopIf (decide (64 < bits d 34 6 + bits d 40 6 + 1) || bits d 17 17 % 1024 != 0
      || (loadSources a0 count d).any (fun e => e.2 % 131072 != 0 || decide (0xA80000 ≤ e.2))) (.contract 2 1 0)

/-- The other rows of R192 that a PLD breaks. -/
def loadRules (s : State) (f a0 count desc : Nat) : List Stop :=
  let x := getFold s f
  stopIf ((loadSources a0 count (loadDesc s f desc)).any (fun e => decide (x.now < (x.arr e.1).loadEnd))) (.contract 6 1 0)
    ++ stopIf ((loadBooks s f a0 count desc).foldl (fun acc b => (acc.1 || overbooked acc.2 b 1, acc.2 ++ [b])) (false, x.books)).1 (.contract 7 1 6)

/-- What stops a PLD at its issue (R192). -/
def loadCheck (s : State) (f a0 count rsv desc : Nat) : List Stop :=
  allStops (loadFields s f a0 count rsv desc) (loadRules s f a0 count desc)

/-- A load reads a line in its staging sources or, with g0 = 0, in their side records (R175, R254, R256). -/
def loadLine (f a0 count d line : Nat) : Bool :=
  let hits := fun (a n : Nat) => decide (stagingAddr f a ≤ line) && decide (line < stagingAddr f a + n)
  (loadSources a0 count d).any (fun x =>
    hits (x.2 + 2048 * bits d 34 6) (2048 * (bits d 40 6 + 1)) || (bits d 34 6 == 0 && hits (0xA80000 + 18432 * (x.2 / 131072)) 18432))

/-- A PLD that its check lets through (R38 to R44, R175). The load of an array whose rows fail counts once, and the step is marked
suspect once (R44). -/
def doLoad (s : State) (f a0 count desc : Nat) (badRows : List (Nat × Nat)) (lines : List LineErr) : State :=
  let d := loadDesc s f desc
  let srcs := loadSources a0 count d
  let g0 := bits d 34 6
  let n := bits d 40 6 + 1
  let books := loadBooks s f a0 count desc
  let s := rampDemand s (dieOf f) (getFold s f).now (srcs.map (fun e => 16 * f + e.1))
  let s := modFold s f (fun x => occupy { x with
    books := x.books ++ books, spent := { x.spent with loads := x.spent.loads + n * srcs.length } } (x.now + n) 1)
  let bad := (badRows.filter (fun r => srcs.any (fun e => e.1 == r.1) && decide (16 * g0 ≤ r.2) && decide (r.2 < 16 * (g0 + n)))).map (·.1)
  let s := readLines s f (loadLine f a0 count d) lines
  let s := forEach s srcs (fun s e => beginLoad s f e.1 e.2 g0 n (bits d 46 2) (bad.contains e.1))
  if bad.isEmpty then s else dataSuspect (bump (errEvent s (foldPg f) 2) (foldPg f) F.ARR_PARITY_CNT bad.dedup.length) f

/-- PLD at its issue. -/
def issuePld (s : State) (f a0 count rsv desc : Nat) (badRows : List (Nat × Nat)) (lines : List LineErr) : State :=
  issueWith s f (loadCheck s f a0 count rsv desc) (doLoad s f a0 count desc badRows lines)

/-- PLD (R175): `badRows` are the rows whose parity comparison fails (R44), `lines` the staging lines in error (R256). -/
def execPld (fold : Fin 68) (a0 count1 : Fin 16) (rsv : BitVec 3) (desc : Fin 512) (badRows : List (Fin 16 × Fin 1024))
    (lines : List LineErr) (s : State) : Host.Outcome State Fault Refusal :=
  .next (syllable s fold 1 (pldWord a0 count1 rsv desc)
    (fun s => issuePld s fold a0 (count1 + 1) rsv.toNat desc (badRows.map (fun r => (r.1.val, r.2.val))) lines))

/-! ## CAL_FORCE (R51, R52) -/

/-- A write of 1 to CAL_FORCE: it acts at the next tick boundary; one made while CAL_HOLD is 1 is held until the first boundary at which
CAL_HOLD is 0 (R51, R52). -/
def forceCal (s : State) (f : Nat) : State :=
  if rd s (foldPg f) F.ARR_CAL_CTRL_HOLD = 1 then modFold s f (fun x => { x with forceHeld := true })
  else modFold s f (fun x => { x with force := true })

end Sys2Proof.Machine
end

