-- ==== Sys2Proof/Machine/Collie.lean ====
section
/-! DEFINITION. The Collie checker, audit samples, arbitration, and the delivery of conversions
(R35, R36, R47, R48, R56, R369 to R373, R379). -/

namespace Sys2Proof.Machine

/-! ## Trimmed values and the residual (R56, R369) -/

/-- A column's trimmed value in LSB. -/
def trimmed (code : Nat) (o : Int) (g : Nat) : Rat := ((code : Rat) - 64 - (o : Rat) / 64) * (g : Rat) / 16384

/-- Whether a code is clipped (R47). -/
def isClip (code : Nat) : Bool := code == 0 || code == 127

/-- The trimmed value of column `c` for the checker: a clipped column that the Resolve unit computes takes its exact value (R369). -/
def checkerValue (s : State) (f : Nat) (d : ConvData) (c : Nat) : Rat :=
  if isClip (d.codes.getD c 64) then (resolvedColumn s f d c : Rat) * 16384 / ((d.g.getD c 16384 : Rat) * d.delta)
  else trimmed (d.codes.getD c 64) (d.o.getD c 0) (d.g.getD c 16384)

/-- The Collie residual q of a conversion, in LSB. -/
def residual (s : State) (f : Nat) (d : ConvData) : Rat := sumR (cols.map (checkerValue s f d)) - (d.chk : Rat) / d.delta

/-! ## Disputes (R372, R379) -/

/-- Bundle index of a dispute that no CONV named: a zero-input conversion. -/
def noBundle : Nat := 16384

/-- Keep an arbitration record (R372). -/
def addDispute (s : State) (f a bundle iter : Nat) (d : ConvData) (located : Bool) : State :=
  let x : Dispute := ⟨f, (slotOfFold s f).getD 64, a, bundle, iter, d, located, false, false, located⟩
  s.setCare { s.care with disputes := s.care.disputes ++ [x] }

/-- A dispute about the conversion that a CONV issues on the fold's array in the replay: the same bundle, iteration, array and logical slot
(R379 stage 2). -/
def sameConv (s : State) (f a bundle iter : Nat) (x : Dispute) : Bool :=
  x.slot == (slotOfFold s f).getD 64 && x.array == a && x.bundle == bundle && x.iter == iter && bundle != noBundle
    && (foldFlock s f).any (fun k => (getFlock s k).replay)

/-- The replay repeats a dispute's failure (R379 stage 2). On the fold where it was located, which runs the replay for want of a spare, the
suspect recurs (R377). -/
def repeatDispute (s : State) (f : Nat) (same : Dispute → Bool) : State :=
  let t := s.setCare { s.care with disputes := s.care.disputes.map (fun x =>
    if same x then { x with repeated := true, away := x.away || x.fold != f } else x) }
  if s.care.disputes.any (fun x => same x && x.located && x.fold == f) then locate t f else t

/-- Record a failed Collie test: its kind (1 instant, 2 block, 3 row), row and value (R400). -/
def collieFail (s : State) (f a kind row value : Nat) : State :=
  let s := bump s (foldPg f) F.COLLIE_FAIL_CNT
  let s := wr0 s (foldPg f) F.COLLIE_LAST_ARRAY a
  let s := wr0 s (foldPg f) F.COLLIE_LAST_KIND kind
  let s := wr0 s (foldPg f) F.COLLIE_LAST_ROW row
  wr0 s (foldPg f) F.COLLIE_LAST_VALUE (min 0xFFFF value)

/-- The instant test of a checked conversion (R370, R372). -/
def instantTest (s : State) (f a bundle iter : Nat) (d : ConvData) (q : Rat) : State :=
  let s := bump s (foldPg f) F.COLLIE_CHK_CNT
  if absR q ≤ (rd s testPg F.COLLIE_CFG_TI : Rat) then s
  else
    let t := raiseSuspect (collieFail s f a 1 0 (ceilN (absR q))) f
    if s.care.disputes.any (sameConv s f a bundle iter) then repeatDispute t f (sameConv s f a bundle iter)
    else addDispute t f a bundle iter d false

/-! ## Zero-input conversions (R36, R56) -/

/-- The state of an array that gathers a zero-input conversion's codes in its open window (R56 on_zero_conversion). -/
def gatherZero (x : Arr) (codes : List Nat) : Arr :=
  match x.win with
  | some w => if w.closed.isSome then x else
    let z := fun c => (codes.getD c 64 : Int) - 64
    { x with win := some { w with
        nz := w.nz + 1
        zs := cols.foldl (fun m c => modD 0 m c (· + z c)) w.zs
        zq := cols.foldl (fun m c => modD 0 m c (· + z c * z c)) w.zq } }
  | none => x

/-- What a zero-input conversion holds: every drive code zero, gain ×8 (R36). -/
def zeroData (s : State) (f a : Nat) : ConvData :=
  let x := (getFold s f).arr a
  let g := cols.map (fun c => getD 16384 x.g c)
  let o := cols.map (fun c => getD 0 x.o c)
  let delta : Rat := (deltaOf 3 : Rat) * getD 1 x.ratio 3
  let codes := cols.map (fun c => columnCode 0 (Config.analogue (s.free + c)) (o.getD c 0) (g.getD c 16384) delta (deltaOf 3) x.eps
    (Config.arrayFails s.free))
  { drive := [], ea := 0, da := 0, strays := [], satStrays := false, exact := cols.map (fun _ => 0), crook := [], wexp := []
    codes := codes
    est := cols.map (fun c => estimateOf (codes.getD c 64) (o.getD c 0) (g.getD c 16384) delta)
    step := cols.map (fun c => delta * ((g.getD c 16384 : Rat) / 16384))
    delta := delta, g := g, o := o, eps := x.eps, chk := 0, poisoned := false, rangeOut := false, tally := s.tally.num
    held := [], origins := x.active.origins, kinds := x.active.kinds }

/-- Whether a fold's arrays run: it is powered and nothing freezes its array cycles (R15, R36, R160). -/
def arraysRun (s : State) (f : Nat) : Bool := roleOf s f != roleRetired && !frozen s

/-- ZERO_INPUT_CONVERSION (R36). -/
def execZeroInputConversion (fold : Fin 68) (array : Fin 16) (s : State) : Host.Outcome State Fault Refusal :=
  if arraysRun s fold then
    let d := zeroData s fold array
    let s := s.setFree (s.free + 256)
    let s := modArr s fold array (fun x => gatherZero x d.codes)
    .next (instantTest s fold array noBundle 0 d (sumR (cols.map (fun c => trimmed (d.codes.getD c 64) (d.o.getD c 0) (d.g.getD c 16384)))))
  else .next s

/-! ## Product conversions -/

/-- Gather a checked product conversion into the block of R370 and R371. -/
def gatherBlock (b : CollieBlock) (d : ConvData) (q : Rat) : CollieBlock :=
  let idx := List.range d.drive.length
  let p := q * d.delta
  { n := b.n + 1, q2 := b.q2 + q * q, pp := b.pp + p * p
    sa := idx.foldl (fun m r => modD 0 m r (· + d.drive.getD r 0 * d.drive.getD r 0)) b.sa
    sq := idx.foldl (fun m r => modD 0 m r (· + p * (d.drive.getD r 0 : Rat))) b.sq
    first := if b.n = 0 then d.tally else b.first }

/-- The trims of a conversion are those in force: they did not change since its latch. -/
def trimsHold (x : Arr) (d : ConvData) : Bool :=
  cols.all (fun c => d.g.getD c 16384 == getD 16384 x.g c && d.o.getD c 0 == getD 0 x.o c)

/-- Gather a usable product conversion in an open window (R56 on_usable_conversion). A conversion counts in the window that is open
when it delivers, though its cycle 0 came before the boundary that opened it, as long as its trims have not changed since (R53;
DESIGN CHOICE, log entry 91). -/
def gatherUsable (x : Arr) (d : ConvData) (q : Rat) : Arr :=
  match x.win with
  | some w => if w.closed.isSome || !trimsHold x d then x else
    let v := fun c => trimmed (d.codes.getD c 64) (d.o.getD c 0) (d.g.getD c 16384)
    let xs := sumR (cols.map v)
    { x with win := some { w with
        np := w.np + 1, sXX := w.sXX + xs * xs, sqX := w.sqX + q * xs
        sxx := cols.foldl (fun m c => modD 0 m c (· + v c * v c)) w.sxx
        sqx := cols.foldl (fun m c => modD 0 m c (· + q * v c)) w.sqx
        sxX := cols.foldl (fun m c => modD 0 m c (· + v c * xs)) w.sxX } }
  | none => x

/-- The conversion is one that the Collie checker checks (R369). -/
def isChecked (o : ConvOp) (d : ConvData) (clips : Nat) : Bool :=
  o.mode != 2 && !o.masked && !d.poisoned && (clips == 0 || o.mode == 1 || o.clipResolve)

/-- The conversion that R373 audits on its array is the first bounded or certified one of the step's first tick with an unclipped column. -/
def auditable (s : State) (f : Nat) (o : ConvOp) (clips : Nat) : Bool :=
  o.mode != 2 && !o.masked && decide (clips < 256)
    && (match foldFlock s f with
      | some k => (getFlock s k).phase == 3 && (getFlock s k).pos == 0
      | none => false)

/-- The delivery of a conversion (R35, R47, R48, R94, R369). A bounded or certified conversion adds 256 to N of its layer in the tick
in which it delivers, whatever tick it latched in, and a reference conversion, which has no codes, adds nothing (DESIGN CHOICE, log
entry 92). -/
def deliver (s : State) (f a : Nat) (k : Conv) (d : ConvData) : State :=
  let o := k.op
  let pg := foldPg f
  let s := modFold s f (fun x => { x with convs := setConv (fun q => q.op.array == a && q.data.isSome && !q.delivered) (fun q => { q with delivered := true }) x.convs })
  if o.masked then bump s pg F.COLLIE_SKIP_CNT
  else if o.mode = 2 then bump (bump s pg F.REF_CONV_CNT) pg F.COLLIE_SKIP_CNT
  else
    let clips := (d.codes.filter isClip).length
    let s := bumpI s pg F.ARR_CLIP a clips
    let s := modFold s f (fun x => { x with layerN := modD 0 x.layerN o.layer (· + 256), layerC := modD 0 x.layerC o.layer (· + clips) })
    let s := if auditable s f o clips then modArr s f a (fun y => if y.audit.isNone then { y with audit := some { k with delivered := true } } else y) else s
    if isChecked o d clips then
      let q := residual s f d
      let s := instantTest s f a o.bundle o.iter d q
      let s := modArr s f a (fun y => if y.blk.n < 8192 then { y with blk := gatherBlock y.blk d q } else y)
      if clips = 0 then modArr s f a (fun y => gatherUsable y d q) else s
    else bump s pg F.COLLIE_SKIP_CNT

/-- The conversion of an array that delivers next. -/
def nextDelivery (x : Fold) (a : Nat) : Option Conv := x.convs.find? (fun k => k.op.array == a && k.data.isSome && !k.delivered)

/-- A residue mismatch or a function-table parity failure on a fold (R374). -/
def residueFail (s : State) (f : Nat) : State := locatedSuspect (bump s (foldPg f) F.RESIDUE_FAIL_CNT) f

/-- CONV_DELIVER (R35): `residue` is a residue mismatch of the Crook unit (R374). -/
def execConvDeliver (fold : Fin 68) (array : Fin 16) (residue : Bool) (s : State) : Host.Outcome State Fault Refusal :=
  match nextDelivery (getFold s fold) array with
  | some k => match k.data with
    | some d =>
      if due s (k.op.lat + 40) then
        let s := deliver s fold array k d
        .next (if residue then residueFail s fold else s)
      else .next s
    | none => .next s
  | none => .next s

/-! ## Verdicts (R380) -/

/-- Log a verdict: 1 ROWSUM, 2 CHECKER, 3 ARRAY, 4 DATA, 5 BIAS. -/
def logVerdict (s : State) (v f a : Nat) (rep : Bool) (tally : Nat) : State :=
  let s := bump s testPg F.ARB_CNT
  let s := wr0 s testPg F.ARB_LAST_VERDICT v
  let s := wr0 s testPg F.ARB_LAST_FOLD f
  let s := wr0 s testPg F.ARB_LAST_ARRAY a
  let s := wr0 s testPg F.ARB_LAST_REPEAT (b2n rep)
  let s := wr0 s testPg F.ARB_TALLY tally
  let s := if v = 2 ∨ v = 3 then errEvent s testPg 3 else s
  logWrite s testPg 0x80 0xFF [(32, v), (33, f), (34, a), (35, b2n rep), (40, tally)]

/-- COLLIE_BLOCK_CLOSE (R370 to R372): a failed block or row test is located on the fold, with verdict ARRAY. -/
def closeBlock (s : State) (f a : Nat) (b : CollieBlock) : State :=
  let pg := foldPg f
  let tr : Rat := rd s testPg F.COLLIE_CFG_TR
  let tt : Rat := rd s testPg F.COLLIE_CFG_TT
  let pv := b.pp / 8192
  let badBlock := decide (tr * tr < b.q2 / 8192)
  let badRows := (List.range 1024).filter (fun r =>
    decide (8192 ≤ getD 0 b.sa r) && decide (tt * tt * pv * ((getD (0 : Int) b.sa r : Int) : Rat) < getD 0 b.sq r * getD 0 b.sq r))
  let s := modArr s f a (fun x => { x with blk := CollieBlock.empty })
  let s := if badBlock then collieFail s f a 2 0 (sqrtUp (b.q2 / 8192) 1) else s
  let s := forEach s badRows (fun s r =>
    collieFail s f a 3 r (sqrtUp (getD 0 b.sq r * getD 0 b.sq r / (pv * ((getD (0 : Int) b.sa r : Int) : Rat))) 1))
  if badBlock || !badRows.isEmpty then
    logVerdict (wr0 (locatedSuspect s f) pg F.FOLD_ROLE_ARRAY a) 3 f a false b.first
  else s

/-- COLLIE_BLOCK_CLOSE (R370). -/
def execCollieBlockClose (fold : Fin 68) (array : Fin 16) (s : State) : Host.Outcome State Fault Refusal :=
  let b := ((getFold s fold).arr array).blk
  .next (if 8192 ≤ b.n then closeBlock s fold array b else s)

/-! ## Audits (R373) -/

/-- The column an audit takes: from `c` on, the first unclipped one, wrapping at 256. -/
def auditColumn (codes : List Nat) (c : Nat) : Option Nat :=
  ((List.range 256).map (fun i => (c + i) % 256)).find? (fun j => !isClip (codes.getD j 64))

/-- Whether a column's estimate lies outside the bound of R113. -/
def outOfBound (d : ConvData) (exact : Int) (c : Nat) : Bool :=
  decide (d.eps * d.step.getD c 0 + 1 / 512 < absR (d.est.getD c 0 - (exact : Rat)))

/-- The Resolve cycle that the audits of a step take on a fold: the first one from the present cycle on that no reference conversion
books (R121, R190; which one is a DESIGN CHOICE, log entry 93). -/
def bookAudit (x : Fold) (t : Nat) : Fold :=
  let c := finishAt x.resBooks t 1 - 1
  { x with resBooks := x.resBooks.filter (fun b => decide (b.1 ≤ c)) ++ [(c, 1)] ++ x.resBooks.filter (fun b => decide (c < b.1)) }

/-- AUDIT_SAMPLE: one column of the array's audited conversion, once in a step. The first audit of a fold's step books the Resolve
cycle of all sixteen. -/
def auditArray (s : State) (f a : Nat) (k : Conv) (d : ConvData) : State :=
  let n := (foldFlock s f).map (fun q => (getFlock s q).num) |>.getD 0
  match auditColumn d.codes ((67 * n + 16 * a + 5 * (slotOfFold s f).getD 0) % 256) with
  | none => s
  | some c =>
    let s := if (getFold s f).arrays.any (fun e => e.2.audited) then s else modFold s f (bookAudit · (clock s))
    let s := modArr s f a (fun x => { x with audited := true })
    let s := bump s (foldPg f) F.AUDIT_CNT
    if outOfBound d (resolvedColumn s f d c) c then
      addDispute (locatedSuspect (bump s (foldPg f) F.AUDIT_FAIL_CNT) f) f a k.op.bundle k.op.iter d true
    else s

/-- AUDIT_SAMPLE (R373). -/
def execAuditSample (fold : Fin 68) (array : Fin 16) (s : State) : Host.Outcome State Fault Refusal :=
  let x := (getFold s fold).arr array
  match x.audit, x.audited with
  | some k, false => match k.data with
    | some d => .next (auditArray s fold array k d)
    | none => .next s
  | _, _ => .next s

/-! ## Arbitration, stage 1 (R379) -/

/-- Row `r` of a plane slot in staging as the loader sums it: its origin and kind as recorded (R386). -/
def stagingRowSum (s : State) (f : Nat) (d : ConvData) (r : Nat) : Int :=
  let o := getD 0 d.origins (r / 16)
  if o = 0 then 0 else sumZ (cols.map (fun c => cellValue (getD 0 d.kinds (r / 16)) (slotCode s f (o - 1) r c)))

/-- Rewrite the row sums of a plane whose groups have the given origins. -/
def rewriteSums (s : State) (f : Nat) (d : ConvData) (p : Plane) : Plane :=
  (List.range d.drive.length).foldl (fun p r =>
    if getD 0 p.origins (r / 16) = getD 0 d.origins (r / 16) then { p with sums := putD 0 p.sums r (stagingRowSum s f d r) } else p) p

/-- Drop the first dispute that meets a test. -/
def dropDispute (p : Dispute → Bool) : List Dispute → List Dispute
  | [] => []
  | x :: xs => if p x then xs else x :: dropDispute p xs

/-- ARBITRATION_STAGE1: the row sums are formed again from staging; differing sums make the suspect a data suspect (R379). -/
def stage1 (s : State) (f a : Nat) (x : Dispute) : State :=
  let d := x.data
  let mine := fun (y : Dispute) => y.fold == f && y.array == a && !y.located
  let sums := (List.range d.drive.length).map (stagingRowSum s f d)
  if sums = d.held then
    let mark := fun (y : Dispute) => if mine y ∧ y.bundle = x.bundle ∧ y.iter = x.iter then { y with located := true } else y
    locate (s.setCare { s.care with disputes := s.care.disputes.map mark }) f
  else
    let s := s.setCare { s.care with disputes := dropDispute mine s.care.disputes }
    let s := modArr s f a (fun y => { y with p0 := rewriteSums s f d y.p0, p1 := rewriteSums s f d y.p1 })
    logVerdict (classifyData s f) 1 f a x.repeated d.tally

/-- ARBITRATION_STAGE1 (R379). -/
def execArbitrationStage1 (fold : Fin 68) (array : Fin 16) (s : State) : Host.Outcome State Fault Refusal :=
  match s.care.disputes.find? (fun y => y.fold == fold.val && y.array == array.val && !y.located) with
  | some x => .next (stage1 s fold array x)
  | none => .next s

end Sys2Proof.Machine
end

