-- ==== Sys2Proof/Machine/Accumulate.lean ====
section
/-! DEFINITION. Accumulator tiles in the fold: adds, clears, rounding operations, the Resolve unit and combines
(R105 to R130, R133 to R150, R168 to R173, R516, R518). -/

namespace Sys2Proof.Machine

/-- The vector store holds 4 MiB. -/
def vsSize : Nat := 0x400000

/-- The outcome of the code check of a tile's storage (R134). -/
def tileEcc (s : State) (f t : Nat) (e : Ecc) : State :=
  let pg := foldPg f
  match e with
  | .ok => s
  | .corrected => bump s pg F.ACC_ECC_CORR
  | .uncorrectable =>
    let s := modTile s f t (fun y => { y with poison := true })
    dataSuspect (errEvent (bump s pg F.ACC_ECC_UNCORR) pg 1) f

/-- The passes of a repeat and a saturation, counted, with their pause (R137 to R139). -/
def repeatEffects (s : State) (f layer passes : Nat) (sat : Bool) : State :=
  let pg := foldPg f
  let s := if sat then bump s pg F.ACC_SAT_CNT else s
  if passes = 0 then s
  else
    let s := bump (bump s pg F.ACC_REPEAT_CNT passes) pg F.ACC_REPEAT_CYC (24 * passes)
    let s := modFold s f (fun x => { x with layerR := modD 0 x.layerR layer (· + passes) })
    askPause s (pauseKey (16 * f) causeRepeat) (24 * passes)

/-! ## ADD_ALIGN (R107, R136, R168) -/

/-- The conversions of one add are those of one boundary, tile and row. -/
def sameAdd (o p : ConvOp) : Bool := p.lat == o.lat && p.tile == o.tile && p.row == o.row

/-- The delivered conversion of the least boundary. -/
def firstDelivered (ks : List Conv) : Option Conv :=
  ks.foldl (fun m k => if k.delivered then (match m with | some y => if k.op.lat < y.op.lat then some k else m | none => some k) else m) none

/-- Align one add into its tile. -/
def alignAdd (s : State) (f : Nat) (o : ConvOp) (e : Ecc) : State :=
  let x := getFold s f
  let group := x.convs.filter (fun k => sameAdd o k.op)
  let s := putFold s f { x with convs := x.convs.filter (fun k => !sameAdd o k.op) }
  let ks := group.filter (fun k => !k.op.masked && !k.op.noAdd)
  match ks with
  | [] => s
  | k :: _ =>
    let s := tileEcc s f o.tile e
    let t := (getFold s f).tile o.tile
    let r := addRow o.row ks t
    let s := modTile s f o.tile (fun _ => { r.tile with layer := k.op.layer, convs := if t.windowed then [] else t.convs ++ ks })
    repeatEffects s f k.op.layer r.passes r.sat

/-- ADD_ALIGN (R136, R168): at A + 48, when every conversion of the add has delivered. -/
def execAddAlign (fold : Fin 68) (ecc : Ecc) (s : State) : Host.Outcome State Fault Refusal :=
  match firstDelivered (getFold s fold).convs with
  | none => .next s
  | some k => .next (if due s (k.op.lat + 48) then alignAdd s fold k.op ecc else s)

/-! ## TCLR (R140, R170) -/

/-- A tile as a clear opens it: its layer tag is 0 until an add, and a whole resolve leaves the tag as it is (R145; DESIGN
CHOICE, log entry 129). -/
def openTile (mode tag : Nat) (te : Int) (carried : Bool) : Tile :=
  { Tile.zero with te := te, te0 := te, mode := mode, tag := tag, open_ := true, carried := carried }

/-- A clear of tile `t` opens a carried tile (R140, R518). -/
def clearCarried (s : State) (f t : Nat) : Bool := rdBit s (foldPg f) F.ACC_CARRIED 0 t && decide (t < 16)

/-- What stops a TCLR at its issue (R141, R192). Of several causes at once it names 3 before 7 (DESIGN CHOICE, log entry 127). -/
def clearCheck (s : State) (f mode tag rsv t : Nat) : List Stop :=
  allStops (stopIf (rsv != 0) (.contract 1 0 0) ++ stopIf (mode == 3) (.contract 2 0 0))
    (if ((getFold s f).tile t).open_ then [.clash t 3 tag]
    else stopIf (clearCarried s f t && carryBusy s f) (.clash t 7 tag))

/-- TCLR at its issue. -/
def issueTclr (s : State) (f mode tag : Nat) (te : Int) (rsv t : Nat) : State :=
  issueWith s f (clearCheck s f mode tag rsv t)
    (modFold (modTile s f t (fun _ => openTile mode tag te (clearCarried s f t))) f (fun x => occupy x (x.now + 4) 0))

/-- TCLR (R170). -/
def execTclr (fold : Fin 68) (mode : BitVec 2) (tag te : BitVec 8) (rsv : BitVec 3) (tile : Fin 128) (s : State) :
    Host.Outcome State Fault Refusal :=
  .next (syllable s fold 0 (tclrWord mode tag te rsv tile)
    (fun s => issueTclr s fold mode.toNat tag.toNat (toSigned te.toNat 8) rsv.toNat tile))

/-! ## TRND (R116, R120, R127, R171, R172) -/

/-- Rows of a mask, ascending. -/
def maskRows (m : Nat) : List Nat := (List.range 16).filter (bit m)

/-- Element keys in the order of service: ascending column, then ascending row (R121). -/
def serviceOrder (rows : List Nat) : List Nat := cols.flatMap (fun c => rows.map (fun v => 256 * v + c))

/-- A conversion of the element's row clipped in its column under the resolve policy. -/
def resolveClipped (t : Tile) (v c : Nat) : Bool := t.convs.any (fun k => k.op.row == v && k.op.clipResolve && clippedAt k c)

/-- A conversion of the element's row clipped in its column under the saturate policy. -/
def satClipped (t : Tile) (v c : Nat) : Bool := t.convs.any (fun k => k.op.row == v && !k.op.clipResolve && clippedAt k c)

/-- A conversion with saturated strays adds to the row (R93). -/
def satStrayRow (t : Tile) (v : Nat) : Bool :=
  t.convs.any (fun k => k.op.row == v && (match k.data with | some d => d.satStrays | none => false))

/-- A conversion that adds to the row ran on an array with ARR_RANGE_OUT set (R67). -/
def rangeRow (t : Tile) (v : Nat) : Bool :=
  t.convs.any (fun k => k.op.row == v && (match k.data with | some d => d.rangeOut | none => false))

/-- What the Resolve unit does for a rounding operation: the elements, or the whole tile, and the slots it costs (R120, R127). -/
structure ResolveWork where
  /-- elements, in the order of service -/
  fails : List Nat
  /-- the whole tile -/
  whole : Bool
  /-- slots -/
  slots : Nat
  deriving DecidableEq, Repr

/-- The resolve work of a rounding operation over row mask `rows` with exponent `eo` and format `fo`. -/
def resolveWork (t : Tile) (rows : Nat) (eo : Int) (fo : Fmt) : ResolveWork :=
  let vs := maskRows (rows &&& t.rows)
  let perRow := fun (v : Nat) => (t.convs.filter (fun k => k.op.row == v)).length
  if t.poison || t.windowed || vs.isEmpty then { fails := [], whole := false, slots := 0 }
  else if t.mode = 1 then
    if t.xdoubt then { fails := [], whole := true, slots := 256 * t.convs.length }
    else
      let fs := (serviceOrder vs).filter (fun k => certFails t (k / 256) (k % 256) eo fo)
      { fails := fs, whole := false, slots := (fs.map (fun k => perRow (k / 256))).sum }
  else if t.mode = 0 ∧ !t.combined then
    let fs := (serviceOrder vs).filter (fun k => resolveClipped t (k / 256) (k % 256) && !satStrayRow t (k / 256))
    if t.xdoubt then
      if (serviceOrder (maskRows t.rows)).any (fun k => resolveClipped t (k / 256) (k % 256)) && !(maskRows t.rows).any (satStrayRow t)
      then { fails := [], whole := true, slots := 256 * t.convs.length }
      else { fails := [], whole := false, slots := 0 }
    else { fails := fs, whole := false, slots := (fs.map (fun k => perRow (k / 256))).sum }
  else { fails := [], whole := false, slots := 0 }

/-- Window quanta, destination, row mask and format of a rounding descriptor (R172). -/
def roundArgs (d : Nat) : Nat × Nat × Nat × Option Fmt := (bits d 11 12, 64 * bits d 23 16, bits d 39 16, Fmt.ofCode (bits d 0 3))

/-- What a TRND of `r` bytes a row books on the output port. -/
def roundBook (s : State) (f d r : Nat) : Book :=
  let c := (getFold s f).now
  let w := bits d 11 12
  ⟨5, 0, c + 24 + 4 * w, c + 31 + 4 * w, ceilDiv ((maskRows (bits d 39 16)).length * r) 8⟩

/-- The writes of a TRND of `r` bytes a row: they land from c + 24 + 4W and are usable at c + 32 + 4W (R172). -/
def roundWrites (s : State) (f d r : Nat) : List VsPend :=
  let c := (getFold s f).now
  let (w, dst, rows, _) := roundArgs d
  (maskRows rows).map (fun v => vsWrite (dst + v * r) r c (c + 32 + 4 * w) (c + 24 + 4 * w))

/-- The fields of a TRND that break R192 codes 1 and 2. -/
def roundFields (rsv d : Nat) : List Stop :=
  let (_, dst, rows, fmt) := roundArgs d
  let top := (maskRows rows).foldl (fun m v => max m (v + 1)) 0
  stopIf (rsv != 0 || bits d 65 63 != 0) (.contract 1 0 0)
    ++ stopIf (fmt.isNone || bits d 3 8 == 0xFF || decide (vsSize < dst + top * rowBytes (fmt.getD .int4))) (.contract 2 0 0)

/-- The rules of a claim that a TRND breaks (R141). -/
def roundClaim (s : State) (f t tag : Nat) : List Stop := match claimCause s f t tag with
  | some q => [.clash t q tag]
  | none => stopIf (addInFlight (getFold s f) t) (.clash t 4 tag)

/-- The other rows of R192 that a TRND breaks, and its clash; an undefined output format leaves no writes to check. The mode rule holds for a tile whose claim admits the operation. -/
def roundRules (s : State) (f t tag d : Nat) : List Stop :=
  let x := getFold s f
  let fmt := (roundArgs d).2.2.2
  let fo := fmt.getD .int4
  let r := rowBytes fo
  stopIf ((claimCause s f t tag).isNone && (x.tile t).mode == 1 && fmt == some .bf16) (.contract 3 0 0)
    ++ stopIf (fmt.isSome && (roundArgs d).2.2.1 != 0 && overbooked x.books (roundBook s f d r) 1024) (.contract 7 0 5)
    ++ stopIf (fmt.isSome && (roundWrites s f d r).any (vsHazard x)) (.contract 8 0 0)
    ++ stopIf (decide (4 ≤ x.trnds.length)) (.contract 9 0 0)
    ++ roundClaim s f t tag

/-- What stops a TRND at its issue (R141, R192). -/
def roundCheck (s : State) (f t tag rsv desc : Nat) : List Stop :=
  allStops (roundFields rsv (roundDesc s f desc)) (roundRules s f t tag (roundDesc s f desc))

/-- A TRND that its check lets through: it takes its snapshot of the tile, and its resolve work is known (R120, R172). -/
def doRound (s : State) (f t : Nat) (close : Bool) (desc : Nat) (e : Ecc) : State :=
  let d := roundDesc s f desc
  let (w, dst, rows, fmt) := roundArgs d
  let fo := fmt.getD .int4
  let r := rowBytes fo
  let book := roundBook s f d r
  let writes := roundWrites s f d r
  let s := tileEcc s f t e
  let y := (getFold s f).tile t
  let k := resolveWork y rows (e8m0Exp (bits d 3 8)) fo
  modFold s f (fun x =>
    let x := writes.foldl pendVs x
    { x with
      trnds := x.trnds ++ [{
        tile := t, close := close, c := x.now, fo := bits d 0 3, eo := e8m0Exp (bits d 3 8), w := w, dst := dst, rows := rows
        layer := bits d 55 10, fails := k.fails, whole := k.whole, slots := k.slots, left := k.slots, ended := false, snap := y
        ref := Tile.zero, bundle := x.lastPc }]
      books := if rows = 0 then x.books else x.books ++ [book] })

/-- TRND at its issue. -/
def issueTrnd (s : State) (f t tag : Nat) (close : Bool) (rsv desc : Nat) (e : Ecc) : State :=
  issueWith s f (roundCheck s f t tag rsv desc) (doRound s f t close desc e)

/-- TRND (R172). -/
def execTrnd (fold : Fin 68) (tile : Fin 128) (tag : BitVec 8) (close : Bool) (rsv : BitVec 3) (desc : Fin 512) (ecc : Ecc) (s : State) :
    Host.Outcome State Fault Refusal :=
  .next (syllable s fold 0 (trndWord tile tag close rsv desc) (fun s => issueTrnd s fold tile tag.toNat close rsv.toNat desc ecc))

/-! ## The resolve window (R119 to R123, R189) -/

/-- A conversion with its exact values computed by the Resolve unit. -/
def resolvedConv (s : State) (f : Nat) (k : Conv) : Conv :=
  { k with data := k.data.map (fun d => { d with exact := cols.map (resolvedColumn s f d) }) }

/-- The reference tile of a rounding operation with resolve work. The Resolve unit is taken to read the staging copies at the end of
the window (R119, R120; DESIGN CHOICE, log entry 90), and to run R108 in full for single elements too (DESIGN CHOICE, log entry 124). -/
def resolvedTile (s : State) (f : Nat) (t : Trnd) : Tile :=
  if t.whole || !t.fails.isEmpty then referenceTile t.snap.te0 (t.snap.convs.map (resolvedConv s f)) else Tile.zero

/-- The end of the resolve window of a rounding operation: its pause when work remains (R122, R123). -/
def windowEnd (s : State) (f : Nat) (t : Trnd) : State :=
  let pg := foldPg f
  let ref := resolvedTile s f t
  let (x, n) := endWindow (getFold s f) t
  let s := putFold s f { x with trnds := x.trnds.map (fun u => if u.c = t.c then { u with ref := ref } else u) }
  let s := bump s pg F.RES_SLOT_CNT t.slots
  if n = 0 then s
  else askPause (modFold (bump (setRecipe s f t.layer flagResolve) pg F.RES_PAUSE_CYC n) f (fun x => { x with resPaused := true })) (pauseKey (16 * f) causeResolve) n

/-- RESOLVE_WINDOW_END (R122, R123): `residue` is a residue mismatch of the Resolve unit (R374). -/
def execResolveWindowEnd (fold : Fin 68) (residue : Bool) (s : State) : Host.Outcome State Fault Refusal :=
  match nextWindow (getFold s fold) with
  | none => .next s
  | some t =>
    if due s (windowStop t) then .next (if residue then residueFail (windowEnd s fold t) fold else windowEnd s fold t) else .next s

/-! ## TRND_DELIVER (R109, R117, R118, R126 to R128, R172) -/

/-- The format of a rounding operation. -/
def fmtOf (code : Nat) : Fmt := (Fmt.ofCode code).getD .int4

/-- The output of element `k` of a rounding operation (R117, R118, R120, R126). -/
def outputOf (t : Trnd) (k : Nat) : Rat :=
  let y := t.snap
  if y.poison then 0
  else if t.whole || t.fails.contains k then roundOut (getD 0 t.ref.m k) t.ref.te t.eo (fmtOf t.fo)
  else roundOut (getD 0 y.m k) y.te t.eo (fmtOf t.fo)

/-- Whether a bounded output is delivered with BOUND_VOID (R127, R128, R516, R518). -/
def isVoid (t : Trnd) (k : Nat) : Bool :=
  let y := t.snap
  let v := k / 256
  let c := k % 256
  y.mode == 0 && !y.poison && !t.whole
    && (satClipped y v c || y.xdoubt || getD 0 y.b k == 0xFFFF || rangeRow y v || satStrayRow y v || (resolveClipped y v c && y.combined))

/-- Write the outputs of a rounding operation into the vector store. -/
def writeOutputs (s : State) (f : Nat) (t : Trnd) : State :=
  forEach s (maskRows t.rows) (fun s v =>
    droveBytes s (vsAddr f (t.dst + v * rowBytes (fmtOf t.fo)))
      (packRow (cols.map (fun c => encodeFmt (outputOf t (256 * v + c)) (fmtOf t.fo))) (fmtOf t.fo)))

/-- Counters and flags of the outputs delivered. A tile resolved whole, as exponent-doubtful, counts in RES_XDOUBT_CNT and none of its
outputs in RES_CLIP_CNT (R132; DESIGN CHOICE, log entry 94). -/
def countOutputs (s : State) (f : Nat) (t : Trnd) : State :=
  let pg := foldPg f
  let y := t.snap
  let tested := serviceOrder (maskRows (t.rows &&& y.rows))
  let n := tested.length
  let res := if t.whole then n else t.fails.length
  let clips := if t.whole then 0 else (t.fails.filter (fun k => y.convs.any (fun q => q.op.row == k / 256 && clippedAt q (k % 256)))).length
  let s := bump s pg F.RES_CLIP_CNT clips
  let s := if t.whole then bump s pg F.RES_XDOUBT_CNT else s
  if y.mode = 1 && !y.poison && !y.windowed then
    let s := bump (bump s pg F.CERT_PASS_CNT (n - res)) pg F.RES_CNT res
    modFold s f (fun x => { x with certOut := x.certOut + n, certRes := x.certRes + res })
  else
    let void := ((serviceOrder (maskRows t.rows)).filter (isVoid t)).length
    if void = 0 then s else setRecipe (bump s pg F.BND_VOID_CNT void) f t.layer flagVoid

/-- The tile after the delivery: a whole resolve replaces its elements, and the close bit ends its claim. When an add has landed
since the snapshot the replacement would lose it, so nothing is replaced; doubts and the exponent-doubt mark stay as they are after a
replacement (R120; DESIGN CHOICE, log entry 94). -/
def afterDelivery (t : Trnd) (y : Tile) : Tile :=
  let y := if t.whole ∧ y.convs = t.snap.convs then { y with m := t.ref.m, te := t.ref.te, sat := t.ref.sat } else y
  if t.close then { y with open_ := false, convs := [] } else y

/-- The delivery of a rounding operation. -/
def deliverTrnd (s : State) (f : Nat) (t : Trnd) : State :=
  let s := modFold s f (fun x => { x with trnds := x.trnds.filter (fun u => u.c != t.c) })
  let s := countOutputs (writeOutputs s f t) f t
  modTile s f t.tile (afterDelivery t)

/-- The rounding operation whose window has ended and that delivers next: the least delivery cycle, the first issued among equals. -/
def nextOutputs (x : Fold) : Option Trnd :=
  x.trnds.foldl (fun m t => if !t.ended then m else match m with
    | some u => if trndTime t < trndTime u then some t else m
    | none => some t) none

/-- TRND_DELIVER (R172): at c + 32 + 4W. -/
def execTrndDeliver (fold : Fin 68) (s : State) : Host.Outcome State Fault Refusal :=
  match nextOutputs (getFold s fold) with
  | some t => .next (if due s (trndTime t) then deliverTrnd s fold t else s)
  | none => .next s

/-! ## TCMB and COMBINE_LAND (R148, R150, R173) -/

/-- Bytes of a partial-tile image by mode: bounded images carry doubts. -/
def imageLen (mode : Nat) : Nat := if mode = 0 then 28928 else 20736

/-- What a TCMB books on the span port: its cycles, each as full (R153; DESIGN CHOICE, log entry 109). -/
def combineBook (s : State) (f t : Nat) : Book :=
  let x := getFold s f
  ⟨3, 0, x.now, x.now + ceilDiv (imageLen (x.tile t).mode) 1536 - 1, 1536⟩

/-- The operand of a TCMB: the image in the vector store. -/
def combineOperand (s : State) (f t image : Nat) : Tile :=
  let m := ((getFold s f).tile t).mode
  imageTile (droveRead s (vsAddr f (512 * image)) (imageLen m)) (m == 0)

/-- The read of a TCMB through VS-Q (R173). -/
def combineRead (s : State) (f t image : Nat) : VsPend :=
  let x := getFold s f
  let b := imageLen (x.tile t).mode
  vsRead (512 * image) b x.now (x.now + ceilDiv b 1536) (x.now + ceilDiv b 1536)

/-- What stops a TCMB at its issue before it reads (R141, R173, R192). -/
def combineCheck (s : State) (f t tag image : Nat) : List Stop :=
  let x := getFold s f
  let y := x.tile t
  let claim := match claimCause s f t tag with
    | some q => [.clash t q tag]
    | none => []
  allStops (stopIf (decide (vsSize < 512 * image + imageLen y.mode)) (.contract 2 0 0))
    (if y.mode = 1 then (if claim.isEmpty then [.contract 3 0 0] else claim)
    else stopIf (overbooked x.books (combineBook s f t) 1536) (.contract 7 0 3)
      ++ stopIf (vsHazard x (combineRead s f t image)) (.contract 8 0 0) ++ claim)

/-- A TCMB that its check lets through: its add lands later. An image of another mode suppresses the combine, and the read takes place
all the same (R173). -/
def doCombine (s : State) (f t image : Nat) (e : Ecc) : State :=
  let op := combineOperand s f t image
  let book := combineBook s f t
  let read := combineRead s f t image
  let same := op.mode == ((getFold s f).tile t).mode
  let s := modFold s f (fun x => pendVs { x with books := x.books ++ [book] } read)
  if same then
    modFold (tileEcc s f t e) f (fun y => { y with combines := y.combines ++ [⟨t, op, op.layer, y.now, y.lastPc⟩] })
  else faultHere s f 3 0

/-- TCMB at its issue. -/
def issueTcmb (s : State) (f t tag image : Nat) (e : Ecc) : State :=
  issueWith s f (combineCheck s f t tag image) (doCombine s f t image e)

/-- TCMB (R173). -/
def execTcmb (fold : Fin 68) (tile : Fin 128) (tag : BitVec 8) (image : BitVec 13) (ecc : Ecc) (s : State) :
    Host.Outcome State Fault Refusal :=
  .next (syllable s fold 0 (tcmbWord tile tag image) (fun s => issueTcmb s fold tile tag.toNat image.toNat ecc))

/-- COMBINE_LAND of the oldest combine. -/
def landCombine (s : State) (f : Nat) (k : Combine) (rest : List Combine) : State :=
  let r := redAdd ((getFold s f).tile k.tile) k.operand
  let s := modFold s f (fun x => { x with combines := rest })
  let s := modTile s f k.tile (fun _ => { r.tile with layer := k.layer })
  repeatEffects s f k.layer r.passes r.sat

/-- COMBINE_LAND (R173): the add lands at c + 32. -/
def execCombineLand (fold : Fin 68) (s : State) : Host.Outcome State Fault Refusal :=
  match (getFold s fold).combines with
  | k :: rest => .next (if due s (k.c + 32) then landCombine s fold k rest else s)
  | [] => .next s

end Sys2Proof.Machine
end

