-- ==== Sys2Proof/Machine/Digest.lean ====
section
/-! DEFINITION. SHA-256 (R196, R269, R399, R411, R462), SipHash-2-4 (R182, R308) and CRC-32 (R323). -/

namespace Sys2Proof.Machine

/-- 32 zero bytes: an empty digest. -/
def zeroDigest : List Byte := List.replicate 32 0

/-! ## SHA-256 -/

/-- Word `j` of a number that holds eight words, the first in its top bits. -/
def octWord (n j : Nat) : Word := BitVec.ofNat 32 (n >>> (32 * (7 - j)))

/-- The constants of eight rounds of SHA-256 in one number, the first round in the top bits. -/
def shaRow (octet : Nat) : Nat := match octet with
  | 0 => 0x428A2F98_71374491_B5C0FBCF_E9B5DBA5_3956C25B_59F111F1_923F82A4_AB1C5ED5
  | 1 => 0xD807AA98_12835B01_243185BE_550C7DC3_72BE5D74_80DEB1FE_9BDC06A7_C19BF174
  | 2 => 0xE49B69C1_EFBE4786_0FC19DC6_240CA1CC_2DE92C6F_4A7484AA_5CB0A9DC_76F988DA
  | 3 => 0x983E5152_A831C66D_B00327C8_BF597FC7_C6E00BF3_D5A79147_06CA6351_14292967
  | 4 => 0x27B70A85_2E1B2138_4D2C6DFC_53380D13_650A7354_766A0ABB_81C2C92E_92722C85
  | 5 => 0xA2BFE8A1_A81A664B_C24B8B70_C76C51A3_D192E819_D6990624_F40E3585_106AA070
  | 6 => 0x19A4C116_1E376C08_2748774C_34B0BCB5_391C0CB3_4ED8AA4A_5B9CCA4F_682E6FF3
  | _ => 0x748F82EE_78A5636F_84C87814_8CC70208_90BEFFFA_A4506CEB_BEF9A3F7_C67178F2

/-- The eight words that the hash of an empty prefix stands at, in one number. -/
def shaStart : Nat :=
  0x6A09E667_BB67AE85_3C6EF372_A54FF53A_510E527F_9B05688C_1F83D9AB_5BE0CD19

/-- The XOR of a word's rotations to the right. -/
def mixRot (w : Word) (by_ : List Nat) : Word := by_.foldl (fun m k => m ^^^ w.rotateRight k) 0

/-- A block under compression. The two chains hold their four newest words, newest first; `win` holds the next sixteen words of the
message schedule, the next first. -/
structure ShaRun where
  /-- the chain of a, b, c and d -/
  upper : List Word
  /-- the chain of e, f, g and h -/
  lower : List Word
  /-- the window of the schedule -/
  win : List Word

/-- Bits of `y` where `x` has ones and of `z` elsewhere. -/
def pick (x y z : Word) : Word := z ^^^ (x &&& (y ^^^ z))

/-- Round `t`: each chain takes a new word, and the window moves on by one. -/
def shaStep (r : ShaRun) (t : Nat) : ShaRun :=
  match r.upper, r.lower, r.win with
  | a :: b :: c :: d :: _, e :: f :: g :: h :: _, w :: ws =>
    let feed := w + octWord (shaRow (t / 8)) (t % 8) + h + pick e f g + mixRot e [25, 11, 6]
    let next := ws.getD 8 0 + w + (mixRot (ws.getD 13 0) [19, 17] ^^^ ws.getD 13 0 >>> 10) + (mixRot (ws.getD 0 0) [18, 7] ^^^ ws.getD 0 0 >>> 3)
    { upper := [feed + mixRot a [22, 13, 2] + pick (a ^^^ b) c a, a, b, c], lower := [d + feed, e, f, g], win := ws ++ [next] }
  | _, _, _ => r

/-- The hash after one more block of 64 bytes. -/
def shaFold (hash : List Word) (block : List Byte) : List Word :=
  let words := (List.range 16).map (fun k => BitVec.ofNat 32 (beNat ((block.drop (4 * k)).take 4)))
  let r := (List.range 64).foldl shaStep { upper := hash.take 4, lower := hash.drop 4, win := words }
  List.zipWith (· + ·) hash (r.upper ++ r.lower)

/-- The hash after `n` blocks. -/
def shaChain : Nat → List Word → List Byte → List Word
  | 0, hash, _ => hash
  | n + 1, hash, bs => shaChain n (shaFold hash bs) (bs.drop 64)

/-- The bytes of a word, its high byte first. -/
def beBytes (w : Word) : List Byte := [24, 16, 8, 0].map (fun k => BitVec.ofNat 8 (w.toNat >>> k))

/-- A message with the padding that fills its last block: a one, zeros, and its length in bits. -/
def shaPad (msg : List Byte) : List Byte :=
  let bits := 8 * msg.length
  msg ++ [(0x80 : Byte)] ++ (List.replicate ((119 - msg.length % 64) % 64) (0 : Byte) ++ (beBytes (BitVec.ofNat 32 (bits >>> 32)) ++ beBytes (BitVec.ofNat 32 bits)))

/-- SHA-256 of a byte string. -/
def sha256 (msg : List Byte) : List Byte :=
  (shaChain (msg.length / 64 + (if msg.length % 64 < 56 then 1 else 2)) ((List.range 8).map (octWord shaStart)) (shaPad msg)).flatMap beBytes

/-! ## SipHash-2-4 -/

/-- The four SipHash state words. -/
structure SipState where
  /-- state word v0 -/
  v0 : BitVec 64
  /-- state word v1 -/
  v1 : BitVec 64
  /-- state word v2 -/
  v2 : BitVec 64
  /-- state word v3 -/
  v3 : BitVec 64

/-- One SipRound. -/
def sipRound (s : SipState) : SipState :=
  let a0 := s.v0 + s.v1
  let a1 := s.v1.rotateLeft 13 ^^^ a0
  let a0 := a0.rotateLeft 32
  let a2 := s.v2 + s.v3
  let a3 := s.v3.rotateLeft 16 ^^^ a2
  let b0 := a0 + a3
  let b3 := a3.rotateLeft 21 ^^^ b0
  let b2 := a2 + a1
  let b1 := a1.rotateLeft 17 ^^^ b2
  ⟨b0, b1, b2.rotateLeft 32, b3⟩

/-- Absorb one message word: two rounds. -/
def sipAbsorb (s : SipState) (m : BitVec 64) : SipState :=
  let s := sipRound (sipRound { s with v3 := s.v3 ^^^ m })
  { s with v0 := s.v0 ^^^ m }

/-- The little-endian 64-bit words of a byte string, the last padded with its length. -/
def sipWords : Nat → List Byte → Nat → List (BitVec 64)
  | 0, bs, len => [BitVec.ofNat 64 (leNat (bs.take 7) + (len % 256) * 2 ^ 56)]
  | n + 1, bs, len => BitVec.ofNat 64 (leNat (bs.take 8)) :: sipWords n (bs.drop 8) len

/-- SipHash-2-4, 64-bit output, under a 128-bit key given as 16 bytes. -/
def sipHash24 (key msg : List Byte) : Nat :=
  let k0 := BitVec.ofNat 64 (leNat (key.take 8))
  let k1 := BitVec.ofNat 64 (leNat ((key.drop 8).take 8))
  let s : SipState := ⟨k0 ^^^ 0x736f6d6570736575, k1 ^^^ 0x646f72616e646f6d,
    k0 ^^^ 0x6c7967656e657261, k1 ^^^ 0x7465646279746573⟩
  let s := (sipWords (msg.length / 8) msg msg.length).foldl sipAbsorb s
  let s := { s with v2 := s.v2 ^^^ 0xff }
  let s := sipRound (sipRound (sipRound (sipRound s)))
  (s.v0 ^^^ s.v1 ^^^ s.v2 ^^^ s.v3).toNat

/-! ## CRC-32 -/

/-- One bit of the reflected CRC-32 with polynomial 0x04C1_1DB7. -/
def crcBit (c : Word) : Word :=
  if c.getLsbD 0 then (c >>> 1) ^^^ 0xEDB88320 else c >>> 1

/-- One byte of CRC-32. -/
def crcByte (c : Word) (b : Byte) : Word :=
  crcBit (crcBit (crcBit (crcBit (crcBit (crcBit (crcBit (crcBit (c ^^^ b.zeroExtend 32))))))))

/-- CRC-32 of IEEE 802.3 over a byte string (R323). -/
def crc32 (bs : List Byte) : Nat := (~~~ (bs.foldl crcByte 0xFFFFFFFF)).toNat

end Sys2Proof.Machine
end

