-- ==== Sys2Proof/Machine/Channel.lean ====
section
/-! DEFINITION. Shobuic channels: the sequence rule, answers, and the token stream (R353, R354, R359, R361, R362). -/

namespace Sys2Proof.Machine

/-- Add to what the device has sent. -/
def emit (s : State) (o : Out) : State := s.setOut (s.out ++ [o])

/-- Send one Ethernet frame. -/
def emitFrame (s : State) (o : Out) : State := emit (bump s ethPg F.FRAMES_TX) o

/-- A queue pair. -/
def getQp (s : State) (q : Nat) : Qp := getD Qp.init s.net.qps q

/-- Replace a queue pair. -/
def putQp (s : State) (q : Nat) (x : Qp) : State := s.setNet { s.net with qps := putD Qp.init s.net.qps q x }

/-- Packets that carry `n` bytes on a queue pair (R346). -/
def Qp.packets (x : Qp) (n : Nat) : Nat := max 1 (ceilDiv n x.mtu)

/-- The device sends a request of `n` bytes on a queue pair: one PSN and one frame for each packet. -/
def post (s : State) (q n : Nat) (o : Out) : State :=
  let x := getQp s q
  emit (bump (putQp s q { x with psn := (x.psn + x.packets n) % 2 ^ 24 }) ethPg F.FRAMES_TX (x.packets n)) o

/-! ## Queue pairs (R346, R498) -/

/-- NAK codes: sequence error. -/
def nakSequence : Nat := 1
/-- invalid request -/
def nakInvalid : Nat := 2
/-- remote access error -/
def nakAccess : Nat := 3

/-- An acknowledgement or a NAK leaves the device. -/
def sendRcAck (s : State) (q psn nak : Nat) : State := emitFrame s (.ack q psn nak)

/-- The next PSN that a queue pair expects moves on by `n` packets. -/
def movePsn (s : State) (q n : Nat) : State :=
  let x := getQp s q
  putQp s q { x with epsn := (x.epsn + n) % 2 ^ 24, naked := false }

/-- The network side works: boot has run. -/
def netUp (s : State) : Bool := s.boot.up && !s.boot.romHalt

/-- ECT(0), the ECN field of every RoCEv2 packet that the device sends (R350, RFC 3168). -/
def ect0 : Nat := 2

/-- The ECN field of what the device sends: its RoCEv2 packets are ECN-capable (R350). -/
def Out.ecn : Out → Option Nat
  | .response _ _ _ | .record _ _ _ _ | .tail _ _ _ | .ack _ _ _ | .readData _ _ _ | .resend _ _ | .cnp _ | .cmReply _ _ _ | .cmRequest _ _
  | .reply _ _ | .nvme _ _ _ _ _ _ => some ect0
  | .flit _ _ | .muster _ | .frame _ _ _ _ | .delayReq | .avs _ _ | .tdo _ | .pin _ _ => none

/-- The queue pair number that stands for QP1, which carries connection management (R346); connections use 0 to 1,023. -/
def qp1 : Nat := 1024

/-- A CE-marked packet is counted and answered with a CNP, at most one for its queue pair in 50 µs (R350). -/
def noteCe (s : State) (q : Nat) : State :=
  let s := bump s ethPg F.ECN_CE_RX
  let x := getQp s q
  if x.notified then s else emitFrame (bump (putQp s q { x with notified := true }) ethPg F.CNP_TX) (.cnp q)

/-- A packet whose ICRC fails is discarded and counted; of any other a CE mark is noted before `g` takes it (R346, R350). -/
def onPacket (s : State) (q : Nat) (ce bad : Bool) (g : State → State) : State :=
  if bad then bump s ethPg F.ICRC_ERR else g (if ce then noteCe s q else s)

/-- A PSN that is ahead of the expected one is answered with a sequence-error NAK, one until a packet comes in order (R346; the
InfiniBand rule is PRESUMED, log entry 113). -/
def nakAhead (s : State) (q : Nat) : State :=
  let x := getQp s q
  if x.naked then s else sendRcAck (putQp s q { x with naked := true }) q x.epsn nakSequence

/-- Packets arrive on a queue pair; one that is not connected discards them. In order they go to `g`; packets that the device has had
before go to `dup`; packets further ahead are answered with a NAK (R346). -/
def takePacket (s : State) (q : Nat) (k : Pkt) (g dup : State → State) : State :=
  if !netUp s || (getQp s q).st != 1 then s
  else onPacket s q k.ce k.icrcBad (fun s =>
    let e := (getQp s q).epsn
    if k.psn.toNat = e then g s else if serialNewer 24 k.psn.toNat e then nakAhead s q else dup s)

/-- Packets that the device has had before are acknowledged again (R346). -/
def ackAgain (s : State) (q : Nat) : State := sendRcAck s q ((2 ^ 24 - 1 + (getQp s q).epsn) % 2 ^ 24) 0

/-- SENDs, or RDMA WRITEs and a SEND, of `n` packets in all arrive on a queue pair: in order its PSN moves on, the device acknowledges the
last packet, and `g` takes what they carry (R346). -/
def takePackets (s : State) (q n : Nat) (k : Pkt) (g : State → State) : State :=
  takePacket s q k (fun s => g (sendRcAck (movePsn s q n) q (((getQp s q).epsn + n - 1) % 2 ^ 24) 0)) (fun s => ackAgain s q)

/-- Queue pairs in use that meet a test. -/
def qpsUsed (s : State) (test : Qp → Bool) : Nat := (s.net.qps.filter (fun e => e.2.st != 0 && test e.2)).length

/-- Queue pairs in use across the device, the weight loader's among them (R346, R498). -/
def allQps (s : State) : Nat := qpsUsed s (fun _ => true)

/-- The port rate, Mb/s (R343). -/
def portSpeed : Rat := 1600000

/-- The lowest unused queue pair number, while a pen's quota and the device's 1,024 allow one more (R346). -/
def roomForQp (s : State) (p : Nat) : Option Nat :=
  if qpsUsed s (fun q => q.pen == p) < rd s (penPg p) F.PEN_QP_QUOTA ∧ allQps s < 1024 then
    (List.range 1024).find? (fun q => (getQp s q).st == 0)
  else none

/-- A new queue pair of a pen: its first PSN is free. -/
def newQp (s : State) (q : Nat) (x : Qp) : State :=
  let (v, s) := drawNat s
  putQp s q { x with psn := v % 2 ^ 24, acked := v % 2 ^ 24, rate := portSpeed }

/-! ## The weight loader's connections (R271, R346) -/

/-- The queue pair of an NVMe target. -/
def targetQp (s : State) (t : Nat) : Option Nat := match (getD Target.none s.weights.targets t).qp with
  | 0 => none
  | q + 1 => some q

/-- Name the queue pair of a target: its number plus 1, 0 for none. -/
def setTargetQp (s : State) (t q : Nat) : State :=
  s.setWeights { s.weights with targets := modD Target.none s.weights.targets t (fun x => { x with qp := q }) }

/-- The device asks a target for a connection, as a requester: it takes a queue pair of the owning pen when there is room for one, and
the target is connecting (R271, R287, R346; DEDUCED, log entry 104). -/
def connectTarget (s : State) (t : Nat) : State :=
  let p := rd s wloadPg F.WL_TARGET_PEN t
  let s := wr s wloadPg F.WL_TARGET_STATE t 1
  match roomForQp s p with
  | some q => emitFrame (setTargetQp (newQp s q { Qp.init with st := 3, pen := p }) t (q + 1)) (.cmRequest t q)
  | none => s

/-- The connection of a target is gone (R287). -/
def dropTarget (s : State) (t : Nat) : State := wr (setTargetQp s t 0) wloadPg F.WL_TARGET_STATE t 3

/-- The targets that a queue pair served have lost their connection. -/
def dropTargets (s : State) (q : Nat) : State :=
  forEach s ((List.range 64).filter (fun t => targetQp s t == some q)) dropTarget

/-- The key of a channel. -/
def chanKey (pen ch : Nat) : Nat := 128 * pen + ch

/-- A channel. -/
def getChan (s : State) (pen ch : Nat) : Chan := getD Chan.init s.net.chans (chanKey pen ch)

/-- Replace a channel. -/
def putChan (s : State) (pen ch : Nat) (c : Chan) : State :=
  s.setNet { s.net with chans := putD Chan.init s.net.chans (chanKey pen ch) c }

/-- Change a channel. -/
def modChan (s : State) (pen ch : Nat) (g : Chan → Chan) : State := putChan s pen ch (g (getChan s pen ch))

/-- The state of a channel: 0 closed, 1 open, 2 orphaned. -/
def chanState (s : State) (pen ch : Nat) : Nat := rd s (penPg pen) F.CH_STATE_STATE ch

/-- The queue pair of a channel. -/
def chanQp (s : State) (pen ch : Nat) : Nat := rd s (penPg pen) F.CH_STATE_QP ch

/-- No queue pair serves a channel any more: one in error becomes unused. -/
def releaseQps (s : State) (pen ch : Nat) : State :=
  forEach s (s.net.qps.filter (fun e => e.2.pen == pen && e.2.chan == ch + 1)) (fun s e =>
    putQp s e.1 (if e.2.st = 2 then Qp.init else { e.2 with chan := 0 }))

/-- A RESPONSE message (R353, R356): its header carries the sequence and the host tag of the message it answers. -/
def responseBytes (h : MsgHead) (typ status : Nat) (more : List Byte) : List Byte :=
  let body := BitVec.ofNat 8 typ :: BitVec.ofNat 8 status :: more
  [0x80, 0] ++ toLe 2 body.length ++ toLe 4 h.seq.toNat ++ toLe 8 h.tag.toNat ++ List.replicate 16 0 ++ body

/-- Send a message to the host of a channel whose queue pair is connected. -/
def sendHost (s : State) (pen ch : Nat) (bytes : List Byte) : State :=
  if chanState s pen ch = 1 then post s (chanQp s pen ch) bytes.length (.response pen ch bytes) else s

/-- Keep at most the last `n` entries. -/
def lastN {α : Type} (n : Nat) (xs : List α) : List α := xs.drop (xs.length - n)

/-- How often a channel index has closed. -/
def chanLife (s : State) (pen ch : Nat) : Nat := getD 0 s.net.lives (chanKey pen ch)

/-- A channel closes: it holds nothing any more, and the answers still to come to its messages are dropped (R352, R359). -/
def clearChan (s : State) (pen ch : Nat) : State :=
  let s := putChan s pen ch Chan.init
  s.setNet { s.net with lives := putD 0 s.net.lives (chanKey pen ch) (chanLife s pen ch + 1) }

/-- Answer an executed message: the answer joins the channel's record of its last 256 responses (R354, R359). A message of a channel that
has closed in the meantime has no channel to be answered on. -/
def respond (s : State) (h : MsgHead) (typ status : Nat) (more : List Byte := []) : State :=
  if h.life ≠ chanLife s h.pen h.ch then s
  else
    let bytes := responseBytes h typ status more
    let s := if 0xF0 ≤ status ∧ status ≤ 0xF4 then bump s (penPg h.pen) F.SHOB_BAD_CNT else s
    let s := modChan s h.pen h.ch (fun c =>
      { c with answers := lastN 256 (c.answers ++ [(h.seq.toNat, bytes)]), open_ := c.open_.filter (· != h.seq.toNat) })
    sendHost s h.pen h.ch bytes

/-- Answer a message that is not executed. -/
def turnAway (s : State) (h : MsgHead) (typ status : Nat) : State :=
  sendHost (bump s (penPg h.pen) F.SHOB_BAD_CNT) h.pen h.ch (responseBytes h typ status [])

/-- A message that is not newer than the last executed one (R354). One that is executed but not answered yet gets its
one answer when it comes. -/
def duplicate (s : State) (h : MsgHead) (typ : Nat) : State :=
  let c := getChan s h.pen h.ch
  match c.answers.find? (fun a => a.1 == h.seq.toNat) with
  | some a => sendHost s h.pen h.ch a.2
  | none => if c.open_.contains h.seq.toNat then s else turnAway s h typ 0xF2

/-- A message completes on its channel: its sequence is checked, and `g` executes it when it is the next (R354). `len` says
whether its body length is right for its type, `pens` whether its pen may send it (R356, R359); a pen that may not is answered 0xF1 whatever
the body (DEDUCED, log entry 132). -/
def message (s : State) (h : MsgHead) (typ : Nat) (pens len : Bool) (g : MsgHead → State → State) : State :=
  if chanState s h.pen h.ch = 0 then s
  else
    let c := getChan s h.pen h.ch
    let h := { h with life := chanLife s h.pen h.ch }
    if h.seq.toNat = (c.seq + 1) % 2 ^ 24 then
      let s := bump (bump s (penPg h.pen) F.SHOB_MSG_CNT) shobPg F.SHOB_MSG_ALL
      let s := putChan s h.pen h.ch { c with seq := h.seq.toNat, open_ := c.open_ ++ [h.seq.toNat] }
      if !pens then respond s h typ 0xF1
      else if h.bad || !len then respond s h typ 0xF0
      else g h s
    else if serialNewer 24 h.seq.toNat c.seq then turnAway s h typ 0xF3
    else duplicate s h typ

/-- A message with an `n`-byte body comes as SENDs on the queue pair of its channel, and `g` takes it when they come in order; one of the
ring path comes as RDMA WRITEs instead (R346, R352, R355). -/
def sendIn (s : State) (h : MsgHead) (n : Nat) (g : State → State) : State :=
  if chanState s h.pen h.ch = 1 ∧ rd s (penPg h.pen) F.CH_STATE_RING h.ch = 0 then
    takePackets s (chanQp s h.pen h.ch) ((getQp s (chanQp s h.pen h.ch)).packets (32 + n)) h.pkt g
  else g s

/-- Bytes `a` to `a + n - 1` of a message body. -/
def field (body : List Byte) (a n : Nat) : List Byte := (body.drop a).take n

/-- A little-endian field of a message body. -/
def fieldNat (body : List Byte) (a n : Nat) : Nat := leNat (field body a n)

/-- Whether bytes `a` to `a + n - 1` of a message body are zero. -/
def zeroField (body : List Byte) (a n : Nat) : Bool := (field body a n).all (· == 0)

/-! ## The token stream (R361, R362) -/

/-- Show the number of spilled records in CH_STATE, and the largest one in SHOB_SPILL_PEAK (R366, R498). -/
def showSpill (s : State) (pen ch : Nat) : State :=
  let n := (getChan s pen ch).spill.length
  wr (wr0 s shobPg F.SHOB_SPILL_PEAK (max (min 16384 n) (rd s shobPg F.SHOB_SPILL_PEAK))) (penPg pen) F.CH_STATE_SPILL ch n

/-- Free records of a channel's token ring. -/
def ringSpace (s : State) (pen ch : Nat) : Nat :=
  let c := getChan s pen ch
  c.records - (2 ^ 32 + c.tail - rd s (penPg pen) F.CH_TR_HEAD ch) % 2 ^ 32

/-- Write records into a token ring. -/
def putRecords (s : State) (pen ch : Nat) : List (List Byte) → State
  | [] => s
  | r :: rs =>
    let c := getChan s pen ch
    let s := post s (chanQp s pen ch) 64 (.record pen ch (c.ring + 64 * (c.tail % c.records)) r)
    putRecords (putChan s pen ch { c with tail := (c.tail + 1) % 2 ^ 32 }) pen ch rs

/-- Move records from the spill buffer into the ring while it has space, and send the new tail (R361). -/
def drain (s : State) (pen ch : Nat) : State :=
  let c := getChan s pen ch
  let n := min (ringSpace s pen ch) c.spill.length
  if chanState s pen ch = 1 ∧ 0 < n ∧ 0 < c.records then
    let s := putRecords (putChan s pen ch { c with spill := c.spill.drop n }) pen ch (c.spill.take n)
    showSpill (post s (chanQp s pen ch) 0 (.tail pen ch (getChan s pen ch).tail)) pen ch
  else s

/-- Give a batch of records to a channel (R361 to R363); a closed channel's records are dropped. The records that pass the
buffer stay in the list until the caller closes the channel. -/
def streamOut (s : State) (pen ch : Nat) (rs : List (List Byte)) : State :=
  if chanState s pen ch = 0 then s
  else showSpill (drain (modChan s pen ch (fun c => { c with spill := c.spill ++ rs })) pen ch) pen ch

/-- The spill buffer holds 16,384 records. -/
def spillSize : Nat := 16384

end Sys2Proof.Machine
end

