-- ==== Sys2Proof/Machine/Flits.lean ====
section
/-! DEFINITION. The bytes of flits: headers, marker, message and CTRL payloads, and the CRC (R208, R213, R322, R323, R337, R443). -/

namespace Sys2Proof.Machine

/-- Zero bytes. -/
def zeroBytes (n : Nat) : List Byte := List.replicate n 0

/-- The 16-byte header of a flit; `more` are its bytes 6 to 15 (R322). -/
def flitHeader (typ : Nat) (zero : Bool) (seq ack : Nat) (nack : Bool) (more : List Byte) : List Byte :=
  [BitVec.ofNat 8 (typ + 16 * b2n zero), 0] ++ toLe 2 seq ++ toLe 2 (ack + 4096 * b2n nack) ++ more

/-- Header bytes 6 to 15 of a DATA flit (R322). -/
def dataHeader (dev slot space addr tally : Nat) : List Byte :=
  toLe 2 dev ++ [BitVec.ofNat 8 (slot + 64 * space), 0] ++ toLe 4 addr ++ toLe 2 tally

/-- A flit with its CRC, least significant byte first (R323). -/
def sealFlit (header payload : List Byte) : List Byte := header ++ payload ++ toLe 4 (crc32 (header ++ payload))

/-! ## Markers (R208, R213, R443) -/

/-- Bytes 0 to 31 of a marker. -/
def markerHead (kind : Nat) (m : Marker) : List Byte :=
  toLe 2 m.domain ++ toLe 2 m.sender ++ [BitVec.ofNat 8 kind, BitVec.ofNat 8 m.hop] ++ zeroBytes 2 ++ toLe 8 m.num
    ++ toLe 8 (if kind = 1 ∨ kind = 2 then m.time else 0)
    ++ [BitVec.ofNat 8 (if kind = 2 ∨ kind = 8 then m.q else 0),
        BitVec.ofNat 8 (if kind = 8 then b2n m.commitExchange + 2 * b2n m.childMissing else 0)] ++ zeroBytes 6

/-- Flock entry `k`: entry `k` is that of flock `k` (DEDUCED, log entry 96). -/
def flockBytes (es : List FlockEntry) (k : Nat) : List Byte :=
  match es.find? (fun e => e.flock.val == k) with
  | some e => [BitVec.ofNat 8 k, BitVec.ofNat 8 e.state] ++ toLe 6 e.step
  | none => BitVec.ofNat 8 k :: zeroBytes 7

/-- The sixteen flock entries. -/
def flocksBytes (m : Marker) : List Byte := (List.range 16).flatMap (flockBytes m.flocks)

/-- The readiness bytes of a REPORT (R213). -/
def readyBytes (m : Marker) : List Byte :=
  (List.range 16).map (fun k => BitVec.ofNat 8 (((m.ready.find? (fun r => r.1.val == k)).map (·.2)).getD 0))

/-- The payload of a marker that is no SWAP. -/
def markerBytes (kind : Nat) (m : Marker) : List Byte :=
  markerHead kind m ++
    (if kind = 9 then
      (m.slacks.take 16).flatMap (fun e => toLe 2 e.dev ++ toLe 4 e.slack) ++ List.replicate (6 * (16 - m.slacks.length)) 0xFF ++ zeroBytes 128
    else if kind = 10 then
      toLe 2 m.q ++ (m.slacks.take 16).flatMap (fun e => toLe 2 e.dev) ++ List.replicate (2 * (16 - m.slacks.length)) 0xFF ++ zeroBytes 190
    else flocksBytes m ++ (if kind = 8 then readyBytes m else zeroBytes 16) ++ zeroBytes 80)

/-- The payload of a SWAP marker of a phase (R213). -/
def swapBytes (phase : Nat) (m : Marker) (w : SwapFields) : List Byte :=
  markerHead 4 m ++ flocksBytes m
    ++ [BitVec.ofNat 8 w.flock, BitVec.ofNat 8 phase, BitVec.ofNat 8 (if phase = 3 then w.status else 0), 0]
    ++ w.outgoing ++ w.incoming ++ toLe 8 w.ts ++ zeroBytes 20

/-! ## Messages and CTRL (R333, R337) -/

/-- The payload of a MSG flit (R337). -/
def msgBytes (f : MsgFlit) : List Byte :=
  toLe 2 f.dest ++ toLe 2 f.source ++ [BitVec.ofNat 8 f.cls, BitVec.ofNat 8 (b2n f.first + 2 * b2n f.last)] ++ toLe 2 f.seq ++ toLe 2 f.idx
    ++ toLe 2 f.data.length ++ zeroBytes 4 ++ f.data ++ zeroBytes (240 - f.data.length)

/-- The payload of a CTRL flit with a stop bit. -/
def ctrlBytes (stop : Bool) : List Byte := (List.range 256).map (Config.ctrlPayload stop)

/-! ## What a link sends and receives -/

/-- The type of a sequenced flit (R322). -/
def Body.typ : Body → Nat
  | .data _ => 1
  | .marker _ _ => 2
  | .swap _ _ _ => 2
  | .msg _ => 3
  | .ctrl _ => 4

/-- A marker goes ahead of other flits (R336). -/
def Body.isMarker (b : Body) : Bool := b.typ == 2

/-- Header bytes 6 to 15 of a sequenced flit. -/
def Body.more : Body → List Byte
  | .data f => dataHeader f.dev f.slot f.space f.addr f.tally
  | _ => zeroBytes 10

/-- The zero-payload bit. -/
def Body.zero : Body → Bool
  | .data f => f.zero
  | _ => false

/-- The payload of a sequenced flit. -/
def Body.payload : Body → List Byte
  | .data f => f.payload
  | .marker kind m => markerBytes kind m
  | .swap phase m w => swapBytes phase m w
  | .msg f => msgBytes f
  | .ctrl stop => ctrlBytes stop

/-- The bytes of a sequenced flit on a link. -/
def Link.flit (x : Link) (seq : Nat) (b : Body) : List Byte :=
  sealFlit (flitHeader b.typ b.zero seq x.rxSeq x.nackDue b.more) b.payload

/-- The bytes of an IDLE flit on a link: the next sequence, and none taken (R322). -/
def Link.idle (x : Link) : List Byte := sealFlit (flitHeader 0 false x.txSeq x.rxSeq x.nackDue (zeroBytes 10)) (zeroBytes 256)

/-- The CRC of an incoming flit covers its header and payload (R323). -/
def headCrcOk (h : FlitHead) (typ : Nat) (zero : Bool) (more payload : List Byte) : Bool :=
  crc32 (flitHeader typ zero h.seq.toNat h.ack.toNat h.nack more ++ payload) == h.crc.toNat

/-- The CRC of an incoming flit without a marker. -/
def flitCrcOk (f : Flit) (typ : Nat) : Bool :=
  headCrcOk f.head typ (typ == 1 && f.zero)
    (if typ = 1 then dataHeader f.dev.toNat f.slot.toNat f.space.toNat f.addr.toNat f.tally.toNat else zeroBytes 10) f.payload

end Sys2Proof.Machine
end

