-- ==== Sys2Proof/Machine/LinkOps.lean ====
section
/-! DEFINITION. Sending and accepting sequenced flits on a link (R322 to R326, R336). -/

namespace Sys2Proof.Machine

/-- A link. -/
def getLink (s : State) (l : Nat) : Link := getD Link.init s.links l

/-- Replace a link. -/
def putLink (s : State) (l : Nat) (x : Link) : State := s.setLinks (putD Link.init s.links l x)

/-- Change a link. -/
def modLink (s : State) (l : Nat) (g : Link → Link) : State := putLink s l (g (getLink s l))

/-- The state of a link: 0 OFF, 1 TRAIN, 2 UP, 3 FAILED. -/
def linkState (s : State) (l : Nat) : Nat := rd s (linkPg l) F.LINK_STATE_STATE

/-- The link carries traffic. -/
def linkUp (s : State) (l : Nat) : Bool := linkState s l == 2

/-- Put a flit on a link. A NACK that is due rides in its header (R325). -/
def emitFlit (s : State) (l : Nat) (bytes : List Byte) : State := 
  emit (modLink s l (fun x => { x with nackDue := false, flits := x.flits + 1 })) (.flit l bytes)

/-- Put an IDLE flit on a link that is UP and has nothing else to send (R322). -/
def sendIdle (s : State) (l : Nat) : State := if linkUp s l then emitFlit s l (getLink s l).idle else s

/-- The flits that a replay buffer holds (R325). -/
def replayRoom : Nat := 512

/-- Put a sequenced flit on a link; it stays in the replay buffer until an acknowledgement covers it (R325). -/
def sendNow (l : Nat) (s : State) (b : Body) : State :=
  let x := getLink s l
  let s := putLink s l { x with txSeq := (x.txSeq + 1) % 4096, buffer := x.buffer ++ [(x.txSeq, b)] }
  emitFlit (bump s (linkPg l) F.FLITS_TX) l (x.flit x.txSeq b)

/-- A flit takes its place among those that wait for room: markers go ahead of the rest (R336). -/
def queueBody (b : Body) (xs : List Body) : List Body :=
  if b.isMarker then xs.takeWhile Body.isMarker ++ b :: xs.dropWhile Body.isMarker else xs ++ [b]

/-- Send a sequenced flit, or let it wait while the replay buffer is full. -/
def sendSeq (s : State) (l : Nat) (b : Body) : State :=
  if linkUp s l then
    if (getLink s l).buffer.length < replayRoom then sendNow l s b
    else modLink s l (fun x => { x with held := queueBody b x.held })
  else s

/-- Send what waits for room in the replay buffer, as far as there is room. -/
def sendHeld (s : State) (l : Nat) : State :=
  let x := getLink s l
  let n := replayRoom - x.buffer.length
  forEach (putLink s l { x with held := x.held.drop n }) (x.held.take n) (sendNow l)

/-- Send a marker on a link. -/
def sendMarker (s : State) (l kind : Nat) (m : Marker) : State := sendSeq s l (.marker kind m)

/-- Count a sequenced flit that arrives in order. -/
def acceptSeq (s : State) (l : Nat) : State :=
  bump (modLink s l (fun x => { x with rxSeq := (x.rxSeq + 1) % 4096 })) (linkPg l) F.FLITS_RX

/-- The device's own ID. -/
def ownId (s : State) : Nat := rd s bootPg F.DEVICE_ID_ID

/-- The device ID is assigned (R324, R340). -/
def idValid (s : State) : Bool := rd s bootPg F.DEVICE_ID_VALID == 1

end Sys2Proof.Machine
end

