-- ==== Sys2Proof/Machine/MsgOps.lean ====
section
/-! DEFINITION. The message layer: routes, sending, acknowledging and accepting messages (R337 to R339). -/

namespace Sys2Proof.Machine

/-- The route entry of a device: primary link and valid bit, alternate link and valid bit, as in MSG_RT_DATA (R342). -/
def routeOf (s : State) (dev : Nat) : Nat := getD 0 s.views.routes dev

/-- The link of the primary route. -/
def primaryLink (s : State) (dev : Nat) : Option Nat := if bit (routeOf s dev) 7 then some (bits (routeOf s dev) 0 7) else none

/-- The link of a resend: the alternate, or the primary when none is valid (R338). -/
def alternateLink (s : State) (dev : Nat) : Option Nat := if bit (routeOf s dev) 15 then some (bits (routeOf s dev) 8 7) else primaryLink s dev

/-- Send one MSG flit by a link. -/
def sendMsgFlit (s : State) (link : Option Nat) (f : MsgFlit) : State := match link with
  | some l => sendSeq s l (.msg f)
  | none => s

/-- The flits of a message: at most 240 data bytes each. `n` bounds the number of flits. -/
def msgFlits (dest source cls seq : Nat) : Nat → Nat → List Byte → List MsgFlit
  | 0, _, _ => []
  | n + 1, idx, data =>
    let last := decide (data.length ≤ 240)
    let f : MsgFlit := { dest := dest, source := source, cls := cls, first := idx == 0, last := last, seq := seq, idx := idx, data := data.take 240 }
    if last then [f] else f :: msgFlits dest source cls seq n (idx + 1) (data.drop 240)

/-- Send a message by a link. -/
def sendFlits (s : State) (link : Option Nat) (dest cls seq : Nat) (data : List Byte) : State :=
  forEach s (msgFlits dest (ownId s) cls seq (data.length + 1) 0 data) (fun s f => sendMsgFlit s link f)

/-- What has been sent to a destination in a class. -/
def getTx (s : State) (dest cls : Nat) : TxMsgs := getD TxMsgs.init s.msgs.tx (8 * dest + cls)

/-- Replace it. -/
def putTx (s : State) (dest cls : Nat) (t : TxMsgs) : State :=
  s.setMsgs { s.msgs with tx := putD TxMsgs.init s.msgs.tx (8 * dest + cls) t }

/-- Send a message; it stays with the source until it is acknowledged (R338). The answer is its sequence. -/
def sendMessage (s : State) (dest cls : Nat) (data : List Byte) : Nat × State :=
  let t := getTx s dest cls
  let s := putTx s dest cls { t with next := (t.next + 1) % 65536, unacked := t.unacked ++ [(t.next, data)] }
  (t.next, sendFlits s (primaryLink s dest) dest cls t.next data)

/-- Acknowledge a message with a one-flit message of class 7 (R338). -/
def sendAck (s : State) (dest cls seq : Nat) : State :=
  let t := getTx s dest 7
  let s := putTx s dest 7 { t with next := (t.next + 1) % 65536 }
  sendFlits s (primaryLink s dest) dest 7 t.next (BitVec.ofNat 8 cls :: toLe 2 seq)

/-- A complete message of a class arrives: `g` takes it when it is the next in order; one that is not newer is a duplicate,
and one past a gap waits for the source's resend (R338, R339). -/
def takeMessage (s : State) (source cls seq : Nat) (g : State → State) : State :=
  let key := 8 * source + cls
  let last := getD 0 s.msgs.rx key
  if seq = last % 65536 then
    g (sendAck (s.setMsgs { s.msgs with rx := insKey s.msgs.rx key (seq + 1) }) source cls seq)
  else if last = 0 ∨ serialNewer 16 seq (65535 + last) then s
  else sendAck (bump s iodPg F.MSG_DUP_CNT) source cls ((65535 + last) % 65536)

/-- An acknowledgement advances what a source holds; the destination answers again (R338; DEDUCED, log entry 97). -/
def takeMsgAck (s : State) (dest cls seq : Nat) : State :=
  let t := getTx s dest cls
  let rest := t.unacked.filter (fun m => serialNewer 16 m.1 seq)
  if rest.length < t.unacked.length then
    let s := putTx s dest cls { t with unacked := rest }
    s.setMsgs { s.msgs with timeouts := dropKey s.msgs.timeouts dest, unreach := s.msgs.unreach.filter (· != dest) }
  else s

/-- Resend every unacknowledged message of a destination and class (R338). -/
def resendMessages (s : State) (dest cls : Nat) : State :=
  forEach (bump s iodPg F.MSG_TIMEOUT_CNT) (getTx s dest cls).unacked (fun s m => sendFlits s (alternateLink s dest) dest cls m.1 m.2)

/-- No acknowledgement has advanced for 8 µs: the fourth timeout in a row of a destination, of whatever class, marks it unreachable
(R338). -/
def msgTimeout (s : State) (dest cls : Nat) : State :=
  if (getTx s dest cls).unacked.isEmpty then s
  else
    let n := getD 0 s.msgs.timeouts dest + 1
    let s := resendMessages (s.setMsgs { s.msgs with timeouts := insKey s.msgs.timeouts dest n }) dest cls
    if n = 4 then
      let s := s.setMsgs { s.msgs with unreach := dest :: s.msgs.unreach.filter (· != dest) }
      logWrite (errEvent (bump s iodPg F.MSG_UNREACH_CNT) iodPg 3) iodPg 0x50 0xFF [(32, dest), (34, cls)]
    else s

/-- MESSAGE_TIMEOUT (R338). -/
def execMessageTimeout (dest : Fin 32768) (cls : Fin 8) (s : State) : Host.Outcome State Fault Refusal := .next (msgTimeout s dest cls)

end Sys2Proof.Machine
end

