-- ==== Sys2Proof/Machine/Journal.lean ====
section
/-! DEFINITION. The journal rings, checkpoints and mirrors (R396 to R399, R407 to R410). -/

namespace Sys2Proof.Machine

/-! ## Flocks and pens -/

/-- The device leads flock `k` (R289). -/
def isLead (s : State) (k : Nat) : Bool := match flockDrove s k with
  | some d => decide (d.flockSize ≤ 1) || d.ranks.head? == some (ownId s)
  | none => false

/-- The pen of the drove active for flock `k`. -/
def flockPen (s : State) (k : Nat) : Option Nat := (flockDrove s k).map (·.pen)

/-- The last committed step of flock `k`. -/
def lastStep (s : State) (k : Nat) : Nat := (getFlock s k).num - 1

/-! ## Mirrors (R397, R399) -/

/-- The flocks that a pen checkpoints, as a mask. -/
def ckptFlocks (s : State) (p : Nat) : Nat := rd s (penPg p) F.CKPT_CTRL_FLOCKS

/-- The number of flocks a pen checkpoints. -/
def ckptCount (s : State) (p : Nat) : Nat := ((List.range 16).filter (fun k => bit (ckptFlocks s p) k)).length

/-- The place of a flock among those a pen checkpoints. -/
def ckptPlace (s : State) (p k : Nat) : Nat := ((List.range k).filter (fun i => bit (ckptFlocks s p) i)).length

/-- Size of one checkpoint slot, bytes. -/
def slotSize (s : State) (p : Nat) : Nat := kib4 * rd s (penPg p) F.CKPT_SLOT

/-- Mirroring is on and the partner is named. -/
def mirrors (s : State) (p : Nat) : Bool := rd s (penPg p) F.CKPT_CTRL_MIRROR == 1 && rd s (penPg p) F.CKPT_PARTNER_VALID == 1

/-- The sizes that both partners must agree on (R399). -/
def mirrorSizes (s : State) (p : Nat) : List Byte :=
  toLe 4 (rd s (penPg p) F.KV_SIZE) ++ toLe 4 (rd s (penPg p) F.JRNL_SIZE) ++ toLe 4 (rd s (penPg p) F.CKPT_SLOT) ++ toLe 4 (ckptFlocks s p)

/-- Send bytes to the partner's mirror half: `part` is 0 slots, 1 KV, 2 journal, `off` the offset in that part. The answer is
the sequence of the message. The layout of the message's data is the model's. -/
def sendMirror (s : State) (p part off : Nat) (data : List Byte) : Nat × State :=
  sendMessage s (rd s (penPg p) F.CKPT_PARTNER_ID) 2
    ([BitVec.ofNat 8 p, BitVec.ofNat 8 part, 0, 0] ++ toLe 8 off ++ mirrorSizes s p ++ data)

/-- Offset of a part of the mirror half in the checkpoint area (R399). -/
def mirrorBase (s : State) (p part : Nat) : Nat :=
  let m := ckptCount s p
  if part = 0 then 2 * m * slotSize s p else if part = 1 then 4 * m * slotSize s p else 4 * m * slotSize s p + (kvRegion s p).size

/-- A mirror message carries the sizes that the partner has (R399). -/
def mirrorFits (s : State) (data : List Byte) : Bool := decide (field data 12 16 = mirrorSizes s (fieldNat data 0 1 % 16))

/-- Store a mirror message that a partner sent (R399). -/
def storeMirror (s : State) (data : List Byte) : State :=
  let p := fieldNat data 0 1 % 16
  coreWrite s p ((checkpointRegion s p).base + mirrorBase s p (fieldNat data 1 1) + fieldNat data 4 8) (data.drop 28)

/-! ## The ring (R407 to R410) -/

/-- States of an entry. -/
def entOpen : Nat := 0
/-- CLOSED. -/
def entClosed : Nat := 1
/-- VOID. -/
def entVoid : Nat := 2

/-- The bytes of an entry: header, body, zeros to a whole number of 64-byte units. -/
def entryBytes (typ st flock units seq tally pos : Nat) (body : List Byte) : List Byte :=
  let b := [BitVec.ofNat 8 typ, BitVec.ofNat 8 st, BitVec.ofNat 8 flock, 0] ++ toLe 4 units ++ toLe 4 seq ++ toLe 4 0
    ++ toLe 8 tally ++ toLe 8 pos ++ body
  b ++ List.replicate (64 * units - b.length) 0

/-- Units from the write position `tail` forward to the host's read position; a whole ring when the two are the same. -/
def toHead (s : State) (p tail total : Nat) : Nat :=
  let d := (rd s (penPg p) F.JRNL_HOST_HEAD + total - tail) % total
  if d = 0 then total else d

/-- A write of `units` from `tail` brings the write position to the host's read position or past it: what the host had not read counts as
overwritten then, since equal positions mean an empty ring (R407; which of the two moments counts is a DESIGN CHOICE, log entry 115). -/
def passesHead (s : State) (p tail units total : Nat) : Bool := decide (toHead s p tail total ≤ units)

/-- Write one entry at the tail of a ring of `total` units; the entry fits before the end. -/
def putEntry (s : State) (p flock typ st units pos total : Nat) (body : List Byte) : Nat × State :=
  let tail := rd s (penPg p) F.JRNL_TAIL
  let seq := rd s (penPg p) F.JRNL_SEQ
  let a := (journalRegion s p).base + 64 * tail
  let bytes := entryBytes typ st flock units seq s.tally.num pos body
  let s := if passesHead s p tail units total then bump s (penPg p) F.JRNL_OVERRUN else s
  let s := coreWrite s p a bytes
  let s := wr0 (wr0 s (penPg p) F.JRNL_TAIL ((tail + units) % total)) (penPg p) F.JRNL_SEQ (seq + 1)
  let s := if mirrors s p then (sendMirror s p 2 (64 * tail) bytes).2 else s
  (a, s)

/-- Write a journal entry of flock `k`; the answer is its window address. A pen without a ring journals nothing. A PAD entry
takes a sequence number like any other, and the last committed step for its P (R409). -/
def journal (s : State) (p k typ st pos : Nat) (body : List Byte) : Nat × State :=
  let total := (journalRegion s p).size / 64
  let units := ceilDiv (32 + body.length) 64
  let tail := rd s (penPg p) F.JRNL_TAIL
  if total = 0 ∨ total < units then (0, s)
  else if total < tail + units then
    let s := (putEntry s p k 0 entClosed (total - tail) (lastStep s k) total []).2
    putEntry s p k typ st units pos total body
  else putEntry s p k typ st units pos total body

/-- Write an entry of the usual kind: CLOSED, at the last committed step. -/
def journalHere (s : State) (p k typ : Nat) (body : List Byte) : State := (journal s p k typ entClosed (lastStep s k) body).2

/-- Set the state of an entry that lies at a window address, in the partner's mirror too (R397). -/
def setEntry (s : State) (p a st : Nat) : State :=
  let s := coreWrite s p (a + 1) [BitVec.ofNat 8 st]
  if mirrors s p then (sendMirror s p 2 (a + 1 - (journalRegion s p).base) [BitVec.ofNat 8 st]).2 else s

/-- Settle the open PLACE entries of flock `k` (R409): CLOSED when step `n` commits, VOID when its block is built again. -/
def settlePlaces (s : State) (k n st : Nat) : State :=
  let mine := fun (o : OpenPlace) => o.flock == k && o.step == n
  let s := forEach s (s.drover.opens.filter mine) (fun s o => setEntry s o.pen o.addr st)
  s.setDrover { s.drover with opens := s.drover.opens.filter (fun o => !mine o) }

/-- A host write that the journal records, for every flock that the device leads (R408). -/
def journalConfig (s : State) (page off v : Nat) : State :=
  forEach s (List.range 16) (fun s k => match flockPen s k with
    | some p => if isLead s k then journalHere s p k 8 (toLe 2 page ++ toLe 2 off ++ toLe 4 v) else s
    | none => s)

end Sys2Proof.Machine
end

