-- ==== Sys2Proof/Machine/Access.lean ====
section
/-! DEFINITION. Who reaches a register page (R11, R468, R469, R494), and the latest housekeeping sample of a fold (R517). -/

namespace Sys2Proof.Machine

/-- A source can make accesses: a halted management core runs nothing (R469), and a core runs only once the firmware does. After a halt in
the ROM only the debug port works (R460). -/
def sourceRuns (s : State) : Source → Bool
  | .core k => s.boot.up && !s.boot.romHalt && !s.boot.halted.contains k.val
  | .jtag => true
  | _ => !s.boot.romHalt

/-- The services of the IOD that management cores run. Which core runs which is open (R469; DESIGN CHOICE, log entry 119). -/
inductive Service where
  | laneBlocks | droveLoad | repair | tests | attest
  deriving DecidableEq, Repr

/-- The number of a service. -/
def Service.code : Service → Nat
  | .laneBlocks => 0 | .droveLoad => 1 | .repair => 2 | .tests => 3 | .attest => 4

/-- A service waits: the core that runs it is halted (R469). -/
def serviceWaits (s : State) (v : Service) : Bool := s.boot.halted.any (fun k => Config.serviceCore v.code == k)

/-- Whether a source sees a page (R11, R484). -/
def seesPage (s : State) (src : Source) (pg : Nat) : Bool :=
  (pageType pg).isSome && sourceRuns s src && (srcPen src == 0 || rd s pg F.LOCK_OWNER == srcPen src)

/-- A write to a register of page `pg` acts when the source sees the page, and is ignored otherwise (R11). -/
def onPage (s : State) (src : Source) (pg : Nat) (g : State → State) : State := if seesPage s src pg then g s else s

/-! ## Samples (R433, R517) -/

/-- The housekeeping channel of a fold's sensor (R419). -/
def foldChannel (f : Nat) : Nat := f % 34

/-- The sensor channel of a fold has published. -/
def hasSample (s : State) (f : Nat) : Bool := rd s (hkPg (dieOf f)) F.TELEM_NEVER (foldChannel f) == 0

/-- The latest sample of a fold's sensor, 1/16 °C; the register's value when none is published. -/
def sampleOf (s : State) (f : Nat) : Int := toSigned (rd s (hkPg (dieOf f)) F.TELEM_VALUE (foldChannel f)) 16

/-- The fold's sensor channel carries FAULT (R68, R433). -/
def sampleFault (s : State) (f : Nat) : Bool := rd s (hkPg (dieOf f)) F.TELEM_FAULT (foldChannel f) == 1

end Sys2Proof.Machine
end

