-- ==== Sys2Proof/Machine/Tables.lean ====
section
/-! DEFINITION. The limits of the vector function tables (R179): the exact functions in fixed point, and the codes within the limits. -/

namespace Sys2Proof.Machine

/-- One in fixed point. -/
def fixOne : Nat := 2 ^ 320

/-- A value that is not negative in fixed point, rounded down. -/
def toFix (x : Rat) : Nat := x.num.toNat * fixOne / x.den

/-- The value of a fixed-point number. -/
def ofFix (n : Nat) : Rat := (n : Rat) / (fixOne : Rat)

/-- The sum of `k` further terms of the exponential series, the next one being `t` and the number of terms so far `i`. -/
def expSeries (x t i : Nat) : Nat → Nat
  | 0 => 0
  | k + 1 => t + expSeries x (t * x / (fixOne * (i + 1))) (i + 1) k

/-- Square a fixed-point number `k` times. -/
def squares (v : Nat) : Nat → Nat
  | 0 => v
  | k + 1 => squares (v * v / fixOne) k

/-- e^x for x of 0 to 128 in fixed point, with a relative error far below 2^−64. -/
def expFix (x : Nat) : Nat := squares (expSeries (x / 512) fixOne 0 64) 9

/-- e^x for |x| of at most 128. -/
def expOf (x : Rat) : Rat := if 0 ≤ x then ofFix (expFix (toFix x)) else ofFix fixOne / ofFix (expFix (toFix (-x)))

/-- The bits of a whole square root, from bit `k` − 1 down, above a part `r` already found. -/
def rootBits (n r : Nat) : Nat → Nat
  | 0 => r
  | k + 1 => rootBits n (if (r + 2 ^ k) * (r + 2 ^ k) ≤ n then r + 2 ^ k else r) k

/-- 1/√x of a positive value. -/
def rsqrtOf (x : Rat) : Rat := ofFix (rootBits (fixOne * fixOne * x.den / x.num.toNat) 0 420)

/-- 1/√(2π) in fixed point. -/
def invRootTwoPi : Nat := 0x662114cf50d942343f2cf1402eae38bfd3829f30512706d8c0471b4802639d2e9df8ac55447d3db7

/-- The sum x + x³/3 + x⁵/15 + … of `k` further terms, the next one being `t`, its divisor's last factor `i`, and `x2` = x². -/
def phiSeries (x2 t i : Nat) : Nat → Nat
  | 0 => 0
  | k + 1 => t + phiSeries x2 (t * x2 / (fixOne * (i + 2))) (i + 2) k

/-- Φ(x) − 1/2 for x of 0 to 15, in fixed point. -/
def phiFix (x : Nat) : Nat :=
  let x2 := x * x / fixOne
  invRootTwoPi * phiSeries x2 x 1 600 / expFix (x2 / 2)

/-- Φ(x), the normal distribution function, for |x| of at most 15. -/
def phiOf (x : Rat) : Rat :=
  if 0 ≤ x then ofFix (fixOne / 2 + phiFix (toFix x)) else ofFix (fixOne / 2 - phiFix (toFix (-x)))

/-- The code of a format with the given sign that the `n`-th free choice takes among those within `m` ULP of a positive value
`a`, which is known with a relative error far below 2^−64. -/
def nearCode (f : FloatFmt) (neg : Bool) (a : Rat) (m n : Nat) : FV :=
  let k := encodeFloat f (roundToFloat f a false)
  let near := fun c => match decodeFloat f c with
    | .num x => decide (absR (x - a) ≤ (m : Rat) * pow2 (ulpExp (1 - f.bias) f.man a) + a / 2 ^ 64)
    | _ => false
  let ks := ((List.range (2 * m + 3)).map (fun d => k + d - (m + 1))).filter near
  decodeFloat f ((if neg then 2 ^ (f.man + f.ebits) else 0) + ks.getD (n % ks.length) k)

/-- A subnormal or a zero with the given sign, within one unit of the smallest subnormal of a positive value `a`, which is known with a
relative error far below 2^−64: a free one of these codes (R179). -/
def tinyCode (f : FloatFmt) (neg : Bool) (a : Rat) (n : Nat) : FV :=
  let r := a / pow2 (1 - f.bias - f.man)
  let k := min (2 ^ f.man - 1) r.floor.toNat
  let ks : List Nat := [k, k + 1, k - 1].filter (fun j => decide (j < 2 ^ f.man) && decide (absR ((j : Rat) - r) ≤ 1 + r / 2 ^ 64))
  decodeFloat f ((if neg then 2 ^ (f.man + f.ebits) else 0) + ks.getD (n % ks.length) k)

/-- A table's result where the exact result is `v`: within `m` ULP when `v` is normal, within one unit of the smallest subnormal when
it is smaller (R179). Which of these codes the tables hold is free (DESIGN CHOICE, log entry 9). -/
def tableCode (f : FloatFmt) (v : Rat) (m n : Nat) : FV :=
  if absR v < pow2 (1 - f.bias) then tinyCode f (decide (v < 0)) (absR v) n
  else match roundToFloat f v false with
    | .inf neg => .inf neg
    | _ => nearCode f (decide (v < 0)) (absR v) m n

/-- The exact results of VEXP, VRCP, VRSQ, VSILU and VGELU (0 to 4) for an operand, as closely as the limits of R179 need.
Beyond the ends of the series a result overflows, lies far below half of the smallest subnormal, or is the operand to within far less
than a ULP. -/
def exactOf (op : Nat) (x : Rat) : Rat := match op with
  | 0 => if 128 < x then pow2 128 else if x < -128 then 0 else expOf x
  | 1 => 1 / x
  | 2 => rsqrtOf x
  | 3 => if 128 < x then x else if x < -128 then -(pow2 (-160)) else x / (1 + expOf (-x))
  | _ => if 15 < x then x else if x < -15 then -(pow2 (-160)) else x * phiOf x

/-- The limit of R179 in ULP: operation and format. -/
def tableUlps (op : Nat) (f : FloatFmt) : Nat := if f.man = 7 then 1 else if op ≤ 2 then 2 else 4

end Sys2Proof.Machine
end

