-- ==== Sys2Proof/Machine/Vector.lean ====
section
/-! DEFINITION. The vector unit: elementwise, table, reduction, sampling and quantisation operations
(R79, R151, R176 to R182, R187, R191, R374). -/

namespace Sys2Proof.Machine

/-- The operations of the vector unit (R177). -/
inductive VOp where
  | vadd | vsub | vmul | vfma | vmax | vmin | vcmplt | vwide | vnarr | vdec | vexp | vrcp | vrsq | vsilu | vgelu | vrope
  | vrsum | vrmax | vargmx | vdraw | vwalk | vqmx4 | vqi4
  deriving DecidableEq, Repr

/-- Opcode (R177). -/
def VOp.code : VOp → Nat
  | .vadd => 0x01 | .vsub => 0x02 | .vmul => 0x03 | .vfma => 0x04 | .vmax => 0x05 | .vmin => 0x06 | .vcmplt => 0x07
  | .vwide => 0x08 | .vnarr => 0x09 | .vdec => 0x0A | .vexp => 0x10 | .vrcp => 0x11 | .vrsq => 0x12 | .vsilu => 0x13
  | .vgelu => 0x14 | .vrope => 0x15 | .vrsum => 0x18 | .vrmax => 0x19 | .vargmx => 0x1A | .vdraw => 0x20 | .vwalk => 0x21
  | .vqmx4 => 0x28 | .vqi4 => 0x29

/-- Latency L (R177). -/
def VOp.lat : VOp → Nat
  | .vadd | .vsub | .vmul | .vfma | .vmax | .vmin | .vcmplt => 12
  | .vwide | .vnarr | .vdec => 8
  | .vexp | .vrcp | .vrsq | .vsilu | .vgelu | .vrope | .vqmx4 | .vqi4 => 24
  | .vrsum | .vrmax | .vargmx => 32
  | .vdraw => 40
  | .vwalk => 48

/-- A vector operation with its descriptor's fields in force at its issue (R159, R176). -/
structure VArgs where
  /-- byte address of A -/
  a : Nat
  /-- byte address of B -/
  b : Nat
  /-- byte address of D -/
  d : Nat
  /-- FP32 -/
  wide : Bool
  /-- B broadcast -/
  bcast : Bool
  /-- elements -/
  n : Nat
  /-- lane -/
  lane : Nat
  /-- its lane is masked -/
  masked : Bool
  /-- fo code of VDEC -/
  fo : Nat
  /-- eo code of VDEC -/
  eo : Nat
  /-- last block of VWALK -/
  last : Bool
  /-- iteration index -/
  iter : Nat
  deriving DecidableEq, Repr

/-- The arguments of a vector operation with descriptor `d`. -/
def vecArgs (x : Fold) (d fmt : Nat) : VArgs :=
  let st := bits d 48 8 * x.iter
  let lane := (bits d 64 8 + x.iter * bits d 72 4) % 256
  { a := 64 * (bits d 0 16 + st), b := 64 * (bits d 16 16 + st), d := 64 * (bits d 32 16 + st), wide := fmt == 1, bcast := bit d 56,
    n := 64 * (bits d 77 4 + 1), lane := lane, masked := laneMasked x (bit d 76) lane, fo := bits d 81 3, eo := bits d 84 8,
    last := bit d 92, iter := x.iter }

/-- Element size of the operation's format. -/
def VArgs.size (v : VArgs) : Nat := if v.wide then 4 else 2

/-- The binary format of the operation. -/
def VArgs.fmt (v : VArgs) : FloatFmt := if v.wide then fp32F else bf16F

/-- Bytes of one element of a format of R171, times two. -/
def halfBytes (fo : Nat) : Nat := match fo with
  | 0 => 1 | 1 => 1 | 2 => 2 | 3 => 2 | _ => 4

/-- The byte ranges an operation reads (R177). -/
def vecReads (op : VOp) (v : VArgs) : List (Nat × Nat) :=
  let ea := (v.a, v.n * v.size)
  let eb := (v.b, if v.bcast then 64 else v.n * v.size)
  match op with
  | .vadd | .vsub | .vmul | .vmax | .vmin | .vcmplt | .vrope => [ea, eb]
  | .vfma => [ea, eb, (v.d, v.n * v.size)]
  | .vwide => [(v.a, v.n * 2)]
  | .vnarr => [(v.a, v.n * 4)]
  | .vdec => [(v.a, v.n * halfBytes v.fo / 2)]
  | .vargmx => [ea, (v.d, 64)]
  | .vdraw => [(v.a, 64)]
  | .vwalk => [ea, (v.d, 64), (v.b, 64)]
  | _ => [ea]

/-- The bytes an operation writes from D (R177). -/
def vecWrites (op : VOp) (v : VArgs) : Nat := match op with
  | .vwide => 4 * v.n
  | .vnarr | .vdec => 2 * v.n
  | .vrsum | .vrmax | .vargmx | .vdraw | .vwalk => 64
  | .vqmx4 | .vqi4 => v.n / 2 + v.n / 32
  | _ => v.n * v.size

/-! ## Values -/

/-- The elements of a byte range in a binary format. -/
def loadVals (s : State) (f a n sz : Nat) (fm : FloatFmt) : List FV :=
  (List.range n).map (fun j => decodeFloat fm (droveLe s (vsAddr f (a + sz * j)) sz))

/-- Operand B: element 0 stands for every element under broadcast. -/
def loadB (s : State) (f : Nat) (v : VArgs) : List FV :=
  if v.bcast then List.replicate v.n (decodeFloat v.fmt (droveLe s (vsAddr f v.b) v.size)) else loadVals s f v.b v.n v.size v.fmt

/-- The bytes of values in a binary format. -/
def storeVals (xs : List FV) (sz : Nat) (fm : FloatFmt) : List Byte := (xs.map (fun x => toLe sz (encodeFloat fm x))).flatten

/-- One rounding of a value to a format. -/
def roundFV (f : FloatFmt) (neg : Bool) : FV → FV
  | .num x => roundToFloat f x neg
  | x => x

/-- The exact product of two values, unrounded. -/
def mulExact (a b : FV) : FV :=
  match a, b with
  | .num x, .num y => .num (x * y)
  | _, _ => fMul fp32F a b

/-- The exact sum of two exact terms, rounded once. -/
def addRound (f : FloatFmt) (a b : FV) : FV := roundFV f false (fAdd f a b)

/-- Rotary rotation of pairs (R179). -/
def rope (f : FloatFmt) : List FV → List FV → List FV
  | x0 :: x1 :: xs, c :: sn :: cs =>
    addRound f (mulExact x0 c) (mulExact x1 sn).negate :: addRound f (mulExact x0 sn) (mulExact x1 c) :: rope f xs cs
  | _, _ => []

/-! ## Table functions (R179) -/

/-- The number of a table function. -/
def tableNo : VOp → Nat
  | .vexp => 0
  | .vrcp => 1
  | .vrsq => 2
  | .vsilu => 3
  | _ => 4

/-- What the tables hold for an operand: free within the limits of R179 (DESIGN CHOICE, log entry 9). -/
def tableOf (op : VOp) (f : FloatFmt) (x : FV) (y : Rat) : FV :=
  tableCode f (exactOf (tableNo op) y) (tableUlps (tableNo op) f) (Config.vectorTable (tableNo op) f.man (encodeFloat f x))

/-- A table function with the results that the device fixes itself (R179). -/
def tableFn (op : VOp) (f : FloatFmt) (x : FV) : FV := match op, x with
  | _, .nan => .nan
  | .vexp, .zero _ => .num 1
  | .vexp, .inf neg => if neg then .zero false else .inf false
  | .vrcp, .zero neg => .inf neg
  | .vrcp, .inf neg => .zero neg
  | .vrsq, .zero neg => .inf neg
  | .vrsq, .inf neg => if neg then .nan else .zero false
  | .vrsq, .num y => if y < 0 then .nan else tableOf .vrsq f x y
  | .vexp, .num y | .vrcp, .num y => tableOf op f x y
  | _, .zero neg => .zero neg
  | _, .inf neg => if neg then .zero true else .inf false
  | _, .num y => tableOf op f x y

/-! ## Reductions (R180, R181) -/

/-- The FP32 sum of values by the tree of R149; 20 passes reduce any operation's element count. -/
def treeSum (xs : List FV) : FV := (tree (fAdd fp32F) 20 xs).headD (.zero false)

/-- The maximum of values under R178. -/
def maxOf : List FV → FV
  | [] => .zero false
  | x :: xs => xs.foldl fMax x

/-- The running argmax: value and index. -/
def argStep (st : FV × Nat) (e : Nat × FV) : FV × Nat := if fLt st.1 e.2 then (e.2, e.1) else st

/-- Pair each element with its index, counted from `k`. -/
def indexed {α : Type} : Nat → List α → List (Nat × α)
  | _, [] => []
  | k, x :: xs => (k, x) :: indexed (k + 1) xs

/-- The 64-byte argmax state: value at byte 0, index at byte 4 (DESIGN CHOICE, log entry 13). -/
def argBytes (st : FV × Nat) : List Byte := toLe 4 (encodeFloat fp32F st.1) ++ toLe 4 st.2 ++ toLe 56 0

/-! ## Sampling (R181, R182, R299) -/

/-- The vector store address of the active lane block of a fold (R155). -/
def blockAddr (s : State) (f : Nat) : Nat :=
  64 * bits (controlBlock s f) (16 + 16 * (getFold s f).laneBuf) 16

/-- A field of the lane entry of a lane in the active lane block. -/
def laneField (s : State) (f lane off n : Nat) : Nat := droveLe s (vsAddr f (blockAddr s f + 128 + 256 * lane + off)) n

/-- gen(key, ctr) of R182 as a multiple of 2^−24. -/
def genOf (key : List Byte) (ctr : Nat) : Rat := ((sipHash24 key (toLe 8 ctr)) / 2 ^ 40 : Nat) / ((2 ^ 24 : Nat) : Rat)

/-- The kind of a lane in the lane table of the drove on a fold: 1 decode lane, 2 chunk slot, 0 none. -/
def laneKind (s : State) (f lane : Nat) : Nat :=
  match foldDrove s f with
  | some d => ((d.lanes.lanes.find? (fun l => l.lane == lane)).map (·.kind)).getD 0
  | none => 0

/-- The counter of a draw: position, purpose and draft position (R182). -/
def ctrOf (pos purpose dpos : Nat) : Nat := pos % 2 ^ 32 + 2 ^ 32 * purpose + 2 ^ 40 * dpos

/-- The counters that a draw of a lane may use, when its first token has position `pos` and `d` drafts are verified: the token draw
after `d` accepted drafts, and for each draft the accept test and the residual draw (R182, R313). -/
def drawCounters (pos d : Nat) : List Nat :=
  ctrOf (pos + d) 0 0 :: (List.range d).flatMap (fun a => [ctrOf (pos + a) 1 (a + 1), ctrOf (pos + a) 2 (a + 1)])

/-- The lane is new to its request in this step (R298). -/
def laneFresh (s : State) (f lane : Nat) : Bool := bit (droveLe s (vsAddr f (blockAddr s f + 32)) 32) lane

/-- The absolute position of the first token that a decode lane processes. A fresh lane's entry gives it; a lane that continues takes it
from the drove's state of the step before, which is what the committed steps have drawn (R299, R304). -/
def firstPos (s : State) (f lane : Nat) : Nat :=
  if laneFresh s f lane then laneField s f lane 4 4
  else
    let h := laneField s f lane 0 2
    match getReq s h with
    | some r => drawnPos r - 1
    | none => Config.lanePos h (droveLe s (vsAddr f (blockAddr s f + 64)) 8) % 2 ^ 32

/-- The counter of a VDRAW (R182), a function of what the lane and its place in the drove are. A lane without drafts has one. On a
drafting lane no field of the operation says which draw of R313 it makes, nor how many drafts were accepted before it: one of the lane's
counters, which the operation's place in the drove decides (DESIGN CHOICE, log entry 12). -/
def drawCtr (s : State) (f lane : Nat) : Nat :=
  if laneKind s f lane = 2 then ctrOf (laneField s f lane 4 4 + laneField s f lane 8 4) 0 0
  else
    let d := laneField s f lane 12 1
    let first := firstPos s f lane
    let x := getFold s f
    let cs := drawCounters (first + 1) d
    let place := [(foldFlock s f).elim 0 (fun k => (getFlock s k).pos), x.lastPc, x.iter, lane, d, first, laneField s f lane 0 2,
      laneField s f lane 16 16, droveLe s (vsAddr f (blockAddr s f + 64)) 8]
    if d = 0 then ctrOf (first + 1) 0 0 else cs.getD (Config.drawPlace place % cs.length) 0

/-- The sampling state of a draw. -/
structure Walk where
  /-- target -/
  target : FV
  /-- running sum -/
  sum : FV
  /-- token, 2^32 − 1 for none -/
  tok : Nat
  /-- last index with positive weight, 2^32 − 1 for none -/
  last : Nat
  deriving DecidableEq, Repr

/-- No token. -/
def noTok : Nat := 2 ^ 32 - 1

/-- The 64-byte sampling state: target, sum, token and last position, four bytes each (DESIGN CHOICE, log entry 13). -/
def walkBytes (w : Walk) : List Byte :=
  toLe 4 (encodeFloat fp32F w.target) ++ toLe 4 (encodeFloat fp32F w.sum) ++ toLe 4 w.tok ++ toLe 4 w.last ++ toLe 48 0

/-- Read a sampling state. -/
def readWalk (s : State) (f a : Nat) : Walk :=
  let at_ := fun (k : Nat) => droveLe s (vsAddr f (a + k)) 4
  { target := decodeFloat fp32F (at_ 0), sum := decodeFloat fp32F (at_ 4), tok := at_ 8, last := at_ 12 }

/-- One step of the walk (R181). -/
def walkStep (w : Walk) (e : Nat × FV) : Walk :=
  let last := if fLt (.zero false) e.2 then e.1 else w.last
  let sum := fAdd fp32F w.sum e.2
  { w with last := last, sum := sum, tok := if w.tok = noTok ∧ fLt w.target sum then e.1 else w.tok }

/-! ## Quantisation (R79) -/

/-- One 32-element block: packed codes and the scale byte. -/
def quantBlock (fo : Fmt) (xs : List Rat) : List Byte × Byte :=
  let amax := xs.foldl (fun m x => maxR m (absR x)) 0
  let e := blockExp amax fo
  let codes := xs.map (fun x => encodeFmt (satFmt (roundFmt (x / pow2 e) fo) fo) fo)
  ((List.range 16).map (fun j => BitVec.ofNat 8 (codes.getD (2 * j) 0 % 16 + 16 * (codes.getD (2 * j + 1) 0 % 16))), BitVec.ofNat 8 (e + 127).toNat)

/-- The blocks of an operand: elements, then scales. -/
def quantise (fo : Fmt) (xs : List FV) : List Byte :=
  let v := xs.map (fun x => x.fin?.getD 0)
  let bs := (List.range (v.length / 32)).map (fun k => quantBlock fo ((v.drop (32 * k)).take 32))
  (bs.map (·.1)).flatten ++ bs.map (·.2)

/-! ## Results -/

/-- What an operation computes: the bytes it writes, and how many of its results are NaN. -/
structure VRes where
  /-- bytes from D upwards -/
  bytes : List Byte
  /-- NaN results -/
  nans : Nat
  deriving DecidableEq, Repr

/-- A result of values in a format. -/
def resVals (xs : List FV) (sz : Nat) (fm : FloatFmt) : VRes := ⟨storeVals xs sz fm, (xs.filter (· == .nan)).length⟩

/-- A result of one value in D element 0; the other bytes of the 64 written are free (DESIGN CHOICE, log entry 14). -/
def resOne (x : FV) (sz : Nat) (fm : FloatFmt) (n : Nat) : VRes :=
  ⟨toLe sz (encodeFloat fm x) ++ toLe (64 - sz) n, if x = .nan then 1 else 0⟩

/-- The value of element `j` of TRND outputs at A (R171, R178). -/
def decElem (s : State) (f : Nat) (v : VArgs) (j : Nat) : FV :=
  let fo := (Fmt.ofCode v.fo).getD .int4
  let code := match fo with
    | .int4 | .fp4 => bits (droveByte s (vsAddr f (v.a + j / 2))).toNat (4 * (j % 2)) 4
    | .int8 | .fp8 => (droveByte s (vsAddr f (v.a + j))).toNat
    | .bf16 => droveLe s (vsAddr f (v.a + 2 * j)) 2
  match fmtValue code fo with
  | some x => roundToFloat bf16F (x * pow2 (e8m0Exp v.eo)) false
  | none => if fo = .bf16 then decodeFloat bf16F code else .nan

/-- An elementwise operation on two operands. -/
def vecTwo (op : VOp) (f : FloatFmt) (a b : FV) : FV := match op with
  | .vadd => fAdd f a b
  | .vsub => fSub f a b
  | .vmul => fMul f a b
  | .vmax => fMax a b
  | .vmin => fMin a b
  | _ => if fLt a b then .num 1 else .zero false

/-- The result of an operation on a state, with the state after any free value drawn. -/
def vecResult (s : State) (f : Nat) (op : VOp) (v : VArgs) : VRes × State :=
  let fm := v.fmt
  let a := loadVals s f v.a v.n v.size fm
  match op with
  | .vadd | .vsub | .vmul | .vmax | .vmin | .vcmplt => (resVals (List.zipWith (vecTwo op fm) a (loadB s f v)) v.size fm, s)
  | .vfma =>
    let d := loadVals s f v.d v.n v.size fm
    (resVals (List.zipWith (fun (p : FV × FV) z => fFma fm p.1 p.2 z) (List.zip a (loadB s f v)) d) v.size fm, s)
  | .vwide => (resVals (loadVals s f v.a v.n 2 bf16F) 4 fp32F, s)
  | .vnarr => (resVals ((loadVals s f v.a v.n 4 fp32F).map (fun x => roundFV bf16F x.neg? x)) 2 bf16F, s)
  | .vdec => (resVals ((List.range v.n).map (decElem s f v)) 2 bf16F, s)
  | .vexp | .vrcp | .vrsq | .vsilu | .vgelu => (resVals (a.map (tableFn op fm)) v.size fm, s)
  | .vrope => (resVals (rope fm a (loadB s f v)) v.size fm, s)
  | .vrsum =>
    let (n, s') := drawNat s
    (resOne (treeSum a) 4 fp32F n, s')
  | .vrmax =>
    let (n, s') := drawNat s
    (resOne (maxOf a) v.size fm n, s')
  | .vargmx =>
    let old := (decodeFloat fp32F (droveLe s (vsAddr f v.d) 4), droveLe s (vsAddr f (v.d + 4)) 4)
    let st := if v.iter = 0 then (FV.inf true, 0) else old
    (⟨argBytes ((indexed (512 * v.iter) a).foldl argStep st), 0⟩, s)
  | .vdraw =>
    let ctr := drawCtr s f v.lane
    let key := droveRead s (vsAddr f (blockAddr s f + 128 + 256 * v.lane + 16)) 16
    let g := genOf key ctr
    let t := fMul fp32F (if g = 0 then .zero false else .num g) (decodeFloat fp32F (droveLe s (vsAddr f v.a) 4))
    (⟨walkBytes { target := t, sum := .zero false, tok := noTok, last := noTok }, if t = .nan then 1 else 0⟩, s)
  | .vwalk =>
    let w := (indexed (512 * v.iter) a).foldl walkStep (readWalk s f v.d)
    let w := if v.last then { w with tok := if w.tok = noTok then w.last else w.tok } else w
    let w := if v.last ∧ bit (laneField s f v.lane 13 1) 0 then { w with tok := droveLe s (vsAddr f (v.b + 4)) 4 } else w
    (⟨walkBytes w, if w.sum = .nan then 1 else 0⟩, s)
  | .vqmx4 => (⟨quantise .fp4 a, 0⟩, s)
  | .vqi4 => (⟨quantise .int4 a, 0⟩, s)

/-- The arguments of a vector syllable on a fold. -/
def vecArgsOf (s : State) (f : Nat) (q : VecSyl) : VArgs := vecArgs (getFold s f) (vecDesc s f q.desc) q.fmt.toNat

/-- The pending reads of a vector operation, in cycles c to c + 3 (R176); VDRAW reads its lane's entry too, and a masked operation
nothing (R177, R187). -/
def vecPendings (s : State) (f : Nat) (op : VOp) (v : VArgs) : List VsPend :=
  let c := (getFold s f).now
  let entry := if op = .vdraw then [(blockAddr s f + 128 + 256 * v.lane, 256)] else []
  if v.masked then [] else (vecReads op v ++ entry).map (fun r => vsRead r.1 r.2 c (c + 4) (c + 4))

/-- The pending write of a vector operation: at 512 bytes a cycle, usable at c + L (R176, R177; DEDUCED, log entry 16). -/
def vecWrite (s : State) (f : Nat) (op : VOp) (v : VArgs) : VsPend :=
  let c := (getFold s f).now
  let n := vecWrites op v
  vsWrite v.d n c (c + op.lat) (c + op.lat - ceilDiv n 512)

/-- The fields of a vector operation that break R192 codes 1 and 2. -/
def vecFields (op : VOp) (q : VecSyl) (d : Nat) (v : VArgs) : List Stop :=
  stopIf (q.rsv != 0 || bits d 57 7 != 0 || bits d 93 35 != 0) (.contract 1 2 0)
    ++ stopIf (decide (2 ≤ q.fmt.toNat) || (v.wide && decide (512 < v.n)) || (op == .vdec && (decide (5 ≤ v.fo) || v.eo == 0xFF))
      || (vecReads op v ++ [(v.d, vecWrites op v)]).any (fun r => decide (vsSize < r.1 + r.2))) (.contract 2 2 0)

/-- What stops a vector operation at its issue (R191, R192). -/
def vecCheck (s : State) (f : Nat) (op : VOp) (q : VecSyl) : List Stop :=
  let v := vecArgsOf s f q
  allStops (vecFields op q (vecDesc s f q.desc) v)
    (stopIf ((vecWrite s f op v :: vecPendings s f op v).any (vsHazard (getFold s f))) (.contract 8 2 0))

/-- What a vector operation writes, and the state with its masked count or its free values: a masked one writes zeros (R187). -/
def vecOutcome (s : State) (f : Nat) (op : VOp) (v : VArgs) : VRes × State :=
  if v.masked then (⟨List.replicate (vecWrites op v) 0, 0⟩, bump s (foldPg f) F.MASKED_OP_CNT) else vecResult s f op v

/-- A vector operation that its check lets through. Its results are written at issue; no operation may read them before c + L. -/
def doVec (s : State) (f : Nat) (op : VOp) (v : VArgs) : State :=
  let reads := vecPendings s f op v
  let write := vecWrite s f op v
  let (r, s) := vecOutcome s f op v
  let s := modFold s f (fun x => pendVs (reads.foldl pendVs (occupy x (x.now + op.lat) 2)) write)
  bump (droveBytes s (vsAddr f v.d) r.bytes) (foldPg f) F.VEC_NAN_CNT r.nans

/-- Issue of a vector operation (R176, R187, R191, R192). -/
def issueVec (s : State) (f : Nat) (op : VOp) (q : VecSyl) : State :=
  issueWith s f (vecCheck s f op q) (doVec s f op (vecArgsOf s f q))

/-- A VEC syllable: a residue mismatch or a function-table parity failure is a located suspect (R374). -/
def vecSyllable (s : State) (f : Nat) (op : VOp) (q : VecSyl) : State :=
  syllable s f 2 (vecWord op.code q) (fun s => if q.residue then residueFail (issueVec s f op q) f else issueVec s f op q)

/-- VADD (R177). -/
def execVadd (fold : Fin 68) (v : VecSyl) (s : State) : Host.Outcome State Fault Refusal := .next (vecSyllable s fold .vadd v)

/-- VSUB (R177). -/
def execVsub (fold : Fin 68) (v : VecSyl) (s : State) : Host.Outcome State Fault Refusal := .next (vecSyllable s fold .vsub v)

/-- VMUL (R177). -/
def execVmul (fold : Fin 68) (v : VecSyl) (s : State) : Host.Outcome State Fault Refusal := .next (vecSyllable s fold .vmul v)

/-- VFMA (R177). -/
def execVfma (fold : Fin 68) (v : VecSyl) (s : State) : Host.Outcome State Fault Refusal := .next (vecSyllable s fold .vfma v)

/-- VMAX (R177). -/
def execVmax (fold : Fin 68) (v : VecSyl) (s : State) : Host.Outcome State Fault Refusal := .next (vecSyllable s fold .vmax v)

/-- VMIN (R177). -/
def execVmin (fold : Fin 68) (v : VecSyl) (s : State) : Host.Outcome State Fault Refusal := .next (vecSyllable s fold .vmin v)

/-- VCMPLT (R177). -/
def execVcmplt (fold : Fin 68) (v : VecSyl) (s : State) : Host.Outcome State Fault Refusal := .next (vecSyllable s fold .vcmplt v)

/-- VWIDE (R177). -/
def execVwide (fold : Fin 68) (v : VecSyl) (s : State) : Host.Outcome State Fault Refusal := .next (vecSyllable s fold .vwide v)

/-- VNARR (R177). -/
def execVnarr (fold : Fin 68) (v : VecSyl) (s : State) : Host.Outcome State Fault Refusal := .next (vecSyllable s fold .vnarr v)

/-- VDEC (R177). -/
def execVdec (fold : Fin 68) (v : VecSyl) (s : State) : Host.Outcome State Fault Refusal := .next (vecSyllable s fold .vdec v)

/-- VEXP (R177). -/
def execVexp (fold : Fin 68) (v : VecSyl) (s : State) : Host.Outcome State Fault Refusal := .next (vecSyllable s fold .vexp v)

/-- VRCP (R177). -/
def execVrcp (fold : Fin 68) (v : VecSyl) (s : State) : Host.Outcome State Fault Refusal := .next (vecSyllable s fold .vrcp v)

/-- VRSQ (R177). -/
def execVrsq (fold : Fin 68) (v : VecSyl) (s : State) : Host.Outcome State Fault Refusal := .next (vecSyllable s fold .vrsq v)

/-- VSILU (R177). -/
def execVsilu (fold : Fin 68) (v : VecSyl) (s : State) : Host.Outcome State Fault Refusal := .next (vecSyllable s fold .vsilu v)

/-- VGELU (R177). -/
def execVgelu (fold : Fin 68) (v : VecSyl) (s : State) : Host.Outcome State Fault Refusal := .next (vecSyllable s fold .vgelu v)

/-- VROPE (R177). -/
def execVrope (fold : Fin 68) (v : VecSyl) (s : State) : Host.Outcome State Fault Refusal := .next (vecSyllable s fold .vrope v)

/-- VRSUM (R177). -/
def execVrsum (fold : Fin 68) (v : VecSyl) (s : State) : Host.Outcome State Fault Refusal := .next (vecSyllable s fold .vrsum v)

/-- VRMAX (R177). -/
def execVrmax (fold : Fin 68) (v : VecSyl) (s : State) : Host.Outcome State Fault Refusal := .next (vecSyllable s fold .vrmax v)

/-- VARGMX (R177). -/
def execVargmx (fold : Fin 68) (v : VecSyl) (s : State) : Host.Outcome State Fault Refusal := .next (vecSyllable s fold .vargmx v)

/-- VDRAW (R177). -/
def execVdraw (fold : Fin 68) (v : VecSyl) (s : State) : Host.Outcome State Fault Refusal := .next (vecSyllable s fold .vdraw v)

/-- VWALK (R177). -/
def execVwalk (fold : Fin 68) (v : VecSyl) (s : State) : Host.Outcome State Fault Refusal := .next (vecSyllable s fold .vwalk v)

/-- VQMX4 (R177). -/
def execVqmx4 (fold : Fin 68) (v : VecSyl) (s : State) : Host.Outcome State Fault Refusal := .next (vecSyllable s fold .vqmx4 v)

/-- VQI4 (R177). -/
def execVqi4 (fold : Fin 68) (v : VecSyl) (s : State) : Host.Outcome State Fault Refusal := .next (vecSyllable s fold .vqi4 v)

end Sys2Proof.Machine
end

