-- ==== Sys2Proof/Machine/Transfers.lean ====
section
/-! DEFINITION. Transfers of the MOV slot, and when their data becomes visible (R22, R23, R159, R183 to R187, R244 to R248,
R301, R328, R520). -/

namespace Sys2Proof.Machine

/-- A transfer descriptor with the iteration index applied (R184); addresses and length in bytes. -/
structure XArgs where
  /-- source space -/
  ss : Nat
  /-- source address -/
  sa : Nat
  /-- destination space -/
  ds : Nat
  /-- destination address -/
  da : Nat
  /-- target kind -/
  kind : Nat
  /-- target field -/
  target : Nat
  /-- bytes -/
  len : Nat
  /-- lane -/
  lane : Nat
  /-- lane valid -/
  valid : Bool
  /-- its lane is masked -/
  masked : Bool
  deriving DecidableEq, Repr

/-- The fields of a transfer descriptor. -/
def xferArgs (x : Fold) (d : Nat) : XArgs :=
  let st := x.iter * bits d 101 16
  let lane := (bits d 117 8 + x.iter) % 256
  { ss := bits d 0 2, sa := 256 * (bits d 2 32 + st), ds := bits d 34 2, da := 256 * (bits d 36 32 + st), kind := bits d 68 2
    target := bits d 70 15, len := 256 * (bits d 85 16 + 1), lane := lane, valid := bit d 125, masked := laneMasked x (bit d 125) lane }

/-- Size of a fold-side space: vector store or staging (R159). -/
def spaceSize (sp : Nat) : Nat := if sp = 0 then vsSize else 0xC00000

/-- Whether a range lies in a fold-side space. -/
def inSpace (sp a n : Nat) : Bool := decide (a + n ≤ spaceSize sp)

/-- The device address of a fold-side byte. -/
def spaceAddr (f sp a : Nat) : Nat := if sp = 0 then vsAddr f a else stagingAddr f a

/-- The first beat boundary after a device cycle, counted from cycle 0 of the tick (R22). -/
def beatAfter (s : State) (c : Nat) : Nat := s.pause.base + ((c - s.pause.base) / 4 + 1) * 4

/-- Port bookings that a transfer asks for, each with the fold that holds it and its capacity. -/
abbrev Asks := List (Nat × Book × Nat)

/-- Book every ask. -/
def bookAll (s : State) (asks : Asks) : State := forEach s asks (fun s e => addBook s e.1 e.2.1)

/-- The ports that asks overcommit, each of which counts (R194). The folds share the mesh and the edge ports (R21). -/
def overPorts (s : State) : Asks → List Nat
  | [] => []
  | (g, b, cap) :: r => (if overPort s g b cap then [b.port] else []) ++ overPorts (addBook s g b) r

/-- The use of the die bridge by a transfer between dies: 24 ports of 256 bytes a cycle from each die, which the device shares out among
the transfers itself (R21, R199). They are booked in the cycles of the transfer's fold-side port (DESIGN CHOICE, log entry 26). -/
def bridgeAsk (f src dst c0 k bytes : Nat) : Asks := if src = dst then [] else [(f, ⟨8, 64 + src, c0, c0 + k - 1, bytes⟩, 6144)]

/-- The Fraeth port of a link: three a die, sixteen links each (R21). -/
def fraethPort (l : Nat) : Nat := l / 16

/-- The end of the mesh at an HBM port or at a Fraeth port; a fold's is its own number. -/
def hbmEnd (q : Nat) : Nat := 68 + q
/-- The end of the mesh at a link's Fraeth port. -/
def fraethEnd (l : Nat) : Nat := 100 + fraethPort l

/-- The use of the mesh by a transfer of fold `f` from one end to another, in the cycles in which its data enters the mesh. -/
def meshAsk (f src dst c0 k bytes : Nat) : Asks := [(f, ⟨7, 256 * src + dst, c0, c0 + k - 1, bytes⟩, 256)]

/-- Whether the flock of fold `f` uses slot `k`. -/
def usesSlot (s : State) (f k : Nat) : Bool := match foldDrove s f with
  | some d => bit d.folds k && (foldOfSlot s k).isSome
  | none => false

/-- The pending write of a transfer into the vector store: it lands in the `k` cycles that end at `vis` (R185). -/
def destWrite (s : State) (f a n k vis : Nat) : VsPend := vsWrite a n (getFold s f).now (beatAfter s vis) (vis + 1 - k)

/-- Record a transfer of fold `f` and its write of `n` bytes into the vector store of fold `g`. -/
def addXfer (s : State) (f g sp a n k : Nat) (x : Xfer) : State :=
  let w := destWrite s f a n k x.vis
  let s := modFold s f (fun y => { y with xfers := y.xfers ++ [x] })
  if sp = 0 then modFold s g (fun y => pendVs y w) else s

/-- The pending read of a transfer's source in the vector store over `k` cycles; a masked transfer reads nothing (R185, R187). -/
def sourceRead (s : State) (f : Nat) (v : XArgs) (k : Nat) : VsPend :=
  let c := (getFold s f).now
  vsRead v.sa (if v.ss = 0 ∧ !v.masked then v.len else 0) c (c + k) (c + k)

/-- A transfer breaks a vector store rule at its source or at its destination, fold `g`. -/
def xferHazard (s : State) (f g sp a n k vis : Nat) (src : List VsPend) : Bool :=
  src.any (vsHazard (getFold s f)) || (sp == 0 && vsHazard (getFold s g) (destWrite s f a n k vis))

/-- The bytes a transfer moves from a fold-side source; a masked one into the vector store or staging writes zeros (R187). -/
def sourceBytes (s : State) (f : Nat) (v : XArgs) : List Byte :=
  if v.masked then List.replicate v.len 0 else droveRead s (spaceAddr f v.ss v.sa) v.len

/-- Note a masked operation. -/
def countMasked (s : State) (f : Nat) (m : Bool) : State := if m then bump s (foldPg f) F.MASKED_OP_CNT else s

/-- Mark a transfer's source as pending while it is read. -/
def pendSource (s : State) (f : Nat) (v : XArgs) (k : Nat) : State :=
  let r := sourceRead s f v k
  modFold s f (fun y => pendVs y r)

/-- A line lies in part in a range of device addresses. -/
def lineMeets (a n line : Nat) : Bool := decide (a / 64 * 64 ≤ line) && decide (line < a + n)

/-- The lines in error that a transfer meets in its staging source (R256 to R258). -/
def sourceLines (s : State) (f : Nat) (v : XArgs) (lines : List LineErr) : State :=
  if v.ss = 1 ∧ !v.masked then readLines s f (lineMeets (stagingAddr f v.sa) v.len) lines else s

/-! ## XFER (R22, R183) -/

/-- The arguments of a transfer syllable on a fold. -/
def xferOf (s : State) (f desc : Nat) : XArgs := xferArgs (getFold s f) (xferDesc s f desc)

/-- The destination fold of an XFER. -/
def xferDest (s : State) (f : Nat) (v : XArgs) : Nat := if v.kind = 0 then f else (foldOfSlot s v.target).getD f

/-- The visible cycle of an XFER (R22). -/
def xferVis (s : State) (f : Nat) (v : XArgs) : Nat :=
  let lat := if v.kind = 0 then 16 else if dieOf f = dieOf (xferDest s f v) then 32 else 64
  (getFold s f).now + lat + v.len / 256 - 1

/-- What an XFER books. -/
def xferAsks (s : State) (f : Nat) (v : XArgs) : Asks :=
  let c := (getFold s f).now
  let k := v.len / 256
  let vis := xferVis s f v
  let g := xferDest s f v
  if v.kind = 0 then [(f, ⟨2, 0, c, c + k - 1, 256⟩, 256), (f, ⟨2, 1, vis + 1 - k, vis, 256⟩, 256)]
  else [(f, ⟨0, 0, c, c + k - 1, 256⟩, 256), (g, ⟨1, 0, vis + 1 - k, vis, 256⟩, 256)] ++ meshAsk f f g c k 256 ++ bridgeAsk f (dieOf f) (dieOf g) c k 256

/-- The ports that refuse what a syllable asks for. -/
def portStop (s : State) (asks : Asks) : List Stop := (overPorts s asks).map (.contract 7 3 ·)

/-- The reserved bits of a transfer: its syllable's and its descriptor's (R183, R184). -/
def xferReserved (rsv d : Nat) : Bool := rsv != 0 || bits d 126 2 != 0

/-- The target of a transfer to a logical slot names none that the drove uses (R184). A transfer within the fold has no target, and its
field is not read (DEDUCED, log entry 56). -/
def badSlot (s : State) (f : Nat) (v : XArgs) : Bool := v.kind == 1 && (decide (64 ≤ v.target) || !usesSlot s f v.target)

/-- The fields of an XFER that break R192 codes 1 and 2 (R520). -/
def xferFields (s : State) (f rsv desc : Nat) : List Stop :=
  let v := xferOf s f desc
  stopIf (xferReserved rsv (xferDesc s f desc)) (.contract 1 3 0)
    ++ stopIf (decide (2 ≤ v.ss) || decide (2 ≤ v.ds) || decide (2 ≤ v.kind) || badSlot s f v || !inSpace v.ss v.sa v.len
      || !inSpace v.ds v.da v.len) (.contract 2 3 0)

/-- The other rows of R192 that an XFER breaks; one whose target names no fold has no port and no destination to check. -/
def xferRules (s : State) (f : Nat) (v : XArgs) : List Stop :=
  let k := v.len / 256
  if 2 ≤ v.kind ∨ badSlot s f v then stopIf (vsHazard (getFold s f) (sourceRead s f v k)) (.contract 8 3 0)
  else portStop s (xferAsks s f v)
      ++ stopIf (xferHazard s f (xferDest s f v) v.ds v.da v.len k (xferVis s f v) [sourceRead s f v k]) (.contract 8 3 0)

/-- What stops an XFER at its issue (R191, R192). -/
def xferCheck (s : State) (f rsv desc : Nat) : List Stop := allStops (xferFields s f rsv desc) (xferRules s f (xferOf s f desc))

/-- An XFER that its check lets through. -/
def doXfer (s : State) (f : Nat) (v : XArgs) (lines : List LineErr) : State :=
  let g := xferDest s f v
  let vis := xferVis s f v
  let k := v.len / 256
  let s := sourceLines (countMasked (bookAll s (xferAsks s f v)) f v.masked) f v lines
  let data := if v.masked ∧ v.ds = 1 ∧ g ≠ f then [] else sourceBytes s f v
  addXfer (pendSource s f v k) f g v.ds v.da data.length k
    { hwr := false, c := (getFold s f).now, dst := spaceAddr g v.ds v.da, data := data, vis := vis, fly := vis + 1, port := 0
      bundle := (getFold s f).lastPc }

/-- XFER at its issue. -/
def issueXfer (s : State) (f rsv desc : Nat) (lines : List LineErr) : State :=
  issueWith s f (xferCheck s f rsv desc) (doXfer s f (xferOf s f desc) lines)

/-- XFER (R183) with the staging lines in error (R256). -/
def execXfer (fold : Fin 68) (rsv : BitVec 18) (desc : MovRef) (s : State) : Host.Outcome State Fault Refusal :=
  .next (syllable s fold 3 (movWord 1 rsv desc.desc) (fun s => issueXfer s fold rsv.toNat desc.desc desc.lines))

/-! ## HBM transfers (R243 to R247, R301) -/

/-- Where a lane's KV access goes: outside the pool, a piece crossed, unmapped, or a window address (R301). -/
inductive KvWay where
  | plain | cross | unmapped | mapped (w : Nat)
  deriving DecidableEq, Repr

/-- The KV segments of a lane's entry in the active lane block: first virtual block, length, first physical block (R299). -/
def laneSegs (s : State) (f lane : Nat) : List (Nat × Nat × Nat) :=
  (List.range (min 16 (laneField s f lane 64 2))).map (fun j =>
    (laneField s f lane (128 + 8 * j) 2, laneField s f lane (130 + 8 * j) 2, laneField s f lane (132 + 8 * j) 4))

/-- The KV mapping of a window range for a lane. -/
def kvWay (s : State) (f : Nat) (d : Drove) (v : XArgs) (w : Nat) : KvWay :=
  let base := (kvRegion s d.pen).base
  let stripe := kib4 * d.lanes.stripe
  let piece := 256 * d.lanes.piece
  if !v.valid || stripe == 0 || piece == 0 || decide (w < base) || decide (base + d.lanes.stripes * stripe ≤ w) then .plain
  else
    let i := (w - base) / stripe
    let off := (w - base) % stripe
    if piece < off % piece + v.len then .cross
    else match (laneSegs s f v.lane).find? (fun g => decide (g.1 ≤ off / piece) && decide (off / piece < g.1 + g.2.1)) with
      | none => .unmapped
      | some g => .mapped (base + i * stripe + (g.2.2 + off / piece - g.1) * piece + off % piece)

/-- An HBM transfer with its port, device address and rate fixed. -/
structure HbmWay where
  /-- device address -/
  addr : Nat
  /-- window address -/
  win : Nat
  /-- port -/
  port : Nat
  /-- c_p -/
  rate : Nat
  /-- it acts as masked for want of a segment (R301) -/
  unmapped : Bool
  deriving DecidableEq, Repr

/-- The way of an HBM transfer at window address `w`; none for BAD_FIELD. The schedule keeps the design rate of the port: what a retired
pseudo-channel delays is late data (R260). -/
def hbmWay (s : State) (f : Nat) (d : Drove) (v : XArgs) (w : Nat) : Option HbmWay :=
  let go := fun (w : Nat) (u : Bool) => (windowAddr s d.pen w v.len).map (fun a =>
    (⟨a, w, a / 0x800000000, designRate d.pstate, u⟩ : HbmWay))
  match kvWay s f d v w with
  | .cross => none
  | .mapped w' => go w' false
  | .unmapped => go w true
  | .plain => go w false

/-- A cross-die transfer takes 32 cycles more (R245). -/
def crossDie (f q : Nat) : Nat := if dieOf f = portDie q then 0 else 32

/-- The drove names an HBM port (R250). -/
def namesPort (d : Drove) (q : Nat) : Bool := d.ports.any (fun e => e.1 == q)

/-- The bytes per cycle that the drove's bookings allow on a port. -/
def portCap (d : Drove) (h : HbmWay) : Nat := if namesPort d h.port then h.rate else 0

/-- Cycles that an HBM transfer of a length takes. -/
def hbmSpan (v : XArgs) (h : HbmWay) : Nat := ceilDiv v.len h.rate

/-- The visible cycle of an HRD (R245). -/
def hrdVis (s : State) (f : Nat) (d : Drove) (v : XArgs) (h : HbmWay) : Nat :=
  (getFold s f).now + readLat d.pstate + crossDie f h.port + hbmSpan v h - 1

/-- What an HRD books. -/
def hrdAsks (s : State) (f : Nat) (d : Drove) (v : XArgs) (h : HbmWay) : Asks :=
  let c := (getFold s f).now
  let k := hbmSpan v h
  let vis := hrdVis s f d v h
  [(f, ⟨8, 2 * h.port, c, c + k - 1, h.rate⟩, portCap d h), (f, ⟨1, 0, vis + 1 - k, vis, h.rate⟩, 256)]
    ++ meshAsk f (hbmEnd h.port) f (vis + 1 - k - 32) k h.rate ++ bridgeAsk f (portDie h.port) (dieOf f) (vis + 1 - k) k h.rate

/-- The fields of an HRD that break R192 codes 1 and 2 (R244, R520). -/
def hrdFields (s : State) (f rsv desc : Nat) (d : Drove) : List Stop :=
  let v := xferOf s f desc
  stopIf (xferReserved rsv (xferDesc s f desc)) (.contract 1 3 0)
    ++ stopIf (v.ss != 2 || decide (2 ≤ v.ds) || v.kind != 0 || !inSpace v.ds v.da v.len || (hbmWay s f d v v.sa).isNone) (.contract 2 3 0)

/-- What stops an HRD at its issue (R191, R192). -/
def hrdCheck (s : State) (f rsv desc : Nat) (d : Drove) : List Stop :=
  let v := xferOf s f desc
  allStops (hrdFields s f rsv desc d) (match hbmWay s f d v v.sa with
    | none => []
    | some h => portStop s (hrdAsks s f d v h)
        ++ stopIf (xferHazard s f f v.ds v.da v.len (hbmSpan v h) (hrdVis s f d v h) []) (.contract 8 3 0))

/-- The counts of an HBM transfer that the KV map leaves unmapped, or that is masked (R187, R301). -/
def countWay (s : State) (f : Nat) (v : XArgs) (h : HbmWay) : State :=
  countMasked (if h.unmapped ∧ !v.masked then bump s droverPg F.KV_UNMAPPED else s) f (v.masked || h.unmapped)

/-- Count HBM bytes of a fold's transfer for the power estimate; a masked transfer moves none (R187, R441). -/
def spendHbm (s : State) (f n : Nat) : State := modFold s f (fun x => { x with spent := { x.spent with hbm := x.spent.hbm + n } })

/-- An HRD that its check lets through. -/
def doHrd (s : State) (f : Nat) (lines : List LineErr) (d : Drove) (v : XArgs) (h : HbmWay) : State :=
  let vis := hrdVis s f d v h
  let masked := v.masked || h.unmapped
  let s := spendHbm (countWay (bookAll s (hrdAsks s f d v h)) f v h) f (if masked then 0 else v.len)
  let s := if masked then s else readLines s f (lineMeets h.addr v.len) lines
  let data := if masked then List.replicate v.len 0 else droveRead s h.addr v.len
  addXfer s f f v.ds v.da v.len (hbmSpan v h)
    { hwr := false, c := (getFold s f).now, dst := spaceAddr f v.ds v.da, data := data, vis := vis, fly := vis + 1, port := h.port + 1
      bundle := (getFold s f).lastPc }

/-- HRD at its issue. -/
def issueHrd (s : State) (f rsv desc : Nat) (lines : List LineErr) (d : Drove) : State :=
  let v := xferOf s f desc
  issueWith s f (hrdCheck s f rsv desc d) (match hbmWay s f d v v.sa with
    | some h => doHrd s f lines d v h
    | none => s)

/-- HRD (R183, R245): `lines` are the HBM lines in error (R256). -/
def execHrd (fold : Fin 68) (rsv : BitVec 18) (desc : Fin 1024) (lines : List LineErr) (s : State) : Host.Outcome State Fault Refusal :=
  match foldDrove s fold with
  | some d => .next (syllable s fold 3 (movWord 2 rsv desc) (fun s => issueHrd s fold rsv.toNat desc lines d))
  | none => .next s

/-- What an HWR books. -/
def hwrAsks (s : State) (f : Nat) (d : Drove) (v : XArgs) (h : HbmWay) : Asks :=
  let c := (getFold s f).now
  let k := hbmSpan v h
  [(f, ⟨8, 2 * h.port + 1, c, c + k - 1, h.rate⟩, portCap d h), (f, ⟨0, 0, c, c + k - 1, h.rate⟩, 256)]
    ++ meshAsk f f (hbmEnd h.port) c k h.rate ++ bridgeAsk f (dieOf f) (portDie h.port) c k h.rate

/-- The fields of an HWR that break R192 codes 1 and 2 (R244, R520). -/
def hwrFields (s : State) (f rsv desc : Nat) (d : Drove) : List Stop :=
  let v := xferOf s f desc
  stopIf (xferReserved rsv (xferDesc s f desc)) (.contract 1 3 0)
    ++ stopIf (decide (2 ≤ v.ss) || v.ds != 2 || v.kind != 0 || !inSpace v.ss v.sa v.len || (hbmWay s f d v v.da).isNone) (.contract 2 3 0)

/-- What stops an HWR at its issue (R191, R192). -/
def hwrCheck (s : State) (f rsv desc : Nat) (d : Drove) : List Stop :=
  let v := xferOf s f desc
  allStops (hwrFields s f rsv desc d) (match hbmWay s f d v v.da with
    | none => []
    | some h => portStop s (hwrAsks s f d v h) ++ stopIf (vsHazard (getFold s f) (sourceRead s f v (hbmSpan v h))) (.contract 8 3 0))

/-- The completion cycle of an HWR (R245). -/
def hwrVis (s : State) (f : Nat) (d : Drove) (v : XArgs) (h : HbmWay) : Nat :=
  (getFold s f).now + writeLat d.pstate + crossDie f h.port + hbmSpan v h - 1

/-- An HWR that its check lets through. Scheduled reads ordered after it see it at once (R246); the transfer keeps the bytes that it
replaced, which the IOD reads until completion (R248). -/
def doHwr (s : State) (f : Nat) (lines : List LineErr) (d : Drove) (v : XArgs) (h : HbmWay) : State :=
  let k := hbmSpan v h
  let vis := hwrVis s f d v h
  let masked := v.masked || h.unmapped
  let s := spendHbm (countWay (bookAll s (hwrAsks s f d v h)) f v h) f (if masked then 0 else v.len)
  let s := if masked then s else sourceLines s f v lines
  let old := if masked then [] else readBytes s h.addr v.len
  let s := if masked then s else droveStore s h.addr (droveRead s (spaceAddr f v.ss v.sa) v.len)
  modFold (if masked then s else pendSource s f v k) f (fun y => { y with
    xfers := y.xfers ++ [{ hwr := true, c := y.now, dst := h.addr, data := old, vis := vis, fly := vis + 1, port := h.port + 1, bundle := y.lastPc }] })

/-- HWR at its issue. -/
def issueHwr (s : State) (f rsv desc : Nat) (lines : List LineErr) (d : Drove) : State :=
  let v := xferOf s f desc
  issueWith s f (hwrCheck s f rsv desc d) (match hbmWay s f d v v.da with
    | some h => doHwr s f lines d v h
    | none => s)

/-- HWR (R183, R245) with the staging lines in error (R256). -/
def execHwr (fold : Fin 68) (rsv : BitVec 18) (desc : MovRef) (s : State) : Host.Outcome State Fault Refusal :=
  match foldDrove s fold with
  | some d => .next (syllable s fold 3 (movWord 3 rsv desc.desc) (fun s => issueHwr s fold rsv.toNat desc.desc desc.lines d))
  | none => .next s

/-- Drop the first transfer that meets a test. -/
def dropXfer (p : Xfer → Bool) : List Xfer → List Xfer
  | [] => []
  | x :: xs => if p x then xs else x :: dropXfer p xs

/-- The transfer of a kind that becomes visible or completes first. -/
def firstXfer (p : Xfer → Bool) (xs : List Xfer) : Option Xfer :=
  (xs.filter p).foldl (fun m x => match m with | some y => if x.vis < y.vis then some x else m | none => some x) none

/-- The byte that an address holds after HWR `x` and before the next one that covers it: the byte that the next one replaced. -/
def afterWrite (s : State) (x : Xfer) (a : Nat) : Byte :=
  match firstWrite ((s.folds.flatMap (·.2.xfers)).filter (fun y => decide (x.c < y.c))) a with
  | some y => y.replaced a
  | none => readByte s a

/-- An HWR of an earlier cycle gives way to `x`, which has completed, where both cover an address: the IOD sees `x` there. -/
def overtaken (s : State) (x y : Xfer) : Xfer :=
  if y.hwr ∧ y.c < x.c then
    { y with data := y.data.zipIdx.map (fun e => if x.covers (y.dst + e.2) then afterWrite s x (y.dst + e.2) else e.1) }
  else y

/-- An HWR completes: the IOD sees what it wrote (R248). -/
def completeHwr (s : State) (f : Nat) (x : Xfer) : State :=
  let u := forEach s (s.folds.map (·.1)) (fun u g => modFold u g (fun y => { y with xfers := y.xfers.map (overtaken s x) }))
  modFold u f (fun y => { y with xfers := dropXfer (· == x) y.xfers })

/-- HWR_COMPLETE (R245): the earliest HWR of the fold completes, once its cycle has come. -/
def execHwrComplete (fold : Fin 68) (s : State) : Host.Outcome State Fault Refusal :=
  match firstXfer (·.hwr) (getFold s fold).xfers with
  | some x => .next (if due s (x.vis + 1) then completeHwr s fold x else s)
  | none => .next s

/-! ## LSND (R328 to R330, R335) -/

/-- The send entry of an LSND: the kind 0 entry of its link, position, first cycle and flit count (R328). -/
def sendEntry (d : Drove) (pos link cycle n : Nat) : Option LinkEntry :=
  d.links.find? (fun e => e.kind == 0 && e.link == link && e.pos == pos && e.cycle == cycle && e.count == n)

/-- The entry that carries the data: the alternate while the link is out of scheduled use for the drove's flock, and none when the
alternate's own link is out of it too (R330, R335). -/
def routeEntry (s : State) (d : Drove) (e : LinkEntry) : Option LinkEntry :=
  if bit (getLink s e.link).alts d.flock then
    match d.links[e.alt]? with
    | some a => if a.kind = 2 ∧ !bit (getLink s a.link).alts d.flock then some a else none
    | none => none
  else some e

/-- The position of the step that runs on a fold. -/
def foldPos (s : State) (f : Nat) : Nat := match foldFlock s f with
  | some w => (getFlock s w).pos
  | none => 0

/-- The die of a link (R320). -/
def linkDie (l : Nat) : Nat := if l < 48 then 0 else 1

/-- The cycles from the issue of an LSND to the entry of its first flit (R328). -/
def lsndLat (f : Nat) (v : XArgs) : Nat := if linkDie (v.target % 128) = dieOf f then 32 else 64

/-- The cycle of the tick at which the first flit of an LSND enters its link (R328). -/
def lsndEnter (s : State) (f : Nat) (v : XArgs) : Nat := tickCycle s (getFold s f).now + lsndLat f v

/-- What an LSND books: its injection port, and the Fraeth port of its link from the entry of the first flit on, a unit a cycle. -/
def lsndAsks (s : State) (f : Nat) (v : XArgs) : Asks :=
  let c := (getFold s f).now
  let k := v.len / 256
  let l := v.target % 128
  [(f, ⟨0, 0, c, c + k - 1, 256⟩, 256), (f, ⟨8, 66 + fraethPort l, c + lsndLat f v, c + lsndLat f v + k - 1, 256⟩, 256)]
    ++ meshAsk f f (fraethEnd l) c k 256 ++ bridgeAsk f (dieOf f) (linkDie l) c k 256

/-- The schedule entry of an LSND. -/
def lsndEntry (s : State) (f : Nat) (d : Drove) (v : XArgs) : Option LinkEntry :=
  sendEntry d (foldPos s f) (v.target % 128) (lsndEnter s f v) (v.len / 256)

/-- The fields of an LSND that break R192 codes 1 and 2 (R328, R520). -/
def lsndFields (s : State) (f rsv desc : Nat) (d : Drove) : List Stop :=
  let v := xferOf s f desc
  stopIf (xferReserved rsv (xferDesc s f desc) || (v.kind == 2 && decide (8192 ≤ v.target))) (.contract 1 3 0)
    ++ stopIf (decide (2 ≤ v.ss) || decide (2 ≤ v.ds) || v.kind != 2 || !inSpace v.ss v.sa v.len || !inSpace v.ds v.da v.len
      || decide (95 < v.target % 128) || (lsndEntry s f d v).isNone) (.contract 2 3 0)

/-- What stops an LSND at its issue (R191, R192). -/
def lsndCheck (s : State) (f rsv desc : Nat) (d : Drove) : List Stop :=
  let v := xferOf s f desc
  allStops (lsndFields s f rsv desc d)
    ((if 95 < v.target % 128 then [] else portStop s (lsndAsks s f v)) ++ stopIf (vsHazard (getFold s f) (sourceRead s f v (v.len / 256))) (.contract 8 3 0))

/-- The flits of an LSND by an entry. -/
def lsndFlits (s : State) (d : Drove) (v : XArgs) (r : LinkEntry) (data : List Byte) : List OutFlit :=
  (List.range (v.len / 256)).map (fun j => { enter := s.pause.base + r.cycle + j * slotCycles d.pstate, late := false, flit :=
    { zero := v.masked, dev := r.peer, slot := v.target / 128 % 64, space := v.ds, addr := v.da / 256 + j
      tally := s.tally.num % 65536, payload := (data.drop (256 * j)).take 256 } })

/-- The cycle of the tick by which every flit of an LSND has entered its link (R327, R328). -/
def lsndLast (s : State) (f : Nat) (d : Drove) (v : XArgs) : Nat :=
  lsndEnter s f v + (v.len / 256 - 1) * slotCycles d.pstate + 1

/-- An LSND that its check lets through: its flits wait for their slots on the link that carries them. -/
def doLsnd (s : State) (f : Nat) (lines : List LineErr) (d : Drove) (v : XArgs) : State :=
  let entry := lsndEntry s f d v
  let last := s.pause.base + lsndLast s f d v
  let s := sourceLines (countMasked (bookAll s (lsndAsks s f v)) f v.masked) f v lines
  let data := sourceBytes s f v
  let s := modFold (pendSource s f v (v.len / 256)) f (fun x => occupy x last 3)
  match entry.bind (routeEntry s d) with
  | none => s
  | some r => s.setLinks (modD Link.init s.links r.link (fun l => { l with sched := l.sched ++ lsndFlits s d v r data }))

/-- LSND at its issue. -/
def issueLsnd (s : State) (f rsv desc : Nat) (lines : List LineErr) (d : Drove) : State :=
  issueWith s f (lsndCheck s f rsv desc d) (doLsnd s f lines d (xferOf s f desc))

/-- LSND (R183, R328) with the staging lines in error (R256). -/
def execLsnd (fold : Fin 68) (rsv : BitVec 18) (desc : MovRef) (s : State) : Host.Outcome State Fault Refusal :=
  match foldDrove s fold with
  | some d => .next (syllable s fold 3 (movWord 4 rsv desc.desc) (fun s => issueLsnd s fold rsv.toNat desc.desc desc.lines d))
  | none => .next s

/-! ## TSND (R145, R183, R185, R518) -/

/-- The visible cycle of a TSND to a fold. -/
def tsndVis (s : State) (f t g : Nat) : Nat :=
  (getFold s f).now + (if dieOf f = dieOf g then 32 else 64) + ceilDiv (imageLen ((getFold s f).tile t).mode) 256 - 1

/-- The units of a TSND. -/
def tsndUnits (s : State) (f t : Nat) : Nat := ceilDiv (imageLen ((getFold s f).tile t).mode) 256

/-- What a TSND books. -/
def tsndAsks (s : State) (f t g : Nat) : Asks :=
  let c := (getFold s f).now
  let k := tsndUnits s f t
  let vis := tsndVis s f t g
  [(f, ⟨0, 0, c, c + k - 1, 256⟩, 256), (g, ⟨1, 0, vis + 1 - k, vis, 256⟩, 256)] ++ meshAsk f f g c k 256 ++ bridgeAsk f (dieOf f) (dieOf g) c k 256

/-- The fields of a TSND that break R192 codes 1 and 2 (R520). -/
def tsndFields (s : State) (f t rsv desc : Nat) : List Stop :=
  let q := xferDesc s f desc
  let v := xferOf s f desc
  stopIf (xferReserved rsv q) (.contract 1 3 0)
    ++ stopIf (v.ss != 0 || bits q 2 32 != 0 || bits q 85 16 != 0 || v.ds != 0 || v.kind != 1 || badSlot s f v
      || !inSpace 0 v.da (imageLen ((getFold s f).tile t).mode)) (.contract 2 3 0)

/-- The other rules of R141 and R192 that a TSND to fold `g` breaks; a target that names no fold leaves no port and no destination to
check. The mode rule holds for a tile whose claim admits the operation. -/
def tsndRules (s : State) (f t tag : Nat) (g : Option Nat) (da : Nat) : List Stop :=
  let x := getFold s f
  stopIf ((claimCause s f t tag).isNone && (x.tile t).mode == 1) (.contract 3 3 0)
    ++ (match g with
      | some g => portStop s (tsndAsks s f t g)
        ++ stopIf (xferHazard s f g 0 da (imageLen (x.tile t).mode) (tsndUnits s f t) (tsndVis s f t g) []) (.contract 8 3 0)
      | none => [])
    ++ roundClaim s f t tag

/-- What stops a TSND at its issue (R141, R191, R192). -/
def tsndCheck (s : State) (f t tag rsv desc : Nat) : List Stop :=
  let v := xferOf s f desc
  allStops (tsndFields s f t rsv desc) (tsndRules s f t tag (if v.kind = 1 ∧ !badSlot s f v then foldOfSlot s v.target else none) v.da)

/-- A TSND that its check lets through: the image is taken from the tile as it stands, no add being in flight. A masked one reads
nothing (R187). Its flight ends with its last read of the tile (R185). -/
def doTsnd (s : State) (f t : Nat) (v : XArgs) (e : Ecc) : State :=
  let g := (foldOfSlot s v.target).getD f
  let mode := ((getFold s f).tile t).mode
  let b := imageLen mode
  let vis := tsndVis s f t g
  let k := tsndUnits s f t
  let s := countMasked (bookAll s (tsndAsks s f t g)) f v.masked
  let s := if v.masked then s else tileEcc s f t e
  let img := sendMarks ((getFold s f).tile t)
  let data := if v.masked then List.replicate b 0 else imageBytes img t ((slotOfFold s f).getD 0) s.tally.num (mode == 0)
  let c := (getFold s f).now
  addXfer s f g 0 v.da b k
    { hwr := false, c := c, dst := vsAddr g v.da, data := data.take b, vis := vis, fly := c + 4 + k, port := 0, bundle := (getFold s f).lastPc }

/-- TSND at its issue (R145, R183, R185, R518). -/
def issueTsnd (s : State) (f t tag rsv desc : Nat) (e : Ecc) : State :=
  issueWith s f (tsndCheck s f t tag rsv desc) (doTsnd s f t (xferOf s f desc) e)

/-- TSND (R183). -/
def execTsnd (fold : Fin 68) (tile : Fin 128) (tag : BitVec 8) (rsv : BitVec 3) (desc : Fin 1024) (ecc : Ecc) (s : State) :
    Host.Outcome State Fault Refusal :=
  .next (syllable s fold 3 (tsndWord tile tag rsv desc) (fun s => issueTsnd s fold tile tag.toNat rsv.toNat desc ecc))

/-! ## DATA_VISIBLE (R22, R23, R247, R331, R332, R374) -/

/-- A bus parity failure on a fold's transfer: counted on the NOC page, and a data suspect (R374, R499). -/
def busFail (s : State) (f : Nat) (p : BusFail) : State :=
  let hit := fun (s : State) (d : Nat) (c : Field) => dataSuspect (errEvent (bump s (nocPg d) c) (nocPg d) 2) f
  match p with
  | .none => s
  | .noc d => hit s d F.NOC_PARITY_CNT
  | .bridge d => hit s d F.BRIDGE_PARITY_CNT
  | .iodb d => hit s d F.IODB_PARITY_CNT

/-- Write landed data: a plane load in progress has taken its groups from the bytes before it (R38). -/
def landBytes (s : State) (dst vis : Nat) (data : List Byte) : State :=
  droveStore (match stagingFold dst with
    | some g => loadsTo s g (vis + 1)
    | none => s) dst data

/-- The data of a fold's transfer lands; `late` cycles past its visible cycle the device has paused for it (R247). -/
def landXfer (s : State) (f : Nat) (x : Xfer) (late : Nat) (p : BusFail) : State :=
  let s := modFold s f (fun y => { y with xfers := dropXfer (· == x) y.xfers })
  let s := landBytes s x.dst x.vis x.data
  let s := if 0 < late ∧ 0 < x.port then askPause (bump s (hbmPg ((x.port - 1) / 4)) F.HBM_LATE_CYC late) (pauseKey (4000 + x.port) causeLate) late else s
  busFail s f p

/-- The flit of a link that becomes visible first. -/
def firstLanding (xs : List Landing) : Option Landing :=
  xs.foldl (fun m x => match m with | some y => if x.vis < y.vis then some x else m | none => some x) none

/-- Drop the first landing equal to one. -/
def dropLanding (l : Landing) : List Landing → List Landing
  | [] => []
  | x :: xs => if x = l then xs else x :: dropLanding l xs

/-- A link's receiver sets the stop bit while 448 flits or more hold landing space; a CTRL flit carries each change (R333). -/
def showStop (s : State) (l : Nat) : State :=
  let on := decide (448 ≤ (getLink s l).landing.length)
  if on == (rd s (linkPg l) F.LINK_STATE_STOP == 1) then s
  else sendSeq (wr0 s (linkPg l) F.LINK_STATE_STOP (b2n on)) l (.ctrl on)

/-- A flit of a link has become visible: no lateness is predicted once none is left and none is awaited (R332). -/
def dropFlit (s : State) (l : Nat) (x : Landing) : State :=
  let rest := dropLanding x (getLink s l).landing
  let ends := rest.isEmpty && !(awaiting s).any (fun e => e.2.2.link == l)
  modLink s l (fun y => { y with landing := rest, lateBy := if ends then 0 else y.lateBy })

/-- The data of a link's flit becomes visible; `late` cycles past its visible cycle the device has paused for it (R332). -/
def landFlit (s : State) (l : Nat) (x : Landing) (late : Nat) (p : BusFail) : State :=
  let s := showStop (dropFlit s l x) l
  let s := landBytes s x.addr x.vis x.data
  let s := if 0 < late then askPause (bump s (linkPg l) F.LATE_PAUSE_CYC late) (pauseKey (5000 + l) causeLate) late else s
  busFail s (x.addr % 0x100000000 / 0x1000000) p

/-- A transfer of a kind may be under way for a fold: an HWR that has not completed; a lane block; what an LSND of the
fold's drove sends; a loader's write to its slice (R374). -/
def passes (s : State) (w : Passage) (f : Nat) : Bool := match w with
  | .hwr => (firstXfer (·.hwr) (getFold s f).xfers).isSome
  | .laneBlock => (foldFlock s f).isSome
  | .lsnd => (foldDrove s f).isSome
  | .loader => !s.weights.arriving.isEmpty

/-- DATA_VISIBLE (R22, R23, R374): the earliest data of a fold's transfer or of a link becomes visible, once its cycle has come. -/
def execDataVisible (src : VisSrc) (late : Nat) (parity : BusFail) (s : State) : Host.Outcome State Fault Refusal :=
  match src with
  | .fold f => match firstXfer (fun x => !x.hwr) (getFold s f).xfers with
    | some x => .next (if due s (x.vis + 1) then landXfer s f x late parity else s)
    | none => .next s
  | .link l => match firstLanding (getD Link.init s.links l).landing with
    | some x => .next (if due s (x.vis + 1) then landFlit s l x late parity else s)
    | none => .next s
  | .passing w f => .next (if passes s w f then busFail s f parity else s)

/-! ## PAUSE_RELEASE (R23, R93, R122, R138) -/

/-- PAUSE_RELEASE: the device-wide pause ends after its longest source; every fold has seen it (R138, R160). -/
def execPauseRelease (s : State) : Host.Outcome State Fault Refusal :=
  let n := owedCycles s
  if n = 0 then .next s
  else
    let s := s.setPause { s.pause with owed := [], taken := s.pause.taken + n }
    .next (predict (forEach s allFolds (fun s f => bump s (foldPg f) F.PAUSE_SEEN_CYC n)))

end Sys2Proof.Machine
end

