-- ==== Sys2Proof/Machine/Links.lean ====
section
/-! DEFINITION. Fraeth links: states, link-level retry and scheduled flits (R322 to R336). -/

namespace Sys2Proof.Machine

/-! ## States (R324) -/

/-- The partner's stop bit no longer stands: the pause of every fold of this device ends. How long it lasted is what happened, so its
cycles are free (R333). -/
def endStop (s : State) (l : Nat) : State :=
  if (getLink s l).stopped then
    let (v, s) := drawNat (modLink s l (fun x => { x with stopped := false }))
    askPause (bump s (linkPg l) F.BP_PAUSE_CYC (1 + v)) (pauseKey (7000 + l) causeStop) (1 + v)
  else s

/-- A link that no longer carries traffic: what waits on it is lost, and its kind 0 entries go by their alternates from the next tick
boundary if it was UP (R335). -/
def cutLink (up : Bool) (x : Link) : Link :=
  { x with buffer := [], held := [], gap := false, nackDue := false, replays := 0, sched := [], fwd := [], lateBy := 0,
           altNext := x.altNext || up }

/-- Leave the state in force, for TRAIN, FAILED or OFF. -/
def leaveState (s : State) (l : Nat) : State := modLink (endStop s l) l (cutLink (linkUp s l))

/-- Enter TRAIN: the flit sequences start again. -/
def toTrain (s : State) (l : Nat) : State :=
  modLink (wr0 (leaveState s l) (linkPg l) F.LINK_STATE_STATE 1) l (fun x => { x with txSeq := 0, rxSeq := 0 })

/-- Enter FAILED with a cause of LINK_STATE [5:3] (R324, R335). -/
def toFailed (s : State) (l cause : Nat) : State :=
  let pg := linkPg l
  let s := wr0 (wr0 (leaveState s l) pg F.LINK_STATE_STATE 3) pg F.LINK_STATE_CAUSE cause
  let s := errEvent (bump s pg F.LINK_FAIL_CNT) pg 3
  let s := logWrite s pg 0x40 0xFF [(32, cause), (34, rd s pg F.LINK_PEER_ID)]
  modLink s l (fun x => { x with altNext := true })

/-- Enter OFF. -/
def toOff (s : State) (l : Nat) : State := wr0 (wr0 (leaveState s l) (linkPg l) F.LINK_STATE_STATE 0) (linkPg l) F.LINK_PEER_VALID 0

/-- Leave OFF once ENABLE is 1 and the device ID is assigned. -/
def tryTrain (s : State) (l : Nat) : State :=
  if linkState s l = 0 ∧ rd s (linkPg l) F.LINK_CTRL_ENABLE = 1 ∧ idValid s then toTrain s l else s

/-- ENABLE written. -/
def writeLinkEnable (l : Nat) (on : Bool) (s : State) : State :=
  let s := wr0 s (linkPg l) F.LINK_CTRL_ENABLE (b2n on)
  if on then tryTrain s l else toOff s l

/-- LINK_ENABLE (R324, R341). -/
def execLinkEnable (src : Source) (link : Fin 96) (on : Bool) (s : State) : Host.Outcome State Fault Refusal :=
  .next (onPage s src (linkPg link) (writeLinkEnable link on))

/-- RETRAIN (R324, R341); a link that is OFF stays OFF. -/
def execRetrain (src : Source) (link : Fin 96) (s : State) : Host.Outcome State Fault Refusal :=
  .next (onPage s src (linkPg link) (fun s => if linkState s link = 0 then s else toTrain s link))

/-- A send entry covers the latency of its link (R330). -/
def sendOk (s : State) (d : Drove) (e : LinkEntry) : Bool :=
  !(e.kind == 0 || e.kind == 2) || decide (ceilDiv ((rd s (linkPg e.link) F.LINK_LATENCY + 448) * freqOf d.pstate) 16000 ≤ e.lat)

/-- Every drove that the device holds passes the check of R330 on a link. -/
def linkPasses (s : State) (l : Nat) : Bool :=
  s.droves.all (fun e => decide (e.2.st < 2) || e.2.links.all (fun x => x.link != l || sendOk s e.2 x))

/-- TRAINING_DONE (R320, R324, R330): the peer's identity and the largest of four measurements of λ, in timebase units. A link whose λ
fails the check of R330 stays out of scheduled use. -/
def execTrainingDone (link : Fin 96) (peer : Fin 32768) (peerLink : Fin 96) (install : Word) (lambda : Nat) (s : State) :
    Host.Outcome State Fault Refusal :=
  if linkState s link = 1 then
    if install.toNat = rd s bootPg F.INSTALL_ID then
      let pg := linkPg link
      let s := wr0 (wr0 (wr0 s pg F.LINK_PEER_ID peer) pg F.LINK_PEER_VALID 1) pg F.LINK_PEER_LINK peerLink
      let s := wr0 (wr0 s pg F.LINK_LATENCY lambda) pg F.LINK_STATE_STATE 2
      .next (if linkPasses s link then s else modLink s link (fun x => { x with altNext := true }))
    else .next (toFailed s link 4)
  else .next s

/-- TRAINING_TIMEOUT (R324): training has exceeded 100 ms. -/
def execTrainingTimeout (link : Fin 96) (s : State) : Host.Outcome State Fault Refusal :=
  .next (if linkState s link = 1 then toFailed s link 1 else s)

/-- FAILED_RETRY_TIMER (R324): 100 ms have passed in FAILED. -/
def execFailedRetryTimer (link : Fin 96) (s : State) : Host.Outcome State Fault Refusal :=
  .next (if linkState s link = 3 then toTrain s link else s)

/-! ## Retry (R325, R326) -/

/-- The flits of a replay buffer that no acknowledgement of sequence `a` covers; an acknowledgement outside the buffer covers none. -/
def afterAck (x : Link) (a : Nat) : List (Nat × Body) :=
  if a = x.txSeq then [] else if x.buffer.any (fun e => e.1 == a) then x.buffer.dropWhile (fun e => e.1 != a) else x.buffer

/-- An acknowledgement arrives; it ends the episode when it covers every flit that was outstanding at its start. -/
def takeAck (s : State) (l a : Nat) : State :=
  modLink s l (fun x =>
    let rest := afterAck x a
    let ends := decide (0 < x.replays) && (a == x.epEnd || serialNewer 12 a x.epEnd)
    { x with buffer := rest, replays := if ends then 0 else x.replays })

/-- Send one flit of a replay buffer again. -/
def resendFlit (l : Nat) (s : State) (e : Nat × Body) : State := emitFlit s l ((getLink s l).flit e.1 e.2)

/-- One replay: the flits from the oldest unacknowledged one are sent again; the ninth of an episode fails the link. -/
def replayLink (s : State) (l : Nat) : State :=
  let x := getLink s l
  if x.buffer.isEmpty then s
  else
    let s := bump s (linkPg l) F.LINK_REPLAY_CNT
    let n := x.replays + 1
    let s := putLink s l { x with
      replays := n, epStart := if x.replays = 0 then s.tally.tb else x.epStart, epEnd := if x.replays = 0 then x.txSeq else x.epEnd }
    if 9 ≤ n then toFailed s l 2 else forEach s x.buffer (resendFlit l)

/-- ACK_TIMEOUT (R325): no acknowledgement has advanced for 500 ns while flits are outstanding. -/
def execAckTimeout (link : Fin 96) (s : State) : Host.Outcome State Fault Refusal :=
  .next (if linkUp s link then replayLink s link else s)

/-- RETRY_EPISODE_TIMEOUT (R326): the episode has lasted 2 µs. -/
def execRetryEpisodeTimeout (link : Fin 96) (s : State) : Host.Outcome State Fault Refusal :=
  .next (if linkUp s link ∧ 0 < (getLink s link).replays then toFailed s link 3 else s)

/-! ## Receive entries (R331, R334) -/

/-- The first of some schedule entries by a cycle of each. -/
def firstEntryBy (c : Nat × Nat × LinkEntry → Nat) (es : List (Nat × Nat × LinkEntry)) : Option (Nat × Nat × LinkEntry) :=
  es.foldl (fun m e => match m with
    | some y => if c e < c y then some e else m
    | none => some e) none

/-- The receive entry of a link that the next flit fills: the one whose next flit is visible first (R331). -/
def receiveEntry (s : State) (l : Nat) : Option (Nat × Nat × LinkEntry) :=
  firstEntryBy (fun e => flitVis s e (gotFlits s e)) ((awaiting s).filter (fun e => e.2.2.link == l))

/-- The flits that a link has passed on for a forward entry. -/
def passedFlits (s : State) (l : Nat) (e : Nat × Nat × LinkEntry) : Nat := getD 0 (getLink s l).passed (entryKey e)

/-- The booked entry of flit `k` of a schedule entry, as a device cycle (R327, R329). -/
def bookedAt (s : State) (e : Nat × Nat × LinkEntry) (k : Nat) : Nat := s.pause.base + e.2.2.cycle + k * slotCycles (getDrove s e.1).pstate

/-- The forward entry of an incoming link that the next flit takes: the one whose next slot is booked first (R334). -/
def forwardEntry (s : State) (l : Nat) : Option (Nat × Nat × LinkEntry) :=
  firstEntryBy (fun e => bookedAt s e (passedFlits s l e)) ((tickEntries s).filter (fun e =>
    (e.2.2.kind == 1 || e.2.2.kind == 3) && e.2.2.peer == l && decide (passedFlits s l e < e.2.2.count)))

/-- The lateness that a replay which starts now gives the last awaited flit of a receive entry (R332): it lands 2λ, a slot for each flit
to be sent again but the first, and 24 cycles from now. The flits to be sent again are those that the entry still awaits (DEDUCED, log
entry 97). -/
def replayLate (s : State) (l : Nat) (e : Nat × Nat × LinkEntry) : Nat :=
  let lambda := ceilDiv (rd s (linkPg l) F.LINK_LATENCY * freqOf s.power.state) 16000
  let r := e.2.2.count - gotFlits s e
  clock s + 2 * lambda + (r - 1) * slotCycles (getDrove s e.1).pstate + 24 - flitVis s e (e.2.2.count - 1)

/-- A replay starts on a link: the lateness of the data that the device awaits from it joins the overrun prediction (R332). -/
def lateAwaited (s : State) (l : Nat) : State :=
  match receiveEntry s l with
  | some e => predict (modLink s l (fun x => { x with lateBy := replayLate s l e }))
  | none => s

/-- A flit is discarded, or one is missing: a NACK falls due, once until the expected sequence arrives (R325). -/
def wantNack (s : State) (l : Nat) : State :=
  if (getLink s l).gap then s else lateAwaited (modLink s l (fun x => { x with gap := true, nackDue := true })) l

/-- A flit that is intact: acknowledgement, NACK, and the sequence rule. `g` takes a sequenced flit in order; one that finds no landing
space is discarded like a damaged one (R325, R333; DEDUCED, log entry 97). -/
def takeFlit (s : State) (l : Nat) (h : FlitHead) (sequenced room : Bool) (g : State → State) : State :=
  let s := takeAck s l h.ack.toNat
  let s := if h.nack then replayLink s l else s
  let s := sendHeld s l
  let x := getLink s l
  if h.seq.toNat = x.rxSeq then
    if sequenced && !room then wantNack s l
    else
      let s := modLink s l (fun x => { x with gap := false })
      if sequenced then g (acceptSeq s l) else s
  else if serialNewer 12 h.seq.toNat x.rxSeq then wantNack s l
  else s

/-- A flit arrives on a link that is UP: one that FEC marks uncorrectable or whose CRC fails is discarded (R323). An IDLE flit carries the
acknowledgement back (R322; one for each flit that arrives: DESIGN CHOICE, log entry 96). -/
def onFlit (s : State) (l : Nat) (h : FlitHead) (crcOk sequenced room : Bool) (g : State → State) : State :=
  if !linkUp s l then s
  else
    let s := modLink s l (fun x => { x with flits := x.flits + 1 })
    if h.fec then sendIdle (wantNack (bump s (linkPg l) F.FEC_UNCORR_CW) l) l
    else if !crcOk then sendIdle (wantNack (bump s (linkPg l) F.FLIT_CRC_ERR) l) l
    else sendIdle (takeFlit s l h sequenced room g) l

/-- IDLE_FLIT (R322, R325). -/
def execIdleFlit (link : Fin 96) (f : Flit) (s : State) : Host.Outcome State Fault Refusal :=
  .next (onFlit s link f.head (flitCrcOk f 0) false true id)

/-- Book what a received flit uses: the Fraeth port inward, the mesh, and the ejection port of its fold, in its visible cycle. A port that
it overcommits is a fault of that fold, at its last bundle: the spec names no syllable of this device for it (R21, R24, R192; DESIGN CHOICE,
log entry 26). -/
def receiveAsks (l g vis : Nat) : Asks :=
  [(g, ⟨8, 72 + fraethPort l, vis, vis, 256⟩, 256), (g, ⟨1, 0, vis, vis, 256⟩, 256)] ++ meshAsk g (fraethEnd l) g vis 1 256
    ++ bridgeAsk g (linkDie l) (dieOf g) vis 1 256

/-- Book what a flit that is passed on uses: the Fraeth port inward and the one outward, and the mesh between them, in its booked slot. -/
def passAsks (l out enter : Nat) : Asks :=
  let g := 34 * linkDie out
  [(g, ⟨8, 72 + fraethPort l, enter, enter, 256⟩, 256), (g, ⟨8, 66 + fraethPort out, enter, enter, 256⟩, 256)]
    ++ (if fraethPort l = fraethPort out then [] else meshAsk g (fraethEnd l) (fraethEnd out) enter 1 256)
    ++ bridgeAsk g (linkDie l) (linkDie out) enter 1 256

/-- Book the asks of a flit on fold `g`; every port that they overcommit is a fault (R192). -/
def bookFlit (s : State) (g : Nat) (asks : Asks) : State :=
  forEach (bookAll s asks) (overPorts s asks) (fun s p => contractFault s g 7 (getFold s g).lastPc 3 p)

/-- Accept a DATA flit into its receive entry: it becomes visible at its booked cycle (R331). -/
def acceptData (s : State) (l : Nat) (f : Flit) (e : Nat × Nat × LinkEntry) : State :=
  let k := getD 0 (getLink s l).got (entryKey e)
  let vis := flitVis s e k
  let data := if f.zero then List.replicate 256 0 else f.payload
  let s := modLink s l (fun x => { x with got := insKey x.got (entryKey e) (k + 1) })
  match foldOfSlot s f.slot.toNat with
  | some g =>
    let a := if f.space = 0 then vsAddr g (256 * f.addr.toNat) else stagingAddr g (256 * f.addr.toNat)
    let s := bookFlit s g (receiveAsks l g vis)
    showStop (modLink s l (fun x => { x with landing := x.landing ++ [{ vis := vis, addr := a, data := data }] })) l
  | none => s

/-- Pass a flit on to its outgoing link (R334). -/
def passFlit (s : State) (l : Nat) (f : Flit) (e : Nat × Nat × LinkEntry) : State :=
  let k := passedFlits s l e
  let enter := bookedAt s e k
  let late := decide (enter < clock s)
  let flit : DataFlit := { zero := f.zero, dev := f.dev.toNat, slot := f.slot.toNat, space := f.space.toNat, addr := f.addr.toNat,
                           tally := f.tally.toNat, payload := f.payload }
  let s := modLink s l (fun x => { x with passed := insKey x.passed (entryKey e) (k + 1) })
  let s := if late then s else bookFlit s (34 * linkDie e.2.2.link) (passAsks l e.2.2.link enter)
  modLink s e.2.2.link (fun x => { x with fwd := x.fwd ++ [{ enter := enter, late := late, flit := flit }] })

/-- A DATA flit arrives in order: received, passed on, or discarded (R331, R334). -/
def dataFlit (s : State) (l : Nat) (f : Flit) : State :=
  if f.dev.toNat = ownId s then
    match receiveEntry s l with
    | some e => if f.tally.toNat = s.tally.num % 65536 ∧ f.space.toNat < 2 then acceptData s l f e else bump s (linkPg l) F.STALE_DISCARD
    | none => bump s (linkPg l) F.STALE_DISCARD
  else match forwardEntry s l with
    | some e => passFlit s l f e
    | none => bump s (linkPg l) F.STALE_DISCARD

/-- The receiver of a link has landing space for one more flit (R333). -/
def landingRoom (s : State) (l : Nat) : Bool := decide ((getLink s l).landing.length < 512)

/-- DATA_FLIT (R322, R323, R325, R331, R333, R334). -/
def execDataFlit (link : Fin 96) (f : Flit) (s : State) : Host.Outcome State Fault Refusal :=
  .next (onFlit s link f.head (flitCrcOk f 1) true (landingRoom s link) (fun s => dataFlit s link f))

/-- The peer's stop bit: while it stands, every fold of the device pauses (R333). -/
def stopBit (s : State) (l : Nat) (on : Bool) : State := if on then modLink s l (fun x => { x with stopped := true }) else endStop s l

/-- CTRL_FLIT (R322, R333): on a link that is UP it carries the stop bit; a training exchange ends as TRAINING_DONE. -/
def execCtrlFlit (link : Fin 96) (f : Flit) (s : State) : Host.Outcome State Fault Refusal :=
  .next (onFlit s link f.head (flitCrcOk f 4) true true (fun s => stopBit s link f.stop))

/-! ## Slots (R327, R328, R334) -/

/-- The flit whose slot comes first among those whose slot has come. -/
def slotFlit (s : State) (xs : List OutFlit) : Option OutFlit :=
  (xs.filter (fun x => decide (x.enter ≤ clock s))).foldl
    (fun m x => match m with | some y => if x.enter < y.enter then some x else m | none => some x) none

/-- Drop the first waiting flit equal to one. -/
def dropOut (x : OutFlit) : List OutFlit → List OutFlit
  | [] => []
  | y :: ys => if y = x then ys else y :: dropOut x ys

/-- SEND_SLOT (R328): the flit whose slot it is enters the link; on a link that is not UP it is lost (R335). -/
def execSendSlot (link : Fin 96) (s : State) : Host.Outcome State Fault Refusal :=
  match slotFlit s (getLink s link).sched with
  | some x => .next (sendSeq (modLink s link (fun y => { y with sched := dropOut x y.sched })) link (.data x.flit))
  | none => .next s

/-- A booking of the tick holds the slot of link `l` that would begin now: a send, an alternate or a forward entry (R327, R334). -/
def slotHeld (s : State) (l : Nat) : Bool :=
  (tickEntries s).any (fun e => e.2.2.kind != 4 && e.2.2.link == l
    && (let sp := slotCycles (getDrove s e.1).pstate
      (List.range e.2.2.count).any (fun k => decide (clock s < bookedAt s e k + sp) && decide (bookedAt s e k < clock s + sp))))

/-- The flit that link `l` forwards next: one in its booked slot, or else, in a slot that no booking holds, the first that came late
(R334). -/
def forwardNext (s : State) (l : Nat) : Option OutFlit :=
  let x := getLink s l
  match slotFlit s (x.fwd.filter (fun y => !y.late)) with
  | some y => some y
  | none => if (slotFlit s x.sched).isSome || slotHeld s l then none else x.fwd.find? (·.late)

/-- FORWARD_SLOT (R334). -/
def execForwardSlot (link : Fin 96) (s : State) : Host.Outcome State Fault Refusal :=
  match forwardNext s link with
  | some x => .next (sendSeq (modLink s link (fun y => { y with fwd := dropOut x y.fwd })) link (.data x.flit))
  | none => .next s

end Sys2Proof.Machine
end

