-- ==== Sys2Proof/Machine/Requests.lean ====
section
/-! DEFINITION. Requests: KV blocks, prefix reuse, ends and aborts (R280, R292 to R295, R300 to R303, R308 to R312, R316, R317). -/

namespace Sys2Proof.Machine

/-! ## Records (R294) -/

/-- All resident requests, in the order of their record indices. -/
def allReqs (s : State) : List Request := s.drover.reqs.flatMap (·.2)

/-- The requests of flock `k`. -/
def flockReqs (s : State) (k : Nat) : List Request := (allReqs s).filter (fun r => r.flock == k)

/-- Store a request. -/
def putReq (s : State) (r : Request) : State := s.setDrover { s.drover with reqs := putD [] s.drover.reqs (r.handle % 4096) [r] }

/-- What the Drover holds for flock `k`. -/
def getServing (s : State) (k : Nat) : Serving := getD Serving.init s.drover.flocks k

/-- Replace it. -/
def putServing (s : State) (k : Nat) (x : Serving) : State := s.setDrover { s.drover with flocks := putD Serving.init s.drover.flocks k x }

/-- The lane table of flock `k`'s active drove. -/
def laneTable (s : State) (k : Nat) : LaneTable := match flockDrove s k with
  | some d => d.lanes
  | none => LaneTable.none

/-! ## Epochs (R279, R280) -/

/-- The epoch entry of a pen with an ID; an EMPTY entry keeps the ID that a switch under DRAIN has named (R283). -/
def epochOf (s : State) (p id : Nat) : Option Nat :=
  if id = 0 then none else (List.range 2).find? (fun k => rd s (penPg p) F.EPOCH0_ID k == id)

/-- The CURRENT epoch entry of a pen. -/
def currentEpoch (s : State) (p : Nat) : Option Nat := (List.range 2).find? (fun k => rd s (penPg p) F.EPOCH0_STATE k == 3)

/-- The epoch entry that admissions of flock `k` are pinned to: a pending switch counts from the flock's own page tick on (R280, R281). -/
def flockEpoch (s : State) (p k : Nat) : Option Nat :=
  if rd s (penPg p) F.EPOCH_SWITCH_PENDING = 1 ∧ bit (getD 0 s.weights.switched p) k then some (rd s (penPg p) F.EPOCH_SWITCH_ENTRY)
  else currentEpoch s p

/-- An OLD epoch without pinned requests is drained (R282, R283). -/
def checkDrained (s : State) (p k : Nat) : State :=
  if rd s (penPg p) F.EPOCH0_STATE k = 4 ∧ rd s (penPg p) F.EPOCH2 k = 0 ∧ rd s (penPg p) F.EPOCH0_DRAINED k = 0 then
    logWrite (wr s (penPg p) F.EPOCH0_DRAINED k 1) (penPg p) 0x68 p [(32, rd s (penPg p) F.EPOCH0_ID k)]
  else s

/-- Pin a request to an epoch, or let it go. -/
def pinEpoch (s : State) (p id : Nat) (more : Bool) : State := match epochOf s p id with
  | some k =>
    let n := rd s (penPg p) F.EPOCH2 k
    if more then wr s (penPg p) F.EPOCH2 k (n + 1) else checkDrained (wr s (penPg p) F.EPOCH2 k (n - 1)) p k
  | none => s

/-! ## KV blocks (R300 to R303) -/

/-- Physical blocks of a pool with a lane table's geometry. -/
def kvBlocks (t : LaneTable) : Nat := if t.piece = 0 then 0 else kib4 * t.stripe / (256 * t.piece)

/-- Window address of the token record of block `b`. -/
def tokenRecord (s : State) (p : Nat) (t : LaneTable) (b : Nat) : Nat := (kvRegion s p).base + t.stripes * (kib4 * t.stripe) + 256 * b

/-- A prefix table entry (R309). -/
structure PfxEntry where
  /-- key -/
  key : Nat
  /-- physical block -/
  block : Nat
  /-- physical block of the previous prompt block -/
  prev : Nat
  /-- epoch ID -/
  epoch : Nat
  /-- reference count -/
  refs : Nat
  /-- state: 0 free, 2 valid -/
  st : Nat
  /-- tally of the last hit or insertion -/
  tally : Nat
  deriving DecidableEq, Repr

/-- No previous block. -/
def noBlock : Nat := 0xFFFFFFFF

/-- Window address of entry `i` of a prefix table. -/
def pfxAddr (s : State) (p i : Nat) : Nat := (prefixRegion s p).base + 64 * i

/-- Read entry `i` of a prefix table. -/
def pfxEntry (s : State) (p i : Nat) : PfxEntry :=
  let a := pfxAddr s p i
  { key := winLe s p a 8, block := winLe s p (a + 8) 4, prev := winLe s p (a + 12) 4, epoch := winLe s p (a + 16) 2
    refs := winLe s p (a + 18) 2, st := winLe s p (a + 20) 1, tally := winLe s p (a + 24) 8 }

/-- Write entry `i` of a prefix table. -/
def putPfx (s : State) (p i : Nat) (e : PfxEntry) : State :=
  coreWrite s p (pfxAddr s p i) (toLe 8 e.key ++ toLe 4 e.block ++ toLe 4 e.prev ++ toLe 2 e.epoch ++ toLe 2 e.refs
    ++ toLe 1 e.st ++ toLe 3 0 ++ toLe 8 e.tally ++ List.replicate 32 0)

/-- Entries of a pen's prefix table. -/
def pfxCount (s : State) (p : Nat) : Nat := 4 * prefixSets s p

/-- The valid entries of a prefix table, with their indices. -/
def validPfx (s : State) (p : Nat) : List (Nat × PfxEntry) :=
  ((List.range (pfxCount s p)).map (fun i => (i, pfxEntry s p i))).filter (fun e => e.2.st == 2)

/-- A request holds a physical block. -/
def Request.holds (r : Request) (b : Nat) : Bool := r.matched.contains b || (decide (r.tail ≤ b) && decide (b < r.tail + r.tailLen))

/-- A request of the pen holds a physical block. -/
def heldBlock (s : State) (p b : Nat) : Bool := (allReqs s).any (fun r => r.pen == p && r.holds b)

/-- The blocks of a pool that nothing holds and no prefix entry names, as a membership list. -/
def freeBlocks (s : State) (p n : Nat) : List Nat :=
  let named := (validPfx s p).map (·.2.block)
  (List.range n).filter (fun b => !named.contains b && !heldBlock s p b)

/-- The lowest run of `n` blocks all of which are free. -/
def fitRun (free : List Nat) (n : Nat) : Option Nat := free.find? (fun b => (List.range n).all (fun j => free.contains (b + j)))

/-- Put a prefix entry in its place by tally, oldest first. -/
def insOldest (e : Nat × PfxEntry) : List (Nat × PfxEntry) → List (Nat × PfxEntry)
  | [] => [e]
  | x :: xs => if e.2.tally < x.2.tally then e :: x :: xs else x :: insOldest e xs

/-- The cached entries, oldest first: valid with reference count 0. -/
def cachedPfx (s : State) (p : Nat) : List (Nat × PfxEntry) :=
  ((validPfx s p).filter (fun e => e.2.refs == 0)).foldl (fun acc e => insOldest e acc) []

/-- Find a run of `n` blocks, evicting cached entries in the order of the list until one fits (R302). -/
def reserveRun (s : State) (p nb n : Nat) : List (Nat × PfxEntry) → Option Nat × State
  | [] => (fitRun (freeBlocks s p nb) n, s)
  | e :: es => match fitRun (freeBlocks s p nb) n with
    | some b => (some b, s)
    | none => reserveRun (putPfx (bump s droverPg F.PFX_EVICT) p e.1 { e.2 with st := 0 }) p nb n es

/-! ## Prefix reuse (R308 to R311) -/

/-- The 128-bit prefix key of a pen. -/
def penKey (s : State) (p : Nat) : List Byte := (List.range 4).flatMap (fun k => toLe 4 (rd s (penPg p) F.PFX_KEY k))

/-- The tokens of full prompt block `i`, 256 bytes. -/
def blockTokens (prompt : List Nat) (i : Nat) : List Byte := ((prompt.drop (64 * i)).take 64).flatMap (toLe 4)

/-- The keys of the first `n` full blocks of a prompt (R308). -/
def blockKeys (s : State) (p : Nat) (prompt : List Nat) (epoch n : Nat) : List Nat :=
  ((List.range n).foldl (fun (acc : List Nat × Nat) i =>
    let key := sipHash24 (penKey s p) (toLe 8 acc.2 ++ blockTokens prompt i ++ toLe 2 epoch)
    (acc.1 ++ [key], key)) ([], 0)).1

/-- The four entry indices of a key's set. -/
def pfxSet (s : State) (p key : Nat) : List Nat :=
  if prefixSets s p = 0 then [] else (List.range 4).map (fun w => 4 * (key % prefixSets s p) + w)

/-- The valid entry that carries a key. -/
def findPfx (s : State) (p key : Nat) : Option (Nat × PfxEntry) :=
  ((pfxSet s p key).map (fun i => (i, pfxEntry s p i))).find? (fun e => e.2.st == 2 && e.2.key == key)

/-- Prefix segments of matched blocks: runs of consecutive physical numbers. -/
def runs : List Nat → List (Nat × Nat)
  | [] => []
  | b :: bs => match runs bs with
    | [] => [(b, 1)]
    | (c, n) :: r => if c = b + 1 then (b, n + 1) :: r else (b, 1) :: (c, n) :: r

/-- Match the blocks of a prompt in order (R310): the physical blocks matched. -/
def matchBlocks (s : State) (p : Nat) (t : LaneTable) (prompt : List Nat) (epoch : Nat) : List (Nat × Nat) → List Nat → List Nat × State
  | [], acc => (acc, s)
  | (i, key) :: ks, acc =>
    let s := bump s droverPg F.PFX_LOOKUP
    match findPfx s p key with
    | none => (acc, s)
    | some (j, e) =>
      let ok := e.epoch == epoch && e.prev == acc.getLast?.getD noBlock && winBytes s p (tokenRecord s p t e.block) 256 == blockTokens prompt i
      if !ok then (acc, bump s droverPg F.PFX_VERIFY_FAIL)
      else if 15 < (runs (acc ++ [e.block])).length then (acc, s)
      else
        let s := putPfx (bump s droverPg F.PFX_HIT) p j { e with refs := e.refs + 1, tally := s.tally.num }
        matchBlocks s p t prompt epoch ks (acc ++ [e.block])

/-- Lower the reference counts of the first `n` entries of a request's chain. -/
def dropRefs (s : State) (r : Request) (n : Nat) : State :=
  forEach s (blockKeys s r.pen r.prompt r.epoch n) (fun s key => match findPfx s r.pen key with
    | some (j, e) => if r.holds e.block then putPfx s r.pen j { e with refs := e.refs - 1 } else s
    | none => s)

/-- Write the token records of a request's tail (R302). -/
def writeTokens (s : State) (r : Request) (t : LaneTable) : State :=
  forEach s (List.range r.tailLen) (fun s j =>
    let i := r.matched.length + j
    let bytes := blockTokens r.prompt i
    if bytes.isEmpty then s else coreWrite s r.pen (tokenRecord s r.pen t (r.tail + j)) bytes)

/-- Blocks that the tail of a request needs after `m` matched blocks (R302). -/
def tailNeed (r : Request) (m : Nat) : Nat := ceilDiv (r.prompt.length + r.maxNew + 8) 64 - m

/-- Move a request from QUEUED to PREFILL: match its prefix and reserve its tail (R302, R310). -/
def reserve (s : State) (r : Request) : Bool × State :=
  let t := laneTable s r.flock
  let nb := kvBlocks t
  let keys := (blockKeys s r.pen r.prompt r.epoch ((r.prompt.length - 1) / 64)).zipIdx.map (fun e => (e.2, e.1))
  let (ms, s) := matchBlocks s r.pen t r.prompt r.epoch keys []
  let held := { r with matched := ms, chain := ms.length }
  let (run, s) := reserveRun (putReq s held) r.pen nb (tailNeed r ms.length) (cachedPfx s r.pen)
  match run with
  | some b =>
    let r := { held with tail := b, tailLen := tailNeed r ms.length, phase := 1, fed := 64 * ms.length, done := 64 * ms.length }
    (true, writeTokens (putReq s r) r t)
  | none => (false, putReq (dropRefs s held ms.length) r)

/-- Return a request to QUEUED: its reservation is undone (R304). -/
def unreserve (s : State) (r : Request) : State :=
  putReq (dropRefs s r r.chain) { r with phase := 0, matched := [], tail := 0, tailLen := 0, chain := 0, fed := 0, done := 0 }

/-- The entry of the older tally; the earlier one on a tie. -/
def older (m : Option (Nat × PfxEntry)) (e : Nat × PfxEntry) : Option (Nat × PfxEntry) := match m with
  | none => some e
  | some b => if e.2.tally < b.2.tally then some e else some b

/-- Insert the key of a full prompt block (R311): whether it was inserted. -/
def insertBlock (s : State) (r : Request) (i : Nat) : Bool × State :=
  let key := (blockKeys s r.pen r.prompt r.epoch (i + 1)).getLast?.getD 0
  let set : List (Nat × PfxEntry) := (pfxSet s r.pen key).map (fun j => (j, pfxEntry s r.pen j))
  let way : Option (Nat × PfxEntry) := match set.find? (fun (e : Nat × PfxEntry) => e.2.st != 2) with
    | some e => some e
    | none => (set.filter (fun e => e.2.refs == 0)).foldl older none
  if (findPfx s r.pen key).isSome then (false, bump s droverPg F.PFX_NO_WAY)
  else match way with
    | none => (false, bump s droverPg F.PFX_NO_WAY)
    | some (j, _) =>
      let block := fun i => if i < r.matched.length then r.matched.getD i 0 else r.tail + (i - r.matched.length)
      (true, putPfx (bump s droverPg F.PFX_INSERT) r.pen j
        { key := key, block := block i, prev := if i = 0 then noBlock else block (i - 1), epoch := r.epoch, refs := 1, st := 2, tally := s.tally.num })

/-- Insert the blocks whose KV a commit completes, from `done` tokens to `done'` (R311). -/
def insertBlocks (s : State) (r : Request) (done done' : Nat) : Request × State :=
  ((List.range (r.prompt.length / 64)).filter (fun i => decide (done < 64 * (i + 1)) && decide (64 * (i + 1) ≤ done'))).foldl
    (fun (acc : Request × State) i =>
      if acc.1.chain = i then
        let (ok, s) := insertBlock acc.2 acc.1 i
        (if ok then { acc.1 with chain := i + 1 } else acc.1, s)
      else acc) (r, s)

/-! ## Token records and ends (R295, R315, R317, R361) -/

/-- A record of the token ring. -/
def tokenBytes (s : State) (r : Request) (final : Bool) (status pos : Nat) (toks : List Nat) : List Byte :=
  toLe 8 r.tag ++ toLe 2 r.handle ++ [BitVec.ofNat 8 (b2n final), BitVec.ofNat 8 status] ++ toLe 4 pos
    ++ toLe 1 toks.length ++ toLe 3 0 ++ toLe 4 s.tally.num ++ toks.flatMap (toLe 4) ++ List.replicate (4 * (9 - toks.length)) 0 ++ toLe 4 0

/-- Absolute position of a request's next token. -/
def nextPos (r : Request) : Nat := r.prompt.length + r.tokens

/-- Hand a batch of records to a channel; a full spill buffer closes the channel (R361, R362). -/
def sendRecords (s : State) (p ch : Nat) (rs : List (List Byte)) : State :=
  let s := streamOut s p ch rs
  let n := (getChan s p ch).spill.length
  if n < spillSize then s
  else
    let s := modChan s p ch (fun c => { c with spill := [] })
    let s := wr (wr s (penPg p) F.CH_STATE_STATE ch 0) (penPg p) F.CH_STATE_SPILL ch 0
    let s := bump s (penPg p) F.STREAM_OVERRUN
    let s := logWrite (errEvent s shobPg 3) shobPg 0x58 p [(32, p), (33, ch), (36, n)]
    s.setDrover { s.drover with latch := s.drover.latch ++ [.close p ch none] }

/-- Free the record of a request that has reached a final status; its blocks and its pin go with it. -/
def freeReq (s : State) (r : Request) : State :=
  let s := if r.phase = 0 then s else dropRefs s r r.chain
  let i := r.handle % 4096
  let s := s.setDrover { s.drover with reqs := putD [] s.drover.reqs i [], ended := putD [] s.drover.ended i [⟨r.pen, r.handle, r.tag, r.flock, r.bulk⟩] }
  pinEpoch s r.pen r.epoch false

/-- End a request with a status: its final record comes last (R361). -/
def endReq (s : State) (r : Request) (status : Nat) : State :=
  sendRecords (freeReq s r) r.pen r.ch [tokenBytes s r true status (nextPos r) []]

/-- ABORTED. -/
def stAborted : Nat := 2
/-- DEADLINE. -/
def stDeadline : Nat := 3
/-- KV_LOST. -/
def stKvLost : Nat := 5

/-- Journal an END entry of a request (R408). -/
def journalEnd (s : State) (r : Request) (status : Nat) : State :=
  journalHere s r.pen r.flock 3 (toLe 2 r.handle ++ toLe 1 status ++ toLe 1 0)

/-- A KV block of a request is lost (R312). -/
def loseReq (s : State) (r : Request) : State :=
  endReq (journalEnd (bump s droverPg F.KV_LOST_CNT) r stKvLost) r stKvLost

/-- The Drover acts on an uncorrectable line of a KV block or of a prefix table (R312). -/
def loseLine (s : State) (region addr : Nat) : State :=
  forEach s (List.range 16) (fun s p => match windowOf (extents s p) addr 0 with
    | none => s
    | some w =>
      if region = 4 then
        if (prefixRegion s p).has w then
          let i := (w - (prefixRegion s p).base) / 64
          putPfx s p i { pfxEntry s p i with st := 0 }
        else s
      else if (kvRegion s p).has w then
        forEach s (List.range 16) (fun s k =>
          let t := laneTable s k
          if flockPen s k = some p ∧ 0 < kvBlocks t then
            let off := w - (kvRegion s p).base
            let b := if off < t.stripes * (kib4 * t.stripe) then off % (kib4 * t.stripe) / (256 * t.piece) else (off - t.stripes * (kib4 * t.stripe)) / 256
            let s := forEach s ((flockReqs s k).filter (fun r => r.holds b)) loseReq
            forEach s ((validPfx s p).filter (fun e => e.2.block == b)) (fun s e => putPfx s p e.1 { e.2 with st := 0 })
          else s)
      else s)

/-- The Drover acts on every line lost since the last fire (R258, R312). -/
def loseLines (s : State) : State :=
  forEach (s.setCare { s.care with lines := [] }) s.care.lines (fun s e => loseLine s e.1 e.2)

/-- Blocks held only by valid prefix entries, and free blocks, of a pen (R319). -/
def kvCounts (s : State) (p : Nat) : Nat × Nat :=
  match (List.range 16).find? (fun k => flockPen s k == some p && decide (0 < kvBlocks (laneTable s k))) with
  | some k =>
    ((freeBlocks s p (kvBlocks (laneTable s k))).length, ((validPfx s p).filter (fun e => !heldBlock s p e.2.block)).length)
  | none => (0, 0)

/-! ## Aborts (R316) -/

/-- The lanes that a request holds in the step that runs and in the block built for the next. -/
def lanesOf (s : State) (r : Request) : List Nat :=
  let v := getServing s r.flock
  ((v.cur ++ v.next).filter (fun p => p.handle == r.handle)).map (·.lane)

/-- Set lanes in the cancel masks of a flock's folds; they act at the next layer start (R186). -/
def cancelLanes (s : State) (k : Nat) (lanes : List Nat) : State :=
  let mask := lanes.foldl (fun m l => m ||| 2 ^ l) 0
  forEach s (allFolds.filter (fun f => foldFlock s f == some k)) (fun s f => modFold s f (fun x => { x with cancel := x.cancel ||| mask }))

/-- The ended request of the pen with a handle and tag. -/
def endedReq (s : State) (p handle tag : Nat) : Option Ended :=
  (getD [] s.drover.ended (handle % 4096)).find? (fun e => e.pen == p && e.handle == handle && e.tag == tag)

/-- The effect of an abort on a resident request (R316). -/
def abortReq (s : State) (r : Request) : State :=
  if r.phase = 0 then endReq s r stAborted
  else if r.bulk then (if r.draining then s else putReq (bump s droverPg F.CANCEL_BULK) { r with draining := true })
  else endReq (cancelLanes (bump s droverPg F.CANCEL_INT) r.flock (lanesOf s r)) r stAborted

/-- The journal entry of an abort answered UNKNOWN: of the lowest flock of the pen that this device leads, with class 0 (R316, R407, R408;
the flock and the class are a DESIGN CHOICE, log entry 103). -/
def unknownAbort (s : State) (p handle : Nat) : State :=
  match (List.range 16).find? (fun k => flockPen s k == some p && isLead s k) with
  | some k => journalHere s p k 2 (toLe 2 handle ++ toLe 1 2 ++ toLe 1 0)
  | none => s

/-- An abort of a handle and tag by a pen: its result, 0 ABORTED, 1 ALREADY_COMPLETE, 2 UNKNOWN, and its class. -/
def abortHandle (s : State) (p handle tag : Nat) : Nat × Nat × State :=
  match (getReq s handle).filter (fun r => r.pen == p && r.tag == tag) with
  | some r =>
    let s := journalHere s r.pen r.flock 2 (toLe 2 handle ++ toLe 1 0 ++ toLe 1 (b2n r.bulk))
    (0, b2n r.bulk, abortReq s r)
  | none => match endedReq s p handle tag with
    | some e =>
      let s := journalHere s p e.flock 2 (toLe 2 handle ++ toLe 1 1 ++ toLe 1 (b2n e.bulk))
      (1, b2n e.bulk, bump s droverPg F.ABORT_LATE)
    | none => (2, 0, unknownAbort s p handle)

/-- The status that answers an abort result. -/
def abortStatus : Nat → Nat
  | 0 => stAborted
  | 1 => 0x20
  | _ => 0x21

end Sys2Proof.Machine
end

