-- ==== Sys2Proof/Machine/TickEnd.lean ====
section
/-! DEFINITION. The checks at the end of a tick on a fold: idle arrays, open claims, recipe flags, and work in flight
(R37, R94, R132, R139, R141, R142, R192 to R195, R224, R225). -/

namespace Sys2Proof.Machine

/-- The array cycles of the tick that CONVs hold on an array, each once (R37, R192). -/
def heldCycles (s : State) (y : Arr) : Nat :=
  ((y.held.filter (fun a => decide (s.pause.base ≤ a) && decide (a < tickStop s))).dedup).length

/-- An array of the fold has no conversion-free array cycle in the tick (R37, R192). -/
def starved (s : State) (f : Nat) : Bool :=
  let n := ceilDiv (tickLength s) 32
  decide (0 < n) && (getFold s f).arrays.any (fun e => decide (n ≤ heldCycles s e.2))

/-- Tiles that are not carried and still have an open claim. -/
def openTiles (x : Fold) : List Nat := (x.tiles.filter (fun e => e.2.open_ && !e.2.carried)).map (·.1)

/-- The checks at a tick's end on a fold. In a step's last tick they count for the commit, so they run at the commit point
(DEDUCED, log entry 17). No operation names the tile of a claim left open, so the tag that the record names is free. -/
def closeFold (s : State) (k f : Nat) : State :=
  let x := getFold s f
  if x.closed then s
  else
    let s := if starved s f then contractFault s f 11 x.lastPc 0 0 else s
    let s := if lastTick s k then
      forEach s (openTiles x) (fun s t => let (v, s) := drawNat s; clash s f t 6 (v % 256)) else s
    modFold s f (fun y => { y with closed := true })

/-- The share of certified outputs that were resolved in the tick, rounded down (R132; DESIGN CHOICE, log entry 125). -/
def resFrac (x : Fold) : Nat :=
  if x.certOut = 0 then 0 else if x.certRes = x.certOut then 0xFFFF else x.certRes * 65536 / x.certOut

/-- The recipe flags of a tick's end for one layer (R94, R139). -/
def layerFlags (s : State) (f : Nat) (x : Fold) (t : Nat) : State :=
  let pg := foldPg f
  let n := getD 0 x.layerN t
  let c := getD 0 x.layerC t
  let range := decide (0 < n) && decide (rd s pg F.RP_CTRL_MIN ≤ c) && decide (n ≤ c * 2 ^ rd s pg F.RP_CTRL_SHIFT)
  let storm := decide (0 < getD 0 x.layerR t) && decide (rd s pg F.ACC_CTRL ≤ getD 0 x.layerR t)
  let mask := (if range then flagRange else 0) + (if storm then flagStorm else 0)
  if mask = 0 then s else setRecipe s f t mask

/-- The layers with conversions or repeats in the tick. -/
def tickLayers (x : Fold) : List Nat :=
  x.layerN.map (·.1) ++ ((x.layerR.map (·.1)).filter (fun t => !x.layerN.any (fun e => e.1 == t)))

/-- The operations in flight on a fold at device cycle `b`: the bundle and the syllable that issued each, in the order of R163 (R189,
R191 to R194). A TRND is in flight to its delivery; a CONV is one operation, whatever the number of its arrays. -/
def spilled (x : Fold) (b : Nat) : List (Nat × Nat) :=
  let all := (x.convs.map (fun c => (c.op.c, c.op.bundle))).dedup.map (fun e => (e.2, 0)) ++ x.trnds.map (fun t => (t.bundle, 0))
    ++ x.combines.map (fun k => (k.bundle, 0)) ++ x.switches.map (fun w => (w.2.2, 0))
    ++ (x.xfers.filter (fun t => decide (b < t.fly))).map (fun t => (t.bundle, 3))
    ++ (x.busy.filter (fun o => decide (b < o.stop))).map (fun o => (o.bundle, o.syl))
  (List.range 4).flatMap (fun y => all.filter (fun o => o.2 == y))

/-- The recipe flags and the resolved share of a fold as a tick ends (R94, R132, R139). -/
def endShare (s : State) (f : Nat) : State :=
  let x := getFold s f
  forEach (wr0 s (foldPg f) F.RES_FRAC (resFrac x)) (tickLayers x) (fun s t => layerFlags s f x t)

/-- The end of a tick of a step on a fold, as the tick fires. -/
def endFold (s : State) (k f : Nat) : State :=
  let pg := foldPg f
  let x := getFold s f
  let ended := rd s pg F.SEQ_STATUS_ENDED == 1
  let s := if ended then bump s pg F.IDLE_BEATS (ceilDiv (tickLength s - x.endCycle) 4) else s
  let s := closeFold s k f
  let s := if lastTick s k then forEach s (spilled x (tickStop s)) (fun s o => contractFault s f 12 o.1 o.2 0)
    else if ended then s else stepFault s k 1
  modFold s f (fun y => { y with halted := y.halted || !ended || !y.faults.isEmpty || (getFlock s k).stalled })

end Sys2Proof.Machine
end

