-- ==== Sys2Proof/Machine/Tally.lean ====
section
/-! DEFINITION. The tally: markers, HOLD, DECIDE, the commit exchange, credits, and swaps (R206 to R229, R443, R444). -/

namespace Sys2Proof.Machine

/-! ## The unit and the tree (R206, R207, R209) -/

/-- The state of the tally unit: 0 OFF, 1 ACQUIRE, 2 LOCKED, 3 RUN, 4 LOST. -/
def tallyState (s : State) : Nat := rd s tallyPg F.TALLY_STATE_STATE

/-- Enter a state of the tally unit. -/
def setTallyState (s : State) (x : Nat) : State := wr0 s tallyPg F.TALLY_STATE_STATE x

/-- The device is the bellwether. -/
def isRoot (s : State) : Bool := rd s tallyPg F.TALLY_CTRL_ROOT == 1

/-- The links that lead to children. -/
def childLinks (s : State) : List Nat := (List.range 96).filter (fun l => rdBit s tallyPg F.TALLY_CHILD (l / 32) (l % 32))

/-- A marker comes from the parent or the backup parent. -/
def fromAbove (s : State) (l : Nat) : Bool :=
  !isRoot s && ((rd s tallyPg F.TALLY_LINKS_PVALID == 1 && rd s tallyPg F.TALLY_LINKS_PARENT == l)
    || (rd s tallyPg F.TALLY_LINKS_BVALID == 1 && rd s tallyPg F.TALLY_LINKS_BACKUP == l))

/-- A marker comes from a child. -/
def fromChild (s : State) (l : Nat) : Bool := (childLinks s).contains l

/-- A MARKER flit with payload `payload` arrives on a link: its CRC, its sequence and its acknowledgement count like those of any
sequenced flit, and `g` is what a marker of this device's own domain does (R208, R322, R325, R336). -/
def onMarker (s : State) (l : Nat) (h : FlitHead) (m : Marker) (payload : List Byte) (g : State → State) : State :=
  onFlit s l h (headCrcOk h 2 false (zeroBytes 10) payload) true true (fun s => if m.domain = rd s tallyPg F.TALLY_DOMAIN_ID then g s else s)

/-- A downward marker: one that comes from the parent or the backup parent. -/
def onDown (s : State) (l : Nat) (h : FlitHead) (m : Marker) (payload : List Byte) (g : State → State) : State :=
  onMarker s l h m payload (fun s => if fromAbove s l then g s else s)

/-- An upward marker: one that comes from a child. -/
def onUp (s : State) (l : Nat) (h : FlitHead) (m : Marker) (payload : List Byte) (g : State → State) : State :=
  onMarker s l h m payload (fun s => if fromChild s l then g s else s)

/-- A marker of this device with nothing but its head: the domain, the sender, the depth and the tally number. -/
def blankMarker (s : State) : Marker :=
  { domain := rd s tallyPg F.TALLY_DOMAIN_ID, sender := ownId s, hop := rd s tallyPg F.TALLY_STATE_DEPTH, num := s.tally.num,
    time := 0, q := 0, commitExchange := false, childMissing := false, flocks := [], ready := [], slacks := [] }

/-- Send a marker to every child. -/
def sendDown (s : State) (kind : Nat) (m : Marker) : State := forEach s (childLinks s) (fun s l => sendMarker s l kind m)

/-- Forward a marker to every child: the sender and the hop count are this device's (R207). -/
def forward (s : State) (kind : Nat) (m : Marker) : State := sendDown s kind { m with sender := ownId s, hop := m.hop + 1 }

/-- Send a marker to the parent. -/
def sendUp (s : State) (kind : Nat) (m : Marker) : State :=
  if rd s tallyPg F.TALLY_LINKS_PVALID = 1 then sendMarker s (rd s tallyPg F.TALLY_LINKS_PARENT) kind m else s

/-- The note of the last marker of a kind. -/
def copyOf (s : State) (kind : Nat) : Option Copy := (s.tally.seen.find? (fun e => e.1 == kind)).map (·.2)

/-- A downward marker is the first copy of its kind for its tick: a later tally number, or, while the idle ticks of LOCKED all carry 0, a
marker that is not the other parent's copy of the last one (R207, R209; DEDUCED, log entry 98). -/
def firstCopy (s : State) (kind link num : Nat) : Bool := match copyOf s kind with
  | none => true
  | some c => if num = 0 then link == c.link || c.both else decide (c.num < num)

/-- Note a marker of a kind. A TICK of an idle tick of LOCKED starts the count of tally numbers over. -/
def noteSeen (s : State) (kind link num : Nat) : State :=
  let seen := if kind = 1 ∧ num = 0 then [] else s.tally.seen
  s.setTally { s.tally with seen := insKey seen kind { num := num, link := link, both := false } }

/-- Note that the other parent's copy has come. -/
def noteCopy (s : State) (kind : Nat) : State := match copyOf s kind with
  | some c => s.setTally { s.tally with seen := insKey s.tally.seen kind { c with both := true } }
  | none => s

/-- A downward marker of a kind arrives in order: the first copy is forwarded to every child, in whatever state the tally unit is, and
`g` acts on it; another copy is discarded (R207). -/
def firstOf (s : State) (kind link : Nat) (m : Marker) (g : State → State) : State :=
  if firstCopy s kind link m.num then g (forward (noteSeen s kind link m.num) kind m) else noteCopy s kind

/-- Show the tally number. -/
def showNum (s : State) : State := wrPair s tallyPg F.TALLY_NUM_LO F.TALLY_NUM_HI s.tally.num

/-- No drove is active on the device. -/
def noDrove (s : State) : Bool := !s.droves.any (fun e => e.2.st == 3)

/-- The flocks of the domain whose active drove this device does not hold (R206). -/
def awayFlocks (s : State) : List Nat := (List.range 16).filter (fun k => (getFlock s k).away.isSome)

/-- No drove of the domain is active, as far as its SWAP markers have told this device (R213, R216). -/
def idle (s : State) : Bool := noDrove s && (awayFlocks s).isEmpty

/-- The idle period and state (R216). -/
def setIdle (s : State) : State :=
  wr0 (wr0 s tallyPg F.TICK_CFG_N (rd s tallyPg F.TALLY_IDLE_N)) tallyPg F.TICK_CFG_PSTATE 2

/-- The exchange time X in cycles at a design state (R214). -/
def exchange (s : State) (p : Nat) : Nat := ceilDiv (rd s tallyPg F.TALLY_RTT * freqOf p) 16000

/-- The hop slot that set-up fixes: a measured latency, so a free value; 0 for a lone bellwether (R207). -/
def setHop (s : State) : State :=
  let (n, s) := if isRoot s ∧ (childLinks s).isEmpty then (0, s) else (let (v, s) := drawNat s; (1 + v % 5, s))
  let s := wr0 s tallyPg F.TALLY_STATE_HS n
  wr0 s tallyPg F.TALLY_RTT (unitsOf (2 * rd s tallyPg F.TALLY_DOMAIN_D * (64 * n)) (tickP s))

/-- Enter LOCKED at depth `d`, aligned to a fire at timebase `t`. -/
def lockTally (s : State) (d t : Nat) : State :=
  let s := setHop (setIdle (wr0 (setTallyState s 2) tallyPg F.TALLY_STATE_DEPTH d))
  s.setTally { s.tally with fire := t, good := 0 }

/-- Entry to LOST (R209): droves stop and nothing commits. -/
def enterLost (s : State) (cause : Nat) : State :=
  let s := logWrite (errEvent (setTallyState s 4) tallyPg 3) tallyPg 0x20 0xFF [(32, cause)]
  forEach s (List.range 16) (fun s k => if (getFlock s k).entries.isEmpty then s else modFlock s k (fun x => { x with phase := 4 }))

/-- ENABLE written (R209). -/
def writeEnable (on : Bool) (s : State) : State :=
  let s := wr0 s tallyPg F.TALLY_CTRL_ENABLE (b2n on)
  if on then (if tallyState s = 0 then setTallyState s 1 else s)
  else
    let s := showNum ((setTallyState s 0).setTally { s.tally with num := 0, q := none, next := none, start := false, good := 0, credit := 0, creditW := 0 })
    forEach s (List.range 16) (fun s k => if (getFlock s k).entries.isEmpty then s else modFlock s k (fun x => { x with phase := 4 }))

/-- TALLY_ENABLE (R209, R238). -/
def execTallyEnable (src : Source) (on : Bool) (s : State) : Host.Outcome State Fault Refusal := .next (onPage s src tallyPg (writeEnable on))

/-- TALLY_START (R209): on the bellwether in LOCKED, the next idle fire is the first tick of RUN. -/
def execTallyStart (src : Source) (s : State) : Host.Outcome State Fault Refusal :=
  .next (onPage s src tallyPg (fun s => if isRoot s ∧ tallyState s = 2 then s.setTally { s.tally with start := true } else s))

/-- Timebase units by which a measured offset, in 1/256 unit, corrects a timebase that slews: at most 1 unit in 1,024 of a tick (R209). -/
def slew (s : State) (offset : Int) : Int :=
  let top : Int := ((tickU s / 1024 : Nat) : Int)
  max (-top) (min top (offset / 256))

/-- The timebase moves by some units. -/
def shiftTime (s : State) (n : Int) : State :=
  let s := s.setTally { s.tally with tb := ((s.tally.tb : Int) + n).toNat }
  wrPair s tallyPg F.TB_LO F.TB_HI s.tally.tb

/-- A measured offset, in 1/256 unit, acts on the unit (R209). -/
def takeOffset (s : State) (m : Marker) (offset : Int) : State :=
  let s := wr0 s tallyPg F.TB_OFFSET (ofSigned offset 16)
  if tallyState s = 1 then
    let s := shiftTime (s.setTally { s.tally with good := if offset.natAbs ≤ 256 then s.tally.good + 1 else 0 }) (offset / 256)
    if 16 ≤ s.tally.good then lockTally s (m.hop + 1) m.time else s
  else if tallyState s = 3 then (if 2048 < offset.natAbs then enterLost s 1 else shiftTime s (slew s offset))
  else s

/-- A device in LOCKED enters RUN at the fire that a numbered TICK marker names (R209). -/
def takeStart (s : State) (m : Marker) : State :=
  if tallyState s = 2 ∧ m.num ≠ 0 then
    showNum ((setTallyState s 3).setTally { s.tally with num := m.num, fire := m.time, q := none, next := none })
  else s

/-- TICK (R207, R209). The copy that goes on carries this device's timebase at departure (R208). -/
def execTick (link : Fin 96) (m : MarkerFlit) (offset : Int) (s : State) : Host.Outcome State Fault Refusal :=
  .next (onDown s link m.head m.body (markerBytes 1 m.body) (fun s =>
    if firstCopy s 1 link m.body.num then takeStart (takeOffset (forward (noteSeen s 1 link m.body.num) 1 { m.body with time := s.tally.tb }) m.body offset) m.body
    else noteCopy s 1))

/-- MARKER_MISSING (R209). -/
def execMarkerMissing (what : Missing) (s : State) : Host.Outcome State Fault Refusal :=
  if tallyState s = 3 ∧ !isRoot s then
    match what with
    | .tick => .next (enterLost s 2)
    | .decide => .next (if s.tally.q.isNone then enterLost s 3 else s)
    | .commit => .next (if (List.range 16).any (fun k => (getFlock s k).done && (getFlock s k).decision == 0) then enterLost s 3 else s)
  else .next s

/-! ## HOLD and DECIDE (R219, R220, R28) -/

/-- The folds that serve the slots of a drove. -/
def droveFolds (s : State) (d : Drove) : List Nat :=
  ((List.range 64).filter (fun k => bit d.folds k)).filterMap (foldOfSlot s)

/-- The drove of flock `k` that runs the step after the current one, which may lie in the next round (R218, R230). -/
def nextDrove (s : State) (k : Nat) : Option Drove :=
  let x := getFlock s k
  match flockDrove s k with
  | some d =>
    if x.step + 1 < d.s then some d
    else
      let ds := x.entries.map (getDrove s)
      (ds.find? (fun d => runsIn d (x.round + 1))).orElse (fun _ => ds.head?)
  | none => none

/-- Every fold of flock `k` holds the lane block of its next step. When another drove runs that step, its windows come in the page tick
before it, and so does its block (R28, R231; DEDUCED, log entry 99). -/
def blockLanded (s : State) (k : Nat) : Bool := match flockDrove s k, nextDrove s k with
  | some d, some e =>
    d.lanes.lanes.isEmpty || d.digest != e.digest
      || (droveFolds s d).all (fun f => (getFold s f).landed == some ((getFlock s k).num + 1))
  | _, _ => true

/-- Every fold of flock `k`, in its page tick, holds the lane block of the coming round's first step (R28, R231). -/
def pageBlock (s : State) (k : Nat) : Bool := match flockDrove s k with
  | some d => d.lanes.lanes.isEmpty || (droveFolds s d).all (fun f => (getFold s f).landed == some (getFlock s k).num)
  | none => true

/-- The lane block that flock `k` needs next is late: in the last tick of a step, or in the page tick (R28). -/
def blockLate (s : State) (k : Nat) : Bool := match (getFlock s k).phase with
  | 3 => lastTick s k && !blockLanded s k
  | 2 => s.tally.paged != 0 && !pageBlock s k
  | _ => false

/-- The HOLD of a late lane block: the spec does not state its quanta, so they are free, 1 to 64 (R28). -/
def holdForBlock (s : State) (k : Nat) : State :=
  if blockLate s k then
    let (v, s) := drawNat s
    raiseHold (bump s droverPg F.BLOCK_HOLD) (1 + v % 64)
  else s

/-- HOLD_CUTOFF (R220): a late lane block and a line still to be rewritten raise HOLD (R28, R258). -/
def execHoldCutoff (s : State) : Host.Outcome State Fault Refusal :=
  if tallyState s = 3 ∧ !s.tally.cutoff ∧ !idle s then
    let s := holdForLine (forEach (predict s) (List.range 16) holdForBlock)
    .next (s.setTally { s.tally with cutoff := true })
  else .next s

/-- An incoming drove that time-shares joins the flock's active droves when they all share folds with equal K, S and P and
disjoint masks; otherwise it takes their place (R218, DEDUCED, log entry 19). -/
def joins (s : State) (k e : Nat) : Bool :=
  let d := getDrove s e
  let es := (getFlock s k).entries
  d.shared && !es.isEmpty && es.all (fun i =>
    let x := getDrove s i
    x.st == 3 && x.shared && x.k == d.k && x.s == d.s && x.shareP == d.shareP && x.shareMask &&& d.shareMask == 0)

/-- The active droves of flock `k`. -/
def activeOf (s : State) (k : Nat) : List Drove := (s.droves.filter (fun e => e.2.st == 3 && e.2.flock == k)).map (·.2)

/-- The drove is one that a pen may name; none stands for a pen that the device does not know (R364). -/
def penOwns (p : Option Nat) (d : Drove) : Bool := p.all (· == d.pen)

/-- The confirmed incoming entry of flock `k`'s swap. -/
def confirmedEntry (s : State) (k : Nat) : Option Nat := match (getFlock s k).swap with
  | some w => if w.confirmed && !w.incoming.all (· == 0) then
      (s.droves.find? (fun e => e.2.st == 2 && e.2.confirmed && penOwns w.pen e.2 && e.2.digest == w.incoming)).map (·.1) else none
  | none => none

/-- The largest sustained power of flock `k` until its confirmed swap, if it has one, has taken effect. -/
def flockPower (s : State) (k : Nat) : Nat :=
  let now := ((activeOf s k).map (·.sustained)).sum
  match confirmedEntry s k with
  | some e => if joins s k e then now + (getDrove s e).sustained else max now (getDrove s e).sustained
  | none => now

/-- The sum of the sustained budgets on the device once entry `e` is active for flock `k` (R237). -/
def powerWith (s : State) (k e : Nat) : Nat :=
  (((List.range 16).filter (· != k)).map (flockPower s)).sum + (getDrove s e).sustained
    + (if joins s k e then ((activeOf s k).map (·.sustained)).sum else 0)

/-- The KV pool of a pen holds what a lane table needs, each stripe in one extent (R300). -/
def kvPoolOk (s : State) (d : Drove) : Bool :=
  let t := d.lanes
  (t.lanes.isEmpty && t.stripe == 0) ||
    (let sb := kib4 * t.stripe
     let pb := 256 * t.piece
     let r := kvRegion s d.pen
     decide (0 < pb) && decide (t.stripes * sb + 256 * (sb / pb) ≤ r.size)
       && (List.range t.stripes).all (fun i => (windowAddr s d.pen (r.base + i * sb) sb).isSome))

/-- The active droves that stay active when entry `e` becomes active for flock `k`. -/
def staysBeside (s : State) (k e : Nat) : List Drove :=
  (s.droves.filter (fun x => x.2.st == 3 && (x.2.flock != k || joins s k e))).map (·.2)

/-- The confirmed incoming drove of another flock, before its swap has taken effect. -/
def comesBeside (s : State) (k : Nat) : List Drove :=
  ((List.range 16).filter (· != k)).filterMap (fun j => (confirmedEntry s j).map (fun e => { getDrove s e with flock := j }))

/-- Entry `e`, as a drove of flock `k`, may be active beside drove `d`: they share no port, and a fold only within the flock (R218, R251). -/
def besides (s : State) (k e : Nat) (d : Drove) : Bool :=
  d.ports.all (fun q => !(getDrove s e).ports.any (fun r => r.1 == q.1)) && (d.flock == k || d.folds &&& (getDrove s e).folds == 0)

/-- No port or fold of an incoming drove is that of a drove that is active and stays so, or is about to be (R218, R251). -/
def portsFree (s : State) (k e : Nat) : Bool := (staysBeside s k e ++ comesBeside s k).all (besides s k e)

/-- The LOADED entry of a pen with a digest. -/
def loadedEntry (s : State) (p : Option Nat) (dg : List Byte) : Option Nat :=
  (s.droves.find? (fun e => e.2.st == 2 && penOwns p e.2 && e.2.digest == dg)).map (·.1)

/-- A fold of a drove still waits for its boot calibration (R69, R517). -/
def uncalibrated (s : State) (d : Drove) : Bool := (droveFolds s d).any (fun f => (getFold s f).calBoot)

/-- Readiness of this device for a swap: 1 ready, 2 not ready (R211, R218, R237, R251, R300). No drove uses a fold before its boot calibration,
so the device is not ready before it (R517; DEDUCED, log entry 100). -/
def readyFor (s : State) (k : Nat) (p : Option Nat) (dg : List Byte) : Nat :=
  if dg.all (· == 0) then 1
  else match loadedEntry s p dg with
    | none => 2
    | some e =>
      let d := getDrove s e
      if powerWith s k e ≤ rd s pwrPg F.PWR_LIMIT ∧ d.peak ≤ 2600 ∧ kvPoolOk s d ∧ portsFree s k e ∧ !uncalibrated s d then 1 else 2

/-- The flocks with an announced, unconfirmed swap. -/
def announced (s : State) : List Nat := (List.range 16).filter (fun k => match (getFlock s k).swap with
  | some w => !w.confirmed
  | none => false)

/-- A child's readiness for the swap of flock `k`, as its REPORTs of this tick give it. One that has not arrived counts 2, and so does a
REPORT that left before the child had the ANNOUNCE (R213; DEDUCED, log entry 40). -/
def childReadyOf (s : State) (k l : Nat) : Nat :=
  let v := getD 0 (getFlock s k).childReady l
  if v = 0 then 2 else v

/-- Merged readiness of flock `k`: the largest of its own and the children's (R213). -/
def mergedReady (s : State) (k : Nat) : Nat :=
  match (getFlock s k).swap with
  | none => 0
  | some w => ((childLinks s).map (childReadyOf s k)).foldl max (readyFor s k w.pen w.incoming)

/-- The readiness bytes of this device's REPORTs (R213). -/
def readyFields (s : State) : List (Fin 16 × Nat) :=
  (announced s).filterMap (fun k => if h : k < 16 then some (⟨k, h⟩, mergedReady s k) else none)

/-- Put a SLACK entry in its place: ascending slack, the lower ID first (R443). -/
def insSlack (e : SlackEntry) : List SlackEntry → List SlackEntry
  | [] => [e]
  | x :: xs => if e.slack < x.slack ∨ (e.slack = x.slack ∧ e.dev < x.dev) then e :: x :: xs else x :: insSlack e xs

/-- The 16 entries of least slack. -/
def leastSlack (xs : List SlackEntry) : List SlackEntry := (xs.foldl (fun acc e => insSlack e acc) []).take 16

/-- The SLACK entries of the subtree, this device's own smallest slack among them. -/
def subtreeSlack (s : State) : List SlackEntry :=
  leastSlack (if s.tally.least = 0 then s.tally.slacks else ⟨ownId s, s.tally.least - 1⟩ :: s.tally.slacks)

/-- The HOLD REPORT of this device (R208, R213, R220). -/
def holdReport (s : State) : Marker :=
  { blankMarker s with
    q := max s.tally.hold s.tally.childHold
    childMissing := decide (s.tally.childSeen.length < (childLinks s).length)
    ready := readyFields s }

/-- A SLACK exchange falls in this tick: its tally number is a multiple of 64 (R443). -/
def slackTick (s : State) : Bool := s.tally.num % 64 == 0

/-- Send this device's SLACK; the next exchange starts over (R443). -/
def sendSlack (s : State) : State :=
  let s := sendUp s 9 { blankMarker s with slacks := subtreeSlack s }
  s.setTally { s.tally with slacks := [], least := 0 }

/-- HOLD_REPORT_SEND (R220, R443): after the cutoff, or in an idle tick while a swap is announced; and SLACK at the same time in every tick
of an exchange. -/
def execHoldReportSend (s : State) : Host.Outcome State Fault Refusal :=
  let reports := s.tally.cutoff || !(announced s).isEmpty
  if tallyState s = 3 ∧ !isRoot s ∧ !s.tally.sent ∧ (reports ∨ slackTick s) then
    let missing := (childLinks s).length - s.tally.childSeen.length
    let m := holdReport s
    let s := if reports then sendUp (bump s tallyPg F.MARKER_LATE missing) 8 m else s
    let s := s.setTally { s.tally with sent := true }
    .next (if slackTick s then sendSlack s else s)
  else .next s

/-- SLACK (R443): a child's entries count until this device's own SLACK, or the bellwether's CREDIT, has gone out. -/
def execSlack (link : Fin 96) (m : MarkerFlit) (s : State) : Host.Outcome State Fault Refusal :=
  .next (onUp s link m.head m.body (markerBytes 9 m.body) (fun s =>
    if m.body.num = s.tally.num ∧ slackTick s ∧ !s.tally.sent ∧ s.tally.q.isNone then
      s.setTally { s.tally with slacks := leastSlack (s.tally.slacks ++ m.body.slacks) }
    else s))

/-- Fix the stretch of the current tick on this device (R204). -/
def takeDecide (s : State) (q next : Nat) : State :=
  let s := s.setTally { s.tally with q := some q, next := some next }
  if q = 0 then s else bump (bump s tallyPg F.STRETCH_TICKS) tallyPg F.STRETCH_QUANTA q

/-- A credit exchange ends on this device (R444). -/
def takeCredit (s : State) (w : Nat) (devs : List Nat) : State :=
  s.setTally { s.tally with credit := if devs.contains (ownId s) then s.tally.num + 64 else 0, creditW := w }

/-- The devices that the bellwether names: least slack first, below CREDIT_SLACK, at most CREDIT_N (R443). -/
def creditNames (s : State) : List SlackEntry :=
  ((subtreeSlack s).filter (fun e => decide (e.slack < rd s pwrPg F.PWR_CREDIT_SLACK))).take (rd s pwrPg F.PWR_CREDIT_N)

/-- The bellwether sends CREDIT in every 64th tick; the marker's quanta field stands for CREDIT_W. -/
def sendCredit (s : State) : State :=
  if slackTick s then
    let names := creditNames s
    let w := rd s pwrPg F.PWR_CREDIT_W
    let s := sendDown s 10 { blankMarker s with q := w, slacks := names }
    let s := takeCredit s w (names.map (·.dev))
    s.setTally { s.tally with slacks := [], least := 0 }
  else s

/-- The tally unit fires ticks: LOCKED or RUN (R209). -/
def fires (s : State) : Bool := ticking s

/-- DECIDE_SEND (R220, R216, R443): the bellwether decides q; in an idle tick, those of LOCKED among them, it is 0. -/
def execDecideSend (s : State) : Host.Outcome State Fault Refusal :=
  if fires s ∧ isRoot s ∧ s.tally.q.isNone ∧ (s.tally.cutoff ∨ idle s) then
    let q := if idle s then 0 else max s.tally.hold s.tally.childHold
    let s := if idle s then s else bump s tallyPg F.MARKER_LATE ((childLinks s).length - s.tally.childSeen.length)
    let next := s.tally.fire + tickU s + q * quantum (tickP s)
    let s := sendDown s 2 { blankMarker s with q := q, time := next }
    .next (sendCredit (takeDecide s q next))
  else .next s

/-- DECIDE (R204, R207, R216). -/
def execDecide (link : Fin 96) (m : MarkerFlit) (s : State) : Host.Outcome State Fault Refusal :=
  .next (onDown s link m.head m.body (markerBytes 2 m.body) (fun s => firstOf s 2 link m.body (fun s =>
    if fires s && m.body.num == s.tally.num then takeDecide s m.body.q m.body.time else s)))

/-- CREDIT (R207, R444). -/
def execCredit (link : Fin 96) (m : MarkerFlit) (s : State) : Host.Outcome State Fault Refusal :=
  .next (onDown s link m.head m.body (markerBytes 10 m.body) (fun s => firstOf s 10 link m.body (fun s =>
    if tallyState s = 3 ∧ m.body.num = s.tally.num then takeCredit s m.body.q (m.body.slacks.map (·.dev)) else s)))

/-! ## The commit exchange (R124, R223 to R229) -/

/-- Operations of a fold are in flight. -/
def inFlight (x : Fold) : Bool :=
  !x.convs.isEmpty || x.trnds.any (fun _ => true) || !x.combines.isEmpty || !x.xfers.isEmpty || !x.switches.isEmpty

/-- Scheduled work of the tick has not ended on a fold: operations are in flight, or neither TEND nor SEND has issued. -/
def unfinished (s : State) (f : Nat) : Bool := inFlight (getFold s f) || rd s (foldPg f) F.SEQ_STATUS_ENDED == 0

/-- The receive entries of flock `k` in this tick whose flits have not all arrived and landed (R332). -/
def unlanded (s : State) (k : Nat) : List (Nat × Nat × LinkEntry) :=
  (awaiting s).filter (fun e => (getDrove s e.1).flock == k)

/-- The folds on which a drove of flock `k` is active. -/
def flockFolds (s : State) (k : Nat) : List Nat := allFolds.filter (fun f => foldFlock s f == some k)

/-- When the work of flock `k` in this tick ends, timebase units after the fire. -/
def workEnd (s : State) (k : Nat) : Nat := cycleTime s (tickE s k)

/-- When the operations of a fold that end by time alone have left flight, timebase units after the fire. -/
def busyEnd (s : State) (f : Nat) : Nat :=
  cycleTime s ((getFold s f).busy.foldl (fun m o => max m (tickCycle s o.stop)) 0)

/-- Record the slack of a deadline (R223). -/
def recordSlack (s : State) (k limit : Nat) : State :=
  let stop := workEnd s k
  let left := (limit - stop) * freqOf s.power.state / 16000
  let s := wr0 s tallyPg F.SLACK_LAST (min left (2 ^ 24 - 1))
  let s := s.setTally { s.tally with least := if s.tally.least = 0 then left + 1 else min s.tally.least (left + 1) }
  match flockDrove s k with
  | some d => if stop ≤ limit then bump s tallyPg F.SLACK_USED_CYC (d.slack - left) else s
  | none => s

/-- A resolve step fault of one fold counts once in an attempt; the fourth attempt in a row that has one stops the drove (R124, R132). Each
fold counts its own (DESIGN CHOICE, log entry 126). -/
def resolveFold (s : State) (f : Nat) : State :=
  let x := getFold s f
  if x.resPaused && !x.resFaulted then
    let n := min 4 (rd s (foldPg f) F.RES_STATUS_FAULTS + 1)
    let s := wr0 (bump s (foldPg f) F.RES_FAULT_CNT) (foldPg f) F.RES_STATUS_FAULTS n
    let s := modFold s f (fun x => { x with resFaulted := true })
    if 4 ≤ n then stopDrove (wr0 s (foldPg f) F.RES_STATUS_STALL 1) f 1 else s
  else s

/-- A resolve step fault of flock `k`: the quanta lacked are kept for the replay (R124). -/
def resolveFault (s : State) (k past : Nat) : State :=
  let q := min 64 (max 1 (ceilDiv past (quantum (tickP s))))
  let s := modFlock s k (fun x => { x with lack := insKey x.lack x.pos q })
  forEach (stepFault s k 6) (flockFolds s k) resolveFold

/-- The work of flock `k` has passed a deadline (R224): a resolve overrun is cause 6, anything else cause 2. -/
def overrun (s : State) (k limit : Nat) : State :=
  if (flockFolds s k).any (fun f => (getFold s f).resPaused) then resolveFault s k (workEnd s k - limit) else stepFault s k 2

/-- The drove whose step flock `k` runs requires a DAMAGED epoch (R278). -/
def damagedEpoch (s : State) (k : Nat) : Bool :=
  (flockDrove s k).any (fun d => d.epochs.any (fun r => (List.range 2).any (fun i =>
    rd s (penPg d.pen) F.EPOCH0_ID i == r.1 && rd s (penPg d.pen) F.EPOCH0_DAMAGED i == 1)))

/-- The cycle of the device at `limit` timebase units after the fire, the pauses that it owes not counted. -/
def cycleAt (s : State) (limit : Nat) : Nat :=
  s.pause.base + ((limit + s.pause.saved - s.pause.extra) * freqOf s.power.state / 16000 - s.pause.taken - owedCycles s)

/-- The commit point of flock `k` has come: the tick has come so far, or late data or a partner's stop bit keeps its count of cycles from
coming so far, and what happens on time before it has happened (R23, R223, R247, R332, R333). -/
def commitComes (s : State) (k : Nat) : Bool :=
  let c := cycleAt s (unitsOf (deadline s k (s.tally.q.getD 0)) (tickP s))
  (s.links.any (fun e => e.2.stopped) || (lateable s).any (fun u => decide (u ≤ c)) || decide (c ≤ clock s))
    && (onTime s).all (fun t => decide (c < t) || stalledBefore s t) && s.folds.all (fun e => e.2.todo.isEmpty)

/-- The commit point of one flock. -/
def commitPoint (s : State) (k : Nat) : State :=
  let x := getFlock s k
  if lastTick s k && !x.done && commitComes s k then
    let limit := unitsOf (deadline s k (s.tally.q.getD 0)) (tickP s)
    let s := recordSlack s k limit
    let s := if limit < workEnd s k ∨ (flockFolds s k).any (fun f => unfinished s f || decide (limit < busyEnd s f)) ∨ !(unlanded s k).isEmpty then overrun s k limit else s
    let s := forEach s (flockFolds s k) (fun s f => if inFlight (getFold s f) then s else closeFold s k f)
    let s := if damagedEpoch s k then stepFault s k 5 else s
    modFlock s k (fun y => { y with done := true })
  else s

/-- COMMIT_POINT (R223, R224, R278). -/
def execCommitPoint (s : State) : Host.Outcome State Fault Refusal :=
  if tallyState s = 3 ∧ s.tally.q.isSome then
    let s := passStretch s
    .next (orderLog s (forEach s (stepping s) commitPoint))
  else .next s

/-- This device's commit state of flock `k`: 1 clean, 2 faulted, 3 stalled. The eighth faulted attempt in a row stalls, whichever device
faulted (R226, R229). -/
def ownCommit (s : State) (k : Nat) : Nat × State :=
  let x := getFlock s k
  let stalls := x.stalled || decide (8 ≤ x.attempts) || (x.fault != 0 && decide (8 ≤ x.attempts + 1))
  if stalls then
    let s := logWrite (errEvent s tallyPg 4) tallyPg 0x21 0xFF [(32, k), (40, x.num)]
    (3, modFlock s k (fun y => { y with stalled := true }))
  else (if x.fault = 0 then 1 else 2, s)

/-- The merged commit state of flock `k`: the worst of its own and the children's; a missing child counts as faulted (R226). -/
def mergedCommit (s : State) (k : Nat) : Nat × State :=
  let x := getFlock s k
  let (own, s) := if x.phase = 3 then ownCommit s k else (1, s)
  (max own (max x.childState (if x.childSeen < (childLinks s).length then 2 else 1)), s)

/-- The flocks whose commit exchange is due: their commit point has passed here, or a child has reported them. -/
def exchangeDue (s : State) : List Nat := (List.range 16).filter (fun k =>
  let x := getFlock s k
  (x.done && x.phase == 3 || decide (0 < x.childSeen)) && x.decision == 0)

/-- The merged states of the flocks due, in a marker's entries. -/
def commitEntries (s : State) (ks : List Nat) : List FlockEntry × State :=
  ks.foldl (fun (acc : List FlockEntry × State) k =>
    let (v, s) := mergedCommit acc.2 k
    (if h : k < 16 then acc.1 ++ [⟨⟨k, h⟩, v, (getFlock s k).num⟩] else acc.1, s)) ([], s)

/-- The children whose commit reports on the flocks due have not arrived. -/
def childrenMissing (s : State) (ks : List Nat) : Nat :=
  (childLinks s).length - (ks.map (fun k => (getFlock s k).childSeen)).foldl min (childLinks s).length

/-- COMMIT_REPORT_SEND (R213, R226). -/
def execCommitReportSend (s : State) : Host.Outcome State Fault Refusal :=
  let ks := exchangeDue s
  if tallyState s = 3 ∧ !isRoot s ∧ !ks.isEmpty then
    let missing := childrenMissing s ks
    let ready := readyFields s
    let (es, s) := commitEntries s ks
    .next (sendUp (bump s tallyPg F.MARKER_LATE missing) 8
      { blankMarker s with commitExchange := true, childMissing := decide (0 < missing), flocks := es, ready := ready })
  else .next s

/-- A decision for flocks (R227): 1 commit, 2 replay, 3 hold. A commit of another step than the one that runs fails its check: it is
refused and recorded (R226, R375). -/
def takeCommit (s : State) (es : List FlockEntry) : State :=
  forEach s es (fun s e =>
    if e.state = 0 then s
    else if e.state = 1 ∧ e.step ≠ (getFlock s e.flock).num then accessError s tallyPg 0 (.core 0) 5 e.flock
    else modFlock s e.flock (fun x => { x with decision := e.state }))

/-- COMMIT_SEND (R226, R238): the bellwether decides each flock whose commit point has passed. -/
def execCommitSend (s : State) : Host.Outcome State Fault Refusal :=
  let ks := exchangeDue s
  if tallyState s = 3 ∧ isRoot s ∧ !ks.isEmpty then
    let (es, s) := commitEntries (bump s tallyPg F.MARKER_LATE (childrenMissing s ks)) ks
    .next (takeCommit (sendDown s 3 { blankMarker s with flocks := es }) es)
  else .next s

/-- COMMIT (R207, R227). -/
def execCommit (link : Fin 96) (m : MarkerFlit) (s : State) : Host.Outcome State Fault Refusal :=
  .next (onDown s link m.head m.body (markerBytes 3 m.body) (fun s => firstOf s 3 link m.body (fun s =>
    if tallyState s = 3 ∧ m.body.num = s.tally.num then takeCommit s m.body.flocks else s)))

/-! ## Swaps (R211 to R214, R217) -/

/-- The timing rules of R214 that a device checks at load: U, the slack reserve, and the deadlines. -/
def timingLoad (d : Drove) : Bool :=
  let t := d.n * 64
  let u := unitsOf t d.pstate
  decide (32000 ≤ u) && decide (u ≤ 32000000) && decide (ceilDiv (6 * t) 100 ≤ d.slack)
    && d.ticks.all (fun e => decide (e + d.slack ≤ t)) && decide (d.ticks.getD (d.k - 1) 0 + d.slack + d.commit ≤ t)

/-- The five rules of R214 for entry `e` as the drove of flock `k`, with the X of the moment. -/
def timingConfirm (s : State) (k e : Nat) : Bool :=
  let d := getDrove s e
  let t := d.n * 64
  let x := exchange s d.pstate
  let others := staysBeside s k e ++ (s.droves.filter (fun y => y.2.confirmed && y.1 != e)).map (·.2)
  timingLoad d && decide (x ≤ d.commit) && decide (t * d.hold / 1000 + x ≤ t - d.commit)
    && others.all (fun y => y.n == d.n && y.pstate == d.pstate)

/-- The timing of a swap holds on this device, against the active droves that it holds (R214; DEDUCED, log entry 40). -/
def swapTiming (s : State) (k : Nat) (w : Swap) : Bool :=
  match loadedEntry s w.pen w.incoming with
  | some e => timingConfirm s k e
  | none => true

/-- Send a SWAP marker to every child. -/
def sendSwap (s : State) (phase : Nat) (m : Marker) (w : SwapFields) : State :=
  forEach s (childLinks s) (fun s l => sendSeq s l (.swap phase m w))

/-- The digest of the outgoing drove of flock `k`; zero when none is active. -/
def outgoing (s : State) (k : Nat) : List Byte := match flockDrove s k with
  | some d => d.digest
  | none => List.replicate 32 0

/-- The fields of a SWAP marker for flock `k`. -/
def swapFields (s : State) (k : Fin 16) (w : Swap) (status : Nat) : SwapFields :=
  { flock := k, status := status, outgoing := outgoing s k, incoming := w.incoming, ts := w.ts }

/-- A confirmed swap takes hold on this device: the incoming drove is confirmed (R200, R211). A device on which the rules of R214 fail
at that moment does not take it; the spec names no outcome (R214; DESIGN CHOICE, log entry 98). -/
def takeConfirm (s : State) (k : Nat) : State :=
  match (getFlock s k).swap with
  | none => s
  | some w =>
    if !swapTiming s k w then modFlock s k (fun x => { x with swap := none, childReady := [] })
    else
      let s := modFlock s k (fun x => { x with swap := some { w with confirmed := true } })
      match loadedEntry s w.pen w.incoming with
      | some e => putDrove s e { getDrove s e with confirmed := true }
      | none => s

/-- The last status of the incoming drove's entry becomes that of a swap (R212, R238). -/
def swapStatus (s : State) (p : Option Nat) (dg : List Byte) (status : Nat) : State :=
  match s.droves.find? (fun e => e.2.st != 0 && penOwns p e.2 && e.2.digest == dg) with
  | some (e, d) => putDrove s e { d with status := status }
  | none => s

/-- Answer a DROVE_SWAP, and show the status in the entry of its incoming drove. -/
def answerSwap (s : State) (h : MsgHead) (dg : List Byte) (status : Nat) : State := respond (swapStatus s (some h.pen.val) dg status) h 0x22 status

/-- The bellwether refuses a swap with a status (R212). -/
def refuseSwap (s : State) (k : Fin 16) (w : Swap) (status : Nat) : State :=
  let s := sendSwap s 3 (blankMarker s) (swapFields s k w status)
  let s := modFlock s k (fun x => { x with swap := none, childReady := [] })
  match w.origin with
  | some h => answerSwap s h w.incoming status
  | none => s

/-- The bellwether confirms a swap. -/
def confirmSwap (s : State) (k : Fin 16) (w : Swap) : State :=
  let s := takeConfirm (sendSwap s 2 (blankMarker s) (swapFields s k w 0)) k
  match w.origin with
  | some h => answerSwap s h w.incoming 0
  | none => s

/-- The bellwether decides a swap once every device has reported ready, and refuses it when T_s comes nearer than 4 ticks (R211, R212). -/
def settleSwap (s : State) (k : Fin 16) : State :=
  match (getFlock s k).swap with
  | none => s
  | some w =>
    if w.confirmed then s
    else if w.ts < s.tally.num + 4 then refuseSwap s k w 0x0F
    else if mergedReady s k = 1 then (if swapTiming s k w then confirmSwap s k w else refuseSwap s k w 0x10)
    else s

/-- The bellwether decides every announced swap that it can. -/
def settleSwaps (s : State) : State :=
  if isRoot s ∧ tallyState s = 3 then forEach s (List.finRange 16) settleSwap else s

/-- A child's readiness bytes (R213). -/
def takeReady (s : State) (l : Nat) (m : Marker) : State :=
  forEach s (announced s) (fun s k =>
    let v := ((m.ready.find? (fun r => r.1.val == k)).map (·.2)).getD 0
    modFlock s k (fun x => { x with childReady := insKey x.childReady l v }))

/-- A child's commit states (R226). -/
def takeStates (s : State) (m : Marker) : State :=
  forEach s m.flocks (fun s e => modFlock s e.flock (fun x =>
    if x.decision = 0 then { x with childState := max x.childState e.state, childSeen := x.childSeen + 1 } else x))

/-- A child's HOLD (R220). -/
def takeHold (s : State) (l : Nat) (m : Marker) : State :=
  let late := s.tally.sent || s.tally.q.isSome
  let s := if late && decide (0 < m.q) then bump s tallyPg F.HOLD_LATE
    else s.setTally { s.tally with childHold := max s.tally.childHold m.q }
  s.setTally { s.tally with childSeen := if s.tally.childSeen.contains l then s.tally.childSeen else l :: s.tally.childSeen }

/-- REPORT (R211, R213, R220, R226): a child's HOLD or commit report. -/
def execReport (link : Fin 96) (m : MarkerFlit) (s : State) : Host.Outcome State Fault Refusal :=
  .next (onUp s link m.head m.body (markerBytes 8 m.body) (fun s =>
    if tallyState s = 3 ∧ m.body.num = s.tally.num then
      settleSwaps (takeReady (if m.body.commitExchange then takeStates s m.body else takeHold s link m.body) link m.body)
    else s))

/-- The pen of an announced swap: that of the requesting message, which only the bellwether has, or of the flock's active drove. The
marker names none, so a device that has neither does not know it (R213, R364; DESIGN CHOICE, log entry 114). -/
def swapPen (s : State) (k : Nat) (origin : Option MsgHead) : Option Nat :=
  (origin.map (·.pen.val)).orElse (fun _ => (flockDrove s k).map (·.pen))

/-- An ANNOUNCE acts on this device; it replaces an earlier unconfirmed one (R213). -/
def takeAnnounce (s : State) (w : SwapFields) (origin : Option MsgHead) : State :=
  match (getFlock s w.flock).swap with
  | some y => if y.confirmed then s else set
  | none => set
where
  /-- the swap announced -/
  set : State :=
    let p := swapPen s w.flock origin
    modFlock s w.flock (fun x =>
      { x with swap := some { incoming := w.incoming, ts := w.ts, confirmed := false, ready := readyFor s w.flock p w.incoming, origin := origin
                              pen := p }
               childReady := [] })

/-- A SWAP marker arrives from above: the first copy is forwarded, and acted on in RUN (R207, R208, R213). -/
def swapMarker (s : State) (l phase : Nat) (h : FlitHead) (m : Marker) (w : SwapFields) (g : State → State) : State :=
  onDown s l h m (swapBytes phase m w) (fun s =>
    if s.tally.swaps.contains (m.num, phase, w) then s
    else
      let seen := s.tally.swaps.filter (fun e => e.1 == m.num)
      let s := sendSwap (s.setTally { s.tally with swaps := (m.num, phase, w) :: seen }) phase { m with sender := ownId s, hop := m.hop + 1 } w
      if tallyState s = 3 then g s else s)

/-- SWAP_ANNOUNCE (R211, R213). -/
def execSwapAnnounce (link : Fin 96) (w : SwapFlit) (s : State) : Host.Outcome State Fault Refusal :=
  .next (swapMarker s link 1 w.head w.body w.swap (fun s => takeAnnounce s w.swap none))

/-- SWAP_CONFIRM (R211, R213). -/
def execSwapConfirm (link : Fin 96) (w : SwapFlit) (s : State) : Host.Outcome State Fault Refusal :=
  .next (swapMarker s link 2 w.head w.body w.swap (fun s => takeConfirm s w.swap.flock))

/-- An announced swap is refused: nothing changes but that it is no longer announced, and the entry's last status (R212, R213, R238). -/
def takeRefuse (s : State) (w : SwapFields) : State := match (getFlock s w.flock).swap with
  | some y =>
    if y.confirmed then s
    else modFlock (swapStatus s y.pen w.incoming w.status) w.flock (fun x => { x with swap := none, childReady := [] })
  | none => s

/-- SWAP_REFUSE (R212, R213). -/
def execSwapRefuse (link : Fin 96) (w : SwapFlit) (s : State) : Host.Outcome State Fault Refusal :=
  .next (swapMarker s link 3 w.head w.body w.swap (fun s => takeRefuse s w.swap))

/-- A swap request on the bellwether in RUN (R211, R212). -/
def requestSwap (s : State) (h : MsgHead) (k : Fin 16) (incoming : List Byte) (ts : Nat) : State :=
  let old := (getFlock s k).swap
  if old.any (·.confirmed) then answerSwap s h incoming 0x0D
  else if ts < s.tally.num + 16 then answerSwap s h incoming 0x0E
  else if (flockDrove s k).any (fun d => d.pen != h.pen.val) then answerSwap s h incoming 0x0F
  else
    let s := match old with
      | some y => match y.origin with
        | some g => answerSwap s g y.incoming 0x11
        | none => s
      | none => s
    let w : SwapFields := { flock := k, status := 0, outgoing := outgoing s k, incoming := incoming, ts := ts }
    takeAnnounce (sendSwap s 1 (blankMarker s) w) w (some h)

/-- The effect of a DROVE_SWAP message. -/
def doDroveSwap (h : MsgHead) (body : List Byte) (s : State) : State :=
  if !isRoot s ∨ tallyState s ≠ 3 then answerSwap s h (field body 8 32) 0x10
  else requestSwap s h (Fin.ofNat 16 (fieldNat body 0 1)) (field body 8 32) (fieldNat body 40 8)

/-- A DROVE_SWAP body is well formed (R356). -/
def swapBody (body : List Byte) : Bool := body.length == 48 && zeroField body 1 7 && decide (fieldNat body 0 1 < 16)

/-- DROVE_SWAP as it completes on its channel. -/
def msgDroveSwap (s : State) (h : MsgHead) (body : List Byte) : State := message s h 0x22 true (swapBody body) (fun h => doDroveSwap h body)

/-- DROVE_SWAP (R211, R212). -/
def execDroveSwap (h : MsgHead) (body : List Byte) (s : State) : Host.Outcome State Fault Refusal :=
  .next (sendIn s h body.length (fun s => msgDroveSwap s h body))

end Sys2Proof.Machine
end

