-- ==== Sys2Proof/Machine/DroveLoad.lean ====
section
/-! DEFINITION. The drove image, its load checks, and the drove table (R196 to R202, R214, R218, R235, R237, R249, R250,
R296, R297, R329, R330). -/

namespace Sys2Proof.Machine

/-! ## Reading the image -/

/-- A reader of an image: byte offset and length to a number. -/
abbrev Rd := Nat → Nat → Nat

/-- Bytes `a` to `a + n - 1` of an image are zero. -/
def zeros (rd_ : Rd) (a n : Nat) : Bool := decide (rd_ a n = 0)

/-- A section of an image: offset, length, entry count. -/
structure Section_ where
  /-- offset -/
  off : Nat
  /-- length; 0 when absent -/
  len : Nat
  /-- entries -/
  count : Nat
  deriving DecidableEq, Repr

/-- Section `k` of an image (R197). -/
def sectionOf (r : Rd) (k : Nat) : Section_ := ⟨r (192 + 16 * k) 4, r (196 + 16 * k) 4, r (200 + 16 * k) 4⟩

/-- Slots of a mask, ascending. -/
def maskSlots (m : Nat) : List Nat := (List.range 64).filter (fun k => bit m k)

/-- The fold segments of an image, one for each slot of the mask (R198). -/
def readSegs (r : Rd) : List Nat → Nat → List Segment
  | [], _ => []
  | _ :: ks, o =>
    let w := r (o + 2) 2
    { slot := r o 1, shared := bit (r (o + 1) 1) 0, windows := w, carried := r (o + 8) 2
      seq := (List.range (r (o + 4) 1)).map (fun j => r (o + 16 + j) 1), off := o + 4096 } :: readSegs r ks (o + 4096 + 262144 * w)

/-- An edge-port booking (R199). -/
def readEdge (r : Rd) (o : Nat) : EdgeBook :=
  { pos := r o 2, first := r (o + 2) 4, count := r (o + 6) 4, cls := r (o + 10) 1, port := r (o + 11) 1, bytes := r (o + 12) 2 }

/-- A link schedule entry (R329). -/
def readLink (r : Rd) (o : Nat) : LinkEntry :=
  { kind := r (o + 9) 1, pos := r o 2, cycle := r (o + 2) 4, count := r (o + 6) 2, link := r (o + 8) 1, peer := r (o + 10) 2
    lat := r (o + 12) 2, alt := r (o + 14) 2 }

/-- A lane entry (R296). -/
def readLane (r : Rd) (o : Nat) : LaneDef :=
  { kind := r o 1, lane := r (o + 1) 1, epoch := r (o + 2) 1, dmax := r (o + 3) 1, cap := r (o + 4) 2, classes := r (o + 6) 1
    backing := r (o + 7) 1, folds := r (o + 8) 8 }

/-- The lane table of an image. -/
def readLanes (r : Rd) (x : Section_) : LaneTable :=
  if x.len = 0 then LaneTable.none
  else
    { stripes := r (x.off + 1) 1, stripe := r (x.off + 4) 4, piece := r (x.off + 8) 4, ctx := r (x.off + 12) 4, results := r (x.off + 16) 8
      lanes := (List.range (x.count - 1)).map (fun i => readLane r (x.off + 32 * (i + 1))) }

/-- Entries of a section at a stride. -/
def readAll {α : Type} (x : Section_) (stride : Nat) (f : Nat → α) : List α := if x.len = 0 then [] else (List.range x.count).map (fun i => f (x.off + stride * i))

/-- The drove that an image describes, LOADING for a pen. -/
def readDrove (r : Rd) (p addr : Nat) (digest : List Byte) : Drove :=
  let folds := r 40 8
  let h := r 28 2
  let alloc := sectionOf r 3
  { Drove.empty with
    st := 1, pen := p, addr := addr, size := r 16 4, digest := digest, needs := (r 12 4, r 10 2, r 32 8), n := r 20 4, pstate := r 24 1, k := r 25 1, s := r 26 1
    shared := bit (r 27 1) 1, hold := if h = 0 then 700 else h, folds := folds, slack := r 48 4, commit := r 52 4
    sustained := r 56 2, peak := r 58 2, shareP := r 60 1, shareMask := r 62 2, flockSize := r 64 2
    epochs := (List.range (r 72 1)).map (fun i => (r (80 + 34 * i) 2, toLe 32 (r (82 + 34 * i) 32)))
    ticks := readAll (sectionOf r 5) 4 (fun o => r o 4)
    ranks := readAll (sectionOf r 7) 2 (fun o => r o 2)
    segs := if (sectionOf r 0).len = 0 then [] else readSegs r (maskSlots folds) (sectionOf r 0).off
    edges := readAll (sectionOf r 1) 16 (readEdge r)
    ports := (readAll alloc 8 (fun o => (r o 1, r (o + 1) 1, r (o + 4) 2, r (o + 6) 2))).filterMap (fun e => if e.1 = 0 then some e.2 else none)
    ranges := (readAll alloc 8 (fun o => (r o 1, r (o + 1) 1, r (o + 2) 2, r (o + 4) 2))).filterMap (fun e => if e.1 = 1 then some e.2 else none)
    links := readAll (sectionOf r 2) 16 (readLink r)
    lanes := readLanes r (sectionOf r 4) }

/-! ## BAD_IMAGE (R200, status 0x01) -/

/-- Magic, version, reserved bytes and field ranges of the header (R196). -/
def headerOk (r : Rd) : Bool :=
  let h := r 28 2
  r 0 8 == leNat ("GQZDROVE".toList.map (fun c => BitVec.ofNat 8 c.toNat)) && r 9 1 == 1
    && decide (r 24 1 ≤ 6) && decide (1 ≤ r 25 1) && decide (1 ≤ r 26 1) && decide (r 26 1 ≤ 64) && decide (r 27 1 < 4)
    && (h == 0 || (decide (100 ≤ h) && decide (h ≤ 950))) && zeros r 30 2 && r 52 4 % 64 == 0
    && decide (1 ≤ r 60 1) && decide (r 60 1 ≤ 16) && zeros r 61 1 && decide (1 ≤ r 64 2) && decide (r 64 2 ≤ 32768) && zeros r 66 6
    && decide (r 72 1 ≤ 2) && zeros r 73 7 && (r 72 1 == 2 || zeros r 114 34)
    && zeros r 148 12 && zeros r 320 160

/-- Bounds, alignment and overlap of the sections, and the required ones (R197). -/
def sectionsOk (r : Rd) (d : Drove) : Bool :=
  let xs := (List.range 8).map (sectionOf r)
  let present := xs.filter (fun x => decide (0 < x.len))
  (List.range 8).all (fun k => zeros r (204 + 16 * k) 4)
    && present.all (fun x => x.off % 4096 == 0 && decide (512 ≤ x.off) && decide (x.off + x.len ≤ d.size))
    && (List.range 8).all (fun i => (List.range 8).all (fun j =>
        let a := sectionOf r i
        let b := sectionOf r j
        i == j || a.len == 0 || b.len == 0 || decide (a.off + a.len ≤ b.off) || decide (b.off + b.len ≤ a.off)))
    && (d.folds == 0 || decide (0 < (sectionOf r 0).len)) && decide (0 < (sectionOf r 5).len)
    && (d.flockSize ≤ 1 || decide (0 < (sectionOf r 7).len))
    && (decide (0 < (sectionOf r 6).len) == bit (r 27 1) 0)

/-- A section's entries fit its length. -/
def entriesFit (x : Section_) (stride : Nat) : Bool := decide (stride * x.count ≤ x.len)

/-- The segment headers (R198). -/
def segsOk (r : Rd) (d : Drove) : Bool :=
  let x := sectionOf r 0
  x.len == 0 || (x.count == (maskSlots d.folds).length && d.segs.map (·.slot) == maskSlots d.folds
    && d.segs.all (fun g =>
      let o := g.off - 4096
      decide (r (o + 1) 1 < 2) && decide (1 ≤ g.windows) && decide (g.windows ≤ 256) && decide (1 ≤ g.seq.length) && decide (g.seq.length ≤ 64)
        && zeros r (o + 5) 3 && zeros r (o + 10) 6 && zeros r (o + 80) 4016 && g.seq.all (fun w => decide (w < g.windows))
        && decide (g.off + 262144 * g.windows ≤ x.off + x.len)))

/-- The tick, stagger, rank and edge-port tables (R199). -/
def tablesOk (r : Rd) (d : Drove) : Bool :=
  let st := sectionOf r 6
  d.ticks.length == d.k && entriesFit (sectionOf r 5) 4
    && (st.len == 0 || (st.count == 64 && entriesFit st 2 && (List.range 64).all (fun i =>
        let v := r (st.off + 2 * i) 2
        v % 32 == 0 && decide (v ≤ 4064))))
    && ((sectionOf r 7).len == 0 || (d.ranks.length == d.flockSize && entriesFit (sectionOf r 7) 2 && d.ranks.all (fun v => decide (v < 32768))))
    && entriesFit (sectionOf r 1) 16
    && d.edges.all (fun e => decide (e.pos < d.k) && decide (e.cls ≤ 2) && decide (e.bytes ≤ 256)
        && decide (e.port < (if e.cls = 0 then 32 else if e.cls = 1 then 6 else 24)))
    && (readAll (sectionOf r 1) 16 (fun o => r (o + 14) 2)).all (· == 0)

/-- The link schedule (R329). -/
def linksOk (r : Rd) (d : Drove) : Bool :=
  let x := sectionOf r 2
  entriesFit x 16 && d.links.all (fun e =>
    decide (e.kind ≤ 4) && decide (e.pos < d.k) && decide (e.link < 96) && decide (1 ≤ e.count)
      && (if e.kind = 1 ∨ e.kind = 3 then decide (e.peer < 96) && e.lat == 0 && e.alt == 0
          else if e.kind = 4 then decide (e.peer < 32768) && e.lat == 0 && e.alt == 0
          else if e.kind = 2 then decide (e.peer < 32768) && e.alt == 0
          else decide (e.peer < 32768) && (e.alt == 0xFFFF || (d.links[e.alt]?).any (fun a => a.kind == 2))))

/-- The channel allocation (R249). -/
def allocOk (r : Rd) : Bool :=
  let x := sectionOf r 3
  entriesFit x 8 && (readAll x 8 (fun o => o)).all (fun o =>
    if r o 1 = 0 then decide (r (o + 1) 1 < 32) && zeros r (o + 2) 2
    else r o 1 == 1 && decide (r (o + 1) 1 < 64) && decide (1 ≤ r (o + 4) 2) && decide (r (o + 2) 2 + r (o + 4) 2 ≤ 192) && zeros r (o + 6) 2)

/-- The lane table (R296, R297). -/
def lanesOk (r : Rd) (d : Drove) : Bool :=
  let x := sectionOf r 4
  let t := d.lanes
  let slots := t.lanes.filter (fun l => l.kind == 2)
  x.len == 0 || (decide (1 ≤ x.count) && entriesFit x 32
    && zeros r x.off 1 && decide (1 ≤ t.stripes) && decide (t.stripes ≤ 32) && zeros r (x.off + 2) 2 && zeros r (x.off + 24) 8
    && t.ctx % 64 == 0 && decide (64 ≤ t.ctx) && decide (t.ctx ≤ 1048576)
    && t.lanes.all (fun l => (l.kind == 1 || l.kind == 2)
        && (if l.kind = 1 then decide (l.dmax ≤ 8) && l.cap == 0 && l.backing == 0xFF
            else l.dmax == 0 && decide (1 ≤ l.cap) && decide (l.cap ≤ 2048)
              && (l.backing == 0xFF || t.lanes.any (fun b => b.kind == 1 && b.lane == l.backing && decide (1 ≤ b.dmax))))
        && decide (l.epoch < d.epochs.length) && decide (1 ≤ l.classes) && decide (l.classes < 4)
        && l.folds &&& (d.folds ^^^ (2 ^ 64 - 1)) == 0)
    && (List.range t.lanes.length).all (fun i => zeros r (x.off + 32 * (i + 1) + 16) 16)
    && (t.lanes.map (·.lane)).Nodup && decide (slots.length ≤ 64) && decide ((slots.map (·.cap)).sum ≤ 2048))

/-- On the device of rank 0 the results area is aligned and lies in one extent of the loading pen (R297). -/
def resultsOk (s : State) (r : Rd) (p : Nat) (d : Drove) : Bool :=
  (sectionOf r 4).len == 0 || !(decide (d.flockSize ≤ 1) || d.ranks.head? == some (ownId s))
    || (d.lanes.results % 4096 == 0 && (windowAddr s p d.lanes.results 16384).isSome)

/-- An image passes the BAD_IMAGE checks. -/
def imageOk (s : State) (r : Rd) (p addr : Nat) (d : Drove) : Bool :=
  addr % 4096 == 0 && inWindow s p addr 512 && headerOk r && decide (4096 ≤ d.size) && decide (d.size ≤ 67108864) && d.size % 4096 == 0
    && inWindow s p addr d.size && sectionsOk r d && segsOk r d && tablesOk r d && linksOk r d && allocOk r && lanesOk r d && resultsOk s r p d

/-! ## The other checks (R200) -/

/-- Cycles of tick position `j` in which the drove books HBM port `q` for no byte. -/
def freeCycles (d : Drove) (q j : Nat) : Nat :=
  let mine := d.edges.filter (fun e => e.cls == 0 && e.port == q && e.pos == j && decide (0 < e.bytes))
  ((List.range (64 * d.n)).filter (fun c => !mine.any (fun e => decide (e.first ≤ c) && decide (c < e.first + e.count)))).length

/-- Each named port keeps its maintenance reserve and IOD share (R250). -/
def portsOk (d : Drove) : Bool :=
  let t := 64 * d.n
  d.ports.all (fun e => decide (ceilDiv t 32 ≤ 64 * e.2.1) && decide (ceilDiv t 64 ≤ 64 * e.2.2)
    && (List.range d.k).all (fun j => decide (64 * (e.2.1 + e.2.2) ≤ freeCycles d e.1 j)))

/-- No cycle of an edge port is booked for more than it carries (R21, R199). -/
def edgesOk (d : Drove) : Bool :=
  d.edges.all (fun e => (List.range e.count).all (fun i =>
    decide (((d.edges.filter (fun x => x.cls == e.cls && x.port == e.port && x.pos == e.pos && decide (x.first ≤ e.first + i)
      && decide (e.first + i < x.first + x.count))).map (·.bytes)).sum ≤ 256)))

/-- The epochs that a drove requires are resident with their digests. -/
def epochsOk (s : State) (p : Nat) (d : Drove) : Bool :=
  d.epochs.all (fun e => (List.range 2).any (fun k =>
    rd s (penPg p) F.EPOCH0_ID k == e.1 && decide (2 ≤ rd s (penPg p) F.EPOCH0_STATE k) && getD [] s.weights.digests (2 * p + k) == e.2))

/-- The share period and mask (R218). -/
def shareOk (d : Drove) : Bool :=
  if d.shared then decide (0 < d.shareMask) && decide (d.shareMask < 2 ^ d.shareP) else d.shareP == 1 && d.shareMask == 1

/-- Stagger offset of a slot (R199, R233). -/
def staggerOf (r : Rd) (k : Nat) : Nat :=
  let x := sectionOf r 6
  if x.len = 0 then k % 16 * 32 else r (x.off + 2 * k) 2

/-- The stagger keeps the ramp of each die, every slot using all 16 arrays from its offset onwards (R234, R235). -/
def rampOk (r : Rd) (d : Drove) : Bool :=
  [0, 1].all (fun die =>
    let offs := ((maskSlots d.folds).filter (fun k => k / 32 == die)).map (staggerOf r)
    let first := offs.foldl min 4096
    (List.range 16).all (fun k => decide (16 * (offs.filter (fun o => decide (o ≤ first + 32 * k))).length ≤ 32 * (k + 1))))

/-- Logical slots that a pen may use (R464). -/
def penFolds (s : State) (p : Nat) : Nat := (getD PenGrant.none s.boot.pens p).folds

/-- The fold mask names enabled slots of the pen only. -/
def foldsOk (s : State) (p : Nat) (d : Drove) : Bool :=
  (maskSlots d.folds).all (fun k => rd s iodPg F.HEFT_SLOT_EN k == 1 && bit (penFolds s p) k)

/-- The drove table entry of a pen with a digest. -/
def entryOf (s : State) (p : Nat) (dg : List Byte) : Option Nat := (s.droves.find? (fun e => e.2.st != 0 && e.2.pen == p && e.2.digest == dg)).map (·.1)

/-- A free drove table entry. -/
def freeEntry (s : State) : Option Nat := (List.range 32).find? (fun e => (getDrove s e).st == 0)

/-- The status of the first check of a drove, other than those of its image's form and digest, that fails; 0 when all pass (R200). -/
def droveStatus (s : State) (r : Rd) (d : Drove) : Nat :=
  if d.needs.1 ≠ rd s bootPg F.FW_VERSION then 0x03
  else if d.needs.2.1 ≠ s.boot.record.cls then 0x04
  else if d.needs.2.2 ≠ rd s iodPg F.HEFT_SIG_LO + 2 ^ 32 * rd s iodPg F.HEFT_SIG_HI then 0x05
  else if !foldsOk s d.pen d then 0x06
  else if !(timingLoad d && portsOk d && edgesOk d && d.links.all (sendOk s d)) then 0x07
  else if !epochsOk s d.pen d then 0x08
  else if rd s pwrPg F.PWR_LIMIT < d.sustained ∨ 2600 < d.peak then 0x09
  else if !shareOk d then 0x0A
  else if !rampOk r d then 0x0B
  else 0

/-- The status of the first check of an image that fails; 0 when all pass (R200). -/
def imageStatus (s : State) (r : Rd) (p addr : Nat) (d : Drove) : Nat :=
  if !imageOk s r p addr d then 0x01
  else
    let bytes := winBytes s p addr d.size
    if sha256 (bytes.take 480 ++ List.replicate 32 0 ++ bytes.drop 512) ≠ d.digest then 0x02 else droveStatus s r d

/-- The status of a load: that of its image, and then of the drove table (R200). -/
def loadStatus (s : State) (r : Rd) (p addr : Nat) (d : Drove) : Nat :=
  let st := imageStatus s r p addr d
  if st ≠ 0 then st
  else match entryOf s p d.digest with
    | some e => if (getDrove s e).st = 2 ∧ !(getDrove s e).confirmed then 0 else 0x0D
    | none => if (freeEntry s).isNone then 0x0C else 0

/-- A failed load of the image of a LOADED entry leaves its status there; an ACTIVE, HELD or confirmed entry stays unchanged (R200,
R238). -/
def reloadFailed (s : State) (e : Option Nat) (st : Nat) : State := match e with
  | some i => if (getDrove s i).st = 2 ∧ !(getDrove s i).confirmed then putDrove s i { getDrove s i with status := st } else s
  | none => s

/-- A drove load request: the checks in order, then the entry loads (R200). -/
def doDroveLoad (h : MsgHead) (body : List Byte) (s : State) : State :=
  let p := h.pen.val
  let addr := fieldNat body 0 8
  let r : Rd := fun a n => winLe s p (addr + a) n
  let d := readDrove r p addr (toLe 32 (r 480 32))
  let st := loadStatus s r p addr d
  let e := entryOf s p d.digest
  if st ≠ 0 then respond (reloadFailed s e st) h 0x20 st
  else match e.orElse (fun _ => freeEntry s) with
    | some i => putDrove s i { d with waiting := some h }
    | none => respond s h 0x20 0x0C

/-- DROVE_LOAD as it completes on its channel. -/
def msgDroveLoad (s : State) (h : MsgHead) (body : List Byte) : State := message s h 0x20 true (body.length == 8) (fun h => doDroveLoad h body)

/-- DROVE_LOAD (R200). -/
def execDroveLoad (h : MsgHead) (body : List Byte) (s : State) : Host.Outcome State Fault Refusal :=
  .next (sendIn s h body.length (fun s => msgDroveLoad s h body))

/-- DROVE_LOAD_DONE (R200): the entry becomes LOADED, and the request is answered OK. The
service waits while its core is halted (R469). -/
def execDroveLoadDone (entry : Fin 32) (s : State) : Host.Outcome State Fault Refusal :=
  let d := getDrove s entry
  if d.st = 1 ∧ !serviceWaits s .droveLoad then
    let s := putDrove s entry { d with st := 2, status := 0, waiting := none }
    .next (match d.waiting with
      | some h => respond s h 0x20 0
      | none => s)
  else .next s

/-- The effect of a DROVE_UNLOAD message (R200). -/
def doDroveUnload (h : MsgHead) (body : List Byte) (s : State) : State :=
  match entryOf s h.pen (body.take 32) with
  | none => respond s h 0x21 0x12
  | some e =>
    let d := getDrove s e
    if d.st = 2 ∧ !d.confirmed then respond (putDrove s e Drove.empty) h 0x21 0
    else respond (putDrove s e { d with status := 0x0D }) h 0x21 0x0D

/-- DROVE_UNLOAD as it completes on its channel. -/
def msgDroveUnload (s : State) (h : MsgHead) (body : List Byte) : State := message s h 0x21 true (body.length == 32) (fun h => doDroveUnload h body)

/-- DROVE_UNLOAD (R200, R356). -/
def execDroveUnload (h : MsgHead) (body : List Byte) (s : State) : Host.Outcome State Fault Refusal :=
  .next (sendIn s h body.length (fun s => msgDroveUnload s h body))

/-! ## Windows in the segment stores (R198, R232) -/

/-- Erase the segment store of a fold. -/
def eraseSeg (s : State) (f : Nat) : State := s.setSeg (s.seg.filter (fun e => e.1 / 262144 != f))

/-- Page 262,144 bytes of a pen's window into the segment store of a fold. -/
def pageSeg (s : State) (f p w : Nat) : State :=
  let ext := extents s p
  let kept := s.seg.filter (fun e => e.1 / 262144 != f)
  s.setSeg (s.mem.foldl (fun m e => match windowOf ext e.1 0 with
    | some x => if w ≤ x ∧ x < w + 262144 then putD emptyByte m (f * 262144 + (x - w)) (readByte s e.1) else m
    | none => m) kept)

/-- The entry that runs on a fold in round `r` of flock `k`. -/
def entryFor (s : State) (k r f : Nat) : Option Nat :=
  match slotOfFold s f with
  | none => none
  | some sl => (getFlock s k).entries.find? (fun e => bit (getDrove s e).folds sl && runsIn (getDrove s e) r)

/-- The segment of a drove for the slot that a fold serves. -/
def segOf (s : State) (f : Nat) (d : Drove) : Option Segment := match slotOfFold s f with
  | some sl => d.segs.find? (fun g => g.slot == sl)
  | none => none

/-- Page the window of round `r` into a fold (R198, R231). -/
def pageFold (s : State) (r f : Nat) : State := match foldDrove s f with
  | none => eraseSeg s f
  | some d => match segOf s f d with
    | some g => pageSeg s f d.pen (d.addr + g.off + 262144 * g.seq.getD (r % g.seq.length) 0)
    | none => eraseSeg s f

end Sys2Proof.Machine
end

