-- ==== Sys2Proof/Machine/ZstdBlock.lean ====
section
/-! DEFINITION. Compressed blocks of Zstandard frames (R274): literals, Huffman and FSE codes, and sequences, as RFC 8878 defines them
(PRESUMED, log entry 108). -/

namespace Sys2Proof.Machine

/-- Bytes `a` to `a + n - 1` of a byte string. -/
def part (bs : List Byte) (a n : Nat) : List Byte := (bs.drop a).take n

/-- The little-endian number in bytes `a` to `a + n - 1`. -/
def partNat (bs : List Byte) (a n : Nat) : Nat := leNat (part bs a n)

/-! ## Bit streams that are read backwards -/

/-- A bit stream that is read from its end towards its start. -/
structure BackBits where
  /-- the bits, as one number -/
  v : Nat
  /-- bits left to read -/
  pos : Nat
  deriving DecidableEq, Repr

/-- The stream in a byte string: its last set bit marks the end. A string that is empty or ends in a zero byte is none. -/
def backBits (bs : List Byte) : Option BackBits :=
  if bs.getLast?.getD 0 = 0 then none else some { v := leNat bs, pos := Nat.log2 (leNat bs) }

/-- The next `n` bits, without reading them; bits before the start read as zero. -/
def BackBits.peek (b : BackBits) (n : Nat) : Nat :=
  if n ≤ b.pos then bits b.v (b.pos - n) n else b.v % 2 ^ b.pos * 2 ^ (n - b.pos)

/-- Read `n` bits, when they are there. -/
def BackBits.read (b : BackBits) (n : Nat) : Option (Nat × BackBits) := if n ≤ b.pos then some (b.peek n, { b with pos := b.pos - n }) else none

/-! ## FSE tables -/

/-- An entry of a decoding table: its symbol, and the bits and the base of the next state. -/
structure FseCell where
  /-- symbol -/
  sym : Nat
  /-- bits to read for the next state -/
  nb : Nat
  /-- what they are added to -/
  base : Nat
  deriving DecidableEq, Repr

/-- A decoding table. -/
structure FseTable where
  /-- accuracy log -/
  log : Nat
  /-- the entries, by state -/
  cells : List FseCell
  deriving DecidableEq, Repr

/-- The repeat flags after a probability of zero: the zeros that follow, and the bit after the flags. -/
def zeroRun (v : Nat) : Nat → Nat → Nat × Nat
  | 0, at_ => (0, at_)
  | fuel + 1, at_ =>
    let r := bits v at_ 2
    if r = 3 then (let x := zeroRun v fuel (at_ + 2); (3 + x.1, x.2)) else (r, at_ + 2)

/-- The probabilities of a table description from bit `at_` on, `left` of the total being left: each counts one less than its value, and
−1 stands for a symbol of less than one. -/
def readProbs (v : Nat) : Nat → Nat → Nat → List Int → Option (List Int × Nat)
  | 0, _, _, _ => none
  | fuel + 1, left, at_, acc =>
    if left = 0 then some (acc, at_)
    else
      let n := Nat.log2 (left + 1) + 1
      let x := bits v at_ n
      let low := x % 2 ^ (n - 1)
      let t := 2 ^ n - 1 - (left + 1)
      let short := decide (low < t)
      let val := if short then low else if 2 ^ (n - 1) ≤ x then x - t else x
      let p : Int := (val : Int) - 1
      let at_ := at_ + n - (if short then 1 else 0)
      if left < p.natAbs then none
      else if p = 0 then (let z := zeroRun v 256 at_; readProbs v fuel left z.2 (acc ++ List.replicate (1 + z.1) 0))
      else readProbs v fuel (left - p.natAbs) at_ (acc ++ [p])

/-- The `n` places of a table of `2 ^ log` states, in the order in which symbols take them. -/
def spread (log high : Nat) : Nat → Nat → List Nat
  | 0, _ => []
  | fuel + 1, p =>
    let q := (p + 2 ^ log / 2 + 2 ^ log / 8 + 3) % 2 ^ log
    if p < high then p :: spread log high fuel q else spread log high fuel q

/-- The symbols of a table by state. -/
def stateSymbols (log : Nat) (probs : List Int) : List Nat :=
  let rare := (probs.zipIdx.filter (fun x => x.1 == -1)).map (·.2)
  let high := 2 ^ log - rare.length
  let common := probs.zipIdx.flatMap (fun x => List.replicate x.1.toNat x.2)
  let placed := (spread log high (2 ^ log) 0).zip common
  (List.range (2 ^ log)).map (fun i =>
    if high ≤ i then rare.getD (2 ^ log - 1 - i) 0 else ((placed.find? (fun x => x.1 == i)).map (·.2)).getD 0)

/-- The decoding table of probabilities. -/
def fseTable (log : Nat) (probs : List Int) : FseTable :=
  let step := fun (acc : List FseCell × List Nat) (sym : Nat) =>
    let next := acc.2.getD sym 0
    let nb := log - Nat.log2 next
    (acc.1 ++ [({ sym := sym, nb := nb, base := next * 2 ^ nb - 2 ^ log } : FseCell)], acc.2.set sym (next + 1))
  { log := log, cells := ((stateSymbols log probs).foldl step ([], probs.map Int.natAbs)).1 }

/-- The table that a description gives, of at most `most` in accuracy and `syms` symbols, and the bytes it takes. -/
def readTable (bs : List Byte) (most syms : Nat) : Option (FseTable × Nat) :=
  let v := leNat (bs.take 512)
  let log := 5 + bits v 0 4
  if most < log then none
  else match readProbs v (syms + 1) (2 ^ log) 4 [] with
    | none => none
    | some (ps, at_) => if syms < ps.length ∨ bs.length < ceilDiv at_ 8 then none else some (fseTable log ps, ceilDiv at_ 8)

/-- The table that always gives one symbol. -/
def oneSymbol (x : Nat) : FseTable := { log := 0, cells := [{ sym := x, nb := 0, base := 0 }] }

/-- The entry of a state. -/
def FseTable.at_ (t : FseTable) (st : Nat) : FseCell := t.cells.getD st { sym := 0, nb := 0, base := 0 }

/-! ## Huffman codes of literals -/

/-- The weights of a Huffman tree that two interleaved states write: `x` writes next. The last symbol is that of the other state once the
bits end. -/
def fseWeights (t : FseTable) : Nat → Nat → Nat → BackBits → List Nat → Option (List Nat)
  | 0, _, _, _, _ => none
  | fuel + 1, x, y, b, acc =>
    let c := t.at_ x
    match b.read c.nb with
    | some (v, b) => fseWeights t fuel y (c.base + v) b (acc ++ [c.sym])
    | none => some (acc ++ [c.sym, (t.at_ y).sym])

/-- The weights that a tree description gives but for the last, and the bytes it takes. -/
def treeWeights (bs : List Byte) : Option (List Nat × Nat) :=
  let h := partNat bs 0 1
  if 128 ≤ h then
    let n := h - 127
    let len := 1 + (n + 1) / 2
    if bs.length < len then none
    else some ((List.range n).map (fun i => bits (partNat bs (1 + i / 2) 1) (if i % 2 = 0 then 4 else 0) 4), len)
  else if bs.length < 1 + h then none
  else match readTable (part bs 1 h) 6 256 with
    | none => none
    | some (t, n) => match backBits (part bs (1 + n) (h - n)) with
      | none => none
      | some b => match b.read t.log with
        | none => none
        | some (x, b) => match b.read t.log with
          | none => none
          | some (y, b) => (fseWeights t 256 x y b []).map (·, 1 + h)

/-- A Huffman decoding table: its width in bits, and the symbol and length of the code at each value. -/
structure HufTable where
  /-- bits of the longest code -/
  width : Nat
  /-- symbol and code length, by the next `width` bits -/
  cells : List (Nat × Nat)
  deriving DecidableEq, Repr

/-- The decoding table of the weights, to which the last weight is added so that the codes fill the table. -/
def hufTable (ws : List Nat) : Option HufTable :=
  let sum := (ws.map (fun w => if w = 0 then 0 else 2 ^ (w - 1))).sum
  let width := Nat.log2 sum + 1
  let left := 2 ^ width - sum
  if sum = 0 ∨ 11 < width ∨ 255 < ws.length ∨ 2 ^ Nat.log2 left ≠ left then none
  else
    let ws := ws ++ [Nat.log2 left + 1]
    some { width := width, cells := (List.range width).flatMap (fun i =>
      ws.zipIdx.flatMap (fun w => if w.1 = i + 1 then List.replicate (2 ^ i) (w.2, width - i) else [])) }

/-- The tree that a description gives, and the bytes it takes. -/
def readTree (bs : List Byte) : Option (HufTable × Nat) := (treeWeights bs).bind (fun x => (hufTable x.1).map (·, x.2))

/-- Decode `n` literals of a stream, which they take whole. -/
def hufSymbols (t : HufTable) : Nat → BackBits → List Byte → Option (List Byte)
  | 0, b, acc => if b.pos = 0 then some acc.reverse else none
  | n + 1, b, acc =>
    let c := t.cells.getD (b.peek t.width) (0, 0)
    if b.pos < c.2 then none else hufSymbols t n { b with pos := b.pos - c.2 } (BitVec.ofNat 8 c.1 :: acc)

/-- One stream of `n` literals. -/
def hufStream (t : HufTable) (bs : List Byte) (n : Nat) : Option (List Byte) := (backBits bs).bind (fun b => hufSymbols t n b [])

/-- Four streams behind their jump table: `n` literals in all. -/
def hufStreams (t : HufTable) (bs : List Byte) (n : Nat) : Option (List Byte) :=
  let a := partNat bs 0 2
  let b := partNat bs 2 2
  let c := partNat bs 4 2
  let q := (n + 3) / 4
  if bs.length < 6 + a + b + c ∨ n < 3 * q then none
  else match hufStream t (part bs 6 a) q, hufStream t (part bs (6 + a) b) q, hufStream t (part bs (6 + a + b) c) q,
      hufStream t (bs.drop (6 + a + b + c)) (n - 3 * q) with
    | some w, some x, some y, some z => some (w ++ x ++ y ++ z)
    | _, _, _, _ => none

/-! ## What a frame carries from block to block -/

/-- What a compressed block leaves to the next. -/
structure ZstdState where
  /-- Huffman table -/
  huf : Option HufTable
  /-- tables of literal lengths, offsets and match lengths -/
  tabs : Option (FseTable × FseTable × FseTable)
  /-- the last three offsets -/
  reps : Nat × Nat × Nat
  deriving DecidableEq, Repr

/-- The start of a frame. -/
def ZstdState.init : ZstdState := { huf := none, tabs := none, reps := (1, 4, 8) }

/-- The literals section of a block: the literals, the bytes it takes, and the Huffman table for the next block. -/
def literals (z : ZstdState) (bs : List Byte) : Option (List Byte × Nat × Option HufTable) :=
  let h := partNat bs 0 5
  let kind := bits h 0 2
  let form := bits h 2 2
  if kind < 2 then
    let (n, len) := if form % 2 = 0 then (bits h 3 5, 1) else if form = 1 then (bits h 4 12, 2) else (bits h 4 20, 3)
    if kind = 0 then (if bs.length < len + n then none else some (part bs len n, len + n, z.huf))
    else if bs.length < len + 1 then none
    else some (List.replicate n (bs.getD len 0), len + 1, z.huf)
  else
    let (w, len) := if form < 2 then (10, 3) else if form = 2 then (14, 4) else (18, 5)
    let n := bits h 4 w
    let size := bits h (4 + w) w
    let data := part bs len size
    if bs.length < len + size then none
    else
      let tree : Option (HufTable × Nat) := if kind = 2 then readTree data else z.huf.map (·, 0)
      match tree with
      | none => none
      | some (t, k) =>
        let out := if form = 0 then hufStream t (data.drop k) n else hufStreams t (data.drop k) n
        out.map (fun x => (x, len + size, some t))

/-! ## Sequences -/

/-- The base and the extra bits of a literal length code. -/
def litLength (c : Nat) : Nat × Nat :=
  if c < 16 then (c, 0)
  else [(16, 1), (18, 1), (20, 1), (22, 1), (24, 2), (28, 2), (32, 3), (40, 3), (48, 4), (64, 6), (128, 7), (256, 8), (512, 9), (1024, 10),
    (2048, 11), (4096, 12), (8192, 13), (16384, 14), (32768, 15), (65536, 16)].getD (c - 16) (0, 0)

/-- The base and the extra bits of a match length code. -/
def matchLength (c : Nat) : Nat × Nat :=
  if c < 32 then (c + 3, 0)
  else [(35, 1), (37, 1), (39, 1), (41, 1), (43, 2), (47, 2), (51, 3), (59, 3), (67, 4), (83, 4), (99, 5), (131, 7), (259, 8), (515, 9),
    (1027, 10), (2051, 11), (4099, 12), (8195, 13), (16387, 14), (32771, 15), (65539, 16)].getD (c - 32) (0, 0)

/-- The predefined table of literal lengths. -/
def litDefault : FseTable :=
  fseTable 6 [4, 3, 2, 2, 2, 2, 2, 2, 2, 2, 2, 2, 2, 1, 1, 1, 2, 2, 2, 2, 2, 2, 2, 2, 2, 3, 2, 1, 1, 1, 1, 1, -1, -1, -1, -1]

/-- The predefined table of offsets. -/
def offDefault : FseTable := fseTable 5 [1, 1, 1, 1, 1, 1, 2, 2, 2, 1, 1, 1, 1, 1, 1, 1, 1, 1, 1, 1, 1, 1, 1, 1, -1, -1, -1, -1, -1]

/-- The predefined table of match lengths. -/
def matchDefault : FseTable :=
  fseTable 6 ([1, 4, 3, 2, 2, 2, 2, 2, 2] ++ List.replicate 37 1 ++ List.replicate 7 (-1))

/-- The table of a mode from byte `at_` on, and the byte after it. -/
def modeTable (bs : List Byte) (mode at_ most syms : Nat) (default : FseTable) (last : Option FseTable) : Option (FseTable × Nat) := match mode with
  | 0 => some (default, at_)
  | 1 => if bs.length ≤ at_ ∨ syms ≤ partNat bs at_ 1 then none else some (oneSymbol (partNat bs at_ 1), at_ + 1)
  | 2 => (readTable (bs.drop at_) most syms).map (fun x => (x.1, at_ + x.2))
  | _ => last.map (·, at_)

/-- One sequence: a literal length, an offset value and a match length. -/
structure Sequence where
  /-- literals before the match -/
  lits : Nat
  /-- offset value -/
  off : Nat
  /-- length of the match -/
  len : Nat
  deriving DecidableEq, Repr

/-- The sequences of a block from the states of the three tables on; they take the stream whole. -/
def readSequences (tl to_ tm : FseTable) : Nat → Nat × Nat × Nat → BackBits → List Sequence → Option (List Sequence)
  | 0, _, b, acc => if b.pos = 0 then some acc else none
  | n + 1, (l, o, m), b, acc =>
    let cl := tl.at_ l
    let co := to_.at_ o
    let cm := tm.at_ m
    match b.read co.sym with
    | none => none
    | some (xo, b) => match b.read (matchLength cm.sym).2 with
      | none => none
      | some (xm, b) => match b.read (litLength cl.sym).2 with
        | none => none
        | some (xl, b) =>
          let q : Sequence := { lits := (litLength cl.sym).1 + xl, off := 2 ^ co.sym + xo, len := (matchLength cm.sym).1 + xm }
          if n = 0 then readSequences tl to_ tm 0 (l, o, m) b (acc ++ [q])
          else match b.read cl.nb with
            | none => none
            | some (yl, b) => match b.read cm.nb with
              | none => none
              | some (ym, b) => match b.read co.nb with
                | none => none
                | some (yo, b) => readSequences tl to_ tm n (cl.base + yl, co.base + yo, cm.base + ym) b (acc ++ [q])

/-- The offset of a sequence and the last three offsets after it. -/
def takeOffsetValue (reps : Nat × Nat × Nat) (q : Sequence) : Nat × (Nat × Nat × Nat) :=
  let (a, b, c) := reps
  if 3 < q.off then (q.off - 3, (q.off - 3, a, b))
  else match q.off - 1 + (if q.lits = 0 then 1 else 0) with
    | 0 => (a, (a, b, c))
    | 1 => (b, (b, a, c))
    | 2 => (c, (c, a, b))
    | _ => (a - 1, (a - 1, a, b))

/-- Carry out sequences: the content so far, the literals left, and the last offsets. An offset reaches no further back than the content and
the window. -/
def runSequences (window : Nat) : List Sequence → List Byte → List Byte → Nat × Nat × Nat → Option (List Byte × (Nat × Nat × Nat))
  | [], lits, out, reps => some (out ++ lits, reps)
  | q :: qs, lits, out, reps =>
    let (off, reps) := takeOffsetValue reps q
    let out := out ++ lits.take q.lits
    if lits.length < q.lits ∨ off = 0 ∨ out.length < off ∨ window < off then none
    else
      let src := out.drop (out.length - off)
      runSequences window qs (lits.drop q.lits) (out ++ (List.range q.len).map (fun i => src.getD (i % off) 0)) reps

/-- The number of sequences of a section, and the bytes that give it. -/
def sequenceCount (bs : List Byte) : Nat × Nat :=
  let b := partNat bs 0 1
  if b < 128 then (b, 1) else if b < 255 then (256 * (b - 128) + partNat bs 1 1, 2) else (partNat bs 1 2 + 0x7F00, 3)

/-- The sequences section of a block and the tables for the next block. -/
def sequences (z : ZstdState) (bs : List Byte) : Option (List Sequence × Option (FseTable × FseTable × FseTable)) :=
  let (n, k) := sequenceCount bs
  if bs.isEmpty ∨ bs.length < k then none
  else if n = 0 then (if bs.length = k then some ([], z.tabs) else none)
  else if bs.length ≤ k ∨ partNat bs k 1 % 4 ≠ 0 then none
  else
    let m := partNat bs k 1
    match modeTable bs (bits m 6 2) (k + 1) 9 36 litDefault (z.tabs.map (·.1)) with
    | none => none
    | some (tl, a) => match modeTable bs (bits m 4 2) a 8 32 offDefault (z.tabs.map (·.2.1)) with
      | none => none
      | some (to_, a) => match modeTable bs (bits m 2 2) a 9 53 matchDefault (z.tabs.map (·.2.2)) with
        | none => none
        | some (tm, a) => match backBits (bs.drop a) with
          | none => none
          | some b => match b.read tl.log with
            | none => none
            | some (l, b) => match b.read to_.log with
              | none => none
              | some (o, b) => match b.read tm.log with
                | none => none
                | some (m, b) => (readSequences tl to_ tm n (l, o, m) b []).map (·, some (tl, to_, tm))

/-- A compressed block after the content `out` of its frame: the content with the block's, and what it leaves to the next block. -/
def compressedBlock (window : Nat) (z : ZstdState) (bs out : List Byte) : Option (List Byte × ZstdState) :=
  match literals z bs with
  | none => none
  | some (lits, k, huf) => match sequences z (bs.drop k) with
    | none => none
    | some (qs, tabs) => (runSequences window qs lits out z.reps).map (fun x => (x.1, { huf := huf, tabs := tabs, reps := x.2 }))

end Sys2Proof.Machine
end

