-- ==== Sys2Proof/Machine/Zstd.lean ====
section
/-! DEFINITION. Zstandard frames as the weight loader takes them (R274). The frame format is that of RFC 8878 (PRESUMED, log entry 108). -/

namespace Sys2Proof.Machine

/-! ## The content checksum: XXH64 with seed 0 -/

/-- The five primes of XXH64. -/
def xxPrime (i : Nat) : BitVec 64 := match i with
  | 1 => 0x9E3779B185EBCA87#64
  | 2 => 0xC2B2AE3D27D4EB4F#64
  | 3 => 0x165667B19E3779F9#64
  | 4 => 0x85EBCA77C2B2AE63#64
  | _ => 0x27D4EB2F165667C5#64

/-- One 8-byte lane joins an accumulator. -/
def xxRound (acc lane : BitVec 64) : BitVec 64 := (acc + lane * xxPrime 2).rotateLeft 31 * xxPrime 1

/-- The number in the first `n` bytes, as a lane. -/
def xxLane (bs : List Byte) (n : Nat) : BitVec 64 := BitVec.ofNat 64 (leNat (bs.take n))

/-- The four accumulators after the whole 32-byte stripes, `n` of them. -/
def xxStripes : Nat → List Byte → List (BitVec 64) → List (BitVec 64)
  | 0, _, v => v
  | n + 1, bs, v => xxStripes n (bs.drop 32) (v.zipIdx.map (fun x => xxRound x.1 (xxLane (bs.drop (8 * x.2)) 8)))

/-- The accumulators as one value. -/
def xxJoin (v : List (BitVec 64)) : BitVec 64 :=
  let turn := fun (x : BitVec 64 × Nat) => x.1.rotateLeft ([1, 7, 12, 18].getD x.2 0)
  v.foldl (fun h x => (h ^^^ xxRound 0 x) * xxPrime 1 + xxPrime 4) ((v.zipIdx.map turn).foldl (· + ·) 0)

/-- The bytes after the last stripe, at most 31, in steps of 8, 4 and 1. -/
def xxTail : Nat → List Byte → BitVec 64 → BitVec 64
  | 0, _, h => h
  | n + 1, bs, h =>
    if 8 ≤ bs.length then xxTail n (bs.drop 8) ((h ^^^ xxRound 0 (xxLane bs 8)).rotateLeft 27 * xxPrime 1 + xxPrime 4)
    else if 4 ≤ bs.length then xxTail n (bs.drop 4) ((h ^^^ xxLane bs 4 * xxPrime 1).rotateLeft 23 * xxPrime 2 + xxPrime 3)
    else if bs.isEmpty then h
    else xxTail n (bs.drop 1) ((h ^^^ xxLane bs 1 * xxPrime 5).rotateLeft 11 * xxPrime 1)

/-- XXH64 of a byte string. -/
def xxh64 (bs : List Byte) : BitVec 64 :=
  let n := bs.length / 32
  let h := if n = 0 then xxPrime 5 else xxJoin (xxStripes n bs [xxPrime 1 + xxPrime 2, xxPrime 2, 0, 0 - xxPrime 1])
  let h := xxTail 32 (bs.drop (32 * n)) (h + BitVec.ofNat 64 bs.length)
  let h := (h ^^^ h >>> 33) * xxPrime 2
  let h := (h ^^^ h >>> 29) * xxPrime 3
  h ^^^ h >>> 32

/-! ## Frames -/

/-- What a frame header says. -/
structure FrameHeader where
  /-- bytes of the header, with the magic -/
  len : Nat
  /-- window size -/
  window : Nat
  /-- Dictionary_ID, 0 when absent -/
  dict : Nat
  /-- Frame_Content_Size, when given -/
  size : Option Nat
  /-- the frame carries the content checksum -/
  check : Bool
  deriving DecidableEq, Repr

/-- The header of the frame that begins a byte string: none for a reserved bit that is set or a string that ends within it. -/
def frameHeader (bs : List Byte) : Option FrameHeader :=
  let d := partNat bs 4 1
  let single := bit d 5
  let wlen := if single then 0 else 1
  let dlen := [0, 1, 2, 4].getD (bits d 0 2) 0
  let slen := [if single then 1 else 0, 2, 4, 8].getD (bits d 6 2) 0
  let w := partNat bs 5 1
  let base := 2 ^ (10 + w / 8)
  let n := partNat bs (5 + wlen + dlen) slen + (if slen = 2 then 256 else 0)
  let len := 5 + wlen + dlen + slen
  if bit d 3 ∨ bs.length < len then none
  else some { len := len, window := if single then n else base + base / 8 * (w % 8), dict := partNat bs (5 + wlen) dlen
              size := if slen = 0 then none else some n, check := bit d 2 }

/-- The blocks of a frame from byte `at_` of it on: the content and the bytes of the frame up to the end of its last block. A block gives at
most `most` bytes, and a compressed one goes by what the blocks before it have left. -/
def frameBlocks (bs : List Byte) (window most : Nat) : Nat → Nat → ZstdState → List Byte → Option (List Byte × Nat)
  | 0, _, _, _ => none
  | fuel + 1, at_, z, out =>
    let h := partNat bs at_ 3
    let n := h / 8
    let kind := bits h 1 2
    let stop := at_ + 3 + (if kind = 1 then 1 else n)
    if bs.length < at_ + 3 ∨ bs.length < stop then none
    else
      let next : Option (List Byte × ZstdState) := match kind with
        | 0 => some (out ++ part bs (at_ + 3) n, z)
        | 1 => some (out ++ List.replicate n (bs.getD (at_ + 3) 0), z)
        | 2 => if most < n then none else compressedBlock window z (part bs (at_ + 3) n) out
        | _ => none
      match next.filter (fun x => decide (x.1.length ≤ out.length + most)) with
      | none => none
      | some (x, z) => if h % 2 = 1 then some (x, stop) else frameBlocks bs window most fuel stop z x

/-- One frame of a payload that R274 accepts: its content and its length. -/
def oneFrame (bs : List Byte) : Option (List Byte × Nat) :=
  if partNat bs 0 4 / 16 = 0x184D2A5 then
    let n := 8 + partNat bs 4 4
    if bs.length < 8 ∨ bs.length < n then none else some ([], n)
  else if partNat bs 0 4 ≠ 0xFD2FB528 then none
  else match frameHeader bs with
    | none => none
    | some h =>
      if 8388608 < h.window ∨ h.dict ≠ 0 then none
      else match frameBlocks bs h.window (min h.window 131072) bs.length h.len ZstdState.init [] with
        | none => none
        | some (out, n) =>
          if h.size.any (· != out.length) then none
          else if !h.check then some (out, n)
          else if bs.length < n + 4 ∨ partNat bs n 4 ≠ (xxh64 out).toNat % 2 ^ 32 then none
          else some (out, n + 4)

/-- The content of concatenated frames: none when one of them is not accepted. Every frame has at least eight bytes. -/
def frames : Nat → List Byte → Option (List Byte)
  | 0, bs => if bs.isEmpty then some [] else none
  | fuel + 1, bs =>
    if bs.isEmpty then some []
    else (oneFrame bs).bind (fun x => (frames fuel (bs.drop x.2)).map (x.1 ++ ·))

/-- The decoded content of a Zstandard payload (R274): one or more frames. -/
def zstandard (bs : List Byte) : Option (List Byte) := if bs.isEmpty then none else frames bs.length bs

end Sys2Proof.Machine
end

