-- ==== Sys2Proof/Machine/Shards.lean ====
section
/-! DEFINITION. The shard container and its resident form (R83, R87 to R90, R100, R265 to R269, R273, R274). -/

namespace Sys2Proof.Machine

/-- The fields of a container header (R265). -/
structure ShardHeader where
  /-- payload kind: 0 narrow, 1 BF16, 2 FP8, 3 MXFP4, 4 MXFP8 -/
  kind : Nat
  /-- compression: 1 Zstandard -/
  comp : Nat
  /-- weight format: 0 INT4, 1 FP4, 2 INT8 split -/
  fmt : Nat
  /-- k_w; 0xFF is the default of 16 -/
  kw : Nat
  /-- epoch ID -/
  epoch : Nat
  /-- rows K -/
  rows : Nat
  /-- columns N -/
  cols : Nat
  /-- shard index -/
  index : Nat
  /-- shard count -/
  count : Nat
  /-- stored length -/
  stored : Nat
  /-- decoded length -/
  decoded : Nat
  /-- staging slot -/
  slot : Nat
  /-- staging flags -/
  flags : Nat
  /-- first plane slot -/
  plane : Nat
  /-- HBM address, window-relative -/
  addr : Nat
  /-- arrival digest -/
  digest : List Byte
  /-- expected post-transform digest, zero when not given -/
  expected : List Byte
  deriving DecidableEq, Repr

/-- The header of a container (R265). -/
def shardHeader (bs : List Byte) : ShardHeader :=
  let u := partNat bs
  { kind := u 10 1, comp := u 11 1, fmt := u 12 1, kw := u 13 1, epoch := u 16 2, rows := u 20 4, cols := u 24 4, index := u 28 4
    count := u 32 4, stored := u 40 8, decoded := u 48 8, slot := u 56 1, flags := u 57 1, plane := u 58 2, addr := u 64 8
    digest := part bs 72 32, expected := part bs 104 32 }

/-- Spans of K rows. -/
def ShardHeader.spans (h : ShardHeader) : Nat := ceilDiv h.rows 1024

/-- Records for each span and tile: two for a split format. -/
def ShardHeader.halves (h : ShardHeader) : Nat := if h.fmt = 2 then 2 else 1

/-- Plane records P (R267). -/
def ShardHeader.planes (h : ShardHeader) : Nat := h.halves * (h.spans * ceilDiv h.cols 256)

/-- Bytes of a plane record. -/
def recordSize : Nat := 149504

/-- Bytes of the resident form. -/
def ShardHeader.size (h : ShardHeader) : Nat := recordSize * h.planes

/-- The loader buffer: the resident form rounded up to 4 KiB (R273). -/
def ShardHeader.buffer (h : ShardHeader) : Nat := roundUp h.size 4096

/-- The decoded length that the kind gives (R266). -/
def ShardHeader.decodedLen (h : ShardHeader) : Nat :=
  let n := h.rows * h.cols
  match h.kind with
  | 0 => h.size
  | 1 => 2 * n
  | 2 => n
  | 3 => n / 2 + n / 32
  | _ => n + n / 32

/-- The magic of a container. -/
def shardMagic : List Byte := "GQZSHARD".toList.map (fun c => BitVec.ofNat 8 c.toNat)

/-- The header of a container of `len` bytes passes step 1 of R273 (R265, R276 BAD_HEADER). -/
def shardHeaderOk (bs : List Byte) (len : Nat) : Bool :=
  let h := shardHeader bs
  let z := fun a n => partNat bs a n == 0
  decide (256 ≤ len) && part bs 0 8 == shardMagic && partNat bs 9 1 == 1 && decide (h.kind ≤ 4) && decide (h.comp ≤ 1)
    && decide (h.fmt ≤ 2) && (decide (h.kw ≤ 16) || h.kw == 0xFF) && z 14 2 && z 18 2 && z 36 4 && z 60 4 && z 136 120
    && decide (h.flags ≤ 1) && decide (1 ≤ h.epoch)
    && decide (1 ≤ h.rows) && decide (h.rows ≤ 16777216) && decide (1 ≤ h.cols) && decide (h.cols ≤ 16777216)
    && decide (1 ≤ h.count) && decide (h.count ≤ 65535) && decide (h.index < h.count) && h.addr % 4096 == 0
    && (decide (h.kind < 3) || h.rows % 32 == 0) && (h.kind != 0 || h.comp == 0 || h.decoded == h.size) && len == 256 + h.stored
    && decide (h.planes ≤ 16384)

/-! ## Elements of a wide payload (R77, R78, R88, R266) -/

/-- Element `i` of a decoded wide payload: none for one that the loader refuses (R88). -/
def element (h : ShardHeader) (d : List Byte) (i : Nat) : Option Rat :=
  let n := h.rows * h.cols
  let v := match h.kind with
    | 1 => (decodeFloat bf16F (partNat d (2 * i) 2)).fin?
    | 2 => fp8Value (partNat d i 1)
    | 3 =>
      let e := partNat d (n / 2 + i / 32) 1
      if e = 0xFF then none else some ((fp4Grid (bits (partNat d (i / 2) 1) (4 * (i % 2)) 4) : Rat) / 2 * pow2 (e8m0Exp e))
    | _ =>
      let e := partNat d (n + i / 32) 1
      if e = 0xFF then none else (fp8Value (partNat d i 1)).map (· * pow2 (e8m0Exp e))
  match v with
  | some x => if fmtMax .bf16 < absR x then none else some x
  | none => none

/-! ## The resident form (R267, R268) -/

/-- The format that a column span is quantised to (R268). -/
def ShardHeader.quantFmt (h : ShardHeader) : Fmt := match h.fmt with
  | 0 => .int4
  | 1 => .fp4
  | _ => .int8

/-- The stray budget k_w (R87). -/
def ShardHeader.budget (h : ShardHeader) : Nat := if h.kw = 0xFF then 16 else h.kw

/-- The values of column `c` in span `sp`; none beyond the last column (R266, R267). -/
def columnSpan (h : ShardHeader) (vals : List Rat) (c sp : Nat) : List Rat :=
  if h.cols ≤ c then [] else (vals.drop (c * h.rows + 1024 * sp)).take (min 1024 (h.rows - 1024 * sp))

/-- The 4-bit code of a grid value: of the whole value, or of its high (0) or low (1) half (R74, R100, R267). -/
def cellCode (fmt half : Nat) (g : Int) : Nat := match fmt with
  | 0 => ofSigned g 4
  | 1 => fp4OfGrid g
  | _ => if half = 0 then ofSigned (splitHi g) 4 else ofSigned (splitLo g) 4

/-- The side record of a plane from the quantised columns, with their values; a low half has no strays (R106, R254, R267). -/
def sideRecord (half : Nat) (cs : List (Span × List Rat)) : List Byte :=
  (cs.map (fun (x : Span × List Rat) => BitVec.ofNat 8 (x.1.e + 127).toNat))
    ++ cs.flatMap (fun (x : Span × List Rat) =>
      let st := if half = 1 then [] else x.1.stray
      let body := toLe 4 st.length ++ st.flatMap (fun r => toLe 4 (r + 2 ^ 16 * encodeFmt (x.2.getD r 0) .bf16))
      body ++ List.replicate (68 - body.length) (0 : Byte))
    ++ List.replicate 768 (0 : Byte)

/-- The plane slot image of the quantised columns (R254, R267). -/
def planeImage (fmt half : Nat) (cs : List (Span × List Rat)) : List Byte :=
  let code := fun (r c : Nat) => match cs[c]? with
    | some x => cellCode fmt half (x.1.g.getD r 0)
    | none => 0
  (List.range 1024).flatMap (fun r => (List.range 128).map (fun b => BitVec.ofNat 8 (code r (2 * b) + 16 * code r (2 * b + 1))))

/-- The columns of tile `ct` in span `sp`, quantised (R268). -/
def quantColumns (h : ShardHeader) (vals : List Rat) (ct sp : Nat) : List (Span × List Rat) :=
  (List.range 256).map (fun c =>
    let xs := columnSpan h vals (256 * ct + c) sp
    (quantiseSpan xs h.quantFmt h.budget none, xs))

/-- The resident form of a wide shard (R267, R268): records in the order of (tile, span), high half before low half. -/
def residentForm (h : ShardHeader) (vals : List Rat) : List Byte :=
  (List.range (ceilDiv h.cols 256)).flatMap (fun ct => (List.range h.spans).flatMap (fun sp =>
    let cs := quantColumns h vals ct sp
    (List.range h.halves).flatMap (fun half => planeImage h.fmt half cs ++ sideRecord half cs)))

/-- The rows of a stray list are strictly ascending and at most 1,023. -/
def ascending : Nat → List Nat → Bool
  | _, [] => true
  | lo, r :: rs => decide (lo ≤ r) && decide (r ≤ 1023) && ascending (r + 1) rs

/-- The side record of a narrow plane passes (R90, R276 NARROW_LIST): a row index is the low half of its entry. -/
def sideOk (side : List Byte) : Bool :=
  (side.take 256).all (fun b => b.toNat != 0xFF)
    && (List.range 256).all (fun c =>
      let n := bits (partNat side (256 + 68 * c) 1) 0 5
      decide (n ≤ 16) && ascending 0 ((List.range n).map (fun e => partNat side (256 + 68 * c + 4 + 4 * e) 2)))

/-- Every side record of a narrow payload passes. -/
def narrowOk (h : ShardHeader) (d : List Byte) : Bool :=
  (List.range h.planes).all (fun j => sideOk (part d (recordSize * j + 131072) 18432))

/-- The decoded payload (R274). -/
def decompress (h : ShardHeader) (payload : List Byte) : Option (List Byte) :=
  let d := if h.comp = 1 then zstandard payload else some payload
  d.bind (fun d => if d.length = h.decoded ∧ d.length = h.decodedLen then some d else none)

/-- The value or list checks, and the resident form (steps 4 and 5 of R273): the form, or a status. -/
def transform (h : ShardHeader) (d : List Byte) : Except Nat (List Byte) :=
  if h.kind = 0 then (if narrowOk h d then .ok d else .error 0x05)
  else
    let vals := (List.range (h.rows * h.cols)).map (element h d)
    if vals.any (·.isNone) then .error 0x04 else .ok (residentForm h (vals.map (·.getD 0)))

/-- Steps 2 to 6 of R273: the resident form and its digest, or the status of the first check that fails. -/
def loadShard (header payload : List Byte) : Except Nat (List Byte × List Byte) :=
  let h := shardHeader header
  if sha256 (header.take 72 ++ List.replicate 64 (0 : Byte) ++ header.drop 136 ++ payload) ≠ h.digest then .error 0x02
  else match decompress h payload with
    | none => .error 0x03
    | some d => match transform h d with
      | .error e => .error e
      | .ok form =>
        let dg := sha256 form
        if h.expected.any (· != 0) ∧ dg ≠ h.expected then .error 0x06 else .ok (form, dg)

end Sys2Proof.Machine
end

