-- ==== Sys2Proof/Machine/Weights.lean ====
section
/-! DEFINITION. Weight requests, the arrival of shards, re-checks and repair (R270 to R288). -/

namespace Sys2Proof.Machine

/-- Whether the bytes of a body outside the named ranges are zero: ranges rise, each given as first byte and end (R357). -/
def restZero (body : List Byte) : Nat → List (Nat × Nat) → Bool
  | a, [] => (body.drop a).all (· == 0)
  | a, (b, e) :: r => zeroField body a (b - a) && restZero body e r

/-! ## Arrivals -/

/-- Commands of an arrival that have not completed. -/
def Arrival.open_ (a : Arrival) : Nat := (a.cmds.filter (·.data.isNone)).length

/-- The first 256 arriving shards are under way; later ones wait (R286). -/
def underWay (s : State) : List Arrival := s.weights.arriving.take 256

/-- Commands outstanding at a target. -/
def targetOut (s : State) (t : Nat) : Nat := ((s.weights.arriving.filter (fun a => !a.source.push && a.source.target == t)).map (·.open_)).sum

/-- Show WL_ACTIVE and the outstanding commands of target `t` (R287). -/
def showLoader (s : State) (t : Nat) : State :=
  wr (wr0 s wloadPg F.WL_ACTIVE (underWay s).length) wloadPg F.WL_TARGET_OUT t (targetOut s t)

/-- Replace an arrival. -/
def putArrival (s : State) (a b : Arrival) : State :=
  s.setWeights { s.weights with arriving := s.weights.arriving.map (fun x => if x = a then b else x) }

/-- A new command identifier. -/
def newCid (s : State) : Nat × State := (s.weights.cid, s.setWeights { s.weights with cid := (s.weights.cid + 1) % 65536 })

/-- Send one read command of an arrival: a 64-byte capsule on the queue pair of its target. Without a connection nothing leaves. -/
def sendCmd (s : State) (a : Arrival) (c : NvmeCmd) : State := match targetQp s a.source.target with
  | some q => if (getQp s q).st = 1 then post s q 64 (.nvme a.source.target c.cid a.source.nsid a.source.addr c.off c.len) else s
  | none => s

/-- Issue the next read of an arrival: its length, 4 KiB to 1 MiB, is free (R271, R286). -/
def askNext (s : State) (a : Arrival) : State :=
  let (v, s) := drawNat s
  let n := 4096 + v % (1048576 - 4096 + 1)
  let n := max 4096 (min n (a.source.len - a.asked))
  let (cid, s) := newCid s
  let c : NvmeCmd := { cid := cid, off := a.asked, len := n, tries := 0, data := none }
  sendCmd (putArrival s a { a with cmds := a.cmds ++ [c], asked := a.asked + n }) a c

/-- Issue reads of a connected target while its 64 and the device's 1,024 outstanding commands allow (R271). -/
def pump (s : State) (t : Nat) : Nat → State
  | 0 => s
  | fuel + 1 =>
    if rd s wloadPg F.WL_TARGET_STATE t ≠ 2 ∨ 64 ≤ targetOut s t ∨ 1024 ≤ (s.weights.arriving.map (·.open_)).sum then s
    else match (underWay s).find? (fun a => !a.source.push && a.source.target == t && decide (a.asked < a.source.len)) with
      | some a => pump (askNext s a) t fuel
      | none => s

/-- Issue reads of every target and show the loader. -/
def pumpAll (s : State) : State := forEach s (List.range 64) (fun s t => showLoader (pump s t 64) t)

/-- The type of the message of an arrival. -/
def Arrival.typ (a : Arrival) : Nat := if a.source.push then 0x32 else 0x31

/-- The epoch ID and shard index of an arrival; zero before its header is read (R357). -/
def Arrival.named (a : Arrival) : Nat × Nat :=
  if a.header = [] then (0, 0) else ((shardHeader a.header).epoch, (shardHeader a.header).index)

/-- End an arrival: it leaves the list, is counted, and its message is answered (R276, R285, R287, R357). -/
def endShard (s : State) (a : Arrival) (status : Nat) (more : List Byte) : State :=
  let s := s.setWeights { s.weights with arriving := s.weights.arriving.erase a }
  let s := match a.head with
    | none => s
    | some h =>
      let s := if status = 0 then bump s wloadPg F.WL_SHARDS_OK
        else
          let s := wr0 (bump s wloadPg F.WL_SHARDS_REFUSED) wloadPg F.WL_LAST_REFUSE_STATUS status
          wr0 (wr0 s wloadPg F.WL_LAST_REFUSE_PEN h.pen) wloadPg F.WL_LAST_REFUSE_SHARD a.named.2
      respond s h a.typ status (toLe 2 a.named.1 ++ toLe 4 a.named.2 ++ more)
  pumpAll s

/-- Count stored payload in WL_MIB_IN as it is received: that of a fetch with each completion, that of a push as the loader takes it (R287). -/
def countIn (s : State) (n : Nat) : State :=
  let t := s.weights.inBytes + n
  bump (s.setWeights { s.weights with inBytes := t % 1048576 }) wloadPg F.WL_MIB_IN (t / 1048576)

/-! ## Header checks (R273, R276) -/

/-- The epoch entry key of a pen's entry. -/
def epochKey (p k : Nat) : Nat := 2 * p + k

/-- The shards of an epoch entry. -/
def epochShards (s : State) (p k : Nat) : List Shard := getD [] s.weights.shards (epochKey p k)

/-- Replace them. -/
def putShards (s : State) (p k : Nat) (xs : List Shard) : State :=
  wr (s.setWeights { s.weights with shards := putD [] s.weights.shards (epochKey p k) xs }) (penPg p) F.EPOCH1_RESIDENT k xs.length

/-- The entry still takes shards: it was opened, is not complete and is not being retired. Under DRAIN it may already be
CURRENT (R283). -/
def takesShards (s : State) (p k : Nat) : Bool :=
  decide (0 < rd s (penPg p) F.EPOCH1_COUNT k) && decide (rd s (penPg p) F.EPOCH1_RESIDENT k < rd s (penPg p) F.EPOCH1_COUNT k)
    && !s.weights.retiring.contains (epochKey p k)

/-- The regions of a pen (R261). -/
def penRegions (s : State) (p : Nat) : List Region :=
  [journalRegion s p, prefixRegion s p, kvRegion s p, contextRegion s p, checkpointRegion s p]

/-- The placement of a shard is good (R273, R276 PLACEMENT); `same` is the index of the shard that it replaces. -/
def placementOk (s : State) (p : Nat) (h : ShardHeader) (a : Arrival) (same : Option (Nat × Nat)) : Bool :=
  let lo := h.addr - h.buffer
  let r : Region := ⟨lo, h.buffer + h.size⟩
  decide (h.buffer ≤ h.addr) && inWindow s p lo (h.buffer + h.size) && (penRegions s p).all (fun x => !r.meets x)
    && (List.range 2).all (fun k => (epochShards s p k).all (fun x => some (k, x.index) == same || !r.meets ⟨x.addr, recordSize * x.planes⟩))
    && s.weights.arriving.all (fun x => x == a || (x.head.map (·.pen.val)) != some p || (match x.place with
      | some (_, _, b, e) => !r.meets ⟨b, e - b⟩
      | none => true))
    && (h.flags == 0 || (decide (h.plane + h.planes ≤ 84) && decide (h.slot < 64) && bit (penFolds s p) h.slot))

/-- The damaged shard that a container would replace (R278): its entry. -/
def damagedEntry (s : State) (p : Nat) (h : ShardHeader) : Option Nat :=
  (epochOf s p h.epoch).filter (fun k => rd s (penPg p) F.EPOCH1_COUNT k == h.count
    && (epochShards s p k).any (fun x => x.index == h.index && x.damaged))

/-- Another shard with this index is arriving in the entry (R276 DUPLICATE). -/
def arrivingIndex (s : State) (p : Nat) (a : Arrival) (k index : Nat) : Bool :=
  s.weights.arriving.any (fun x => x != a && (x.head.map (·.pen.val)) == some p && (match x.place with
    | some (k', i, _, _) => k' == k && i == index
    | none => false))

/-- The status of the checks of a header, 0 when all pass, with the entry and whether a damaged shard is replaced. -/
def headerStatus (s : State) (p : Nat) (a : Arrival) (hd : List Byte) : Nat × Nat × Bool :=
  let h := shardHeader hd
  if !shardHeaderOk hd a.source.len then (0x01, 0, false)
  else match damagedEntry s p h with
    | some k =>
      if arrivingIndex s p a k h.index then (0x0C, k, true)
      else (if placementOk s p h a (some (k, h.index)) then 0 else 0x07, k, true)
    | none => match epochOf s p h.epoch with
      | none => (0x08, 0, false)
      | some k =>
        if !takesShards s p k ∨ rd s (penPg p) F.EPOCH1_COUNT k ≠ h.count then (0x08, k, false)
        else if (epochShards s p k).any (fun x => x.index == h.index) ∨ arrivingIndex s p a k h.index then (0x0C, k, false)
        else (if placementOk s p h a none then 0 else 0x07, k, false)

/-- The header of an arrival has been read: step 1 of R273. A fetch that the device started itself is checked at its end. -/
def readHeader (s : State) (a : Arrival) (hd : List Byte) : State := match a.head with
  | none => putArrival s a { a with header := hd }
  | some m =>
    let h := shardHeader hd
    let (st, k, rep) := headerStatus s m.pen a hd
    if st = 0 then putArrival s a { a with header := hd, repair := rep, place := some (k, h.index, h.addr - h.buffer, h.addr + h.size) }
    else
      let b := { a with header := if 256 ≤ a.source.len then hd else [] }
      endShard (putArrival s a b) b st []

/-- A fetch that the device started to repair a shard of an entry. -/
def Arrival.repairs (a : Arrival) (key index : Nat) : Bool := a.head.isNone && (match a.place with
  | some (k, i, _, _) => k == key && i == index
  | none => false)

/-- Drop the fetches that would repair the shards that meet a test: nothing waits for them any more. -/
def dropRepairs (s : State) (test : Arrival → Bool) : State :=
  let s := s.setWeights { s.weights with arriving := s.weights.arriving.filter (fun a => !test a) }
  wr0 s wloadPg F.WL_ACTIVE (underWay s).length

/-! ## The requests (R270 to R272, R281, R284, R285, R357) -/

/-- Answer a weight request. -/
def answer (s : State) (h : MsgHead) (typ status : Nat) (more : List Byte := []) : State := respond s h typ status more

/-- A free epoch entry of a pen: EMPTY, and named by no pending switch. -/
def freeEpoch (s : State) (p : Nat) : Option Nat :=
  (List.range 2).find? (fun k => rd s (penPg p) F.EPOCH0_ID k == 0 && rd s (penPg p) F.EPOCH0_STATE k == 0)

/-- The effect of EPOCH_OPEN (R279, R285). An entry that a switch under DRAIN has taken before any shard was named opens
with that ID (R283). -/
def doEpochOpen (h : MsgHead) (body : List Byte) (s : State) : State :=
  let p := h.pen.val
  let id := fieldNat body 0 2
  let n := fieldNat body 4 4
  if id = 0 ∨ n = 0 ∨ 65535 < n then answer s h 0x30 0x26
  else
    let k := match epochOf s p id with
      | some k => if rd s (penPg p) F.EPOCH1_COUNT k = 0 ∧ (rd s (penPg p) F.EPOCH0_STATE k = 0 ∨ rd s (penPg p) F.EPOCH0_STATE k = 3) then some k else none
      | none => freeEpoch s p
    match k with
    | none => answer s h 0x30 0x08
    | some k =>
      let s := wr (wr s (penPg p) F.EPOCH0_ID k id) (penPg p) F.EPOCH1_COUNT k n
      let s := if rd s (penPg p) F.EPOCH0_STATE k = 0 then wr s (penPg p) F.EPOCH0_STATE k 1 else s
      answer s h 0x30 0 [BitVec.ofNat 8 k]

/-- EPOCH_OPEN as it completes on its channel. -/
def msgEpochOpen (s : State) (h : MsgHead) (body : List Byte) : State :=
  message s h 0x30 true (body.length == 8 && restZero body 0 [(0, 2), (4, 8)]) (fun h => doEpochOpen h body)

/-- EPOCH_OPEN (R279). -/
def execEpochOpen (h : MsgHead) (body : List Byte) (s : State) : Host.Outcome State Fault Refusal :=
  .next (sendIn s h body.length (fun s => msgEpochOpen s h body))

/-- An arrival joins the list. -/
def addArrival (s : State) (a : Arrival) : State := s.setWeights { s.weights with arriving := s.weights.arriving ++ [a] }

/-- A target without a connection is asked for one when a fetch wants it (DEDUCED, log entry 104). -/
def wantTarget (s : State) (t : Nat) : State := if (targetQp s t).isNone then connectTarget s t else s

/-- The fetches from a target that wait without a command outstanding end with TIMEOUT (R276). -/
def failTarget (s : State) (t : Nat) : State :=
  forEach s (s.weights.arriving.filter (fun a => !a.source.push && a.source.target == t && decide (a.asked < a.source.len) && a.open_ == 0))
    (fun s a => endShard s a 0x0A [])

/-- The effect of SHARD_FETCH (R271). -/
def doShardFetch (h : MsgHead) (body : List Byte) (s : State) : State :=
  let t := fieldNat body 0 1
  let a : Arrival := { head := some h, source := ⟨false, t, fieldNat body 4 4, fieldNat body 8 8, fieldNat body 16 8⟩
                       cmds := [], asked := 0, place := none, header := [], repair := false, held := none }
  if 63 < t ∨ a.source.len = 0 then answer s h 0x31 0x26 (List.replicate 6 0)
  else if rd s wloadPg F.WL_TARGET_STATE t = 0 ∨ rd s wloadPg F.WL_TARGET_PEN t ≠ h.pen then endShard s a 0x01 []
  else pumpAll (wantTarget (addArrival s a) t)

/-- SHARD_FETCH as it completes on its channel. -/
def msgShardFetch (s : State) (h : MsgHead) (body : List Byte) : State :=
  message s h 0x31 true (body.length == 24 && restZero body 0 [(0, 1), (4, 24)]) (fun h => doShardFetch h body)

/-- SHARD_FETCH (R271). -/
def execShardFetch (h : MsgHead) (body : List Byte) (s : State) : Host.Outcome State Fault Refusal :=
  .next (sendIn s h body.length (fun s => msgShardFetch s h body))

/-- The effect of SHARD_PUSH (R272). A range that leaves the window is answered PLACEMENT. -/
def doShardPush (h : MsgHead) (body : List Byte) (s : State) : State :=
  let w := fieldNat body 0 8
  let n := fieldNat body 8 8
  let a : Arrival := { head := some h, source := ⟨true, 0, 0, w, n⟩, cmds := [], asked := 0, place := none, header := [], repair := false, held := none }
  if w % 4096 ≠ 0 ∨ n = 0 then answer s h 0x32 0x26 (List.replicate 6 0)
  else if !inWindow s h.pen w n then endShard s a 0x07 []
  else
    let s := addArrival s a
    readHeader (wr0 s wloadPg F.WL_ACTIVE (underWay s).length) a (winBytes s h.pen w 256)

/-- SHARD_PUSH as it completes on its channel. -/
def msgShardPush (s : State) (h : MsgHead) (body : List Byte) : State :=
  message s h 0x32 true (body.length == 16) (fun h => doShardPush h body)

/-- SHARD_PUSH (R272). -/
def execShardPush (h : MsgHead) (body : List Byte) (s : State) : Host.Outcome State Fault Refusal :=
  .next (sendIn s h body.length (fun s => msgShardPush s h body))

/-- The arrival of a pen with a request tag. -/
def findArrival (s : State) (p tag : Nat) : Option Arrival :=
  s.weights.arriving.find? (fun a => a.head.any (fun h => h.pen.val == p && h.tag.toNat == tag))

/-- The effect of ARRIVAL_CANCEL (R270, R285). -/
def doArrivalCancel (h : MsgHead) (body : List Byte) (s : State) : State :=
  match findArrival s h.pen (fieldNat body 0 8) with
  | some a => answer (endShard s a 0x0B []) h 0x33 0
  | none => answer s h 0x33 0x25

/-- ARRIVAL_CANCEL as it completes on its channel. -/
def msgArrivalCancel (s : State) (h : MsgHead) (body : List Byte) : State :=
  message s h 0x33 true (body.length == 8) (fun h => doArrivalCancel h body)

/-- ARRIVAL_CANCEL (R270). -/
def execArrivalCancel (h : MsgHead) (body : List Byte) (s : State) : Host.Outcome State Fault Refusal :=
  .next (sendIn s h body.length (fun s => msgArrivalCancel s h body))

/-- An active or confirmed drove of the pen requires an epoch; a HELD one counts when `held` (R281, R284). -/
def epochNeeded (s : State) (p id : Nat) (held : Bool) : Bool :=
  s.droves.any (fun e => e.2.pen == p && (e.2.st == 3 || (e.2.st != 0 && e.2.confirmed) || (held && e.2.st == 4)) && e.2.epochs.any (fun r => r.1 == id))

/-- The status of an EPOCH_SWITCH and the entry of the new epoch (R281 to R283, R285). Under DRAIN an ID that the pen does not
hold takes a free entry; an OLD epoch is no target. -/
def switchStatus (s : State) (p id policy : Nat) : Nat × Nat :=
  let k := epochOf s p id
  let st := match k with
    | some k => rd s (penPg p) F.EPOCH0_STATE k
    | none => 0
  if id = 0 ∨ 1 < policy then (0x26, 0)
  else if st = 3 then (0x08, 0)
  else if rd s (penPg p) F.EPOCH_SWITCH_PENDING = 1 then (0x20, 0)
  else if policy = 0 then
    if st ≠ 2 then (0x21, 0)
    else if !epochNeeded s p id false then (0x22, 0)
    else (0, k.getD 0)
  else if st = 4 then (0x08, 0)
  else match k.orElse (fun _ => freeEpoch s p) with
    | some k => (0, k)
    | none => (0x08, 0)

/-- The effect of EPOCH_SWITCH: accepted, it is pending (R281). -/
def doEpochSwitch (h : MsgHead) (body : List Byte) (s : State) : State :=
  let p := h.pen.val
  let id := fieldNat body 0 2
  let policy := fieldNat body 2 1
  let (st, k) := switchStatus s p id policy
  if st ≠ 0 then answer s h 0x34 st
  else
    let pg := penPg p
    let s := wr s pg F.EPOCH0_ID k id
    let s := wr0 (wr0 (wr0 s pg F.EPOCH_SWITCH_PENDING 1) pg F.EPOCH_SWITCH_POLICY policy) pg F.EPOCH_SWITCH_ENTRY k
    let s := wrPair s pg F.EPOCH_SW_T_LO F.EPOCH_SW_T_HI (fieldNat body 8 8)
    answer (s.setWeights { s.weights with switched := putD 0 s.weights.switched p 0 }) h 0x34 0 [BitVec.ofNat 8 k]

/-- EPOCH_SWITCH as it completes on its channel. -/
def msgEpochSwitch (s : State) (h : MsgHead) (body : List Byte) : State :=
  message s h 0x34 true (body.length == 16 && restZero body 0 [(0, 3), (8, 16)]) (fun h => doEpochSwitch h body)

/-- EPOCH_SWITCH (R281). -/
def execEpochSwitch (h : MsgHead) (body : List Byte) (s : State) : Host.Outcome State Fault Refusal :=
  .next (sendIn s h body.length (fun s => msgEpochSwitch s h body))

/-- The effect of EPOCH_RETIRE (R284): the entry becomes EMPTY at the next tick boundary, and its arriving shards are cancelled. -/
def doEpochRetire (h : MsgHead) (body : List Byte) (s : State) : State :=
  let p := h.pen.val
  let id := fieldNat body 0 2
  if id = 0 then answer s h 0x35 0x26
  else match (epochOf s p id).filter (fun k => rd s (penPg p) F.EPOCH0_STATE k != 0) with
    | none => answer s h 0x35 0x08
    | some k =>
      if rd s (penPg p) F.EPOCH0_STATE k = 3 then answer s h 0x35 0x23
      else if rd s (penPg p) F.EPOCH2 k ≠ 0 ∨ epochNeeded s p id true then answer s h 0x35 0x24
      else
        let s := s.setWeights { s.weights with retiring := if s.weights.retiring.contains (epochKey p k) then s.weights.retiring else s.weights.retiring ++ [epochKey p k] }
        let mine := s.weights.arriving.filter (fun a => (a.head.map (·.pen.val)) == some p && (match a.place with
          | some (k', _, _, _) => k' == k
          | none => false))
        let s := forEach s mine (fun s a => endShard s a 0x0B [])
        answer (dropRepairs s (fun a => (epochShards s p k).any (fun x => a.repairs (epochKey p k) x.index))) h 0x35 0

/-- EPOCH_RETIRE as it completes on its channel. -/
def msgEpochRetire (s : State) (h : MsgHead) (body : List Byte) : State :=
  message s h 0x35 true (body.length == 2) (fun h => doEpochRetire h body)

/-- EPOCH_RETIRE (R284). -/
def execEpochRetire (h : MsgHead) (body : List Byte) (s : State) : Host.Outcome State Fault Refusal :=
  .next (sendIn s h body.length (fun s => msgEpochRetire s h body))

/-! ## NVMe (R271) -/

/-- The arrival with an outstanding command of a target, and the command. -/
def findCmd (s : State) (t cid : Nat) : Option (Arrival × NvmeCmd) :=
  s.weights.arriving.findSome? (fun a =>
    if a.source.push ∨ a.source.target ≠ t then none
    else (a.cmds.find? (fun c => c.cid == cid && c.data.isNone)).map (fun c => (a, c)))

/-- Replace a command of an arrival. -/
def Arrival.setCmd (a : Arrival) (c d : NvmeCmd) : Arrival := { a with cmds := a.cmds.map (fun x => if x = c then d else x) }

/-- A target whose commands do not complete has failed: its queue pair is given up (R287). -/
def loseTarget (s : State) (t : Nat) : State := match targetQp s t with
  | some q => dropTarget (putQp s q Qp.init) t
  | none => dropTarget s t

/-- Retry a command, or end its shard after the third retry (R271). -/
def retryCmd (s : State) (a : Arrival) (c : NvmeCmd) (status : Nat) : State :=
  if c.tries < 3 then
    let (cid, s) := newCid (bump s wloadPg F.WL_NVME_RETRY)
    let d := { c with cid := cid, tries := c.tries + 1 }
    sendCmd (wantTarget (putArrival s a (a.setCmd c d)) a.source.target) a d
  else endShard (if status = 0x0A then loseTarget s a.source.target else s) a status []

/-- The packets of a completion: the data as RDMA WRITEs, and the completion entry as a SEND (R346). -/
def completionIn (s : State) (t n : Nat) (k : Pkt) (g : State → State) : State := match targetQp s t with
  | some q => takePackets s q ((if n = 0 then 0 else (getQp s q).packets n) + 1) k g
  | none => s

/-- NVME_COMPLETION (R271): a read ends, with its data or with an error status. -/
def execNvmeCompletion (target : Fin 64) (cid : Nat) (ends : NvmeEnd) (data : List Byte) (s : State) : Host.Outcome State Fault Refusal :=
  .next (match findCmd s target cid with
    | none => s
    | some (a, c) => completionIn s target (if ends.ok then c.len else 0) ends.pkt (fun s =>
      if !ends.ok then retryCmd s a c 0x09
      else
        let s := countIn s (min (c.off + c.len) a.source.len - max c.off 256)
        let bytes := data.take c.len ++ List.replicate (c.len - data.length) (0 : Byte)
        let b := a.setCmd c { c with data := some bytes }
        let s := putArrival s a b
        pumpAll (if c.off = 0 then readHeader s b (bytes.take (min 256 a.source.len)) else s)))

/-- NVME_TIMEOUT (R271): a command has not completed within 2 s. -/
def execNvmeTimeout (target : Fin 64) (cid : Nat) (s : State) : Host.Outcome State Fault Refusal :=
  .next (match findCmd s target cid with
    | none => s
    | some (a, c) => retryCmd s a c 0x0A)

/-! ## Completion (R273, R275, R276, R279) -/

/-- Every byte of the container is there. -/
def Arrival.arrived (a : Arrival) : Bool := a.source.push || (decide (a.source.len ≤ a.asked) && a.open_ == 0)

/-- The payload of an arrival. -/
def arrivalPayload (s : State) (p : Nat) (a : Arrival) : List Byte :=
  if a.source.push then winBytes s p (a.source.addr + 256) (a.source.len - 256)
  else part (a.cmds.flatMap (fun c => c.data.getD [])) 256 (a.source.len - 256)

/-- The 64 KiB blocks of a slice that the planes `first` to `first + n - 1` and their side records touch. -/
def stagingBlocks (first n : Nat) : List Nat :=
  (List.range n).flatMap (fun j =>
    let p := first + j
    let a := 0xA80000 + 18432 * p
    [2 * p, 2 * p + 1, a / 65536, (a + 18431) / 65536])

/-- An active drove reads a block of the slice of logical slot `k` (R255). -/
def stagingBusy (s : State) (k first n : Nat) : Bool :=
  s.droves.any (fun e => e.2.st == 3 && e.2.ranges.any (fun (r : Nat × Nat × Nat) =>
    r.1 == k && (stagingBlocks first n).any (fun b => decide (r.2.1 ≤ b) && decide (b < r.2.1 + r.2.2))))

/-- Write a resident form to plane slots of the slice that serves a logical slot (R254, R275). -/
def writeStaging (s : State) (slot first : Nat) (form : List Byte) (planes : Nat) : State := match foldOfSlot s slot with
  | none => s
  | some f => forEach s (List.range planes) (fun s j =>
    let a := stagingAddr f (131072 * (first + j))
    let b := stagingAddr f (0xA80000 + 18432 * (first + j))
    let s := iodBytes (iodBytes s a (part form (recordSize * j) 131072)) b (part form (recordSize * j + 131072) 18432)
    cureLines s (fun x => lineIn a 131072 x || lineIn b 18432 x))

/-- DAMAGED shows whether a shard of the entry is damaged (R277, R278). -/
def showDamaged (s : State) (p k : Nat) : State := wr s (penPg p) F.EPOCH0_DAMAGED k (b2n ((epochShards s p k).any (·.damaged)))

/-- A damaged shard is good again, at an address and a staging placement; a fetch for its repair ends (R278). -/
def repaired (s : State) (p k index addr : Nat) (stage : Option (Nat × Nat)) (src : ShardSource) : State :=
  let xs := (epochShards s p k).map (fun x =>
    if x.index = index then { x with damaged := false, checked := s.tally.num, addr := addr, stage := stage, source := src } else x)
  bump (dropRepairs (showDamaged (putShards s p k xs) p k) (·.repairs (epochKey p k) index)) wloadPg F.WL_REPAIR_CNT

/-- The digest of an epoch: over the digests of its shards in index order (R269). -/
def epochDigest (xs : List Shard) (n : Nat) : List Byte :=
  sha256 ((List.range n).flatMap (fun i => ((xs.find? (fun x => x.index == i)).map (·.digest)).getD []))

/-- An epoch whose last shard completes (R279): RESIDENT, and CURRENT when the pen has no CURRENT epoch. -/
def epochResident (s : State) (p k : Nat) : List Byte × State :=
  let n := rd s (penPg p) F.EPOCH1_COUNT k
  let xs := epochShards s p k
  if xs.length = n then
    let dg := epochDigest xs n
    let s := s.setWeights { s.weights with digests := putD [] s.weights.digests (epochKey p k) dg }
    let s := wr s (penPg p) F.EPOCH3 k (leNat (dg.take 4))
    let s := if rd s (penPg p) F.EPOCH0_STATE k = 1 then wr s (penPg p) F.EPOCH0_STATE k (if (currentEpoch s p).isNone then 3 else 2) else s
    ((1 : Byte) :: List.replicate 3 (0 : Byte) ++ dg, s)
  else ((0 : Byte) :: List.replicate 35 (0 : Byte), s)

/-- A shard that passed steps 2 to 6 is written and completes (steps 7 and 8 of R273, R275). -/
def completeShard (s : State) (p k : Nat) (a : Arrival) (form dg : List Byte) : State :=
  let h := shardHeader a.header
  let s := coreWrite s p h.addr form
  let s := if h.flags = 1 then writeStaging s h.slot h.plane form h.planes else s
  let stage := if h.flags = 1 then some (h.slot, h.plane) else none
  if a.repair then endShard (repaired s p k h.index h.addr stage a.source) a 0 (dg ++ List.replicate 36 (0 : Byte))
  else
    let x : Shard := { index := h.index, digest := dg, addr := h.addr, planes := h.planes
                       stage := stage, source := a.source, checked := s.tally.num, damaged := false }
    let s := putShards s p k (epochShards s p k ++ [x])
    let (more, s) := epochResident s p k
    endShard s a 0 (dg ++ more)

/-- The damaged shard that an arrival replaces has the digest that the epoch holds for it. -/
def digestKept (s : State) (p k : Nat) (a : Arrival) (dg : List Byte) : Bool :=
  !a.repair || (epochShards s p k).any (fun x => x.index == (shardHeader a.header).index && x.digest == dg)

/-- The writes of a shard that passed steps 2 to 6 start, or wait while an active drove reads its staging blocks (R255). -/
def placeShard (s : State) (p k : Nat) (a : Arrival) (form dg : List Byte) : State :=
  let h := shardHeader a.header
  if h.flags = 1 ∧ stagingBusy s h.slot h.plane h.planes then putArrival s a { a with held := some (form, dg) }
  else completeShard s p k a form dg

/-- The loader buffer of an arriving shard is a range of the pen's window: a shard that passes step 6 has left its resident form there,
from the buffer's lowest address on, and one that fails a later step than the digest has left bytes that nobody knows (R273; DEDUCED,
log entry 102). -/
def fillBuffer (s : State) (p : Nat) (h : ShardHeader) (r : Except Nat (List Byte × List Byte)) : State := match r with
  | .ok (form, _) => coreWrite s p (h.addr - h.buffer) form
  | .error e => if e = 0x02 then s else
    let (bs, s) := freeBytes s h.buffer
    coreWrite s p (h.addr - h.buffer) bs

/-- The pipeline of an arrived shard ends. -/
def endPipeline (s : State) (p : Nat) (a : Arrival) : State := match a.place with
  | none => s
  | some (k, _, _, _) =>
    if !(a.arrived && (underWay s).contains a && a.held.isNone) then s
    else
      let r := loadShard a.header (arrivalPayload s p a)
      let t := fillBuffer (if a.source.push then countIn s (shardHeader a.header).stored else s) p (shardHeader a.header) r
      match r with
      | .error e => endShard t a e []
      | .ok (form, dg) => if digestKept s p k a dg then placeShard t p k a form dg else endShard t a 0x06 []

/-- SHARD_COMPLETE (R273): the pipeline of an arrived shard ends. -/
def execShardComplete (pen : Fin 16) (tag : BitVec 64) (s : State) : Host.Outcome State Fault Refusal :=
  .next (match findArrival s pen tag.toNat with
    | none => s
    | some a => endPipeline s pen a)

/-- A shard whose writes waited for its staging blocks completes once no active drove names them (R255). -/
def resumeShard (s : State) (a : Arrival) : State := match a.head, a.place, a.held with
  | some h, some (k, _, _, _), some (form, dg) =>
    let x := shardHeader a.header
    if stagingBusy s x.slot x.plane x.planes then s else completeShard s h.pen k a form dg
  | _, _, _ => s

/-- STAGING_WRITE_RESUME (R255): every waiting write that no active drove holds back proceeds. -/
def execStagingWriteResume (s : State) : Host.Outcome State Fault Refusal := .next (forEach s s.weights.arriving resumeShard)

/-! ## Re-checks and repair (R277, R278) -/

/-- The resident form of a shard as its HBM copy holds it. -/
def hbmCopy (s : State) (p : Nat) (x : Shard) : List Byte := winBytes s p x.addr (recordSize * x.planes)

/-- The resident form of a shard as its staging copy holds it, when every plane is there. -/
def stagingCopy (s : State) (x : Shard) : Option (List Byte) := match x.stage with
  | none => none
  | some (slot, first) => (foldOfSlot s slot).map (fun f => (List.range x.planes).flatMap (fun j =>
    readBytes s (stagingAddr f (131072 * (first + j))) 131072 ++ readBytes s (stagingAddr f (0xA80000 + 18432 * (first + j))) 18432))

/-- The staging copy of a shard is good (R278). -/
def stagingGood (s : State) (x : Shard) : Bool := (stagingCopy s x).any (fun b => sha256 b == x.digest)

/-- Start the fetch that repairs a shard, when its source is a target and the staging copy is not good (R278). -/
def startRepair (s : State) (p k : Nat) (x : Shard) : State :=
  let busy := s.weights.arriving.any (·.repairs (epochKey p k) x.index)
  if x.source.push ∨ stagingGood s x ∨ busy then s
  else pumpAll (addArrival s { head := none, source := x.source, cmds := [], asked := 0, place := some (epochKey p k, x.index, x.addr, x.addr)
                               header := [], repair := true, held := none })

/-- Re-check one shard (R277, R492). -/
def recheckShard (s : State) (p k : Nat) (x : Shard) : State :=
  let put := fun (s : State) (y : Shard) => putShards s p k ((epochShards s p k).map (fun z => if z.index = x.index then y else z))
  if sha256 (hbmCopy s p x) = x.digest then put (bump s wloadPg F.WL_RECHECK_PASS) { x with checked := s.tally.num }
  else
    let s := showDamaged (put (bump s wloadPg F.WL_RECHECK_FAIL) { x with damaged := true }) p k
    let s := logWrite (errEvent s wloadPg 3) wloadPg 0x60 p [(32, p), (34, rd s (penPg p) F.EPOCH0_ID k), (36, x.index), (40, x.checked)]
    startRepair s p k { x with damaged := true }

/-- RECHECK (R277): every completed shard is digested again. -/
def execRecheck (s : State) : Host.Outcome State Fault Refusal :=
  .next (forEach s (List.range 16) (fun s p => forEach s (List.range 2) (fun s k => forEach s (epochShards s p k) (fun s x => recheckShard s p k x))))

/-- The fetch that repairs a shard. -/
def repairFetch (s : State) (p k index : Nat) : Option Arrival :=
  s.weights.arriving.find? (·.repairs (epochKey p k) index)

/-- Where the HBM weight copy of a staging line lies: the pen and the window address in a shard placed there, those of CURRENT epochs
first (R254, R258, R267; DEDUCED, log entry 101). -/
def copyOfLine (s : State) (f o : Nat) : Option (Nat × Nat) :=
  let plane := if o < 0xA80000 then o / 131072 else (o - 0xA80000) / 18432
  let inner := if o < 0xA80000 then o % 131072 else 131072 + (o - 0xA80000) % 18432
  let find := fun (cur : Bool) => (List.range 32).findSome? (fun e =>
    if (rd s (penPg (e / 2)) F.EPOCH0_STATE (e % 2) == 3) != cur then none
    else (epochShards s (e / 2) (e % 2)).findSome? (fun x => match x.stage with
      | some (slot, first) =>
        if foldOfSlot s slot = some f ∧ first ≤ plane ∧ plane < first + x.planes then
          some (e / 2, x.addr + recordSize * (plane - first) + inner)
        else none
      | none => none))
  (find true).orElse (fun _ => find false)

/-- Restore a poisoned staging line from its HBM weight copy, when that is not poisoned itself (R258). -/
def restoreLine (s : State) (a : Nat) : State := match stagingFold a with
  | none => s
  | some f => match copyOfLine s f (a % 0x1000000) with
    | none => s
    | some (p, w) =>
      if s.care.bad.any (fun e => lineInWindow s p (w / 64 * 64) 64 e.2) then s
      else cureLines (droveBytes s a (winBytes s p w 64)) (· == a)

/-- Restore every poisoned staging line, as the device does before a replay (R258). -/
def restoreLines (s : State) : State := forEach s ((s.care.bad.filter (·.1 == 0)).map (·.2)) restoreLine

/-- Repair one damaged shard from its staging copy, or from the container fetched again (R278). -/
def repairShard (s : State) (p k : Nat) (x : Shard) : State :=
  match (stagingCopy s x).filter (fun b => sha256 b == x.digest) with
  | some form => repaired (coreWrite s p x.addr form) p k x.index x.addr x.stage x.source
  | none => match repairFetch s p k x.index with
    | none => startRepair s p k x
    | some a =>
      if !a.arrived then s
      else
        let s' := endShard s a 0 []
        match shardHeaderOk a.header a.source.len, loadShard a.header (arrivalPayload s p a) with
        | true, .ok (form, dg) =>
          if dg = x.digest then repaired (coreWrite s' p x.addr form) p k x.index x.addr x.stage x.source else startRepair s' p k x
        | _, _ => startRepair s' p k x

/-- The device digests a shard again, repairs a bad HBM copy from a good staging copy or a new fetch, and writes a bad staging copy again
from a good HBM copy (R278, R380; DEDUCED, log entry 110). -/
def redigestShard (s : State) (p k : Nat) (x : Shard) : State :=
  let s := recheckShard s p k x
  match (epochShards s p k).find? (fun y => y.index == x.index && y.damaged) with
  | some y => repairShard s p k y
  | none => match x.stage with
    | some (slot, first) => if stagingGood s x then s else writeStaging s slot first (hbmCopy s p x) x.planes
    | none => s

/-- Every shard that is placed on one of the listed plane slots, by logical slot and staging offset, is digested again (R380). -/
def redigest (s : State) (os : List (Nat × Nat)) : State :=
  forEach s (List.range 32) (fun s e => forEach s (epochShards s (e / 2) (e % 2)) (fun s x =>
    if os.any (fun o => x.stage.any (fun g => g.1 == o.1 && decide (g.2 ≤ o.2 / 131072) && decide (o.2 / 131072 < g.2 + x.planes)))
    then redigestShard s (e / 2) (e % 2) x else s))

/-- SHARD_REPAIR (R278): a damaged shard of an epoch, by its ID, is repaired when a good source is there. The service waits while its core
is halted (R469). -/
def execShardRepair (pen : Fin 16) (epoch shard : Nat) (s : State) : Host.Outcome State Fault Refusal :=
  .next (if serviceWaits s .repair then s else match epochOf s pen epoch with
    | none => s
    | some k => match (epochShards s pen k).find? (fun x => x.index == shard && x.damaged) with
      | some x => repairShard s pen k x
      | none => s)

end Sys2Proof.Machine
end

