-- ==== Sys2Proof/Machine/Arbitration.lean ====
section
/-! DEFINITION. Arbitration, stage 3, and the verdicts (R379, R380). -/

namespace Sys2Proof.Machine

/-- The exact column values of a disputed conversion from its record, with the weights of the staging of the fold that
now serves the slot (R379 stage 3). -/
def recordColumn (s : State) (f : Nat) (d : ConvData) (c : Nat) : Int :=
  sumZ ((List.range d.drive.length).map (fun r =>
    let o := getD 0 d.origins (r / 16)
    if o = 0 then 0 else d.drive.getD r 0 * cellValue (getD 0 d.kinds (r / 16)) (slotCode s f (o - 1) r c)))

/-- The verdict of stage 3 (R380): CHECKER, DATA, ARRAY or BIAS. -/
def verdictOf (s : State) (serving : Nat) (x : Dispute) : Nat :=
  let d := x.data
  let e := cols.map (recordColumn s serving d)
  if sumZ e ≠ d.chk then 2
  else if x.away then 4
  else if cols.any (fun c => !isClip (d.codes.getD c 64) && outOfBound d (e.getD c 0) c) then 3
  else 5

/-- A fold that a verdict condemns while it still serves a slot is quarantined: by the switch to a spare, when its die has one now, or at
once, and then its slot has failed (R377, R380; DEDUCED, log entry 110). -/
def leaveSlot (s : State) (f k : Nat) : State :=
  if (nextSpare s (dieOf f)).1.isSome then takeSpare s f k 2 else failSlot (quarantine s f) k

/-- Act on a verdict of stage 3. The fold was released by a switch, or still serves the slot for want of a spare. -/
def actVerdict (s : State) (v : Nat) (x : Dispute) : State :=
  let f := x.fold
  let gone := s.care.released.contains f
  let s := if v = 3 then wr0 s (foldPg f) F.FOLD_ROLE_ARRAY x.array else s
  let s := s.setCare { s.care with released := s.care.released.filter (· != f) }
  match v with
  | 4 =>
    let s := if gone then setRole s f roleSpare none else s
    let os := (x.data.origins.map (fun e => (x.slot, e.2 - 1))).dedup
    redigest (s.setCare { s.care with redigest := s.care.redigest ++ os }) os
  | 5 =>
    if gone then s.setCare { s.care with calib := s.care.calib ++ [f] } else if slotOfFold s f = some x.slot then forceCal s f else s
  | _ => if gone then quarantine s f else if slotOfFold s f = some x.slot then leaveSlot s f x.slot else s

/-- ARBITRATION_STAGE3 of one dispute. -/
def stage3 (s : State) (x : Dispute) (serving : Nat) : State :=
  let v := verdictOf s serving x
  let s := s.setCare { s.care with disputes := dropDispute (fun y => y.fold == x.fold && y.array == x.array && y.located) s.care.disputes }
  logVerdict (actVerdict s v x) v x.fold x.array x.repeated x.data.tally

/-- ARBITRATION_STAGE3 (R379): once no fill for the slot is in progress. -/
def execArbitrationStage3 (fold : Fin 68) (array : Fin 16) (s : State) : Host.Outcome State Fault Refusal :=
  match s.care.disputes.find? (fun y => y.fold == fold.val && y.array == array.val && y.located) with
  | none => .next s
  | some x =>
    if s.care.fills.any (fun y => y.slot == x.slot) then .next s
    else match foldOfSlot s x.slot with
      | some g => .next (stage3 s x g)
      | none => .next (stage3 s x fold)

end Sys2Proof.Machine
end

