-- ==== Sys2Proof/Machine/Flash.lean ====
section
/-! DEFINITION. What the boot flash and the package record hold: checks of the record, banks, manifests and policies
(R14 to R17, R243, R436, R457, R459, R464, R465, R470 to R472, R476). -/

namespace Sys2Proof.Machine

/-- Bytes `a` to `a + n - 1` of a byte string. -/
def slice (bs : List Byte) (a n : Nat) : List Byte := (bs.drop a).take n

/-- The little-endian number in bytes `a` to `a + n - 1`. -/
def num (bs : List Byte) (a n : Nat) : Nat := leNat (slice bs a n)

/-- Bytes `a` to `a + n - 1` are zero. -/
def zeroAt (bs : List Byte) (a n : Nat) : Bool := (slice bs a n).all (· == 0)

/-- The bytes of an ASCII string. -/
def ascii (t : String) : List Byte := t.toList.map (fun c => BitVec.ofNat 8 c.toNat)

/-! ## The package record (R457) -/

/-- The heft signature of an order code (R17). -/
def orderSig (o56 : Bool) : Nat := if o56 then 0x0FFFFFFF0FFFFFFF else 2 ^ 64 - 1

/-- The heft map as tested meets R14 to R17 and names no fold twice. -/
def heftOk (r : Record) : Bool :=
  let folds := r.slots.map (·.2) ++ r.spares
  r.sig == orderSig r.order56
    && (List.range 64).all (fun k => (r.slots.any (fun e => e.1 == k)) == bit r.sig k)
    && (r.slots.map (·.1)).Nodup && folds.Nodup && folds.all (fun f => decide (f < 68))
    && r.slots.all (fun e => decide (e.1 < 64) && decide (dieOf e.2 = e.1 / 32))
    && [0, 1].all (fun d =>
      let n := (r.spares.filter (fun f => dieOf f == d)).length
      decide (n ≤ 2) && decide ((if r.order56 then 2 else 1) ≤ n))

/-- Limits of the voltage table, mV (R436). -/
def vtabLimits : List (Nat × Nat) := [(740, 800), (700, 770), (680, 750), (640, 710), (610, 680), (580, 650), (560, 620), (550, 580)]

/-- Every entry of the voltage table lies within its limits. -/
def vtabOk (v : List Nat) : Bool := v.length == 8 && (v.zip vtabLimits).all (fun e => decide (e.2.1 ≤ e.1) && decide (e.1 ≤ e.2.2))

/-- The package record is valid (R457). -/
def recordOk (r : Record) : Bool := Config.signatureOk Config.romKey r.bytes r.signature && heftOk r && r.cls == 1 && vtabOk r.vtab

/-! ## Banks and manifests (R470 to R472) -/

/-- A bank of the flash. -/
def getBank (s : State) (i : Nat) : Bank := if i = 0 then s.boot.flash.bank0 else s.boot.flash.bank1

/-- Replace the flash. -/
def putFlash (s : State) (x : Flash) : State := s.setBoot { s.boot with flash := x }

/-- Replace a bank. -/
def putBank (s : State) (i : Nat) (b : Bank) : State :=
  putFlash s (if i = 0 then { s.boot.flash with bank0 := b } else { s.boot.flash with bank1 := b })

/-- Piece count of a manifest. -/
def manifestPieces (m : List Byte) : Nat := num m 20 2

/-- A part of a manifest: kind, offset, length and digest. -/
def manifestParts (m : List Byte) : List (Nat × Nat × Nat × List Byte) :=
  (List.range (num m 10 2)).map (fun k =>
    let o := 256 + 48 * k
    (num m o 1, num m (o + 4) 4, num m (o + 8) 4, slice m (o + 16) 32))

/-- The layout of a manifest is sound (R471). -/
def manifestForm (m : List Byte) : Bool :=
  let p := manifestPieces m
  let n := num m 16 4
  let ks := (manifestParts m).map (·.1)
  slice m 0 8 == ascii "GQZMANIF" && num m 9 1 == 1 && decide (6 ≤ num m 10 2) && decide (num m 10 2 ≤ 16) && decide (n ≤ 67108864)
    && p == ceilDiv n 65536 && zeroAt m 28 228 && m.length == 1024 + 32 * p + 7856
    && (List.range (num m 10 2)).all (fun k => zeroAt m (256 + 48 * k + 1) 3 && zeroAt m (256 + 48 * k + 12) 4)
    && ks.all (fun k => decide (1 ≤ k) && decide (k ≤ 8)) && [1, 2, 3, 4, 5, 6].all (fun k => ks.count k == 1)

/-- Trellyn's signature over everything before it verifies. -/
def manifestSigned (m : List Byte) : Bool := Config.signatureOk Config.romKey (m.take (m.length - 7856)) (m.drop (m.length - 7856))

/-- A manifest verifies (R458 stage 2, R473). -/
def manifestOk (m : List Byte) : Bool := manifestForm m && manifestSigned m

/-- The bytes of an area of the flash from what it holds: the rest is erased (R470; that erased bytes read as 0xFF: PRESUMED, log
entry 118). -/
def areaBytes (a : FlashArea) (bs : List Byte) : List Byte := bs.take a.size ++ List.replicate (a.size - bs.length) (0xFF : Byte)

/-- The anchor record that holds a digest. -/
def anchorRecord (a : List Byte) : List Byte := (List.range (FlashArea.anchor 0).size).map (Config.anchorByte a)

/-- The settings area of a bank as the firmware reads it (R462, R476). -/
def settingsArea (i : Nat) (b : Bank) : List Byte := areaBytes (.settings i) b.settings

/-- The piece bitmap of a bank as it stands in the flash (R472). -/
def bitmapArea (i : Nat) (b : Bank) : List Byte := areaBytes (.bitmap i) (toLe 128 (b.pieces.foldl (fun m e => m ||| 2 ^ e.1) 0))

/-- The image that a bank holds. -/
def bankImage (b : Bank) : List Byte := (List.range (manifestPieces b.manifest)).flatMap (fun j => getD [] b.pieces j)

/-- Every part of a bank has its digest (R458 stage 3, R473). -/
def partsOk (b : Bank) : Bool :=
  let img := bankImage b
  (manifestParts b.manifest).all (fun e => sha256 (slice img e.2.1 e.2.2.1) == e.2.2.2)

/-- A bank passes stages 2 and 3. -/
def bankBoots (b : Bank) : Bool := manifestOk b.manifest && partsOk b

/-- The bytes of a part kind of a bank; none when the manifest has no such part. -/
def bankPart (b : Bank) (kind : Nat) : Option (List Byte) :=
  ((manifestParts b.manifest).find? (fun e => e.1 == kind)).map (fun e => slice (bankImage b) e.2.1 e.2.2.1)

/-! ## Policies (R464, R465) -/

/-- A policy slot of the flash. -/
def getSlot (s : State) (i : Nat) : PolicySlot := if i = 0 then s.boot.flash.pol0 else s.boot.flash.pol1

/-- Replace a policy slot. -/
def putSlot (s : State) (i : Nat) (x : PolicySlot) : State :=
  putFlash s (if i = 0 then { s.boot.flash with pol0 := x } else { s.boot.flash with pol1 := x })

/-- Pieces of a policy. -/
def PolicySlot.count (x : PolicySlot) : Nat := ceilDiv x.size 65536

/-- The policy that a slot holds. -/
def PolicySlot.bytes (x : PolicySlot) : List Byte := ((List.range x.count).flatMap (fun j => getD [] x.pieces j)).take x.size

/-- The layout of a policy is sound (R464). -/
def policyForm (b : List Byte) : Bool :=
  let n := num b 10 2
  let m := num b 20 2
  slice b 0 8 == ascii "GQZPOLCY" && num b 9 1 == 1 && decide (1 ≤ n) && decide (n ≤ 32768) && decide (1 ≤ m) && decide (m ≤ 64)
    && zeroAt b 22 10 && zeroAt b 96 160 && b.length == 256 + 32 * n + 5184 * m + 7856

/-- The installation key that a policy carries. -/
def policyKey (b : List Byte) : List Byte := slice b 32 32

/-- The signature of a policy verifies with the key that it carries. -/
def policySigned (b : List Byte) : Bool := Config.signatureOk (policyKey b) (b.take (b.length - 7856)) (b.drop (b.length - 7856))

/-- The key of a policy agrees with the anchor. -/
def anchorOk (anchor : Option (List Byte)) (b : List Byte) : Bool := match anchor with
  | none => true
  | some a => sha256 (policyKey b) == a

/-- The device entry of a policy for a serial: its offset. -/
def deviceEntry (b : List Byte) (serial : List Byte) : Option Nat :=
  ((List.range (num b 10 2)).map (fun i => 256 + 32 * i)).find? (fun o => slice b o 16 == serial)

/-- The profile of a device entry. -/
def profileOf (b : List Byte) (entry : Nat) : List Byte := slice b (256 + 32 * num b 10 2 + 5184 * num b (entry + 19) 1) 5184

/-- The record of pen `p` in a profile. -/
def penRecord (prof : List Byte) (p : Nat) : List Byte := slice prof (64 + 320 * p) 320

/-- A pen record defines its pen. -/
def penDefined (r : List Byte) : Bool := bit (num r 0 1) 0

/-- The extents of a pen record: port, start and length in 16 MiB units. -/
def penExtents (r : List Byte) : List (Nat × Nat × Nat) :=
  (List.range (num r 48 1)).map (fun e =>
    let w := num r (64 + 4 * e) 4
    (bits w 0 5, bits w 5 11, bits w 16 11 + 1))

/-- The reserved bytes of a pen record are zero, be its pen defined or not. -/
def penReserved (r : List Byte) : Bool :=
  decide (num r 0 1 < 8) && zeroAt r 1 1 && decide (num r 2 2 < 4096) && decide (num r 48 1 ≤ 64) && zeroAt r 49 15
    && (List.range 64).all (fun e => decide (num r (64 + 4 * e) 4 < 2 ^ 27))
    && zeroAt r (64 + 4 * num r 48 1) (256 - 4 * num r 48 1)

/-- No two extents of a list overlap. -/
def extentsApart : List (Nat × Nat × Nat) → Bool
  | [] => true
  | (q, a, n) :: r => r.all (fun (e : Nat × Nat × Nat) => q != e.1 || decide (a + n ≤ e.2.1) || decide (e.2.1 + e.2.2 ≤ a)) && extentsApart r

/-- A policy is valid for the profile of a device entry (R465). -/
def profileOk (sig : Nat) (b : List Byte) (entry : Nat) : Bool :=
  let prof := profileOf b entry
  let pens := (List.range 16).filter (fun p => penDefined (penRecord prof p))
  let rec_ := penRecord prof
  let apart := fun (test : Nat → Nat → Bool) => pens.all (fun p => pens.all (fun q => p == q || test p q))
  let exts := pens.flatMap (fun p => penExtents (rec_ p))
  decide (num b (entry + 19) 1 < num b 20 2) && zeroAt b (entry + 20) 12 && decide (num b (entry + 16) 2 < 32768)
    && pens.contains 0 && zeroAt prof 8 56 && (List.range 16).all (fun p => penReserved (rec_ p))
    && exts.all (fun (e : Nat × Nat × Nat) => decide (e.2.1 + e.2.2 ≤ 1536)) && extentsApart exts
    && pens.all (fun p => num (rec_ p) 28 8 &&& (sig ^^^ (2 ^ 64 - 1)) == 0)
    && apart (fun p q => num (rec_ p) 28 8 &&& num (rec_ q) 28 8 == 0 || (bit (num (rec_ p) 6 2) q && bit (num (rec_ q) 6 2) p))
    && apart (fun p q => num (rec_ p) 36 12 &&& num (rec_ q) 36 12 == 0)
    && apart (fun p q => slice (rec_ p) 12 16 != slice (rec_ q) 12 16)
    && apart (fun p q => !bit (num (rec_ p) 0 1) 1 || !bit (num (rec_ q) 0 1) 1 || slice (rec_ p) 8 4 != slice (rec_ q) 8 4)
    && decide ((pens.map (fun p => num (rec_ p) 4 2)).sum ≤ 960)

/-! ## The update registers (R483) -/

/-- The bank that does not run. -/
def idleBank (s : State) : Nat := 1 - s.boot.bank

/-- The policy slot that does not hold the applied policy. -/
def stagedSlot (s : State) : Nat := match s.boot.policy with
  | some i => 1 - i
  | none => 0

/-- Show the state of the flash in the UPD page. -/
def showUpd (s : State) : State :=
  let f := s.boot.flash
  let s := wr0 (wr0 s updPg F.UPD_BANK0_STATE f.bank0.st) updPg F.UPD_BANK0_TRIAL f.bank0.trial
  let s := wr0 (wr0 s updPg F.UPD_BANK1_STATE f.bank1.st) updPg F.UPD_BANK1_TRIAL f.bank1.trial
  let b := getBank s (idleBank s)
  let s := wr0 s updPg F.UPD_FW_NEXT (if b.st = 0 then 0 else num b.manifest 12 4)
  wr0 (wr0 s updPg F.UPD_POLICY_STAGED (getSlot s (stagedSlot s)).st) updPg F.UPD_POLICY_SLOT (s.boot.policy.getD 0)

end Sys2Proof.Machine
end

