-- ==== Sys2Proof/Machine/Housekeeping.lean ====
section
/-! DEFINITION. The housekeeping converters: rounds, entries, spot requests, sweeps and broken sensors (R417 to R433, R517). -/

namespace Sys2Proof.Machine

/-- A housekeeping unit. -/
def getHk (s : State) (u : Nat) : Hk := getD Hk.init s.hks u

/-- Replace a unit. -/
def putHk (s : State) (u : Nat) (x : Hk) : State := s.setHks (putD Hk.init s.hks u x)

/-- Change a unit. -/
def modHk (s : State) (u : Nat) (g : Hk → Hk) : State := putHk s u (g (getHk s u))

/-- The units run after boot, and through a thermal trip (R451, R458). -/
def hkRuns (s : State) : Bool := (s.boot.up || s.boot.tripped) && !s.boot.romHalt

/-! ## Channels (R419) -/

/-- Kinds of channel. -/
inductive ChKind where
  | temp | volt | droop | ref (k : Nat)
  deriving DecidableEq, Repr

/-- The kind of a channel; none for a reserved one. -/
def chKind (u ch : Nat) : Option ChKind :=
  if u < 2 then
    if ch < 40 then some .temp else if ch < 55 then some .volt else if ch < 63 then some .droop
    else if 64 ≤ ch ∧ ch < 68 then some (.ref (ch - 64)) else none
  else
    if ch < 16 then some .temp else if ch < 22 then some .volt else if ch < 24 then some .droop
    else if ch < 28 then some (.ref (ch - 24)) else none

/-- The T channels of a unit. -/
def tempChannels (u : Nat) : List Nat := if u < 2 then List.range 40 else List.range 16

/-- The ideal code of a reference. -/
def idealCode (k : Nat) : Rat := match k with
  | 0 => 0 | 1 => 1024 | 2 => 2048 | _ => 3584

/-- A scan entry names a channel that converts: D and reserved channels are skipped (R420). -/
def converts (u ch : Nat) : Bool := match chKind u ch with
  | some .droop => false
  | some _ => true
  | none => false

/-- The conversions of an averaging code. -/
def conversions (avg : Nat) : Nat := 2 ^ avg

/-- The first entry from `e` on that converts, among the entries in use. -/
def nextEntry (s : State) (u e : Nat) : Option Nat :=
  (List.range 256).find? (fun i => decide (e ≤ i) && decide (i < rd s (hkPg u) F.HK_SCAN_LEN) && converts u (rd s (hkPg u) F.SCAN_CH i))

/-! ## Converters (R417, R418, R428, R432) -/

/-- A converter is retired. -/
def convRetired (s : State) (u v : Nat) : Bool := rd s (hkPg u) (if v = 0 then F.HK_STATUS_A_RET else F.HK_STATUS_B_RET) == 1

/-- The converter that takes conversion `k` of an entry. -/
def converterOf (s : State) (u k : Nat) : Nat :=
  if convRetired s u 0 then 1 else if convRetired s u 1 then 0 else k % 2

/-- The offset trim of a converter, 1/64 LSB. -/
def hkOffset (s : State) (u v : Nat) : Int := toSigned (rd s (hkPg u) (if v = 0 then F.HK_TRIM_A_O else F.HK_TRIM_B_O)) 12

/-- The gain trim of a converter, unsigned 2.14. -/
def hkGain (s : State) (u v : Nat) : Nat := rd s (hkPg u) (if v = 0 then F.HK_TRIM_A_G else F.HK_TRIM_B_G)

/-- A code under an offset and a gain trim; the order, offset first, is that of R49. -/
def hkTrimmed (o : Int) (g : Nat) (x : Rat) : Rat := (x - (o : Rat) / 64) * ((g : Rat) / 16384)

/-- The mean of a list; 0 for an empty one. -/
def mean (xs : List Rat) : Rat := xs.sum / (xs.length : Rat)

/-- The trimmed codes of an entry with the converter of each. -/
def trimmedCodes (s : State) (u : Nat) (codes : List Nat) : List (Nat × Rat) :=
  codes.zipIdx.map (fun c => let v := converterOf s u c.2; (v, hkTrimmed (hkOffset s u v) (hkGain s u v) (c.1 : Rat)))

/-! ## Publishing (R418, R430, R433, R517) -/

/-- The unit has failed and publishes nothing more (R432). -/
def unitFailed (s : State) (u : Nat) : Bool := rd s (hkPg u) F.HK_STATUS_UNIT_FAIL == 1

/-- The number of the round in progress, or of the last one. -/
def roundNo (x : Hk) : Nat := x.round - 1

/-- Publish a channel's register: all its fields at once. -/
def publish (s : State) (u ch v : Nat) (fault : Bool) : State :=
  let pg := hkPg u
  let s := wr (wr s pg F.TELEM_VALUE ch v) pg F.TELEM_STALE ch 0
  let s := wr (wr s pg F.TELEM_FAULT ch (b2n fault)) pg F.TELEM_NEVER ch 0
  wr s pg F.TELEM_ROUND ch (roundNo (getHk s u))

/-- What a broken channel publishes: 125 °C with FAULT. -/
def publishBroken (s : State) (u ch : Nat) : State := publish s u ch 0x07D0 true

/-- A T channel passes both tests of R433. -/
def tempOk (raw : Rat) (v : Int) : Bool := decide (8 < raw) && decide (raw < 4087) && decide (-640 ≤ v) && decide (v ≤ 2400)

/-- The result of a T channel: its published value and whether it is broken. -/
def takeTemp (s : State) (u ch : Nat) (raw : Rat) (v : Int) : State :=
  let x := getHk s u
  let ok := tempOk raw v
  let was := getD 0 x.broken ch
  if was = 0 ∧ ok then publish (putHk s u { x with seen := insKey x.seen ch v }) u ch (ofSigned v 16) false
  else
    let x := { x with broken := insKey x.broken ch (max 1 was), tested := insKey x.tested ch (getD true x.tested ch && ok), seen := dropKey x.seen ch
                      lastSeen := dropKey x.lastSeen ch }
    publishBroken (putHk s u x) u ch

/-- A reference entry checks each converter that took part (R431). -/
def takeRef (s : State) (u k : Nat) (codes : List (Nat × Rat)) : State :=
  modHk s u (fun x =>
    let used := [0, 1].filter (fun v => codes.any (fun c => c.1 == v))
    let off := used.filter (fun v => decide (8 < absR (mean ((codes.filter (fun c => c.1 == v)).map (·.2)) - idealCode k)))
    { x with missNow := x.missNow ++ off })

/-- The value of a channel in the units of its register, from the mean of its trimmed codes (R418). -/
def hkValue (s : State) (u ch : Nat) (m : Rat) : Int :=
  rne (Config.housekeeping (getHk s u).tables (getD [] (getHk s u).coefs ch) u ch m)

/-- The value of an entry is published when it ends; the answer is the value (R418). -/
def takeEntry (s : State) (u ch : Nat) (codes : List Nat) : Nat × State :=
  let cs := trimmedCodes s u codes
  let m := mean (cs.map (·.2))
  let raw := mean (codes.map (fun c => (c : Rat)))
  if unitFailed s u then (rd s (hkPg u) F.TELEM_VALUE ch, s)
  else match chKind u ch with
    | some .temp =>
      let s := takeTemp s u ch raw (hkValue s u ch m)
      (rd s (hkPg u) F.TELEM_VALUE ch, s)
    | some .volt => let v := ofSigned (hkValue s u ch m) 16; (v, publish s u ch v false)
    | some (.ref k) => let v := ofSigned (rne m) 16; (v, publish (takeRef s u k cs) u ch v false)
    | _ => (0, s)

/-! ## Rounds (R420, R421, R426) -/

/-- Show what the unit does in HK_STATUS. -/
def showHk (s : State) (u : Nat) : State :=
  let x := getHk s u
  let s := wr0 s (hkPg u) F.HK_STATUS_STATE (if x.capture = 2 then 3 else if x.sweep = 2 then 2 else if x.busy || !x.spots.isEmpty then 1 else 0)
  wr0 (wr0 s (hkPg u) F.HK_STATUS_ENTRY x.entry) (hkPg u) F.HK_STATUS_ROUND (roundNo x)

/-- A trigger of a sweep; it has no effect while one is pending or running (R427). -/
def triggerSweep (s : State) (u : Nat) : State := modHk s u (fun x => if x.sweep = 0 then { x with sweep := 1 } else x)

/-- The die temperature of a round: the mean of its valid T channels, 1/16 °C; none without one (R427). -/
def dieTemp (seen : SMap Int) : Option Rat := if seen.isEmpty then none else some (mean (seen.map (fun e => (e.2 : Rat))))

/-- A converter that has missed references in three rounds in a row, be they the same or not, calls for a sweep (R431). -/
def endRefs (x : Hk) : SMap Nat :=
  [0, 1].foldl (fun m v => putD 0 m v (if x.missNow.contains v then getD 0 x.miss v + 1 else 0)) []

/-- Broken channels that have passed in 16 rounds in a row return to their measured values (R433). -/
def endBroken (x : Hk) : SMap Nat :=
  x.broken.foldl (fun m e =>
    let n := if (x.tested.any (fun t => t.1 == e.1)) && getD false x.tested e.1 then e.2 + 1 else 1
    if 17 ≤ n then m else insKey m e.1 n) []

/-- A round ends: it counts, and it may call for a sweep. Spot requests in progress go on (R424). -/
def endRound (s : State) (u : Nat) : State :=
  let x := getHk s u
  let miss := endRefs x
  let s := putHk (bump s (hkPg u) F.HK_ROUND_CNT) u
    { x with busy := false, on := x.on && !x.spots.isEmpty, entry := 0, miss := miss, broken := endBroken x, lastSeen := x.seen }
  let moved := match dieTemp x.seen with
    | some t => decide (80 < absR (t - (toSigned (rd s (hkPg u) F.HK_CAL_TEMP) 16 : Rat)))
    | none => false
  if moved || miss.any (fun e => decide (3 ≤ e.2)) then triggerSweep s u else s

/-- The status of SPOT_RESULT for a request from SPOT_REQ. -/
def spotStatus (s : State) (u st : Nat) (own : Bool) : State := if own then wr0 s (hkPg u) F.SPOT_RESULT_STATUS st else s

/-- The queued spot requests are dropped as a privileged sequence starts (R425). -/
def dropSpots (s : State) (u : Nat) : State :=
  let s := forEach s (getHk s u).spots (fun s q => spotStatus (bump s (hkPg u) F.SPOT_DROP) u 3 q.own)
  modHk s u (fun x => { x with spots := [] })

/-- The droop capture of a round starts: the integrators freeze in one cycle (R425, R426). -/
def startCapture (s : State) (u : Nat) : State := modHk (dropSpots s u) u (fun x => { x with capture := 2, on := false })

/-- The D channels of a unit (R419). -/
def droopChannels (u : Nat) : List Nat := (List.range 128).filter (fun ch => chKind u ch == some .droop)

/-- The entries of a round begin, or the round ends at once when none converts. -/
def beginEntries (s : State) (u : Nat) : State := match nextEntry s u 0 with
  | some e => modHk s u (fun y => { y with entry := e, on := y.sweep == 0 })
  | none => endRound s u

/-- The droop capture ends: each integrator has been converted once and starts anew, and power management has the readings (R426). -/
def endCapture (s : State) (u : Nat) (codes : List Nat) : State :=
  let s := s.setPower { s.power with readings := putD [] s.power.readings u codes }
  beginEntries (modHk s u (fun x => { x with capture := 0 })) u

/-- A round starts. Every 2^CAP_DIV rounds a droop capture runs before entry 0, once no spot request is in progress (R425, R426). -/
def startRound (s : State) (u : Nat) (late : Bool) : State :=
  let x := getHk s u
  let s := if late then bump s (hkPg u) F.HK_OVERRUN else s
  let s := putHk s u { x with busy := true, on := true, late := false, round := x.round + 1, started := true,
                              low := rd s (hkPg u) F.HK_CTRL_LOWPWR == 1, seen := [], missNow := [], tested := [] }
  if x.round % 2 ^ rd s (hkPg u) F.HK_CTRL_CAP_DIV = 0 then
    (if x.spots.isEmpty then startCapture s u else modHk s u (fun y => { y with capture := 1 }))
  else beginEntries s u

/-- The unit goes on: a round that waits starts once nothing keeps it back (R421, R425). -/
def goOn (s : State) (u : Nat) : State :=
  let x := getHk s u
  showHk (if x.late && !x.busy && x.sweep == 0 then startRound s u true else s) u

/-- HK_ROUND_START (R421): the tally timebase reaches a multiple of ROUND_US. -/
def execHkRoundStart (unit : Fin 3) (s : State) : Host.Outcome State Fault Refusal :=
  if hkRuns s then
    let x := getHk s unit
    .next (if x.busy || x.sweep != 0 then putHk s unit { x with late := true } else showHk (startRound s unit false) unit)
  else .next s

/-- The next entry of the round is converted, or the round ends. A pending sweep comes first (R425). -/
def advance (s : State) (u : Nat) : State :=
  let x := getHk s u
  let s := match nextEntry s u (x.entry + 1) with
    | some e => putHk s u { x with entry := e, on := x.sweep == 0 }
    | none => endRound s u
  goOn s u

/-- The next request in a queue that arrived before the trigger of the sequence that waits, if one does (R425). -/
def nextSpot (spots : List Spot) : Bool := spots.head?.any (fun q => !q.after)

/-- A spot request ends. The requests that arrived before the trigger of a sequence that waits are served before it (R424, R425). -/
def endSpot (s : State) (u : Nat) (q : Spot) (codes : List Nat) : State :=
  let (v, s) := takeEntry s u q.ch codes
  let s := if q.own then wr0 (wr0 s (hkPg u) F.SPOT_RESULT_VALUE v) (hkPg u) F.SPOT_RESULT_STATUS 2 else s
  let s := modHk s u (fun x => { x with spots := x.spots.tail, on := nextSpot x.spots.tail || (x.sweep == 0 && x.busy) })
  goOn (if (getHk s u).capture = 1 ∧ !nextSpot (getHk s u).spots then startCapture s u else s) u

/-- HK_ENTRY_END (R417, R418, R424, R426): the 12-bit codes are those of the entry's conversions, in order, or of a capture's D channels. -/
def execHkEntryEnd (unit : Fin 3) (codes : List (BitVec 12)) (s : State) : Host.Outcome State Fault Refusal :=
  let x := getHk s unit
  let codes := codes.map (·.toNat)
  if hkRuns s && x.capture == 2 then
    .next (if codes.length = (droopChannels unit).length then goOn (endCapture s unit codes) unit else s)
  else if hkRuns s && x.on then
    match x.spots with
    | q :: _ => .next (if codes.length = conversions q.avg then endSpot s unit q codes else s)
    | [] =>
      .next (if x.busy && codes.length == conversions (rd s (hkPg unit) F.SCAN_AVG x.entry) then
        advance (takeEntry s unit (rd s (hkPg unit) F.SCAN_CH x.entry) codes).2 unit
      else s)
  else .next s

/-! ## Spot requests (R423 to R425) -/

/-- A spot request arrives; one that starts the queue abandons the entry in progress. -/
def addSpot (s : State) (u : Nat) (q : Spot) : State :=
  let x := getHk s u
  if x.sweep = 2 ∨ x.capture = 2 then spotStatus (bump s (hkPg u) F.SPOT_DROP) u 3 q.own
  else if 4 ≤ x.spots.length then spotStatus (bump s (hkPg u) F.SPOT_OVF) u 3 q.own
  else
    let s := putHk s u { x with
      spots := x.spots ++ [{ q with after := x.sweep != 0 || x.capture != 0 }], on := if x.spots.isEmpty then x.sweep == 0 else x.on }
    showHk (spotStatus s u 1 q.own) u

/-- SPOT_REQUEST (R423): from the thermal and power logic or the Zenmi controller. -/
def execSpotRequest (unit : Fin 3) (ch : Fin 128) (avg : Fin 4) (s : State) : Host.Outcome State Fault Refusal :=
  .next (if hkRuns s then addSpot s unit { ch := ch, avg := avg, own := false } else s)

/-- SPOT_REQ_START (R423): a write of 1 to SPOT_REQ [9]. -/
def execSpotReqStart (src : Source) (unit : Fin 3) (s : State) : Host.Outcome State Fault Refusal :=
  .next (onPage s src (hkPg unit) (fun s =>
    if hkRuns s then addSpot s unit { ch := rd s (hkPg unit) F.SPOT_REQ_CH, avg := rd s (hkPg unit) F.SPOT_REQ_AVG, own := true } else s))

/-! ## Sweeps (R427 to R432) -/

/-- HK_CAL_FORCE (R427). -/
def execHkCalForce (src : Source) (unit : Fin 3) (s : State) : Host.Outcome State Fault Refusal :=
  .next (onPage s src (hkPg unit) (fun s => if hkRuns s then triggerSweep s unit else s))

/-- SWEEP_START (R425, R428, R430): queued spot requests are dropped, and every telemetry register is STALE. -/
def execSweepStart (unit : Fin 3) (s : State) : Host.Outcome State Fault Refusal :=
  let x := getHk s unit
  if hkRuns s && x.sweep == 1 && !x.on && x.capture == 0 then
    let s := modHk (dropSpots s unit) unit (fun y => { y with sweep := 2 })
    let s := forEach s (List.range 128) (fun s ch => wr s (hkPg unit) F.TELEM_STALE ch 1)
    .next (showHk s unit)
  else .next s

/-- Candidate trims of a converter by least squares over the four references: offset and gain (R428). -/
def hkFit (ms : List Rat) : Int × Nat :=
  let ys := (List.range 4).map idealCode
  let mx := mean ms
  let my := mean ys
  let g := ((ms.zip ys).map (fun e => (e.1 - mx) * (e.2 - my))).sum / ((ms.map (fun x => (x - mx) * (x - mx))).sum)
  (rne ((mx - my / g) * 64), (rne (g * 16384)).toNat)

/-- The seeds of a converter in the package record (R457). -/
def hkSeed (s : State) (u v : Nat) : Int × Nat := getD (0, 16384) s.boot.record.hkSeeds (2 * u + v)

/-- The limit of R428 that a candidate set fails: 1 offset, 2 gain, 3 reference; 0 when it passes. -/
def hkLimit (s : State) (u v : Nat) (ms : List Rat) : Nat :=
  let (o, g) := hkFit ms
  let (so, sg) := hkSeed s u v
  if 768 < (o - so).natAbs then 1
  else if 1 / 100 < absR ((g : Rat) / (sg : Rat) - 1) then 2
  else if ms.zipIdx.any (fun e => decide (3 / 2 < absR (hkTrimmed o g e.1 - idealCode e.2))) then 3
  else 0

/-- Apply the trims of a converter. -/
def applyFit (s : State) (u v : Nat) (ms : List Rat) : State :=
  let (o, g) := hkFit ms
  if v = 0 then wr0 (wr0 s (hkPg u) F.HK_TRIM_A_O (ofSigned o 12)) (hkPg u) F.HK_TRIM_A_G g
  else wr0 (wr0 s (hkPg u) F.HK_TRIM_B_O (ofSigned o 12)) (hkPg u) F.HK_TRIM_B_G g

/-- A sweep of which every set passes: the trims, the die temperature and the count. Without a valid T channel in the last
round that has ended the spec gives the die temperature no value, so it is free. -/
def acceptSweep (s : State) (u : Nat) (sets : List (Nat × List Rat)) : State :=
  let s := forEach s sets (fun s e => applyFit s u e.1 e.2)
  let (t, s) := match dieTemp (getHk s u).lastSeen with
    | some t => (ofSigned (rne t) 16, s)
    | none => drawNat s
  bump (wr0 s (hkPg u) F.HK_CAL_TEMP t) (hkPg u) F.HK_CAL_CNT

/-- The unit has failed: every T channel reads 125 °C with FAULT (R432, R433). -/
def failUnit (s : State) (u : Nat) : State :=
  let s := logWrite (errEvent s (hkPg u) 4) (hkPg u) 0x71 0xFF [(32, 2)]
  let s := forEach s (tempChannels u) (fun s ch => publishBroken s u ch)
  let s := modHk s u (fun x => { x with seen := [], lastSeen := [] })
  wr0 s (hkPg u) F.HK_STATUS_UNIT_FAIL 1

/-- Retire a converter; its partner's candidate trims apply (R432). -/
def retireConverter (s : State) (u v : Nat) (sets : List (Nat × List Rat)) : State :=
  let s := wr0 s (hkPg u) (if v = 0 then F.HK_STATUS_A_RET else F.HK_STATUS_B_RET) 1
  let s := logWrite (errEvent s (hkPg u) 4) (hkPg u) 0x71 0xFF [(32, v)]
  forEach s (sets.filter (fun e => e.1 != v)) (fun s e => applyFit s u e.1 e.2)

/-- A sweep of which a set fails (R429, R432). -/
def rejectSweep (s : State) (u : Nat) (sets : List (Nat × List Rat)) : State :=
  let bad := sets.filter (fun e => hkLimit s u e.1 e.2 != 0)
  let s := wr0 (bump s (hkPg u) F.HK_CAL_REJ) (hkPg u) F.HK_STATUS_CAL_REJ 1
  let s := match bad.head? with
    | some e => logWrite (errEvent s (hkPg u) 3) (hkPg u) 0x70 0xFF [(32, e.1), (33, hkLimit s u e.1 e.2)]
    | none => s
  let who := if bad.length = sets.length then 2 else (bad.head?.map (·.1)).getD 0
  let n := getD 0 (getHk s u).failed who + 1
  let s := modHk s u (fun x => { x with failed := insKey [] who n })
  if n < 3 then s else if who = 2 then failUnit s u else retireConverter s u who sets

/-- SWEEP_END (R429, R432): the mean codes of the four references on each converter. -/
def execSweepEnd (unit : Fin 3) (a b : List Rat) (s : State) : Host.Outcome State Fault Refusal :=
  if hkRuns s && (getHk s unit).sweep == 2 then
    let sets := [(0, a), (1, b)].filter (fun e => !convRetired s unit e.1)
    let s := modHk s unit (fun x => { x with sweep := 0, on := x.busy })
    let s := if sets.any (fun e => hkLimit s unit e.1 e.2 != 0) then rejectSweep s unit sets
      else acceptSweep (modHk s unit (fun x => { x with failed := [] })) unit sets
    .next (goOn s unit)
  else .next s

/-- SENSOR_PUBLISH_TIMEOUT (R517): 10 ms after the first round of its unit, a fold's channel is still unpublished. -/
def execSensorPublishTimeout (fold : Fin 68) (s : State) : Host.Outcome State Fault Refusal :=
  let u := dieOf fold
  let ch := foldChannel fold
  if (getHk s u).started && rd s (hkPg u) F.TELEM_NEVER ch == 1 then
    .next (publishBroken (modHk s u (fun x => { x with broken := insKey x.broken ch 1 })) u ch)
  else .next s

/-- HBM_TEMP_REPORT (R252, R262, R419, R460): a stack's own report, in 1/16 °C. -/
def execHbmTempReport (stack : Fin 8) (t : Int) (s : State) : Host.Outcome State Fault Refusal :=
  .next (if s.boot.romHalt then s else wr0 (wr0 s (hbmPg stack) F.HBM_TEMP_T (ofSigned t 16)) (hbmPg stack) F.HBM_TEMP_DOUBLED (b2n (decide (1360 < t))))

end Sys2Proof.Machine
end

