-- ==== Sys2Proof/Machine/PowerOps.lean ====
section
/-! DEFINITION. Performance states, voltage and margin, the power cap, droop, alerts and the thermal throttle (R436 to R449). -/

namespace Sys2Proof.Machine

/-! ## Voltage and margin (R437 to R439) -/

/-- Power management runs: the device is up. -/
def powerRuns (s : State) : Bool := s.boot.up && !s.boot.romHalt

/-- The margin of a die. -/
def getMargin (s : State) (die : Nat) : Margin := getD Margin.init s.power.margins die

/-- Replace a margin. -/
def putMargin (s : State) (die : Nat) (m : Margin) : State :=
  s.setPower { s.power with margins := putD Margin.init s.power.margins die m }

/-- The margin offset of a rail: rails 0 and 1 feed the compute dies, rail 2 the IOD, which has no replicas (R439, R504). -/
def railOffset (s : State) (rail : Nat) : Nat := if rail < 2 then (getMargin s rail).off else 0

/-- Command a rail to the voltage of a state, an entry of the voltage table (R437, R375). -/
def commandRail (s : State) (rail p : Nat) : State :=
  if 7 < p then accessError s pwrPg 0 (.core 0) 3 p
  else
    let mv := rd s pwrPg F.VTAB p - railOffset s rail
    let s := s.setPower { s.power with volts := putD 0 s.power.volts rail mv, waits := s.power.waits ||| 2 ^ rail }
    emit s (.avs rail mv)

/-- Command every core rail to the voltage of a state. -/
def commandState (s : State) (p : Nat) : State := forEach s (List.range 3) (fun s r => commandRail s r p)

/-- The state whose voltage the rails follow. -/
def voltageState (s : State) : Nat := match s.power.rise with
  | some (p, _) => p
  | none => s.power.state

/-- Command a die's rail anew after a change of its offset; an alert keeps the voltage in force (R447). -/
def followMargin (s : State) (die : Nat) : State :=
  if s.power.alert = 0 then commandRail s die (voltageState s) else s

/-- AVS_COMPLETE (R437): the last rail's report starts the settling of a state that is being raised. -/
def execAvsComplete (rail : Fin 3) (s : State) : Host.Outcome State Fault Refusal :=
  let left := if bit s.power.waits rail then s.power.waits - 2 ^ rail.val else s.power.waits
  let rise := match s.power.rise with
    | some (p, 0) => if left = 0 then some (p, 1) else some (p, 0)
    | r => r
  .next (s.setPower { s.power with waits := left, rise := rise })

/-- VOLTAGE_SETTLED (R438): the frequency change falls due at the next tick boundary. -/
def execVoltageSettled (s : State) : Host.Outcome State Fault Refusal :=
  match s.power.rise with
  | some (p, 1) => .next (s.setPower { s.power with rise := some (p, 2) })
  | _ => .next s

/-- AVS_TIMEOUT (R437): a command is out and 1 ms has passed. During an alert the voltage stays, so that no command follows (R447). -/
def execAvsTimeout (s : State) : Host.Outcome State Fault Refusal :=
  if s.power.waits = 0 then .next s
  else
    let s := s.setPower { s.power with rise := none, waits := 0, backoff := 100 }
    .next (if s.power.alert = 0 then commandState s s.power.state else s)

/-- One interval of boot learning (R439); it ends at MARGIN_MAX too. -/
def learnMargin (m : Margin) (top : Nat) (guardFail : Bool) : Margin :=
  if guardFail then { off := m.off - 5, learn := false, run := 0 }
  else if m.run + 1 < 10 then { m with run := m.run + 1 }
  else if m.off + 5 ≤ top then { m with off := m.off + 5, run := 0 }
  else { m with learn := false, run := 0 }

/-- One interval of service (R439). -/
def serveMargin (m : Margin) (top : Nat) (guardFail tightFail : Bool) : Margin :=
  if guardFail then { m with off := m.off - 5, run := 0 }
  else if tightFail then { m with run := 0 }
  else if m.run + 1 < 1000 then { m with run := m.run + 1 }
  else { m with off := if m.off + 5 ≤ top then m.off + 5 else m.off, run := 0 }

/-- MARGIN_INTERVAL (R439): whether a replica of the die failed the guard or the tight margin. -/
def execMarginInterval (die : Fin 2) (guardFail tightFail : Bool) (s : State) : Host.Outcome State Fault Refusal :=
  if powerRuns s && rd s pwrPg F.PWR_MARGIN == 1 then
    let m := getMargin s die
    let top := rd s pwrPg F.MARGIN_MAX
    let m' := if m.learn then learnMargin m top guardFail else serveMargin m top guardFail tightFail
    let s := putMargin s die m'
    .next (if m'.off = m.off then s else followMargin s die)
  else .next s

/-- MARGIN_EN written; 0 sets the offsets to 0 at once (R453). -/
def writeMargin (on : Bool) (s : State) : State :=
  let s := wr0 s pwrPg F.PWR_MARGIN (b2n on)
  if on then s else forEach s [0, 1] (fun s die =>
    if (getMargin s die).off = 0 then putMargin s die { getMargin s die with learn := false, run := 0 }
    else followMargin (putMargin s die { off := 0, learn := false, run := 0 }) die)

/-- MARGIN_EN (R439, R453). -/
def execMarginEn (src : Source) (on : Bool) (s : State) : Host.Outcome State Fault Refusal := .next (onPage s src pwrPg (writeMargin on))

/-! ## The power cap (R441) -/

/-- What has been counted since reset: on the folds, and on the links (R441). -/
def spentSoFar (s : State) : Spent :=
  s.links.foldl (fun t e => { t with flits := t.flits + e.2.flits }) (s.folds.foldl (fun t e => t.add e.2.spent) Spent.zero)

/-- The power of what a 1 ms bin counts, W (R441; the coefficients in J: DESIGN CHOICE, log entry 117). -/
def countedPower (e : List Rat) (x : Spent) : Rat :=
  1000 * ((x.convs : Rat) * e.getD 0 0 + (x.loads : Rat) * e.getD 1 0 + (x.hbm : Rat) * e.getD 2 0 + (x.flits : Rat) * e.getD 3 0)

/-- The valid temperatures of a die, 1/16 °C. -/
def validTemps (s : State) (u : Nat) : List Int :=
  (tempChannels u).filterMap (fun ch =>
    if rd s (hkPg u) F.TELEM_NEVER ch = 1 ∨ rd s (hkPg u) F.TELEM_FAULT ch = 1 then none
    else some (toSigned (rd s (hkPg u) F.TELEM_VALUE ch) 16))

/-- The largest of a list of numbers. -/
def topOf (xs : List Int) : Option Int := xs.foldl (fun m x => some (match m with | some y => max x y | none => x)) none

/-- The leakage of the three dies, W (R441). -/
def leakage (s : State) : Rat := ((List.range 3).map (fun u => Config.leakage s.boot.record.bytes u (topOf (validTemps s u)))).sum

/-- POWER_BIN (R441): the HBM bytes that the IOD has moved in the bin are what happened, so they are free (log entry 117). -/
def execPowerBin (s : State) : Host.Outcome State Fault Refusal :=
  if powerRuns s then
    let (v, s) := drawNat s
    let total := spentSoFar s
    let x := total.since s.power.spent
    let w := countedPower s.power.energy { x with hbm := x.hbm + v } + leakage s
    .next (s.setPower { s.power with
      bins := (w :: s.power.bins).take 1000, spent := total, since := min 100 (s.power.since + 1), backoff := s.power.backoff - 1 })
  else .next s

/-- The mean of the last `n` bins, or of all of them when there are fewer. -/
def meanBins (s : State) (n : Nat) : Rat := mean (s.power.bins.take n)

/-- The active droves. -/
def activeDroves (s : State) : List Drove := (s.droves.filter (fun e => e.2.st == 3)).map (·.2)

/-- A power credit is held in the current tick (R444). -/
def creditHeld (s : State) : Bool := decide (0 < s.tally.credit) && decide (s.tally.num ≤ s.tally.credit)

/-- The budget B, W (R441). -/
def budget (s : State) : Nat :=
  let b := if noDrove s then rd s pwrPg F.PWR_LIMIT else ((activeDroves s).map (·.sustained)).sum
  min 2200 (b + if creditHeld s then s.tally.creditW else 0)

/-- The peak budget, W; 2,600 when no drove is active. -/
def peakBudget (s : State) : Nat := if noDrove s then 2600 else min 2600 (((activeDroves s).map (·.peak)).foldl max 0)

/-- The estimate exceeds the sustained or the peak budget. -/
def overBudget (s : State) : Bool :=
  decide ((budget s : Rat) < meanBins s 1000) || decide ((peakBudget s : Rat) < meanBins s 10)

/-- The estimate leaves room for a faster state. -/
def underBudget (s : State) : Bool :=
  decide (meanBins s 100 ≤ (budget s : Rat) * (95 / 100)) && decide (meanBins s 10 ≤ (peakBudget s : Rat))

/-- The target state before the power cap (R440). -/
def targetState (s : State) : Nat :=
  let p := if noDrove s then 2 else tickP s
  if creditHeld s then p - 1 else p

/-- The cap after a boundary: states below the target. -/
def nextCap (s : State) : Nat :=
  let t := targetState s
  if overBudget s then min 7 (s.power.state + 1) - t
  else if s.power.cap = 0 ∨ s.power.since < 100 ∨ 0 < s.power.backoff ∨ s.power.state ≠ min 7 (t + s.power.cap) ∨ !underBudget s then s.power.cap
  else s.power.cap - 1

/-- The state in force changes. -/
def enterState (s : State) (p : Nat) : State := s.setPower { s.power with state := p, rise := none, since := 0 }

/-- The frequency and voltage order of R438 towards a state. -/
def moveTo (s : State) (p : Nat) : State :=
  if s.power.state < p then commandState (enterState s p) p
  else if p < s.power.state then
    if 0 < s.power.backoff then s
    else match s.power.rise with
      | some (q, n) => if q ≠ p then commandState (s.setPower { s.power with rise := some (p, 0) }) p else if n = 2 then enterState s p else s
      | none => commandState (s.setPower { s.power with rise := some (p, 0) }) p
  else match s.power.rise with
    | some _ => commandState (s.setPower { s.power with rise := none }) p
    | none => s

/-- The choice of the state at a tick boundary (R438, R440 to R442, R447). -/
def boundaryState (s : State) : State :=
  if s.power.alert = 3 then
    let p := min 7 (targetState s + s.power.cap)
    commandState ((enterState s p).setPower { (enterState s p).power with alert := 0 }) p
  else if 0 < s.power.alert ∨ s.power.droop then s
  else
    let s := s.setPower { s.power with cap := nextCap s }
    moveTo s (min 7 (targetState s + s.power.cap))

/-! ## The thermal throttle (R448, R449) -/

/-- Comparators of a die that are disabled, as a mask (R450). -/
def compOff (s : State) (die : Nat) : Nat :=
  rd s thermPg (if die = 0 then F.COMP_OFF_CD0 else if die = 1 then F.COMP_OFF_CD1 else F.COMP_OFF_IOD)

/-- The number of disabled comparators of a die. -/
def compsDisabled (s : State) (die : Nat) : Nat := ((List.range 8).filter (fun k => bit (compOff s die) k)).length

/-- The readings of a unit that the throttle takes, 1/16 °C. -/
def throttleReadings (s : State) (u : Nat) : List Int :=
  (tempChannels u).filterMap (fun ch =>
    if unitFailed s u then some 2000
    else if rd s (hkPg u) F.TELEM_NEVER ch = 1 then none
    else if rd s (hkPg u) F.TELEM_FAULT ch = 1 then (if 2 < compsDisabled s u then some 2000 else none)
    else some (toSigned (rd s (hkPg u) F.TELEM_VALUE ch) 16))

/-- The hottest reading T, 1/16 °C. -/
def hottest (s : State) : Int :=
  let ts := (List.range 3).flatMap (throttleReadings s) ++ (List.range 8).map (fun k => toSigned (rd s (hbmPg k) F.HBM_TEMP_T) 16)
  ts.foldl max (ts.headD 0)

/-- The throttle level at a reading. -/
def throttleLevel (t : Int) : Nat := min 48 ((t - 1520) * 3 / 10).toNat

/-- The throttle level is set at a tick boundary. -/
def boundaryThrottle (s : State) : State :=
  let t := hottest s
  (wr0 s thermPg F.THERM_TMAX (ofSigned t 16)).setPower { s.power with throttle := throttleLevel t }

/-! ## Droop and alerts (R445 to R447) -/

/-- DROOP_TRIP (R445): the core clock period doubles; an alert makes the device ignore the detectors. -/
def execDroopTrip (_die : Fin 2) (s : State) : Host.Outcome State Fault Refusal :=
  .next (if powerRuns s && s.power.alert == 0 then
    let s := passStretch s
    s.setPower { s.power with droop := true, stretched := 0 }
  else s)

/-- A stretch ends. What is not in the tick's time yet is what happened: at least what 64 stretched cycles since the last trip lack
(R445, R446). -/
def endStretch (s : State) : State :=
  if s.power.droop then
    let (v, s) := drawNat s
    let s := stretchBy s (max v (64 - s.power.stretched))
    s.setPower { s.power with droop := false, stretched := 0 }
  else s

/-- DROOP_STRETCH_END (R445): the prediction of the beat counts the time that the stretch has taken (R446). -/
def execDroopStretchEnd (s : State) : Host.Outcome State Fault Refusal := .next (if s.power.droop then predict (endStretch s) else s)

/-- An alert ends a stretch at the switch, however long it has lasted (R447). -/
def cutStretch (s : State) : State :=
  let s := passStretch s
  s.setPower { s.power with droop := false, stretched := 0 }

/-- The switch to the P7 clock away from a boundary. The cycles that the tick has run before it are what happened, so they are
free; they took less time than at P7 (R447). -/
def alertSwitch (s : State) : State :=
  let s := cutStretch s
  let (v, s) := drawNat s
  let n := v % (64 * tickN s + 1)
  let gain := unitsOf n 7 - unitsOf n s.power.state
  predict ((s.setPower { s.power with state := 7, rise := none, since := 0 }).setPause { s.pause with saved := s.pause.saved + gain })

/-- REG_ALERT_ASSERT (R447, R513). -/
def execRegAlertAssert (n : Fin 4) (s : State) : Host.Outcome State Fault Refusal :=
  let was := s.power.alert
  let s := s.setPower { s.power with inputs := s.power.inputs ||| 2 ^ n.val }
  if powerRuns s then
    let s := s.setPower { s.power with alert := 1 }
    .next (if was = 0 then alertSwitch s else s)
  else .next s

/-- REG_ALERT_RELEASE (R447): the last of the four inputs has been released. -/
def execRegAlertRelease (s : State) : Host.Outcome State Fault Refusal :=
  .next (s.setPower { s.power with inputs := 0, alert := if s.power.alert = 1 then 2 else s.power.alert })

/-- ALERT_HOLD_END (R447): 100 µs have passed since the release. -/
def execAlertHoldEnd (s : State) : Host.Outcome State Fault Refusal :=
  .next (if s.power.alert = 2 then s.setPower { s.power with alert := 3 } else s)

end Sys2Proof.Machine
end

