-- ==== Sys2Proof/Machine/Boot.lean ====
section
/-! DEFINITION. Resets and the boot sequence (R455 to R467, R476, R480, R497, R504, R506, R507, R513). -/

namespace Sys2Proof.Machine

/-! ## Resets (R455, R456, R480, R497) -/

/-- What no reset touches: the commands that wait, the model's own records, the pins, the package record and the flash. -/
def resetBase (s : State) : State :=
  { State.reset with
    pending := s.pending, free := s.free, out := s.out
    boot := { Boot.init with record := s.boot.record, flash := s.boot.flash, powerOk := s.boot.powerOk, resetN := s.boot.resetN }
    power := { Power.init with inputs := s.power.inputs } }

/-- Keep a register field over a reset. -/
def keepField (old new : State) (pg : Nat) (f : Field) : State := wr0 new pg f (rd old pg f)

/-- The oldest index that pen 0 has not read, after a warm reset (R497). -/
def warmLogRead (s : State) : Nat := if s.views.full then (2 ^ 32 - 32768 + rd s logPg F.LOG_INDEX) % 2 ^ 32 else 0

/-- The state that keeps the log and the reset-cause fields (R456, R487, R497). -/
def keepLog (s : State) : State :=
  let t := resetBase s
  let t := (t.setLog s.log).setViews { Views.init with full := s.views.full }
  let t := keepField s (keepField s t logPg F.LOG_INDEX) logPg F.LOG_OVERRUN
  keepField s (keepField s (keepField s t bootPg F.RESET_CAUSE_LAST) bootPg F.RESET_CAUSE_PREV) bootPg F.RESET_CAUSE_WARM

/-- A warm reset with a cause: its first log entry names the cause and the last boot's status (R455, R456, R480). -/
def warmReset (s : State) (cause : Nat) : State :=
  let t := wr0 (keepLog s) logPg F.LOG_READ (warmLogRead s)
  let t := wr0 t bootPg F.RESET_CAUSE_PREV (rd s bootPg F.RESET_CAUSE_LAST)
  let t := wr0 t bootPg F.RESET_CAUSE_LAST cause
  let t := wr0 t bootPg F.RESET_CAUSE_WARM (min 255 (rd s bootPg F.RESET_CAUSE_WARM + 1))
  logWrite t bootPg 0x88 0xFF [(32, cause), (33, rd s bootPg F.BOOT_STATUS_STATUS)]

/-- Reset is released. -/
def released (s : State) : Bool := s.boot.waiting || s.boot.up || s.boot.romHalt

/-- The device is in reset, so that another cause may have acted in the same cycle as the one recorded (R455). -/
def inReset (s : State) : Bool := s.boot.powerOk && !released s && !s.boot.tripped

/-- A cause acts in the same cycle as the one recorded: the lowest code stands, in RESET_CAUSE and in the RESET entry (R455, R480). -/
def joinReset (s : State) (cause : Nat) : State :=
  let was := rd s bootPg F.RESET_CAUSE_LAST
  if was ≤ cause then s
  else
    let i := (rd s logPg F.LOG_INDEX + 32767) % 32768
    let s := s.setLog (putD 0 s.log i (getD 0 s.log i - (was - cause) * 2 ^ 256))
    wr0 s bootPg F.RESET_CAUSE_LAST cause

/-- A cause of a warm reset acts. While the device is in reset, whether it is in the cycle of the cause before it is what happened, so that
it is free (DESIGN CHOICE, log entry 120). -/
def actReset (s : State) (cause : Nat) : State :=
  if inReset s then
    let (v, s) := drawNat s
    if v % 2 = 1 then joinReset s cause else warmReset s cause
  else warmReset s cause

/-- A cold reset, with PWR_OK at a level: it keeps only the flash (R456). -/
def coldReset (s : State) (ok : Bool) : State :=
  let t := resetBase s
  t.setBoot { t.boot with powerOk := ok }

/-! ## Stages 1 to 5 (R457 to R462) -/

/-- Store BOOT_STATUS's code. -/
def bootStatus (s : State) (c : Nat) : State := wr0 s bootPg F.BOOT_STATUS_STATUS c

/-- The ROM halts: only the debug port works (R460). -/
def haltRom (s : State) (c : Nat) : State :=
  let s := bootStatus s c
  s.setBoot { s.boot with romHalt := true }

/-- The bank in a state, the lower one first. -/
def bankIn (s : State) (st : Nat) : Option Nat := [0, 1].find? (fun i => (getBank s i).st == st)

/-- Reject the bank of a failed trial. -/
def rejectBank (s : State) (i : Nat) : State := putBank s i ((getBank s i).mark 7 (getBank s i).trial)

/-- The first of the banks in the given states that passes stages 2 and 3 (R459). -/
def firstGood (s : State) : List Nat → Option Nat
  | [] => none
  | st :: r => match bankIn s st with
    | some i => if bankBoots (getBank s i) then some i else firstGood s r
    | none => firstGood s r

/-- The choice of a bank (R459): the bank that boots, whether it is another than the first chosen, and the flash it leaves. -/
def chooseBank (s : State) : Option Nat × Bool × State :=
  let tryIt := fun (s : State) (i : Nat) (b : Bank) =>
    let s := putBank s i b
    if bankBoots b then (some i, false, s) else (firstGood s [5, 6], true, rejectBank s i)
  match bankIn s 3 with
  | some i => tryIt s i ((getBank s i).mark 4 1)
  | none => match bankIn s 4 with
    | some i =>
      if (getBank s i).trial < 2 then tryIt s i ((getBank s i).mark 4 ((getBank s i).trial + 1))
      else (firstGood s [5, 6], true, rejectBank s i)
    | none => match bankIn s 5 with
      | some i => if bankBoots (getBank s i) then (some i, false, s) else (firstGood s [6], true, s)
      | none => (firstGood s [6], true, s)

/-- Give the folds their roles and load the heft registers (R15, R19, R466). -/
def loadHeft (s : State) (r : Record) : State :=
  let s := wrPair s iodPg F.HEFT_SIG_LO F.HEFT_SIG_HI r.sig
  let s := forEach s r.slots (fun s (e : Nat × Nat) => wr (wr s iodPg F.HEFT_SLOT_FOLD e.1 e.2) iodPg F.HEFT_SLOT_EN e.1 1)
  let s := forEach s allFolds (fun s f => match r.slots.find? (fun e => e.2 == f) with
    | some e => setRole s f roleServing (some e.1)
    | none => setRole s f (if r.spares.contains f then roleSpare else roleRetired) none)
  wr0 s iodPg F.HEFT_GEN 1

/-- Stage 3 loads the housekeeping tables of the bank that boots (R458). -/
def loadTables (s : State) : State :=
  let part := (bankPart (getBank s s.boot.bank) 5).getD []
  forEach s (List.range 3) (fun s u => modHk s u (fun x => { x with tables := part }))

/-- The coefficients of a housekeeping unit's channels in the package record (R457). -/
def unitCoefs (r : Record) (u : Nat) : SMap (List Rat) :=
  (r.coefs.filter (fun e => e.1 / 128 == u)).map (fun e => (e.1 % 128, e.2))

/-- The coefficients of the package record that power management and the housekeeping units go by (R457, R458). -/
def loadCoefs (s : State) : State :=
  let s := s.setPower { s.power with energy := s.boot.record.energy }
  forEach s (List.range 3) (fun s u => modHk s u (fun x => { x with coefs := unitCoefs s.boot.record u }))

/-- Stage 4: the registers and coefficients that the record fills; from now on the rails follow VTAB (R458, R504). -/
def stage4 (s : State) : State :=
  let r := s.boot.record
  let s := loadHeft (loadCoefs s) r
  let s := wr0 (wr0 s ethPg F.ETH_MAC_LO r.macBase) ethPg F.ETH_MAC_HI (r.macBase / 2 ^ 32)
  let s := forEach s (List.range 8) (fun s p => wr s pwrPg F.VTAB p (r.vtab.getD p 0))
  let s := wr0 (wr0 s pwrPg F.DROOP_LVL r.droopLvl) pwrPg F.MARGIN_MAX r.marginMax
  let s := forEach s (List.range 3) (fun s u =>
    let (ao, ag) := hkSeed s u 0
    let (bo, bg) := hkSeed s u 1
    let s := wr0 (wr0 s (hkPg u) F.HK_TRIM_A_O (ofSigned ao 12)) (hkPg u) F.HK_TRIM_A_G ag
    wr0 (wr0 s (hkPg u) F.HK_TRIM_B_O (ofSigned bo 12)) (hkPg u) F.HK_TRIM_B_G bg)
  commandState s s.power.state

/-- SK.seed, SK.prf and PK.seed from the PUF's seed (R461). -/
def identityBytes (seed : List Byte) : List Byte := (sha256 (seed ++ [(0 : Byte)]) ++ sha256 (seed ++ [(1 : Byte)])).take 48

/-- The device public key in the certificate (R463). -/
def certKey (cert : List Byte) : List Byte := slice cert 16 32

/-- The rebuilt identity agrees with the certificate. -/
def identityOk (s : State) : Bool := match s.boot.key with
  | some k => Config.slhPublic k == certKey s.boot.record.cert
  | none => false

/-- Stage 5: the device identity. -/
def stage5 (s : State) : State :=
  let s := s.setBoot { s.boot with key := (Config.pufSeed s.boot.record.puf).map identityBytes }
  wr0 s bootPg F.BOOT_STATUS_IDENT (b2n (identityOk s))

/-- Keep the first status that applies, in stage order (R460). -/
def addStatus (s : State) (c : Nat) : State := if rd s bootPg F.BOOT_STATUS_STATUS = 0 then bootStatus s c else s

/-- Stages 1 to 5 of boot; stage 6 waits for the board position. -/
def bootFirst (s : State) : State :=
  if !recordOk s.boot.record then haltRom s 0x03
  else
    let (b, other, s) := chooseBank s
    match b with
    | none => haltRom s 0x02
    | some i =>
      let s := s.setBoot { s.boot with bank := i, waiting := true }
      let s := if other then bootStatus s 0x01 else s
      let s := wr0 (wr0 s bootPg F.BOOT_STATUS_BANK i) bootPg F.BOOT_STATUS_TRIAL (b2n ((getBank s i).st == 4))
      let s := wr0 s bootPg F.FW_VERSION (num (getBank s i).manifest 12 4)
      let s := stage5 (stage4 (loadTables s))
      if identityOk s then s else addStatus s 0x04

/-! ## Stage 6: the protection set-up (R464 to R467) -/

/-- The board position is known. -/
def positionValid (s : State) : Bool := rd s iodPg F.MUSTER_STATUS_VALID == 1

/-- The accepted policy slot of the higher serial (R464). -/
def acceptedSlot (s : State) : Option Nat :=
  let good := [0, 1].filter (fun i =>
    let b := (getSlot s i).bytes
    (getSlot s i).st == 2 && policyForm b && policySigned b && anchorOk s.boot.flash.anchor b)
  match good with
  | [i, j] => if num (getSlot s i).bytes 16 4 < num (getSlot s j).bytes 16 4 then some j else some i
  | i :: _ => some i
  | [] => none

/-- The policy slot and device entry that boot applies, or the status that says why there is none (R460, R464 to R466). -/
def policyChoice (s : State) : Except Nat (Nat × Nat) :=
  if (getSlot s 0).st ≠ 2 ∧ (getSlot s 1).st ≠ 2 then .error 0x05
  else match acceptedSlot s with
    | none => .error 0x06
    | some i =>
      let b := (getSlot s i).bytes
      match deviceEntry b s.boot.record.serial with
      | none => .error 0x07
      | some o =>
        let e := num b (o + 18) 1
        if !profileOk s.boot.record.sig b o then .error 0x06
        else if e ≠ 0xFF ∧ !(positionValid s && rd s iodPg F.MUSTER_STATUS_POS == e) then .error 0x07
        else .ok (i, o)

/-- Write the network registers, the extents and the grant of a pen. -/
def grantPen (s : State) (p : Nat) (g : PenGrant) (ipv6 ipv4 : List Byte) (ip4 : Bool) (vlan : Option Nat) (quota : Nat)
    (exts : List (Nat × Nat × Nat)) : State :=
  let pg := penPg p
  let s := s.setBoot { s.boot with pens := putD PenGrant.none s.boot.pens p g }
  let s := forEach s (List.range 4) (fun s k => wr s pg F.PEN_IPV6 k (beNat (slice ipv6 (4 * k) 4)))
  let s := wr0 (wr0 s pg F.PEN_IPV4 (beNat ipv4)) pg F.PEN_NET_IP4V (b2n ip4)
  let s := wr0 (wr0 s pg F.PEN_NET_VLAN (vlan.getD 0)) pg F.PEN_NET_VLANV (b2n vlan.isSome)
  let s := wr0 s pg F.PEN_QP_QUOTA quota
  let s := forEach s ((List.range exts.length).zip exts) (fun s (e : Nat × Nat × Nat × Nat) =>
    let s := wr (wr s pg F.EXT0_PORT e.1 e.2.1) pg F.EXT0_VALID e.1 1
    wr (wr s pg F.EXT0_START e.1 e.2.2.1) pg F.EXT1 e.1 (e.2.2.2 - 1))
  wr0 s pg F.WIN_SIZE ((exts.map (·.2.2)).sum)

/-- Apply a device entry of a policy (R466). -/
def applyPolicy (s : State) (slot entry : Nat) : State :=
  let b := (getSlot s slot).bytes
  let prof := profileOf b entry
  let s := forEach s (List.range 16) (fun s p =>
    let r := penRecord prof p
    if penDefined r then
      let g : PenGrant := { defined := true, share := num r 6 2, folds := num r 28 8, links := num r 36 12 }
      grantPen s p g (slice r 12 16) (slice r 8 4) (bit (num r 0 1) 1) (if bit (num r 0 1) 2 then some (num r 2 2) else none)
        (num r 4 2) (penExtents r)
    else s)
  let s := wr0 (wr0 s bootPg F.DEVICE_ID_ID (num b (entry + 16) 2)) bootPg F.DEVICE_ID_VALID 1
  let s := wr0 (wr0 s bootPg F.INSTALL_ID (num b 12 4)) bootPg F.POLICY_SERIAL (num b 16 4)
  let s := s.setBoot { s.boot with debugKey := slice prof 0 8, policy := some slot }
  let next := slice b 64 32
  if next.any (· != 0) then putFlash s (s.boot.flash.withAnchor (some next)) else s

/-- The link-local address of a MAC address: a modified EUI-64 (R467). -/
def linkLocal (mac : Nat) : List Byte :=
  let m := (toLe 6 mac).reverse
  [(0xFE : Byte), 0x80, 0, 0, 0, 0, 0, 0] ++ [m.headD 0 ^^^ 2] ++ slice m 1 2 ++ [(0xFF : Byte), 0xFE] ++ slice m 3 3

/-- Provisioning mode: pen 0 alone (R467). -/
def provision (s : State) : State :=
  let g : PenGrant := { defined := true, share := 0, folds := s.boot.record.sig, links := 0 }
  let s := grantPen s 0 g (linkLocal s.boot.record.macBase) [(0 : Byte), 0, 0, 0] false none 64 ((List.range 32).map (fun q => (q, 0, 1536)))
  wr0 s bootPg F.BOOT_STATUS_PROV 1

/-- The lowest-numbered pen whose grant meets a test; pen 0 when none does. -/
def penWhose (s : State) (test : PenGrant → Bool) : Nat :=
  ((List.range 16).find? (fun p => (getD PenGrant.none s.boot.pens p).defined && test (getD PenGrant.none s.boot.pens p))).getD 0

/-- The owning pen of a page at boot (R466). -/
def bootOwner (s : State) (pg : Nat) : Nat := match pageType pg with
  | some .pen => pg - 2
  | some .link => penWhose s (fun g => bit g.links (pg - 94))
  | some .fold => match slotOfFold s (pg - 18) with
    | some k => penWhose s (fun g => bit g.folds k)
    | none => 0
  | _ => 0

/-- Write the owner of every page and set every boot lock (R466). -/
def lockPages (s : State) : State :=
  forEach s (List.range 207) (fun s pg => wr0 (wr0 s pg F.LOCK_OWNER (bootOwner s pg)) pg F.LOCK_BOOT_LOCK 1)

/-- Stage 6. The accepted policy's key fills an empty anchor (R464). -/
def stage6 (s : State) : State :=
  let choice := policyChoice s
  let s := match acceptedSlot s, s.boot.flash.anchor with
    | some i, none => putFlash s (s.boot.flash.withAnchor (some (sha256 (policyKey (getSlot s i).bytes))))
    | _, _ => s
  lockPages (match choice with
    | .ok (i, o) => applyPolicy s i o
    | .error c => provision (addStatus s c))

/-! ## Stage 7 (R420, R427, R458, R462, R476) -/

/-- Bytes of one NVMe target entry in a settings area: bytes 1 to 246 of its MGMT body (DESIGN CHOICE, log entry 10). -/
def targetSize : Nat := 246

/-- Put one target entry into the target table, and connect to the target (R271, R346, R356). -/
def putTarget (s : State) (e : List Byte) : State :=
  let t := num e 0 1
  let x : Target := { port := num e 3 2, addr := slice e 7 16, nqn := slice e 23 223, qp := 0 }
  let s := match targetQp s t with
    | some q => putQp s q Qp.init
    | none => s
  let s := s.setWeights { s.weights with targets := putD Target.none s.weights.targets t x }
  connectTarget (wr s wloadPg F.WL_TARGET_PEN t (num e 1 1)) t

/-- The entries of a settings area. -/
def settingsEntries (b : List Byte) : List (List Byte) := (List.range (b.length / targetSize)).map (fun j => slice b (targetSize * j) targetSize)

/-- The settings area of a trial bank on its first boot (R476). -/
def firstSettings (b active : Bank) : List Byte := match bankPart b 8 with
  | some c => (Config.convertSettings c active.settings).take 0x100000
  | none => if num b.manifest 22 2 = num active.manifest 22 2 then active.settings else []

/-- Read the settings of the bank that runs. -/
def loadSettings (s : State) : State :=
  let i := s.boot.bank
  let b := getBank s i
  let s := match bankIn s 5 with
    | some a => if b.st = 4 ∧ b.trial = 1 ∧ b.settings = [] then putBank s i { b with settings := firstSettings b (getBank s a) } else s
    | none => s
  forEach s (settingsEntries (getBank s i).settings) putTarget

/-- The six digests of R462. -/
def measured (s : State) : List (List Byte) :=
  let b := getBank s s.boot.bank
  [sha256 Config.romImage, sha256 (s.boot.record.bytes ++ s.boot.record.signature), sha256 b.manifest,
    match s.boot.flash.anchor with
    | some a => sha256 (anchorRecord a)
    | none => zeroDigest,
    match s.boot.policy with
    | some i => sha256 (getSlot s i).bytes
    | none => zeroDigest,
    sha256 (settingsArea s.boot.bank b)]

/-- The measurement M_6 over digests (R462). -/
def measurement (ds : List (List Byte)) : List Byte := ds.foldl (fun m d => sha256 (m ++ d)) zeroDigest

/-- Write the scan tables of the housekeeping units and start them with a sweep (R420, R427). -/
def startUnits (s : State) : State :=
  forEach s (List.range 3) (fun s u =>
    let t := (Config.scanTable (getHk s u).tables u).take 256
    let s := wr0 s (hkPg u) F.HK_SCAN_LEN t.length
    let s := forEach s ((List.range t.length).zip t) (fun s (e : Nat × Nat × Nat) => wr (wr s (hkPg u) F.SCAN_CH e.1 e.2.1) (hkPg u) F.SCAN_AVG e.1 e.2.2)
    modHk s u (fun x => { x with sweep := 1 }))

/-- The boot calibration is due on every fold that is not retired, checked against the package record's seeds (R69). -/
def askBootCalibration (s : State) : State :=
  forEach s allFolds (fun s f => if roleOf s f = roleRetired then s else modFold s f (fun x => { x with calDue := true, calBoot := true }))

/-- Stage 7: how long the boot took is what happened, so BOOT_TIME is free. -/
def stage7 (s : State) : State :=
  let s := askBootCalibration (startUnits (loadSettings s))
  let ds := measured s
  let m := measurement ds
  let s := s.setBoot { s.boot with digests := ds, waiting := false, up := true }
  let s := forEach s (List.range 8) (fun s k => wr s secPg F.MEAS k (num m (4 * k) 4))
  let (v, s) := drawNat s
  let s := showUpd (wr0 s bootPg F.BOOT_TIME v)
  forEach s (List.range 96) tryTrain

/-- The board position is settled, so that boot goes on with stages 6 and 7. -/
def bootRest (s : State) : State := if s.boot.waiting then stage7 (stage6 s) else s

/-! ## The reset commands -/

/-- PWR_OK_RISE (R455): a cold reset. -/
def execPwrOkRise (s : State) : Host.Outcome State Fault Refusal := .next (if s.boot.powerOk then s else coldReset s true)

/-- PWR_OK_FALL (R507): the device holds itself in reset, stops its outputs and keeps nothing. -/
def execPwrOkFall (s : State) : Host.Outcome State Fault Refusal :=
  .next (if s.boot.powerOk then emit (coldReset s false) (.pin "OUTPUTS" false) else s)

/-- RESET_N_ASSERT (R455, R513): a warm reset; while PWR_OK is low it has no effect but that release waits for RESET_N. -/
def execResetNAssert (s : State) : Host.Outcome State Fault Refusal :=
  if s.boot.resetN then .next s
  else
    let t := s.setBoot { s.boot with resetN := true }
    if s.boot.powerOk then
      let t := actReset t 2
      .next (if s.boot.tripped then emit t (.pin "THERM_TRIP_N" true) else t)
    else .next t

/-- RESET_RELEASE (R458, R506, R513): the later of 2 ms after PWR_OK and the rise of RESET_N. An alert asserted at release
holds the device at the P7 clock. -/
def execResetRelease (s : State) : Host.Outcome State Fault Refusal :=
  if s.boot.powerOk ∧ !s.boot.tripped ∧ !s.boot.waiting ∧ !s.boot.up ∧ !s.boot.romHalt then
    let s := s.setBoot { s.boot with resetN := false }
    let s := if s.power.inputs = 0 then s else s.setPower { s.power with alert := 1, state := 7 }
    .next (bootFirst s)
  else .next s

/-- A warm reset from software or the debug port, when the device is out of reset. -/
def warmCommand (s : State) (cause : Nat) : State :=
  if s.boot.powerOk ∧ !s.boot.tripped ∧ !s.boot.resetN then actReset s cause else s

/-- SOFT_RESET (R455): pen 0 writes SOFT_RESET. -/
def execSoftReset (src : Source) (s : State) : Host.Outcome State Fault Refusal := .next (onPage s src bootPg (warmCommand · 4))

/-- JTAG_RESET (R455, R468). -/
def execJtagReset (s : State) : Host.Outcome State Fault Refusal := .next (warmCommand s 5)

/-! ## The thermal trip (R450, R451) -/

/-- Keep every field of a page over the hold of a trip. -/
def keepPage (old new : State) (pg : Nat) : State :=
  new.setRegs (old.regs.foldl (fun m e => if e.1 / 131072 = pg then insKey m e.1 e.2 else m) new.regs)

/-- The device trips: the core rails go to VTAB[7], a log entry names the comparator, and everything is held in reset but power
management, the housekeeping units, the trouble log and the reset cause (R451, R492). -/
def trip (s : State) (die comp : Nat) : State :=
  let s := logWrite (errEvent s thermPg 3) thermPg 0x78 0xFF [(32, die), (33, comp)]
  let t := (keepLog s).setPower s.power
  let t := t.setHks s.hks
  let t := [hkPg 0, hkPg 1, hkPg 2, pwrPg, thermPg, logPg].foldl (keepPage s) t
  let t := keepField s t bootPg F.BOOT_STATUS_STATUS
  let t := t.setBoot { t.boot with tripped := true }
  let t := t.setPower { t.power with state := 7, rise := none, droop := false, stretched := 0 }
  let t := forEach t (List.range 3) (fun t rail =>
    let mv := rd t pwrPg F.VTAB 7
    emit (t.setPower { t.power with volts := putD 0 t.power.volts rail mv }) (.avs rail mv))
  emit t (.pin "THERM_TRIP_N" false)

/-- The comparator of a die has disabled itself. -/
def compDisabled (s : State) (die comp : Nat) : Bool := bit (compOff s die) comp

/-- The COMP_OFF field of a die. -/
def compField (die : Nat) : Field := if die = 0 then F.COMP_OFF_CD0 else if die = 1 then F.COMP_OFF_CD1 else F.COMP_OFF_IOD

/-- COMP_DISABLE (R450): a third disabled comparator of a die trips the device. -/
def execCompDisable (die : Fin 3) (comp : Fin 8) (s : State) : Host.Outcome State Fault Refusal :=
  if s.boot.powerOk ∧ !compDisabled s die comp then
    let s := wrBit s thermPg (compField die) 0 comp true
    .next (if 2 < compsDisabled s die ∧ !s.boot.tripped then trip s die 0xFF else s)
  else .next s

/-- THERMAL_TRIP (R451): a comparator that works finds its sensor at 110 °C. -/
def execThermalTrip (die : Fin 3) (comp : Fin 8) (s : State) : Host.Outcome State Fault Refusal :=
  .next (if s.boot.powerOk ∧ !s.boot.tripped ∧ !compDisabled s die comp then trip s die comp else s)

/-- THERMAL_RELEASE (R451): every valid T channel has read below 85 °C for 1 s. A die with fewer than six working comparators
keeps the device held. -/
def execThermalRelease (s : State) : Host.Outcome State Fault Refusal :=
  .next (if s.boot.tripped ∧ [0, 1, 2].all (fun d => decide (compsDisabled s d ≤ 2)) then emit (warmReset s 3) (.pin "THERM_TRIP_N" true) else s)

end Sys2Proof.Machine
end

