-- ==== Sys2Proof/Machine/Attest.lean ====
section
/-! DEFINITION. Attestation (R462, R463). -/

namespace Sys2Proof.Machine

/-- Bytes of a report. -/
def reportSize : Nat := 16112

/-- The nonce registers as bytes. -/
def nonceBytes (s : State) : List Byte := (List.range 8).flatMap (fun k => toLe 4 (rd s secPg F.ATTEST_NONCE k))

/-- Refuse a request with a cause. -/
def refuseAttest (s : State) (why : Nat) : State := wr0 (wr0 s secPg F.ATTEST_STATUS_STATUS 3) secPg F.ATTEST_STATUS_REFUSAL why

/-- START of an attestation (R463, R482). -/
def attestStart (src : Source) (s : State) : State :=
  let a := 4096 * rd s secPg F.ATTEST_ADDR
  if rd s secPg F.ATTEST_STATUS_STATUS = 1 then accessError s secPg 0x040 src 0 1
  else if rd s bootPg F.BOOT_STATUS_IDENT = 0 then refuseAttest s 1
  else if !inWindow s 0 a reportSize then refuseAttest s 2
  else
    let s := passTime (wr0 (wr0 s secPg F.ATTEST_STATUS_STATUS 1) secPg F.ATTEST_STATUS_REFUSAL 0)
    s.setBoot { s.boot with attest := some { nonce := nonceBytes s, addr := a, tally := s.tally.num, ptp := s.ptp.now } }

/-- ATTEST_START (R463): pen 0 writes START. -/
def execAttestStart (src : Source) (s : State) : Host.Outcome State Fault Refusal := .next (onPage s src secPg (attestStart src))

/-- Take or fill a byte string to a length. -/
def fitTo (n : Nat) (bs : List Byte) : List Byte := bs.take n ++ List.replicate (n - bs.length) (0 : Byte)

/-- Bytes 0 to 343 of a report (R463). -/
def reportHead (s : State) (x : Attest) : List Byte :=
  let key := s.boot.key.getD []
  ascii "GQZATTST" ++ [(0 : Byte), 1] ++ toLe 2 reportSize ++ toLe 4 (rd s bootPg F.FW_VERSION) ++ fitTo 16 s.boot.record.serial ++ x.nonce
    ++ fitTo 32 (Config.slhPublic key) ++ measurement s.boot.digests
    ++ [BitVec.ofNat 8 (rd s bootPg F.RESET_CAUSE_LAST), BitVec.ofNat 8 (rd s bootPg F.BOOT_STATUS_BANK),
      BitVec.ofNat 8 (rd s bootPg F.BOOT_STATUS_STATUS), BitVec.ofNat 8 (rd s bootPg F.BOOT_STATUS_IDENT + 2 * rd s bootPg F.BOOT_STATUS_PROV)]
    ++ toLe 8 x.tally ++ toLe 8 x.ptp ++ toLe 4 0 ++ s.boot.digests.flatten

/-- The signed report (R463). -/
def report (s : State) (x : Attest) : List Byte :=
  let h := reportHead s x
  h ++ fitTo 7856 (Config.signReport (s.boot.key.getD []) h) ++ fitTo 7912 s.boot.record.cert

/-- ATTEST_DONE (R463): the report is written, and the status is done. The service waits while its core is halted (R469). -/
def execAttestDone (s : State) : Host.Outcome State Fault Refusal :=
  .next (if serviceWaits s .attest then s else match s.boot.attest with
    | none => s
    | some x =>
      let s := coreWrite s 0 x.addr (report s x)
      let s := bump (wr0 s secPg F.ATTEST_STATUS_STATUS 2) secPg F.ATTEST_CNT
      s.setBoot { s.boot with attest := none })

end Sys2Proof.Machine
end

