-- ==== Sys2Proof/Machine/Calibration.lean ====
section
/-! DEFINITION. Calibration: triggers, windows, candidates, error terms and the boot calibration (R50 to R69). -/

namespace Sys2Proof.Machine

/-! ## Error terms (R62 to R68) -/

/-- Maximum conversion noise at a temperature in °C, LSB: linear between the points of R70, held below 25 °C and
extended above 105 °C (R64). -/
def sigmaMax (t : Rat) : Rat :=
  if t ≤ 25 then 60 / 1000
  else if t ≤ 85 then 60 / 1000 + (t - 25) * (12 / 60000)
  else 72 / 1000 + (t - 85) * (8 / 20000)

/-- Temperature of the last applied update of an array, 1/16 °C. -/
def trefOf (s : State) (f a : Nat) : Int := toSigned (rd s (foldPg f) F.ARR_TREF a) 16

/-- |ΔT| of an array in °C; 20 °C under a broken sensor (R63, R68). -/
def deltaT (s : State) (f a : Nat) : Rat :=
  if sampleFault s f then 20 else absR (((sampleOf s f - trefOf s f a : Int) : Rat) / 16)

/-- T of R64 in °C; 125 °C under a broken sensor (R68). -/
def tempC (s : State) (f : Nat) : Rat := if sampleFault s f then 125 else (sampleOf s f : Rat) / 16

/-- Show the error terms of an array in ARR_BOUND, rounded upwards to the register's units (R66). The rules do not say what a field
shows of a value that exceeds its width: it shows the largest value it can (DESIGN CHOICE, log entry 100). -/
def showBound (s : State) (f a : Nat) : State :=
  let y := (getFold s f).arr a
  let s := wr s (foldPg f) F.ARR_BOUND_RS a (min 1023 (ceilN (y.rs * 256)))
  let s := wr s (foldPg f) F.ARR_BOUND_SIGMA a (min 255 (ceilN (y.su * 1024)))
  wr s (foldPg f) F.ARR_BOUND_EPS a (min 4095 (ceilN (y.eps * 256)))

/-- Set r_s, σ_used and ε of an array from the latest sample (R63 to R65), with ARR_NOISY, ARR_RANGE_OUT and ARR_BOUND (R64, R66, R67). -/
def errorTerms (s : State) (f a : Nat) : State :=
  let pg := foldPg f
  let dt := deltaT s f a
  let rs : Rat := (rd s pg F.ARR_INL a : Rat) / 256 + dt / 20
  let noise : Rat := 5 / 4 * ((((getFold s f).arr a).sigma : Rat) / 1024)
  let top := sigmaMax (tempC s f)
  let su := maxR top noise
  let s := modArr s f a (fun y => { y with rs := rs, su := su, eps := 1 / 2 + rs + 12 * su })
  let s := wrBit s pg F.ARR_NOISY 0 a (decide (top < noise))
  let s := if 20 < dt ∧ !sampleFault s f then wrBit s pg F.ARR_RANGE_OUT 0 a true else s
  if rd s pg F.ARR_BOUND_STALE a = 1 then s else showBound s f a

/-! ## Windows (R51 to R55, R60) -/

/-- Open a window on an array at this tick boundary, with the temperature that it records (R55). -/
def openWindow (s : State) (f a : Nat) : State :=
  let t := sampleOf s f
  let s := modArr s f a (fun y => { y with win := some (Window.fresh s.tally.fires t), reopen := false })
  wrBit s (foldPg f) F.ARR_CAL_PEND 0 a true

/-- Open a window that a trigger asks for: STALE is set, until an update applies (R53). -/
def openStale (s : State) (f a : Nat) : State := wr (openWindow s f a) (foldPg f) F.ARR_BOUND_STALE a 1

/-- Discard the open window of an array; STALE stays as it is. -/
def discardWindow (s : State) (f a : Nat) : State :=
  wrBit (modArr s f a (fun y => { y with win := none, reopen := false })) (foldPg f) F.ARR_CAL_PEND 0 a false

/-- Discard every open window of a fold (R52, R60). -/
def discardWindows (s : State) (f : Nat) : State := forEach s (List.range 16) (fun s a => discardWindow s f a)

/-- CAL_DT in 1/16 °C. -/
def calDt (s : State) (f : Nat) : Int := 16 * (rd s (foldPg f) F.ARR_CAL_CTRL_DT : Int)

/-- The temperature that an array's trigger compares with: ARR_TREF, or the sample of the third reject (R51, R58). -/
def triggerRef (s : State) (f a : Nat) : Int := (((getFold s f).arr a).failTemp).getD (trefOf s f a)

/-- The sample differs from an array's reference by more than CAL_DT. -/
def drifted (s : State) (f : Nat) (ref : Int) : Bool := hasSample s f && decide (calDt s f < ((sampleOf s f - ref).natAbs : Int))

/-- A trigger of R51 holds on a fold at this boundary. -/
def triggered (s : State) (f : Nat) : Bool :=
  let x := getFold s f
  x.force || x.forceHeld || x.period || (List.range 16).any (fun a => drifted s f (triggerRef s f a))

/-- The triggers and restarts of one array at a tick boundary (R51, R52, R55, R57). -/
def boundaryArray (trig : Bool) (s : State) (f a : Nat) : State :=
  let y := (getFold s f).arr a
  match y.win with
  | some w =>
    if w.closed.isNone && drifted s f w.temp then openWindow (bump s (foldPg f) F.ARR_CAL_RESTARTS) f a else s
  | none =>
    if trig then openStale s f a
    else if y.reopen || ((getFold s f).calHeld && rd s (foldPg f) F.ARR_BOUND_STALE a == 1) then openWindow s f a
    else s

/-- Calibration of a serving fold at a tick boundary (R51, R52, R55, R63 to R67). -/
def boundaryServing (s : State) (f : Nat) : State :=
  if rd s (foldPg f) F.ARR_CAL_CTRL_HOLD = 1 then
    modFold (discardWindows s f) f (fun x => { x with calHeld := true, force := false })
  else
    let trig := triggered s f
    let s := forEach s (List.range 16) (boundaryArray trig · f ·)
    modFold s f (fun x => { x with force := false, forceHeld := false, period := false, calHeld := false })

/-- A boundary passes on a fold that serves no slot: its triggers open no window (R61), and those that came are over (DESIGN CHOICE,
log entry 100), but for a CAL_FORCE held until the first boundary at which CAL_HOLD is 0 (R52). A spare that has drifted is to be calibrated. -/
def boundaryOther (s : State) (f : Nat) : State :=
  let spare := roleOf s f == roleSpare || roleOf s f == roleFilling
  let due := spare && (List.range 16).any (fun a => drifted s f (trefOf s f a))
  let held := rd s (foldPg f) F.ARR_CAL_CTRL_HOLD == 1
  modFold s f (fun x => { x with force := false, forceHeld := x.forceHeld && held, period := false, calDue := x.calDue || due })

/-- Calibration of a fold at a tick boundary: windows of a serving fold, the calibration trigger of a spare (R61), and
the error terms; under a broken sensor ARR_CAL_TEMP shows 125 °C (R68, R71). A fold whose sensor has published nothing keeps its error
terms. -/
def boundaryCal (s : State) (f : Nat) : State :=
  let role := roleOf s f
  let s := if role = roleServing then boundaryServing s f else boundaryOther s f
  if role = roleRetired ∨ !hasSample s f then s
  else
    let s := wr0 s (foldPg f) F.ARR_CAL_TEMP (if sampleFault s f then 0x7D0 else ofSigned (sampleOf s f) 16)
    forEach s (List.range 16) (errorTerms · f ·)

/-- CAL_PERIOD_EXPIRY: CAL_PERIOD minutes have passed since the moment that R51 names. -/
def execCalPeriodExpiry (fold : Fin 68) (s : State) : Host.Outcome State Fault Refusal :=
  .next (modFold s fold (fun x => { x with period := true }))

/-! ## Candidates (R54, R56 to R59) -/

/-- The candidates of a window and its σ_meas (R56): gain trims, offset trims, and the largest noise in 1/1,024 LSB.
`free` is the value of a quotient whose divisor is zero, which the spec leaves open (DESIGN CHOICE, log entry 29). -/
def candidates (y : Arr) (w : Window) (free : Rat) : List Nat × List Int × Nat :=
  let nz : Rat := w.nz
  let gains := decide (1024 ≤ w.np)
  let e0 : Rat := if gains then (if w.sXX = 0 then free else w.sqX / w.sXX) else 0
  let zm := fun c => ((getD (0 : Int) w.zs c : Int) : Rat) / nz
  let oc := cols.map (fun c => rne (zm c * 64))
  let gc := cols.map (fun c =>
    let g := getD 16384 y.g c
    if gains then
      let xx := getD 0 w.sxx c
      let ec : Rat := if ((4 * w.np : Nat) : Rat) ≤ xx then (getD 0 w.sqx c - e0 * getD 0 w.sxX c) / xx else 0
      let dn : Rat := 1 + e0 + ec / 2
      (rne (if dn = 0 then free else (g : Rat) / dn)).toNat
    else g)
  let sig := cols.map (fun c => sqrtUp (((getD (0 : Int) w.zq c : Int) : Rat) / nz - zm c * zm c) 1024)
  (gc, oc, sig.foldl max 0)

/-- Whether gain trims keep within 6 % of the trims `g` (R57). -/
def gainsOk (g gc : List Nat) : Bool :=
  (List.range 256).all (fun c => decide (absR ((gc.getD c 0 : Rat) / (g.getD c 16384 : Rat) - 1) ≤ 6 / 100))

/-- Whether offset trims keep within 3 LSB of the trims `o` (R57). -/
def offsetsOk (o oc : List Int) : Bool := (List.range 256).all (fun c => decide ((oc.getD c 0 - o.getD c 0).natAbs ≤ 192))

/-- The gain trims of an array in force, by column. -/
def gainsOf (y : Arr) : List Nat := cols.map (fun c => getD 16384 y.g c)

/-- The offset trims of an array in force, by column. -/
def offsetsOf (y : Arr) : List Int := cols.map (fun c => getD 0 y.o c)

/-- A candidate set is rejected (R57, R58). A fourth or later reject in a row takes the sample of its own moment in place of the third's
(DESIGN CHOICE, log entry 100). -/
def rejectSet (s : State) (f a cause : Nat) : State :=
  let pg := foldPg f
  let s := wrBit (discardWindow s f a) pg F.ARR_CALREJ 0 a true
  let s := wr0 (wr0 s pg F.ARR_REJ_CAUSE_ARRAY a) pg F.ARR_REJ_CAUSE_CAUSE cause
  let n := ((getFold s f).arr a).rejects + 1
  if 3 ≤ n then
    let s := if rdBit s pg F.ARR_CAL_FAIL 0 a then s else errEvent (wrBit s pg F.ARR_CAL_FAIL 0 a true) pg 7
    let t := sampleOf s f
    modArr s f a (fun y => { y with rejects := n, failTemp := some t })
  else modArr s f a (fun y => { y with rejects := n, reopen := true })

/-- Close the window of an array (R54, R56, R57, R64). -/
def closeWindow (s : State) (f a : Nat) (w : Window) : State :=
  let y := (getFold s f).arr a
  let (gc, oc, sig) := candidates y w (Config.analogue s.free)
  let s := modArr (s.setFree (s.free + 1)) f a (fun y => { y with sigma := sig })
  let gOk := gainsOk (gainsOf y) gc
  let oOk := offsetsOk (offsetsOf y) oc
  if gOk && oOk then
    let due := s.tally.fires + 2
    modArr s f a (fun y => { y with win := some { w with closed := some ⟨gc, oc, due⟩ } })
  else rejectSet s f a (b2n (!gOk) + 2 * b2n (!oOk))

/-- CAL_WINDOW_CLOSE (R54): the window has gathered enough conversions of both kinds. -/
def execCalWindowClose (fold : Fin 68) (array : Fin 16) (s : State) : Host.Outcome State Fault Refusal :=
  match ((getFold s fold).arr array).win with
  | some w => .next (if w.closed.isNone ∧ 256 ≤ w.nz ∧ 65536 ≤ w.np then closeWindow s fold array w else s)
  | none => .next s

/-- CAL_WINDOW_TIMEOUT (R54): 4,096 ticks have passed since the window opened, and it holds 256 zero-input conversions. -/
def execCalWindowTimeout (fold : Fin 68) (array : Fin 16) (s : State) : Host.Outcome State Fault Refusal :=
  match ((getFold s fold).arr array).win with
  | some w => .next (if w.closed.isNone ∧ 256 ≤ w.nz ∧ w.opened + 4096 ≤ s.tally.fires then closeWindow s fold array w else s)
  | none => .next s

/-- What every applied update of an array does besides its trims, with the temperature `t` that it takes (R51, R59, R67, R69). ARR_CALREJ keeps its bit until it is written 1
(DESIGN CHOICE, log entry 100). -/
def applied (s : State) (f a : Nat) (t : Int) : State :=
  let pg := foldPg f
  let s := discardWindow s f a
  let s := wr s pg F.ARR_TREF a (ofSigned t 16)
  let s := wr s pg F.ARR_BOUND_STALE a 0
  let s := wrBit (wrBit s pg F.ARR_RANGE_OUT 0 a false) pg F.ARR_CAL_FAIL 0 a false
  let s := modArr s f a (fun y => { y with rejects := 0, failTemp := none })
  let s := modFold s f (fun x => { x with period := false })
  bump (errorTerms s f a) pg F.ARR_CAL_UPDATES

/-- Trims as a sparse table. -/
def trimTable {α : Type} [DecidableEq α] (d : α) (xs : List α) : SMap α := putRun d [] 0 xs

/-- The hardware check of a trim write: the limits of R57 against the trims in force (R375). -/
def trimsOk (s : State) (f a : Nat) (g : List Nat) (o : List Int) : Bool :=
  gainsOk (gainsOf ((getFold s f).arr a)) g && offsetsOk (offsetsOf ((getFold s f).arr a)) o

/-- CAL_APPLY (R50, R59, R375): a passing set applies at the second tick boundary after its window closed, before anything else of that tick; the
boundary has discarded the set if CAL_HOLD was 1 (R52). Under a broken sensor the next window opens at the same boundary, and leaves STALE
clear, since no trigger asked for it (R53, R68). -/
def execCalApply (fold : Fin 68) (array : Fin 16) (s : State) : Host.Outcome State Fault Refusal :=
  match dueTrims s ((getFold s fold).arr array) with
  | some c =>
    if roleOf s fold = roleServing then
      if trimsOk s fold array c.g c.o then
        let s := modArr s fold array (fun y => { y with g := trimTable 16384 c.g, o := trimTable 0 c.o })
        let s := applied s fold array (sampleOf s fold)
        .next (if sampleFault s fold then openWindow s fold array else s)
      else .next (accessError (discardWindow s fold array) (foldPg fold) 0 (.core 0) 2 array)
    else .next s
  | none => .next s

/-! ## Boot calibration (R61, R69) -/

/-- A plane of free cells: the reference pattern that a boot calibration leaves, which the spec does not give. -/
def freePlane (n : Nat) : Plane :=
  { Plane.empty with
    cells := putRun 0 [] 0 ((List.range 262144).map (fun k => ((Config.freeNat (n + k) % 28 : Nat) : Int) - 12))
    sums := putRun 0 [] 0 ((List.range 1024).map (fun r => sumZ ((List.range 256).map (fun c => ((Config.freeNat (n + 256 * r + c) % 28 : Nat) : Int) - 12)))) }

/-- The reference pattern in the planes of an array. -/
def referencePlanes (s : State) (f a : Nat) : State :=
  let n := s.free
  modArr (s.setFree (n + 524288)) f a (fun y => { y with p0 := freePlane n, p1 := freePlane (n + 262144) })

/-- The trims that a boot calibration's results are checked against: the package record's seeds at boot, the trims in
force otherwise (R69). -/
def calReference (s : State) (f a : Nat) : List Nat × List Int :=
  if (getFold s f).calBoot then
    let d := getD (⟨[], []⟩ : Seed) s.boot.record.seeds (16 * f + a)
    (cols.map (fun c => d.g.getD c 16384), cols.map (fun c => d.o.getD c 0))
  else (gainsOf ((getFold s f).arr a), offsetsOf ((getFold s f).arr a))

/-- The results of one array pass the limits of R57. -/
def calPasses (s : State) (f a : Nat) (r : CalResult) : Bool :=
  let (g, o) := calReference s f a
  gainsOk g r.g && offsetsOk o r.o

/-- σ_meas of a boot calibration: the largest noise over the columns of its 256 zero-input conversions, 1/1,024 LSB, rounded up (R56, R69). -/
def calSigma (r : CalResult) : Nat :=
  (cols.map (fun c =>
    let m : Rat := ((r.zs.getD c 0 : Int) : Rat) / 256
    sqrtUp (((r.zq.getD c 0 : Nat) : Rat) / 256 - m * m) 1024)).foldl max 0

/-- The results of an array's boot calibration apply: an update in every respect (R69). -/
def applyBoot (s : State) (f a : Nat) (r : CalResult) (t : Int) : State :=
  let s := modArr s f a (fun y => { y with
    g := trimTable 16384 r.g, o := trimTable 0 r.o, ratio := putRun 1 [] 0 r.ratio, sigma := calSigma r, pend := none })
  applied (wr s (foldPg f) F.ARR_INL a r.inl) f a t

/-- The boot calibration of an array that passes applies at the next tick boundary, and at once while no ticks fire; an array that fails
keeps no new trims (R50, R69). -/
def calibrateArray (s : State) (f a : Nat) (r : CalResult) : State :=
  let ok := calPasses s f a r
  let t := sampleOf s f
  let s := referencePlanes s f a
  if ok then (if ticking s then modArr s f a (fun y => { y with pend := some (r, t) }) else applyBoot s f a r t) else s

/-- What waits for a tick boundary on an array applies at it (R50, R69). -/
def boundaryBoot (s : State) (f a : Nat) : State := match ((getFold s f).arr a).pend with
  | some (r, t) => applyBoot s f a r t
  | none => s

/-- Run the boot calibration of a fold with its results (R69): whether every array passed, and the state. -/
def calibrateFold (s : State) (f : Nat) (rs : List CalResult) : Bool × State :=
  let ok := (List.range 16).all (fun a => calPasses s f a (rs.getD a ⟨[], [], [], 0, [], []⟩))
  let s := forEach s (List.range 16) (fun s a => calibrateArray s f a (rs.getD a ⟨[], [], [], 0, [], []⟩))
  (ok, modFold s f (fun x => { x with calDue := false, calBoot := false }))

/-- A failed array is reported to the quarantine handling (R69): a serving fold's slot moves to a spare, any other fold is quarantined. -/
def calFailed (s : State) (f : Nat) : State :=
  match slotOfFold s f with
  | some k => takeSpare s f k 2
  | none => quarantine s f

/-- A boot calibration is due on a fold: at boot, after a dispute, or on a spare that has drifted; a fold that has taken over a slot
keeps its trims (R61, R69). -/
def calWaits (s : State) (f : Nat) : Bool :=
  let x := getFold s f
  (x.calDue && (x.calBoot || roleOf s f != roleServing)) || s.care.calib.contains f

/-- BOOT_CALIBRATION (R69): once the fold's sensor channel has published (R517). -/
def execBootCalibration (fold : Fin 68) (results : List CalResult) (s : State) : Host.Outcome State Fault Refusal :=
  if calWaits s fold && hasSample s fold && roleOf s fold != roleRetired then
    let (ok, s) := calibrateFold s fold results
    let waits := s.care.calib.contains fold.val
    let s := s.setCare { s.care with calib := s.care.calib.filter (· != fold.val) }
    .next (if !ok then calFailed s fold else if waits then setRole s fold roleSpare none else s)
  else .next s

end Sys2Proof.Machine
end

