-- ==== Sys2Proof/Machine/Scrub.lean ====
section
/-! DEFINITION. Patrol scrubbing and the request to retire a pseudo-channel (R258, R259, R262). -/

namespace Sys2Proof.Machine

/-- The patrol runs upwards through a slice or a stack, so a pass is complete after its last line (R262, R263). -/
def passDone (s : State) (a : Nat) : State :=
  match stagingFold a, hbmStack a with
  | some f, _ => if a % 0x1000000 / 64 = 0xC00000 / 64 - 1 then bump s (foldPg f) F.STG_SCRUB_PASSES else s
  | none, some k =>
    let q := a / 0x800000000
    let top := if bit s.hbmShort q then shortPort else 0x600000000
    if q % 4 = 3 ∧ a % 0x800000000 / 64 = top / 64 - 1 then bump s (hbmPg k) F.HBM_SCRUB_PASSES else s
  | none, none => s

/-- SCRUB (R258): the patrol reads a line; one in error is corrected or poisoned as on any path, with no pause. -/
def execScrub (line : LineErr) (s : State) : Host.Outcome State Fault Refusal :=
  .next (passDone (lineError s none line) line.addr)

/-- HBM_RETIRE_START (R259): pen 0 asks for the pseudo-channel that HBM_RETIRE_REQ names. -/
def execHbmRetireStart (src : Source) (stack : Fin 8) (s : State) : Host.Outcome State Fault Refusal :=
  .next (onPage s src (hbmPg stack) (fun s => startRetire s stack (rd s (hbmPg stack) F.HBM_RETIRE_REQ_PC)))

end Sys2Proof.Machine
end

