-- ==== Sys2Proof/Machine/LaneBlock.lean ====
section
/-! DEFINITION. Lane blocks: placement, the layout of the block, sending and landing it, and placement from a journal
(R28, R290, R298, R299, R304 to R306, R314, R413, R414). -/

namespace Sys2Proof.Machine

/-! ## Replay sources (R412 to R415) -/

/-- A journal entry as read from a replay source. -/
structure JEntry where
  /-- type -/
  typ : Nat
  /-- state -/
  st : Nat
  /-- flock index -/
  flock : Nat
  /-- length in 64-byte units -/
  units : Nat
  /-- sequence number -/
  seq : Nat
  /-- position P -/
  pos : Nat
  /-- body from byte 32 -/
  body : List Byte
  deriving DecidableEq, Repr

/-- The replay source of a pen. -/
def replaySource (s : State) (p : Nat) : Region := ⟨kib4 * rd s (penPg p) F.REPLAY_SRC, kib4 * rd s (penPg p) F.REPLAY_SRC_SIZE⟩

/-- The entry at an offset of a pen's replay source; none where the source is exhausted. -/
def sourceEntry (s : State) (p off : Nat) : Option JEntry :=
  let r := replaySource s p
  let a := r.base + off
  let units := winLe s p (a + 4) 4
  if r.size ≤ off ∨ units = 0 then none
  else some { typ := winLe s p a 1, st := winLe s p (a + 1) 1, flock := winLe s p (a + 2) 1, units := units, seq := winLe s p (a + 8) 4
              pos := winLe s p (a + 24) 8, body := winBytes s p (a + 32) (64 * units - 32) }

/-- A line of the entry at an offset of a pen's replay source is poisoned (R258, R415). -/
def sourcePoisoned (s : State) (p off : Nat) : Bool :=
  let r := replaySource s p
  let n := max 64 (64 * winLe s p (r.base + off + 4) 4)
  decide (off < r.size) && s.care.bad.any (fun e => match windowOf (extents s p) e.2 0 with
    | some v => decide (v < r.base + off + n) && decide (r.base + off < v + 64)
    | none => false)

/-- The entries of a pen's replay source from an offset on; `n` bounds their number. -/
def sourceEntries (s : State) (p : Nat) : Nat → Nat → List JEntry
  | 0, _ => []
  | n + 1, off => match sourceEntry s p off with
    | some e => e :: sourceEntries s p n (off + 64 * e.units)
    | none => []

/-- REPLAY_STATE of a pen. -/
def replayState (s : State) (p : Nat) : Nat := rd s (penPg p) F.REPLAY_STATE_STATE

/-- The replay record of a pen. -/
def getReplay (s : State) (p : Nat) : Replay := getD Replay.init s.drover.replays p

/-- The pen whose replay runs on flock `k`: it is RUNNING, or its drove has come in and it will be at the first step. The lane block of
that step, and the entries that come before it, are the replay's too (R412, R413; DEDUCED, log entry 116). -/
def replayPen (s : State) (k : Nat) : Option Nat :=
  (flockPen s k).filter (fun p => (replayState s p == 2 || (replayState s p == 1 && (getReplay s p).ready)) && rd s (penPg p) F.REPLAY_CTRL_FLOCK == k)

/-- The device finds a divergence of a replay at a step: 1 digest, 2 abort, 3 placement, 4 reservation (R414). -/
def diverge (s : State) (k p seq why step : Nat) : State :=
  let pg := penPg p
  let first := rd s pg F.REPLAY_DIV_CNT == 0
  let s := bump s pg F.REPLAY_DIV_CNT
  let s := if first then
    logWrite (errEvent (wrPair s pg F.REPLAY_DIV_STEP_LO F.REPLAY_DIV_STEP_HI step) pg 3) pg 0x69 p [(40, step), (48, seq), (52, why)] else s
  if rd s pg F.REPLAY_CTRL_STOP = 1 then modFlock (wr0 s pg F.REPLAY_STATE_STATE 3) k (fun x => { x with stalled := true }) else s

/-! ## Placement (R304 to R306, R314) -/

/-- Candidate order (R304). -/
def before (a b : Request) : Bool :=
  if a.bulk != b.bulk then b.bulk else if a.admitted != b.admitted then decide (a.admitted < b.admitted) else decide (a.handle < b.handle)

/-- Put a request in its place in candidate order. -/
def insCandidate (r : Request) : List Request → List Request
  | [] => [r]
  | x :: xs => if before r x then r :: x :: xs else x :: insCandidate r xs

/-- The requests of flock `k` in a phase, in candidate order. -/
def candidates_ (s : State) (k phase : Nat) : List Request :=
  ((flockReqs s k).filter (fun r => r.phase == phase)).foldl (fun acc r => insCandidate r acc) []

/-- A request of the drove's pen is eligible for a lane (R280, R304). -/
def eligible (d : Drove) (r : Request) (l : LaneDef) : Bool :=
  r.pen == d.pen && ((d.epochs[l.epoch]?).map (·.1)) == some r.epoch && bit l.classes (b2n r.bulk)

/-- Pause cycles of a slot's fold since reset (R306). -/
def slotPause (s : State) (slot : Nat) : Nat := ((foldOfSlot s slot).map (foldPause s)).getD 0

/-- The cost of a lane in the last completed round. -/
def laneCost (s : State) (l : LaneDef) : Nat :=
  (((List.range 64).filter (fun k => bit l.folds k)).map (fun k => getD 0 s.drover.roundCost k)).sum

/-- The better lane: the lower cost with load balancing on, then the lower number. -/
def betterLane (s : State) (m : Option LaneDef) (l : LaneDef) : Option LaneDef := match m with
  | none => some l
  | some b =>
    let lb := rd s droverPg F.DRV_CTRL == 1
    if lb && laneCost s l != laneCost s b then (if laneCost s l < laneCost s b then some l else some b)
    else if l.lane < b.lane then some l else some b

/-- The lanes that placement of this block has taken: decode lanes by their requests, chunk slots by the block. -/
def laneTaken (s : State) (k : Nat) (d : Drove) (ps : List Placed) (l : LaneDef) : Bool :=
  (flockReqs s k).any (fun r => r.lane == some l.lane && eligible d r l) || ps.any (fun p => p.lane == l.lane)

/-- A chunk slot with a backing lane is filled only while that lane's request has drafting suspended (R305). -/
def backingOk (s : State) (k : Nat) (l : LaneDef) : Bool :=
  l.backing == 0xFF || (flockReqs s k).any (fun r => r.lane == some l.backing && decide (0 < r.suspended))

/-- The lane for a candidate of a kind, 1 decode lane or 2 chunk slot (R306). -/
def chooseLane (s : State) (k kind : Nat) (d : Drove) (ps : List Placed) (r : Request) : Option LaneDef :=
  (d.lanes.lanes.filter (fun l => l.kind == kind && eligible d r l && !laneTaken s k d ps l && (kind == 1 || backingOk s k l))).foldl (betterLane s) none

/-- The draft length of a decode lane (R314). -/
def draftLen (r : Request) (l : LaneDef) : Nat :=
  let d := if 0 < r.suspended then 0 else if 4 ≤ r.z then 1 else l.dmax
  min d (r.maxNew - r.tokens - 1)

/-- Journal a placement OPEN (R409). -/
def journalPlace (s : State) (k step : Nat) (p : Placed) : State :=
  let (a, s) := journal s p.pen k 4 entOpen step (toLe 2 p.handle ++ [BitVec.ofNat 8 p.kind, BitVec.ofNat 8 p.lane] ++ toLe 4 (if p.kind = 1 then 0 else p.chunk))
  if (journalRegion s p.pen).size = 0 then s
  else s.setDrover { s.drover with opens := s.drover.opens ++ [⟨p.pen, k, step, a⟩] }

/-- Place a READY request into a decode lane. -/
def placeDecode (s : State) (k step : Nat) (r : Request) (l : LaneDef) (ps : List Placed) : List Placed × State :=
  let p : Placed := { lane := l.lane, handle := r.handle, pen := r.pen, kind := 1, fresh := true, start := 0, chunk := 0, final := false, d := draftLen r l }
  (ps ++ [p], journalPlace (putReq s { r with phase := 3, lane := some l.lane }) k step p)

/-- Place the next chunk of a PREFILL request into a chunk slot (R305). The request is not new to a slot that holds it in the step that
runs (R298). -/
def placeChunk (s : State) (k step : Nat) (r : Request) (l : LaneDef) (n : Nat) (ps : List Placed) : List Placed × State :=
  let p : Placed := { lane := l.lane, handle := r.handle, pen := r.pen, kind := 2, start := r.fed, chunk := n
                      final := decide (r.prompt.length ≤ r.fed + n), d := 0
                      fresh := !(getServing s k).cur.any (fun x => x.lane == l.lane && x.handle == r.handle && x.kind == 2) }
  (ps ++ [p], journalPlace (putReq s { r with fed := r.fed + n }) k step p)

/-- The entries of decode lanes that continue: those of this drove's lane table that their requests may hold (R280). -/
def continuing (s : State) (k : Nat) (d : Drove) : List Placed :=
  (flockReqs s k).filterMap (fun r => match r.lane with
    | some n => (d.lanes.lanes.find? (fun l => l.lane == n && l.kind == 1 && eligible d r l)).map (fun l =>
        { lane := n, handle := r.handle, pen := r.pen, kind := 1, fresh := false, start := 0, chunk := 0, final := false, d := draftLen r l })
    | none => none)

/-- The channel of a request holds more than half a spill buffer (R362). -/
def spilling (s : State) (r : Request) : Bool := decide (spillSize / 2 < (getChan s r.pen r.ch).spill.length)

/-- Move QUEUED requests to PREFILL in candidate order while reservations succeed (R302, R304). -/
def reserveAll (s : State) : List Request → State
  | [] => s
  | r :: rs => if spilling s r then reserveAll s rs
    else match reserve s r with
      | (true, s) => reserveAll s rs
      | (false, s) => s

/-- Fill the lanes of a block from the Drover's own choice (R304). -/
def fillLanes (s : State) (k step : Nat) (d : Drove) : List Placed × State :=
  let acc := (candidates_ s k 2).foldl (fun (acc : List Placed × State) r => match chooseLane acc.2 k 1 d acc.1 r with
    | some l => placeDecode acc.2 k step r l acc.1
    | none => acc) (continuing s k d, s)
  let acc := (candidates_ acc.2 k 1).foldl (fun (acc : List Placed × State) r =>
    if r.prompt.length ≤ r.fed then acc
    else match chooseLane acc.2 k 2 d acc.1 r with
      | some l => placeChunk acc.2 k step r l (min l.cap (r.prompt.length - r.fed)) acc.1
      | none => acc) acc
  (acc.1, reserveAll acc.2 (candidates_ acc.2 k 0))

/-- One PLACE entry of a replayed journal fills a lane, or diverges (R413, R414). -/
def placeEntry (k p step : Nat) (d : Drove) (acc : List Placed × State) (e : JEntry) : List Placed × State :=
  let (ps, s) := acc
  let kind := fieldNat e.body 2 1
  let lane := fieldNat e.body 3 1
  let n := fieldNat e.body 4 4
  match getReq s (fieldNat e.body 0 2) with
  | none => (ps, diverge s k p e.seq 3 step)
  | some r =>
    let (ok, s) := if r.phase = 0 then reserve s r else (true, s)
    if !ok then (ps, diverge s k p e.seq 4 step)
    else match getReq s r.handle, d.lanes.lanes.find? (fun l => l.lane == lane && l.kind == kind) with
      | some r, some l =>
        if laneTaken s k d ps l ∨ !eligible d r l ∨ (kind = 2 ∧ !backingOk s k l) then (ps, diverge s k p e.seq 3 step)
        else if kind = 1 ∧ r.phase = 2 then placeDecode s k step r l ps
        else if kind = 2 ∧ r.phase = 1 ∧ r.fed + n ≤ r.prompt.length ∧ 0 < n ∧ n ≤ l.cap then placeChunk s k step r l n ps
        else (ps, diverge s k p e.seq 3 step)
      | _, _ => (ps, diverge s k p e.seq 3 step)

/-- Fill the lanes of a block from the CLOSED PLACE entries of its step (R413). -/
def fillReplay (s : State) (k p step : Nat) (d : Drove) : List Placed × State :=
  ((sourceEntries s p ((replaySource s p).size / 64) 0).filter (fun e => e.typ == 4 && e.st == entClosed && e.pos == step)).foldl
    (placeEntry k p step d) (continuing s k d, s)

/-! ## The block's bytes (R298, R299) -/

/-- Segments of a request: matched runs in virtual order, then the tail (R303). -/
def segmentsOf (r : Request) : List (Nat × Nat × Nat) :=
  let rs := (runs r.matched).foldl (fun (acc : List (Nat × Nat × Nat) × Nat) x => (acc.1 ++ [(acc.2, x.2, x.1)], acc.2 + x.2)) ([], 0)
  rs.1 ++ [(rs.2, r.tailLen, r.tail)]

/-- The 256 bytes of a lane entry. The position of a decode lane that continues is the drove's own, which the Drover cannot
know; the spec gives the field no value then, so it is free. -/
def laneEntry (d : Drove) (r : Request) (p : Placed) (freePos : Nat) : List Byte :=
  let segs := segmentsOf r
  let epochIx := if (d.epochs[1]?).map (·.1) == some r.epoch then 1 else 0
  let pos := if p.kind = 2 then p.start else if p.fresh then drawnPos r - 1 else freePos % 2 ^ 32
  let word := if p.kind = 2 then p.chunk else if p.fresh then r.last else 0
  let flags := b2n r.greedy + 2 * b2n (p.kind == 2 && p.final) + 4 * epochIx
  toLe 2 p.handle ++ toLe 2 0 ++ toLe 4 pos ++ toLe 4 word ++ [BitVec.ofNat 8 p.d, BitVec.ofNat 8 flags] ++ toLe 2 r.temp ++ r.seed
    ++ List.replicate 32 (0 : Byte) ++ toLe 2 segs.length ++ List.replicate 62 (0 : Byte)
    ++ segs.flatMap (fun g => toLe 2 g.1 ++ toLe 2 g.2.1 ++ toLe 4 g.2.2) ++ List.replicate (8 * (16 - segs.length)) (0 : Byte)

/-- The tokens of the chunk slots in the token area, at the sum of the capacities of the lower slots. -/
def tokenArea (s : State) (d : Drove) (ps : List Placed) : List Byte :=
  let slots := (List.range 256).filterMap (fun n => d.lanes.lanes.find? (fun l => l.lane == n && l.kind == 2))
  let bytes := slots.flatMap (fun l =>
    let toks := match ps.find? (fun p => p.lane == l.lane), ps.find? (fun p => p.lane == l.lane) |>.bind (fun p => getReq s p.handle) with
      | some p, some r => (r.prompt.drop p.start).take p.chunk
      | _, _ => []
    toks.flatMap (toLe 4) ++ List.replicate (4 * (l.cap - toks.length)) (0 : Byte))
  (bytes ++ List.replicate (8192 - bytes.length) (0 : Byte)).take 8192

/-- The lanes of a block as a mask. -/
def laneMask (ps : List Placed) (p : Placed → Bool) : Nat := (ps.filter p).foldl (fun m x => m ||| 2 ^ x.lane) 0

/-- The 73,856 bytes of a lane block. -/
def blockBytes (s : State) (d : Drove) (step : Nat) (ps : List Placed) (free : Nat) : List Byte :=
  toLe 32 (laneMask ps (fun _ => true)) ++ toLe 32 (laneMask ps (·.fresh)) ++ toLe 8 step ++ List.replicate 56 (0 : Byte)
    ++ (List.range 256).flatMap (fun n => match ps.find? (fun p => p.lane == n) with
      | some p => match getReq s p.handle with
        | some r => laneEntry d r p (Config.freeNat (free + n))
        | none => List.replicate 256 (0 : Byte)
      | none => List.replicate 256 (0 : Byte))
    ++ tokenArea s d ps

/-! ## Building and landing -/

/-- Keep what a discarded block must restore (R304). -/
def keepBefore (s : State) (k : Nat) : State := forEach s (flockReqs s k) (fun s r => putReq s { r with before := (r.phase, r.fed, r.lane) })

/-- Discard the block built for the next step: its placements are undone and its PLACE entries become VOID (R304, R409). -/
def discardBlock (s : State) (k : Nat) : State :=
  let v := getServing s k
  if v.built = 0 then s
  else
    let s := settlePlaces s k (v.built - 1) entVoid
    let s := putServing s k { v with next := [], built := 0, block := [], blockStep := 0 }
    forEach s (flockReqs s k) (fun s r =>
      if r.before.1 = 0 ∧ 0 < r.phase then unreserve s r
      else if r.phase < r.before.1 then s
      else putReq s { r with phase := r.before.1, fed := r.before.2.1, lane := r.before.2.2 })

/-- The step whose lane block is to be built: the next one, or in a page tick the round's first. -/
def buildStep (x : Flock) : Nat := if x.phase = 3 then x.num + 1 else x.num

/-- The live lanes of the last lane blocks of all flocks (R318). -/
def showLive (s : State) : State :=
  wr0 s droverPg F.DRV_LANES_LIVE (((s.drover.flocks).map (fun e => if e.2.built = 0 then e.2.cur.length else e.2.next.length)).sum)

/-- The step of the lane block built last starts: its lanes are those of the step that runs (R28). -/
def takeBlock (s : State) (k : Nat) : State :=
  let v := getServing s k
  if v.built = (getFlock s k).num + 1 then showLive (putServing s k { v with cur := v.next, next := [], built := 0 }) else s

/-- Build the lane block of a step and send it to the other devices of the flock (R290, R304). -/
def buildBlock (s : State) (k step : Nat) (d : Drove) : State :=
  let s := keepBefore s k
  let (ps, s) := match replayPen s k with
    | some p => fillReplay s k p step d
    | none => fillLanes s k step d
  let n := s.free
  let bytes := blockBytes s d step ps n
  let s := s.setFree (n + 256)
  let s := putServing s k { getServing s k with next := ps, built := step + 1, block := bytes, blockStep := step + 1 }
  let s := forEach s (d.ranks.filter (· != ownId s)) (fun s dev => (sendMessage s dev 1 (BitVec.ofNat 8 k :: bytes)).2)
  showLive s

/-- The drove whose lane block is to be built. -/
def buildDrove (s : State) (k : Nat) : Option Drove := if (getFlock s k).phase = 3 then nextDrove s k else flockDrove s k

/-- LANE_BLOCK_BUILD (R304): on the lead, once for each step. The service waits while its core is halted (R469). -/
def execLaneBlockBuild (flock : Fin 16) (s : State) : Host.Outcome State Fault Refusal :=
  let x := getFlock s flock
  match buildDrove s flock with
  | some d =>
    if !serviceWaits s .laneBlocks && isLead s flock && !d.lanes.lanes.isEmpty && (x.phase == 3 || x.phase == 2) && (getServing s flock).built != buildStep x + 1 then
      .next (buildBlock s flock (buildStep x) d)
    else .next s
  | none => .next s

/-- A lane block arrives from the lead (R290). -/
def storeBlock (s : State) (data : List Byte) : State :=
  let k := fieldNat data 0 1 % 16
  let block := data.drop 1
  putServing s k { getServing s k with block := block, blockStep := fieldNat block 64 8 + 1 }

/-- Write the lane block into a fold's other buffer (R25, R28). -/
def landBlock (s : State) (f : Nat) (v : Serving) : State :=
  let x := getFold s f
  let b := 1 - x.laneBuf
  let s := iodBytes s (vsAddr f (64 * bits (controlBlock s f) (16 + 16 * b) 16)) v.block
  modFold s f (fun x => { x with landed := some (v.blockStep - 1) })

/-- LANE_BLOCK_LAND (R28): the block of the next step lands in one fold. -/
def execLaneBlockLand (fold : Fin 68) (s : State) : Host.Outcome State Fault Refusal :=
  match foldFlock s fold with
  | some k =>
    let v := getServing s k
    if v.blockStep ≠ 0 ∧ (getFold s fold).landed ≠ some (v.blockStep - 1) then .next (landBlock s fold v) else .next s
  | none => .next s

end Sys2Proof.Machine
end

