-- ==== Sys2Proof/Machine/Settle.lean ====
section
/-! DEFINITION. The commit gate of the Drover, admissions and aborts at a fire, and the replay of a journal
(R293 to R295, R311, R314 to R317, R358, R360, R361, R409 to R415). -/

namespace Sys2Proof.Machine

/-! ## Commit (R292, R314, R315, R411) -/

/-- Tokens kept of a result record: up to the first stop token, the empty-distribution marker, or the maximum; and the
final status that they bring. -/
def keepTokens (stops : List Nat) : Nat → List Nat → List Nat × Option Nat
  | 0, _ => ([], some 1)
  | _, [] => ([], none)
  | n + 1, t :: ts =>
    if t = noBlock then ([], some 4)
    else if stops.contains t then ([t], some 0)
    else if n = 0 then ([t], some 1)
    else let r := keepTokens stops n ts; (t :: r.1, r.2)

/-- What a commit gives one request. -/
structure Release where
  /-- handle -/
  handle : Nat
  /-- absolute position of the first token -/
  pos : Nat
  /-- tokens -/
  toks : List Nat
  /-- final status -/
  final : Option Nat
  deriving DecidableEq, Repr

/-- The counts of R314 after a committed decode record with draft length `d` and `a` accepted. While drafting is suspended no record
starts it anew; z goes to 0 when the suspension ends. -/
def draftCounts (s : State) (r : Request) (d a : Nat) : Request × State :=
  if d = 0 then (r, s)
  else if 0 < a then ({ r with z := 0 }, s)
  else if 0 < r.suspended then (r, s)
  else if r.z + 1 = 16 then ({ r with z := 16, suspended := 64 }, bump s droverPg F.SPEC_SUSPEND)
  else ({ r with z := r.z + 1 }, s)

/-- The result record of a lane: accepted, count, draft length, position, tokens (R292). -/
def resultRecord (s : State) (p : Nat) (t : LaneTable) (lane : Nat) : Nat × Nat × Nat × Nat × List Nat :=
  let a := t.results + 64 * lane
  let n := min 9 (winLe s p (a + 4) 1)
  (winLe s p (a + 3) 1, n, winLe s p (a + 5) 1, winLe s p (a + 8) 4, (List.range n).map (fun j => winLe s p (a + 12 + 4 * j) 4))

/-- The physical block of a request's virtual block. -/
def blockOf (r : Request) (i : Nat) : Nat := if i < r.matched.length then r.matched.getD i 0 else r.tail + (i - r.matched.length)

/-- Positions whose KV the committed steps of a request have computed. -/
def kvDone (r : Request) : Nat := if r.phase < 2 then r.done else drawnPos r - 1

/-- Send a block's pieces to the partner. -/
def mirrorPieces (s : State) (p : Nat) (t : LaneTable) (b : Nat) : State :=
  forEach s (List.range t.stripes) (fun s j =>
    let off := j * (kib4 * t.stripe) + b * (256 * t.piece)
    (sendMirror s p 1 off (winBytes s p ((kvRegion s p).base + off) (256 * t.piece))).2)

/-- Send the KV pieces and token records of the blocks that a commit completes to the partner (R397). -/
def mirrorKv (s : State) (r : Request) (t : LaneTable) (done : Nat) : State :=
  if !mirrors s r.pen then s
  else
    let base := (kvRegion s r.pen).base
    forEach s ((List.range (kvDone r / 64)).filter (fun i => decide (done < 64 * (i + 1)))) (fun s i =>
      let b := blockOf r i
      let s := mirrorPieces s r.pen t b
      let a := tokenRecord s r.pen t b
      (sendMirror s r.pen 1 (a - base) (winBytes s r.pen a 256)).2)

/-- Lane `n`'s entry of the lane block that a fold runs (R298, R299). -/
def laneAt (s : State) (f n : Nat) : List Byte :=
  readBytes s (vsAddr f (64 * bits (controlBlock s f) (16 + 16 * (getFold s f).laneBuf) 16) + 128 + 256 * n) 256

/-- The physical block of a virtual block by a lane entry's KV segments (R299). -/
def entryBlock (e : List Byte) (i : Nat) : Option Nat :=
  (List.range (min 16 (fieldNat e 64 2))).findSome? (fun j =>
    let v := fieldNat e (128 + 8 * j) 2
    if v ≤ i ∧ i < v + fieldNat e (130 + 8 * j) 2 then some (fieldNat e (132 + 8 * j) 4 + (i - v)) else none)

/-- The KV pieces that a committed step completes for one lane, on a device that does not lead the flock. The lane entry gives a chunk's
positions; those of a decode lane are the drove's own, so they are free (R299, R397; DESIGN CHOICE, log entry 111). -/
def mirrorLane (p : Nat) (t : LaneTable) (f : Nat) (s : State) (n : Nat) : State :=
  let e := laneAt s f n
  let chunk := t.lanes.any (fun l => l.kind == 2 && l.lane == n)
  let (a, s) := drawNat s
  let (m, s) := drawNat s
  let first := if chunk then fieldNat e 4 4 else a
  let len := if chunk then fieldNat e 8 4 else m % 10
  forEach s ((List.range ((first + len) / 64)).filter (fun i => decide (first < 64 * (i + 1)))) (fun s i => match entryBlock e i with
    | some b => mirrorPieces s p t b
    | none => s)

/-- The KV pieces that a committed step completes, on a device that does not lead the flock (R397). -/
def mirrorStep (s : State) (k : Nat) : State := match flockPen s k, (flockFolds s k).head? with
  | some p, some f =>
    if mirrors s p then
      forEach s ((List.range 256).filter (fun n => bit (leNat (readBytes s (vsAddr f (64 * bits (controlBlock s f) (16 + 16 * (getFold s f).laneBuf) 16)) 32)) n))
        (mirrorLane p (laneTable s k) f)
    else s
  | _, _ => s

/-- The commit of one live lane: its record counts for SPEC_DRAFTED and SPEC_ACCEPTED, and it may bring a release (R292, R315). -/
def commitLane (t : LaneTable) (acc : List Release × State) (x : Placed) : List Release × State :=
  let (out, s) := acc
  let (a, _, d, pos, toks) := resultRecord s x.pen t x.lane
  let s := if x.kind = 2 then s else bump (bump s droverPg F.SPEC_DRAFTED d) droverPg F.SPEC_ACCEPTED a
  match getReq s x.handle with
  | none => (out, s)
  | some r =>
    if r.pen ≠ x.pen then (out, s)
    else
      let done := kvDone r
      let (r, s) := if x.kind = 2 then
          let (r, s) := insertBlocks s r r.done (x.start + x.chunk)
          ({ r with done := x.start + x.chunk, phase := if x.final then 2 else r.phase }, s)
        else draftCounts s r d a
      let (kept, final) := if r.draining ∨ toks.isEmpty then ([], none) else keepTokens r.stops (r.maxNew - r.tokens) toks
      let r := { r with tokens := r.tokens + kept.length, drawn := r.drawn + toks.length, last := toks.getLast?.getD r.last }
      let s := mirrorKv (putReq s r) r t done
      if kept.isEmpty ∧ final.isNone then (out, s) else (out ++ [{ handle := r.handle, pos := pos, toks := kept, final := final }], s)

/-- Put a release in its place by handle. -/
def insRelease (x : Release) : List Release → List Release
  | [] => [x]
  | y :: ys => if x.handle < y.handle then x :: y :: ys else y :: insRelease x ys

/-- The release digest (R411). -/
def releaseDigest (rs : List Release) : List Byte :=
  sha256 (rs.flatMap (fun x => toLe 2 x.handle ++ toLe 1 (x.final.getD 0xFF) ++ toLe 4 x.pos ++ toLe 4 x.toks.length ++ x.toks.flatMap (toLe 4)))

/-- Release a request's tokens to its host and end it when they end it. -/
def deliverRelease (s : State) (x : Release) : State := match getReq s x.handle with
  | none => s
  | some r =>
    let s := if x.toks.isEmpty then s else sendRecords s r.pen r.ch [tokenBytes s r false 0 x.pos x.toks]
    match x.final with
    | some f => endReq s r f
    | none => s

/-- Requests whose deadline has come at this fire end with DEADLINE (R315); a replay evaluates none (R413). -/
def settleDeadlines (s : State) (k : Nat) : State :=
  if (replayPen s k).isSome then s
  else
    let now := rdPair s ethPg F.PTP_FIRE_LO F.PTP_FIRE_HI
    forEach s ((flockReqs s k).filter (fun r => decide (r.deadline ≠ 0) && decide (r.deadline ≤ now))) (fun s r =>
      endReq (journalEnd (bump s droverPg F.DEADLINE_CNT) r stDeadline) r stDeadline)

/-- Lanes whose request was aborted stay in the cancel mask while a block in force still names them; the others leave it. -/
def keepCancel (s : State) (k : Nat) (ps : List Placed) : State :=
  let mask := laneMask ps (fun p => (getReq s p.handle).isNone)
  forEach s (flockFolds s k) (fun s f => modFold s f (fun x => { x with cancel := x.cancel &&& mask }))

/-- One more committed step of a request's flock: the last one of a suspension sets z to 0 (R314). -/
def countSuspended (r : Request) : Request :=
  { r with suspended := r.suspended - 1, z := if r.suspended = 1 then 0 else r.z }

/-- The lead settles a commit of flock `k` after the deadlines of the fire: results, the COMMIT entry, tokens and ends (R315, R410). `n` is
the step that commits; the caller moves the flock's step number on between the deadlines and the rest. -/
def settleResults (s : State) (k n : Nat) : State :=
  let v := getServing s k
  let t := laneTable s k
  let s := settlePlaces s k n entClosed
  let s := forEach s (flockReqs s k) (fun s r => if 0 < r.suspended then putReq s (countSuspended r) else s)
  let (rs, s) := v.cur.foldl (commitLane t) ([], s)
  let rs := rs.foldl (fun acc x => insRelease x acc) []
  let count := (rs.map (fun x => x.toks.length)).sum
  let dg := releaseDigest rs
  let s := match flockPen s k with
    | some p => journalHere s p k 5 (toLe 8 n ++ toLe 4 rs.length ++ toLe 4 count ++ dg)
    | none => s
  let s := forEach s rs deliverRelease
  let v := getServing s k
  keepCancel (putServing s k { v with cur := [], commit := (n, rs.length, count, dg) }) k v.next

/-! ## Admission (R293, R294, R358) -/

/-- A BF16 value is finite and above zero. -/
def bf16Positive (v : Nat) : Bool := decide (0 < v) && decide (v < 0x7F80)

/-- An ADMIT body has the length and the zero fields of its type (R358). -/
def admitBody (body : List Byte) : Bool :=
  let n := fieldNat body 52 4
  decide (64 ≤ body.length) && zeroField body 3 1 && zeroField body 6 2 && decide (fieldNat body 2 1 < 4)
    && (if bit (fieldNat body 2 1) 1 then body.length == 64 else body.length == 64 + 4 * n && decide (n ≤ 16360) && zeroField body 56 8)

/-- The prompt that an ADMIT body carries, or names in the pen's window. -/
def promptOf (s : State) (p : Nat) (body : List Byte) : List Nat :=
  let n := fieldNat body 52 4
  if bit (fieldNat body 2 1) 1 then (List.range n).map (fun j => winLe s p (fieldNat body 56 8 + 4 * j) 4)
  else (List.range n).map (fun j => fieldNat body (64 + 4 * j) 4)

/-- A field of an admission is outside R293, or its deadline cannot be held yet (R351). -/
def badRequest (s : State) (p : Nat) (body : List Byte) : Bool :=
  let k := fieldNat body 0 1
  let n := fieldNat body 52 4
  let ctx := (laneTable s k).ctx
  let max_ := fieldNat body 24 4
  decide (15 < k) || flockPen s k != some p || decide (1 < fieldNat body 1 1)
    || (!bit (fieldNat body 2 1) 0 && !bf16Positive (fieldNat body 4 2))
    || decide (n = 0) || decide (ctx ≤ n) || decide (max_ = 0) || decide (ctx - n < max_)
    || (fieldNat body 44 8 != 0 && !s.ptp.everSync)
    || (bit (fieldNat body 2 1) 1 && !inWindow s p (fieldNat body 56 8) (4 * n))

/-- A switch under DRAIN made the entry CURRENT, or has done so for the flocks on which it has taken effect (R283). -/
def byDrain (s : State) (p e : Nat) : Bool :=
  s.weights.drained.contains (2 * p + e)
    || (rd s (penPg p) F.EPOCH_SWITCH_PENDING == 1 && rd s (penPg p) F.EPOCH_SWITCH_POLICY == 1 && rd s (penPg p) F.EPOCH_SWITCH_ENTRY == e)

/-- The active drove has a lane for an epoch and class. Requests of an epoch that became CURRENT by a switch under DRAIN and that the
drove does not require wait for one that does (R283). -/
def hasLane (s : State) (p k e : Nat) (bulk : Bool) : Bool := match flockDrove s k with
  | none => false
  | some d =>
    let id := rd s (penPg p) F.EPOCH0_ID e
    d.lanes.lanes.any (fun l => ((d.epochs[l.epoch]?).map (·.1)) == some id && bit l.classes (b2n bulk))
      || (!(d.epochs.any (fun x => x.1 == id)) && byDrain s p e)

/-- Why an admission is refused, in the order that the model checks; none when it is admitted (R317). -/
def refusal (s : State) (p : Nat) (body : List Byte) : Option Nat :=
  let k := fieldNat body 0 1
  if (replayPen s k).isSome then some 0xF1
  else if k < 16 ∧ flockPen s k = some p ∧ !isLead s k then some 0x15
  else if badRequest s p body then some 0x11
  else if 4096 ≤ (allReqs s).length then some 0x10
  else match flockEpoch s p k with
    | none => some 0x12
    | some e =>
      if !hasLane s p k e (fieldNat body 1 1 == 1) then some 0x14
      else if kvBlocks (laneTable s k) < ceilDiv (fieldNat body 52 4 + fieldNat body 24 4 + 8) 64 then some 0x13
      else none

/-- A free record index: which one the device takes the spec does not say, so it is a free value among the free ones. -/
def pickIndex (s : State) : Nat × State :=
  let free := (List.range 4096).filter (fun i => (getD [] s.drover.reqs i).isEmpty)
  let (v, s) := drawNat s
  (free.getD (v % free.length) 0, s)

/-- The request that an ADMIT body describes. -/
def mkRequest (p ch k handle tag epoch tally : Nat) (body : List Byte) (prompt : List Nat) : Request :=
  { pen := p, ch := ch, flock := k, handle := handle, tag := tag, bulk := fieldNat body 1 1 == 1, greedy := bit (fieldNat body 2 1) 0
    temp := fieldNat body 4 2, seed := field body 8 16, maxNew := fieldNat body 24 4
    stops := ((List.range 4).map (fun j => fieldNat body (28 + 4 * j) 4)).filter (· != noBlock)
    deadline := fieldNat body 44 8, prompt := prompt, epoch := epoch, admitted := tally, phase := 0, draining := false, fed := 0, done := 0
    tokens := 0, drawn := 0, last := 0, lane := none, matched := [], tail := 0, tailLen := 0, chain := 0, z := 0, suspended := 0, before := (0, 0, none) }

/-- Journal an admission (R408). -/
def journalAdmit (s : State) (r : Request) (body : List Byte) : State :=
  let flags := fieldNat body 2 1 % 2
  journalHere s r.pen r.flock 1 (toLe 2 r.handle ++ toLe 2 r.epoch ++ toLe 8 r.tag ++ toLe 1 r.ch ++ toLe 3 0
    ++ body.take 2 ++ toLe 1 flags ++ field body 3 53 ++ r.prompt.flatMap (toLe 4))

/-- Take a request in: the record, the pin and the journal entry. -/
def takeRequest (s : State) (r : Request) (body : List Byte) : State :=
  journalAdmit (pinEpoch (bump (putReq s r) droverPg F.ADMIT_CNT) r.pen r.epoch true) r body

/-- An admission is latched at a fire; one whose channel has closed before it is dropped with the channel (R294, R356, R360). -/
def latchAdmit (s : State) (h : MsgHead) (body : List Byte) : State :=
  if h.life ≠ chanLife s h.pen h.ch then s
  else match refusal s h.pen body with
  | some st => respond (bump s droverPg F.ADMIT_REFUSED) h 0x10 st
  | none =>
    let k := fieldNat body 0 1
    let e := (flockEpoch s h.pen k).getD 0
    let prompt := promptOf s h.pen body
    let (i, s) := pickIndex s
    let gen := getD 0 s.drover.gens i
    let s := s.setDrover { s.drover with gens := putD 0 s.drover.gens i ((gen + 1) % 16) }
    let r := mkRequest h.pen h.ch k (i + 4096 * gen) h.tag.toNat (rd s (penPg h.pen) F.EPOCH0_ID e) s.tally.num body prompt
    respond (takeRequest s r body) h 0x10 0 (toLe 2 r.handle ++ toLe 4 0 ++ toLe 8 s.tally.num)

/-- The flock of a live or ended request of a pen. -/
def handleFlock (s : State) (p handle : Nat) : Option Nat :=
  (((getReq s handle).filter (fun r => r.pen == p)).map (·.flock)).orElse (fun _ =>
    ((getD [] s.drover.ended (handle % 4096)).find? (fun x => x.pen == p && x.handle == handle)).map (·.flock))

/-- An abort is latched at a fire (R316); a host's for a flock that replays is not permitted (R413). -/
def latchAbort (s : State) (h : MsgHead) (body : List Byte) : State :=
  let handle := fieldNat body 0 2
  if (handleFlock s h.pen handle).any (fun k => (replayPen s k).isSome) then respond s h 0x11 0xF1
  else
    let (v, _, s) := abortHandle s h.pen handle h.tag.toNat
    respond s h 0x11 (abortStatus v)

/-- The close of a channel at a fire: its live requests are aborted, and it is answered and closed once none is left (R356). -/
def latchClose (s : State) (p ch : Nat) (h : Option MsgHead) : State :=
  let mine := (allReqs s).filter (fun r => r.pen == p && r.ch == ch)
  let s := forEach s (mine.filter (fun r => !r.draining)) (fun s r => (abortHandle s p r.handle r.tag).2.2)
  if (allReqs s).any (fun r => r.pen == p && r.ch == ch) then
    s.setDrover { s.drover with latch := s.drover.latch ++ [.close p ch h] }
  else
    let s := match h with
      | some h => respond s h 0x02 0
      | none => s
    let s := clearChan (releaseQps s p ch) p ch
    wr (wr s (penPg p) F.CH_STATE_STATE ch 0) (penPg p) F.CH_STATE_SPILL ch 0

/-- The Drover latches one input. -/
def latchOne (s : State) (x : Latch) : State := match x with
  | .admission h body => latchAdmit s h body
  | .abort h body => latchAbort s h body
  | .close p ch h => latchClose s p ch h
  | .config page off v => journalConfig s page off v

/-- The Drover latches everything that has completed since the last fire, in order (R360). -/
def latchAll (s : State) : State := forEach (s.setDrover { s.drover with latch := [] }) s.drover.latch latchOne

/-! ## Page-tick ends (R315) -/

/-- Every DRAINING request of flock `k` ends with ABORTED. -/
def endDraining (s : State) (k : Nat) : State :=
  forEach s ((flockReqs s k).filter (·.draining)) (fun s r => endReq (journalEnd s r stAborted) r stAborted)

/-- An epoch entry becomes CURRENT; the epoch that was becomes OLD (R279, R281). -/
def switchEpoch (s : State) (p e : Nat) : State :=
  let s := match currentEpoch s p with
    | some o => if o = e then s else checkDrained (wr s (penPg p) F.EPOCH0_STATE o 4) p o
    | none => s
  wr s (penPg p) F.EPOCH0_STATE e 3

/-! ## Replays (R412, R415) -/

/-- Replace the replay record of a pen, with REPLAY_POS. -/
def putReplay (s : State) (p : Nat) (x : Replay) : State :=
  wr0 (s.setDrover { s.drover with replays := putD Replay.init s.drover.replays p x }) (penPg p) F.REPLAY_POS x.next

/-- ENABLE was written 0: the replay becomes IDLE at the commit (R415). -/
def endReplay (s : State) (k : Nat) : State := match flockPen s k with
  | some p => if rd s (penPg p) F.REPLAY_CTRL_ENABLE = 0 ∧ replayState s p ≠ 0 then wr0 (wr0 s (penPg p) F.REPLAY_STATE_STATE 0) (penPg p) F.REPLAY_STATE_CAUSE 0 else s
  | none => s

/-- REPLAY_ENABLE (R412, R415). -/
def writeReplay (p : Nat) (on : Bool) (s : State) : State :=
  let s := wr0 s (penPg p) F.REPLAY_CTRL_ENABLE (b2n on)
  if on ∧ replayState s p = 0 then
    putReplay (wr0 s (penPg p) F.REPLAY_STATE_STATE 1) p { Replay.init with next := rd s (penPg p) F.REPLAY_START_SEQ }
  else s

/-- REPLAY_ENABLE (R412, R416). -/
def execReplayEnable (src : Source) (pen : Fin 16) (on : Bool) (s : State) : Host.Outcome State Fault Refusal :=
  .next (onPage s src (penPg pen) (writeReplay pen on))

/-! ## ADMIT and ABORT messages (R356, R358) -/

/-- Wait for the next fire. -/
def waitFire (s : State) (x : Latch) : State := s.setDrover { s.drover with latch := s.drover.latch ++ [x] }

/-- ADMIT as it completes on its channel. -/
def msgAdmit (s : State) (h : MsgHead) (body : List Byte) : State :=
  message s h 0x10 true (admitBody body) (fun h s => waitFire s (.admission h body))

/-- ADMIT (R293, R358, R360): the Drover latches it at the next fire. -/
def execAdmitMsg (h : MsgHead) (body : List Byte) (s : State) : Host.Outcome State Fault Refusal :=
  .next (sendIn s h body.length (fun s => msgAdmit s h body))

/-- ABORT as it completes on its channel. -/
def msgAbort (s : State) (h : MsgHead) (body : List Byte) : State :=
  message s h 0x11 true (body.length == 2) (fun h s => waitFire s (.abort h body))

/-- ABORT (R316, R356, R360). -/
def execAbort (h : MsgHead) (body : List Byte) (s : State) : Host.Outcome State Fault Refusal :=
  .next (sendIn s h body.length (fun s => msgAbort s h body))

/-- CHANNEL_CLOSE as it completes on its channel. -/
def msgClose (s : State) (h : MsgHead) (body : List Byte) : State :=
  message s h 0x02 true body.isEmpty (fun h s => waitFire s (.close h.pen h.ch (some h)))

/-- CHANNEL_CLOSE (R356). -/
def execChannelClose (h : MsgHead) (body : List Byte) (s : State) : Host.Outcome State Fault Refusal :=
  .next (sendIn s h body.length (fun s => msgClose s h body))

/-! ## PFX_KEY (R312) -/

/-- A write to PFX_KEY invalidates every entry of the pen's table; no chain of a resident request goes on (R311, R312). -/
def writePfxKey (p k v : Nat) (s : State) : State :=
  let s := forEach s (validPfx s p) (fun s e => putPfx s p e.1 { e.2 with st := 0 })
  wr s (penPg p) F.PFX_KEY k v

/-- A source whose writes are host writes: RDMA and DEBUG messages (R408, R469). -/
def hostWrite : Source → Bool
  | .rdma _ => true
  | .debug => true
  | _ => false

/-- A host write to a register that R408 journals waits for its CONFIG entry. -/
def noteConfig (s : State) (src : Source) (page off v : Nat) : State := if hostWrite src then waitFire s (.config page off v) else s

/-- PFX_KEY (R312, R319, R408). -/
def execPfxKey (src : Source) (pen : Fin 16) (k : Fin 4) (v : Word) (s : State) : Host.Outcome State Fault Refusal :=
  .next (onPage s src (penPg pen) (fun s => noteConfig (writePfxKey pen k v.toNat s) src (penPg pen) (0x430 + 4 * k.val) v.toNat))

end Sys2Proof.Machine
end

