-- ==== Sys2Proof/Machine/Substitute.lean ====
section
/-! DEFINITION. Substitution of spares, in-field tests, retirement, and the tile window (R18, R60, R146, R147, R376 to R392,
R494, R516, R521). -/

namespace Sys2Proof.Machine

/-! ## Fills (R382, R383) -/

/-- Slot `k` is used by an active drove. -/
def slotUsed (s : State) (k : Nat) : Bool := s.droves.any (fun e => e.2.st == 3 && bit e.2.folds k)

/-- A line of the slice being copied fails its code: inside a plane slot the resident form replaces it; elsewhere the
substitution fails, and the slot with it (R382). -/
def fillLost (f : Nat) (e : LineErr) : Bool :=
  let o := e.addr - stagingAddr f 0
  decide (2 < e.syms) && stagingFold e.addr == some f && decide (0xA80000 ≤ o)

/-- A line that fails its code and that no resident form replaces ends a substitution: its slot fails, and the spare is free (R382). -/
def failFill (s : State) (x : Fill) : State :=
  let s := setRole (failSlot (dropFill s x.spare) x.slot) x.spare roleSpare none
  if x.why = 0 then setRot s (dieOf x.spare) 0 0 else s

/-- A spare's copy holds every line, or has lost one for good (R382). -/
def finishFill (s : State) (x : Fill) (bad : List LineErr) : State :=
  let s := restoreLines (forEach s bad (fun s e => lineError s none e))
  if bad.any (fillLost x.fold) || s.care.bad.any (fun e => stagingFold e.2 == some x.fold) then failFill s x
  else s.setCare { s.care with fills := s.care.fills.map (fun y => if y.spare = x.spare then { y with left := 0, done := true } else y) }

/-! ## The switch (R60, R384, R386, R494) -/

/-- Copy the listed bytes of `n` addresses from `src` to `dst`, the other bytes of the destination range being default. -/
def moveRange {α : Type} [DecidableEq α] (d : α) (m : SMap α) (src dst n : Nat) : SMap α :=
  let kept := m.filter (fun e => decide (e.1 < dst) || decide (dst + n ≤ e.1))
  (m.filter (fun e => decide (src ≤ e.1) && decide (e.1 < src + n))).foldl (fun acc e => putD d acc (e.1 - src + dst) e.2) kept

/-- Copy `n` bytes of device memory. -/
def moveMem (s : State) (src dst n : Nat) : State :=
  (s.setMem (moveRange emptyByte s.mem src dst n)).setFresh (moveRange 0 s.fresh src dst n)

/-- Reload a plane of the spare from the origins of the plane it replaces (R384, R386). -/
def reloadPlane (s : State) (g : Nat) (old mine : Plane) : Plane :=
  let p := (List.range 64).foldl (fun p i =>
    let o := getD 0 old.origins i
    if o = 0 then p else loadGroup s g (o - 1) (getD 0 old.kinds i) p i) mine
  let p := if old.side = 0 then p else loadSide s g (old.side - 1) p
  { p with kind := old.kind, poisoned := false, origins := old.origins, kinds := old.kinds, side := old.side }

/-- An array of the spare with the planes of the array it replaces, and its own trims. -/
def reloadArray (s : State) (g : Nat) (old mine : Arr) : Arr :=
  { mine with p0 := reloadPlane s g old.p0 mine.p0, p1 := reloadPlane s g old.p1 mine.p1, act1 := old.act1
              win := none, reopen := false, blk := CollieBlock.empty, audit := none, audited := false }

/-- The spare's fold after a switch: the work and the carry store of the released fold, the spare's own arrays' trims.
A step that starts without a replay takes its carried tiles from the moved carry store too (DEDUCED, log entry 15). -/
def takeOver (s : State) (old mine : Fold) (g : Nat) : Fold :=
  { mine with
    arrays := (List.range 16).foldl (fun m a => putD Arr.init m a (reloadArray s g (old.arr a) (mine.arr a))) mine.arrays
    tiles := old.carry, carry := old.carry, drove := old.drove, laneBuf := old.laneBuf, landed := old.landed
    applied := old.applied, cancel := old.cancel, next := 0, now := old.now, pc := 0, lastPc := 0, iter := 0, loops := []
    halted := false, faults := [], oldFaults := old.oldFaults, ctx := old.ctx, kept := old.kept, resFaulted := old.resFaulted
    sameHw := false, lastData := 0, force := false, forceHeld := false, period := false, calDue := false, calBoot := false }

/-- The released fold after a switch: nothing runs on it. -/
def releasedFold (old : Fold) : Fold :=
  { Fold.init with spent := old.spent, arrays := old.arrays.map (fun e => (e.1, { e.2 with win := none, reopen := false })) }

/-- A fold of a die is under test. -/
def dieTesting (s : State) (die : Nat) : Bool := (foldsOf die).any (fun f => roleOf s f == roleTesting)

/-- The fold of a die that is under test. -/
def rotFold (s : State) (die : Nat) : Option Nat := (foldsOf die).find? (fun f => roleOf s f == roleTesting)

/-- The role of the released fold: under test after a planned switch, once no other fold of its die is (until then it waits as a quarantined
fold does; DESIGN CHOICE, log entry 110); awaiting the verdict of its dispute; retired when it has failed its test in place; or quarantined,
as after a suspect that has recurred on it (R15, R377, R380, R383, R390, R521). -/
def releaseRole (s : State) (x : Fill) : State :=
  let f := x.fold
  let recurred := (getFold s f).sameHw
  let s := modFold s f releasedFold
  if x.why = 0 then
    if dieTesting s (dieOf f) then setRot (setRole s f roleQuarantined none) (dieOf f) 2 ((rotFold s (dieOf f)).getD f)
    else setRot (setRole (wr0 s (foldPg f) F.FOLD_STATE 1) f roleTesting none) (dieOf f) 2 f
  else if x.why = 1 ∧ !recurred ∧ s.care.disputes.any (fun d => d.fold == f) then
    setRole (s.setCare { s.care with released := s.care.released ++ [f] }) f roleQuarantined none
  else if roleOf s f = roleRetired then setRole s f roleRetired none
  else quarantine s f

/-- The live heft map changes: slot `k` moves to fold `g` (R18, R19), and with it the page owner (R494). -/
def moveSlot (s : State) (f g k : Nat) : State :=
  let s := wr s iodPg F.HEFT_SLOT_FOLD k g
  let gen := rd s iodPg F.HEFT_GEN
  let s := wr0 s iodPg F.HEFT_GEN (if gen + 1 = 2 ^ 32 then 1 else gen + 1)
  let s := wrPair s iodPg F.HEFT_TALLY_LO F.HEFT_TALLY_HI s.tally.num
  let s := wr0 s (foldPg g) F.LOCK_OWNER (rd s (foldPg f) F.LOCK_OWNER)
  wr0 s (foldPg f) F.LOCK_OWNER 0

/-- A slot that moves within a round takes the cycles that its old fold has paused in it along (R306). -/
def carryRound (s : State) (k before after : Nat) : State := s.setDrover { s.drover with
  roundMore := putD 0 s.drover.roundMore k (getD 0 s.drover.roundMore k + before - getD 0 s.drover.roundStart k)
  roundStart := putD 0 s.drover.roundStart k after }

/-- A live heft map change passes its hardware check: both folds lie on the slot's die, and the spare stands by for the slot (R14, R18,
R375). -/
def moveOk (s : State) (x : Fill) : Bool :=
  dieOf x.fold == dieOf x.spare && dieOf x.fold == x.slot / 32 && roleOf s x.spare == roleFilling && rd s (foldPg x.spare) F.FOLD_ROLE_SLOT == x.slot

/-- The switch of a completed fill (R384). A change of the heft map that fails its check is refused (R375, R492). -/
def switchNow (s : State) (x : Fill) : State :=
  if moveOk s x then
    let f := x.fold
    let g := x.spare
    let old := getFold s f
    let s := moveMem s (stagingAddr f 0) (stagingAddr g 0) fillBytes
    let s := cureLines s (fun a => stagingFold a == some f || stagingFold a == some g)
    let s := forEach s [0, 1] (fun s b =>
      let a := 64 * bits (controlBlock s f) (16 + 16 * b) 16
      moveMem s (vsAddr f a) (vsAddr g a) 73856)
    let s := discardWindows s f
    let s := putFold s g (takeOver s old (getFold s g) g)
    let s := wr0 s (foldPg g) F.ACC_CARRIED (rd s (foldPg f) F.ACC_CARRIED)
    let s := wr0 s (foldPg f) F.ACC_CARRIED 0
    let s := setRole (carryRound (moveSlot s f g x.slot) x.slot (foldPause s f) (foldPause s g)) g roleServing (some x.slot)
    let s := pageFold s (((foldFlock s g).map (fun k => (getFlock s k).round)).getD 0) g
    let s := releaseRole s x
    let s := dropFill s g
    s.setCare { s.care with located := s.care.located.filter (· != f) }
  else accessError (dropFill s x.spare) iodPg 0 (.core 0) 1 x.slot

/-- The pause of a switch, with what is left of the fill before it (R384, R385). -/
def pauseSwitch (s : State) (g n : Nat) : State := askPause (bump s (foldPg g) F.SPARE_PAUSE_CYC n) (pauseKey (6000 + g) causeSwitch) n

/-- The switch of a completed fill at cycle 0 of a tick (R384). -/
def switchFold (s : State) (x : Fill) : State := pauseSwitch (switchNow s x) x.spare 2560

/-- SPARE_SWITCH_END: the switch pause of a spare ends, once the fill that it covers has. -/
def execSpareSwitchEnd (spare : Fin 68) (s : State) : Host.Outcome State Fault Refusal :=
  let k := pauseKey (6000 + spare.val) causeSwitch
  let n := getD 0 s.pause.owed k
  if n = 0 ∨ s.care.fills.any (fun x => x.spare == spare.val && x.due) then .next s
  else
    let other := (dropKey s.pause.owed k).foldl (fun m e => max m e.2) 0
    if other < n then
      let s := s.setPause { s.pause with owed := (dropKey s.pause.owed k).filter (fun e => decide (n < e.2)), taken := s.pause.taken + n }
      .next (forEach s allFolds (fun s f => bump s (foldPg f) F.PAUSE_SEEN_CYC n))
    else .next (s.setPause { s.pause with owed := dropKey s.pause.owed k })

/-! ## In-field tests (R146, R388 to R392) -/

/-- Start the test of a fold in place; a fold that serves a slot keeps it, and a quarantined one has none (R388, R390, R391). -/
def startTest (s : State) (f : Nat) : State :=
  setRot (setRole (wr0 s (foldPg f) F.FOLD_STATE 1) f roleTesting (if roleOf s f = roleQuarantined then none else slotOfFold s f)) (dieOf f) 2 f

/-- The slot that a fold under test keeps. -/
def testSlot (s : State) (f : Nat) : Option Nat := if rd s (foldPg f) F.FOLD_ROLE_SLOTV = 1 then some (rd s (foldPg f) F.FOLD_ROLE_SLOT) else none

/-- Tally of the last passed test of a fold; 0 when none since reset. -/
def lastTest (s : State) (f : Nat) : Nat := rdPair s (foldPg f) F.LAST_TEST_LO F.LAST_TEST_HI

/-- The fold of a die whose last passed test is oldest, the lower number on a tie (R391). Retired folds are left out. -/
def oldestFold (s : State) (die : Nat) : Option Nat :=
  ((foldsOf die).filter (fun f => roleOf s f != roleRetired)).foldl (fun m f => match m with
    | none => some f
    | some g => if lastTest s f < lastTest s g then some f else m) none

/-- The rotation's choice acts on the fold's role (R391). -/
def rotate (s : State) (die f : Nat) : State :=
  if roleOf s f = roleSpare then startTest s f
  else if roleOf s f = roleServing then
    match slotOfFold s f with
    | none => s
    | some k =>
      if slotUsed s k then
        match freeSpare s die with
        | some sp => setRot (startFill s sp f k 0) die 1 f
        | none => s
      else startTest s f
  else s

/-- ROTATION (R391): ROT_INTERVAL has passed on a die. A die tests one fold at a time, and quarantined folds come first. -/
def execRotation (die : Fin 2) (s : State) : Host.Outcome State Fault Refusal :=
  let busy := dieTesting s die || s.care.fills.any (fun x => dieOf x.spare == die.val && x.why == 0)
    || (foldsOf die).any (fun f => roleOf s f == roleQuarantined && !s.care.released.contains f)
  if rd s testPg F.ROT_CTRL_EN = 1 ∧ !busy then
    match oldestFold s die with
    | some f => .next (rotate s die f)
    | none => .next s
  else .next s

/-- QUARANTINE_TEST_START (R388): as soon as no other fold of the die is under test, and the core that runs the tests is not halted
(R469). -/
def execQuarantineTestStart (fold : Fin 68) (s : State) : Host.Outcome State Fault Refusal :=
  if roleOf s fold = roleQuarantined ∧ !dieTesting s (dieOf fold) ∧ !serviceWaits s .tests ∧ !s.care.released.contains fold.val then
    .next (startTest s fold)
  else .next s

/-- A fold fails its test: it is retired, and a slot it serves moves to a spare or fails (R388, R390). -/
def testFailed (s : State) (f : Nat) : State :=
  let s := errEvent (bump s testPg F.TEST_FAIL_CNT) testPg 5
  let k := testSlot s f
  let s := setRole s f roleRetired k
  match k with
  | none => s
  | some k => match nextSpare s (dieOf f) with
    | (some sp, s) => startFill s sp f k 2
    | (none, s) => failSlot s k

/-- A fold passes its test (R388, R390). -/
def testPassed (s : State) (f : Nat) : State :=
  let s := wrPair (bump s testPg F.TEST_PASS_CNT) (foldPg f) F.LAST_TEST_LO F.LAST_TEST_HI s.tally.num
  let s := wrBit s testPg F.TEST_OVERDUE (f / 32) (f % 32) false
  let s := s.setCare { s.care with tested := putD 0 s.care.tested f s.tally.tb }
  match testSlot s f with
  | some k => setRole s f roleServing (some k)
  | none => setRole s f roleSpare none

/-- A fold is due for its test: 24 hours have passed since it last passed one, or since reset (R392). -/
def testDue (s : State) (f : Nat) : Bool := decide (getD 0 s.care.tested f + 24 * hourUnits ≤ s.tally.tb)

/-- A serving fold whose slot no active drove uses. -/
def idleServing (s : State) (f : Nat) : Bool := roleOf s f == roleServing && !(slotOfFold s f).any (slotUsed s)

/-- The forced tests of due folds whose die is free of tests start (R392). -/
def startForced (s : State) : State :=
  forEach s s.care.forced (fun s f =>
    if !idleServing s f then s.setCare { s.care with forced := s.care.forced.filter (· != f) }
    else if dieTesting s (dieOf f) then s
    else startTest (s.setCare { s.care with forced := s.care.forced.filter (· != f) }) f)

/-- SCAN_TEST_DONE (R390): the scan patterns have run, and then the boot calibration, which needs the fold's sensor to have
published (R69, R517). -/
def execScanTestDone (fold : Fin 68) (pass : Bool) (results : List CalResult) (s : State) : Host.Outcome State Fault Refusal :=
  if roleOf s fold = roleTesting ∧ hasSample s fold then
    let (ok, s) := calibrateFold s fold results
    let s := setRot (wr0 s (foldPg fold) F.FOLD_STATE 0) (dieOf fold) 0 0
    .next (startForced (if pass && ok then testPassed s fold else testFailed s fold))
  else .next s

/-- TEST_OVERDUE (R392): a due fold has been deferred for 72 hours. -/
def execTestOverdue (fold : Fin 68) (s : State) : Host.Outcome State Fault Refusal :=
  match slotOfFold s fold with
  | none => .next s
  | some k =>
    if slotUsed s k ∧ (sparesOf s (dieOf fold)).isEmpty ∧ !rdBit s testPg F.TEST_OVERDUE (fold / 32) (fold % 32) then
      let s := wrBit (errEvent s testPg 4) testPg F.TEST_OVERDUE (fold / 32) (fold % 32) true
      .next (logWrite s testPg 0x81 0xFF [(32, fold)])
    else .next s

/-- Retire the fold that RETIRE_REQ names (R388, R401). -/
def retireFold (s : State) (src : Source) : State :=
  let f := rd s testPg F.RETIRE_REQ_FOLD
  if s.care.droveRan ∨ 67 < f ∨ (slotOfFold s f).isSome then accessError s testPg 0x074 src 0 (f + 128)
  else setRole s f roleRetired none

/-- RETIRE (R388, R401). -/
def execRetire (src : Source) (s : State) : Host.Outcome State Fault Refusal := .next (onPage s src testPg (retireFold · src))

/-! ## FOLD_STATE and the tile window (R146, R147, R516) -/

/-- Write FOLD_STATE. A value of 3 is ignored and recorded too (R152). -/
def writeFoldState (s : State) (src : Source) (f v : Nat) : State :=
  if srcPen src = 0 ∧ (slotOfFold s f).isNone ∧ v < 3 then wr0 s (foldPg f) F.FOLD_STATE v
  else accessError s (foldPg f) 0x780 src 0 v

/-- FOLD_STATE (R146). -/
def execFoldState (src : Source) (fold : Fin 68) (v : BitVec 2) (s : State) : Host.Outcome State Fault Refusal :=
  .next (onPage s src (foldPg fold) (writeFoldState · src fold v.toNat))

/-- The tile window of a fold is open to a source: TEST or RECOVERY, and pen 0 or the pen that owns the fold (R147). -/
def windowOpen (s : State) (src : Source) (f : Nat) : Bool :=
  rd s (foldPg f) F.FOLD_STATE != 0 && seesPage s src (foldPg f)

/-- A tile that a window write redefines (R516). -/
def redefine (t : Tile) : Tile := { t with windowed := true, convs := [] }

/-- The marks word of a tile (R147). -/
def marksWord (t : Tile) : Nat :=
  ofSigned t.te 8 + 256 * b2n t.sat + 512 * b2n t.xdoubt + 1024 * b2n t.poison + 2048 * b2n t.open_ + 4096 * t.tag
    + 2 ^ 20 * t.rows + 2 ^ 36 * b2n t.carried + 2 ^ 37 * t.mode

/-- A tile with the marks of a marks word. -/
def withMarks (t : Tile) (v : Nat) : Tile :=
  { t with te := toSigned (bits v 0 8) 8, sat := bit v 8, xdoubt := bit v 9, poison := bit v 10, open_ := bit v 11
           tag := bits v 12 8, rows := bits v 20 16, carried := bit v 36, mode := bits v 37 2 }

/-- Write one word of the tile window: elements, doubts and marks. No claim is checked (R140; DESIGN CHOICE, log entry 128). -/
def tileWrite (s : State) (src : Source) (f o v : Nat) : State :=
  if o < 0x400000 ∧ o % 8 = 0 then
    let top := bits v 39 25
    if top = 0 ∨ top = 2 ^ 25 - 1 then
      modTile s f (o / 0x8000) (fun t => redefine { t with m := putD 0 t.m (o % 0x8000 / 8) (toSigned v 40) })
    else accessError s (foldPg f) (o % 65536) src 0 v
  else if 0x400000 ≤ o ∧ o < 0x500000 ∧ o % 2 = 0 then
    let k := o - 0x400000
    modTile s f (k / 0x2000) (fun t => redefine { t with b := putD 0 t.b (k % 0x2000 / 2) (v % 65536) })
  else if 0x500000 ≤ o ∧ o < 0x500400 ∧ o % 8 = 0 then
    modTile s f ((o - 0x500000) / 8) (fun t => redefine (withMarks t v))
  else accessError s iodPg 0 src 0 v

/-- Read one word of the tile window. -/
def tileRead (s : State) (f o : Nat) : Nat :=
  if o < 0x400000 then ofSigned (getD 0 ((getFold s f).tile (o / 0x8000)).m (o % 0x8000 / 8)) 64
  else if o < 0x500000 then getD 0 ((getFold s f).tile ((o - 0x400000) / 0x2000)).b ((o - 0x400000) % 0x2000 / 2)
  else if o < 0x500400 then marksWord ((getFold s f).tile ((o - 0x500000) / 8))
  else 0

/-- TILE_WINDOW_WRITE (R147, R516); in SERVICE the write is ignored. -/
def execTileWindowWrite (src : Source) (fold : Fin 68) (offset : BitVec 24) (v : BitVec 64) (s : State) : Host.Outcome State Fault Refusal :=
  .next (if windowOpen s src fold then tileWrite s src fold offset.toNat v.toNat else s)

end Sys2Proof.Machine
end

