-- ==== Sys2Proof/Machine/Registers.lean ====
section
/-! DEFINITION. Reading and writing register words and device addresses (R9 to R12, R239, R261, R399, R402, R416, R453, R484 to
R499). -/

namespace Sys2Proof.Machine

/-! ## Fields of a word -/

/-- The instance of a field whose word lies at offset `o`. -/
def fieldAt (f : Field) (o : Nat) : Option Nat :=
  if o < f.off then none
  else if f.n ≤ 1 then (if o = f.off then some 0 else none)
  else
    let d := o - f.off
    if d % f.stride = 0 ∧ d / f.stride < f.n then some (d / f.stride) else none

/-- The fields of the word at offset `o` of a page, with their instances. -/
def fieldsAt (pg o : Nat) : List (Field × Nat) := match pageType pg with
  | some t => (headerFields ++ blockFields t).filterMap (fun f => (fieldAt f o).map (fun i => (f, i)))
  | none => []

/-! ## Values that the registers show live (R71, R104, R152, R195, R318, R319, R342, R365, R366, R483, R485, R495 to R498) -/

/-- FAULT of a page: an error bit that is not masked. -/
def pageFault (s : State) (pg : Nat) : Bool :=
  let e := rd s pg F.ERR_SUM
  e &&& rd s pg F.ERR_MASK != e

/-- The pages that a pen's view shows (R495). -/
def penSees (s : State) (p pg : Nat) : Bool := decide (pg < 207) && (p == 0 || rd s pg F.LOCK_OWNER == p)

/-- A 32-bit word of a test over pages 32k to 32k + 31. -/
def pageBits (k : Nat) (test : Nat → Bool) : Nat := ((List.range 32).map (fun b => if test (32 * k + b) then 2 ^ b else 0)).sum

/-- The flags of layer tag `t` of a fold: four fields of 256 instances. -/
def tagFlags (s : State) (pg : Nat) : List Nat :=
  [F.RECIPE_FLAGS0, F.RECIPE_FLAGS1, F.RECIPE_FLAGS2, F.RECIPE_FLAGS3].flatMap (fun f => (List.range 256).map (fun i => rd s pg f i))

/-- Channels open or orphaned. -/
def channelsUsed (s : State) : Nat :=
  ((List.range 16).map (fun p => ((List.range 128).filter (fun c => chanState s p c != 0)).length)).sum

/-- The object that UPD_PIECES counts: pieces written and piece count of the bank or the policy that is being filled. -/
def fillCounts (s : State) : Nat × Nat :=
  let b := getBank s (idleBank s)
  let x := getSlot s (stagedSlot s)
  if b.st = 1 then (b.pieces.length, manifestPieces b.manifest) else if x.st = 1 then (x.pieces.length, x.count) else (0, 0)

/-- Header fields that follow from others. -/
def liveHeader (s : State) (pg : Nat) (f : Field) : Option Nat :=
  if f = F.PAGE_ID_TYPE then some (pageCode pg) else if f = F.PAGE_ID_INSTANCE then some (pageInstance pg)
  else if f = F.PAGE_ID_INDEX then some pg
  else if f = F.CAPS_OWNABLE then some (b2n ([3, 4, 6].contains (pageCode pg)))
  else if f = F.CAPS_KEEPS then some (b2n ([15, 16].contains (pageCode pg)))
  else if f = F.STATUS_FAULT then some (b2n (pageFault s pg))
  else if f = F.STATUS_LOCKED then some (rd s pg F.LOCK_BOOT_LOCK)
  else none

/-- Block fields that follow from the rest of the state. ARR_TRIM_DATA shows a set that applies at the boundary just passed, whether or
not its CAL_APPLY has been taken yet (R59, R72). -/
def liveBlock (s : State) (pg : Nat) (f : Field) (i : Nat) : Option Nat := match pageType pg with
  | some .fold =>
    let x := getFold s (pg - 18)
    let a := x.arr (rd s pg F.ARR_TRIM_SEL_ARRAY)
    let c := rd s pg F.ARR_TRIM_SEL_COL
    let new := if roleOf s (pg - 18) = roleServing then dueTrims s a else none
    if f = F.ARR_TRIM_DATA_G then some (match new with | some t => t.g.getD c 0 | none => getD 16384 a.g c)
    else if f = F.ARR_TRIM_DATA_O then some (ofSigned (match new with | some t => t.o.getD c 0 | none => getD 0 a.o c) 16)
    else if f = F.RECIPE_SUM_TAGS then some ((tagFlags s pg).filter (· != 0)).length
    else if f = F.RECIPE_SUM_ANY then some ((tagFlags s pg).foldl (· ||| ·) 0)
    else if f = F.TILE_POISON then some (pageBits i (fun t => (x.tile t).poison))
    else if f = F.SEQ_STATUS_FROZEN then some (b2n (frozen s))
    else if f = F.ACC_STATUS_CTX_BUSY then
      some (if tickCycle s (clock s) < 3616 then rd s pg F.ACC_STATUS_CTX_BUSY else 0)
    else if f = F.LANE_APPLIED then some (bits x.applied (32 * i) 32)
    else none
  | some .drover =>
    if f = F.DRV_RESIDENT then some (allReqs s).length
    else if f = F.DRV_QUEUED then some ((allReqs s).filter (fun r => r.phase == 0)).length
    else none
  | some .pen =>
    let p := pg - 2
    if f = F.KV_FREE then some (min (kvCounts s p).1 0xFFFFFF) else if f = F.KV_CACHED then some (min (kvCounts s p).2 0xFFFFFF)
    else if f = F.PEN_QP_USED then some (qpsUsed s (fun q => q.pen == p))
    else if f = F.PEN_PAGES then some (pageBits i (penSees s p))
    else none
  | some .eth => if f = F.PTP_NOW_LO then some (s.ptp.now % 2 ^ 32) else if f = F.PTP_NOW_HI then some (s.ptp.now / 2 ^ 32 % 2 ^ 32) else none
  | some .iod =>
    let r := getD 0 s.views.routes (rd s pg F.MSG_RT_SEL)
    if f = F.MSG_RT_DATA_PRI ∨ f = F.MSG_RT_DATA_PVALID ∨ f = F.MSG_RT_DATA_ALT ∨ f = F.MSG_RT_DATA_AVALID then some (bits r f.lo f.width) else none
  | some .dir =>
    if f = F.DIR_ERR then some (pageBits i (pageFault s)) else if f = F.DIR_SAT then some (pageBits i (fun p => rd s p F.STATUS_SAT == 1))
    else if f = F.DIR_ENTRY_TYPE then some (pageCode i) else if f = F.DIR_ENTRY_INSTANCE then some (pageInstance i)
    else if f = F.DIR_ENTRY_OWNER then some (rd s i F.LOCK_OWNER)
    else none
  | some .log => if f = F.LOG_ENTRY then some (bits s.views.entry (32 * i) 32) else none
  | some .shob =>
    if f = F.SHOB_STATUS_QPS then some (allQps s) else if f = F.SHOB_STATUS_CHANNELS then some (channelsUsed s) else none
  | some .upd =>
    if f = F.UPD_PIECES_DONE then some (fillCounts s).1 else if f = F.UPD_PIECES_COUNT then some (fillCounts s).2 else none
  | _ => none

/-- The value that a read of a field returns (R9): an SC field reads 0. -/
def fieldValue (s : State) (pg : Nat) (f : Field) (i : Nat) : Nat := match liveHeader s pg f with
  | some v => v
  | none => match liveBlock s pg f i with
    | some v => v
    | none => if f.acc = .sc then 0 else rd s pg f i

/-- The value of a word: reserved bits and offsets read as zero (R10). -/
def wordValue (s : State) (pg o : Nat) : Nat := ((fieldsAt pg o).map (fun (e : Field × Nat) => fieldValue s pg e.1 e.2 % 2 ^ e.1.width * 2 ^ e.1.lo)).sum

/-! ## Latched pairs and the log page (R489, R497) -/

/-- Whether the word at an offset is the low word of a latched value: the high word is the next one (R489). -/
def isLowWord (pg o : Nat) : Bool := match pageType pg with
  | some .iod => o == 0x040 || o == 0x054
  | some .fold => o == 0x928
  | some .hbm => o == 0x070
  | some .tally => o == 0x068 || o == 0x070 || (decide (0x300 ≤ o) && decide (o < 0x380) && o % 8 == 0)
  | some .pen => o == 0x4A4 || o == 0x588
  | some .eth => o == 0x044 || o == 0x078 || o == 0x080
  | some .test => o == 0x078
  | _ => false

/-- The latch key of a reader and a word. -/
def latchKey (src : Source) (pg o : Nat) : Nat := 2 ^ 18 * srcReader src + 1024 * pg + o / 4

/-- A read of a low word latches the high word for its reader. -/
def latchHigh (s : State) (src : Source) (pg o : Nat) : State :=
  if isLowWord pg o then s.setViews { s.views with hi := putD 0 s.views.hi (latchKey src pg (o + 4)) (wordValue s pg (o + 4) + 1) } else s

/-- A read of LOG_ENTRY[0] judges and latches the entry that LOG_SEL names (R497). -/
def latchEntry (s : State) : State :=
  let sel := rd s logPg F.LOG_SEL
  let d := (2 ^ 32 + rd s logPg F.LOG_INDEX - sel) % 2 ^ 32
  let st := if d = 0 ∨ 2 ^ 31 ≤ d then 2 else if d ≤ 32768 then 0 else 1
  (wr0 s logPg F.LOG_SEL_STATUS st).setViews { s.views with entry := if st = 0 then getD 0 s.log (sel % 32768) else 0 }

/-- A read of LOG_ENTRY[15] with AUTO set moves on to the next entry (R497). -/
def autoAdvance (s : State) : State :=
  if rd s logPg F.LOG_CTRL = 1 then
    let n := rd s logPg F.LOG_SEL + 1
    wr0 (wr0 s logPg F.LOG_SEL n) logPg F.LOG_READ (rd (wr0 s logPg F.LOG_SEL n) logPg F.LOG_SEL)
  else s

/-- A register that keeps the largest value seen rises to a free value of at most `cap`. -/
def freePeak (s : State) (pg : Nat) (f : Field) (cap : Nat) : State :=
  let (v, s) := drawNat s
  wr0 s pg f (max (rd s pg f) (v % (cap + 1)))

/-- Registers that show physical events without a command of their own: what has happened since the last read is free (R22, R25,
R341, R365, R499). -/
def refreshFree (s : State) (pg o : Nat) : State := match pageType pg with
  | some .link => if o = 0x050 then (let (v, s) := drawNat s; bump s pg F.FEC_CORR_SYM v) else s
  | some .eth =>
    if o = 0x058 then (let (v, s) := drawNat s; bump s pg F.ETH_FEC_UNCORR v)
    else if o = 0x080 ∨ o = 0x084 then passTime s else s
  | some .noc => if o = 0x050 then freePeak s pg F.NOC_LAND_PEAK 65535 else if o = 0x054 then freePeak s pg F.IODB_LAT_MAX 1000 else s
  | _ => s

/-- A read of one register word by a source: a hidden page and a missing one read as zero (R11, R484). -/
def readWord (s : State) (src : Source) (pg o : Nat) : Nat × State :=
  if !seesPage s src pg then (0, s)
  else if pg = logPg ∧ o = 0x100 then (let s := latchEntry s; (wordValue s pg o, s))
  else if pg = logPg ∧ o = 0x13C then (wordValue s pg o, autoAdvance s)
  else
    let s := refreshFree s pg o
    let v := getD 0 s.views.hi (latchKey src pg o)
    (if v = 0 then wordValue s pg o else v - 1, latchHigh s src pg o)

/-- HI_WORD_LATCH (R489). -/
def execHiWordLatch (src : Source) (page : Fin 256) (word : Fin 1024) (s : State) : Host.Outcome State Fault Refusal :=
  .next (onPage s src page (fun s => latchHigh (refreshFree s page (4 * word.val)) src page (4 * word.val)))

/-- LOG_ENTRY_LATCH (R497). -/
def execLogEntryLatch (src : Source) (s : State) : Host.Outcome State Fault Refusal := .next (onPage s src logPg latchEntry)

/-- LOG_AUTO_ADVANCE (R497). -/
def execLogAutoAdvance (src : Source) (s : State) : Host.Outcome State Fault Refusal := .next (onPage s src logPg autoAdvance)

/-! ## Writing a word by its fields' access codes (R9, R10, R485, R488) -/

/-- A number brought between two limits. -/
def between (lo hi v : Nat) : Nat := if v < lo then lo else if hi < v then hi else v

/-- Store a value in one field by its access code; `open_` says that the boot lock is not set. -/
def storeField (s : State) (pg v : Nat) (open_ : Bool) (f : Field) (i : Nat) : State :=
  let x := bits v f.lo f.width
  match f.acc with
  | .ro => s
  | .sc => s
  | .rw => wr s pg f i (between f.wlo f.whi x)
  | .w1c => wr s pg f i (rd s pg f i ^^^ (rd s pg f i &&& x))
  | .rwl => if open_ then wr s pg f i (if f = F.LOCK_BOOT_LOCK then rd s pg f i ||| x else x) else s
  | .sat => if x = 0 then wr s pg f i 0 else s

/-- Store a word in its fields. A write to an RWL field after the boot lock is an access error. -/
def storeWord (s : State) (src : Source) (pg o v : Nat) : State :=
  let fs := fieldsAt pg o
  let open_ := rd s pg F.LOCK_BOOT_LOCK == 0
  let s := if !open_ && fs.any (fun e => e.1.acc == .rwl) then accessError s pg o src 0 v else s
  forEach s fs (fun s (e : Field × Nat) => storeField s pg v open_ e.1 e.2)

/-- Clear every SAT counter of a page and STATUS [0] (R485). -/
def clearCounters (s : State) (pg : Nat) : State := match pageType pg with
  | some t =>
    let s := forEach s ((headerFields ++ blockFields t).filter (fun f => f.acc == .sat)) (fun s f =>
      forEach s (List.range (max 1 f.n)) (fun s i => wr s pg f i 0))
    wr0 s pg F.STATUS_SAT 0
  | none => s

/-! ## Writes with conditions of their own -/

/-- The regions of a pen stand as R261 wants them. -/
def regionsOk (s : State) (p : Nat) : Bool :=
  let rs := penRegions s p
  rs.all (fun r => r.size == 0 || inWindow s p r.base r.size)
    && (List.range rs.length).all (fun i => (List.range rs.length).all (fun j => i == j || (match rs[i]?, rs[j]? with
      | some a, some b => !a.meets b
      | _, _ => true)))
    && decide (rd s (penPg p) F.JRNL_SIZE ≤ 1048576) && decide (rd s (penPg p) F.PFX_SETS ≤ 21) && decide (((List.range 16).map (prefixSets s)).sum ≤ 2097152)

/-- The checkpoint area holds the parts in force (R399). -/
def checkpointOk (s : State) (p : Nat) : Bool :=
  let pg := penPg p
  let m := ((List.range 16).filter (fun f => bit (rd s pg F.CKPT_CTRL_FLOCKS) f)).length
  let slot := rd s pg F.CKPT_SLOT
  let need := if rd s pg F.CKPT_CTRL_MIRROR = 1 then 4 * m * slot + rd s pg F.KV_SIZE + rd s pg F.JRNL_SIZE else 2 * m * slot
  decide (need ≤ rd s pg F.CKPT_SIZE)

/-- A write that stands only when the state it leaves meets a test; otherwise it is an access error. -/
def guarded (s : State) (src : Source) (pg o v : Nat) (test : State → Bool) : State :=
  let t := storeWord s src pg o v
  if test t then t else accessError s pg o src 0 v

/-- A pen has an ACTIVE or HELD drove. -/
def droveRuns (s : State) (p : Nat) : Bool := s.droves.any (fun e => e.2.pen == p && (e.2.st == 3 || e.2.st == 4))

/-- The ring of a channel is to be served. -/
def ring (s : State) (p c : Nat) : State := s.setRung (s.rung ++ [chanKey p c])

/-- A doorbell of a submission ring (R355): whether it is accepted, and the state it leaves. -/
def doorbell (s : State) (p c v : Nat) : State :=
  let head := rd s (penPg p) F.CH_SQ_HEAD c
  if serialNewer 32 v head ∧ (2 ^ 32 + v - head) % 2 ^ 32 ≤ (getChan s p c).slots then
    ring (wr s (penPg p) F.CH_SQ_TAIL c v) p c
  else bump s (penPg p) F.DB_BAD

/-- The host returns its token ring head (R361). -/
def ringHead (s : State) (p c v : Nat) : State := drain (wr s (penPg p) F.CH_TR_HEAD c v) p c

/-- A write to a word of a PEN page. An extent's start above 1,535 is no start in a port (R264): the write is ignored and recorded (DESIGN
CHOICE, log entry 101). -/
def writePenWord (s : State) (src : Source) (pg o v : Nat) : State :=
  let p := pg - 2
  if 0x404 ≤ o ∧ o < 0x428 then
    if droveRuns s p then accessError s pg o src 0 v
    else guarded s src pg o v (fun t => regionsOk t p && (o != 0x41C || checkpointOk t p))
  else if 0x200 ≤ o ∧ o < 0x400 ∧ o % 8 = 0 ∧ 1535 < bits v 16 11 then accessError s pg o src 0 v
  else if o = 0x4C0 ∨ o = 0x4CC then guarded s src pg o v (fun t => checkpointOk t p)
  else if 0x430 ≤ o ∧ o < 0x440 then noteConfig (writePfxKey p ((o - 0x430) / 4) v s) src pg o v
  else if o = 0x570 then writeReplay p (bit v 0) (storeWord s src pg o v)
  else if o = 0x574 ∨ o = 0x578 ∨ o = 0x57C then
    if replayState s p = 0 then storeWord s src pg o v else accessError s pg o src 0 v
  else if 0x800 ≤ o ∧ o % 16 = 0 then doorbell s p ((o - 0x800) / 16) v
  else if 0x800 ≤ o ∧ o % 16 = 8 then ringHead s p ((o - 0x808) / 16) v
  else storeWord s src pg o v

/-- CAL_FORCE (R51, R52): a write of ARR_CAL_CTRL with FORCE set that leaves its other fields as they are; a host's is journaled (R408). -/
def execCalForce (src : Source) (fold : Fin 68) (s : State) : Host.Outcome State Fault Refusal :=
  .next (onPage s src (foldPg fold) (fun s =>
    forceCal (noteConfig s src (foldPg fold) 0x400 (wordValue s (foldPg fold) 0x400 + 8192)) fold))

/-- A write to a word of a FOLD page. -/
def writeFoldWord (s : State) (src : Source) (pg o v : Nat) : State :=
  let f := pg - 18
  if o = 0x780 then writeFoldState s src f (bits v 0 2)
  else if o = 0x400 then
    let s := noteConfig (storeWord s src pg o v) src pg o v
    if bit v 13 then forceCal s f else s
  else if o = 0x600 ∨ o = 0x784 then noteConfig (storeWord s src pg o v) src pg o v
  else storeWord s src pg o v

/-- A write to a word of an HKA page. -/
def writeHkWord (s : State) (src : Source) (pg o v : Nat) : State :=
  let u := pg - 195
  let s := storeWord s src pg o v
  if o = 0x040 then (if bit v 15 ∧ hkRuns s then triggerSweep s u else s)
  else if o = 0x050 then (if bit v 9 ∧ hkRuns s then addSpot s u { ch := rd s pg F.SPOT_REQ_CH, avg := rd s pg F.SPOT_REQ_AVG, own := true } else s)
  else s

/-- A write to a word of another page. -/
def writeOtherWord (s : State) (src : Source) (pg o v : Nat) : State := match pageType pg with
  | some .tally =>
    if o = 0x040 then
      let s := writeEnable (bit v 0) (wr0 s pg F.TALLY_CTRL_ROOT (b2n (bit v 1)))
      if bit v 2 ∧ isRoot s ∧ tallyState s = 2 then s.setTally { s.tally with start := true } else s
    else storeWord s src pg o v
  | some .hbm =>
    let s := storeWord s src pg o v
    if o = 0x068 ∧ bit v 6 then startRetire s (pg - 86) (rd s pg F.HBM_RETIRE_REQ_PC) else s
  | some .link =>
    if o = 0x040 then
      let s := writeLinkEnable (pg - 94) (bit v 0) s
      if bit v 1 ∧ linkState s (pg - 94) ≠ 0 then toTrain s (pg - 94) else s
    else storeWord s src pg o v
  | some .iod =>
    if o = 0x208 then s.setViews { s.views with routes := putD 0 s.views.routes (rd s pg F.MSG_RT_SEL) (v % 65536) } else storeWord s src pg o v
  | some .drover => if o = 0x040 then noteConfig (storeWord s src pg o v) src pg o v else storeWord s src pg o v
  | some .pwr =>
    if o = 0x040 then guarded s src pg o v (fun t => decide (((activeDroves s).map (·.sustained)).sum ≤ rd t pg F.PWR_LIMIT))
    else if o = 0x04C then writeMargin (bit v 0) s
    else storeWord s src pg o v
  | some .test =>
    let s := storeWord s src pg o v
    if o = 0x040 then noteConfig s src pg o v else if o = 0x074 ∧ bit v 7 then retireFold s src else s
  | some .boot => if o = 0x050 then (if bit v 0 then warmCommand s 4 else s) else storeWord s src pg o v
  | some .sec => if o = 0x040 then (if bit v 0 then attestStart src s else s) else storeWord s src pg o v
  | _ => storeWord s src pg o v

/-- A write to one register word of a page that the source sees. -/
def writeSeen (s : State) (src : Source) (pg o v : Nat) : State :=
  if o = 0x00C then (if bit v 0 then clearCounters s pg else s)
  else if o < 0x040 then storeWord s src pg o v
  else match pageType pg with
    | some .pen => writePenWord s src pg o v
    | some .fold => writeFoldWord s src pg o v
    | some .hka => writeHkWord s src pg o v
    | _ => writeOtherWord s src pg o v

/-- A write to an index that holds no page is ignored, and the IOD page records it (R484). -/
def noPage (s : State) (src : Source) (o v : Nat) : State := if sourceRuns s src then accessError s iodPg o src 0 v else s

/-- A write of one register word by a source (R9 to R11, R484). -/
def writeWord (s : State) (src : Source) (pg o v : Nat) : State :=
  if 207 ≤ pg then noPage s src o v
  else onPage s src pg (fun s => writeSeen s src pg o v)

/-- CNT_CLR (R485, R488). -/
def execCntClr (src : Source) (page : Fin 256) (s : State) : Host.Outcome State Fault Refusal :=
  .next (if 207 ≤ page.val then noPage s src 0x00C 1 else onPage s src page (clearCounters · page))

/-- BOOT_LOCK (R485): a write of 1. Once it is set, the write is ignored and an access error (R9). -/
def execBootLock (src : Source) (page : Fin 256) (s : State) : Host.Outcome State Fault Refusal :=
  .next (if 207 ≤ page.val then noPage s src 0x030 256 else onPage s src page (fun s =>
    if rd s page F.LOCK_BOOT_LOCK = 1 then accessError s page 0x030 src 0 256 else wr0 s page F.LOCK_BOOT_LOCK 1))

/-! ## Device addresses (R239, R468, R469) -/

/-- Read one 4-byte word of the tile window of a fold. -/
def tileWord (s : State) (src : Source) (f o : Nat) : Nat :=
  if !windowOpen s src f then 0
  else if 0x400000 ≤ o ∧ o < 0x500000 then tileRead s f o + 65536 * tileRead s f (o + 2)
  else bits (tileRead s f (o / 8 * 8)) (8 * (o % 8)) 32

/-- Write one 4-byte word of the tile window of a fold: half of a 64-bit word keeps the other half. -/
def putTileWord (s : State) (src : Source) (f o v : Nat) : State :=
  if !windowOpen s src f then s
  else if 0x400000 ≤ o ∧ o < 0x500000 then tileWrite (tileWrite s src f o (v % 65536)) src f (o + 2) (v / 65536)
  else
    let w := tileRead s f (o / 8 * 8)
    tileWrite s src f (o / 8 * 8) (if o % 8 = 0 then w / 2 ^ 32 * 2 ^ 32 + v else v * 2 ^ 32 + w % 2 ^ 32)

/-- The vector store of a fold is reachable under the same states and pens as the tile window (R239). -/
def reachable (s : State) (src : Source) (a : Nat) : Bool :=
  if 0x10200000000 ≤ a ∧ a < 0x10300000000 then windowOpen s src ((a - 0x10200000000) / 0x1000000) else true

/-- Read one 4-byte word at a device address: memory as the IOD sees it (R248). -/
def deviceRead (s : State) (src : Source) (a : Nat) : Nat × State :=
  if 0x10300000000 ≤ a ∧ a < 0x10300100000 then readWord s src ((a - 0x10300000000) / 4096) (a % 4096)
  else if 0x10100000000 ≤ a ∧ a < 0x10144000000 then (tileWord s src ((a - 0x10100000000) / 0x1000000) (a % 0x1000000), s)
  else (if isMem s a && reachable s src a then leNat ((List.range 4).map (fun j => iodRead s (a + j))) else 0, s)

/-- Write one 4-byte word at a device address; an address without anything is an access error of the IOD page. -/
def deviceWrite (s : State) (src : Source) (a v : Nat) : State :=
  if 0x10300000000 ≤ a ∧ a < 0x10300100000 then writeWord s src ((a - 0x10300000000) / 4096) (a % 4096) v
  else if 0x10100000000 ≤ a ∧ a < 0x10144000000 then putTileWord s src ((a - 0x10100000000) / 0x1000000) (a % 0x1000000) v
  else if isMem s a then (if reachable s src a then iodBytes s a (toLe 4 v) else s)
  else accessError s iodPg (a % 65536) src 0 v

/-- Read words upwards from a device address. -/
def deviceReads (src : Source) : Nat → Nat → State → List Byte × State
  | 0, _, s => ([], s)
  | n + 1, a, s =>
    let (v, s) := deviceRead s src a
    let (bs, s) := deviceReads src n (a + 4) s
    (toLe 4 v ++ bs, s)

/-- Write words upwards from a device address. -/
def deviceWrites (src : Source) : Nat → Nat → List Byte → State → State
  | 0, _, _, s => s
  | n + 1, a, bs, s => deviceWrites src n (a + 4) (bs.drop 4) (deviceWrite s src a (leNat (bs.take 4)))

end Sys2Proof.Machine
end

