-- ==== Sys2Proof/Machine/Net.lean ====
section
/-! DEFINITION. The Ethernet port, connection management, acknowledgements, congestion and precision time (R343 to R346, R350,
R351, R364, R365). -/

namespace Sys2Proof.Machine

/-! ## Link and address rules (R343 to R345) -/

/-- The port is up and the device takes frames. -/
def portUp (s : State) : Bool := netUp s && rd s ethPg F.ETH_STATUS_UP == 1

/-- ETH_LINK_CHANGE (R365): the PCS gains or loses alignment. -/
def execEthLinkChange (up : Bool) (s : State) : Host.Outcome State Fault Refusal :=
  .next (if netUp s then wr0 (wr0 s ethPg F.ETH_STATUS_UP (b2n up)) ethPg F.ETH_STATUS_PCS (b2n up) else s)

/-- The policy defines a pen. -/
def penThere (s : State) (p : Nat) : Bool := (getD PenGrant.none s.boot.pens p).defined

/-- The MAC address of a pen (R344). -/
def penMac (s : State) (p : Nat) : Nat := (rdPair s ethPg F.ETH_MAC_LO F.ETH_MAC_HI + p) % 2 ^ 48

/-- A MAC address as bytes in network order. -/
def macBytes (m : Nat) : List Byte := (toLe 6 m).reverse

/-- A register in network order. -/
def netBytes (n v : Nat) : List Byte := (toLe n v).reverse

/-- The IPv6 address of a pen. -/
def penV6 (s : State) (p : Nat) : List Byte := (List.range 4).flatMap (fun k => netBytes 4 (rd s (penPg p) F.PEN_IPV6 k))

/-- The IPv4 address of a pen, when it has one. -/
def penV4 (s : State) (p : Nat) : Option (List Byte) :=
  if rd s (penPg p) F.PEN_NET_IP4V = 1 then some (netBytes 4 (rd s (penPg p) F.PEN_IPV4)) else none

/-- The tag of a frame is that of a pen: its VLAN, or none (R343, R345). -/
def tagOk (s : State) (p : Nat) (v : Option (BitVec 12)) : Bool :=
  v.map (·.toNat) == (if rd s (penPg p) F.PEN_NET_VLANV = 1 then some (rd s (penPg p) F.PEN_NET_VLAN) else none)

/-- ARP. -/
def typeArp : Nat := 0x0806
/-- IPv4. -/
def typeV4 : Nat := 0x0800
/-- IPv6. -/
def typeV6 : Nat := 0x86DD

/-- An ICMPv6 message of neighbour discovery: types 133 to 137 (RFC 4861). -/
def isDiscovery (f : EthFrame) : Bool :=
  f.etype.toNat == typeV6 && num f.payload 6 1 == 58 && decide (133 ≤ num f.payload 40 1) && decide (num f.payload 40 1 ≤ 137)

/-- A multicast address of PTP, over IPv4 or IPv6. -/
def isPtpGroup (m : Nat) : Bool := m == 0x01005E000181 || m == 0x01005E00006B || m == 0x333300000181 || m == 0x33330000006B

/-- The pens that a frame reaches (R344). -/
def framePens (s : State) (f : EthFrame) : List Nat :=
  let m := f.dst.toNat
  (List.range 16).filter (fun p => penThere s p && tagOk s p f.vlan &&
    (m == penMac s p || (m == 2 ^ 48 - 1 && f.etype.toNat == typeArp) || (m / 2 ^ 32 == 0x3333 && isDiscovery f) || (isPtpGroup m && p == 0)))

/-- Next headers that are extension headers of IPv6. -/
def extHeaders : List Nat := [0, 43, 44, 50, 51, 60, 135, 139, 140]

/-- Every pen's group addresses: all nodes and its own solicited nodes. -/
def groupOk (s : State) (p : Nat) (a : List Byte) : Bool :=
  a == [(0xFF : Byte), 2, 0, 0, 0, 0, 0, 0, 0, 0, 0, 0, 0, 0, 0, 1]
    || a == [(0xFF : Byte), 2, 0, 0, 0, 0, 0, 0, 0, 0, 0, 1, 0xFF] ++ slice (penV6 s p) 13 3

/-- The pens among `ps` whose address an IP packet names; none for a fragment or a packet with extension headers (R345). -/
def packetPens (s : State) (f : EthFrame) (ps : List Nat) : List Nat :=
  if f.etype.toNat = typeV4 then
    let frag := beNat (slice f.payload 6 2) % 16384
    ps.filter (fun p => frag == 0 && (penV4 s p == some (slice f.payload 16 4) || isPtpGroup f.dst.toNat))
  else ps.filter (fun p => !extHeaders.contains (num f.payload 6 1) && (slice f.payload 24 16 == penV6 s p || groupOk s p (slice f.payload 24 16) || isPtpGroup f.dst.toNat))

/-- A frame arrives: the pens that take what it carries, and the counts (R343 to R345). -/
def takeFrame (s : State) (f : EthFrame) : List Nat × State :=
  if !portUp s then ([], s)
  else if f.fcsBad then ([], bump s ethPg F.FCS_ERR)
  else
    let ps := framePens s f
    if f.etype.toNat = 0x8808 ∨ 9216 < f.len + 4 ∨ ps = [] then ([], s)
    else
      let s := bump s ethPg F.FRAMES_RX
      if f.etype.toNat = typeV4 ∨ f.etype.toNat = typeV6 then
        let qs := packetPens s f ps
        (qs, if qs = [] then bump s ethPg F.ADDR_DISCARD else s)
      else (ps, s)

/-! ## Answers (R345) -/

/-- The sum of the 16-bit words of a byte string. -/
def words16 : List Byte → Nat
  | [] => 0
  | [a] => 256 * a.toNat
  | a :: b :: r => 256 * a.toNat + b.toNat + words16 r

/-- The one's complement of the one's complement sum. -/
def checksum (bs : List Byte) : Nat :=
  let v := words16 bs % 65535
  if v = 0 ∧ words16 bs ≠ 0 then 0 else 65535 - v

/-- The pseudo-header of ICMPv6. -/
def pseudo (src dst : List Byte) (n : Nat) : List Byte := src ++ dst ++ netBytes 4 n ++ [(0 : Byte), 0, 0, 58]

/-- A message whose bytes 2 and 3 take its checksum; `pre` is what the sum covers besides. -/
def sealed (pre m : List Byte) : List Byte :=
  let m := m.take 2 ++ [(0 : Byte), 0] ++ m.drop 4
  m.take 2 ++ netBytes 2 (checksum (pre ++ m)) ++ m.drop 4

/-- The ICMPv6 message of an IPv6 packet, when its checksum is right. -/
def icmp6 (b : List Byte) : Option (List Byte) :=
  let m := slice b 40 (beNat (slice b 4 2))
  if num b 6 1 = 58 ∧ checksum (pseudo (slice b 8 16) (slice b 24 16) m.length ++ m) = 0 then some m else none

/-- Answer an ARP request for the IPv4 address of a pen. -/
def answerArp (s : State) (f : EthFrame) (p : Nat) : State :=
  let b := f.payload
  let head := [(0 : Byte), 1, 8, 0, 6, 4, 0]
  if f.etype.toNat = typeArp ∧ slice b 0 8 = head ++ [(1 : Byte)] ∧ penV4 s p = some (slice b 24 4) then
    emitFrame s (.frame p f.src.toNat [] (head ++ [(2 : Byte)] ++ macBytes (penMac s p) ++ slice b 24 4 ++ slice b 8 10))
  else s

/-- Answer a neighbour solicitation for the address of a pen with an advertisement (RFC 4861). One whose source is not yet known
is answered to all nodes. -/
def answerNd (s : State) (f : EthFrame) (p : Nat) : State :=
  let b := f.payload
  match icmp6 b with
  | none => s
  | some m =>
    if f.etype.toNat = typeV6 ∧ num b 7 1 = 255 ∧ num m 0 1 = 135 ∧ num m 1 1 = 0 ∧ 24 ≤ m.length ∧ slice m 8 16 = penV6 s p then
      let src := slice b 8 16
      let known := src.any (· != 0)
      let dest := if known then src else [(0xFF : Byte), 2, 0, 0, 0, 0, 0, 0, 0, 0, 0, 0, 0, 0, 0, 1]
      let adv := [(136 : Byte), 0, 0, 0, if known then 0x60 else 0x20, 0, 0, 0] ++ penV6 s p ++ [(2 : Byte), 1] ++ macBytes (penMac s p)
      emitFrame s (.frame p (if known then f.src.toNat else 0x333300000001) dest (sealed (pseudo (penV6 s p) dest adv.length) adv))
    else s

/-- Answer an ICMP or ICMPv6 echo request. -/
def answerEcho (s : State) (f : EthFrame) (p : Nat) : State :=
  let b := f.payload
  if f.etype.toNat = typeV4 then
    let hl := 4 * (num b 0 1 % 16)
    let m := slice b hl (beNat (slice b 2 2) - hl)
    if num b 9 1 = 1 ∧ num m 0 1 = 8 ∧ num m 1 1 = 0 ∧ checksum m = 0 then
      emitFrame s (.frame p f.src.toNat (slice b 12 4) (sealed [] ((0 : Byte) :: m.drop 1)))
    else s
  else if f.etype.toNat = typeV6 then match icmp6 b with
    | some m =>
      if num m 0 1 = 128 ∧ num m 1 1 = 0 then
        emitFrame s (.frame p f.src.toNat (slice b 8 16) (sealed (pseudo (penV6 s p) (slice b 8 16) m.length) ((129 : Byte) :: m.drop 1)))
      else s
    | none => s
  else s

/-- A frame arrives, and what it asks is answered. -/
def frameIn (s : State) (f : EthFrame) : State :=
  let (ps, s) := takeFrame s f
  forEach s ps (fun s p => answerEcho (answerNd (answerArp s f p) f p) f p)

/-- ETH_FRAME (R344). -/
def execEthFrame (f : EthFrame) (s : State) : Host.Outcome State Fault Refusal := .next (frameIn s f)

/-- ARP_REQUEST (R345). -/
def execArpRequest (f : EthFrame) (s : State) : Host.Outcome State Fault Refusal :=
  .next (let (ps, s) := takeFrame s f; forEach s ps (fun s p => answerArp s f p))

/-- NEIGHBOUR_SOLICITATION (R345). -/
def execNeighbourSolicitation (f : EthFrame) (s : State) : Host.Outcome State Fault Refusal :=
  .next (let (ps, s) := takeFrame s f; forEach s ps (fun s p => answerNd s f p))

/-- ECHO_REQUEST (R345). -/
def execEchoRequest (f : EthFrame) (s : State) : Host.Outcome State Fault Refusal :=
  .next (let (ps, s) := takeFrame s f; forEach s ps (fun s p => answerEcho s f p))

/-! ## Queue pairs (R346, R363) -/

/-- A channel's queue pair is gone: an open channel becomes ORPHANED (R363). -/
def orphan (s : State) (p ch : Nat) : State :=
  if chanState s p ch = 1 then bump (wr s (penPg p) F.CH_STATE_STATE ch 2) shobPg F.SHOB_ORPHAN_CNT else s

/-- The path MTUs of R346. -/
def mtuOk (n : Nat) : Bool := [1024, 2048, 4096].contains n

/-- A queue pair enters the error state. Without a channel it becomes unused, and an NVMe target that it served has failed. -/
def qpFail (s : State) (q : Nat) : State :=
  let x := getQp s q
  if x.st ≠ 1 then s
  else if x.chan = 0 then dropTargets (putQp s q Qp.init) q
  else orphan (putQp s q { x with st := 2 }) x.pen (x.chan - 1)

/-- QP_ERROR (R363). -/
def execQpError (qp : Fin 2048) (s : State) : Host.Outcome State Fault Refusal := .next (qpFail s qp)

/-- The peer disconnects a queue pair. -/
def qpLeave (s : State) (q : Nat) : State :=
  let x := getQp s q
  if x.st = 1 ∧ x.chan ≠ 0 then orphan (putQp s q Qp.init) x.pen (x.chan - 1) else dropTargets (putQp s q Qp.init) q

/-- The answer of an NVMe target to the device's request for a connection: the loader's reads start, or the connection has failed and
the fetches that wait for it end with TIMEOUT (R271, R276, R346; DEDUCED, log entry 104). -/
def targetAnswer (s : State) (t : Nat) (m : CmMsg) : State := match targetQp s t with
  | none => s
  | some q =>
    let x := getQp s q
    if x.st ≠ 3 ∨ x.pen ≠ m.pen.val then s
    else if m.setup ∧ mtuOk m.mtu then
      pumpAll (wr (putQp s q { x with st := 1, mtu := m.mtu, epsn := m.psn.toNat, limit := m.retries }) wloadPg F.WL_TARGET_STATE t 2)
    else failTarget (dropTarget (putQp s q Qp.init) t) t

/-- A host asks for a connection: it gets a queue pair while the pen's quota and the device's 1,024 allow it. -/
def hostSetup (s : State) (m : CmMsg) : State :=
  match if mtuOk m.mtu then roomForQp s m.pen else none with
  | some q => emitFrame (newQp s q { Qp.init with st := 1, pen := m.pen, mtu := m.mtu, epsn := m.psn.toNat, limit := m.retries }) (.cmReply m.pen true q)
  | none => emitFrame s (.cmReply m.pen false 0)

/-- A peer leaves: a teardown of a queue pair of the pen. -/
def peerLeaves (s : State) (m : CmMsg) : State :=
  let x := getQp s m.qp
  if x.st ≠ 0 ∧ x.pen = m.pen.val then emitFrame (qpLeave s m.qp) (.cmReply m.pen true m.qp) else s

/-- CM_MESSAGE (R346): a message of a host's connection manager, or an NVMe target's answer, comes on QP1. -/
def execCmMessage (m : CmMsg) (s : State) : Host.Outcome State Fault Refusal :=
  if !netUp s || !penThere s m.pen then .next s
  else .next (onPacket s qp1 m.ce m.icrcBad (fun s => match m.target with
    | some t => targetAnswer s t m
    | none => if m.setup then hostSetup s m else peerLeaves s m))

/-! ## Acknowledgements of the device's own requests (R346) -/

/-- Packets sent and not acknowledged. -/
def Qp.outstanding (x : Qp) : Nat := (2 ^ 24 + x.psn - x.acked) % 2 ^ 24

/-- Send every packet again from a PSN on: one frame each (R346, R365). -/
def goBack (s : State) (q psn : Nat) : State :=
  emit (bump (bump s ethPg F.RC_RETRANS) ethPg F.FRAMES_TX ((2 ^ 24 + (getQp s q).psn - psn) % 2 ^ 24)) (.resend q psn)

/-- An acknowledgement of a packet that is outstanding: an ACK covers every PSN up to its own and a NAK every PSN before it. After a
sequence error, or when the receiver was not ready, the device goes back; any other NAK puts the queue pair into the error state (R346;
the InfiniBand rules are PRESUMED, log entry 113). -/
def takeRcAck (s : State) (q psn : Nat) (kind : AckKind) : State :=
  let x := getQp s q
  if (2 ^ 24 + psn - x.acked) % 2 ^ 24 < x.outstanding then
    match kind with
    | .ack => putQp s q { x with acked := (psn + 1) % 2 ^ 24, tries := 0 }
    | .sequence | .notReady => goBack (putQp s q { x with acked := psn, tries := 0 }) q psn
    | .invalid | .access | .operational => qpFail (putQp s q { x with acked := psn, tries := 0 }) q
  else s

/-- RC_ACK (R346). -/
def execRcAck (qp : Fin 2048) (pkt : Pkt) (kind : AckKind) (s : State) : Host.Outcome State Fault Refusal :=
  .next (if netUp s ∧ (getQp s qp).st = 1 then onPacket s qp pkt.ce pkt.icrcBad (fun s => takeRcAck s qp pkt.psn.toNat kind) else s)

/-- RC_ACK_TIMEOUT (R346): go-back-N, until the retry count is used up. -/
def execRcAckTimeout (qp : Fin 2048) (s : State) : Host.Outcome State Fault Refusal :=
  let x := getQp s qp
  if netUp s ∧ x.st = 1 ∧ 0 < x.outstanding then
    if x.tries < x.limit then .next (goBack (putQp s qp { x with tries := x.tries + 1 }) qp x.acked)
    else .next (qpFail s qp)
  else .next s

/-! ## Congestion (R350) -/

/-- CNP (R350): the rate halves, at most once in 50 µs. -/
def execCnp (qp : Fin 2048) (s : State) : Host.Outcome State Fault Refusal :=
  let x := getQp s qp
  if netUp s ∧ x.st = 1 then
    let s := bump s ethPg F.CNP_RX
    .next (if x.acted then s else putQp s qp { x with rate := max 1000 (x.rate / 2), acted := true })
  else .next s

/-- RATE_RECOVERY (R350): 50 µs of a queue pair end. -/
def execRateRecovery (qp : Fin 2048) (s : State) : Host.Outcome State Fault Refusal :=
  let x := getQp s qp
  if qp.val = qp1 then .next (putQp s qp1 { x with notified := false })
  else if netUp s ∧ x.st = 1 then
    .next (putQp s qp { x with rate := if x.acted then x.rate else min portSpeed (x.rate + 10000), acted := false, notified := false })
  else .next s

/-! ## Precision time (R351) -/

/-- A Sync is complete: the origin time `t1` of the grandmaster and the local receive time `t2` less the corrections. The clock
steps at the first one; later ones bring it towards the grandmaster by an amount that is free. -/
def synced (s : State) (t1 t2 : Int) : State :=
  let s := passTime s
  let c := s.ptp
  let off := t2 - t1 - c.delay
  let (v, s) := drawNat s
  let n : Int := if c.everSync then (if off < 0 then -((v % (off.natAbs + 1) : Nat) : Int) else ((v % (off.natAbs + 1) : Nat) : Int)) else off
  let s := s.setPtp { c with now := ((c.now : Int) - n).toNat % 2 ^ 64, everSync := true, waiting := none, lastSync := (t1, t2 - n) }
  emitFrame (wr0 (wr0 s ethPg F.PTP_OFFSET (ofSigned off 32)) ethPg F.ETH_STATUS_PTP 1) .delayReq

/-- PTP_SYNC (R351). -/
def execPtpSync (p : PtpMsg) (s : State) : Host.Outcome State Fault Refusal :=
  if netUp s then
    if p.twoStep then .next (s.setPtp { s.ptp with waiting := some (p.seq.toNat, p.rx - p.corr) }) else .next (synced s p.origin (p.rx - p.corr))
  else .next s

/-- PTP_FOLLOW_UP (R351). -/
def execPtpFollowUp (p : PtpMsg) (s : State) : Host.Outcome State Fault Refusal :=
  .next (match s.ptp.waiting with
    | some (seq, rx) => if netUp s ∧ seq = p.seq.toNat then synced s p.origin (rx - p.corr) else s
    | none => s)

/-- PTP_DELAY_RESP (R351): the mean path delay. -/
def execPtpDelayResp (p : PtpMsg) (s : State) : Host.Outcome State Fault Refusal :=
  let c := s.ptp
  if netUp s ∧ c.everSync then
    .next (s.setPtp { c with delay := (c.lastSync.2 - c.lastSync.1 + (p.origin - p.tx) - p.corr) / 2 })
  else .next s

/-- PTP_HOLDOVER (R351). -/
def execPtpHoldover (s : State) : Host.Outcome State Fault Refusal :=
  .next (if rd s ethPg F.ETH_STATUS_PTP = 1 then wr0 s ethPg F.ETH_STATUS_PTP 2 else s)

end Sys2Proof.Machine
end

