-- ==== Sys2Proof/Machine/Update.lean ====
section
/-! DEFINITION. MGMT messages: NVMe target entries and update by pieces (R271, R356, R473 to R477, R483). -/

namespace Sys2Proof.Machine

/-- Answer a MGMT message. -/
def answerMgmt (s : State) (h : MsgHead) (status : Nat) (more : List Byte := []) : State := respond (showUpd s) h 0x40 status more

/-- A MGMT message as it completes on its channel: only pen 0 may send it. -/
def mgmt (s : State) (h : MsgHead) (ok : Bool) (g : MsgHead → State → State) : State := message s h 0x40 (h.pen.val == 0) ok g

/-! ## NVMe target entries -/

/-- Put an entry into a settings area, in the place of an entry of the same target. -/
def putSetting (b e : List Byte) : List Byte := ((settingsEntries b).filter (fun x => num x 0 1 != num e 0 1)).flatten ++ e

/-- The effect of an NVMe target entry: the table, and the settings of the bank that runs (R271, R476). -/
def doNvmeTarget (h : MsgHead) (body : List Byte) (s : State) : State :=
  let e := body.drop 1
  let b := getBank s s.boot.bank
  answerMgmt (putBank (putTarget s e) s.boot.bank { b with settings := putSetting b.settings e }) h 0

/-- NVME_TARGET_ENTRY as it completes on its channel. -/
def msgNvmeTarget (s : State) (h : MsgHead) (body : List Byte) : State :=
  mgmt s h (body.length == 247 && num body 0 1 == 1 && decide (num body 1 1 < 64) && decide (num body 2 1 < 16) && num body 3 1 == 0) (fun h => doNvmeTarget h body)

/-- NVME_TARGET_ENTRY (R356). -/
def execNvmeTargetEntry (h : MsgHead) (body : List Byte) (s : State) : Host.Outcome State Fault Refusal :=
  .next (sendIn s h body.length (fun s => msgNvmeTarget s h body))

/-! ## Flash writes (R473, R474, R483) -/

/-- A flash write: how many of its attempts fail read-back is free, three end it with an error. -/
def flashWrite (s : State) : Bool × State :=
  let (v, s) := drawNat s
  let n := v % 4
  (decide (n < 3), bump s updPg F.UPD_FLASH_ERR n)

/-- Piece count and bitmap of an object, as bytes 2 to 143 of a response. -/
def pieceMap (count : Nat) (pieces : SMap (List Byte)) : List Byte :=
  List.replicate 6 (0 : Byte) ++ toLe 2 count ++ List.replicate 6 (0 : Byte) ++ toLe 128 (pieces.foldl (fun m e => m ||| 2 ^ e.1) 0)

/-- The response of an object that stands in the flash. -/
def answerObject (s : State) (h : MsgHead) (obj status : Nat) : State :=
  if obj = 0 then
    let b := getBank s (idleBank s)
    answerMgmt s h status (pieceMap (if b.st = 0 then 0 else manifestPieces b.manifest) b.pieces)
  else
    let x := getSlot s (stagedSlot s)
    answerMgmt s h status (pieceMap x.count x.pieces)

/-! ## UPD_BEGIN -/

/-- UPD_BEGIN of firmware: the manifest is verified first. -/
def beginFirmware (h : MsgHead) (m : List Byte) (s : State) : State :=
  let i := idleBank s
  let b := getBank s i
  if !manifestOk m then answerMgmt s h 0x01
  else if Config.romVersion < num m 24 4 then answerMgmt s h 0x0B
  else if (bankIn s 4).isSome then answerMgmt s h 0x07
  else if b.st = 1 ∧ sha256 b.manifest = sha256 m then answerObject s h 0 0
  else
    let other := (b.st == 1 || b.st == 2 || b.st == 3) && sha256 b.manifest != sha256 m
    let (ok, s) := flashWrite s
    if ok then answerObject (putBank s i ({ Bank.empty with manifest := m }.mark 1 0)) h 0 (if other then 0x09 else 0)
    else answerMgmt (putBank s i Bank.empty) h 0x0A

/-- UPD_BEGIN of a policy of `n` bytes whose header is `hd`. -/
def beginPolicy (h : MsgHead) (hd : List Byte) (n : Nat) (s : State) : State :=
  let i := stagedSlot s
  let x := getSlot s i
  if n = 0 ∨ 64 < ceilDiv n 65536 then answerMgmt s h 0x04
  else if x.st = 1 ∧ x.size = n ∧ x.header = hd then answerObject s h 1 0
  else
    let (ok, s) := flashWrite s
    if ok then answerObject (putSlot s i { PolicySlot.empty with st := 1, size := n, header := hd }) h 1 0
    else answerMgmt (putSlot s i PolicySlot.empty) h 0x0A

/-- The effect of UPD_BEGIN (R473). -/
def doUpdBegin (h : MsgHead) (body : List Byte) (s : State) : State :=
  let w := num body 8 8
  let n := num body 16 4
  if num body 1 1 = 0 then beginFirmware h (if inWindow s 0 w n then winBytes s 0 w n else []) s
  else beginPolicy h (winBytes s 0 w 256) n s

/-- UPD_BEGIN as it completes on its channel. -/
def msgUpdBegin (s : State) (h : MsgHead) (body : List Byte) : State :=
  mgmt s h (body.length == 20 && num body 0 1 == 2 && decide (num body 1 1 < 2) && zeroAt body 2 6) (fun h => doUpdBegin h body)

/-- UPD_BEGIN (R473). -/
def execUpdBegin (h : MsgHead) (body : List Byte) (s : State) : Host.Outcome State Fault Refusal :=
  .next (sendIn s h body.length (fun s => msgUpdBegin s h body))

/-! ## UPD_PIECE -/

/-- A piece is refused. -/
def refusePiece (s : State) (h : MsgHead) (status : Nat) : State := answerMgmt (bump s updPg F.UPD_PIECE_ERR) h status

/-- Index and length fit an object of `size` bytes and `count` pieces. -/
def pieceFits (size count i n : Nat) : Bool := decide (i < count) && n == min 65536 (size - 65536 * i)

/-- UPD_PIECE of firmware. -/
def pieceFirmware (h : MsgHead) (i : Nat) (data : List Byte) (s : State) : State :=
  let k := idleBank s
  let b := getBank s k
  let p := manifestPieces b.manifest
  if !(b.st == 1 || b.st == 2 || b.st == 3) then refusePiece s h 0x05
  else if !pieceFits (num b.manifest 16 4) p i data.length then refusePiece s h 0x04
  else if getD [] b.pieces i ≠ [] then answerMgmt s h 0
  else if sha256 data ≠ slice b.manifest (1024 + 32 * i) 32 then refusePiece s h 0x02
  else
    let (ok, s) := flashWrite s
    if !ok then refusePiece s h 0x0A
    else
      let b := { b with pieces := putD [] b.pieces i data }
      if b.pieces.length < p then answerMgmt (putBank s k b) h 0
      else if partsOk b then answerMgmt (putBank s k (b.mark 2 0)) h 0
      else answerMgmt (putBank s k Bank.empty) h 0x03

/-- UPD_PIECE of a policy (R477). -/
def piecePolicy (h : MsgHead) (i : Nat) (data : List Byte) (s : State) : State :=
  let k := stagedSlot s
  let x := getSlot s k
  if !(x.st == 1 || x.st == 2) then refusePiece s h 0x05
  else if !pieceFits x.size x.count i data.length then refusePiece s h 0x04
  else if getD [] x.pieces i ≠ [] then answerMgmt s h 0
  else
    let (ok, s) := flashWrite s
    if !ok then refusePiece s h 0x0A
    else
      let x := { x with pieces := putD [] x.pieces i data }
      if x.pieces.length < x.count then answerMgmt (putSlot s k x) h 0
      else if !(policyForm x.bytes && policySigned x.bytes) then answerMgmt (putSlot s k PolicySlot.empty) h 0x01
      else if !anchorOk s.boot.flash.anchor x.bytes then answerMgmt (putSlot s k PolicySlot.empty) h 0x0C
      else answerMgmt (putSlot s k { x with st := 2 }) h 0

/-- The effect of UPD_PIECE (R473). -/
def doUpdPiece (h : MsgHead) (body : List Byte) (s : State) : State :=
  let n := num body 16 4
  if 65536 < n then refusePiece s h (if (if num body 1 1 = 0 then (getBank s (idleBank s)).st else (getSlot s (stagedSlot s)).st) = 0 then 0x05 else 0x04)
  else
    let data := winBytes s 0 (num body 8 8) n
    if num body 1 1 = 0 then pieceFirmware h (num body 4 4) data s else piecePolicy h (num body 4 4) data s

/-- UPD_PIECE as it completes on its channel. -/
def msgUpdPiece (s : State) (h : MsgHead) (body : List Byte) : State :=
  mgmt s h (body.length == 20 && num body 0 1 == 3 && decide (num body 1 1 < 2) && zeroAt body 2 2) (fun h => doUpdPiece h body)

/-- UPD_PIECE (R473). -/
def execUpdPiece (h : MsgHead) (body : List Byte) (s : State) : Host.Outcome State Fault Refusal :=
  .next (sendIn s h body.length (fun s => msgUpdPiece s h body))

/-! ## UPD_CONTROL (R473, R475, R477) -/

/-- A UPD_CONTROL message with an action as it completes on its channel. -/
def control (s : State) (h : MsgHead) (body : List Byte) (action : Nat) (g : MsgHead → Nat → State → State) : State :=
  mgmt s h (body.length == 3 && num body 0 1 == 4 && decide (num body 1 1 < 2) && num body 2 1 == action) (fun h => g h (num body 1 1))

/-- The object that is being updated is FILLING, COMPLETE or PENDING. -/
def objectThere (s : State) (obj : Nat) : Bool :=
  let st := if obj = 0 then (getBank s (idleBank s)).st else (getSlot s (stagedSlot s)).st
  st == 1 || st == 2 || st == 3

/-- STATUS. -/
def doUpdStatus (h : MsgHead) (obj : Nat) (s : State) : State :=
  if objectThere s obj then answerObject s h obj 0 else answerMgmt s h 0x05

/-- UPD_STATUS as it completes on its channel. -/
def msgUpdStatus (s : State) (h : MsgHead) (body : List Byte) : State := control s h body 1 doUpdStatus

/-- UPD_STATUS (R473). -/
def execUpdStatus (h : MsgHead) (body : List Byte) (s : State) : Host.Outcome State Fault Refusal :=
  .next (sendIn s h body.length (fun s => msgUpdStatus s h body))

/-- ACTIVATE: a bank that is PENDING already stays so. -/
def doUpdActivate (h : MsgHead) (obj : Nat) (s : State) : State :=
  let i := idleBank s
  let b := getBank s i
  if obj = 1 then answerMgmt s h 0x05
  else if b.st = 1 then answerMgmt s h 0x06
  else if b.st = 2 then answerMgmt (putBank s i (b.mark 3 0)) h 0
  else answerMgmt s h (if b.st = 3 then 0 else 0x05)

/-- UPD_ACTIVATE as it completes on its channel. -/
def msgUpdActivate (s : State) (h : MsgHead) (body : List Byte) : State := control s h body 2 doUpdActivate

/-- UPD_ACTIVATE (R475). -/
def execUpdActivate (h : MsgHead) (body : List Byte) (s : State) : Host.Outcome State Fault Refusal :=
  .next (sendIn s h body.length (fun s => msgUpdActivate s h body))

/-- Give the bank in state `a` the state `b`. -/
def restate (s : State) (a b : Nat) : State := match bankIn s a with
  | some i => putBank s i ((getBank s i).mark b (getBank s i).trial)
  | none => s

/-- CONFIRM. -/
def doUpdConfirm (h : MsgHead) (obj : Nat) (s : State) : State :=
  if obj = 1 then answerMgmt s h 0x05
  else if (bankIn s 4).isNone then answerMgmt s h 0x08
  else answerMgmt (restate (restate s 5 6) 4 5) h 0

/-- UPD_CONFIRM as it completes on its channel. -/
def msgUpdConfirm (s : State) (h : MsgHead) (body : List Byte) : State := control s h body 3 doUpdConfirm

/-- UPD_CONFIRM (R475). -/
def execUpdConfirm (h : MsgHead) (body : List Byte) (s : State) : Host.Outcome State Fault Refusal :=
  .next (sendIn s h body.length (fun s => msgUpdConfirm s h body))

/-- ABANDON. -/
def doUpdAbandon (h : MsgHead) (obj : Nat) (s : State) : State :=
  if !objectThere s obj then answerMgmt s h 0x05
  else if obj = 0 then answerMgmt (putBank s (idleBank s) Bank.empty) h 0
  else answerMgmt (putSlot s (stagedSlot s) PolicySlot.empty) h 0

/-- UPD_ABANDON as it completes on its channel. -/
def msgUpdAbandon (s : State) (h : MsgHead) (body : List Byte) : State := control s h body 4 doUpdAbandon

/-- UPD_ABANDON (R473). -/
def execUpdAbandon (h : MsgHead) (body : List Byte) (s : State) : Host.Outcome State Fault Refusal :=
  .next (sendIn s h body.length (fun s => msgUpdAbandon s h body))

/-- REVERT. -/
def doUpdRevert (h : MsgHead) (obj : Nat) (s : State) : State :=
  if obj = 1 then answerMgmt s h 0x05
  else if (bankIn s 4).isNone then answerMgmt s h 0x08
  else answerMgmt (restate s 4 7) h 0

/-- UPD_REVERT as it completes on its channel. -/
def msgUpdRevert (s : State) (h : MsgHead) (body : List Byte) : State := control s h body 5 doUpdRevert

/-- UPD_REVERT (R475). -/
def execUpdRevert (h : MsgHead) (body : List Byte) (s : State) : Host.Outcome State Fault Refusal :=
  .next (sendIn s h body.length (fun s => msgUpdRevert s h body))

end Sys2Proof.Machine
end

