-- ==== Sys2Proof/Machine/Channels.lean ====
section
/-! DEFINITION. Opening, adopting and closing channels, NOP, and DEBUG messages (R352, R354, R356, R363, R469). -/

namespace Sys2Proof.Machine

/-! ## CHANNEL_OPEN (R352, R363) -/

/-- Whether `n` is a power of two from `lo` to `hi`. -/
def powerFrom (lo hi n : Nat) : Bool := decide (lo ≤ n) && decide (n ≤ hi) && n == 2 ^ Nat.log2 n

/-- The body of a CHANNEL_OPEN of pen `p` is well formed. -/
def openOk (s : State) (p : Nat) (body : List Byte) : Bool :=
  body.length == 40 && decide (num body 8 1 < 4) && zeroAt body 9 3 && powerFrom 64 65536 (num body 36 4)
    && (if bit (num body 8 1) 0 then
        powerFrom 16 65536 (num body 12 4) && num body 16 8 % 4096 == 0 && inWindow s p (num body 16 8) (256 * num body 12 4)
      else num body 12 4 == 0)

/-- Channels that a pen holds. -/
def channelsOf (s : State) (p : Nat) : Nat := ((List.range 128).filter (fun c => getChan s p c != Chan.init)).length

/-- Channel `c` of a queue pair opens: what its body says of the rings, and its registers (R352, R366). -/
def setChannel (s : State) (p q c : Nat) (x : Chan) (body : List Byte) : State :=
  let ring := bit (num body 8 1) 0
  let x := { x with key := slice body 0 8, slots := num body 12 4, base := if ring then num body 16 8 else 0
                    ring := num body 24 8, rkey := num body 32 4, records := num body 36 4 }
  let s := putQp (putChan s p c x) q { getQp s q with chan := c + 1 }
  let pg := penPg p
  wr (wr (wr s pg F.CH_STATE_STATE c 1) pg F.CH_STATE_RING c (b2n ring)) pg F.CH_STATE_QP c q

/-- Count an executed message, and answer a CHANNEL_OPEN with the channel index and what else its answer carries. -/
def answerOpen (s : State) (p c : Nat) (h : MsgHead) (more : List Byte) : State :=
  respond (bump (bump s (penPg p) F.SHOB_MSG_CNT) shobPg F.SHOB_MSG_ALL) h 0x01 0 (toLe 2 c ++ more)

/-- The head of a CHANNEL_OPEN as a message of channel `c`, in that channel's present opening. -/
def openMsg (s : State) (p : Fin 16) (c : Nat) (h : OpenHead) (tag : BitVec 64) : MsgHead :=
  { pen := p, ch := Fin.ofNat 128 c, seq := h.seq, tag := tag, bad := h.bad, pkt := h.pkt, life := chanLife s p c }

/-- A CHANNEL_OPEN of a new channel: its sequence is the base. -/
def openNew (s : State) (p q c : Nat) (h : MsgHead) (body : List Byte) : State :=
  let pg := penPg p
  let s := setChannel s p q c { Chan.init with seq := h.seq.toNat } body
  let s := wr (wr (wr s pg F.CH_SQ_HEAD c 0) pg F.CH_SQ_TAIL c 0) pg F.CH_TR_HEAD c 0
  answerOpen s p c h []

/-- A CHANNEL_OPEN that adopts an orphaned channel: it keeps its sequence, requests and records. -/
def openAdopt (s : State) (p q c : Nat) (h : MsgHead) (body : List Byte) : State :=
  let x := getChan s p c
  let s := setChannel (releaseQps s p c) p q c x body
  drain (answerOpen (bump s shobPg F.SHOB_ADOPT_CNT) p c h (toLe 4 x.seq)) p c

/-- A CHANNEL_OPEN that opens nothing is answered without a channel. -/
def refuseOpen (s : State) (q : Nat) (h : MsgHead) (status : Nat) : State :=
  let m := responseBytes h 0x01 status []
  post (bump s (penPg h.pen) F.SHOB_BAD_CNT) q m.length (.reply q m)

/-- The orphaned channel of a pen with a key. -/
def orphanOf (s : State) (p : Nat) (key : List Byte) : Option Nat :=
  (List.range 128).find? (fun c => chanState s p c == 2 && (getChan s p c).key == key)

/-- The lowest channel index of a pen that is free, while the pen's quota allows one more. -/
def freeChannel (s : State) (p : Nat) : Option Nat :=
  if channelsOf s p < min 128 (rd s (penPg p) F.PEN_QP_QUOTA) then (List.range 128).find? (fun c => getChan s p c == Chan.init) else none

/-- A CHANNEL_OPEN comes in order on queue pair `q` of pen `p`: one that has a channel takes it as a malformed message of that channel. -/
def takeOpen (s : State) (p : Fin 16) (q : Nat) (h : OpenHead) (tag : BitVec 64) (body : List Byte) : State :=
  let x := getQp s q
  let m := fun c => openMsg s p c h tag
  if x.chan ≠ 0 then message s (m (x.chan - 1)) 0x01 true false (fun _ s => s)
  else if h.bad || !openOk s p body then refuseOpen s q (m 0) 0xF0
  else
    let adopt := bit (num body 8 1) 1
    match if adopt then orphanOf s p (slice body 0 8) else freeChannel s p with
    | some c => if adopt then openAdopt s p q c (m c) body else openNew s p q c (m c) body
    | none => refuseOpen s q (m 0) 0xF4

/-- CHANNEL_OPEN (R352). -/
def execChannelOpen (pen : Fin 16) (qp : Fin 2048) (head : OpenHead) (tag : BitVec 64) (body : List Byte) (s : State) :
    Host.Outcome State Fault Refusal :=
  let x := getQp s qp
  .next (if x.pen = pen.val then takePackets s qp (x.packets (32 + body.length)) head.pkt (fun s => takeOpen s pen qp head tag body) else s)

/-- ORPHAN_TIMEOUT (R363): 10 s without an adoption; the channel closes, and its records are discarded. -/
def execOrphanTimeout (pen : Fin 16) (ch : Fin 128) (s : State) : Host.Outcome State Fault Refusal :=
  .next (if chanState s pen ch = 2 then
      let s := modChan (bump s shobPg F.SHOB_ORPHAN_CLOSE) pen ch (fun c => { c with spill := [] })
      waitFire (wr (wr s (penPg pen) F.CH_STATE_STATE ch 0) (penPg pen) F.CH_STATE_SPILL ch 0) (.close pen ch none)
    else s)

/-! ## NOP and unknown types (R356, R359) -/

/-- NOP as it completes on its channel. -/
def msgNop (s : State) (h : MsgHead) (body : List Byte) : State := message s h 0x03 true body.isEmpty (fun h s => respond s h 0x03 0)

/-- NOP (R356). -/
def execNop (h : MsgHead) (body : List Byte) (s : State) : Host.Outcome State Fault Refusal :=
  .next (sendIn s h body.length (fun s => msgNop s h body))

/-- A message whose type the device does not know, whatever its body. -/
def msgUnknown (s : State) (h : MsgHead) (typ : Nat) (_body : List Byte) : State := message s h typ true false (fun _ s => s)

/-- The types of R356 that a host may send. -/
def knownTypes : List Nat := [0x01, 0x02, 0x03, 0x10, 0x11, 0x20, 0x21, 0x22, 0x30, 0x31, 0x32, 0x33, 0x34, 0x35, 0x40, 0x50]

/-- UNKNOWN_MESSAGE_TYPE (R359). -/
def execUnknownMessageType (h : MsgHead) (typ : BitVec 8) (body : List Byte) (s : State) : Host.Outcome State Fault Refusal :=
  .next (if knownTypes.contains typ.toNat then s else sendIn s h body.length (fun s => msgUnknown s h typ.toNat body))

/-! ## DEBUG (R469) -/

/-- The channel of a DEBUG message may send it. -/
def debugAllowed (s : State) (h : MsgHead) : Bool :=
  h.pen.val == 0 && (rd s bootPg F.BOOT_STATUS_PROV == 1 || (getChan s 0 h.ch).key == s.boot.debugKey)

/-- The body of a DEBUG message with operation `op` is well formed. -/
def debugForm (body : List Byte) (op : Nat) : Bool :=
  let n := num body 16 4
  num body 0 1 == op && decide (num body 1 1 < 4) && zeroAt body 2 6 && zeroAt body 20 12
    && body.length == (if op = 2 then 32 + n else 32)
    && (decide (2 < op) || (num body 8 8 % 4 == 0 && n % 4 == 0 && decide (4 ≤ n) && decide (n ≤ 4096)))

/-- A DEBUG message as it completes on its channel. -/
def debugMsg (s : State) (h : MsgHead) (body : List Byte) (op : Nat) (g : MsgHead → State → State) : State :=
  message s h 0x50 (debugAllowed s h) (debugForm body op) g

/-- Device addresses have 41 bits (R239): an access past them reaches nothing. -/
def debugRead (h : MsgHead) (body : List Byte) (s : State) : State :=
  let (bs, s) := deviceReads .debug (num body 16 4 / 4) (num body 8 8) s
  respond s h 0x50 0 (List.replicate 30 (0 : Byte) ++ bs)

/-- DEBUG READ as it completes on its channel. -/
def msgDebugRead (s : State) (h : MsgHead) (body : List Byte) : State := debugMsg s h body 1 (fun h => debugRead h body)

/-- DEBUG_READ (R469). -/
def execDebugRead (h : MsgHead) (body : List Byte) (s : State) : Host.Outcome State Fault Refusal :=
  .next (sendIn s h body.length (fun s => msgDebugRead s h body))

/-- The effect of a DEBUG WRITE: it adds a log entry (R469, R492). -/
def debugWrite (h : MsgHead) (body : List Byte) (s : State) : State :=
  let s := deviceWrites .debug (num body 16 4 / 4) (num body 8 8) (body.drop 32) s
  respond (logWrite s bootPg 0x8B 0 [(32, num body 8 8), (40, num body 16 4), (42, num body 1 1)]) h 0x50 0

/-- DEBUG WRITE as it completes on its channel. -/
def msgDebugWrite (s : State) (h : MsgHead) (body : List Byte) : State := debugMsg s h body 2 (fun h => debugWrite h body)

/-- Halt a management core. -/
def haltCore (s : State) (k : Nat) : State :=
  s.setBoot { s.boot with halted := if s.boot.halted.contains k then s.boot.halted else k :: s.boot.halted }

/-- Resume a management core. -/
def resumeCore (s : State) (k : Nat) : State := s.setBoot { s.boot with halted := s.boot.halted.filter (· != k) }

/-- DEBUG HALT as it completes on its channel. -/
def msgDebugHalt (s : State) (h : MsgHead) (body : List Byte) : State :=
  debugMsg s h body 3 (fun h s => respond (haltCore s (num body 1 1)) h 0x50 0)

/-- DEBUG_HALT (R469). -/
def execDebugHalt (h : MsgHead) (body : List Byte) (s : State) : Host.Outcome State Fault Refusal :=
  .next (sendIn s h body.length (fun s => msgDebugHalt s h body))

/-- DEBUG RESUME as it completes on its channel. -/
def msgDebugResume (s : State) (h : MsgHead) (body : List Byte) : State :=
  debugMsg s h body 4 (fun h s => respond (resumeCore s (num body 1 1)) h 0x50 0)

/-- DEBUG_RESUME (R469). -/
def execDebugResume (h : MsgHead) (body : List Byte) (s : State) : Host.Outcome State Fault Refusal :=
  .next (sendIn s h body.length (fun s => msgDebugResume s h body))

end Sys2Proof.Machine
end

