-- ==== Sys2Proof/Machine/Checkpoint.lean ====
section
/-! DEFINITION. Checkpoints and the messages that arrive by the message layer (R290, R337 to R339, R396, R397, R399). -/

namespace Sys2Proof.Machine

/-- The checkpoints of a flock of a pen. -/
def getCkpt (s : State) (p k : Nat) : Ckpt := getD Ckpt.init s.drover.ckpts (16 * p + k)

/-- Replace them. -/
def putCkpt (s : State) (p k : Nat) (x : Ckpt) : State := s.setDrover { s.drover with ckpts := putD Ckpt.init s.drover.ckpts (16 * p + k) x }

/-! ## The record (R399) -/

/-- Section 0: the carried tiles of a drove's slots, ascending. -/
def carriedSection (s : State) (d : Drove) : List Byte :=
  ((List.range 64).filter (fun k => bit d.folds k)).flatMap (fun k => match foldOfSlot s k with
    | some f => ((List.range 16).filter (fun t => bit (rd s (foldPg f) F.ACC_CARRIED) t)).flatMap (fun t =>
        imageBytes ((getFold s f).tile t) t k s.tally.num true)
    | none => [])

/-- The state number of a request in its record. -/
def stateNo (r : Request) : Nat := if r.draining then 4 else r.phase

/-- One request record, 512 bytes. -/
def requestRecord (r : Request) : List Byte :=
  let segs := if r.phase = 0 then [] else segmentsOf r
  let b := toLe 2 r.handle ++ [BitVec.ofNat 8 (stateNo r), BitVec.ofNat 8 (b2n r.bulk), BitVec.ofNat 8 (b2n r.greedy), BitVec.ofNat 8 r.ch]
    ++ toLe 2 r.temp ++ toLe 8 r.tag ++ r.seed ++ toLe 4 r.maxNew
    ++ (List.range 4).flatMap (fun j => toLe 4 (r.stops.getD j noBlock)) ++ toLe 8 r.deadline ++ toLe 4 r.prompt.length
    ++ toLe 2 r.epoch ++ [BitVec.ofNat 8 r.z, BitVec.ofNat 8 segs.length] ++ toLe 2 r.suspended ++ toLe 2 0 ++ toLe 8 r.admitted
    ++ toLe 4 r.tokens ++ toLe 4 (nextPos r) ++ toLe 4 r.done ++ toLe 4 r.last
    ++ segs.flatMap (fun g => toLe 2 g.1 ++ toLe 2 g.2.1 ++ toLe 4 g.2.2)
  b ++ List.replicate (512 - b.length) (0 : Byte)

/-- Put a request in its place by handle. -/
def insHandle (r : Request) : List Request → List Request
  | [] => [r]
  | x :: xs => if r.handle < x.handle then r :: x :: xs else x :: insHandle r xs

/-- Section 1: the requests of the flock in ascending handle order. -/
def requestSection (s : State) (k : Nat) : List Byte :=
  ((flockReqs s k).foldl (fun acc r => insHandle r acc) []).flatMap requestRecord

/-- Section 3: one bit for each block of the pool, 1 when free. -/
def freeMap (s : State) (p n : Nat) : List Byte :=
  let free := freeBlocks s p n
  toLe (ceilDiv n 8) (free.foldl (fun m b => m ||| 2 ^ b) 0)

/-- A section table entry. -/
def sectionEntry (off len : Nat) : List Byte := if len = 0 then toLe 16 0 else toLe 8 off ++ toLe 8 len

/-- Epoch entry of the header: ID and digest. -/
def epochField (d : Drove) (i : Nat) : List Byte := match d.epochs[i]? with
  | some e => toLe 2 e.1 ++ e.2
  | none => toLe 2 0 ++ List.replicate 32 (0 : Byte)

/-- The checkpoint record of flock `k` for a round (R399). -/
def checkpointRecord (s : State) (p k round : Nat) (d : Drove) : List Byte :=
  let lead := isLead s k
  let s0 := carriedSection s d
  let s1 := if lead then requestSection s k else []
  let s2 := if lead then winBytes s p (prefixRegion s p).base (prefixRegion s p).size else []
  let s3 := if lead then freeMap s p (kvBlocks d.lanes) else []
  let o1 := 4096 + s0.length
  let o2 := o1 + s1.length
  let o3 := o2 + s2.length
  let head := "GQZCKPNT".toList.map (fun c => BitVec.ofNat 8 c.toNat) ++ toLe 2 0x0100
    ++ [BitVec.ofNat 8 k, BitVec.ofNat 8 (b2n lead)] ++ toLe 2 (ownId s) ++ toLe 2 0 ++ toLe 8 round ++ toLe 8 s.tally.num ++ d.digest
    ++ toLe 2 d.epochs.length ++ epochField d 0 ++ epochField d 1 ++ toLe 2 0
    ++ toLe 8 (o3 + s3.length) ++ toLe 8 (if lead then rd s (penPg p) F.JRNL_SEQ else 0) ++ toLe 8 (lastStep s k)
    ++ sectionEntry 4096 s0.length ++ sectionEntry o1 s1.length ++ sectionEntry o2 s2.length ++ sectionEntry o3 s3.length
  let head := head ++ List.replicate (4064 - head.length) (0 : Byte)
  let rest := s0 ++ s1 ++ s2 ++ s3
  head ++ sha256 (head ++ List.replicate 32 (0 : Byte) ++ rest) ++ rest

/-- A checkpoint falls due for flock `k` in a page tick (R396): it starts, with its journal entry (R408), or it is skipped. -/
def startCkpt (s : State) (k round : Nat) : State :=
  match flockDrove s k with
  | none => s
  | some d =>
    let p := d.pen
    let every := rd s (penPg p) F.CKPT_CTRL_R
    if every = 0 ∨ round % every ≠ 0 ∨ !bit (ckptFlocks s p) k then s
    else
      let x := getCkpt s p k
      if x.writing.isSome ∨ slotSize s p < (checkpointRecord s p k round d).length then bump s (penPg p) F.CKPT_SKIP
      else
        let s := if isLead s k then journalHere s p k 9 (toLe 8 round ++ toLe 8 s.tally.num) else s
        putCkpt s p k { x with writing := some (round, if x.newest = 1 then 1 else 0, checkpointRecord s p k round d) }

/-- The record is written: it counts as complete, and goes to the partner when mirroring is on (R397, R399). -/
def finishCkpt (s : State) (p k round slot : Nat) (bytes : List Byte) : State :=
  let off := (2 * ckptPlace s p k + slot) * slotSize s p
  let s := coreWrite s p ((checkpointRegion s p).base + off) bytes
  let s := wr s (penPg p) F.CKPT_DONE0 k round
  let x := getCkpt s p k
  let x := { x with writing := none, newest := slot + 1 }
  if mirrors s p then
    let (seq, s) := sendMirror s p 0 off bytes
    putCkpt s p k { x with mirrors := x.mirrors ++ [(round, seq)] }
  else putCkpt s p k x

/-- CKPT_WRITE_DONE (R396, R399). -/
def execCkptWriteDone (pen : Fin 16) (flock : Fin 16) (s : State) : Host.Outcome State Fault Refusal :=
  match (getCkpt s pen flock).writing with
  | some (round, slot, bytes) => .next (finishCkpt s pen flock round slot bytes)
  | none => .next s

/-- An acknowledgement of class 2 completes the mirrors that it covers (R397). -/
def ackMirrors (s : State) (dest seq : Nat) : State :=
  forEach s (List.range 256) (fun s i =>
    let p := i / 16
    let k := i % 16
    let x := getCkpt s p k
    let done := x.mirrors.filter (fun m => !serialNewer 16 m.2 seq)
    if rd s (penPg p) F.CKPT_PARTNER_ID ≠ dest then s
    else match done.getLast? with
      | some m => wr (putCkpt s p k { x with mirrors := x.mirrors.filter (fun m => serialNewer 16 m.2 seq) }) (penPg p) F.CKPT_DONE1 k m.1
      | none => s)

/-! ## Messages that arrive (R337 to R339) -/

/-- An acknowledgement message: from a device, for a class, up to a sequence. -/
def messageAck (s : State) (dest cls seq : Nat) : State :=
  let s := takeMsgAck s dest cls seq
  if cls = 2 then ackMirrors s dest seq else s

/-- A complete message of a class arrives from a device. A management message has no effect that the spec gives beyond its acceptance. A
mirror message of other sizes is discarded and not acknowledged, so that the sender's CKPT_DONE stops (R399). -/
def takeClass (s : State) (source cls seq : Nat) (data : List Byte) : State := match cls with
  | 0 => takeMessage s source 0 seq id
  | 1 => takeMessage s source 1 seq (fun s => storeBlock s data)
  | 2 => if mirrorFits s data then takeMessage s source 2 seq (fun s => storeMirror s data) else s
  | 7 => messageAck s source (fieldNat data 0 1) (fieldNat data 1 2)
  | _ => s

/-- MGMT_MESSAGE (R337 to R339). -/
def execMgmtMessage (m : LinkMsg) (s : State) : Host.Outcome State Fault Refusal := .next (takeClass s m.source 0 m.seq.toNat m.data)

/-- LANE_BLOCK_MESSAGE (R290, R337 to R339). -/
def execLaneBlockMessage (m : LinkMsg) (s : State) : Host.Outcome State Fault Refusal := .next (takeClass s m.source 1 m.seq.toNat m.data)

/-- CHECKPOINT_MESSAGE (R337 to R339, R397, R399). -/
def execCheckpointMessage (m : LinkMsg) (s : State) : Host.Outcome State Fault Refusal := .next (takeClass s m.source 2 m.seq.toNat m.data)

/-- MESSAGE_ACK (R338). -/
def execMessageAck (source : Fin 32768) (cls : Fin 8) (seq : BitVec 16) (s : State) : Host.Outcome State Fault Refusal :=
  .next (messageAck s source cls seq.toNat)

/-- A flit of a message for this device joins the message of its source and class in reassembly; the last one completes it. -/
def joinFlit (s : State) (f : MsgFlit) : State :=
  let key := 8 * f.source + f.cls
  let none_ : Part := { seq := 0, idx := 65536, data := [] }
  let p := if f.first then { seq := f.seq, idx := 0, data := [] } else getD none_ s.msgs.parts key
  if p.seq = f.seq ∧ p.idx = f.idx then
    let data := p.data ++ f.data
    if f.last then takeClass (s.setMsgs { s.msgs with parts := dropKey s.msgs.parts key }) f.source f.cls f.seq data
    else s.setMsgs { s.msgs with parts := insKey s.msgs.parts key { p with idx := f.idx + 1, data := data } }
  else s

/-- The message header and data of a MSG payload (R337). -/
def parseMsg (b : List Byte) : MsgFlit :=
  { dest := fieldNat b 0 2 % 32768, source := fieldNat b 2 2 % 32768, cls := fieldNat b 4 1, first := bit (fieldNat b 5 1) 0
    last := bit (fieldNat b 5 1) 1, seq := fieldNat b 6 2, idx := fieldNat b 8 2, data := field b 16 (min 240 (fieldNat b 10 2)) }

/-- A MSG flit is for this device, or goes on by its destination's route (R337). -/
def msgFlit (s : State) (b : List Byte) : State :=
  let f := parseMsg b
  if f.dest = ownId s then joinFlit s f else sendMsgFlit s (primaryLink s f.dest) f

/-- MSG_FLIT (R322, R323, R337). -/
def execMsgFlit (link : Fin 96) (f : Flit) (s : State) : Host.Outcome State Fault Refusal :=
  .next (onFlit s link f.head (flitCrcOk f 3) true true (fun s => msgFlit s f.payload))

end Sys2Proof.Machine
end

