-- ==== Sys2Proof/Machine/Muster.lean ====
section
/-! DEFINITION. The muster chain (R340); boot goes on once the board position is settled. -/

namespace Sys2Proof.Machine

/-- MUSTER_ERR is set. -/
def musterError (s : State) : State := bootRest (errEvent (wr0 s iodPg F.MUSTER_STATUS_ERR 1) iodPg 4)

/-- Take a position. -/
def takePosition (s : State) (p : Nat) : State := bootRest (wr0 (wr0 s iodPg F.MUSTER_STATUS_POS p) iodPg F.MUSTER_STATUS_VALID 1)

/-- The device looks for its position: reset is released, the ROM has not halted (R460), and it has neither a position nor an error. -/
def musterOpen (s : State) : Bool := released s && !s.boot.romHalt && !positionValid s && rd s iodPg F.MUSTER_STATUS_ERR == 0

/-- MUSTER_FRAME (R340): two equal frames in a row give the position. -/
def execMusterFrame (v : Fin 32) (s : State) : Host.Outcome State Fault Refusal :=
  if musterOpen s then
    let twice := s.muster.last == v.val + 1
    let s := s.setMuster { s.muster with last := v.val + 1 }
    .next (if twice then (if 16 ≤ v.val then musterError s else takePosition s v) else s)
  else .next s

/-- MUSTER_HEAD_TIMEOUT (R340): MUSTER_IN has stayed low for 50 µs after reset release. -/
def execMusterHeadTimeout (s : State) : Host.Outcome State Fault Refusal :=
  .next (if musterOpen s ∧ s.muster.last = 0 then takePosition s 0 else s)

/-- MUSTER_TIMEOUT (R340): 1 ms after reset release. -/
def execMusterTimeout (s : State) : Host.Outcome State Fault Refusal := .next (if musterOpen s then musterError s else s)

/-- MUSTER_FRAME_SEND (R340): every 20 µs once the position is known. -/
def execMusterFrameSend (s : State) : Host.Outcome State Fault Refusal :=
  if positionValid s then
    .next (emit (s.setMuster { s.muster with sent := s.muster.sent + 1 }) (.muster (rd s iodPg F.MUSTER_STATUS_POS + 1)))
  else .next s


end Sys2Proof.Machine
end

