-- ==== Sys2Proof/Machine/PageTick.lean ====
section
/-! DEFINITION. Page ticks: swaps, epoch switches, windows, checkpoints and the end of draining requests (R98, R143, R211, R215,
R217, R218, R230 to R232, R260, R279 to R283, R306, R315, R335, R396, R410). -/

namespace Sys2Proof.Machine

/-! ## Swaps (R211, R217, R218, R231) -/

/-- What changes on a fold when another drove becomes active there (R98, R124, R142, R193, R231). -/
def clearFold (s : State) (f : Nat) : State :=
  let pg := foldPg f
  let s := forEach s [F.RECIPE_FLAGS0, F.RECIPE_FLAGS1, F.RECIPE_FLAGS2, F.RECIPE_FLAGS3] (fun s r =>
    forEach s (List.range 256) (fun s i => wr s pg r i 0))
  let s := wr0 (wr0 s pg F.RECIPE_LAST_TAG 0) pg F.RECIPE_LAST_BITS 0
  let s := wr0 (wr0 s pg F.RES_STATUS_STALL 0) pg F.RES_STATUS_FAULTS 0
  let s := wr0 (wr0 s pg F.ACC_STATUS_CLASH_STOP 0) pg F.SEQ_STATUS_CONTRACT_STOP 0
  modFold s f (fun x => { x with drove := none, halted := false, faults := [], oldFaults := [], landed := none, cancel := 0 })

/-- Mark the carried tiles of a fold. -/
def markCarried (s : State) (f m : Nat) : State :=
  modFold (wr0 s (foldPg f) F.ACC_CARRIED m) f (fun x => (List.range 16).foldl (fun x t => x.setTile t { x.tile t with carried := bit m t }) x)

/-- A fold whose drove has left for good and that has no context interval ahead: no tile is carried (R133, R144). -/
def forgetTiles (s : State) (f : Nat) : State := modFold (markCarried s f 0) f (fun x => { x with ctx := none, kept := [] })

/-- The folds that serve any slot of a mask. -/
def maskFolds (s : State) (m : Nat) : List Nat := (maskSlots m).filterMap (foldOfSlot s)

/-- Requests that hold lanes when another drove takes the flock go back to the queue for lanes: the lane block for the coming
step is discarded, and what it had placed is undone (DEDUCED, log entry 20). -/
def swapLanes (s : State) (k : Nat) : State :=
  let v := getServing s k
  let s := settlePlaces s k (getFlock s k).num entVoid
  let s := forEach s (flockReqs s k) (fun s r =>
    let r := match v.next.find? (fun p => p.handle == r.handle && p.kind == 2) with
      | some p => { r with fed := p.start }
      | none => r
    putReq s { r with phase := if r.phase = 3 then 2 else r.phase, lane := none })
  putServing s k { v with cur := [], next := [], built := 0, block := [], blockStep := 0 }

/-- The journal entry of a swap (R408). -/
def journalSwap (s : State) (k : Nat) (lead : Bool) (pen : Option Nat) (out inc : List Byte) : State := match pen with
  | some p => if lead then journalHere s p k 6 (out ++ inc ++ toLe 8 (getFlock s k).round) else s
  | none => s

/-- A drove that this device does not hold becomes active for flock `k` in the domain. Its N and its design state are not known here, so
they are free (R206, R215, R216; DESIGN CHOICE, log entry 112). -/
def goAway (s : State) (k : Nat) : State :=
  let (v, s) := drawNat s
  modFlock s k (fun x => { x with away := some (v % 2 ^ 18, v / 2 ^ 18 % 8) })

/-- A confirmed swap takes effect on this device. -/
def applySwap (s : State) (k : Nat) (w : Swap) : State :=
  let x := getFlock s k
  let out := outgoing s k
  let wasLead := isLead s k
  let wasPen := flockPen s k
  let inc := confirmedEntry s k
  let join := inc.any (joins s k)
  let newMask := (inc.map (fun e => (getDrove s e).folds)).getD 0
  let oldMask := if join then 0 else x.entries.foldl (fun m e => m ||| (getDrove s e).folds) 0
  let s := if join then s else swapLanes s k
  let s := if join then s else forEach s x.entries (fun s e => putDrove s e { getDrove s e with st := 2 })
  let s := match inc with
    | some e => putDrove s e { getDrove s e with st := 3, flock := k, actTally := s.tally.num, confirmed := false }
    | none => s
  let s := putFlock s k { x with
    entries := if join then x.entries ++ inc.toList else inc.toList, round := if join then x.round else 0, step := 0, pos := 0
    attempts := 0, lack := [], replay := false, fault := 0, stalled := false, swap := none, childReady := [], done := false, decision := 0
    away := none }
  let s := if inc.isNone ∧ !w.incoming.all (· == 0) then goAway s k else s
  let s := s.setCare { s.care with droveRan := s.care.droveRan || inc.isSome }
  let s := forEach s (maskFolds s (oldMask ||| newMask)) clearFold
  let s := forEach s ((maskFolds s oldMask).filter (fun f => !inc.any (fun e => (segOf s f (getDrove s e)).any (·.shared)))) forgetTiles
  journalSwap s k (wasLead || isLead s k) (wasPen.orElse (fun _ => flockPen s k)) out (if inc.isSome then w.incoming else List.replicate 32 0)

/-- The checks of R200 and R214 hold at the activation of the incoming drove, and no drove that stays active holds a port or a fold of it
(R218, R237, R251, R375). Of the image the device reads only the tables again (R201). -/
def activationOk (s : State) (k : Nat) (w : Swap) : Bool := match confirmedEntry s k with
  | some e =>
    let d := getDrove s e
    droveStatus s (fun a n => winLe s d.pen (d.addr + a) n) d == 0 && swapTiming s k w
      && decide (powerWith s k e ≤ rd s pwrPg F.PWR_LIMIT) && (staysBeside s k e).all (besides s k e)
  | none => true

/-- An activation that fails its check is refused and recorded as a management core's action, and the swap is dropped (R375; which
page records it, and what becomes of the swap, are a DESIGN CHOICE, log entry 105). -/
def refuseActivation (s : State) (k : Nat) : State :=
  let s := match confirmedEntry s k with
    | some e => putDrove s e { getDrove s e with confirmed := false }
    | none => s
  accessError (modFlock s k (fun x => { x with swap := none, childReady := [] })) tallyPg 0 (.core 0) 4 k

/-- A due fold whose slot the swap has left unused is tested in place at once, or as soon as no other fold of its die is under test
(R390, R392). -/
def forcedTests (s : State) : State :=
  startForced (s.setCare { s.care with forced := (s.care.forced ++ allFolds.filter (fun f => testDue s f && idleServing s f)).dedup })

/-- The swap of flock `k` takes effect at this page tick when it is confirmed and its tally has come. -/
def pageSwap (s : State) (k : Nat) : State := match (getFlock s k).swap with
  | some w =>
    if w.confirmed ∧ w.ts ≤ s.tally.num then (if activationOk s k w then forcedTests (applySwap s k w) else refuseActivation s k) else s
  | none => s

/-! ## Epoch switches (R281 to R283) -/

/-- The flocks that serve a pen: those with an active drove of it. -/
def servingFlocks (s : State) (p : Nat) : List Nat :=
  (List.range 16).filter (fun k => (getFlock s k).entries.any (fun e => (getDrove s e).st == 3 && (getDrove s e).pen == p))

/-- A switch that has taken effect on every flock of the pen changes the epochs' states (DEDUCED, log entry 21). -/
def finishSwitch (s : State) (p : Nat) : State :=
  if (servingFlocks s p).all (fun k => bit (getD 0 s.weights.switched p) k) then
    let e := rd s (penPg p) F.EPOCH_SWITCH_ENTRY
    let s := s.setWeights { s.weights with
      switched := putD 0 s.weights.switched p 0
      drained := if rd s (penPg p) F.EPOCH_SWITCH_POLICY = 1 then s.weights.drained ++ [2 * p + e] else s.weights.drained }
    switchEpoch (wr0 s (penPg p) F.EPOCH_SWITCH_PENDING 0) p e
  else s

/-- A pending switch of a pen has come due, and its new epoch is not DAMAGED. -/
def switchDue (s : State) (p : Nat) : Bool :=
  rd s (penPg p) F.EPOCH_SWITCH_PENDING == 1 && decide (rdPair s (penPg p) F.EPOCH_SW_T_LO F.EPOCH_SW_T_HI ≤ s.tally.num)
    && rd s (penPg p) F.EPOCH0_DAMAGED (rd s (penPg p) F.EPOCH_SWITCH_ENTRY) == 0

/-- The journal entry of an epoch switch (R408). -/
def journalEpoch (s : State) (p k : Nat) : State :=
  let e := rd s (penPg p) F.EPOCH_SWITCH_ENTRY
  let old := match currentEpoch s p with
    | some o => rd s (penPg p) F.EPOCH0_ID o
    | none => 0
  if isLead s k then
    journalHere s p k 7 (toLe 2 (rd s (penPg p) F.EPOCH0_ID e) ++ [BitVec.ofNat 8 (rd s (penPg p) F.EPOCH_SWITCH_POLICY), 0]
      ++ (let d := getD [] s.weights.digests (2 * p + e); d ++ List.replicate (32 - d.length) 0) ++ toLe 2 old)
  else s

/-- The pending switch of pen `p` takes effect for flock `k`, with its journal entry. -/
def switchFlock (s : State) (p k : Nat) : State :=
  let s := journalEpoch s p k
  finishSwitch (s.setWeights { s.weights with switched := modD 0 s.weights.switched p (· ||| 2 ^ k) }) p

/-- The pending switch of flock `k`'s pen takes effect for the flock when it has come due. -/
def pageEpoch (s : State) (k : Nat) : State := match flockPen s k with
  | some p => if switchDue s p ∧ !bit (getD 0 s.weights.switched p) k then switchFlock s p k else s
  | none => s

/-- Switches of pens that no flock serves take effect at the first fire at or after their tally (DEDUCED, log entry 21). -/
def idleSwitches (s : State) : State :=
  forEach s (List.range 16) (fun s p => if switchDue s p ∧ (servingFlocks s p).all (fun k => bit (getD 0 s.weights.switched p) k) then finishSwitch s p else s)

/-! ## Links (R330, R335) -/

/-- The links that the active droves of flock `k` send on. -/
def flockLinks (s : State) (k : Nat) : List Nat :=
  (List.range 96).filter (fun l => (getFlock s k).entries.any (fun e => (getDrove s e).links.any (fun x => x.link == l && x.kind != 4)))

/-- LINK_STATE shows whether any flock's kind 0 entries on a link go by their alternates (R335, R341). -/
def showAlt (s : State) (l : Nat) : State :=
  wr0 s (linkPg l) F.LINK_STATE_ALT (b2n ((List.range 16).any (fun k => bit (getLink s l).alts k && (flockLinks s k).contains l)))

/-- A link that is UP again carries the primary routes of flock `k` from this page tick on, when every drove that the device holds passes
R330 on it. -/
def pageLink (k : Nat) (s : State) (l : Nat) : State :=
  if linkUp s l && linkPasses s l && bit (getLink s l).alts k then
    showAlt (modLink s l (fun x => { x with alts := x.alts - 2 ^ k, altNext := false })) l
  else s

/-! ## Load balancing (R306) -/

/-- The slots of flock `k`'s droves. -/
def flockSlots (s : State) (k : Nat) : List Nat := maskSlots ((getFlock s k).entries.foldl (fun m e => m ||| (getDrove s e).folds) 0)

/-- The round that ends gives the cost of each slot of flock `k`: the growth of the pause counters of the folds that served it (R306). -/
def closeRound (s : State) (k : Nat) : State :=
  forEach s (flockSlots s k) (fun s sl => s.setDrover { s.drover with
    roundCost := putD 0 s.drover.roundCost sl (getD 0 s.drover.roundMore sl + slotPause s sl - getD 0 s.drover.roundStart sl) })

/-- A round starts: the pause counters of the fold of each slot of flock `k`. A slot that is new to the flock has no last round. -/
def openRound (old : List Nat) (s : State) (k : Nat) : State :=
  forEach s (flockSlots s k) (fun s sl => s.setDrover { s.drover with
    roundStart := putD 0 s.drover.roundStart sl (slotPause s sl), roundMore := putD 0 s.drover.roundMore sl 0
    roundCost := if old.contains sl then s.drover.roundCost else putD 0 s.drover.roundCost sl 0 })

/-! ## The folds of a page tick (R231) -/

/-- The flocks in a page tick. -/
def paging (s : State) : List Nat := (List.range 16).filter (fun k => (getFlock s k).phase == 2)

/-- Give the flock's folds the droves and windows of round `r`. -/
def pageFolds (s : State) (k r : Nat) : State :=
  let mine := allFolds.filter (fun f => foldFlock s f == some k || (entryFor s k r f).isSome
    || (getFlock s k).entries.any (fun e => (segOf s f (getDrove s e)).isSome))
  let s := forEach s mine (fun s f => modFold s f (fun x => { x with drove := entryFor s k r f }))
  forEach s mine (fun s f => pageFold s r f)

/-- The checkpoint that a page tick of flock `k` starts (R396). -/
def pageCkpt (s : State) (k : Nat) : State := if (getFlock s k).entries.isEmpty then s else startCkpt s k (getFlock s k).round

/-- The folds that the droves `gone` of flock `k` leave are erased, and its folds take the droves and windows of the coming round; links
that are UP again carry their primary routes (R231, R335). -/
def pageRest (s : State) (k : Nat) (gone : List Nat) : State :=
  let left := gone.filter (fun e => !(getFlock s k).entries.contains e)
  let s := forEach s (maskFolds s (left.foldl (fun m e => m ||| (getDrove s e).folds) 0)) (fun s f =>
    if (foldDrove s f).isNone then eraseSeg s f else s)
  let s := pageFolds s k (getFlock s k).round
  let s := forEach s (flockLinks s k) (pageLink k)
  pageRetired s k

/-- A step that starts at this fire takes the cancel masks that the page tick of another flock has let the Drover latch only now (R186). -/
def cancelNow (s : State) (f : Nat) : State :=
  if foldSteps s f && (foldFlock s f).any (fun k => (getFlock s k).pos == 0)
  then modFold s f (fun x => { x with applied := x.applied &&& (x.cancel ^^^ (2 ^ 256 - 1)) }) else s

/-! ## PAGE_WINDOW_SET (R186, R231) -/

/-- The live mask of a lane block buffer (R298). -/
def blockMask (s : State) (f buf : Nat) : Nat := leNat (droveRead s (vsAddr f (64 * bits (controlBlock s f) (16 + 16 * buf) 16)) 32)

/-- The applied mask of a step: the block's mask AND NOT the latched cancel mask (R186). -/
def maskFor (s : State) (f buf : Nat) : Nat := (blockMask s f buf) &&& ((getFold s f).cancel ^^^ (2 ^ 256 - 1))

/-- The carried tile mask of the drove active on a fold. -/
def carriedMask (s : State) (f : Nat) : Nat := match foldDrove s f with
  | some d => ((segOf s f d).map (·.carried)).getD 0
  | none => 0

/-- Cycle 2,304 of the page tick on a fold of a flock. A time-shared fold keeps the marks of its old drove until its context
interval has saved them. The applied mask takes the coming round's first block, when it has landed. -/
def windowFold (s : State) (k f : Nat) : State :=
  let x := getFold s f
  let m := carriedMask s f
  let s := if x.ctx.isSome then wr0 s (foldPg f) F.ACC_CARRIED m else markCarried s f m
  let buf := if x.landed.isSome then 1 - x.laneBuf else x.laneBuf
  if foldFlock s f = some k then modFold s f (fun y => { y with applied := maskFor s f buf }) else s

/-- PAGE_WINDOW_SET (R231): the round number itself is the flock's. -/
def execPageWindowSet (s : State) : Host.Outcome State Fault Refusal :=
  if s.tally.paged = 1 then
    let s := s.setTally { s.tally with paged := 2 }
    .next (forEach s (paging s) (fun s k => forEach s (flockFolds s k) (windowFold · k)))
  else .next s

end Sys2Proof.Machine
end

