-- ==== Sys2Proof/Machine/Rings.lean ====
section
/-! DEFINITION. Submission rings, register writes, and the debug port (R9, R355, R360, R361, R468, R469). -/

namespace Sys2Proof.Machine

/-! ## One message by its type (R356) -/

/-- A MGMT message by its subtype. -/
def dispatchMgmt (s : State) (h : MsgHead) (body : List Byte) : State :=
  let t := num body 0 1
  let a := num body 2 1
  if t = 1 then msgNvmeTarget s h body else if t = 2 then msgUpdBegin s h body else if t = 3 then msgUpdPiece s h body
  else if t = 4 ∧ a = 1 then msgUpdStatus s h body else if t = 4 ∧ a = 2 then msgUpdActivate s h body
  else if t = 4 ∧ a = 3 then msgUpdConfirm s h body else if t = 4 ∧ a = 4 then msgUpdAbandon s h body
  else if t = 4 ∧ a = 5 then msgUpdRevert s h body else mgmt s h false (fun _ s => s)

/-- A DEBUG message by its operation. -/
def dispatchDebug (s : State) (h : MsgHead) (body : List Byte) : State :=
  let t := num body 0 1
  if t = 1 then msgDebugRead s h body else if t = 2 then msgDebugWrite s h body else if t = 3 then msgDebugHalt s h body
  else if t = 4 then msgDebugResume s h body else message s h 0x50 true false (fun _ s => s)

/-- A message by its type. -/
def dispatch (s : State) (h : MsgHead) (typ : Nat) (body : List Byte) : State :=
  if typ = 0x02 then msgClose s h body else if typ = 0x03 then msgNop s h body else if typ = 0x10 then msgAdmit s h body
  else if typ = 0x11 then msgAbort s h body else if typ = 0x20 then msgDroveLoad s h body else if typ = 0x21 then msgDroveUnload s h body
  else if typ = 0x22 then msgDroveSwap s h body else if typ = 0x30 then msgEpochOpen s h body else if typ = 0x31 then msgShardFetch s h body
  else if typ = 0x32 then msgShardPush s h body else if typ = 0x33 then msgArrivalCancel s h body
  else if typ = 0x34 then msgEpochSwitch s h body else if typ = 0x35 then msgEpochRetire s h body
  else if typ = 0x40 then dispatchMgmt s h body else if typ = 0x50 then dispatchDebug s h body
  else msgUnknown s h typ body

/-! ## Rings (R353, R355) -/

/-- `n` bytes of a ring from slot `slot` on, wrapping. -/
def ringBytes (s : State) (p : Nat) (c : Chan) (slot n : Nat) : List Byte :=
  (List.range n).map (fun j => winByte s p (c.base + (256 * slot + j) % (256 * c.slots)))

/-- The header of a message on channel `ch` of pen `p` (R353). -/
def headOf (p ch : Nat) (b : List Byte) : MsgHead :=
  { pen := Fin.ofNat 16 p, ch := Fin.ofNat 128 ch, seq := BitVec.ofNat 24 (num b 4 3), tag := BitVec.ofNat 64 (num b 8 8)
    bad := num b 1 1 != 0 || num b 7 1 != 0 || !zeroAt b 16 16 || decide (65504 < num b 2 2)
    pkt := ⟨0, false, false⟩ }

/-- The next whole message of a ring: its bytes and its slots. -/
def nextMessage (s : State) (p ch : Nat) : Option (List Byte × Nat) :=
  let c := getChan s p ch
  let head := rd s (penPg p) F.CH_SQ_HEAD ch
  let left := (2 ^ 32 + rd s (penPg p) F.CH_SQ_TAIL ch - head) % 2 ^ 32
  if left = 0 ∨ c.slots = 0 then none
  else
    let n := 32 + num (ringBytes s p c head 32) 2 2
    if ceilDiv n 256 ≤ left then some (ringBytes s p c head n, ceilDiv n 256) else none

/-- Serve ring `k` (128 times its pen, plus its channel), the first of the rung ones: its next whole message is executed, and a ring
without one is no longer rung. -/
def serveRing (s : State) (k : Nat) (rest : List Nat) : State := match nextMessage s (k / 128) (k % 128) with
  | some m => dispatch (wr s (penPg (k / 128)) F.CH_SQ_HEAD (k % 128) (rd s (penPg (k / 128)) F.CH_SQ_HEAD (k % 128) + m.2))
      (headOf (k / 128) (k % 128) m.1) (num m.1 0 1) (m.1.drop 32)
  | none => s.setRung rest

/-- Serve the rings whose doorbells have come: every whole message is executed, and a part of one waits for a later doorbell. A
message that rings another doorbell has that ring served as well. -/
def runRings : Nat → State → State
  | 0, s => s.setRung []
  | fuel + 1, s => match s.rung with
    | [] => s
    | k :: r => runRings fuel (serveRing s k r)

/-- A bound on the messages that one command sets off. -/
def ringFuel : Nat := 2 ^ 40

/-- Serve every ring. -/
def serveRings (s : State) : State := runRings ringFuel s

/-- CH_SQ_TAIL (R355). -/
def execChSqTail (src : Source) (pen : Fin 16) (ch : Fin 128) (v : Word) (s : State) : Host.Outcome State Fault Refusal :=
  .next (serveRings (onPage s src (penPg pen) (fun s => doorbell s pen ch v.toNat)))

/-- CH_TR_HEAD (R361). -/
def execChTrHead (src : Source) (pen : Fin 16) (ch : Fin 128) (v : Word) (s : State) : Host.Outcome State Fault Refusal :=
  .next (onPage s src (penPg pen) (fun s => ringHead s pen ch v.toNat))

/-- REGISTER_WRITE (R9, R10). -/
def execRegisterWrite (src : Source) (page : Fin 256) (word : Fin 1024) (v : Word) (s : State) : Host.Outcome State Fault Refusal :=
  .next (serveRings (writeWord s src page (4 * word.val) v.toNat))

/-- DEBUG_WRITE (R469). -/
def execDebugWrite (h : MsgHead) (body : List Byte) (s : State) : Host.Outcome State Fault Refusal :=
  .next (serveRings (sendIn s h body.length (fun s => msgDebugWrite s h body)))

/-! ## The debug port (R468) -/

/-- The debug port reaches the device: it has power and is out of reset. -/
def jtagReaches (s : State) : Bool := s.boot.powerOk && released s

/-- JTAG_ACCESS (R468): one 4-byte word at an aligned device address. -/
def execJtagAccess (write : Bool) (addr : Nat) (v : Word) (s : State) : Host.Outcome State Fault Refusal :=
  if !jtagReaches s || addr % 4 != 0 then .next s
  else if write then .next (serveRings (deviceWrite s .jtag addr v.toNat))
  else .next (let (x, s) := deviceRead s .jtag addr; emit s (.tdo x))

/-- JTAG_HALT (R468). -/
def execJtagHalt (core : Fin 4) (s : State) : Host.Outcome State Fault Refusal := .next (if jtagReaches s then haltCore s core else s)

/-- JTAG_RESUME (R468). -/
def execJtagResume (core : Fin 4) (s : State) : Host.Outcome State Fault Refusal := .next (if jtagReaches s then resumeCore s core else s)

/-- ANCHOR_CLEAR (R468, R492). -/
def execAnchorClear (s : State) : Host.Outcome State Fault Refusal :=
  .next (if jtagReaches s then logWrite (putFlash s (s.boot.flash.withAnchor none)) bootPg 0x8A 0xFF [] else s)

/-- TAP_LEAVE_RESET (R468, R492). -/
def execTapLeaveReset (s : State) : Host.Outcome State Fault Refusal :=
  .next (if s.boot.powerOk then logWrite s bootPg 0x89 0xFF [] else s)

end Sys2Proof.Machine
end

