-- ==== Sys2Proof/Machine/Rdma.lean ====
section
/-! DEFINITION. RDMA requests to the regions of a pen (R346 to R350). -/

namespace Sys2Proof.Machine

/-- The request lies in a region that the queue pair's pen exposes (R347, R348). -/
def regionOk (s : State) (p : Nat) (r : RdmaReq) : Bool :=
  if r.key.toNat = 1 then r.addr % 4 == 0 && r.len % 4 == 0 && decide (r.addr + r.len ≤ 0x100000)
  else r.key.toNat == 2 && inWindow s p r.addr r.len

/-- A request is turned down with a NAK, and the queue pair goes into the error state. -/
def nakRequest (s : State) (q psn code : Nat) : State := qpFail (sendRcAck s q psn code) q

/-- Take or fill the data of a request to its length. -/
def dataOf (r : RdmaReq) (data : List Byte) : List Byte := data.take r.len ++ List.replicate (r.len - data.length) (0 : Byte)

/-- Write register words upwards (R348, R490). -/
def writeWords (src : Source) : Nat → Nat → List Byte → State → State
  | 0, _, _, s => s
  | n + 1, a, bs, s => writeWords src n (a + 4) (bs.drop 4) (writeWord s src (a / 4096) (a % 4096) (leNat (bs.take 4)))

/-- Read register words upwards. -/
def readWords (src : Source) : Nat → Nat → State → List Byte × State
  | 0, _, s => ([], s)
  | n + 1, a, s =>
    let (v, s) := readWord s src (a / 4096) (a % 4096)
    let (bs, s) := readWords src n (a + 4) s
    (toLe 4 v ++ bs, s)

/-- Perform a write in a region of pen `p`. -/
def regionWrite (s : State) (p : Nat) (r : RdmaReq) (data : List Byte) : State :=
  if r.key.toNat = 1 then writeWords (.rdma (Fin.ofNat 16 p)) (r.len / 4) r.addr data s else winWrite s p r.addr data

/-- Perform a read in a region of pen `p`. -/
def regionRead (s : State) (p : Nat) (r : RdmaReq) : List Byte × State :=
  if r.key.toNat = 1 then readWords (.rdma (Fin.ofNat 16 p)) (r.len / 4) r.addr s else (winBytes s p r.addr r.len, s)

/-- RDMA_WRITE (R347 to R349). -/
def execRdmaWrite (r : RdmaReq) (data : List Byte) (s : State) : Host.Outcome State Fault Refusal :=
  let x := getQp s r.qp
  let n := x.packets r.len
  let last := (r.psn.toNat + n - 1) % 2 ^ 24
  .next (takePacket s r.qp r.pkt
    (fun s =>
      if regionOk s x.pen r then serveRings (sendRcAck (regionWrite (movePsn s r.qp n) x.pen r (dataOf r data)) r.qp last 0)
      else nakRequest s r.qp r.psn.toNat nakAccess)
    (fun s => ackAgain s r.qp))

/-- Send the data of a READ. -/
def sendRead (s : State) (x : Qp) (r : RdmaReq) : State :=
  let (bs, s) := regionRead s x.pen r
  emit (bump s ethPg F.FRAMES_TX (x.packets r.len)) (.readData r.qp r.psn.toNat bs)

/-- RDMA_READ (R347 to R349): a repeated request is read again. -/
def execRdmaRead (r : RdmaReq) (s : State) : Host.Outcome State Fault Refusal :=
  let x := getQp s r.qp
  let serve := fun (s : State) (moves : Bool) =>
    if regionOk s x.pen r then sendRead (if moves then movePsn s r.qp (x.packets r.len) else s) x r
    else nakRequest s r.qp r.psn.toNat nakAccess
  .next (takePacket s r.qp r.pkt (fun s => serve s true) (fun s => serve s false))

/-- ATOMIC (R346): an invalid-request NAK. -/
def execAtomic (qp : Fin 2048) (pkt : Pkt) (s : State) : Host.Outcome State Fault Refusal :=
  let nak := fun s => nakRequest s qp pkt.psn.toNat nakInvalid
  .next (takePacket s qp pkt nak nak)

end Sys2Proof.Machine
end

