-- ==== Sys2Proof/Machine/Replay.lean ====
section
/-! DEFINITION. Replays: restoring a checkpoint, applying a journal, and the page tick as a whole (R231, R315, R396, R398, R399, R410,
R412 to R415, R519). -/

namespace Sys2Proof.Machine

/-- A replay stops with a cause (R415). -/
def stopReplay (s : State) (p cause : Nat) : State := wr0 (wr0 s (penPg p) F.REPLAY_STATE_STATE 5) (penPg p) F.REPLAY_STATE_CAUSE cause

/-- The next request of a record index takes the generation count after this handle's (R294). -/
def useHandle (s : State) (handle : Nat) : State :=
  s.setDrover { s.drover with gens := putD 0 s.drover.gens (handle % 4096) ((handle / 4096 + 1) % 16) }

/-! ## Restoring a checkpoint (R398, R399, R412) -/

/-- The record in a slot of the pen's own half, when it is complete (R399). -/
def slotRecord (s : State) (p k slot : Nat) : Option (List Byte) :=
  let bytes := winBytes s p ((checkpointRegion s p).base + (2 * ckptPlace s p k + slot) * slotSize s p) (slotSize s p)
  let r := bytes.take (leNat (field bytes 136 8))
  if field r 0 8 = "GQZCKPNT".toList.map (fun c => BitVec.ofNat 8 c.toNat) ∧ 4096 ≤ r.length ∧ fieldNat r 10 1 = k
      ∧ sha256 (r.take 4064 ++ List.replicate 32 0 ++ r.drop 4096) = field r 4064 32 then some r else none

/-- The checkpoint that a replay of flock `k` starts from: its slot and its record. On the lead its journal position is the start sequence;
elsewhere nothing says which of two complete ones the lead's round names, so that is free (R398, R399, R412; DESIGN CHOICE, log entry 116). -/
def startCheckpoint (s : State) (p k : Nat) : Option (Nat × List Byte) × State :=
  let all := [0, 1].filterMap (fun slot => (slotRecord s p k slot).map (fun r => (slot, r)))
  if isLead s k then (all.find? (fun e => fieldNat e.2 144 8 == rd s (penPg p) F.REPLAY_START_SEQ), s)
  else
    let (v, s) := drawNat s
    (all[v % max 1 all.length]?, s)

/-- Section `i` of a checkpoint record. -/
def ckptSection (r : List Byte) (i : Nat) : List Byte := field r (fieldNat r (160 + 16 * i) 8) (fieldNat r (168 + 16 * i) 8)

/-- The carried tiles of a drove in the order of section 0: fold and tile. -/
def carriedTiles (s : State) (d : Drove) : List (Nat × Nat) :=
  (maskSlots d.folds).flatMap (fun sl => match foldOfSlot s sl with
    | some f => ((List.range 16).filter (bit (((segOf s f d).map (·.carried)).getD 0))).map (fun t => (f, t))
    | none => [])

/-- The carried tiles come from section 0. A time-shared fold holds them for its drove (R144). -/
def restoreCarried (s : State) (d : Drove) (sec : List Byte) : State :=
  let s := forEach s ((carriedTiles s d).zipIdx) (fun s e =>
    modTile s e.1.1 e.1.2 (fun _ => { imageTile (field sec (28928 * e.2) 28928) true with carried := true }))
  forEach s (droveFolds s d) (fun s f => match segOf s f d with
    | some g => if g.shared then modFold s f (fun x => { x with ctx := some (d.digest, d.pen, g.carried) }) else s
    | none => s)

/-- The KV segments of a request record. -/
def recordSegs (b : List Byte) : List (Nat × Nat × Nat) :=
  (List.range (min 16 (fieldNat b 67 1))).map (fun i => (fieldNat b (96 + 8 * i) 2, fieldNat b (98 + 8 * i) 2, fieldNat b (100 + 8 * i) 4))

/-- The prompt of a restored request, from the token records of its blocks. A QUEUED one has none, and its tokens are free (R302, R399;
DESIGN CHOICE, log entry 116). -/
def recordPrompt (s : State) (p : Nat) (t : LaneTable) (blocks : List Nat) (n : Nat) : List Nat :=
  (List.range n).map (fun j => match blocks[j / 64]? with
    | some b => winLe s p (tokenRecord s p t b + 4 * (j % 64)) 4
    | none => Config.freeNat (s.free + j) % 2 ^ 32)

/-- The blocks at the start of a request's prompt whose keys the prefix table holds for it (R311). -/
def chainOf (s : State) (r : Request) (blocks : List Nat) : Nat :=
  ((((blockKeys s r.pen r.prompt r.epoch (r.done / 64)).zip blocks).map (fun e => (findPfx s r.pen e.1).any (fun x => x.2.block == e.2))).takeWhile id).length

/-- The request of a 512-byte record (R399), without a decode lane; its records go to the replay's channel (R412). -/
def recordRequest (s : State) (p k : Nat) (t : LaneTable) (b : List Byte) : Request :=
  let segs := recordSegs b
  let matched := segs.dropLast.flatMap (fun g => (List.range g.2.1).map (g.2.2 + ·))
  let tail := segs.getLast?.getD (0, 0, 0)
  let blocks := matched ++ (List.range tail.2.1).map (tail.2.2 + ·)
  let n := fieldNat b 60 4
  let st := fieldNat b 2 1
  let done := fieldNat b 88 4
  let r : Request :=
    { pen := p, ch := rd s (penPg p) F.REPLAY_CTRL_CHAN, flock := k, handle := fieldNat b 0 2, tag := fieldNat b 8 8, bulk := fieldNat b 3 1 == 1
      greedy := bit (fieldNat b 4 1) 0, temp := fieldNat b 6 2, seed := field b 16 16, maxNew := fieldNat b 32 4
      stops := ((List.range 4).map (fun j => fieldNat b (36 + 4 * j) 4)).filter (· != noBlock), deadline := fieldNat b 52 8
      prompt := recordPrompt s p t blocks n, epoch := fieldNat b 64 2, admitted := fieldNat b 72 8
      phase := if st < 4 then min st 2 else if done < n then 1 else 2, draining := st == 4, fed := done, done := done
      tokens := fieldNat b 80 4, drawn := fieldNat b 80 4, last := fieldNat b 92 4, lane := none, matched := matched, tail := tail.2.2
      tailLen := tail.2.1, chain := 0, z := fieldNat b 66 1, suspended := fieldNat b 68 2, before := (0, 0, none) }
  { r with chain := chainOf s r blocks }

/-- Take a restored request in. The record of one in DECODE names no lane, so which of the free ones it holds is free (R299, R399; DESIGN
CHOICE, log entry 116). -/
def restoreRequest (p k : Nat) (d : Drove) (s : State) (b : List Byte) : State :=
  let r := recordRequest s p k d.lanes b
  let s := s.setFree (s.free + r.prompt.length)
  let lanes := d.lanes.lanes.filter (fun l => l.kind == 1 && eligible d r l && !laneTaken s k d [] l)
  let (v, s) := drawNat s
  let r := match (if fieldNat b 2 1 = 3 then lanes[v % max 1 lanes.length]? else none) with
    | some l => { r with phase := 3, lane := some l.lane }
    | none => r
  useHandle (pinEpoch (putReq s r) p r.epoch true) r.handle

/-- A request of the flock that the restored state replaces. -/
def dropRequest (s : State) (r : Request) : State :=
  pinEpoch (s.setDrover { s.drover with reqs := putD [] s.drover.reqs (r.handle % 4096) [] }) r.pen r.epoch false

/-- The lead's part of a checkpoint: the prefix table and the requests. The free blocks follow from both. -/
def restoreLead (s : State) (p k : Nat) (d : Drove) (r : List Byte) : State :=
  let s := forEach s (flockReqs s k) dropRequest
  let s := coreWrite s p (prefixRegion s p).base ((ckptSection r 2).take (prefixRegion s p).size)
  let sec := ckptSection r 1
  forEach s ((List.range (sec.length / 512)).map (fun i => field sec (512 * i) 512)) (restoreRequest p k d)

/-- Flock `k` goes on from a checkpoint record: its round, its last committed step, its tiles and, on the lead, its requests. -/
def restoreFlock (s : State) (p k slot : Nat) (r : List Byte) : State := match flockDrove s k with
  | some d =>
    let s := modFlock s k (fun x => { x with num := fieldNat r 152 8 + 1, round := fieldNat r 16 8 })
    let c := getCkpt s p k
    let s := restoreCarried (putCkpt s p k { c with newest := if c.newest = 0 then slot + 1 else c.newest }) d (ckptSection r 0)
    if isLead s k then restoreLead s p k d r else s
  | none => s

/-- The first entry of a pen's replay, when its sequence is the start sequence. -/
def firstEntry (s : State) (p : Nat) : Option JEntry :=
  (sourceEntries s p ((replaySource s p).size / 64) 0).find? (fun e => e.seq == rd s (penPg p) F.REPLAY_START_SEQ)

/-- The swap that a waiting replay of flock `k` waits for has taken effect: the starting SWAP entry, or the restored checkpoint, gives the
last committed step (R412, R519). -/
def prepareReplay (s : State) (k : Nat) : State := match flockPen s k with
  | some p =>
    if replayState s p = 1 ∧ rd s (penPg p) F.REPLAY_CTRL_FLOCK = k then
      let s := putReplay s p { getReplay s p with ready := true }
      match (firstEntry s p).bind (fun e => if e.typ = 6 then some e.pos else none) with
      | some n => modFlock s k (fun x => { x with num := n + 1 })
      | none => match startCheckpoint s p k with
        | (some e, s) => restoreFlock s p k e.1 e.2
        | (none, s) => s
    else s
  | none => s

/-- A replay becomes RUNNING at the first step of its flock (R412). -/
def startReplay (s : State) (k : Nat) : State := match flockPen s k with
  | some p =>
    if replayState s p = 1 ∧ (getReplay s p).ready ∧ rd s (penPg p) F.REPLAY_CTRL_FLOCK = k then wr0 s (penPg p) F.REPLAY_STATE_STATE 2 else s
  | none => s

/-! ## Applying a journal (R413 to R415) -/

/-- The registers whose writes CONFIG records (R408). -/
def configReg (page off : Nat) : Bool := match pageType page with
  | some .drover => off == 0x040
  | some .pen => decide (0x430 ≤ off) && decide (off < 0x440) && off % 4 == 0
  | some .test => off == 0x040
  | some .fold => off == 0x600 || off == 0x400 || off == 0x784
  | _ => false

/-- Write a register that CONFIG records, with its effects; the device itself is the source (R413). -/
def writeConfig (s : State) (page off v : Nat) : State := match pageType page with
  | some .pen => writePfxKey (page - 2) ((off - 0x430) / 4) v s
  | some .fold => if off = 0x400 then (let s := storeWord s .jtag page off v; if bit v 13 then forceCal s (page - 18) else s) else storeWord s .jtag page off v
  | _ => storeWord s .jtag page off v

/-- A CONFIG entry writes its register as the host did, and goes into the device's own journal (R408, R413). -/
def applyConfig (s : State) (page off v : Nat) : State :=
  if configReg page off then journalConfig (writeConfig s page off v) page off v else s

/-- Apply an ADMIT entry: the request keeps its handle, and its records go to the replay's channel (R412, R413). -/
def applyAdmit (s : State) (k p : Nat) (e : JEntry) : State :=
  let id := fieldNat e.body 2 2
  if (epochOf s p id).isNone then stopReplay s p 3
  else
    let body := field e.body 16 56
    let n := fieldNat body 52 4
    let prompt := (List.range n).map (fun j => fieldNat e.body (72 + 4 * j) 4)
    let r := mkRequest p (rd s (penPg p) F.REPLAY_CTRL_CHAN) k (fieldNat e.body 0 2) (fieldNat e.body 4 8) id s.tally.num body prompt
    useHandle (takeRequest s r body) r.handle

/-- The host tag of the live or ended request of a pen with a handle. -/
def tagOf (s : State) (p handle : Nat) : Option Nat :=
  (((getReq s handle).filter (fun r => r.pen == p)).map (·.tag)).orElse (fun _ =>
    ((getD [] s.drover.ended (handle % 4096)).find? (fun x => x.pen == p && x.handle == handle)).map (·.tag))

/-- Apply an ABORT entry: the device decides it again, and a different result is a divergence (R413, R414). The entry holds no tag: that
of an abort answered UNKNOWN names no request in the replay either (DEDUCED, log entry 103). -/
def applyAbort (s : State) (k p : Nat) (e : JEntry) : State :=
  let handle := fieldNat e.body 0 2
  let (v, s) := match (if fieldNat e.body 2 1 = 2 then none else tagOf s p handle) with
    | some tag => let a := abortHandle s p handle tag; (a.1, a.2.2)
    | none => (2, unknownAbort s p handle)
  if v = fieldNat e.body 2 1 then s else diverge s k p e.seq 2 e.pos

/-- Apply an END entry. -/
def applyEnd (s : State) (e : JEntry) : State := match getReq s (fieldNat e.body 0 2) with
  | some r => endReq (journalEnd s r (fieldNat e.body 2 1)) r (fieldNat e.body 2 1)
  | none => s

/-- Compare a COMMIT entry with the commit of the replay (R413, R414). -/
def applyCommit (s : State) (k p : Nat) (e : JEntry) : State :=
  if (getServing s k).commit = (fieldNat e.body 0 8, fieldNat e.body 8 4, fieldNat e.body 12 4, field e.body 16 32) then s
  else diverge s k p e.seq 1 e.pos

/-- Apply a SWAP entry: a drove of the pen that is LOADED comes in, or none; in the page tick at once, else at the next one (R413, R415). -/
def applySwapEntry (s : State) (k p : Nat) (e : JEntry) : State :=
  let dg := field e.body 32 32
  let w : Swap := { incoming := dg, ts := 0, confirmed := true, ready := 1, origin := none, pen := some p }
  let go := fun (s : State) =>
    let s := modFlock s k (fun x => { x with swap := some w, childReady := [] })
    let old := (getFlock s k).entries
    if (getFlock s k).phase = 2 then pageRest (pageSwap s k) k old else s
  if dg.all (· == 0) then go s
  else match loadedEntry s (some p) dg with
    | some i => go (putDrove s i { getDrove s i with confirmed := true })
    | none => stopReplay s p 3

/-- Apply an EPOCH entry: the switch takes effect for the flock, under its policy (R281, R283, R413, R415). -/
def applyEpoch (s : State) (k p : Nat) (e : JEntry) : State := match epochOf s p (fieldNat e.body 0 2) with
  | some i =>
    if getD [] s.weights.digests (2 * p + i) = field e.body 4 32 then
      let pg := penPg p
      let s := wr0 (wr0 (wr0 s pg F.EPOCH_SWITCH_PENDING 1) pg F.EPOCH_SWITCH_POLICY (fieldNat e.body 2 1)) pg F.EPOCH_SWITCH_ENTRY i
      switchFlock (wrPair s pg F.EPOCH_SW_T_LO F.EPOCH_SW_T_HI s.tally.num) p k
    else stopReplay s p 3
  | none => stopReplay s p 3

/-- Apply one position entry (R413). -/
def applyEntry (s : State) (k p : Nat) (e : JEntry) : State :=
  match e.typ with
  | 1 => applyAdmit s k p e
  | 2 => applyAbort s k p e
  | 3 => applyEnd s e
  | 5 => applyCommit s k p e
  | 6 => applySwapEntry s k p e
  | 7 => applyEpoch s k p e
  | 8 => applyConfig s (fieldNat e.body 0 2) (fieldNat e.body 2 2) (fieldNat e.body 4 4)
  | _ => s

/-- An entry that the device passes over: OPEN and VOID ones, PAD and PLACE, and the SWAP that the replay starts with (R412, R413). -/
def passedOver (x : Replay) (e : JEntry) : Bool := e.st != entClosed || e.typ == 0 || e.typ == 4 || (!x.begun && e.typ == 6)

/-- Apply the entries that are due after the last committed step of flock `k`; `n` bounds their number (R413, R415). -/
def applyEntries (k p : Nat) : Nat → State → State
  | 0, s => s
  | n + 1, s =>
    if (replayPen s k).isNone then s
    else
      let x := getReplay s p
      if sourcePoisoned s p x.off then stopReplay s p 1
      else match sourceEntry s p x.off with
      | none => wr0 s (penPg p) F.REPLAY_STATE_STATE 4
      | some e =>
        let y := { x with off := x.off + 64 * e.units, next := (e.seq + 1) % 2 ^ 32, begun := true }
        if !x.begun ∧ e.seq ≠ rd s (penPg p) F.REPLAY_START_SEQ then applyEntries k p n (putReplay s p { x with off := x.off + 64 * e.units })
        else if x.begun ∧ e.seq ≠ x.next then stopReplay s p 2
        else if passedOver x e then applyEntries k p n (putReplay s p y)
        else if lastStep s k < e.pos then putReplay s p { x with begun := x.begun, next := if x.begun then x.next else e.seq }
        else
          let t := applyEntry s k p e
          if replayState t p = 5 then t else applyEntries k p n (putReplay t p y)

/-- The replay of flock `k` takes the entries due at this fire. -/
def replayFire (s : State) (k : Nat) : State := match replayPen s k with
  | some p => applyEntries k p ((replaySource s p).size / 64 + 1) s
  | none => s

/-! ## PAGE_TICK (R231, R315, R410) -/

/-- The rest of a flock's page tick after the swaps, epoch switches, checkpoints and ends of all flocks: its folds, its links, and the
replay that its swap starts. `e` is the flock with its entries and slots before the page tick. -/
def pageFlock (s : State) (e : Nat × List Nat × List Nat) : State :=
  let s := openRound e.2.2 (pageRest s e.1 e.2.1) e.1
  if (getFlock s e.1).entries = e.2.1 then s else prepareReplay s e.1

/-- What cycle 0 of a page tick does. -/
def pageTick (s : State) : State :=
  let ks := paging s
  let s := s.setTally { s.tally with paged := 1 }
  let s := bump s tallyPg F.PAGE_TICK_CNT
  let old := ks.map (fun k => (k, (getFlock s k).entries, flockSlots s k))
  let s := forEach (forEach s ks settleDeadlines) ks closeRound
  let s := forEach (forEach s ks pageSwap) ks pageEpoch
  let s := forEach (forEach s ks pageCkpt) ks endDraining
  let s := forEach s old pageFlock
  let s := latchAll (forEach s (List.range 16) replayFire)
  forEach s allFolds cancelNow

/-- PAGE_TICK (R231): cycle 0 of the page tick, for every flock whose page tick this is. Its journal entries come in the order of R315 for
all of them (R410), and the Drover latches its inputs after them. -/
def execPageTick (s : State) : Host.Outcome State Fault Refusal :=
  if tallyState s = 3 ∧ !(paging s).isEmpty ∧ s.tally.paged = 0 then .next (orderLog s (pageTick s)) else .next s

end Sys2Proof.Machine
end

