-- ==== Sys2Proof/Machine/TickFire.lean ====
section
/-! DEFINITION. The fire of a tick: the end of the old tick, the decision on each step, the tick-boundary actions, and the start
or replay of steps (R18, R28, R50, R123, R124, R143, R144, R156, R186, R203 to R205, R209, R215, R216, R223 to R230, R248, R252,
R284, R315, R335, R351, R383 to R385, R448, R521). -/

namespace Sys2Proof.Machine

/-! ## The end of the old tick -/

/-- The deadline of a tick that does not end a step is its fire: slack is recorded, and a resolve overrun faults (R124, R223). -/
def endDeadline (s : State) (k : Nat) : State :=
  let limit := unitsOf (deadline s k (s.tally.q.getD 0)) (tickP s)
  let past := workEnd s k - limit
  let s := recordSlack s k limit
  if 0 < past ∧ (flockFolds s k).any (fun f => (getFold s f).resPaused) then resolveFault s k past else s

/-- Put an interval in its place by its first cycle. -/
def insSpan (x : Nat × Nat) : List (Nat × Nat) → List (Nat × Nat)
  | [] => [x]
  | y :: ys => if x.1 < y.1 then x :: y :: ys else y :: insSpan x ys

/-- The cycles below `stop` that intervals, in the order of their first cycles, cover from cycle `at_` on; each is first cycle and end. -/
def coverFrom (stop : Nat) : Nat → List (Nat × Nat) → Nat
  | _, [] => 0
  | at_, (a, b) :: r => (min b stop - max a at_) + coverFrom stop (max at_ b) r

/-- The cycles of a port that the running droves book for bytes in the tick that ends (R252). -/
def bookedCycles (s : State) (q : Nat) : Nat :=
  let spans := (stepping s).flatMap (fun k => match flockDrove s k with
    | some d => (d.edges.filter (fun b => b.cls == 0 && b.port == q && b.pos == (getFlock s k).pos && decide (0 < b.bytes))).map
        (fun b => (b.first, b.first + b.count))
    | none => [])
  coverFrom (tickLength s) 0 (spans.foldl (fun acc x => insSpan x acc) [])

/-- The refresh shortfall of a stack in the tick that ends, the worst of its ports, rounded up to 64 cycles (R252). -/
def refreshShort (s : State) (stack : Nat) : Nat :=
  let t := tickLength s
  let need := ceilDiv t (if rd s (hbmPg stack) F.HBM_TEMP_DOUBLED = 1 then 16 else 32)
  ((List.range 4).map (fun j => roundUp (need - (t - bookedCycles s (4 * stack + j))) 64)).foldl max 0

/-- The refresh pauses that start with the next tick. -/
def refreshPauses (s : State) : List (Nat × Nat) := ((List.range 8).map (fun k => (k, refreshShort s k))).filter (fun e => decide (0 < e.2))

/-- A step that awaits link data at a fire is short of its TEND (R332). -/
def endAwaited (s : State) (k : Nat) : State := if (unlanded s k).isEmpty then s else stepFault s k 1

/-- Everything that a step's tick ends with. -/
def endTick (s : State) : State :=
  let s := forEach s allFolds endShare
  let s := forEach s (stepping s) (fun s k => forEach s (flockFolds s k) (endFold · k))
  forEach s (stepping s) (fun s k => if lastTick s k then s else endAwaited (endDeadline s k) k)

/-- A fold as the tick ends at device cycle `stop`: what the tick counted is cleared, and what has ended by time leaves. -/
def freshTick (stop : Nat) (x : Fold) : Fold :=
  { x with
    next := 0, endCycle := 0, layerN := [], layerC := [], layerR := [], certOut := 0, certRes := 0
    faultTick := false, clashTick := false, resPaused := false, closed := false
    busy := x.busy.filter (fun p => decide (stop < p.stop)), vs := x.vs.filter (fun p => decide (stop ≤ p.c1))
    books := x.books.filter (fun b => decide (stop ≤ lastUse b)), resBooks := x.resBooks.filter (fun b => decide (stop < b.1 + b.2))
    arrays := x.arrays.foldl (fun m e => putD Arr.init m e.1 { e.2 with held := e.2.held.filter (fun a => decide (stop ≤ a)) }) [] }

/-- A link as a new tick starts. -/
def freshLink (x : Link) : Link := { x with got := [], passed := [], lateBy := 0 }

/-- Clear what belongs to the tick that has ended; the next one starts at its end. -/
def clearTick (s : State) : State :=
  let stop := tickStop s
  let s := forEach s s.folds (fun s e => loadsTo s e.1 stop)
  let s := s.setPause { s.pause with taken := 0, extra := 0, saved := 0, base := stop, beat := 0 }
  let s := forEach s s.folds (fun s e =>
    let pg := foldPg e.1
    wr0 (wr0 (wr0 s pg F.SEQ_STATUS_ISSUING 0) pg F.SEQ_STATUS_ENDED 0) pg F.ACC_STATUS_CTX_BUSY 0)
  let s := s.setFolds (s.folds.foldl (fun m e => putD Fold.init m e.1 (freshTick stop e.2)) [])
  s.setLinks (s.links.foldl (fun m e => putD Link.init m e.1 (freshLink e.2)) [])

/-! ## Time (R204, R209, R351) -/

/-- The timebase at which the next tick fires. -/
def nextFire (s : State) : Nat := s.tally.next.getD (s.tally.fire + tickU s)

/-- Time moves on to the fire. In the model the timebase advances at fires only (DESIGN CHOICE, log entry 1);
the PTP clock counts by itself (R351). -/
def moveTime (s : State) : State :=
  let t := nextFire s
  let s := passTime s
  let s := s.setTally { s.tally with
    tb := t, fire := t, num := if tallyState s = 3 then s.tally.num + 1 else s.tally.num, fires := s.tally.fires + 1, q := none, next := none
    hold := 0, childHold := 0, childSeen := [], cutoff := false, sent := false, paged := 0 }
  let s := s.setFlocks (s.flocks.foldl (fun m e => putD Flock.init m e.1 { e.2 with childReady := [] }) [])
  wrPair (wrPair (showNum s) tallyPg F.TB_LO F.TB_HI t) ethPg F.PTP_FIRE_LO F.PTP_FIRE_HI s.ptp.now

/-- START on the bellwether: this fire is the first tick of RUN (R209). -/
def takeBase (s : State) : State :=
  if isRoot s ∧ tallyState s = 2 ∧ s.tally.start then
    showNum ((setTallyState s 3).setTally { s.tally with start := false, num := rdPair s tallyPg F.TALLY_BASE_LO F.TALLY_BASE_HI })
  else s

/-! ## The end of a step (R225 to R229) -/

/-- A fold with its sequencer at rest and no operation of the attempt to finish. Transfers, plane loads and bookings go on by their
cycles: they complete, and what they write a replay does not undo (R225). -/
def quietFold (x : Fold) : Fold :=
  { x with
    convs := [], trnds := [], combines := [], busy := [], switches := [], resBooks := [], todo := [], loops := [], iter := 0
    arrays := x.arrays.foldl (fun m e => putD Arr.init m e.1 { e.2 with audit := none, audited := false }) [] }

/-- A contract fault or tile clash whose replay has run clean is a located suspect found after the commit (R142, R193, R521). -/
def cleanReplay (s : State) (f : Nat) : State :=
  let x := getFold s f
  match x.oldFaults with
  | [] => s
  | r :: _ =>
    if x.faults.isEmpty then
      let s := logWrite (errEvent s (foldPg f) 5) (foldPg f) 0x13 0xFF [(32, if r.clash then 1 else 2)]
      match slotOfFold s f with
      | some sl => takeSpare (bump s (foldPg f) F.SUSPECT_CNT) f sl 2
      | none => s
    else s

/-- The end of a committed step on a fold. -/
def commitFold (s : State) (f : Nat) : State :=
  let s := cleanReplay (wr0 s (foldPg f) F.RES_STATUS_FAULTS 0) f
  modFold s f (fun x => { quietFold x with faults := [], oldFaults := [], resFaulted := false })

/-- The flock goes on after a decision. -/
def nextAttempt (x : Flock) : Flock := { x with pos := 0, fault := 0, childState := 1, childSeen := 0, decision := 0, done := false }

/-- The step of flock `k` commits, once the deadlines of the fire are settled (R227, R315, R519). -/
def commitStep (s : State) (k : Nat) : State :=
  let n := (getFlock s k).num
  let steps := ((flockDrove s k).map (·.s)).getD 1
  let s := wr (wr s tallyPg F.FLOCK_STEP_LO k n) tallyPg F.FLOCK_STEP_HI k (n / 2 ^ 32)
  let s := modFlock s k (fun x => { nextAttempt x with num := n + 1, attempts := 0, lack := [], replay := false })
  let s := if isLead s k then settleResults s k n else mirrorStep s k
  let s := forEach s (flockFolds s k) commitFold
  let s := endReplay s k
  modFlock s k (fun x => if x.step + 1 < steps then { x with step := x.step + 1 } else { x with step := 0, round := x.round + 1, phase := 2 })

/-- The tiles of a fold before a replay: carried tiles from the carry store, the others zero (R143). A poison mark of the image comes back
with it (DESIGN CHOICE, log entry 130). -/
def restoreTiles (s : State) (f : Nat) : State :=
  let m := rd s (foldPg f) F.ACC_CARRIED
  modFold s f (fun x => { x with tiles := (x.carry.filter (fun e => bit m e.1)).foldl (fun t e => putD Tile.zero t e.1 { e.2 with windowed := false }) [] })

/-- A fold before a replay. A resolve step fault counts on only when the attempt ended in another one (R124). -/
def replayFold (s : State) (f : Nat) : State :=
  let s := if (getFold s f).resFaulted then s else wr0 s (foldPg f) F.RES_STATUS_FAULTS 0
  let s := restoreTiles s f
  modFold s f (fun x => { quietFold x with
    oldFaults := if x.faults.isEmpty then x.oldFaults else x.faults, faults := [], landed := none, resFaulted := false })

/-- The pause through a whole attempt ends with it; every fold has seen what no other source of the pause covers (R138, R385). -/
def endWhole (s : State) (k : Nat) : State :=
  let all := owedCycles s
  let s := s.setPause { s.pause with owed := dropKey s.pause.owed (pauseKey (6500 + k) causeSwitch) }
  forEach s allFolds (fun s f => bump s (foldPg f) F.PAUSE_SEEN_CYC (all - owedCycles s))

/-- The step of flock `k` is replayed, whichever device faulted (R227, R229): the lane block of the next step is dropped and built again. -/
def replayStep (s : State) (k : Nat) : State :=
  let s := modFlock s k (fun x => { nextAttempt x with attempts := x.attempts + 1, replay := true })
  let s := discardBlock s k
  let s := putServing s k { getServing s k with block := [], blockStep := 0 }
  endWhole (forEach (restoreLines s) (flockFolds s k) replayFold) k

/-- The flock holds at its last committed step (R229). -/
def holdFlock (s : State) (k : Nat) : State :=
  let s := discardBlock s k
  let s := forEach s (flockFolds s k) (fun s f => modFold s f (fun x => { quietFold x with halted := true }))
  let s := forEach s (getFlock s k).entries (fun s e => putDrove s e { getDrove s e with st := 4 })
  modFlock s k (fun x => { nextAttempt x with phase := 4 })

/-- The deadlines of a flock whose step commits at this fire come before every COMMIT entry (R315, R410). -/
def commitDeadlines (s : State) (k : Nat) : State := if lastTick s k ∧ (getFlock s k).decision = 1 then settleDeadlines s k else s

/-- What flock `k` does at the fire that ends its tick: 1 commit, 2 replay, 3 hold; any other tick moves on. -/
def endStep (s : State) (k : Nat) : State :=
  let x := getFlock s k
  if lastTick s k then (if x.decision = 1 then commitStep s k else if x.decision = 2 then replayStep s k else holdFlock s k)
  else modFlock s k (fun y => { y with pos := y.pos + 1 })

/-! ## Substitutions (R383 to R385, R521) -/

/-- The flock whose active drove uses a slot. -/
def slotFlock (s : State) (sl : Nat) : Option Nat := (s.droves.find? (fun e => e.2.st == 3 && bit e.2.folds sl)).map (·.2.flock)

/-- The fill that a switch finds left: how much of it unbooked cycles have done is what happened, so it is free. -/
def fillRest (s : State) (x : Fill) : Nat × State :=
  if x.done || x.left == 0 then (0, s) else (let (v, s) := drawNat s; (v % (fillBytes / 512 + 1), s))

/-- The pause of a switch ends later than 64 quanta of HOLD cover (R385). -/
def beyondHold (s : State) (k n : Nat) : Bool :=
  decide (unitsOf (deadline s k 0) (tickP s) + 64 * quantum (tickP s) < unitsOf (tickE s k + n) s.power.state)

/-- The device pauses through the whole attempt while the fill runs at its full rate, which leaves nothing for the next one, and the attempt
faults with cause 1 (R385). -/
def wholeAttempt (s : State) (k : Nat) (x : Fill) : State :=
  let d := (flockDrove s k).getD Drove.empty
  let n := d.k * (d.n * 64 + 64 * 256)
  let s := s.setCare { s.care with fills := s.care.fills.map (fun y => if y.spare = x.spare then { y with left := 0 } else y) }
  let s := stepFault s k 1
  let s := forEach s (flockFolds s k) (fun s f => modFold s f (fun y => { y with halted := true }))
  let s := bump s (foldPg x.spare) F.SPARE_PAUSE_CYC n
  askPause s (pauseKey (6500 + k) causeSwitch) n

/-- A located suspect's fill at the first tick of a replay attempt. The switch follows at once when the fill is complete, else when it
completes within the pause (R385). -/
def replaySwitch (s : State) (k : Nat) (x : Fill) : State :=
  let (rest, s) := fillRest s x
  if beyondHold s k (rest + 2560) then wholeAttempt s k x
  else if x.done then switchFold s x
  else pauseSwitch (s.setCare { s.care with fills := s.care.fills.map (fun y => if y.spare = x.spare then { y with left := 512 * rest, due := true } else y) })
    x.spare (rest + 2560)

/-- The substitutions of flock `k` as a step starts. -/
def stepSwitches (s : State) (k : Nat) : State :=
  let mine := s.care.fills.filter (fun x => slotFlock s x.slot == some k)
  if (getFlock s k).replay then forEach s (mine.filter (fun x => x.why == 1)) (replaySwitch · k)
  else forEach s (mine.filter (·.done)) switchFold

/-- Completed fills of slots that no active drove uses switch at the boundary. -/
def freeSwitches (s : State) : State :=
  forEach s (s.care.fills.filter (fun x => x.done && (slotFlock s x.slot).isNone)) switchFold

/-! ## The start of a step (R28, R143, R144, R156, R186) -/

/-- Store bytes in a pen's window. -/
def winStore (s : State) (p w : Nat) : List Byte → State
  | [] => s
  | b :: bs => match windowByte s p w with
    | some a => winStore (writeByte s a b) p (w + 1) bs
    | none => winStore s p (w + 1) bs

/-- Where the image of a carried tile lies in a pen's context area (R261). -/
def contextAddr (s : State) (p slot t : Nat) : Nat := (contextRegion s p).base + 524288 * slot + 28928 * t

/-- The records of the carried tiles of a fold, which the Resolve unit keeps while their drove is away (R119, R144). -/
def keepTiles (x : Fold) (dg : List Byte) (p m : Nat) : List Kept :=
  ((List.range 16).filter (bit m)).map (fun t =>
    let y := x.tile t
    { digest := dg, pen := p, tile := t, convs := y.convs, te0 := y.te0, combined := y.combined })

/-- A tile read back from its image, with its records; it holds no window write any more (R516). -/
def recallTile (ks : List Kept) (dg : List Byte) (p t : Nat) (y : Tile) : Tile :=
  match ks.find? (fun k => k.digest == dg && k.pen == p && k.tile == t) with
  | some k => { y with convs := k.convs, te0 := k.te0, combined := k.combined }
  | none => y

/-- Save the carried tiles of the drove that leaves a time-shared fold. -/
def saveTiles (s : State) (f slot p m : Nat) : State :=
  if (contextRegion s p).size = 0 then s
  else forEach s ((List.range 16).filter (bit m)) (fun s t =>
    winStore s p (contextAddr s p slot t) (imageBytes ((getFold s f).tile t) t slot s.tally.num true))

/-- Read the saved tiles of the drove that comes to a time-shared fold; a drove that has saved none reads what its context area holds
(R144; DESIGN CHOICE, log entry 131). -/
def loadTiles (s : State) (f slot : Nat) (dg : List Byte) (p m : Nat) : State :=
  if (contextRegion s p).size = 0 then s
  else forEach s ((List.range 16).filter (bit m)) (fun s t =>
    let ks := (getFold s f).kept
    modTile s f t (fun _ => recallTile ks dg p t (imageTile (winBytes s p (contextAddr s p slot t) 28928) true)))

/-- The context interval of a time-shared fold in the first tick of a round (R144). -/
def contextFold (s : State) (f : Nat) (d : Drove) (g : Segment) : State :=
  let x := getFold s f
  if x.ctx.any (fun c => c.1 == d.digest) then s
  else
    let s := match x.ctx with
      | some (dg, p, m) =>
        modFold (saveTiles s f g.slot p m) f (fun x => { x with
          kept := x.kept.filter (fun k => !(k.digest == dg && k.pen == p)) ++ keepTiles x dg p m })
      | none => s
    let s := modFold s f (fun x => { x with tiles := [], carry := [], ctx := some (d.digest, d.pen, g.carried) })
    let s := markCarried (loadTiles s f g.slot d.digest d.pen g.carried) f g.carried
    wr0 s (foldPg f) F.ACC_STATUS_CTX_BUSY 1

/-- The carry copy (R143): every carried tile with its marks. -/
def carryCopy (s : State) (f : Nat) : State :=
  let m := rd s (foldPg f) F.ACC_CARRIED
  modFold s f (fun x => { x with carry := x.tiles.filter (fun e => decide (e.1 < 16) && bit m e.1) })

/-- A step starts on a fold: the lane block, the applied mask, the context and the carry copy, and the step entry bundle. -/
def startFold (k : Nat) (s : State) (f : Nat) : State :=
  let w := getFlock s k
  match foldDrove s f with
  | none => s
  | some d =>
    let s := if w.replay then s else modFold s f (fun x =>
      if x.landed = some w.num then { x with laneBuf := 1 - x.laneBuf, landed := none } else x)
    let s := match segOf s f d with
      | some g => if g.shared ∧ w.step = 0 ∧ !w.replay then contextFold s f d g else s
      | none => s
    let s := if w.replay then s else carryCopy s f
    let s := modFold s f (fun x => { quietFold x with
      applied := maskFor s f x.laneBuf, pc := bits (controlBlock s f) 0 14, lastPc := bits (controlBlock s f) 0 14, halted := x.halted })
    wr0 s (foldPg f) F.SEQ_STATUS_DEPTH 0

/-- The switch of a fill that has completed within the pause of a replay's first tick: the step starts on the spare (R385). -/
def switchLate (s : State) (x : Fill) : State :=
  let s := switchNow s x
  match foldFlock s x.spare with
  | some k => startFold k s x.spare
  | none => s

/-- SPARE_FILL_DONE (R382, R383): the copy of the slice is complete. -/
def execSpareFillDone (spare : Fin 68) (bad : List LineErr) (s : State) : Host.Outcome State Fault Refusal :=
  match s.care.fills.find? (fun x => x.spare == spare.val && !x.done) with
  | some x =>
    let s := finishFill s x bad
    .next (if x.due && s.care.fills.any (fun y => y.spare == x.spare) then switchLate s x else s)
  | none => .next s

/-- A step of flock `k` starts or starts again. -/
def startStep (s : State) (k : Nat) : State := startReplay (modFlock s k (fun x => { x with phase := 3, pos := 0 })) k

/-- The folds of flock `k` start a step, once the cancel masks of this boundary are latched (R186). A drove that is stopped issues nothing
more of it (R124, R142, R193). -/
def startFolds (s : State) (k : Nat) : State :=
  let s := takeBlock s k
  let s := s.setCare { s.care with located := s.care.located.filter (fun f => foldFlock s f != some k) }
  let s := forEach s (flockFolds s k) (fun s f => modFold s f (fun x => { x with halted := (getFlock s k).stalled }))
  let s := stepSwitches s k
  forEach s (flockFolds s k) (startFold k)

/-- The quanta that a replayed tick lacked in the last attempt are asked for again (R124). -/
def replayHold (s : State) (k : Nat) : State :=
  let x := getFlock s k
  let q := getD 0 x.lack x.pos
  if x.replay ∧ 0 < q then raiseHold (putFlock s k { x with lack := dropKey x.lack x.pos }) q else s

/-! ## The tick-boundary actions (R18, R50, R215, R216, R248, R284, R335) -/

/-- An epoch entry becomes EMPTY (R284). It keeps an ID that a pending switch names. -/
def emptyEpoch (s : State) (i : Nat) : State :=
  let pg := penPg (i / 2)
  let k := i % 2
  let named := rd s pg F.EPOCH_SWITCH_PENDING == 1 && rd s pg F.EPOCH_SWITCH_ENTRY == k
  let s := if named then s else wr s pg F.EPOCH0_ID k 0
  let s := wr (wr (wr s pg F.EPOCH0_STATE k 0) pg F.EPOCH0_DAMAGED k 0) pg F.EPOCH0_DRAINED k 0
  let s := wr (wr (wr (wr s pg F.EPOCH1_COUNT k 0) pg F.EPOCH1_RESIDENT k 0) pg F.EPOCH2 k 0) pg F.EPOCH3 k 0
  s.setWeights { s.weights with
    shards := dropKey s.weights.shards i, digests := dropKey s.weights.digests i, drained := s.weights.drained.filter (· != i) }

/-- An epoch whose retirement was accepted goes at this boundary, unless a drove confirmed since then requires it (R202, R284). -/
def retireEpoch (s : State) (i : Nat) : State :=
  if epochNeeded s (i / 2) (rd s (penPg (i / 2)) F.EPOCH0_ID (i % 2)) true then s else emptyEpoch s i

/-- Every flock's kind 0 entries on a link go by their alternates from this boundary on. -/
def altLink (s : State) (e : Nat × Link) : State :=
  if e.2.altNext then modLink (wr0 s (linkPg e.1) F.LINK_STATE_ALT 1) e.1 (fun x => { x with altNext := false, alts := 2 ^ 16 - 1 }) else s

/-- Links that failed in the last tick go by their alternates; every tick that begins so counts (R335, R341). -/
def altLinks (s : State) : State :=
  forEach (forEach s s.links altLink) (List.range 96) (fun s l =>
    if rd s (linkPg l) F.LINK_STATE_ALT = 1 then bump s (linkPg l) F.ALT_ROUTE_CNT else s)

/-- The flocks that have ended their page tick. -/
def waiters (s : State) : List Nat := (List.range 16).filter (fun k => (getFlock s k).phase == 1)

/-- N and the design state of flock `k`'s drove. -/
def wantCfg (s : State) (k : Nat) : Nat × Nat := match flockDrove s k with
  | some d => (d.n, d.pstate)
  | none => (getFlock s k).away.getD (0, 0)

/-- A flock of the domain that does not run here has a confirmed swap still to take effect. -/
def awayWaits (s : State) : Bool := (awayFlocks s).any (fun k => (getFlock s k).swap.any (·.confirmed))

/-- The period of the ticks from this fire on (R215, R216): the idle one, or that of the droves once every flock of the domain waits for it.
The N and design state of a drove that no device state holds come from its flock (DESIGN CHOICE, log entry 112). -/
def newPeriod (s : State) : State :=
  if idle s then setIdle s
  else if (stepping s).isEmpty ∧ (paging s).isEmpty ∧ !awayWaits s then
    match waiters s ++ (if noDrove s then awayFlocks s else []) with
    | k :: _ => wr0 (wr0 s tallyPg F.TICK_CFG_N (wantCfg s k).1) tallyPg F.TICK_CFG_PSTATE (wantCfg s k).2
    | [] => s
  else s

/-- The flocks that start a step after their page tick: those whose period is in force. -/
def readyFlocks (s : State) : List Nat := (waiters s).filter (fun k => wantCfg s k == (tickN s, tickP s))

/-- A flock without a running step enters a page tick when its confirmed swap has come due (R211, R217). Where the rounds of a drove that
this device does not hold end is not known here, so it is free (DESIGN CHOICE, log entry 112). -/
def duePage (s : State) (k : Nat) : State :=
  let x := getFlock s k
  if (x.phase = 0 ∨ x.phase = 4) ∧ x.swap.any (fun w => w.confirmed && decide (w.ts ≤ s.tally.num)) then
    let (v, s) := if x.away.isSome then drawNat s else (0, s)
    if v % 2 = 0 then putFlock s k { x with phase := 2 } else s
  else s

/-- Boundary actions that every fire has, in RUN or LOCKED. -/
def boundary (s : State) : State :=
  let s := s.setFresh []
  let s := forEach s allFolds (fun s f => forEach s (List.range 16) (boundaryBoot · f ·))
  let s := forEach (s.setWeights { s.weights with retiring := [] }) s.weights.retiring retireEpoch
  let s := altLinks s
  let s := freeSwitches s
  forEach s allFolds boundaryCal

/-- The throttle level and the performance state of the ticks from this fire on, once their period and design state are in force (R216, R440,
R448). -/
def boundaryPower (s : State) : State := boundaryState (boundaryThrottle s)

/-- The bellwether's TICK marker (R208, R209). -/
def sendTick (s : State) : State := if isRoot s then sendDown s 1 { blankMarker s with time := s.tally.tb } else s

/-! ## TICK_FIRE -/

/-- A step that is to follow has its lane block: a stretch gives a late one the time to land (R28). -/
def blockReady (s : State) (k : Nat) : Bool := !lastTick s k || (getFlock s k).decision != 1 || blockLanded s k

/-- A flock in its page tick has the lane block of the round's first step (R28, R231). -/
def pageReady (s : State) (k : Nat) : Bool := pageBlock s k || (getFlock s k).entries.isEmpty

/-- Whether the next tick may fire: the stretch is decided, every step that ends has its decision and the next one its lane block, and
what the tick or the page tick brings has happened. -/
def mayFire (s : State) : Bool :=
  !trimsDue s && (tallyState s == 2 || (tallyState s == 3 && s.tally.q.isSome && ((paging s).isEmpty || (s.tally.paged == 2 && (paging s).all (pageReady s)))
    && (stepping s).all (fun k => (!lastTick s k || (getFlock s k).decision != 0) && blockReady s k) && tickQuiet s))

/-- The flocks whose step starts at this fire, and the cancel masks, inputs and folds that go with it (R186, R227, R413). -/
def startSteps (s : State) (ks : List Nat) : State :=
  let s := forEach s ks startStep
  let s := if (paging s).isEmpty then latchAll (forEach s (List.range 16) replayFire) else s
  forEach s ks startFolds

/-- A fire in RUN. -/
def fireRun (s : State) : State :=
  let s := settleSwaps (endTick s)
  let pauses := refreshPauses s
  let ks := stepping s
  let ps := paging s
  let s := moveTime (clearTick s)
  let s := boundary s
  let s := forEach s ps (fun s k => modFlock s k (fun x => { x with phase := if x.entries.isEmpty then 0 else 1 }))
  let s := loseLines s
  let s := forEach (forEach s ks commitDeadlines) ks endStep
  let s := forEach s (List.range 16) duePage
  let s := boundaryPower (idleSwitches (newPeriod s))
  let again := ks.filter (fun k => (getFlock s k).phase == 3 && (getFlock s k).pos == 0)
  let s := startSteps s (again ++ readyFlocks s)
  let s := forEach s pauses (fun s e => askPause (bump s (hbmPg e.1) F.HBM_REFRESH_PAUSE_CYC e.2) (pauseKey (8000 + e.1) causeRefresh) e.2)
  predict (forEach s (stepping s) replayHold)

/-- TICK_FIRE (R204). The bellwether, which has no parent to align to, is LOCKED from its first fire on (DEDUCED, log entry 22). -/
def execTickFire (s : State) : Host.Outcome State Fault Refusal :=
  if tallyState s = 1 ∧ isRoot s then .next (lockTally s 0 s.tally.tb)
  else if mayFire s then
    let s := passStretch s
    if tallyState s = 3 then .next (orderLog s (sendTick (fireRun s)))
    else .next (orderLog s (sendTick (takeBase (latchAll (boundaryPower (newPeriod (boundary (moveTime (clearTick (forEach s allFolds endShare))))))))))
  else .next s

end Sys2Proof.Machine
end

