-- ==== Sys2Proof/Machine/Dispatch.lean ====
section
/-! DEFINITION. The meaning of each command: one direct call per constructor. -/

namespace Sys2Proof.Machine

open Sys2Proof

def exec (i : Instr) (s : State) : Host.Outcome State Fault Refusal :=
  match i with
  | .registerWrite src page word v => Sys2Proof.Machine.execRegisterWrite src page word v s
  | .hiWordLatch src page word => Sys2Proof.Machine.execHiWordLatch src page word s
  | .cntClr src page => Sys2Proof.Machine.execCntClr src page s
  | .bootLock src page => Sys2Proof.Machine.execBootLock src page s
  | .logEntryLatch src => Sys2Proof.Machine.execLogEntryLatch src s
  | .logAutoAdvance src => Sys2Proof.Machine.execLogAutoAdvance src s
  | .tickFire => Sys2Proof.Machine.execTickFire s
  | .bundleIssue fold parityFail => Sys2Proof.Machine.execBundleIssue fold parityFail s
  | .tend fold => Sys2Proof.Machine.execTend fold s
  | .send fold => Sys2Proof.Machine.execSend fold s
  | .anop fold rest => Sys2Proof.Machine.execAnop fold rest s
  | .lnop fold rest => Sys2Proof.Machine.execLnop fold rest s
  | .vecNop fold rest => Sys2Proof.Machine.execVecNop fold rest s
  | .mnop fold rest => Sys2Proof.Machine.execMnop fold rest s
  | .conv fold mask rsv desc => Sys2Proof.Machine.execConv fold mask rsv desc s
  | .convLatch fold array => Sys2Proof.Machine.execConvLatch fold array s
  | .zeroInputConversion fold array => Sys2Proof.Machine.execZeroInputConversion fold array s
  | .convDeliver fold array residue => Sys2Proof.Machine.execConvDeliver fold array residue s
  | .addAlign fold ecc => Sys2Proof.Machine.execAddAlign fold ecc s
  | .psw fold mask rsv => Sys2Proof.Machine.execPsw fold mask rsv s
  | .planeSwitch fold => Sys2Proof.Machine.execPlaneSwitch fold s
  | .pld fold a0 count1 rsv desc badRows lines => Sys2Proof.Machine.execPld fold a0 count1 rsv desc badRows lines s
  | .tclr fold mode tag te rsv tile => Sys2Proof.Machine.execTclr fold mode tag te rsv tile s
  | .trnd fold tile tag close rsv desc ecc => Sys2Proof.Machine.execTrnd fold tile tag close rsv desc ecc s
  | .resolveWindowEnd fold residue => Sys2Proof.Machine.execResolveWindowEnd fold residue s
  | .trndDeliver fold => Sys2Proof.Machine.execTrndDeliver fold s
  | .tcmb fold tile tag image ecc => Sys2Proof.Machine.execTcmb fold tile tag image ecc s
  | .combineLand fold => Sys2Proof.Machine.execCombineLand fold s
  | .vadd fold v => Sys2Proof.Machine.execVadd fold v s
  | .vsub fold v => Sys2Proof.Machine.execVsub fold v s
  | .vmul fold v => Sys2Proof.Machine.execVmul fold v s
  | .vfma fold v => Sys2Proof.Machine.execVfma fold v s
  | .vmax fold v => Sys2Proof.Machine.execVmax fold v s
  | .vmin fold v => Sys2Proof.Machine.execVmin fold v s
  | .vcmplt fold v => Sys2Proof.Machine.execVcmplt fold v s
  | .vwide fold v => Sys2Proof.Machine.execVwide fold v s
  | .vnarr fold v => Sys2Proof.Machine.execVnarr fold v s
  | .vdec fold v => Sys2Proof.Machine.execVdec fold v s
  | .vexp fold v => Sys2Proof.Machine.execVexp fold v s
  | .vrcp fold v => Sys2Proof.Machine.execVrcp fold v s
  | .vrsq fold v => Sys2Proof.Machine.execVrsq fold v s
  | .vsilu fold v => Sys2Proof.Machine.execVsilu fold v s
  | .vgelu fold v => Sys2Proof.Machine.execVgelu fold v s
  | .vrope fold v => Sys2Proof.Machine.execVrope fold v s
  | .vrsum fold v => Sys2Proof.Machine.execVrsum fold v s
  | .vrmax fold v => Sys2Proof.Machine.execVrmax fold v s
  | .vargmx fold v => Sys2Proof.Machine.execVargmx fold v s
  | .vdraw fold v => Sys2Proof.Machine.execVdraw fold v s
  | .vwalk fold v => Sys2Proof.Machine.execVwalk fold v s
  | .vqmx4 fold v => Sys2Proof.Machine.execVqmx4 fold v s
  | .vqi4 fold v => Sys2Proof.Machine.execVqi4 fold v s
  | .xfer fold rsv desc => Sys2Proof.Machine.execXfer fold rsv desc s
  | .hrd fold rsv desc lines => Sys2Proof.Machine.execHrd fold rsv desc lines s
  | .hwr fold rsv desc => Sys2Proof.Machine.execHwr fold rsv desc s
  | .lsnd fold rsv desc => Sys2Proof.Machine.execLsnd fold rsv desc s
  | .tsnd fold tile tag rsv desc ecc => Sys2Proof.Machine.execTsnd fold tile tag rsv desc ecc s
  | .dataVisible src late parity => Sys2Proof.Machine.execDataVisible src late parity s
  | .hwrComplete fold => Sys2Proof.Machine.execHwrComplete fold s
  | .pauseRelease => Sys2Proof.Machine.execPauseRelease s
  | .foldState src fold v => Sys2Proof.Machine.execFoldState src fold v s
  | .tileWindowWrite src fold offset v => Sys2Proof.Machine.execTileWindowWrite src fold offset v s
  | .calForce src fold => Sys2Proof.Machine.execCalForce src fold s
  | .calPeriodExpiry fold => Sys2Proof.Machine.execCalPeriodExpiry fold s
  | .calWindowClose fold array => Sys2Proof.Machine.execCalWindowClose fold array s
  | .calWindowTimeout fold array => Sys2Proof.Machine.execCalWindowTimeout fold array s
  | .calApply fold array => Sys2Proof.Machine.execCalApply fold array s
  | .bootCalibration fold results => Sys2Proof.Machine.execBootCalibration fold results s
  | .holdCutoff => Sys2Proof.Machine.execHoldCutoff s
  | .holdReportSend => Sys2Proof.Machine.execHoldReportSend s
  | .report link m => Sys2Proof.Machine.execReport link m s
  | .slack link m => Sys2Proof.Machine.execSlack link m s
  | .decideSend => Sys2Proof.Machine.execDecideSend s
  | .decide link m => Sys2Proof.Machine.execDecide link m s
  | .credit link m => Sys2Proof.Machine.execCredit link m s
  | .tick link m offset => Sys2Proof.Machine.execTick link m offset s
  | .markerMissing what => Sys2Proof.Machine.execMarkerMissing what s
  | .commitPoint => Sys2Proof.Machine.execCommitPoint s
  | .commitReportSend => Sys2Proof.Machine.execCommitReportSend s
  | .commitSend => Sys2Proof.Machine.execCommitSend s
  | .commit link m => Sys2Proof.Machine.execCommit link m s
  | .tallyEnable src on => Sys2Proof.Machine.execTallyEnable src on s
  | .tallyStart src => Sys2Proof.Machine.execTallyStart src s
  | .droveLoad h body => Sys2Proof.Machine.execDroveLoad h body s
  | .droveUnload h body => Sys2Proof.Machine.execDroveUnload h body s
  | .droveSwap h body => Sys2Proof.Machine.execDroveSwap h body s
  | .swapAnnounce link w => Sys2Proof.Machine.execSwapAnnounce link w s
  | .swapConfirm link w => Sys2Proof.Machine.execSwapConfirm link w s
  | .swapRefuse link w => Sys2Proof.Machine.execSwapRefuse link w s
  | .pageTick => Sys2Proof.Machine.execPageTick s
  | .pageWindowSet => Sys2Proof.Machine.execPageWindowSet s
  | .ckptWriteDone pen flock => Sys2Proof.Machine.execCkptWriteDone pen flock s
  | .laneBlockBuild flock => Sys2Proof.Machine.execLaneBlockBuild flock s
  | .laneBlockLand fold => Sys2Proof.Machine.execLaneBlockLand fold s
  | .admitMsg h body => Sys2Proof.Machine.execAdmitMsg h body s
  | .abort h body => Sys2Proof.Machine.execAbort h body s
  | .pfxKey src pen k v => Sys2Proof.Machine.execPfxKey src pen k v s
  | .scrub line => Sys2Proof.Machine.execScrub line s
  | .hbmRetireStart src stack => Sys2Proof.Machine.execHbmRetireStart src stack s
  | .retireCopyDone stack => Sys2Proof.Machine.execRetireCopyDone stack s
  | .stagingWriteResume => Sys2Proof.Machine.execStagingWriteResume s
  | .epochOpen h body => Sys2Proof.Machine.execEpochOpen h body s
  | .shardFetch h body => Sys2Proof.Machine.execShardFetch h body s
  | .shardPush h body => Sys2Proof.Machine.execShardPush h body s
  | .arrivalCancel h body => Sys2Proof.Machine.execArrivalCancel h body s
  | .epochSwitch h body => Sys2Proof.Machine.execEpochSwitch h body s
  | .epochRetire h body => Sys2Proof.Machine.execEpochRetire h body s
  | .nvmeCompletion target cid ends data => Sys2Proof.Machine.execNvmeCompletion target cid ends data s
  | .nvmeTimeout target cid => Sys2Proof.Machine.execNvmeTimeout target cid s
  | .shardComplete pen tag => Sys2Proof.Machine.execShardComplete pen tag s
  | .recheck => Sys2Proof.Machine.execRecheck s
  | .shardRepair pen epoch shard => Sys2Proof.Machine.execShardRepair pen epoch shard s
  | .linkEnable src link on => Sys2Proof.Machine.execLinkEnable src link on s
  | .retrain src link => Sys2Proof.Machine.execRetrain src link s
  | .trainingDone link peer peerLink install lambda => Sys2Proof.Machine.execTrainingDone link peer peerLink install lambda s
  | .trainingTimeout link => Sys2Proof.Machine.execTrainingTimeout link s
  | .failedRetryTimer link => Sys2Proof.Machine.execFailedRetryTimer link s
  | .dataFlit link f => Sys2Proof.Machine.execDataFlit link f s
  | .idleFlit link f => Sys2Proof.Machine.execIdleFlit link f s
  | .ctrlFlit link f => Sys2Proof.Machine.execCtrlFlit link f s
  | .ackTimeout link => Sys2Proof.Machine.execAckTimeout link s
  | .retryEpisodeTimeout link => Sys2Proof.Machine.execRetryEpisodeTimeout link s
  | .sendSlot link => Sys2Proof.Machine.execSendSlot link s
  | .forwardSlot link => Sys2Proof.Machine.execForwardSlot link s
  | .mgmtMessage m => Sys2Proof.Machine.execMgmtMessage m s
  | .laneBlockMessage m => Sys2Proof.Machine.execLaneBlockMessage m s
  | .checkpointMessage m => Sys2Proof.Machine.execCheckpointMessage m s
  | .messageAck source cls seq => Sys2Proof.Machine.execMessageAck source cls seq s
  | .messageTimeout dest cls => Sys2Proof.Machine.execMessageTimeout dest cls s
  | .musterFrame v => Sys2Proof.Machine.execMusterFrame v s
  | .musterHeadTimeout => Sys2Proof.Machine.execMusterHeadTimeout s
  | .musterTimeout => Sys2Proof.Machine.execMusterTimeout s
  | .musterFrameSend => Sys2Proof.Machine.execMusterFrameSend s
  | .ethFrame f => Sys2Proof.Machine.execEthFrame f s
  | .arpRequest f => Sys2Proof.Machine.execArpRequest f s
  | .neighbourSolicitation f => Sys2Proof.Machine.execNeighbourSolicitation f s
  | .echoRequest f => Sys2Proof.Machine.execEchoRequest f s
  | .rdmaWrite r data => Sys2Proof.Machine.execRdmaWrite r data s
  | .rdmaRead r => Sys2Proof.Machine.execRdmaRead r s
  | .atomic qp pkt => Sys2Proof.Machine.execAtomic qp pkt s
  | .rcAck qp pkt kind => Sys2Proof.Machine.execRcAck qp pkt kind s
  | .rcAckTimeout qp => Sys2Proof.Machine.execRcAckTimeout qp s
  | .cmMessage m => Sys2Proof.Machine.execCmMessage m s
  | .cnp qp => Sys2Proof.Machine.execCnp qp s
  | .rateRecovery qp => Sys2Proof.Machine.execRateRecovery qp s
  | .ptpSync p => Sys2Proof.Machine.execPtpSync p s
  | .ptpFollowUp p => Sys2Proof.Machine.execPtpFollowUp p s
  | .ptpDelayResp p => Sys2Proof.Machine.execPtpDelayResp p s
  | .ptpHoldover => Sys2Proof.Machine.execPtpHoldover s
  | .channelOpen pen qp head tag body => Sys2Proof.Machine.execChannelOpen pen qp head tag body s
  | .channelClose h body => Sys2Proof.Machine.execChannelClose h body s
  | .nop h body => Sys2Proof.Machine.execNop h body s
  | .nvmeTargetEntry h body => Sys2Proof.Machine.execNvmeTargetEntry h body s
  | .updBegin h body => Sys2Proof.Machine.execUpdBegin h body s
  | .updPiece h body => Sys2Proof.Machine.execUpdPiece h body s
  | .updStatus h body => Sys2Proof.Machine.execUpdStatus h body s
  | .updActivate h body => Sys2Proof.Machine.execUpdActivate h body s
  | .updConfirm h body => Sys2Proof.Machine.execUpdConfirm h body s
  | .updAbandon h body => Sys2Proof.Machine.execUpdAbandon h body s
  | .updRevert h body => Sys2Proof.Machine.execUpdRevert h body s
  | .debugRead h body => Sys2Proof.Machine.execDebugRead h body s
  | .debugWrite h body => Sys2Proof.Machine.execDebugWrite h body s
  | .debugHalt h body => Sys2Proof.Machine.execDebugHalt h body s
  | .debugResume h body => Sys2Proof.Machine.execDebugResume h body s
  | .chSqTail src pen ch v => Sys2Proof.Machine.execChSqTail src pen ch v s
  | .chTrHead src pen ch v => Sys2Proof.Machine.execChTrHead src pen ch v s
  | .qpError qp => Sys2Proof.Machine.execQpError qp s
  | .orphanTimeout pen ch => Sys2Proof.Machine.execOrphanTimeout pen ch s
  | .collieBlockClose fold array => Sys2Proof.Machine.execCollieBlockClose fold array s
  | .auditSample fold array => Sys2Proof.Machine.execAuditSample fold array s
  | .arbitrationStage1 fold array => Sys2Proof.Machine.execArbitrationStage1 fold array s
  | .arbitrationStage3 fold array => Sys2Proof.Machine.execArbitrationStage3 fold array s
  | .spareFillDone spare bad => Sys2Proof.Machine.execSpareFillDone spare bad s
  | .spareSwitchEnd spare => Sys2Proof.Machine.execSpareSwitchEnd spare s
  | .rotation die => Sys2Proof.Machine.execRotation die s
  | .quarantineTestStart fold => Sys2Proof.Machine.execQuarantineTestStart fold s
  | .scanTestDone fold pass results => Sys2Proof.Machine.execScanTestDone fold pass results s
  | .testOverdue fold => Sys2Proof.Machine.execTestOverdue fold s
  | .retire src => Sys2Proof.Machine.execRetire src s
  | .replayEnable src pen on => Sys2Proof.Machine.execReplayEnable src pen on s
  | .hkRoundStart unit => Sys2Proof.Machine.execHkRoundStart unit s
  | .hkEntryEnd unit codes => Sys2Proof.Machine.execHkEntryEnd unit codes s
  | .spotRequest unit ch avg => Sys2Proof.Machine.execSpotRequest unit ch avg s
  | .spotReqStart src unit => Sys2Proof.Machine.execSpotReqStart src unit s
  | .hkCalForce src unit => Sys2Proof.Machine.execHkCalForce src unit s
  | .sweepStart unit => Sys2Proof.Machine.execSweepStart unit s
  | .sweepEnd unit a b => Sys2Proof.Machine.execSweepEnd unit a b s
  | .sensorPublishTimeout fold => Sys2Proof.Machine.execSensorPublishTimeout fold s
  | .avsComplete rail => Sys2Proof.Machine.execAvsComplete rail s
  | .voltageSettled => Sys2Proof.Machine.execVoltageSettled s
  | .avsTimeout => Sys2Proof.Machine.execAvsTimeout s
  | .marginInterval die guardFail tightFail => Sys2Proof.Machine.execMarginInterval die guardFail tightFail s
  | .marginEn src on => Sys2Proof.Machine.execMarginEn src on s
  | .powerBin => Sys2Proof.Machine.execPowerBin s
  | .droopTrip die => Sys2Proof.Machine.execDroopTrip die s
  | .droopStretchEnd => Sys2Proof.Machine.execDroopStretchEnd s
  | .regAlertAssert n => Sys2Proof.Machine.execRegAlertAssert n s
  | .regAlertRelease => Sys2Proof.Machine.execRegAlertRelease s
  | .alertHoldEnd => Sys2Proof.Machine.execAlertHoldEnd s
  | .compDisable die comp => Sys2Proof.Machine.execCompDisable die comp s
  | .thermalTrip die comp => Sys2Proof.Machine.execThermalTrip die comp s
  | .thermalRelease => Sys2Proof.Machine.execThermalRelease s
  | .pwrOkRise => Sys2Proof.Machine.execPwrOkRise s
  | .pwrOkFall => Sys2Proof.Machine.execPwrOkFall s
  | .resetNAssert => Sys2Proof.Machine.execResetNAssert s
  | .resetRelease => Sys2Proof.Machine.execResetRelease s
  | .softReset src => Sys2Proof.Machine.execSoftReset src s
  | .jtagReset => Sys2Proof.Machine.execJtagReset s
  | .jtagAccess write addr v => Sys2Proof.Machine.execJtagAccess write addr v s
  | .jtagHalt core => Sys2Proof.Machine.execJtagHalt core s
  | .jtagResume core => Sys2Proof.Machine.execJtagResume core s
  | .anchorClear => Sys2Proof.Machine.execAnchorClear s
  | .tapLeaveReset => Sys2Proof.Machine.execTapLeaveReset s
  | .attestStart src => Sys2Proof.Machine.execAttestStart src s
  | .attestDone => Sys2Proof.Machine.execAttestDone s
  | .msgFlit link f => Sys2Proof.Machine.execMsgFlit link f s
  | .ethLinkChange up => Sys2Proof.Machine.execEthLinkChange up s
  | .hbmTempReport stack t => Sys2Proof.Machine.execHbmTempReport stack t s
  | .droveLoadDone entry => Sys2Proof.Machine.execDroveLoadDone entry s
  | .unknownMessageType h typ body => Sys2Proof.Machine.execUnknownMessageType h typ body s

end Sys2Proof.Machine
end

