-- ==== Sys2Proof/Machine/Step.lean ====
section
/-! DEFINITION. One step: the command at the front of the queue. -/

namespace Sys2Proof.Machine

/-- Take the command at the front of the queue and run it; an empty queue leaves the block idle (DESIGN CHOICE, log entry 2). -/
def step (s : State) : Host.Outcome State Fault Refusal := match s.pending with
  | [] => .next s
  | c :: r => exec c (s.setPending r)

/-- The state with the command that a table word spells at the front of its queue; no word spells one. -/
def State.withFetchWord (s : State) (nbits w : Nat) : State := match decodeTableWord nbits w with
  | some c => s.setPending (c :: s.pending)
  | none => s

end Sys2Proof.Machine
end

