-- ==== Sys2Proof/Safety.lean ====
section
/-! DEFINITION. What claims say of a state and of an outcome. -/

namespace Sys2Proof.Machine

open Sys2Proof

/-! ## Outcomes -/

/-- A command answers a next state that has a property. -/
def Answers (c : Instr) (s : State) (P : State → Prop) : Prop := ∃ t, exec c s = .next t ∧ P t

/-! ## Frames -/

/-- The pieces of the state. -/
inductive StatePart where
  | pending | free | regs | views | ptp | hbmShort | log | mem | fresh | seg | folds | droves | flocks | tally | pause | care
  | power | hks | boot | links | msgs | muster | drover | weights | net | rung | out
  deriving DecidableEq, Repr

/-- Every piece. -/
def StatePart.every : List StatePart :=
  [.pending, .free, .regs, .views, .ptp, .hbmShort, .log, .mem, .fresh, .seg, .folds, .droves, .flocks, .tally, .pause, .care,
    .power, .hks, .boot, .links, .msgs, .muster, .drover, .weights, .net, .rung, .out]

/-- A piece is the same in two states. -/
def StatePart.same (s t : State) : StatePart → Prop
  | .pending => t.pending = s.pending
  | .free => t.free = s.free
  | .regs => t.regs = s.regs
  | .views => t.views = s.views
  | .ptp => t.ptp = s.ptp
  | .hbmShort => t.hbmShort = s.hbmShort
  | .log => t.log = s.log
  | .mem => t.mem = s.mem
  | .fresh => t.fresh = s.fresh
  | .seg => t.seg = s.seg
  | .folds => t.folds = s.folds
  | .droves => t.droves = s.droves
  | .flocks => t.flocks = s.flocks
  | .tally => t.tally = s.tally
  | .pause => t.pause = s.pause
  | .care => t.care = s.care
  | .power => t.power = s.power
  | .hks => t.hks = s.hks
  | .boot => t.boot = s.boot
  | .links => t.links = s.links
  | .msgs => t.msgs = s.msgs
  | .muster => t.muster = s.muster
  | .drover => t.drover = s.drover
  | .weights => t.weights = s.weights
  | .net => t.net = s.net
  | .rung => t.rung = s.rung
  | .out => t.out = s.out

/-- All pieces but some. -/
def allBut (qs : List StatePart) : List StatePart := StatePart.every.filter fun p => !qs.contains p

/-- Only the named pieces of the state may differ. -/
def Only (ps : List StatePart) (s t : State) : Prop := ∀ p, p ∉ ps → p.same s t

/-- Only the named register fields may differ: each is a page, a field and an instance. -/
def OnlyFields (ks : List (Nat × Field × Nat)) (s t : State) : Prop :=
  ∀ pg f i, (ks.all fun k => fkey k.1 k.2.1 k.2.2 != fkey pg f i) = true → rd t pg f i = rd s pg f i

/-- Only the named register fields and pieces of the state may differ. -/
def OnlyIn (ps : List StatePart) (ks : List (Nat × Field × Nat)) (s t : State) : Prop := Only (.regs :: ps) s t ∧ OnlyFields ks s t

/-- Only the bytes of memory at the named addresses may differ. -/
def OnlyBytes (here : Nat → Prop) (s t : State) : Prop := ∀ a, ¬ here a → readByte t a = readByte s a

/-- Only the named folds may differ. -/
def OnlyFolds (fs : List Nat) (s t : State) : Prop := ∀ f, f ∉ fs → getFold t f = getFold s f

/-! ## Invariants -/

/-- The canonical form of the memories: addresses rise strictly, and no listed byte equals what an unlisted one reads as. -/
def Memory.wf (s : State) : Bool := canonical emptyByte s.mem && canonical emptyByte s.seg

end Sys2Proof.Machine
end

