-- ==== Sys2Proof/Certificates/Slice0/Obligations.lean ====
section
/-! DEFINITION. The statements about the model. A clause that says `Answers` is a command's completion: it answers a next state, and
what that state holds. -/

open Sys2Proof Sys2Proof.Machine

/-! ## The queue and the whole machine -/

/-- The command at the front of the queue is the one that runs, on the state with the rest of the queue. -/
def Obligations.FrontCommandRuns : Prop :=
  ∀ (c : Instr) (r : List Instr) (s : State), s.pending = c :: r → step s = exec c (s.setPending r)

/-- No command ends in a fault or a refusal, and every step takes exactly the command at the front of the queue; an empty queue leaves
the block as it is (the model's choice: log entry 2). Every step leaves no rung ring unserved (the model's choice: log entry 23). -/
def Obligations.EveryStepAnswersAndTakesOneCommand : Prop :=
  ∀ s : State, ∃ t, step s = .next t ∧ t.pending = s.pending.tail ∧ (s.pending = [] → t = s) ∧ (s.rung = [] → t.rung = [])

/-- Every step keeps the canonical form of the memories. -/
def Obligations.MemoryStaysCanonical : Prop :=
  ∀ s t : State, Memory.wf s = true → step s = .next t → Memory.wf t = true

/-- After reset every register field holds the reset value of its table, the memories are canonical and read as their empty byte, and
nothing waits. -/
def Obligations.ResetStandsAsTheTablesSay : Prop :=
  (∀ pg f i, rd State.reset pg f i = f.reset) ∧ Memory.wf State.reset = true ∧ State.reset.pending = [] ∧ State.reset.rung = []
    ∧ (∀ a, readByte State.reset a = emptyByte)

/-! ## Registers -/

/-- R11: a pen sees the pages that it owns, pen 0 sees every page, a read of a hidden page returns zero, and a write to one is
ignored. After a halt in the ROM a pen sees none, since only the debug port works (R460). -/
def Obligations.HiddenPagesReadZeroAndIgnoreWrites : Prop :=
  ∀ (s : State) (p : Fin 16) (pg o v : Nat), pg < 207 →
    (seesPage s (.rdma p) pg = true ↔ (p.val = 0 ∨ rd s pg F.LOCK_OWNER = p.val) ∧ s.boot.romHalt = false)
      ∧ (seesPage s (.rdma p) pg = false → readWord s (.rdma p) pg o = (0, s) ∧ writeWord s (.rdma p) pg o v = s)

/-- A write of one register word by the access codes of R9, on the header words of any page: ERR_MASK is RW, ERR_SUM W1C, EVT_ACCESS
SAT; and OWNER of LOCK is RWL. -/
def Obligations.RegisterWriteFollowsAccessCodes : Prop :=
  ∀ (s : State) (src : Source) (page : Fin 256) (v : Word), seesPage s src page = true → s.rung = [] →
    Answers (.registerWrite src page 6 v) s (fun t =>
      rd t page F.ERR_MASK = v.toNat % 2 ^ 16 ∧ OnlyIn [] [(page, F.ERR_MASK, 0)] s t)
    ∧ Answers (.registerWrite src page 5 v) s (fun t =>
      (∀ b, bit (rd t page F.ERR_SUM) b = (decide (b < 16) && bit (rd s page F.ERR_SUM) b && !bit v.toNat b))
        ∧ OnlyIn [] [(page, F.ERR_SUM, 0)] s t)
    ∧ Answers (.registerWrite src page 8 v) s (fun t =>
      rd t page F.EVT_ACCESS = (if v = 0 then 0 else rd s page F.EVT_ACCESS) ∧ OnlyIn [] [(page, F.EVT_ACCESS, 0)] s t)
    ∧ (rd s page F.LOCK_BOOT_LOCK = 0 → Answers (.registerWrite src page 12 v) s (fun t =>
      rd t page F.LOCK_OWNER = v.toNat % 16 ∧ rd t page F.LOCK_BOOT_LOCK = v.toNat / 256 % 2
        ∧ OnlyIn [] [(page, F.LOCK_OWNER, 0), (page, F.LOCK_BOOT_LOCK, 0)] s t))

/-- CNT_CLR and BOOT_LOCK (R485): the counters of the page and STATUS [0] read zero; the boot lock is set, and a second write of it
is an access error; at an index that holds no page the write is ignored and recorded in the IOD page (R484). Latched reads (R489, R497): a
read of a low word keeps the high word for its reader, that of PTP_NOW after the clock has counted on (R351); LOG_ENTRY[0] judges the
entry that LOG_SEL names by its distance from LOG_INDEX; LOG_ENTRY[15] moves on under AUTO. -/
def Obligations.HeaderAndLatchCommands : Prop :=
  (∀ (s : State) (src : Source) (page : Fin 256), seesPage s src page = true →
    Answers (.cntClr src page) s (fun t =>
      (∀ ty, pageType page = some ty → ∀ f ∈ headerFields ++ blockFields ty, f.acc = .sat → ∀ i, i < max 1 f.n → rd t page f i = 0)
        ∧ rd t page F.STATUS_SAT = 0 ∧ Only [.regs] s t)
    ∧ (rd s page F.LOCK_BOOT_LOCK = 0 → Answers (.bootLock src page) s (fun t =>
      rd t page F.LOCK_BOOT_LOCK = 1 ∧ OnlyIn [] [(page, F.LOCK_BOOT_LOCK, 0)] s t))
    ∧ (rd s page F.LOCK_BOOT_LOCK = 1 → Answers (.bootLock src page) s (fun t =>
      bit (rd t page F.ERR_SUM) 0 = true ∧ Only [.regs, .views, .log] s t)))
  ∧ (∀ (s : State) (src : Source) (page : Fin 256), 207 ≤ page.val → sourceRuns s src = true →
    Answers (.cntClr src page) s (fun t => bit (rd t iodPg F.ERR_SUM) 0 = true ∧ Only [.regs, .views, .log] s t)
    ∧ Answers (.bootLock src page) s (fun t => bit (rd t iodPg F.ERR_SUM) 0 = true ∧ Only [.regs, .views, .log] s t))
  ∧ ((∀ (s : State) (src : Source) (page : Fin 256) (word : Fin 1024), seesPage s src page = true → isLowWord page (4 * word.val) = true →
    let u := refreshFree s page (4 * word.val)
    (page.val ≠ ethPg → u = s) ∧ Only [.regs, .free, .ptp] s u
    ∧ Answers (.hiWordLatch src page word) s (fun t =>
      getD 0 t.views.hi (latchKey src page (4 * word.val + 4)) = wordValue u page (4 * word.val + 4) + 1
        ∧ (∀ k, k ≠ latchKey src page (4 * word.val + 4) → getD 0 t.views.hi k = getD 0 s.views.hi k) ∧ Only [.views] u t))
  ∧ (∀ (s : State) (src : Source) (d : Nat), seesPage s src logPg = true →
    (2 ^ 32 + rd s logPg F.LOG_INDEX - rd s logPg F.LOG_SEL) % 2 ^ 32 = d →
    Answers (.logEntryLatch src) s (fun t =>
      (1 ≤ d ∧ d ≤ 32768 → rd t logPg F.LOG_SEL_STATUS = 0 ∧ t.views.entry = getD 0 s.log (rd s logPg F.LOG_SEL % 32768))
      ∧ (32768 < d ∧ d < 2 ^ 31 → rd t logPg F.LOG_SEL_STATUS = 1 ∧ t.views.entry = 0)
      ∧ (d = 0 ∨ 2 ^ 31 ≤ d → rd t logPg F.LOG_SEL_STATUS = 2 ∧ t.views.entry = 0)
      ∧ OnlyIn [.views] [(logPg, F.LOG_SEL_STATUS, 0)] s t))
  ∧ (∀ (s : State) (src : Source), seesPage s src logPg = true → rd s logPg F.LOG_CTRL = 1 →
    Answers (.logAutoAdvance src) s (fun t =>
      rd t logPg F.LOG_SEL = (rd s logPg F.LOG_SEL + 1) % 2 ^ 32 ∧ rd t logPg F.LOG_READ = rd t logPg F.LOG_SEL
        ∧ OnlyIn [] [(logPg, F.LOG_SEL, 0), (logPg, F.LOG_READ, 0)] s t)))

/-- An error event (R486): its bit of ERR_SUM is set whatever ERR_MASK holds, its header counter counts, and ERR_FIRST names it exactly
when no bit was set before. -/
def Obligations.ErrorEventIsSummedAndFirstIsNamed : Prop :=
  ∀ (s : State) (pg b : Nat), b < 16 → rd s pg F.ERR_SUM < 2 ^ 16 →
    bit (rd (errEvent s pg b) pg F.ERR_SUM) b = true
      ∧ (∀ c, c ≠ b → bit (rd (errEvent s pg b) pg F.ERR_SUM) c = bit (rd s pg F.ERR_SUM) c)
      ∧ (rd s pg F.ERR_SUM = 0 → rd (errEvent s pg b) pg F.ERR_FIRST_BIT = b)
      ∧ (rd s pg F.ERR_SUM ≠ 0 → rd (errEvent s pg b) pg F.ERR_FIRST_BIT = rd s pg F.ERR_FIRST_BIT)
      ∧ (∀ f, evtField b = some f → rd s pg f < 2 ^ 32 - 2 → rd (errEvent s pg b) pg f = rd s pg f + 1)
      ∧ rd (errEvent s pg b) pg F.ERR_MASK = rd s pg F.ERR_MASK ∧ (errEvent s pg b).log = s.log

/-- The trouble log (R478): the entry with index i is written to slot i mod 32,768 over the oldest, 64 bytes that hold i in bytes 16 to 19; the
index wraps at 2^32; an entry overwritten before the read position passed it counts as an overrun. -/
def Obligations.TheLogRingOverwritesTheOldest : Prop :=
  ∀ (s : State) (pg ev pen : Nat) (fs : List LogField),
    let i := rd s logPg F.LOG_INDEX
    let r := rd s logPg F.LOG_READ
    i < 2 ^ 32 → r < 2 ^ 32 → rd s logPg F.LOG_OVERRUN < 2 ^ 32 - 2 →
    let t := logWrite s pg ev pen fs
    rd t logPg F.LOG_INDEX = (i + 1) % 2 ^ 32 ∧ getD 0 t.log (i % 32768) < 2 ^ 512 ∧ bits (getD 0 t.log (i % 32768)) 128 32 = i
      ∧ (∀ k, k ≠ i % 32768 → getD 0 t.log k = getD 0 s.log k)
      ∧ t.views.full = (s.views.full || i + 1 == 32768) ∧ rd t logPg F.LOG_READ = r
      ∧ rd t logPg F.LOG_OVERRUN = rd s logPg F.LOG_OVERRUN + (if s.views.full = true ∧ (2 ^ 33 - 32768 + i - r) % 2 ^ 32 < 2 ^ 31 then 1 else 0)

/-! ## The sequencer -/

namespace Sys2Proof.Claims

/-- The syllable that a command stands for: its fold, its place in the bundle (0 ARR, 1 LDP, 2 VEC, 3 MOV) and its word. -/
def syllableOf : Instr → Option (Fin 68 × Nat × Nat)
  | .anop f r => some (f, 0, r.toNat)
  | .conv f mask rsv desc => some (f, 0, convWord mask rsv desc)
  | .psw f mask rsv => some (f, 0, pswWord mask rsv)
  | .tclr f mode tag te rsv tile => some (f, 0, tclrWord mode tag te rsv tile)
  | .trnd f tile tag close rsv desc _ => some (f, 0, trndWord tile tag close rsv desc)
  | .tcmb f tile tag image _ => some (f, 0, tcmbWord tile tag image)
  | .lnop f r => some (f, 1, r.toNat)
  | .pld f a0 n rsv desc _ _ => some (f, 1, pldWord a0 n rsv desc)
  | .vecNop f r => some (f, 2, r.toNat)
  | .vadd f v => some (f, 2, vecWord VOp.vadd.code v)
  | .vsub f v => some (f, 2, vecWord VOp.vsub.code v)
  | .vmul f v => some (f, 2, vecWord VOp.vmul.code v)
  | .vfma f v => some (f, 2, vecWord VOp.vfma.code v)
  | .vmax f v => some (f, 2, vecWord VOp.vmax.code v)
  | .vmin f v => some (f, 2, vecWord VOp.vmin.code v)
  | .vcmplt f v => some (f, 2, vecWord VOp.vcmplt.code v)
  | .vwide f v => some (f, 2, vecWord VOp.vwide.code v)
  | .vnarr f v => some (f, 2, vecWord VOp.vnarr.code v)
  | .vdec f v => some (f, 2, vecWord VOp.vdec.code v)
  | .vexp f v => some (f, 2, vecWord VOp.vexp.code v)
  | .vrcp f v => some (f, 2, vecWord VOp.vrcp.code v)
  | .vrsq f v => some (f, 2, vecWord VOp.vrsq.code v)
  | .vsilu f v => some (f, 2, vecWord VOp.vsilu.code v)
  | .vgelu f v => some (f, 2, vecWord VOp.vgelu.code v)
  | .vrope f v => some (f, 2, vecWord VOp.vrope.code v)
  | .vrsum f v => some (f, 2, vecWord VOp.vrsum.code v)
  | .vrmax f v => some (f, 2, vecWord VOp.vrmax.code v)
  | .vargmx f v => some (f, 2, vecWord VOp.vargmx.code v)
  | .vdraw f v => some (f, 2, vecWord VOp.vdraw.code v)
  | .vwalk f v => some (f, 2, vecWord VOp.vwalk.code v)
  | .vqmx4 f v => some (f, 2, vecWord VOp.vqmx4.code v)
  | .vqi4 f v => some (f, 2, vecWord VOp.vqi4.code v)
  | .mnop f r => some (f, 3, r.toNat)
  | .xfer f rsv desc => some (f, 3, movWord 1 rsv desc.desc)
  | .hrd f rsv desc _ => some (f, 3, movWord 2 rsv desc)
  | .hwr f rsv desc => some (f, 3, movWord 3 rsv desc.desc)
  | .lsnd f rsv desc => some (f, 3, movWord 4 rsv desc.desc)
  | .tsnd f tile tag rsv desc _ => some (f, 3, tsndWord tile tag rsv desc)
  | _ => none

/-- A syllable's command when nothing fails beside it. -/
def plain : Instr → Instr
  | .trnd f tile tag close rsv desc _ => .trnd f tile tag close rsv desc .ok
  | .tcmb f tile tag image _ => .tcmb f tile tag image .ok
  | .pld f a0 n rsv desc _ _ => .pld f a0 n rsv desc [] []
  | .vadd f v => .vadd f { v with residue := false }
  | .vsub f v => .vsub f { v with residue := false }
  | .vmul f v => .vmul f { v with residue := false }
  | .vfma f v => .vfma f { v with residue := false }
  | .vmax f v => .vmax f { v with residue := false }
  | .vmin f v => .vmin f { v with residue := false }
  | .vcmplt f v => .vcmplt f { v with residue := false }
  | .vwide f v => .vwide f { v with residue := false }
  | .vnarr f v => .vnarr f { v with residue := false }
  | .vdec f v => .vdec f { v with residue := false }
  | .vexp f v => .vexp f { v with residue := false }
  | .vrcp f v => .vrcp f { v with residue := false }
  | .vrsq f v => .vrsq f { v with residue := false }
  | .vsilu f v => .vsilu f { v with residue := false }
  | .vgelu f v => .vgelu f { v with residue := false }
  | .vrope f v => .vrope f { v with residue := false }
  | .vrsum f v => .vrsum f { v with residue := false }
  | .vrmax f v => .vrmax f { v with residue := false }
  | .vargmx f v => .vargmx f { v with residue := false }
  | .vdraw f v => .vdraw f { v with residue := false }
  | .vwalk f v => .vwalk f { v with residue := false }
  | .vqmx4 f v => .vqmx4 f { v with residue := false }
  | .vqi4 f v => .vqi4 f { v with residue := false }
  | .xfer f rsv desc => .xfer f rsv { desc with lines := [] }
  | .hrd f rsv desc _ => .hrd f rsv desc []
  | .hwr f rsv desc => .hwr f rsv { desc with lines := [] }
  | .lsnd f rsv desc => .lsnd f rsv { desc with lines := [] }
  | .tsnd f tile tag rsv desc _ => .tsnd f tile tag rsv desc .ok
  | c => c

/-- The bits of a syllable of a bundle (R161). -/
def syllableBits (slot : Nat) : Nat := if slot = 1 then 24 else 32

/-- What stops a syllable's command is raised in order, and the syllables after it that no command stands for are dealt with. -/
def stopped (s : State) (f : Nat) (xs : List Stop) : State := settleTodo (xs.foldl (fun s x => stopAt s f x) s) f

/-- The pieces that a syllable can change when a breach of the contract stops it. -/
def stopParts : List StatePart := [.regs, .views, .log, .folds, .flocks]

end Sys2Proof.Claims

open Sys2Proof.Claims

/-- The encoding of the syllables (R161, R164, R174, R176, R177, R183): a word decodes to the command that stands for it with that very
word, and the word of every syllable's command decodes to it, every operand at every value. -/
def Obligations.SyllablesDecodeAndEncode : Prop :=
  (∀ (f : Fin 68) (slot w : Nat) (c : Instr), slot < 4 → w < 2 ^ syllableBits slot → syllableCommand f slot w = some c → syllableOf c = some (f, slot, w))
  ∧ (∀ (c : Instr) (f : Fin 68) (slot w : Nat), syllableOf c = some (f, slot, w) →
    slot < 4 ∧ w < 2 ^ syllableBits slot ∧ syllableCommand f slot w = some (plain c))

/-- BUNDLE_ISSUE (R156, R158, R161): the bundle at the program counter issues, and the counter moves on by the loop table; the syllables
from the first that is neither a no-operation of zeros nor a reserved opcode wait for their commands, and a reserved opcode before it is a
contract fault of code 1 (R192). TEND and SEND end issue for the tick (R157). A command that does not carry the next syllable's word
changes nothing (the model's choice: log entry 88). A no-operation changes nothing when its other bits are zero; a non-zero bit is a
contract fault of code 1 with the syllable's number (R162, R192). -/
def Obligations.BundlesIssueUntilTheTickEnds : Prop :=
  (∀ (s : State) (f : Fin 68) (st : List Loop), canIssue s f = true → endPending s f = false → (getFold s f).pc ≤ 12287 →
    let p := (getFold s f).pc
    let b := bundleAt s f p
    let gone := fun y => syllableWord b y == 0 || reservedOp y (syllableWord b y)
    (pushLoops s f p = some st → bits b 120 6 = 0 → bit b 126 = false →
      Answers (.bundleIssue f false) s (fun t =>
        (getFold t f).pc = (popLoops p st).2 ∧ (getFold t f).loops = (popLoops p st).1 ∧ (getFold t f).lastPc = p ∧ (getFold t f).word = b
          ∧ (getFold t f).now = s.pause.base + (getFold s f).next ∧ (getFold t f).next = (getFold s f).next + 4
          ∧ (getFold t f).todo = [0, 1, 2, 3].dropWhile gone
          ∧ (∀ y ∈ [0, 1, 2, 3].takeWhile gone, syllableWord b y ≠ 0 →
              ({ clash := false, code := 1, bundle := p, syl := y } : StepFaultRec) ∈ (getFold t f).faults)
          ∧ rd t (foldPg f) F.SEQ_PC = p ∧ rd t (foldPg f) F.SEQ_STATUS_ISSUING = 1
          ∧ OnlyFolds [f] s t ∧ Only [.regs, .views, .log, .folds, .flocks, .tally, .pause, .power, .free] s t))
    ∧ Answers (.bundleIssue f true) s (fun t => bit (rd t (foldPg f) F.ERR_SUM) 2 = true))
  ∧ (∀ (s : State) (f : Fin 68) (c : Instr) (b : Nat), (c = .tend f ∧ b = 127) ∨ (c = .send f ∧ b = 126) →
    (endsIssue s f b = true → Answers c s (fun t =>
      rd t (foldPg f) F.SEQ_STATUS_ISSUING = 0 ∧ rd t (foldPg f) F.SEQ_STATUS_ENDED = 1
        ∧ getFold t f = { getFold s f with endCycle := (getFold s f).next } ∧ canIssue t f = false ∧ OnlyFolds [f] s t
        ∧ OnlyIn [.folds] [(foldPg f, F.SEQ_STATUS_ISSUING, 0), (foldPg f, F.SEQ_STATUS_ENDED, 0)] s t))
    ∧ (endsIssue s f b = false → Answers c s (· = s)))
  ∧ (∀ (s : State) (c : Instr) (f : Fin 68) (slot w : Nat), syllableOf c = some (f, slot, w) → takes s f slot w = false → Answers c s (· = s))
  ∧ (∀ (s : State) (f : Fin 68),
    (takes s f 0 0 = true → Answers (.anop f 0) s (· = stopped (dropSyllable s f) f []))
    ∧ (takes s f 1 0 = true → Answers (.lnop f 0) s (· = stopped (dropSyllable s f) f []))
    ∧ (takes s f 2 0 = true → Answers (.vecNop f 0) s (· = stopped (dropSyllable s f) f []))
    ∧ (takes s f 3 0 = true → Answers (.mnop f 0) s (· = stopped (dropSyllable s f) f []))
    ∧ (∀ r : BitVec 28, r ≠ 0 → takes s f 0 r.toNat = true → Answers (.anop f r) s (· = stopped (dropSyllable s f) f [.contract 1 0 0]))
    ∧ (∀ r : BitVec 20, r ≠ 0 → takes s f 1 r.toNat = true → Answers (.lnop f r) s (· = stopped (dropSyllable s f) f [.contract 1 1 0]))
    ∧ (∀ r : BitVec 26, r ≠ 0 → takes s f 2 r.toNat = true → Answers (.vecNop f r) s (· = stopped (dropSyllable s f) f [.contract 1 2 0]))
    ∧ (∀ r : BitVec 28, r ≠ 0 → takes s f 3 r.toNat = true → Answers (.mnop f r) s (· = stopped (dropSyllable s f) f [.contract 1 3 0])))

/-! ## Syllables -/

namespace Sys2Proof.Claims

/-- The command of a vector operation. -/
def vecInstr (op : VOp) (f : Fin 68) (v : VecSyl) : Instr := match op with
  | .vadd => .vadd f v | .vsub => .vsub f v | .vmul => .vmul f v | .vfma => .vfma f v | .vmax => .vmax f v | .vmin => .vmin f v
  | .vcmplt => .vcmplt f v | .vwide => .vwide f v | .vnarr => .vnarr f v | .vdec => .vdec f v | .vexp => .vexp f v | .vrcp => .vrcp f v
  | .vrsq => .vrsq f v | .vsilu => .vsilu f v | .vgelu => .vgelu f v | .vrope => .vrope f v | .vrsum => .vrsum f v | .vrmax => .vrmax f v
  | .vargmx => .vargmx f v | .vdraw => .vdraw f v | .vwalk => .vwalk f v | .vqmx4 => .vqmx4 f v | .vqi4 => .vqi4 f v

/-- The device address of byte `j` of a vector operation's destination. -/
def inDest (s : State) (f : Nat) (op : VOp) (q : VecSyl) (a : Nat) : Prop :=
  vsAddr f (vecArgsOf s f q).d ≤ a ∧ a < vsAddr f (vecArgsOf s f q).d + vecWrites op (vecArgsOf s f q)

end Sys2Proof.Claims

open Sys2Proof.Claims

/-- CONV (R165, R168): one conversion of each array of its mask is scheduled behind those of before, to latch at the first array-cycle
boundary of the tick that is 24 cycles or more after the issue. PSW (R169) names a switch at the first boundary after its cycle;
PLANE_SWITCH (R40) changes the active plane of the named arrays of the earliest switch and of no other, once its boundary has come.
CONV_LATCH and CONV_DELIVER (R33 to R35, R39): the next conversion of an array latches at its boundary, after the switches named for it, and
delivers 40 cycles later, with a residue mismatch if one is found (R374). -/
def Obligations.ConversionsAndSwitchesAreScheduled : Prop :=
  (∀ (s : State) (f : Fin 68) (mask : BitVec 16) (rsv : BitVec 2) (desc : Fin 1024), takes s f 0 (convWord mask rsv desc) = true →
    convCheck (convMask (dropSyllable s f) f desc) f mask.toNat rsv.toNat desc = [] →
    Answers (.conv f mask rsv desc) s (fun t =>
      (getFold t f).convs.map (·.op.array) = (getFold s f).convs.map (·.op.array) ++ (List.range 16).filter (bit mask.toNat)
        ∧ (∀ k ∈ (getFold t f).convs.drop (getFold s f).convs.length,
            k.op.lat = arrayBoundary s ((getFold s f).now + 24) ∧ k.op.bundle = (getFold s f).lastPc ∧ k.data = none ∧ k.delivered = false)
        ∧ OnlyFolds [f] s t ∧ Only stopParts s t))
  ∧ (∀ (s : State) (c : Nat), s.pause.base ≤ c →
    (arrayBoundary s c - s.pause.base) % 32 = 0 ∧ c ≤ arrayBoundary s c ∧ arrayBoundary s c < c + 32)
  ∧ ((∀ (s : State) (f : Fin 68) (mask : BitVec 16), takes s f 0 (pswWord mask 0) = true →
    Answers (.psw f mask 0) s (fun t =>
      (getFold t f).switches = (getFold s f).switches ++ [(mask.toNat, arrayBoundary s ((getFold s f).now + 1), (getFold s f).lastPc)]
      ∧ (getFold t f).arrays = (getFold s f).arrays ∧ OnlyFolds [f] s t ∧ Only stopParts s t))
  ∧ (∀ (s : State) (f : Fin 68) (mask : BitVec 16) (b bundle : Nat) (rest : List (Nat × Nat × Nat)),
    (getFold s f).switches = (mask.toNat, b, bundle) :: rest → due s b = true →
    (∀ a, a < 16 → bit mask.toNat a = true → ((getFold s f).arr a).lastRow ≤ b) →
    Answers (.planeSwitch f) s (fun t =>
      (getFold t f).switches = rest
        ∧ (∀ a, a < 16 → ((getFold t f).arr a).act1 = (((getFold s f).arr a).act1 != bit mask.toNat a)
            ∧ ((getFold t f).arr a).p0 = ((getFold (loadsTo s f b) f).arr a).p0 ∧ ((getFold t f).arr a).p1 = ((getFold (loadsTo s f b) f).arr a).p1)
        ∧ OnlyFolds [f] s t ∧ Only [.folds] s t)))
  ∧ (∀ (s : State) (f : Fin 68) (a : Fin 16) (k : Conv), nextLatch (getFold s f) a = some k →
    (mayLatch s f k = true → Answers (.convLatch f a) s (· = latchConv s f a k))
    ∧ (mayLatch s f k = false → Answers (.convLatch f a) s (· = s)))
  ∧ (∀ (s : State) (f : Fin 68) (a : Fin 16) (k : Conv) (d : ConvData), nextDelivery (getFold s f) a = some k → k.data = some d →
    (due s (k.op.lat + 40) = true → Answers (.convDeliver f a false) s (· = deliver s f a k d)
      ∧ Answers (.convDeliver f a true) s (· = residueFail (deliver s f a k d) f))
    ∧ (due s (k.op.lat + 40) = false → ∀ residue, Answers (.convDeliver f a residue) s (· = s)))

/-- PLD (R38, R41, R174, R175): at its issue the load of each source begins with the next group, the loader is busy for as many cycles as it
loads groups, the active plane keeps its cells, and no conversion changes (R41). As the load goes on, the cells of its groups take the
codes of its plane slot in staging; the rows that it does not write, the active planes and the conversions stay. -/
def Obligations.PlaneLoadWritesTheShadowPlane : Prop :=
  (∀ (s : State) (f : Fin 68) (a0 count1 : Fin 16) (rsv : BitVec 3) (desc : Fin 512) (bad : List (Fin 16 × Fin 1024)) (lines : List LineErr),
    takes s f 1 (pldWord a0 count1 rsv desc) = true → loadCheck (dropSyllable s f) f a0 (count1 + 1) rsv.toNat desc = [] →
    let d := loadDesc s f desc
    let srcs := loadSources a0 (count1 + 1) d
    let n := bits d 40 6 + 1
    Answers (.pld f a0 count1 rsv desc bad lines) s (fun t =>
      (getFold t f).loads = (getFold s f).loads
          ++ srcs.map (fun e => ⟨e.1, !((getFold s f).arr e.1).act1, e.2, bits d 34 6, n, (getFold s f).now, bits d 46 2⟩)
      ∧ (∀ e ∈ srcs, ((getFold t f).arr e.1).active = ((getFold s f).arr e.1).active
        ∧ ((getFold t f).arr e.1).loadEnd = (getFold s f).now + n
        ∧ ((getFold t f).arr e.1).shadow.cells = ((getFold s f).arr e.1).shadow.cells
        ∧ ((getFold t f).arr e.1).shadow.kind = bits d 46 2)
      ∧ (∀ a, (∀ e ∈ srcs, e.1 ≠ a) → (getFold t f).arr a = (getFold s f).arr a)
      ∧ (getFold t f).convs = (getFold s f).convs
      ∧ Only [.free, .regs, .views, .log, .mem, .fresh, .folds, .flocks, .tally, .pause, .care, .weights] s t))
  ∧ (∀ (s : State) (f : Fin 68) (t : Nat) (l : Load), (getFold s f).loads = [l] → l.c + l.left ≤ t →
    l.plane1 = !((getFold s f).arr l.array).act1 →
    let u := loadsTo s f t
    (getFold u f).loads = [] ∧ (getFold u f).convs = (getFold s f).convs
      ∧ (∀ a, ((getFold u f).arr a).active = ((getFold s f).arr a).active)
      ∧ (∀ r c, 16 * l.g ≤ r → r < 16 * (l.g + l.left) → c < 256 →
          getD 0 ((getFold u f).arr l.array).shadow.cells (256 * r + c) = cellValue l.kind (slotCode s f l.src r c))
      ∧ (∀ k, k / 256 < 16 * l.g ∨ 16 * (l.g + l.left) ≤ k / 256 →
          getD 0 ((getFold u f).arr l.array).shadow.cells k = getD 0 ((getFold s f).arr l.array).shadow.cells k)
      ∧ OnlyFolds [f] s u ∧ Only [.folds] s u)

/-- TCLR (R140, R170) opens its tile's claim with the tile cleared, and leaves every other tile. A TCLR on a tile whose claim is
open is a tile clash of cause 3: the tile is poisoned and the step faults with cause 4 (R141, R142). -/
def Obligations.ClearOpensTheTileOrClashes : Prop :=
  (∀ (s : State) (f : Fin 68) (mode : BitVec 2) (tag te : BitVec 8) (rsv : BitVec 3) (tile : Fin 128),
    takes s f 0 (tclrWord mode tag te rsv tile) = true → clearCheck (dropSyllable s f) f mode.toNat tag.toNat rsv.toNat tile = [] →
    Answers (.tclr f mode tag te rsv tile) s (fun t =>
      ((getFold t f).tile tile).open_ = true ∧ ((getFold t f).tile tile).tag = tag.toNat ∧ ((getFold t f).tile tile).mode = mode.toNat
        ∧ ((getFold t f).tile tile).te = toSigned te.toNat 8 ∧ ((getFold t f).tile tile).m = [] ∧ ((getFold t f).tile tile).b = []
        ∧ ((getFold t f).tile tile).rows = 0 ∧ ((getFold t f).tile tile).poison = false
        ∧ (∀ k, k ≠ tile.val → (getFold t f).tile k = (getFold s f).tile k) ∧ OnlyFolds [f] s t ∧ Only stopParts s t))
  ∧ (∀ (s : State) (f : Fin 68) (tag : BitVec 8) (tile : Fin 128) (mode : BitVec 2) (te : BitVec 8),
    takes s f 0 (tclrWord mode tag te 0 tile) = true → mode ≠ 3 → ((getFold s f).tile tile).open_ = true →
    Answers (.tclr f mode tag te 0 tile) s (fun t =>
      ((getFold t f).tile tile).poison = true ∧ ((getFold t f).tile tile).m = ((getFold s f).tile tile).m
        ∧ bit (rd t (foldPg f) F.ERR_SUM) 3 = true
        ∧ ((getFold s f).clashTick = false → rd t (foldPg f) F.TILE_CLASH_INFO_TILE = tile.val ∧ rd t (foldPg f) F.TILE_CLASH_INFO_CAUSE = 3
          ∧ rd t (foldPg f) F.TILE_CLASH_INFO_NAMED = tag.toNat)
        ∧ (∀ k, foldFlock s f = some k → (getFlock s k).fault = 0 → (getFlock t k).fault = 4) ∧ OnlyFolds [f] s t ∧ Only stopParts s t))

/-- TRND and TCMB (R172, R173) take their place among the operations in flight, with the tile or the image as read. A TCMB whose image has
another mode than its tile adds nothing and is a contract fault of code 3; its read takes place all the same (R173). -/
def Obligations.RoundingAndCombineAreQueued : Prop :=
  (∀ (s : State) (f : Fin 68) (tile : Fin 128) (tag : BitVec 8) (close : Bool) (rsv : BitVec 3) (desc : Fin 512) (e : Ecc),
    takes s f 0 (trndWord tile tag close rsv desc) = true → roundCheck (dropSyllable s f) f tile tag.toNat rsv.toNat desc = [] →
    Answers (.trnd f tile tag close rsv desc e) s (fun t =>
      (∃ q : Trnd, (getFold t f).trnds = (getFold s f).trnds ++ [q] ∧ q.tile = tile.val ∧ q.close = close ∧ q.c = (getFold s f).now
        ∧ q.dst = 64 * bits (roundDesc s f desc) 23 16 ∧ q.rows = bits (roundDesc s f desc) 39 16 ∧ q.w = bits (roundDesc s f desc) 11 12
        ∧ q.ended = false ∧ q.left = q.slots ∧ (e = .ok → q.snap = (getFold s f).tile tile))
      ∧ (e = .ok → OnlyFolds [f] s t ∧ Only stopParts s t) ∧ Only [.regs, .views, .log, .folds, .flocks, .care] s t))
  ∧ (∀ (s : State) (f : Fin 68) (tile : Fin 128) (tag : BitVec 8) (image : BitVec 13) (e : Ecc),
    takes s f 0 (tcmbWord tile tag image) = true → combineCheck (dropSyllable s f) f tile tag.toNat image.toNat = [] →
    let op := combineOperand (dropSyllable s f) f tile image.toNat
    Answers (.tcmb f tile tag image e) s (fun t =>
      (op.mode = ((getFold s f).tile tile).mode → (∃ q : Combine, (getFold t f).combines = (getFold s f).combines ++ [q] ∧ q.tile = tile.val
        ∧ q.c = (getFold s f).now ∧ q.operand = op))
      ∧ (op.mode ≠ ((getFold s f).tile tile).mode → (getFold t f).combines = (getFold s f).combines
        ∧ ({ clash := false, code := 3, bundle := (getFold s f).lastPc, syl := 0 } : StepFaultRec) ∈ (getFold t f).faults)
      ∧ (getFold t f).books = (getFold s f).books ++ [combineBook (dropSyllable s f) f tile]
      ∧ (e = .ok → OnlyFolds [f] s t ∧ Only stopParts s t) ∧ Only [.regs, .views, .log, .folds, .flocks, .care] s t))

/-- Vector operations (R176, R177, R187): the result stands in the bytes from D, a masked operation writes zeros there, and no other
byte of memory changes. Elementwise operations (R177, R178): each element of D is the operation of the elements of A and B, rounded
once in the operation's format; VFMA takes D as its third operand. -/
def Obligations.VectorOperationsWriteTheirResults : Prop :=
  (∀ (s : State) (f : Fin 68) (op : VOp) (v : VecSyl), takes s f 2 (vecWord op.code v) = true → v.residue = false →
    vecCheck (dropSyllable s f) f op v = [] →
    Answers (vecInstr op f v) s (fun t =>
      readBytes t (vsAddr f (vecArgsOf s f v).d) (vecWrites op (vecArgsOf s f v)) = (vecOutcome (dropSyllable s f) f op (vecArgsOf s f v)).1.bytes
        ∧ ((vecArgsOf s f v).masked = true →
            readBytes t (vsAddr f (vecArgsOf s f v).d) (vecWrites op (vecArgsOf s f v)) = List.replicate (vecWrites op (vecArgsOf s f v)) 0)
        ∧ OnlyBytes (inDest s f op v) s t ∧ OnlyFolds [f] s t ∧ Only [.free, .regs, .views, .log, .mem, .fresh, .folds, .flocks] s t))
  ∧ (∀ (s : State) (f : Fin 68) (op : VOp) (v : VecSyl), takes s f 2 (vecWord op.code v) = true → v.residue = false →
    vecCheck (dropSyllable s f) f op v = [] → (vecArgsOf s f v).masked = false →
    let a := vecArgsOf s f v
    let el := fun (base j : Nat) => decodeFloat a.fmt (droveLe s (vsAddr f (base + a.size * j)) a.size)
    let elB := fun (j : Nat) => if a.bcast then el a.b 0 else el a.b j
    ∀ j, j < a.n →
      (op ∈ [VOp.vadd, VOp.vsub, VOp.vmul, VOp.vmax, VOp.vmin, VOp.vcmplt] → Answers (vecInstr op f v) s (fun t =>
        readLe t (vsAddr f (a.d + a.size * j)) a.size = encodeFloat a.fmt (vecTwo op a.fmt (el a.a j) (elB j)) % 2 ^ (8 * a.size)))
      ∧ (op = .vfma → Answers (vecInstr op f v) s (fun t =>
        readLe t (vsAddr f (a.d + a.size * j)) a.size = encodeFloat a.fmt (fFma a.fmt (el a.a j) (elB j) (el a.d j)) % 2 ^ (8 * a.size))))

/-- Transfers inside the package (R22, R183, R187, R257): XFER and TSND put their bytes in flight to the destination, zeros when the
operation is masked. When no staging line is in error, or still poisoned from an earlier one, no byte of memory changes before they are
visible. -/
def Obligations.TransfersFlyUntilVisible : Prop :=
  (∀ (s : State) (f : Fin 68) (rsv : BitVec 18) (desc : MovRef), takes s f 3 (movWord 1 rsv desc.desc) = true →
    xferCheck (dropSyllable s f) f rsv.toNat desc.desc = [] →
    let v := xferOf s f desc.desc
    Answers (.xfer f rsv desc) s (fun t =>
      (∃ x : Xfer, (getFold t f).xfers = (getFold s f).xfers ++ [x] ∧ x.hwr = false ∧ x.c = (getFold s f).now
        ∧ x.dst = spaceAddr (xferDest s f v) v.ds v.da ∧ x.vis = xferVis s f v ∧ x.fly = x.vis + 1 ∧ x.bundle = (getFold s f).lastPc
        ∧ (v.masked = true → x.data = if v.ds = 1 ∧ xferDest s f v ≠ f then [] else List.replicate v.len 0)
        ∧ (v.masked = false → desc.lines = [] → x.data = droveRead s (spaceAddr f v.ss v.sa) v.len))
      ∧ (desc.lines = [] → s.care.bad = [] → OnlyFolds [f, xferDest s f v] s t ∧ Only stopParts s t)
      ∧ Only [.free, .regs, .views, .log, .mem, .fresh, .folds, .flocks, .tally, .pause, .care, .weights] s t))
  ∧ (∀ (s : State) (f : Fin 68) (tile : Fin 128) (tag : BitVec 8) (rsv : BitVec 3) (desc : Fin 1024) (e : Ecc),
    takes s f 3 (tsndWord tile tag rsv desc) = true → tsndCheck (dropSyllable s f) f tile tag.toNat rsv.toNat desc = [] →
    let v := xferOf s f desc
    let g := (foldOfSlot s v.target).getD f
    let y := (getFold s f).tile tile
    Answers (.tsnd f tile tag rsv desc e) s (fun t =>
      (∃ x : Xfer, (getFold t f).xfers = (getFold s f).xfers ++ [x] ∧ x.hwr = false ∧ x.c = (getFold s f).now ∧ x.dst = vsAddr g v.da
        ∧ x.vis = tsndVis s f tile g ∧ x.fly = x.c + 4 + tsndUnits s f tile ∧ x.bundle = (getFold s f).lastPc
        ∧ (v.masked = true → x.data = List.replicate (imageLen y.mode) 0)
        ∧ (v.masked = false → e = .ok → x.data =
            (imageBytes (sendMarks y) tile ((slotOfFold s f).getD 0) s.tally.num (y.mode == 0)).take (imageLen y.mode)))
      ∧ (e = .ok → OnlyFolds [f, g] s t ∧ Only stopParts s t) ∧ Only [.regs, .views, .log, .folds, .flocks, .care] s t))

/-- Transfers with HBM (R183, R245, R246, R248, R301): HRD's bytes fly until visible; HWR's bytes stand in HBM for scheduled reads at
once, the transfer keeps the bytes that it replaced, and stays until it completes. LSND (R183, R328, R335): one flit for each 256 bytes
waits for its slot on the link that carries them, in order. A masked or unmapped transfer writes zeros or nothing. -/
def Obligations.HbmAndLinkTransfers : Prop :=
  ((∀ (s : State) (f : Fin 68) (rsv : BitVec 18) (desc : Fin 1024) (lines : List LineErr) (d : Drove) (h : HbmWay),
    takes s f 3 (movWord 2 rsv desc) = true → foldDrove s f = some d → hrdCheck (dropSyllable s f) f rsv.toNat desc d = [] →
    hbmWay s f d (xferOf s f desc) (xferOf s f desc).sa = some h →
    let v := xferOf s f desc
    Answers (.hrd f rsv desc lines) s (fun t =>
      (∃ x : Xfer, (getFold t f).xfers = (getFold s f).xfers ++ [x] ∧ x.hwr = false ∧ x.c = (getFold s f).now ∧ x.dst = spaceAddr f v.ds v.da
        ∧ x.vis = hrdVis s f d v h ∧ x.fly = x.vis + 1 ∧ x.port = h.port + 1
        ∧ (v.masked = true ∨ h.unmapped = true → x.data = List.replicate v.len 0)
        ∧ (v.masked = false → h.unmapped = false → lines = [] → x.data = droveRead s h.addr v.len))
      ∧ (lines = [] → s.care.bad = [] → OnlyFolds [f] s t ∧ Only stopParts s t)
      ∧ Only [.free, .regs, .views, .log, .mem, .fresh, .folds, .flocks, .tally, .pause, .care, .weights] s t))
  ∧ (∀ (s : State) (f : Fin 68) (rsv : BitVec 18) (desc : MovRef) (d : Drove) (h : HbmWay),
    takes s f 3 (movWord 3 rsv desc.desc) = true → foldDrove s f = some d → hwrCheck (dropSyllable s f) f rsv.toNat desc.desc d = [] →
    hbmWay s f d (xferOf s f desc.desc) (xferOf s f desc.desc).da = some h →
    let v := xferOf s f desc.desc
    Answers (.hwr f rsv desc) s (fun t =>
      (∃ x : Xfer, (getFold t f).xfers = (getFold s f).xfers ++ [x] ∧ x.hwr = true ∧ x.c = (getFold s f).now ∧ x.dst = h.addr
        ∧ x.vis = hwrVis s f d v h ∧ (desc.lines = [] → x.data = if v.masked || h.unmapped then [] else readBytes s h.addr v.len))
      ∧ (desc.lines = [] → s.care.bad = [] →
        (v.masked = false → h.unmapped = false → ∀ j, j < v.len → isMem s (h.addr + j) = true →
          droveByte t (h.addr + j) = droveByte s (spaceAddr f v.ss v.sa + j))
        ∧ OnlyBytes (fun a => h.addr ≤ a ∧ a < h.addr + v.len ∧ v.masked = false ∧ h.unmapped = false) s t
        ∧ OnlyFolds [f] s t ∧ Only [.regs, .views, .log, .mem, .fresh, .folds, .flocks] s t)
      ∧ Only [.free, .regs, .views, .log, .mem, .fresh, .folds, .flocks, .tally, .pause, .care, .weights] s t)))
  ∧ (∀ (s : State) (f : Fin 68) (rsv : BitVec 18) (desc : MovRef) (d : Drove) (e r : LinkEntry),
    takes s f 3 (movWord 4 rsv desc.desc) = true → foldDrove s f = some d → lsndCheck (dropSyllable s f) f rsv.toNat desc.desc d = [] →
    lsndEntry s f d (xferOf s f desc.desc) = some e → routeEntry s d e = some r →
    let v := xferOf s f desc.desc
    Answers (.lsnd f rsv desc) s (fun t =>
      (∃ data : List Byte, (v.masked = true ∨ desc.lines = [] → data = sourceBytes s f v)
        ∧ (getLink t r.link).sched = (getLink s r.link).sched ++ lsndFlits s d v r data
        ∧ (lsndFlits s d v r data).length = v.len / 256)
      ∧ (∀ l, l ≠ r.link → getLink t l = getLink s l)
      ∧ (desc.lines = [] → s.care.bad = [] → OnlyFolds [f] s t ∧ Only (.links :: stopParts) s t)
      ∧ Only [.free, .regs, .views, .log, .mem, .fresh, .folds, .flocks, .tally, .pause, .care, .links, .weights] s t))
  ∧ (∀ (s : State) (f : Fin 68) (rsv : BitVec 18) (desc : MovRef) (d : Drove),
    takes s f 3 (movWord 4 rsv desc.desc) = true → foldDrove s f = some d → lsndCheck (dropSyllable s f) f rsv.toNat desc.desc d = [] →
    (lsndEntry s f d (xferOf s f desc.desc)).bind (routeEntry s d) = none →
    Answers (.lsnd f rsv desc) s (fun t => t.links = s.links))

/-- A syllable that breaks the contract raises everything that its checks find, in their order, and has no other effect but that a CONV
still holds its arrays in the array cycle that it names (R192, R194). A
program counter past the segment store, and a loop that breaks the loop rules, are contract faults of code 10 and halt the fold (R192).
A contract fault (R192, R193): it is counted and logged, the first of a tick is named, and the step of the fold's flock fails with
cause 3. -/
def Obligations.ContractFaultsStopTheSyllable : Prop :=
  (∀ (s : State) (f : Fin 68),
    let u := dropSyllable s f
    (∀ (mask : BitVec 16) (rsv : BitVec 2) (desc : Fin 1024), takes s f 0 (convWord mask rsv desc) = true →
      let m := convMask u f desc
      let xs := convCheck m f mask.toNat rsv.toNat desc
      xs ≠ [] → Answers (.conv f mask rsv desc) s (· = stopped (holdArrays m f (convsOf m f mask.toNat desc)) f xs))
    ∧ (∀ (a0 n : Fin 16) (rsv : BitVec 3) (desc : Fin 512) (bad : List (Fin 16 × Fin 1024)) (lines : List LineErr),
      takes s f 1 (pldWord a0 n rsv desc) = true →
      let xs := loadCheck u f a0 (n + 1) rsv.toNat desc
      xs ≠ [] → Answers (.pld f a0 n rsv desc bad lines) s (· = stopped u f xs))
    ∧ (∀ (mask : BitVec 16) (rsv : BitVec 12), takes s f 0 (pswWord mask rsv) = true → rsv ≠ 0 →
      Answers (.psw f mask rsv) s (· = stopped u f [.contract 1 0 0]))
    ∧ (∀ (mode : BitVec 2) (tag te : BitVec 8) (rsv : BitVec 3) (tile : Fin 128), takes s f 0 (tclrWord mode tag te rsv tile) = true →
      let xs := clearCheck u f mode.toNat tag.toNat rsv.toNat tile
      xs ≠ [] → Answers (.tclr f mode tag te rsv tile) s (· = stopped u f xs))
    ∧ (∀ (tile : Fin 128) (tag : BitVec 8) (close : Bool) (rsv : BitVec 3) (desc : Fin 512) (e : Ecc),
      takes s f 0 (trndWord tile tag close rsv desc) = true →
      let xs := roundCheck u f tile tag.toNat rsv.toNat desc
      xs ≠ [] → Answers (.trnd f tile tag close rsv desc e) s (· = stopped u f xs))
    ∧ (∀ (tile : Fin 128) (tag : BitVec 8) (image : BitVec 13) (e : Ecc), takes s f 0 (tcmbWord tile tag image) = true →
      let xs := combineCheck u f tile tag.toNat image.toNat
      xs ≠ [] → Answers (.tcmb f tile tag image e) s (· = stopped u f xs))
    ∧ (∀ op v, takes s f 2 (vecWord op.code v) = true → v.residue = false →
      let xs := vecCheck u f op v
      xs ≠ [] → Answers (vecInstr op f v) s (· = stopped u f xs))
    ∧ (∀ (rsv : BitVec 18) (desc : MovRef), takes s f 3 (movWord 1 rsv desc.desc) = true →
      let xs := xferCheck u f rsv.toNat desc.desc
      xs ≠ [] → Answers (.xfer f rsv desc) s (· = stopped u f xs))
    ∧ (∀ (rsv : BitVec 18) (desc : Fin 1024) (lines : List LineErr) (d : Drove), foldDrove s f = some d →
      (takes s f 3 (movWord 2 rsv desc) = true →
        let xs := hrdCheck u f rsv.toNat desc d
        xs ≠ [] → Answers (.hrd f rsv desc lines) s (· = stopped u f xs))
      ∧ (takes s f 3 (movWord 3 rsv desc) = true →
        let xs := hwrCheck u f rsv.toNat desc d
        xs ≠ [] → Answers (.hwr f rsv ⟨desc, lines⟩) s (· = stopped u f xs))
      ∧ (takes s f 3 (movWord 4 rsv desc) = true →
        let xs := lsndCheck u f rsv.toNat desc d
        xs ≠ [] → Answers (.lsnd f rsv ⟨desc, lines⟩) s (· = stopped u f xs)))
    ∧ (∀ (tile : Fin 128) (tag : BitVec 8) (rsv : BitVec 3) (desc : Fin 1024) (e : Ecc), takes s f 3 (tsndWord tile tag rsv desc) = true →
      let xs := tsndCheck u f tile tag.toNat rsv.toNat desc
      xs ≠ [] → Answers (.tsnd f tile tag rsv desc e) s (· = stopped u f xs))
    ∧ (∀ xs, OnlyFolds [f] s (stopped s f xs) ∧ Only stopParts s (stopped s f xs)))
  ∧ (∀ (s : State) (f : Fin 68), canIssue s f = true → endPending s f = false →
    (12287 < (getFold s f).pc ∨ pushLoops s f (getFold s f).pc = none) →
    Answers (.bundleIssue f false) s (fun t =>
      (getFold t f).halted = true ∧ rd t (foldPg f) F.SEQ_STATUS_ISSUING = 0
        ∧ (getFold t f).faults = (getFold s f).faults ++ [{ clash := false, code := 10, bundle := (getFold s f).pc, syl := 0 }]
        ∧ OnlyFolds [f] s t ∧ Only [.regs, .views, .log, .folds, .flocks] s t))
  ∧ (∀ (s : State) (f code bundle syl port : Nat), f < 68 → code < 32 → bundle < 2 ^ 14 → syl < 4 → port < 9 →
    (getFold s f).oldFaults.contains { clash := false, code := code, bundle := bundle, syl := syl } = false →
    let t := contractFault s f code bundle syl port
    (rd s (foldPg f) F.CONTRACT_CNT < 2 ^ 32 - 2 → rd t (foldPg f) F.CONTRACT_CNT = rd s (foldPg f) F.CONTRACT_CNT + 1)
      ∧ ((getFold s f).faultTick = false → rd t (foldPg f) F.CONTRACT_INFO_CODE = code ∧ rd t (foldPg f) F.CONTRACT_INFO_BUNDLE = bundle
        ∧ rd t (foldPg f) F.CONTRACT_INFO_SYL = syl ∧ rd t (foldPg f) F.CONTRACT_INFO_PORT = port)
      ∧ ((getFold s f).faultTick = true → rd t (foldPg f) F.CONTRACT_INFO_CODE = rd s (foldPg f) F.CONTRACT_INFO_CODE)
      ∧ (∀ k, foldFlock s f = some k → (getFlock s k).phase = 3 → (getFlock s k).fault = 0 → (getFlock t k).fault = 3)
      ∧ (getFold t f).faultTick = true ∧ OnlyFolds [f] s t ∧ Only [.regs, .views, .log, .folds, .flocks] s t)


/-! ## Arrays and tiles -/

/-- CONV_LATCH (R32, R33, R46, R49): the conversion of the array that latches next takes its data: the exact column sums of what it
drives over the plane that it uses, codes of 0 to 127, and estimates from those codes and the trims; the deviations of its codes are free
values. A reference conversion's sums are those over the staging copy of the plane (R119). CONV_DELIVER (R35, R47): the latched
conversion delivers; a masked one is only skipped by the checker, a reference one counts as such, and of any other the clipped columns
count for its array. ZERO_INPUT_CONVERSION (R36, R56): the checker tests the conversion, and an open window gathers it. -/
def Obligations.ConversionsLatchAndDeliver : Prop :=
  (∀ (s : State) (f : Fin 68) (a : Fin 16) (k : Conv), nextLatch (getFold s f) a = some k → mayLatch s f k = true →
    Answers (.convLatch f a) s (fun t =>
      (∃ d : ConvData,
        (getFold t f).convs = setConv (fun q => q.op.array == a && q.data.isNone) (fun q => { q with data := some d }) (getFold s f).convs
        ∧ (k.op.mode ≠ 2 → ∀ c, c < 256 → d.exact.getD c 0 =
            sumZ ((List.range d.drive.length).map (fun r => d.drive.getD r 0 * getD 0 ((getFold s f).arr a).active.cells (256 * r + c))))
        ∧ (k.op.mode = 2 → ∀ c, c < 256 → d.exact.getD c 0 =
            stagedColumn s f d.drive d.origins d.kinds (fun r => getD 0 ((getFold s f).arr a).active.cells (256 * r + c)) c)
        ∧ (∀ c, c < 256 → d.codes.getD c 0 ≤ 127)
        ∧ (∀ c, c < 256 → d.est.getD c 0 = estimateOf (d.codes.getD c 64) (d.o.getD c 0) (d.g.getD c 16384) d.delta)
        ∧ (k.op.masked = true → d.drive = []))
      ∧ t.free = s.free + 256 ∧ (getFold t f).tiles = (getFold s f).tiles ∧ (getFold t f).arrays = (getFold s f).arrays
      ∧ OnlyFolds [f] s t ∧ Only [.free, .regs, .views, .log, .folds, .pause] s t))
  ∧ (∀ (s : State) (f : Fin 68) (a : Fin 16) (k : Conv) (d : ConvData), nextDelivery (getFold s f) a = some k → k.data = some d →
    due s (k.op.lat + 40) = true → Answers (.convDeliver f a false) s (fun t =>
      (getFold t f).convs = setConv (fun q => q.op.array == a && q.data.isSome && !q.delivered) (fun q => { q with delivered := true })
        (getFold s f).convs
      ∧ (k.op.masked = true → rd s (foldPg f) F.COLLIE_SKIP_CNT < 2 ^ 32 - 2 →
          rd t (foldPg f) F.COLLIE_SKIP_CNT = rd s (foldPg f) F.COLLIE_SKIP_CNT + 1 ∧ OnlyFolds [f] s t ∧ Only [.regs, .folds] s t)
      ∧ (k.op.masked = false → k.op.mode = 2 → rd s (foldPg f) F.REF_CONV_CNT < 2 ^ 32 - 2 →
          rd t (foldPg f) F.REF_CONV_CNT = rd s (foldPg f) F.REF_CONV_CNT + 1 ∧ OnlyFolds [f] s t ∧ Only [.regs, .folds] s t)
      ∧ (k.op.masked = false → k.op.mode ≠ 2 → rd s (foldPg f) F.ARR_CLIP a + (d.codes.filter isClip).length < 2 ^ 32 - 1 →
          rd t (foldPg f) F.ARR_CLIP a = rd s (foldPg f) F.ARR_CLIP a + (d.codes.filter isClip).length)
      ∧ Only [.regs, .folds, .flocks, .care] s t))
  ∧ (∀ (s : State) (f : Fin 68) (a : Fin 16), roleOf s f ≠ roleRetired → frozen s = false →
    Answers (.zeroInputConversion f a) s (fun t =>
      (rd s (foldPg f) F.COLLIE_CHK_CNT < 2 ^ 32 - 2 → rd t (foldPg f) F.COLLIE_CHK_CNT = rd s (foldPg f) F.COLLIE_CHK_CNT + 1)
        ∧ (∀ w, ((getFold s f).arr a).win = some w → w.closed = none → ∃ w', ((getFold t f).arr a).win = some w' ∧ w'.nz = w.nz + 1 ∧ w'.np = w.np)
        ∧ t.free = s.free + 256 ∧ (getFold t f).convs = (getFold s f).convs ∧ Only [.free, .regs, .folds, .flocks, .care] s t))

/-- TILE_WINDOW_WRITE (R147): a word of a source to which the window of the fold is open goes to its tile. ADD_ALIGN (R108, R136, R168): the conversions of an add leave the list, and the sums of those that are neither masked nor suppressed
are in the tile's row; a tile with no such conversion stays as it is. COMBINE_LAND (R148, R173): the oldest combine's image is added to
its tile; the other tiles stay. -/
def Obligations.RowsAndImagesAreAdded : Prop :=
  (∀ (s : State) (src : Source) (f : Fin 68) (o : BitVec 24) (v : BitVec 64), windowOpen s src f = true →
    Answers (.tileWindowWrite src f o v) s (· = tileWrite s src f o.toNat v.toNat))
  ∧ (∀ (s : State) (f : Fin 68) (k : Conv), firstDelivered (getFold s f).convs = some k → due s (k.op.lat + 48) = true →
    let ks := ((getFold s f).convs.filter (fun q => sameAdd k.op q.op)).filter (fun q => !q.op.masked && !q.op.noAdd)
    let y := (getFold s f).tile k.op.tile
    Answers (.addAlign f .ok) s (fun t =>
      (getFold t f).convs = (getFold s f).convs.filter (fun q => !sameAdd k.op q.op)
        ∧ (ks = [] → (getFold t f).tiles = (getFold s f).tiles)
        ∧ (ks ≠ [] → ((getFold t f).tile k.op.tile).m = (addRow k.op.row ks y).tile.m
            ∧ ((getFold t f).tile k.op.tile).te = (addRow k.op.row ks y).tile.te
            ∧ ((getFold t f).tile k.op.tile).convs = if y.windowed then [] else y.convs ++ ks)
        ∧ (∀ j, j ≠ k.op.tile → (getFold t f).tile j = (getFold s f).tile j) ∧ OnlyFolds [f] s t ∧ Only [.regs, .folds, .pause] s t))
  ∧ (∀ (s : State) (f : Fin 68) (k : Combine) (rest : List Combine), (getFold s f).combines = k :: rest → due s (k.c + 32) = true →
    Answers (.combineLand f) s (fun t =>
      (getFold t f).combines = rest
        ∧ ((getFold t f).tile k.tile).m = (redAdd ((getFold s f).tile k.tile) k.operand).tile.m
        ∧ ((getFold t f).tile k.tile).te = (redAdd ((getFold s f).tile k.tile) k.operand).tile.te
        ∧ (∀ j, j ≠ k.tile → (getFold t f).tile j = (getFold s f).tile j) ∧ OnlyFolds [f] s t ∧ Only [.regs, .folds, .pause] s t))

/-- RESOLVE_WINDOW_END (R122, R123): the window that ends next ends, its slots count, and the device pauses for the work that goes on past
it, and only for that. TRND_DELIVER (R172): the outputs stand in the vector store row by row, no other byte changes, and the close bit
ends the claim. -/
def Obligations.RoundingResolvesAndDelivers : Prop :=
  (∀ (s : State) (f : Fin 68) (q : Trnd), nextWindow (getFold s f) = some q → due s (windowStop q) = true →
    let e := endWindow (getFold s f) q
    Answers (.resolveWindowEnd f false) s (fun t =>
      (getFold t f).trnds = e.1.trnds.map (fun u => if u.c = q.c then { u with ref := resolvedTile s f q } else u)
        ∧ (getFold t f).resolveEnd = e.1.resolveEnd ∧ (getFold t f).tiles = (getFold s f).tiles
        ∧ (rd s (foldPg f) F.RES_SLOT_CNT + q.slots < 2 ^ 32 - 1 → rd t (foldPg f) F.RES_SLOT_CNT = rd s (foldPg f) F.RES_SLOT_CNT + q.slots)
        ∧ (e.2 = 0 → t.pause = s.pause ∧ t.log = s.log) ∧ (0 < e.2 → frozen t = true)
        ∧ OnlyFolds [f] s t ∧ Only [.regs, .views, .log, .folds, .pause] s t))
  ∧ (∀ (s : State) (f : Fin 68) (q : Trnd), nextOutputs (getFold s f) = some q → due s (trndTime q) = true →
    let n := rowBytes (fmtOf q.fo)
    Answers (.trndDeliver f) s (fun t =>
      (getFold t f).trnds = (getFold s f).trnds.filter (fun u => u.c != q.c)
        ∧ (q.dst + 16 * n ≤ vsSize → ∀ v ∈ maskRows q.rows, readBytes t (vsAddr f (q.dst + v * n)) n =
            packRow (cols.map (fun c => encodeFmt (outputOf q (256 * v + c)) (fmtOf q.fo))) (fmtOf q.fo))
        ∧ OnlyBytes (fun a => vsAddr f q.dst ≤ a ∧ a < vsAddr f (q.dst + 16 * n)) s t
        ∧ (q.close = true → ((getFold t f).tile q.tile).open_ = false)
        ∧ (∀ j, j ≠ q.tile → (getFold t f).tile j = (getFold s f).tile j) ∧ OnlyFolds [f] s t
        ∧ Only [.regs, .views, .log, .mem, .fresh, .folds] s t))

/-! ## Data in flight and pauses -/

/-- DATA_VISIBLE (R22, R23, R331): the earliest data of a fold's transfers or of a link, once its cycle has come, stands in memory and is
in flight no more; data that is not late pauses nothing, and a poisoned line that it covers whole holds data again (R258). A link's receiver may answer with a flit that carries its stop bit (R333).
HWR_COMPLETE (R245) ends the earliest write to HBM. PAUSE_RELEASE (R138, R160): the pause ends after its longest source, and every fold
has seen as many cycles. -/
def Obligations.FlightsLandAndPausesEnd : Prop :=
  ((∀ (s : State) (f : Fin 68) (x : Xfer), firstXfer (fun x => !x.hwr) (getFold s f).xfers = some x → due s (x.vis + 1) = true →
    Answers (.dataVisible (.fold f) 0 .none) s (fun t =>
      (∀ j, j < x.data.length → isMem s (x.dst + j) = true → droveByte t (x.dst + j) = x.data.getD j 0)
        ∧ OnlyBytes (fun a => x.dst ≤ a ∧ a < x.dst + x.data.length) s t
        ∧ (getFold t f).xfers = dropXfer (· == x) (getFold s f).xfers ∧ OnlyFolds (f.val :: (stagingFold x.dst).toList) s t
        ∧ t.care = { s.care with bad := s.care.bad.filter (fun e => !lineIn x.dst x.data.length e.2) } ∧ Only [.mem, .fresh, .folds, .care] s t))
  ∧ (∀ (s : State) (l : Fin 96) (x : Landing), firstLanding (getLink s l).landing = some x → due s (x.vis + 1) = true →
    Answers (.dataVisible (.link l) 0 .none) s (fun t =>
      (∀ j, j < x.data.length → isMem s (x.addr + j) = true → droveByte t (x.addr + j) = x.data.getD j 0)
        ∧ OnlyBytes (fun a => x.addr ≤ a ∧ a < x.addr + x.data.length) s t
        ∧ (getLink t l).landing = dropLanding x (getLink s l).landing ∧ (∀ i, i ≠ l.val → getLink t i = getLink s i)
        ∧ (rd s (linkPg l) F.LINK_STATE_STOP = b2n (decide (448 ≤ ((getLink s l).landing.length - 1))) → t.out = s.out ∧ t.regs = s.regs)
        ∧ OnlyFolds (stagingFold x.addr).toList s t ∧ Only [.regs, .mem, .fresh, .folds, .care, .links, .out] s t))
  ∧ (∀ (s : State) (f : Fin 68) (x : Xfer), firstXfer (·.hwr) (getFold s f).xfers = some x → due s (x.vis + 1) = true →
    Answers (.hwrComplete f) s (fun t =>
      (getFold t f).xfers.length + 1 = (getFold s f).xfers.length
        ∧ ((∀ g y, y ∈ (getFold s g).xfers → y.hwr = true → x.c ≤ y.c) →
            (getFold t f).xfers = dropXfer (· == x) (getFold s f).xfers ∧ OnlyFolds [f] s t)
        ∧ Only [.folds] s t)))
  ∧ (∀ s : State, 0 < owedCycles s → Answers .pauseRelease s (fun t =>
      owedCycles t = 0 ∧ t.pause.taken = s.pause.taken + owedCycles s ∧ (∀ e ∈ s.pause.owed, e.2 ≤ t.pause.taken - s.pause.taken)
        ∧ (∀ f, f < 68 → rd s (foldPg f) F.PAUSE_SEEN_CYC + owedCycles s < 2 ^ 32 - 1 →
            rd t (foldPg f) F.PAUSE_SEEN_CYC = rd s (foldPg f) F.PAUSE_SEEN_CYC + owedCycles s)
        ∧ (s.power.droop = false → t.power = s.power ∧ t.free = s.free) ∧ Only [.free, .regs, .tally, .pause, .power] s t))

/-! ## The tile window and calibration -/

/-- FOLD_STATE (R146, R152): pen 0 gives a fold that serves no slot a state of 0 to 2; any other write of a source that sees the page leaves
the state and is an access error. TILE_WINDOW_WRITE (R147, R516): an element, a doubt or the marks of the tile at the offset are stored, and
the tile counts as written by the window; an element that is no sign-extended 40-bit number, and an offset that names nothing, are access
errors and change no tile; in SERVICE, and for a source that does not see the fold's page, the write is ignored. -/
def Obligations.FoldStateAndTileWindow : Prop :=
  (∀ (s : State) (src : Source) (f : Fin 68) (v : BitVec 2),
    let may := srcPen src = 0 ∧ slotOfFold s f = none ∧ v.toNat < 3
    (seesPage s src (foldPg f) = true → may → Answers (.foldState src f v) s (fun t =>
      rd t (foldPg f) F.FOLD_STATE = v.toNat ∧ OnlyIn [] [(foldPg f, F.FOLD_STATE, 0)] s t))
    ∧ (seesPage s src (foldPg f) = true → ¬may → Answers (.foldState src f v) s (fun t =>
      rd t (foldPg f) F.FOLD_STATE = rd s (foldPg f) F.FOLD_STATE ∧ bit (rd t (foldPg f) F.ERR_SUM) 0 = true
        ∧ Only [.regs, .views, .log] s t))
    ∧ (seesPage s src (foldPg f) = false → Answers (.foldState src f v) s (· = s)))
  ∧ (∀ (s : State) (src : Source) (f : Fin 68) (o : BitVec 24) (v : BitVec 64),
    (windowOpen s src f = true →
      (∀ j k, j < 128 → k < 4096 → o.toNat = 0x8000 * j + 8 * k →
        (bits v.toNat 39 25 = 0 ∨ bits v.toNat 39 25 = 2 ^ 25 - 1 → Answers (.tileWindowWrite src f o v) s (fun t =>
          getD 0 ((getFold t f).tile j).m k = toSigned v.toNat 40 ∧ ((getFold t f).tile j).windowed = true
            ∧ (∀ i, i ≠ k → getD 0 ((getFold t f).tile j).m i = getD 0 ((getFold s f).tile j).m i)
            ∧ (∀ i, i ≠ j → (getFold t f).tile i = (getFold s f).tile i) ∧ OnlyFolds [f] s t ∧ Only [.folds] s t))
        ∧ (bits v.toNat 39 25 ≠ 0 → bits v.toNat 39 25 ≠ 2 ^ 25 - 1 → Answers (.tileWindowWrite src f o v) s (fun t =>
          bit (rd t (foldPg f) F.ERR_SUM) 0 = true ∧ Only [.regs, .views, .log] s t)))
      ∧ (∀ j k, j < 128 → k < 4096 → o.toNat = 0x400000 + 0x2000 * j + 2 * k → Answers (.tileWindowWrite src f o v) s (fun t =>
          getD 0 ((getFold t f).tile j).b k = v.toNat % 65536 ∧ ((getFold t f).tile j).windowed = true
            ∧ (∀ i, i ≠ k → getD 0 ((getFold t f).tile j).b i = getD 0 ((getFold s f).tile j).b i)
            ∧ (∀ i, i ≠ j → (getFold t f).tile i = (getFold s f).tile i) ∧ OnlyFolds [f] s t ∧ Only [.folds] s t))
      ∧ (∀ j, j < 128 → o.toNat = 0x500000 + 8 * j → Answers (.tileWindowWrite src f o v) s (fun t =>
          marksWord ((getFold t f).tile j) = v.toNat % 2 ^ 39 ∧ ((getFold t f).tile j).windowed = true
            ∧ ((getFold t f).tile j).m = ((getFold s f).tile j).m ∧ ((getFold t f).tile j).b = ((getFold s f).tile j).b
            ∧ (∀ i, i ≠ j → (getFold t f).tile i = (getFold s f).tile i) ∧ OnlyFolds [f] s t ∧ Only [.folds] s t))
      ∧ ((∀ j k, j < 128 → k < 4096 → o.toNat ≠ 0x8000 * j + 8 * k ∧ o.toNat ≠ 0x400000 + 0x2000 * j + 2 * k ∧ o.toNat ≠ 0x500000 + 8 * j) →
          Answers (.tileWindowWrite src f o v) s (fun t => bit (rd t iodPg F.ERR_SUM) 0 = true ∧ Only [.regs, .views, .log] s t)))
    ∧ (rd s (foldPg f) F.FOLD_STATE = 0 ∨ seesPage s src (foldPg f) = false → Answers (.tileWindowWrite src f o v) s (· = s)))

/-- ZERO_INPUT_CONVERSION (R36, R56) on a fold whose arrays run is one more of an open window, and opens none. CAL_FORCE and CAL_PERIOD_EXPIRY (R51, R52) are kept for the fold's next tick boundary, or under CAL_HOLD for the first without it, and
change nothing else, but that a host's CAL_FORCE waits to be journaled as CONFIG (R408). CAL_WINDOW_CLOSE and CAL_WINDOW_TIMEOUT (R54, R57 to R59): a window that has gathered enough closes; a set within the
limits is kept for the second tick boundary, and any other set is rejected with its window. -/
def Obligations.CalibrationWindowsClose : Prop :=
  (∀ (s : State) (f : Fin 68) (a : Fin 16), arraysRun s f = true → Answers (.zeroInputConversion f a) s (fun t =>
    ((getFold t f).arr a).win.map (·.nz) = ((getFold s f).arr a).win.map (fun w => if w.closed.isNone then w.nz + 1 else w.nz)
      ∧ ((getFold t f).arr a).g = ((getFold s f).arr a).g ∧ ((getFold t f).arr a).o = ((getFold s f).arr a).o
      ∧ Only [.free, .regs, .folds, .flocks, .care] s t))
  ∧ (∀ (s : State) (f : Fin 68),
    (∀ src, seesPage s src (foldPg f) = true → Answers (.calForce src f) s (fun t =>
      getFold t f = (if rd s (foldPg f) F.ARR_CAL_CTRL_HOLD = 1 then { getFold s f with forceHeld := true } else { getFold s f with force := true })
        ∧ t.drover = { s.drover with latch := s.drover.latch ++
            (if hostWrite src then [.config (foldPg f) 0x400 (wordValue s (foldPg f) 0x400 + 8192)] else []) }
        ∧ OnlyFolds [f] s t ∧ Only [.folds, .drover] s t))
    ∧ Answers (.calPeriodExpiry f) s (fun t =>
      getFold t f = { getFold s f with period := true } ∧ OnlyFolds [f] s t ∧ Only [.folds] s t))
  ∧ (∀ (s : State) (f : Fin 68) (a : Fin 16) (w : Machine.Window), ((getFold s f).arr a).win = some w → w.closed = none → 256 ≤ w.nz →
    let y := (getFold s f).arr a
    let q := candidates y w (Config.analogue s.free)
    let ok := gainsOk (gainsOf y) q.1 && offsetsOk (offsetsOf y) q.2.1
    ∀ c, (c = Instr.calWindowClose f a ∧ 65536 ≤ w.np) ∨ (c = Instr.calWindowTimeout f a ∧ w.opened + 4096 ≤ s.tally.fires) →
      Answers c s (fun t =>
        (ok = true → ((getFold t f).arr a).win = some { w with closed := some ⟨q.1, q.2.1, s.tally.fires + 2⟩ })
          ∧ (ok = false → ((getFold t f).arr a).win = none ∧ ((getFold t f).arr a).rejects = y.rejects + 1
              ∧ rdBit t (foldPg f) F.ARR_CALREJ 0 a = true)
          ∧ ((getFold t f).arr a).g = y.g ∧ ((getFold t f).arr a).o = y.o ∧ ((getFold t f).arr a).sigma = q.2.2
          ∧ t.free = s.free + 1 ∧ OnlyFolds [f] s t ∧ Only [.free, .regs, .folds] s t))

/-- CAL_APPLY (R59, R68, R69): at its boundary a passing set becomes the trims of its array, and the array is no longer stale; under a broken
sensor the next window opens at once. A set that the hardware check refuses is an access error, and the trims stay (R375). BOOT_CALIBRATION
(R50, R57, R61, R69): the results of every array that keeps within the limits of its reference become its trims at the next tick boundary, or
at once while no ticks fire; an array that does not keeps its trims, no calibration is due any more, and a fold that serves no slot and has
such an array is quarantined. -/
def Obligations.CalibrationSetsApply : Prop :=
  (∀ (s : State) (f : Fin 68) (a : Fin 16) (w : Machine.Window) (k : Candidates), ((getFold s f).arr a).win = some w → w.closed = some k →
    k.due = s.tally.fires → roleOf s f = roleServing →
    (trimsOk s f a k.g k.o = false → Answers (.calApply f a) s (fun t =>
      ((getFold t f).arr a).g = ((getFold s f).arr a).g ∧ ((getFold t f).arr a).o = ((getFold s f).arr a).o ∧ ((getFold t f).arr a).win = none
        ∧ bit (rd t (foldPg f) F.ERR_SUM) 0 = true ∧ OnlyFolds [f] s t ∧ Only [.regs, .views, .log, .folds] s t))
    ∧ (trimsOk s f a k.g k.o = true → Answers (.calApply f a) s (fun t =>
      (∀ c, c < 256 → getD 16384 ((getFold t f).arr a).g c = k.g.getD c 16384 ∧ getD 0 ((getFold t f).arr a).o c = k.o.getD c 0)
        ∧ (sampleFault s f = false → ((getFold t f).arr a).win = none)
        ∧ (sampleFault s f = true → ∃ w', ((getFold t f).arr a).win = some w' ∧ w'.closed = none ∧ w'.nz = 0 ∧ w'.np = 0)
        ∧ rd t (foldPg f) F.ARR_BOUND_STALE a = 0 ∧ trefOf t f a = sampleOf s f
        ∧ (∀ b, b ≠ a.val → (getFold t f).arr b = (getFold s f).arr b) ∧ OnlyFolds [f] s t ∧ Only [.regs, .folds] s t)))
  ∧ (∀ (s : State) (f : Fin 68) (rs : List CalResult), calWaits s f = true → hasSample s f = true → roleOf s f ≠ roleRetired →
    let r := fun (a : Nat) => rs.getD a ⟨[], [], [], 0, [], []⟩
    Answers (.bootCalibration f rs) s (fun t =>
      (∀ a, a < 16 → calPasses s f a (r a) = true → ticking s = true → ((getFold t f).arr a).pend = some (r a, sampleOf s f)
        ∧ ((getFold t f).arr a).g = ((getFold s f).arr a).g ∧ ((getFold t f).arr a).o = ((getFold s f).arr a).o)
      ∧ (∀ a, a < 16 → calPasses s f a (r a) = true → ticking s = false →
        (∀ c, c < 256 → getD 16384 ((getFold t f).arr a).g c = (r a).g.getD c 16384 ∧ getD 0 ((getFold t f).arr a).o c = (r a).o.getD c 0)
          ∧ ((getFold t f).arr a).sigma = calSigma (r a))
      ∧ (∀ a, a < 16 → calPasses s f a (r a) = false → ((getFold t f).arr a).g = ((getFold s f).arr a).g ∧ ((getFold t f).arr a).o = ((getFold s f).arr a).o)
      ∧ (getFold t f).calDue = false ∧ (getFold t f).tiles = (getFold s f).tiles
      ∧ ((∀ a, a < 16 → calPasses s f a (r a) = true) → OnlyFolds [f] s t ∧ Only [.free, .regs, .folds, .care] s t)
      ∧ ((∃ a, a < 16 ∧ calPasses s f a (r a) = false) → slotOfFold s f = none →
          roleOf t f = if rd s (foldPg f) F.FOLD_ROLE_QUAR = 1 then roleRetired else roleQuarantined)
      ∧ Only [.free, .regs, .folds, .flocks, .care] s t))
  ∧ (∀ (s : State) (f a : Nat) (r : CalResult) (x : Int), a < 16 → ((getFold s f).arr a).pend = some (r, x) →
    let t := boundaryBoot s f a
    (∀ c, c < 256 → getD 16384 ((getFold t f).arr a).g c = r.g.getD c 16384 ∧ getD 0 ((getFold t f).arr a).o c = r.o.getD c 0)
      ∧ ((getFold t f).arr a).sigma = calSigma r ∧ ((getFold t f).arr a).pend = none
      ∧ (∀ b, b ≠ a → (getFold t f).arr b = (getFold s f).arr b) ∧ OnlyFolds [f] s t ∧ Only [.free, .regs, .folds] s t)

/-! ## Silent errors -/

/-- COLLIE_BLOCK_CLOSE (R370 to R372): a full block is emptied; when its block test and row tests pass nothing else changes, and
when one fails the verdict is ARRAY on this fold and array. AUDIT_SAMPLE (R121, R373): one unclipped column of the array's audited
conversion is compared once in a step with the Resolve unit's value, the first audit of a fold's step books a Resolve cycle; a column inside its
bound changes nothing else but the count, and one outside it is counted and gets a record of its own. -/
def Obligations.BlockTestsAndAudits : Prop :=
  (∀ (s : State) (f : Fin 68) (a : Fin 16), 8192 ≤ ((getFold s f).arr a).blk.n →
    let b := ((getFold s f).arr a).blk
    let tr : Rat := rd s testPg F.COLLIE_CFG_TR
    let tt : Rat := rd s testPg F.COLLIE_CFG_TT
    let passes := b.q2 / 8192 ≤ tr * tr ∧ ∀ r, r < 1024 → 8192 ≤ getD 0 b.sa r →
      getD 0 b.sq r * getD 0 b.sq r ≤ tt * tt * (b.pp / 8192) * ((getD (0 : Int) b.sa r : Int) : Rat)
    Answers (.collieBlockClose f a) s (fun t =>
      ((getFold t f).arr a).blk = CollieBlock.empty
        ∧ (passes → OnlyFolds [f] s t ∧ Only [.folds] s t)
        ∧ (¬passes → rd t testPg F.ARB_LAST_VERDICT = 3 ∧ rd t testPg F.ARB_LAST_FOLD = f.val ∧ rd t testPg F.ARB_LAST_ARRAY = a.val
            ∧ rd t (foldPg f) F.FOLD_ROLE_ARRAY = a.val)
        ∧ Only [.regs, .views, .log, .folds, .flocks, .care] s t))
  ∧ (∀ (s : State) (f : Fin 68) (a : Fin 16) (k : Conv) (d : ConvData) (c : Nat), ((getFold s f).arr a).audit = some k →
    ((getFold s f).arr a).audited = false → k.data = some d →
    auditColumn d.codes ((67 * ((foldFlock s f).map (fun q => (getFlock s q).num)).getD 0 + 16 * a + 5 * (slotOfFold s f).getD 0) % 256) = some c →
    rd s (foldPg f) F.AUDIT_CNT < 2 ^ 32 - 2 → rd s (foldPg f) F.AUDIT_FAIL_CNT < 2 ^ 32 - 2 →
    let out := outOfBound d (resolvedColumn s f d c) c
    Answers (.auditSample f a) s (fun t =>
      ((getFold t f).arr a).audited = true ∧ rd t (foldPg f) F.AUDIT_CNT = rd s (foldPg f) F.AUDIT_CNT + 1
        ∧ (getFold t f).resBooks = (if (getFold s f).arrays.any (fun e => e.2.audited) then (getFold s f).resBooks
            else (bookAudit (getFold s f) (clock s)).resBooks)
        ∧ (out = false → rd t (foldPg f) F.AUDIT_FAIL_CNT = rd s (foldPg f) F.AUDIT_FAIL_CNT ∧ OnlyFolds [f] s t ∧ Only [.regs, .folds] s t)
        ∧ (out = true → rd t (foldPg f) F.AUDIT_FAIL_CNT = rd s (foldPg f) F.AUDIT_FAIL_CNT + 1
            ∧ ∃ y ∈ t.care.disputes, y.fold = f.val ∧ y.array = a.val ∧ y.data = d ∧ y.bundle = k.op.bundle ∧ y.direct = true)
        ∧ Only [.regs, .folds, .flocks, .care] s t))

/-- Arbitration (R379, R380): stage 1 forms the row sums again from staging, with verdict ROWSUM and the dispute gone when they differ
and the dispute located when they agree; stage 3 ends the dispute with its verdict. -/
def Obligations.ArbitrationReachesAVerdict : Prop :=
  (∀ (s : State) (f : Fin 68) (a : Fin 16) (x : Dispute),
    s.care.disputes.find? (fun y => y.fold == f.val && y.array == a.val && !y.located) = some x →
    let sums := (List.range x.data.drive.length).map (stagingRowSum s f x.data)
    Answers (.arbitrationStage1 f a) s (fun t =>
      (sums ≠ x.data.held → rd t testPg F.ARB_LAST_VERDICT = 1 ∧ rd t testPg F.ARB_LAST_FOLD = f.val ∧ rd t testPg F.ARB_LAST_ARRAY = a.val
        ∧ t.care.disputes = dropDispute (fun y => y.fold == f.val && y.array == a.val && !y.located) s.care.disputes)
      ∧ (sums = x.data.held → ({ x with located := true } : Dispute) ∈ t.care.disputes
        ∧ rd t testPg F.ARB_LAST_VERDICT = rd s testPg F.ARB_LAST_VERDICT)
      ∧ Only [.regs, .views, .log, .folds, .flocks, .care] s t))
  ∧ (∀ (s : State) (f : Fin 68) (a : Fin 16) (x : Dispute),
    s.care.disputes.find? (fun y => y.fold == f.val && y.array == a.val && y.located) = some x →
    s.care.fills.any (fun y => y.slot == x.slot) = false →
    Answers (.arbitrationStage3 f a) s (fun t =>
      rd t testPg F.ARB_LAST_VERDICT = verdictOf s ((foldOfSlot s x.slot).getD f) x ∧ rd t testPg F.ARB_LAST_FOLD = f.val
        ∧ t.care.disputes = dropDispute (fun y => y.fold == x.fold && y.array == x.array && y.located) s.care.disputes
        ∧ Only [.free, .regs, .views, .log, .mem, .fresh, .folds, .flocks, .care, .weights, .net, .out] s t))

/-- Substitution (R382 to R385): a fill completes once its copy holds every line; a copy that has lost one for good leaves the spare free
again and its slot failed; a fill that a replay's pause covers switches as it completes. The end of a spare's switch takes its request from
the device's pause, and ends the pause when no other is as long; it waits for the fill that the pause covers. -/
def Obligations.SparesFillAndSwitch : Prop :=
  (∀ (s : State) (g : Fin 68) (bad : List LineErr) (x : Fill), s.care.fills.find? (fun y => y.spare == g.val && !y.done) = some x → x.slot < 64 →
    let u := restoreLines (forEach s bad (fun s e => lineError s none e))
    let lost := bad.any (fillLost x.fold) || u.care.bad.any (fun e => stagingFold e.2 == some x.fold)
    Answers (.spareFillDone g bad) s (fun t =>
      (lost = false → x.due = false → ({ x with left := 0, done := true } : Fill) ∈ t.care.fills)
        ∧ (lost = false → x.due = true → t = switchLate (finishFill s x bad) x)
        ∧ (lost = true → roleOf t g = roleSpare ∧ (∀ y ∈ t.care.fills, y.spare ≠ g.val)
            ∧ (if x.slot < 32 then rdBit t testPg F.SLOT_FAILED_LO 0 x.slot else rdBit t testPg F.SLOT_FAILED_HI 0 (x.slot - 32)) = true)
        ∧ (bad = [] → s.care.bad = [] → x.due = false → Only [.care] s t)
        ∧ Only [.free, .regs, .views, .log, .mem, .fresh, .folds, .flocks, .drover, .tally, .pause, .care, .weights, .seg] s t))
  ∧ (∀ (s : State) (g : Fin 68),
    let k := pauseKey (6000 + g.val) causeSwitch
    let n := getD 0 s.pause.owed k
    let other := (dropKey s.pause.owed k).foldl (fun m e => max m e.2) 0
    let waits := s.care.fills.any (fun x => x.spare == g.val && x.due)
    (waits = true → Answers (.spareSwitchEnd g) s (· = s)) ∧ (n ≠ 0 → waits = false → Answers (.spareSwitchEnd g) s (fun t =>
      (n ≤ other → t.pause = { s.pause with owed := dropKey s.pause.owed k } ∧ Only [.pause] s t)
        ∧ (other < n → owedCycles t = 0 ∧ t.pause.taken = s.pause.taken + n
          ∧ ∀ f, f < 68 → rd s (foldPg f) F.PAUSE_SEEN_CYC + n < 2 ^ 32 - 1 → rd t (foldPg f) F.PAUSE_SEEN_CYC = rd s (foldPg f) F.PAUSE_SEEN_CYC + n)
        ∧ Only [.regs, .pause] s t)))

/-- Tests (R146, R388 to R392): a fold that serves no slot takes the state that pen 0 writes to FOLD_STATE; ROTATION and QUARANTINE_TEST_START put a fold under test, SCAN_TEST_DONE retires a fold whose scan or calibration
fails and frees one that passes (a fold that no fill and no waiting test names), TEST_OVERDUE reports a fold deferred too long, and RETIRE retires the fold that RETIRE_REQ names. -/
def Obligations.TestsMoveFoldRoles : Prop :=
  (∀ (s : State) (src : Source) (f : Fin 68) (v : BitVec 2), seesPage s src (foldPg f) = true → srcPen src = 0 → slotOfFold s f = none → v ≠ 3 →
    Answers (.foldState src f v) s (fun t => rd t (foldPg f) F.FOLD_STATE = v.toNat ∧ roleOf t f = roleOf s f ∧ Only [.regs] s t))
  ∧ (∀ (s : State) (die : Fin 2) (f : Nat), rd s testPg F.ROT_CTRL_EN = 1 → dieTesting s die = false →
    s.care.fills.any (fun x => dieOf x.spare == die.val && x.why == 0) = false →
    (foldsOf die).any (fun f => roleOf s f == roleQuarantined && !s.care.released.contains f) = false → oldestFold s die = some f →
    roleOf s f = roleSpare ∨ (roleOf s f = roleServing ∧ ∃ k, slotOfFold s f = some k ∧ slotUsed s k = false) →
    Answers (.rotation die) s (fun t => roleOf t f = roleTesting ∧ rd t (foldPg f) F.FOLD_STATE = 1 ∧ Only [.regs] s t))
  ∧ (∀ (s : State) (f : Fin 68), roleOf s f = roleQuarantined → dieTesting s (dieOf f) = false → s.care.released.contains f.val = false →
    serviceWaits s .tests = false → Answers (.quarantineTestStart f) s (fun t => roleOf t f = roleTesting ∧ rd t (foldPg f) F.FOLD_STATE = 1 ∧ Only [.regs] s t))
  ∧ (∀ (s : State) (f : Fin 68) (scan : Bool) (rs : List CalResult), roleOf s f = roleTesting → hasSample s f = true →
    s.care.forced.contains f.val = false → s.care.fills.all (fun y => y.spare != f.val) = true →
    let ok := scan && (List.range 16).all (fun a => calPasses s f a (rs.getD a ⟨[], [], [], 0, [], []⟩))
    Answers (.scanTestDone f scan rs) s (fun t =>
      rd t (foldPg f) F.FOLD_STATE = 0
        ∧ (ok = false → roleOf t f = roleRetired ∧ bit (rd t testPg F.ERR_SUM) 5 = true
            ∧ (rd s testPg F.TEST_FAIL_CNT < 2 ^ 32 - 2 → rd t testPg F.TEST_FAIL_CNT = rd s testPg F.TEST_FAIL_CNT + 1))
        ∧ (ok = true → roleOf t f = (if (testSlot s f).isSome then roleServing else roleSpare)
            ∧ rd t (foldPg f) F.LAST_TEST_LO = s.tally.num % 2 ^ 32
            ∧ (rd s testPg F.TEST_PASS_CNT < 2 ^ 32 - 2 → rd t testPg F.TEST_PASS_CNT = rd s testPg F.TEST_PASS_CNT + 1))))
  ∧ (∀ (s : State) (f : Fin 68) (k : Nat), slotOfFold s f = some k → slotUsed s k = true → sparesOf s (dieOf f) = [] →
    rdBit s testPg F.TEST_OVERDUE (f / 32) (f % 32) = false → Answers (.testOverdue f) s (fun t =>
      rdBit t testPg F.TEST_OVERDUE (f / 32) (f % 32) = true ∧ bit (rd t testPg F.ERR_SUM) 4 = true
        ∧ rd t logPg F.LOG_INDEX = (rd s logPg F.LOG_INDEX + 1) % 2 ^ 32 ∧ Only [.regs, .views, .log] s t))
  ∧ (∀ (s : State) (src : Source), seesPage s src testPg = true → s.care.droveRan = false → rd s testPg F.RETIRE_REQ_FOLD ≤ 67 →
    slotOfFold s (rd s testPg F.RETIRE_REQ_FOLD) = none → Answers (.retire src) s (fun t =>
      roleOf t (rd s testPg F.RETIRE_REQ_FOLD) = roleRetired ∧ Only [.regs] s t))

/-! ## The tally -/

namespace Sys2Proof.Claims

/-- A flit arrives on a link that is UP: FEC accepts it, it carries no NACK, it has the sequence that the link expects, and no flit of the
link waits for room in its replay buffer. -/
def arrives (s : State) (l : Nat) (h : FlitHead) : Prop :=
  linkUp s l = true ∧ h.fec = false ∧ h.nack = false ∧ h.seq.toNat = (getLink s l).rxSeq ∧ (getLink s l).held = []

/-- A marker flit of this device's domain arrives so, with a payload that its CRC covers. -/
def marked (s : State) (l : Nat) (h : FlitHead) (m : Marker) (payload : List Byte) : Prop :=
  arrives s l h ∧ headCrcOk h 2 false (zeroBytes 10) payload = true ∧ m.domain = rd s tallyPg F.TALLY_DOMAIN_ID

/-- The device has a parent on a link that can take a flit now. -/
def parentUp (s : State) : Prop :=
  rd s tallyPg F.TALLY_LINKS_PVALID = 1 ∧ linkUp s (rd s tallyPg F.TALLY_LINKS_PARENT) = true
    ∧ (getLink s (rd s tallyPg F.TALLY_LINKS_PARENT)).buffer.length < 512

/-- The bytes of a marker on the link to the parent. -/
def toParent (s : State) (kind : Nat) (m : Marker) : Out :=
  let p := rd s tallyPg F.TALLY_LINKS_PARENT
  .flit p ((getLink s p).flit (getLink s p).txSeq (.marker kind m))

/-- The notes of the markers seen, once one of a kind has come on a link. -/
def noted (s : State) (kind link num : Nat) : SMap Copy := insKey s.tally.seen kind { num := num, link := link, both := false }

end Sys2Proof.Claims

/-- TICK_FIRE (R204, R209): the bellwether locks at its first fire (the model's choice: log entry 22); a tick of RUN whose fire nothing
delays any more fires at the timebase that is due, and the tally number goes up by one; in LOCKED a tick fires a period later and the
number stays; a fire that something delays does not come yet (the model's choice: log entry 87). At the fire that ends a step's last tick
(R225, R227, R229, R519) a step that commits gives its flock the next number; a step that is replayed keeps its number and counts one more
attempt; a step that is held leaves its flock held. In any other tick the step goes on to its next position. -/
def Obligations.TicksFireInOrder : Prop :=
  (∀ s : State, tallyState s = 1 → isRoot s = true →
    Answers .tickFire s (fun t => tallyState t = 2 ∧ t.tally.fire = s.tally.tb ∧ t.tally.num = s.tally.num
      ∧ rd t tallyPg F.TALLY_STATE_DEPTH = 0 ∧ Only [.free, .regs, .tally] s t))
  ∧ (∀ s : State, tallyState s = 3 → mayFire s = true →
    Answers .tickFire s (fun t => t.tally.num = s.tally.num + 1 ∧ t.tally.fires = s.tally.fires + 1 ∧ t.tally.tb = nextFire s ∧ t.tally.fire = nextFire s
      ∧ t.tally.q = none ∧ t.tally.next = none ∧ t.tally.cutoff = false ∧ t.tally.sent = false ∧ t.tally.paged = 0))
  ∧ (∀ s : State, tallyState s = 2 → mayFire s = true → s.tally.start = false →
    Answers .tickFire s (fun t => t.tally.num = s.tally.num ∧ t.tally.fires = s.tally.fires + 1 ∧ t.tally.tb = nextFire s ∧ t.tally.fire = nextFire s))
  ∧ (∀ s : State, s.tally.next = none → nextFire s = s.tally.fire + tickU s)
  ∧ (∀ s : State, ¬(tallyState s = 1 ∧ isRoot s = true) → mayFire s = false → Answers .tickFire s (· = s))
  ∧ (∀ (s : State) (k : Nat), k < 16 →
    (lastTick s k = false → endStep s k = modFlock s k (fun x => { x with pos := x.pos + 1 }))
    ∧ (lastTick s k = true → (getFlock s k).decision = 1 →
        (getFlock (endStep s k) k).num = (getFlock s k).num + 1 ∧ (getFlock (endStep s k) k).attempts = 0 ∧ (getFlock (endStep s k) k).replay = false
          ∧ (getFlock (endStep s k) k).pos = 0 ∧ (getFlock (endStep s k) k).fault = 0)
    ∧ (lastTick s k = true → (getFlock s k).decision = 2 →
        (getFlock (endStep s k) k).num = (getFlock s k).num ∧ (getFlock (endStep s k) k).attempts = (getFlock s k).attempts + 1
          ∧ (getFlock (endStep s k) k).replay = true ∧ (getFlock (endStep s k) k).phase = (getFlock s k).phase
          ∧ (getFlock (endStep s k) k).pos = 0 ∧ (getFlock (endStep s k) k).fault = 0)
    ∧ (lastTick s k = true → (getFlock s k).decision = 3 →
        (getFlock (endStep s k) k).phase = 4 ∧ (getFlock (endStep s k) k).num = (getFlock s k).num
          ∧ ∀ e ∈ (getFlock s k).entries, (getDrove (endStep s k) e).st = 4))

/-- TALLY_ENABLE and TALLY_START (R209, R238): enabling an OFF unit starts ACQUIRE; disabling it stops every drove and clears the
tally number; START waits for the bellwether's next idle fire. MARKER_MISSING (R209): in RUN a device that misses TICK, a DECIDE for
an undecided tick, or a COMMIT for a flock past its commit point loses the tally; no drove then runs. -/
def Obligations.TallyIsEnabledAndLost : Prop :=
  (∀ (s : State) (src : Source), seesPage s src tallyPg = true →
    (tallyState s = 0 → Answers (.tallyEnable src true) s (fun t =>
      tallyState t = 1 ∧ OnlyIn [] [(tallyPg, F.TALLY_CTRL_ENABLE, 0), (tallyPg, F.TALLY_STATE_STATE, 0)] s t))
    ∧ (tallyState s ≠ 0 → Answers (.tallyEnable src true) s (fun t =>
      tallyState t = tallyState s ∧ OnlyIn [] [(tallyPg, F.TALLY_CTRL_ENABLE, 0)] s t))
    ∧ Answers (.tallyEnable src false) s (fun t =>
      tallyState t = 0 ∧ t.tally.num = 0 ∧ rd t tallyPg F.TALLY_NUM_LO = 0 ∧ rd t tallyPg F.TALLY_NUM_HI = 0
        ∧ (∀ k, k < 16 → (getFlock s k).entries ≠ [] → (getFlock t k).phase = 4) ∧ Only [.regs, .flocks, .tally] s t)
    ∧ (isRoot s = true → tallyState s = 2 → Answers (.tallyStart src) s (fun t =>
      t.tally = { s.tally with start := true } ∧ Only [.tally] s t))
    ∧ (¬(isRoot s = true ∧ tallyState s = 2) → Answers (.tallyStart src) s (· = s)))
  ∧ (∀ s : State, tallyState s = 3 → isRoot s = false → ∀ w, w = Missing.tick ∨ (w = Missing.decide ∧ s.tally.q = none)
      ∨ (w = Missing.commit ∧ ∃ k, k < 16 ∧ (getFlock s k).done = true ∧ (getFlock s k).decision = 0) →
    Answers (.markerMissing w) s (fun t =>
      tallyState t = 4 ∧ (∀ k, k < 16 → (getFlock s k).entries ≠ [] → (getFlock t k).phase = 4) ∧ bit (rd t tallyPg F.ERR_SUM) 3 = true
        ∧ Only [.regs, .views, .log, .flocks] s t))

/-- TICK (R207 to R209): the first copy acts, in whatever order the parents send: its offset shows; in ACQUIRE it moves the timebase,
and the sixteenth offset in a row within a unit locks the unit; in LOCKED a number starts RUN; in RUN an offset slews the timebase by at
most a 1,024th of a tick, and one past 2,048 loses the tally; in OFF and LOST it is only passed on. Another copy acts on nothing. -/
def Obligations.TickMarkersAlignTheTimebase : Prop :=
  ∀ (s : State) (l : Fin 96) (m : MarkerFlit) (o : Int), marked s l m.head m.body (markerBytes 1 m.body) → fromAbove s l = true →
    (firstCopy s 1 l m.body.num = true →
      (tallyState s = 1 → o.natAbs ≤ 256 → s.tally.good < 15 → Answers (.tick l m o) s (fun t =>
        t.tally.tb = ((s.tally.tb : Int) + o / 256).toNat ∧ t.tally.good = s.tally.good + 1 ∧ tallyState t = 1))
      ∧ (tallyState s = 1 → o.natAbs ≤ 256 → s.tally.good = 15 → m.body.num = 0 → Answers (.tick l m o) s (fun t =>
        tallyState t = 2 ∧ t.tally.fire = m.body.time))
      ∧ (tallyState s = 1 → 256 < o.natAbs → Answers (.tick l m o) s (fun t =>
        t.tally.tb = ((s.tally.tb : Int) + o / 256).toNat ∧ t.tally.good = 0 ∧ tallyState t = 1))
      ∧ (tallyState s = 2 → m.body.num ≠ 0 → Answers (.tick l m o) s (fun t =>
        tallyState t = 3 ∧ t.tally.num = m.body.num ∧ t.tally.fire = m.body.time ∧ rd t tallyPg F.TALLY_NUM_LO = m.body.num % 2 ^ 32))
      ∧ (tallyState s = 3 → o.natAbs ≤ 2048 → Answers (.tick l m o) s (fun t =>
        tallyState t = 3 ∧ t.tally.num = s.tally.num ∧ t.tally.fire = s.tally.fire ∧ t.tally.q = s.tally.q ∧ t.tally.next = s.tally.next
          ∧ t.tally.tb = ((s.tally.tb : Int) + slew s o).toNat ∧ (t.tally.tb : Int) - s.tally.tb ≤ (tickU s / 1024 : Nat)
          ∧ rd t tallyPg F.TB_OFFSET = ofSigned o 16 ∧ Only [.regs, .tally, .links, .out] s t))
      ∧ (tallyState s = 3 → 2048 < o.natAbs → Answers (.tick l m o) s (fun t =>
        tallyState t = 4 ∧ ∀ k, k < 16 → (getFlock s k).entries ≠ [] → (getFlock t k).phase = 4))
      ∧ (tallyState s = 0 ∨ tallyState s = 4 → Answers (.tick l m o) s (fun t =>
        tallyState t = tallyState s ∧ t.tally.tb = s.tally.tb ∧ t.tally.num = s.tally.num ∧ Only [.regs, .tally, .links, .out] s t))
      ∧ Answers (.tick l m o) s (fun t =>
        copyOf t 1 = some { num := m.body.num, link := l, both := false } ∧ Only [.free, .regs, .views, .log, .flocks, .tally, .links, .out] s t))
    ∧ (firstCopy s 1 l m.body.num = false → Answers (.tick l m o) s (fun t =>
      t.tally = (noteCopy s 1).tally ∧ Only [.regs, .tally, .links, .out] s t))

/-- The HOLD exchange (R219, R220, R443): the cutoff passes once; a HOLD already raised stays, it covers what every flock's prediction
needs, and none is raised where the predictions need none, every lane block has landed and no line is being rewritten. In RUN the fire
that TICK names is not moved by it; a copy of TICK that is not the first is only noted. REPORT and SLACK gather what the children say; HOLD_REPORT_SEND sends the device's report to its parent. DECIDE
(R204, R216, R220): the bellwether decides the largest HOLD of the domain, 0 in an idle tick, and the next fire follows from it; every
other device takes the stretch and the fire that the marker names. CREDIT (R444) gives its credit to the devices it names. -/
def Obligations.TheStretchIsGatheredAndDecided : Prop :=
  ((∀ s : State, tallyState s = 3 → s.tally.cutoff = false → idle s = false → Answers .holdCutoff s (fun t =>
    t.tally.cutoff = true ∧ (s.power.droop = false → (∀ k ∈ stepping s, neededQuanta s k ≤ s.tally.hold) →
        (∀ k, k < 16 → blockLate s k = false) → rewriting s = false →
        t.tally = { s.tally with cutoff := true } ∧ Only [.tally] s t)
      ∧ (s.power.droop = false → ∀ k ∈ stepping s, neededQuanta s k ≤ t.tally.hold)
      ∧ s.tally.hold ≤ t.tally.hold ∧ Only [.free, .regs, .tally, .pause, .power] s t))
  ∧ (∀ (s : State) (l : Fin 96) (m : MarkerFlit) (o : Int), marked s l m.head m.body (markerBytes 1 m.body) → fromAbove s l = true →
    (firstCopy s 1 l m.body.num = true → tallyState s = 3 → o.natAbs ≤ 2048 → Answers (.tick l m o) s (fun t =>
      t.tally.fire = s.tally.fire ∧ t.tally.next = s.tally.next ∧ t.tally.hold = s.tally.hold ∧ rd t tallyPg F.TB_OFFSET = ofSigned o 16))
    ∧ (firstCopy s 1 l m.body.num = false → Answers (.tick l m o) s (fun t => t.tally = (noteCopy s 1).tally)))
  ∧ (∀ (s : State) (l : Fin 96) (m : MarkerFlit), fromChild s l = true → m.body.num = s.tally.num →
    (marked s l m.head m.body (markerBytes 9 m.body) → Answers (.slack l m) s (fun t =>
      t.tally = { s.tally with slacks := leastSlack (s.tally.slacks ++ m.body.slacks) } ∧ Only [.regs, .tally, .links, .out] s t))
    ∧ (marked s l m.head m.body (markerBytes 8 m.body) → tallyState s = 3 → m.body.commitExchange = false → s.tally.sent = false → s.tally.q = none →
      Answers (.report l m) s (fun t =>
        t.tally.childHold = max s.tally.childHold m.body.q ∧ t.tally.childSeen.contains l.val = true ∧ t.tally.hold = s.tally.hold
          ∧ Only [.regs, .droves, .flocks, .tally, .links, .net, .out] s t))
    ∧ (marked s l m.head m.body (markerBytes 8 m.body) → tallyState s = 3 → m.body.commitExchange = true → (m.body.flocks.map (·.flock)).Nodup →
      Answers (.report l m) s (fun t =>
        (∀ e ∈ m.body.flocks, (getFlock s e.flock).decision = 0 → (getFlock t e.flock).childState = max (getFlock s e.flock).childState e.state
          ∧ (getFlock t e.flock).childSeen = (getFlock s e.flock).childSeen + 1) ∧ t.tally = s.tally
          ∧ Only [.regs, .droves, .flocks, .links, .net, .out] s t)))
  ∧ (∀ s : State, tallyState s = 3 → isRoot s = false → s.tally.sent = false → s.tally.cutoff = true → parentUp s →
    Answers .holdReportSend s (fun t =>
      t.tally.sent = true ∧ (∃ r, t.out = s.out ++ toParent s 8 (holdReport s) :: r) ∧ Only [.regs, .tally, .links, .out] s t)))
  ∧ ((∀ s : State, tallyState s = 2 ∨ tallyState s = 3 → isRoot s = true → s.tally.q = none → (s.tally.cutoff = true ∨ idle s = true) →
    let q := if idle s then 0 else max s.tally.hold s.tally.childHold
    Answers .decideSend s (fun t =>
      t.tally.q = some q ∧ t.tally.next = some (s.tally.fire + tickU s + q * quantum (tickP s)) ∧ t.tally.hold = s.tally.hold
        ∧ Only [.regs, .tally, .links, .out] s t))
  ∧ (∀ (s : State) (l : Fin 96) (m : MarkerFlit), fromAbove s l = true → m.body.num = s.tally.num →
    (marked s l m.head m.body (markerBytes 2 m.body) → tallyState s = 2 ∨ tallyState s = 3 → firstCopy s 2 l m.body.num = true →
      Answers (.decide l m) s (fun t =>
        t.tally = { s.tally with seen := noted s 2 l m.body.num, q := some m.body.q, next := some m.body.time }
          ∧ Only [.regs, .tally, .links, .out] s t))
    ∧ (marked s l m.head m.body (markerBytes 10 m.body) → tallyState s = 3 → firstCopy s 10 l m.body.num = true →
      Answers (.credit l m) s (fun t =>
        t.tally.creditW = m.body.q ∧ t.tally.credit = (if (m.body.slacks.map (·.dev)).contains (ownId s) then s.tally.num + 64 else 0)
          ∧ t.tally.q = s.tally.q ∧ t.tally.next = s.tally.next ∧ Only [.regs, .tally, .links, .out] s t))))

/-- The commit exchange (R223 to R227, R375): at its commit point, once everything that is on time before it has happened, a step in its
last tick has its state; the states go up to the bellwether, which decides each flock by the worst of them, and every device takes the
decision, but that a commit of another step than the one that runs is refused and recorded. -/
def Obligations.StepsCommitByTheWorstState : Prop :=
  (∀ (s : State) (q : Nat), tallyState s = 3 → s.tally.q = some q → Answers .commitPoint s (fun t =>
    t = orderLog (passStretch s) (forEach (passStretch s) (stepping s) commitPoint)
      ∧ (s.power.droop = false → ∀ k, stepping s = [k] → lastTick s k = true → commitComes s k = true → (getFlock t k).done = true)
      ∧ (∀ k, k < 16 → (getFlock s k).phase ≠ 3 → getFlock t k = getFlock s k)
      ∧ Only [.free, .regs, .views, .log, .folds, .flocks, .tally, .pause, .power] s t))
  ∧ (∀ (s : State) (k : Nat), lastTick s k = true →
    ((getFlock s k).done = false → commitComes s k = true → (getFlock (commitPoint s k) k).done = true)
    ∧ ((getFlock s k).done = true ∨ commitComes s k = false → commitPoint s k = s))
  ∧ (∀ s : State, tallyState s = 3 → isRoot s = false → exchangeDue s ≠ [] → parentUp s → Answers .commitReportSend s (fun t =>
      (∃ m : Marker, t.out = s.out ++ [toParent s 8 m]
        ∧ m.commitExchange = true ∧ m.num = s.tally.num ∧ m.ready = readyFields s ∧ m.flocks.map (·.flock.val) = exchangeDue s
        ∧ ∀ e ∈ m.flocks, e.state = (mergedCommit s e.flock).1)
      ∧ Only [.regs, .views, .log, .flocks, .links, .out] s t))
  ∧ (∀ s : State, tallyState s = 3 → isRoot s = true → exchangeDue s ≠ [] → Answers .commitSend s (fun t =>
    (∀ k ∈ exchangeDue s, (getFlock t k).decision = (mergedCommit s k).1) ∧ Only [.regs, .views, .log, .flocks, .links, .out] s t))
  ∧ (∀ (s : State) (l : Fin 96) (m : MarkerFlit), marked s l m.head m.body (markerBytes 3 m.body) → fromAbove s l = true → tallyState s = 3 →
    m.body.num = s.tally.num → firstCopy s 3 l m.body.num = true → (m.body.flocks.map (·.flock)).Nodup → Answers (.commit l m) s (fun t =>
      (∀ e ∈ m.body.flocks, e.state ≠ 0 → (e.state = 1 → e.step = (getFlock s e.flock).num) → (getFlock t e.flock).decision = e.state)
        ∧ (∀ e ∈ m.body.flocks, e.state = 1 → e.step ≠ (getFlock s e.flock).num →
            getFlock t e.flock = getFlock s e.flock ∧ bit (rd t tallyPg F.ERR_SUM) 0 = true)
        ∧ t.tally = { s.tally with seen := noted s 3 l m.body.num }
        ∧ Only [.regs, .views, .log, .flocks, .tally, .links, .out] s t))

/-- SWAP markers (R211 to R214): an announced swap takes the place of an unconfirmed one; a confirmation confirms it, on a device where the
rules of R214 hold (where they do not the swap is dropped, the model's choice: log entry 98); a refusal removes it. A swap that takes
effect (R211, R217, R218) makes the incoming drove active on its flock, at the first step of round 0 unless it joins droves that share
their folds; the outgoing ones are loaded again. -/
def Obligations.SwapsAreAgreedAndApplied : Prop :=
  (∀ (s : State) (l : Fin 96) (w : SwapFlit), fromAbove s l = true → tallyState s = 3 →
    let k := w.swap.flock
    let fresh := fun (phase : Nat) =>
      marked s l w.head w.body (swapBytes phase w.body w.swap) ∧ s.tally.swaps.contains (w.body.num, phase, w.swap) = false
    (fresh 1 → (∀ y, (getFlock s k).swap = some y → y.confirmed = false) →
      Answers (.swapAnnounce l w) s (fun t =>
        (∃ y, (getFlock t k).swap = some y ∧ y.incoming = w.swap.incoming ∧ y.ts = w.swap.ts ∧ y.confirmed = false ∧ y.origin = none)
          ∧ (∀ j, j ≠ k.val → getFlock t j = getFlock s j) ∧ Only [.regs, .flocks, .tally, .links, .out] s t))
    ∧ (∀ y, fresh 2 → (getFlock s k).swap = some y → Answers (.swapConfirm l w) s (fun t =>
        (getFlock t k).swap = (if swapTiming s k y then some { y with confirmed := true } else none)
          ∧ (∀ j, j ≠ k.val → getFlock t j = getFlock s j) ∧ Only [.regs, .droves, .flocks, .tally, .links, .out] s t))
    ∧ (∀ y, fresh 3 → (getFlock s k).swap = some y → y.confirmed = false → Answers (.swapRefuse l w) s (fun t =>
        (getFlock t k).swap = none ∧ (∀ j, j ≠ k.val → getFlock t j = getFlock s j)
          ∧ (∀ e, (getDrove t e).st = (getDrove s e).st) ∧ Only [.regs, .droves, .flocks, .tally, .links, .out] s t)))
  ∧ (∀ (s : State) (k e : Nat) (w : Swap), k < 16 → e < 32 → confirmedEntry s k = some e → (getFlock s k).entries.all (· != e) = true →
    let t := applySwap s k w
    (getFlock t k).swap = none ∧ (getFlock t k).fault = 0 ∧ (getFlock t k).step = 0 ∧ (getDrove t e).st = 3 ∧ (getDrove t e).flock = k
      ∧ (joins s k e = false → (getFlock t k).entries = [e] ∧ (getFlock t k).round = 0 ∧ (∀ i ∈ (getFlock s k).entries, (getDrove t i).st = 2))
      ∧ (joins s k e = true → (getFlock t k).entries = (getFlock s k).entries ++ [e] ∧ (getFlock t k).round = (getFlock s k).round
          ∧ (∀ i ∈ (getFlock s k).entries, getDrove t i = getDrove s i)))

/-- Page ticks and lane blocks (R28, R231, R304, R399): cycle 0 and cycle 2,304 of a page tick act once each, a finished checkpoint is the
newest of its flock, and a lane block is built for the next step and lands in the other buffer of a fold. -/
def Obligations.PageTicksAndLaneBlocks : Prop :=
  (∀ s : State, tallyState s = 3 → paging s ≠ [] → s.tally.paged = 0 → Answers .pageTick s (fun t => t.tally = { s.tally with paged := 1 }))
  ∧ (∀ s : State, s.tally.paged = 1 → Answers .pageWindowSet s (fun t =>
      t.tally = { s.tally with paged := 2 }
        ∧ (∀ k ∈ paging s, ∀ f ∈ flockFolds s k, rd t (foldPg f) F.ACC_CARRIED = carriedMask s f % 2 ^ 16) ∧ Only [.regs, .folds, .tally] s t))
  ∧ (∀ (s : State) (p k : Fin 16) (round slot : Nat) (bytes : List Byte), (getCkpt s p k).writing = some (round, slot, bytes) →
    Answers (.ckptWriteDone p k) s (fun t =>
      (getCkpt t p k).writing = none ∧ (getCkpt t p k).newest = slot + 1 ∧ rd t (penPg p) F.CKPT_DONE0 k = round % 2 ^ 32
        ∧ OnlyBytes (fun a => windowOf (extents s p) a 0 ≠ none) s t ∧ Only [.regs, .views, .log, .mem, .fresh, .care, .links, .msgs, .drover, .out] s t))
  ∧ (∀ (s : State) (k : Fin 16) (d : Drove), buildDrove s k = some d → isLead s k = true → d.lanes.lanes ≠ [] →
    ((getFlock s k).phase = 3 ∨ (getFlock s k).phase = 2) → serviceWaits s .laneBlocks = false → (getServing s k).built ≠ buildStep (getFlock s k) + 1 →
    Answers (.laneBlockBuild k) s (fun t =>
      (getServing t k).built = buildStep (getFlock s k) + 1 ∧ (getServing t k).blockStep = buildStep (getFlock s k) + 1
        ∧ Only [.free, .regs, .views, .log, .mem, .fresh, .flocks, .care, .links, .msgs, .drover, .out] s t))
  ∧ (∀ (s : State) (f : Fin 68) (k : Nat), foldFlock s f = some k → (getServing s k).blockStep ≠ 0 →
    (getFold s f).landed ≠ some ((getServing s k).blockStep - 1) →
    let a := vsAddr f (64 * bits (controlBlock s f) (16 + 16 * (1 - (getFold s f).laneBuf)) 16)
    Answers (.laneBlockLand f) s (fun t =>
      (getFold t f).landed = some ((getServing s k).blockStep - 1)
        ∧ (∀ j, j < (getServing s k).block.length → isMem s (a + j) = true → readByte t (a + j) = (getServing s k).block.getD j 0)
        ∧ OnlyBytes (fun x => a ≤ x ∧ x < a + (getServing s k).block.length) s t ∧ OnlyFolds [f] s t ∧ Only [.mem, .fresh, .folds] s t))
/-! ## Messages -/

namespace Sys2Proof.Claims

/-- Packets come in order on a connected queue pair: their ICRC covers them, and the first has the PSN that is expected. -/
def ordered (s : State) (q : Nat) (k : Pkt) : Prop :=
  netUp s = true ∧ (getQp s q).st = 1 ∧ k.icrcBad = false ∧ k.psn.toNat = (getQp s q).epsn

/-- A message that comes by SENDs comes in order on its channel's queue pair; one of the ring path is not looked at so. -/
def sendsInOrder (s : State) (h : MsgHead) : Prop :=
  chanState s h.pen h.ch = 1 → rd s (penPg h.pen) F.CH_STATE_RING h.ch = 0 → ordered s (chanQp s h.pen h.ch) h.pkt

/-- A message comes in order and is the next one of an open channel. -/
def nextIn (s : State) (h : MsgHead) : Prop :=
  chanState s h.pen h.ch ≠ 0 ∧ sendsInOrder s h ∧ h.seq.toNat = ((getChan s h.pen h.ch).seq + 1) % 2 ^ 24

/-- It is the next one, and its header is well formed. -/
def nextOn (s : State) (h : MsgHead) : Prop := nextIn s h ∧ h.bad = false

/-- The head of a message as the device takes it, in the present opening of its channel. -/
def own (s : State) (h : MsgHead) : MsgHead := { h with life := chanLife s h.pen h.ch }

/-- The state with a message received: the SEND that carries it is acknowledged, or it came by the submission ring (R346, R352). -/
def came (s : State) (h : MsgHead) (b : List Byte) : State := sendIn s h b.length id

/-- The state with a message accepted, before its effect: it is counted, and its channel has its sequence. -/
def taken (s : State) (h : MsgHead) (b : List Byte) : State :=
  putChan (bump (bump (came s h b) (penPg h.pen) F.SHOB_MSG_CNT) shobPg F.SHOB_MSG_ALL) h.pen h.ch
    { getChan (came s h b) h.pen h.ch with seq := h.seq.toNat, open_ := (getChan (came s h b) h.pen h.ch).open_ ++ [h.seq.toNat] }

/-- The last answer of a message's channel is this one. -/
def answered (t : State) (h : MsgHead) (typ status : Nat) (more : List Byte) : Prop :=
  (getChan t h.pen h.ch).answers.getLast? = some (h.seq.toNat, responseBytes h typ status more)

/-- The messages of R356 with their types, whether the pen may send them, whether the body is well formed, and their effects; a DEBUG
WRITE, which can ring doorbells, stands apart. -/
def messages (s : State) (h : MsgHead) (b : List Byte) : List (Instr × Nat × Bool × Bool × (State → State)) :=
  let mgmtOk := h.pen.val == 0
  let g := own s h
  let ctl := fun (a : Nat) => b.length == 3 && num b 0 1 == 4 && decide (num b 1 1 < 2) && num b 2 1 == a
  let dbg := fun (op : Nat) => debugForm b op
  let mayDebug := debugAllowed (came s h b) h
  [(.channelClose h b, 0x02, true, b.isEmpty, fun u => waitFire u (.close g.pen g.ch (some g))),
   (.nop h b, 0x03, true, b.isEmpty, fun u => respond u g 0x03 0),
   (.admitMsg h b, 0x10, true, admitBody b, fun u => waitFire u (.admission g b)),
   (.abort h b, 0x11, true, b.length == 2, fun u => waitFire u (.abort g b)),
   (.droveLoad h b, 0x20, true, b.length == 8, doDroveLoad g b),
   (.droveUnload h b, 0x21, true, b.length == 32, doDroveUnload g b),
   (.droveSwap h b, 0x22, true, swapBody b, doDroveSwap g b),
   (.epochOpen h b, 0x30, true, b.length == 8 && restZero b 0 [(0, 2), (4, 8)], doEpochOpen g b),
   (.shardFetch h b, 0x31, true, b.length == 24 && restZero b 0 [(0, 1), (4, 24)], doShardFetch g b),
   (.shardPush h b, 0x32, true, b.length == 16, doShardPush g b),
   (.arrivalCancel h b, 0x33, true, b.length == 8, doArrivalCancel g b),
   (.epochSwitch h b, 0x34, true, b.length == 16 && restZero b 0 [(0, 3), (8, 16)], doEpochSwitch g b),
   (.epochRetire h b, 0x35, true, b.length == 2, doEpochRetire g b),
   (.nvmeTargetEntry h b, 0x40, mgmtOk,
     b.length == 247 && num b 0 1 == 1 && decide (num b 1 1 < 64) && decide (num b 2 1 < 16) && num b 3 1 == 0, doNvmeTarget g b),
   (.updBegin h b, 0x40, mgmtOk, b.length == 20 && num b 0 1 == 2 && decide (num b 1 1 < 2) && zeroAt b 2 6, doUpdBegin g b),
   (.updPiece h b, 0x40, mgmtOk, b.length == 20 && num b 0 1 == 3 && decide (num b 1 1 < 2) && zeroAt b 2 2, doUpdPiece g b),
   (.updStatus h b, 0x40, mgmtOk, ctl 1, doUpdStatus g (num b 1 1)),
   (.updActivate h b, 0x40, mgmtOk, ctl 2, doUpdActivate g (num b 1 1)),
   (.updConfirm h b, 0x40, mgmtOk, ctl 3, doUpdConfirm g (num b 1 1)),
   (.updAbandon h b, 0x40, mgmtOk, ctl 4, doUpdAbandon g (num b 1 1)),
   (.updRevert h b, 0x40, mgmtOk, ctl 5, doUpdRevert g (num b 1 1)),
   (.debugRead h b, 0x50, mayDebug, dbg 1, debugRead g b),
   (.debugHalt h b, 0x50, mayDebug, dbg 3, fun u => respond (haltCore u (num b 1 1)) g 0x50 0),
   (.debugResume h b, 0x50, mayDebug, dbg 4, fun u => respond (resumeCore u (num b 1 1)) g 0x50 0)]

end Sys2Proof.Claims

/-- The sequence rule (R354, R359): the next message of a channel has its effect after it is accepted, or is answered BAD_MSG or
NOT_PERMITTED without one; a newer one is answered BAD_SEQ and not executed; a channel that is closed takes none. A message that is not
newer than the last executed one (R354) is not executed again: an answer that its channel still keeps is sent again, one without
an answer yet gets nothing, and an older one is answered STALE_SEQ. The SENDs that carry a message are acknowledged whatever becomes of
it; a message whose SENDs do not come in order is not taken at all (R346). A pen that may not send a message is answered NOT_PERMITTED
whatever its body (the model's choice: log entry 132). -/
def Obligations.MessagesRunInSequence : Prop :=
  (∀ (s : State) (h : MsgHead) (b : List Byte), ∀ e ∈ messages s h b,
    (nextOn s h → e.2.2.1 = true → e.2.2.2.1 = true → Answers e.1 s (· = e.2.2.2.2 (taken s h b)))
    ∧ (nextIn s h → e.2.2.1 = true → h.bad = true ∨ e.2.2.2.1 = false → Answers e.1 s (· = respond (taken s h b) (own s h) e.2.1 0xF0))
    ∧ (nextIn s h → e.2.2.1 = false → Answers e.1 s (· = respond (taken s h b) (own s h) e.2.1 0xF1))
    ∧ (chanState s h.pen h.ch ≠ 0 → ¬sendsInOrder s h → Answers e.1 s (fun t => t = came s h b ∧ Only [.regs, .net, .out] s t
        ∧ (getChan t h.pen h.ch).seq = (getChan s h.pen h.ch).seq))
    ∧ (chanState s h.pen h.ch ≠ 0 → sendsInOrder s h → h.seq.toNat ≠ ((getChan s h.pen h.ch).seq + 1) % 2 ^ 24 →
        serialNewer 24 h.seq.toNat (getChan s h.pen h.ch).seq = true →
        Answers e.1 s (fun t => t = turnAway (came s h b) h e.2.1 0xF3 ∧ (getChan t h.pen h.ch).seq = (getChan s h.pen h.ch).seq
          ∧ Only [.regs, .net, .out] s t))
    ∧ (chanState s h.pen h.ch = 0 → Answers e.1 s (· = s)))
  ∧ (∀ (s : State) (h : MsgHead) (b : List Byte), ∀ e ∈ messages s h b, chanState s h.pen h.ch ≠ 0 → sendsInOrder s h →
    h.seq.toNat ≠ ((getChan s h.pen h.ch).seq + 1) % 2 ^ 24 → serialNewer 24 h.seq.toNat (getChan s h.pen h.ch).seq = false →
    let kept := (getChan s h.pen h.ch).answers.find? (fun a => a.1 == h.seq.toNat)
    let waits := (getChan s h.pen h.ch).open_.contains h.seq.toNat
    (∀ a, kept = some a → Answers e.1 s (· = sendHost (came s h b) h.pen h.ch a.2))
    ∧ (kept = none → waits = true → Answers e.1 s (· = came s h b))
    ∧ (kept = none → waits = false → Answers e.1 s (· = turnAway (came s h b) h e.2.1 0xF2)))

/-- NOP is answered OK; ADMIT, ABORT and CHANNEL_CLOSE wait for the next fire; a message of an unknown type is answered BAD_MSG whatever its body
(R356, R358 to R360). -/
def Obligations.ChannelMessagesAreAnsweredOrWait : Prop :=
  ∀ (s : State) (h : MsgHead), nextOn s h →
    Answers (.nop h []) s (fun t => answered t h 0x03 0 [] ∧ Only [.regs, .net, .out] s t)
    ∧ (∀ typ : BitVec 8, ∀ b, knownTypes.contains typ.toNat = false → Answers (.unknownMessageType h typ b) s (fun t =>
        answered t h typ.toNat 0xF0 [] ∧ Only [.regs, .net, .out] s t))
    ∧ (∀ c l, (∃ b, c = Instr.admitMsg h b ∧ admitBody b = true ∧ l = Latch.admission (own s h) b) ∨ (∃ b, c = Instr.abort h b ∧ b.length = 2 ∧ l = Latch.abort (own s h) b)
        ∨ (c = Instr.channelClose h [] ∧ l = Latch.close h.pen h.ch (some (own s h))) →
      Answers c s (fun t => t.drover = { s.drover with latch := s.drover.latch ++ [l] } ∧ (getChan t h.pen h.ch).seq = h.seq.toNat
        ∧ Only [.regs, .drover, .net, .out] s t))

/-- Drove messages (R200, R211, R212, R238): a load that every check passes is LOADING, and any other is answered with the status of the
first check that fails, which a LOADED entry of that image that no swap has confirmed keeps as its last status; every other entry stays
as it is. A LOADED drove that no swap has confirmed unloads; an ACTIVE, HELD or confirmed one is answered BUSY. A swap request that the
bellwether accepts is announced. DROVE_LOAD_DONE (R200): a LOADING entry becomes LOADED with status 0, and the request that waits is
answered OK. -/
def Obligations.DrovesLoadUnloadAndSwap : Prop :=
  (∀ (s : State) (h : MsgHead), nextOn s h →
    (∀ b : List Byte, b.length = 8 →
      let r : Rd := fun a n => winLe s h.pen (fieldNat b 0 8 + a) n
      let d := readDrove r h.pen (fieldNat b 0 8) (toLe 32 (r 480 32))
      let st := loadStatus (taken s h b) r h.pen (fieldNat b 0 8) d
      ∀ i, (entryOf s h.pen d.digest).orElse (fun _ => freeEntry s) = some i → Answers (.droveLoad h b) s (fun t =>
        (st = 0 → getDrove t i = { d with waiting := some (own s h) } ∧ (getDrove t i).st = 1)
          ∧ (st ≠ 0 → answered t h 0x20 st [] ∧ getDrove t i = (if (getDrove s i).st = 2 ∧ (getDrove s i).confirmed = false then
              { getDrove s i with status := st } else getDrove s i))
          ∧ (∀ j, j ≠ i → getDrove t j = getDrove s j) ∧ Only [.regs, .droves, .net, .out] s t))
    ∧ (∀ (b : List Byte) (e : Nat), b.length = 32 → entryOf s h.pen b = some e →
      Answers (.droveUnload h b) s (fun t =>
        ((getDrove s e).st = 2 ∧ (getDrove s e).confirmed = false → getDrove t e = Drove.empty ∧ answered t h 0x21 0 [])
        ∧ (¬((getDrove s e).st = 2 ∧ (getDrove s e).confirmed = false) →
            getDrove t e = { getDrove s e with status := 0x0D } ∧ answered t h 0x21 0x0D [])
        ∧ (∀ j, j ≠ e → getDrove t j = getDrove s j) ∧ Only [.regs, .droves, .net, .out] s t))
    ∧ (∀ b : List Byte, swapBody b = true → isRoot s = true → tallyState s = 3 → s.tally.num + 16 ≤ fieldNat b 40 8 →
      let k := Fin.ofNat 16 (fieldNat b 0 1)
      (∀ w, (getFlock s k).swap = some w → w.confirmed = false) → (∀ d, flockDrove s k = some d → d.pen = h.pen.val) →
      Answers (.droveSwap h b) s (fun t => (∃ w, (getFlock t k).swap = some w ∧ w.incoming = field b 8 32 ∧ w.ts = fieldNat b 40 8
        ∧ w.confirmed = false ∧ w.origin = some (own s h)) ∧ (∀ j, j ≠ k.val → getFlock t j = getFlock s j)
        ∧ Only [.regs, .droves, .flocks, .links, .net, .out] s t)))
  ∧ (∀ (s : State) (e : Fin 32), (getDrove s e).st = 1 → serviceWaits s .droveLoad = false → Answers (.droveLoadDone e) s (fun t =>
    getDrove t e = { getDrove s e with st := 2, status := 0, waiting := none }
      ∧ (∀ h, (getDrove s e).waiting = some h → h.life = chanLife s h.pen h.ch → answered t h 0x20 0 []) ∧ (∀ j, j ≠ e.val → getDrove t j = getDrove s j)
      ∧ Only [.regs, .droves, .net, .out] s t))

/-- Epoch messages (R279, R281, R284): an opened epoch takes an entry, an accepted switch is pending, and a retired epoch waits for the next
tick boundary. -/
def Obligations.EpochsOpenSwitchAndRetire : Prop :=
  ∀ (s : State) (h : MsgHead), nextOn s h →
    (∀ (b : List Byte) (k : Nat), b.length = 8 → restZero b 0 [(0, 2), (4, 8)] = true → fieldNat b 0 2 ≠ 0 → fieldNat b 4 4 ≠ 0 →
      fieldNat b 4 4 ≤ 65535 → epochOf s h.pen (fieldNat b 0 2) = none → freeEpoch s h.pen = some k →
      Answers (.epochOpen h b) s (fun t => rd t (penPg h.pen) F.EPOCH0_ID k = fieldNat b 0 2 ∧ rd t (penPg h.pen) F.EPOCH1_COUNT k = fieldNat b 4 4
        ∧ rd t (penPg h.pen) F.EPOCH0_STATE k = 1 ∧ answered t h 0x30 0 [BitVec.ofNat 8 k] ∧ Only [.regs, .net, .out] s t))
    ∧ (∀ (b : List Byte) (k : Nat), b.length = 16 → restZero b 0 [(0, 3), (8, 16)] = true →
      switchStatus s h.pen (fieldNat b 0 2) (fieldNat b 2 1) = (0, k) →
      Answers (.epochSwitch h b) s (fun t => rd t (penPg h.pen) F.EPOCH_SWITCH_PENDING = 1 ∧ rd t (penPg h.pen) F.EPOCH_SWITCH_ENTRY = k % 2
        ∧ rd t (penPg h.pen) F.EPOCH_SWITCH_POLICY = fieldNat b 2 1 % 2 ∧ rdPair t (penPg h.pen) F.EPOCH_SW_T_LO F.EPOCH_SW_T_HI = fieldNat b 8 8
        ∧ answered t h 0x34 0 [BitVec.ofNat 8 k] ∧ Only [.regs, .weights, .net, .out] s t))
    ∧ (∀ (b : List Byte) (k : Nat), b.length = 2 → fieldNat b 0 2 ≠ 0 → epochOf s h.pen (fieldNat b 0 2) = some k →
      rd s (penPg h.pen) F.EPOCH0_STATE k ∈ [1, 2, 4] → rd s (penPg h.pen) F.EPOCH2 k = 0 →
      epochNeeded s h.pen (fieldNat b 0 2) true = false →
      Answers (.epochRetire h b) s (fun t => t.weights.retiring.contains (epochKey h.pen k) = true ∧ answered t h 0x35 0 []
        ∧ Only [.free, .regs, .weights, .net, .out] s t))

/-- Shard requests (R270 to R272): a fetch from a target of its pen and a push of a container in the window join the arriving
shards; a cancelled arrival leaves them; a cancel that names none is answered NOT_FOUND. Loader events (R271, R278): a command that
completes gives its arrival the data, and one that fails is sent again on the connection of its target, at most three times; a timeout past
the third leaves the target in error and ends its shard. -/
def Obligations.ShardsAreRequestedAndFetched : Prop :=
  (∀ (s : State) (h : MsgHead), nextOn s h →
    (∀ b : List Byte, b.length = 24 → restZero b 0 [(0, 1), (4, 24)] = true → fieldNat b 0 1 ≤ 63 → fieldNat b 16 8 ≠ 0 →
      rd s wloadPg F.WL_TARGET_STATE (fieldNat b 0 1) ≠ 0 → rd s wloadPg F.WL_TARGET_PEN (fieldNat b 0 1) = h.pen →
      Answers (.shardFetch h b) s (fun t => t.weights.arriving.length = s.weights.arriving.length + 1
        ∧ (∃ a ∈ t.weights.arriving, a.head = some (own s h) ∧ a.source = ⟨false, fieldNat b 0 1, fieldNat b 4 4, fieldNat b 8 8, fieldNat b 16 8⟩)
        ∧ Only [.free, .regs, .weights, .net, .out] s t))
    ∧ (∀ b : List Byte, b.length = 16 → fieldNat b 0 8 % 4096 = 0 → fieldNat b 8 8 ≠ 0 → inWindow s h.pen (fieldNat b 0 8) (fieldNat b 8 8) = true →
      let a : Arrival := ⟨some (own s h), ⟨true, 0, 0, fieldNat b 0 8, fieldNat b 8 8⟩, [], 0, none, [], false, none⟩
      let u := addArrival (taken s h b) a
      Answers (.shardPush h b) s (fun t =>
        ((headerStatus u h.pen a (winBytes u h.pen (fieldNat b 0 8) 256)).1 = 0 → ∃ x ∈ t.weights.arriving, x.head = some (own s h) ∧ x.source = a.source ∧ x.place ≠ none)
        ∧ Only [.free, .regs, .weights, .net, .out] s t))
    ∧ (∀ b : List Byte, b.length = 8 →
      (findArrival s h.pen (fieldNat b 0 8) = none → Answers (.arrivalCancel h b) s (fun t => answered t h 0x33 0x25 [] ∧ Only [.regs, .net, .out] s t))
      ∧ (∀ a, findArrival s h.pen (fieldNat b 0 8) = some a → Answers (.arrivalCancel h b) s (fun t =>
        t.weights.arriving.length + 1 = s.weights.arriving.length ∧ answered t h 0x33 0 [] ∧ Only [.free, .regs, .weights, .net, .out] s t))))
  ∧ (∀ (s : State) (t : Fin 64) (cid q : Nat) (a : Arrival) (c : NvmeCmd), findCmd s t cid = some (a, c) → targetQp s t = some q → (getQp s q).st = 1 →
    (∀ data k, ordered s q k → c.off ≠ 0 → Answers (.nvmeCompletion t cid ⟨true, k⟩ data) s (fun u =>
      (∃ b ∈ u.weights.arriving, b.head = a.head ∧ b.source = a.source
          ∧ ∃ d ∈ b.cmds, d.off = c.off ∧ d.data = some (data.take c.len ++ List.replicate (c.len - data.length) 0))
        ∧ u.weights.arriving.length = s.weights.arriving.length ∧ Only [.free, .regs, .weights, .net, .out] s u))
    ∧ (∀ data k, ordered s q k → c.off = 0 → Answers (.nvmeCompletion t cid ⟨true, k⟩ data) s (fun u =>
      (a.head = none → ∃ b ∈ u.weights.arriving, b.source = a.source
          ∧ b.header = (data.take c.len ++ List.replicate (c.len - data.length) 0).take (min 256 a.source.len))
        ∧ Only [.free, .regs, .weights, .net, .out] s u))
    ∧ (c.tries < 3 →
      Answers (.nvmeTimeout t cid) s (fun u =>
        u.out = s.out ++ [.nvme t s.weights.cid a.source.nsid a.source.addr c.off c.len] ∧ u.weights.cid = (s.weights.cid + 1) % 65536
          ∧ (rd s wloadPg F.WL_NVME_RETRY < 2 ^ 32 - 2 → rd u wloadPg F.WL_NVME_RETRY = rd s wloadPg F.WL_NVME_RETRY + 1)
          ∧ Only [.regs, .weights, .net, .out] s u)
      ∧ (∀ data k, ordered s q k → Answers (.nvmeCompletion t cid ⟨false, k⟩ data) s (fun u =>
        u.out = (completionIn s t 0 k id).out ++ [.nvme t s.weights.cid a.source.nsid a.source.addr c.off c.len]
          ∧ (rd s wloadPg F.WL_NVME_RETRY < 2 ^ 32 - 2 → rd u wloadPg F.WL_NVME_RETRY = rd s wloadPg F.WL_NVME_RETRY + 1)
          ∧ Only [.regs, .weights, .net, .out] s u)))
    ∧ (3 ≤ c.tries → Answers (.nvmeTimeout t cid) s (fun u => rd u wloadPg F.WL_TARGET_STATE t = 3 ∧ targetQp u t = none
      ∧ u.weights.arriving.length + 1 = s.weights.arriving.length ∧ Only [.free, .regs, .weights, .net, .out] s u)))

/-- Completion, re-check and repair of shards (R255, R273, R277, R278): a shard whose container passes becomes resident with its digest, a
held write resumes once no active drove reads its blocks, a shard that fails adds none, a re-check of good copies changes only counts and stamps, and a good staging copy
repairs a damaged shard. -/
def Obligations.ShardsBecomeResidentAndAreRepaired : Prop :=
  (∀ (s : State) (p : Fin 16) (tag : BitVec 64) (a : Arrival) (k i lo hi : Nat), findArrival s p tag.toNat = some a →
    a.place = some (k, i, lo, hi) → a.arrived = true → (underWay s).contains a = true → a.held = none → a.repair = false →
    (shardHeader a.header).flags ≠ 1 → Answers (.shardComplete p tag) s (fun t =>
      (match loadShard a.header (arrivalPayload s p a) with
        | .ok (_, dg) => ∃ x ∈ epochShards t p k, x.index = (shardHeader a.header).index ∧ x.digest = dg ∧ x.damaged = false
            ∧ x.addr = (shardHeader a.header).addr
        | .error e => epochShards t p k = epochShards s p k ∧ (e = 0x02 → t.mem = s.mem) ∧ rd t wloadPg F.WL_LAST_REFUSE_STATUS = e % 2 ^ 8)
        ∧ OnlyBytes (fun x => windowOf (extents s p) x 0 ≠ none) s t ∧ Only [.free, .regs, .views, .log, .mem, .fresh, .care, .weights, .net, .out] s t))
  ∧ (∀ (s : State) (a : Arrival) (h : MsgHead) (k i lo hi : Nat) (form dg : List Byte), s.weights.arriving = [a] → a.head = some h →
    a.place = some (k, i, lo, hi) → a.held = some (form, dg) → a.repair = false →
    let x := shardHeader a.header
    (stagingBusy s x.slot x.plane x.planes = true → Answers .stagingWriteResume s (· = s))
    ∧ (stagingBusy s x.slot x.plane x.planes = false → Answers .stagingWriteResume s (fun t =>
      (∃ y ∈ epochShards t h.pen k, y.index = x.index ∧ y.digest = dg ∧ y.damaged = false)
        ∧ Only [.free, .regs, .views, .log, .mem, .fresh, .care, .weights, .net, .out] s t)))
  ∧ (∀ s : State, (∀ p k, p < 16 → k < 2 → ((epochShards s p k).map (·.index)).Nodup ∧ ∀ x ∈ epochShards s p k, sha256 (hbmCopy s p x) = x.digest) →
    Answers .recheck s (fun t => (∀ p k, p < 16 → k < 2 → (epochShards t p k).map (·.damaged) = (epochShards s p k).map (·.damaged))
      ∧ Only [.regs, .weights] s t))
  ∧ (∀ (s : State) (p : Fin 16) (id n k : Nat) (x : Shard) (form : List Byte), epochOf s p id = some k →
    (epochShards s p k).find? (fun x => x.index == n && x.damaged) = some x → stagingCopy s x = some form → sha256 form = x.digest →
    serviceWaits s .repair = false → Answers (.shardRepair p id n) s (fun t =>
      (∀ y ∈ epochShards t p k, y.index = n → y.damaged = false) ∧ (epochShards t p k).map (·.index) = (epochShards s p k).map (·.index)
        ∧ OnlyBytes (fun x => windowOf (extents s p) x 0 ≠ none) s t ∧ Only [.regs, .views, .log, .mem, .fresh, .care, .weights] s t))

/-- MGMT messages (R271, R473, R475 to R477): a target entry fills the target's place, and the device asks the target for a connection when a
queue pair is free (the model's choice: log entry 104); a firmware update is begun by a good
manifest, and its bank goes from COMPLETE to PENDING, from TRIAL to ACTIVE or REJECTED, or back to EMPTY; STATUS of an object that
is not there says so. An accepted firmware manifest or piece (R473, R474): the idle bank holds it when the flash write of the
model's free attempts succeeds (log entry 28); otherwise the bank is empty, or the piece is not there. -/
def Obligations.FirmwareMovesThroughTheIdleBank : Prop :=
  (∀ (s : State) (h : MsgHead), nextOn s h → h.pen = 0 →
    (∀ b : List Byte, b.length = 247 → num b 0 1 = 1 → num b 1 1 < 64 → num b 2 1 < 16 → num b 3 1 = 0 → Answers (.nvmeTargetEntry h b) s (fun t =>
      rd t wloadPg F.WL_TARGET_PEN (num b 1 1) = num b 2 1 ∧ rd t wloadPg F.WL_TARGET_STATE (num b 1 1) = 1
        ∧ (∀ q, targetQp s (num b 1 1) = none → roomForQp (taken s h b) (num b 2 1) = some q → targetQp t (num b 1 1) = some q ∧ (getQp t q).st = 3)
        ∧ (getD Target.none t.weights.targets (num b 1 1)).nqn = slice (b.drop 1) 23 223 ∧ answered t h 0x40 0 []
        ∧ Only [.free, .regs, .boot, .weights, .net, .out] s t))
    ∧ (∀ b : List Byte, b.length = 20 → num b 0 1 = 2 → num b 1 1 = 0 → zeroAt b 2 6 = true → manifestOk [] = false →
      inWindow s 0 (num b 8 8) (num b 16 4) = false → Answers (.updBegin h b) s (fun t =>
      answered t h 0x40 0x01 [] ∧ t.boot = s.boot ∧ Only [.regs, .net, .out] s t))
    ∧ (∀ b : List Byte, b.length = 20 → num b 0 1 = 3 → num b 1 1 = 0 → zeroAt b 2 2 = true → num b 16 4 ≤ 65536 →
      (getBank s (idleBank s)).st = 0 → Answers (.updPiece h b) s (fun t =>
        answered t h 0x40 0x05 [] ∧ t.boot = s.boot ∧ Only [.regs, .net, .out] s t))
    ∧ (∀ b : List Byte, b.length = 3 → num b 0 1 = 4 → num b 1 1 = 0 →
      (num b 2 1 = 1 → (getBank s (idleBank s)).st = 0 → Answers (.updStatus h b) s (fun t => answered t h 0x40 0x05 [] ∧ t.boot = s.boot ∧ Only [.regs, .net, .out] s t))
      ∧ (num b 2 1 = 1 → (getBank s (idleBank s)).st ∈ [1, 2, 3] → Answers (.updStatus h b) s (fun t =>
        answered t h 0x40 0 (pieceMap (manifestPieces (getBank s (idleBank s)).manifest) (getBank s (idleBank s)).pieces) ∧ t.boot = s.boot ∧ Only [.regs, .net, .out] s t))
      ∧ (num b 2 1 = 2 → (getBank s (idleBank s)).st = 2 → Answers (.updActivate h b) s (fun t =>
        getBank t (idleBank s) = (getBank s (idleBank s)).mark 3 0 ∧ answered t h 0x40 0 [] ∧ Only [.regs, .boot, .net, .out] s t))
      ∧ (num b 2 1 = 3 → ∀ i, bankIn s 5 = some (1 - i) → bankIn s 4 = some i → i < 2 → Answers (.updConfirm h b) s (fun t =>
        (getBank t i).st = 5 ∧ (getBank t (1 - i)).st = 6 ∧ answered t h 0x40 0 [] ∧ Only [.regs, .boot, .net, .out] s t))
      ∧ (num b 2 1 = 4 → (getBank s (idleBank s)).st ∈ [1, 2, 3] → Answers (.updAbandon h b) s (fun t =>
        getBank t (idleBank s) = Bank.empty ∧ answered t h 0x40 0 [] ∧ Only [.regs, .boot, .net, .out] s t))
      ∧ (num b 2 1 = 5 → ∀ i, bankIn s 4 = some i → Answers (.updRevert h b) s (fun t =>
        getBank t i = (getBank s i).mark 7 (getBank s i).trial ∧ answered t h 0x40 0 [] ∧ Only [.regs, .boot, .net, .out] s t))))
  ∧ (∀ (s : State) (h : MsgHead), nextOn s h → h.pen = 0 →
    (∀ b : List Byte, b.length = 20 → num b 0 1 = 2 → num b 1 1 = 0 → zeroAt b 2 6 = true →
      let m := winBytes s 0 (num b 8 8) (num b 16 4)
      inWindow s 0 (num b 8 8) (num b 16 4) = true → bankIn s 4 = none → getBank s (idleBank s) = Bank.empty →
      Answers (.updBegin h b) s (fun t =>
        getBank t (idleBank s) = (if manifestOk m = true ∧ num m 24 4 ≤ Config.romVersion ∧ Config.freeNat s.free % 4 < 3 then
            { Bank.empty with manifest := m }.mark 1 0 else Bank.empty)
          ∧ (manifestOk m = false → answered t h 0x40 0x01 [])
          ∧ getBank t s.boot.bank = getBank s s.boot.bank ∧ Only [.free, .regs, .boot, .net, .out] s t))
    ∧ (∀ b : List Byte, b.length = 20 → num b 0 1 = 3 → num b 1 1 = 0 → zeroAt b 2 2 = true → num b 16 4 ≤ 65536 →
      let x := getBank s (idleBank s)
      let i := num b 4 4
      let data := winBytes s 0 (num b 8 8) (num b 16 4)
      x.st = 1 → pieceFits (num x.manifest 16 4) (manifestPieces x.manifest) i data.length = true → getD [] x.pieces i = [] → data ≠ [] →
      sha256 data = slice x.manifest (1024 + 32 * i) 32 → (putD [] x.pieces i data).length < manifestPieces x.manifest →
      Answers (.updPiece h b) s (fun t =>
        getBank t (idleBank s) = (if Config.freeNat s.free % 4 < 3 then { x with pieces := putD [] x.pieces i data } else x)
          ∧ getBank t s.boot.bank = getBank s s.boot.bank ∧ Only [.free, .regs, .boot, .net, .out] s t)))

/-- DEBUG messages (R469): HALT and RESUME act on the named core; READ answers the words read from the addresses on, WRITE writes its words and
adds one log entry; both leave the core as it is. -/
def Obligations.DebugMessagesReachCoresAndAddresses : Prop :=
  ∀ (s : State) (h : MsgHead) (b : List Byte), nextOn s h → debugAllowed s h = true →
    (debugForm b 3 = true → Answers (.debugHalt h b) s (fun t => t.boot.halted.contains (num b 1 1) = true
      ∧ (∀ k, k ≠ num b 1 1 → t.boot.halted.contains k = s.boot.halted.contains k) ∧ answered t h 0x50 0 [] ∧ Only [.regs, .boot, .net, .out] s t))
    ∧ (debugForm b 4 = true → Answers (.debugResume h b) s (fun t => t.boot.halted.contains (num b 1 1) = false
      ∧ (∀ k, k ≠ num b 1 1 → t.boot.halted.contains k = s.boot.halted.contains k) ∧ answered t h 0x50 0 [] ∧ Only [.regs, .boot, .net, .out] s t))
    ∧ (debugForm b 1 = true → Answers (.debugRead h b) s (fun t =>
      answered t h 0x50 0 (List.replicate 30 0 ++ (deviceReads .debug (num b 16 4 / 4) (num b 8 8) (taken s h b)).1)
        ∧ Only [.free, .regs, .views, .ptp, .net, .out] s t))
    ∧ (debugForm b 2 = true → Answers (.debugWrite h b) s (· = serveRings (debugWrite (own s h) b (taken s h b))))
    ∧ (debugForm b 2 = true → num b 16 4 = 4 → s.rung = [] → num b 8 8 < 0x10000000000 → isMem s (num b 8 8) = true →
      Answers (.debugWrite h b) s (fun t =>
        readLe t (num b 8 8) 4 = leNat (b.drop 32) ∧ rd t logPg F.LOG_INDEX = (rd s logPg F.LOG_INDEX + 1) % 2 ^ 32 ∧ answered t h 0x50 0 []
          ∧ OnlyBytes (fun x => num b 8 8 ≤ x ∧ x < num b 8 8 + 4) s t ∧ Only [.regs, .views, .log, .mem, .fresh, .net, .out] s t))

/-! ## HBM lines -/

/-- SCRUB (R257, R258, R262): the patrol counts a corrected or an uncorrectable line of its slice or stack; a corrected one changes no
byte and pauses nothing; an uncorrectable one is named, loses its data alone, and a staging line stays poisoned. What a lost line reads as
is free (the model's choice: log entry 101). HBM_TEMP_REPORT (R252): a stack's report is shown, with refresh doubled above 85 °C.
HBM_RETIRE_START and RETIRE_COPY_DONE (R259, R260): a pseudo-channel that no extent blocks is copied, and once no active drove names its port
the port holds 22.5 GiB; no other byte changes. -/
def Obligations.LinesAreScrubbedAndChannelsRetired : Prop :=
  (∀ (s : State) (e : LineErr) (pg : Nat) (ce ue : Field), lineCounters e.addr = some (pg, ce, ue) →
    rd s pg ce < 2 ^ 32 - 2 → rd s pg ue < 2 ^ 32 - 2 →
    Answers (.scrub e) s (fun t =>
      rd t pg ce = rd s pg ce + (if e.syms = 1 ∨ e.syms = 2 then 1 else 0)
        ∧ rd t pg ue = rd s pg ue + (if 3 ≤ e.syms ∧ e.syms ≤ 6 then 1 else 0)
        ∧ (3 ≤ e.syms → e.syms ≤ 6 → bit (rd t pg F.ERR_SUM) 1 = true
            ∧ (∀ f, stagingFold e.addr = some f → rd t pg F.STG_LAST_UE = e.addr % 0x1000000 / 64 ∧ t.care.bad.contains (0, e.addr) = true)
            ∧ (∀ k, hbmStack e.addr = some k → rdPair t pg F.HBM_LAST_UE_LO F.HBM_LAST_UE_HI = e.addr))
        ∧ (e.syms < 3 ∨ 6 < e.syms → Only [.regs, .views, .log, .care] s t)
        ∧ OnlyBytes (fun a => e.addr ≤ a ∧ a < e.addr + 64) s t
        ∧ Only [.free, .regs, .views, .log, .mem, .fresh, .folds, .flocks, .tally, .pause, .care, .weights] s t))
  ∧ (∀ (s : State) (k : Fin 8) (x : Int), s.boot.romHalt = false → Answers (.hbmTempReport k x) s (fun t =>
      rd t (hbmPg k) F.HBM_TEMP_T = ofSigned x 16 ∧ rd t (hbmPg k) F.HBM_TEMP_DOUBLED = (if 1360 < x then 1 else 0)
        ∧ OnlyIn [] [(hbmPg k, F.HBM_TEMP_T, 0), (hbmPg k, F.HBM_TEMP_DOUBLED, 0)] s t))
  ∧ (∀ (s : State) (src : Source) (k : Fin 8), seesPage s src (hbmPg k) = true →
    let pc := rd s (hbmPg k) F.HBM_RETIRE_REQ_PC
    pc < 64 → rd s (hbmPg k) F.HBM_RETIRE_STATE_STATE ≠ 1 → rd s (hbmPg k) F.HBM_RETIRE_STATE_STATE ≠ 2 →
    rdBit s (hbmPg k) F.HBM_RETIRED (pc / 32) (pc % 32) = false →
    Answers (.hbmRetireStart src k) s (fun t =>
      rd t (hbmPg k) F.HBM_RETIRE_STATE_PC = pc
        ∧ (reachesTop s (portOfPc k pc) = false → bit s.hbmShort (portOfPc k pc) = false → rd t (hbmPg k) F.HBM_RETIRE_STATE_STATE = 1
            ∧ OnlyIn [] [(hbmPg k, F.HBM_RETIRE_STATE_STATE, 0), (hbmPg k, F.HBM_RETIRE_STATE_PC, 0)] s t)
        ∧ (reachesTop s (portOfPc k pc) = true → rd t (hbmPg k) F.HBM_RETIRE_STATE_STATE = 3 ∧ bit (rd t (hbmPg k) F.ERR_SUM) 3 = true)
        ∧ Only [.regs, .views, .log] s t))
  ∧ (∀ (s : State) (k : Fin 8), rd s (hbmPg k) F.HBM_RETIRE_STATE_STATE = 1 →
    let pc := rd s (hbmPg k) F.HBM_RETIRE_STATE_PC
    let q := portOfPc k pc
    pc < 64 → Answers (.retireCopyDone k) s (fun t =>
      (portActive s q = true → rd t (hbmPg k) F.HBM_RETIRE_STATE_STATE = 2
          ∧ OnlyIn [] [(hbmPg k, F.HBM_RETIRE_STATE_STATE, 0), (hbmPg k, F.HBM_RETIRE_STATE_PC, 0)] s t)
        ∧ (portActive s q = false → rd t (hbmPg k) F.HBM_RETIRE_STATE_STATE = 0 ∧ bit t.hbmShort q = true
            ∧ rdBit t (hbmPg k) F.HBM_RETIRED (pc / 32) (pc % 32) = true
            ∧ (rd s (hbmPg k) F.HBM_CAP < 2 ^ 16 → rd t (hbmPg k) F.HBM_CAP = rd s (hbmPg k) F.HBM_CAP - 24))
        ∧ OnlyBytes (fun a => a / 0x800000000 = q ∧ shortPort ≤ a % 0x800000000) s t ∧ Only [.regs, .mem, .fresh, .hbmShort, .care] s t))

/-! ## Fraeth links -/

namespace Sys2Proof.Claims

/-- The commands of the flits that arrive on a link, with their types: a DATA, an IDLE, a CTRL and a MSG flit. -/
def flitCommands (l : Fin 96) (f : Flit) : List (Instr × Nat) := [(.dataFlit l f, 1), (.idleFlit l f, 0), (.ctrlFlit l f, 4), (.msgFlit l f, 3)]

/-- A flit of a type arrives in order, intact: its CRC covers its header and payload. -/
def inOrder (s : State) (l : Fin 96) (f : Flit) (typ : Nat) : Prop := arrives s l f.head ∧ flitCrcOk f typ = true

/-- The scheduled flit that a received flit goes on as. -/
def passed (f : Flit) : DataFlit :=
  { zero := f.zero, dev := f.dev.toNat, slot := f.slot.toNat, space := f.space.toNat, addr := f.addr.toNat, tally := f.tally.toNat
    payload := f.payload }

/-- The IDLE flit of a link once it asks for what it misses: the NACK rides in the first flit that leaves after the gap opens. -/
def asking (s : State) (l : Nat) : Out :=
  .flit l { getLink s l with nackDue := (getLink s l).nackDue || !(getLink s l).gap }.idle

end Sys2Proof.Claims

/-- Flits that arrive (R322, R323, R325): a link that is not UP takes none; a flit with an error is counted and discarded, and a NACK goes out
in the next flit; so it is with a flit past a missing one; an older flit changes nothing but what its acknowledgement covers. An IDLE flit
in order moves no sequence; one with a NACK has the unacknowledged flits sent again. An IDLE flit answers each flit that arrives (the model's choice: log entry 96). A flit that arrives in order is accepted (R325, R331, R333, R334, R337): a DATA flit lands at the entry whose next flit is visible first, goes
on, or is discarded as stale, and one that finds no landing space is asked for again; a CTRL flit carries the stop bit, which stands until it is cleared; a MSG flit of another device
goes on by its route. How long a pause for the stop bit lasted is free (the model's choice: log entry 97). -/
def Obligations.FlitsAreAcceptedInOrder : Prop :=
  ((∀ (s : State) (l : Fin 96) (f : Flit), ∀ c ∈ flitCommands l f,
    (linkUp s l = false → Answers c.1 s (· = s))
    ∧ (linkUp s l = true → f.head.fec = true ∨ flitCrcOk f c.2 = false → Answers c.1 s (fun t =>
        (getLink t l).gap = true ∧ (getLink t l).rxSeq = (getLink s l).rxSeq ∧ (getLink t l).buffer = (getLink s l).buffer
          ∧ (f.head.fec = true → rd s (linkPg l) F.FEC_UNCORR_CW < 2 ^ 32 - 2 → rd t (linkPg l) F.FEC_UNCORR_CW = rd s (linkPg l) F.FEC_UNCORR_CW + 1)
          ∧ (f.head.fec = false → rd s (linkPg l) F.FLIT_CRC_ERR < 2 ^ 32 - 2 → rd t (linkPg l) F.FLIT_CRC_ERR = rd s (linkPg l) F.FLIT_CRC_ERR + 1)
          ∧ t.out = s.out ++ [asking s l] ∧ (getLink t l).nackDue = false ∧ Only [.regs, .tally, .links, .out] s t))
    ∧ (linkUp s l = true → f.head.fec = false → flitCrcOk f c.2 = true → f.head.nack = false → (getLink s l).held = [] →
        f.head.seq.toNat ≠ (getLink s l).rxSeq →
        (serialNewer 12 f.head.seq.toNat (getLink s l).rxSeq = true → Answers c.1 s (fun t =>
          (getLink t l).gap = true ∧ (getLink t l).rxSeq = (getLink s l).rxSeq ∧ (getLink t l).buffer = afterAck (getLink s l) f.head.ack.toNat
            ∧ t.out = s.out ++ [asking s l] ∧ Only [.regs, .tally, .links, .out] s t))
        ∧ (serialNewer 12 f.head.seq.toNat (getLink s l).rxSeq = false → Answers c.1 s (fun t =>
          (getLink t l).gap = (getLink s l).gap ∧ (getLink t l).rxSeq = (getLink s l).rxSeq
            ∧ (getLink t l).buffer = afterAck (getLink s l) f.head.ack.toNat ∧ Only [.links, .out] s t))))
  ∧ (∀ (s : State) (l : Fin 96) (f : Flit), inOrder s l f 0 →
    Answers (.idleFlit l f) s (fun t => (getLink t l).rxSeq = (getLink s l).rxSeq ∧ (getLink t l).gap = false ∧ (getLink t l).nackDue = false
      ∧ (getLink t l).buffer = afterAck (getLink s l) f.head.ack.toNat ∧ t.out = s.out ++ [.flit l (getLink s l).idle]
      ∧ (∀ k, k ≠ l.val → getLink t k = getLink s k) ∧ Only [.links, .out] s t))
  ∧ (∀ (s : State) (l : Fin 96) (f : Flit), linkUp s l = true → f.head.fec = false → flitCrcOk f 0 = true → f.head.nack = true →
    f.head.seq.toNat = (getLink s l).rxSeq → (getLink s l).held = [] → (getLink s l).replays = 0 →
    ∀ e es, afterAck (getLink s l) f.head.ack.toNat = e :: es → Answers (.idleFlit l f) s (fun t =>
      t.out = s.out ++ .flit l ((getLink s l).flit e.1 e.2) :: es.map (fun y => .flit l ({ getLink s l with nackDue := false }.flit y.1 y.2))
          ++ [.flit l { getLink s l with nackDue := false }.idle]
        ∧ (getLink t l).replays = 1 ∧ (getLink t l).buffer = e :: es ∧ (getLink t l).gap = false
        ∧ (rd s (linkPg l) F.LINK_REPLAY_CNT < 2 ^ 32 - 2 → rd t (linkPg l) F.LINK_REPLAY_CNT = rd s (linkPg l) F.LINK_REPLAY_CNT + 1)
        ∧ Only [.regs, .links, .out] s t)))
  ∧ ((∀ (s : State) (l : Fin 96) (f : Flit), inOrder s l f 1 →
    ((getLink s l).landing.length < 512 → Answers (.dataFlit l f) s (fun t =>
      (getLink t l).rxSeq = ((getLink s l).rxSeq + 1) % 4096 ∧ (getLink t l).gap = false
      ∧ (∀ e g, f.dev.toNat = ownId s → receiveEntry s l = some e → f.tally.toNat = s.tally.num % 65536 → f.space.toNat < 2 →
          foldOfSlot s f.slot.toNat = some g → (getLink t l).landing = (getLink s l).landing ++ [{
            vis := flitVis s e (getD 0 (getLink s l).got (entryKey e))
            addr := if f.space = 0 then vsAddr g (256 * f.addr.toNat) else stagingAddr g (256 * f.addr.toNat)
            data := if f.zero then List.replicate 256 0 else f.payload }])
      ∧ (∀ e, f.dev.toNat ≠ ownId s → forwardEntry s l = some e →
          let enter := s.pause.base + e.2.2.cycle + getD 0 (getLink s l).passed (entryKey e) * slotCycles (getDrove s e.1).pstate
          (getLink t e.2.2.link).fwd = (getLink s e.2.2.link).fwd ++ [{ enter := enter, late := decide (enter < clock s), flit := passed f }])
      ∧ ((f.dev.toNat = ownId s ∧ (receiveEntry s l = none ∨ f.tally.toNat ≠ s.tally.num % 65536 ∨ 2 ≤ f.space.toNat))
            ∨ (f.dev.toNat ≠ ownId s ∧ forwardEntry s l = none) →
          (getLink t l).landing = (getLink s l).landing
            ∧ (rd s (linkPg l) F.STALE_DISCARD < 2 ^ 32 - 2 → rd t (linkPg l) F.STALE_DISCARD = rd s (linkPg l) F.STALE_DISCARD + 1))
      ∧ Only [.regs, .views, .log, .folds, .flocks, .links, .out] s t))
    ∧ (512 ≤ (getLink s l).landing.length → Answers (.dataFlit l f) s (fun t =>
      (getLink t l).rxSeq = (getLink s l).rxSeq ∧ (getLink t l).gap = true ∧ (getLink t l).landing = (getLink s l).landing
        ∧ t.out = s.out ++ [asking s l] ∧ Only [.regs, .tally, .links, .out] s t)))
  ∧ (∀ (s : State) (l : Fin 96) (f : Flit), inOrder s l f 4 →
    Answers (.ctrlFlit l f) s (fun t => (getLink t l).rxSeq = ((getLink s l).rxSeq + 1) % 4096 ∧ (getLink t l).stopped = f.stop
      ∧ (f.stop = true → frozen t = true) ∧ (f.stop = true ∨ (getLink s l).stopped = false → t.pause = s.pause ∧ t.free = s.free)
      ∧ (f.stop = false → (getLink s l).stopped = true →
          rd t (linkPg l) F.BP_PAUSE_CYC = min (2 ^ 32 - 1) (rd s (linkPg l) F.BP_PAUSE_CYC + (1 + Config.freeNat s.free)))
      ∧ Only [.free, .regs, .pause, .links, .out] s t))
  ∧ (∀ (s : State) (l : Fin 96) (f : Flit), inOrder s l f 3 →
    ∀ k, (parseMsg f.payload).dest ≠ ownId s → primaryLink s (parseMsg f.payload).dest = some k → linkUp s k = true →
      (getLink s k).buffer.length < 512 →
      Answers (.msgFlit l f) s (fun t =>
        (getLink t k).buffer.getLast? = some ((getLink s k).txSeq, .msg (parseMsg f.payload))
          ∧ (k ≠ l.val → t.out = s.out ++ [.flit k ((getLink s k).flit (getLink s k).txSeq (.msg (parseMsg f.payload))),
              .flit l { getLink s l with rxSeq := ((getLink s l).rxSeq + 1) % 4096 }.idle])
          ∧ t.msgs = s.msgs ∧ Only [.regs, .links, .out] s t)))

/-- Link states (R324, R330, R335, R341): ENABLE trains a link that is OFF and takes one OFF; RETRAIN trains any other; training that ends
is UP with its peer and λ, out of scheduled use if a drove's entry does not cover that λ, or FAILED when the installations differ or
after 100 ms; a FAILED link trains again. Link-level retry and slots (R325, R326, R328, R334, R335): a timeout sends every unacknowledged flit again, the ninth replay of an episode and an
episode of 2 µs fail the link. A scheduled flit enters the link when its own slot has come, and a forwarded one in its booked slot or, late, in one
that no booking holds; it stays for replay; while the replay buffer is full it waits for room, and on a link that is not UP it is lost. -/
def Obligations.LinksTrainRetryAndFail : Prop :=
  (∀ (s : State) (l : Fin 96),
    (∀ src, seesPage s src (linkPg l) = true →
      (linkState s l = 0 → idValid s = true → Answers (.linkEnable src l true) s (fun t =>
        linkState t l = 1 ∧ (getLink t l).txSeq = 0 ∧ (getLink t l).rxSeq = 0 ∧ (getLink t l).buffer = [] ∧ (getLink t l).stopped = false
          ∧ (∀ k, k ≠ l.val → getLink t k = getLink s k)
          ∧ ((getLink s l).stopped = false → OnlyIn [.links] [(linkPg l, F.LINK_CTRL_ENABLE, 0), (linkPg l, F.LINK_STATE_STATE, 0)] s t)
          ∧ Only [.free, .regs, .pause, .links] s t))
      ∧ (linkState s l ≠ 0 ∨ idValid s = false → Answers (.linkEnable src l true) s (fun t =>
        linkState t l = linkState s l ∧ OnlyIn [] [(linkPg l, F.LINK_CTRL_ENABLE, 0)] s t))
      ∧ Answers (.linkEnable src l false) s (fun t =>
        linkState t l = 0 ∧ rd t (linkPg l) F.LINK_PEER_VALID = 0 ∧ (getLink t l).buffer = [] ∧ (getLink t l).sched = []
          ∧ (getLink t l).stopped = false ∧ (∀ k, k ≠ l.val → getLink t k = getLink s k)
          ∧ ((getLink s l).stopped = false →
              OnlyIn [.links] [(linkPg l, F.LINK_CTRL_ENABLE, 0), (linkPg l, F.LINK_STATE_STATE, 0), (linkPg l, F.LINK_PEER_VALID, 0)] s t)
          ∧ Only [.free, .regs, .pause, .links] s t)
      ∧ (linkState s l ≠ 0 → Answers (.retrain src l) s (fun t =>
        linkState t l = 1 ∧ (getLink t l).buffer = [] ∧ (getLink t l).txSeq = 0 ∧ (getLink t l).rxSeq = 0
          ∧ ((getLink s l).stopped = false → OnlyIn [.links] [(linkPg l, F.LINK_STATE_STATE, 0)] s t) ∧ Only [.free, .regs, .pause, .links] s t))
      ∧ (linkState s l = 0 → Answers (.retrain src l) s (· = s)))
    ∧ (∀ (peer : Fin 32768) (there : Fin 96) (install : Word) (lambda : Nat), linkState s l = 1 →
      Answers (.trainingDone l peer there install lambda) s (fun t =>
        (install.toNat = rd s bootPg F.INSTALL_ID → linkState t l = 2 ∧ rd t (linkPg l) F.LINK_PEER_ID = peer ∧ rd t (linkPg l) F.LINK_PEER_VALID = 1
          ∧ rd t (linkPg l) F.LINK_PEER_LINK = there ∧ rd t (linkPg l) F.LINK_LATENCY = lambda % 2 ^ 16
          ∧ (getLink t l).altNext = ((getLink s l).altNext || !linkPasses t l) ∧ Only [.regs, .links] s t)
        ∧ (install.toNat ≠ rd s bootPg F.INSTALL_ID → linkState t l = 3 ∧ rd t (linkPg l) F.LINK_STATE_CAUSE = 4
          ∧ Only [.free, .regs, .views, .log, .pause, .links] s t)))
    ∧ (linkState s l = 1 → Answers (.trainingTimeout l) s (fun t =>
      linkState t l = 3 ∧ rd t (linkPg l) F.LINK_STATE_CAUSE = 1 ∧ bit (rd t (linkPg l) F.ERR_SUM) 3 = true
        ∧ (rd s (linkPg l) F.LINK_FAIL_CNT < 2 ^ 32 - 2 → rd t (linkPg l) F.LINK_FAIL_CNT = rd s (linkPg l) F.LINK_FAIL_CNT + 1)
        ∧ (getLink t l).altNext = true ∧ Only [.free, .regs, .views, .log, .pause, .links] s t))
    ∧ (linkState s l = 3 → Answers (.failedRetryTimer l) s (fun t =>
      linkState t l = 1 ∧ ((getLink s l).stopped = false → OnlyIn [.links] [(linkPg l, F.LINK_STATE_STATE, 0)] s t)
        ∧ Only [.free, .regs, .pause, .links] s t)))
  ∧ (∀ (s : State) (l : Fin 96),
    (linkUp s l = true → ∀ e es, (getLink s l).buffer = e :: es →
      ((getLink s l).replays < 8 → Answers (.ackTimeout l) s (fun t =>
        t.out = s.out ++ .flit l ((getLink s l).flit e.1 e.2) :: es.map (fun y => .flit l ({ getLink s l with nackDue := false }.flit y.1 y.2))
          ∧ (getLink t l).buffer = (getLink s l).buffer ∧ (getLink t l).replays = (getLink s l).replays + 1
          ∧ (rd s (linkPg l) F.LINK_REPLAY_CNT < 2 ^ 32 - 2 → rd t (linkPg l) F.LINK_REPLAY_CNT = rd s (linkPg l) F.LINK_REPLAY_CNT + 1)
          ∧ Only [.regs, .links, .out] s t))
      ∧ (8 ≤ (getLink s l).replays → Answers (.ackTimeout l) s (fun t =>
        linkState t l = 3 ∧ rd t (linkPg l) F.LINK_STATE_CAUSE = 2 ∧ (getLink t l).buffer = [] ∧ t.out = s.out
          ∧ Only [.free, .regs, .views, .log, .pause, .links] s t)))
    ∧ (linkUp s l = true → (getLink s l).buffer = [] → Answers (.ackTimeout l) s (· = s))
    ∧ (linkUp s l = true → 0 < (getLink s l).replays → Answers (.retryEpisodeTimeout l) s (fun t =>
        linkState t l = 3 ∧ rd t (linkPg l) F.LINK_STATE_CAUSE = 3 ∧ (getLink t l).buffer = []
          ∧ Only [.free, .regs, .views, .log, .pause, .links] s t))
    ∧ (∀ (x : OutFlit),
      (∀ c, (c = Instr.sendSlot l ∧ slotFlit s (getLink s l).sched = some x) ∨ (c = Instr.forwardSlot l ∧ forwardNext s l = some x) →
        (linkUp s l = true → (getLink s l).buffer.length < 512 → Answers c s (fun t =>
          t.out = s.out ++ [.flit l ((getLink s l).flit (getLink s l).txSeq (.data x.flit))] ∧ (getLink t l).txSeq = ((getLink s l).txSeq + 1) % 4096
            ∧ (getLink t l).buffer = (getLink s l).buffer ++ [((getLink s l).txSeq, .data x.flit)] ∧ Only [.regs, .links, .out] s t))
        ∧ (linkUp s l = true → 512 ≤ (getLink s l).buffer.length → Answers c s (fun t =>
          (getLink t l).held = (getLink s l).held ++ [.data x.flit] ∧ (getLink t l).buffer = (getLink s l).buffer ∧ Only [.links] s t))
        ∧ (linkUp s l = false → Answers c s (fun t => t.out = s.out ∧ (getLink t l).buffer = (getLink s l).buffer ∧ Only [.links] s t)))
      ∧ (slotFlit s (getLink s l).sched = some x → x ∈ (getLink s l).sched ∧ x.enter ≤ clock s
          ∧ (∀ y ∈ (getLink s l).sched, y.enter ≤ clock s → x.enter ≤ y.enter)
          ∧ Answers (.sendSlot l) s (fun t => (getLink t l).sched = dropOut x (getLink s l).sched ∧ (getLink t l).fwd = (getLink s l).fwd))
      ∧ (forwardNext s l = some x → x ∈ (getLink s l).fwd
          ∧ Answers (.forwardSlot l) s (fun t => (getLink t l).fwd = dropOut x (getLink s l).fwd ∧ (getLink t l).sched = (getLink s l).sched))))

/-! ## The message layer and the muster chain -/

/-- Messages between devices (R290, R337 to R339, R397): the next message of a source and class is taken, a lane block to its flock, a checkpoint to
its pen's area (a mirror message of other sizes is discarded, and not acknowledged: R399); an older one is counted and acknowledged again; one past a gap waits. An acknowledgement releases what it covers and ends
the run of timeouts, a timeout sends the rest again, and the fourth in a row of a destination marks it unreachable. -/
def Obligations.DeviceMessagesRunInOrder : Prop :=
  (∀ (s : State) (m : LinkMsg) (cls : Nat),
    let key := 8 * m.source.val + cls
    let last := getD 0 s.msgs.rx key
    ∀ c, (c = Instr.mgmtMessage m ∧ cls = 0) ∨ (c = Instr.laneBlockMessage m ∧ cls = 1) ∨ (c = Instr.checkpointMessage m ∧ cls = 2) →
      (cls = 2 → mirrorFits s m.data = false → Answers c s (· = s))
      ∧ ((cls = 2 → mirrorFits s m.data = true) → m.seq.toNat = last % 65536 → Answers c s (fun t =>
        getD 0 t.msgs.rx key = m.seq.toNat + 1
          ∧ (cls = 0 → Only [.regs, .links, .msgs, .out] s t)
          ∧ (cls = 1 → (getServing t (fieldNat m.data 0 1 % 16)).block = m.data.drop 1
              ∧ (getServing t (fieldNat m.data 0 1 % 16)).blockStep = fieldNat (m.data.drop 1) 64 8 + 1
              ∧ Only [.regs, .links, .msgs, .drover, .out] s t)
          ∧ (cls = 2 → OnlyBytes (fun a => windowOf (extents s (fieldNat m.data 0 1 % 16)) a 0 ≠ none) s t
              ∧ Only [.regs, .views, .log, .mem, .fresh, .care, .links, .msgs, .out] s t)))
      ∧ ((cls = 2 → mirrorFits s m.data = true) → last ≠ 0 → m.seq.toNat ≠ last % 65536 → serialNewer 16 m.seq.toNat (65535 + last) = false → Answers c s (fun t =>
        t.msgs.rx = s.msgs.rx ∧ (rd s iodPg F.MSG_DUP_CNT < 2 ^ 32 - 2 → rd t iodPg F.MSG_DUP_CNT = rd s iodPg F.MSG_DUP_CNT + 1)
          ∧ Only [.regs, .links, .msgs, .out] s t))
      ∧ (m.seq.toNat ≠ last % 65536 → last = 0 ∨ serialNewer 16 m.seq.toNat (65535 + last) = true → Answers c s (· = s)))
  ∧ (∀ (s : State) (dest : Fin 32768) (cls : Fin 8),
    (∀ seq : BitVec 16, Answers (.messageAck dest cls seq) s (fun t =>
      let rest := (getTx s dest cls).unacked.filter (fun x => serialNewer 16 x.1 seq.toNat)
      (getTx t dest cls).unacked = rest ∧ (getTx t dest cls).next = (getTx s dest cls).next
        ∧ (rest.length < (getTx s dest cls).unacked.length → getD 0 t.msgs.timeouts dest = 0 ∧ t.msgs.unreach.contains dest.val = false)
        ∧ (rest.length = (getTx s dest cls).unacked.length → t.msgs = s.msgs)
        ∧ (∀ d k, 8 * d + k ≠ 8 * dest.val + cls.val → getTx t d k = getTx s d k)
        ∧ (cls ≠ 2 → Only [.msgs] s t) ∧ Only [.regs, .msgs, .drover] s t))
    ∧ ((getTx s dest cls).unacked = [] → Answers (.messageTimeout dest cls) s (· = s))
    ∧ ((getTx s dest cls).unacked ≠ [] → Answers (.messageTimeout dest cls) s (fun t =>
      getD 0 t.msgs.timeouts dest = getD 0 s.msgs.timeouts dest + 1 ∧ (getTx t dest cls).unacked = (getTx s dest cls).unacked
        ∧ (rd s iodPg F.MSG_TIMEOUT_CNT < 2 ^ 32 - 2 → rd t iodPg F.MSG_TIMEOUT_CNT = rd s iodPg F.MSG_TIMEOUT_CNT + 1)
        ∧ (getD 0 s.msgs.timeouts dest = 3 → t.msgs.unreach.contains dest.val = true ∧ bit (rd t iodPg F.ERR_SUM) 3 = true
            ∧ (rd s iodPg F.MSG_UNREACH_CNT < 2 ^ 32 - 2 → rd t iodPg F.MSG_UNREACH_CNT = rd s iodPg F.MSG_UNREACH_CNT + 1))
        ∧ (getD 0 s.msgs.timeouts dest ≠ 3 → t.msgs.unreach = s.msgs.unreach ∧ t.log = s.log)
        ∧ Only [.regs, .views, .log, .links, .msgs, .out] s t)))

/-- The muster chain (R340): two equal frames in a row give the position, the same value above 15 an error; a chain input that stays low gives
position 0, and 1 ms without a position an error; boot then goes on. The position is sent on one higher. -/
def Obligations.MusterGivesThePosition : Prop :=
  ∀ s : State,
    (musterOpen s = true → s.boot.waiting = false →
      (∀ v : Fin 32, Answers (.musterFrame v) s (fun t => t.muster.last = v.val + 1
        ∧ (s.muster.last ≠ v.val + 1 → OnlyIn [.muster] [] s t)
        ∧ (s.muster.last = v.val + 1 → v.val < 16 → rd t iodPg F.MUSTER_STATUS_POS = v.val ∧ rd t iodPg F.MUSTER_STATUS_VALID = 1
            ∧ OnlyIn [.muster] [(iodPg, F.MUSTER_STATUS_POS, 0), (iodPg, F.MUSTER_STATUS_VALID, 0)] s t)
        ∧ (s.muster.last = v.val + 1 → 16 ≤ v.val → rd t iodPg F.MUSTER_STATUS_ERR = 1 ∧ bit (rd t iodPg F.ERR_SUM) 4 = true)))
      ∧ (s.muster.last = 0 → Answers .musterHeadTimeout s (fun t => rd t iodPg F.MUSTER_STATUS_POS = 0 ∧ rd t iodPg F.MUSTER_STATUS_VALID = 1
        ∧ OnlyIn [] [(iodPg, F.MUSTER_STATUS_POS, 0), (iodPg, F.MUSTER_STATUS_VALID, 0)] s t))
      ∧ Answers .musterTimeout s (fun t => rd t iodPg F.MUSTER_STATUS_ERR = 1 ∧ bit (rd t iodPg F.ERR_SUM) 4 = true ∧ Only [.regs] s t))
    ∧ (musterOpen s = true → s.boot.waiting = true → s.muster.last = 0 → Answers .musterHeadTimeout s (fun t =>
        t.boot.up = true ∧ t.boot.waiting = false))
    ∧ (positionValid s = true → Answers .musterFrameSend s (fun t =>
        t.out = s.out ++ [.muster (rd s iodPg F.MUSTER_STATUS_POS + 1)] ∧ Only [.muster, .out] s t))

/-! ## The Ethernet port -/

namespace Sys2Proof.Claims

/-- A frame of one pen that the port takes. -/
def forPen (s : State) (f : EthFrame) (p : Nat) : Prop :=
  portUp s = true ∧ f.fcsBad = false ∧ f.etype ≠ 0x8808 ∧ f.len ≤ 9212 ∧ framePens s f = [p]

/-- One frame is received, and one is sent. -/
def framesCounted (s t : State) (rx tx : Nat) : Prop :=
  (rd s ethPg F.FRAMES_RX < 2 ^ 32 - 2 → rd t ethPg F.FRAMES_RX = rd s ethPg F.FRAMES_RX + rx)
    ∧ (rd s ethPg F.FRAMES_TX < 2 ^ 32 - 2 → rd t ethPg F.FRAMES_TX = rd s ethPg F.FRAMES_TX + tx)

/-- The advertisement for the address of a pen with the solicited and override flags, or with the override flag alone. -/
def advert (s : State) (p : Nat) (dest : List Byte) (solicited : Bool) : List Byte :=
  let m := [(136 : Byte), 0, 0, 0, if solicited then 0x60 else 0x20, 0, 0, 0] ++ penV6 s p ++ [2, 1] ++ macBytes (penMac s p)
  sealed (pseudo (penV6 s p) dest 32) m

end Sys2Proof.Claims

/-- Frames (R343 to R345, R365): the port follows the PCS; a damaged frame is counted and dropped; a frame of a pen counts; an ARP
request, a neighbour solicitation or an echo request for the address of its pen is answered with one frame. Precision time (R351): a
two-step Sync waits for its Follow_Up; a first complete Sync steps the clock, which has counted on by an amount that is free (the model's choice: log entry 1), by the offset, shows it, and sends a delay request,
whose answer gives the mean path delay; without Sync the clock holds over. -/
def Obligations.FramesAndTheClock : Prop :=
  ((∀ (s : State) (up : Bool), netUp s = true → Answers (.ethLinkChange up) s (fun t =>
    rd t ethPg F.ETH_STATUS_UP = up.toNat ∧ rd t ethPg F.ETH_STATUS_PCS = up.toNat
      ∧ OnlyIn [] [(ethPg, F.ETH_STATUS_UP, 0), (ethPg, F.ETH_STATUS_PCS, 0)] s t))
  ∧ (∀ (s : State) (f : EthFrame), ∀ c ∈ [Instr.ethFrame f, .arpRequest f, .neighbourSolicitation f, .echoRequest f],
    (portUp s = false → Answers c s (· = s))
    ∧ (portUp s = true → f.fcsBad = true → Answers c s (fun t =>
        (rd s ethPg F.FCS_ERR < 2 ^ 32 - 2 → rd t ethPg F.FCS_ERR = rd s ethPg F.FCS_ERR + 1)
          ∧ OnlyIn [] [(ethPg, F.FCS_ERR, 0), (ethPg, F.STATUS_SAT, 0)] s t)))
  ∧ (∀ (s : State) (f : EthFrame) (p : Nat), forPen s f p → f.etype ≠ 0x0806 → f.etype ≠ 0x0800 → f.etype ≠ 0x86DD →
    Answers (.ethFrame f) s (fun t => framesCounted s t 1 0 ∧ OnlyIn [] [(ethPg, F.FRAMES_RX, 0), (ethPg, F.STATUS_SAT, 0)] s t))
  ∧ (∀ (s : State) (f : EthFrame) (p : Nat) (ip : List Byte), forPen s f p → f.etype = 0x0806 →
    slice f.payload 0 8 = [0, 1, 8, 0, 6, 4, 0, 1] → penV4 s p = some ip → slice f.payload 24 4 = ip →
    Answers (.arpRequest f) s (fun t => t.out = s.out ++ [.frame p f.src.toNat []
        ([0, 1, 8, 0, 6, 4, 0, 2] ++ macBytes (penMac s p) ++ ip ++ slice f.payload 8 10)]
      ∧ framesCounted s t 1 1 ∧ Only [.regs, .out] s t))
  ∧ (∀ (s : State) (f : EthFrame) (p : Nat) (m : List Byte), forPen s f p → f.etype = 0x86DD → packetPens s f [p] = [p] →
    icmp6 f.payload = some m →
    (num f.payload 7 1 = 255 → num m 0 1 = 135 → num m 1 1 = 0 → 24 ≤ m.length → slice m 8 16 = penV6 s p →
      (slice f.payload 8 16).any (· != 0) = true → Answers (.neighbourSolicitation f) s (fun t =>
        t.out = s.out ++ [.frame p f.src.toNat (slice f.payload 8 16) (advert s p (slice f.payload 8 16) true)]
          ∧ framesCounted s t 1 1 ∧ Only [.regs, .out] s t))
    ∧ (num m 0 1 = 128 → num m 1 1 = 0 → Answers (.echoRequest f) s (fun t =>
        t.out = s.out ++ [.frame p f.src.toNat (slice f.payload 8 16) (sealed (pseudo (penV6 s p) (slice f.payload 8 16) m.length) (129 :: m.drop 1))]
          ∧ framesCounted s t 1 1 ∧ Only [.regs, .out] s t))))
  ∧ (∀ (s : State) (p : PtpMsg), netUp s = true →
    (p.twoStep = true → Answers (.ptpSync p) s (fun t => t.ptp = { s.ptp with waiting := some (p.seq.toNat, p.rx - p.corr) } ∧ Only [.ptp] s t))
    ∧ (∀ c rx, (c = Instr.ptpSync p ∧ p.twoStep = false ∧ rx = p.rx) ∨ (c = Instr.ptpFollowUp p ∧ s.ptp.waiting = some (p.seq.toNat, rx)) →
      s.ptp.everSync = false → Answers c s (fun t =>
        let off := rx - p.corr - p.origin - s.ptp.delay
        t.ptp.now = ((((s.ptp.now + Config.freeNat s.free) % 2 ^ 64 : Nat) : Int) - off).toNat % 2 ^ 64 ∧ t.ptp.everSync = true ∧ t.ptp.waiting = none
          ∧ t.ptp.lastSync = (p.origin, rx - p.corr - off) ∧ t.ptp.delay = s.ptp.delay
          ∧ rd t ethPg F.PTP_OFFSET = ofSigned off 32 ∧ rd t ethPg F.ETH_STATUS_PTP = 1
          ∧ t.out = s.out ++ [.delayReq] ∧ Only [.free, .regs, .ptp, .out] s t))
    ∧ (s.ptp.everSync = true → Answers (.ptpDelayResp p) s (fun t =>
      t.ptp = { s.ptp with delay := (s.ptp.lastSync.2 - s.ptp.lastSync.1 + (p.origin - p.tx) - p.corr) / 2 } ∧ Only [.ptp] s t))
    ∧ (rd s ethPg F.ETH_STATUS_PTP = 1 → Answers .ptpHoldover s (fun t =>
      rd t ethPg F.ETH_STATUS_PTP = 2 ∧ OnlyIn [] [(ethPg, F.ETH_STATUS_PTP, 0)] s t)))

namespace Sys2Proof.Claims

/-- A request packet that a connected queue pair takes as its next: no error, no congestion mark, the expected PSN. -/
def nextPacket (s : State) (r : RdmaReq) : Prop :=
  netUp s = true ∧ (getQp s r.qp).st = 1 ∧ r.icrcBad = false ∧ r.ce = false ∧ r.psn.toNat = (getQp s r.qp).epsn

/-- The window of a pen is one extent of populated HBM. -/
def oneExtent (s : State) (p q st len : Nat) : Prop := extents s p = [(q, st, len)] ∧ q < 32 ∧ st + len ≤ shortPort

end Sys2Proof.Claims

/-- Requests to the window of a pen (R243, R346 to R350): a WRITE puts its data there and is acknowledged, a READ answers the bytes as the IOD
reads them, each moving the expected PSN on by its packets; a request outside the regions is turned down with a remote access error, and an
atomic with an invalid request, which puts the queue pair into error; a later PSN is a sequence error, which one NAK answers until a packet comes in order (the model's choice: log entry 113), and a WRITE
before the expected PSN is acknowledged again. A CE-marked request is answered with a CNP unless one has gone out in the 50 µs; a request whose
ICRC fails is counted and dropped. -/
def Obligations.RdmaRequestsReachTheWindow : Prop :=
  (∀ (s : State) (r : RdmaReq), nextPacket s r →
    let x := getQp s r.qp
    let n := x.packets r.len
    (∀ (data : List Byte) (q st len : Nat), s.rung = [] → r.key = 2 → data.length = r.len → oneExtent s x.pen q st len → r.addr + r.len ≤ len →
      Answers (.rdmaWrite r data) s (fun t =>
        readBytes t (0x800000000 * q + st + r.addr) r.len = data ∧ (getQp t r.qp).epsn = (x.epsn + n) % 2 ^ 24
          ∧ t.out = s.out ++ [.ack r.qp ((r.psn.toNat + n - 1) % 2 ^ 24) 0]
          ∧ OnlyBytes (fun a => 0x800000000 * q + st + r.addr ≤ a ∧ a < 0x800000000 * q + st + r.addr + r.len) s t
          ∧ Only [.regs, .mem, .fresh, .care, .net, .out] s t))
    ∧ (r.key = 2 → inWindow s x.pen r.addr r.len = true → Answers (.rdmaRead r) s (fun t =>
        t.out = s.out ++ [.readData r.qp r.psn.toNat (winBytes s x.pen r.addr r.len)] ∧ (getQp t r.qp).epsn = (x.epsn + n) % 2 ^ 24
          ∧ Only [.regs, .net, .out] s t))
    ∧ (regionOk s x.pen r = false → ∀ c, (∃ data, c = Instr.rdmaWrite r data) ∨ c = Instr.rdmaRead r → Answers c s (fun t =>
        t.out = s.out ++ [.ack r.qp r.psn.toNat 3] ∧ (getQp t r.qp).st ≠ 1 ∧ Only [.regs, .weights, .net, .out] s t))
    ∧ Answers (.atomic r.qp r.pkt) s (fun t =>
        t.out = s.out ++ [.ack r.qp r.psn.toNat 2] ∧ (getQp t r.qp).st ≠ 1 ∧ Only [.regs, .weights, .net, .out] s t)
    ∧ (∀ psn : BitVec 24, psn.toNat ≠ x.epsn → serialNewer 24 psn.toNat x.epsn = true →
      ∀ c, (∃ data, c = Instr.rdmaWrite { r with psn := psn } data) ∨ c = Instr.rdmaRead { r with psn := psn }
          ∨ c = Instr.atomic r.qp { r with psn := psn }.pkt →
        (x.naked = false → Answers c s (fun t =>
          t.out = s.out ++ [.ack r.qp x.epsn 1] ∧ getQp t r.qp = { x with naked := true } ∧ t.mem = s.mem ∧ Only [.regs, .net, .out] s t))
        ∧ (x.naked = true → Answers c s (· = s)))
    ∧ (∀ (psn : BitVec 24) (data : List Byte), psn.toNat ≠ x.epsn → serialNewer 24 psn.toNat x.epsn = false →
      Answers (.rdmaWrite { r with psn := psn } data) s (fun t =>
        t.out = s.out ++ [.ack r.qp ((2 ^ 24 - 1 + x.epsn) % 2 ^ 24) 0] ∧ getQp t r.qp = x ∧ t.mem = s.mem ∧ Only [.regs, .out] s t))
    ∧ (r.key = 2 → inWindow s x.pen r.addr r.len = true → Answers (.rdmaRead { r with ce := true }) s (fun t =>
        t.out = s.out ++ (if x.notified then [] else [.cnp r.qp]) ++ [.readData r.qp r.psn.toNat (winBytes s x.pen r.addr r.len)]
          ∧ (getQp t r.qp).notified = true
          ∧ (rd s ethPg F.ECN_CE_RX < 2 ^ 32 - 2 → rd t ethPg F.ECN_CE_RX = rd s ethPg F.ECN_CE_RX + 1) ∧ Only [.regs, .net, .out] s t)))
  ∧ (∀ (s : State) (r : RdmaReq), netUp s = true → (getQp s r.qp).st = 1 → r.icrcBad = true →
    ∀ c, (∃ data, c = Instr.rdmaWrite r data) ∨ c = Instr.rdmaRead r → Answers c s (fun t =>
      (rd s ethPg F.ICRC_ERR < 2 ^ 32 - 2 → rd t ethPg F.ICRC_ERR = rd s ethPg F.ICRC_ERR + 1)
        ∧ OnlyIn [] [(ethPg, F.ICRC_ERR, 0), (ethPg, F.STATUS_SAT, 0)] s t))

/-- Isolation (R239, R347): whatever a pen writes with the key of its window, no byte outside its own extents changes, and no register but
counters of the port, the state of the queue pair's own channel, and that of the weight loader's targets that the pair serves. -/
def Obligations.WindowWritesStayInTheWindow : Prop :=
  ∀ (s : State) (r : RdmaReq) (data : List Byte), r.key = 2 → s.rung = [] → Answers (.rdmaWrite r data) s (fun t =>
    OnlyBytes (fun a => windowOf (extents s (getQp s r.qp).pen) a 0 ≠ none) s t
      ∧ OnlyIn [.mem, .fresh, .care, .weights, .net, .out] ([(ethPg, F.ICRC_ERR, 0), (ethPg, F.ECN_CE_RX, 0), (ethPg, F.CNP_TX, 0),
          (ethPg, F.FRAMES_TX, 0), (ethPg, F.STATUS_SAT, 0), (shobPg, F.SHOB_ORPHAN_CNT, 0), (shobPg, F.STATUS_SAT, 0),
          (penPg (getQp s r.qp).pen, F.CH_STATE_STATE, (getQp s r.qp).chan - 1)]
        ++ ((List.range 64).filter (fun k => targetQp s k == some r.qp.val)).map (fun k => (wloadPg, F.WL_TARGET_STATE, k))) s t)

/-- Queue pairs (R346, R350, R363): acknowledgements move the first unacknowledged PSN on; a NAK for a sequence error or an unready receiver and a timeout send again, and
any other NAK (the model's choice: log entry 113) and a timeout past the retry limit fail the pair; a CNP halves the rate once in 50 µs, and 50 µs without one raise it by 10 Gb/s; a set-up takes the
lowest unused number within the quotas, a teardown frees it; a failed pair orphans its channel, or leaves the weight loader's target that it
served in error (R287). The answer of a target (R271; the model's choice: log entry 104) connects it, or leaves it in error. -/
def Obligations.QueuePairsAcknowledgeAndRecover : Prop :=
  (∀ (s : State) (q : Fin 2048), netUp s = true → (getQp s q).st = 1 →
    let x := getQp s q
    (∀ psn : BitVec 24, (2 ^ 24 + psn.toNat - x.acked) % 2 ^ 24 < x.outstanding →
      Answers (.rcAck q ⟨psn, false, false⟩ .ack) s (fun t =>
        getQp t q = { x with acked := (psn.toNat + 1) % 2 ^ 24, tries := 0 } ∧ (∀ k, k ≠ q.val → getQp t k = getQp s k) ∧ Only [.net] s t)
      ∧ (∀ n, n = AckKind.sequence ∨ n = .notReady → Answers (.rcAck q ⟨psn, false, false⟩ n) s (fun t =>
        getQp t q = { x with acked := psn.toNat, tries := 0 } ∧ t.out = s.out ++ [.resend q psn.toNat] ∧ Only [.regs, .net, .out] s t))
      ∧ (∀ n, n = AckKind.invalid ∨ n = .access ∨ n = .operational → Answers (.rcAck q ⟨psn, false, false⟩ n) s (fun t =>
        (getQp t q).st ≠ 1 ∧ t.out = s.out ∧ Only [.regs, .weights, .net] s t)))
    ∧ (∀ k n, k.icrcBad = true → Answers (.rcAck q k n) s (fun t => OnlyIn [] [(ethPg, F.ICRC_ERR, 0), (ethPg, F.STATUS_SAT, 0)] s t))
    ∧ (0 < x.outstanding → x.tries < x.limit → Answers (.rcAckTimeout q) s (fun t =>
        getQp t q = { x with tries := x.tries + 1 } ∧ t.out = s.out ++ [.resend q x.acked]
          ∧ (rd s ethPg F.RC_RETRANS < 2 ^ 32 - 2 → rd t ethPg F.RC_RETRANS = rd s ethPg F.RC_RETRANS + 1) ∧ Only [.regs, .net, .out] s t))
    ∧ (∀ c, (c = Instr.rcAckTimeout q ∧ 0 < x.outstanding ∧ x.limit ≤ x.tries) ∨ c = Instr.qpError q → Answers c s (fun t =>
        (x.chan = 0 → getQp t q = Qp.init ∧ (∀ k, k < 64 → targetQp s k = some q.val → rd t wloadPg F.WL_TARGET_STATE k = 3 ∧ targetQp t k = none)
            ∧ ((∀ k, k < 64 → targetQp s k ≠ some q.val) → Only [.net] s t))
          ∧ (x.chan ≠ 0 → getQp t q = { x with st := 2 } ∧ (chanState s x.pen (x.chan - 1) = 1 → x.pen < 16 → x.chan ≤ 128 → chanState t x.pen (x.chan - 1) = 2)
            ∧ Only [.regs, .net] s t)
          ∧ Only [.regs, .weights, .net] s t))
    ∧ Answers (.cnp q) s (fun t =>
        getQp t q = (if x.acted then x else { x with rate := max 1000 (x.rate / 2), acted := true })
          ∧ (rd s ethPg F.CNP_RX < 2 ^ 32 - 2 → rd t ethPg F.CNP_RX = rd s ethPg F.CNP_RX + 1) ∧ Only [.regs, .net] s t)
    ∧ (q.val ≠ qp1 → Answers (.rateRecovery q) s (fun t =>
        getQp t q = { x with rate := if x.acted then x.rate else min portSpeed (x.rate + 10000), acted := false, notified := false } ∧ Only [.net] s t))
    ∧ (∀ m : CmMsg, m.ce = false → m.icrcBad = false → m.target = none → m.setup = false → m.qp = q → x.pen = m.pen.val → penThere s m.pen = true → Answers (.cmMessage m) s (fun t =>
        getQp t q = Qp.init ∧ t.out = s.out ++ [.cmReply m.pen true q] ∧ Only [.regs, .weights, .net, .out] s t)))
  ∧ (∀ (s : State) (m : CmMsg), netUp s = true → m.ce = false → m.icrcBad = false → m.target = none → m.setup = true → penThere s m.pen = true →
    (∀ k, m.mtu ∈ [1024, 2048, 4096] → (List.range 1024).find? (fun q => (getQp s q).st == 0) = some k →
        qpsUsed s (fun y => y.pen == m.pen.val) < rd s (penPg m.pen) F.PEN_QP_QUOTA → allQps s < 1024 → Answers (.cmMessage m) s (fun t =>
          (getQp t k).st = 1 ∧ (getQp t k).pen = m.pen.val ∧ (getQp t k).mtu = m.mtu ∧ (getQp t k).epsn = m.psn.toNat ∧ (getQp t k).outstanding = 0
            ∧ (getQp t k).rate = portSpeed ∧ (∀ j, j ≠ k → getQp t j = getQp s j) ∧ t.out = s.out ++ [.cmReply m.pen true k]
            ∧ Only [.free, .regs, .net, .out] s t))
    ∧ (¬ (m.mtu ∈ [1024, 2048, 4096]) ∨ rd s (penPg m.pen) F.PEN_QP_QUOTA = 0 → Answers (.cmMessage m) s (fun t =>
        t.out = s.out ++ [.cmReply m.pen false 0] ∧ t.net = s.net ∧ Only [.regs, .out] s t)))
  ∧ (∀ (s : State) (m : CmMsg) (k : Fin 64) (q : Nat), netUp s = true → m.ce = false → m.icrcBad = false → penThere s m.pen = true → m.target = some k → targetQp s k = some q →
    (getQp s q).st = 3 → (getQp s q).pen = m.pen.val → Answers (.cmMessage m) s (fun t =>
      (m.setup = true → m.mtu ∈ [1024, 2048, 4096] → rd t wloadPg F.WL_TARGET_STATE k = 2 ∧ (getQp t q).st = 1 ∧ (getQp t q).mtu = m.mtu
          ∧ (getQp t q).epsn = m.psn.toNat ∧ targetQp t k = some q)
        ∧ (m.setup = false → rd t wloadPg F.WL_TARGET_STATE k = 3 ∧ targetQp t k = none)
        ∧ Only [.free, .regs, .weights, .net, .out] s t))

/-! ## Channels -/

/-- Channels (R346, R352, R355, R361, R363): CHANNEL_OPEN is acknowledged; it gives the lowest free index with the sequence of the message, or
adopts the orphan with its key, whose sequence stays; a malformed one is answered BAD_MSG, and one that finds no index NO_CHANNEL; on a
queue pair that has a channel it is a malformed message of that channel; a doorbell shows its tail and leaves a part of a message; the ring head drains what waits; an orphan not
adopted in 10 s closes at the next fire. -/
def Obligations.ChannelsOpenAdoptAndClose : Prop :=
  (∀ (s : State) (p : Fin 16) (q : Fin 2048) (h : OpenHead) (tag : BitVec 64) (b : List Byte), ordered s q h.pkt → h.pkt.ce = false →
    (getQp s q).pen = p.val → (getQp s q).chan = 0 →
    (h.bad = false → openOk s p b = true → bit (num b 8 1) 1 = false → ∀ c, freeChannel s p = some c → Answers (.channelOpen p q h tag b) s (fun t =>
      chanState t p c = 1 ∧ chanQp t p c = q.val % 1024 ∧ (getChan t p c).seq = h.seq.toNat ∧ (getChan t p c).key = slice b 0 8
        ∧ (getChan t p c).records = num b 36 4 ∧ (getQp t q).chan = c + 1 ∧ rd t (penPg p) F.CH_SQ_HEAD c = 0 ∧ rd t (penPg p) F.CH_SQ_TAIL c = 0
        ∧ (∀ k, chanKey p c ≠ k → getD Chan.init t.net.chans k = getD Chan.init s.net.chans k)
        ∧ Only [.regs, .net, .out] s t))
    ∧ (h.bad = false → openOk s p b = true → bit (num b 8 1) 1 = true → ∀ c, orphanOf s p (slice b 0 8) = some c → Answers (.channelOpen p q h tag b) s (fun t =>
      chanState t p c = 1 ∧ (getChan t p c).seq = (getChan s p c).seq
        ∧ (rd s shobPg F.SHOB_ADOPT_CNT < 2 ^ 32 - 2 → rd t shobPg F.SHOB_ADOPT_CNT = rd s shobPg F.SHOB_ADOPT_CNT + 1)
        ∧ Only [.regs, .net, .out] s t))
    ∧ (∀ status : Nat, ((h.bad = true ∨ openOk s p b = false) ∧ status = 0xF0)
          ∨ (h.bad = false ∧ openOk s p b = true ∧ bit (num b 8 1) 1 = false ∧ freeChannel s p = none ∧ status = 0xF4)
          ∨ (h.bad = false ∧ openOk s p b = true ∧ bit (num b 8 1) 1 = true ∧ orphanOf s p (slice b 0 8) = none ∧ status = 0xF4) →
      Answers (.channelOpen p q h tag b) s (fun t =>
        t.net.chans = s.net.chans
          ∧ (∃ m, t.out = s.out ++ [.ack q (((getQp s q).epsn + (getQp s q).packets (32 + b.length) - 1) % 2 ^ 24) 0, .reply q m]
            ∧ m.getD 33 0 = BitVec.ofNat 8 status) ∧ Only [.regs, .net, .out] s t)))
  ∧ (∀ (s : State) (p : Fin 16) (q : Fin 2048) (h : OpenHead) (tag : BitVec 64) (b : List Byte) (c : Nat), ordered s q h.pkt →
    (getQp s q).pen = p.val → (getQp s q).chan = c + 1 → c < 128 → chanState s p c ≠ 0 → h.seq.toNat = ((getChan s p c).seq + 1) % 2 ^ 24 →
    Answers (.channelOpen p q h tag b) s (fun t => answered t (openMsg s p c h tag) 0x01 0xF0 [] ∧ (getChan t p c).seq = h.seq.toNat
      ∧ Only [.regs, .net, .out] s t))
  ∧ (∀ (s : State) (src : Source) (p : Fin 16) (ch : Fin 128) (v : Word), seesPage s src (penPg p) = true →
    let head := rd s (penPg p) F.CH_SQ_HEAD ch
    head < 2 ^ 32 → (s.rung = [] → (getChan s p ch).slots = 0 → Answers (.chSqTail src p ch v) s (fun t =>
      rd t (penPg p) F.CH_SQ_TAIL ch = rd s (penPg p) F.CH_SQ_TAIL ch
        ∧ (rd s (penPg p) F.DB_BAD < 2 ^ 32 - 2 → rd t (penPg p) F.DB_BAD = rd s (penPg p) F.DB_BAD + 1)
        ∧ OnlyIn [] [(penPg p, F.DB_BAD, 0), (penPg p, F.STATUS_SAT, 0)] s t))
    ∧ (s.rung = [] → serialNewer 32 v.toNat head = true → (2 ^ 32 + v.toNat - head) % 2 ^ 32 ≤ (getChan s p ch).slots →
      nextMessage (wr s (penPg p) F.CH_SQ_TAIL ch v.toNat) p ch = none → Answers (.chSqTail src p ch v) s (fun t =>
      rd t (penPg p) F.CH_SQ_TAIL ch = v.toNat ∧ OnlyIn [] [(penPg p, F.CH_SQ_TAIL, ch)] s t))
    ∧ Answers (.chTrHead src p ch v) s (fun t =>
      rd t (penPg p) F.CH_TR_HEAD ch = v.toNat ∧ ((getChan s p ch).spill = [] → OnlyIn [] [(penPg p, F.CH_TR_HEAD, ch)] s t)
        ∧ Only [.regs, .net, .out] s t))
  ∧ (∀ (s : State) (p : Fin 16) (ch : Fin 128), chanState s p ch = 2 → Answers (.orphanTimeout p ch) s (fun t =>
      chanState t p ch = 0 ∧ (getChan t p ch).spill = [] ∧ t.drover.latch = s.drover.latch ++ [.close p ch none] ∧ Only [.regs, .net, .drover] s t))

/-- PFX_KEY (R312, R408): the key is stored, every entry of the pen's prefix table is invalid, no byte outside the pen's window changes, and a
host's write waits for its journal entry. REPLAY_ENABLE (R412, R415): an IDLE replay waits for its flock from the start sequence on. -/
def Obligations.PrefixKeysAndReplay : Prop :=
  ∀ (s : State) (src : Source) (p : Fin 16), seesPage s src (penPg p) = true →
    (∀ (k : Fin 4) (v : Word), Answers (.pfxKey src p k v) s (fun t =>
      rd t (penPg p) F.PFX_KEY k = v.toNat
        ∧ (∀ q st len, oneExtent s p q st len → ∀ e ∈ validPfx s p, pfxAddr s p e.1 + 64 ≤ len →
            readByte t (0x800000000 * q + st + pfxAddr s p e.1 + 20) = 0)
        ∧ (hostWrite src = true → t.drover.latch = s.drover.latch ++ [.config (penPg p) (0x430 + 4 * k.val) v.toNat])
        ∧ (hostWrite src = false → t.drover = s.drover)
        ∧ OnlyBytes (fun a => windowOf (extents s p) a 0 ≠ none) s t
        ∧ ((∀ e ∈ validPfx s p, inWindow s p (pfxAddr s p e.1) 64 = true) → OnlyIn [.mem, .fresh, .care, .drover] [(penPg p, F.PFX_KEY, k)] s t)
        ∧ Only [.regs, .views, .log, .mem, .fresh, .care, .drover] s t))
    ∧ (∀ on : Bool, Answers (.replayEnable src p on) s (fun t =>
      rd t (penPg p) F.REPLAY_CTRL_ENABLE = on.toNat
        ∧ (on = true → replayState s p = 0 → replayState t p = 1)
        ∧ (on = false ∨ replayState s p ≠ 0 → OnlyIn [] [(penPg p, F.REPLAY_CTRL_ENABLE, 0)] s t)
        ∧ Only [.regs, .drover] s t))

/-! ## Housekeeping -/

/-- Rounds, droop captures, spot requests and sweeps (R417 to R433, R517): a round starts with a droop capture when its number is a multiple
of 2^CAP_DIV, which a spot request in progress holds back, and else at its first converting entry; one that cannot start waits; a capture ends
with the codes of its D channels in power management, and the entries begin; the value of a voltage or
reference entry, and 125 °C with FAULT of a broken sensor, are published at once with every flag of the channel; a spot request queues,
or is counted as dropped; a sweep marks every channel STALE and applies its fits only when every set passes. -/
def Obligations.HousekeepingConvertsAndSweeps : Prop :=
  (∀ (s : State) (u : Fin 3), hkRuns s = true →
    ((getHk s u).busy = false → (getHk s u).sweep = 0 →
      let captures := (getHk s u).round % 2 ^ rd s (hkPg u) F.HK_CTRL_CAP_DIV = 0
      (¬captures → ∀ e, nextEntry s u 0 = some e → Answers (.hkRoundStart u) s (fun t =>
        (getHk t u).busy = true ∧ (getHk t u).on = true ∧ (getHk t u).entry = e ∧ (getHk t u).round = (getHk s u).round + 1
          ∧ (∀ v, v ≠ u.val → getHk t v = getHk s v) ∧ Only [.regs, .hks] s t))
      ∧ (captures → Answers (.hkRoundStart u) s (fun t =>
        (getHk t u).busy = true ∧ (getHk t u).round = (getHk s u).round + 1
          ∧ ((getHk s u).spots = [] → (getHk t u).capture = 2 ∧ (getHk t u).on = false ∧ rd t (hkPg u) F.HK_STATUS_STATE = 3)
          ∧ ((getHk s u).spots ≠ [] → (getHk t u).capture = 1 ∧ (getHk t u).spots = (getHk s u).spots)
          ∧ (∀ v, v ≠ u.val → getHk t v = getHk s v) ∧ Only [.regs, .hks] s t)))
    ∧ (∀ codes : List (BitVec 12), (getHk s u).capture = 2 → codes.length = (droopChannels u).length → Answers (.hkEntryEnd u codes) s (fun t =>
      getD [] t.power.readings u = codes.map (·.toNat)
        ∧ ((getHk s u).busy = true → ∀ e, nextEntry s u 0 = some e → (getHk t u).capture = 0 ∧ (getHk t u).entry = e
            ∧ (getHk t u).on = ((getHk s u).sweep == 0))
        ∧ Only [.regs, .power, .hks] s t))
    ∧ ((getHk s u).busy = true ∨ (getHk s u).sweep ≠ 0 → Answers (.hkRoundStart u) s (fun t =>
      getHk t u = { getHk s u with late := true } ∧ Only [.hks] s t))
    ∧ (∀ codes : List (BitVec 12), (getHk s u).capture ≠ 2 → (getHk s u).on = true → (getHk s u).spots = [] → (getHk s u).busy = true → unitFailed s u = false →
      let ch := rd s (hkPg u) F.SCAN_CH (getHk s u).entry
      let m := mean ((trimmedCodes s u (codes.map (·.toNat))).map (·.2))
      codes.length = conversions (rd s (hkPg u) F.SCAN_AVG (getHk s u).entry) → converts u ch = true → Answers (.hkEntryEnd u codes) s (fun t =>
        rd t (hkPg u) F.TELEM_STALE ch = 0 ∧ rd t (hkPg u) F.TELEM_NEVER ch = 0
          ∧ (∀ k, chKind u ch = some (.ref k) → rd t (hkPg u) F.TELEM_VALUE ch = ofSigned (rne m) 16 ∧ rd t (hkPg u) F.TELEM_FAULT ch = 0)
          ∧ (chKind u ch = some .volt → rd t (hkPg u) F.TELEM_VALUE ch = ofSigned (hkValue s u ch m) 16
              ∧ rd t (hkPg u) F.TELEM_FAULT ch = 0)
          ∧ (∀ k, k < 128 → k ≠ ch → rd t (hkPg u) F.TELEM_VALUE k = rd s (hkPg u) F.TELEM_VALUE k) ∧ Only [.regs, .hks] s t))
    ∧ (∀ (ch : Fin 128) (avg : Fin 4),
      let q : Spot := { ch := ch, avg := avg, own := false, after := (getHk s u).sweep != 0 || (getHk s u).capture != 0 }
      ((getHk s u).sweep ≠ 2 → (getHk s u).capture ≠ 2 → (getHk s u).spots.length < 4 → Answers (.spotRequest u ch avg) s (fun t =>
        (getHk t u).spots = (getHk s u).spots ++ [q] ∧ (getHk t u).entry = (getHk s u).entry ∧ Only [.regs, .hks] s t))
      ∧ ((getHk s u).sweep = 2 ∨ (getHk s u).capture = 2 → Answers (.spotRequest u ch avg) s (fun t =>
        (rd s (hkPg u) F.SPOT_DROP < 2 ^ 32 - 2 → rd t (hkPg u) F.SPOT_DROP = rd s (hkPg u) F.SPOT_DROP + 1) ∧ Only [.regs] s t))
      ∧ ((getHk s u).sweep ≠ 2 → (getHk s u).capture ≠ 2 → 4 ≤ (getHk s u).spots.length → Answers (.spotRequest u ch avg) s (fun t =>
        (rd s (hkPg u) F.SPOT_OVF < 2 ^ 32 - 2 → rd t (hkPg u) F.SPOT_OVF = rd s (hkPg u) F.SPOT_OVF + 1) ∧ Only [.regs] s t)))
    ∧ (∀ src, seesPage s src (hkPg u) = true →
      ((getHk s u).sweep ≠ 2 → (getHk s u).capture ≠ 2 → (getHk s u).spots.length < 4 → Answers (.spotReqStart src u) s (fun t =>
        (getHk t u).spots = (getHk s u).spots ++ [{ ch := rd s (hkPg u) F.SPOT_REQ_CH, avg := rd s (hkPg u) F.SPOT_REQ_AVG, own := true,
                                                      after := (getHk s u).sweep != 0 || (getHk s u).capture != 0 }]
          ∧ rd t (hkPg u) F.SPOT_RESULT_STATUS = 1 ∧ Only [.regs, .hks] s t))
      ∧ Answers (.hkCalForce src u) s (fun t => (getHk t u).sweep = (if (getHk s u).sweep = 0 then 1 else (getHk s u).sweep) ∧ Only [.hks] s t))
    ∧ ((getHk s u).sweep = 1 → (getHk s u).on = false → (getHk s u).capture = 0 → Answers (.sweepStart u) s (fun t =>
      (getHk t u).sweep = 2 ∧ (getHk t u).spots = [] ∧ rd t (hkPg u) F.HK_STATUS_STATE = 2
        ∧ (∀ ch, ch < 128 → rd t (hkPg u) F.TELEM_STALE ch = 1 ∧ rd t (hkPg u) F.TELEM_VALUE ch = rd s (hkPg u) F.TELEM_VALUE ch)
        ∧ Only [.regs, .hks] s t))
    ∧ (∀ a b : List Rat, (getHk s u).sweep = 2 → convRetired s u 0 = false → convRetired s u 1 = false →
      (hkLimit s u 0 a = 0 → hkLimit s u 1 b = 0 → Answers (.sweepEnd u a b) s (fun t =>
        rd t (hkPg u) F.HK_TRIM_A_O = ofSigned (hkFit a).1 12 ∧ rd t (hkPg u) F.HK_TRIM_A_G = (hkFit a).2 % 2 ^ 16
          ∧ rd t (hkPg u) F.HK_TRIM_B_O = ofSigned (hkFit b).1 12 ∧ rd t (hkPg u) F.HK_TRIM_B_G = (hkFit b).2 % 2 ^ 16
          ∧ (getHk t u).sweep ≠ 2 ∧ Only [.free, .regs, .hks] s t))
      ∧ (hkLimit s u 0 a ≠ 0 → getD 0 (getHk s u).failed 0 < 2 → getD 0 (getHk s u).failed 2 < 2 → Answers (.sweepEnd u a b) s (fun t =>
        rd t (hkPg u) F.HK_STATUS_CAL_REJ = 1 ∧ (∀ v, hkOffset t u v = hkOffset s u v ∧ hkGain t u v = hkGain s u v)
          ∧ bit (rd t (hkPg u) F.ERR_SUM) 3 = true ∧ Only [.regs, .views, .log, .hks] s t))))
  ∧ (∀ (s : State) (f : Fin 68), (getHk s (dieOf f)).started = true → rd s (hkPg (dieOf f)) F.TELEM_NEVER (foldChannel f) = 1 →
    Answers (.sensorPublishTimeout f) s (fun t =>
      rd t (hkPg (dieOf f)) F.TELEM_VALUE (foldChannel f) = 0x07D0 ∧ rd t (hkPg (dieOf f)) F.TELEM_FAULT (foldChannel f) = 1
        ∧ rd t (hkPg (dieOf f)) F.TELEM_NEVER (foldChannel f) = 0 ∧ Only [.regs, .hks] s t))

/-! ## Power -/

/-- Power management (R437 to R439, R441, R445 to R447): the last rail's report starts the settling of a state that is being raised; a
timeout commands every rail back, but during an alert, which keeps the voltage; a margin gives 5 mV back on a guard failure and takes 5 mV
after ten intervals of learning or 1,000 of service; a bin is the power of what has been counted since the last one, of HBM bytes whose
number is free, and of the leakage (the model's choice: log entry 117); a droop stretch, which a trip starts over, adds its periods to the
tick, and the prediction of the beat counts them; an alert goes to P7 until 100 µs after its release, at a tick boundary. -/
def Obligations.PowerFollowsItsEvents : Prop :=
  ∀ s : State,
    (∀ (r : Fin 3) (p : Nat), s.power.waits = 2 ^ r.val → s.power.rise = some (p, 0) → Answers (.avsComplete r) s (fun t =>
      t.power = { s.power with waits := 0, rise := some (p, 1) } ∧ Only [.power] s t))
    ∧ (∀ p, s.power.rise = some (p, 1) → Answers .voltageSettled s (fun t => t.power = { s.power with rise := some (p, 2) } ∧ Only [.power] s t))
    ∧ (s.power.waits ≠ 0 → s.power.alert ≠ 0 → Answers .avsTimeout s (fun t =>
      t.power = { s.power with rise := none, waits := 0, backoff := 100 } ∧ Only [.power] s t))
    ∧ (s.power.waits ≠ 0 → s.power.alert = 0 → s.power.state ≤ 7 → Answers .avsTimeout s (fun t =>
      let mv := fun r => rd s pwrPg F.VTAB s.power.state - railOffset s r
      t.power.rise = none ∧ t.power.backoff = 100 ∧ t.power.waits = 7 ∧ (∀ r, r < 3 → getD 0 t.power.volts r = mv r)
        ∧ t.out = s.out ++ [.avs 0 (mv 0), .avs 1 (mv 1), .avs 2 (mv 2)] ∧ Only [.power, .out] s t))
    ∧ (∀ (d : Fin 2) (guardFail tight : Bool), powerRuns s = true → rd s pwrPg F.PWR_MARGIN = 1 → Answers (.marginInterval d guardFail tight) s (fun t =>
      let m := getMargin s d
      let top := rd s pwrPg F.MARGIN_MAX
      (guardFail = true → (getMargin t d).off = m.off - 5 ∧ (getMargin t d).run = 0 ∧ (getMargin t d).learn = false)
        ∧ (guardFail = false → m.learn = true → m.run + 1 = 10 → m.off + 5 ≤ top → (getMargin t d).off = m.off + 5 ∧ (getMargin t d).run = 0)
        ∧ (guardFail = false → m.learn = false → tight = false → m.run + 1 = 1000 → m.off + 5 ≤ top → (getMargin t d).off = m.off + 5)
        ∧ (guardFail = false → m.learn = false → tight = true → (getMargin t d).off = m.off ∧ (getMargin t d).run = 0)
        ∧ ((getMargin t d).off = m.off → Only [.power] s t)
        ∧ ((getMargin t d).off ≠ m.off → s.power.alert = 0 → voltageState s ≤ 7 →
            t.out = s.out ++ [.avs d (rd s pwrPg F.VTAB (voltageState s) - (getMargin t d).off)] ∧ Only [.power, .out] s t)
        ∧ Only [.regs, .views, .log, .power, .out] s t))
    ∧ (∀ src, seesPage s src pwrPg = true →
      Answers (.marginEn src true) s (fun t => rd t pwrPg F.PWR_MARGIN = 1 ∧ OnlyIn [] [(pwrPg, F.PWR_MARGIN, 0)] s t)
      ∧ Answers (.marginEn src false) s (fun t => rd t pwrPg F.PWR_MARGIN = 0 ∧ (getMargin t 0).off = 0 ∧ (getMargin t 1).off = 0
        ∧ (voltageState s ≤ 7 → OnlyIn [.power, .out] [(pwrPg, F.PWR_MARGIN, 0)] s t) ∧ Only [.regs, .views, .log, .power, .out] s t))
    ∧ (powerRuns s = true → Answers .powerBin s (fun t =>
      let x := (spentSoFar s).since s.power.spent
      t.power.bins = ((countedPower s.power.energy { x with hbm := x.hbm + Config.freeNat s.free } + leakage s) :: s.power.bins).take 1000
        ∧ t.power.spent = spentSoFar s ∧ t.power.backoff = s.power.backoff - 1 ∧ t.free = s.free + 1 ∧ Only [.free, .power] s t))
    ∧ (∀ d, powerRuns s = true →
      (s.power.alert ≠ 0 → Answers (.droopTrip d) s (· = s))
      ∧ (s.power.alert = 0 → s.power.droop = false → Answers (.droopTrip d) s (fun t =>
          t.power = { s.power with droop := true, stretched := 0 } ∧ Only [.power] s t))
      ∧ (s.power.alert = 0 → s.power.droop = true → Answers (.droopTrip d) s (fun t =>
          t.power = { s.power with stretched := 0 } ∧ t.pause = { s.pause with extra := s.pause.extra + unitsOf (Config.freeNat s.free) s.power.state }
            ∧ Only [.free, .power, .pause] s t)))
    ∧ (s.power.droop = true → Answers .droopStretchEnd s (fun t =>
      t.power = { s.power with droop := false, stretched := 0 } ∧ s.pause.extra + unitsOf (64 - s.power.stretched) s.power.state ≤ t.pause.extra
        ∧ (s.tally.cutoff = false → ∀ k ∈ stepping s, neededQuanta t k ≤ t.tally.hold)
        ∧ Only [.free, .regs, .tally, .power, .pause] s t))
    ∧ (∀ n : Fin 4, powerRuns s = true → Answers (.regAlertAssert n) s (fun t =>
      t.power.alert = 1 ∧ bit t.power.inputs n = true
        ∧ (s.power.alert = 0 → t.power.state = 7 ∧ t.power.rise = none ∧ t.power.droop = false)
        ∧ (s.power.alert ≠ 0 → t.power.state = s.power.state ∧ Only [.power] s t) ∧ Only [.free, .regs, .tally, .power, .pause] s t))
    ∧ Answers .regAlertRelease s (fun t =>
      t.power = { s.power with inputs := 0, alert := if s.power.alert = 1 then 2 else s.power.alert } ∧ Only [.power] s t)
    ∧ (s.power.alert = 2 → Answers .alertHoldEnd s (fun t => t.power = { s.power with alert := 3 } ∧ Only [.power] s t))

/-! ## Resets and boot -/

namespace Sys2Proof.Claims

/-- The device state is that of a reset, but for the named register fields; the flash and the package record stay. -/
def startsAgain (ks : List (Nat × Field × Nat)) (s t : State) : Prop :=
  t.boot.flash = s.boot.flash ∧ t.boot.record = s.boot.record ∧ t.boot.up = false ∧ t.boot.waiting = false ∧ t.boot.tripped = false
    ∧ t.mem = [] ∧ t.seg = [] ∧ t.folds = [] ∧ t.droves = [] ∧ t.flocks = [] ∧ t.links = [] ∧ t.hbmShort = 0
    ∧ t.net = Net.init ∧ t.tally = State.reset.tally ∧ t.drover = State.reset.drover ∧ t.weights = State.reset.weights ∧ t.pending = s.pending
    ∧ ∀ pg f i, (ks.all fun k => fkey k.1 k.2.1 k.2.2 != fkey pg f i) = true → rd t pg f i = f.reset

/-- What a warm reset with a cause keeps and sets (R456, R480, R487, R497). -/
def warmly (cause : Nat) (s t : State) : Prop :=
  startsAgain [(logPg, F.LOG_INDEX, 0), (logPg, F.LOG_READ, 0), (logPg, F.LOG_OVERRUN, 0), (logPg, F.STATUS_SAT, 0), (bootPg, F.EVT_LOG, 0),
      (bootPg, F.RESET_CAUSE_LAST, 0), (bootPg, F.RESET_CAUSE_PREV, 0), (bootPg, F.RESET_CAUSE_WARM, 0)] s t
    ∧ rd t bootPg F.RESET_CAUSE_LAST = cause ∧ rd t bootPg F.RESET_CAUSE_PREV = rd s bootPg F.RESET_CAUSE_LAST % 8
    ∧ rd t bootPg F.RESET_CAUSE_WARM = min 255 (rd s bootPg F.RESET_CAUSE_WARM + 1)
    ∧ rd t logPg F.LOG_INDEX = (rd s logPg F.LOG_INDEX + 1) % 2 ^ 32
    ∧ (∀ k, k ≠ rd s logPg F.LOG_INDEX % 2 ^ 32 % 32768 → getD 0 t.log k = getD 0 s.log k)
    ∧ (s.views.full = false → rd t logPg F.LOG_READ = 0)
    ∧ (s.views.full = true → rd t logPg F.LOG_READ = (2 ^ 32 - 32768 + rd s logPg F.LOG_INDEX) % 2 ^ 32)

end Sys2Proof.Claims

/-- Resets and trips (R450, R451, R455 to R460, R466, R507, R513): a cold reset keeps the flash; a warm reset keeps the log with its index and the
cause fields too, and writes the RESET entry; of causes in one cycle the lowest stands, and whether a cause that comes during a reset is in
its cycle is free (the model's choice: log entry 120); release boots from a good record and bank, or halts the ROM; a comparator at 110 °C, or the
third disabled one of a die, holds the device off, and its release is a warm reset. -/
def Obligations.ResetsKeepWhatTheRulesName : Prop :=
  (∀ s : State, s.boot.powerOk = false →
    Answers .pwrOkRise s (fun t => startsAgain [] s t ∧ t.log = [] ∧ t.boot.powerOk = true)
    ∧ (s.boot.resetN = false → Answers .resetNAssert s (fun t => t.boot = { s.boot with resetN := true } ∧ Only [.boot] s t)))
  ∧ (∀ s : State, s.boot.powerOk = true →
    Answers .pwrOkFall s (fun t => startsAgain [] s t ∧ t.log = [] ∧ t.boot.powerOk = false ∧ t.out = s.out ++ [.pin "OUTPUTS" false])
    ∧ (s.boot.resetN = false → inReset s = false → Answers .resetNAssert s (fun t => warmly 2 s t ∧ t.boot.resetN = true ∧ t.boot.powerOk = true))
    ∧ (s.boot.tripped = false → s.boot.resetN = false → released s = true → Answers .jtagReset s (warmly 5 s)
      ∧ ∀ src, seesPage s src bootPg = true → Answers (.softReset src) s (warmly 4 s))
    ∧ (s.boot.tripped = false → s.boot.resetN = false → released s = false →
      let u := s.setFree (s.free + 1)
      Answers .jtagReset s (· = if Config.freeNat s.free % 2 = 1 then joinReset u 5 else warmReset u 5))
    ∧ (∀ c, c < 8 → rd (joinReset s c) bootPg F.RESET_CAUSE_LAST = min (rd s bootPg F.RESET_CAUSE_LAST) c ∧ Only [.regs, .log] s (joinReset s c))
    ∧ (s.boot.tripped = true → (∀ d, d < 3 → compsDisabled s d ≤ 2) → Answers .thermalRelease s (fun t =>
      warmly 3 s t ∧ t.out = s.out ++ [.pin "THERM_TRIP_N" true]))
    ∧ (s.boot.tripped = false → ∀ (die : Fin 3) (comp : Fin 8), compDisabled s die comp = false →
      Answers (.thermalTrip die comp) s (fun t => t.boot.tripped = true ∧ t.boot.up = false ∧ t.power.state = 7 ∧ t.hks = s.hks ∧ t.mem = [] ∧ t.folds = []
        ∧ t.boot.flash = s.boot.flash ∧ t.out.getLast? = some (.pin "THERM_TRIP_N" false))
      ∧ (compsDisabled s die ≤ 1 → Answers (.compDisable die comp) s (fun t =>
        compDisabled t die comp = true ∧ OnlyIn [] [(thermPg, compField die, 0)] s t))
      ∧ (2 ≤ compsDisabled s die → Answers (.compDisable die comp) s (fun t => t.boot.tripped = true)))
    ∧ (s.boot.tripped = false → s.boot.waiting = false → s.boot.up = false → s.boot.romHalt = false → s.power.inputs = 0 →
      let u := s.setBoot { s.boot with resetN := false }
      Answers .resetRelease s (fun t => if recordOk s.boot.record = true then
          match chooseBank u with
          | (none, _, _) => t.boot.romHalt = true ∧ rd t bootPg F.BOOT_STATUS_STATUS = 2
          | (some i, _, v) => t.boot.waiting = true ∧ t.boot.romHalt = false ∧ t.boot.bank = i ∧ t.boot.flash = v.boot.flash
              ∧ (∀ p, p < 8 → rd t pwrPg F.VTAB p = s.boot.record.vtab.getD p 0 % 2 ^ F.VTAB.width)
              ∧ rd t bootPg F.FW_VERSION = num (getBank v i).manifest 12 4 % 2 ^ 32
        else t.boot.romHalt = true ∧ rd t bootPg F.BOOT_STATUS_STATUS = 3 ∧ t.boot.flash = s.boot.flash)))

/-! ## The debug port and attestation -/

/-- The debug port (R468): it reads words of memory as the IOD sees them and writes them, halts and resumes cores, and clears the anchor with a log entry. Attestation
(R463): a request is refused without an identity or outside the window, kept otherwise with the time of the PTP clock, which has counted on by an amount that is free (the model's choice: log entry 1), and its report stands in pen 0's window when it
is done. -/
def Obligations.DebugPortAndAttestation : Prop :=
  (∀ (s : State) (a : Nat) (v : Word), s.rung = [] → jtagReaches s = true → a < 0x10000000000 → isMem s a = true → a % 4 = 0 →
    Answers (.jtagAccess false a v) s (fun t => t.out = s.out ++ [.tdo (leNat ((List.range 4).map (fun j => iodRead s (a + j))))] ∧ Only [.out] s t)
    ∧ Answers (.jtagAccess true a v) s (fun t =>
      readLe t a 4 = v.toNat ∧ OnlyBytes (fun x => a ≤ x ∧ x < a + 4) s t ∧ Only [.mem, .fresh] s t))
  ∧ (∀ (s : State) (a : Nat) (w : Bool) (v : Word), jtagReaches s = false ∨ a % 4 ≠ 0 → Answers (.jtagAccess w a v) s (· = s))
  ∧ (∀ (s : State) (k : Fin 4), jtagReaches s = true →
    Answers (.jtagHalt k) s (fun t => t.boot.halted.contains k.val = true
      ∧ (∀ j, j ≠ k.val → t.boot.halted.contains j = s.boot.halted.contains j) ∧ Only [.boot] s t)
    ∧ Answers (.jtagResume k) s (fun t => t.boot.halted.contains k.val = false
      ∧ (∀ j, j ≠ k.val → t.boot.halted.contains j = s.boot.halted.contains j) ∧ Only [.boot] s t)
    ∧ Answers .anchorClear s (fun t => t.boot.flash = s.boot.flash.withAnchor none ∧ t.boot.flash.anchor = none
      ∧ rd t logPg F.LOG_INDEX = (rd s logPg F.LOG_INDEX + 1) % 2 ^ 32 ∧ Only [.regs, .views, .log, .boot] s t))
  ∧ (∀ s : State, s.boot.powerOk = true → Answers .tapLeaveReset s (fun t =>
      rd t logPg F.LOG_INDEX = (rd s logPg F.LOG_INDEX + 1) % 2 ^ 32 ∧ Only [.regs, .views, .log] s t))
  ∧ (∀ (s : State) (src : Source), seesPage s src secPg = true → rd s secPg F.ATTEST_STATUS_STATUS ≠ 1 →
    let a := 4096 * rd s secPg F.ATTEST_ADDR
    Answers (.attestStart src) s (fun t =>
      (rd s bootPg F.BOOT_STATUS_IDENT = 0 → rd t secPg F.ATTEST_STATUS_STATUS = 3 ∧ rd t secPg F.ATTEST_STATUS_REFUSAL = 1 ∧ t.boot = s.boot)
        ∧ (rd s bootPg F.BOOT_STATUS_IDENT ≠ 0 → inWindow s 0 a reportSize = false →
            rd t secPg F.ATTEST_STATUS_STATUS = 3 ∧ rd t secPg F.ATTEST_STATUS_REFUSAL = 2 ∧ t.boot = s.boot)
        ∧ (rd s bootPg F.BOOT_STATUS_IDENT ≠ 0 → inWindow s 0 a reportSize = true →
            rd t secPg F.ATTEST_STATUS_STATUS = 1 ∧ rd t secPg F.ATTEST_STATUS_REFUSAL = 0
              ∧ t.ptp = { s.ptp with now := (s.ptp.now + Config.freeNat s.free) % 2 ^ 64 }
              ∧ t.boot = { s.boot with attest := some { nonce := nonceBytes s, addr := a, tally := s.tally.num, ptp := t.ptp.now } })
        ∧ OnlyIn [.free, .ptp, .boot] [(secPg, F.ATTEST_STATUS_STATUS, 0), (secPg, F.ATTEST_STATUS_REFUSAL, 0)] s t))
  ∧ (∀ (s : State) (x : Attest), s.boot.attest = some x → serviceWaits s .attest = false → Answers .attestDone s (fun t =>
      rd t secPg F.ATTEST_STATUS_STATUS = 2 ∧ t.boot = { s.boot with attest := none }
        ∧ (rd s secPg F.ATTEST_CNT < 2 ^ 32 - 2 → rd t secPg F.ATTEST_CNT = rd s secPg F.ATTEST_CNT + 1)
        ∧ (∀ q st len, oneExtent s 0 q st len → x.addr + (report s x).length ≤ len →
            readBytes t (0x800000000 * q + st + x.addr) (report s x).length = report s x)
        ∧ OnlyBytes (fun a => windowOf (extents s 0) a 0 ≠ none) s t ∧ Only [.regs, .views, .log, .mem, .fresh, .care, .boot] s t))
end

