-- ==== Sys2Proof/Laws/Sparse.lean ====
section
/-! SUPPORT. Laws of sparse tables: reads after writes, and the canonical form that every write keeps. -/

namespace Sys2Proof.Machine

variable {α : Type}

@[simp] theorem getD_nil (d : α) (k : Nat) : getD d [] k = d := rfl

theorem getD_cons (d : α) (k' : Nat) (v : α) (r : SMap α) (k : Nat) :
    getD d ((k', v) :: r) k = if k' = k then v else getD d r k := rfl

/-- A key below every key of a rising table is not listed. -/
theorem getD_of_lt [DecidableEq α] (d : α) : ∀ (m : SMap α) (lo k : Nat), sortedFrom d lo m = true → k < lo → getD d m k = d
  | [], _, _, _, _ => rfl
  | (k', v) :: r, lo, k, h, hk => by
    simp only [sortedFrom, Bool.and_eq_true, decide_eq_true_eq] at h
    have : k' ≠ k := by omega
    simp only [getD_cons, if_neg this]
    exact getD_of_lt d r (k' + 1) k h.2 (by omega)

theorem getD_insKey_same (d : α) (v : α) : ∀ (m : SMap α) (k : Nat), getD d (insKey m k v) k = v
  | [], k => by simp [insKey, getD_cons]
  | (k', v') :: r, k => by
    simp only [insKey]
    split
    · simp [getD_cons]
    · split
      · simp [getD_cons]
      · rename_i h1 h2
        have : k' ≠ k := fun e => h2 e.symm
        rw [getD_cons, if_neg this]
        exact getD_insKey_same d v r k

theorem getD_insKey_other (d : α) (v : α) : ∀ (m : SMap α) (k j : Nat), j ≠ k → getD d (insKey m k v) j = getD d m j
  | [], k, j, h => by simp [insKey, getD_cons, Ne.symm h]
  | (k', v') :: r, k, j, h => by
    simp only [insKey]
    split
    · rw [getD_cons, if_neg (Ne.symm h)]
    · split
      · rename_i h1 h2
        subst h2
        rw [getD_cons, getD_cons, if_neg (Ne.symm h), if_neg (Ne.symm h)]
      · rw [getD_cons, getD_cons, getD_insKey_other d v r k j h]

theorem getD_dropKey_same (d : α) : ∀ (m : SMap α) (k : Nat), getD d (dropKey m k) k = d
  | [], _ => rfl
  | (k', v') :: r, k => by
    have ih := getD_dropKey_same d r k
    unfold dropKey at ih ⊢
    by_cases h : k' = k
    · simp [h, List.filter_cons, ih]
    · simp [h, List.filter_cons, getD_cons, ih]

theorem getD_dropKey_other (d : α) : ∀ (m : SMap α) (k j : Nat), j ≠ k → getD d (dropKey m k) j = getD d m j
  | [], _, _, _ => rfl
  | (k', v') :: r, k, j, h => by
    have ih := getD_dropKey_other d r k j h
    unfold dropKey at ih ⊢
    by_cases h' : k' = k
    · subst h'
      simp [List.filter_cons, getD_cons, Ne.symm h, ih]
    · simp [h', List.filter_cons, getD_cons, ih]

/-- A read after a write to the same key gives the value written. -/
@[simp] theorem getD_putD_same [DecidableEq α] (d : α) (m : SMap α) (k : Nat) (v : α) : getD d (putD d m k v) k = v := by
  unfold putD
  split
  · rename_i h; rw [getD_dropKey_same, h]
  · exact getD_insKey_same d v m k

/-- A write leaves every other key alone. -/
theorem getD_putD_other [DecidableEq α] (d : α) (m : SMap α) (k j : Nat) (v : α) (h : j ≠ k) : getD d (putD d m k v) j = getD d m j := by
  unfold putD
  split
  · exact getD_dropKey_other d m k j h
  · exact getD_insKey_other d v m k j h

theorem getD_putD [DecidableEq α] (d : α) (m : SMap α) (k j : Nat) (v : α) : getD d (putD d m k v) j = if j = k then v else getD d m j := by
  by_cases h : j = k
  · subst h; simp
  · rw [if_neg h, getD_putD_other d m k j v h]

theorem sortedFrom_mono [DecidableEq α] (d : α) : ∀ (m : SMap α) (lo lo' : Nat), lo' ≤ lo → sortedFrom d lo m = true → sortedFrom d lo' m = true
  | [], _, _, _, _ => rfl
  | (k, v) :: r, lo, lo', h, hs => by
    simp only [sortedFrom, Bool.and_eq_true, decide_eq_true_eq] at hs ⊢
    exact ⟨⟨by omega, hs.1.2⟩, hs.2⟩

theorem sortedFrom_filter [DecidableEq α] (d : α) (p : Nat × α → Bool) : ∀ (m : SMap α) (lo : Nat), sortedFrom d lo m = true → sortedFrom d lo (m.filter p) = true
  | [], _, _ => rfl
  | (k, v) :: r, lo, h => by
    simp only [sortedFrom, Bool.and_eq_true, decide_eq_true_eq] at h
    have ih := sortedFrom_filter d p r (k + 1) h.2
    rw [List.filter_cons]
    split
    · simp only [sortedFrom, Bool.and_eq_true, decide_eq_true_eq]
      exact ⟨h.1, ih⟩
    · exact sortedFrom_mono d _ (k + 1) lo (by omega) ih

theorem sortedFrom_insKey [DecidableEq α] (d v : α) (hv : v ≠ d) : ∀ (m : SMap α) (lo k : Nat), lo ≤ k → sortedFrom d lo m = true →
    sortedFrom d lo (insKey m k v) = true
  | [], lo, k, hk, _ => by simp [insKey, sortedFrom, hk, hv]
  | (k', v') :: r, lo, k, hk, h => by
    simp only [sortedFrom, Bool.and_eq_true, decide_eq_true_eq] at h
    simp only [insKey]
    split
    · simp only [sortedFrom, Bool.and_eq_true, decide_eq_true_eq]
      exact ⟨⟨hk, hv⟩, ⟨by omega, h.1.2⟩, h.2⟩
    · split
      · rename_i h1 h2
        subst h2
        simp only [sortedFrom, Bool.and_eq_true, decide_eq_true_eq]
        exact ⟨⟨hk, hv⟩, h.2⟩
      · simp only [sortedFrom, Bool.and_eq_true, decide_eq_true_eq]
        exact ⟨h.1, sortedFrom_insKey d v hv r (k' + 1) k (by omega) h.2⟩

/-- Every write keeps the canonical form. -/
theorem canonical_putD [DecidableEq α] (d : α) (m : SMap α) (k : Nat) (v : α) (h : canonical d m = true) : canonical d (putD d m k v) = true := by
  unfold canonical putD at *
  split
  · exact sortedFrom_filter d _ m 0 h
  · rename_i hv
    exact sortedFrom_insKey d v hv m 0 k (Nat.zero_le k) h

/-- Dropping entries keeps the canonical form. -/
theorem canonical_filter [DecidableEq α] (d : α) (m : SMap α) (p : Nat × α → Bool) (h : canonical d m = true) : canonical d (m.filter p) = true :=
  sortedFrom_filter d p m 0 h

theorem canonical_putRun [DecidableEq α] (d : α) : ∀ (vs : List α) (m : SMap α) (k : Nat), canonical d m = true → canonical d (putRun d m k vs) = true
  | [], _, _, h => h
  | v :: vs, m, k, h => canonical_putRun d vs _ _ (canonical_putD d m k v h)

end Sys2Proof.Machine
end

