-- ==== Sys2Proof/Laws/State.lean ====
section
/-! SUPPORT. One lemma per field per update of the state. -/

namespace Sys2Proof.Machine

@[simp] theorem State.setPending_pending (s : State) (v : List Instr) : (s.setPending v).pending = v := rfl
@[simp] theorem State.setPending_free (s : State) (v : List Instr) : (s.setPending v).free = s.free := rfl
@[simp] theorem State.setPending_regs (s : State) (v : List Instr) : (s.setPending v).regs = s.regs := rfl
@[simp] theorem State.setPending_views (s : State) (v : List Instr) : (s.setPending v).views = s.views := rfl
@[simp] theorem State.setPending_ptp (s : State) (v : List Instr) : (s.setPending v).ptp = s.ptp := rfl
@[simp] theorem State.setPending_hbmShort (s : State) (v : List Instr) : (s.setPending v).hbmShort = s.hbmShort := rfl
@[simp] theorem State.setPending_log (s : State) (v : List Instr) : (s.setPending v).log = s.log := rfl
@[simp] theorem State.setPending_mem (s : State) (v : List Instr) : (s.setPending v).mem = s.mem := rfl
@[simp] theorem State.setPending_fresh (s : State) (v : List Instr) : (s.setPending v).fresh = s.fresh := rfl
@[simp] theorem State.setPending_seg (s : State) (v : List Instr) : (s.setPending v).seg = s.seg := rfl
@[simp] theorem State.setPending_folds (s : State) (v : List Instr) : (s.setPending v).folds = s.folds := rfl
@[simp] theorem State.setPending_droves (s : State) (v : List Instr) : (s.setPending v).droves = s.droves := rfl
@[simp] theorem State.setPending_flocks (s : State) (v : List Instr) : (s.setPending v).flocks = s.flocks := rfl
@[simp] theorem State.setPending_tally (s : State) (v : List Instr) : (s.setPending v).tally = s.tally := rfl
@[simp] theorem State.setPending_pause (s : State) (v : List Instr) : (s.setPending v).pause = s.pause := rfl
@[simp] theorem State.setPending_care (s : State) (v : List Instr) : (s.setPending v).care = s.care := rfl
@[simp] theorem State.setPending_power (s : State) (v : List Instr) : (s.setPending v).power = s.power := rfl
@[simp] theorem State.setPending_hks (s : State) (v : List Instr) : (s.setPending v).hks = s.hks := rfl
@[simp] theorem State.setPending_boot (s : State) (v : List Instr) : (s.setPending v).boot = s.boot := rfl
@[simp] theorem State.setPending_links (s : State) (v : List Instr) : (s.setPending v).links = s.links := rfl
@[simp] theorem State.setPending_msgs (s : State) (v : List Instr) : (s.setPending v).msgs = s.msgs := rfl
@[simp] theorem State.setPending_muster (s : State) (v : List Instr) : (s.setPending v).muster = s.muster := rfl
@[simp] theorem State.setPending_drover (s : State) (v : List Instr) : (s.setPending v).drover = s.drover := rfl
@[simp] theorem State.setPending_weights (s : State) (v : List Instr) : (s.setPending v).weights = s.weights := rfl
@[simp] theorem State.setPending_net (s : State) (v : List Instr) : (s.setPending v).net = s.net := rfl
@[simp] theorem State.setPending_rung (s : State) (v : List Instr) : (s.setPending v).rung = s.rung := rfl
@[simp] theorem State.setPending_out (s : State) (v : List Instr) : (s.setPending v).out = s.out := rfl
@[simp] theorem State.setFree_pending (s : State) (v : Nat) : (s.setFree v).pending = s.pending := rfl
@[simp] theorem State.setFree_free (s : State) (v : Nat) : (s.setFree v).free = v := rfl
@[simp] theorem State.setFree_regs (s : State) (v : Nat) : (s.setFree v).regs = s.regs := rfl
@[simp] theorem State.setFree_views (s : State) (v : Nat) : (s.setFree v).views = s.views := rfl
@[simp] theorem State.setFree_ptp (s : State) (v : Nat) : (s.setFree v).ptp = s.ptp := rfl
@[simp] theorem State.setFree_hbmShort (s : State) (v : Nat) : (s.setFree v).hbmShort = s.hbmShort := rfl
@[simp] theorem State.setFree_log (s : State) (v : Nat) : (s.setFree v).log = s.log := rfl
@[simp] theorem State.setFree_mem (s : State) (v : Nat) : (s.setFree v).mem = s.mem := rfl
@[simp] theorem State.setFree_fresh (s : State) (v : Nat) : (s.setFree v).fresh = s.fresh := rfl
@[simp] theorem State.setFree_seg (s : State) (v : Nat) : (s.setFree v).seg = s.seg := rfl
@[simp] theorem State.setFree_folds (s : State) (v : Nat) : (s.setFree v).folds = s.folds := rfl
@[simp] theorem State.setFree_droves (s : State) (v : Nat) : (s.setFree v).droves = s.droves := rfl
@[simp] theorem State.setFree_flocks (s : State) (v : Nat) : (s.setFree v).flocks = s.flocks := rfl
@[simp] theorem State.setFree_tally (s : State) (v : Nat) : (s.setFree v).tally = s.tally := rfl
@[simp] theorem State.setFree_pause (s : State) (v : Nat) : (s.setFree v).pause = s.pause := rfl
@[simp] theorem State.setFree_care (s : State) (v : Nat) : (s.setFree v).care = s.care := rfl
@[simp] theorem State.setFree_power (s : State) (v : Nat) : (s.setFree v).power = s.power := rfl
@[simp] theorem State.setFree_hks (s : State) (v : Nat) : (s.setFree v).hks = s.hks := rfl
@[simp] theorem State.setFree_boot (s : State) (v : Nat) : (s.setFree v).boot = s.boot := rfl
@[simp] theorem State.setFree_links (s : State) (v : Nat) : (s.setFree v).links = s.links := rfl
@[simp] theorem State.setFree_msgs (s : State) (v : Nat) : (s.setFree v).msgs = s.msgs := rfl
@[simp] theorem State.setFree_muster (s : State) (v : Nat) : (s.setFree v).muster = s.muster := rfl
@[simp] theorem State.setFree_drover (s : State) (v : Nat) : (s.setFree v).drover = s.drover := rfl
@[simp] theorem State.setFree_weights (s : State) (v : Nat) : (s.setFree v).weights = s.weights := rfl
@[simp] theorem State.setFree_net (s : State) (v : Nat) : (s.setFree v).net = s.net := rfl
@[simp] theorem State.setFree_rung (s : State) (v : Nat) : (s.setFree v).rung = s.rung := rfl
@[simp] theorem State.setFree_out (s : State) (v : Nat) : (s.setFree v).out = s.out := rfl
@[simp] theorem State.setRegs_pending (s : State) (v : SMap Nat) : (s.setRegs v).pending = s.pending := rfl
@[simp] theorem State.setRegs_free (s : State) (v : SMap Nat) : (s.setRegs v).free = s.free := rfl
@[simp] theorem State.setRegs_regs (s : State) (v : SMap Nat) : (s.setRegs v).regs = v := rfl
@[simp] theorem State.setRegs_views (s : State) (v : SMap Nat) : (s.setRegs v).views = s.views := rfl
@[simp] theorem State.setRegs_ptp (s : State) (v : SMap Nat) : (s.setRegs v).ptp = s.ptp := rfl
@[simp] theorem State.setRegs_hbmShort (s : State) (v : SMap Nat) : (s.setRegs v).hbmShort = s.hbmShort := rfl
@[simp] theorem State.setRegs_log (s : State) (v : SMap Nat) : (s.setRegs v).log = s.log := rfl
@[simp] theorem State.setRegs_mem (s : State) (v : SMap Nat) : (s.setRegs v).mem = s.mem := rfl
@[simp] theorem State.setRegs_fresh (s : State) (v : SMap Nat) : (s.setRegs v).fresh = s.fresh := rfl
@[simp] theorem State.setRegs_seg (s : State) (v : SMap Nat) : (s.setRegs v).seg = s.seg := rfl
@[simp] theorem State.setRegs_folds (s : State) (v : SMap Nat) : (s.setRegs v).folds = s.folds := rfl
@[simp] theorem State.setRegs_droves (s : State) (v : SMap Nat) : (s.setRegs v).droves = s.droves := rfl
@[simp] theorem State.setRegs_flocks (s : State) (v : SMap Nat) : (s.setRegs v).flocks = s.flocks := rfl
@[simp] theorem State.setRegs_tally (s : State) (v : SMap Nat) : (s.setRegs v).tally = s.tally := rfl
@[simp] theorem State.setRegs_pause (s : State) (v : SMap Nat) : (s.setRegs v).pause = s.pause := rfl
@[simp] theorem State.setRegs_care (s : State) (v : SMap Nat) : (s.setRegs v).care = s.care := rfl
@[simp] theorem State.setRegs_power (s : State) (v : SMap Nat) : (s.setRegs v).power = s.power := rfl
@[simp] theorem State.setRegs_hks (s : State) (v : SMap Nat) : (s.setRegs v).hks = s.hks := rfl
@[simp] theorem State.setRegs_boot (s : State) (v : SMap Nat) : (s.setRegs v).boot = s.boot := rfl
@[simp] theorem State.setRegs_links (s : State) (v : SMap Nat) : (s.setRegs v).links = s.links := rfl
@[simp] theorem State.setRegs_msgs (s : State) (v : SMap Nat) : (s.setRegs v).msgs = s.msgs := rfl
@[simp] theorem State.setRegs_muster (s : State) (v : SMap Nat) : (s.setRegs v).muster = s.muster := rfl
@[simp] theorem State.setRegs_drover (s : State) (v : SMap Nat) : (s.setRegs v).drover = s.drover := rfl
@[simp] theorem State.setRegs_weights (s : State) (v : SMap Nat) : (s.setRegs v).weights = s.weights := rfl
@[simp] theorem State.setRegs_net (s : State) (v : SMap Nat) : (s.setRegs v).net = s.net := rfl
@[simp] theorem State.setRegs_rung (s : State) (v : SMap Nat) : (s.setRegs v).rung = s.rung := rfl
@[simp] theorem State.setRegs_out (s : State) (v : SMap Nat) : (s.setRegs v).out = s.out := rfl
@[simp] theorem State.setViews_pending (s : State) (v : Views) : (s.setViews v).pending = s.pending := rfl
@[simp] theorem State.setViews_free (s : State) (v : Views) : (s.setViews v).free = s.free := rfl
@[simp] theorem State.setViews_regs (s : State) (v : Views) : (s.setViews v).regs = s.regs := rfl
@[simp] theorem State.setViews_views (s : State) (v : Views) : (s.setViews v).views = v := rfl
@[simp] theorem State.setViews_ptp (s : State) (v : Views) : (s.setViews v).ptp = s.ptp := rfl
@[simp] theorem State.setViews_hbmShort (s : State) (v : Views) : (s.setViews v).hbmShort = s.hbmShort := rfl
@[simp] theorem State.setViews_log (s : State) (v : Views) : (s.setViews v).log = s.log := rfl
@[simp] theorem State.setViews_mem (s : State) (v : Views) : (s.setViews v).mem = s.mem := rfl
@[simp] theorem State.setViews_fresh (s : State) (v : Views) : (s.setViews v).fresh = s.fresh := rfl
@[simp] theorem State.setViews_seg (s : State) (v : Views) : (s.setViews v).seg = s.seg := rfl
@[simp] theorem State.setViews_folds (s : State) (v : Views) : (s.setViews v).folds = s.folds := rfl
@[simp] theorem State.setViews_droves (s : State) (v : Views) : (s.setViews v).droves = s.droves := rfl
@[simp] theorem State.setViews_flocks (s : State) (v : Views) : (s.setViews v).flocks = s.flocks := rfl
@[simp] theorem State.setViews_tally (s : State) (v : Views) : (s.setViews v).tally = s.tally := rfl
@[simp] theorem State.setViews_pause (s : State) (v : Views) : (s.setViews v).pause = s.pause := rfl
@[simp] theorem State.setViews_care (s : State) (v : Views) : (s.setViews v).care = s.care := rfl
@[simp] theorem State.setViews_power (s : State) (v : Views) : (s.setViews v).power = s.power := rfl
@[simp] theorem State.setViews_hks (s : State) (v : Views) : (s.setViews v).hks = s.hks := rfl
@[simp] theorem State.setViews_boot (s : State) (v : Views) : (s.setViews v).boot = s.boot := rfl
@[simp] theorem State.setViews_links (s : State) (v : Views) : (s.setViews v).links = s.links := rfl
@[simp] theorem State.setViews_msgs (s : State) (v : Views) : (s.setViews v).msgs = s.msgs := rfl
@[simp] theorem State.setViews_muster (s : State) (v : Views) : (s.setViews v).muster = s.muster := rfl
@[simp] theorem State.setViews_drover (s : State) (v : Views) : (s.setViews v).drover = s.drover := rfl
@[simp] theorem State.setViews_weights (s : State) (v : Views) : (s.setViews v).weights = s.weights := rfl
@[simp] theorem State.setViews_net (s : State) (v : Views) : (s.setViews v).net = s.net := rfl
@[simp] theorem State.setViews_rung (s : State) (v : Views) : (s.setViews v).rung = s.rung := rfl
@[simp] theorem State.setViews_out (s : State) (v : Views) : (s.setViews v).out = s.out := rfl
@[simp] theorem State.setPtp_pending (s : State) (v : Ptp) : (s.setPtp v).pending = s.pending := rfl
@[simp] theorem State.setPtp_free (s : State) (v : Ptp) : (s.setPtp v).free = s.free := rfl
@[simp] theorem State.setPtp_regs (s : State) (v : Ptp) : (s.setPtp v).regs = s.regs := rfl
@[simp] theorem State.setPtp_views (s : State) (v : Ptp) : (s.setPtp v).views = s.views := rfl
@[simp] theorem State.setPtp_ptp (s : State) (v : Ptp) : (s.setPtp v).ptp = v := rfl
@[simp] theorem State.setPtp_hbmShort (s : State) (v : Ptp) : (s.setPtp v).hbmShort = s.hbmShort := rfl
@[simp] theorem State.setPtp_log (s : State) (v : Ptp) : (s.setPtp v).log = s.log := rfl
@[simp] theorem State.setPtp_mem (s : State) (v : Ptp) : (s.setPtp v).mem = s.mem := rfl
@[simp] theorem State.setPtp_fresh (s : State) (v : Ptp) : (s.setPtp v).fresh = s.fresh := rfl
@[simp] theorem State.setPtp_seg (s : State) (v : Ptp) : (s.setPtp v).seg = s.seg := rfl
@[simp] theorem State.setPtp_folds (s : State) (v : Ptp) : (s.setPtp v).folds = s.folds := rfl
@[simp] theorem State.setPtp_droves (s : State) (v : Ptp) : (s.setPtp v).droves = s.droves := rfl
@[simp] theorem State.setPtp_flocks (s : State) (v : Ptp) : (s.setPtp v).flocks = s.flocks := rfl
@[simp] theorem State.setPtp_tally (s : State) (v : Ptp) : (s.setPtp v).tally = s.tally := rfl
@[simp] theorem State.setPtp_pause (s : State) (v : Ptp) : (s.setPtp v).pause = s.pause := rfl
@[simp] theorem State.setPtp_care (s : State) (v : Ptp) : (s.setPtp v).care = s.care := rfl
@[simp] theorem State.setPtp_power (s : State) (v : Ptp) : (s.setPtp v).power = s.power := rfl
@[simp] theorem State.setPtp_hks (s : State) (v : Ptp) : (s.setPtp v).hks = s.hks := rfl
@[simp] theorem State.setPtp_boot (s : State) (v : Ptp) : (s.setPtp v).boot = s.boot := rfl
@[simp] theorem State.setPtp_links (s : State) (v : Ptp) : (s.setPtp v).links = s.links := rfl
@[simp] theorem State.setPtp_msgs (s : State) (v : Ptp) : (s.setPtp v).msgs = s.msgs := rfl
@[simp] theorem State.setPtp_muster (s : State) (v : Ptp) : (s.setPtp v).muster = s.muster := rfl
@[simp] theorem State.setPtp_drover (s : State) (v : Ptp) : (s.setPtp v).drover = s.drover := rfl
@[simp] theorem State.setPtp_weights (s : State) (v : Ptp) : (s.setPtp v).weights = s.weights := rfl
@[simp] theorem State.setPtp_net (s : State) (v : Ptp) : (s.setPtp v).net = s.net := rfl
@[simp] theorem State.setPtp_rung (s : State) (v : Ptp) : (s.setPtp v).rung = s.rung := rfl
@[simp] theorem State.setPtp_out (s : State) (v : Ptp) : (s.setPtp v).out = s.out := rfl
@[simp] theorem State.setHbmShort_pending (s : State) (v : Nat) : (s.setHbmShort v).pending = s.pending := rfl
@[simp] theorem State.setHbmShort_free (s : State) (v : Nat) : (s.setHbmShort v).free = s.free := rfl
@[simp] theorem State.setHbmShort_regs (s : State) (v : Nat) : (s.setHbmShort v).regs = s.regs := rfl
@[simp] theorem State.setHbmShort_views (s : State) (v : Nat) : (s.setHbmShort v).views = s.views := rfl
@[simp] theorem State.setHbmShort_ptp (s : State) (v : Nat) : (s.setHbmShort v).ptp = s.ptp := rfl
@[simp] theorem State.setHbmShort_hbmShort (s : State) (v : Nat) : (s.setHbmShort v).hbmShort = v := rfl
@[simp] theorem State.setHbmShort_log (s : State) (v : Nat) : (s.setHbmShort v).log = s.log := rfl
@[simp] theorem State.setHbmShort_mem (s : State) (v : Nat) : (s.setHbmShort v).mem = s.mem := rfl
@[simp] theorem State.setHbmShort_fresh (s : State) (v : Nat) : (s.setHbmShort v).fresh = s.fresh := rfl
@[simp] theorem State.setHbmShort_seg (s : State) (v : Nat) : (s.setHbmShort v).seg = s.seg := rfl
@[simp] theorem State.setHbmShort_folds (s : State) (v : Nat) : (s.setHbmShort v).folds = s.folds := rfl
@[simp] theorem State.setHbmShort_droves (s : State) (v : Nat) : (s.setHbmShort v).droves = s.droves := rfl
@[simp] theorem State.setHbmShort_flocks (s : State) (v : Nat) : (s.setHbmShort v).flocks = s.flocks := rfl
@[simp] theorem State.setHbmShort_tally (s : State) (v : Nat) : (s.setHbmShort v).tally = s.tally := rfl
@[simp] theorem State.setHbmShort_pause (s : State) (v : Nat) : (s.setHbmShort v).pause = s.pause := rfl
@[simp] theorem State.setHbmShort_care (s : State) (v : Nat) : (s.setHbmShort v).care = s.care := rfl
@[simp] theorem State.setHbmShort_power (s : State) (v : Nat) : (s.setHbmShort v).power = s.power := rfl
@[simp] theorem State.setHbmShort_hks (s : State) (v : Nat) : (s.setHbmShort v).hks = s.hks := rfl
@[simp] theorem State.setHbmShort_boot (s : State) (v : Nat) : (s.setHbmShort v).boot = s.boot := rfl
@[simp] theorem State.setHbmShort_links (s : State) (v : Nat) : (s.setHbmShort v).links = s.links := rfl
@[simp] theorem State.setHbmShort_msgs (s : State) (v : Nat) : (s.setHbmShort v).msgs = s.msgs := rfl
@[simp] theorem State.setHbmShort_muster (s : State) (v : Nat) : (s.setHbmShort v).muster = s.muster := rfl
@[simp] theorem State.setHbmShort_drover (s : State) (v : Nat) : (s.setHbmShort v).drover = s.drover := rfl
@[simp] theorem State.setHbmShort_weights (s : State) (v : Nat) : (s.setHbmShort v).weights = s.weights := rfl
@[simp] theorem State.setHbmShort_net (s : State) (v : Nat) : (s.setHbmShort v).net = s.net := rfl
@[simp] theorem State.setHbmShort_rung (s : State) (v : Nat) : (s.setHbmShort v).rung = s.rung := rfl
@[simp] theorem State.setHbmShort_out (s : State) (v : Nat) : (s.setHbmShort v).out = s.out := rfl
@[simp] theorem State.setLog_pending (s : State) (v : SMap Nat) : (s.setLog v).pending = s.pending := rfl
@[simp] theorem State.setLog_free (s : State) (v : SMap Nat) : (s.setLog v).free = s.free := rfl
@[simp] theorem State.setLog_regs (s : State) (v : SMap Nat) : (s.setLog v).regs = s.regs := rfl
@[simp] theorem State.setLog_views (s : State) (v : SMap Nat) : (s.setLog v).views = s.views := rfl
@[simp] theorem State.setLog_ptp (s : State) (v : SMap Nat) : (s.setLog v).ptp = s.ptp := rfl
@[simp] theorem State.setLog_hbmShort (s : State) (v : SMap Nat) : (s.setLog v).hbmShort = s.hbmShort := rfl
@[simp] theorem State.setLog_log (s : State) (v : SMap Nat) : (s.setLog v).log = v := rfl
@[simp] theorem State.setLog_mem (s : State) (v : SMap Nat) : (s.setLog v).mem = s.mem := rfl
@[simp] theorem State.setLog_fresh (s : State) (v : SMap Nat) : (s.setLog v).fresh = s.fresh := rfl
@[simp] theorem State.setLog_seg (s : State) (v : SMap Nat) : (s.setLog v).seg = s.seg := rfl
@[simp] theorem State.setLog_folds (s : State) (v : SMap Nat) : (s.setLog v).folds = s.folds := rfl
@[simp] theorem State.setLog_droves (s : State) (v : SMap Nat) : (s.setLog v).droves = s.droves := rfl
@[simp] theorem State.setLog_flocks (s : State) (v : SMap Nat) : (s.setLog v).flocks = s.flocks := rfl
@[simp] theorem State.setLog_tally (s : State) (v : SMap Nat) : (s.setLog v).tally = s.tally := rfl
@[simp] theorem State.setLog_pause (s : State) (v : SMap Nat) : (s.setLog v).pause = s.pause := rfl
@[simp] theorem State.setLog_care (s : State) (v : SMap Nat) : (s.setLog v).care = s.care := rfl
@[simp] theorem State.setLog_power (s : State) (v : SMap Nat) : (s.setLog v).power = s.power := rfl
@[simp] theorem State.setLog_hks (s : State) (v : SMap Nat) : (s.setLog v).hks = s.hks := rfl
@[simp] theorem State.setLog_boot (s : State) (v : SMap Nat) : (s.setLog v).boot = s.boot := rfl
@[simp] theorem State.setLog_links (s : State) (v : SMap Nat) : (s.setLog v).links = s.links := rfl
@[simp] theorem State.setLog_msgs (s : State) (v : SMap Nat) : (s.setLog v).msgs = s.msgs := rfl
@[simp] theorem State.setLog_muster (s : State) (v : SMap Nat) : (s.setLog v).muster = s.muster := rfl
@[simp] theorem State.setLog_drover (s : State) (v : SMap Nat) : (s.setLog v).drover = s.drover := rfl
@[simp] theorem State.setLog_weights (s : State) (v : SMap Nat) : (s.setLog v).weights = s.weights := rfl
@[simp] theorem State.setLog_net (s : State) (v : SMap Nat) : (s.setLog v).net = s.net := rfl
@[simp] theorem State.setLog_rung (s : State) (v : SMap Nat) : (s.setLog v).rung = s.rung := rfl
@[simp] theorem State.setLog_out (s : State) (v : SMap Nat) : (s.setLog v).out = s.out := rfl
@[simp] theorem State.setMem_pending (s : State) (v : List Host.Cell) : (s.setMem v).pending = s.pending := rfl
@[simp] theorem State.setMem_free (s : State) (v : List Host.Cell) : (s.setMem v).free = s.free := rfl
@[simp] theorem State.setMem_regs (s : State) (v : List Host.Cell) : (s.setMem v).regs = s.regs := rfl
@[simp] theorem State.setMem_views (s : State) (v : List Host.Cell) : (s.setMem v).views = s.views := rfl
@[simp] theorem State.setMem_ptp (s : State) (v : List Host.Cell) : (s.setMem v).ptp = s.ptp := rfl
@[simp] theorem State.setMem_hbmShort (s : State) (v : List Host.Cell) : (s.setMem v).hbmShort = s.hbmShort := rfl
@[simp] theorem State.setMem_log (s : State) (v : List Host.Cell) : (s.setMem v).log = s.log := rfl
@[simp] theorem State.setMem_mem (s : State) (v : List Host.Cell) : (s.setMem v).mem = v := rfl
@[simp] theorem State.setMem_fresh (s : State) (v : List Host.Cell) : (s.setMem v).fresh = s.fresh := rfl
@[simp] theorem State.setMem_seg (s : State) (v : List Host.Cell) : (s.setMem v).seg = s.seg := rfl
@[simp] theorem State.setMem_folds (s : State) (v : List Host.Cell) : (s.setMem v).folds = s.folds := rfl
@[simp] theorem State.setMem_droves (s : State) (v : List Host.Cell) : (s.setMem v).droves = s.droves := rfl
@[simp] theorem State.setMem_flocks (s : State) (v : List Host.Cell) : (s.setMem v).flocks = s.flocks := rfl
@[simp] theorem State.setMem_tally (s : State) (v : List Host.Cell) : (s.setMem v).tally = s.tally := rfl
@[simp] theorem State.setMem_pause (s : State) (v : List Host.Cell) : (s.setMem v).pause = s.pause := rfl
@[simp] theorem State.setMem_care (s : State) (v : List Host.Cell) : (s.setMem v).care = s.care := rfl
@[simp] theorem State.setMem_power (s : State) (v : List Host.Cell) : (s.setMem v).power = s.power := rfl
@[simp] theorem State.setMem_hks (s : State) (v : List Host.Cell) : (s.setMem v).hks = s.hks := rfl
@[simp] theorem State.setMem_boot (s : State) (v : List Host.Cell) : (s.setMem v).boot = s.boot := rfl
@[simp] theorem State.setMem_links (s : State) (v : List Host.Cell) : (s.setMem v).links = s.links := rfl
@[simp] theorem State.setMem_msgs (s : State) (v : List Host.Cell) : (s.setMem v).msgs = s.msgs := rfl
@[simp] theorem State.setMem_muster (s : State) (v : List Host.Cell) : (s.setMem v).muster = s.muster := rfl
@[simp] theorem State.setMem_drover (s : State) (v : List Host.Cell) : (s.setMem v).drover = s.drover := rfl
@[simp] theorem State.setMem_weights (s : State) (v : List Host.Cell) : (s.setMem v).weights = s.weights := rfl
@[simp] theorem State.setMem_net (s : State) (v : List Host.Cell) : (s.setMem v).net = s.net := rfl
@[simp] theorem State.setMem_rung (s : State) (v : List Host.Cell) : (s.setMem v).rung = s.rung := rfl
@[simp] theorem State.setMem_out (s : State) (v : List Host.Cell) : (s.setMem v).out = s.out := rfl
@[simp] theorem State.setFresh_pending (s : State) (v : SMap Nat) : (s.setFresh v).pending = s.pending := rfl
@[simp] theorem State.setFresh_free (s : State) (v : SMap Nat) : (s.setFresh v).free = s.free := rfl
@[simp] theorem State.setFresh_regs (s : State) (v : SMap Nat) : (s.setFresh v).regs = s.regs := rfl
@[simp] theorem State.setFresh_views (s : State) (v : SMap Nat) : (s.setFresh v).views = s.views := rfl
@[simp] theorem State.setFresh_ptp (s : State) (v : SMap Nat) : (s.setFresh v).ptp = s.ptp := rfl
@[simp] theorem State.setFresh_hbmShort (s : State) (v : SMap Nat) : (s.setFresh v).hbmShort = s.hbmShort := rfl
@[simp] theorem State.setFresh_log (s : State) (v : SMap Nat) : (s.setFresh v).log = s.log := rfl
@[simp] theorem State.setFresh_mem (s : State) (v : SMap Nat) : (s.setFresh v).mem = s.mem := rfl
@[simp] theorem State.setFresh_fresh (s : State) (v : SMap Nat) : (s.setFresh v).fresh = v := rfl
@[simp] theorem State.setFresh_seg (s : State) (v : SMap Nat) : (s.setFresh v).seg = s.seg := rfl
@[simp] theorem State.setFresh_folds (s : State) (v : SMap Nat) : (s.setFresh v).folds = s.folds := rfl
@[simp] theorem State.setFresh_droves (s : State) (v : SMap Nat) : (s.setFresh v).droves = s.droves := rfl
@[simp] theorem State.setFresh_flocks (s : State) (v : SMap Nat) : (s.setFresh v).flocks = s.flocks := rfl
@[simp] theorem State.setFresh_tally (s : State) (v : SMap Nat) : (s.setFresh v).tally = s.tally := rfl
@[simp] theorem State.setFresh_pause (s : State) (v : SMap Nat) : (s.setFresh v).pause = s.pause := rfl
@[simp] theorem State.setFresh_care (s : State) (v : SMap Nat) : (s.setFresh v).care = s.care := rfl
@[simp] theorem State.setFresh_power (s : State) (v : SMap Nat) : (s.setFresh v).power = s.power := rfl
@[simp] theorem State.setFresh_hks (s : State) (v : SMap Nat) : (s.setFresh v).hks = s.hks := rfl
@[simp] theorem State.setFresh_boot (s : State) (v : SMap Nat) : (s.setFresh v).boot = s.boot := rfl
@[simp] theorem State.setFresh_links (s : State) (v : SMap Nat) : (s.setFresh v).links = s.links := rfl
@[simp] theorem State.setFresh_msgs (s : State) (v : SMap Nat) : (s.setFresh v).msgs = s.msgs := rfl
@[simp] theorem State.setFresh_muster (s : State) (v : SMap Nat) : (s.setFresh v).muster = s.muster := rfl
@[simp] theorem State.setFresh_drover (s : State) (v : SMap Nat) : (s.setFresh v).drover = s.drover := rfl
@[simp] theorem State.setFresh_weights (s : State) (v : SMap Nat) : (s.setFresh v).weights = s.weights := rfl
@[simp] theorem State.setFresh_net (s : State) (v : SMap Nat) : (s.setFresh v).net = s.net := rfl
@[simp] theorem State.setFresh_rung (s : State) (v : SMap Nat) : (s.setFresh v).rung = s.rung := rfl
@[simp] theorem State.setFresh_out (s : State) (v : SMap Nat) : (s.setFresh v).out = s.out := rfl
@[simp] theorem State.setSeg_pending (s : State) (v : List Host.Cell) : (s.setSeg v).pending = s.pending := rfl
@[simp] theorem State.setSeg_free (s : State) (v : List Host.Cell) : (s.setSeg v).free = s.free := rfl
@[simp] theorem State.setSeg_regs (s : State) (v : List Host.Cell) : (s.setSeg v).regs = s.regs := rfl
@[simp] theorem State.setSeg_views (s : State) (v : List Host.Cell) : (s.setSeg v).views = s.views := rfl
@[simp] theorem State.setSeg_ptp (s : State) (v : List Host.Cell) : (s.setSeg v).ptp = s.ptp := rfl
@[simp] theorem State.setSeg_hbmShort (s : State) (v : List Host.Cell) : (s.setSeg v).hbmShort = s.hbmShort := rfl
@[simp] theorem State.setSeg_log (s : State) (v : List Host.Cell) : (s.setSeg v).log = s.log := rfl
@[simp] theorem State.setSeg_mem (s : State) (v : List Host.Cell) : (s.setSeg v).mem = s.mem := rfl
@[simp] theorem State.setSeg_fresh (s : State) (v : List Host.Cell) : (s.setSeg v).fresh = s.fresh := rfl
@[simp] theorem State.setSeg_seg (s : State) (v : List Host.Cell) : (s.setSeg v).seg = v := rfl
@[simp] theorem State.setSeg_folds (s : State) (v : List Host.Cell) : (s.setSeg v).folds = s.folds := rfl
@[simp] theorem State.setSeg_droves (s : State) (v : List Host.Cell) : (s.setSeg v).droves = s.droves := rfl
@[simp] theorem State.setSeg_flocks (s : State) (v : List Host.Cell) : (s.setSeg v).flocks = s.flocks := rfl
@[simp] theorem State.setSeg_tally (s : State) (v : List Host.Cell) : (s.setSeg v).tally = s.tally := rfl
@[simp] theorem State.setSeg_pause (s : State) (v : List Host.Cell) : (s.setSeg v).pause = s.pause := rfl
@[simp] theorem State.setSeg_care (s : State) (v : List Host.Cell) : (s.setSeg v).care = s.care := rfl
@[simp] theorem State.setSeg_power (s : State) (v : List Host.Cell) : (s.setSeg v).power = s.power := rfl
@[simp] theorem State.setSeg_hks (s : State) (v : List Host.Cell) : (s.setSeg v).hks = s.hks := rfl
@[simp] theorem State.setSeg_boot (s : State) (v : List Host.Cell) : (s.setSeg v).boot = s.boot := rfl
@[simp] theorem State.setSeg_links (s : State) (v : List Host.Cell) : (s.setSeg v).links = s.links := rfl
@[simp] theorem State.setSeg_msgs (s : State) (v : List Host.Cell) : (s.setSeg v).msgs = s.msgs := rfl
@[simp] theorem State.setSeg_muster (s : State) (v : List Host.Cell) : (s.setSeg v).muster = s.muster := rfl
@[simp] theorem State.setSeg_drover (s : State) (v : List Host.Cell) : (s.setSeg v).drover = s.drover := rfl
@[simp] theorem State.setSeg_weights (s : State) (v : List Host.Cell) : (s.setSeg v).weights = s.weights := rfl
@[simp] theorem State.setSeg_net (s : State) (v : List Host.Cell) : (s.setSeg v).net = s.net := rfl
@[simp] theorem State.setSeg_rung (s : State) (v : List Host.Cell) : (s.setSeg v).rung = s.rung := rfl
@[simp] theorem State.setSeg_out (s : State) (v : List Host.Cell) : (s.setSeg v).out = s.out := rfl
@[simp] theorem State.setFolds_pending (s : State) (v : SMap Fold) : (s.setFolds v).pending = s.pending := rfl
@[simp] theorem State.setFolds_free (s : State) (v : SMap Fold) : (s.setFolds v).free = s.free := rfl
@[simp] theorem State.setFolds_regs (s : State) (v : SMap Fold) : (s.setFolds v).regs = s.regs := rfl
@[simp] theorem State.setFolds_views (s : State) (v : SMap Fold) : (s.setFolds v).views = s.views := rfl
@[simp] theorem State.setFolds_ptp (s : State) (v : SMap Fold) : (s.setFolds v).ptp = s.ptp := rfl
@[simp] theorem State.setFolds_hbmShort (s : State) (v : SMap Fold) : (s.setFolds v).hbmShort = s.hbmShort := rfl
@[simp] theorem State.setFolds_log (s : State) (v : SMap Fold) : (s.setFolds v).log = s.log := rfl
@[simp] theorem State.setFolds_mem (s : State) (v : SMap Fold) : (s.setFolds v).mem = s.mem := rfl
@[simp] theorem State.setFolds_fresh (s : State) (v : SMap Fold) : (s.setFolds v).fresh = s.fresh := rfl
@[simp] theorem State.setFolds_seg (s : State) (v : SMap Fold) : (s.setFolds v).seg = s.seg := rfl
@[simp] theorem State.setFolds_folds (s : State) (v : SMap Fold) : (s.setFolds v).folds = v := rfl
@[simp] theorem State.setFolds_droves (s : State) (v : SMap Fold) : (s.setFolds v).droves = s.droves := rfl
@[simp] theorem State.setFolds_flocks (s : State) (v : SMap Fold) : (s.setFolds v).flocks = s.flocks := rfl
@[simp] theorem State.setFolds_tally (s : State) (v : SMap Fold) : (s.setFolds v).tally = s.tally := rfl
@[simp] theorem State.setFolds_pause (s : State) (v : SMap Fold) : (s.setFolds v).pause = s.pause := rfl
@[simp] theorem State.setFolds_care (s : State) (v : SMap Fold) : (s.setFolds v).care = s.care := rfl
@[simp] theorem State.setFolds_power (s : State) (v : SMap Fold) : (s.setFolds v).power = s.power := rfl
@[simp] theorem State.setFolds_hks (s : State) (v : SMap Fold) : (s.setFolds v).hks = s.hks := rfl
@[simp] theorem State.setFolds_boot (s : State) (v : SMap Fold) : (s.setFolds v).boot = s.boot := rfl
@[simp] theorem State.setFolds_links (s : State) (v : SMap Fold) : (s.setFolds v).links = s.links := rfl
@[simp] theorem State.setFolds_msgs (s : State) (v : SMap Fold) : (s.setFolds v).msgs = s.msgs := rfl
@[simp] theorem State.setFolds_muster (s : State) (v : SMap Fold) : (s.setFolds v).muster = s.muster := rfl
@[simp] theorem State.setFolds_drover (s : State) (v : SMap Fold) : (s.setFolds v).drover = s.drover := rfl
@[simp] theorem State.setFolds_weights (s : State) (v : SMap Fold) : (s.setFolds v).weights = s.weights := rfl
@[simp] theorem State.setFolds_net (s : State) (v : SMap Fold) : (s.setFolds v).net = s.net := rfl
@[simp] theorem State.setFolds_rung (s : State) (v : SMap Fold) : (s.setFolds v).rung = s.rung := rfl
@[simp] theorem State.setFolds_out (s : State) (v : SMap Fold) : (s.setFolds v).out = s.out := rfl
@[simp] theorem State.setDroves_pending (s : State) (v : SMap Drove) : (s.setDroves v).pending = s.pending := rfl
@[simp] theorem State.setDroves_free (s : State) (v : SMap Drove) : (s.setDroves v).free = s.free := rfl
@[simp] theorem State.setDroves_regs (s : State) (v : SMap Drove) : (s.setDroves v).regs = s.regs := rfl
@[simp] theorem State.setDroves_views (s : State) (v : SMap Drove) : (s.setDroves v).views = s.views := rfl
@[simp] theorem State.setDroves_ptp (s : State) (v : SMap Drove) : (s.setDroves v).ptp = s.ptp := rfl
@[simp] theorem State.setDroves_hbmShort (s : State) (v : SMap Drove) : (s.setDroves v).hbmShort = s.hbmShort := rfl
@[simp] theorem State.setDroves_log (s : State) (v : SMap Drove) : (s.setDroves v).log = s.log := rfl
@[simp] theorem State.setDroves_mem (s : State) (v : SMap Drove) : (s.setDroves v).mem = s.mem := rfl
@[simp] theorem State.setDroves_fresh (s : State) (v : SMap Drove) : (s.setDroves v).fresh = s.fresh := rfl
@[simp] theorem State.setDroves_seg (s : State) (v : SMap Drove) : (s.setDroves v).seg = s.seg := rfl
@[simp] theorem State.setDroves_folds (s : State) (v : SMap Drove) : (s.setDroves v).folds = s.folds := rfl
@[simp] theorem State.setDroves_droves (s : State) (v : SMap Drove) : (s.setDroves v).droves = v := rfl
@[simp] theorem State.setDroves_flocks (s : State) (v : SMap Drove) : (s.setDroves v).flocks = s.flocks := rfl
@[simp] theorem State.setDroves_tally (s : State) (v : SMap Drove) : (s.setDroves v).tally = s.tally := rfl
@[simp] theorem State.setDroves_pause (s : State) (v : SMap Drove) : (s.setDroves v).pause = s.pause := rfl
@[simp] theorem State.setDroves_care (s : State) (v : SMap Drove) : (s.setDroves v).care = s.care := rfl
@[simp] theorem State.setDroves_power (s : State) (v : SMap Drove) : (s.setDroves v).power = s.power := rfl
@[simp] theorem State.setDroves_hks (s : State) (v : SMap Drove) : (s.setDroves v).hks = s.hks := rfl
@[simp] theorem State.setDroves_boot (s : State) (v : SMap Drove) : (s.setDroves v).boot = s.boot := rfl
@[simp] theorem State.setDroves_links (s : State) (v : SMap Drove) : (s.setDroves v).links = s.links := rfl
@[simp] theorem State.setDroves_msgs (s : State) (v : SMap Drove) : (s.setDroves v).msgs = s.msgs := rfl
@[simp] theorem State.setDroves_muster (s : State) (v : SMap Drove) : (s.setDroves v).muster = s.muster := rfl
@[simp] theorem State.setDroves_drover (s : State) (v : SMap Drove) : (s.setDroves v).drover = s.drover := rfl
@[simp] theorem State.setDroves_weights (s : State) (v : SMap Drove) : (s.setDroves v).weights = s.weights := rfl
@[simp] theorem State.setDroves_net (s : State) (v : SMap Drove) : (s.setDroves v).net = s.net := rfl
@[simp] theorem State.setDroves_rung (s : State) (v : SMap Drove) : (s.setDroves v).rung = s.rung := rfl
@[simp] theorem State.setDroves_out (s : State) (v : SMap Drove) : (s.setDroves v).out = s.out := rfl
@[simp] theorem State.setFlocks_pending (s : State) (v : SMap Flock) : (s.setFlocks v).pending = s.pending := rfl
@[simp] theorem State.setFlocks_free (s : State) (v : SMap Flock) : (s.setFlocks v).free = s.free := rfl
@[simp] theorem State.setFlocks_regs (s : State) (v : SMap Flock) : (s.setFlocks v).regs = s.regs := rfl
@[simp] theorem State.setFlocks_views (s : State) (v : SMap Flock) : (s.setFlocks v).views = s.views := rfl
@[simp] theorem State.setFlocks_ptp (s : State) (v : SMap Flock) : (s.setFlocks v).ptp = s.ptp := rfl
@[simp] theorem State.setFlocks_hbmShort (s : State) (v : SMap Flock) : (s.setFlocks v).hbmShort = s.hbmShort := rfl
@[simp] theorem State.setFlocks_log (s : State) (v : SMap Flock) : (s.setFlocks v).log = s.log := rfl
@[simp] theorem State.setFlocks_mem (s : State) (v : SMap Flock) : (s.setFlocks v).mem = s.mem := rfl
@[simp] theorem State.setFlocks_fresh (s : State) (v : SMap Flock) : (s.setFlocks v).fresh = s.fresh := rfl
@[simp] theorem State.setFlocks_seg (s : State) (v : SMap Flock) : (s.setFlocks v).seg = s.seg := rfl
@[simp] theorem State.setFlocks_folds (s : State) (v : SMap Flock) : (s.setFlocks v).folds = s.folds := rfl
@[simp] theorem State.setFlocks_droves (s : State) (v : SMap Flock) : (s.setFlocks v).droves = s.droves := rfl
@[simp] theorem State.setFlocks_flocks (s : State) (v : SMap Flock) : (s.setFlocks v).flocks = v := rfl
@[simp] theorem State.setFlocks_tally (s : State) (v : SMap Flock) : (s.setFlocks v).tally = s.tally := rfl
@[simp] theorem State.setFlocks_pause (s : State) (v : SMap Flock) : (s.setFlocks v).pause = s.pause := rfl
@[simp] theorem State.setFlocks_care (s : State) (v : SMap Flock) : (s.setFlocks v).care = s.care := rfl
@[simp] theorem State.setFlocks_power (s : State) (v : SMap Flock) : (s.setFlocks v).power = s.power := rfl
@[simp] theorem State.setFlocks_hks (s : State) (v : SMap Flock) : (s.setFlocks v).hks = s.hks := rfl
@[simp] theorem State.setFlocks_boot (s : State) (v : SMap Flock) : (s.setFlocks v).boot = s.boot := rfl
@[simp] theorem State.setFlocks_links (s : State) (v : SMap Flock) : (s.setFlocks v).links = s.links := rfl
@[simp] theorem State.setFlocks_msgs (s : State) (v : SMap Flock) : (s.setFlocks v).msgs = s.msgs := rfl
@[simp] theorem State.setFlocks_muster (s : State) (v : SMap Flock) : (s.setFlocks v).muster = s.muster := rfl
@[simp] theorem State.setFlocks_drover (s : State) (v : SMap Flock) : (s.setFlocks v).drover = s.drover := rfl
@[simp] theorem State.setFlocks_weights (s : State) (v : SMap Flock) : (s.setFlocks v).weights = s.weights := rfl
@[simp] theorem State.setFlocks_net (s : State) (v : SMap Flock) : (s.setFlocks v).net = s.net := rfl
@[simp] theorem State.setFlocks_rung (s : State) (v : SMap Flock) : (s.setFlocks v).rung = s.rung := rfl
@[simp] theorem State.setFlocks_out (s : State) (v : SMap Flock) : (s.setFlocks v).out = s.out := rfl
@[simp] theorem State.setTally_pending (s : State) (v : Tally) : (s.setTally v).pending = s.pending := rfl
@[simp] theorem State.setTally_free (s : State) (v : Tally) : (s.setTally v).free = s.free := rfl
@[simp] theorem State.setTally_regs (s : State) (v : Tally) : (s.setTally v).regs = s.regs := rfl
@[simp] theorem State.setTally_views (s : State) (v : Tally) : (s.setTally v).views = s.views := rfl
@[simp] theorem State.setTally_ptp (s : State) (v : Tally) : (s.setTally v).ptp = s.ptp := rfl
@[simp] theorem State.setTally_hbmShort (s : State) (v : Tally) : (s.setTally v).hbmShort = s.hbmShort := rfl
@[simp] theorem State.setTally_log (s : State) (v : Tally) : (s.setTally v).log = s.log := rfl
@[simp] theorem State.setTally_mem (s : State) (v : Tally) : (s.setTally v).mem = s.mem := rfl
@[simp] theorem State.setTally_fresh (s : State) (v : Tally) : (s.setTally v).fresh = s.fresh := rfl
@[simp] theorem State.setTally_seg (s : State) (v : Tally) : (s.setTally v).seg = s.seg := rfl
@[simp] theorem State.setTally_folds (s : State) (v : Tally) : (s.setTally v).folds = s.folds := rfl
@[simp] theorem State.setTally_droves (s : State) (v : Tally) : (s.setTally v).droves = s.droves := rfl
@[simp] theorem State.setTally_flocks (s : State) (v : Tally) : (s.setTally v).flocks = s.flocks := rfl
@[simp] theorem State.setTally_tally (s : State) (v : Tally) : (s.setTally v).tally = v := rfl
@[simp] theorem State.setTally_pause (s : State) (v : Tally) : (s.setTally v).pause = s.pause := rfl
@[simp] theorem State.setTally_care (s : State) (v : Tally) : (s.setTally v).care = s.care := rfl
@[simp] theorem State.setTally_power (s : State) (v : Tally) : (s.setTally v).power = s.power := rfl
@[simp] theorem State.setTally_hks (s : State) (v : Tally) : (s.setTally v).hks = s.hks := rfl
@[simp] theorem State.setTally_boot (s : State) (v : Tally) : (s.setTally v).boot = s.boot := rfl
@[simp] theorem State.setTally_links (s : State) (v : Tally) : (s.setTally v).links = s.links := rfl
@[simp] theorem State.setTally_msgs (s : State) (v : Tally) : (s.setTally v).msgs = s.msgs := rfl
@[simp] theorem State.setTally_muster (s : State) (v : Tally) : (s.setTally v).muster = s.muster := rfl
@[simp] theorem State.setTally_drover (s : State) (v : Tally) : (s.setTally v).drover = s.drover := rfl
@[simp] theorem State.setTally_weights (s : State) (v : Tally) : (s.setTally v).weights = s.weights := rfl
@[simp] theorem State.setTally_net (s : State) (v : Tally) : (s.setTally v).net = s.net := rfl
@[simp] theorem State.setTally_rung (s : State) (v : Tally) : (s.setTally v).rung = s.rung := rfl
@[simp] theorem State.setTally_out (s : State) (v : Tally) : (s.setTally v).out = s.out := rfl
@[simp] theorem State.setPause_pending (s : State) (v : Pauses) : (s.setPause v).pending = s.pending := rfl
@[simp] theorem State.setPause_free (s : State) (v : Pauses) : (s.setPause v).free = s.free := rfl
@[simp] theorem State.setPause_regs (s : State) (v : Pauses) : (s.setPause v).regs = s.regs := rfl
@[simp] theorem State.setPause_views (s : State) (v : Pauses) : (s.setPause v).views = s.views := rfl
@[simp] theorem State.setPause_ptp (s : State) (v : Pauses) : (s.setPause v).ptp = s.ptp := rfl
@[simp] theorem State.setPause_hbmShort (s : State) (v : Pauses) : (s.setPause v).hbmShort = s.hbmShort := rfl
@[simp] theorem State.setPause_log (s : State) (v : Pauses) : (s.setPause v).log = s.log := rfl
@[simp] theorem State.setPause_mem (s : State) (v : Pauses) : (s.setPause v).mem = s.mem := rfl
@[simp] theorem State.setPause_fresh (s : State) (v : Pauses) : (s.setPause v).fresh = s.fresh := rfl
@[simp] theorem State.setPause_seg (s : State) (v : Pauses) : (s.setPause v).seg = s.seg := rfl
@[simp] theorem State.setPause_folds (s : State) (v : Pauses) : (s.setPause v).folds = s.folds := rfl
@[simp] theorem State.setPause_droves (s : State) (v : Pauses) : (s.setPause v).droves = s.droves := rfl
@[simp] theorem State.setPause_flocks (s : State) (v : Pauses) : (s.setPause v).flocks = s.flocks := rfl
@[simp] theorem State.setPause_tally (s : State) (v : Pauses) : (s.setPause v).tally = s.tally := rfl
@[simp] theorem State.setPause_pause (s : State) (v : Pauses) : (s.setPause v).pause = v := rfl
@[simp] theorem State.setPause_care (s : State) (v : Pauses) : (s.setPause v).care = s.care := rfl
@[simp] theorem State.setPause_power (s : State) (v : Pauses) : (s.setPause v).power = s.power := rfl
@[simp] theorem State.setPause_hks (s : State) (v : Pauses) : (s.setPause v).hks = s.hks := rfl
@[simp] theorem State.setPause_boot (s : State) (v : Pauses) : (s.setPause v).boot = s.boot := rfl
@[simp] theorem State.setPause_links (s : State) (v : Pauses) : (s.setPause v).links = s.links := rfl
@[simp] theorem State.setPause_msgs (s : State) (v : Pauses) : (s.setPause v).msgs = s.msgs := rfl
@[simp] theorem State.setPause_muster (s : State) (v : Pauses) : (s.setPause v).muster = s.muster := rfl
@[simp] theorem State.setPause_drover (s : State) (v : Pauses) : (s.setPause v).drover = s.drover := rfl
@[simp] theorem State.setPause_weights (s : State) (v : Pauses) : (s.setPause v).weights = s.weights := rfl
@[simp] theorem State.setPause_net (s : State) (v : Pauses) : (s.setPause v).net = s.net := rfl
@[simp] theorem State.setPause_rung (s : State) (v : Pauses) : (s.setPause v).rung = s.rung := rfl
@[simp] theorem State.setPause_out (s : State) (v : Pauses) : (s.setPause v).out = s.out := rfl
@[simp] theorem State.setCare_pending (s : State) (v : Care) : (s.setCare v).pending = s.pending := rfl
@[simp] theorem State.setCare_free (s : State) (v : Care) : (s.setCare v).free = s.free := rfl
@[simp] theorem State.setCare_regs (s : State) (v : Care) : (s.setCare v).regs = s.regs := rfl
@[simp] theorem State.setCare_views (s : State) (v : Care) : (s.setCare v).views = s.views := rfl
@[simp] theorem State.setCare_ptp (s : State) (v : Care) : (s.setCare v).ptp = s.ptp := rfl
@[simp] theorem State.setCare_hbmShort (s : State) (v : Care) : (s.setCare v).hbmShort = s.hbmShort := rfl
@[simp] theorem State.setCare_log (s : State) (v : Care) : (s.setCare v).log = s.log := rfl
@[simp] theorem State.setCare_mem (s : State) (v : Care) : (s.setCare v).mem = s.mem := rfl
@[simp] theorem State.setCare_fresh (s : State) (v : Care) : (s.setCare v).fresh = s.fresh := rfl
@[simp] theorem State.setCare_seg (s : State) (v : Care) : (s.setCare v).seg = s.seg := rfl
@[simp] theorem State.setCare_folds (s : State) (v : Care) : (s.setCare v).folds = s.folds := rfl
@[simp] theorem State.setCare_droves (s : State) (v : Care) : (s.setCare v).droves = s.droves := rfl
@[simp] theorem State.setCare_flocks (s : State) (v : Care) : (s.setCare v).flocks = s.flocks := rfl
@[simp] theorem State.setCare_tally (s : State) (v : Care) : (s.setCare v).tally = s.tally := rfl
@[simp] theorem State.setCare_pause (s : State) (v : Care) : (s.setCare v).pause = s.pause := rfl
@[simp] theorem State.setCare_care (s : State) (v : Care) : (s.setCare v).care = v := rfl
@[simp] theorem State.setCare_power (s : State) (v : Care) : (s.setCare v).power = s.power := rfl
@[simp] theorem State.setCare_hks (s : State) (v : Care) : (s.setCare v).hks = s.hks := rfl
@[simp] theorem State.setCare_boot (s : State) (v : Care) : (s.setCare v).boot = s.boot := rfl
@[simp] theorem State.setCare_links (s : State) (v : Care) : (s.setCare v).links = s.links := rfl
@[simp] theorem State.setCare_msgs (s : State) (v : Care) : (s.setCare v).msgs = s.msgs := rfl
@[simp] theorem State.setCare_muster (s : State) (v : Care) : (s.setCare v).muster = s.muster := rfl
@[simp] theorem State.setCare_drover (s : State) (v : Care) : (s.setCare v).drover = s.drover := rfl
@[simp] theorem State.setCare_weights (s : State) (v : Care) : (s.setCare v).weights = s.weights := rfl
@[simp] theorem State.setCare_net (s : State) (v : Care) : (s.setCare v).net = s.net := rfl
@[simp] theorem State.setCare_rung (s : State) (v : Care) : (s.setCare v).rung = s.rung := rfl
@[simp] theorem State.setCare_out (s : State) (v : Care) : (s.setCare v).out = s.out := rfl
@[simp] theorem State.setPower_pending (s : State) (v : Power) : (s.setPower v).pending = s.pending := rfl
@[simp] theorem State.setPower_free (s : State) (v : Power) : (s.setPower v).free = s.free := rfl
@[simp] theorem State.setPower_regs (s : State) (v : Power) : (s.setPower v).regs = s.regs := rfl
@[simp] theorem State.setPower_views (s : State) (v : Power) : (s.setPower v).views = s.views := rfl
@[simp] theorem State.setPower_ptp (s : State) (v : Power) : (s.setPower v).ptp = s.ptp := rfl
@[simp] theorem State.setPower_hbmShort (s : State) (v : Power) : (s.setPower v).hbmShort = s.hbmShort := rfl
@[simp] theorem State.setPower_log (s : State) (v : Power) : (s.setPower v).log = s.log := rfl
@[simp] theorem State.setPower_mem (s : State) (v : Power) : (s.setPower v).mem = s.mem := rfl
@[simp] theorem State.setPower_fresh (s : State) (v : Power) : (s.setPower v).fresh = s.fresh := rfl
@[simp] theorem State.setPower_seg (s : State) (v : Power) : (s.setPower v).seg = s.seg := rfl
@[simp] theorem State.setPower_folds (s : State) (v : Power) : (s.setPower v).folds = s.folds := rfl
@[simp] theorem State.setPower_droves (s : State) (v : Power) : (s.setPower v).droves = s.droves := rfl
@[simp] theorem State.setPower_flocks (s : State) (v : Power) : (s.setPower v).flocks = s.flocks := rfl
@[simp] theorem State.setPower_tally (s : State) (v : Power) : (s.setPower v).tally = s.tally := rfl
@[simp] theorem State.setPower_pause (s : State) (v : Power) : (s.setPower v).pause = s.pause := rfl
@[simp] theorem State.setPower_care (s : State) (v : Power) : (s.setPower v).care = s.care := rfl
@[simp] theorem State.setPower_power (s : State) (v : Power) : (s.setPower v).power = v := rfl
@[simp] theorem State.setPower_hks (s : State) (v : Power) : (s.setPower v).hks = s.hks := rfl
@[simp] theorem State.setPower_boot (s : State) (v : Power) : (s.setPower v).boot = s.boot := rfl
@[simp] theorem State.setPower_links (s : State) (v : Power) : (s.setPower v).links = s.links := rfl
@[simp] theorem State.setPower_msgs (s : State) (v : Power) : (s.setPower v).msgs = s.msgs := rfl
@[simp] theorem State.setPower_muster (s : State) (v : Power) : (s.setPower v).muster = s.muster := rfl
@[simp] theorem State.setPower_drover (s : State) (v : Power) : (s.setPower v).drover = s.drover := rfl
@[simp] theorem State.setPower_weights (s : State) (v : Power) : (s.setPower v).weights = s.weights := rfl
@[simp] theorem State.setPower_net (s : State) (v : Power) : (s.setPower v).net = s.net := rfl
@[simp] theorem State.setPower_rung (s : State) (v : Power) : (s.setPower v).rung = s.rung := rfl
@[simp] theorem State.setPower_out (s : State) (v : Power) : (s.setPower v).out = s.out := rfl
@[simp] theorem State.setHks_pending (s : State) (v : SMap Hk) : (s.setHks v).pending = s.pending := rfl
@[simp] theorem State.setHks_free (s : State) (v : SMap Hk) : (s.setHks v).free = s.free := rfl
@[simp] theorem State.setHks_regs (s : State) (v : SMap Hk) : (s.setHks v).regs = s.regs := rfl
@[simp] theorem State.setHks_views (s : State) (v : SMap Hk) : (s.setHks v).views = s.views := rfl
@[simp] theorem State.setHks_ptp (s : State) (v : SMap Hk) : (s.setHks v).ptp = s.ptp := rfl
@[simp] theorem State.setHks_hbmShort (s : State) (v : SMap Hk) : (s.setHks v).hbmShort = s.hbmShort := rfl
@[simp] theorem State.setHks_log (s : State) (v : SMap Hk) : (s.setHks v).log = s.log := rfl
@[simp] theorem State.setHks_mem (s : State) (v : SMap Hk) : (s.setHks v).mem = s.mem := rfl
@[simp] theorem State.setHks_fresh (s : State) (v : SMap Hk) : (s.setHks v).fresh = s.fresh := rfl
@[simp] theorem State.setHks_seg (s : State) (v : SMap Hk) : (s.setHks v).seg = s.seg := rfl
@[simp] theorem State.setHks_folds (s : State) (v : SMap Hk) : (s.setHks v).folds = s.folds := rfl
@[simp] theorem State.setHks_droves (s : State) (v : SMap Hk) : (s.setHks v).droves = s.droves := rfl
@[simp] theorem State.setHks_flocks (s : State) (v : SMap Hk) : (s.setHks v).flocks = s.flocks := rfl
@[simp] theorem State.setHks_tally (s : State) (v : SMap Hk) : (s.setHks v).tally = s.tally := rfl
@[simp] theorem State.setHks_pause (s : State) (v : SMap Hk) : (s.setHks v).pause = s.pause := rfl
@[simp] theorem State.setHks_care (s : State) (v : SMap Hk) : (s.setHks v).care = s.care := rfl
@[simp] theorem State.setHks_power (s : State) (v : SMap Hk) : (s.setHks v).power = s.power := rfl
@[simp] theorem State.setHks_hks (s : State) (v : SMap Hk) : (s.setHks v).hks = v := rfl
@[simp] theorem State.setHks_boot (s : State) (v : SMap Hk) : (s.setHks v).boot = s.boot := rfl
@[simp] theorem State.setHks_links (s : State) (v : SMap Hk) : (s.setHks v).links = s.links := rfl
@[simp] theorem State.setHks_msgs (s : State) (v : SMap Hk) : (s.setHks v).msgs = s.msgs := rfl
@[simp] theorem State.setHks_muster (s : State) (v : SMap Hk) : (s.setHks v).muster = s.muster := rfl
@[simp] theorem State.setHks_drover (s : State) (v : SMap Hk) : (s.setHks v).drover = s.drover := rfl
@[simp] theorem State.setHks_weights (s : State) (v : SMap Hk) : (s.setHks v).weights = s.weights := rfl
@[simp] theorem State.setHks_net (s : State) (v : SMap Hk) : (s.setHks v).net = s.net := rfl
@[simp] theorem State.setHks_rung (s : State) (v : SMap Hk) : (s.setHks v).rung = s.rung := rfl
@[simp] theorem State.setHks_out (s : State) (v : SMap Hk) : (s.setHks v).out = s.out := rfl
@[simp] theorem State.setBoot_pending (s : State) (v : Boot) : (s.setBoot v).pending = s.pending := rfl
@[simp] theorem State.setBoot_free (s : State) (v : Boot) : (s.setBoot v).free = s.free := rfl
@[simp] theorem State.setBoot_regs (s : State) (v : Boot) : (s.setBoot v).regs = s.regs := rfl
@[simp] theorem State.setBoot_views (s : State) (v : Boot) : (s.setBoot v).views = s.views := rfl
@[simp] theorem State.setBoot_ptp (s : State) (v : Boot) : (s.setBoot v).ptp = s.ptp := rfl
@[simp] theorem State.setBoot_hbmShort (s : State) (v : Boot) : (s.setBoot v).hbmShort = s.hbmShort := rfl
@[simp] theorem State.setBoot_log (s : State) (v : Boot) : (s.setBoot v).log = s.log := rfl
@[simp] theorem State.setBoot_mem (s : State) (v : Boot) : (s.setBoot v).mem = s.mem := rfl
@[simp] theorem State.setBoot_fresh (s : State) (v : Boot) : (s.setBoot v).fresh = s.fresh := rfl
@[simp] theorem State.setBoot_seg (s : State) (v : Boot) : (s.setBoot v).seg = s.seg := rfl
@[simp] theorem State.setBoot_folds (s : State) (v : Boot) : (s.setBoot v).folds = s.folds := rfl
@[simp] theorem State.setBoot_droves (s : State) (v : Boot) : (s.setBoot v).droves = s.droves := rfl
@[simp] theorem State.setBoot_flocks (s : State) (v : Boot) : (s.setBoot v).flocks = s.flocks := rfl
@[simp] theorem State.setBoot_tally (s : State) (v : Boot) : (s.setBoot v).tally = s.tally := rfl
@[simp] theorem State.setBoot_pause (s : State) (v : Boot) : (s.setBoot v).pause = s.pause := rfl
@[simp] theorem State.setBoot_care (s : State) (v : Boot) : (s.setBoot v).care = s.care := rfl
@[simp] theorem State.setBoot_power (s : State) (v : Boot) : (s.setBoot v).power = s.power := rfl
@[simp] theorem State.setBoot_hks (s : State) (v : Boot) : (s.setBoot v).hks = s.hks := rfl
@[simp] theorem State.setBoot_boot (s : State) (v : Boot) : (s.setBoot v).boot = v := rfl
@[simp] theorem State.setBoot_links (s : State) (v : Boot) : (s.setBoot v).links = s.links := rfl
@[simp] theorem State.setBoot_msgs (s : State) (v : Boot) : (s.setBoot v).msgs = s.msgs := rfl
@[simp] theorem State.setBoot_muster (s : State) (v : Boot) : (s.setBoot v).muster = s.muster := rfl
@[simp] theorem State.setBoot_drover (s : State) (v : Boot) : (s.setBoot v).drover = s.drover := rfl
@[simp] theorem State.setBoot_weights (s : State) (v : Boot) : (s.setBoot v).weights = s.weights := rfl
@[simp] theorem State.setBoot_net (s : State) (v : Boot) : (s.setBoot v).net = s.net := rfl
@[simp] theorem State.setBoot_rung (s : State) (v : Boot) : (s.setBoot v).rung = s.rung := rfl
@[simp] theorem State.setBoot_out (s : State) (v : Boot) : (s.setBoot v).out = s.out := rfl
@[simp] theorem State.setLinks_pending (s : State) (v : SMap Link) : (s.setLinks v).pending = s.pending := rfl
@[simp] theorem State.setLinks_free (s : State) (v : SMap Link) : (s.setLinks v).free = s.free := rfl
@[simp] theorem State.setLinks_regs (s : State) (v : SMap Link) : (s.setLinks v).regs = s.regs := rfl
@[simp] theorem State.setLinks_views (s : State) (v : SMap Link) : (s.setLinks v).views = s.views := rfl
@[simp] theorem State.setLinks_ptp (s : State) (v : SMap Link) : (s.setLinks v).ptp = s.ptp := rfl
@[simp] theorem State.setLinks_hbmShort (s : State) (v : SMap Link) : (s.setLinks v).hbmShort = s.hbmShort := rfl
@[simp] theorem State.setLinks_log (s : State) (v : SMap Link) : (s.setLinks v).log = s.log := rfl
@[simp] theorem State.setLinks_mem (s : State) (v : SMap Link) : (s.setLinks v).mem = s.mem := rfl
@[simp] theorem State.setLinks_fresh (s : State) (v : SMap Link) : (s.setLinks v).fresh = s.fresh := rfl
@[simp] theorem State.setLinks_seg (s : State) (v : SMap Link) : (s.setLinks v).seg = s.seg := rfl
@[simp] theorem State.setLinks_folds (s : State) (v : SMap Link) : (s.setLinks v).folds = s.folds := rfl
@[simp] theorem State.setLinks_droves (s : State) (v : SMap Link) : (s.setLinks v).droves = s.droves := rfl
@[simp] theorem State.setLinks_flocks (s : State) (v : SMap Link) : (s.setLinks v).flocks = s.flocks := rfl
@[simp] theorem State.setLinks_tally (s : State) (v : SMap Link) : (s.setLinks v).tally = s.tally := rfl
@[simp] theorem State.setLinks_pause (s : State) (v : SMap Link) : (s.setLinks v).pause = s.pause := rfl
@[simp] theorem State.setLinks_care (s : State) (v : SMap Link) : (s.setLinks v).care = s.care := rfl
@[simp] theorem State.setLinks_power (s : State) (v : SMap Link) : (s.setLinks v).power = s.power := rfl
@[simp] theorem State.setLinks_hks (s : State) (v : SMap Link) : (s.setLinks v).hks = s.hks := rfl
@[simp] theorem State.setLinks_boot (s : State) (v : SMap Link) : (s.setLinks v).boot = s.boot := rfl
@[simp] theorem State.setLinks_links (s : State) (v : SMap Link) : (s.setLinks v).links = v := rfl
@[simp] theorem State.setLinks_msgs (s : State) (v : SMap Link) : (s.setLinks v).msgs = s.msgs := rfl
@[simp] theorem State.setLinks_muster (s : State) (v : SMap Link) : (s.setLinks v).muster = s.muster := rfl
@[simp] theorem State.setLinks_drover (s : State) (v : SMap Link) : (s.setLinks v).drover = s.drover := rfl
@[simp] theorem State.setLinks_weights (s : State) (v : SMap Link) : (s.setLinks v).weights = s.weights := rfl
@[simp] theorem State.setLinks_net (s : State) (v : SMap Link) : (s.setLinks v).net = s.net := rfl
@[simp] theorem State.setLinks_rung (s : State) (v : SMap Link) : (s.setLinks v).rung = s.rung := rfl
@[simp] theorem State.setLinks_out (s : State) (v : SMap Link) : (s.setLinks v).out = s.out := rfl
@[simp] theorem State.setMsgs_pending (s : State) (v : Msgs) : (s.setMsgs v).pending = s.pending := rfl
@[simp] theorem State.setMsgs_free (s : State) (v : Msgs) : (s.setMsgs v).free = s.free := rfl
@[simp] theorem State.setMsgs_regs (s : State) (v : Msgs) : (s.setMsgs v).regs = s.regs := rfl
@[simp] theorem State.setMsgs_views (s : State) (v : Msgs) : (s.setMsgs v).views = s.views := rfl
@[simp] theorem State.setMsgs_ptp (s : State) (v : Msgs) : (s.setMsgs v).ptp = s.ptp := rfl
@[simp] theorem State.setMsgs_hbmShort (s : State) (v : Msgs) : (s.setMsgs v).hbmShort = s.hbmShort := rfl
@[simp] theorem State.setMsgs_log (s : State) (v : Msgs) : (s.setMsgs v).log = s.log := rfl
@[simp] theorem State.setMsgs_mem (s : State) (v : Msgs) : (s.setMsgs v).mem = s.mem := rfl
@[simp] theorem State.setMsgs_fresh (s : State) (v : Msgs) : (s.setMsgs v).fresh = s.fresh := rfl
@[simp] theorem State.setMsgs_seg (s : State) (v : Msgs) : (s.setMsgs v).seg = s.seg := rfl
@[simp] theorem State.setMsgs_folds (s : State) (v : Msgs) : (s.setMsgs v).folds = s.folds := rfl
@[simp] theorem State.setMsgs_droves (s : State) (v : Msgs) : (s.setMsgs v).droves = s.droves := rfl
@[simp] theorem State.setMsgs_flocks (s : State) (v : Msgs) : (s.setMsgs v).flocks = s.flocks := rfl
@[simp] theorem State.setMsgs_tally (s : State) (v : Msgs) : (s.setMsgs v).tally = s.tally := rfl
@[simp] theorem State.setMsgs_pause (s : State) (v : Msgs) : (s.setMsgs v).pause = s.pause := rfl
@[simp] theorem State.setMsgs_care (s : State) (v : Msgs) : (s.setMsgs v).care = s.care := rfl
@[simp] theorem State.setMsgs_power (s : State) (v : Msgs) : (s.setMsgs v).power = s.power := rfl
@[simp] theorem State.setMsgs_hks (s : State) (v : Msgs) : (s.setMsgs v).hks = s.hks := rfl
@[simp] theorem State.setMsgs_boot (s : State) (v : Msgs) : (s.setMsgs v).boot = s.boot := rfl
@[simp] theorem State.setMsgs_links (s : State) (v : Msgs) : (s.setMsgs v).links = s.links := rfl
@[simp] theorem State.setMsgs_msgs (s : State) (v : Msgs) : (s.setMsgs v).msgs = v := rfl
@[simp] theorem State.setMsgs_muster (s : State) (v : Msgs) : (s.setMsgs v).muster = s.muster := rfl
@[simp] theorem State.setMsgs_drover (s : State) (v : Msgs) : (s.setMsgs v).drover = s.drover := rfl
@[simp] theorem State.setMsgs_weights (s : State) (v : Msgs) : (s.setMsgs v).weights = s.weights := rfl
@[simp] theorem State.setMsgs_net (s : State) (v : Msgs) : (s.setMsgs v).net = s.net := rfl
@[simp] theorem State.setMsgs_rung (s : State) (v : Msgs) : (s.setMsgs v).rung = s.rung := rfl
@[simp] theorem State.setMsgs_out (s : State) (v : Msgs) : (s.setMsgs v).out = s.out := rfl
@[simp] theorem State.setMuster_pending (s : State) (v : Muster) : (s.setMuster v).pending = s.pending := rfl
@[simp] theorem State.setMuster_free (s : State) (v : Muster) : (s.setMuster v).free = s.free := rfl
@[simp] theorem State.setMuster_regs (s : State) (v : Muster) : (s.setMuster v).regs = s.regs := rfl
@[simp] theorem State.setMuster_views (s : State) (v : Muster) : (s.setMuster v).views = s.views := rfl
@[simp] theorem State.setMuster_ptp (s : State) (v : Muster) : (s.setMuster v).ptp = s.ptp := rfl
@[simp] theorem State.setMuster_hbmShort (s : State) (v : Muster) : (s.setMuster v).hbmShort = s.hbmShort := rfl
@[simp] theorem State.setMuster_log (s : State) (v : Muster) : (s.setMuster v).log = s.log := rfl
@[simp] theorem State.setMuster_mem (s : State) (v : Muster) : (s.setMuster v).mem = s.mem := rfl
@[simp] theorem State.setMuster_fresh (s : State) (v : Muster) : (s.setMuster v).fresh = s.fresh := rfl
@[simp] theorem State.setMuster_seg (s : State) (v : Muster) : (s.setMuster v).seg = s.seg := rfl
@[simp] theorem State.setMuster_folds (s : State) (v : Muster) : (s.setMuster v).folds = s.folds := rfl
@[simp] theorem State.setMuster_droves (s : State) (v : Muster) : (s.setMuster v).droves = s.droves := rfl
@[simp] theorem State.setMuster_flocks (s : State) (v : Muster) : (s.setMuster v).flocks = s.flocks := rfl
@[simp] theorem State.setMuster_tally (s : State) (v : Muster) : (s.setMuster v).tally = s.tally := rfl
@[simp] theorem State.setMuster_pause (s : State) (v : Muster) : (s.setMuster v).pause = s.pause := rfl
@[simp] theorem State.setMuster_care (s : State) (v : Muster) : (s.setMuster v).care = s.care := rfl
@[simp] theorem State.setMuster_power (s : State) (v : Muster) : (s.setMuster v).power = s.power := rfl
@[simp] theorem State.setMuster_hks (s : State) (v : Muster) : (s.setMuster v).hks = s.hks := rfl
@[simp] theorem State.setMuster_boot (s : State) (v : Muster) : (s.setMuster v).boot = s.boot := rfl
@[simp] theorem State.setMuster_links (s : State) (v : Muster) : (s.setMuster v).links = s.links := rfl
@[simp] theorem State.setMuster_msgs (s : State) (v : Muster) : (s.setMuster v).msgs = s.msgs := rfl
@[simp] theorem State.setMuster_muster (s : State) (v : Muster) : (s.setMuster v).muster = v := rfl
@[simp] theorem State.setMuster_drover (s : State) (v : Muster) : (s.setMuster v).drover = s.drover := rfl
@[simp] theorem State.setMuster_weights (s : State) (v : Muster) : (s.setMuster v).weights = s.weights := rfl
@[simp] theorem State.setMuster_net (s : State) (v : Muster) : (s.setMuster v).net = s.net := rfl
@[simp] theorem State.setMuster_rung (s : State) (v : Muster) : (s.setMuster v).rung = s.rung := rfl
@[simp] theorem State.setMuster_out (s : State) (v : Muster) : (s.setMuster v).out = s.out := rfl
@[simp] theorem State.setDrover_pending (s : State) (v : Drover) : (s.setDrover v).pending = s.pending := rfl
@[simp] theorem State.setDrover_free (s : State) (v : Drover) : (s.setDrover v).free = s.free := rfl
@[simp] theorem State.setDrover_regs (s : State) (v : Drover) : (s.setDrover v).regs = s.regs := rfl
@[simp] theorem State.setDrover_views (s : State) (v : Drover) : (s.setDrover v).views = s.views := rfl
@[simp] theorem State.setDrover_ptp (s : State) (v : Drover) : (s.setDrover v).ptp = s.ptp := rfl
@[simp] theorem State.setDrover_hbmShort (s : State) (v : Drover) : (s.setDrover v).hbmShort = s.hbmShort := rfl
@[simp] theorem State.setDrover_log (s : State) (v : Drover) : (s.setDrover v).log = s.log := rfl
@[simp] theorem State.setDrover_mem (s : State) (v : Drover) : (s.setDrover v).mem = s.mem := rfl
@[simp] theorem State.setDrover_fresh (s : State) (v : Drover) : (s.setDrover v).fresh = s.fresh := rfl
@[simp] theorem State.setDrover_seg (s : State) (v : Drover) : (s.setDrover v).seg = s.seg := rfl
@[simp] theorem State.setDrover_folds (s : State) (v : Drover) : (s.setDrover v).folds = s.folds := rfl
@[simp] theorem State.setDrover_droves (s : State) (v : Drover) : (s.setDrover v).droves = s.droves := rfl
@[simp] theorem State.setDrover_flocks (s : State) (v : Drover) : (s.setDrover v).flocks = s.flocks := rfl
@[simp] theorem State.setDrover_tally (s : State) (v : Drover) : (s.setDrover v).tally = s.tally := rfl
@[simp] theorem State.setDrover_pause (s : State) (v : Drover) : (s.setDrover v).pause = s.pause := rfl
@[simp] theorem State.setDrover_care (s : State) (v : Drover) : (s.setDrover v).care = s.care := rfl
@[simp] theorem State.setDrover_power (s : State) (v : Drover) : (s.setDrover v).power = s.power := rfl
@[simp] theorem State.setDrover_hks (s : State) (v : Drover) : (s.setDrover v).hks = s.hks := rfl
@[simp] theorem State.setDrover_boot (s : State) (v : Drover) : (s.setDrover v).boot = s.boot := rfl
@[simp] theorem State.setDrover_links (s : State) (v : Drover) : (s.setDrover v).links = s.links := rfl
@[simp] theorem State.setDrover_msgs (s : State) (v : Drover) : (s.setDrover v).msgs = s.msgs := rfl
@[simp] theorem State.setDrover_muster (s : State) (v : Drover) : (s.setDrover v).muster = s.muster := rfl
@[simp] theorem State.setDrover_drover (s : State) (v : Drover) : (s.setDrover v).drover = v := rfl
@[simp] theorem State.setDrover_weights (s : State) (v : Drover) : (s.setDrover v).weights = s.weights := rfl
@[simp] theorem State.setDrover_net (s : State) (v : Drover) : (s.setDrover v).net = s.net := rfl
@[simp] theorem State.setDrover_rung (s : State) (v : Drover) : (s.setDrover v).rung = s.rung := rfl
@[simp] theorem State.setDrover_out (s : State) (v : Drover) : (s.setDrover v).out = s.out := rfl
@[simp] theorem State.setWeights_pending (s : State) (v : Weights) : (s.setWeights v).pending = s.pending := rfl
@[simp] theorem State.setWeights_free (s : State) (v : Weights) : (s.setWeights v).free = s.free := rfl
@[simp] theorem State.setWeights_regs (s : State) (v : Weights) : (s.setWeights v).regs = s.regs := rfl
@[simp] theorem State.setWeights_views (s : State) (v : Weights) : (s.setWeights v).views = s.views := rfl
@[simp] theorem State.setWeights_ptp (s : State) (v : Weights) : (s.setWeights v).ptp = s.ptp := rfl
@[simp] theorem State.setWeights_hbmShort (s : State) (v : Weights) : (s.setWeights v).hbmShort = s.hbmShort := rfl
@[simp] theorem State.setWeights_log (s : State) (v : Weights) : (s.setWeights v).log = s.log := rfl
@[simp] theorem State.setWeights_mem (s : State) (v : Weights) : (s.setWeights v).mem = s.mem := rfl
@[simp] theorem State.setWeights_fresh (s : State) (v : Weights) : (s.setWeights v).fresh = s.fresh := rfl
@[simp] theorem State.setWeights_seg (s : State) (v : Weights) : (s.setWeights v).seg = s.seg := rfl
@[simp] theorem State.setWeights_folds (s : State) (v : Weights) : (s.setWeights v).folds = s.folds := rfl
@[simp] theorem State.setWeights_droves (s : State) (v : Weights) : (s.setWeights v).droves = s.droves := rfl
@[simp] theorem State.setWeights_flocks (s : State) (v : Weights) : (s.setWeights v).flocks = s.flocks := rfl
@[simp] theorem State.setWeights_tally (s : State) (v : Weights) : (s.setWeights v).tally = s.tally := rfl
@[simp] theorem State.setWeights_pause (s : State) (v : Weights) : (s.setWeights v).pause = s.pause := rfl
@[simp] theorem State.setWeights_care (s : State) (v : Weights) : (s.setWeights v).care = s.care := rfl
@[simp] theorem State.setWeights_power (s : State) (v : Weights) : (s.setWeights v).power = s.power := rfl
@[simp] theorem State.setWeights_hks (s : State) (v : Weights) : (s.setWeights v).hks = s.hks := rfl
@[simp] theorem State.setWeights_boot (s : State) (v : Weights) : (s.setWeights v).boot = s.boot := rfl
@[simp] theorem State.setWeights_links (s : State) (v : Weights) : (s.setWeights v).links = s.links := rfl
@[simp] theorem State.setWeights_msgs (s : State) (v : Weights) : (s.setWeights v).msgs = s.msgs := rfl
@[simp] theorem State.setWeights_muster (s : State) (v : Weights) : (s.setWeights v).muster = s.muster := rfl
@[simp] theorem State.setWeights_drover (s : State) (v : Weights) : (s.setWeights v).drover = s.drover := rfl
@[simp] theorem State.setWeights_weights (s : State) (v : Weights) : (s.setWeights v).weights = v := rfl
@[simp] theorem State.setWeights_net (s : State) (v : Weights) : (s.setWeights v).net = s.net := rfl
@[simp] theorem State.setWeights_rung (s : State) (v : Weights) : (s.setWeights v).rung = s.rung := rfl
@[simp] theorem State.setWeights_out (s : State) (v : Weights) : (s.setWeights v).out = s.out := rfl
@[simp] theorem State.setNet_pending (s : State) (v : Net) : (s.setNet v).pending = s.pending := rfl
@[simp] theorem State.setNet_free (s : State) (v : Net) : (s.setNet v).free = s.free := rfl
@[simp] theorem State.setNet_regs (s : State) (v : Net) : (s.setNet v).regs = s.regs := rfl
@[simp] theorem State.setNet_views (s : State) (v : Net) : (s.setNet v).views = s.views := rfl
@[simp] theorem State.setNet_ptp (s : State) (v : Net) : (s.setNet v).ptp = s.ptp := rfl
@[simp] theorem State.setNet_hbmShort (s : State) (v : Net) : (s.setNet v).hbmShort = s.hbmShort := rfl
@[simp] theorem State.setNet_log (s : State) (v : Net) : (s.setNet v).log = s.log := rfl
@[simp] theorem State.setNet_mem (s : State) (v : Net) : (s.setNet v).mem = s.mem := rfl
@[simp] theorem State.setNet_fresh (s : State) (v : Net) : (s.setNet v).fresh = s.fresh := rfl
@[simp] theorem State.setNet_seg (s : State) (v : Net) : (s.setNet v).seg = s.seg := rfl
@[simp] theorem State.setNet_folds (s : State) (v : Net) : (s.setNet v).folds = s.folds := rfl
@[simp] theorem State.setNet_droves (s : State) (v : Net) : (s.setNet v).droves = s.droves := rfl
@[simp] theorem State.setNet_flocks (s : State) (v : Net) : (s.setNet v).flocks = s.flocks := rfl
@[simp] theorem State.setNet_tally (s : State) (v : Net) : (s.setNet v).tally = s.tally := rfl
@[simp] theorem State.setNet_pause (s : State) (v : Net) : (s.setNet v).pause = s.pause := rfl
@[simp] theorem State.setNet_care (s : State) (v : Net) : (s.setNet v).care = s.care := rfl
@[simp] theorem State.setNet_power (s : State) (v : Net) : (s.setNet v).power = s.power := rfl
@[simp] theorem State.setNet_hks (s : State) (v : Net) : (s.setNet v).hks = s.hks := rfl
@[simp] theorem State.setNet_boot (s : State) (v : Net) : (s.setNet v).boot = s.boot := rfl
@[simp] theorem State.setNet_links (s : State) (v : Net) : (s.setNet v).links = s.links := rfl
@[simp] theorem State.setNet_msgs (s : State) (v : Net) : (s.setNet v).msgs = s.msgs := rfl
@[simp] theorem State.setNet_muster (s : State) (v : Net) : (s.setNet v).muster = s.muster := rfl
@[simp] theorem State.setNet_drover (s : State) (v : Net) : (s.setNet v).drover = s.drover := rfl
@[simp] theorem State.setNet_weights (s : State) (v : Net) : (s.setNet v).weights = s.weights := rfl
@[simp] theorem State.setNet_net (s : State) (v : Net) : (s.setNet v).net = v := rfl
@[simp] theorem State.setNet_rung (s : State) (v : Net) : (s.setNet v).rung = s.rung := rfl
@[simp] theorem State.setNet_out (s : State) (v : Net) : (s.setNet v).out = s.out := rfl
@[simp] theorem State.setRung_pending (s : State) (v : List Nat) : (s.setRung v).pending = s.pending := rfl
@[simp] theorem State.setRung_free (s : State) (v : List Nat) : (s.setRung v).free = s.free := rfl
@[simp] theorem State.setRung_regs (s : State) (v : List Nat) : (s.setRung v).regs = s.regs := rfl
@[simp] theorem State.setRung_views (s : State) (v : List Nat) : (s.setRung v).views = s.views := rfl
@[simp] theorem State.setRung_ptp (s : State) (v : List Nat) : (s.setRung v).ptp = s.ptp := rfl
@[simp] theorem State.setRung_hbmShort (s : State) (v : List Nat) : (s.setRung v).hbmShort = s.hbmShort := rfl
@[simp] theorem State.setRung_log (s : State) (v : List Nat) : (s.setRung v).log = s.log := rfl
@[simp] theorem State.setRung_mem (s : State) (v : List Nat) : (s.setRung v).mem = s.mem := rfl
@[simp] theorem State.setRung_fresh (s : State) (v : List Nat) : (s.setRung v).fresh = s.fresh := rfl
@[simp] theorem State.setRung_seg (s : State) (v : List Nat) : (s.setRung v).seg = s.seg := rfl
@[simp] theorem State.setRung_folds (s : State) (v : List Nat) : (s.setRung v).folds = s.folds := rfl
@[simp] theorem State.setRung_droves (s : State) (v : List Nat) : (s.setRung v).droves = s.droves := rfl
@[simp] theorem State.setRung_flocks (s : State) (v : List Nat) : (s.setRung v).flocks = s.flocks := rfl
@[simp] theorem State.setRung_tally (s : State) (v : List Nat) : (s.setRung v).tally = s.tally := rfl
@[simp] theorem State.setRung_pause (s : State) (v : List Nat) : (s.setRung v).pause = s.pause := rfl
@[simp] theorem State.setRung_care (s : State) (v : List Nat) : (s.setRung v).care = s.care := rfl
@[simp] theorem State.setRung_power (s : State) (v : List Nat) : (s.setRung v).power = s.power := rfl
@[simp] theorem State.setRung_hks (s : State) (v : List Nat) : (s.setRung v).hks = s.hks := rfl
@[simp] theorem State.setRung_boot (s : State) (v : List Nat) : (s.setRung v).boot = s.boot := rfl
@[simp] theorem State.setRung_links (s : State) (v : List Nat) : (s.setRung v).links = s.links := rfl
@[simp] theorem State.setRung_msgs (s : State) (v : List Nat) : (s.setRung v).msgs = s.msgs := rfl
@[simp] theorem State.setRung_muster (s : State) (v : List Nat) : (s.setRung v).muster = s.muster := rfl
@[simp] theorem State.setRung_drover (s : State) (v : List Nat) : (s.setRung v).drover = s.drover := rfl
@[simp] theorem State.setRung_weights (s : State) (v : List Nat) : (s.setRung v).weights = s.weights := rfl
@[simp] theorem State.setRung_net (s : State) (v : List Nat) : (s.setRung v).net = s.net := rfl
@[simp] theorem State.setRung_rung (s : State) (v : List Nat) : (s.setRung v).rung = v := rfl
@[simp] theorem State.setRung_out (s : State) (v : List Nat) : (s.setRung v).out = s.out := rfl
@[simp] theorem State.setOut_pending (s : State) (v : List Out) : (s.setOut v).pending = s.pending := rfl
@[simp] theorem State.setOut_free (s : State) (v : List Out) : (s.setOut v).free = s.free := rfl
@[simp] theorem State.setOut_regs (s : State) (v : List Out) : (s.setOut v).regs = s.regs := rfl
@[simp] theorem State.setOut_views (s : State) (v : List Out) : (s.setOut v).views = s.views := rfl
@[simp] theorem State.setOut_ptp (s : State) (v : List Out) : (s.setOut v).ptp = s.ptp := rfl
@[simp] theorem State.setOut_hbmShort (s : State) (v : List Out) : (s.setOut v).hbmShort = s.hbmShort := rfl
@[simp] theorem State.setOut_log (s : State) (v : List Out) : (s.setOut v).log = s.log := rfl
@[simp] theorem State.setOut_mem (s : State) (v : List Out) : (s.setOut v).mem = s.mem := rfl
@[simp] theorem State.setOut_fresh (s : State) (v : List Out) : (s.setOut v).fresh = s.fresh := rfl
@[simp] theorem State.setOut_seg (s : State) (v : List Out) : (s.setOut v).seg = s.seg := rfl
@[simp] theorem State.setOut_folds (s : State) (v : List Out) : (s.setOut v).folds = s.folds := rfl
@[simp] theorem State.setOut_droves (s : State) (v : List Out) : (s.setOut v).droves = s.droves := rfl
@[simp] theorem State.setOut_flocks (s : State) (v : List Out) : (s.setOut v).flocks = s.flocks := rfl
@[simp] theorem State.setOut_tally (s : State) (v : List Out) : (s.setOut v).tally = s.tally := rfl
@[simp] theorem State.setOut_pause (s : State) (v : List Out) : (s.setOut v).pause = s.pause := rfl
@[simp] theorem State.setOut_care (s : State) (v : List Out) : (s.setOut v).care = s.care := rfl
@[simp] theorem State.setOut_power (s : State) (v : List Out) : (s.setOut v).power = s.power := rfl
@[simp] theorem State.setOut_hks (s : State) (v : List Out) : (s.setOut v).hks = s.hks := rfl
@[simp] theorem State.setOut_boot (s : State) (v : List Out) : (s.setOut v).boot = s.boot := rfl
@[simp] theorem State.setOut_links (s : State) (v : List Out) : (s.setOut v).links = s.links := rfl
@[simp] theorem State.setOut_msgs (s : State) (v : List Out) : (s.setOut v).msgs = s.msgs := rfl
@[simp] theorem State.setOut_muster (s : State) (v : List Out) : (s.setOut v).muster = s.muster := rfl
@[simp] theorem State.setOut_drover (s : State) (v : List Out) : (s.setOut v).drover = s.drover := rfl
@[simp] theorem State.setOut_weights (s : State) (v : List Out) : (s.setOut v).weights = s.weights := rfl
@[simp] theorem State.setOut_net (s : State) (v : List Out) : (s.setOut v).net = s.net := rfl
@[simp] theorem State.setOut_rung (s : State) (v : List Out) : (s.setOut v).rung = s.rung := rfl
@[simp] theorem State.setOut_out (s : State) (v : List Out) : (s.setOut v).out = v := rfl

end Sys2Proof.Machine
end

