-- ==== Sys2Proof/Laws/Via.lean ====
section
/-! SUPPORT. What an operation can touch: one relation that every operation of the model keeps. -/

namespace Sys2Proof.Machine

/-- `t` comes from `s` by changes of the named pieces alone, and the memories keep their canonical form. -/
structure Via (ps : List StatePart) (s t : State) : Prop where
  /-- every other piece is the same -/
  same : Only ps s t
  /-- device memory stays canonical -/
  mem : canonical emptyByte s.mem = true → canonical emptyByte t.mem = true
  /-- segment stores stay canonical -/
  seg : canonical emptyByte s.seg = true → canonical emptyByte t.seg = true

theorem StatePart.same_refl (s : State) (p : StatePart) : p.same s s := by cases p <;> rfl

theorem StatePart.same_trans {s t u : State} {p : StatePart} (h : p.same s t) (k : p.same t u) : p.same s u := by
  cases p <;> exact Eq.trans k h

theorem Via.refl (ps : List StatePart) (s : State) : Via ps s s := ⟨fun p _ => StatePart.same_refl s p, id, id⟩

theorem Via.trans {ps : List StatePart} {s t u : State} (h : Via ps s t) (k : Via ps t u) : Via ps s u :=
  ⟨fun p hp => StatePart.same_trans (h.same p hp) (k.same p hp), fun x => k.mem (h.mem x), fun x => k.seg (h.seg x)⟩

theorem Via.mono {ps qs : List StatePart} {s t : State} (h : Via qs s t) (k : (qs.all fun p => ps.contains p) = true) : Via ps s t :=
  ⟨fun p hp => h.same p (fun hq => hp (List.contains_iff_mem.mp (List.all_eq_true.mp k p hq))), h.mem, h.seg⟩

/-- One operation after others: what it touches is among the named pieces. -/
theorem Via.step {ps qs : List StatePart} {r s t : State} (h : Via qs s t) (k : (qs.all fun p => ps.contains p) = true) (g : Via ps r s) :
    Via ps r t := g.trans (h.mono k)

/-- The state that a pair carries. -/
theorem Via.pair {α : Type} {ps : List StatePart} {r t : State} {v : α} {p : α × State} (e : p = (v, t)) (h : Via ps r p.2) : Via ps r t := by
  subst e; exact h

theorem Via.fold {α : Type} {ps : List StatePart} {r s : State} (xs : List α) (g : State → α → State) (h : ∀ s x, Via ps s (g s x)) (k : Via ps r s) :
    Via ps r (xs.foldl g s) := by
  induction xs generalizing s with
  | nil => exact k
  | cons x xs ih => exact ih (k.trans (h s x))

theorem Via.forEach {α : Type} {ps : List StatePart} {r s : State} {xs : List α} {g : State → α → State} (h : ∀ s x, Via ps s (g s x)) (k : Via ps r s) :
    Via ps r (Machine.forEach s xs g) := Via.fold xs g h k

theorem Via.fold2 {α β : Type} {ps : List StatePart} {r : State} (xs : List α) (g : β × State → α → β × State) (h : ∀ b s x, Via ps s (g (b, s) x).2)
    (p : β × State) (k : Via ps r p.2) : Via ps r (xs.foldl g p).2 := by
  induction xs generalizing p with
  | nil => exact k
  | cons x xs ih => exact ih _ (k.trans (h p.1 p.2 x))


theorem within {ps qs rs : List StatePart} (h : (qs.all fun p => rs.contains p) = true) (k : (rs.all fun p => ps.contains p) = true) :
    (qs.all fun p => ps.contains p) = true :=
  List.all_eq_true.mpr fun p hp => List.all_eq_true.mp k p (List.contains_iff_mem.mp (List.all_eq_true.mp h p hp))

theorem Via.cut {ps : List StatePart} {r t u : State} (h : Via ps r t) (k : Via ps r t → Via ps r u) : Via ps r u := k h

/-- An operation that carries a continuation, after others. -/
theorem Via.after {ps : List StatePart} {r s t : State} (h : Via ps s t) (g : Via ps r s) : Via ps r t := g.trans h

theorem Via.ite {ps : List StatePart} {r a b : State} {c : Prop} [Decidable c] (h : Via ps r a) (k : Via ps r b) : Via ps r (if c then a else b) := by
  split
  · exact h
  · exact k

theorem Via.ite2 {α : Type} {ps : List StatePart} {r : State} {a b : α × State} {c : Prop} [Decidable c] (h : Via ps r a.2) (k : Via ps r b.2) :
    Via ps r (if c then a else b).2 := by
  split
  · exact h
  · exact k

/-- The state that a triple carries. -/
theorem Via.trip {α β : Type} {ps : List StatePart} {r t : State} {v : α} {w : β} {p : α × β × State} (e : p = (v, w, t)) (h : Via ps r p.2.2) : Via ps r t := by
  subst e; exact h

/-- An outcome is a next state that is reached by changes of the named pieces alone. -/
def Reach (ps : List StatePart) (s : State) (o : Host.Outcome State Fault Refusal) : Prop := ∃ t, o = .next t ∧ Via ps s t

theorem Reach.cut {ps : List StatePart} {r t : State} {o : Host.Outcome State Fault Refusal} (h : Via ps r t) (k : Via ps r t → Reach ps r o) :
    Reach ps r o := k h

theorem Reach.next {ps : List StatePart} {s t : State} (h : Via ps s t) : Reach ps s (.next t) := ⟨t, rfl, h⟩

theorem Reach.ite {ps : List StatePart} {r : State} {a b : Host.Outcome State Fault Refusal} {c : Prop} [Decidable c] (h : Reach ps r a) (k : Reach ps r b) :
    Reach ps r (if c then a else b) := by
  split
  · exact h
  · exact k

theorem setPending_via (s : State) (v) : Via [.pending] s (s.setPending v) :=
  ⟨fun p hp => by cases p <;> first | rfl | exact absurd (List.mem_singleton_self _) hp, id, id⟩

theorem setFree_via (s : State) (v) : Via [.free] s (s.setFree v) :=
  ⟨fun p hp => by cases p <;> first | rfl | exact absurd (List.mem_singleton_self _) hp, id, id⟩

theorem setRegs_via (s : State) (v) : Via [.regs] s (s.setRegs v) :=
  ⟨fun p hp => by cases p <;> first | rfl | exact absurd (List.mem_singleton_self _) hp, id, id⟩

theorem setViews_via (s : State) (v) : Via [.views] s (s.setViews v) :=
  ⟨fun p hp => by cases p <;> first | rfl | exact absurd (List.mem_singleton_self _) hp, id, id⟩

theorem setPtp_via (s : State) (v) : Via [.ptp] s (s.setPtp v) :=
  ⟨fun p hp => by cases p <;> first | rfl | exact absurd (List.mem_singleton_self _) hp, id, id⟩

theorem setHbmShort_via (s : State) (v) : Via [.hbmShort] s (s.setHbmShort v) :=
  ⟨fun p hp => by cases p <;> first | rfl | exact absurd (List.mem_singleton_self _) hp, id, id⟩

theorem setLog_via (s : State) (v) : Via [.log] s (s.setLog v) :=
  ⟨fun p hp => by cases p <;> first | rfl | exact absurd (List.mem_singleton_self _) hp, id, id⟩

theorem setFresh_via (s : State) (v) : Via [.fresh] s (s.setFresh v) :=
  ⟨fun p hp => by cases p <;> first | rfl | exact absurd (List.mem_singleton_self _) hp, id, id⟩

theorem setFolds_via (s : State) (v) : Via [.folds] s (s.setFolds v) :=
  ⟨fun p hp => by cases p <;> first | rfl | exact absurd (List.mem_singleton_self _) hp, id, id⟩

theorem setDroves_via (s : State) (v) : Via [.droves] s (s.setDroves v) :=
  ⟨fun p hp => by cases p <;> first | rfl | exact absurd (List.mem_singleton_self _) hp, id, id⟩

theorem setFlocks_via (s : State) (v) : Via [.flocks] s (s.setFlocks v) :=
  ⟨fun p hp => by cases p <;> first | rfl | exact absurd (List.mem_singleton_self _) hp, id, id⟩

theorem setTally_via (s : State) (v) : Via [.tally] s (s.setTally v) :=
  ⟨fun p hp => by cases p <;> first | rfl | exact absurd (List.mem_singleton_self _) hp, id, id⟩

theorem setPause_via (s : State) (v) : Via [.pause] s (s.setPause v) :=
  ⟨fun p hp => by cases p <;> first | rfl | exact absurd (List.mem_singleton_self _) hp, id, id⟩

theorem setCare_via (s : State) (v) : Via [.care] s (s.setCare v) :=
  ⟨fun p hp => by cases p <;> first | rfl | exact absurd (List.mem_singleton_self _) hp, id, id⟩

theorem setPower_via (s : State) (v) : Via [.power] s (s.setPower v) :=
  ⟨fun p hp => by cases p <;> first | rfl | exact absurd (List.mem_singleton_self _) hp, id, id⟩

theorem setHks_via (s : State) (v) : Via [.hks] s (s.setHks v) :=
  ⟨fun p hp => by cases p <;> first | rfl | exact absurd (List.mem_singleton_self _) hp, id, id⟩

theorem setBoot_via (s : State) (v) : Via [.boot] s (s.setBoot v) :=
  ⟨fun p hp => by cases p <;> first | rfl | exact absurd (List.mem_singleton_self _) hp, id, id⟩

theorem setLinks_via (s : State) (v) : Via [.links] s (s.setLinks v) :=
  ⟨fun p hp => by cases p <;> first | rfl | exact absurd (List.mem_singleton_self _) hp, id, id⟩

theorem setMsgs_via (s : State) (v) : Via [.msgs] s (s.setMsgs v) :=
  ⟨fun p hp => by cases p <;> first | rfl | exact absurd (List.mem_singleton_self _) hp, id, id⟩

theorem setMuster_via (s : State) (v) : Via [.muster] s (s.setMuster v) :=
  ⟨fun p hp => by cases p <;> first | rfl | exact absurd (List.mem_singleton_self _) hp, id, id⟩

theorem setDrover_via (s : State) (v) : Via [.drover] s (s.setDrover v) :=
  ⟨fun p hp => by cases p <;> first | rfl | exact absurd (List.mem_singleton_self _) hp, id, id⟩

theorem setWeights_via (s : State) (v) : Via [.weights] s (s.setWeights v) :=
  ⟨fun p hp => by cases p <;> first | rfl | exact absurd (List.mem_singleton_self _) hp, id, id⟩

theorem setNet_via (s : State) (v) : Via [.net] s (s.setNet v) :=
  ⟨fun p hp => by cases p <;> first | rfl | exact absurd (List.mem_singleton_self _) hp, id, id⟩

theorem setRung_via (s : State) (v) : Via [.rung] s (s.setRung v) :=
  ⟨fun p hp => by cases p <;> first | rfl | exact absurd (List.mem_singleton_self _) hp, id, id⟩

theorem setOut_via (s : State) (v) : Via [.out] s (s.setOut v) :=
  ⟨fun p hp => by cases p <;> first | rfl | exact absurd (List.mem_singleton_self _) hp, id, id⟩

theorem setMem_via (s : State) (v) (h : canonical emptyByte s.mem = true → canonical emptyByte v = true) :
    Via [.mem] s (s.setMem v) :=
  ⟨fun p hp => by cases p <;> first | rfl | exact absurd (List.mem_singleton_self _) hp, fun x => h x, id⟩

theorem setSeg_via (s : State) (v) (h : canonical emptyByte s.seg = true → canonical emptyByte v = true) :
    Via [.seg] s (s.setSeg v) :=
  ⟨fun p hp => by cases p <;> first | rfl | exact absurd (List.mem_singleton_self _) hp, id, fun x => h x⟩

theorem canonical_moveRange {α : Type} [DecidableEq α] (d : α) (m : SMap α) (src dst n : Nat) (h : canonical d m = true) :
    canonical d (moveRange d m src dst n) = true := by
  unfold moveRange
  exact List.foldlRecOn (motive := fun m => canonical d m = true) _ _ (canonical_filter _ _ _ h) fun m hm e _ => canonical_putD _ _ _ _ hm

end Sys2Proof.Machine
end

