-- ==== Sys2Proof/Laws/Ops.lean ====
section
/-! SUPPORT. What the shared operations over registers, memory and folds do. -/

namespace Sys2Proof.Machine

open Sys2Proof

/-! ## Register fields -/

theorem rd_wr (s : State) (pg : Nat) (f : Field) (i v : Nat) : rd (wr s pg f i v) pg f i = v % 2 ^ f.width := by
  unfold rd wr; simp only [State.setRegs_regs]; exact getD_putD_same ..

theorem rd_wr_ne (s : State) (pg qg : Nat) (f g : Field) (i j v : Nat) (h : fkey pg f i ≠ fkey qg g j) :
    rd (wr s pg f i v) qg g j = rd s qg g j := by
  unfold rd wr; simp only [State.setRegs_regs]
  by_cases hv : f.reset = g.reset
  · rw [hv]; exact getD_putD_other _ _ _ _ _ (Ne.symm h)
  · unfold putD
    split
    · exact getD_dropKey_other _ _ _ _ (Ne.symm h)
    · exact getD_insKey_other _ _ _ _ _ (Ne.symm h)

@[simp] theorem rd_wr0 (s : State) (pg : Nat) (f : Field) (v : Nat) : rd (wr0 s pg f v) pg f = v % 2 ^ f.width := rd_wr ..

/-! ## Frames of register fields -/

theorem OnlyFields.refl (ks : List (Nat × Field × Nat)) (s : State) : OnlyFields ks s s := fun _ _ _ _ => rfl

theorem OnlyFields.trans {ks : List (Nat × Field × Nat)} {s t u : State} (h : OnlyFields ks s t) (k : OnlyFields ks t u) : OnlyFields ks s u :=
  fun pg f i hh => (k pg f i hh).trans (h pg f i hh)

/-- A write changes one field. -/
theorem OnlyFields.wr {ks : List (Nat × Field × Nat)} {s t : State} (pg : Nat) (f : Field) (i v : Nat) (h : OnlyFields ks s t)
    (k : (pg, f, i) ∈ ks) : OnlyFields ks s (wr t pg f i v) := fun qg g j hh => by
  rw [rd_wr_ne _ _ _ _ _ _ _ _ (by simpa using List.all_eq_true.mp hh _ k)]
  exact h qg g j hh

/-- A counter and the saturation flag of its page. -/
theorem OnlyFields.bumpI {ks : List (Nat × Field × Nat)} {s t : State} (pg : Nat) (f : Field) (i n : Nat) (h : OnlyFields ks s t)
    (k : (pg, f, i) ∈ ks) (k' : (pg, F.STATUS_SAT, 0) ∈ ks) : OnlyFields ks s (bumpI t pg f i n) := by
  unfold Machine.bumpI
  dsimp only
  split
  · exact h.wr pg f i _ k
  · exact (h.wr pg f i _ k).wr pg F.STATUS_SAT 0 _ k'

/-- What changes no register keeps every field. -/
theorem Only.fields {ps : List StatePart} {s t : State} (h : Only ps s t) (k : ps.contains .regs = false) (ks : List (Nat × Field × Nat)) :
    OnlyFields ks s t := fun pg f i _ => by
  have e : t.regs = s.regs := h .regs (by simpa using k)
  unfold rd; rw [e]

/-- A counter below its bound counts. -/
theorem rd_bumpI (s : State) (pg : Nat) (f : Field) (i n : Nat) (hw : f.width = 32) (h : rd s pg f i + n < 2 ^ 32 - 1) :
    rd (bumpI s pg f i n) pg f i = rd s pg f i + n := by
  unfold bumpI
  simp only [h, ite_true, rd_wr, hw]
  omega

/-! ## Memory -/

theorem readByte_writeByte (s : State) (a b : Nat) (v : Byte) (h : isMem s a = true) :
    readByte (writeByte s a v) b = if b = a then v else readByte s b := by
  unfold writeByte
  simp only [h, ite_true]
  unfold readByte
  have e : isMem (s.setMem (putD emptyByte s.mem a v)) b = isMem s b := rfl
  rw [e, State.setMem_mem, getD_putD]
  by_cases hb : b = a
  · subst hb; simp [h]
  · simp [hb]

theorem readByte_writeByte_absent (s : State) (a b : Nat) (v : Byte) (h : isMem s a = false) : readByte (writeByte s a v) b = readByte s b := by
  unfold writeByte; simp [h]

/-- A byte read depends on the memory and the populated ports alone. -/
theorem readByte_of_same {s t : State} (h : t.mem = s.mem) (k : t.hbmShort = s.hbmShort) (a : Nat) : readByte t a = readByte s a := by
  unfold readByte isMem; rw [h, k]

theorem Only.bytes {ps : List StatePart} {s t : State} (h : Only ps s t) (k : ps.contains .mem = false) (k' : ps.contains .hbmShort = false)
    (here : Nat → Prop) : OnlyBytes here s t := fun a _ =>
  readByte_of_same (h .mem (by simpa using k)) (h .hbmShort (by simpa using k')) a

/-- Every operation keeps the canonical form of the memories. -/
theorem Via.wf {ps : List StatePart} {s t : State} (h : Via ps s t) (k : Memory.wf s = true) : Memory.wf t = true := by
  unfold Memory.wf at *
  rw [Bool.and_eq_true] at *
  exact ⟨h.mem k.1, h.seg k.2⟩

/-! ## Folds -/

theorem getFold_putFold (s : State) (f g : Nat) (x : Fold) : getFold (putFold s f x) g = if g = f then x else getFold s g := by
  unfold getFold putFold; rw [State.setFolds_folds, getD_putD]

theorem getFold_modFold (s : State) (f g : Nat) (k : Fold → Fold) : getFold (modFold s f k) g = if g = f then k (getFold s f) else getFold s g := by
  unfold modFold; exact getFold_putFold ..

theorem getFlock_putFlock (s : State) (f g : Nat) (x : Flock) : getFlock (putFlock s f x) g = if g = f then x else getFlock s g := by
  unfold getFlock putFlock; rw [State.setFlocks_flocks, getD_putD]

theorem OnlyFolds.modFold {fs : List Nat} {s t : State} (f : Nat) (g : Fold → Fold) (h : OnlyFolds fs s t) (k : f ∈ fs) :
    OnlyFolds fs s (modFold t f g) := fun q hq => by
  rw [getFold_modFold, if_neg (fun (e : q = f) => hq (by rw [e]; exact k))]
  exact h q hq

theorem Only.folds {ps : List StatePart} {s t : State} (h : Only ps s t) (k : ps.contains .folds = false) (fs : List Nat) : OnlyFolds fs s t :=
  fun f _ => by
    have e : t.folds = s.folds := h .folds (by simpa using k)
    unfold getFold; rw [e]

/-! ## A register field is read from the registers alone -/

@[simp] theorem rd_setPending (s : State) (v) (pg : Nat) (f : Field) (i : Nat) : rd (s.setPending v) pg f i = rd s pg f i := rfl
@[simp] theorem rd_setFree (s : State) (v) (pg : Nat) (f : Field) (i : Nat) : rd (s.setFree v) pg f i = rd s pg f i := rfl
@[simp] theorem rd_setViews (s : State) (v) (pg : Nat) (f : Field) (i : Nat) : rd (s.setViews v) pg f i = rd s pg f i := rfl
@[simp] theorem rd_setPtp (s : State) (v) (pg : Nat) (f : Field) (i : Nat) : rd (s.setPtp v) pg f i = rd s pg f i := rfl
@[simp] theorem rd_setHbmShort (s : State) (v) (pg : Nat) (f : Field) (i : Nat) : rd (s.setHbmShort v) pg f i = rd s pg f i := rfl
@[simp] theorem rd_setLog (s : State) (v) (pg : Nat) (f : Field) (i : Nat) : rd (s.setLog v) pg f i = rd s pg f i := rfl
@[simp] theorem rd_setMem (s : State) (v) (pg : Nat) (f : Field) (i : Nat) : rd (s.setMem v) pg f i = rd s pg f i := rfl
@[simp] theorem rd_setFresh (s : State) (v) (pg : Nat) (f : Field) (i : Nat) : rd (s.setFresh v) pg f i = rd s pg f i := rfl
@[simp] theorem rd_setSeg (s : State) (v) (pg : Nat) (f : Field) (i : Nat) : rd (s.setSeg v) pg f i = rd s pg f i := rfl
@[simp] theorem rd_setFolds (s : State) (v) (pg : Nat) (f : Field) (i : Nat) : rd (s.setFolds v) pg f i = rd s pg f i := rfl
@[simp] theorem rd_setDroves (s : State) (v) (pg : Nat) (f : Field) (i : Nat) : rd (s.setDroves v) pg f i = rd s pg f i := rfl
@[simp] theorem rd_setFlocks (s : State) (v) (pg : Nat) (f : Field) (i : Nat) : rd (s.setFlocks v) pg f i = rd s pg f i := rfl
@[simp] theorem rd_setTally (s : State) (v) (pg : Nat) (f : Field) (i : Nat) : rd (s.setTally v) pg f i = rd s pg f i := rfl
@[simp] theorem rd_setPause (s : State) (v) (pg : Nat) (f : Field) (i : Nat) : rd (s.setPause v) pg f i = rd s pg f i := rfl
@[simp] theorem rd_setCare (s : State) (v) (pg : Nat) (f : Field) (i : Nat) : rd (s.setCare v) pg f i = rd s pg f i := rfl
@[simp] theorem rd_setPower (s : State) (v) (pg : Nat) (f : Field) (i : Nat) : rd (s.setPower v) pg f i = rd s pg f i := rfl
@[simp] theorem rd_setHks (s : State) (v) (pg : Nat) (f : Field) (i : Nat) : rd (s.setHks v) pg f i = rd s pg f i := rfl
@[simp] theorem rd_setBoot (s : State) (v) (pg : Nat) (f : Field) (i : Nat) : rd (s.setBoot v) pg f i = rd s pg f i := rfl
@[simp] theorem rd_setLinks (s : State) (v) (pg : Nat) (f : Field) (i : Nat) : rd (s.setLinks v) pg f i = rd s pg f i := rfl
@[simp] theorem rd_setMsgs (s : State) (v) (pg : Nat) (f : Field) (i : Nat) : rd (s.setMsgs v) pg f i = rd s pg f i := rfl
@[simp] theorem rd_setMuster (s : State) (v) (pg : Nat) (f : Field) (i : Nat) : rd (s.setMuster v) pg f i = rd s pg f i := rfl
@[simp] theorem rd_setDrover (s : State) (v) (pg : Nat) (f : Field) (i : Nat) : rd (s.setDrover v) pg f i = rd s pg f i := rfl
@[simp] theorem rd_setWeights (s : State) (v) (pg : Nat) (f : Field) (i : Nat) : rd (s.setWeights v) pg f i = rd s pg f i := rfl
@[simp] theorem rd_setNet (s : State) (v) (pg : Nat) (f : Field) (i : Nat) : rd (s.setNet v) pg f i = rd s pg f i := rfl
@[simp] theorem rd_setRung (s : State) (v) (pg : Nat) (f : Field) (i : Nat) : rd (s.setRung v) pg f i = rd s pg f i := rfl
@[simp] theorem rd_setOut (s : State) (v) (pg : Nat) (f : Field) (i : Nat) : rd (s.setOut v) pg f i = rd s pg f i := rfl

/-! ## What a register write leaves -/

@[simp] theorem wr_pending (s : State) (pg : Nat) (f : Field) (i v : Nat) : (wr s pg f i v).pending = s.pending := rfl
@[simp] theorem wr0_pending (s : State) (pg : Nat) (f : Field) (v : Nat) : (wr0 s pg f v).pending = s.pending := rfl
@[simp] theorem wr_free (s : State) (pg : Nat) (f : Field) (i v : Nat) : (wr s pg f i v).free = s.free := rfl
@[simp] theorem wr0_free (s : State) (pg : Nat) (f : Field) (v : Nat) : (wr0 s pg f v).free = s.free := rfl
@[simp] theorem wr_views (s : State) (pg : Nat) (f : Field) (i v : Nat) : (wr s pg f i v).views = s.views := rfl
@[simp] theorem wr0_views (s : State) (pg : Nat) (f : Field) (v : Nat) : (wr0 s pg f v).views = s.views := rfl
@[simp] theorem wr_ptp (s : State) (pg : Nat) (f : Field) (i v : Nat) : (wr s pg f i v).ptp = s.ptp := rfl
@[simp] theorem wr0_ptp (s : State) (pg : Nat) (f : Field) (v : Nat) : (wr0 s pg f v).ptp = s.ptp := rfl
@[simp] theorem wr_hbmShort (s : State) (pg : Nat) (f : Field) (i v : Nat) : (wr s pg f i v).hbmShort = s.hbmShort := rfl
@[simp] theorem wr0_hbmShort (s : State) (pg : Nat) (f : Field) (v : Nat) : (wr0 s pg f v).hbmShort = s.hbmShort := rfl
@[simp] theorem wr_log (s : State) (pg : Nat) (f : Field) (i v : Nat) : (wr s pg f i v).log = s.log := rfl
@[simp] theorem wr0_log (s : State) (pg : Nat) (f : Field) (v : Nat) : (wr0 s pg f v).log = s.log := rfl
@[simp] theorem wr_mem (s : State) (pg : Nat) (f : Field) (i v : Nat) : (wr s pg f i v).mem = s.mem := rfl
@[simp] theorem wr0_mem (s : State) (pg : Nat) (f : Field) (v : Nat) : (wr0 s pg f v).mem = s.mem := rfl
@[simp] theorem wr_fresh (s : State) (pg : Nat) (f : Field) (i v : Nat) : (wr s pg f i v).fresh = s.fresh := rfl
@[simp] theorem wr0_fresh (s : State) (pg : Nat) (f : Field) (v : Nat) : (wr0 s pg f v).fresh = s.fresh := rfl
@[simp] theorem wr_seg (s : State) (pg : Nat) (f : Field) (i v : Nat) : (wr s pg f i v).seg = s.seg := rfl
@[simp] theorem wr0_seg (s : State) (pg : Nat) (f : Field) (v : Nat) : (wr0 s pg f v).seg = s.seg := rfl
@[simp] theorem wr_folds (s : State) (pg : Nat) (f : Field) (i v : Nat) : (wr s pg f i v).folds = s.folds := rfl
@[simp] theorem wr0_folds (s : State) (pg : Nat) (f : Field) (v : Nat) : (wr0 s pg f v).folds = s.folds := rfl
@[simp] theorem wr_droves (s : State) (pg : Nat) (f : Field) (i v : Nat) : (wr s pg f i v).droves = s.droves := rfl
@[simp] theorem wr0_droves (s : State) (pg : Nat) (f : Field) (v : Nat) : (wr0 s pg f v).droves = s.droves := rfl
@[simp] theorem wr_flocks (s : State) (pg : Nat) (f : Field) (i v : Nat) : (wr s pg f i v).flocks = s.flocks := rfl
@[simp] theorem wr0_flocks (s : State) (pg : Nat) (f : Field) (v : Nat) : (wr0 s pg f v).flocks = s.flocks := rfl
@[simp] theorem wr_tally (s : State) (pg : Nat) (f : Field) (i v : Nat) : (wr s pg f i v).tally = s.tally := rfl
@[simp] theorem wr0_tally (s : State) (pg : Nat) (f : Field) (v : Nat) : (wr0 s pg f v).tally = s.tally := rfl
@[simp] theorem wr_pause (s : State) (pg : Nat) (f : Field) (i v : Nat) : (wr s pg f i v).pause = s.pause := rfl
@[simp] theorem wr0_pause (s : State) (pg : Nat) (f : Field) (v : Nat) : (wr0 s pg f v).pause = s.pause := rfl
@[simp] theorem wr_care (s : State) (pg : Nat) (f : Field) (i v : Nat) : (wr s pg f i v).care = s.care := rfl
@[simp] theorem wr0_care (s : State) (pg : Nat) (f : Field) (v : Nat) : (wr0 s pg f v).care = s.care := rfl
@[simp] theorem wr_power (s : State) (pg : Nat) (f : Field) (i v : Nat) : (wr s pg f i v).power = s.power := rfl
@[simp] theorem wr0_power (s : State) (pg : Nat) (f : Field) (v : Nat) : (wr0 s pg f v).power = s.power := rfl
@[simp] theorem wr_hks (s : State) (pg : Nat) (f : Field) (i v : Nat) : (wr s pg f i v).hks = s.hks := rfl
@[simp] theorem wr0_hks (s : State) (pg : Nat) (f : Field) (v : Nat) : (wr0 s pg f v).hks = s.hks := rfl
@[simp] theorem wr_boot (s : State) (pg : Nat) (f : Field) (i v : Nat) : (wr s pg f i v).boot = s.boot := rfl
@[simp] theorem wr0_boot (s : State) (pg : Nat) (f : Field) (v : Nat) : (wr0 s pg f v).boot = s.boot := rfl
@[simp] theorem wr_links (s : State) (pg : Nat) (f : Field) (i v : Nat) : (wr s pg f i v).links = s.links := rfl
@[simp] theorem wr0_links (s : State) (pg : Nat) (f : Field) (v : Nat) : (wr0 s pg f v).links = s.links := rfl
@[simp] theorem wr_msgs (s : State) (pg : Nat) (f : Field) (i v : Nat) : (wr s pg f i v).msgs = s.msgs := rfl
@[simp] theorem wr0_msgs (s : State) (pg : Nat) (f : Field) (v : Nat) : (wr0 s pg f v).msgs = s.msgs := rfl
@[simp] theorem wr_muster (s : State) (pg : Nat) (f : Field) (i v : Nat) : (wr s pg f i v).muster = s.muster := rfl
@[simp] theorem wr0_muster (s : State) (pg : Nat) (f : Field) (v : Nat) : (wr0 s pg f v).muster = s.muster := rfl
@[simp] theorem wr_drover (s : State) (pg : Nat) (f : Field) (i v : Nat) : (wr s pg f i v).drover = s.drover := rfl
@[simp] theorem wr0_drover (s : State) (pg : Nat) (f : Field) (v : Nat) : (wr0 s pg f v).drover = s.drover := rfl
@[simp] theorem wr_weights (s : State) (pg : Nat) (f : Field) (i v : Nat) : (wr s pg f i v).weights = s.weights := rfl
@[simp] theorem wr0_weights (s : State) (pg : Nat) (f : Field) (v : Nat) : (wr0 s pg f v).weights = s.weights := rfl
@[simp] theorem wr_net (s : State) (pg : Nat) (f : Field) (i v : Nat) : (wr s pg f i v).net = s.net := rfl
@[simp] theorem wr0_net (s : State) (pg : Nat) (f : Field) (v : Nat) : (wr0 s pg f v).net = s.net := rfl
@[simp] theorem wr_rung (s : State) (pg : Nat) (f : Field) (i v : Nat) : (wr s pg f i v).rung = s.rung := rfl
@[simp] theorem wr0_rung (s : State) (pg : Nat) (f : Field) (v : Nat) : (wr0 s pg f v).rung = s.rung := rfl
@[simp] theorem wr_out (s : State) (pg : Nat) (f : Field) (i v : Nat) : (wr s pg f i v).out = s.out := rfl
@[simp] theorem wr0_out (s : State) (pg : Nat) (f : Field) (v : Nat) : (wr0 s pg f v).out = s.out := rfl

end Sys2Proof.Machine
end

