-- ==== Sys2Proof/Laws/ViaOps.lean ====
section
/-! SUPPORT. What each operation of Machine/Ops.lean can touch: the pieces it names, and the memories keep their canonical form. -/

namespace Sys2Proof.Machine

open Sys2Proof

theorem wr_via (s : State) (pg : Nat) (f : Field) (i : Nat) (v : Nat) : Via [.regs] s (wr s pg f i v) := by
  unfold wr
  exact Via.step (setRegs_via ..) rfl (Via.refl _ _)

theorem wr0_via (s : State) (pg : Nat) (f : Field) (v : Nat) : Via [.regs] s (wr0 s pg f v) := by
  unfold wr0
  exact Via.step (wr_via ..) rfl (Via.refl _ _)

theorem wrBit_via (s : State) (pg : Nat) (f : Field) (i : Nat) (b : Nat) (v : Bool) : Via [.regs] s (wrBit s pg f i b v) := by
  unfold wrBit
  exact Via.step (wr_via ..) rfl (Via.refl _ _)

theorem wrPair_via (s : State) (pg : Nat) (lo : Field) (hi : Field) (v : Nat) : Via [.regs] s (wrPair s pg lo hi v) := by
  unfold wrPair
  exact Via.step (wr0_via ..) rfl (Via.step (wr0_via ..) rfl (Via.refl _ _))

theorem bumpI_via (s : State) (pg : Nat) (f : Field) (i : Nat) (n : Nat) : Via [.regs] s (bumpI s pg f i n) := by
  unfold bumpI
  extract_lets +onlyGivenNames -merge -underBinder y1
  try clear_value y1
  exact Via.ite (Via.step (wr_via ..) rfl (Via.refl _ _)) (Via.step (wr0_via ..) rfl (Via.step (wr_via ..) rfl (Via.refl _ _)))

theorem bump_via (s : State) (pg : Nat) (f : Field) (n : Nat) : Via [.regs] s (bump s pg f n) := by
  unfold bump
  exact Via.step (bumpI_via ..) rfl (Via.refl _ _)

theorem errEvent_via (s : State) (pg : Nat) (b : Nat) : Via [.regs] s (errEvent s pg b) := by
  unfold errEvent
  extract_lets +onlyGivenNames -merge -underBinder y1
  try clear_value y1
  extract_lets +onlyGivenNames -merge -underBinder x2
  refine Via.cut (t := x2) (Via.step (wrBit_via ..) rfl (Via.refl _ _)) fun h3 => ?_
  clear_value x2
  extract_lets +onlyGivenNames -merge -underBinder x4
  refine Via.cut (t := x4) (Via.ite (Via.step (wr0_via ..) rfl (Via.step (wr0_via ..) rfl h3)) h3) fun h5 => ?_
  clear_value x4
  split
  · exact Via.step (bump_via ..) rfl h5
  · exact h5

theorem logWrite_via (s : State) (pg ev pen : Nat) (fs : List LogField) : Via [.regs, .views, .log] s (logWrite s pg ev pen fs) := by
  unfold logWrite
  generalize 32768 = z
  exact Via.step (bump_via ..) rfl (Via.step (wr0_via ..) rfl (Via.ite (Via.step (setViews_via ..) rfl (Via.step (setLog_via ..) rfl
    (Via.ite (Via.step (bump_via ..) rfl (Via.refl _ _)) (Via.refl _ _))))
    (Via.step (setLog_via ..) rfl (Via.ite (Via.step (bump_via ..) rfl (Via.refl _ _)) (Via.refl _ _)))))

theorem orderLog_via {ps : List StatePart} {r t : State} (s : State) (hb : ([.log].all fun p => ps.contains p) = true) (h : Via ps r t) :
    Via ps r (orderLog s t) := by
  unfold orderLog
  extract_lets i n
  split
  · exact h
  · exact Via.step (setLog_via ..) hb h

theorem accessError_via (s : State) (pg : Nat) (off : Nat) (src : Source) (row : Nat) (v : Nat) : Via [.regs, .views, .log] s (accessError s pg off src row v) := by
  unfold accessError
  extract_lets +onlyGivenNames -merge -underBinder x1
  refine Via.cut (t := x1) (Via.step (errEvent_via ..) rfl (Via.refl _ _)) fun h2 => ?_
  clear_value x1
  exact Via.ite (Via.step (logWrite_via ..) rfl h2) h2

theorem drawNat_via (s : State) : Via [.free] s (drawNat s).2 := by
  unfold drawNat
  try dsimp -zeta only
  exact Via.step (setFree_via ..) rfl (Via.refl _ _)

theorem passTime_via (s : State) : Via [.free, .ptp] s (passTime s) := by
  unfold passTime
  split
  · rename_i v1 v2 e3
    refine Via.cut (Via.pair e3 (Via.step (drawNat_via ..) rfl (Via.refl _ _))) fun h4 => ?_
    exact Via.step (setPtp_via ..) rfl h4

theorem freeBytes_via (s : State) (n : Nat) : Via [.free] s (freeBytes s n).2 := by
  unfold freeBytes
  try dsimp -zeta only
  exact Via.step (setFree_via ..) rfl (Via.refl _ _)

theorem writeByte_via (s : State) (a : Nat) (v : Byte) : Via [.mem] s (writeByte s a v) := by
  unfold writeByte
  exact Via.ite (setMem_via _ _ fun h => canonical_putD _ _ _ _ h) (Via.refl _ _)

theorem iodByte_via (s : State) (a : Nat) (v : Byte) : Via [.mem, .fresh] s (iodByte s a v) := by
  unfold iodByte
  refine Via.ite (?_) (Via.refl _ _)
  · extract_lets +onlyGivenNames -merge -underBinder x1
    refine Via.cut (t := x1) (Via.ite (Via.step (setFresh_via ..) rfl (Via.refl _ _)) (Via.refl _ _)) fun h2 => ?_
    clear_value x1
    exact Via.step (writeByte_via ..) rfl h2

theorem iodBytes_via (s : State) (a : Nat) (bs : List Byte) : Via [.mem, .fresh] s (iodBytes s a bs) := by
  induction bs generalizing s a with
  | nil => exact Via.refl _ _
  | cons b bs ih => exact (iodByte_via s a b).trans (ih _ _)

theorem droveBytes_via (s : State) (a : Nat) (bs : List Byte) : Via [.mem, .fresh] s (droveBytes s a bs) := by
  induction bs generalizing s a with
  | nil => exact Via.refl _ _
  | cons b bs ih => exact Via.trans (Via.step (setFresh_via ..) rfl (Via.step (writeByte_via s a b) rfl (Via.refl _ _))) (ih _ _)

theorem writeBytes_via (s : State) (a : Nat) (bs : List Byte) : Via [.mem] s (writeBytes s a bs) := by
  induction bs generalizing s a with
  | nil => exact Via.refl _ _
  | cons b bs ih => exact (writeByte_via s a b).trans (ih _ _)

theorem putFold_via (s : State) (f : Nat) (x : Fold) : Via [.folds] s (putFold s f x) := by
  unfold putFold
  exact Via.step (setFolds_via ..) rfl (Via.refl _ _)

theorem modFold_via (s : State) (f : Nat) (g : Fold → Fold) : Via [.folds] s (modFold s f g) := by
  unfold modFold
  exact Via.step (putFold_via ..) rfl (Via.refl _ _)

theorem modArr_via (s : State) (f : Nat) (a : Nat) (g : Arr → Arr) : Via [.folds] s (modArr s f a g) := by
  unfold modArr
  exact Via.step (modFold_via ..) rfl (Via.refl _ _)

theorem modTile_via (s : State) (f : Nat) (t : Nat) (g : Tile → Tile) : Via [.folds] s (modTile s f t g) := by
  unfold modTile
  exact Via.step (modFold_via ..) rfl (Via.refl _ _)

theorem putDrove_via (s : State) (e : Nat) (d : Drove) : Via [.regs, .droves] s (putDrove s e d) := by
  unfold putDrove
  extract_lets +onlyGivenNames -merge -underBinder x1
  refine Via.cut (t := x1) (Via.step (setDroves_via ..) rfl (Via.refl _ _)) fun h2 => ?_
  clear_value x1
  extract_lets +onlyGivenNames -merge -underBinder x3
  refine Via.cut (t := x3) (Via.step (wr_via ..) rfl h2) fun h4 => ?_
  clear_value x3
  extract_lets +onlyGivenNames -merge -underBinder x5
  refine Via.cut (t := x5) (Via.step (wr_via ..) rfl h4) fun h6 => ?_
  clear_value x5
  extract_lets +onlyGivenNames -merge -underBinder x7
  refine Via.cut (t := x7) (Via.step (wr_via ..) rfl h6) fun h8 => ?_
  clear_value x7
  extract_lets +onlyGivenNames -merge -underBinder x9
  refine Via.cut (t := x9) (Via.step (wr_via ..) rfl h8) fun h10 => ?_
  clear_value x9
  extract_lets +onlyGivenNames -merge -underBinder x11
  refine Via.cut (t := x11) (Via.step (wr_via ..) rfl h10) fun h12 => ?_
  clear_value x11
  extract_lets +onlyGivenNames -merge -underBinder x13
  refine Via.cut (t := x13) (Via.step (wr_via ..) rfl h12) fun h14 => ?_
  clear_value x13
  exact Via.step (wr_via ..) rfl h14

theorem putFlock_via (s : State) (f : Nat) (x : Flock) : Via [.flocks] s (putFlock s f x) := by
  unfold putFlock
  exact Via.step (setFlocks_via ..) rfl (Via.refl _ _)

theorem modFlock_via (s : State) (f : Nat) (g : Flock → Flock) : Via [.flocks] s (modFlock s f g) := by
  unfold modFlock
  exact Via.step (putFlock_via ..) rfl (Via.refl _ _)

theorem askPause_via (s : State) (k : Nat) (n : Nat) : Via [.pause] s (askPause s k n) := by
  unfold askPause
  exact Via.ite (Via.refl _ _) (Via.step (setPause_via ..) rfl (Via.refl _ _))

theorem stepFault_via (s : State) (k : Nat) (cause : Nat) : Via [.regs, .flocks] s (stepFault s k cause) := by
  unfold stepFault
  extract_lets +onlyGivenNames -merge -underBinder y1
  try clear_value y1
  refine Via.ite (?_) (Via.refl _ _)
  · extract_lets +onlyGivenNames -merge -underBinder x2
    refine Via.cut (t := x2) (Via.step (putFlock_via ..) rfl (Via.refl _ _)) fun h3 => ?_
    clear_value x2
    extract_lets +onlyGivenNames -merge -underBinder x4
    refine Via.cut (t := x4) (Via.step (bump_via ..) rfl h3) fun h5 => ?_
    clear_value x4
    extract_lets +onlyGivenNames -merge -underBinder x6
    refine Via.cut (t := x6) (Via.step (wr0_via ..) rfl h5) fun h7 => ?_
    clear_value x6
    extract_lets +onlyGivenNames -merge -underBinder x8
    refine Via.cut (t := x8) (Via.step (wr0_via ..) rfl h7) fun h9 => ?_
    clear_value x8
    extract_lets +onlyGivenNames -merge -underBinder x10
    refine Via.cut (t := x10) (Via.step (wr0_via ..) rfl h9) fun h11 => ?_
    clear_value x10
    exact Via.step (wr0_via ..) rfl h11

theorem foldStepFault_via (s : State) (f : Nat) (cause : Nat) : Via [.regs, .flocks] s (foldStepFault s f cause) := by
  unfold foldStepFault
  split
  · exact Via.step (stepFault_via ..) rfl (Via.refl _ _)
  · exact Via.refl _ _

theorem markSuspect_via (s : State) (f : Nat) : Via [.regs, .flocks] s (markSuspect s f) := by
  unfold markSuspect
  exact Via.step (foldStepFault_via ..) rfl (Via.refl _ _)

end Sys2Proof.Machine
end

