-- ==== Sys2Proof/Laws/ViaSpares.lean ====
section
/-! SUPPORT. What each operation of Machine/Spares.lean can touch: the pieces it names, and the memories keep their canonical form. -/

namespace Sys2Proof.Machine

open Sys2Proof

theorem showSpares_via (s : State) : Via [.regs] s (showSpares s) := by
  unfold showSpares
  extract_lets +onlyGivenNames -merge -underBinder y1
  try clear_value y1
  extract_lets +onlyGivenNames -merge -underBinder y2
  try clear_value y2
  extract_lets +onlyGivenNames -merge -underBinder x3
  refine Via.cut (t := x3) (Via.step (wr0_via ..) rfl (Via.step (wr0_via ..) rfl (Via.refl _ _))) fun h4 => ?_
  clear_value x3
  extract_lets +onlyGivenNames -merge -underBinder x5
  refine Via.cut (t := x5) (Via.step (wr0_via ..) rfl (Via.step (wr0_via ..) rfl h4)) fun h6 => ?_
  clear_value x5
  extract_lets +onlyGivenNames -merge -underBinder x7
  refine Via.cut (t := x7) (Via.step (wr0_via ..) rfl (Via.step (wr0_via ..) rfl h6)) fun h8 => ?_
  clear_value x7
  exact Via.step (wr0_via ..) rfl (Via.step (wr0_via ..) rfl h8)

theorem setRole_via (s : State) (f : Nat) (role : Nat) (slot : Option Nat) : Via [.regs] s (setRole s f role slot) := by
  unfold setRole
  extract_lets +onlyGivenNames -merge -underBinder x1
  refine Via.cut (t := x1) (Via.step (wr0_via ..) rfl (Via.refl _ _)) fun h2 => ?_
  clear_value x1
  extract_lets +onlyGivenNames -merge -underBinder x3
  refine Via.cut (t := x3) (Via.step (wr0_via ..) rfl h2) fun h4 => ?_
  clear_value x3
  extract_lets +onlyGivenNames -merge -underBinder x5
  refine Via.cut (t := x5) (Via.step (wr0_via ..) rfl h4) fun h6 => ?_
  clear_value x5
  exact Via.step (showSpares_via ..) rfl h6

theorem quarantine_via (s : State) (f : Nat) : Via [.regs] s (quarantine s f) := by
  unfold quarantine
  exact Via.ite (Via.step (setRole_via ..) rfl (Via.refl _ _)) (Via.step (setRole_via ..) rfl (Via.step (wr0_via ..) rfl (Via.refl _ _)))

theorem setRot_via (s : State) (die : Nat) (st : Nat) (f : Nat) : Via [.regs] s (setRot s die st f) := by
  unfold setRot
  exact Via.ite (Via.step (wr0_via ..) rfl (Via.step (wr0_via ..) rfl (Via.refl _ _))) (Via.step (wr0_via ..) rfl (Via.step (wr0_via ..) rfl (Via.refl _ _)))

theorem failSlot_via (s : State) (k : Nat) : Via [.regs, .flocks] s (failSlot s k) := by
  unfold failSlot
  extract_lets +onlyGivenNames -merge -underBinder x1
  refine Via.cut (t := x1) (Via.ite (Via.step (wrBit_via ..) rfl (Via.refl _ _)) (Via.step (wrBit_via ..) rfl (Via.refl _ _))) fun h2 => ?_
  clear_value x1
  refine Via.forEach (?_) h2
  · intro s3 a4
    extract_lets +onlyGivenNames -merge -underBinder y5
    try clear_value y5
    exact Via.ite (Via.step (putFlock_via ..) rfl (Via.refl _ _)) (Via.refl _ _)

theorem startFill_via (s : State) (sp : Nat) (f : Nat) (k : Nat) (why : Nat) : Via [.regs, .care] s (startFill s sp f k why) := by
  unfold startFill
  extract_lets +onlyGivenNames -merge -underBinder y1
  try clear_value y1
  extract_lets +onlyGivenNames -merge -underBinder x2
  refine Via.cut (t := x2) (Via.step (setCare_via ..) rfl (Via.refl _ _)) fun h3 => ?_
  clear_value x2
  exact Via.step (setRole_via ..) rfl h3

theorem dropFill_via (s : State) (sp : Nat) : Via [.care] s (dropFill s sp) := by
  unfold dropFill
  exact Via.step (setCare_via ..) rfl (Via.refl _ _)

theorem abandonFill_via (s : State) (x : Fill) : Via [.regs, .care] s (abandonFill s x) := by
  unfold abandonFill
  exact Via.step (setRot_via ..) rfl (Via.step (dropFill_via ..) rfl (Via.step (bump_via ..) rfl (Via.refl _ _)))

theorem noSpare_via (s : State) (f : Nat) (k : Nat) : Via [.regs, .folds, .flocks] s (noSpare s f k) := by
  unfold noSpare
  exact Via.ite (Via.step (failSlot_via ..) rfl (Via.step (quarantine_via ..) rfl (Via.refl _ _))) (Via.step (modFold_via ..) rfl (Via.step (bump_via ..) rfl (Via.refl _ _)))

theorem nextSpare_via (s : State) (die : Nat) : Via [.regs, .care] s (nextSpare s die).2 := by
  unfold nextSpare
  split
  · try dsimp -zeta only
    exact Via.refl _ _
  · split
    · try dsimp -zeta only
      exact Via.step (abandonFill_via ..) rfl (Via.refl _ _)
    · try dsimp -zeta only
      exact Via.refl _ _

theorem orderSpares_via (s : State) (f : Nat) : Via [.regs, .care] s (orderSpares s f) := by
  unfold orderSpares
  extract_lets +onlyGivenNames -merge -underBinder y1
  try clear_value y1
  extract_lets +onlyGivenNames -merge -underBinder y2
  try clear_value y2
  refine Via.forEach (?_) (Via.refl _ _)
  · intro s3 a4
    split
    · refine Via.ite (Via.refl _ _) (?_)
      · extract_lets +onlyGivenNames -merge -underBinder y5
        try clear_value y5
        extract_lets +onlyGivenNames -merge -underBinder x6
        refine Via.cut (t := x6) (Via.step (setCare_via ..) rfl (Via.refl _ _)) fun h7 => ?_
        clear_value x6
        exact Via.step (setRole_via ..) rfl h7

theorem takeSpare_via (s : State) (f : Nat) (k : Nat) (why : Nat) : Via [.regs, .folds, .flocks, .care] s (takeSpare s f k why) := by
  unfold takeSpare
  refine Via.ite (Via.step (setCare_via ..) rfl (Via.refl _ _)) (?_)
  · split
    · rename_i v1 v2 e3
      refine Via.cut (Via.pair e3 (Via.step (nextSpare_via ..) rfl (Via.refl _ _))) fun h4 => ?_
      extract_lets +onlyGivenNames -merge -underBinder x5
      refine Via.cut (t := x5) (Via.forEach (fun _ _ => Via.step (setRole_via ..) rfl (Via.step (abandonFill_via ..) rfl (Via.refl _ _))) h4) fun h6 => ?_
      clear_value x5
      split
      · exact Via.step (orderSpares_via ..) rfl (Via.step (startFill_via ..) rfl h6)
      · split
        · exact Via.step (orderSpares_via ..) rfl (Via.step (startFill_via ..) rfl (Via.step (noSpare_via ..) rfl (Via.step (dropFill_via ..) rfl h6)))
        · exact Via.step (noSpare_via ..) rfl h6

theorem locate_via (s : State) (f : Nat) : Via [.regs, .folds, .flocks, .care] s (locate s f) := by
  unfold locate
  split
  · exact Via.refl _ _
  · exact Via.ite (Via.refl _ _) (Via.step (takeSpare_via ..) rfl (Via.step (setCare_via ..) rfl (Via.refl _ _)))

theorem raiseSuspect_via (s : State) (f : Nat) : Via [.regs, .flocks] s (raiseSuspect s f) := by
  unfold raiseSuspect
  exact Via.step (markSuspect_via ..) rfl (Via.step (bump_via ..) rfl (Via.refl _ _))

theorem locatedSuspect_via (s : State) (f : Nat) : Via [.regs, .folds, .flocks, .care] s (locatedSuspect s f) := by
  unfold locatedSuspect
  exact Via.step (locate_via ..) rfl (Via.step (raiseSuspect_via ..) rfl (Via.refl _ _))

theorem classifyData_via (s : State) (f : Nat) : Via [.regs, .folds, .flocks, .care] s (classifyData s f) := by
  unfold classifyData
  extract_lets +onlyGivenNames -merge -underBinder y1
  try clear_value y1
  extract_lets +onlyGivenNames -merge -underBinder y2
  try clear_value y2
  extract_lets +onlyGivenNames -merge -underBinder x3
  refine Via.cut (t := x3) (Via.ite (Via.step (locate_via ..) rfl (Via.refl _ _)) (Via.refl _ _)) fun h4 => ?_
  clear_value x3
  exact Via.step (modFold_via ..) rfl h4

theorem dataSuspect_via (s : State) (f : Nat) : Via [.regs, .folds, .flocks, .care] s (dataSuspect s f) := by
  unfold dataSuspect
  exact Via.step (classifyData_via ..) rfl (Via.step (raiseSuspect_via ..) rfl (Via.refl _ _))

end Sys2Proof.Machine
end

