-- ==== Sys2Proof/Laws/ViaAccess.lean ====
section
/-! SUPPORT. What each operation of Machine/Access.lean can touch: the pieces it names, and the memories keep their canonical form. -/

namespace Sys2Proof.Machine

open Sys2Proof

theorem onPage_via {s : State} {src : Source} {pg : Nat} {g : State → State} {ps : List StatePart} (hb : ([].all fun p => ps.contains p) = true) (hg : ∀ a0, Via ps a0 (g a0)) :
    Via ps s (onPage s src pg g) := by
  unfold onPage
  exact Via.ite (Via.after (hg ..) (Via.refl _ _)) (Via.refl _ _)

end Sys2Proof.Machine
end

