-- ==== Sys2Proof/Laws/ViaWindow.lean ====
section
/-! SUPPORT. What each operation of Machine/Window.lean can touch: the pieces it names, and the memories keep their canonical form. -/

namespace Sys2Proof.Machine

open Sys2Proof

theorem winPut_via (s : State) (p w : Nat) (bs : List Byte) : Via [.mem, .fresh] s (winPut s p w bs) := by
  induction bs generalizing s w with
  | nil => exact Via.refl _ _
  | cons b bs ih =>
    unfold winPut
    split
    · exact (iodByte_via ..).trans (ih _ _)
    · exact ih _ _

theorem cureLines_via (s : State) (test : Nat → Bool) : Via [.care] s (cureLines s test) := by
  unfold cureLines
  exact Via.step (setCare_via ..) rfl (Via.refl _ _)

theorem winWrite_via (s : State) (p : Nat) (w : Nat) (bs : List Byte) : Via [.mem, .fresh, .care] s (winWrite s p w bs) := by
  unfold winWrite
  exact Via.step (cureLines_via ..) rfl (Via.step (winPut_via ..) rfl (Via.refl _ _))

theorem droveStore_via (s : State) (a : Nat) (bs : List Byte) : Via [.mem, .fresh, .care] s (droveStore s a bs) := by
  unfold droveStore
  exact Via.step (cureLines_via ..) rfl (Via.step (droveBytes_via ..) rfl (Via.refl _ _))

theorem coreWrite_via (s : State) (p : Nat) (w : Nat) (bs : List Byte) : Via [.regs, .views, .log, .mem, .fresh, .care] s (coreWrite s p w bs) := by
  unfold coreWrite
  exact Via.ite (Via.step (winWrite_via ..) rfl (Via.refl _ _)) (Via.step (accessError_via ..) rfl (Via.refl _ _))

end Sys2Proof.Machine
end

