-- ==== Sys2Proof/Laws/ViaHbm.lean ====
section
/-! SUPPORT. What each operation of Machine/Hbm.lean can touch: the pieces it names, and the memories keep their canonical form. -/

namespace Sys2Proof.Machine

open Sys2Proof

theorem retireState_via (s : State) (stack : Nat) (st : Nat) (pc : Nat) : Via [.regs] s (retireState s stack st pc) := by
  unfold retireState
  exact Via.step (wr0_via ..) rfl (Via.step (wr0_via ..) rfl (Via.refl _ _))

theorem startRetire_via (s : State) (stack : Nat) (pc : Nat) : Via [.regs, .views, .log] s (startRetire s stack pc) := by
  unfold startRetire
  extract_lets +onlyGivenNames -merge -underBinder y1
  try clear_value y1
  extract_lets +onlyGivenNames -merge -underBinder y2
  try clear_value y2
  exact Via.ite (Via.refl _ _) (Via.ite (Via.step (logWrite_via ..) rfl (Via.step (errEvent_via ..) rfl (Via.step (retireState_via ..) rfl (Via.refl _ _)))) (Via.step (retireState_via ..) rfl (Via.refl _ _)))

theorem switchRetired_via (s : State) (stack pc : Nat) : Via [.regs, .hbmShort, .mem, .fresh, .care] s (switchRetired s stack pc) := by
  unfold switchRetired
  exact Via.step (errEvent_via ..) rfl (Via.step (retireState_via ..) rfl (Via.step (setCare_via ..) rfl (Via.step (wr0_via ..) rfl (Via.step (wrBit_via ..) rfl
    (Via.step (setHbmShort_via ..) rfl (Via.step (setFresh_via ..) rfl (Via.step (setMem_via s _ fun h => canonical_filter _ _ _ h) rfl (Via.refl _ _))))))))

theorem execRetireCopyDone_via (stack : Fin 8) (s : State) : Reach [.regs, .hbmShort, .mem, .fresh, .care] s (execRetireCopyDone stack s) := by
  unfold execRetireCopyDone
  extract_lets +onlyGivenNames -merge -underBinder y1
  try clear_value y1
  exact Reach.ite (Reach.next (Via.ite (Via.step (retireState_via ..) rfl (Via.refl _ _)) (Via.step (switchRetired_via ..) rfl (Via.refl _ _)))) (Reach.next (Via.refl _ _))

theorem pageRetired_via (s : State) (k : Nat) : Via [.regs, .hbmShort, .mem, .fresh, .care] s (pageRetired s k) := by
  unfold pageRetired
  refine Via.forEach (?_) (Via.refl _ _)
  · intro s1 a2
    extract_lets +onlyGivenNames -merge -underBinder y3
    try clear_value y3
    extract_lets +onlyGivenNames -merge -underBinder y4
    try clear_value y4
    refine Via.ite (?_) (Via.refl _ _)
    · extract_lets +onlyGivenNames -merge -underBinder y5
      try clear_value y5
      extract_lets +onlyGivenNames -merge -underBinder y6
      try clear_value y6
      exact Via.ite (Via.step (setCare_via ..) rfl (Via.refl _ _)) (Via.step (switchRetired_via ..) rfl (Via.refl _ _))

theorem countCe_via (s : State) (a : Nat) : Via [.regs, .views, .log, .care] s (countCe s a) := by
  unfold countCe
  extract_lets +onlyGivenNames -merge -underBinder y1
  try clear_value y1
  extract_lets +onlyGivenNames -merge -underBinder y2
  try clear_value y2
  extract_lets +onlyGivenNames -merge -underBinder y3
  try clear_value y3
  extract_lets +onlyGivenNames -merge -underBinder y4
  try clear_value y4
  extract_lets +onlyGivenNames -merge -underBinder x5
  refine Via.cut (t := x5) (Via.step (setCare_via ..) rfl (Via.refl _ _)) fun h6 => ?_
  clear_value x5
  exact Via.ite (Via.step (startRetire_via ..) rfl h6) h6

theorem countUe_via (s : State) (a : Nat) : Via [.regs, .views, .log, .care] s (countUe s a) := by
  unfold countUe
  exact Via.ite (Via.step (startRetire_via ..) rfl (Via.refl _ _)) (Via.step (setCare_via ..) rfl (Via.refl _ _))

end Sys2Proof.Machine
end

