-- ==== Sys2Proof/Laws/ViaSequencer.lean ====
section
/-! SUPPORT. What each operation of Machine/Sequencer.lean can touch: the pieces it names, and the memories keep their canonical form. -/

namespace Sys2Proof.Machine

open Sys2Proof

theorem stopDrove_via (s : State) (f : Nat) (why : Nat) : Via [.regs, .views, .log, .flocks] s (stopDrove s f why) := by
  unfold stopDrove
  extract_lets +onlyGivenNames -merge -underBinder y1
  try clear_value y1
  extract_lets +onlyGivenNames -merge -underBinder x2
  refine Via.cut (t := x2) (Via.step (errEvent_via ..) rfl (Via.refl _ _)) fun h3 => ?_
  clear_value x2
  extract_lets +onlyGivenNames -merge -underBinder x4
  refine Via.cut (t := x4) (Via.step (logWrite_via ..) rfl h3) fun h5 => ?_
  clear_value x4
  split
  · exact Via.step (modFlock_via ..) rfl h5
  · exact h5

theorem contractFault_via (s : State) (f : Nat) (code : Nat) (bundle : Nat) (syl : Nat) (port : Nat) : Via [.regs, .views, .log, .folds, .flocks] s (contractFault s f code bundle syl port) := by
  unfold contractFault
  extract_lets +onlyGivenNames -merge -underBinder y1
  try clear_value y1
  extract_lets +onlyGivenNames -merge -underBinder y2
  try clear_value y2
  extract_lets +onlyGivenNames -merge -underBinder y3
  try clear_value y3
  extract_lets +onlyGivenNames -merge -underBinder y4
  try clear_value y4
  extract_lets +onlyGivenNames -merge -underBinder x5
  refine Via.cut (t := x5) (Via.step (bump_via ..) rfl (Via.refl _ _)) fun h6 => ?_
  clear_value x5
  extract_lets +onlyGivenNames -merge -underBinder x7
  refine Via.cut (t := x7) (Via.step (wr0_via ..) rfl h6) fun h8 => ?_
  clear_value x7
  extract_lets +onlyGivenNames -merge -underBinder x9
  refine Via.cut (t := x9) (Via.step (wr0_via ..) rfl h8) fun h10 => ?_
  clear_value x9
  extract_lets +onlyGivenNames -merge -underBinder x11
  refine Via.cut (t := x11) (Via.step (wr0_via ..) rfl h10) fun h12 => ?_
  clear_value x11
  extract_lets +onlyGivenNames -merge -underBinder x13
  refine Via.cut (t := x13) (Via.step (wr0_via ..) rfl h12) fun h14 => ?_
  clear_value x13
  extract_lets +onlyGivenNames -merge -underBinder x15
  refine Via.cut (t := x15) (Via.step (wr0_via ..) rfl h14) fun h16 => ?_
  clear_value x15
  extract_lets +onlyGivenNames -merge -underBinder x17
  refine Via.cut (t := x17) (Via.ite h6 (Via.step (wr0_via ..) rfl h16)) fun h18 => ?_
  clear_value x17
  extract_lets +onlyGivenNames -merge -underBinder x19
  refine Via.cut (t := x19) (Via.ite (Via.step (bump_via ..) rfl h18) h18) fun h20 => ?_
  clear_value x19
  extract_lets +onlyGivenNames -merge -underBinder x21
  refine Via.cut (t := x21) (Via.step (errEvent_via ..) rfl h20) fun h22 => ?_
  clear_value x21
  extract_lets +onlyGivenNames -merge -underBinder x23
  refine Via.cut (t := x23) (Via.step (logWrite_via ..) rfl h22) fun h24 => ?_
  clear_value x23
  extract_lets +onlyGivenNames -merge -underBinder x25
  refine Via.cut (t := x25) (Via.step (modFold_via ..) rfl h24) fun h26 => ?_
  clear_value x25
  extract_lets +onlyGivenNames -merge -underBinder x27
  refine Via.cut (t := x27) (Via.step (foldStepFault_via ..) rfl h26) fun h28 => ?_
  clear_value x27
  exact Via.ite (Via.step (stopDrove_via ..) rfl (Via.step (wr0_via ..) rfl h28)) h28

theorem faultHere_via (s : State) (f : Nat) (code : Nat) (syl : Nat) : Via [.regs, .views, .log, .folds, .flocks] s (faultHere s f code syl) := by
  unfold faultHere
  exact Via.step (contractFault_via ..) rfl (Via.refl _ _)

theorem clash_via (s : State) (f : Nat) (tile : Nat) (cause : Nat) (named : Nat) : Via [.regs, .views, .log, .folds, .flocks] s (clash s f tile cause named) := by
  unfold clash
  extract_lets +onlyGivenNames -merge -underBinder y1
  try clear_value y1
  extract_lets +onlyGivenNames -merge -underBinder y2
  try clear_value y2
  extract_lets +onlyGivenNames -merge -underBinder y3
  try clear_value y3
  extract_lets +onlyGivenNames -merge -underBinder y4
  try clear_value y4
  extract_lets +onlyGivenNames -merge -underBinder y5
  try clear_value y5
  extract_lets +onlyGivenNames -merge -underBinder x6
  refine Via.cut (t := x6) (Via.step (bump_via ..) rfl (Via.refl _ _)) fun h7 => ?_
  clear_value x6
  extract_lets +onlyGivenNames -merge -underBinder x8
  refine Via.cut (t := x8) (Via.step (wr0_via ..) rfl h7) fun h9 => ?_
  clear_value x8
  extract_lets +onlyGivenNames -merge -underBinder x10
  refine Via.cut (t := x10) (Via.step (wr0_via ..) rfl h9) fun h11 => ?_
  clear_value x10
  extract_lets +onlyGivenNames -merge -underBinder x12
  refine Via.cut (t := x12) (Via.step (wr0_via ..) rfl h11) fun h13 => ?_
  clear_value x12
  extract_lets +onlyGivenNames -merge -underBinder x14
  refine Via.cut (t := x14) (Via.step (wr0_via ..) rfl h13) fun h15 => ?_
  clear_value x14
  extract_lets +onlyGivenNames -merge -underBinder x16
  refine Via.cut (t := x16) (Via.ite h7 (Via.step (wr0_via ..) rfl h15)) fun h17 => ?_
  clear_value x16
  extract_lets +onlyGivenNames -merge -underBinder x18
  refine Via.cut (t := x18) (Via.step (errEvent_via ..) rfl h17) fun h19 => ?_
  clear_value x18
  extract_lets +onlyGivenNames -merge -underBinder x20
  refine Via.cut (t := x20) (Via.step (logWrite_via ..) rfl h19) fun h21 => ?_
  clear_value x20
  extract_lets +onlyGivenNames -merge -underBinder x22
  refine Via.cut (t := x22) (Via.step (modTile_via ..) rfl h21) fun h23 => ?_
  clear_value x22
  extract_lets +onlyGivenNames -merge -underBinder x24
  refine Via.cut (t := x24) (Via.step (modFold_via ..) rfl h23) fun h25 => ?_
  clear_value x24
  extract_lets +onlyGivenNames -merge -underBinder x26
  refine Via.cut (t := x26) (Via.step (foldStepFault_via ..) rfl h25) fun h27 => ?_
  clear_value x26
  exact Via.ite (Via.step (stopDrove_via ..) rfl (Via.step (wr0_via ..) rfl h27)) h27

theorem stopAt_via (s : State) (f : Nat) (x2 : Stop) : Via [.regs, .views, .log, .folds, .flocks] s (stopAt s f x2) := by
  unfold stopAt
  split
  · exact Via.step (contractFault_via ..) rfl (Via.refl _ _)
  · exact Via.step (clash_via ..) rfl (Via.refl _ _)

theorem stopAll_via (s : State) (f : Nat) (stops : List Stop) : Via [.regs, .views, .log, .folds, .flocks] s (stopAll s f stops) := by
  unfold stopAll
  exact Via.forEach (fun _ _ => Via.step (stopAt_via ..) rfl (Via.refl _ _)) (Via.refl _ _)

theorem issueWith_via {ps : List StatePart} {r s : State} {f : Nat} {stops : List Stop} {go : State}
    (hb : ([.regs, .views, .log, .folds, .flocks].all fun p => ps.contains p) = true) (h : Via ps r s) (k : Via ps r go) :
    Via ps r (issueWith s f stops go) := by
  unfold issueWith
  split
  · exact k
  · exact Via.fold _ _ (fun s x => Via.mono (stopAt_via s f x) hb) h

theorem setRecipe_via (s : State) (f : Nat) (tag : Nat) (mask : Nat) : Via [.regs, .views, .log] s (setRecipe s f tag mask) := by
  unfold setRecipe
  extract_lets +onlyGivenNames -merge -underBinder y1
  try clear_value y1
  extract_lets +onlyGivenNames -merge -underBinder y2
  try clear_value y2
  extract_lets +onlyGivenNames -merge -underBinder y3
  try clear_value y3
  refine Via.ite (Via.refl _ _) (?_)
  · extract_lets +onlyGivenNames -merge -underBinder x4
    refine Via.cut (t := x4) (Via.step (wr_via ..) rfl (Via.refl _ _)) fun h5 => ?_
    clear_value x4
    extract_lets +onlyGivenNames -merge -underBinder x6
    refine Via.cut (t := x6) (Via.step (wr0_via ..) rfl h5) fun h7 => ?_
    clear_value x6
    extract_lets +onlyGivenNames -merge -underBinder x8
    refine Via.cut (t := x8) (Via.step (wr0_via ..) rfl h7) fun h9 => ?_
    clear_value x8
    exact Via.step (logWrite_via ..) rfl h9

theorem raiseHold_via (s : State) (q : Nat) : Via [.regs, .tally] s (raiseHold s q) := by
  unfold raiseHold
  exact Via.ite (Via.refl _ _) (Via.ite (Via.step (bump_via ..) rfl (Via.refl _ _)) (Via.step (bump_via ..) rfl (Via.step (setTally_via ..) rfl (Via.refl _ _))))

theorem stretchBy_via (s : State) (n : Nat) : Via [.pause, .power] s (stretchBy s n) := by
  unfold stretchBy
  exact Via.step (setPause_via ..) rfl (Via.step (setPower_via ..) rfl (Via.refl _ _))

theorem passStretch_via (s : State) : Via [.free, .pause, .power] s (passStretch s) := by
  unfold passStretch
  refine Via.ite (?_) (Via.refl _ _)
  · split
    · rename_i v1 v2 e3
      refine Via.cut (Via.pair e3 (Via.step (drawNat_via ..) rfl (Via.refl _ _))) fun h4 => ?_
      exact Via.step (stretchBy_via ..) rfl h4

theorem predict_via (s : State) : Via [.free, .regs, .tally, .pause, .power] s (predict s) := by
  unfold predict
  extract_lets +onlyGivenNames -merge -underBinder x1
  refine Via.cut (t := x1) (Via.step (passStretch_via ..) rfl (Via.refl _ _)) fun h2 => ?_
  clear_value x1
  exact Via.ite h2 (Via.forEach (fun _ _ => Via.step (raiseHold_via ..) rfl (Via.refl _ _)) h2)

theorem seqFault_via (s : State) (f : Nat) (p : Nat) : Via [.regs, .views, .log, .folds, .flocks] s (seqFault s f p) := by
  unfold seqFault
  extract_lets +onlyGivenNames -merge -underBinder x1
  refine Via.cut (t := x1) (Via.step (wr0_via ..) rfl (Via.step (contractFault_via ..) rfl (Via.refl _ _))) fun h2 => ?_
  clear_value x1
  exact Via.step (modFold_via ..) rfl h2

theorem startBeat_via (s : State) (n : Nat) : Via [.pause] s (startBeat s n) := by
  unfold startBeat
  refine Via.ite (Via.refl _ _) (?_)
  · extract_lets +onlyGivenNames -merge -underBinder y1
    try clear_value y1
    extract_lets +onlyGivenNames -merge -underBinder y2
    try clear_value y2
    extract_lets +onlyGivenNames -merge -underBinder x3
    refine Via.cut (t := x3) (Via.step (setPause_via ..) rfl (Via.refl _ _)) fun h4 => ?_
    clear_value x3
    exact Via.ite (Via.step (askPause_via ..) rfl h4) h4

theorem dropSyllable_via (s : State) (f : Nat) : Via [.folds] s (dropSyllable s f) := by
  unfold dropSyllable
  exact Via.step (modFold_via ..) rfl (Via.refl _ _)

theorem settleSyllable_via (f : Nat) (s : State) (y : Nat) : Via [.regs, .views, .log, .folds, .flocks] s (settleSyllable f s y) := by
  unfold settleSyllable
  extract_lets +onlyGivenNames -merge -underBinder y1
  try clear_value y1
  extract_lets +onlyGivenNames -merge -underBinder y2
  try clear_value y2
  exact Via.ite (Via.ite (Via.step (dropSyllable_via ..) rfl (Via.refl _ _)) (Via.ite (Via.step (contractFault_via ..) rfl (Via.step (dropSyllable_via ..) rfl (Via.refl _ _))) (Via.refl _ _))) (Via.refl _ _)

theorem settleTodo_via (s : State) (f : Nat) : Via [.regs, .views, .log, .folds, .flocks] s (settleTodo s f) := by
  unfold settleTodo
  exact Via.fold _ _ (fun _ _ => Via.step (settleSyllable_via ..) rfl (Via.refl _ _)) (Via.refl _ _)

theorem issueAt_via (s : State) (f : Nat) (p : Nat) (st : List Loop) : Via [.free, .regs, .views, .log, .folds, .flocks, .tally, .pause, .power] s (issueAt s f p st) := by
  unfold issueAt
  extract_lets +onlyGivenNames -merge -underBinder y1
  try clear_value y1
  extract_lets +onlyGivenNames -merge -underBinder y2
  try clear_value y2
  extract_lets +onlyGivenNames -merge -underBinder y3
  try clear_value y3
  split
  · extract_lets +onlyGivenNames -merge -underBinder y4
    try clear_value y4
    extract_lets +onlyGivenNames -merge -underBinder x5
    refine Via.cut (t := x5) (Via.step (startBeat_via ..) rfl (Via.refl _ _)) fun h6 => ?_
    clear_value x5
    extract_lets +onlyGivenNames -merge -underBinder x7
    refine Via.cut (t := x7) (Via.step (putFold_via ..) rfl h6) fun h8 => ?_
    clear_value x7
    extract_lets +onlyGivenNames -merge -underBinder x9
    refine Via.cut (t := x9) (Via.step (bump_via ..) rfl h8) fun h10 => ?_
    clear_value x9
    extract_lets +onlyGivenNames -merge -underBinder x11
    refine Via.cut (t := x11) (Via.step (wr0_via ..) rfl h10) fun h12 => ?_
    clear_value x11
    extract_lets +onlyGivenNames -merge -underBinder x13
    refine Via.cut (t := x13) (Via.step (wr0_via ..) rfl h12) fun h14 => ?_
    clear_value x13
    extract_lets +onlyGivenNames -merge -underBinder x15
    refine Via.cut (t := x15) (Via.step (wr0_via ..) rfl h14) fun h16 => ?_
    clear_value x15
    extract_lets +onlyGivenNames -merge -underBinder x17
    refine Via.cut (t := x17) (Via.ite h16 (Via.step (contractFault_via ..) rfl h16)) fun h18 => ?_
    clear_value x17
    extract_lets +onlyGivenNames -merge -underBinder y19
    try clear_value y19
    extract_lets +onlyGivenNames -merge -underBinder x20
    refine Via.cut (t := x20) (Via.ite (Via.step (seqFault_via ..) rfl h18) h18) fun h21 => ?_
    clear_value x20
    exact Via.step (predict_via ..) rfl (Via.step (settleTodo_via ..) rfl h21)

theorem issueBundle_via (s : State) (f : Nat) : Via [.free, .regs, .views, .log, .folds, .flocks, .tally, .pause, .power] s (issueBundle s f) := by
  unfold issueBundle
  extract_lets +onlyGivenNames -merge -underBinder y1
  try clear_value y1
  refine Via.ite (Via.step (seqFault_via ..) rfl (Via.refl _ _)) (?_)
  · split
    · exact Via.step (seqFault_via ..) rfl (Via.refl _ _)
    · exact Via.step (issueAt_via ..) rfl (Via.refl _ _)

theorem execBundleIssue_via (fold : Fin 68) (parityFail : Bool) (s : State) : Reach [.free, .regs, .views, .log, .folds, .flocks, .tally, .pause, .care, .power] s (execBundleIssue fold parityFail s) := by
  unfold execBundleIssue
  refine Reach.ite (?_) (Reach.next (Via.refl _ _))
  · extract_lets +onlyGivenNames -merge -underBinder x1
    refine Reach.cut (t := x1) (Via.ite (Via.step (dataSuspect_via ..) rfl (Via.step (errEvent_via ..) rfl (Via.refl _ _))) (Via.refl _ _)) fun h2 => ?_
    clear_value x1
    exact Reach.next (Via.step (issueBundle_via ..) rfl h2)

theorem endIssue_via (s : State) (f : Nat) (b : Nat) : Via [.regs, .folds] s (endIssue s f b) := by
  unfold endIssue
  refine Via.ite (?_) (Via.refl _ _)
  · extract_lets +onlyGivenNames -merge -underBinder x1
    refine Via.cut (t := x1) (Via.step (wr0_via ..) rfl (Via.step (wr0_via ..) rfl (Via.refl _ _))) fun h2 => ?_
    clear_value x1
    exact Via.step (modFold_via ..) rfl h2

theorem execTend_via (fold : Fin 68) (s : State) : Reach [.regs, .folds] s (execTend fold s) := by
  unfold execTend
  exact Reach.next (Via.step (endIssue_via ..) rfl (Via.refl _ _))

theorem execSend_via (fold : Fin 68) (s : State) : Reach [.regs, .folds] s (execSend fold s) := by
  unfold execSend
  exact Reach.next (Via.step (endIssue_via ..) rfl (Via.refl _ _))

theorem syllable_via {s : State} {f : Nat} {slot : Nat} {word : Nat} {go : State → State} {ps : List StatePart} (hb : ([.regs, .views, .log, .folds, .flocks].all fun p => ps.contains p) = true) (hgo : ∀ a0, Via ps a0 (go a0)) :
    Via ps s (syllable s f slot word go) := by
  unfold syllable
  exact Via.ite (Via.step (settleTodo_via ..) (within rfl hb) (Via.after (hgo ..) (Via.step (dropSyllable_via ..) (within rfl hb) (Via.refl _ _)))) (Via.refl _ _)

theorem noOperation_via (s : State) (f : Nat) (syl : Nat) (rest : Nat) : Via [.regs, .views, .log, .folds, .flocks] s (noOperation s f syl rest) := by
  unfold noOperation
  exact Via.after (syllable_via rfl (fun _ => Via.ite (Via.refl _ _) (Via.step (faultHere_via ..) rfl (Via.refl _ _)))) (Via.refl _ _)

theorem execAnop_via (fold : Fin 68) (rest : BitVec 28) (s : State) : Reach [.regs, .views, .log, .folds, .flocks] s (execAnop fold rest s) := by
  unfold execAnop
  exact Reach.next (Via.step (noOperation_via ..) rfl (Via.refl _ _))

theorem execLnop_via (fold : Fin 68) (rest : BitVec 20) (s : State) : Reach [.regs, .views, .log, .folds, .flocks] s (execLnop fold rest s) := by
  unfold execLnop
  exact Reach.next (Via.step (noOperation_via ..) rfl (Via.refl _ _))

theorem execVecNop_via (fold : Fin 68) (rest : BitVec 26) (s : State) : Reach [.regs, .views, .log, .folds, .flocks] s (execVecNop fold rest s) := by
  unfold execVecNop
  exact Reach.next (Via.step (noOperation_via ..) rfl (Via.refl _ _))

theorem execMnop_via (fold : Fin 68) (rest : BitVec 28) (s : State) : Reach [.regs, .views, .log, .folds, .flocks] s (execMnop fold rest s) := by
  unfold execMnop
  exact Reach.next (Via.step (noOperation_via ..) rfl (Via.refl _ _))

end Sys2Proof.Machine
end

