-- ==== Sys2Proof/Laws/ViaPorts.lean ====
section
/-! SUPPORT. What each operation of Machine/Ports.lean can touch: the pieces it names, and the memories keep their canonical form. -/

namespace Sys2Proof.Machine

open Sys2Proof

theorem addBook_via (s : State) (f : Nat) (b : Book) : Via [.folds] s (addBook s f b) := by
  unfold addBook
  exact Via.step (modFold_via ..) rfl (Via.refl _ _)

theorem loseData_via (s : State) (a : Nat) : Via [.free, .mem, .fresh] s (loseData s a) := by
  unfold loseData
  split
  · rename_i v1 v2 e3
    refine Via.cut (Via.pair e3 (Via.step (freeBytes_via ..) rfl (Via.refl _ _))) fun h4 => ?_
    exact Via.step (droveBytes_via ..) rfl h4

theorem noteBad_via (s : State) (region : Nat) (a : Nat) : Via [.care] s (noteBad s region a) := by
  unfold noteBad
  exact Via.ite (Via.step (setCare_via ..) rfl (Via.refl _ _)) (Via.ite (Via.refl _ _) (Via.step (setCare_via ..) rfl (Via.refl _ _)))

theorem damageShards_via (s : State) (a : Nat) : Via [.regs, .weights] s (damageShards s a) := by
  unfold damageShards
  split
  · exact Via.refl _ _
  · refine Via.forEach (?_) (Via.refl _ _)
    · intro s1 a2
      extract_lets +onlyGivenNames -merge -underBinder y3
      try clear_value y3
      exact Via.ite (Via.step (wr_via ..) rfl (Via.step (setWeights_via ..) rfl (Via.refl _ _))) (Via.refl _ _)

theorem holdForLine_via (s : State) : Via [.free, .regs, .tally] s (holdForLine s) := by
  unfold holdForLine
  refine Via.ite (?_) (Via.refl _ _)
  · split
    · rename_i v1 v2 e3
      refine Via.cut (Via.pair e3 (Via.step (drawNat_via ..) rfl (Via.refl _ _))) fun h4 => ?_
      exact Via.step (raiseHold_via ..) rfl h4

theorem lineLost_via (s : State) (pg : Nat) (ue : Field) (e : LineErr) : Via [.free, .regs, .views, .log, .mem, .fresh, .tally, .care, .weights] s (lineLost s pg ue e) := by
  unfold lineLost
  extract_lets +onlyGivenNames -merge -underBinder y1
  try clear_value y1
  extract_lets +onlyGivenNames -merge -underBinder x2
  refine Via.cut (t := x2) (Via.ite (Via.step (countUe_via ..) rfl (Via.refl _ _)) (Via.refl _ _)) fun h3 => ?_
  clear_value x2
  extract_lets +onlyGivenNames -merge -underBinder x4
  refine Via.cut (t := x4) (Via.step (bump_via ..) rfl h3) fun h5 => ?_
  clear_value x4
  extract_lets +onlyGivenNames -merge -underBinder x6
  refine Via.cut (t := x6) (Via.ite (Via.step (wr0_via ..) rfl h5) (Via.step (wrPair_via ..) rfl h5)) fun h7 => ?_
  clear_value x6
  extract_lets +onlyGivenNames -merge -underBinder x8
  refine Via.cut (t := x8) (Via.step (errEvent_via ..) rfl h7) fun h9 => ?_
  clear_value x8
  extract_lets +onlyGivenNames -merge -underBinder x10
  refine Via.cut (t := x10) (Via.step (logWrite_via ..) rfl h9) fun h11 => ?_
  clear_value x10
  extract_lets +onlyGivenNames -merge -underBinder x12
  refine Via.cut (t := x12) (Via.step (noteBad_via ..) rfl (Via.step (loseData_via ..) rfl h11)) fun h13 => ?_
  clear_value x12
  extract_lets +onlyGivenNames -merge -underBinder x14
  refine Via.cut (t := x14) (Via.ite (Via.step (damageShards_via ..) rfl h13) h13) fun h15 => ?_
  clear_value x14
  exact Via.ite (Via.step (holdForLine_via ..) rfl h15) h15

theorem lineError_via (s : State) (drove : Option Nat) (e : LineErr) : Via [.free, .regs, .views, .log, .mem, .fresh, .folds, .flocks, .tally, .pause, .care, .weights] s (lineError s drove e) := by
  unfold lineError
  split
  · exact Via.refl _ _
  · refine Via.ite (Via.refl _ _) (Via.ite (?_) (?_))
    · extract_lets +onlyGivenNames -merge -underBinder x1
      refine Via.cut (t := x1) (Via.step (bump_via ..) rfl (Via.refl _ _)) fun h2 => ?_
      clear_value x1
      extract_lets +onlyGivenNames -merge -underBinder x3
      refine Via.cut (t := x3) (Via.ite (Via.step (countCe_via ..) rfl h2) h2) fun h4 => ?_
      clear_value x3
      split
      · exact Via.step (askPause_via ..) rfl (Via.step (bump_via ..) rfl h4)
      · exact Via.step (askPause_via ..) rfl h4
      · exact h4
    · extract_lets +onlyGivenNames -merge -underBinder y5
      try clear_value y5
      extract_lets +onlyGivenNames -merge -underBinder x6
      refine Via.cut (t := x6) (Via.step (lineLost_via ..) rfl (Via.refl _ _)) fun h7 => ?_
      clear_value x6
      split
      · exact Via.ite h7 (Via.step (dataSuspect_via ..) rfl h7)
      · exact h7

theorem readLines_via (s : State) (f : Nat) (hit : Nat → Bool) (lines : List LineErr) : Via [.free, .regs, .views, .log, .mem, .fresh, .folds, .flocks, .tally, .pause, .care, .weights] s (readLines s f hit lines) := by
  unfold readLines
  extract_lets +onlyGivenNames -merge -underBinder y1
  try clear_value y1
  extract_lets +onlyGivenNames -merge -underBinder y2
  try clear_value y2
  extract_lets +onlyGivenNames -merge -underBinder x3
  refine Via.cut (t := x3) (Via.forEach (fun _ _ => Via.step (lineError_via ..) rfl (Via.refl _ _)) (Via.refl _ _)) fun h4 => ?_
  clear_value x3
  exact Via.ite (Via.step (dataSuspect_via ..) rfl h4) h4

theorem rampDemand_via (s : State) (die : Nat) (c : Nat) (new : List Nat) : Via [.regs, .pause] s (rampDemand s die c new) := by
  unfold rampDemand
  extract_lets +onlyGivenNames -merge -underBinder y1
  try clear_value y1
  extract_lets +onlyGivenNames -merge -underBinder y2
  try clear_value y2
  extract_lets +onlyGivenNames -merge -underBinder y3
  try clear_value y3
  extract_lets +onlyGivenNames -merge -underBinder y4
  try clear_value y4
  extract_lets +onlyGivenNames -merge -underBinder y5
  try clear_value y5
  extract_lets +onlyGivenNames -merge -underBinder y6
  try clear_value y6
  extract_lets +onlyGivenNames -merge -underBinder y7
  try clear_value y7
  extract_lets +onlyGivenNames -merge -underBinder y8
  try clear_value y8
  extract_lets +onlyGivenNames -merge -underBinder y9
  try clear_value y9
  extract_lets +onlyGivenNames -merge -underBinder y10
  try clear_value y10
  extract_lets +onlyGivenNames -merge -underBinder x11
  refine Via.cut (t := x11) (Via.step (setPause_via ..) rfl (Via.refl _ _)) fun h12 => ?_
  clear_value x11
  exact Via.step (askPause_via ..) rfl (Via.step (bump_via ..) rfl h12)

end Sys2Proof.Machine
end

