-- ==== Sys2Proof/Laws/ViaArrays.lean ====
section
/-! SUPPORT. What each operation of Machine/Arrays.lean can touch: the pieces it names, and the memories keep their canonical form. -/

namespace Sys2Proof.Machine

open Sys2Proof

theorem holdArrays_via (s : State) (f : Nat) (ops : List ConvOp) : Via [.folds] s (holdArrays s f ops) := by
  unfold holdArrays
  exact Via.step (modFold_via ..) rfl (Via.refl _ _)

theorem scheduleConvs_via (s : State) (f : Nat) (ops : List ConvOp) : Via [.folds] s (scheduleConvs s f ops) := by
  unfold scheduleConvs
  exact Via.step (modFold_via ..) rfl (Via.step (holdArrays_via ..) rfl (Via.refl _ _))

theorem rowClash_via (s : State) (f : Nat) (lat : Nat) (t : Nat) (tag : Nat) : Via [.regs, .views, .log, .folds, .flocks] s (rowClash s f lat t tag) := by
  unfold rowClash
  extract_lets +onlyGivenNames -merge -underBinder y1
  try clear_value y1
  extract_lets +onlyGivenNames -merge -underBinder y2
  try clear_value y2
  extract_lets +onlyGivenNames -merge -underBinder y3
  try clear_value y3
  refine Via.ite (Via.refl _ _) (?_)
  · extract_lets +onlyGivenNames -merge -underBinder x4
    refine Via.cut (t := x4) (Via.step (clash_via ..) rfl (Via.refl _ _)) fun h5 => ?_
    clear_value x4
    exact Via.step (modFold_via ..) rfl h5

theorem doConv_via (s : State) (f : Nat) (mask : Nat) (desc : Nat) : Via [.regs, .views, .log, .folds, .flocks] s (doConv s f mask desc) := by
  unfold doConv
  extract_lets +onlyGivenNames -merge -underBinder y1
  try clear_value y1
  extract_lets +onlyGivenNames -merge -underBinder y2
  try clear_value y2
  extract_lets +onlyGivenNames -merge -underBinder y3
  try clear_value y3
  extract_lets +onlyGivenNames -merge -underBinder y4
  try clear_value y4
  extract_lets +onlyGivenNames -merge -underBinder y5
  try clear_value y5
  extract_lets +onlyGivenNames -merge -underBinder x6
  refine Via.cut (t := x6) (Via.ite (Via.step (bump_via ..) rfl (Via.refl _ _)) (Via.refl _ _)) fun h7 => ?_
  clear_value x6
  extract_lets +onlyGivenNames -merge -underBinder x8
  refine Via.cut (t := x8) (Via.step (modFold_via ..) rfl h7) fun h9 => ?_
  clear_value x8
  extract_lets +onlyGivenNames -merge -underBinder x10
  refine Via.cut (t := x10) (Via.ite (Via.step (modFold_via ..) rfl h9) h9) fun h11 => ?_
  clear_value x10
  extract_lets +onlyGivenNames -merge -underBinder x12
  refine Via.cut (t := x12) (Via.fold _ _ (fun _ _ => Via.step (clash_via ..) rfl (Via.refl _ _)) h11) fun h13 => ?_
  clear_value x12
  extract_lets +onlyGivenNames -merge -underBinder x14
  refine Via.cut (t := x14) (Via.step (scheduleConvs_via ..) rfl h13) fun h15 => ?_
  clear_value x14
  exact Via.fold _ _ (fun _ _ => Via.step (rowClash_via ..) rfl (Via.refl _ _)) h15

theorem convMask_via (s : State) (f : Nat) (desc : Nat) : Via [.folds] s (convMask s f desc) := by
  unfold convMask
  exact Via.ite (Via.step (modFold_via ..) rfl (Via.refl _ _)) (Via.refl _ _)

theorem issueConv_via (s : State) (f : Nat) (mask : Nat) (rsv : Nat) (desc : Nat) : Via [.regs, .views, .log, .folds, .flocks] s (issueConv s f mask rsv desc) := by
  unfold issueConv
  extract_lets +onlyGivenNames -merge -underBinder x1
  refine Via.cut (t := x1) (Via.step (convMask_via ..) rfl (Via.refl _ _)) fun h2 => ?_
  clear_value x1
  split
  · exact Via.step (doConv_via ..) rfl h2
  · exact Via.step (stopAll_via ..) rfl (Via.step (holdArrays_via ..) rfl h2)

theorem execConv_via (fold : Fin 68) (mask : BitVec 16) (rsv : BitVec 2) (desc : Fin 1024) (s : State) : Reach [.regs, .views, .log, .folds, .flocks] s (execConv fold mask rsv desc s) := by
  unfold execConv
  exact Reach.next (Via.after (syllable_via rfl (fun _ => Via.step (issueConv_via ..) rfl (Via.refl _ _))) (Via.refl _ _))

theorem spillEffects_via (s : State) (f : Nat) (o : ConvOp) (nonfinite : Nat) (sp : ActSpan) : Via [.regs, .views, .log, .pause] s (spillEffects s f o nonfinite sp) := by
  unfold spillEffects
  extract_lets +onlyGivenNames -merge -underBinder y1
  try clear_value y1
  refine Via.ite (Via.refl _ _) (?_)
  · extract_lets +onlyGivenNames -merge -underBinder x2
    refine Via.cut (t := x2) (Via.ite (Via.step (setRecipe_via ..) rfl (Via.step (bump_via ..) rfl (Via.refl _ _))) (Via.refl _ _)) fun h3 => ?_
    clear_value x2
    refine Via.ite h3 (?_)
    · extract_lets +onlyGivenNames -merge -underBinder x4
      refine Via.cut (t := x4) (Via.step (bump_via ..) rfl h3) fun h5 => ?_
      clear_value x4
      refine Via.ite h5 (?_)
      · extract_lets +onlyGivenNames -merge -underBinder x6
        refine Via.cut (t := x6) (Via.step (bump_via ..) rfl h5) fun h7 => ?_
        clear_value x6
        extract_lets +onlyGivenNames -merge -underBinder x8
        refine Via.cut (t := x8) (Via.step (setRecipe_via ..) rfl h7) fun h9 => ?_
        clear_value x8
        refine Via.ite (Via.step (setRecipe_via ..) rfl (Via.step (bump_via ..) rfl h9)) (?_)
        · extract_lets +onlyGivenNames -merge -underBinder y10
          try clear_value y10
          exact Via.step (askPause_via ..) rfl (Via.step (bump_via ..) rfl h9)

theorem latchConv_via (s : State) (f : Nat) (a : Nat) (k : Conv) : Via [.free, .regs, .views, .log, .folds, .pause] s (latchConv s f a k) := by
  unfold latchConv
  extract_lets +onlyGivenNames -merge -underBinder y1
  try clear_value y1
  extract_lets +onlyGivenNames -merge -underBinder y2
  try clear_value y2
  extract_lets +onlyGivenNames -merge -underBinder y3
  try clear_value y3
  extract_lets +onlyGivenNames -merge -underBinder y4
  try clear_value y4
  extract_lets +onlyGivenNames -merge -underBinder y5
  try clear_value y5
  extract_lets +onlyGivenNames -merge -underBinder x6
  refine Via.cut (t := x6) (Via.step (setFree_via ..) rfl (Via.refl _ _)) fun h7 => ?_
  clear_value x6
  extract_lets +onlyGivenNames -merge -underBinder x8
  refine Via.cut (t := x8) (Via.step (modFold_via ..) rfl h7) fun h9 => ?_
  clear_value x8
  extract_lets +onlyGivenNames -merge -underBinder x10
  refine Via.cut (t := x10) (Via.step (spillEffects_via ..) rfl h9) fun h11 => ?_
  clear_value x10
  exact Via.ite h11 (Via.step (rampDemand_via ..) rfl h11)

theorem execConvLatch_via (fold : Fin 68) (array : Fin 16) (s : State) : Reach [.free, .regs, .views, .log, .folds, .pause] s (execConvLatch fold array s) := by
  unfold execConvLatch
  split
  · exact Reach.next (Via.ite (Via.step (latchConv_via ..) rfl (Via.refl _ _)) (Via.refl _ _))
  · exact Reach.next (Via.refl _ _)

theorem loadPart_via (s : State) (f : Nat) (t : Nat) (l : Load) : Via [.folds] s (loadPart s f t l) := by
  unfold loadPart
  exact Via.step (modArr_via ..) rfl (Via.refl _ _)

theorem loadsTo_via (s : State) (f : Nat) (t : Nat) : Via [.folds] s (loadsTo s f t) := by
  unfold loadsTo
  extract_lets +onlyGivenNames -merge -underBinder x1
  refine Via.cut (t := x1) (Via.fold _ _ (fun _ _ => Via.step (loadPart_via ..) rfl (Via.refl _ _)) (Via.refl _ _)) fun h2 => ?_
  clear_value x1
  exact Via.step (modFold_via ..) rfl h2

theorem issuePsw_via (s : State) (f : Nat) (mask : Nat) (rsv : Nat) : Via [.regs, .views, .log, .folds, .flocks] s (issuePsw s f mask rsv) := by
  unfold issuePsw
  exact issueWith_via rfl (Via.refl _ _) (Via.step (modFold_via ..) rfl (Via.refl _ _))

theorem execPsw_via (fold : Fin 68) (mask : BitVec 16) (rsv : BitVec 12) (s : State) : Reach [.regs, .views, .log, .folds, .flocks] s (execPsw fold mask rsv s) := by
  unfold execPsw
  exact Reach.next (Via.after (syllable_via rfl (fun _ => Via.step (issuePsw_via ..) rfl (Via.refl _ _))) (Via.refl _ _))

theorem switchPlanes_via (s : State) (f : Nat) (mask : Nat) (b : Nat) (bundle : Nat) : Via [.regs, .views, .log, .folds, .flocks] s (switchPlanes s f mask b bundle) := by
  unfold switchPlanes
  extract_lets +onlyGivenNames -merge -underBinder x1
  refine Via.cut (t := x1) (Via.step (modFold_via ..) rfl (Via.step (loadsTo_via ..) rfl (Via.refl _ _))) fun h2 => ?_
  clear_value x1
  exact Via.ite (Via.step (contractFault_via ..) rfl h2) (Via.step (modFold_via ..) rfl h2)

theorem execPlaneSwitch_via (fold : Fin 68) (s : State) : Reach [.regs, .views, .log, .folds, .flocks] s (execPlaneSwitch fold s) := by
  unfold execPlaneSwitch
  split
  · exact Reach.next (Via.refl _ _)
  · exact Reach.next (Via.ite (Via.step (switchPlanes_via ..) rfl (Via.refl _ _)) (Via.refl _ _))

theorem beginLoad_via (s : State) (f : Nat) (a : Nat) (o : Nat) (g0 : Nat) (n : Nat) (kind : Nat) (bad : Bool) : Via [.folds] s (beginLoad s f a o g0 n kind bad) := by
  unfold beginLoad
  extract_lets +onlyGivenNames -merge -underBinder y1
  try clear_value y1
  extract_lets +onlyGivenNames -merge -underBinder y2
  try clear_value y2
  extract_lets +onlyGivenNames -merge -underBinder x3
  refine Via.cut (t := x3) (Via.step (modArr_via ..) rfl (Via.refl _ _)) fun h4 => ?_
  clear_value x3
  exact Via.step (modFold_via ..) rfl h4

theorem doLoad_via (s : State) (f : Nat) (a0 : Nat) (count : Nat) (desc : Nat) (badRows : List (Nat × Nat)) (lines : List LineErr) : Via [.free, .regs, .views, .log, .mem, .fresh, .folds, .flocks, .tally, .pause, .care, .weights] s (doLoad s f a0 count desc badRows lines) := by
  unfold doLoad
  extract_lets +onlyGivenNames -merge -underBinder y1
  try clear_value y1
  extract_lets +onlyGivenNames -merge -underBinder y2
  try clear_value y2
  extract_lets +onlyGivenNames -merge -underBinder y3
  try clear_value y3
  extract_lets +onlyGivenNames -merge -underBinder y4
  try clear_value y4
  extract_lets +onlyGivenNames -merge -underBinder y5
  try clear_value y5
  extract_lets +onlyGivenNames -merge -underBinder x6
  refine Via.cut (t := x6) (Via.step (rampDemand_via ..) rfl (Via.refl _ _)) fun h7 => ?_
  clear_value x6
  extract_lets +onlyGivenNames -merge -underBinder x8
  refine Via.cut (t := x8) (Via.step (modFold_via ..) rfl h7) fun h9 => ?_
  clear_value x8
  extract_lets +onlyGivenNames -merge -underBinder y10
  try clear_value y10
  extract_lets +onlyGivenNames -merge -underBinder x11
  refine Via.cut (t := x11) (Via.step (readLines_via ..) rfl h9) fun h12 => ?_
  clear_value x11
  extract_lets +onlyGivenNames -merge -underBinder x13
  refine Via.cut (t := x13) (Via.forEach (fun _ _ => Via.step (beginLoad_via ..) rfl (Via.refl _ _)) h12) fun h14 => ?_
  clear_value x13
  exact Via.ite h14 (Via.step (dataSuspect_via ..) rfl (Via.step (bump_via ..) rfl (Via.step (errEvent_via ..) rfl h14)))

theorem issuePld_via (s : State) (f : Nat) (a0 : Nat) (count : Nat) (rsv : Nat) (desc : Nat) (badRows : List (Nat × Nat)) (lines : List LineErr) : Via [.free, .regs, .views, .log, .mem, .fresh, .folds, .flocks, .tally, .pause, .care, .weights] s (issuePld s f a0 count rsv desc badRows lines) := by
  unfold issuePld
  exact issueWith_via rfl (Via.refl _ _) (Via.step (doLoad_via ..) rfl (Via.refl _ _))

theorem execPld_via (fold : Fin 68) (a0 : Fin 16) (count1 : Fin 16) (rsv : BitVec 3) (desc : Fin 512) (badRows : List (Fin 16 × Fin 1024)) (lines : List LineErr) (s : State) : Reach [.free, .regs, .views, .log, .mem, .fresh, .folds, .flocks, .tally, .pause, .care, .weights] s (execPld fold a0 count1 rsv desc badRows lines s) := by
  unfold execPld
  exact Reach.next (Via.after (syllable_via rfl (fun _ => Via.step (issuePld_via ..) rfl (Via.refl _ _))) (Via.refl _ _))

theorem forceCal_via (s : State) (f : Nat) : Via [.folds] s (forceCal s f) := by
  unfold forceCal
  exact Via.ite (Via.step (modFold_via ..) rfl (Via.refl _ _)) (Via.step (modFold_via ..) rfl (Via.refl _ _))

end Sys2Proof.Machine
end

