-- ==== Sys2Proof/Laws/ViaCollie.lean ====
section
/-! SUPPORT. What each operation of Machine/Collie.lean can touch: the pieces it names, and the memories keep their canonical form. -/

namespace Sys2Proof.Machine

open Sys2Proof

theorem addDispute_via (s : State) (f : Nat) (a : Nat) (bundle : Nat) (iter : Nat) (d : ConvData) (located : Bool) : Via [.care] s (addDispute s f a bundle iter d located) := by
  unfold addDispute
  extract_lets +onlyGivenNames -merge -underBinder y1
  try clear_value y1
  exact Via.step (setCare_via ..) rfl (Via.refl _ _)

theorem repeatDispute_via (s : State) (f : Nat) (same : Dispute → Bool) : Via [.regs, .folds, .flocks, .care] s (repeatDispute s f same) := by
  unfold repeatDispute
  extract_lets +onlyGivenNames -merge -underBinder y1
  try clear_value y1
  extract_lets +onlyGivenNames -merge -underBinder x2
  refine Via.cut (t := x2) (Via.step (setCare_via ..) rfl (Via.refl _ _)) fun h3 => ?_
  clear_value x2
  exact Via.ite (Via.step (locate_via ..) rfl h3) h3

theorem collieFail_via (s : State) (f : Nat) (a : Nat) (kind : Nat) (row : Nat) (value : Nat) : Via [.regs] s (collieFail s f a kind row value) := by
  unfold collieFail
  extract_lets +onlyGivenNames -merge -underBinder x1
  refine Via.cut (t := x1) (Via.step (bump_via ..) rfl (Via.refl _ _)) fun h2 => ?_
  clear_value x1
  extract_lets +onlyGivenNames -merge -underBinder x3
  refine Via.cut (t := x3) (Via.step (wr0_via ..) rfl h2) fun h4 => ?_
  clear_value x3
  extract_lets +onlyGivenNames -merge -underBinder x5
  refine Via.cut (t := x5) (Via.step (wr0_via ..) rfl h4) fun h6 => ?_
  clear_value x5
  extract_lets +onlyGivenNames -merge -underBinder x7
  refine Via.cut (t := x7) (Via.step (wr0_via ..) rfl h6) fun h8 => ?_
  clear_value x7
  exact Via.step (wr0_via ..) rfl h8

theorem instantTest_via (s : State) (f : Nat) (a : Nat) (bundle : Nat) (iter : Nat) (d : ConvData) (q : ℚ) : Via [.regs, .folds, .flocks, .care] s (instantTest s f a bundle iter d q) := by
  unfold instantTest
  extract_lets +onlyGivenNames -merge -underBinder x1
  refine Via.cut (t := x1) (Via.step (bump_via ..) rfl (Via.refl _ _)) fun h2 => ?_
  clear_value x1
  refine Via.ite h2 (?_)
  · extract_lets +onlyGivenNames -merge -underBinder x3
    refine Via.cut (t := x3) (Via.step (raiseSuspect_via ..) rfl (Via.step (collieFail_via ..) rfl h2)) fun h4 => ?_
    clear_value x3
    exact Via.ite (Via.step (repeatDispute_via ..) rfl h4) (Via.step (addDispute_via ..) rfl h4)

theorem execZeroInputConversion_via (fold : Fin 68) (array : Fin 16) (s : State) : Reach [.free, .regs, .folds, .flocks, .care] s (execZeroInputConversion fold array s) := by
  unfold execZeroInputConversion
  refine Reach.ite (?_) (Reach.next (Via.refl _ _))
  · extract_lets +onlyGivenNames -merge -underBinder y1
    try clear_value y1
    extract_lets +onlyGivenNames -merge -underBinder x2
    refine Reach.cut (t := x2) (Via.step (setFree_via ..) rfl (Via.refl _ _)) fun h3 => ?_
    clear_value x2
    extract_lets +onlyGivenNames -merge -underBinder x4
    refine Reach.cut (t := x4) (Via.step (modArr_via ..) rfl h3) fun h5 => ?_
    clear_value x4
    exact Reach.next (Via.step (instantTest_via ..) rfl h5)

theorem deliver_via (s : State) (f : Nat) (a : Nat) (k : Conv) (d : ConvData) : Via [.regs, .folds, .flocks, .care] s (deliver s f a k d) := by
  unfold deliver
  extract_lets +onlyGivenNames -merge -underBinder y1
  try clear_value y1
  extract_lets +onlyGivenNames -merge -underBinder y2
  try clear_value y2
  extract_lets +onlyGivenNames -merge -underBinder x3
  refine Via.cut (t := x3) (Via.step (modFold_via ..) rfl (Via.refl _ _)) fun h4 => ?_
  clear_value x3
  refine Via.ite (Via.step (bump_via ..) rfl h4) (Via.ite (Via.step (bump_via ..) rfl (Via.step (bump_via ..) rfl h4)) (?_))
  · extract_lets +onlyGivenNames -merge -underBinder y5
    try clear_value y5
    extract_lets +onlyGivenNames -merge -underBinder x6
    refine Via.cut (t := x6) (Via.step (bumpI_via ..) rfl h4) fun h7 => ?_
    clear_value x6
    extract_lets +onlyGivenNames -merge -underBinder x8
    refine Via.cut (t := x8) (Via.step (modFold_via ..) rfl h7) fun h9 => ?_
    clear_value x8
    extract_lets +onlyGivenNames -merge -underBinder x10
    refine Via.cut (t := x10) (Via.ite (Via.step (modArr_via ..) rfl h9) h9) fun h11 => ?_
    clear_value x10
    refine Via.ite (?_) (Via.step (bump_via ..) rfl h11)
    · extract_lets +onlyGivenNames -merge -underBinder y12
      try clear_value y12
      extract_lets +onlyGivenNames -merge -underBinder x13
      refine Via.cut (t := x13) (Via.step (instantTest_via ..) rfl h11) fun h14 => ?_
      clear_value x13
      extract_lets +onlyGivenNames -merge -underBinder x15
      refine Via.cut (t := x15) (Via.step (modArr_via ..) rfl h14) fun h16 => ?_
      clear_value x15
      exact Via.ite (Via.step (modArr_via ..) rfl h16) h16

theorem residueFail_via (s : State) (f : Nat) : Via [.regs, .folds, .flocks, .care] s (residueFail s f) := by
  unfold residueFail
  exact Via.step (locatedSuspect_via ..) rfl (Via.step (bump_via ..) rfl (Via.refl _ _))

theorem execConvDeliver_via (fold : Fin 68) (array : Fin 16) (residue : Bool) (s : State) : Reach [.regs, .folds, .flocks, .care] s (execConvDeliver fold array residue s) := by
  unfold execConvDeliver
  split
  · split
    · refine Reach.ite (?_) (Reach.next (Via.refl _ _))
      · extract_lets +onlyGivenNames -merge -underBinder x1
        refine Reach.cut (t := x1) (Via.step (deliver_via ..) rfl (Via.refl _ _)) fun h2 => ?_
        clear_value x1
        exact Reach.next (Via.ite (Via.step (residueFail_via ..) rfl h2) h2)
    · exact Reach.next (Via.refl _ _)
  · exact Reach.next (Via.refl _ _)

theorem logVerdict_via (s : State) (v : Nat) (f : Nat) (a : Nat) (rep : Bool) (tally : Nat) : Via [.regs, .views, .log] s (logVerdict s v f a rep tally) := by
  unfold logVerdict
  extract_lets +onlyGivenNames -merge -underBinder x1
  refine Via.cut (t := x1) (Via.step (bump_via ..) rfl (Via.refl _ _)) fun h2 => ?_
  clear_value x1
  extract_lets +onlyGivenNames -merge -underBinder x3
  refine Via.cut (t := x3) (Via.step (wr0_via ..) rfl h2) fun h4 => ?_
  clear_value x3
  extract_lets +onlyGivenNames -merge -underBinder x5
  refine Via.cut (t := x5) (Via.step (wr0_via ..) rfl h4) fun h6 => ?_
  clear_value x5
  extract_lets +onlyGivenNames -merge -underBinder x7
  refine Via.cut (t := x7) (Via.step (wr0_via ..) rfl h6) fun h8 => ?_
  clear_value x7
  extract_lets +onlyGivenNames -merge -underBinder x9
  refine Via.cut (t := x9) (Via.step (wr0_via ..) rfl h8) fun h10 => ?_
  clear_value x9
  extract_lets +onlyGivenNames -merge -underBinder x11
  refine Via.cut (t := x11) (Via.step (wr0_via ..) rfl h10) fun h12 => ?_
  clear_value x11
  extract_lets +onlyGivenNames -merge -underBinder x13
  refine Via.cut (t := x13) (Via.ite (Via.step (errEvent_via ..) rfl h12) h12) fun h14 => ?_
  clear_value x13
  exact Via.step (logWrite_via ..) rfl h14

theorem closeBlock_via (s : State) (f : Nat) (a : Nat) (b : CollieBlock) : Via [.regs, .views, .log, .folds, .flocks, .care] s (closeBlock s f a b) := by
  unfold closeBlock
  extract_lets +onlyGivenNames -merge -underBinder y1
  try clear_value y1
  extract_lets +onlyGivenNames -merge -underBinder y2
  try clear_value y2
  extract_lets +onlyGivenNames -merge -underBinder y3
  try clear_value y3
  extract_lets +onlyGivenNames -merge -underBinder y4
  try clear_value y4
  extract_lets +onlyGivenNames -merge -underBinder y5
  try clear_value y5
  extract_lets +onlyGivenNames -merge -underBinder y6
  try clear_value y6
  extract_lets +onlyGivenNames -merge -underBinder x7
  refine Via.cut (t := x7) (Via.step (modArr_via ..) rfl (Via.refl _ _)) fun h8 => ?_
  clear_value x7
  extract_lets +onlyGivenNames -merge -underBinder x9
  refine Via.cut (t := x9) (Via.ite (Via.step (collieFail_via ..) rfl h8) h8) fun h10 => ?_
  clear_value x9
  extract_lets +onlyGivenNames -merge -underBinder x11
  refine Via.cut (t := x11) (Via.forEach (fun _ _ => Via.step (collieFail_via ..) rfl (Via.refl _ _)) h10) fun h12 => ?_
  clear_value x11
  exact Via.ite (Via.step (logVerdict_via ..) rfl (Via.step (wr0_via ..) rfl (Via.step (locatedSuspect_via ..) rfl h12))) h12

theorem execCollieBlockClose_via (fold : Fin 68) (array : Fin 16) (s : State) : Reach [.regs, .views, .log, .folds, .flocks, .care] s (execCollieBlockClose fold array s) := by
  unfold execCollieBlockClose
  extract_lets +onlyGivenNames -merge -underBinder y1
  try clear_value y1
  exact Reach.next (Via.ite (Via.step (closeBlock_via ..) rfl (Via.refl _ _)) (Via.refl _ _))

theorem auditArray_via (s : State) (f : Nat) (a : Nat) (k : Conv) (d : ConvData) : Via [.regs, .folds, .flocks, .care] s (auditArray s f a k d) := by
  unfold auditArray
  extract_lets +onlyGivenNames -merge -underBinder y1
  try clear_value y1
  split
  · exact Via.refl _ _
  · extract_lets +onlyGivenNames -merge -underBinder x2
    refine Via.cut (t := x2) (Via.ite (Via.refl _ _) (Via.step (modFold_via ..) rfl (Via.refl _ _))) fun h3 => ?_
    clear_value x2
    extract_lets +onlyGivenNames -merge -underBinder x4
    refine Via.cut (t := x4) (Via.step (modArr_via ..) rfl h3) fun h5 => ?_
    clear_value x4
    extract_lets +onlyGivenNames -merge -underBinder x6
    refine Via.cut (t := x6) (Via.step (bump_via ..) rfl h5) fun h7 => ?_
    clear_value x6
    exact Via.ite (Via.step (addDispute_via ..) rfl (Via.step (locatedSuspect_via ..) rfl (Via.step (bump_via ..) rfl h7))) h7

theorem execAuditSample_via (fold : Fin 68) (array : Fin 16) (s : State) : Reach [.regs, .folds, .flocks, .care] s (execAuditSample fold array s) := by
  unfold execAuditSample
  extract_lets +onlyGivenNames -merge -underBinder y1
  try clear_value y1
  split
  · split
    · exact Reach.next (Via.step (auditArray_via ..) rfl (Via.refl _ _))
    · exact Reach.next (Via.refl _ _)
  · exact Reach.next (Via.refl _ _)

theorem stage1_via (s : State) (f : Nat) (a : Nat) (x : Dispute) : Via [.regs, .views, .log, .folds, .flocks, .care] s (stage1 s f a x) := by
  unfold stage1
  extract_lets +onlyGivenNames -merge -underBinder y1
  try clear_value y1
  extract_lets +onlyGivenNames -merge -underBinder y2
  try clear_value y2
  extract_lets +onlyGivenNames -merge -underBinder y3
  try clear_value y3
  refine Via.ite (?_) (?_)
  · extract_lets +onlyGivenNames -merge -underBinder y4
    try clear_value y4
    exact Via.step (locate_via ..) rfl (Via.step (setCare_via ..) rfl (Via.refl _ _))
  · extract_lets +onlyGivenNames -merge -underBinder y5
    try clear_value y5
    extract_lets +onlyGivenNames -merge -underBinder x6
    refine Via.cut (t := x6) (Via.step (setCare_via ..) rfl (Via.refl _ _)) fun h7 => ?_
    clear_value x6
    extract_lets +onlyGivenNames -merge -underBinder x8
    refine Via.cut (t := x8) (Via.step (modArr_via ..) rfl h7) fun h9 => ?_
    clear_value x8
    exact Via.step (logVerdict_via ..) rfl (Via.step (classifyData_via ..) rfl h9)

theorem execArbitrationStage1_via (fold : Fin 68) (array : Fin 16) (s : State) : Reach [.regs, .views, .log, .folds, .flocks, .care] s (execArbitrationStage1 fold array s) := by
  unfold execArbitrationStage1
  split
  · exact Reach.next (Via.step (stage1_via ..) rfl (Via.refl _ _))
  · exact Reach.next (Via.refl _ _)

end Sys2Proof.Machine
end

