-- ==== Sys2Proof/Laws/ViaAccumulate.lean ====
section
/-! SUPPORT. What each operation of Machine/Accumulate.lean can touch: the pieces it names, and the memories keep their canonical form. -/

namespace Sys2Proof.Machine

open Sys2Proof

theorem tileEcc_via (s : State) (f : Nat) (t : Nat) (e : Ecc) : Via [.regs, .folds, .flocks, .care] s (tileEcc s f t e) := by
  unfold tileEcc
  extract_lets +onlyGivenNames -merge -underBinder y1
  try clear_value y1
  split
  · exact Via.refl _ _
  · exact Via.step (bump_via ..) rfl (Via.refl _ _)
  · extract_lets +onlyGivenNames -merge -underBinder x2
    refine Via.cut (t := x2) (Via.step (modTile_via ..) rfl (Via.refl _ _)) fun h3 => ?_
    clear_value x2
    exact Via.step (dataSuspect_via ..) rfl (Via.step (errEvent_via ..) rfl (Via.step (bump_via ..) rfl h3))

theorem repeatEffects_via (s : State) (f : Nat) (layer : Nat) (passes : Nat) (sat : Bool) : Via [.regs, .folds, .pause] s (repeatEffects s f layer passes sat) := by
  unfold repeatEffects
  extract_lets +onlyGivenNames -merge -underBinder y1
  try clear_value y1
  extract_lets +onlyGivenNames -merge -underBinder x2
  refine Via.cut (t := x2) (Via.ite (Via.step (bump_via ..) rfl (Via.refl _ _)) (Via.refl _ _)) fun h3 => ?_
  clear_value x2
  refine Via.ite h3 (?_)
  · extract_lets +onlyGivenNames -merge -underBinder x4
    refine Via.cut (t := x4) (Via.step (bump_via ..) rfl (Via.step (bump_via ..) rfl h3)) fun h5 => ?_
    clear_value x4
    extract_lets +onlyGivenNames -merge -underBinder x6
    refine Via.cut (t := x6) (Via.step (modFold_via ..) rfl h5) fun h7 => ?_
    clear_value x6
    exact Via.step (askPause_via ..) rfl h7

theorem alignAdd_via (s : State) (f : Nat) (o : ConvOp) (e : Ecc) : Via [.regs, .folds, .flocks, .pause, .care] s (alignAdd s f o e) := by
  unfold alignAdd
  extract_lets +onlyGivenNames -merge -underBinder y1
  try clear_value y1
  extract_lets +onlyGivenNames -merge -underBinder y2
  try clear_value y2
  extract_lets +onlyGivenNames -merge -underBinder x3
  refine Via.cut (t := x3) (Via.step (putFold_via ..) rfl (Via.refl _ _)) fun h4 => ?_
  clear_value x3
  extract_lets +onlyGivenNames -merge -underBinder y5
  try clear_value y5
  split
  · exact h4
  · extract_lets +onlyGivenNames -merge -underBinder x6
    refine Via.cut (t := x6) (Via.step (tileEcc_via ..) rfl h4) fun h7 => ?_
    clear_value x6
    extract_lets +onlyGivenNames -merge -underBinder y8
    try clear_value y8
    extract_lets +onlyGivenNames -merge -underBinder y9
    try clear_value y9
    extract_lets +onlyGivenNames -merge -underBinder x10
    refine Via.cut (t := x10) (Via.step (modTile_via ..) rfl h7) fun h11 => ?_
    clear_value x10
    exact Via.step (repeatEffects_via ..) rfl h11

theorem execAddAlign_via (fold : Fin 68) (ecc : Ecc) (s : State) : Reach [.regs, .folds, .flocks, .pause, .care] s (execAddAlign fold ecc s) := by
  unfold execAddAlign
  split
  · exact Reach.next (Via.refl _ _)
  · exact Reach.next (Via.ite (Via.step (alignAdd_via ..) rfl (Via.refl _ _)) (Via.refl _ _))

theorem issueTclr_via (s : State) (f : Nat) (mode : Nat) (tag : Nat) (te : Int) (rsv : Nat) (t : Nat) : Via [.regs, .views, .log, .folds, .flocks] s (issueTclr s f mode tag te rsv t) := by
  unfold issueTclr
  exact issueWith_via rfl (Via.refl _ _) (Via.step (modFold_via ..) rfl (Via.step (modTile_via ..) rfl (Via.refl _ _)))

theorem execTclr_via (fold : Fin 68) (mode : BitVec 2) (tag : BitVec 8) (te : BitVec 8) (rsv : BitVec 3) (tile : Fin 128) (s : State) : Reach [.regs, .views, .log, .folds, .flocks] s (execTclr fold mode tag te rsv tile s) := by
  unfold execTclr
  exact Reach.next (Via.after (syllable_via rfl (fun _ => Via.step (issueTclr_via ..) rfl (Via.refl _ _))) (Via.refl _ _))

theorem doRound_via (s : State) (f : Nat) (t : Nat) (close : Bool) (desc : Nat) (e : Ecc) : Via [.regs, .folds, .flocks, .care] s (doRound s f t close desc e) := by
  unfold doRound
  extract_lets +onlyGivenNames -merge -underBinder y1
  try clear_value y1
  split
  · extract_lets +onlyGivenNames -merge -underBinder y2
    try clear_value y2
    extract_lets +onlyGivenNames -merge -underBinder y3
    try clear_value y3
    extract_lets +onlyGivenNames -merge -underBinder y4
    try clear_value y4
    extract_lets +onlyGivenNames -merge -underBinder y5
    try clear_value y5
    extract_lets +onlyGivenNames -merge -underBinder x6
    refine Via.cut (t := x6) (Via.step (tileEcc_via ..) rfl (Via.refl _ _)) fun h7 => ?_
    clear_value x6
    extract_lets +onlyGivenNames -merge -underBinder y8
    try clear_value y8
    extract_lets +onlyGivenNames -merge -underBinder y9
    try clear_value y9
    exact Via.step (modFold_via ..) rfl h7

theorem issueTrnd_via (s : State) (f : Nat) (t : Nat) (tag : Nat) (close : Bool) (rsv : Nat) (desc : Nat) (e : Ecc) : Via [.regs, .views, .log, .folds, .flocks, .care] s (issueTrnd s f t tag close rsv desc e) := by
  unfold issueTrnd
  exact issueWith_via rfl (Via.refl _ _) (Via.step (doRound_via ..) rfl (Via.refl _ _))

theorem execTrnd_via (fold : Fin 68) (tile : Fin 128) (tag : BitVec 8) (close : Bool) (rsv : BitVec 3) (desc : Fin 512) (ecc : Ecc) (s : State) : Reach [.regs, .views, .log, .folds, .flocks, .care] s (execTrnd fold tile tag close rsv desc ecc s) := by
  unfold execTrnd
  exact Reach.next (Via.after (syllable_via rfl (fun _ => Via.step (issueTrnd_via ..) rfl (Via.refl _ _))) (Via.refl _ _))

theorem windowEnd_via (s : State) (f : Nat) (t : Trnd) : Via [.regs, .views, .log, .folds, .pause] s (windowEnd s f t) := by
  unfold windowEnd
  extract_lets +onlyGivenNames -merge -underBinder y1
  try clear_value y1
  extract_lets +onlyGivenNames -merge -underBinder y2
  try clear_value y2
  split
  · extract_lets +onlyGivenNames -merge -underBinder x3
    refine Via.cut (t := x3) (Via.step (putFold_via ..) rfl (Via.refl _ _)) fun h4 => ?_
    clear_value x3
    extract_lets +onlyGivenNames -merge -underBinder x5
    refine Via.cut (t := x5) (Via.step (bump_via ..) rfl h4) fun h6 => ?_
    clear_value x5
    exact Via.ite h6 (Via.step (askPause_via ..) rfl (Via.step (modFold_via ..) rfl (Via.step (bump_via ..) rfl (Via.step (setRecipe_via ..) rfl h6))))

theorem execResolveWindowEnd_via (fold : Fin 68) (residue : Bool) (s : State) : Reach [.regs, .views, .log, .folds, .flocks, .pause, .care] s (execResolveWindowEnd fold residue s) := by
  unfold execResolveWindowEnd
  split
  · exact Reach.next (Via.refl _ _)
  · exact Reach.ite (Reach.next (Via.ite (Via.step (residueFail_via ..) rfl (Via.step (windowEnd_via ..) rfl (Via.refl _ _))) (Via.step (windowEnd_via ..) rfl (Via.refl _ _)))) (Reach.next (Via.refl _ _))

theorem writeOutputs_via (s : State) (f : Nat) (t : Trnd) : Via [.mem, .fresh] s (writeOutputs s f t) := by
  unfold writeOutputs
  exact Via.forEach (fun _ _ => Via.step (droveBytes_via ..) rfl (Via.refl _ _)) (Via.refl _ _)

theorem countOutputs_via (s : State) (f : Nat) (t : Trnd) : Via [.regs, .views, .log, .folds] s (countOutputs s f t) := by
  unfold countOutputs
  extract_lets +onlyGivenNames -merge -underBinder y1
  try clear_value y1
  extract_lets +onlyGivenNames -merge -underBinder y2
  try clear_value y2
  extract_lets +onlyGivenNames -merge -underBinder y3
  try clear_value y3
  extract_lets +onlyGivenNames -merge -underBinder y4
  try clear_value y4
  extract_lets +onlyGivenNames -merge -underBinder y5
  try clear_value y5
  extract_lets +onlyGivenNames -merge -underBinder y6
  try clear_value y6
  extract_lets +onlyGivenNames -merge -underBinder x7
  refine Via.cut (t := x7) (Via.step (bump_via ..) rfl (Via.refl _ _)) fun h8 => ?_
  clear_value x7
  extract_lets +onlyGivenNames -merge -underBinder x9
  refine Via.cut (t := x9) (Via.ite (Via.step (bump_via ..) rfl h8) h8) fun h10 => ?_
  clear_value x9
  refine Via.ite (?_) (?_)
  · extract_lets +onlyGivenNames -merge -underBinder x11
    refine Via.cut (t := x11) (Via.step (bump_via ..) rfl (Via.step (bump_via ..) rfl h10)) fun h12 => ?_
    clear_value x11
    exact Via.step (modFold_via ..) rfl h12
  · extract_lets +onlyGivenNames -merge -underBinder y13
    try clear_value y13
    exact Via.ite h10 (Via.step (setRecipe_via ..) rfl (Via.step (bump_via ..) rfl h10))

theorem deliverTrnd_via (s : State) (f : Nat) (t : Trnd) : Via [.regs, .views, .log, .mem, .fresh, .folds] s (deliverTrnd s f t) := by
  unfold deliverTrnd
  extract_lets +onlyGivenNames -merge -underBinder x1
  refine Via.cut (t := x1) (Via.step (modFold_via ..) rfl (Via.refl _ _)) fun h2 => ?_
  clear_value x1
  extract_lets +onlyGivenNames -merge -underBinder x3
  refine Via.cut (t := x3) (Via.step (countOutputs_via ..) rfl (Via.step (writeOutputs_via ..) rfl h2)) fun h4 => ?_
  clear_value x3
  exact Via.step (modTile_via ..) rfl h4

theorem execTrndDeliver_via (fold : Fin 68) (s : State) : Reach [.regs, .views, .log, .mem, .fresh, .folds] s (execTrndDeliver fold s) := by
  unfold execTrndDeliver
  split
  · exact Reach.next (Via.ite (Via.step (deliverTrnd_via ..) rfl (Via.refl _ _)) (Via.refl _ _))
  · exact Reach.next (Via.refl _ _)

theorem doCombine_via (s : State) (f : Nat) (t : Nat) (image : Nat) (e : Ecc) : Via [.regs, .views, .log, .folds, .flocks, .care] s (doCombine s f t image e) := by
  unfold doCombine
  extract_lets +onlyGivenNames -merge -underBinder y1
  try clear_value y1
  extract_lets +onlyGivenNames -merge -underBinder y2
  try clear_value y2
  extract_lets +onlyGivenNames -merge -underBinder y3
  try clear_value y3
  extract_lets +onlyGivenNames -merge -underBinder y4
  try clear_value y4
  extract_lets +onlyGivenNames -merge -underBinder x5
  refine Via.cut (t := x5) (Via.step (modFold_via ..) rfl (Via.refl _ _)) fun h6 => ?_
  clear_value x5
  exact Via.ite (Via.step (modFold_via ..) rfl (Via.step (tileEcc_via ..) rfl h6)) (Via.step (faultHere_via ..) rfl h6)

theorem issueTcmb_via (s : State) (f : Nat) (t : Nat) (tag : Nat) (image : Nat) (e : Ecc) : Via [.regs, .views, .log, .folds, .flocks, .care] s (issueTcmb s f t tag image e) := by
  unfold issueTcmb
  exact issueWith_via rfl (Via.refl _ _) (Via.step (doCombine_via ..) rfl (Via.refl _ _))

theorem execTcmb_via (fold : Fin 68) (tile : Fin 128) (tag : BitVec 8) (image : BitVec 13) (ecc : Ecc) (s : State) : Reach [.regs, .views, .log, .folds, .flocks, .care] s (execTcmb fold tile tag image ecc s) := by
  unfold execTcmb
  exact Reach.next (Via.after (syllable_via rfl (fun _ => Via.step (issueTcmb_via ..) rfl (Via.refl _ _))) (Via.refl _ _))

theorem landCombine_via (s : State) (f : Nat) (k : Combine) (rest : List Combine) : Via [.regs, .folds, .pause] s (landCombine s f k rest) := by
  unfold landCombine
  extract_lets +onlyGivenNames -merge -underBinder y1
  try clear_value y1
  extract_lets +onlyGivenNames -merge -underBinder x2
  refine Via.cut (t := x2) (Via.step (modFold_via ..) rfl (Via.refl _ _)) fun h3 => ?_
  clear_value x2
  extract_lets +onlyGivenNames -merge -underBinder x4
  refine Via.cut (t := x4) (Via.step (modTile_via ..) rfl h3) fun h5 => ?_
  clear_value x4
  exact Via.step (repeatEffects_via ..) rfl h5

theorem execCombineLand_via (fold : Fin 68) (s : State) : Reach [.regs, .folds, .pause] s (execCombineLand fold s) := by
  unfold execCombineLand
  split
  · exact Reach.next (Via.ite (Via.step (landCombine_via ..) rfl (Via.refl _ _)) (Via.refl _ _))
  · exact Reach.next (Via.refl _ _)

end Sys2Proof.Machine
end

