-- ==== Sys2Proof/Laws/ViaChannel.lean ====
section
/-! SUPPORT. What each operation of Machine/Channel.lean can touch: the pieces it names, and the memories keep their canonical form. -/

namespace Sys2Proof.Machine

open Sys2Proof

theorem emit_via (s : State) (o : Out) : Via [.out] s (emit s o) := by
  unfold emit
  exact Via.step (setOut_via ..) rfl (Via.refl _ _)

theorem emitFrame_via (s : State) (o : Out) : Via [.regs, .out] s (emitFrame s o) := by
  unfold emitFrame
  exact Via.step (emit_via ..) rfl (Via.step (bump_via ..) rfl (Via.refl _ _))

theorem putQp_via (s : State) (q : Nat) (x : Qp) : Via [.net] s (putQp s q x) := by
  unfold putQp
  exact Via.step (setNet_via ..) rfl (Via.refl _ _)

theorem post_via (s : State) (q : Nat) (n : Nat) (o : Out) : Via [.regs, .net, .out] s (post s q n o) := by
  unfold post
  extract_lets +onlyGivenNames -merge -underBinder y1
  try clear_value y1
  exact Via.step (emit_via ..) rfl (Via.step (bump_via ..) rfl (Via.step (putQp_via ..) rfl (Via.refl _ _)))

theorem sendRcAck_via (s : State) (q : Nat) (psn : Nat) (nak : Nat) : Via [.regs, .out] s (sendRcAck s q psn nak) := by
  unfold sendRcAck
  exact Via.step (emitFrame_via ..) rfl (Via.refl _ _)

theorem movePsn_via (s : State) (q : Nat) (n : Nat) : Via [.net] s (movePsn s q n) := by
  unfold movePsn
  extract_lets +onlyGivenNames -merge -underBinder y1
  try clear_value y1
  exact Via.step (putQp_via ..) rfl (Via.refl _ _)

theorem noteCe_via (s : State) (q : Nat) : Via [.regs, .net, .out] s (noteCe s q) := by
  unfold noteCe
  extract_lets +onlyGivenNames -merge -underBinder x1
  refine Via.cut (t := x1) (Via.step (bump_via ..) rfl (Via.refl _ _)) fun h2 => ?_
  clear_value x1
  extract_lets +onlyGivenNames -merge -underBinder y3
  try clear_value y3
  exact Via.ite h2 (Via.step (emitFrame_via ..) rfl (Via.step (bump_via ..) rfl (Via.step (putQp_via ..) rfl h2)))

theorem onPacket_via {s : State} {q : Nat} {ce : Bool} {bad : Bool} {g : State → State} {ps : List StatePart} (hb : ([.regs, .net, .out].all fun p => ps.contains p) = true) (hg : ∀ a0, Via ps a0 (g a0)) :
    Via ps s (onPacket s q ce bad g) := by
  unfold onPacket
  exact Via.ite (Via.step (bump_via ..) (within rfl hb) (Via.refl _ _)) (Via.after (hg ..) (Via.ite (Via.step (noteCe_via ..) (within rfl hb) (Via.refl _ _)) (Via.refl _ _)))

theorem nakAhead_via (s : State) (q : Nat) : Via [.regs, .net, .out] s (nakAhead s q) := by
  unfold nakAhead
  extract_lets +onlyGivenNames -merge -underBinder y1
  try clear_value y1
  exact Via.ite (Via.refl _ _) (Via.step (sendRcAck_via ..) rfl (Via.step (putQp_via ..) rfl (Via.refl _ _)))

theorem takePacket_via {s : State} {q : Nat} {k : Pkt} {g : State → State} {dup : State → State} {ps : List StatePart} (hb : ([.regs, .net, .out].all fun p => ps.contains p) = true) (hg : ∀ a0, Via ps a0 (g a0)) (hdup : ∀ a0, Via ps a0 (dup a0)) :
    Via ps s (takePacket s q k g dup) := by
  unfold takePacket
  refine Via.ite (Via.refl _ _) (Via.after (onPacket_via (within rfl hb) (?_)) (Via.refl _ _))
  · intro s1
    extract_lets +onlyGivenNames -merge -underBinder y2
    try clear_value y2
    exact Via.ite (Via.after (hg ..) (Via.refl _ _)) (Via.ite (Via.step (nakAhead_via ..) (within rfl hb) (Via.refl _ _)) (Via.after (hdup ..) (Via.refl _ _)))

theorem ackAgain_via (s : State) (q : Nat) : Via [.regs, .out] s (ackAgain s q) := by
  unfold ackAgain
  exact Via.step (sendRcAck_via ..) rfl (Via.refl _ _)

theorem takePackets_via {s : State} {q : Nat} {n : Nat} {k : Pkt} {g : State → State} {ps : List StatePart} (hb : ([.regs, .net, .out].all fun p => ps.contains p) = true) (hg : ∀ a0, Via ps a0 (g a0)) :
    Via ps s (takePackets s q n k g) := by
  unfold takePackets
  exact Via.after (takePacket_via (within rfl hb) (fun _ => Via.after (hg ..) (Via.step (sendRcAck_via ..) (within rfl hb) (Via.step (movePsn_via ..) (within rfl hb) (Via.refl _ _)))) (fun _ => Via.step (ackAgain_via ..) (within rfl hb) (Via.refl _ _))) (Via.refl _ _)

theorem newQp_via (s : State) (q : Nat) (x : Qp) : Via [.free, .net] s (newQp s q x) := by
  unfold newQp
  split
  · rename_i v1 v2 e3
    refine Via.cut (Via.pair e3 (Via.step (drawNat_via ..) rfl (Via.refl _ _))) fun h4 => ?_
    exact Via.step (putQp_via ..) rfl h4

theorem setTargetQp_via (s : State) (t : Nat) (q : Nat) : Via [.weights] s (setTargetQp s t q) := by
  unfold setTargetQp
  exact Via.step (setWeights_via ..) rfl (Via.refl _ _)

theorem connectTarget_via (s : State) (t : Nat) : Via [.free, .regs, .weights, .net, .out] s (connectTarget s t) := by
  unfold connectTarget
  extract_lets +onlyGivenNames -merge -underBinder y1
  try clear_value y1
  extract_lets +onlyGivenNames -merge -underBinder x2
  refine Via.cut (t := x2) (Via.step (wr_via ..) rfl (Via.refl _ _)) fun h3 => ?_
  clear_value x2
  split
  · exact Via.step (emitFrame_via ..) rfl (Via.step (setTargetQp_via ..) rfl (Via.step (newQp_via ..) rfl h3))
  · exact h3

theorem dropTarget_via (s : State) (t : Nat) : Via [.regs, .weights] s (dropTarget s t) := by
  unfold dropTarget
  exact Via.step (wr_via ..) rfl (Via.step (setTargetQp_via ..) rfl (Via.refl _ _))

theorem dropTargets_via (s : State) (q : Nat) : Via [.regs, .weights] s (dropTargets s q) := by
  unfold dropTargets
  exact Via.forEach (fun _ _ => Via.step (dropTarget_via ..) rfl (Via.refl _ _)) (Via.refl _ _)

theorem putChan_via (s : State) (pen : Nat) (ch : Nat) (c : Chan) : Via [.net] s (putChan s pen ch c) := by
  unfold putChan
  exact Via.step (setNet_via ..) rfl (Via.refl _ _)

theorem modChan_via (s : State) (pen : Nat) (ch : Nat) (g : Chan → Chan) : Via [.net] s (modChan s pen ch g) := by
  unfold modChan
  exact Via.step (putChan_via ..) rfl (Via.refl _ _)

theorem releaseQps_via (s : State) (pen : Nat) (ch : Nat) : Via [.net] s (releaseQps s pen ch) := by
  unfold releaseQps
  exact Via.forEach (fun _ _ => Via.step (putQp_via ..) rfl (Via.refl _ _)) (Via.refl _ _)

theorem sendHost_via (s : State) (pen : Nat) (ch : Nat) (bytes : List Byte) : Via [.regs, .net, .out] s (sendHost s pen ch bytes) := by
  unfold sendHost
  exact Via.ite (Via.step (post_via ..) rfl (Via.refl _ _)) (Via.refl _ _)

theorem clearChan_via (s : State) (pen : Nat) (ch : Nat) : Via [.net] s (clearChan s pen ch) := by
  unfold clearChan
  extract_lets +onlyGivenNames -merge -underBinder x1
  refine Via.cut (t := x1) (Via.step (putChan_via ..) rfl (Via.refl _ _)) fun h2 => ?_
  clear_value x1
  exact Via.step (setNet_via ..) rfl h2

theorem respond_via (s : State) (h : MsgHead) (typ : Nat) (status : Nat) (more : List Byte) : Via [.regs, .net, .out] s (respond s h typ status more) := by
  unfold respond
  refine Via.ite (Via.refl _ _) (?_)
  · extract_lets +onlyGivenNames -merge -underBinder y1
    try clear_value y1
    extract_lets +onlyGivenNames -merge -underBinder x2
    refine Via.cut (t := x2) (Via.ite (Via.step (bump_via ..) rfl (Via.refl _ _)) (Via.refl _ _)) fun h3 => ?_
    clear_value x2
    extract_lets +onlyGivenNames -merge -underBinder x4
    refine Via.cut (t := x4) (Via.step (modChan_via ..) rfl h3) fun h5 => ?_
    clear_value x4
    exact Via.step (sendHost_via ..) rfl h5

theorem turnAway_via (s : State) (h : MsgHead) (typ : Nat) (status : Nat) : Via [.regs, .net, .out] s (turnAway s h typ status) := by
  unfold turnAway
  exact Via.step (sendHost_via ..) rfl (Via.step (bump_via ..) rfl (Via.refl _ _))

theorem duplicate_via (s : State) (h : MsgHead) (typ : Nat) : Via [.regs, .net, .out] s (duplicate s h typ) := by
  unfold duplicate
  extract_lets +onlyGivenNames -merge -underBinder y1
  try clear_value y1
  split
  · exact Via.step (sendHost_via ..) rfl (Via.refl _ _)
  · exact Via.ite (Via.refl _ _) (Via.step (turnAway_via ..) rfl (Via.refl _ _))

theorem message_via {s : State} {h : MsgHead} {typ : Nat} {pens : Bool} {len : Bool} {g : MsgHead → State → State} {ps : List StatePart} (hb : ([.regs, .net, .out].all fun p => ps.contains p) = true) (hg : ∀ a0 a1, Via ps a1 (g a0 a1)) :
    Via ps s (message s h typ pens len g) := by
  unfold message
  refine Via.ite (Via.refl _ _) (?_)
  · extract_lets +onlyGivenNames -merge -underBinder y1
    try clear_value y1
    extract_lets +onlyGivenNames -merge -underBinder y2
    try clear_value y2
    refine Via.ite (?_) (Via.ite (Via.step (turnAway_via ..) (within rfl hb) (Via.refl _ _)) (Via.step (duplicate_via ..) (within rfl hb) (Via.refl _ _)))
    · extract_lets +onlyGivenNames -merge -underBinder x3
      refine Via.cut (t := x3) (Via.step (bump_via ..) (within rfl hb) (Via.step (bump_via ..) (within rfl hb) (Via.refl _ _))) fun h4 => ?_
      clear_value x3
      extract_lets +onlyGivenNames -merge -underBinder x5
      refine Via.cut (t := x5) (Via.step (putChan_via ..) (within rfl hb) h4) fun h6 => ?_
      clear_value x5
      exact Via.ite (Via.step (respond_via ..) (within rfl hb) h6) (Via.ite (Via.step (respond_via ..) (within rfl hb) h6) (Via.after (hg ..) h6))

theorem sendIn_via {s : State} {h : MsgHead} {n : Nat} {g : State → State} {ps : List StatePart} (hb : ([.regs, .net, .out].all fun p => ps.contains p) = true) (hg : ∀ a0, Via ps a0 (g a0)) :
    Via ps s (sendIn s h n g) := by
  unfold sendIn
  exact Via.ite (Via.after (takePackets_via (within rfl hb) (hg)) (Via.refl _ _)) (Via.after (hg ..) (Via.refl _ _))

theorem showSpill_via (s : State) (pen : Nat) (ch : Nat) : Via [.regs] s (showSpill s pen ch) := by
  unfold showSpill
  extract_lets +onlyGivenNames -merge -underBinder y1
  try clear_value y1
  exact Via.step (wr_via ..) rfl (Via.step (wr0_via ..) rfl (Via.refl _ _))

theorem putRecords_via (s : State) (pen ch : Nat) (rs : List (List Byte)) : Via [.regs, .net, .out] s (putRecords s pen ch rs) := by
  induction rs generalizing s with
  | nil => exact Via.refl _ _
  | cons x rs ih =>
    unfold putRecords
    exact Via.trans (Via.step (putChan_via ..) rfl (Via.step (post_via ..) rfl (Via.refl _ _))) (ih _)

theorem drain_via (s : State) (pen : Nat) (ch : Nat) : Via [.regs, .net, .out] s (drain s pen ch) := by
  unfold drain
  extract_lets +onlyGivenNames -merge -underBinder y1
  try clear_value y1
  extract_lets +onlyGivenNames -merge -underBinder y2
  try clear_value y2
  refine Via.ite (?_) (Via.refl _ _)
  · extract_lets +onlyGivenNames -merge -underBinder x3
    refine Via.cut (t := x3) (Via.step (putRecords_via ..) rfl (Via.step (putChan_via ..) rfl (Via.refl _ _))) fun h4 => ?_
    clear_value x3
    exact Via.step (showSpill_via ..) rfl (Via.step (post_via ..) rfl h4)

theorem streamOut_via (s : State) (pen : Nat) (ch : Nat) (rs : List (List Byte)) : Via [.regs, .net, .out] s (streamOut s pen ch rs) := by
  unfold streamOut
  exact Via.ite (Via.refl _ _) (Via.step (showSpill_via ..) rfl (Via.step (drain_via ..) rfl (Via.step (modChan_via ..) rfl (Via.refl _ _))))

end Sys2Proof.Machine
end

