-- ==== Sys2Proof/Laws/ViaLinkOps.lean ====
section
/-! SUPPORT. What each operation of Machine/LinkOps.lean can touch: the pieces it names, and the memories keep their canonical form. -/

namespace Sys2Proof.Machine

open Sys2Proof

theorem putLink_via (s : State) (l : Nat) (x : Link) : Via [.links] s (putLink s l x) := by
  unfold putLink
  exact Via.step (setLinks_via ..) rfl (Via.refl _ _)

theorem modLink_via (s : State) (l : Nat) (g : Link → Link) : Via [.links] s (modLink s l g) := by
  unfold modLink
  exact Via.step (putLink_via ..) rfl (Via.refl _ _)

theorem emitFlit_via (s : State) (l : Nat) (bytes : List Byte) : Via [.links, .out] s (emitFlit s l bytes) := by
  unfold emitFlit
  exact Via.step (emit_via ..) rfl (Via.step (modLink_via ..) rfl (Via.refl _ _))

theorem sendIdle_via (s : State) (l : Nat) : Via [.links, .out] s (sendIdle s l) := by
  unfold sendIdle
  exact Via.ite (Via.step (emitFlit_via ..) rfl (Via.refl _ _)) (Via.refl _ _)

theorem sendNow_via (l : Nat) (s : State) (b : Body) : Via [.regs, .links, .out] s (sendNow l s b) := by
  unfold sendNow
  extract_lets +onlyGivenNames -merge -underBinder y1
  try clear_value y1
  extract_lets +onlyGivenNames -merge -underBinder x2
  refine Via.cut (t := x2) (Via.step (putLink_via ..) rfl (Via.refl _ _)) fun h3 => ?_
  clear_value x2
  exact Via.step (emitFlit_via ..) rfl (Via.step (bump_via ..) rfl h3)

theorem sendSeq_via (s : State) (l : Nat) (b : Body) : Via [.regs, .links, .out] s (sendSeq s l b) := by
  unfold sendSeq
  exact Via.ite (Via.ite (Via.step (sendNow_via ..) rfl (Via.refl _ _)) (Via.step (modLink_via ..) rfl (Via.refl _ _))) (Via.refl _ _)

theorem sendHeld_via (s : State) (l : Nat) : Via [.regs, .links, .out] s (sendHeld s l) := by
  unfold sendHeld
  extract_lets +onlyGivenNames -merge -underBinder y1
  try clear_value y1
  extract_lets +onlyGivenNames -merge -underBinder y2
  try clear_value y2
  exact Via.forEach (fun _ _ => Via.step (sendNow_via ..) rfl (Via.refl _ _)) (Via.step (putLink_via ..) rfl (Via.refl _ _))

theorem sendMarker_via (s : State) (l : Nat) (kind : Nat) (m : Marker) : Via [.regs, .links, .out] s (sendMarker s l kind m) := by
  unfold sendMarker
  exact Via.step (sendSeq_via ..) rfl (Via.refl _ _)

theorem acceptSeq_via (s : State) (l : Nat) : Via [.regs, .links] s (acceptSeq s l) := by
  unfold acceptSeq
  exact Via.step (bump_via ..) rfl (Via.step (modLink_via ..) rfl (Via.refl _ _))

end Sys2Proof.Machine
end

