-- ==== Sys2Proof/Laws/ViaMsgOps.lean ====
section
/-! SUPPORT. What each operation of Machine/MsgOps.lean can touch: the pieces it names, and the memories keep their canonical form. -/

namespace Sys2Proof.Machine

open Sys2Proof

theorem sendMsgFlit_via (s : State) (link : Option Nat) (f : MsgFlit) : Via [.regs, .links, .out] s (sendMsgFlit s link f) := by
  unfold sendMsgFlit
  split
  · exact Via.step (sendSeq_via ..) rfl (Via.refl _ _)
  · exact Via.refl _ _

theorem sendFlits_via (s : State) (link : Option Nat) (dest : Nat) (cls : Nat) (seq : Nat) (data : List Byte) : Via [.regs, .links, .out] s (sendFlits s link dest cls seq data) := by
  unfold sendFlits
  exact Via.forEach (fun _ _ => Via.step (sendMsgFlit_via ..) rfl (Via.refl _ _)) (Via.refl _ _)

theorem putTx_via (s : State) (dest : Nat) (cls : Nat) (t : TxMsgs) : Via [.msgs] s (putTx s dest cls t) := by
  unfold putTx
  exact Via.step (setMsgs_via ..) rfl (Via.refl _ _)

theorem sendMessage_via (s : State) (dest : Nat) (cls : Nat) (data : List Byte) : Via [.regs, .links, .msgs, .out] s (sendMessage s dest cls data).2 := by
  unfold sendMessage
  extract_lets +onlyGivenNames -merge -underBinder y1
  try clear_value y1
  extract_lets +onlyGivenNames -merge -underBinder x2
  refine Via.cut (t := x2) (Via.step (putTx_via ..) rfl (Via.refl _ _)) fun h3 => ?_
  clear_value x2
  try dsimp -zeta only
  exact Via.step (sendFlits_via ..) rfl h3

theorem sendAck_via (s : State) (dest : Nat) (cls : Nat) (seq : Nat) : Via [.regs, .links, .msgs, .out] s (sendAck s dest cls seq) := by
  unfold sendAck
  extract_lets +onlyGivenNames -merge -underBinder y1
  try clear_value y1
  extract_lets +onlyGivenNames -merge -underBinder x2
  refine Via.cut (t := x2) (Via.step (putTx_via ..) rfl (Via.refl _ _)) fun h3 => ?_
  clear_value x2
  exact Via.step (sendFlits_via ..) rfl h3

theorem takeMessage_via {s : State} {source : Nat} {cls : Nat} {seq : Nat} {g : State → State} {ps : List StatePart} (hb : ([.regs, .links, .msgs, .out].all fun p => ps.contains p) = true) (hg : ∀ a0, Via ps a0 (g a0)) :
    Via ps s (takeMessage s source cls seq g) := by
  unfold takeMessage
  extract_lets +onlyGivenNames -merge -underBinder y1
  try clear_value y1
  extract_lets +onlyGivenNames -merge -underBinder y2
  try clear_value y2
  exact Via.ite (Via.after (hg ..) (Via.step (sendAck_via ..) (within rfl hb) (Via.step (setMsgs_via ..) (within rfl hb) (Via.refl _ _)))) (Via.ite (Via.refl _ _) (Via.step (sendAck_via ..) (within rfl hb) (Via.step (bump_via ..) (within rfl hb) (Via.refl _ _))))

theorem takeMsgAck_via (s : State) (dest : Nat) (cls : Nat) (seq : Nat) : Via [.msgs] s (takeMsgAck s dest cls seq) := by
  unfold takeMsgAck
  extract_lets +onlyGivenNames -merge -underBinder y1
  try clear_value y1
  extract_lets +onlyGivenNames -merge -underBinder y2
  try clear_value y2
  refine Via.ite (?_) (Via.refl _ _)
  · extract_lets +onlyGivenNames -merge -underBinder x3
    refine Via.cut (t := x3) (Via.step (putTx_via ..) rfl (Via.refl _ _)) fun h4 => ?_
    clear_value x3
    exact Via.step (setMsgs_via ..) rfl h4

theorem resendMessages_via (s : State) (dest : Nat) (cls : Nat) : Via [.regs, .links, .out] s (resendMessages s dest cls) := by
  unfold resendMessages
  exact Via.forEach (fun _ _ => Via.step (sendFlits_via ..) rfl (Via.refl _ _)) (Via.step (bump_via ..) rfl (Via.refl _ _))

theorem msgTimeout_via (s : State) (dest : Nat) (cls : Nat) : Via [.regs, .views, .log, .links, .msgs, .out] s (msgTimeout s dest cls) := by
  unfold msgTimeout
  refine Via.ite (Via.refl _ _) (?_)
  · extract_lets +onlyGivenNames -merge -underBinder y1
    try clear_value y1
    extract_lets +onlyGivenNames -merge -underBinder y2
    try clear_value y2
    extract_lets +onlyGivenNames -merge -underBinder x3
    refine Via.cut (t := x3) (Via.step (resendMessages_via ..) rfl (Via.step (setMsgs_via ..) rfl (Via.refl _ _))) fun h4 => ?_
    clear_value x3
    refine Via.ite (?_) h4
    · extract_lets +onlyGivenNames -merge -underBinder y5
      try clear_value y5
      extract_lets +onlyGivenNames -merge -underBinder x6
      refine Via.cut (t := x6) (Via.step (setMsgs_via ..) rfl h4) fun h7 => ?_
      clear_value x6
      exact Via.step (logWrite_via ..) rfl (Via.step (errEvent_via ..) rfl (Via.step (bump_via ..) rfl h7))

theorem execMessageTimeout_via (dest : Fin 32768) (cls : Fin 8) (s : State) : Reach [.regs, .views, .log, .links, .msgs, .out] s (execMessageTimeout dest cls s) := by
  unfold execMessageTimeout
  exact Reach.next (Via.step (msgTimeout_via ..) rfl (Via.refl _ _))

end Sys2Proof.Machine
end

