-- ==== Sys2Proof/Laws/ViaJournal.lean ====
section
/-! SUPPORT. What each operation of Machine/Journal.lean can touch: the pieces it names, and the memories keep their canonical form. -/

namespace Sys2Proof.Machine

open Sys2Proof

theorem sendMirror_via (s : State) (p : Nat) (part : Nat) (off : Nat) (data : List Byte) : Via [.regs, .links, .msgs, .out] s (sendMirror s p part off data).2 := by
  unfold sendMirror
  exact Via.step (sendMessage_via ..) rfl (Via.refl _ _)

theorem storeMirror_via (s : State) (data : List Byte) : Via [.regs, .views, .log, .mem, .fresh, .care] s (storeMirror s data) := by
  unfold storeMirror
  extract_lets +onlyGivenNames -merge -underBinder y1
  try clear_value y1
  exact Via.step (coreWrite_via ..) rfl (Via.refl _ _)

theorem putEntry_via (s : State) (p : Nat) (flock : Nat) (typ : Nat) (st : Nat) (units : Nat) (pos : Nat) (total : Nat) (body : List Byte) : Via [.regs, .views, .log, .mem, .fresh, .care, .links, .msgs, .out] s (putEntry s p flock typ st units pos total body).2 := by
  unfold putEntry
  extract_lets +onlyGivenNames -merge -underBinder y1
  try clear_value y1
  extract_lets +onlyGivenNames -merge -underBinder y2
  try clear_value y2
  extract_lets +onlyGivenNames -merge -underBinder y3
  try clear_value y3
  extract_lets +onlyGivenNames -merge -underBinder y4
  try clear_value y4
  extract_lets +onlyGivenNames -merge -underBinder x5
  refine Via.cut (t := x5) (Via.ite (Via.step (bump_via ..) rfl (Via.refl _ _)) (Via.refl _ _)) fun h6 => ?_
  clear_value x5
  extract_lets +onlyGivenNames -merge -underBinder x7
  refine Via.cut (t := x7) (Via.step (coreWrite_via ..) rfl h6) fun h8 => ?_
  clear_value x7
  extract_lets +onlyGivenNames -merge -underBinder x9
  refine Via.cut (t := x9) (Via.step (wr0_via ..) rfl (Via.step (wr0_via ..) rfl h8)) fun h10 => ?_
  clear_value x9
  extract_lets +onlyGivenNames -merge -underBinder x11
  refine Via.cut (t := x11) (Via.ite (Via.step (sendMirror_via ..) rfl h10) h10) fun h12 => ?_
  clear_value x11
  try dsimp -zeta only
  exact h12

theorem journal_via (s : State) (p : Nat) (k : Nat) (typ : Nat) (st : Nat) (pos : Nat) (body : List Byte) : Via [.regs, .views, .log, .mem, .fresh, .care, .links, .msgs, .out] s (journal s p k typ st pos body).2 := by
  unfold journal
  extract_lets +onlyGivenNames -merge -underBinder y1
  try clear_value y1
  extract_lets +onlyGivenNames -merge -underBinder y2
  try clear_value y2
  extract_lets +onlyGivenNames -merge -underBinder y3
  try clear_value y3
  refine Via.ite2 (Via.refl _ _) (Via.ite2 (?_) (Via.step (putEntry_via ..) rfl (Via.refl _ _)))
  · extract_lets +onlyGivenNames -merge -underBinder x4
    refine Via.cut (t := x4) (Via.step (putEntry_via ..) rfl (Via.refl _ _)) fun h5 => ?_
    clear_value x4
    exact Via.step (putEntry_via ..) rfl h5

theorem journalHere_via (s : State) (p : Nat) (k : Nat) (typ : Nat) (body : List Byte) : Via [.regs, .views, .log, .mem, .fresh, .care, .links, .msgs, .out] s (journalHere s p k typ body) := by
  unfold journalHere
  exact Via.step (journal_via ..) rfl (Via.refl _ _)

theorem setEntry_via (s : State) (p : Nat) (a : Nat) (st : Nat) : Via [.regs, .views, .log, .mem, .fresh, .care, .links, .msgs, .out] s (setEntry s p a st) := by
  unfold setEntry
  extract_lets +onlyGivenNames -merge -underBinder x1
  refine Via.cut (t := x1) (Via.step (coreWrite_via ..) rfl (Via.refl _ _)) fun h2 => ?_
  clear_value x1
  exact Via.ite (Via.step (sendMirror_via ..) rfl h2) h2

theorem settlePlaces_via (s : State) (k : Nat) (n : Nat) (st : Nat) : Via [.regs, .views, .log, .mem, .fresh, .care, .links, .msgs, .drover, .out] s (settlePlaces s k n st) := by
  unfold settlePlaces
  extract_lets +onlyGivenNames -merge -underBinder y1
  try clear_value y1
  extract_lets +onlyGivenNames -merge -underBinder x2
  refine Via.cut (t := x2) (Via.forEach (fun _ _ => Via.step (setEntry_via ..) rfl (Via.refl _ _)) (Via.refl _ _)) fun h3 => ?_
  clear_value x2
  exact Via.step (setDrover_via ..) rfl h3

theorem journalConfig_via (s : State) (page : Nat) (off : Nat) (v : Nat) : Via [.regs, .views, .log, .mem, .fresh, .care, .links, .msgs, .out] s (journalConfig s page off v) := by
  unfold journalConfig
  refine Via.forEach (?_) (Via.refl _ _)
  · intro s1 a2
    split
    · exact Via.ite (Via.step (journalHere_via ..) rfl (Via.refl _ _)) (Via.refl _ _)
    · exact Via.refl _ _

end Sys2Proof.Machine
end

