-- ==== Sys2Proof/Laws/ViaRequests.lean ====
section
/-! SUPPORT. What each operation of Machine/Requests.lean can touch: the pieces it names, and the memories keep their canonical form. -/

namespace Sys2Proof.Machine

open Sys2Proof

theorem putReq_via (s : State) (r : Request) : Via [.drover] s (putReq s r) := by
  unfold putReq
  exact Via.step (setDrover_via ..) rfl (Via.refl _ _)

theorem putServing_via (s : State) (k : Nat) (x : Serving) : Via [.drover] s (putServing s k x) := by
  unfold putServing
  exact Via.step (setDrover_via ..) rfl (Via.refl _ _)

theorem checkDrained_via (s : State) (p : Nat) (k : Nat) : Via [.regs, .views, .log] s (checkDrained s p k) := by
  unfold checkDrained
  exact Via.ite (Via.step (logWrite_via ..) rfl (Via.step (wr_via ..) rfl (Via.refl _ _))) (Via.refl _ _)

theorem pinEpoch_via (s : State) (p : Nat) (id : Nat) (more : Bool) : Via [.regs, .views, .log] s (pinEpoch s p id more) := by
  unfold pinEpoch
  split
  · extract_lets +onlyGivenNames -merge -underBinder y1
    try clear_value y1
    exact Via.ite (Via.step (wr_via ..) rfl (Via.refl _ _)) (Via.step (checkDrained_via ..) rfl (Via.step (wr_via ..) rfl (Via.refl _ _)))
  · exact Via.refl _ _

theorem putPfx_via (s : State) (p : Nat) (i : Nat) (e : PfxEntry) : Via [.regs, .views, .log, .mem, .fresh, .care] s (putPfx s p i e) := by
  unfold putPfx
  exact Via.step (coreWrite_via ..) rfl (Via.refl _ _)

theorem reserveRun_via (s : State) (p nb n : Nat) (es : List (Nat × PfxEntry)) : Via [.regs, .views, .log, .mem, .fresh, .care] s (reserveRun s p nb n es).2 := by
  induction es generalizing s with
  | nil => exact Via.refl _ _
  | cons e es ih =>
    unfold reserveRun
    split
    · exact Via.refl _ _
    · exact Via.trans (Via.step (putPfx_via ..) rfl (Via.step (bump_via ..) rfl (Via.refl _ _))) (ih _)

theorem matchBlocks_via (s : State) (p : Nat) (t : LaneTable) (prompt : List Nat) (epoch : Nat) (ks : List (Nat × Nat)) (acc : List Nat) :
    Via [.regs, .views, .log, .mem, .fresh, .care] s (matchBlocks s p t prompt epoch ks acc).2 := by
  induction ks generalizing s acc with
  | nil => exact Via.refl _ _
  | cons x ks ih =>
    obtain ⟨i, key⟩ := x
    unfold matchBlocks
    extract_lets +onlyGivenNames -merge -underBinder t1
    split
    · exact Via.step (bump_via ..) rfl (Via.refl _ _)
    · extract_lets +onlyGivenNames -merge -underBinder ok
      refine Via.ite2 (Via.step (bump_via ..) rfl (Via.step (bump_via ..) rfl (Via.refl _ _))) (Via.ite2 (Via.step (bump_via ..) rfl (Via.refl _ _)) ?_)
      exact Via.trans (Via.step (putPfx_via ..) rfl (Via.step (bump_via ..) rfl (Via.step (bump_via ..) rfl (Via.refl _ _)))) (ih _ _)

theorem dropRefs_via (s : State) (r : Request) (n : Nat) : Via [.regs, .views, .log, .mem, .fresh, .care] s (dropRefs s r n) := by
  unfold dropRefs
  refine Via.forEach (?_) (Via.refl _ _)
  · intro s1 a2
    split
    · exact Via.ite (Via.step (putPfx_via ..) rfl (Via.refl _ _)) (Via.refl _ _)
    · exact Via.refl _ _

theorem writeTokens_via (s : State) (r : Request) (t : LaneTable) : Via [.regs, .views, .log, .mem, .fresh, .care] s (writeTokens s r t) := by
  unfold writeTokens
  refine Via.forEach (?_) (Via.refl _ _)
  · intro s1 a2
    extract_lets +onlyGivenNames -merge -underBinder y3
    try clear_value y3
    extract_lets +onlyGivenNames -merge -underBinder y4
    try clear_value y4
    exact Via.ite (Via.refl _ _) (Via.step (coreWrite_via ..) rfl (Via.refl _ _))

theorem reserve_via (s : State) (r : Request) : Via [.regs, .views, .log, .mem, .fresh, .care, .drover] s (reserve s r).2 := by
  unfold reserve
  extract_lets +onlyGivenNames -merge -underBinder y1
  try clear_value y1
  extract_lets +onlyGivenNames -merge -underBinder y2
  try clear_value y2
  extract_lets +onlyGivenNames -merge -underBinder y3
  try clear_value y3
  split
  · rename_i v4 v5 e6
    refine Via.cut (Via.pair e6 (Via.step (matchBlocks_via ..) rfl (Via.refl _ _))) fun h7 => ?_
    extract_lets +onlyGivenNames -merge -underBinder y8
    try clear_value y8
    split
    · rename_i v9 v10 e11
      refine Via.cut (Via.pair e11 (Via.step (reserveRun_via ..) rfl (Via.step (putReq_via ..) rfl h7))) fun h12 => ?_
      split
      · extract_lets +onlyGivenNames -merge -underBinder y13
        try clear_value y13
        try dsimp -zeta only
        exact Via.step (writeTokens_via ..) rfl (Via.step (putReq_via ..) rfl h12)
      · try dsimp -zeta only
        exact Via.step (putReq_via ..) rfl (Via.step (dropRefs_via ..) rfl h12)

theorem unreserve_via (s : State) (r : Request) : Via [.regs, .views, .log, .mem, .fresh, .care, .drover] s (unreserve s r) := by
  unfold unreserve
  exact Via.step (putReq_via ..) rfl (Via.step (dropRefs_via ..) rfl (Via.refl _ _))

theorem insertBlock_via (s : State) (r : Request) (i : Nat) : Via [.regs, .views, .log, .mem, .fresh, .care] s (insertBlock s r i).2 := by
  unfold insertBlock
  extract_lets +onlyGivenNames -merge -underBinder y1
  try clear_value y1
  extract_lets +onlyGivenNames -merge -underBinder y2
  try clear_value y2
  extract_lets +onlyGivenNames -merge -underBinder y3
  try clear_value y3
  refine Via.ite2 (Via.step (bump_via ..) rfl (Via.refl _ _)) (?_)
  · split
    · try dsimp -zeta only
      exact Via.step (bump_via ..) rfl (Via.refl _ _)
    · extract_lets +onlyGivenNames -merge -underBinder y4
      try clear_value y4
      try dsimp -zeta only
      exact Via.step (putPfx_via ..) rfl (Via.step (bump_via ..) rfl (Via.refl _ _))

theorem insertBlocks_via (s : State) (r : Request) (done done' : Nat) : Via [.regs, .views, .log, .mem, .fresh, .care] s (insertBlocks s r done done').2 := by
  unfold insertBlocks
  refine Via.fold2 _ _ ?_ _ (Via.refl _ _)
  intro b s i
  exact Via.ite2 (Via.step (insertBlock_via ..) rfl (Via.refl _ _)) (Via.refl _ _)

theorem sendRecords_via (s : State) (p : Nat) (ch : Nat) (rs : List (List Byte)) : Via [.regs, .views, .log, .drover, .net, .out] s (sendRecords s p ch rs) := by
  unfold sendRecords
  extract_lets +onlyGivenNames -merge -underBinder x1
  refine Via.cut (t := x1) (Via.step (streamOut_via ..) rfl (Via.refl _ _)) fun h2 => ?_
  clear_value x1
  extract_lets +onlyGivenNames -merge -underBinder y3
  try clear_value y3
  refine Via.ite h2 (?_)
  · extract_lets +onlyGivenNames -merge -underBinder x4
    refine Via.cut (t := x4) (Via.step (modChan_via ..) rfl h2) fun h5 => ?_
    clear_value x4
    extract_lets +onlyGivenNames -merge -underBinder x6
    refine Via.cut (t := x6) (Via.step (wr_via ..) rfl (Via.step (wr_via ..) rfl h5)) fun h7 => ?_
    clear_value x6
    extract_lets +onlyGivenNames -merge -underBinder x8
    refine Via.cut (t := x8) (Via.step (bump_via ..) rfl h7) fun h9 => ?_
    clear_value x8
    extract_lets +onlyGivenNames -merge -underBinder x10
    refine Via.cut (t := x10) (Via.step (logWrite_via ..) rfl (Via.step (errEvent_via ..) rfl h9)) fun h11 => ?_
    clear_value x10
    exact Via.step (setDrover_via ..) rfl h11

theorem freeReq_via (s : State) (r : Request) : Via [.regs, .views, .log, .mem, .fresh, .care, .drover] s (freeReq s r) := by
  unfold freeReq
  extract_lets +onlyGivenNames -merge -underBinder x1
  refine Via.cut (t := x1) (Via.ite (Via.refl _ _) (Via.step (dropRefs_via ..) rfl (Via.refl _ _))) fun h2 => ?_
  clear_value x1
  extract_lets +onlyGivenNames -merge -underBinder y3
  try clear_value y3
  extract_lets +onlyGivenNames -merge -underBinder y4
  try clear_value y4
  extract_lets +onlyGivenNames -merge -underBinder x5
  refine Via.cut (t := x5) (Via.step (setDrover_via ..) rfl h2) fun h6 => ?_
  clear_value x5
  exact Via.step (pinEpoch_via ..) rfl h6

theorem endReq_via (s : State) (r : Request) (status : Nat) : Via [.regs, .views, .log, .mem, .fresh, .care, .drover, .net, .out] s (endReq s r status) := by
  unfold endReq
  exact Via.step (sendRecords_via ..) rfl (Via.step (freeReq_via ..) rfl (Via.refl _ _))

theorem journalEnd_via (s : State) (r : Request) (status : Nat) : Via [.regs, .views, .log, .mem, .fresh, .care, .links, .msgs, .out] s (journalEnd s r status) := by
  unfold journalEnd
  exact Via.step (journalHere_via ..) rfl (Via.refl _ _)

theorem loseReq_via (s : State) (r : Request) : Via [.regs, .views, .log, .mem, .fresh, .care, .links, .msgs, .drover, .net, .out] s (loseReq s r) := by
  unfold loseReq
  exact Via.step (endReq_via ..) rfl (Via.step (journalEnd_via ..) rfl (Via.step (bump_via ..) rfl (Via.refl _ _)))

theorem loseLine_via (s : State) (region : Nat) (addr : Nat) : Via [.regs, .views, .log, .mem, .fresh, .care, .links, .msgs, .drover, .net, .out] s (loseLine s region addr) := by
  unfold loseLine
  refine Via.forEach (?_) (Via.refl _ _)
  · intro s1 a2
    split
    · exact Via.refl _ _
    · refine Via.ite (Via.ite (?_) (Via.refl _ _)) (Via.ite (Via.forEach (?_) (Via.refl _ _)) (Via.refl _ _))
      · extract_lets +onlyGivenNames -merge -underBinder y3
        try clear_value y3
        exact Via.step (putPfx_via ..) rfl (Via.refl _ _)
      · intro s4 a5
        extract_lets +onlyGivenNames -merge -underBinder y6
        try clear_value y6
        refine Via.ite (?_) (Via.refl _ _)
        · extract_lets +onlyGivenNames -merge -underBinder y7
          try clear_value y7
          extract_lets +onlyGivenNames -merge -underBinder y8
          try clear_value y8
          extract_lets +onlyGivenNames -merge -underBinder x9
          refine Via.cut (t := x9) (Via.forEach (fun _ _ => Via.step (loseReq_via ..) rfl (Via.refl _ _)) (Via.refl _ _)) fun h10 => ?_
          clear_value x9
          exact Via.forEach (fun _ _ => Via.step (putPfx_via ..) rfl (Via.refl _ _)) h10

theorem loseLines_via (s : State) : Via [.regs, .views, .log, .mem, .fresh, .care, .links, .msgs, .drover, .net, .out] s (loseLines s) := by
  unfold loseLines
  exact Via.forEach (fun _ _ => Via.step (loseLine_via ..) rfl (Via.refl _ _)) (Via.step (setCare_via ..) rfl (Via.refl _ _))

theorem cancelLanes_via (s : State) (k : Nat) (lanes : List Nat) : Via [.folds] s (cancelLanes s k lanes) := by
  unfold cancelLanes
  extract_lets +onlyGivenNames -merge -underBinder y1
  try clear_value y1
  exact Via.forEach (fun _ _ => Via.step (modFold_via ..) rfl (Via.refl _ _)) (Via.refl _ _)

theorem abortReq_via (s : State) (r : Request) : Via [.regs, .views, .log, .mem, .fresh, .folds, .care, .drover, .net, .out] s (abortReq s r) := by
  unfold abortReq
  exact Via.ite (Via.step (endReq_via ..) rfl (Via.refl _ _)) (Via.ite (Via.ite (Via.refl _ _) (Via.step (putReq_via ..) rfl (Via.step (bump_via ..) rfl (Via.refl _ _)))) (Via.step (endReq_via ..) rfl (Via.step (cancelLanes_via ..) rfl (Via.step (bump_via ..) rfl (Via.refl _ _)))))

theorem unknownAbort_via (s : State) (p : Nat) (handle : Nat) : Via [.regs, .views, .log, .mem, .fresh, .care, .links, .msgs, .out] s (unknownAbort s p handle) := by
  unfold unknownAbort
  split
  · exact Via.step (journalHere_via ..) rfl (Via.refl _ _)
  · exact Via.refl _ _

theorem abortHandle_via (s : State) (p : Nat) (handle : Nat) (tag : Nat) : Via [.regs, .views, .log, .mem, .fresh, .folds, .care, .links, .msgs, .drover, .net, .out] s (abortHandle s p handle tag).2.2 := by
  unfold abortHandle
  split
  · extract_lets +onlyGivenNames -merge -underBinder x1
    refine Via.cut (t := x1) (Via.step (journalHere_via ..) rfl (Via.refl _ _)) fun h2 => ?_
    clear_value x1
    try dsimp -zeta only
    try dsimp -zeta only
    exact Via.step (abortReq_via ..) rfl h2
  · split
    · extract_lets +onlyGivenNames -merge -underBinder x3
      refine Via.cut (t := x3) (Via.step (journalHere_via ..) rfl (Via.refl _ _)) fun h4 => ?_
      clear_value x3
      try dsimp -zeta only
      try dsimp -zeta only
      exact Via.step (bump_via ..) rfl h4
    · try dsimp -zeta only
      try dsimp -zeta only
      exact Via.step (unknownAbort_via ..) rfl (Via.refl _ _)

end Sys2Proof.Machine
end

