-- ==== Sys2Proof/Laws/ViaVector.lean ====
section
/-! SUPPORT. What each operation of Machine/Vector.lean can touch: the pieces it names, and the memories keep their canonical form. -/

namespace Sys2Proof.Machine

open Sys2Proof

theorem vecResult_via (s : State) (f : Nat) (op : VOp) (v : VArgs) : Via [.free] s (vecResult s f op v).2 := by
  unfold vecResult
  extract_lets +onlyGivenNames -merge -underBinder y1
  try clear_value y1
  extract_lets +onlyGivenNames -merge -underBinder y2
  try clear_value y2
  split
  · try dsimp -zeta only
    exact Via.refl _ _
  · try dsimp -zeta only
    exact Via.refl _ _
  · try dsimp -zeta only
    exact Via.refl _ _
  · try dsimp -zeta only
    exact Via.refl _ _
  · try dsimp -zeta only
    exact Via.refl _ _
  · try dsimp -zeta only
    exact Via.refl _ _
  · extract_lets +onlyGivenNames -merge -underBinder y3
    try clear_value y3
    try dsimp -zeta only
    exact Via.refl _ _
  · try dsimp -zeta only
    exact Via.refl _ _
  · try dsimp -zeta only
    exact Via.refl _ _
  · try dsimp -zeta only
    exact Via.refl _ _
  · try dsimp -zeta only
    exact Via.refl _ _
  · try dsimp -zeta only
    exact Via.refl _ _
  · try dsimp -zeta only
    exact Via.refl _ _
  · try dsimp -zeta only
    exact Via.refl _ _
  · try dsimp -zeta only
    exact Via.refl _ _
  · try dsimp -zeta only
    exact Via.refl _ _
  · split
    · rename_i v4 v5 e6
      refine Via.cut (Via.pair e6 (Via.step (drawNat_via ..) rfl (Via.refl _ _))) fun h7 => ?_
      try dsimp -zeta only
      exact h7
  · split
    · rename_i v8 v9 e10
      refine Via.cut (Via.pair e10 (Via.step (drawNat_via ..) rfl (Via.refl _ _))) fun h11 => ?_
      try dsimp -zeta only
      exact h11
  · extract_lets +onlyGivenNames -merge -underBinder y12
    try clear_value y12
    extract_lets +onlyGivenNames -merge -underBinder y13
    try clear_value y13
    try dsimp -zeta only
    exact Via.refl _ _
  · extract_lets +onlyGivenNames -merge -underBinder y14
    try clear_value y14
    extract_lets +onlyGivenNames -merge -underBinder y15
    try clear_value y15
    extract_lets +onlyGivenNames -merge -underBinder y16
    try clear_value y16
    extract_lets +onlyGivenNames -merge -underBinder y17
    try clear_value y17
    try dsimp -zeta only
    exact Via.refl _ _
  · extract_lets +onlyGivenNames -merge -underBinder y18
    try clear_value y18
    extract_lets +onlyGivenNames -merge -underBinder y19
    try clear_value y19
    extract_lets +onlyGivenNames -merge -underBinder y20
    try clear_value y20
    try dsimp -zeta only
    exact Via.refl _ _
  · try dsimp -zeta only
    exact Via.refl _ _
  · try dsimp -zeta only
    exact Via.refl _ _

theorem vecOutcome_via (s : State) (f : Nat) (op : VOp) (v : VArgs) : Via [.free, .regs] s (vecOutcome s f op v).2 := by
  unfold vecOutcome
  exact Via.ite2 (Via.step (bump_via ..) rfl (Via.refl _ _)) (Via.step (vecResult_via ..) rfl (Via.refl _ _))

theorem doVec_via (s : State) (f : Nat) (op : VOp) (v : VArgs) : Via [.free, .regs, .mem, .fresh, .folds] s (doVec s f op v) := by
  unfold doVec
  extract_lets +onlyGivenNames -merge -underBinder y1
  try clear_value y1
  extract_lets +onlyGivenNames -merge -underBinder y2
  try clear_value y2
  split
  · rename_i v3 v4 e5
    refine Via.cut (Via.pair e5 (Via.step (vecOutcome_via ..) rfl (Via.refl _ _))) fun h6 => ?_
    extract_lets +onlyGivenNames -merge -underBinder x7
    refine Via.cut (t := x7) (Via.step (modFold_via ..) rfl h6) fun h8 => ?_
    clear_value x7
    exact Via.step (bump_via ..) rfl (Via.step (droveBytes_via ..) rfl h8)

theorem issueVec_via (s : State) (f : Nat) (op : VOp) (q : VecSyl) : Via [.free, .regs, .views, .log, .mem, .fresh, .folds, .flocks] s (issueVec s f op q) := by
  unfold issueVec
  exact issueWith_via rfl (Via.refl _ _) (Via.step (doVec_via ..) rfl (Via.refl _ _))

theorem vecSyllable_via (s : State) (f : Nat) (op : VOp) (q : VecSyl) : Via [.free, .regs, .views, .log, .mem, .fresh, .folds, .flocks, .care] s (vecSyllable s f op q) := by
  unfold vecSyllable
  exact Via.after (syllable_via rfl (fun _ => Via.ite (Via.step (residueFail_via ..) rfl (Via.step (issueVec_via ..) rfl (Via.refl _ _))) (Via.step (issueVec_via ..) rfl (Via.refl _ _)))) (Via.refl _ _)

theorem execVadd_via (fold : Fin 68) (v : VecSyl) (s : State) : Reach [.free, .regs, .views, .log, .mem, .fresh, .folds, .flocks, .care] s (execVadd fold v s) := by
  unfold execVadd
  exact Reach.next (Via.step (vecSyllable_via ..) rfl (Via.refl _ _))

theorem execVsub_via (fold : Fin 68) (v : VecSyl) (s : State) : Reach [.free, .regs, .views, .log, .mem, .fresh, .folds, .flocks, .care] s (execVsub fold v s) := by
  unfold execVsub
  exact Reach.next (Via.step (vecSyllable_via ..) rfl (Via.refl _ _))

theorem execVmul_via (fold : Fin 68) (v : VecSyl) (s : State) : Reach [.free, .regs, .views, .log, .mem, .fresh, .folds, .flocks, .care] s (execVmul fold v s) := by
  unfold execVmul
  exact Reach.next (Via.step (vecSyllable_via ..) rfl (Via.refl _ _))

theorem execVfma_via (fold : Fin 68) (v : VecSyl) (s : State) : Reach [.free, .regs, .views, .log, .mem, .fresh, .folds, .flocks, .care] s (execVfma fold v s) := by
  unfold execVfma
  exact Reach.next (Via.step (vecSyllable_via ..) rfl (Via.refl _ _))

theorem execVmax_via (fold : Fin 68) (v : VecSyl) (s : State) : Reach [.free, .regs, .views, .log, .mem, .fresh, .folds, .flocks, .care] s (execVmax fold v s) := by
  unfold execVmax
  exact Reach.next (Via.step (vecSyllable_via ..) rfl (Via.refl _ _))

theorem execVmin_via (fold : Fin 68) (v : VecSyl) (s : State) : Reach [.free, .regs, .views, .log, .mem, .fresh, .folds, .flocks, .care] s (execVmin fold v s) := by
  unfold execVmin
  exact Reach.next (Via.step (vecSyllable_via ..) rfl (Via.refl _ _))

theorem execVcmplt_via (fold : Fin 68) (v : VecSyl) (s : State) : Reach [.free, .regs, .views, .log, .mem, .fresh, .folds, .flocks, .care] s (execVcmplt fold v s) := by
  unfold execVcmplt
  exact Reach.next (Via.step (vecSyllable_via ..) rfl (Via.refl _ _))

theorem execVwide_via (fold : Fin 68) (v : VecSyl) (s : State) : Reach [.free, .regs, .views, .log, .mem, .fresh, .folds, .flocks, .care] s (execVwide fold v s) := by
  unfold execVwide
  exact Reach.next (Via.step (vecSyllable_via ..) rfl (Via.refl _ _))

theorem execVnarr_via (fold : Fin 68) (v : VecSyl) (s : State) : Reach [.free, .regs, .views, .log, .mem, .fresh, .folds, .flocks, .care] s (execVnarr fold v s) := by
  unfold execVnarr
  exact Reach.next (Via.step (vecSyllable_via ..) rfl (Via.refl _ _))

theorem execVdec_via (fold : Fin 68) (v : VecSyl) (s : State) : Reach [.free, .regs, .views, .log, .mem, .fresh, .folds, .flocks, .care] s (execVdec fold v s) := by
  unfold execVdec
  exact Reach.next (Via.step (vecSyllable_via ..) rfl (Via.refl _ _))

theorem execVexp_via (fold : Fin 68) (v : VecSyl) (s : State) : Reach [.free, .regs, .views, .log, .mem, .fresh, .folds, .flocks, .care] s (execVexp fold v s) := by
  unfold execVexp
  exact Reach.next (Via.step (vecSyllable_via ..) rfl (Via.refl _ _))

theorem execVrcp_via (fold : Fin 68) (v : VecSyl) (s : State) : Reach [.free, .regs, .views, .log, .mem, .fresh, .folds, .flocks, .care] s (execVrcp fold v s) := by
  unfold execVrcp
  exact Reach.next (Via.step (vecSyllable_via ..) rfl (Via.refl _ _))

theorem execVrsq_via (fold : Fin 68) (v : VecSyl) (s : State) : Reach [.free, .regs, .views, .log, .mem, .fresh, .folds, .flocks, .care] s (execVrsq fold v s) := by
  unfold execVrsq
  exact Reach.next (Via.step (vecSyllable_via ..) rfl (Via.refl _ _))

theorem execVsilu_via (fold : Fin 68) (v : VecSyl) (s : State) : Reach [.free, .regs, .views, .log, .mem, .fresh, .folds, .flocks, .care] s (execVsilu fold v s) := by
  unfold execVsilu
  exact Reach.next (Via.step (vecSyllable_via ..) rfl (Via.refl _ _))

theorem execVgelu_via (fold : Fin 68) (v : VecSyl) (s : State) : Reach [.free, .regs, .views, .log, .mem, .fresh, .folds, .flocks, .care] s (execVgelu fold v s) := by
  unfold execVgelu
  exact Reach.next (Via.step (vecSyllable_via ..) rfl (Via.refl _ _))

theorem execVrope_via (fold : Fin 68) (v : VecSyl) (s : State) : Reach [.free, .regs, .views, .log, .mem, .fresh, .folds, .flocks, .care] s (execVrope fold v s) := by
  unfold execVrope
  exact Reach.next (Via.step (vecSyllable_via ..) rfl (Via.refl _ _))

theorem execVrsum_via (fold : Fin 68) (v : VecSyl) (s : State) : Reach [.free, .regs, .views, .log, .mem, .fresh, .folds, .flocks, .care] s (execVrsum fold v s) := by
  unfold execVrsum
  exact Reach.next (Via.step (vecSyllable_via ..) rfl (Via.refl _ _))

theorem execVrmax_via (fold : Fin 68) (v : VecSyl) (s : State) : Reach [.free, .regs, .views, .log, .mem, .fresh, .folds, .flocks, .care] s (execVrmax fold v s) := by
  unfold execVrmax
  exact Reach.next (Via.step (vecSyllable_via ..) rfl (Via.refl _ _))

theorem execVargmx_via (fold : Fin 68) (v : VecSyl) (s : State) : Reach [.free, .regs, .views, .log, .mem, .fresh, .folds, .flocks, .care] s (execVargmx fold v s) := by
  unfold execVargmx
  exact Reach.next (Via.step (vecSyllable_via ..) rfl (Via.refl _ _))

theorem execVdraw_via (fold : Fin 68) (v : VecSyl) (s : State) : Reach [.free, .regs, .views, .log, .mem, .fresh, .folds, .flocks, .care] s (execVdraw fold v s) := by
  unfold execVdraw
  exact Reach.next (Via.step (vecSyllable_via ..) rfl (Via.refl _ _))

theorem execVwalk_via (fold : Fin 68) (v : VecSyl) (s : State) : Reach [.free, .regs, .views, .log, .mem, .fresh, .folds, .flocks, .care] s (execVwalk fold v s) := by
  unfold execVwalk
  exact Reach.next (Via.step (vecSyllable_via ..) rfl (Via.refl _ _))

theorem execVqmx4_via (fold : Fin 68) (v : VecSyl) (s : State) : Reach [.free, .regs, .views, .log, .mem, .fresh, .folds, .flocks, .care] s (execVqmx4 fold v s) := by
  unfold execVqmx4
  exact Reach.next (Via.step (vecSyllable_via ..) rfl (Via.refl _ _))

theorem execVqi4_via (fold : Fin 68) (v : VecSyl) (s : State) : Reach [.free, .regs, .views, .log, .mem, .fresh, .folds, .flocks, .care] s (execVqi4 fold v s) := by
  unfold execVqi4
  exact Reach.next (Via.step (vecSyllable_via ..) rfl (Via.refl _ _))

end Sys2Proof.Machine
end

