-- ==== Sys2Proof/Laws/ViaTransfers.lean ====
section
/-! SUPPORT. What each operation of Machine/Transfers.lean can touch: the pieces it names, and the memories keep their canonical form. -/

namespace Sys2Proof.Machine

open Sys2Proof

theorem bookAll_via (s : State) (asks : Asks) : Via [.folds] s (bookAll s asks) := by
  unfold bookAll
  exact Via.forEach (fun _ _ => Via.step (addBook_via ..) rfl (Via.refl _ _)) (Via.refl _ _)

theorem addXfer_via (s : State) (f : Nat) (g : Nat) (sp : Nat) (a : Nat) (n : Nat) (k : Nat) (x : Xfer) : Via [.folds] s (addXfer s f g sp a n k x) := by
  unfold addXfer
  extract_lets +onlyGivenNames -merge -underBinder y1
  try clear_value y1
  extract_lets +onlyGivenNames -merge -underBinder x2
  refine Via.cut (t := x2) (Via.step (modFold_via ..) rfl (Via.refl _ _)) fun h3 => ?_
  clear_value x2
  exact Via.ite (Via.step (modFold_via ..) rfl h3) h3

theorem countMasked_via (s : State) (f : Nat) (m : Bool) : Via [.regs] s (countMasked s f m) := by
  unfold countMasked
  exact Via.ite (Via.step (bump_via ..) rfl (Via.refl _ _)) (Via.refl _ _)

theorem pendSource_via (s : State) (f : Nat) (v : XArgs) (k : Nat) : Via [.folds] s (pendSource s f v k) := by
  unfold pendSource
  extract_lets +onlyGivenNames -merge -underBinder y1
  try clear_value y1
  exact Via.step (modFold_via ..) rfl (Via.refl _ _)

theorem sourceLines_via (s : State) (f : Nat) (v : XArgs) (lines : List LineErr) : Via [.free, .regs, .views, .log, .mem, .fresh, .folds, .flocks, .tally, .pause, .care, .weights] s (sourceLines s f v lines) := by
  unfold sourceLines
  exact Via.ite (Via.step (readLines_via ..) rfl (Via.refl _ _)) (Via.refl _ _)

theorem doXfer_via (s : State) (f : Nat) (v : XArgs) (lines : List LineErr) : Via [.free, .regs, .views, .log, .mem, .fresh, .folds, .flocks, .tally, .pause, .care, .weights] s (doXfer s f v lines) := by
  unfold doXfer
  extract_lets +onlyGivenNames -merge -underBinder y1
  try clear_value y1
  extract_lets +onlyGivenNames -merge -underBinder y2
  try clear_value y2
  extract_lets +onlyGivenNames -merge -underBinder y3
  try clear_value y3
  extract_lets +onlyGivenNames -merge -underBinder x4
  refine Via.cut (t := x4) (Via.step (sourceLines_via ..) rfl (Via.step (countMasked_via ..) rfl (Via.step (bookAll_via ..) rfl (Via.refl _ _)))) fun h5 => ?_
  clear_value x4
  extract_lets +onlyGivenNames -merge -underBinder y6
  try clear_value y6
  exact Via.step (addXfer_via ..) rfl (Via.step (pendSource_via ..) rfl h5)

theorem issueXfer_via (s : State) (f : Nat) (rsv : Nat) (desc : Nat) (lines : List LineErr) : Via [.free, .regs, .views, .log, .mem, .fresh, .folds, .flocks, .tally, .pause, .care, .weights] s (issueXfer s f rsv desc lines) := by
  unfold issueXfer
  exact issueWith_via rfl (Via.refl _ _) (Via.step (doXfer_via ..) rfl (Via.refl _ _))

theorem execXfer_via (fold : Fin 68) (rsv : BitVec 18) (desc : MovRef) (s : State) : Reach [.free, .regs, .views, .log, .mem, .fresh, .folds, .flocks, .tally, .pause, .care, .weights] s (execXfer fold rsv desc s) := by
  unfold execXfer
  exact Reach.next (Via.after (syllable_via rfl (fun _ => Via.step (issueXfer_via ..) rfl (Via.refl _ _))) (Via.refl _ _))

theorem countWay_via (s : State) (f : Nat) (v : XArgs) (h : HbmWay) : Via [.regs] s (countWay s f v h) := by
  unfold countWay
  exact Via.step (countMasked_via ..) rfl (Via.ite (Via.step (bump_via ..) rfl (Via.refl _ _)) (Via.refl _ _))

theorem spendHbm_via (s : State) (f : Nat) (n : Nat) : Via [.folds] s (spendHbm s f n) := by
  unfold spendHbm
  exact Via.step (modFold_via ..) rfl (Via.refl _ _)

theorem doHrd_via (s : State) (f : Nat) (lines : List LineErr) (d : Drove) (v : XArgs) (h : HbmWay) : Via [.free, .regs, .views, .log, .mem, .fresh, .folds, .flocks, .tally, .pause, .care, .weights] s (doHrd s f lines d v h) := by
  unfold doHrd
  extract_lets +onlyGivenNames -merge -underBinder y1
  try clear_value y1
  extract_lets +onlyGivenNames -merge -underBinder y2
  try clear_value y2
  extract_lets +onlyGivenNames -merge -underBinder x3
  refine Via.cut (t := x3) (Via.step (spendHbm_via ..) rfl (Via.step (countWay_via ..) rfl (Via.step (bookAll_via ..) rfl (Via.refl _ _)))) fun h4 => ?_
  clear_value x3
  extract_lets +onlyGivenNames -merge -underBinder x5
  refine Via.cut (t := x5) (Via.ite h4 (Via.step (readLines_via ..) rfl h4)) fun h6 => ?_
  clear_value x5
  extract_lets +onlyGivenNames -merge -underBinder y7
  try clear_value y7
  exact Via.step (addXfer_via ..) rfl h6

theorem issueHrd_via (s : State) (f : Nat) (rsv : Nat) (desc : Nat) (lines : List LineErr) (d : Drove) : Via [.free, .regs, .views, .log, .mem, .fresh, .folds, .flocks, .tally, .pause, .care, .weights] s (issueHrd s f rsv desc lines d) := by
  unfold issueHrd
  extract_lets +onlyGivenNames -merge -underBinder y1
  try clear_value y1
  refine issueWith_via rfl (Via.refl _ _) (?_)
  · split
    · exact Via.step (doHrd_via ..) rfl (Via.refl _ _)
    · exact Via.refl _ _

theorem execHrd_via (fold : Fin 68) (rsv : BitVec 18) (desc : Fin 1024) (lines : List LineErr) (s : State) : Reach [.free, .regs, .views, .log, .mem, .fresh, .folds, .flocks, .tally, .pause, .care, .weights] s (execHrd fold rsv desc lines s) := by
  unfold execHrd
  split
  · exact Reach.next (Via.after (syllable_via rfl (fun _ => Via.step (issueHrd_via ..) rfl (Via.refl _ _))) (Via.refl _ _))
  · exact Reach.next (Via.refl _ _)

theorem doHwr_via (s : State) (f : Nat) (lines : List LineErr) (d : Drove) (v : XArgs) (h : HbmWay) : Via [.free, .regs, .views, .log, .mem, .fresh, .folds, .flocks, .tally, .pause, .care, .weights] s (doHwr s f lines d v h) := by
  unfold doHwr
  extract_lets +onlyGivenNames -merge -underBinder y1
  try clear_value y1
  extract_lets +onlyGivenNames -merge -underBinder y2
  try clear_value y2
  extract_lets +onlyGivenNames -merge -underBinder y3
  try clear_value y3
  extract_lets +onlyGivenNames -merge -underBinder x4
  refine Via.cut (t := x4) (Via.step (spendHbm_via ..) rfl (Via.step (countWay_via ..) rfl (Via.step (bookAll_via ..) rfl (Via.refl _ _)))) fun h5 => ?_
  clear_value x4
  extract_lets +onlyGivenNames -merge -underBinder x6
  refine Via.cut (t := x6) (Via.ite h5 (Via.step (sourceLines_via ..) rfl h5)) fun h7 => ?_
  clear_value x6
  extract_lets +onlyGivenNames -merge -underBinder y8
  try clear_value y8
  extract_lets +onlyGivenNames -merge -underBinder x9
  refine Via.cut (t := x9) (Via.ite h7 (Via.step (droveStore_via ..) rfl h7)) fun h10 => ?_
  clear_value x9
  exact Via.step (modFold_via ..) rfl (Via.ite h10 (Via.step (pendSource_via ..) rfl h10))

theorem issueHwr_via (s : State) (f : Nat) (rsv : Nat) (desc : Nat) (lines : List LineErr) (d : Drove) : Via [.free, .regs, .views, .log, .mem, .fresh, .folds, .flocks, .tally, .pause, .care, .weights] s (issueHwr s f rsv desc lines d) := by
  unfold issueHwr
  extract_lets +onlyGivenNames -merge -underBinder y1
  try clear_value y1
  refine issueWith_via rfl (Via.refl _ _) (?_)
  · split
    · exact Via.step (doHwr_via ..) rfl (Via.refl _ _)
    · exact Via.refl _ _

theorem execHwr_via (fold : Fin 68) (rsv : BitVec 18) (desc : MovRef) (s : State) : Reach [.free, .regs, .views, .log, .mem, .fresh, .folds, .flocks, .tally, .pause, .care, .weights] s (execHwr fold rsv desc s) := by
  unfold execHwr
  split
  · exact Reach.next (Via.after (syllable_via rfl (fun _ => Via.step (issueHwr_via ..) rfl (Via.refl _ _))) (Via.refl _ _))
  · exact Reach.next (Via.refl _ _)

theorem completeHwr_via (s : State) (f : Nat) (x : Xfer) : Via [.folds] s (completeHwr s f x) := by
  unfold completeHwr
  extract_lets +onlyGivenNames -merge -underBinder x1
  refine Via.cut (t := x1) (Via.forEach (fun _ _ => Via.step (modFold_via ..) rfl (Via.refl _ _)) (Via.refl _ _)) fun h2 => ?_
  clear_value x1
  exact Via.step (modFold_via ..) rfl h2

theorem execHwrComplete_via (fold : Fin 68) (s : State) : Reach [.folds] s (execHwrComplete fold s) := by
  unfold execHwrComplete
  split
  · exact Reach.next (Via.ite (Via.step (completeHwr_via ..) rfl (Via.refl _ _)) (Via.refl _ _))
  · exact Reach.next (Via.refl _ _)

theorem doLsnd_via (s : State) (f : Nat) (lines : List LineErr) (d : Drove) (v : XArgs) : Via [.free, .regs, .views, .log, .mem, .fresh, .folds, .flocks, .tally, .pause, .care, .links, .weights] s (doLsnd s f lines d v) := by
  unfold doLsnd
  extract_lets +onlyGivenNames -merge -underBinder y1
  try clear_value y1
  extract_lets +onlyGivenNames -merge -underBinder y2
  try clear_value y2
  extract_lets +onlyGivenNames -merge -underBinder x3
  refine Via.cut (t := x3) (Via.step (sourceLines_via ..) rfl (Via.step (countMasked_via ..) rfl (Via.step (bookAll_via ..) rfl (Via.refl _ _)))) fun h4 => ?_
  clear_value x3
  extract_lets +onlyGivenNames -merge -underBinder y5
  try clear_value y5
  extract_lets +onlyGivenNames -merge -underBinder x6
  refine Via.cut (t := x6) (Via.step (modFold_via ..) rfl (Via.step (pendSource_via ..) rfl h4)) fun h7 => ?_
  clear_value x6
  split
  · exact h7
  · exact Via.step (setLinks_via ..) rfl h7

theorem issueLsnd_via (s : State) (f : Nat) (rsv : Nat) (desc : Nat) (lines : List LineErr) (d : Drove) : Via [.free, .regs, .views, .log, .mem, .fresh, .folds, .flocks, .tally, .pause, .care, .links, .weights] s (issueLsnd s f rsv desc lines d) := by
  unfold issueLsnd
  exact issueWith_via rfl (Via.refl _ _) (Via.step (doLsnd_via ..) rfl (Via.refl _ _))

theorem execLsnd_via (fold : Fin 68) (rsv : BitVec 18) (desc : MovRef) (s : State) : Reach [.free, .regs, .views, .log, .mem, .fresh, .folds, .flocks, .tally, .pause, .care, .links, .weights] s (execLsnd fold rsv desc s) := by
  unfold execLsnd
  split
  · exact Reach.next (Via.after (syllable_via rfl (fun _ => Via.step (issueLsnd_via ..) rfl (Via.refl _ _))) (Via.refl _ _))
  · exact Reach.next (Via.refl _ _)

theorem doTsnd_via (s : State) (f : Nat) (t : Nat) (v : XArgs) (e : Ecc) : Via [.regs, .folds, .flocks, .care] s (doTsnd s f t v e) := by
  unfold doTsnd
  extract_lets +onlyGivenNames -merge -underBinder y1
  try clear_value y1
  extract_lets +onlyGivenNames -merge -underBinder y2
  try clear_value y2
  extract_lets +onlyGivenNames -merge -underBinder y3
  try clear_value y3
  extract_lets +onlyGivenNames -merge -underBinder y4
  try clear_value y4
  extract_lets +onlyGivenNames -merge -underBinder y5
  try clear_value y5
  extract_lets +onlyGivenNames -merge -underBinder x6
  refine Via.cut (t := x6) (Via.step (countMasked_via ..) rfl (Via.step (bookAll_via ..) rfl (Via.refl _ _))) fun h7 => ?_
  clear_value x6
  extract_lets +onlyGivenNames -merge -underBinder x8
  refine Via.cut (t := x8) (Via.ite h7 (Via.step (tileEcc_via ..) rfl h7)) fun h9 => ?_
  clear_value x8
  extract_lets +onlyGivenNames -merge -underBinder y10
  try clear_value y10
  extract_lets +onlyGivenNames -merge -underBinder y11
  try clear_value y11
  extract_lets +onlyGivenNames -merge -underBinder y12
  try clear_value y12
  exact Via.step (addXfer_via ..) rfl h9

theorem issueTsnd_via (s : State) (f : Nat) (t : Nat) (tag : Nat) (rsv : Nat) (desc : Nat) (e : Ecc) : Via [.regs, .views, .log, .folds, .flocks, .care] s (issueTsnd s f t tag rsv desc e) := by
  unfold issueTsnd
  exact issueWith_via rfl (Via.refl _ _) (Via.step (doTsnd_via ..) rfl (Via.refl _ _))

theorem execTsnd_via (fold : Fin 68) (tile : Fin 128) (tag : BitVec 8) (rsv : BitVec 3) (desc : Fin 1024) (ecc : Ecc) (s : State) : Reach [.regs, .views, .log, .folds, .flocks, .care] s (execTsnd fold tile tag rsv desc ecc s) := by
  unfold execTsnd
  exact Reach.next (Via.after (syllable_via rfl (fun _ => Via.step (issueTsnd_via ..) rfl (Via.refl _ _))) (Via.refl _ _))

theorem busFail_via (s : State) (f : Nat) (p : BusFail) : Via [.regs, .folds, .flocks, .care] s (busFail s f p) := by
  unfold busFail
  extract_lets +onlyGivenNames -merge -underBinder y1
  subst y1
  try dsimp -zeta only
  split
  · exact Via.refl _ _
  · exact Via.step (dataSuspect_via ..) rfl (Via.step (errEvent_via ..) rfl (Via.step (bump_via ..) rfl (Via.refl _ _)))
  · exact Via.step (dataSuspect_via ..) rfl (Via.step (errEvent_via ..) rfl (Via.step (bump_via ..) rfl (Via.refl _ _)))
  · exact Via.step (dataSuspect_via ..) rfl (Via.step (errEvent_via ..) rfl (Via.step (bump_via ..) rfl (Via.refl _ _)))

theorem landBytes_via (s : State) (dst : Nat) (vis : Nat) (data : List Byte) : Via [.mem, .fresh, .folds, .care] s (landBytes s dst vis data) := by
  unfold landBytes
  refine Via.step (droveStore_via ..) rfl (?_)
  · split
    · exact Via.step (loadsTo_via ..) rfl (Via.refl _ _)
    · exact Via.refl _ _

theorem landXfer_via (s : State) (f : Nat) (x : Xfer) (late : Nat) (p : BusFail) : Via [.regs, .mem, .fresh, .folds, .flocks, .pause, .care] s (landXfer s f x late p) := by
  unfold landXfer
  extract_lets +onlyGivenNames -merge -underBinder x1
  refine Via.cut (t := x1) (Via.step (modFold_via ..) rfl (Via.refl _ _)) fun h2 => ?_
  clear_value x1
  extract_lets +onlyGivenNames -merge -underBinder x3
  refine Via.cut (t := x3) (Via.step (landBytes_via ..) rfl h2) fun h4 => ?_
  clear_value x3
  extract_lets +onlyGivenNames -merge -underBinder x5
  refine Via.cut (t := x5) (Via.ite (Via.step (askPause_via ..) rfl (Via.step (bump_via ..) rfl h4)) h4) fun h6 => ?_
  clear_value x5
  exact Via.step (busFail_via ..) rfl h6

theorem showStop_via (s : State) (l : Nat) : Via [.regs, .links, .out] s (showStop s l) := by
  unfold showStop
  extract_lets +onlyGivenNames -merge -underBinder y1
  try clear_value y1
  exact Via.ite (Via.refl _ _) (Via.step (sendSeq_via ..) rfl (Via.step (wr0_via ..) rfl (Via.refl _ _)))

theorem dropFlit_via (s : State) (l : Nat) (x : Landing) : Via [.links] s (dropFlit s l x) := by
  unfold dropFlit
  extract_lets +onlyGivenNames -merge -underBinder y1
  try clear_value y1
  extract_lets +onlyGivenNames -merge -underBinder y2
  try clear_value y2
  exact Via.step (modLink_via ..) rfl (Via.refl _ _)

theorem landFlit_via (s : State) (l : Nat) (x : Landing) (late : Nat) (p : BusFail) : Via [.regs, .mem, .fresh, .folds, .flocks, .pause, .care, .links, .out] s (landFlit s l x late p) := by
  unfold landFlit
  extract_lets +onlyGivenNames -merge -underBinder x1
  refine Via.cut (t := x1) (Via.step (showStop_via ..) rfl (Via.step (dropFlit_via ..) rfl (Via.refl _ _))) fun h2 => ?_
  clear_value x1
  extract_lets +onlyGivenNames -merge -underBinder x3
  refine Via.cut (t := x3) (Via.step (landBytes_via ..) rfl h2) fun h4 => ?_
  clear_value x3
  extract_lets +onlyGivenNames -merge -underBinder x5
  refine Via.cut (t := x5) (Via.ite (Via.step (askPause_via ..) rfl (Via.step (bump_via ..) rfl h4)) h4) fun h6 => ?_
  clear_value x5
  exact Via.step (busFail_via ..) rfl h6

theorem execDataVisible_via (src : VisSrc) (late : Nat) (parity : BusFail) (s : State) : Reach [.regs, .mem, .fresh, .folds, .flocks, .pause, .care, .links, .out] s (execDataVisible src late parity s) := by
  unfold execDataVisible
  split
  · split
    · exact Reach.next (Via.ite (Via.step (landXfer_via ..) rfl (Via.refl _ _)) (Via.refl _ _))
    · exact Reach.next (Via.refl _ _)
  · split
    · exact Reach.next (Via.ite (Via.step (landFlit_via ..) rfl (Via.refl _ _)) (Via.refl _ _))
    · exact Reach.next (Via.refl _ _)
  · exact Reach.next (Via.ite (Via.step (busFail_via ..) rfl (Via.refl _ _)) (Via.refl _ _))

theorem execPauseRelease_via (s : State) : Reach [.free, .regs, .tally, .pause, .power] s (execPauseRelease s) := by
  unfold execPauseRelease
  extract_lets +onlyGivenNames -merge -underBinder y1
  try clear_value y1
  refine Reach.ite (Reach.next (Via.refl _ _)) (?_)
  · extract_lets +onlyGivenNames -merge -underBinder y2
    try clear_value y2
    extract_lets +onlyGivenNames -merge -underBinder x3
    refine Reach.cut (t := x3) (Via.step (setPause_via ..) rfl (Via.refl _ _)) fun h4 => ?_
    clear_value x3
    exact Reach.next (Via.step (predict_via ..) rfl (Via.forEach (fun _ _ => Via.step (bump_via ..) rfl (Via.refl _ _)) h4))

end Sys2Proof.Machine
end

