-- ==== Sys2Proof/Laws/ViaLinks.lean ====
section
/-! SUPPORT. What each operation of Machine/Links.lean can touch: the pieces it names, and the memories keep their canonical form. -/

namespace Sys2Proof.Machine

open Sys2Proof

theorem endStop_via (s : State) (l : Nat) : Via [.free, .regs, .pause, .links] s (endStop s l) := by
  unfold endStop
  refine Via.ite (?_) (Via.refl _ _)
  · split
    · rename_i v1 v2 e3
      refine Via.cut (Via.pair e3 (Via.step (drawNat_via ..) rfl (Via.step (modLink_via ..) rfl (Via.refl _ _)))) fun h4 => ?_
      exact Via.step (askPause_via ..) rfl (Via.step (bump_via ..) rfl h4)

theorem leaveState_via (s : State) (l : Nat) : Via [.free, .regs, .pause, .links] s (leaveState s l) := by
  unfold leaveState
  exact Via.step (modLink_via ..) rfl (Via.step (endStop_via ..) rfl (Via.refl _ _))

theorem toTrain_via (s : State) (l : Nat) : Via [.free, .regs, .pause, .links] s (toTrain s l) := by
  unfold toTrain
  exact Via.step (modLink_via ..) rfl (Via.step (wr0_via ..) rfl (Via.step (leaveState_via ..) rfl (Via.refl _ _)))

theorem toFailed_via (s : State) (l : Nat) (cause : Nat) : Via [.free, .regs, .views, .log, .pause, .links] s (toFailed s l cause) := by
  unfold toFailed
  extract_lets +onlyGivenNames -merge -underBinder y1
  try clear_value y1
  extract_lets +onlyGivenNames -merge -underBinder x2
  refine Via.cut (t := x2) (Via.step (wr0_via ..) rfl (Via.step (wr0_via ..) rfl (Via.step (leaveState_via ..) rfl (Via.refl _ _)))) fun h3 => ?_
  clear_value x2
  extract_lets +onlyGivenNames -merge -underBinder x4
  refine Via.cut (t := x4) (Via.step (errEvent_via ..) rfl (Via.step (bump_via ..) rfl h3)) fun h5 => ?_
  clear_value x4
  extract_lets +onlyGivenNames -merge -underBinder x6
  refine Via.cut (t := x6) (Via.step (logWrite_via ..) rfl h5) fun h7 => ?_
  clear_value x6
  exact Via.step (modLink_via ..) rfl h7

theorem toOff_via (s : State) (l : Nat) : Via [.free, .regs, .pause, .links] s (toOff s l) := by
  unfold toOff
  exact Via.step (wr0_via ..) rfl (Via.step (wr0_via ..) rfl (Via.step (leaveState_via ..) rfl (Via.refl _ _)))

theorem tryTrain_via (s : State) (l : Nat) : Via [.free, .regs, .pause, .links] s (tryTrain s l) := by
  unfold tryTrain
  exact Via.ite (Via.step (toTrain_via ..) rfl (Via.refl _ _)) (Via.refl _ _)

theorem writeLinkEnable_via (l : Nat) (on : Bool) (s : State) : Via [.free, .regs, .pause, .links] s (writeLinkEnable l on s) := by
  unfold writeLinkEnable
  extract_lets +onlyGivenNames -merge -underBinder x1
  refine Via.cut (t := x1) (Via.step (wr0_via ..) rfl (Via.refl _ _)) fun h2 => ?_
  clear_value x1
  exact Via.ite (Via.step (tryTrain_via ..) rfl h2) (Via.step (toOff_via ..) rfl h2)

theorem execLinkEnable_via (src : Source) (link : Fin 96) (on : Bool) (s : State) : Reach [.free, .regs, .pause, .links] s (execLinkEnable src link on s) := by
  unfold execLinkEnable
  exact Reach.next (Via.after (onPage_via rfl (fun _ => Via.step (writeLinkEnable_via ..) rfl (Via.refl _ _))) (Via.refl _ _))

theorem execRetrain_via (src : Source) (link : Fin 96) (s : State) : Reach [.free, .regs, .pause, .links] s (execRetrain src link s) := by
  unfold execRetrain
  exact Reach.next (Via.after (onPage_via rfl (fun _ => Via.ite (Via.refl _ _) (Via.step (toTrain_via ..) rfl (Via.refl _ _)))) (Via.refl _ _))

theorem execTrainingDone_via (link : Fin 96) (peer : Fin 32768) (peerLink : Fin 96) (install : Word) (lambda : Nat) (s : State) : Reach [.free, .regs, .views, .log, .pause, .links] s (execTrainingDone link peer peerLink install lambda s) := by
  unfold execTrainingDone
  refine Reach.ite (Reach.ite (?_) (Reach.next (Via.step (toFailed_via ..) rfl (Via.refl _ _)))) (Reach.next (Via.refl _ _))
  · extract_lets +onlyGivenNames -merge -underBinder y1
    try clear_value y1
    extract_lets +onlyGivenNames -merge -underBinder x2
    refine Reach.cut (t := x2) (Via.step (wr0_via ..) rfl (Via.step (wr0_via ..) rfl (Via.step (wr0_via ..) rfl (Via.refl _ _)))) fun h3 => ?_
    clear_value x2
    extract_lets +onlyGivenNames -merge -underBinder x4
    refine Reach.cut (t := x4) (Via.step (wr0_via ..) rfl (Via.step (wr0_via ..) rfl h3)) fun h5 => ?_
    clear_value x4
    exact Reach.next (Via.ite h5 (Via.step (modLink_via ..) rfl h5))

theorem execTrainingTimeout_via (link : Fin 96) (s : State) : Reach [.free, .regs, .views, .log, .pause, .links] s (execTrainingTimeout link s) := by
  unfold execTrainingTimeout
  exact Reach.next (Via.ite (Via.step (toFailed_via ..) rfl (Via.refl _ _)) (Via.refl _ _))

theorem execFailedRetryTimer_via (link : Fin 96) (s : State) : Reach [.free, .regs, .pause, .links] s (execFailedRetryTimer link s) := by
  unfold execFailedRetryTimer
  exact Reach.next (Via.ite (Via.step (toTrain_via ..) rfl (Via.refl _ _)) (Via.refl _ _))

theorem takeAck_via (s : State) (l : Nat) (a : Nat) : Via [.links] s (takeAck s l a) := by
  unfold takeAck
  exact Via.step (modLink_via ..) rfl (Via.refl _ _)

theorem resendFlit_via (l : Nat) (s : State) (e : Nat × Body) : Via [.links, .out] s (resendFlit l s e) := by
  unfold resendFlit
  exact Via.step (emitFlit_via ..) rfl (Via.refl _ _)

theorem replayLink_via (s : State) (l : Nat) : Via [.free, .regs, .views, .log, .pause, .links, .out] s (replayLink s l) := by
  unfold replayLink
  extract_lets +onlyGivenNames -merge -underBinder y1
  try clear_value y1
  refine Via.ite (Via.refl _ _) (?_)
  · extract_lets +onlyGivenNames -merge -underBinder x2
    refine Via.cut (t := x2) (Via.step (bump_via ..) rfl (Via.refl _ _)) fun h3 => ?_
    clear_value x2
    extract_lets +onlyGivenNames -merge -underBinder y4
    try clear_value y4
    extract_lets +onlyGivenNames -merge -underBinder x5
    refine Via.cut (t := x5) (Via.step (putLink_via ..) rfl h3) fun h6 => ?_
    clear_value x5
    exact Via.ite (Via.step (toFailed_via ..) rfl h6) (Via.forEach (fun _ _ => Via.step (resendFlit_via ..) rfl (Via.refl _ _)) h6)

theorem execAckTimeout_via (link : Fin 96) (s : State) : Reach [.free, .regs, .views, .log, .pause, .links, .out] s (execAckTimeout link s) := by
  unfold execAckTimeout
  exact Reach.next (Via.ite (Via.step (replayLink_via ..) rfl (Via.refl _ _)) (Via.refl _ _))

theorem execRetryEpisodeTimeout_via (link : Fin 96) (s : State) : Reach [.free, .regs, .views, .log, .pause, .links] s (execRetryEpisodeTimeout link s) := by
  unfold execRetryEpisodeTimeout
  exact Reach.next (Via.ite (Via.step (toFailed_via ..) rfl (Via.refl _ _)) (Via.refl _ _))

theorem lateAwaited_via (s : State) (l : Nat) : Via [.free, .regs, .tally, .pause, .power, .links] s (lateAwaited s l) := by
  unfold lateAwaited
  split
  · exact Via.step (predict_via ..) rfl (Via.step (modLink_via ..) rfl (Via.refl _ _))
  · exact Via.refl _ _

theorem wantNack_via (s : State) (l : Nat) : Via [.free, .regs, .tally, .pause, .power, .links] s (wantNack s l) := by
  unfold wantNack
  exact Via.ite (Via.refl _ _) (Via.step (lateAwaited_via ..) rfl (Via.step (modLink_via ..) rfl (Via.refl _ _)))

theorem takeFlit_via {s : State} {l : Nat} {h : FlitHead} {sequenced : Bool} {room : Bool} {g : State → State} {ps : List StatePart} (hb : ([.free, .regs, .views, .log, .tally, .pause, .power, .links, .out].all fun p => ps.contains p) = true) (hg : ∀ a0, Via ps a0 (g a0)) :
    Via ps s (takeFlit s l h sequenced room g) := by
  unfold takeFlit
  extract_lets +onlyGivenNames -merge -underBinder x1
  refine Via.cut (t := x1) (Via.step (takeAck_via ..) (within rfl hb) (Via.refl _ _)) fun h2 => ?_
  clear_value x1
  extract_lets +onlyGivenNames -merge -underBinder x3
  refine Via.cut (t := x3) (Via.ite (Via.step (replayLink_via ..) (within rfl hb) h2) h2) fun h4 => ?_
  clear_value x3
  extract_lets +onlyGivenNames -merge -underBinder x5
  refine Via.cut (t := x5) (Via.step (sendHeld_via ..) (within rfl hb) h4) fun h6 => ?_
  clear_value x5
  extract_lets +onlyGivenNames -merge -underBinder y7
  try clear_value y7
  refine Via.ite (Via.ite (Via.step (wantNack_via ..) (within rfl hb) h6) (?_)) (Via.ite (Via.step (wantNack_via ..) (within rfl hb) h6) h6)
  · extract_lets +onlyGivenNames -merge -underBinder x8
    refine Via.cut (t := x8) (Via.step (modLink_via ..) (within rfl hb) h6) fun h9 => ?_
    clear_value x8
    exact Via.ite (Via.after (hg ..) (Via.step (acceptSeq_via ..) (within rfl hb) h9)) h9

theorem onFlit_via {s : State} {l : Nat} {h : FlitHead} {crcOk : Bool} {sequenced : Bool} {room : Bool} {g : State → State} {ps : List StatePart} (hb : ([.free, .regs, .views, .log, .tally, .pause, .power, .links, .out].all fun p => ps.contains p) = true) (hg : ∀ a0, Via ps a0 (g a0)) :
    Via ps s (onFlit s l h crcOk sequenced room g) := by
  unfold onFlit
  refine Via.ite (Via.refl _ _) (?_)
  · extract_lets +onlyGivenNames -merge -underBinder x1
    refine Via.cut (t := x1) (Via.step (modLink_via ..) (within rfl hb) (Via.refl _ _)) fun h2 => ?_
    clear_value x1
    exact Via.ite (Via.step (sendIdle_via ..) (within rfl hb) (Via.step (wantNack_via ..) (within rfl hb) (Via.step (bump_via ..) (within rfl hb) h2))) (Via.ite (Via.step (sendIdle_via ..) (within rfl hb) (Via.step (wantNack_via ..) (within rfl hb) (Via.step (bump_via ..) (within rfl hb) h2))) (Via.step (sendIdle_via ..) (within rfl hb) (Via.after (takeFlit_via (within rfl hb) (hg)) h2)))

theorem execIdleFlit_via (link : Fin 96) (f : Flit) (s : State) : Reach [.free, .regs, .views, .log, .tally, .pause, .power, .links, .out] s (execIdleFlit link f s) := by
  unfold execIdleFlit
  exact Reach.next (Via.after (onFlit_via rfl (fun _ => Via.refl _ _)) (Via.refl _ _))

theorem bookFlit_via (s : State) (g : Nat) (asks : Asks) : Via [.regs, .views, .log, .folds, .flocks] s (bookFlit s g asks) := by
  unfold bookFlit
  exact Via.forEach (fun _ _ => Via.step (contractFault_via ..) rfl (Via.refl _ _)) (Via.step (bookAll_via ..) rfl (Via.refl _ _))

theorem acceptData_via (s : State) (l : Nat) (f : Flit) (e : Nat × Nat × LinkEntry) : Via [.regs, .views, .log, .folds, .flocks, .links, .out] s (acceptData s l f e) := by
  unfold acceptData
  extract_lets +onlyGivenNames -merge -underBinder y1
  try clear_value y1
  extract_lets +onlyGivenNames -merge -underBinder y2
  try clear_value y2
  extract_lets +onlyGivenNames -merge -underBinder y3
  try clear_value y3
  extract_lets +onlyGivenNames -merge -underBinder x4
  refine Via.cut (t := x4) (Via.step (modLink_via ..) rfl (Via.refl _ _)) fun h5 => ?_
  clear_value x4
  split
  · extract_lets +onlyGivenNames -merge -underBinder y6
    try clear_value y6
    extract_lets +onlyGivenNames -merge -underBinder x7
    refine Via.cut (t := x7) (Via.step (bookFlit_via ..) rfl h5) fun h8 => ?_
    clear_value x7
    exact Via.step (showStop_via ..) rfl (Via.step (modLink_via ..) rfl h8)
  · exact h5

theorem passFlit_via (s : State) (l : Nat) (f : Flit) (e : Nat × Nat × LinkEntry) : Via [.regs, .views, .log, .folds, .flocks, .links] s (passFlit s l f e) := by
  unfold passFlit
  extract_lets +onlyGivenNames -merge -underBinder y1
  try clear_value y1
  extract_lets +onlyGivenNames -merge -underBinder y2
  try clear_value y2
  extract_lets +onlyGivenNames -merge -underBinder y3
  try clear_value y3
  extract_lets +onlyGivenNames -merge -underBinder y4
  try clear_value y4
  extract_lets +onlyGivenNames -merge -underBinder x5
  refine Via.cut (t := x5) (Via.step (modLink_via ..) rfl (Via.refl _ _)) fun h6 => ?_
  clear_value x5
  extract_lets +onlyGivenNames -merge -underBinder x7
  refine Via.cut (t := x7) (Via.ite h6 (Via.step (bookFlit_via ..) rfl h6)) fun h8 => ?_
  clear_value x7
  exact Via.step (modLink_via ..) rfl h8

theorem dataFlit_via (s : State) (l : Nat) (f : Flit) : Via [.regs, .views, .log, .folds, .flocks, .links, .out] s (dataFlit s l f) := by
  unfold dataFlit
  refine Via.ite (?_) (?_)
  · split
    · exact Via.ite (Via.step (acceptData_via ..) rfl (Via.refl _ _)) (Via.step (bump_via ..) rfl (Via.refl _ _))
    · exact Via.step (bump_via ..) rfl (Via.refl _ _)
  · split
    · exact Via.step (passFlit_via ..) rfl (Via.refl _ _)
    · exact Via.step (bump_via ..) rfl (Via.refl _ _)

theorem execDataFlit_via (link : Fin 96) (f : Flit) (s : State) : Reach [.free, .regs, .views, .log, .folds, .flocks, .tally, .pause, .power, .links, .out] s (execDataFlit link f s) := by
  unfold execDataFlit
  exact Reach.next (Via.after (onFlit_via rfl (fun _ => Via.step (dataFlit_via ..) rfl (Via.refl _ _))) (Via.refl _ _))

theorem stopBit_via (s : State) (l : Nat) (on : Bool) : Via [.free, .regs, .pause, .links] s (stopBit s l on) := by
  unfold stopBit
  exact Via.ite (Via.step (modLink_via ..) rfl (Via.refl _ _)) (Via.step (endStop_via ..) rfl (Via.refl _ _))

theorem execCtrlFlit_via (link : Fin 96) (f : Flit) (s : State) : Reach [.free, .regs, .views, .log, .tally, .pause, .power, .links, .out] s (execCtrlFlit link f s) := by
  unfold execCtrlFlit
  exact Reach.next (Via.after (onFlit_via rfl (fun _ => Via.step (stopBit_via ..) rfl (Via.refl _ _))) (Via.refl _ _))

theorem execSendSlot_via (link : Fin 96) (s : State) : Reach [.regs, .links, .out] s (execSendSlot link s) := by
  unfold execSendSlot
  split
  · exact Reach.next (Via.step (sendSeq_via ..) rfl (Via.step (modLink_via ..) rfl (Via.refl _ _)))
  · exact Reach.next (Via.refl _ _)

theorem execForwardSlot_via (link : Fin 96) (s : State) : Reach [.regs, .links, .out] s (execForwardSlot link s) := by
  unfold execForwardSlot
  split
  · exact Reach.next (Via.step (sendSeq_via ..) rfl (Via.step (modLink_via ..) rfl (Via.refl _ _)))
  · exact Reach.next (Via.refl _ _)

end Sys2Proof.Machine
end

