-- ==== Sys2Proof/Laws/ViaTickEnd.lean ====
section
/-! SUPPORT. What each operation of Machine/TickEnd.lean can touch: the pieces it names, and the memories keep their canonical form. -/

namespace Sys2Proof.Machine

open Sys2Proof

theorem closeFold_via (s : State) (k : Nat) (f : Nat) : Via [.free, .regs, .views, .log, .folds, .flocks] s (closeFold s k f) := by
  unfold closeFold
  extract_lets +onlyGivenNames -merge -underBinder y1
  try clear_value y1
  refine Via.ite (Via.refl _ _) (?_)
  · extract_lets +onlyGivenNames -merge -underBinder x2
    refine Via.cut (t := x2) (Via.ite (Via.step (contractFault_via ..) rfl (Via.refl _ _)) (Via.refl _ _)) fun h3 => ?_
    clear_value x2
    extract_lets +onlyGivenNames -merge -underBinder x4
    refine Via.cut (t := x4) (Via.ite (Via.forEach (?_) h3) h3) fun h5 => ?_
    · intro s6 a7
      split
      · rename_i v8 v9 e10
        refine Via.cut (Via.pair e10 (Via.step (drawNat_via ..) rfl (Via.refl _ _))) fun h11 => ?_
        exact Via.step (clash_via ..) rfl h11
    clear_value x4
    exact Via.step (modFold_via ..) rfl h5

theorem layerFlags_via (s : State) (f : Nat) (x : Fold) (t : Nat) : Via [.regs, .views, .log] s (layerFlags s f x t) := by
  unfold layerFlags
  extract_lets +onlyGivenNames -merge -underBinder y1
  try clear_value y1
  extract_lets +onlyGivenNames -merge -underBinder y2
  try clear_value y2
  extract_lets +onlyGivenNames -merge -underBinder y3
  try clear_value y3
  extract_lets +onlyGivenNames -merge -underBinder y4
  try clear_value y4
  extract_lets +onlyGivenNames -merge -underBinder y5
  try clear_value y5
  extract_lets +onlyGivenNames -merge -underBinder y6
  try clear_value y6
  exact Via.ite (Via.refl _ _) (Via.step (setRecipe_via ..) rfl (Via.refl _ _))

theorem endShare_via (s : State) (f : Nat) : Via [.regs, .views, .log] s (endShare s f) := by
  unfold endShare
  extract_lets +onlyGivenNames -merge -underBinder y1
  try clear_value y1
  exact Via.forEach (fun _ _ => Via.step (layerFlags_via ..) rfl (Via.refl _ _)) (Via.step (wr0_via ..) rfl (Via.refl _ _))

theorem endFold_via (s : State) (k : Nat) (f : Nat) : Via [.free, .regs, .views, .log, .folds, .flocks] s (endFold s k f) := by
  unfold endFold
  extract_lets +onlyGivenNames -merge -underBinder y1
  try clear_value y1
  extract_lets +onlyGivenNames -merge -underBinder y2
  try clear_value y2
  extract_lets +onlyGivenNames -merge -underBinder y3
  try clear_value y3
  extract_lets +onlyGivenNames -merge -underBinder x4
  refine Via.cut (t := x4) (Via.ite (Via.step (bump_via ..) rfl (Via.refl _ _)) (Via.refl _ _)) fun h5 => ?_
  clear_value x4
  extract_lets +onlyGivenNames -merge -underBinder x6
  refine Via.cut (t := x6) (Via.step (closeFold_via ..) rfl h5) fun h7 => ?_
  clear_value x6
  extract_lets +onlyGivenNames -merge -underBinder x8
  refine Via.cut (t := x8) (Via.ite (Via.forEach (fun _ _ => Via.step (contractFault_via ..) rfl (Via.refl _ _)) h7) (Via.ite h7 (Via.step (stepFault_via ..) rfl h7))) fun h9 => ?_
  clear_value x8
  exact Via.step (modFold_via ..) rfl h9

end Sys2Proof.Machine
end

