-- ==== Sys2Proof/Laws/ViaTally.lean ====
section
/-! SUPPORT. What each operation of Machine/Tally.lean can touch: the pieces it names, and the memories keep their canonical form. -/

namespace Sys2Proof.Machine

open Sys2Proof

theorem setTallyState_via (s : State) (x : Nat) : Via [.regs] s (setTallyState s x) := by
  unfold setTallyState
  exact Via.step (wr0_via ..) rfl (Via.refl _ _)

theorem onMarker_via {s : State} {l : Nat} {h : FlitHead} {m : Marker} {payload : List Byte} {g : State → State} {ps : List StatePart} (hb : ([.free, .regs, .views, .log, .tally, .pause, .power, .links, .out].all fun p => ps.contains p) = true) (hg : ∀ a0, Via ps a0 (g a0)) :
    Via ps s (onMarker s l h m payload g) := by
  unfold onMarker
  exact Via.after (onFlit_via (within rfl hb) (fun _ => Via.ite (Via.after (hg ..) (Via.refl _ _)) (Via.refl _ _))) (Via.refl _ _)

theorem onDown_via {s : State} {l : Nat} {h : FlitHead} {m : Marker} {payload : List Byte} {g : State → State} {ps : List StatePart} (hb : ([.free, .regs, .views, .log, .tally, .pause, .power, .links, .out].all fun p => ps.contains p) = true) (hg : ∀ a0, Via ps a0 (g a0)) :
    Via ps s (onDown s l h m payload g) := by
  unfold onDown
  exact Via.after (onMarker_via (within rfl hb) (fun _ => Via.ite (Via.after (hg ..) (Via.refl _ _)) (Via.refl _ _))) (Via.refl _ _)

theorem onUp_via {s : State} {l : Nat} {h : FlitHead} {m : Marker} {payload : List Byte} {g : State → State} {ps : List StatePart} (hb : ([.free, .regs, .views, .log, .tally, .pause, .power, .links, .out].all fun p => ps.contains p) = true) (hg : ∀ a0, Via ps a0 (g a0)) :
    Via ps s (onUp s l h m payload g) := by
  unfold onUp
  exact Via.after (onMarker_via (within rfl hb) (fun _ => Via.ite (Via.after (hg ..) (Via.refl _ _)) (Via.refl _ _))) (Via.refl _ _)

theorem sendDown_via (s : State) (kind : Nat) (m : Marker) : Via [.regs, .links, .out] s (sendDown s kind m) := by
  unfold sendDown
  exact Via.forEach (fun _ _ => Via.step (sendMarker_via ..) rfl (Via.refl _ _)) (Via.refl _ _)

theorem forward_via (s : State) (kind : Nat) (m : Marker) : Via [.regs, .links, .out] s (forward s kind m) := by
  unfold forward
  exact Via.step (sendDown_via ..) rfl (Via.refl _ _)

theorem sendUp_via (s : State) (kind : Nat) (m : Marker) : Via [.regs, .links, .out] s (sendUp s kind m) := by
  unfold sendUp
  exact Via.ite (Via.step (sendMarker_via ..) rfl (Via.refl _ _)) (Via.refl _ _)

theorem noteSeen_via (s : State) (kind : Nat) (link : Nat) (num : Nat) : Via [.tally] s (noteSeen s kind link num) := by
  unfold noteSeen
  extract_lets +onlyGivenNames -merge -underBinder y1
  try clear_value y1
  exact Via.step (setTally_via ..) rfl (Via.refl _ _)

theorem noteCopy_via (s : State) (kind : Nat) : Via [.tally] s (noteCopy s kind) := by
  unfold noteCopy
  split
  · exact Via.step (setTally_via ..) rfl (Via.refl _ _)
  · exact Via.refl _ _

theorem firstOf_via {s : State} {kind : Nat} {link : Nat} {m : Marker} {g : State → State} {ps : List StatePart} (hb : ([.regs, .tally, .links, .out].all fun p => ps.contains p) = true) (hg : ∀ a0, Via ps a0 (g a0)) :
    Via ps s (firstOf s kind link m g) := by
  unfold firstOf
  exact Via.ite (Via.after (hg ..) (Via.step (forward_via ..) (within rfl hb) (Via.step (noteSeen_via ..) (within rfl hb) (Via.refl _ _)))) (Via.step (noteCopy_via ..) (within rfl hb) (Via.refl _ _))

theorem showNum_via (s : State) : Via [.regs] s (showNum s) := by
  unfold showNum
  exact Via.step (wrPair_via ..) rfl (Via.refl _ _)

theorem setIdle_via (s : State) : Via [.regs] s (setIdle s) := by
  unfold setIdle
  exact Via.step (wr0_via ..) rfl (Via.step (wr0_via ..) rfl (Via.refl _ _))

theorem setHop_via (s : State) : Via [.free, .regs] s (setHop s) := by
  unfold setHop
  split
  · rename_i v1 v2 e3
    refine Via.cut (Via.pair e3 (Via.ite2 (Via.refl _ _) (?_))) fun h4 => ?_
    · split
      · rename_i v5 v6 e7
        refine Via.cut (Via.pair e7 (Via.step (drawNat_via ..) rfl (Via.refl _ _))) fun h8 => ?_
        try dsimp -zeta only
        exact h8
    extract_lets +onlyGivenNames -merge -underBinder x9
    refine Via.cut (t := x9) (Via.step (wr0_via ..) rfl h4) fun h10 => ?_
    clear_value x9
    exact Via.step (wr0_via ..) rfl h10

theorem lockTally_via (s : State) (d : Nat) (t : Nat) : Via [.free, .regs, .tally] s (lockTally s d t) := by
  unfold lockTally
  extract_lets +onlyGivenNames -merge -underBinder x1
  refine Via.cut (t := x1) (Via.step (setHop_via ..) rfl (Via.step (setIdle_via ..) rfl (Via.step (wr0_via ..) rfl (Via.step (setTallyState_via ..) rfl (Via.refl _ _))))) fun h2 => ?_
  clear_value x1
  exact Via.step (setTally_via ..) rfl h2

theorem enterLost_via (s : State) (cause : Nat) : Via [.regs, .views, .log, .flocks] s (enterLost s cause) := by
  unfold enterLost
  extract_lets +onlyGivenNames -merge -underBinder x1
  refine Via.cut (t := x1) (Via.step (logWrite_via ..) rfl (Via.step (errEvent_via ..) rfl (Via.step (setTallyState_via ..) rfl (Via.refl _ _)))) fun h2 => ?_
  clear_value x1
  exact Via.forEach (fun _ _ => Via.ite (Via.refl _ _) (Via.step (modFlock_via ..) rfl (Via.refl _ _))) h2

theorem writeEnable_via (on : Bool) (s : State) : Via [.regs, .flocks, .tally] s (writeEnable on s) := by
  unfold writeEnable
  extract_lets +onlyGivenNames -merge -underBinder x1
  refine Via.cut (t := x1) (Via.step (wr0_via ..) rfl (Via.refl _ _)) fun h2 => ?_
  clear_value x1
  refine Via.ite (Via.ite (Via.step (setTallyState_via ..) rfl h2) h2) (?_)
  · extract_lets +onlyGivenNames -merge -underBinder y3
    try clear_value y3
    extract_lets +onlyGivenNames -merge -underBinder x4
    refine Via.cut (t := x4) (Via.step (showNum_via ..) rfl (Via.step (setTally_via ..) rfl (Via.step (setTallyState_via ..) rfl h2))) fun h5 => ?_
    clear_value x4
    exact Via.forEach (fun _ _ => Via.ite (Via.refl _ _) (Via.step (modFlock_via ..) rfl (Via.refl _ _))) h5

theorem execTallyEnable_via (src : Source) (on : Bool) (s : State) : Reach [.regs, .flocks, .tally] s (execTallyEnable src on s) := by
  unfold execTallyEnable
  exact Reach.next (Via.after (onPage_via rfl (fun _ => Via.step (writeEnable_via ..) rfl (Via.refl _ _))) (Via.refl _ _))

theorem execTallyStart_via (src : Source) (s : State) : Reach [.tally] s (execTallyStart src s) := by
  unfold execTallyStart
  exact Reach.next (Via.after (onPage_via rfl (fun _ => Via.ite (Via.step (setTally_via ..) rfl (Via.refl _ _)) (Via.refl _ _))) (Via.refl _ _))

theorem shiftTime_via (s : State) (n : Int) : Via [.regs, .tally] s (shiftTime s n) := by
  unfold shiftTime
  extract_lets +onlyGivenNames -merge -underBinder y1
  try clear_value y1
  extract_lets +onlyGivenNames -merge -underBinder x2
  refine Via.cut (t := x2) (Via.step (setTally_via ..) rfl (Via.refl _ _)) fun h3 => ?_
  clear_value x2
  exact Via.step (wrPair_via ..) rfl h3

theorem takeOffset_via (s : State) (m : Marker) (offset : Int) : Via [.free, .regs, .views, .log, .flocks, .tally] s (takeOffset s m offset) := by
  unfold takeOffset
  extract_lets +onlyGivenNames -merge -underBinder x1
  refine Via.cut (t := x1) (Via.step (wr0_via ..) rfl (Via.refl _ _)) fun h2 => ?_
  clear_value x1
  refine Via.ite (?_) (Via.ite (Via.ite (Via.step (enterLost_via ..) rfl h2) (Via.step (shiftTime_via ..) rfl h2)) h2)
  · extract_lets +onlyGivenNames -merge -underBinder y3
    try clear_value y3
    extract_lets +onlyGivenNames -merge -underBinder x4
    refine Via.cut (t := x4) (Via.step (shiftTime_via ..) rfl (Via.step (setTally_via ..) rfl h2)) fun h5 => ?_
    clear_value x4
    exact Via.ite (Via.step (lockTally_via ..) rfl h5) h5

theorem takeStart_via (s : State) (m : Marker) : Via [.regs, .tally] s (takeStart s m) := by
  unfold takeStart
  exact Via.ite (Via.step (showNum_via ..) rfl (Via.step (setTally_via ..) rfl (Via.step (setTallyState_via ..) rfl (Via.refl _ _)))) (Via.refl _ _)

theorem execTick_via (link : Fin 96) (m : MarkerFlit) (offset : Int) (s : State) : Reach [.free, .regs, .views, .log, .flocks, .tally, .pause, .power, .links, .out] s (execTick link m offset s) := by
  unfold execTick
  exact Reach.next (Via.after (onDown_via rfl (fun _ => Via.ite (Via.step (takeStart_via ..) rfl (Via.step (takeOffset_via ..) rfl (Via.step (forward_via ..) rfl (Via.step (noteSeen_via ..) rfl (Via.refl _ _))))) (Via.step (noteCopy_via ..) rfl (Via.refl _ _)))) (Via.refl _ _))

theorem execMarkerMissing_via (what : Missing) (s : State) : Reach [.regs, .views, .log, .flocks] s (execMarkerMissing what s) := by
  unfold execMarkerMissing
  refine Reach.ite (?_) (Reach.next (Via.refl _ _))
  · split
    · exact Reach.next (Via.step (enterLost_via ..) rfl (Via.refl _ _))
    · exact Reach.next (Via.ite (Via.step (enterLost_via ..) rfl (Via.refl _ _)) (Via.refl _ _))
    · exact Reach.next (Via.ite (Via.step (enterLost_via ..) rfl (Via.refl _ _)) (Via.refl _ _))

theorem holdForBlock_via (s : State) (k : Nat) : Via [.free, .regs, .tally] s (holdForBlock s k) := by
  unfold holdForBlock
  refine Via.ite (?_) (Via.refl _ _)
  · split
    · rename_i v1 v2 e3
      refine Via.cut (Via.pair e3 (Via.step (drawNat_via ..) rfl (Via.refl _ _))) fun h4 => ?_
      exact Via.step (raiseHold_via ..) rfl (Via.step (bump_via ..) rfl h4)

theorem execHoldCutoff_via (s : State) : Reach [.free, .regs, .tally, .pause, .power] s (execHoldCutoff s) := by
  unfold execHoldCutoff
  refine Reach.ite (?_) (Reach.next (Via.refl _ _))
  · extract_lets +onlyGivenNames -merge -underBinder x1
    refine Reach.cut (t := x1) (Via.step (holdForLine_via ..) rfl (Via.forEach (fun _ _ => Via.step (holdForBlock_via ..) rfl (Via.refl _ _)) (Via.step (predict_via ..) rfl (Via.refl _ _)))) fun h2 => ?_
    clear_value x1
    exact Reach.next (Via.step (setTally_via ..) rfl h2)

theorem sendSlack_via (s : State) : Via [.regs, .tally, .links, .out] s (sendSlack s) := by
  unfold sendSlack
  extract_lets +onlyGivenNames -merge -underBinder y1
  try clear_value y1
  extract_lets +onlyGivenNames -merge -underBinder x2
  refine Via.cut (t := x2) (Via.step (sendUp_via ..) rfl (Via.refl _ _)) fun h3 => ?_
  clear_value x2
  exact Via.step (setTally_via ..) rfl h3

theorem execHoldReportSend_via (s : State) : Reach [.regs, .tally, .links, .out] s (execHoldReportSend s) := by
  unfold execHoldReportSend
  extract_lets +onlyGivenNames -merge -underBinder y1
  try clear_value y1
  refine Reach.ite (?_) (Reach.next (Via.refl _ _))
  · extract_lets +onlyGivenNames -merge -underBinder y2
    try clear_value y2
    extract_lets +onlyGivenNames -merge -underBinder y3
    try clear_value y3
    extract_lets +onlyGivenNames -merge -underBinder x4
    refine Reach.cut (t := x4) (Via.ite (Via.step (sendUp_via ..) rfl (Via.step (bump_via ..) rfl (Via.refl _ _))) (Via.refl _ _)) fun h5 => ?_
    clear_value x4
    extract_lets +onlyGivenNames -merge -underBinder y6
    try clear_value y6
    extract_lets +onlyGivenNames -merge -underBinder x7
    refine Reach.cut (t := x7) (Via.step (setTally_via ..) rfl h5) fun h8 => ?_
    clear_value x7
    exact Reach.next (Via.ite (Via.step (sendSlack_via ..) rfl h8) h8)

theorem execSlack_via (link : Fin 96) (m : MarkerFlit) (s : State) : Reach [.free, .regs, .views, .log, .tally, .pause, .power, .links, .out] s (execSlack link m s) := by
  unfold execSlack
  exact Reach.next (Via.after (onUp_via rfl (fun _ => Via.ite (Via.step (setTally_via ..) rfl (Via.refl _ _)) (Via.refl _ _))) (Via.refl _ _))

theorem takeDecide_via (s : State) (q : Nat) (next : Nat) : Via [.regs, .tally] s (takeDecide s q next) := by
  unfold takeDecide
  extract_lets +onlyGivenNames -merge -underBinder y1
  try clear_value y1
  extract_lets +onlyGivenNames -merge -underBinder x2
  refine Via.cut (t := x2) (Via.step (setTally_via ..) rfl (Via.refl _ _)) fun h3 => ?_
  clear_value x2
  exact Via.ite h3 (Via.step (bump_via ..) rfl (Via.step (bump_via ..) rfl h3))

theorem takeCredit_via (s : State) (w : Nat) (devs : List Nat) : Via [.tally] s (takeCredit s w devs) := by
  unfold takeCredit
  exact Via.step (setTally_via ..) rfl (Via.refl _ _)

theorem sendCredit_via (s : State) : Via [.regs, .tally, .links, .out] s (sendCredit s) := by
  unfold sendCredit
  refine Via.ite (?_) (Via.refl _ _)
  · extract_lets +onlyGivenNames -merge -underBinder y1
    try clear_value y1
    extract_lets +onlyGivenNames -merge -underBinder y2
    try clear_value y2
    extract_lets +onlyGivenNames -merge -underBinder y3
    try clear_value y3
    extract_lets +onlyGivenNames -merge -underBinder x4
    refine Via.cut (t := x4) (Via.step (sendDown_via ..) rfl (Via.refl _ _)) fun h5 => ?_
    clear_value x4
    extract_lets +onlyGivenNames -merge -underBinder x6
    refine Via.cut (t := x6) (Via.step (takeCredit_via ..) rfl h5) fun h7 => ?_
    clear_value x6
    exact Via.step (setTally_via ..) rfl h7

theorem execDecideSend_via (s : State) : Reach [.regs, .tally, .links, .out] s (execDecideSend s) := by
  unfold execDecideSend
  refine Reach.ite (?_) (Reach.next (Via.refl _ _))
  · extract_lets +onlyGivenNames -merge -underBinder y1
    try clear_value y1
    extract_lets +onlyGivenNames -merge -underBinder x2
    refine Reach.cut (t := x2) (Via.ite (Via.refl _ _) (Via.step (bump_via ..) rfl (Via.refl _ _))) fun h3 => ?_
    clear_value x2
    extract_lets +onlyGivenNames -merge -underBinder y4
    try clear_value y4
    extract_lets +onlyGivenNames -merge -underBinder y5
    try clear_value y5
    extract_lets +onlyGivenNames -merge -underBinder x6
    refine Reach.cut (t := x6) (Via.step (sendDown_via ..) rfl h3) fun h7 => ?_
    clear_value x6
    exact Reach.next (Via.step (sendCredit_via ..) rfl (Via.step (takeDecide_via ..) rfl h7))

theorem execDecide_via (link : Fin 96) (m : MarkerFlit) (s : State) : Reach [.free, .regs, .views, .log, .tally, .pause, .power, .links, .out] s (execDecide link m s) := by
  unfold execDecide
  exact Reach.next (Via.after (onDown_via rfl (fun _ => Via.after (firstOf_via rfl (fun _ => Via.ite (Via.step (takeDecide_via ..) rfl (Via.refl _ _)) (Via.refl _ _))) (Via.refl _ _))) (Via.refl _ _))

theorem execCredit_via (link : Fin 96) (m : MarkerFlit) (s : State) : Reach [.free, .regs, .views, .log, .tally, .pause, .power, .links, .out] s (execCredit link m s) := by
  unfold execCredit
  exact Reach.next (Via.after (onDown_via rfl (fun _ => Via.after (firstOf_via rfl (fun _ => Via.ite (Via.step (takeCredit_via ..) rfl (Via.refl _ _)) (Via.refl _ _))) (Via.refl _ _))) (Via.refl _ _))

theorem recordSlack_via (s : State) (k : Nat) (limit : Nat) : Via [.regs, .tally] s (recordSlack s k limit) := by
  unfold recordSlack
  extract_lets +onlyGivenNames -merge -underBinder y1
  try clear_value y1
  extract_lets +onlyGivenNames -merge -underBinder y2
  try clear_value y2
  extract_lets +onlyGivenNames -merge -underBinder x3
  refine Via.cut (t := x3) (Via.step (wr0_via ..) rfl (Via.refl _ _)) fun h4 => ?_
  clear_value x3
  extract_lets +onlyGivenNames -merge -underBinder y5
  try clear_value y5
  extract_lets +onlyGivenNames -merge -underBinder x6
  refine Via.cut (t := x6) (Via.step (setTally_via ..) rfl h4) fun h7 => ?_
  clear_value x6
  split
  · exact Via.ite (Via.step (bump_via ..) rfl h7) h7
  · exact h7

theorem resolveFold_via (s : State) (f : Nat) : Via [.regs, .views, .log, .folds, .flocks] s (resolveFold s f) := by
  unfold resolveFold
  extract_lets +onlyGivenNames -merge -underBinder y1
  try clear_value y1
  refine Via.ite (?_) (Via.refl _ _)
  · extract_lets +onlyGivenNames -merge -underBinder y2
    try clear_value y2
    extract_lets +onlyGivenNames -merge -underBinder x3
    refine Via.cut (t := x3) (Via.step (wr0_via ..) rfl (Via.step (bump_via ..) rfl (Via.refl _ _))) fun h4 => ?_
    clear_value x3
    extract_lets +onlyGivenNames -merge -underBinder x5
    refine Via.cut (t := x5) (Via.step (modFold_via ..) rfl h4) fun h6 => ?_
    clear_value x5
    exact Via.ite (Via.step (stopDrove_via ..) rfl (Via.step (wr0_via ..) rfl h6)) h6

theorem resolveFault_via (s : State) (k : Nat) (past : Nat) : Via [.regs, .views, .log, .folds, .flocks] s (resolveFault s k past) := by
  unfold resolveFault
  extract_lets +onlyGivenNames -merge -underBinder y1
  try clear_value y1
  extract_lets +onlyGivenNames -merge -underBinder x2
  refine Via.cut (t := x2) (Via.step (modFlock_via ..) rfl (Via.refl _ _)) fun h3 => ?_
  clear_value x2
  exact Via.forEach (fun _ _ => Via.step (resolveFold_via ..) rfl (Via.refl _ _)) (Via.step (stepFault_via ..) rfl h3)

theorem overrun_via (s : State) (k : Nat) (limit : Nat) : Via [.regs, .views, .log, .folds, .flocks] s (overrun s k limit) := by
  unfold overrun
  exact Via.ite (Via.step (resolveFault_via ..) rfl (Via.refl _ _)) (Via.step (stepFault_via ..) rfl (Via.refl _ _))

theorem commitPoint_via (s : State) (k : Nat) : Via [.free, .regs, .views, .log, .folds, .flocks, .tally] s (commitPoint s k) := by
  unfold commitPoint
  extract_lets +onlyGivenNames -merge -underBinder y1
  try clear_value y1
  refine Via.ite (?_) (Via.refl _ _)
  · extract_lets +onlyGivenNames -merge -underBinder y2
    try clear_value y2
    extract_lets +onlyGivenNames -merge -underBinder x3
    refine Via.cut (t := x3) (Via.step (recordSlack_via ..) rfl (Via.refl _ _)) fun h4 => ?_
    clear_value x3
    extract_lets +onlyGivenNames -merge -underBinder x5
    refine Via.cut (t := x5) (Via.ite (Via.step (overrun_via ..) rfl h4) h4) fun h6 => ?_
    clear_value x5
    extract_lets +onlyGivenNames -merge -underBinder x7
    refine Via.cut (t := x7) (Via.forEach (fun _ _ => Via.ite (Via.refl _ _) (Via.step (closeFold_via ..) rfl (Via.refl _ _))) h6) fun h8 => ?_
    clear_value x7
    extract_lets +onlyGivenNames -merge -underBinder x9
    refine Via.cut (t := x9) (Via.ite (Via.step (stepFault_via ..) rfl h8) h8) fun h10 => ?_
    clear_value x9
    exact Via.step (modFlock_via ..) rfl h10

theorem execCommitPoint_via (s : State) : Reach [.free, .regs, .views, .log, .folds, .flocks, .tally, .pause, .power] s (execCommitPoint s) := by
  unfold execCommitPoint
  refine Reach.ite (?_) (Reach.next (Via.refl _ _))
  · extract_lets +onlyGivenNames -merge -underBinder x1
    refine Reach.cut (t := x1) (Via.step (passStretch_via ..) rfl (Via.refl _ _)) fun h2 => ?_
    clear_value x1
    exact Reach.next (orderLog_via _ rfl (Via.forEach (fun _ _ => Via.step (commitPoint_via ..) rfl (Via.refl _ _)) h2))

theorem ownCommit_via (s : State) (k : Nat) : Via [.regs, .views, .log, .flocks] s (ownCommit s k).2 := by
  unfold ownCommit
  extract_lets +onlyGivenNames -merge -underBinder y1
  try clear_value y1
  extract_lets +onlyGivenNames -merge -underBinder y2
  try clear_value y2
  refine Via.ite2 (?_) (Via.refl _ _)
  · extract_lets +onlyGivenNames -merge -underBinder x3
    refine Via.cut (t := x3) (Via.step (logWrite_via ..) rfl (Via.step (errEvent_via ..) rfl (Via.refl _ _))) fun h4 => ?_
    clear_value x3
    try dsimp -zeta only
    exact Via.step (modFlock_via ..) rfl h4

theorem mergedCommit_via (s : State) (k : Nat) : Via [.regs, .views, .log, .flocks] s (mergedCommit s k).2 := by
  unfold mergedCommit
  extract_lets +onlyGivenNames -merge -underBinder y1
  try clear_value y1
  split
  · rename_i v2 v3 e4
    refine Via.cut (Via.pair e4 (Via.ite2 (Via.step (ownCommit_via ..) rfl (Via.refl _ _)) (Via.refl _ _))) fun h5 => ?_
    try dsimp -zeta only
    exact h5

theorem commitEntries_via (s : State) (ks : List Nat) : Via [.regs, .views, .log, .flocks] s (commitEntries s ks).2 := by
  unfold commitEntries
  refine Via.fold2 _ _ ?_ _ (Via.refl _ _)
  intro b s k
  exact Via.step (mergedCommit_via ..) rfl (Via.refl _ _)

theorem execCommitReportSend_via (s : State) : Reach [.regs, .views, .log, .flocks, .links, .out] s (execCommitReportSend s) := by
  unfold execCommitReportSend
  extract_lets +onlyGivenNames -merge -underBinder y1
  try clear_value y1
  refine Reach.ite (?_) (Reach.next (Via.refl _ _))
  · extract_lets +onlyGivenNames -merge -underBinder y2
    try clear_value y2
    extract_lets +onlyGivenNames -merge -underBinder y3
    try clear_value y3
    split
    · rename_i v4 v5 e6
      refine Reach.cut (Via.pair e6 (Via.step (commitEntries_via ..) rfl (Via.refl _ _))) fun h7 => ?_
      exact Reach.next (Via.step (sendUp_via ..) rfl (Via.step (bump_via ..) rfl h7))

theorem takeCommit_via (s : State) (es : List FlockEntry) : Via [.regs, .views, .log, .flocks] s (takeCommit s es) := by
  unfold takeCommit
  exact Via.forEach (fun _ _ => Via.ite (Via.refl _ _) (Via.ite (Via.step (accessError_via ..) rfl (Via.refl _ _)) (Via.step (modFlock_via ..) rfl (Via.refl _ _)))) (Via.refl _ _)

theorem execCommitSend_via (s : State) : Reach [.regs, .views, .log, .flocks, .links, .out] s (execCommitSend s) := by
  unfold execCommitSend
  extract_lets +onlyGivenNames -merge -underBinder y1
  try clear_value y1
  refine Reach.ite (?_) (Reach.next (Via.refl _ _))
  · split
    · rename_i v2 v3 e4
      refine Reach.cut (Via.pair e4 (Via.step (commitEntries_via ..) rfl (Via.step (bump_via ..) rfl (Via.refl _ _)))) fun h5 => ?_
      exact Reach.next (Via.step (takeCommit_via ..) rfl (Via.step (sendDown_via ..) rfl h5))

theorem execCommit_via (link : Fin 96) (m : MarkerFlit) (s : State) : Reach [.free, .regs, .views, .log, .flocks, .tally, .pause, .power, .links, .out] s (execCommit link m s) := by
  unfold execCommit
  exact Reach.next (Via.after (onDown_via rfl (fun _ => Via.after (firstOf_via rfl (fun _ => Via.ite (Via.step (takeCommit_via ..) rfl (Via.refl _ _)) (Via.refl _ _))) (Via.refl _ _))) (Via.refl _ _))

theorem sendSwap_via (s : State) (phase : Nat) (m : Marker) (w : SwapFields) : Via [.regs, .links, .out] s (sendSwap s phase m w) := by
  unfold sendSwap
  exact Via.forEach (fun _ _ => Via.step (sendSeq_via ..) rfl (Via.refl _ _)) (Via.refl _ _)

theorem takeConfirm_via (s : State) (k : Nat) : Via [.regs, .droves, .flocks] s (takeConfirm s k) := by
  unfold takeConfirm
  split
  · exact Via.refl _ _
  · refine Via.ite (Via.step (modFlock_via ..) rfl (Via.refl _ _)) (?_)
    · extract_lets +onlyGivenNames -merge -underBinder x1
      refine Via.cut (t := x1) (Via.step (modFlock_via ..) rfl (Via.refl _ _)) fun h2 => ?_
      clear_value x1
      split
      · exact Via.step (putDrove_via ..) rfl h2
      · exact h2

theorem swapStatus_via (s : State) (p : Option Nat) (dg : List Byte) (status : Nat) : Via [.regs, .droves] s (swapStatus s p dg status) := by
  unfold swapStatus
  split
  · exact Via.step (putDrove_via ..) rfl (Via.refl _ _)
  · exact Via.refl _ _

theorem answerSwap_via (s : State) (h : MsgHead) (dg : List Byte) (status : Nat) : Via [.regs, .droves, .net, .out] s (answerSwap s h dg status) := by
  unfold answerSwap
  exact Via.step (respond_via ..) rfl (Via.step (swapStatus_via ..) rfl (Via.refl _ _))

theorem refuseSwap_via (s : State) (k : Fin 16) (w : Swap) (status : Nat) : Via [.regs, .droves, .flocks, .links, .net, .out] s (refuseSwap s k w status) := by
  unfold refuseSwap
  extract_lets +onlyGivenNames -merge -underBinder x1
  refine Via.cut (t := x1) (Via.step (sendSwap_via ..) rfl (Via.refl _ _)) fun h2 => ?_
  clear_value x1
  extract_lets +onlyGivenNames -merge -underBinder x3
  refine Via.cut (t := x3) (Via.step (modFlock_via ..) rfl h2) fun h4 => ?_
  clear_value x3
  split
  · exact Via.step (answerSwap_via ..) rfl h4
  · exact h4

theorem confirmSwap_via (s : State) (k : Fin 16) (w : Swap) : Via [.regs, .droves, .flocks, .links, .net, .out] s (confirmSwap s k w) := by
  unfold confirmSwap
  extract_lets +onlyGivenNames -merge -underBinder x1
  refine Via.cut (t := x1) (Via.step (takeConfirm_via ..) rfl (Via.step (sendSwap_via ..) rfl (Via.refl _ _))) fun h2 => ?_
  clear_value x1
  split
  · exact Via.step (answerSwap_via ..) rfl h2
  · exact h2

theorem settleSwap_via (s : State) (k : Fin 16) : Via [.regs, .droves, .flocks, .links, .net, .out] s (settleSwap s k) := by
  unfold settleSwap
  split
  · exact Via.refl _ _
  · exact Via.ite (Via.refl _ _) (Via.ite (Via.step (refuseSwap_via ..) rfl (Via.refl _ _)) (Via.ite (Via.ite (Via.step (confirmSwap_via ..) rfl (Via.refl _ _)) (Via.step (refuseSwap_via ..) rfl (Via.refl _ _))) (Via.refl _ _)))

theorem settleSwaps_via (s : State) : Via [.regs, .droves, .flocks, .links, .net, .out] s (settleSwaps s) := by
  unfold settleSwaps
  exact Via.ite (Via.forEach (fun _ _ => Via.step (settleSwap_via ..) rfl (Via.refl _ _)) (Via.refl _ _)) (Via.refl _ _)

theorem takeReady_via (s : State) (l : Nat) (m : Marker) : Via [.flocks] s (takeReady s l m) := by
  unfold takeReady
  refine Via.forEach (?_) (Via.refl _ _)
  · intro s1 a2
    extract_lets +onlyGivenNames -merge -underBinder y3
    try clear_value y3
    exact Via.step (modFlock_via ..) rfl (Via.refl _ _)

theorem takeStates_via (s : State) (m : Marker) : Via [.flocks] s (takeStates s m) := by
  unfold takeStates
  exact Via.forEach (fun _ _ => Via.step (modFlock_via ..) rfl (Via.refl _ _)) (Via.refl _ _)

theorem takeHold_via (s : State) (l : Nat) (m : Marker) : Via [.regs, .tally] s (takeHold s l m) := by
  unfold takeHold
  extract_lets +onlyGivenNames -merge -underBinder y1
  try clear_value y1
  extract_lets +onlyGivenNames -merge -underBinder y2
  try clear_value y2
  extract_lets +onlyGivenNames -merge -underBinder x3
  refine Via.cut (t := x3) (Via.ite (Via.step (bump_via ..) rfl (Via.refl _ _)) (Via.step (setTally_via ..) rfl (Via.refl _ _))) fun h4 => ?_
  clear_value x3
  exact Via.step (setTally_via ..) rfl h4

theorem execReport_via (link : Fin 96) (m : MarkerFlit) (s : State) : Reach [.free, .regs, .views, .log, .droves, .flocks, .tally, .pause, .power, .links, .net, .out] s (execReport link m s) := by
  unfold execReport
  exact Reach.next (Via.after (onUp_via rfl (fun _ => Via.ite (Via.step (settleSwaps_via ..) rfl (Via.step (takeReady_via ..) rfl (Via.ite (Via.step (takeStates_via ..) rfl (Via.refl _ _)) (Via.step (takeHold_via ..) rfl (Via.refl _ _))))) (Via.refl _ _))) (Via.refl _ _))

theorem takeAnnounce.set_via (s : State) (w : SwapFields) (origin : Option MsgHead) : Via [.flocks] s (takeAnnounce.set s w origin) := by
  unfold takeAnnounce.set
  extract_lets +onlyGivenNames -merge -underBinder y1
  try clear_value y1
  exact Via.step (modFlock_via ..) rfl (Via.refl _ _)

theorem takeAnnounce_via (s : State) (w : SwapFields) (origin : Option MsgHead) : Via [.flocks] s (takeAnnounce s w origin) := by
  unfold takeAnnounce
  split
  · exact Via.ite (Via.refl _ _) (Via.step (takeAnnounce.set_via ..) rfl (Via.refl _ _))
  · exact Via.step (takeAnnounce.set_via ..) rfl (Via.refl _ _)

theorem swapMarker_via {s : State} {l : Nat} {phase : Nat} {h : FlitHead} {m : Marker} {w : SwapFields} {g : State → State} {ps : List StatePart} (hb : ([.free, .regs, .views, .log, .tally, .pause, .power, .links, .out].all fun p => ps.contains p) = true) (hg : ∀ a0, Via ps a0 (g a0)) :
    Via ps s (swapMarker s l phase h m w g) := by
  unfold swapMarker
  refine Via.after (onDown_via (within rfl hb) (?_)) (Via.refl _ _)
  · intro s1
    refine Via.ite (Via.refl _ _) (?_)
    · extract_lets +onlyGivenNames -merge -underBinder y2
      try clear_value y2
      extract_lets +onlyGivenNames -merge -underBinder y3
      try clear_value y3
      extract_lets +onlyGivenNames -merge -underBinder x4
      refine Via.cut (t := x4) (Via.step (sendSwap_via ..) (within rfl hb) (Via.step (setTally_via ..) (within rfl hb) (Via.refl _ _))) fun h5 => ?_
      clear_value x4
      exact Via.ite (Via.after (hg ..) h5) h5

theorem execSwapAnnounce_via (link : Fin 96) (w : SwapFlit) (s : State) : Reach [.free, .regs, .views, .log, .flocks, .tally, .pause, .power, .links, .out] s (execSwapAnnounce link w s) := by
  unfold execSwapAnnounce
  exact Reach.next (Via.after (swapMarker_via rfl (fun _ => Via.step (takeAnnounce_via ..) rfl (Via.refl _ _))) (Via.refl _ _))

theorem execSwapConfirm_via (link : Fin 96) (w : SwapFlit) (s : State) : Reach [.free, .regs, .views, .log, .droves, .flocks, .tally, .pause, .power, .links, .out] s (execSwapConfirm link w s) := by
  unfold execSwapConfirm
  exact Reach.next (Via.after (swapMarker_via rfl (fun _ => Via.step (takeConfirm_via ..) rfl (Via.refl _ _))) (Via.refl _ _))

theorem takeRefuse_via (s : State) (w : SwapFields) : Via [.regs, .droves, .flocks] s (takeRefuse s w) := by
  unfold takeRefuse
  split
  · exact Via.ite (Via.refl _ _) (Via.step (modFlock_via ..) rfl (Via.step (swapStatus_via ..) rfl (Via.refl _ _)))
  · exact Via.refl _ _

theorem execSwapRefuse_via (link : Fin 96) (w : SwapFlit) (s : State) : Reach [.free, .regs, .views, .log, .droves, .flocks, .tally, .pause, .power, .links, .out] s (execSwapRefuse link w s) := by
  unfold execSwapRefuse
  exact Reach.next (Via.after (swapMarker_via rfl (fun _ => Via.step (takeRefuse_via ..) rfl (Via.refl _ _))) (Via.refl _ _))

theorem requestSwap_via (s : State) (h : MsgHead) (k : Fin 16) (incoming : List Byte) (ts : Nat) : Via [.regs, .droves, .flocks, .links, .net, .out] s (requestSwap s h k incoming ts) := by
  unfold requestSwap
  extract_lets +onlyGivenNames -merge -underBinder y1
  try clear_value y1
  refine Via.ite (Via.step (answerSwap_via ..) rfl (Via.refl _ _)) (Via.ite (Via.step (answerSwap_via ..) rfl (Via.refl _ _)) (Via.ite (Via.step (answerSwap_via ..) rfl (Via.refl _ _)) (?_)))
  · extract_lets +onlyGivenNames -merge -underBinder x2
    refine Via.cut (t := x2) (?_) fun h3 => ?_
    · subst x2
      split
      · split
        · exact Via.step (answerSwap_via ..) rfl (Via.refl _ _)
        · exact Via.refl _ _
      · exact Via.refl _ _
    clear_value x2
    extract_lets +onlyGivenNames -merge -underBinder y4
    try clear_value y4
    exact Via.step (takeAnnounce_via ..) rfl (Via.step (sendSwap_via ..) rfl h3)

theorem doDroveSwap_via (h : MsgHead) (body : List Byte) (s : State) : Via [.regs, .droves, .flocks, .links, .net, .out] s (doDroveSwap h body s) := by
  unfold doDroveSwap
  exact Via.ite (Via.step (answerSwap_via ..) rfl (Via.refl _ _)) (Via.step (requestSwap_via ..) rfl (Via.refl _ _))

theorem msgDroveSwap_via (s : State) (h : MsgHead) (body : List Byte) : Via [.regs, .droves, .flocks, .links, .net, .out] s (msgDroveSwap s h body) := by
  unfold msgDroveSwap
  exact Via.after (message_via rfl (fun _ _ => Via.step (doDroveSwap_via ..) rfl (Via.refl _ _))) (Via.refl _ _)

theorem execDroveSwap_via (h : MsgHead) (body : List Byte) (s : State) : Reach [.regs, .droves, .flocks, .links, .net, .out] s (execDroveSwap h body s) := by
  unfold execDroveSwap
  exact Reach.next (Via.after (sendIn_via rfl (fun _ => Via.step (msgDroveSwap_via ..) rfl (Via.refl _ _))) (Via.refl _ _))

end Sys2Proof.Machine
end

