-- ==== Sys2Proof/Laws/ViaDroveLoad.lean ====
section
/-! SUPPORT. What each operation of Machine/DroveLoad.lean can touch: the pieces it names, and the memories keep their canonical form. -/

namespace Sys2Proof.Machine

open Sys2Proof

theorem reloadFailed_via (s : State) (e : Option Nat) (st : Nat) : Via [.regs, .droves] s (reloadFailed s e st) := by
  unfold reloadFailed
  split
  · exact Via.ite (Via.step (putDrove_via ..) rfl (Via.refl _ _)) (Via.refl _ _)
  · exact Via.refl _ _

theorem doDroveLoad_via (h : MsgHead) (body : List Byte) (s : State) : Via [.regs, .droves, .net, .out] s (doDroveLoad h body s) := by
  unfold doDroveLoad
  extract_lets +onlyGivenNames -merge -underBinder y1
  try clear_value y1
  extract_lets +onlyGivenNames -merge -underBinder y2
  try clear_value y2
  extract_lets +onlyGivenNames -merge -underBinder y3
  try clear_value y3
  extract_lets +onlyGivenNames -merge -underBinder y4
  try clear_value y4
  extract_lets +onlyGivenNames -merge -underBinder y5
  try clear_value y5
  extract_lets +onlyGivenNames -merge -underBinder y6
  try clear_value y6
  refine Via.ite (Via.step (respond_via ..) rfl (Via.step (reloadFailed_via ..) rfl (Via.refl _ _))) (?_)
  · split
    · exact Via.step (putDrove_via ..) rfl (Via.refl _ _)
    · exact Via.step (respond_via ..) rfl (Via.refl _ _)

theorem msgDroveLoad_via (s : State) (h : MsgHead) (body : List Byte) : Via [.regs, .droves, .net, .out] s (msgDroveLoad s h body) := by
  unfold msgDroveLoad
  exact Via.after (message_via rfl (fun _ _ => Via.step (doDroveLoad_via ..) rfl (Via.refl _ _))) (Via.refl _ _)

theorem execDroveLoad_via (h : MsgHead) (body : List Byte) (s : State) : Reach [.regs, .droves, .net, .out] s (execDroveLoad h body s) := by
  unfold execDroveLoad
  exact Reach.next (Via.after (sendIn_via rfl (fun _ => Via.step (msgDroveLoad_via ..) rfl (Via.refl _ _))) (Via.refl _ _))

theorem execDroveLoadDone_via (entry : Fin 32) (s : State) : Reach [.regs, .droves, .net, .out] s (execDroveLoadDone entry s) := by
  unfold execDroveLoadDone
  extract_lets +onlyGivenNames -merge -underBinder y1
  try clear_value y1
  refine Reach.ite (?_) (Reach.next (Via.refl _ _))
  · extract_lets +onlyGivenNames -merge -underBinder x2
    refine Reach.cut (t := x2) (Via.step (putDrove_via ..) rfl (Via.refl _ _)) fun h3 => ?_
    clear_value x2
    refine Reach.next (?_)
    · split
      · exact Via.step (respond_via ..) rfl h3
      · exact h3

theorem doDroveUnload_via (h : MsgHead) (body : List Byte) (s : State) : Via [.regs, .droves, .net, .out] s (doDroveUnload h body s) := by
  unfold doDroveUnload
  split
  · exact Via.step (respond_via ..) rfl (Via.refl _ _)
  · extract_lets +onlyGivenNames -merge -underBinder y1
    try clear_value y1
    exact Via.ite (Via.step (respond_via ..) rfl (Via.step (putDrove_via ..) rfl (Via.refl _ _))) (Via.step (respond_via ..) rfl (Via.step (putDrove_via ..) rfl (Via.refl _ _)))

theorem msgDroveUnload_via (s : State) (h : MsgHead) (body : List Byte) : Via [.regs, .droves, .net, .out] s (msgDroveUnload s h body) := by
  unfold msgDroveUnload
  exact Via.after (message_via rfl (fun _ _ => Via.step (doDroveUnload_via ..) rfl (Via.refl _ _))) (Via.refl _ _)

theorem execDroveUnload_via (h : MsgHead) (body : List Byte) (s : State) : Reach [.regs, .droves, .net, .out] s (execDroveUnload h body s) := by
  unfold execDroveUnload
  exact Reach.next (Via.after (sendIn_via rfl (fun _ => Via.step (msgDroveUnload_via ..) rfl (Via.refl _ _))) (Via.refl _ _))

theorem eraseSeg_via (s : State) (f : Nat) : Via [.seg] s (eraseSeg s f) := by
  unfold eraseSeg
  exact setSeg_via _ _ fun h => canonical_filter _ _ _ h

theorem pageSeg_via (s : State) (f p w : Nat) : Via [.seg] s (pageSeg s f p w) := by
  unfold pageSeg
  refine setSeg_via _ _ fun h => ?_
  refine List.foldlRecOn (motive := fun m => canonical emptyByte m = true) s.mem _ (canonical_filter _ _ _ h) fun m hm e _ => ?_
  split
  · split
    · exact canonical_putD _ _ _ _ hm
    · exact hm
  · exact hm

theorem pageFold_via (s : State) (r : Nat) (f : Nat) : Via [.seg] s (pageFold s r f) := by
  unfold pageFold
  split
  · exact Via.step (eraseSeg_via ..) rfl (Via.refl _ _)
  · split
    · exact Via.step (pageSeg_via ..) rfl (Via.refl _ _)
    · exact Via.step (eraseSeg_via ..) rfl (Via.refl _ _)

end Sys2Proof.Machine
end

