-- ==== Sys2Proof/Laws/ViaWeights.lean ====
section
/-! SUPPORT. What each operation of Machine/Weights.lean can touch: the pieces it names, and the memories keep their canonical form. -/

namespace Sys2Proof.Machine

open Sys2Proof

theorem showLoader_via (s : State) (t : Nat) : Via [.regs] s (showLoader s t) := by
  unfold showLoader
  exact Via.step (wr_via ..) rfl (Via.step (wr0_via ..) rfl (Via.refl _ _))

theorem putArrival_via (s : State) (a : Arrival) (b : Arrival) : Via [.weights] s (putArrival s a b) := by
  unfold putArrival
  exact Via.step (setWeights_via ..) rfl (Via.refl _ _)

theorem newCid_via (s : State) : Via [.weights] s (newCid s).2 := by
  unfold newCid
  try dsimp -zeta only
  exact Via.step (setWeights_via ..) rfl (Via.refl _ _)

theorem sendCmd_via (s : State) (a : Arrival) (c : NvmeCmd) : Via [.regs, .net, .out] s (sendCmd s a c) := by
  unfold sendCmd
  split
  · exact Via.ite (Via.step (post_via ..) rfl (Via.refl _ _)) (Via.refl _ _)
  · exact Via.refl _ _

theorem askNext_via (s : State) (a : Arrival) : Via [.free, .regs, .weights, .net, .out] s (askNext s a) := by
  unfold askNext
  split
  · rename_i v1 v2 e3
    refine Via.cut (Via.pair e3 (Via.step (drawNat_via ..) rfl (Via.refl _ _))) fun h4 => ?_
    extract_lets +onlyGivenNames -merge -underBinder y5
    try clear_value y5
    extract_lets +onlyGivenNames -merge -underBinder y6
    try clear_value y6
    split
    · rename_i v7 v8 e9
      refine Via.cut (Via.pair e9 (Via.step (newCid_via ..) rfl h4)) fun h10 => ?_
      extract_lets +onlyGivenNames -merge -underBinder y11
      try clear_value y11
      exact Via.step (sendCmd_via ..) rfl (Via.step (putArrival_via ..) rfl h10)

theorem pump_via (s : State) (t fuel : Nat) : Via [.free, .regs, .weights, .net, .out] s (pump s t fuel) := by
  induction fuel generalizing s with
  | zero => exact Via.refl _ _
  | succ n ih =>
    unfold pump
    refine Via.ite (Via.refl _ _) ?_
    split
    · exact Via.trans (Via.step (askNext_via ..) rfl (Via.refl _ _)) (ih _)
    · exact Via.refl _ _

theorem pumpAll_via (s : State) : Via [.free, .regs, .weights, .net, .out] s (pumpAll s) := by
  unfold pumpAll
  exact Via.forEach (fun _ _ => Via.step (showLoader_via ..) rfl (Via.step (pump_via ..) rfl (Via.refl _ _))) (Via.refl _ _)

theorem endShard_via (s : State) (a : Arrival) (status : Nat) (more : List Byte) : Via [.free, .regs, .weights, .net, .out] s (endShard s a status more) := by
  unfold endShard
  extract_lets +onlyGivenNames -merge -underBinder y1
  try clear_value y1
  extract_lets +onlyGivenNames -merge -underBinder x2
  refine Via.cut (t := x2) (Via.step (setWeights_via ..) rfl (Via.refl _ _)) fun h3 => ?_
  clear_value x2
  extract_lets +onlyGivenNames -merge -underBinder x4
  refine Via.cut (t := x4) (?_) fun h5 => ?_
  · subst x4
    split
    · exact h3
    · extract_lets +onlyGivenNames -merge -underBinder x6
      refine Via.cut (t := x6) (Via.step (wr0_via ..) rfl (Via.step (bump_via ..) rfl h3)) fun h7 => ?_
      clear_value x6
      extract_lets +onlyGivenNames -merge -underBinder x8
      refine Via.cut (t := x8) (Via.ite (Via.step (bump_via ..) rfl h3) (Via.step (wr0_via ..) rfl (Via.step (wr0_via ..) rfl h7))) fun h9 => ?_
      clear_value x8
      exact Via.step (respond_via ..) rfl h9
  clear_value x4
  exact Via.step (pumpAll_via ..) rfl h5

theorem countIn_via (s : State) (n : Nat) : Via [.regs, .weights] s (countIn s n) := by
  unfold countIn
  extract_lets +onlyGivenNames -merge -underBinder y1
  try clear_value y1
  exact Via.step (bump_via ..) rfl (Via.step (setWeights_via ..) rfl (Via.refl _ _))

theorem putShards_via (s : State) (p : Nat) (k : Nat) (xs : List Shard) : Via [.regs, .weights] s (putShards s p k xs) := by
  unfold putShards
  exact Via.step (wr_via ..) rfl (Via.step (setWeights_via ..) rfl (Via.refl _ _))

theorem readHeader_via (s : State) (a : Arrival) (hd : List Byte) : Via [.free, .regs, .weights, .net, .out] s (readHeader s a hd) := by
  unfold readHeader
  split
  · exact Via.step (putArrival_via ..) rfl (Via.refl _ _)
  · extract_lets +onlyGivenNames -merge -underBinder y1
    try clear_value y1
    split
    · refine Via.ite (Via.step (putArrival_via ..) rfl (Via.refl _ _)) (?_)
      · extract_lets +onlyGivenNames -merge -underBinder y2
        try clear_value y2
        exact Via.step (endShard_via ..) rfl (Via.step (putArrival_via ..) rfl (Via.refl _ _))

theorem dropRepairs_via (s : State) (test : Arrival → Bool) : Via [.regs, .weights] s (dropRepairs s test) := by
  unfold dropRepairs
  extract_lets +onlyGivenNames -merge -underBinder y1
  try clear_value y1
  extract_lets +onlyGivenNames -merge -underBinder x2
  refine Via.cut (t := x2) (Via.step (setWeights_via ..) rfl (Via.refl _ _)) fun h3 => ?_
  clear_value x2
  exact Via.step (wr0_via ..) rfl h3

theorem answer_via (s : State) (h : MsgHead) (typ : Nat) (status : Nat) (more : List Byte) : Via [.regs, .net, .out] s (answer s h typ status more) := by
  unfold answer
  exact Via.step (respond_via ..) rfl (Via.refl _ _)

theorem doEpochOpen_via (h : MsgHead) (body : List Byte) (s : State) : Via [.regs, .net, .out] s (doEpochOpen h body s) := by
  unfold doEpochOpen
  extract_lets +onlyGivenNames -merge -underBinder y1
  try clear_value y1
  extract_lets +onlyGivenNames -merge -underBinder y2
  try clear_value y2
  extract_lets +onlyGivenNames -merge -underBinder y3
  try clear_value y3
  refine Via.ite (Via.step (answer_via ..) rfl (Via.refl _ _)) (?_)
  · extract_lets +onlyGivenNames -merge -underBinder y4
    try clear_value y4
    split
    · exact Via.step (answer_via ..) rfl (Via.refl _ _)
    · extract_lets +onlyGivenNames -merge -underBinder x5
      refine Via.cut (t := x5) (Via.step (wr_via ..) rfl (Via.step (wr_via ..) rfl (Via.refl _ _))) fun h6 => ?_
      clear_value x5
      extract_lets +onlyGivenNames -merge -underBinder x7
      refine Via.cut (t := x7) (Via.ite (Via.step (wr_via ..) rfl h6) h6) fun h8 => ?_
      clear_value x7
      exact Via.step (answer_via ..) rfl h8

theorem msgEpochOpen_via (s : State) (h : MsgHead) (body : List Byte) : Via [.regs, .net, .out] s (msgEpochOpen s h body) := by
  unfold msgEpochOpen
  exact Via.after (message_via rfl (fun _ _ => Via.step (doEpochOpen_via ..) rfl (Via.refl _ _))) (Via.refl _ _)

theorem execEpochOpen_via (h : MsgHead) (body : List Byte) (s : State) : Reach [.regs, .net, .out] s (execEpochOpen h body s) := by
  unfold execEpochOpen
  exact Reach.next (Via.after (sendIn_via rfl (fun _ => Via.step (msgEpochOpen_via ..) rfl (Via.refl _ _))) (Via.refl _ _))

theorem addArrival_via (s : State) (a : Arrival) : Via [.weights] s (addArrival s a) := by
  unfold addArrival
  exact Via.step (setWeights_via ..) rfl (Via.refl _ _)

theorem wantTarget_via (s : State) (t : Nat) : Via [.free, .regs, .weights, .net, .out] s (wantTarget s t) := by
  unfold wantTarget
  exact Via.ite (Via.step (connectTarget_via ..) rfl (Via.refl _ _)) (Via.refl _ _)

theorem failTarget_via (s : State) (t : Nat) : Via [.free, .regs, .weights, .net, .out] s (failTarget s t) := by
  unfold failTarget
  exact Via.forEach (fun _ _ => Via.step (endShard_via ..) rfl (Via.refl _ _)) (Via.refl _ _)

theorem doShardFetch_via (h : MsgHead) (body : List Byte) (s : State) : Via [.free, .regs, .weights, .net, .out] s (doShardFetch h body s) := by
  unfold doShardFetch
  extract_lets +onlyGivenNames -merge -underBinder y1
  try clear_value y1
  extract_lets +onlyGivenNames -merge -underBinder y2
  try clear_value y2
  exact Via.ite (Via.step (answer_via ..) rfl (Via.refl _ _)) (Via.ite (Via.step (endShard_via ..) rfl (Via.refl _ _)) (Via.step (pumpAll_via ..) rfl (Via.step (wantTarget_via ..) rfl (Via.step (addArrival_via ..) rfl (Via.refl _ _)))))

theorem msgShardFetch_via (s : State) (h : MsgHead) (body : List Byte) : Via [.free, .regs, .weights, .net, .out] s (msgShardFetch s h body) := by
  unfold msgShardFetch
  exact Via.after (message_via rfl (fun _ _ => Via.step (doShardFetch_via ..) rfl (Via.refl _ _))) (Via.refl _ _)

theorem execShardFetch_via (h : MsgHead) (body : List Byte) (s : State) : Reach [.free, .regs, .weights, .net, .out] s (execShardFetch h body s) := by
  unfold execShardFetch
  exact Reach.next (Via.after (sendIn_via rfl (fun _ => Via.step (msgShardFetch_via ..) rfl (Via.refl _ _))) (Via.refl _ _))

theorem doShardPush_via (h : MsgHead) (body : List Byte) (s : State) : Via [.free, .regs, .weights, .net, .out] s (doShardPush h body s) := by
  unfold doShardPush
  extract_lets +onlyGivenNames -merge -underBinder y1
  try clear_value y1
  extract_lets +onlyGivenNames -merge -underBinder y2
  try clear_value y2
  extract_lets +onlyGivenNames -merge -underBinder y3
  try clear_value y3
  refine Via.ite (Via.step (answer_via ..) rfl (Via.refl _ _)) (Via.ite (Via.step (endShard_via ..) rfl (Via.refl _ _)) (?_))
  · extract_lets +onlyGivenNames -merge -underBinder x4
    refine Via.cut (t := x4) (Via.step (addArrival_via ..) rfl (Via.refl _ _)) fun h5 => ?_
    clear_value x4
    exact Via.step (readHeader_via ..) rfl (Via.step (wr0_via ..) rfl h5)

theorem msgShardPush_via (s : State) (h : MsgHead) (body : List Byte) : Via [.free, .regs, .weights, .net, .out] s (msgShardPush s h body) := by
  unfold msgShardPush
  exact Via.after (message_via rfl (fun _ _ => Via.step (doShardPush_via ..) rfl (Via.refl _ _))) (Via.refl _ _)

theorem execShardPush_via (h : MsgHead) (body : List Byte) (s : State) : Reach [.free, .regs, .weights, .net, .out] s (execShardPush h body s) := by
  unfold execShardPush
  exact Reach.next (Via.after (sendIn_via rfl (fun _ => Via.step (msgShardPush_via ..) rfl (Via.refl _ _))) (Via.refl _ _))

theorem doArrivalCancel_via (h : MsgHead) (body : List Byte) (s : State) : Via [.free, .regs, .weights, .net, .out] s (doArrivalCancel h body s) := by
  unfold doArrivalCancel
  split
  · exact Via.step (answer_via ..) rfl (Via.step (endShard_via ..) rfl (Via.refl _ _))
  · exact Via.step (answer_via ..) rfl (Via.refl _ _)

theorem msgArrivalCancel_via (s : State) (h : MsgHead) (body : List Byte) : Via [.free, .regs, .weights, .net, .out] s (msgArrivalCancel s h body) := by
  unfold msgArrivalCancel
  exact Via.after (message_via rfl (fun _ _ => Via.step (doArrivalCancel_via ..) rfl (Via.refl _ _))) (Via.refl _ _)

theorem execArrivalCancel_via (h : MsgHead) (body : List Byte) (s : State) : Reach [.free, .regs, .weights, .net, .out] s (execArrivalCancel h body s) := by
  unfold execArrivalCancel
  exact Reach.next (Via.after (sendIn_via rfl (fun _ => Via.step (msgArrivalCancel_via ..) rfl (Via.refl _ _))) (Via.refl _ _))

theorem doEpochSwitch_via (h : MsgHead) (body : List Byte) (s : State) : Via [.regs, .weights, .net, .out] s (doEpochSwitch h body s) := by
  unfold doEpochSwitch
  extract_lets +onlyGivenNames -merge -underBinder y1
  try clear_value y1
  extract_lets +onlyGivenNames -merge -underBinder y2
  try clear_value y2
  extract_lets +onlyGivenNames -merge -underBinder y3
  try clear_value y3
  split
  · refine Via.ite (Via.step (answer_via ..) rfl (Via.refl _ _)) (?_)
    · extract_lets +onlyGivenNames -merge -underBinder y4
      try clear_value y4
      extract_lets +onlyGivenNames -merge -underBinder x5
      refine Via.cut (t := x5) (Via.step (wr_via ..) rfl (Via.refl _ _)) fun h6 => ?_
      clear_value x5
      extract_lets +onlyGivenNames -merge -underBinder x7
      refine Via.cut (t := x7) (Via.step (wr0_via ..) rfl (Via.step (wr0_via ..) rfl (Via.step (wr0_via ..) rfl h6))) fun h8 => ?_
      clear_value x7
      extract_lets +onlyGivenNames -merge -underBinder x9
      refine Via.cut (t := x9) (Via.step (wrPair_via ..) rfl h8) fun h10 => ?_
      clear_value x9
      exact Via.step (answer_via ..) rfl (Via.step (setWeights_via ..) rfl h10)

theorem msgEpochSwitch_via (s : State) (h : MsgHead) (body : List Byte) : Via [.regs, .weights, .net, .out] s (msgEpochSwitch s h body) := by
  unfold msgEpochSwitch
  exact Via.after (message_via rfl (fun _ _ => Via.step (doEpochSwitch_via ..) rfl (Via.refl _ _))) (Via.refl _ _)

theorem execEpochSwitch_via (h : MsgHead) (body : List Byte) (s : State) : Reach [.regs, .weights, .net, .out] s (execEpochSwitch h body s) := by
  unfold execEpochSwitch
  exact Reach.next (Via.after (sendIn_via rfl (fun _ => Via.step (msgEpochSwitch_via ..) rfl (Via.refl _ _))) (Via.refl _ _))

theorem doEpochRetire_via (h : MsgHead) (body : List Byte) (s : State) : Via [.free, .regs, .weights, .net, .out] s (doEpochRetire h body s) := by
  unfold doEpochRetire
  extract_lets +onlyGivenNames -merge -underBinder y1
  try clear_value y1
  extract_lets +onlyGivenNames -merge -underBinder y2
  try clear_value y2
  refine Via.ite (Via.step (answer_via ..) rfl (Via.refl _ _)) (?_)
  · split
    · exact Via.step (answer_via ..) rfl (Via.refl _ _)
    · refine Via.ite (Via.step (answer_via ..) rfl (Via.refl _ _)) (Via.ite (Via.step (answer_via ..) rfl (Via.refl _ _)) (?_))
      · extract_lets +onlyGivenNames -merge -underBinder y3
        try clear_value y3
        extract_lets +onlyGivenNames -merge -underBinder x4
        refine Via.cut (t := x4) (Via.step (setWeights_via ..) rfl (Via.refl _ _)) fun h5 => ?_
        clear_value x4
        extract_lets +onlyGivenNames -merge -underBinder y6
        try clear_value y6
        extract_lets +onlyGivenNames -merge -underBinder x7
        refine Via.cut (t := x7) (Via.forEach (fun _ _ => Via.step (endShard_via ..) rfl (Via.refl _ _)) h5) fun h8 => ?_
        clear_value x7
        exact Via.step (answer_via ..) rfl (Via.step (dropRepairs_via ..) rfl h8)

theorem msgEpochRetire_via (s : State) (h : MsgHead) (body : List Byte) : Via [.free, .regs, .weights, .net, .out] s (msgEpochRetire s h body) := by
  unfold msgEpochRetire
  exact Via.after (message_via rfl (fun _ _ => Via.step (doEpochRetire_via ..) rfl (Via.refl _ _))) (Via.refl _ _)

theorem execEpochRetire_via (h : MsgHead) (body : List Byte) (s : State) : Reach [.free, .regs, .weights, .net, .out] s (execEpochRetire h body s) := by
  unfold execEpochRetire
  exact Reach.next (Via.after (sendIn_via rfl (fun _ => Via.step (msgEpochRetire_via ..) rfl (Via.refl _ _))) (Via.refl _ _))

theorem loseTarget_via (s : State) (t : Nat) : Via [.regs, .weights, .net] s (loseTarget s t) := by
  unfold loseTarget
  split
  · exact Via.step (dropTarget_via ..) rfl (Via.step (putQp_via ..) rfl (Via.refl _ _))
  · exact Via.step (dropTarget_via ..) rfl (Via.refl _ _)

theorem retryCmd_via (s : State) (a : Arrival) (c : NvmeCmd) (status : Nat) : Via [.free, .regs, .weights, .net, .out] s (retryCmd s a c status) := by
  unfold retryCmd
  refine Via.ite (?_) (Via.step (endShard_via ..) rfl (Via.ite (Via.step (loseTarget_via ..) rfl (Via.refl _ _)) (Via.refl _ _)))
  · split
    · rename_i v1 v2 e3
      refine Via.cut (Via.pair e3 (Via.step (newCid_via ..) rfl (Via.step (bump_via ..) rfl (Via.refl _ _)))) fun h4 => ?_
      extract_lets +onlyGivenNames -merge -underBinder y5
      try clear_value y5
      exact Via.step (sendCmd_via ..) rfl (Via.step (wantTarget_via ..) rfl (Via.step (putArrival_via ..) rfl h4))

theorem completionIn_via {s : State} {t : Nat} {n : Nat} {k : Pkt} {g : State → State} {ps : List StatePart} (hb : ([.regs, .net, .out].all fun p => ps.contains p) = true) (hg : ∀ a0, Via ps a0 (g a0)) :
    Via ps s (completionIn s t n k g) := by
  unfold completionIn
  split
  · exact Via.after (takePackets_via (within rfl hb) (hg)) (Via.refl _ _)
  · exact Via.refl _ _

theorem execNvmeCompletion_via (target : Fin 64) (cid : Nat) (ends : NvmeEnd) (data : List Byte) (s : State) : Reach [.free, .regs, .weights, .net, .out] s (execNvmeCompletion target cid ends data s) := by
  unfold execNvmeCompletion
  refine Reach.next (?_)
  · split
    · exact Via.refl _ _
    · refine Via.after (completionIn_via rfl (?_)) (Via.refl _ _)
      · intro s1
        refine Via.ite (Via.step (retryCmd_via ..) rfl (Via.refl _ _)) (?_)
        · extract_lets +onlyGivenNames -merge -underBinder x2
          refine Via.cut (t := x2) (Via.step (countIn_via ..) rfl (Via.refl _ _)) fun h3 => ?_
          clear_value x2
          extract_lets +onlyGivenNames -merge -underBinder y4
          try clear_value y4
          extract_lets +onlyGivenNames -merge -underBinder y5
          try clear_value y5
          extract_lets +onlyGivenNames -merge -underBinder x6
          refine Via.cut (t := x6) (Via.step (putArrival_via ..) rfl h3) fun h7 => ?_
          clear_value x6
          exact Via.step (pumpAll_via ..) rfl (Via.ite (Via.step (readHeader_via ..) rfl h7) h7)

theorem execNvmeTimeout_via (target : Fin 64) (cid : Nat) (s : State) : Reach [.free, .regs, .weights, .net, .out] s (execNvmeTimeout target cid s) := by
  unfold execNvmeTimeout
  refine Reach.next (?_)
  · split
    · exact Via.refl _ _
    · exact Via.step (retryCmd_via ..) rfl (Via.refl _ _)

theorem writeStaging_via (s : State) (slot : Nat) (first : Nat) (form : List Byte) (planes : Nat) : Via [.mem, .fresh, .care] s (writeStaging s slot first form planes) := by
  unfold writeStaging
  split
  · exact Via.refl _ _
  · refine Via.forEach (?_) (Via.refl _ _)
    · intro s1 a2
      extract_lets +onlyGivenNames -merge -underBinder y3
      try clear_value y3
      extract_lets +onlyGivenNames -merge -underBinder y4
      try clear_value y4
      extract_lets +onlyGivenNames -merge -underBinder x5
      refine Via.cut (t := x5) (Via.step (iodBytes_via ..) rfl (Via.step (iodBytes_via ..) rfl (Via.refl _ _))) fun h6 => ?_
      clear_value x5
      exact Via.step (cureLines_via ..) rfl h6

theorem showDamaged_via (s : State) (p : Nat) (k : Nat) : Via [.regs] s (showDamaged s p k) := by
  unfold showDamaged
  exact Via.step (wr_via ..) rfl (Via.refl _ _)

theorem repaired_via (s : State) (p : Nat) (k : Nat) (index : Nat) (addr : Nat) (stage : Option (Nat × Nat)) (src : ShardSource) : Via [.regs, .weights] s (repaired s p k index addr stage src) := by
  unfold repaired
  extract_lets +onlyGivenNames -merge -underBinder y1
  try clear_value y1
  exact Via.step (bump_via ..) rfl (Via.step (dropRepairs_via ..) rfl (Via.step (showDamaged_via ..) rfl (Via.step (putShards_via ..) rfl (Via.refl _ _))))

theorem epochResident_via (s : State) (p : Nat) (k : Nat) : Via [.regs, .weights] s (epochResident s p k).2 := by
  unfold epochResident
  extract_lets +onlyGivenNames -merge -underBinder y1
  try clear_value y1
  extract_lets +onlyGivenNames -merge -underBinder y2
  try clear_value y2
  refine Via.ite2 (?_) (Via.refl _ _)
  · extract_lets +onlyGivenNames -merge -underBinder y3
    try clear_value y3
    extract_lets +onlyGivenNames -merge -underBinder y4
    try clear_value y4
    extract_lets +onlyGivenNames -merge -underBinder x5
    refine Via.cut (t := x5) (Via.step (setWeights_via ..) rfl (Via.refl _ _)) fun h6 => ?_
    clear_value x5
    extract_lets +onlyGivenNames -merge -underBinder x7
    refine Via.cut (t := x7) (Via.step (wr_via ..) rfl h6) fun h8 => ?_
    clear_value x7
    extract_lets +onlyGivenNames -merge -underBinder x9
    refine Via.cut (t := x9) (Via.ite (Via.step (wr_via ..) rfl h8) h8) fun h10 => ?_
    clear_value x9
    try dsimp -zeta only
    exact h10

theorem completeShard_via (s : State) (p : Nat) (k : Nat) (a : Arrival) (form : List Byte) (dg : List Byte) : Via [.free, .regs, .views, .log, .mem, .fresh, .care, .weights, .net, .out] s (completeShard s p k a form dg) := by
  unfold completeShard
  extract_lets +onlyGivenNames -merge -underBinder y1
  try clear_value y1
  extract_lets +onlyGivenNames -merge -underBinder x2
  refine Via.cut (t := x2) (Via.step (coreWrite_via ..) rfl (Via.refl _ _)) fun h3 => ?_
  clear_value x2
  extract_lets +onlyGivenNames -merge -underBinder x4
  refine Via.cut (t := x4) (Via.ite (Via.step (writeStaging_via ..) rfl h3) h3) fun h5 => ?_
  clear_value x4
  extract_lets +onlyGivenNames -merge -underBinder y6
  try clear_value y6
  refine Via.ite (Via.step (endShard_via ..) rfl (Via.step (repaired_via ..) rfl h5)) (?_)
  · extract_lets +onlyGivenNames -merge -underBinder y7
    try clear_value y7
    extract_lets +onlyGivenNames -merge -underBinder x8
    refine Via.cut (t := x8) (Via.step (putShards_via ..) rfl h5) fun h9 => ?_
    clear_value x8
    split
    · rename_i v10 v11 e12
      refine Via.cut (Via.pair e12 (Via.step (epochResident_via ..) rfl h9)) fun h13 => ?_
      exact Via.step (endShard_via ..) rfl h13

theorem placeShard_via (s : State) (p : Nat) (k : Nat) (a : Arrival) (form : List Byte) (dg : List Byte) : Via [.free, .regs, .views, .log, .mem, .fresh, .care, .weights, .net, .out] s (placeShard s p k a form dg) := by
  unfold placeShard
  extract_lets +onlyGivenNames -merge -underBinder y1
  try clear_value y1
  exact Via.ite (Via.step (putArrival_via ..) rfl (Via.refl _ _)) (Via.step (completeShard_via ..) rfl (Via.refl _ _))

theorem fillBuffer_via (s : State) (p : Nat) (h : ShardHeader) (r : Except Nat (List Byte × List Byte)) : Via [.free, .regs, .views, .log, .mem, .fresh, .care] s (fillBuffer s p h r) := by
  unfold fillBuffer
  split
  · exact Via.step (coreWrite_via ..) rfl (Via.refl _ _)
  · refine Via.ite (Via.refl _ _) (?_)
    · split
      · rename_i v1 v2 e3
        refine Via.cut (Via.pair e3 (Via.step (freeBytes_via ..) rfl (Via.refl _ _))) fun h4 => ?_
        exact Via.step (coreWrite_via ..) rfl h4

theorem endPipeline_via (s : State) (p : Nat) (a : Arrival) : Via [.free, .regs, .views, .log, .mem, .fresh, .care, .weights, .net, .out] s (endPipeline s p a) := by
  unfold endPipeline
  split
  · exact Via.refl _ _
  · refine Via.ite (Via.refl _ _) (?_)
    · extract_lets +onlyGivenNames -merge -underBinder y1
      try clear_value y1
      extract_lets +onlyGivenNames -merge -underBinder x2
      refine Via.cut (t := x2) (Via.step (fillBuffer_via ..) rfl (Via.ite (Via.step (countIn_via ..) rfl (Via.refl _ _)) (Via.refl _ _))) fun h3 => ?_
      clear_value x2
      split
      · exact Via.step (endShard_via ..) rfl h3
      · exact Via.ite (Via.step (placeShard_via ..) rfl h3) (Via.step (endShard_via ..) rfl h3)

theorem execShardComplete_via (pen : Fin 16) (tag : BitVec 64) (s : State) : Reach [.free, .regs, .views, .log, .mem, .fresh, .care, .weights, .net, .out] s (execShardComplete pen tag s) := by
  unfold execShardComplete
  refine Reach.next (?_)
  · split
    · exact Via.refl _ _
    · exact Via.step (endPipeline_via ..) rfl (Via.refl _ _)

theorem resumeShard_via (s : State) (a : Arrival) : Via [.free, .regs, .views, .log, .mem, .fresh, .care, .weights, .net, .out] s (resumeShard s a) := by
  unfold resumeShard
  split
  · extract_lets +onlyGivenNames -merge -underBinder y1
    try clear_value y1
    exact Via.ite (Via.refl _ _) (Via.step (completeShard_via ..) rfl (Via.refl _ _))
  · exact Via.refl _ _

theorem execStagingWriteResume_via (s : State) : Reach [.free, .regs, .views, .log, .mem, .fresh, .care, .weights, .net, .out] s (execStagingWriteResume s) := by
  unfold execStagingWriteResume
  exact Reach.next (Via.forEach (fun _ _ => Via.step (resumeShard_via ..) rfl (Via.refl _ _)) (Via.refl _ _))

theorem startRepair_via (s : State) (p : Nat) (k : Nat) (x : Shard) : Via [.free, .regs, .weights, .net, .out] s (startRepair s p k x) := by
  unfold startRepair
  extract_lets +onlyGivenNames -merge -underBinder y1
  try clear_value y1
  exact Via.ite (Via.refl _ _) (Via.step (pumpAll_via ..) rfl (Via.step (addArrival_via ..) rfl (Via.refl _ _)))

theorem recheckShard_via (s : State) (p : Nat) (k : Nat) (x : Shard) : Via [.free, .regs, .views, .log, .weights, .net, .out] s (recheckShard s p k x) := by
  unfold recheckShard
  extract_lets +onlyGivenNames -merge -underBinder y1
  subst y1
  try dsimp -zeta only
  refine Via.ite (Via.step (putShards_via ..) rfl (Via.step (bump_via ..) rfl (Via.refl _ _))) (?_)
  · extract_lets +onlyGivenNames -merge -underBinder x2
    refine Via.cut (t := x2) (Via.step (showDamaged_via ..) rfl (Via.step (putShards_via ..) rfl (Via.step (bump_via ..) rfl (Via.refl _ _)))) fun h3 => ?_
    clear_value x2
    extract_lets +onlyGivenNames -merge -underBinder x4
    refine Via.cut (t := x4) (Via.step (logWrite_via ..) rfl (Via.step (errEvent_via ..) rfl h3)) fun h5 => ?_
    clear_value x4
    exact Via.step (startRepair_via ..) rfl h5

theorem execRecheck_via (s : State) : Reach [.free, .regs, .views, .log, .weights, .net, .out] s (execRecheck s) := by
  unfold execRecheck
  exact Reach.next (Via.forEach (fun _ _ => Via.forEach (fun _ _ => Via.forEach (fun _ _ => Via.step (recheckShard_via ..) rfl (Via.refl _ _)) (Via.refl _ _)) (Via.refl _ _)) (Via.refl _ _))

theorem restoreLine_via (s : State) (a : Nat) : Via [.mem, .fresh, .care] s (restoreLine s a) := by
  unfold restoreLine
  split
  · exact Via.refl _ _
  · split
    · exact Via.refl _ _
    · exact Via.ite (Via.refl _ _) (Via.step (cureLines_via ..) rfl (Via.step (droveBytes_via ..) rfl (Via.refl _ _)))

theorem restoreLines_via (s : State) : Via [.mem, .fresh, .care] s (restoreLines s) := by
  unfold restoreLines
  exact Via.forEach (fun _ _ => Via.step (restoreLine_via ..) rfl (Via.refl _ _)) (Via.refl _ _)

theorem repairShard_via (s : State) (p : Nat) (k : Nat) (x : Shard) : Via [.free, .regs, .views, .log, .mem, .fresh, .care, .weights, .net, .out] s (repairShard s p k x) := by
  unfold repairShard
  split
  · exact Via.step (repaired_via ..) rfl (Via.step (coreWrite_via ..) rfl (Via.refl _ _))
  · split
    · exact Via.step (startRepair_via ..) rfl (Via.refl _ _)
    · refine Via.ite (Via.refl _ _) (?_)
      · extract_lets +onlyGivenNames -merge -underBinder x1
        refine Via.cut (t := x1) (Via.step (endShard_via ..) rfl (Via.refl _ _)) fun h2 => ?_
        clear_value x1
        split
        · exact Via.ite (Via.step (repaired_via ..) rfl (Via.step (coreWrite_via ..) rfl h2)) (Via.step (startRepair_via ..) rfl h2)
        · exact Via.step (startRepair_via ..) rfl h2

theorem redigestShard_via (s : State) (p : Nat) (k : Nat) (x : Shard) : Via [.free, .regs, .views, .log, .mem, .fresh, .care, .weights, .net, .out] s (redigestShard s p k x) := by
  unfold redigestShard
  extract_lets +onlyGivenNames -merge -underBinder x1
  refine Via.cut (t := x1) (Via.step (recheckShard_via ..) rfl (Via.refl _ _)) fun h2 => ?_
  clear_value x1
  split
  · exact Via.step (repairShard_via ..) rfl h2
  · split
    · exact Via.ite h2 (Via.step (writeStaging_via ..) rfl h2)
    · exact h2

theorem redigest_via (s : State) (os : List (Nat × Nat)) : Via [.free, .regs, .views, .log, .mem, .fresh, .care, .weights, .net, .out] s (redigest s os) := by
  unfold redigest
  exact Via.forEach (fun _ _ => Via.forEach (fun _ _ => Via.ite (Via.step (redigestShard_via ..) rfl (Via.refl _ _)) (Via.refl _ _)) (Via.refl _ _)) (Via.refl _ _)

theorem execShardRepair_via (pen : Fin 16) (epoch : Nat) (shard : Nat) (s : State) : Reach [.free, .regs, .views, .log, .mem, .fresh, .care, .weights, .net, .out] s (execShardRepair pen epoch shard s) := by
  unfold execShardRepair
  refine Reach.next (Via.ite (Via.refl _ _) (?_))
  · split
    · exact Via.refl _ _
    · split
      · exact Via.step (repairShard_via ..) rfl (Via.refl _ _)
      · exact Via.refl _ _

end Sys2Proof.Machine
end

