-- ==== Sys2Proof/Laws/ViaArbitration.lean ====
section
/-! SUPPORT. What each operation of Machine/Arbitration.lean can touch: the pieces it names, and the memories keep their canonical form. -/

namespace Sys2Proof.Machine

open Sys2Proof

theorem leaveSlot_via (s : State) (f : Nat) (k : Nat) : Via [.regs, .folds, .flocks, .care] s (leaveSlot s f k) := by
  unfold leaveSlot
  exact Via.ite (Via.step (takeSpare_via ..) rfl (Via.refl _ _)) (Via.step (failSlot_via ..) rfl (Via.step (quarantine_via ..) rfl (Via.refl _ _)))

theorem actVerdict_via (s : State) (v : Nat) (x : Dispute) : Via [.free, .regs, .views, .log, .mem, .fresh, .folds, .flocks, .care, .weights, .net, .out] s (actVerdict s v x) := by
  unfold actVerdict
  extract_lets +onlyGivenNames -merge -underBinder y1
  try clear_value y1
  extract_lets +onlyGivenNames -merge -underBinder y2
  try clear_value y2
  extract_lets +onlyGivenNames -merge -underBinder x3
  refine Via.cut (t := x3) (Via.ite (Via.step (wr0_via ..) rfl (Via.refl _ _)) (Via.refl _ _)) fun h4 => ?_
  clear_value x3
  extract_lets +onlyGivenNames -merge -underBinder y5
  try clear_value y5
  extract_lets +onlyGivenNames -merge -underBinder x6
  refine Via.cut (t := x6) (Via.step (setCare_via ..) rfl h4) fun h7 => ?_
  clear_value x6
  split
  · extract_lets +onlyGivenNames -merge -underBinder x8
    refine Via.cut (t := x8) (Via.ite (Via.step (setRole_via ..) rfl h7) h7) fun h9 => ?_
    clear_value x8
    extract_lets +onlyGivenNames -merge -underBinder y10
    try clear_value y10
    exact Via.step (redigest_via ..) rfl (Via.step (setCare_via ..) rfl h9)
  · exact Via.ite (Via.step (setCare_via ..) rfl h7) (Via.ite (Via.step (forceCal_via ..) rfl h7) h7)
  · exact Via.ite (Via.step (quarantine_via ..) rfl h7) (Via.ite (Via.step (leaveSlot_via ..) rfl h7) h7)

theorem stage3_via (s : State) (x : Dispute) (serving : Nat) : Via [.free, .regs, .views, .log, .mem, .fresh, .folds, .flocks, .care, .weights, .net, .out] s (stage3 s x serving) := by
  unfold stage3
  extract_lets +onlyGivenNames -merge -underBinder y1
  try clear_value y1
  extract_lets +onlyGivenNames -merge -underBinder y2
  try clear_value y2
  extract_lets +onlyGivenNames -merge -underBinder x3
  refine Via.cut (t := x3) (Via.step (setCare_via ..) rfl (Via.refl _ _)) fun h4 => ?_
  clear_value x3
  exact Via.step (logVerdict_via ..) rfl (Via.step (actVerdict_via ..) rfl h4)

theorem execArbitrationStage3_via (fold : Fin 68) (array : Fin 16) (s : State) : Reach [.free, .regs, .views, .log, .mem, .fresh, .folds, .flocks, .care, .weights, .net, .out] s (execArbitrationStage3 fold array s) := by
  unfold execArbitrationStage3
  split
  · exact Reach.next (Via.refl _ _)
  · refine Reach.ite (Reach.next (Via.refl _ _)) (?_)
    · split
      · exact Reach.next (Via.step (stage3_via ..) rfl (Via.refl _ _))
      · exact Reach.next (Via.step (stage3_via ..) rfl (Via.refl _ _))

end Sys2Proof.Machine
end

