-- ==== Sys2Proof/Laws/ViaFlash.lean ====
section
/-! SUPPORT. What each operation of Machine/Flash.lean can touch: the pieces it names, and the memories keep their canonical form. -/

namespace Sys2Proof.Machine

open Sys2Proof

theorem putFlash_via (s : State) (x : Flash) : Via [.boot] s (putFlash s x) := by
  unfold putFlash
  exact Via.step (setBoot_via ..) rfl (Via.refl _ _)

theorem putBank_via (s : State) (i : Nat) (b : Bank) : Via [.boot] s (putBank s i b) := by
  unfold putBank
  exact Via.step (putFlash_via ..) rfl (Via.refl _ _)

theorem putSlot_via (s : State) (i : Nat) (x : PolicySlot) : Via [.boot] s (putSlot s i x) := by
  unfold putSlot
  exact Via.step (putFlash_via ..) rfl (Via.refl _ _)

theorem showUpd_via (s : State) : Via [.regs] s (showUpd s) := by
  unfold showUpd
  extract_lets +onlyGivenNames -merge -underBinder y1
  try clear_value y1
  extract_lets +onlyGivenNames -merge -underBinder x2
  refine Via.cut (t := x2) (Via.step (wr0_via ..) rfl (Via.step (wr0_via ..) rfl (Via.refl _ _))) fun h3 => ?_
  clear_value x2
  extract_lets +onlyGivenNames -merge -underBinder x4
  refine Via.cut (t := x4) (Via.step (wr0_via ..) rfl (Via.step (wr0_via ..) rfl h3)) fun h5 => ?_
  clear_value x4
  extract_lets +onlyGivenNames -merge -underBinder y6
  try clear_value y6
  extract_lets +onlyGivenNames -merge -underBinder x7
  refine Via.cut (t := x7) (Via.step (wr0_via ..) rfl h5) fun h8 => ?_
  clear_value x7
  exact Via.step (wr0_via ..) rfl (Via.step (wr0_via ..) rfl h8)

end Sys2Proof.Machine
end

