-- ==== Sys2Proof/Laws/ViaHousekeeping.lean ====
section
/-! SUPPORT. What each operation of Machine/Housekeeping.lean can touch: the pieces it names, and the memories keep their canonical form. -/

namespace Sys2Proof.Machine

open Sys2Proof

theorem putHk_via (s : State) (u : Nat) (x : Hk) : Via [.hks] s (putHk s u x) := by
  unfold putHk
  exact Via.step (setHks_via ..) rfl (Via.refl _ _)

theorem modHk_via (s : State) (u : Nat) (g : Hk → Hk) : Via [.hks] s (modHk s u g) := by
  unfold modHk
  exact Via.step (putHk_via ..) rfl (Via.refl _ _)

theorem publish_via (s : State) (u : Nat) (ch : Nat) (v : Nat) (fault : Bool) : Via [.regs] s (publish s u ch v fault) := by
  unfold publish
  extract_lets +onlyGivenNames -merge -underBinder y1
  try clear_value y1
  extract_lets +onlyGivenNames -merge -underBinder x2
  refine Via.cut (t := x2) (Via.step (wr_via ..) rfl (Via.step (wr_via ..) rfl (Via.refl _ _))) fun h3 => ?_
  clear_value x2
  extract_lets +onlyGivenNames -merge -underBinder x4
  refine Via.cut (t := x4) (Via.step (wr_via ..) rfl (Via.step (wr_via ..) rfl h3)) fun h5 => ?_
  clear_value x4
  exact Via.step (wr_via ..) rfl h5

theorem publishBroken_via (s : State) (u : Nat) (ch : Nat) : Via [.regs] s (publishBroken s u ch) := by
  unfold publishBroken
  exact Via.step (publish_via ..) rfl (Via.refl _ _)

theorem takeTemp_via (s : State) (u : Nat) (ch : Nat) (raw : ℚ) (v : Int) : Via [.regs, .hks] s (takeTemp s u ch raw v) := by
  unfold takeTemp
  extract_lets +onlyGivenNames -merge -underBinder y1
  try clear_value y1
  extract_lets +onlyGivenNames -merge -underBinder y2
  try clear_value y2
  extract_lets +onlyGivenNames -merge -underBinder y3
  try clear_value y3
  refine Via.ite (Via.step (publish_via ..) rfl (Via.step (putHk_via ..) rfl (Via.refl _ _))) (?_)
  · extract_lets +onlyGivenNames -merge -underBinder y4
    try clear_value y4
    exact Via.step (publishBroken_via ..) rfl (Via.step (putHk_via ..) rfl (Via.refl _ _))

theorem takeRef_via (s : State) (u : Nat) (k : Nat) (codes : List (Nat × ℚ)) : Via [.hks] s (takeRef s u k codes) := by
  unfold takeRef
  exact Via.step (modHk_via ..) rfl (Via.refl _ _)

theorem takeEntry_via (s : State) (u : Nat) (ch : Nat) (codes : List Nat) : Via [.regs, .hks] s (takeEntry s u ch codes).2 := by
  unfold takeEntry
  extract_lets +onlyGivenNames -merge -underBinder y1
  try clear_value y1
  extract_lets +onlyGivenNames -merge -underBinder y2
  try clear_value y2
  extract_lets +onlyGivenNames -merge -underBinder y3
  try clear_value y3
  refine Via.ite2 (Via.refl _ _) (?_)
  · split
    · extract_lets +onlyGivenNames -merge -underBinder x4
      refine Via.cut (t := x4) (Via.step (takeTemp_via ..) rfl (Via.refl _ _)) fun h5 => ?_
      clear_value x4
      try dsimp -zeta only
      exact h5
    · extract_lets +onlyGivenNames -merge -underBinder y6
      try clear_value y6
      try dsimp -zeta only
      exact Via.step (publish_via ..) rfl (Via.refl _ _)
    · extract_lets +onlyGivenNames -merge -underBinder y7
      try clear_value y7
      try dsimp -zeta only
      exact Via.step (publish_via ..) rfl (Via.step (takeRef_via ..) rfl (Via.refl _ _))
    · try dsimp -zeta only
      exact Via.refl _ _

theorem showHk_via (s : State) (u : Nat) : Via [.regs] s (showHk s u) := by
  unfold showHk
  extract_lets +onlyGivenNames -merge -underBinder y1
  try clear_value y1
  extract_lets +onlyGivenNames -merge -underBinder x2
  refine Via.cut (t := x2) (Via.step (wr0_via ..) rfl (Via.refl _ _)) fun h3 => ?_
  clear_value x2
  exact Via.step (wr0_via ..) rfl (Via.step (wr0_via ..) rfl h3)

theorem triggerSweep_via (s : State) (u : Nat) : Via [.hks] s (triggerSweep s u) := by
  unfold triggerSweep
  exact Via.step (modHk_via ..) rfl (Via.refl _ _)

theorem endRound_via (s : State) (u : Nat) : Via [.regs, .hks] s (endRound s u) := by
  unfold endRound
  extract_lets +onlyGivenNames -merge -underBinder y1
  try clear_value y1
  extract_lets +onlyGivenNames -merge -underBinder y2
  try clear_value y2
  extract_lets +onlyGivenNames -merge -underBinder x3
  refine Via.cut (t := x3) (Via.step (putHk_via ..) rfl (Via.step (bump_via ..) rfl (Via.refl _ _))) fun h4 => ?_
  clear_value x3
  extract_lets +onlyGivenNames -merge -underBinder y5
  try clear_value y5
  exact Via.ite (Via.step (triggerSweep_via ..) rfl h4) h4

theorem spotStatus_via (s : State) (u : Nat) (st : Nat) (own : Bool) : Via [.regs] s (spotStatus s u st own) := by
  unfold spotStatus
  exact Via.ite (Via.step (wr0_via ..) rfl (Via.refl _ _)) (Via.refl _ _)

theorem dropSpots_via (s : State) (u : Nat) : Via [.regs, .hks] s (dropSpots s u) := by
  unfold dropSpots
  extract_lets +onlyGivenNames -merge -underBinder x1
  refine Via.cut (t := x1) (Via.forEach (fun _ _ => Via.step (spotStatus_via ..) rfl (Via.step (bump_via ..) rfl (Via.refl _ _))) (Via.refl _ _)) fun h2 => ?_
  clear_value x1
  exact Via.step (modHk_via ..) rfl h2

theorem startCapture_via (s : State) (u : Nat) : Via [.regs, .hks] s (startCapture s u) := by
  unfold startCapture
  exact Via.step (modHk_via ..) rfl (Via.step (dropSpots_via ..) rfl (Via.refl _ _))

theorem beginEntries_via (s : State) (u : Nat) : Via [.regs, .hks] s (beginEntries s u) := by
  unfold beginEntries
  split
  · exact Via.step (modHk_via ..) rfl (Via.refl _ _)
  · exact Via.step (endRound_via ..) rfl (Via.refl _ _)

theorem endCapture_via (s : State) (u : Nat) (codes : List Nat) : Via [.regs, .power, .hks] s (endCapture s u codes) := by
  unfold endCapture
  extract_lets +onlyGivenNames -merge -underBinder y1
  try clear_value y1
  extract_lets +onlyGivenNames -merge -underBinder x2
  refine Via.cut (t := x2) (Via.step (setPower_via ..) rfl (Via.refl _ _)) fun h3 => ?_
  clear_value x2
  exact Via.step (beginEntries_via ..) rfl (Via.step (modHk_via ..) rfl h3)

theorem startRound_via (s : State) (u : Nat) (late : Bool) : Via [.regs, .hks] s (startRound s u late) := by
  unfold startRound
  extract_lets +onlyGivenNames -merge -underBinder y1
  try clear_value y1
  extract_lets +onlyGivenNames -merge -underBinder x2
  refine Via.cut (t := x2) (Via.ite (Via.step (bump_via ..) rfl (Via.refl _ _)) (Via.refl _ _)) fun h3 => ?_
  clear_value x2
  extract_lets +onlyGivenNames -merge -underBinder x4
  refine Via.cut (t := x4) (Via.step (putHk_via ..) rfl h3) fun h5 => ?_
  clear_value x4
  exact Via.ite (Via.ite (Via.step (startCapture_via ..) rfl h5) (Via.step (modHk_via ..) rfl h5)) (Via.step (beginEntries_via ..) rfl h5)

theorem goOn_via (s : State) (u : Nat) : Via [.regs, .hks] s (goOn s u) := by
  unfold goOn
  extract_lets +onlyGivenNames -merge -underBinder y1
  try clear_value y1
  exact Via.step (showHk_via ..) rfl (Via.ite (Via.step (startRound_via ..) rfl (Via.refl _ _)) (Via.refl _ _))

theorem execHkRoundStart_via (unit : Fin 3) (s : State) : Reach [.regs, .hks] s (execHkRoundStart unit s) := by
  unfold execHkRoundStart
  refine Reach.ite (?_) (Reach.next (Via.refl _ _))
  · extract_lets +onlyGivenNames -merge -underBinder y1
    try clear_value y1
    exact Reach.next (Via.ite (Via.step (putHk_via ..) rfl (Via.refl _ _)) (Via.step (showHk_via ..) rfl (Via.step (startRound_via ..) rfl (Via.refl _ _))))

theorem advance_via (s : State) (u : Nat) : Via [.regs, .hks] s (advance s u) := by
  unfold advance
  extract_lets +onlyGivenNames -merge -underBinder y1
  try clear_value y1
  extract_lets +onlyGivenNames -merge -underBinder x2
  refine Via.cut (t := x2) (?_) fun h3 => ?_
  · subst x2
    split
    · exact Via.step (putHk_via ..) rfl (Via.refl _ _)
    · exact Via.step (endRound_via ..) rfl (Via.refl _ _)
  clear_value x2
  exact Via.step (goOn_via ..) rfl h3

theorem endSpot_via (s : State) (u : Nat) (q : Spot) (codes : List Nat) : Via [.regs, .hks] s (endSpot s u q codes) := by
  unfold endSpot
  split
  · rename_i v1 v2 e3
    refine Via.cut (Via.pair e3 (Via.step (takeEntry_via ..) rfl (Via.refl _ _))) fun h4 => ?_
    extract_lets +onlyGivenNames -merge -underBinder x5
    refine Via.cut (t := x5) (Via.ite (Via.step (wr0_via ..) rfl (Via.step (wr0_via ..) rfl h4)) h4) fun h6 => ?_
    clear_value x5
    extract_lets +onlyGivenNames -merge -underBinder x7
    refine Via.cut (t := x7) (Via.step (modHk_via ..) rfl h6) fun h8 => ?_
    clear_value x7
    exact Via.step (goOn_via ..) rfl (Via.ite (Via.step (startCapture_via ..) rfl h8) h8)

theorem execHkEntryEnd_via (unit : Fin 3) (codes : List (BitVec 12)) (s : State) : Reach [.regs, .power, .hks] s (execHkEntryEnd unit codes s) := by
  unfold execHkEntryEnd
  extract_lets +onlyGivenNames -merge -underBinder y1
  try clear_value y1
  extract_lets +onlyGivenNames -merge -underBinder y2
  try clear_value y2
  refine Reach.ite (Reach.next (Via.ite (Via.step (goOn_via ..) rfl (Via.step (endCapture_via ..) rfl (Via.refl _ _))) (Via.refl _ _))) (Reach.ite (?_) (Reach.next (Via.refl _ _)))
  · split
    · exact Reach.next (Via.ite (Via.step (endSpot_via ..) rfl (Via.refl _ _)) (Via.refl _ _))
    · exact Reach.next (Via.ite (Via.step (advance_via ..) rfl (Via.step (takeEntry_via ..) rfl (Via.refl _ _))) (Via.refl _ _))

theorem addSpot_via (s : State) (u : Nat) (q : Spot) : Via [.regs, .hks] s (addSpot s u q) := by
  unfold addSpot
  extract_lets +onlyGivenNames -merge -underBinder y1
  try clear_value y1
  refine Via.ite (Via.step (spotStatus_via ..) rfl (Via.step (bump_via ..) rfl (Via.refl _ _))) (Via.ite (Via.step (spotStatus_via ..) rfl (Via.step (bump_via ..) rfl (Via.refl _ _))) (?_))
  · extract_lets +onlyGivenNames -merge -underBinder x2
    refine Via.cut (t := x2) (Via.step (putHk_via ..) rfl (Via.refl _ _)) fun h3 => ?_
    clear_value x2
    exact Via.step (showHk_via ..) rfl (Via.step (spotStatus_via ..) rfl h3)

theorem execSpotRequest_via (unit : Fin 3) (ch : Fin 128) (avg : Fin 4) (s : State) : Reach [.regs, .hks] s (execSpotRequest unit ch avg s) := by
  unfold execSpotRequest
  exact Reach.next (Via.ite (Via.step (addSpot_via ..) rfl (Via.refl _ _)) (Via.refl _ _))

theorem execSpotReqStart_via (src : Source) (unit : Fin 3) (s : State) : Reach [.regs, .hks] s (execSpotReqStart src unit s) := by
  unfold execSpotReqStart
  exact Reach.next (Via.after (onPage_via rfl (fun _ => Via.ite (Via.step (addSpot_via ..) rfl (Via.refl _ _)) (Via.refl _ _))) (Via.refl _ _))

theorem execHkCalForce_via (src : Source) (unit : Fin 3) (s : State) : Reach [.hks] s (execHkCalForce src unit s) := by
  unfold execHkCalForce
  exact Reach.next (Via.after (onPage_via rfl (fun _ => Via.ite (Via.step (triggerSweep_via ..) rfl (Via.refl _ _)) (Via.refl _ _))) (Via.refl _ _))

theorem execSweepStart_via (unit : Fin 3) (s : State) : Reach [.regs, .hks] s (execSweepStart unit s) := by
  unfold execSweepStart
  extract_lets +onlyGivenNames -merge -underBinder y1
  try clear_value y1
  refine Reach.ite (?_) (Reach.next (Via.refl _ _))
  · extract_lets +onlyGivenNames -merge -underBinder x2
    refine Reach.cut (t := x2) (Via.step (modHk_via ..) rfl (Via.step (dropSpots_via ..) rfl (Via.refl _ _))) fun h3 => ?_
    clear_value x2
    extract_lets +onlyGivenNames -merge -underBinder x4
    refine Reach.cut (t := x4) (Via.forEach (fun _ _ => Via.step (wr_via ..) rfl (Via.refl _ _)) h3) fun h5 => ?_
    clear_value x4
    exact Reach.next (Via.step (showHk_via ..) rfl h5)

theorem applyFit_via (s : State) (u : Nat) (v : Nat) (ms : List ℚ) : Via [.regs] s (applyFit s u v ms) := by
  unfold applyFit
  split
  · exact Via.ite (Via.step (wr0_via ..) rfl (Via.step (wr0_via ..) rfl (Via.refl _ _))) (Via.step (wr0_via ..) rfl (Via.step (wr0_via ..) rfl (Via.refl _ _)))

theorem acceptSweep_via (s : State) (u : Nat) (sets : List (Nat × List ℚ)) : Via [.free, .regs] s (acceptSweep s u sets) := by
  unfold acceptSweep
  extract_lets +onlyGivenNames -merge -underBinder x1
  refine Via.cut (t := x1) (Via.forEach (fun _ _ => Via.step (applyFit_via ..) rfl (Via.refl _ _)) (Via.refl _ _)) fun h2 => ?_
  clear_value x1
  split
  · rename_i v3 v4 e5
    refine Via.cut (Via.pair e5 (?_)) fun h6 => ?_
    · split
      · try dsimp -zeta only
        exact h2
      · exact Via.step (drawNat_via ..) rfl h2
    exact Via.step (bump_via ..) rfl (Via.step (wr0_via ..) rfl h6)

theorem failUnit_via (s : State) (u : Nat) : Via [.regs, .views, .log, .hks] s (failUnit s u) := by
  unfold failUnit
  extract_lets +onlyGivenNames -merge -underBinder x1
  refine Via.cut (t := x1) (Via.step (logWrite_via ..) rfl (Via.step (errEvent_via ..) rfl (Via.refl _ _))) fun h2 => ?_
  clear_value x1
  extract_lets +onlyGivenNames -merge -underBinder x3
  refine Via.cut (t := x3) (Via.forEach (fun _ _ => Via.step (publishBroken_via ..) rfl (Via.refl _ _)) h2) fun h4 => ?_
  clear_value x3
  extract_lets +onlyGivenNames -merge -underBinder x5
  refine Via.cut (t := x5) (Via.step (modHk_via ..) rfl h4) fun h6 => ?_
  clear_value x5
  exact Via.step (wr0_via ..) rfl h6

theorem retireConverter_via (s : State) (u : Nat) (v : Nat) (sets : List (Nat × List ℚ)) : Via [.regs, .views, .log] s (retireConverter s u v sets) := by
  unfold retireConverter
  extract_lets +onlyGivenNames -merge -underBinder x1
  refine Via.cut (t := x1) (Via.step (wr0_via ..) rfl (Via.refl _ _)) fun h2 => ?_
  clear_value x1
  extract_lets +onlyGivenNames -merge -underBinder x3
  refine Via.cut (t := x3) (Via.step (logWrite_via ..) rfl (Via.step (errEvent_via ..) rfl h2)) fun h4 => ?_
  clear_value x3
  exact Via.forEach (fun _ _ => Via.step (applyFit_via ..) rfl (Via.refl _ _)) h4

theorem rejectSweep_via (s : State) (u : Nat) (sets : List (Nat × List ℚ)) : Via [.regs, .views, .log, .hks] s (rejectSweep s u sets) := by
  unfold rejectSweep
  extract_lets +onlyGivenNames -merge -underBinder y1
  try clear_value y1
  extract_lets +onlyGivenNames -merge -underBinder x2
  refine Via.cut (t := x2) (Via.step (wr0_via ..) rfl (Via.step (bump_via ..) rfl (Via.refl _ _))) fun h3 => ?_
  clear_value x2
  extract_lets +onlyGivenNames -merge -underBinder x4
  refine Via.cut (t := x4) (?_) fun h5 => ?_
  · subst x4
    split
    · exact Via.step (logWrite_via ..) rfl (Via.step (errEvent_via ..) rfl h3)
    · exact h3
  clear_value x4
  extract_lets +onlyGivenNames -merge -underBinder y6
  try clear_value y6
  extract_lets +onlyGivenNames -merge -underBinder y7
  try clear_value y7
  extract_lets +onlyGivenNames -merge -underBinder x8
  refine Via.cut (t := x8) (Via.step (modHk_via ..) rfl h5) fun h9 => ?_
  clear_value x8
  exact Via.ite h9 (Via.ite (Via.step (failUnit_via ..) rfl h9) (Via.step (retireConverter_via ..) rfl h9))

theorem execSweepEnd_via (unit : Fin 3) (a : List ℚ) (b : List ℚ) (s : State) : Reach [.free, .regs, .views, .log, .hks] s (execSweepEnd unit a b s) := by
  unfold execSweepEnd
  refine Reach.ite (?_) (Reach.next (Via.refl _ _))
  · extract_lets +onlyGivenNames -merge -underBinder y1
    try clear_value y1
    extract_lets +onlyGivenNames -merge -underBinder x2
    refine Reach.cut (t := x2) (Via.step (modHk_via ..) rfl (Via.refl _ _)) fun h3 => ?_
    clear_value x2
    extract_lets +onlyGivenNames -merge -underBinder x4
    refine Reach.cut (t := x4) (Via.ite (Via.step (rejectSweep_via ..) rfl h3) (Via.step (acceptSweep_via ..) rfl (Via.step (modHk_via ..) rfl h3))) fun h5 => ?_
    clear_value x4
    exact Reach.next (Via.step (goOn_via ..) rfl h5)

theorem execSensorPublishTimeout_via (fold : Fin 68) (s : State) : Reach [.regs, .hks] s (execSensorPublishTimeout fold s) := by
  unfold execSensorPublishTimeout
  extract_lets +onlyGivenNames -merge -underBinder y1
  try clear_value y1
  extract_lets +onlyGivenNames -merge -underBinder y2
  try clear_value y2
  exact Reach.ite (Reach.next (Via.step (publishBroken_via ..) rfl (Via.step (modHk_via ..) rfl (Via.refl _ _)))) (Reach.next (Via.refl _ _))

theorem execHbmTempReport_via (stack : Fin 8) (t : Int) (s : State) : Reach [.regs] s (execHbmTempReport stack t s) := by
  unfold execHbmTempReport
  exact Reach.next (Via.ite (Via.refl _ _) (Via.step (wr0_via ..) rfl (Via.step (wr0_via ..) rfl (Via.refl _ _))))

end Sys2Proof.Machine
end

