-- ==== Sys2Proof/Laws/ViaPowerOps.lean ====
section
/-! SUPPORT. What each operation of Machine/PowerOps.lean can touch: the pieces it names, and the memories keep their canonical form. -/

namespace Sys2Proof.Machine

open Sys2Proof

theorem putMargin_via (s : State) (die : Nat) (m : Margin) : Via [.power] s (putMargin s die m) := by
  unfold putMargin
  exact Via.step (setPower_via ..) rfl (Via.refl _ _)

theorem commandRail_via (s : State) (rail : Nat) (p : Nat) : Via [.regs, .views, .log, .power, .out] s (commandRail s rail p) := by
  unfold commandRail
  refine Via.ite (Via.step (accessError_via ..) rfl (Via.refl _ _)) (?_)
  · extract_lets +onlyGivenNames -merge -underBinder y1
    try clear_value y1
    extract_lets +onlyGivenNames -merge -underBinder y2
    try clear_value y2
    extract_lets +onlyGivenNames -merge -underBinder x3
    refine Via.cut (t := x3) (Via.step (setPower_via ..) rfl (Via.refl _ _)) fun h4 => ?_
    clear_value x3
    exact Via.step (emit_via ..) rfl h4

theorem commandState_via (s : State) (p : Nat) : Via [.regs, .views, .log, .power, .out] s (commandState s p) := by
  unfold commandState
  exact Via.forEach (fun _ _ => Via.step (commandRail_via ..) rfl (Via.refl _ _)) (Via.refl _ _)

theorem followMargin_via (s : State) (die : Nat) : Via [.regs, .views, .log, .power, .out] s (followMargin s die) := by
  unfold followMargin
  exact Via.ite (Via.step (commandRail_via ..) rfl (Via.refl _ _)) (Via.refl _ _)

theorem execAvsComplete_via (rail : Fin 3) (s : State) : Reach [.power] s (execAvsComplete rail s) := by
  unfold execAvsComplete
  extract_lets +onlyGivenNames -merge -underBinder y1
  try clear_value y1
  extract_lets +onlyGivenNames -merge -underBinder y2
  try clear_value y2
  exact Reach.next (Via.step (setPower_via ..) rfl (Via.refl _ _))

theorem execVoltageSettled_via (s : State) : Reach [.power] s (execVoltageSettled s) := by
  unfold execVoltageSettled
  split
  · exact Reach.next (Via.step (setPower_via ..) rfl (Via.refl _ _))
  · exact Reach.next (Via.refl _ _)

theorem execAvsTimeout_via (s : State) : Reach [.regs, .views, .log, .power, .out] s (execAvsTimeout s) := by
  unfold execAvsTimeout
  refine Reach.ite (Reach.next (Via.refl _ _)) (?_)
  · extract_lets +onlyGivenNames -merge -underBinder y1
    try clear_value y1
    extract_lets +onlyGivenNames -merge -underBinder x2
    refine Reach.cut (t := x2) (Via.step (setPower_via ..) rfl (Via.refl _ _)) fun h3 => ?_
    clear_value x2
    exact Reach.next (Via.ite (Via.step (commandState_via ..) rfl h3) h3)

theorem execMarginInterval_via (die : Fin 2) (guardFail : Bool) (tightFail : Bool) (s : State) : Reach [.regs, .views, .log, .power, .out] s (execMarginInterval die guardFail tightFail s) := by
  unfold execMarginInterval
  refine Reach.ite (?_) (Reach.next (Via.refl _ _))
  · extract_lets +onlyGivenNames -merge -underBinder y1
    try clear_value y1
    extract_lets +onlyGivenNames -merge -underBinder y2
    try clear_value y2
    extract_lets +onlyGivenNames -merge -underBinder y3
    try clear_value y3
    extract_lets +onlyGivenNames -merge -underBinder x4
    refine Reach.cut (t := x4) (Via.step (putMargin_via ..) rfl (Via.refl _ _)) fun h5 => ?_
    clear_value x4
    exact Reach.next (Via.ite h5 (Via.step (followMargin_via ..) rfl h5))

theorem writeMargin_via (on : Bool) (s : State) : Via [.regs, .views, .log, .power, .out] s (writeMargin on s) := by
  unfold writeMargin
  extract_lets +onlyGivenNames -merge -underBinder x1
  refine Via.cut (t := x1) (Via.step (wr0_via ..) rfl (Via.refl _ _)) fun h2 => ?_
  clear_value x1
  exact Via.ite h2 (Via.forEach (fun _ _ => Via.ite (Via.step (putMargin_via ..) rfl (Via.refl _ _)) (Via.step (followMargin_via ..) rfl (Via.step (putMargin_via ..) rfl (Via.refl _ _)))) h2)

theorem execMarginEn_via (src : Source) (on : Bool) (s : State) : Reach [.regs, .views, .log, .power, .out] s (execMarginEn src on s) := by
  unfold execMarginEn
  exact Reach.next (Via.after (onPage_via rfl (fun _ => Via.step (writeMargin_via ..) rfl (Via.refl _ _))) (Via.refl _ _))

theorem execPowerBin_via (s : State) : Reach [.free, .power] s (execPowerBin s) := by
  unfold execPowerBin
  refine Reach.ite (?_) (Reach.next (Via.refl _ _))
  · split
    · rename_i v1 v2 e3
      refine Reach.cut (Via.pair e3 (Via.step (drawNat_via ..) rfl (Via.refl _ _))) fun h4 => ?_
      extract_lets +onlyGivenNames -merge -underBinder y5
      try clear_value y5
      extract_lets +onlyGivenNames -merge -underBinder y6
      try clear_value y6
      extract_lets +onlyGivenNames -merge -underBinder y7
      try clear_value y7
      exact Reach.next (Via.step (setPower_via ..) rfl h4)

theorem enterState_via (s : State) (p : Nat) : Via [.power] s (enterState s p) := by
  unfold enterState
  exact Via.step (setPower_via ..) rfl (Via.refl _ _)

theorem moveTo_via (s : State) (p : Nat) : Via [.regs, .views, .log, .power, .out] s (moveTo s p) := by
  unfold moveTo
  refine Via.ite (Via.step (commandState_via ..) rfl (Via.step (enterState_via ..) rfl (Via.refl _ _))) (Via.ite (Via.ite (Via.refl _ _) (?_)) (?_))
  · split
    · exact Via.ite (Via.step (commandState_via ..) rfl (Via.step (setPower_via ..) rfl (Via.refl _ _))) (Via.ite (Via.step (enterState_via ..) rfl (Via.refl _ _)) (Via.refl _ _))
    · exact Via.step (commandState_via ..) rfl (Via.step (setPower_via ..) rfl (Via.refl _ _))
  · split
    · exact Via.step (commandState_via ..) rfl (Via.step (setPower_via ..) rfl (Via.refl _ _))
    · exact Via.refl _ _

theorem boundaryState_via (s : State) : Via [.regs, .views, .log, .power, .out] s (boundaryState s) := by
  unfold boundaryState
  refine Via.ite (?_) (Via.ite (Via.refl _ _) (?_))
  · extract_lets +onlyGivenNames -merge -underBinder y1
    try clear_value y1
    exact Via.step (commandState_via ..) rfl (Via.step (setPower_via ..) rfl (Via.step (enterState_via ..) rfl (Via.refl _ _)))
  · extract_lets +onlyGivenNames -merge -underBinder y2
    try clear_value y2
    extract_lets +onlyGivenNames -merge -underBinder x3
    refine Via.cut (t := x3) (Via.step (setPower_via ..) rfl (Via.refl _ _)) fun h4 => ?_
    clear_value x3
    exact Via.step (moveTo_via ..) rfl h4

theorem boundaryThrottle_via (s : State) : Via [.regs, .power] s (boundaryThrottle s) := by
  unfold boundaryThrottle
  extract_lets +onlyGivenNames -merge -underBinder y1
  try clear_value y1
  exact Via.step (setPower_via ..) rfl (Via.step (wr0_via ..) rfl (Via.refl _ _))

theorem execDroopTrip_via (_die : Fin 2) (s : State) : Reach [.free, .pause, .power] s (execDroopTrip _die s) := by
  unfold execDroopTrip
  refine Reach.next (Via.ite (?_) (Via.refl _ _))
  · extract_lets +onlyGivenNames -merge -underBinder x1
    refine Via.cut (t := x1) (Via.step (passStretch_via ..) rfl (Via.refl _ _)) fun h2 => ?_
    clear_value x1
    exact Via.step (setPower_via ..) rfl h2

theorem endStretch_via (s : State) : Via [.free, .pause, .power] s (endStretch s) := by
  unfold endStretch
  refine Via.ite (?_) (Via.refl _ _)
  · split
    · rename_i v1 v2 e3
      refine Via.cut (Via.pair e3 (Via.step (drawNat_via ..) rfl (Via.refl _ _))) fun h4 => ?_
      extract_lets +onlyGivenNames -merge -underBinder x5
      refine Via.cut (t := x5) (Via.step (stretchBy_via ..) rfl h4) fun h6 => ?_
      clear_value x5
      exact Via.step (setPower_via ..) rfl h6

theorem execDroopStretchEnd_via (s : State) : Reach [.free, .regs, .tally, .pause, .power] s (execDroopStretchEnd s) := by
  unfold execDroopStretchEnd
  exact Reach.next (Via.ite (Via.step (predict_via ..) rfl (Via.step (endStretch_via ..) rfl (Via.refl _ _))) (Via.refl _ _))

theorem cutStretch_via (s : State) : Via [.free, .pause, .power] s (cutStretch s) := by
  unfold cutStretch
  extract_lets +onlyGivenNames -merge -underBinder x1
  refine Via.cut (t := x1) (Via.step (passStretch_via ..) rfl (Via.refl _ _)) fun h2 => ?_
  clear_value x1
  exact Via.step (setPower_via ..) rfl h2

theorem alertSwitch_via (s : State) : Via [.free, .regs, .tally, .pause, .power] s (alertSwitch s) := by
  unfold alertSwitch
  extract_lets +onlyGivenNames -merge -underBinder x1
  refine Via.cut (t := x1) (Via.step (cutStretch_via ..) rfl (Via.refl _ _)) fun h2 => ?_
  clear_value x1
  split
  · rename_i v3 v4 e5
    refine Via.cut (Via.pair e5 (Via.step (drawNat_via ..) rfl h2)) fun h6 => ?_
    extract_lets +onlyGivenNames -merge -underBinder y7
    try clear_value y7
    extract_lets +onlyGivenNames -merge -underBinder y8
    try clear_value y8
    exact Via.step (predict_via ..) rfl (Via.step (setPause_via ..) rfl (Via.step (setPower_via ..) rfl h6))

theorem execRegAlertAssert_via (n : Fin 4) (s : State) : Reach [.free, .regs, .tally, .pause, .power] s (execRegAlertAssert n s) := by
  unfold execRegAlertAssert
  extract_lets +onlyGivenNames -merge -underBinder y1
  try clear_value y1
  extract_lets +onlyGivenNames -merge -underBinder y2
  try clear_value y2
  extract_lets +onlyGivenNames -merge -underBinder x3
  refine Reach.cut (t := x3) (Via.step (setPower_via ..) rfl (Via.refl _ _)) fun h4 => ?_
  clear_value x3
  refine Reach.ite (?_) (Reach.next h4)
  · extract_lets +onlyGivenNames -merge -underBinder y5
    try clear_value y5
    extract_lets +onlyGivenNames -merge -underBinder x6
    refine Reach.cut (t := x6) (Via.step (setPower_via ..) rfl h4) fun h7 => ?_
    clear_value x6
    exact Reach.next (Via.ite (Via.step (alertSwitch_via ..) rfl h7) h7)

theorem execRegAlertRelease_via (s : State) : Reach [.power] s (execRegAlertRelease s) := by
  unfold execRegAlertRelease
  exact Reach.next (Via.step (setPower_via ..) rfl (Via.refl _ _))

theorem execAlertHoldEnd_via (s : State) : Reach [.power] s (execAlertHoldEnd s) := by
  unfold execAlertHoldEnd
  exact Reach.next (Via.ite (Via.step (setPower_via ..) rfl (Via.refl _ _)) (Via.refl _ _))

end Sys2Proof.Machine
end

