-- ==== Sys2Proof/Laws/ViaBoot.lean ====
section
/-! SUPPORT. What each operation of Machine/Boot.lean can touch: the pieces it names, and the memories keep their canonical form. -/

namespace Sys2Proof.Machine

open Sys2Proof

theorem resetBase_via (s : State) : Via (allBut [.pending, .free, .out]) s (resetBase s) :=
  ⟨fun p hp => by cases p <;> first | rfl | exact absurd (by decide) hp, fun _ => rfl, fun _ => rfl⟩

theorem keepField_via (old new : State) (pg : Nat) (f : Field) : Via [.regs] new (keepField old new pg f) := by
  unfold keepField
  exact wr0_via ..

theorem keepLog_via (s : State) : Via (allBut [.pending, .free, .out]) s (keepLog s) := by
  unfold keepLog
  extract_lets +onlyGivenNames -merge -underBinder x1
  refine Via.cut (t := x1) (Via.step (resetBase_via ..) rfl (Via.refl _ _)) fun h2 => ?_
  clear_value x1
  extract_lets +onlyGivenNames -merge -underBinder y3
  try clear_value y3
  extract_lets +onlyGivenNames -merge -underBinder x4
  refine Via.cut (t := x4) (Via.step (setViews_via ..) rfl (Via.step (setLog_via ..) rfl h2)) fun h5 => ?_
  clear_value x4
  extract_lets +onlyGivenNames -merge -underBinder x6
  refine Via.cut (t := x6) (Via.step (keepField_via ..) rfl (Via.step (keepField_via ..) rfl h5)) fun h7 => ?_
  clear_value x6
  exact Via.step (keepField_via ..) rfl (Via.step (keepField_via ..) rfl (Via.step (keepField_via ..) rfl h7))

theorem warmReset_via (s : State) (cause : Nat) : Via (allBut [.pending, .free, .out]) s (warmReset s cause) := by
  unfold warmReset
  extract_lets +onlyGivenNames -merge -underBinder x1
  refine Via.cut (t := x1) (Via.step (wr0_via ..) rfl (Via.step (keepLog_via ..) rfl (Via.refl _ _))) fun h2 => ?_
  clear_value x1
  extract_lets +onlyGivenNames -merge -underBinder x3
  refine Via.cut (t := x3) (Via.step (wr0_via ..) rfl h2) fun h4 => ?_
  clear_value x3
  extract_lets +onlyGivenNames -merge -underBinder x5
  refine Via.cut (t := x5) (Via.step (wr0_via ..) rfl h4) fun h6 => ?_
  clear_value x5
  extract_lets +onlyGivenNames -merge -underBinder x7
  refine Via.cut (t := x7) (Via.step (wr0_via ..) rfl h6) fun h8 => ?_
  clear_value x7
  exact Via.step (logWrite_via ..) rfl h8

theorem joinReset_via (s : State) (cause : Nat) : Via [.regs, .log] s (joinReset s cause) := by
  unfold joinReset
  extract_lets +onlyGivenNames -merge -underBinder y1
  try clear_value y1
  refine Via.ite (Via.refl _ _) (?_)
  · extract_lets +onlyGivenNames -merge -underBinder y2
    try clear_value y2
    extract_lets +onlyGivenNames -merge -underBinder x3
    refine Via.cut (t := x3) (Via.step (setLog_via ..) rfl (Via.refl _ _)) fun h4 => ?_
    clear_value x3
    exact Via.step (wr0_via ..) rfl h4

theorem actReset_via (s : State) (cause : Nat) : Via (allBut [.pending, .out]) s (actReset s cause) := by
  unfold actReset
  refine Via.ite (?_) (Via.step (warmReset_via ..) rfl (Via.refl _ _))
  · split
    · rename_i v1 v2 e3
      refine Via.cut (Via.pair e3 (Via.step (drawNat_via ..) rfl (Via.refl _ _))) fun h4 => ?_
      exact Via.ite (Via.step (joinReset_via ..) rfl h4) (Via.step (warmReset_via ..) rfl h4)

theorem coldReset_via (s : State) (ok : Bool) : Via (allBut [.pending, .free, .out]) s (coldReset s ok) := by
  unfold coldReset
  extract_lets +onlyGivenNames -merge -underBinder x1
  refine Via.cut (t := x1) (Via.step (resetBase_via ..) rfl (Via.refl _ _)) fun h2 => ?_
  clear_value x1
  exact Via.step (setBoot_via ..) rfl h2

theorem bootStatus_via (s : State) (c : Nat) : Via [.regs] s (bootStatus s c) := by
  unfold bootStatus
  exact Via.step (wr0_via ..) rfl (Via.refl _ _)

theorem haltRom_via (s : State) (c : Nat) : Via [.regs, .boot] s (haltRom s c) := by
  unfold haltRom
  extract_lets +onlyGivenNames -merge -underBinder x1
  refine Via.cut (t := x1) (Via.step (bootStatus_via ..) rfl (Via.refl _ _)) fun h2 => ?_
  clear_value x1
  exact Via.step (setBoot_via ..) rfl h2

theorem rejectBank_via (s : State) (i : Nat) : Via [.boot] s (rejectBank s i) := by
  unfold rejectBank
  exact Via.step (putBank_via ..) rfl (Via.refl _ _)

theorem chooseBank_via (s : State) : Via [.boot] s (chooseBank s).2.2 := by
  unfold chooseBank
  extract_lets +onlyGivenNames -merge -underBinder y1
  subst y1
  try dsimp -zeta only
  split
  · extract_lets +onlyGivenNames -merge -underBinder x2
    refine Via.cut (t := x2) (Via.step (putBank_via ..) rfl (Via.refl _ _)) fun h3 => ?_
    clear_value x2
    split
    · refine h3
    · refine Via.step (rejectBank_via ..) rfl h3
  · split
    · split
      · refine ?_
        · extract_lets +onlyGivenNames -merge -underBinder x4
          refine Via.cut (t := x4) (Via.step (putBank_via ..) rfl (Via.refl _ _)) fun h5 => ?_
          clear_value x4
          split
          · refine h5
          · refine Via.step (rejectBank_via ..) rfl h5
      · refine Via.step (rejectBank_via ..) rfl (Via.refl _ _)
    · split
      · split
        · refine Via.refl _ _
        · refine Via.refl _ _
      · try dsimp -zeta only
        try dsimp -zeta only
        exact Via.refl _ _

theorem loadHeft_via (s : State) (r : Record) : Via [.regs] s (loadHeft s r) := by
  unfold loadHeft
  extract_lets +onlyGivenNames -merge -underBinder x1
  refine Via.cut (t := x1) (Via.step (wrPair_via ..) rfl (Via.refl _ _)) fun h2 => ?_
  clear_value x1
  extract_lets +onlyGivenNames -merge -underBinder x3
  refine Via.cut (t := x3) (Via.forEach (fun _ _ => Via.step (wr_via ..) rfl (Via.step (wr_via ..) rfl (Via.refl _ _))) h2) fun h4 => ?_
  clear_value x3
  extract_lets +onlyGivenNames -merge -underBinder x5
  refine Via.cut (t := x5) (Via.forEach (?_) h4) fun h6 => ?_
  · intro s7 a8
    split
    · exact Via.step (setRole_via ..) rfl (Via.refl _ _)
    · exact Via.step (setRole_via ..) rfl (Via.refl _ _)
  clear_value x5
  exact Via.step (wr0_via ..) rfl h6

theorem loadTables_via (s : State) : Via [.hks] s (loadTables s) := by
  unfold loadTables
  extract_lets +onlyGivenNames -merge -underBinder y1
  try clear_value y1
  exact Via.forEach (fun _ _ => Via.step (modHk_via ..) rfl (Via.refl _ _)) (Via.refl _ _)

theorem loadCoefs_via (s : State) : Via [.power, .hks] s (loadCoefs s) := by
  unfold loadCoefs
  extract_lets +onlyGivenNames -merge -underBinder y1
  try clear_value y1
  extract_lets +onlyGivenNames -merge -underBinder x2
  refine Via.cut (t := x2) (Via.step (setPower_via ..) rfl (Via.refl _ _)) fun h3 => ?_
  clear_value x2
  exact Via.forEach (fun _ _ => Via.step (modHk_via ..) rfl (Via.refl _ _)) h3

theorem stage4_via (s : State) : Via [.regs, .views, .log, .power, .hks, .out] s (stage4 s) := by
  unfold stage4
  extract_lets +onlyGivenNames -merge -underBinder y1
  try clear_value y1
  extract_lets +onlyGivenNames -merge -underBinder x2
  refine Via.cut (t := x2) (Via.step (loadHeft_via ..) rfl (Via.step (loadCoefs_via ..) rfl (Via.refl _ _))) fun h3 => ?_
  clear_value x2
  extract_lets +onlyGivenNames -merge -underBinder x4
  refine Via.cut (t := x4) (Via.step (wr0_via ..) rfl (Via.step (wr0_via ..) rfl h3)) fun h5 => ?_
  clear_value x4
  extract_lets +onlyGivenNames -merge -underBinder x6
  refine Via.cut (t := x6) (Via.forEach (fun _ _ => Via.step (wr_via ..) rfl (Via.refl _ _)) h5) fun h7 => ?_
  clear_value x6
  extract_lets +onlyGivenNames -merge -underBinder x8
  refine Via.cut (t := x8) (Via.step (wr0_via ..) rfl (Via.step (wr0_via ..) rfl h7)) fun h9 => ?_
  clear_value x8
  extract_lets +onlyGivenNames -merge -underBinder x10
  refine Via.cut (t := x10) (Via.forEach (?_) h9) fun h11 => ?_
  · intro s12 a13
    split
    · split
      · extract_lets +onlyGivenNames -merge -underBinder x14
        refine Via.cut (t := x14) (Via.step (wr0_via ..) rfl (Via.step (wr0_via ..) rfl (Via.refl _ _))) fun h15 => ?_
        clear_value x14
        exact Via.step (wr0_via ..) rfl (Via.step (wr0_via ..) rfl h15)
  clear_value x10
  exact Via.step (commandState_via ..) rfl h11

theorem stage5_via (s : State) : Via [.regs, .boot] s (stage5 s) := by
  unfold stage5
  extract_lets +onlyGivenNames -merge -underBinder y1
  try clear_value y1
  extract_lets +onlyGivenNames -merge -underBinder x2
  refine Via.cut (t := x2) (Via.step (setBoot_via ..) rfl (Via.refl _ _)) fun h3 => ?_
  clear_value x2
  exact Via.step (wr0_via ..) rfl h3

theorem addStatus_via (s : State) (c : Nat) : Via [.regs] s (addStatus s c) := by
  unfold addStatus
  exact Via.ite (Via.step (bootStatus_via ..) rfl (Via.refl _ _)) (Via.refl _ _)

theorem bootFirst_via (s : State) : Via [.regs, .views, .log, .power, .hks, .boot, .out] s (bootFirst s) := by
  unfold bootFirst
  refine Via.ite (Via.step (haltRom_via ..) rfl (Via.refl _ _)) (?_)
  · split
    · rename_i v1 v2 v3 e4
      refine Via.cut (Via.trip e4 (Via.step (chooseBank_via ..) rfl (Via.refl _ _))) fun h5 => ?_
      split
      · exact Via.step (haltRom_via ..) rfl h5
      · extract_lets +onlyGivenNames -merge -underBinder y6
        try clear_value y6
        extract_lets +onlyGivenNames -merge -underBinder x7
        refine Via.cut (t := x7) (Via.step (setBoot_via ..) rfl h5) fun h8 => ?_
        clear_value x7
        extract_lets +onlyGivenNames -merge -underBinder x9
        refine Via.cut (t := x9) (Via.ite (Via.step (bootStatus_via ..) rfl h8) h8) fun h10 => ?_
        clear_value x9
        extract_lets +onlyGivenNames -merge -underBinder x11
        refine Via.cut (t := x11) (Via.step (wr0_via ..) rfl (Via.step (wr0_via ..) rfl h10)) fun h12 => ?_
        clear_value x11
        extract_lets +onlyGivenNames -merge -underBinder x13
        refine Via.cut (t := x13) (Via.step (wr0_via ..) rfl h12) fun h14 => ?_
        clear_value x13
        extract_lets +onlyGivenNames -merge -underBinder x15
        refine Via.cut (t := x15) (Via.step (stage5_via ..) rfl (Via.step (stage4_via ..) rfl (Via.step (loadTables_via ..) rfl h14))) fun h16 => ?_
        clear_value x15
        exact Via.ite h16 (Via.step (addStatus_via ..) rfl h16)

theorem grantPen_via (s : State) (p : Nat) (g : PenGrant) (ipv6 : List Byte) (ipv4 : List Byte) (ip4 : Bool) (vlan : Option Nat) (quota : Nat) (exts : List (Nat × Nat × Nat)) : Via [.regs, .boot] s (grantPen s p g ipv6 ipv4 ip4 vlan quota exts) := by
  unfold grantPen
  extract_lets +onlyGivenNames -merge -underBinder y1
  try clear_value y1
  extract_lets +onlyGivenNames -merge -underBinder y2
  try clear_value y2
  extract_lets +onlyGivenNames -merge -underBinder x3
  refine Via.cut (t := x3) (Via.step (setBoot_via ..) rfl (Via.refl _ _)) fun h4 => ?_
  clear_value x3
  extract_lets +onlyGivenNames -merge -underBinder x5
  refine Via.cut (t := x5) (Via.forEach (fun _ _ => Via.step (wr_via ..) rfl (Via.refl _ _)) h4) fun h6 => ?_
  clear_value x5
  extract_lets +onlyGivenNames -merge -underBinder x7
  refine Via.cut (t := x7) (Via.step (wr0_via ..) rfl (Via.step (wr0_via ..) rfl h6)) fun h8 => ?_
  clear_value x7
  extract_lets +onlyGivenNames -merge -underBinder x9
  refine Via.cut (t := x9) (Via.step (wr0_via ..) rfl (Via.step (wr0_via ..) rfl h8)) fun h10 => ?_
  clear_value x9
  extract_lets +onlyGivenNames -merge -underBinder x11
  refine Via.cut (t := x11) (Via.step (wr0_via ..) rfl h10) fun h12 => ?_
  clear_value x11
  extract_lets +onlyGivenNames -merge -underBinder x13
  refine Via.cut (t := x13) (Via.forEach (?_) h12) fun h14 => ?_
  · intro s15 a16
    extract_lets +onlyGivenNames -merge -underBinder x17
    refine Via.cut (t := x17) (Via.step (wr_via ..) rfl (Via.step (wr_via ..) rfl (Via.refl _ _))) fun h18 => ?_
    clear_value x17
    exact Via.step (wr_via ..) rfl (Via.step (wr_via ..) rfl h18)
  clear_value x13
  exact Via.step (wr0_via ..) rfl h14

theorem applyPolicy_via (s : State) (slot : Nat) (entry : Nat) : Via [.regs, .boot] s (applyPolicy s slot entry) := by
  unfold applyPolicy
  extract_lets +onlyGivenNames -merge -underBinder y1
  try clear_value y1
  extract_lets +onlyGivenNames -merge -underBinder y2
  try clear_value y2
  extract_lets +onlyGivenNames -merge -underBinder x3
  refine Via.cut (t := x3) (Via.forEach (?_) (Via.refl _ _)) fun h4 => ?_
  · intro s5 a6
    extract_lets +onlyGivenNames -merge -underBinder y7
    try clear_value y7
    refine Via.ite (?_) (Via.refl _ _)
    · extract_lets +onlyGivenNames -merge -underBinder y8
      try clear_value y8
      exact Via.step (grantPen_via ..) rfl (Via.refl _ _)
  clear_value x3
  extract_lets +onlyGivenNames -merge -underBinder x9
  refine Via.cut (t := x9) (Via.step (wr0_via ..) rfl (Via.step (wr0_via ..) rfl h4)) fun h10 => ?_
  clear_value x9
  extract_lets +onlyGivenNames -merge -underBinder x11
  refine Via.cut (t := x11) (Via.step (wr0_via ..) rfl (Via.step (wr0_via ..) rfl h10)) fun h12 => ?_
  clear_value x11
  extract_lets +onlyGivenNames -merge -underBinder y13
  try clear_value y13
  extract_lets +onlyGivenNames -merge -underBinder x14
  refine Via.cut (t := x14) (Via.step (setBoot_via ..) rfl h12) fun h15 => ?_
  clear_value x14
  extract_lets +onlyGivenNames -merge -underBinder y16
  try clear_value y16
  exact Via.ite (Via.step (putFlash_via ..) rfl h15) h15

theorem provision_via (s : State) : Via [.regs, .boot] s (provision s) := by
  unfold provision
  extract_lets +onlyGivenNames -merge -underBinder y1
  try clear_value y1
  extract_lets +onlyGivenNames -merge -underBinder x2
  refine Via.cut (t := x2) (Via.step (grantPen_via ..) rfl (Via.refl _ _)) fun h3 => ?_
  clear_value x2
  exact Via.step (wr0_via ..) rfl h3

theorem lockPages_via (s : State) : Via [.regs] s (lockPages s) := by
  unfold lockPages
  exact Via.forEach (fun _ _ => Via.step (wr0_via ..) rfl (Via.step (wr0_via ..) rfl (Via.refl _ _))) (Via.refl _ _)

theorem stage6_via (s : State) : Via [.regs, .boot] s (stage6 s) := by
  unfold stage6
  extract_lets +onlyGivenNames -merge -underBinder y1
  try clear_value y1
  extract_lets +onlyGivenNames -merge -underBinder x2
  refine Via.cut (t := x2) (?_) fun h3 => ?_
  · subst x2
    split
    · exact Via.step (putFlash_via ..) rfl (Via.refl _ _)
    · exact Via.refl _ _
  clear_value x2
  refine Via.step (lockPages_via ..) rfl (?_)
  · split
    · exact Via.step (applyPolicy_via ..) rfl h3
    · exact Via.step (provision_via ..) rfl (Via.step (addStatus_via ..) rfl h3)

theorem putTarget_via (s : State) (e : List Byte) : Via [.free, .regs, .weights, .net, .out] s (putTarget s e) := by
  unfold putTarget
  extract_lets +onlyGivenNames -merge -underBinder y1
  try clear_value y1
  extract_lets +onlyGivenNames -merge -underBinder y2
  try clear_value y2
  extract_lets +onlyGivenNames -merge -underBinder x3
  refine Via.cut (t := x3) (?_) fun h4 => ?_
  · subst x3
    split
    · exact Via.step (putQp_via ..) rfl (Via.refl _ _)
    · exact Via.refl _ _
  clear_value x3
  extract_lets +onlyGivenNames -merge -underBinder y5
  try clear_value y5
  extract_lets +onlyGivenNames -merge -underBinder x6
  refine Via.cut (t := x6) (Via.step (setWeights_via ..) rfl h4) fun h7 => ?_
  clear_value x6
  exact Via.step (connectTarget_via ..) rfl (Via.step (wr_via ..) rfl h7)

theorem loadSettings_via (s : State) : Via [.free, .regs, .boot, .weights, .net, .out] s (loadSettings s) := by
  unfold loadSettings
  extract_lets +onlyGivenNames -merge -underBinder y1
  try clear_value y1
  extract_lets +onlyGivenNames -merge -underBinder y2
  try clear_value y2
  extract_lets +onlyGivenNames -merge -underBinder x3
  refine Via.cut (t := x3) (?_) fun h4 => ?_
  · subst x3
    split
    · exact Via.ite (Via.step (putBank_via ..) rfl (Via.refl _ _)) (Via.refl _ _)
    · exact Via.refl _ _
  clear_value x3
  exact Via.forEach (fun _ _ => Via.step (putTarget_via ..) rfl (Via.refl _ _)) h4

theorem startUnits_via (s : State) : Via [.regs, .hks] s (startUnits s) := by
  unfold startUnits
  refine Via.forEach (?_) (Via.refl _ _)
  · intro s1 a2
    extract_lets +onlyGivenNames -merge -underBinder y3
    try clear_value y3
    extract_lets +onlyGivenNames -merge -underBinder x4
    refine Via.cut (t := x4) (Via.step (wr0_via ..) rfl (Via.refl _ _)) fun h5 => ?_
    clear_value x4
    extract_lets +onlyGivenNames -merge -underBinder x6
    refine Via.cut (t := x6) (Via.forEach (fun _ _ => Via.step (wr_via ..) rfl (Via.step (wr_via ..) rfl (Via.refl _ _))) h5) fun h7 => ?_
    clear_value x6
    exact Via.step (modHk_via ..) rfl h7

theorem askBootCalibration_via (s : State) : Via [.folds] s (askBootCalibration s) := by
  unfold askBootCalibration
  exact Via.forEach (fun _ _ => Via.ite (Via.refl _ _) (Via.step (modFold_via ..) rfl (Via.refl _ _))) (Via.refl _ _)

theorem stage7_via (s : State) : Via [.free, .regs, .folds, .pause, .hks, .boot, .links, .weights, .net, .out] s (stage7 s) := by
  unfold stage7
  extract_lets +onlyGivenNames -merge -underBinder x1
  refine Via.cut (t := x1) (Via.step (askBootCalibration_via ..) rfl (Via.step (startUnits_via ..) rfl (Via.step (loadSettings_via ..) rfl (Via.refl _ _)))) fun h2 => ?_
  clear_value x1
  extract_lets +onlyGivenNames -merge -underBinder y3
  try clear_value y3
  extract_lets +onlyGivenNames -merge -underBinder y4
  try clear_value y4
  extract_lets +onlyGivenNames -merge -underBinder y5
  try clear_value y5
  extract_lets +onlyGivenNames -merge -underBinder x6
  refine Via.cut (t := x6) (Via.step (setBoot_via ..) rfl h2) fun h7 => ?_
  clear_value x6
  extract_lets +onlyGivenNames -merge -underBinder x8
  refine Via.cut (t := x8) (Via.forEach (fun _ _ => Via.step (wr_via ..) rfl (Via.refl _ _)) h7) fun h9 => ?_
  clear_value x8
  split
  · rename_i v10 v11 e12
    refine Via.cut (Via.pair e12 (Via.step (drawNat_via ..) rfl h9)) fun h13 => ?_
    extract_lets +onlyGivenNames -merge -underBinder x14
    refine Via.cut (t := x14) (Via.step (showUpd_via ..) rfl (Via.step (wr0_via ..) rfl h13)) fun h15 => ?_
    clear_value x14
    exact Via.forEach (fun _ _ => Via.step (tryTrain_via ..) rfl (Via.refl _ _)) h15

theorem bootRest_via (s : State) : Via [.free, .regs, .folds, .pause, .hks, .boot, .links, .weights, .net, .out] s (bootRest s) := by
  unfold bootRest
  exact Via.ite (Via.step (stage7_via ..) rfl (Via.step (stage6_via ..) rfl (Via.refl _ _))) (Via.refl _ _)

theorem execPwrOkRise_via (s : State) : Reach (allBut [.pending, .free, .out]) s (execPwrOkRise s) := by
  unfold execPwrOkRise
  exact Reach.next (Via.ite (Via.refl _ _) (Via.step (coldReset_via ..) rfl (Via.refl _ _)))

theorem execPwrOkFall_via (s : State) : Reach (allBut [.pending, .free]) s (execPwrOkFall s) := by
  unfold execPwrOkFall
  exact Reach.next (Via.ite (Via.step (emit_via ..) rfl (Via.step (coldReset_via ..) rfl (Via.refl _ _))) (Via.refl _ _))

theorem execResetNAssert_via (s : State) : Reach (allBut [.pending]) s (execResetNAssert s) := by
  unfold execResetNAssert
  refine Reach.ite (Reach.next (Via.refl _ _)) (?_)
  · extract_lets +onlyGivenNames -merge -underBinder y1
    try clear_value y1
    extract_lets +onlyGivenNames -merge -underBinder x2
    refine Reach.cut (t := x2) (Via.step (setBoot_via ..) rfl (Via.refl _ _)) fun h3 => ?_
    clear_value x2
    refine Reach.ite (?_) (Reach.next h3)
    · extract_lets +onlyGivenNames -merge -underBinder x4
      refine Reach.cut (t := x4) (Via.step (actReset_via ..) rfl h3) fun h5 => ?_
      clear_value x4
      exact Reach.next (Via.ite (Via.step (emit_via ..) rfl h5) h5)

theorem execResetRelease_via (s : State) : Reach [.regs, .views, .log, .power, .hks, .boot, .out] s (execResetRelease s) := by
  unfold execResetRelease
  refine Reach.ite (?_) (Reach.next (Via.refl _ _))
  · extract_lets +onlyGivenNames -merge -underBinder y1
    try clear_value y1
    extract_lets +onlyGivenNames -merge -underBinder x2
    refine Reach.cut (t := x2) (Via.step (setBoot_via ..) rfl (Via.refl _ _)) fun h3 => ?_
    clear_value x2
    extract_lets +onlyGivenNames -merge -underBinder y4
    try clear_value y4
    extract_lets +onlyGivenNames -merge -underBinder x5
    refine Reach.cut (t := x5) (Via.ite h3 (Via.step (setPower_via ..) rfl h3)) fun h6 => ?_
    clear_value x5
    exact Reach.next (Via.step (bootFirst_via ..) rfl h6)

theorem warmCommand_via (s : State) (cause : Nat) : Via (allBut [.pending, .out]) s (warmCommand s cause) := by
  unfold warmCommand
  exact Via.ite (Via.step (actReset_via ..) rfl (Via.refl _ _)) (Via.refl _ _)

theorem execSoftReset_via (src : Source) (s : State) : Reach (allBut [.pending, .out]) s (execSoftReset src s) := by
  unfold execSoftReset
  exact Reach.next (Via.after (onPage_via rfl (fun _ => Via.step (warmCommand_via ..) rfl (Via.refl _ _))) (Via.refl _ _))

theorem execJtagReset_via (s : State) : Reach (allBut [.pending, .out]) s (execJtagReset s) := by
  unfold execJtagReset
  exact Reach.next (Via.step (warmCommand_via ..) rfl (Via.refl _ _))

theorem keepPage_via (old new : State) (pg : Nat) : Via [.regs] new (keepPage old new pg) := by
  unfold keepPage
  exact setRegs_via ..

theorem trip_via (s : State) (die : Nat) (comp : Nat) : Via (allBut [.pending, .free]) s (trip s die comp) := by
  unfold trip
  extract_lets +onlyGivenNames -merge -underBinder x1
  refine Via.cut (t := x1) (Via.step (logWrite_via ..) rfl (Via.step (errEvent_via ..) rfl (Via.refl _ _))) fun h2 => ?_
  clear_value x1
  extract_lets +onlyGivenNames -merge -underBinder x3
  refine Via.cut (t := x3) (Via.step (setPower_via ..) rfl (Via.step (keepLog_via ..) rfl h2)) fun h4 => ?_
  clear_value x3
  extract_lets +onlyGivenNames -merge -underBinder x5
  refine Via.cut (t := x5) (Via.step (setHks_via ..) rfl h4) fun h6 => ?_
  clear_value x5
  extract_lets +onlyGivenNames -merge -underBinder x7
  refine Via.cut (t := x7) (Via.fold _ _ (fun _ _ => Via.step (keepPage_via ..) rfl (Via.refl _ _)) h6) fun h8 => ?_
  clear_value x7
  extract_lets +onlyGivenNames -merge -underBinder x9
  refine Via.cut (t := x9) (Via.step (keepField_via ..) rfl h8) fun h10 => ?_
  clear_value x9
  extract_lets +onlyGivenNames -merge -underBinder y11
  try clear_value y11
  extract_lets +onlyGivenNames -merge -underBinder x12
  refine Via.cut (t := x12) (Via.step (setBoot_via ..) rfl h10) fun h13 => ?_
  clear_value x12
  extract_lets +onlyGivenNames -merge -underBinder y14
  try clear_value y14
  extract_lets +onlyGivenNames -merge -underBinder x15
  refine Via.cut (t := x15) (Via.step (setPower_via ..) rfl h13) fun h16 => ?_
  clear_value x15
  extract_lets +onlyGivenNames -merge -underBinder x17
  refine Via.cut (t := x17) (Via.forEach (?_) h16) fun h18 => ?_
  · intro s19 a20
    extract_lets +onlyGivenNames -merge -underBinder y21
    try clear_value y21
    exact Via.step (emit_via ..) rfl (Via.step (setPower_via ..) rfl (Via.refl _ _))
  clear_value x17
  exact Via.step (emit_via ..) rfl h18

theorem execCompDisable_via (die : Fin 3) (comp : Fin 8) (s : State) : Reach (allBut [.pending, .free]) s (execCompDisable die comp s) := by
  unfold execCompDisable
  refine Reach.ite (?_) (Reach.next (Via.refl _ _))
  · extract_lets +onlyGivenNames -merge -underBinder x1
    refine Reach.cut (t := x1) (Via.step (wrBit_via ..) rfl (Via.refl _ _)) fun h2 => ?_
    clear_value x1
    exact Reach.next (Via.ite (Via.step (trip_via ..) rfl h2) h2)

theorem execThermalTrip_via (die : Fin 3) (comp : Fin 8) (s : State) : Reach (allBut [.pending, .free]) s (execThermalTrip die comp s) := by
  unfold execThermalTrip
  exact Reach.next (Via.ite (Via.step (trip_via ..) rfl (Via.refl _ _)) (Via.refl _ _))

theorem execThermalRelease_via (s : State) : Reach (allBut [.pending, .free]) s (execThermalRelease s) := by
  unfold execThermalRelease
  exact Reach.next (Via.ite (Via.step (emit_via ..) rfl (Via.step (warmReset_via ..) rfl (Via.refl _ _))) (Via.refl _ _))

end Sys2Proof.Machine
end

