-- ==== Sys2Proof/Laws/ViaAttest.lean ====
section
/-! SUPPORT. What each operation of Machine/Attest.lean can touch: the pieces it names, and the memories keep their canonical form. -/

namespace Sys2Proof.Machine

open Sys2Proof

theorem refuseAttest_via (s : State) (why : Nat) : Via [.regs] s (refuseAttest s why) := by
  unfold refuseAttest
  exact Via.step (wr0_via ..) rfl (Via.step (wr0_via ..) rfl (Via.refl _ _))

theorem attestStart_via (src : Source) (s : State) : Via [.free, .regs, .views, .ptp, .log, .boot] s (attestStart src s) := by
  unfold attestStart
  extract_lets +onlyGivenNames -merge -underBinder y1
  try clear_value y1
  refine Via.ite (Via.step (accessError_via ..) rfl (Via.refl _ _)) (Via.ite (Via.step (refuseAttest_via ..) rfl (Via.refl _ _)) (Via.ite (Via.step (refuseAttest_via ..) rfl (Via.refl _ _)) (?_)))
  · extract_lets +onlyGivenNames -merge -underBinder x2
    refine Via.cut (t := x2) (Via.step (passTime_via ..) rfl (Via.step (wr0_via ..) rfl (Via.step (wr0_via ..) rfl (Via.refl _ _)))) fun h3 => ?_
    clear_value x2
    exact Via.step (setBoot_via ..) rfl h3

theorem execAttestStart_via (src : Source) (s : State) : Reach [.free, .regs, .views, .ptp, .log, .boot] s (execAttestStart src s) := by
  unfold execAttestStart
  exact Reach.next (Via.after (onPage_via rfl (fun _ => Via.step (attestStart_via ..) rfl (Via.refl _ _))) (Via.refl _ _))

theorem execAttestDone_via (s : State) : Reach [.regs, .views, .log, .mem, .fresh, .care, .boot] s (execAttestDone s) := by
  unfold execAttestDone
  refine Reach.next (Via.ite (Via.refl _ _) (?_))
  · split
    · exact Via.refl _ _
    · extract_lets +onlyGivenNames -merge -underBinder x1
      refine Via.cut (t := x1) (Via.step (coreWrite_via ..) rfl (Via.refl _ _)) fun h2 => ?_
      clear_value x1
      extract_lets +onlyGivenNames -merge -underBinder x3
      refine Via.cut (t := x3) (Via.step (bump_via ..) rfl (Via.step (wr0_via ..) rfl h2)) fun h4 => ?_
      clear_value x3
      exact Via.step (setBoot_via ..) rfl h4

end Sys2Proof.Machine
end

