-- ==== Sys2Proof/Laws/ViaCalibration.lean ====
section
/-! SUPPORT. What each operation of Machine/Calibration.lean can touch: the pieces it names, and the memories keep their canonical form. -/

namespace Sys2Proof.Machine

open Sys2Proof

theorem showBound_via (s : State) (f : Nat) (a : Nat) : Via [.regs] s (showBound s f a) := by
  unfold showBound
  extract_lets +onlyGivenNames -merge -underBinder y1
  try clear_value y1
  extract_lets +onlyGivenNames -merge -underBinder x2
  refine Via.cut (t := x2) (Via.step (wr_via ..) rfl (Via.refl _ _)) fun h3 => ?_
  clear_value x2
  extract_lets +onlyGivenNames -merge -underBinder x4
  refine Via.cut (t := x4) (Via.step (wr_via ..) rfl h3) fun h5 => ?_
  clear_value x4
  exact Via.step (wr_via ..) rfl h5

theorem errorTerms_via (s : State) (f : Nat) (a : Nat) : Via [.regs, .folds] s (errorTerms s f a) := by
  unfold errorTerms
  extract_lets +onlyGivenNames -merge -underBinder y1
  try clear_value y1
  extract_lets +onlyGivenNames -merge -underBinder y2
  try clear_value y2
  extract_lets +onlyGivenNames -merge -underBinder y3
  try clear_value y3
  extract_lets +onlyGivenNames -merge -underBinder y4
  try clear_value y4
  extract_lets +onlyGivenNames -merge -underBinder y5
  try clear_value y5
  extract_lets +onlyGivenNames -merge -underBinder y6
  try clear_value y6
  extract_lets +onlyGivenNames -merge -underBinder x7
  refine Via.cut (t := x7) (Via.step (modArr_via ..) rfl (Via.refl _ _)) fun h8 => ?_
  clear_value x7
  extract_lets +onlyGivenNames -merge -underBinder x9
  refine Via.cut (t := x9) (Via.step (wrBit_via ..) rfl h8) fun h10 => ?_
  clear_value x9
  extract_lets +onlyGivenNames -merge -underBinder x11
  refine Via.cut (t := x11) (Via.ite (Via.step (wrBit_via ..) rfl h10) h10) fun h12 => ?_
  clear_value x11
  exact Via.ite h12 (Via.step (showBound_via ..) rfl h12)

theorem openWindow_via (s : State) (f : Nat) (a : Nat) : Via [.regs, .folds] s (openWindow s f a) := by
  unfold openWindow
  extract_lets +onlyGivenNames -merge -underBinder y1
  try clear_value y1
  extract_lets +onlyGivenNames -merge -underBinder x2
  refine Via.cut (t := x2) (Via.step (modArr_via ..) rfl (Via.refl _ _)) fun h3 => ?_
  clear_value x2
  exact Via.step (wrBit_via ..) rfl h3

theorem openStale_via (s : State) (f : Nat) (a : Nat) : Via [.regs, .folds] s (openStale s f a) := by
  unfold openStale
  exact Via.step (wr_via ..) rfl (Via.step (openWindow_via ..) rfl (Via.refl _ _))

theorem discardWindow_via (s : State) (f : Nat) (a : Nat) : Via [.regs, .folds] s (discardWindow s f a) := by
  unfold discardWindow
  exact Via.step (wrBit_via ..) rfl (Via.step (modArr_via ..) rfl (Via.refl _ _))

theorem discardWindows_via (s : State) (f : Nat) : Via [.regs, .folds] s (discardWindows s f) := by
  unfold discardWindows
  exact Via.forEach (fun _ _ => Via.step (discardWindow_via ..) rfl (Via.refl _ _)) (Via.refl _ _)

theorem boundaryArray_via (trig : Bool) (s : State) (f : Nat) (a : Nat) : Via [.regs, .folds] s (boundaryArray trig s f a) := by
  unfold boundaryArray
  extract_lets +onlyGivenNames -merge -underBinder y1
  try clear_value y1
  split
  · exact Via.ite (Via.step (openWindow_via ..) rfl (Via.step (bump_via ..) rfl (Via.refl _ _))) (Via.refl _ _)
  · exact Via.ite (Via.step (openStale_via ..) rfl (Via.refl _ _)) (Via.ite (Via.step (openWindow_via ..) rfl (Via.refl _ _)) (Via.refl _ _))

theorem boundaryServing_via (s : State) (f : Nat) : Via [.regs, .folds] s (boundaryServing s f) := by
  unfold boundaryServing
  refine Via.ite (Via.step (modFold_via ..) rfl (Via.step (discardWindows_via ..) rfl (Via.refl _ _))) (?_)
  · extract_lets +onlyGivenNames -merge -underBinder y1
    try clear_value y1
    extract_lets +onlyGivenNames -merge -underBinder x2
    refine Via.cut (t := x2) (Via.forEach (fun _ _ => Via.step (boundaryArray_via ..) rfl (Via.refl _ _)) (Via.refl _ _)) fun h3 => ?_
    clear_value x2
    exact Via.step (modFold_via ..) rfl h3

theorem boundaryOther_via (s : State) (f : Nat) : Via [.folds] s (boundaryOther s f) := by
  unfold boundaryOther
  extract_lets +onlyGivenNames -merge -underBinder y1
  try clear_value y1
  extract_lets +onlyGivenNames -merge -underBinder y2
  try clear_value y2
  extract_lets +onlyGivenNames -merge -underBinder y3
  try clear_value y3
  exact Via.step (modFold_via ..) rfl (Via.refl _ _)

theorem boundaryCal_via (s : State) (f : Nat) : Via [.regs, .folds] s (boundaryCal s f) := by
  unfold boundaryCal
  extract_lets +onlyGivenNames -merge -underBinder y1
  try clear_value y1
  extract_lets +onlyGivenNames -merge -underBinder x2
  refine Via.cut (t := x2) (Via.ite (Via.step (boundaryServing_via ..) rfl (Via.refl _ _)) (Via.step (boundaryOther_via ..) rfl (Via.refl _ _))) fun h3 => ?_
  clear_value x2
  refine Via.ite h3 (?_)
  · extract_lets +onlyGivenNames -merge -underBinder x4
    refine Via.cut (t := x4) (Via.step (wr0_via ..) rfl h3) fun h5 => ?_
    clear_value x4
    exact Via.forEach (fun _ _ => Via.step (errorTerms_via ..) rfl (Via.refl _ _)) h5

theorem execCalPeriodExpiry_via (fold : Fin 68) (s : State) : Reach [.folds] s (execCalPeriodExpiry fold s) := by
  unfold execCalPeriodExpiry
  exact Reach.next (Via.step (modFold_via ..) rfl (Via.refl _ _))

theorem rejectSet_via (s : State) (f : Nat) (a : Nat) (cause : Nat) : Via [.regs, .folds] s (rejectSet s f a cause) := by
  unfold rejectSet
  extract_lets +onlyGivenNames -merge -underBinder y1
  try clear_value y1
  extract_lets +onlyGivenNames -merge -underBinder x2
  refine Via.cut (t := x2) (Via.step (wrBit_via ..) rfl (Via.step (discardWindow_via ..) rfl (Via.refl _ _))) fun h3 => ?_
  clear_value x2
  extract_lets +onlyGivenNames -merge -underBinder x4
  refine Via.cut (t := x4) (Via.step (wr0_via ..) rfl (Via.step (wr0_via ..) rfl h3)) fun h5 => ?_
  clear_value x4
  extract_lets +onlyGivenNames -merge -underBinder y6
  try clear_value y6
  refine Via.ite (?_) (Via.step (modArr_via ..) rfl h5)
  · extract_lets +onlyGivenNames -merge -underBinder x7
    refine Via.cut (t := x7) (Via.ite h5 (Via.step (errEvent_via ..) rfl (Via.step (wrBit_via ..) rfl h5))) fun h8 => ?_
    clear_value x7
    extract_lets +onlyGivenNames -merge -underBinder y9
    try clear_value y9
    exact Via.step (modArr_via ..) rfl h8

theorem closeWindow_via (s : State) (f : Nat) (a : Nat) (w : Window) : Via [.free, .regs, .folds] s (closeWindow s f a w) := by
  unfold closeWindow
  extract_lets +onlyGivenNames -merge -underBinder y1
  try clear_value y1
  split
  · extract_lets +onlyGivenNames -merge -underBinder x2
    refine Via.cut (t := x2) (Via.step (modArr_via ..) rfl (Via.step (setFree_via ..) rfl (Via.refl _ _))) fun h3 => ?_
    clear_value x2
    extract_lets +onlyGivenNames -merge -underBinder y4
    try clear_value y4
    extract_lets +onlyGivenNames -merge -underBinder y5
    try clear_value y5
    refine Via.ite (?_) (Via.step (rejectSet_via ..) rfl h3)
    · extract_lets +onlyGivenNames -merge -underBinder y6
      try clear_value y6
      exact Via.step (modArr_via ..) rfl h3

theorem execCalWindowClose_via (fold : Fin 68) (array : Fin 16) (s : State) : Reach [.free, .regs, .folds] s (execCalWindowClose fold array s) := by
  unfold execCalWindowClose
  split
  · exact Reach.next (Via.ite (Via.step (closeWindow_via ..) rfl (Via.refl _ _)) (Via.refl _ _))
  · exact Reach.next (Via.refl _ _)

theorem execCalWindowTimeout_via (fold : Fin 68) (array : Fin 16) (s : State) : Reach [.free, .regs, .folds] s (execCalWindowTimeout fold array s) := by
  unfold execCalWindowTimeout
  split
  · exact Reach.next (Via.ite (Via.step (closeWindow_via ..) rfl (Via.refl _ _)) (Via.refl _ _))
  · exact Reach.next (Via.refl _ _)

theorem applied_via (s : State) (f : Nat) (a : Nat) (t : Int) : Via [.regs, .folds] s (applied s f a t) := by
  unfold applied
  extract_lets +onlyGivenNames -merge -underBinder y1
  try clear_value y1
  extract_lets +onlyGivenNames -merge -underBinder x2
  refine Via.cut (t := x2) (Via.step (discardWindow_via ..) rfl (Via.refl _ _)) fun h3 => ?_
  clear_value x2
  extract_lets +onlyGivenNames -merge -underBinder x4
  refine Via.cut (t := x4) (Via.step (wr_via ..) rfl h3) fun h5 => ?_
  clear_value x4
  extract_lets +onlyGivenNames -merge -underBinder x6
  refine Via.cut (t := x6) (Via.step (wr_via ..) rfl h5) fun h7 => ?_
  clear_value x6
  extract_lets +onlyGivenNames -merge -underBinder x8
  refine Via.cut (t := x8) (Via.step (wrBit_via ..) rfl (Via.step (wrBit_via ..) rfl h7)) fun h9 => ?_
  clear_value x8
  extract_lets +onlyGivenNames -merge -underBinder x10
  refine Via.cut (t := x10) (Via.step (modArr_via ..) rfl h9) fun h11 => ?_
  clear_value x10
  extract_lets +onlyGivenNames -merge -underBinder x12
  refine Via.cut (t := x12) (Via.step (modFold_via ..) rfl h11) fun h13 => ?_
  clear_value x12
  exact Via.step (bump_via ..) rfl (Via.step (errorTerms_via ..) rfl h13)

theorem execCalApply_via (fold : Fin 68) (array : Fin 16) (s : State) : Reach [.regs, .views, .log, .folds] s (execCalApply fold array s) := by
  unfold execCalApply
  split
  · refine Reach.ite (Reach.ite (?_) (Reach.next (Via.step (accessError_via ..) rfl (Via.step (discardWindow_via ..) rfl (Via.refl _ _))))) (Reach.next (Via.refl _ _))
    · extract_lets +onlyGivenNames -merge -underBinder x1
      refine Reach.cut (t := x1) (Via.step (modArr_via ..) rfl (Via.refl _ _)) fun h2 => ?_
      clear_value x1
      extract_lets +onlyGivenNames -merge -underBinder x3
      refine Reach.cut (t := x3) (Via.step (applied_via ..) rfl h2) fun h4 => ?_
      clear_value x3
      exact Reach.next (Via.ite (Via.step (openWindow_via ..) rfl h4) h4)
  · exact Reach.next (Via.refl _ _)

theorem referencePlanes_via (s : State) (f : Nat) (a : Nat) : Via [.free, .folds] s (referencePlanes s f a) := by
  unfold referencePlanes
  extract_lets +onlyGivenNames -merge -underBinder y1
  try clear_value y1
  exact Via.step (modArr_via ..) rfl (Via.step (setFree_via ..) rfl (Via.refl _ _))

theorem applyBoot_via (s : State) (f : Nat) (a : Nat) (r : CalResult) (t : Int) : Via [.regs, .folds] s (applyBoot s f a r t) := by
  unfold applyBoot
  extract_lets +onlyGivenNames -merge -underBinder x1
  refine Via.cut (t := x1) (Via.step (modArr_via ..) rfl (Via.refl _ _)) fun h2 => ?_
  clear_value x1
  exact Via.step (applied_via ..) rfl (Via.step (wr_via ..) rfl h2)

theorem calibrateArray_via (s : State) (f : Nat) (a : Nat) (r : CalResult) : Via [.free, .regs, .folds] s (calibrateArray s f a r) := by
  unfold calibrateArray
  extract_lets +onlyGivenNames -merge -underBinder y1
  try clear_value y1
  extract_lets +onlyGivenNames -merge -underBinder y2
  try clear_value y2
  extract_lets +onlyGivenNames -merge -underBinder x3
  refine Via.cut (t := x3) (Via.step (referencePlanes_via ..) rfl (Via.refl _ _)) fun h4 => ?_
  clear_value x3
  exact Via.ite (Via.ite (Via.step (modArr_via ..) rfl h4) (Via.step (applyBoot_via ..) rfl h4)) h4

theorem boundaryBoot_via (s : State) (f : Nat) (a : Nat) : Via [.regs, .folds] s (boundaryBoot s f a) := by
  unfold boundaryBoot
  split
  · exact Via.step (applyBoot_via ..) rfl (Via.refl _ _)
  · exact Via.refl _ _

theorem calibrateFold_via (s : State) (f : Nat) (rs : List CalResult) : Via [.free, .regs, .folds] s (calibrateFold s f rs).2 := by
  unfold calibrateFold
  extract_lets +onlyGivenNames -merge -underBinder y1
  try clear_value y1
  extract_lets +onlyGivenNames -merge -underBinder x2
  refine Via.cut (t := x2) (Via.forEach (fun _ _ => Via.step (calibrateArray_via ..) rfl (Via.refl _ _)) (Via.refl _ _)) fun h3 => ?_
  clear_value x2
  try dsimp -zeta only
  exact Via.step (modFold_via ..) rfl h3

theorem calFailed_via (s : State) (f : Nat) : Via [.regs, .folds, .flocks, .care] s (calFailed s f) := by
  unfold calFailed
  split
  · exact Via.step (takeSpare_via ..) rfl (Via.refl _ _)
  · exact Via.step (quarantine_via ..) rfl (Via.refl _ _)

theorem execBootCalibration_via (fold : Fin 68) (results : List CalResult) (s : State) : Reach [.free, .regs, .folds, .flocks, .care] s (execBootCalibration fold results s) := by
  unfold execBootCalibration
  refine Reach.ite (?_) (Reach.next (Via.refl _ _))
  · split
    · rename_i v1 v2 e3
      refine Reach.cut (Via.pair e3 (Via.step (calibrateFold_via ..) rfl (Via.refl _ _))) fun h4 => ?_
      extract_lets +onlyGivenNames -merge -underBinder y5
      try clear_value y5
      extract_lets +onlyGivenNames -merge -underBinder y6
      try clear_value y6
      extract_lets +onlyGivenNames -merge -underBinder x7
      refine Reach.cut (t := x7) (Via.step (setCare_via ..) rfl h4) fun h8 => ?_
      clear_value x7
      exact Reach.next (Via.ite (Via.step (calFailed_via ..) rfl h8) (Via.ite (Via.step (setRole_via ..) rfl h8) h8))

end Sys2Proof.Machine
end

