-- ==== Sys2Proof/Laws/ViaScrub.lean ====
section
/-! SUPPORT. What each operation of Machine/Scrub.lean can touch: the pieces it names, and the memories keep their canonical form. -/

namespace Sys2Proof.Machine

open Sys2Proof

theorem passDone_via (s : State) (a : Nat) : Via [.regs] s (passDone s a) := by
  unfold passDone
  split
  · exact Via.ite (Via.step (bump_via ..) rfl (Via.refl _ _)) (Via.refl _ _)
  · extract_lets +onlyGivenNames -merge -underBinder y1
    try clear_value y1
    extract_lets +onlyGivenNames -merge -underBinder y2
    try clear_value y2
    exact Via.ite (Via.step (bump_via ..) rfl (Via.refl _ _)) (Via.refl _ _)
  · exact Via.refl _ _

theorem execScrub_via (line : LineErr) (s : State) : Reach [.free, .regs, .views, .log, .mem, .fresh, .folds, .flocks, .tally, .pause, .care, .weights] s (execScrub line s) := by
  unfold execScrub
  exact Reach.next (Via.step (passDone_via ..) rfl (Via.step (lineError_via ..) rfl (Via.refl _ _)))

theorem execHbmRetireStart_via (src : Source) (stack : Fin 8) (s : State) : Reach [.regs, .views, .log] s (execHbmRetireStart src stack s) := by
  unfold execHbmRetireStart
  exact Reach.next (Via.after (onPage_via rfl (fun _ => Via.step (startRetire_via ..) rfl (Via.refl _ _))) (Via.refl _ _))

end Sys2Proof.Machine
end

