-- ==== Sys2Proof/Laws/ViaLaneBlock.lean ====
section
/-! SUPPORT. What each operation of Machine/LaneBlock.lean can touch: the pieces it names, and the memories keep their canonical form. -/

namespace Sys2Proof.Machine

open Sys2Proof

theorem diverge_via (s : State) (k : Nat) (p : Nat) (seq : Nat) (why : Nat) (step : Nat) : Via [.regs, .views, .log, .flocks] s (diverge s k p seq why step) := by
  unfold diverge
  extract_lets +onlyGivenNames -merge -underBinder y1
  try clear_value y1
  extract_lets +onlyGivenNames -merge -underBinder y2
  try clear_value y2
  extract_lets +onlyGivenNames -merge -underBinder x3
  refine Via.cut (t := x3) (Via.step (bump_via ..) rfl (Via.refl _ _)) fun h4 => ?_
  clear_value x3
  extract_lets +onlyGivenNames -merge -underBinder x5
  refine Via.cut (t := x5) (Via.ite (Via.step (logWrite_via ..) rfl (Via.step (errEvent_via ..) rfl (Via.step (wrPair_via ..) rfl h4))) h4) fun h6 => ?_
  clear_value x5
  exact Via.ite (Via.step (modFlock_via ..) rfl (Via.step (wr0_via ..) rfl h6)) h6

theorem journalPlace_via (s : State) (k : Nat) (step : Nat) (p : Placed) : Via [.regs, .views, .log, .mem, .fresh, .care, .links, .msgs, .drover, .out] s (journalPlace s k step p) := by
  unfold journalPlace
  split
  · rename_i v1 v2 e3
    refine Via.cut (Via.pair e3 (Via.step (journal_via ..) rfl (Via.refl _ _))) fun h4 => ?_
    exact Via.ite h4 (Via.step (setDrover_via ..) rfl h4)

theorem placeDecode_via (s : State) (k : Nat) (step : Nat) (r : Request) (l : LaneDef) (ps : List Placed) : Via [.regs, .views, .log, .mem, .fresh, .care, .links, .msgs, .drover, .out] s (placeDecode s k step r l ps).2 := by
  unfold placeDecode
  extract_lets +onlyGivenNames -merge -underBinder y1
  try clear_value y1
  try dsimp -zeta only
  exact Via.step (journalPlace_via ..) rfl (Via.step (putReq_via ..) rfl (Via.refl _ _))

theorem placeChunk_via (s : State) (k : Nat) (step : Nat) (r : Request) (l : LaneDef) (n : Nat) (ps : List Placed) : Via [.regs, .views, .log, .mem, .fresh, .care, .links, .msgs, .drover, .out] s (placeChunk s k step r l n ps).2 := by
  unfold placeChunk
  extract_lets +onlyGivenNames -merge -underBinder y1
  try clear_value y1
  try dsimp -zeta only
  exact Via.step (journalPlace_via ..) rfl (Via.step (putReq_via ..) rfl (Via.refl _ _))

theorem reserveAll_via (s : State) (rs : List Request) : Via [.regs, .views, .log, .mem, .fresh, .care, .drover] s (reserveAll s rs) := by
  induction rs generalizing s with
  | nil => exact Via.refl _ _
  | cons r rs ih =>
    unfold reserveAll
    refine Via.ite (ih _) ?_
    split
    · exact Via.trans (Via.pair ‹_› (Via.step (reserve_via ..) rfl (Via.refl _ _))) (ih _)
    · exact Via.pair ‹_› (Via.step (reserve_via ..) rfl (Via.refl _ _))

theorem fillLanes_via (s : State) (k : Nat) (step : Nat) (d : Drove) : Via [.regs, .views, .log, .mem, .fresh, .care, .links, .msgs, .drover, .out] s (fillLanes s k step d).2 := by
  unfold fillLanes
  extract_lets +onlyGivenNames -merge -underBinder x1
  refine Via.cut (t := x1.2) (Via.fold2 _ _ (?_) _ (Via.refl _ _)) fun h2 => ?_
  · intro b3 s4 a5
    try dsimp -zeta only
    split
    · exact Via.step (placeDecode_via ..) rfl (Via.refl _ _)
    · try dsimp -zeta only
      exact Via.refl _ _
  clear_value x1
  extract_lets +onlyGivenNames -merge -underBinder x6
  refine Via.cut (t := x6.2) (Via.fold2 _ _ (?_) _ h2) fun h7 => ?_
  · intro b8 s9 a10
    try dsimp -zeta only
    refine Via.ite2 (Via.refl _ _) (?_)
    · split
      · exact Via.step (placeChunk_via ..) rfl (Via.refl _ _)
      · try dsimp -zeta only
        exact Via.refl _ _
  clear_value x6
  try dsimp -zeta only
  exact Via.step (reserveAll_via ..) rfl h7

theorem placeEntry_via (k : Nat) (p : Nat) (step : Nat) (d : Drove) (acc : List Placed × State) (e : JEntry) : Via [.regs, .views, .log, .mem, .fresh, .flocks, .care, .links, .msgs, .drover, .out] acc.2 (placeEntry k p step d acc e).2 := by
  unfold placeEntry
  split
  · rename_i v1 v2
    extract_lets +onlyGivenNames -merge -underBinder y3
    try clear_value y3
    extract_lets +onlyGivenNames -merge -underBinder y4
    try clear_value y4
    extract_lets +onlyGivenNames -merge -underBinder y5
    try clear_value y5
    split
    · try dsimp -zeta only
      exact Via.step (diverge_via ..) rfl (Via.refl _ _)
    · split
      · rename_i v6 v7 e8
        refine Via.cut (Via.pair e8 (Via.ite2 (Via.step (reserve_via ..) rfl (Via.refl _ _)) (Via.refl _ _))) fun h9 => ?_
        refine Via.ite2 (Via.step (diverge_via ..) rfl h9) (?_)
        · split
          · exact Via.ite2 (Via.step (diverge_via ..) rfl h9) (Via.ite2 (Via.step (placeDecode_via ..) rfl h9) (Via.ite2 (Via.step (placeChunk_via ..) rfl h9) (Via.step (diverge_via ..) rfl h9)))
          · try dsimp -zeta only
            exact Via.step (diverge_via ..) rfl h9

theorem fillReplay_via (s : State) (k : Nat) (p : Nat) (step : Nat) (d : Drove) : Via [.regs, .views, .log, .mem, .fresh, .flocks, .care, .links, .msgs, .drover, .out] s (fillReplay s k p step d).2 := by
  unfold fillReplay
  refine Via.fold2 _ _ (?_) _ (Via.refl _ _)
  · intro b1 s2 a3
    try dsimp -zeta only
    exact Via.step (placeEntry_via ..) rfl (Via.refl _ _)

theorem keepBefore_via (s : State) (k : Nat) : Via [.drover] s (keepBefore s k) := by
  unfold keepBefore
  exact Via.forEach (fun _ _ => Via.step (putReq_via ..) rfl (Via.refl _ _)) (Via.refl _ _)

theorem discardBlock_via (s : State) (k : Nat) : Via [.regs, .views, .log, .mem, .fresh, .care, .links, .msgs, .drover, .out] s (discardBlock s k) := by
  unfold discardBlock
  extract_lets +onlyGivenNames -merge -underBinder y1
  try clear_value y1
  refine Via.ite (Via.refl _ _) (?_)
  · extract_lets +onlyGivenNames -merge -underBinder x2
    refine Via.cut (t := x2) (Via.step (settlePlaces_via ..) rfl (Via.refl _ _)) fun h3 => ?_
    clear_value x2
    extract_lets +onlyGivenNames -merge -underBinder x4
    refine Via.cut (t := x4) (Via.step (putServing_via ..) rfl h3) fun h5 => ?_
    clear_value x4
    exact Via.forEach (fun _ _ => Via.ite (Via.step (unreserve_via ..) rfl (Via.refl _ _)) (Via.ite (Via.refl _ _) (Via.step (putReq_via ..) rfl (Via.refl _ _)))) h5

theorem showLive_via (s : State) : Via [.regs] s (showLive s) := by
  unfold showLive
  exact Via.step (wr0_via ..) rfl (Via.refl _ _)

theorem takeBlock_via (s : State) (k : Nat) : Via [.regs, .drover] s (takeBlock s k) := by
  unfold takeBlock
  extract_lets +onlyGivenNames -merge -underBinder y1
  try clear_value y1
  exact Via.ite (Via.step (showLive_via ..) rfl (Via.step (putServing_via ..) rfl (Via.refl _ _))) (Via.refl _ _)

theorem buildBlock_via (s : State) (k : Nat) (step : Nat) (d : Drove) : Via [.free, .regs, .views, .log, .mem, .fresh, .flocks, .care, .links, .msgs, .drover, .out] s (buildBlock s k step d) := by
  unfold buildBlock
  extract_lets +onlyGivenNames -merge -underBinder x1
  refine Via.cut (t := x1) (Via.step (keepBefore_via ..) rfl (Via.refl _ _)) fun h2 => ?_
  clear_value x1
  split
  · rename_i v3 v4 e5
    refine Via.cut (Via.pair e5 (?_)) fun h6 => ?_
    · split
      · exact Via.step (fillReplay_via ..) rfl h2
      · exact Via.step (fillLanes_via ..) rfl h2
    extract_lets +onlyGivenNames -merge -underBinder y7
    try clear_value y7
    extract_lets +onlyGivenNames -merge -underBinder y8
    try clear_value y8
    extract_lets +onlyGivenNames -merge -underBinder x9
    refine Via.cut (t := x9) (Via.step (setFree_via ..) rfl h6) fun h10 => ?_
    clear_value x9
    extract_lets +onlyGivenNames -merge -underBinder y11
    try clear_value y11
    extract_lets +onlyGivenNames -merge -underBinder x12
    refine Via.cut (t := x12) (Via.step (putServing_via ..) rfl h10) fun h13 => ?_
    clear_value x12
    extract_lets +onlyGivenNames -merge -underBinder x14
    refine Via.cut (t := x14) (Via.forEach (fun _ _ => Via.step (sendMessage_via ..) rfl (Via.refl _ _)) h13) fun h15 => ?_
    clear_value x14
    exact Via.step (showLive_via ..) rfl h15

theorem execLaneBlockBuild_via (flock : Fin 16) (s : State) : Reach [.free, .regs, .views, .log, .mem, .fresh, .flocks, .care, .links, .msgs, .drover, .out] s (execLaneBlockBuild flock s) := by
  unfold execLaneBlockBuild
  extract_lets +onlyGivenNames -merge -underBinder y1
  try clear_value y1
  split
  · exact Reach.ite (Reach.next (Via.step (buildBlock_via ..) rfl (Via.refl _ _))) (Reach.next (Via.refl _ _))
  · exact Reach.next (Via.refl _ _)

theorem storeBlock_via (s : State) (data : List Byte) : Via [.drover] s (storeBlock s data) := by
  unfold storeBlock
  extract_lets +onlyGivenNames -merge -underBinder y1
  try clear_value y1
  extract_lets +onlyGivenNames -merge -underBinder y2
  try clear_value y2
  exact Via.step (putServing_via ..) rfl (Via.refl _ _)

theorem landBlock_via (s : State) (f : Nat) (v : Serving) : Via [.mem, .fresh, .folds] s (landBlock s f v) := by
  unfold landBlock
  extract_lets +onlyGivenNames -merge -underBinder y1
  try clear_value y1
  extract_lets +onlyGivenNames -merge -underBinder y2
  try clear_value y2
  extract_lets +onlyGivenNames -merge -underBinder x3
  refine Via.cut (t := x3) (Via.step (iodBytes_via ..) rfl (Via.refl _ _)) fun h4 => ?_
  clear_value x3
  exact Via.step (modFold_via ..) rfl h4

theorem execLaneBlockLand_via (fold : Fin 68) (s : State) : Reach [.mem, .fresh, .folds] s (execLaneBlockLand fold s) := by
  unfold execLaneBlockLand
  split
  · extract_lets +onlyGivenNames -merge -underBinder y1
    try clear_value y1
    exact Reach.ite (Reach.next (Via.step (landBlock_via ..) rfl (Via.refl _ _))) (Reach.next (Via.refl _ _))
  · exact Reach.next (Via.refl _ _)

end Sys2Proof.Machine
end

