-- ==== Sys2Proof/Laws/ViaSettle.lean ====
section
/-! SUPPORT. What each operation of Machine/Settle.lean can touch: the pieces it names, and the memories keep their canonical form. -/

namespace Sys2Proof.Machine

open Sys2Proof

theorem draftCounts_via (s : State) (r : Request) (d : Nat) (a : Nat) : Via [.regs] s (draftCounts s r d a).2 := by
  unfold draftCounts
  exact Via.ite2 (Via.refl _ _) (Via.ite2 (Via.refl _ _) (Via.ite2 (Via.refl _ _) (Via.ite2 (Via.step (bump_via ..) rfl (Via.refl _ _)) (Via.refl _ _))))

theorem mirrorPieces_via (s : State) (p : Nat) (t : LaneTable) (b : Nat) : Via [.regs, .links, .msgs, .out] s (mirrorPieces s p t b) := by
  unfold mirrorPieces
  refine Via.forEach (?_) (Via.refl _ _)
  · intro s1 a2
    extract_lets +onlyGivenNames -merge -underBinder y3
    try clear_value y3
    exact Via.step (sendMirror_via ..) rfl (Via.refl _ _)

theorem mirrorKv_via (s : State) (r : Request) (t : LaneTable) (done : Nat) : Via [.regs, .links, .msgs, .out] s (mirrorKv s r t done) := by
  unfold mirrorKv
  refine Via.ite (Via.refl _ _) (?_)
  · extract_lets +onlyGivenNames -merge -underBinder y1
    try clear_value y1
    refine Via.forEach (?_) (Via.refl _ _)
    · intro s2 a3
      extract_lets +onlyGivenNames -merge -underBinder y4
      try clear_value y4
      extract_lets +onlyGivenNames -merge -underBinder x5
      refine Via.cut (t := x5) (Via.step (mirrorPieces_via ..) rfl (Via.refl _ _)) fun h6 => ?_
      clear_value x5
      extract_lets +onlyGivenNames -merge -underBinder y7
      try clear_value y7
      exact Via.step (sendMirror_via ..) rfl h6

theorem mirrorLane_via (p : Nat) (t : LaneTable) (f : Nat) (s : State) (n : Nat) : Via [.free, .regs, .links, .msgs, .out] s (mirrorLane p t f s n) := by
  unfold mirrorLane
  extract_lets +onlyGivenNames -merge -underBinder y1
  try clear_value y1
  extract_lets +onlyGivenNames -merge -underBinder y2
  try clear_value y2
  split
  · rename_i v3 v4 e5
    refine Via.cut (Via.pair e5 (Via.step (drawNat_via ..) rfl (Via.refl _ _))) fun h6 => ?_
    split
    · rename_i v7 v8 e9
      refine Via.cut (Via.pair e9 (Via.step (drawNat_via ..) rfl h6)) fun h10 => ?_
      extract_lets +onlyGivenNames -merge -underBinder y11
      try clear_value y11
      extract_lets +onlyGivenNames -merge -underBinder y12
      try clear_value y12
      refine Via.forEach (?_) h10
      · intro s13 a14
        split
        · exact Via.step (mirrorPieces_via ..) rfl (Via.refl _ _)
        · exact Via.refl _ _

theorem mirrorStep_via (s : State) (k : Nat) : Via [.free, .regs, .links, .msgs, .out] s (mirrorStep s k) := by
  unfold mirrorStep
  split
  · exact Via.ite (Via.forEach (fun _ _ => Via.step (mirrorLane_via ..) rfl (Via.refl _ _)) (Via.refl _ _)) (Via.refl _ _)
  · exact Via.refl _ _

theorem commitLane_via (t : LaneTable) (acc : List Release × State) (x : Placed) : Via [.regs, .views, .log, .mem, .fresh, .care, .links, .msgs, .drover, .out] acc.2 (commitLane t acc x).2 := by
  unfold commitLane
  split
  · rename_i v1 v2
    split
    · extract_lets +onlyGivenNames -merge -underBinder x3
      refine Via.cut (t := x3) (Via.ite (Via.refl _ _) (Via.step (bump_via ..) rfl (Via.step (bump_via ..) rfl (Via.refl _ _)))) fun h4 => ?_
      clear_value x3
      split
      · try dsimp -zeta only
        exact h4
      · refine Via.ite2 h4 (?_)
        · extract_lets +onlyGivenNames -merge -underBinder y5
          try clear_value y5
          split
          · rename_i v6 v7 e8
            refine Via.cut (Via.pair e8 (Via.ite2 (?_) (Via.step (draftCounts_via ..) rfl h4))) fun h9 => ?_
            · split
              · rename_i v10 v11 e12
                refine Via.cut (Via.pair e12 (Via.step (insertBlocks_via ..) rfl h4)) fun h13 => ?_
                try dsimp -zeta only
                exact h13
            split
            · extract_lets +onlyGivenNames -merge -underBinder y14
              try clear_value y14
              extract_lets +onlyGivenNames -merge -underBinder x15
              refine Via.cut (t := x15) (Via.step (mirrorKv_via ..) rfl (Via.step (putReq_via ..) rfl h9)) fun h16 => ?_
              clear_value x15
              exact Via.ite2 h16 h16

theorem deliverRelease_via (s : State) (x : Release) : Via [.regs, .views, .log, .mem, .fresh, .care, .drover, .net, .out] s (deliverRelease s x) := by
  unfold deliverRelease
  split
  · exact Via.refl _ _
  · extract_lets +onlyGivenNames -merge -underBinder x1
    refine Via.cut (t := x1) (Via.ite (Via.refl _ _) (Via.step (sendRecords_via ..) rfl (Via.refl _ _))) fun h2 => ?_
    clear_value x1
    split
    · exact Via.step (endReq_via ..) rfl h2
    · exact h2

theorem settleDeadlines_via (s : State) (k : Nat) : Via [.regs, .views, .log, .mem, .fresh, .care, .links, .msgs, .drover, .net, .out] s (settleDeadlines s k) := by
  unfold settleDeadlines
  refine Via.ite (Via.refl _ _) (?_)
  · extract_lets +onlyGivenNames -merge -underBinder y1
    try clear_value y1
    exact Via.forEach (fun _ _ => Via.step (endReq_via ..) rfl (Via.step (journalEnd_via ..) rfl (Via.step (bump_via ..) rfl (Via.refl _ _)))) (Via.refl _ _)

theorem keepCancel_via (s : State) (k : Nat) (ps : List Placed) : Via [.folds] s (keepCancel s k ps) := by
  unfold keepCancel
  extract_lets +onlyGivenNames -merge -underBinder y1
  try clear_value y1
  exact Via.forEach (fun _ _ => Via.step (modFold_via ..) rfl (Via.refl _ _)) (Via.refl _ _)

theorem settleResults_via (s : State) (k : Nat) (n : Nat) : Via [.regs, .views, .log, .mem, .fresh, .folds, .care, .links, .msgs, .drover, .net, .out] s (settleResults s k n) := by
  unfold settleResults
  extract_lets +onlyGivenNames -merge -underBinder y1
  try clear_value y1
  extract_lets +onlyGivenNames -merge -underBinder y2
  try clear_value y2
  extract_lets +onlyGivenNames -merge -underBinder x3
  refine Via.cut (t := x3) (Via.step (settlePlaces_via ..) rfl (Via.refl _ _)) fun h4 => ?_
  clear_value x3
  extract_lets +onlyGivenNames -merge -underBinder x5
  refine Via.cut (t := x5) (Via.forEach (fun _ _ => Via.ite (Via.step (putReq_via ..) rfl (Via.refl _ _)) (Via.refl _ _)) h4) fun h6 => ?_
  clear_value x5
  split
  · rename_i v7 v8 e9
    refine Via.cut (Via.pair e9 (Via.fold2 _ _ (?_) _ h6)) fun h10 => ?_
    · intro b11 s12 a13
      try dsimp -zeta only
      exact Via.step (commitLane_via ..) rfl (Via.refl _ _)
    extract_lets +onlyGivenNames -merge -underBinder y14
    try clear_value y14
    extract_lets +onlyGivenNames -merge -underBinder y15
    try clear_value y15
    extract_lets +onlyGivenNames -merge -underBinder y16
    try clear_value y16
    extract_lets +onlyGivenNames -merge -underBinder x17
    refine Via.cut (t := x17) (?_) fun h18 => ?_
    · subst x17
      split
      · exact Via.step (journalHere_via ..) rfl h10
      · exact h10
    clear_value x17
    extract_lets +onlyGivenNames -merge -underBinder x19
    refine Via.cut (t := x19) (Via.forEach (fun _ _ => Via.step (deliverRelease_via ..) rfl (Via.refl _ _)) h18) fun h20 => ?_
    clear_value x19
    extract_lets +onlyGivenNames -merge -underBinder y21
    try clear_value y21
    exact Via.step (keepCancel_via ..) rfl (Via.step (putServing_via ..) rfl h20)

theorem pickIndex_via (s : State) : Via [.free] s (pickIndex s).2 := by
  unfold pickIndex
  extract_lets +onlyGivenNames -merge -underBinder y1
  try clear_value y1
  split
  · rename_i v2 v3 e4
    refine Via.cut (Via.pair e4 (Via.step (drawNat_via ..) rfl (Via.refl _ _))) fun h5 => ?_
    try dsimp -zeta only
    exact h5

theorem journalAdmit_via (s : State) (r : Request) (body : List Byte) : Via [.regs, .views, .log, .mem, .fresh, .care, .links, .msgs, .out] s (journalAdmit s r body) := by
  unfold journalAdmit
  extract_lets +onlyGivenNames -merge -underBinder y1
  try clear_value y1
  exact Via.step (journalHere_via ..) rfl (Via.refl _ _)

theorem takeRequest_via (s : State) (r : Request) (body : List Byte) : Via [.regs, .views, .log, .mem, .fresh, .care, .links, .msgs, .drover, .out] s (takeRequest s r body) := by
  unfold takeRequest
  exact Via.step (journalAdmit_via ..) rfl (Via.step (pinEpoch_via ..) rfl (Via.step (bump_via ..) rfl (Via.step (putReq_via ..) rfl (Via.refl _ _))))

theorem latchAdmit_via (s : State) (h : MsgHead) (body : List Byte) : Via [.free, .regs, .views, .log, .mem, .fresh, .care, .links, .msgs, .drover, .net, .out] s (latchAdmit s h body) := by
  unfold latchAdmit
  refine Via.ite (Via.refl _ _) (?_)
  · split
    · exact Via.step (respond_via ..) rfl (Via.step (bump_via ..) rfl (Via.refl _ _))
    · extract_lets +onlyGivenNames -merge -underBinder y1
      try clear_value y1
      extract_lets +onlyGivenNames -merge -underBinder y2
      try clear_value y2
      extract_lets +onlyGivenNames -merge -underBinder y3
      try clear_value y3
      split
      · rename_i v4 v5 e6
        refine Via.cut (Via.pair e6 (Via.step (pickIndex_via ..) rfl (Via.refl _ _))) fun h7 => ?_
        extract_lets +onlyGivenNames -merge -underBinder y8
        try clear_value y8
        extract_lets +onlyGivenNames -merge -underBinder y9
        try clear_value y9
        extract_lets +onlyGivenNames -merge -underBinder x10
        refine Via.cut (t := x10) (Via.step (setDrover_via ..) rfl h7) fun h11 => ?_
        clear_value x10
        extract_lets +onlyGivenNames -merge -underBinder y12
        try clear_value y12
        exact Via.step (respond_via ..) rfl (Via.step (takeRequest_via ..) rfl h11)

theorem latchAbort_via (s : State) (h : MsgHead) (body : List Byte) : Via [.regs, .views, .log, .mem, .fresh, .folds, .care, .links, .msgs, .drover, .net, .out] s (latchAbort s h body) := by
  unfold latchAbort
  extract_lets +onlyGivenNames -merge -underBinder y1
  try clear_value y1
  refine Via.ite (Via.step (respond_via ..) rfl (Via.refl _ _)) (?_)
  · split
    · rename_i v2 v3 v4 e5
      refine Via.cut (Via.trip e5 (Via.step (abortHandle_via ..) rfl (Via.refl _ _))) fun h6 => ?_
      exact Via.step (respond_via ..) rfl h6

theorem latchClose_via (s : State) (p : Nat) (ch : Nat) (h : Option MsgHead) : Via [.regs, .views, .log, .mem, .fresh, .folds, .care, .links, .msgs, .drover, .net, .out] s (latchClose s p ch h) := by
  unfold latchClose
  extract_lets +onlyGivenNames -merge -underBinder y1
  try clear_value y1
  extract_lets +onlyGivenNames -merge -underBinder x2
  refine Via.cut (t := x2) (Via.forEach (fun _ _ => Via.step (abortHandle_via ..) rfl (Via.refl _ _)) (Via.refl _ _)) fun h3 => ?_
  clear_value x2
  refine Via.ite (Via.step (setDrover_via ..) rfl h3) (?_)
  · extract_lets +onlyGivenNames -merge -underBinder x4
    refine Via.cut (t := x4) (?_) fun h5 => ?_
    · subst x4
      split
      · exact Via.step (respond_via ..) rfl h3
      · exact h3
    clear_value x4
    extract_lets +onlyGivenNames -merge -underBinder x6
    refine Via.cut (t := x6) (Via.step (clearChan_via ..) rfl (Via.step (releaseQps_via ..) rfl h5)) fun h7 => ?_
    clear_value x6
    exact Via.step (wr_via ..) rfl (Via.step (wr_via ..) rfl h7)

theorem latchOne_via (s : State) (x : Latch) : Via [.free, .regs, .views, .log, .mem, .fresh, .folds, .care, .links, .msgs, .drover, .net, .out] s (latchOne s x) := by
  unfold latchOne
  split
  · exact Via.step (latchAdmit_via ..) rfl (Via.refl _ _)
  · exact Via.step (latchAbort_via ..) rfl (Via.refl _ _)
  · exact Via.step (latchClose_via ..) rfl (Via.refl _ _)
  · exact Via.step (journalConfig_via ..) rfl (Via.refl _ _)

theorem latchAll_via (s : State) : Via [.free, .regs, .views, .log, .mem, .fresh, .folds, .care, .links, .msgs, .drover, .net, .out] s (latchAll s) := by
  unfold latchAll
  exact Via.forEach (fun _ _ => Via.step (latchOne_via ..) rfl (Via.refl _ _)) (Via.step (setDrover_via ..) rfl (Via.refl _ _))

theorem endDraining_via (s : State) (k : Nat) : Via [.regs, .views, .log, .mem, .fresh, .care, .links, .msgs, .drover, .net, .out] s (endDraining s k) := by
  unfold endDraining
  exact Via.forEach (fun _ _ => Via.step (endReq_via ..) rfl (Via.step (journalEnd_via ..) rfl (Via.refl _ _))) (Via.refl _ _)

theorem switchEpoch_via (s : State) (p : Nat) (e : Nat) : Via [.regs, .views, .log] s (switchEpoch s p e) := by
  unfold switchEpoch
  extract_lets +onlyGivenNames -merge -underBinder x1
  refine Via.cut (t := x1) (?_) fun h2 => ?_
  · subst x1
    split
    · exact Via.ite (Via.refl _ _) (Via.step (checkDrained_via ..) rfl (Via.step (wr_via ..) rfl (Via.refl _ _)))
    · exact Via.refl _ _
  clear_value x1
  exact Via.step (wr_via ..) rfl h2

theorem putReplay_via (s : State) (p : Nat) (x : Replay) : Via [.regs, .drover] s (putReplay s p x) := by
  unfold putReplay
  exact Via.step (wr0_via ..) rfl (Via.step (setDrover_via ..) rfl (Via.refl _ _))

theorem endReplay_via (s : State) (k : Nat) : Via [.regs] s (endReplay s k) := by
  unfold endReplay
  split
  · exact Via.ite (Via.step (wr0_via ..) rfl (Via.step (wr0_via ..) rfl (Via.refl _ _))) (Via.refl _ _)
  · exact Via.refl _ _

theorem writeReplay_via (p : Nat) (on : Bool) (s : State) : Via [.regs, .drover] s (writeReplay p on s) := by
  unfold writeReplay
  extract_lets +onlyGivenNames -merge -underBinder x1
  refine Via.cut (t := x1) (Via.step (wr0_via ..) rfl (Via.refl _ _)) fun h2 => ?_
  clear_value x1
  exact Via.ite (Via.step (putReplay_via ..) rfl (Via.step (wr0_via ..) rfl h2)) h2

theorem execReplayEnable_via (src : Source) (pen : Fin 16) (on : Bool) (s : State) : Reach [.regs, .drover] s (execReplayEnable src pen on s) := by
  unfold execReplayEnable
  exact Reach.next (Via.after (onPage_via rfl (fun _ => Via.step (writeReplay_via ..) rfl (Via.refl _ _))) (Via.refl _ _))

theorem waitFire_via (s : State) (x : Latch) : Via [.drover] s (waitFire s x) := by
  unfold waitFire
  exact Via.step (setDrover_via ..) rfl (Via.refl _ _)

theorem msgAdmit_via (s : State) (h : MsgHead) (body : List Byte) : Via [.regs, .drover, .net, .out] s (msgAdmit s h body) := by
  unfold msgAdmit
  exact Via.after (message_via rfl (fun _ _ => Via.step (waitFire_via ..) rfl (Via.refl _ _))) (Via.refl _ _)

theorem execAdmitMsg_via (h : MsgHead) (body : List Byte) (s : State) : Reach [.regs, .drover, .net, .out] s (execAdmitMsg h body s) := by
  unfold execAdmitMsg
  exact Reach.next (Via.after (sendIn_via rfl (fun _ => Via.step (msgAdmit_via ..) rfl (Via.refl _ _))) (Via.refl _ _))

theorem msgAbort_via (s : State) (h : MsgHead) (body : List Byte) : Via [.regs, .drover, .net, .out] s (msgAbort s h body) := by
  unfold msgAbort
  exact Via.after (message_via rfl (fun _ _ => Via.step (waitFire_via ..) rfl (Via.refl _ _))) (Via.refl _ _)

theorem execAbort_via (h : MsgHead) (body : List Byte) (s : State) : Reach [.regs, .drover, .net, .out] s (execAbort h body s) := by
  unfold execAbort
  exact Reach.next (Via.after (sendIn_via rfl (fun _ => Via.step (msgAbort_via ..) rfl (Via.refl _ _))) (Via.refl _ _))

theorem msgClose_via (s : State) (h : MsgHead) (body : List Byte) : Via [.regs, .drover, .net, .out] s (msgClose s h body) := by
  unfold msgClose
  exact Via.after (message_via rfl (fun _ _ => Via.step (waitFire_via ..) rfl (Via.refl _ _))) (Via.refl _ _)

theorem execChannelClose_via (h : MsgHead) (body : List Byte) (s : State) : Reach [.regs, .drover, .net, .out] s (execChannelClose h body s) := by
  unfold execChannelClose
  exact Reach.next (Via.after (sendIn_via rfl (fun _ => Via.step (msgClose_via ..) rfl (Via.refl _ _))) (Via.refl _ _))

theorem writePfxKey_via (p : Nat) (k : Nat) (v : Nat) (s : State) : Via [.regs, .views, .log, .mem, .fresh, .care] s (writePfxKey p k v s) := by
  unfold writePfxKey
  extract_lets +onlyGivenNames -merge -underBinder x1
  refine Via.cut (t := x1) (Via.forEach (fun _ _ => Via.step (putPfx_via ..) rfl (Via.refl _ _)) (Via.refl _ _)) fun h2 => ?_
  clear_value x1
  exact Via.step (wr_via ..) rfl h2

theorem noteConfig_via (s : State) (src : Source) (page : Nat) (off : Nat) (v : Nat) : Via [.drover] s (noteConfig s src page off v) := by
  unfold noteConfig
  exact Via.ite (Via.step (waitFire_via ..) rfl (Via.refl _ _)) (Via.refl _ _)

theorem execPfxKey_via (src : Source) (pen : Fin 16) (k : Fin 4) (v : Word) (s : State) : Reach [.regs, .views, .log, .mem, .fresh, .care, .drover] s (execPfxKey src pen k v s) := by
  unfold execPfxKey
  exact Reach.next (Via.after (onPage_via rfl (fun _ => Via.step (noteConfig_via ..) rfl (Via.step (writePfxKey_via ..) rfl (Via.refl _ _)))) (Via.refl _ _))

end Sys2Proof.Machine
end

