-- ==== Sys2Proof/Laws/ViaSubstitute.lean ====
section
/-! SUPPORT. What each operation of Machine/Substitute.lean can touch: the pieces it names, and the memories keep their canonical form. -/

namespace Sys2Proof.Machine

open Sys2Proof

theorem failFill_via (s : State) (x : Fill) : Via [.regs, .flocks, .care] s (failFill s x) := by
  unfold failFill
  extract_lets +onlyGivenNames -merge -underBinder x1
  refine Via.cut (t := x1) (Via.step (setRole_via ..) rfl (Via.step (failSlot_via ..) rfl (Via.step (dropFill_via ..) rfl (Via.refl _ _)))) fun h2 => ?_
  clear_value x1
  exact Via.ite (Via.step (setRot_via ..) rfl h2) h2

theorem finishFill_via (s : State) (x : Fill) (bad : List LineErr) : Via [.free, .regs, .views, .log, .mem, .fresh, .folds, .flocks, .tally, .pause, .care, .weights] s (finishFill s x bad) := by
  unfold finishFill
  extract_lets +onlyGivenNames -merge -underBinder x1
  refine Via.cut (t := x1) (Via.step (restoreLines_via ..) rfl (Via.forEach (fun _ _ => Via.step (lineError_via ..) rfl (Via.refl _ _)) (Via.refl _ _))) fun h2 => ?_
  clear_value x1
  exact Via.ite (Via.step (failFill_via ..) rfl h2) (Via.step (setCare_via ..) rfl h2)

theorem moveMem_via (s : State) (src dst n : Nat) : Via [.mem, .fresh] s (moveMem s src dst n) := by
  unfold moveMem
  exact Via.step (setFresh_via ..) rfl (Via.step (setMem_via _ _ fun h => canonical_moveRange _ _ _ _ _ h) rfl (Via.refl _ _))

theorem releaseRole_via (s : State) (x : Fill) : Via [.regs, .folds, .care] s (releaseRole s x) := by
  unfold releaseRole
  extract_lets +onlyGivenNames -merge -underBinder y1
  try clear_value y1
  extract_lets +onlyGivenNames -merge -underBinder y2
  try clear_value y2
  extract_lets +onlyGivenNames -merge -underBinder x3
  refine Via.cut (t := x3) (Via.step (modFold_via ..) rfl (Via.refl _ _)) fun h4 => ?_
  clear_value x3
  exact Via.ite (Via.ite (Via.step (setRot_via ..) rfl (Via.step (setRole_via ..) rfl h4)) (Via.step (setRot_via ..) rfl (Via.step (setRole_via ..) rfl (Via.step (wr0_via ..) rfl h4)))) (Via.ite (Via.step (setRole_via ..) rfl (Via.step (setCare_via ..) rfl h4)) (Via.ite (Via.step (setRole_via ..) rfl h4) (Via.step (quarantine_via ..) rfl h4)))

theorem moveSlot_via (s : State) (f : Nat) (g : Nat) (k : Nat) : Via [.regs] s (moveSlot s f g k) := by
  unfold moveSlot
  extract_lets +onlyGivenNames -merge -underBinder x1
  refine Via.cut (t := x1) (Via.step (wr_via ..) rfl (Via.refl _ _)) fun h2 => ?_
  clear_value x1
  extract_lets +onlyGivenNames -merge -underBinder y3
  try clear_value y3
  extract_lets +onlyGivenNames -merge -underBinder x4
  refine Via.cut (t := x4) (Via.step (wr0_via ..) rfl h2) fun h5 => ?_
  clear_value x4
  extract_lets +onlyGivenNames -merge -underBinder x6
  refine Via.cut (t := x6) (Via.step (wrPair_via ..) rfl h5) fun h7 => ?_
  clear_value x6
  extract_lets +onlyGivenNames -merge -underBinder x8
  refine Via.cut (t := x8) (Via.step (wr0_via ..) rfl h7) fun h9 => ?_
  clear_value x8
  exact Via.step (wr0_via ..) rfl h9

theorem carryRound_via (s : State) (k : Nat) (before : Nat) (after : Nat) : Via [.drover] s (carryRound s k before after) := by
  unfold carryRound
  exact Via.step (setDrover_via ..) rfl (Via.refl _ _)

theorem switchNow_via (s : State) (x : Fill) : Via [.regs, .views, .log, .mem, .fresh, .seg, .folds, .care, .drover] s (switchNow s x) := by
  unfold switchNow
  refine Via.ite (?_) (Via.step (accessError_via ..) rfl (Via.step (dropFill_via ..) rfl (Via.refl _ _)))
  · extract_lets +onlyGivenNames -merge -underBinder y1
    try clear_value y1
    extract_lets +onlyGivenNames -merge -underBinder y2
    try clear_value y2
    extract_lets +onlyGivenNames -merge -underBinder y3
    try clear_value y3
    extract_lets +onlyGivenNames -merge -underBinder x4
    refine Via.cut (t := x4) (Via.step (moveMem_via ..) rfl (Via.refl _ _)) fun h5 => ?_
    clear_value x4
    extract_lets +onlyGivenNames -merge -underBinder x6
    refine Via.cut (t := x6) (Via.step (cureLines_via ..) rfl h5) fun h7 => ?_
    clear_value x6
    extract_lets +onlyGivenNames -merge -underBinder x8
    refine Via.cut (t := x8) (Via.forEach (?_) h7) fun h9 => ?_
    · intro s10 a11
      extract_lets +onlyGivenNames -merge -underBinder y12
      try clear_value y12
      exact Via.step (moveMem_via ..) rfl (Via.refl _ _)
    clear_value x8
    extract_lets +onlyGivenNames -merge -underBinder x13
    refine Via.cut (t := x13) (Via.step (discardWindows_via ..) rfl h9) fun h14 => ?_
    clear_value x13
    extract_lets +onlyGivenNames -merge -underBinder x15
    refine Via.cut (t := x15) (Via.step (putFold_via ..) rfl h14) fun h16 => ?_
    clear_value x15
    extract_lets +onlyGivenNames -merge -underBinder x17
    refine Via.cut (t := x17) (Via.step (wr0_via ..) rfl h16) fun h18 => ?_
    clear_value x17
    extract_lets +onlyGivenNames -merge -underBinder x19
    refine Via.cut (t := x19) (Via.step (wr0_via ..) rfl h18) fun h20 => ?_
    clear_value x19
    extract_lets +onlyGivenNames -merge -underBinder x21
    refine Via.cut (t := x21) (Via.step (setRole_via ..) rfl (Via.step (carryRound_via ..) rfl (Via.step (moveSlot_via ..) rfl h20))) fun h22 => ?_
    clear_value x21
    extract_lets +onlyGivenNames -merge -underBinder x23
    refine Via.cut (t := x23) (Via.step (pageFold_via ..) rfl h22) fun h24 => ?_
    clear_value x23
    extract_lets +onlyGivenNames -merge -underBinder x25
    refine Via.cut (t := x25) (Via.step (releaseRole_via ..) rfl h24) fun h26 => ?_
    clear_value x25
    extract_lets +onlyGivenNames -merge -underBinder x27
    refine Via.cut (t := x27) (Via.step (dropFill_via ..) rfl h26) fun h28 => ?_
    clear_value x27
    exact Via.step (setCare_via ..) rfl h28

theorem pauseSwitch_via (s : State) (g : Nat) (n : Nat) : Via [.regs, .pause] s (pauseSwitch s g n) := by
  unfold pauseSwitch
  exact Via.step (askPause_via ..) rfl (Via.step (bump_via ..) rfl (Via.refl _ _))

theorem switchFold_via (s : State) (x : Fill) : Via [.regs, .views, .log, .mem, .fresh, .seg, .folds, .pause, .care, .drover] s (switchFold s x) := by
  unfold switchFold
  exact Via.step (pauseSwitch_via ..) rfl (Via.step (switchNow_via ..) rfl (Via.refl _ _))

theorem execSpareSwitchEnd_via (spare : Fin 68) (s : State) : Reach [.regs, .pause] s (execSpareSwitchEnd spare s) := by
  unfold execSpareSwitchEnd
  extract_lets +onlyGivenNames -merge -underBinder y1
  try clear_value y1
  extract_lets +onlyGivenNames -merge -underBinder y2
  try clear_value y2
  refine Reach.ite (Reach.next (Via.refl _ _)) (?_)
  · extract_lets +onlyGivenNames -merge -underBinder y3
    try clear_value y3
    refine Reach.ite (?_) (Reach.next (Via.step (setPause_via ..) rfl (Via.refl _ _)))
    · extract_lets +onlyGivenNames -merge -underBinder y4
      try clear_value y4
      extract_lets +onlyGivenNames -merge -underBinder x5
      refine Reach.cut (t := x5) (Via.step (setPause_via ..) rfl (Via.refl _ _)) fun h6 => ?_
      clear_value x5
      exact Reach.next (Via.forEach (fun _ _ => Via.step (bump_via ..) rfl (Via.refl _ _)) h6)

theorem startTest_via (s : State) (f : Nat) : Via [.regs] s (startTest s f) := by
  unfold startTest
  exact Via.step (setRot_via ..) rfl (Via.step (setRole_via ..) rfl (Via.step (wr0_via ..) rfl (Via.refl _ _)))

theorem rotate_via (s : State) (die : Nat) (f : Nat) : Via [.regs, .care] s (rotate s die f) := by
  unfold rotate
  refine Via.ite (Via.step (startTest_via ..) rfl (Via.refl _ _)) (Via.ite (?_) (Via.refl _ _))
  · split
    · exact Via.refl _ _
    · refine Via.ite (?_) (Via.step (startTest_via ..) rfl (Via.refl _ _))
      · split
        · exact Via.step (setRot_via ..) rfl (Via.step (startFill_via ..) rfl (Via.refl _ _))
        · exact Via.refl _ _

theorem execRotation_via (die : Fin 2) (s : State) : Reach [.regs, .care] s (execRotation die s) := by
  unfold execRotation
  extract_lets +onlyGivenNames -merge -underBinder y1
  try clear_value y1
  refine Reach.ite (?_) (Reach.next (Via.refl _ _))
  · split
    · exact Reach.next (Via.step (rotate_via ..) rfl (Via.refl _ _))
    · exact Reach.next (Via.refl _ _)

theorem execQuarantineTestStart_via (fold : Fin 68) (s : State) : Reach [.regs] s (execQuarantineTestStart fold s) := by
  unfold execQuarantineTestStart
  exact Reach.ite (Reach.next (Via.step (startTest_via ..) rfl (Via.refl _ _))) (Reach.next (Via.refl _ _))

theorem testFailed_via (s : State) (f : Nat) : Via [.regs, .flocks, .care] s (testFailed s f) := by
  unfold testFailed
  extract_lets +onlyGivenNames -merge -underBinder x1
  refine Via.cut (t := x1) (Via.step (errEvent_via ..) rfl (Via.step (bump_via ..) rfl (Via.refl _ _))) fun h2 => ?_
  clear_value x1
  extract_lets +onlyGivenNames -merge -underBinder y3
  try clear_value y3
  extract_lets +onlyGivenNames -merge -underBinder x4
  refine Via.cut (t := x4) (Via.step (setRole_via ..) rfl h2) fun h5 => ?_
  clear_value x4
  split
  · exact h5
  · split
    · rename_i v6 v7 e8
      refine Via.cut (Via.pair e8 (Via.step (nextSpare_via ..) rfl h5)) fun h9 => ?_
      exact Via.step (startFill_via ..) rfl h9
    · rename_i v10 e11
      refine Via.cut (Via.pair e11 (Via.step (nextSpare_via ..) rfl h5)) fun h12 => ?_
      exact Via.step (failSlot_via ..) rfl h12

theorem testPassed_via (s : State) (f : Nat) : Via [.regs, .care] s (testPassed s f) := by
  unfold testPassed
  extract_lets +onlyGivenNames -merge -underBinder x1
  refine Via.cut (t := x1) (Via.step (wrPair_via ..) rfl (Via.step (bump_via ..) rfl (Via.refl _ _))) fun h2 => ?_
  clear_value x1
  extract_lets +onlyGivenNames -merge -underBinder x3
  refine Via.cut (t := x3) (Via.step (wrBit_via ..) rfl h2) fun h4 => ?_
  clear_value x3
  extract_lets +onlyGivenNames -merge -underBinder y5
  try clear_value y5
  extract_lets +onlyGivenNames -merge -underBinder x6
  refine Via.cut (t := x6) (Via.step (setCare_via ..) rfl h4) fun h7 => ?_
  clear_value x6
  split
  · exact Via.step (setRole_via ..) rfl h7
  · exact Via.step (setRole_via ..) rfl h7

theorem startForced_via (s : State) : Via [.regs, .care] s (startForced s) := by
  unfold startForced
  exact Via.forEach (fun _ _ => Via.ite (Via.step (setCare_via ..) rfl (Via.refl _ _)) (Via.ite (Via.refl _ _) (Via.step (startTest_via ..) rfl (Via.step (setCare_via ..) rfl (Via.refl _ _))))) (Via.refl _ _)

theorem execScanTestDone_via (fold : Fin 68) (pass : Bool) (results : List CalResult) (s : State) : Reach [.free, .regs, .folds, .flocks, .care] s (execScanTestDone fold pass results s) := by
  unfold execScanTestDone
  refine Reach.ite (?_) (Reach.next (Via.refl _ _))
  · split
    · rename_i v1 v2 e3
      refine Reach.cut (Via.pair e3 (Via.step (calibrateFold_via ..) rfl (Via.refl _ _))) fun h4 => ?_
      extract_lets +onlyGivenNames -merge -underBinder x5
      refine Reach.cut (t := x5) (Via.step (setRot_via ..) rfl (Via.step (wr0_via ..) rfl h4)) fun h6 => ?_
      clear_value x5
      exact Reach.next (Via.step (startForced_via ..) rfl (Via.ite (Via.step (testPassed_via ..) rfl h6) (Via.step (testFailed_via ..) rfl h6)))

theorem execTestOverdue_via (fold : Fin 68) (s : State) : Reach [.regs, .views, .log] s (execTestOverdue fold s) := by
  unfold execTestOverdue
  split
  · exact Reach.next (Via.refl _ _)
  · refine Reach.ite (?_) (Reach.next (Via.refl _ _))
    · extract_lets +onlyGivenNames -merge -underBinder x1
      refine Reach.cut (t := x1) (Via.step (wrBit_via ..) rfl (Via.step (errEvent_via ..) rfl (Via.refl _ _))) fun h2 => ?_
      clear_value x1
      exact Reach.next (Via.step (logWrite_via ..) rfl h2)

theorem retireFold_via (s : State) (src : Source) : Via [.regs, .views, .log] s (retireFold s src) := by
  unfold retireFold
  extract_lets +onlyGivenNames -merge -underBinder y1
  try clear_value y1
  exact Via.ite (Via.step (accessError_via ..) rfl (Via.refl _ _)) (Via.step (setRole_via ..) rfl (Via.refl _ _))

theorem execRetire_via (src : Source) (s : State) : Reach [.regs, .views, .log] s (execRetire src s) := by
  unfold execRetire
  exact Reach.next (Via.after (onPage_via rfl (fun _ => Via.step (retireFold_via ..) rfl (Via.refl _ _))) (Via.refl _ _))

theorem writeFoldState_via (s : State) (src : Source) (f : Nat) (v : Nat) : Via [.regs, .views, .log] s (writeFoldState s src f v) := by
  unfold writeFoldState
  exact Via.ite (Via.step (wr0_via ..) rfl (Via.refl _ _)) (Via.step (accessError_via ..) rfl (Via.refl _ _))

theorem execFoldState_via (src : Source) (fold : Fin 68) (v : BitVec 2) (s : State) : Reach [.regs, .views, .log] s (execFoldState src fold v s) := by
  unfold execFoldState
  exact Reach.next (Via.after (onPage_via rfl (fun _ => Via.step (writeFoldState_via ..) rfl (Via.refl _ _))) (Via.refl _ _))

theorem tileWrite_via (s : State) (src : Source) (f : Nat) (o : Nat) (v : Nat) : Via [.regs, .views, .log, .folds] s (tileWrite s src f o v) := by
  unfold tileWrite
  refine Via.ite (?_) (Via.ite (?_) (Via.ite (Via.step (modTile_via ..) rfl (Via.refl _ _)) (Via.step (accessError_via ..) rfl (Via.refl _ _))))
  · extract_lets +onlyGivenNames -merge -underBinder y1
    try clear_value y1
    exact Via.ite (Via.step (modTile_via ..) rfl (Via.refl _ _)) (Via.step (accessError_via ..) rfl (Via.refl _ _))
  · extract_lets +onlyGivenNames -merge -underBinder y2
    try clear_value y2
    exact Via.step (modTile_via ..) rfl (Via.refl _ _)

theorem execTileWindowWrite_via (src : Source) (fold : Fin 68) (offset : BitVec 24) (v : BitVec 64) (s : State) : Reach [.regs, .views, .log, .folds] s (execTileWindowWrite src fold offset v s) := by
  unfold execTileWindowWrite
  exact Reach.next (Via.ite (Via.step (tileWrite_via ..) rfl (Via.refl _ _)) (Via.refl _ _))

end Sys2Proof.Machine
end

