-- ==== Sys2Proof/Laws/ViaRegisters.lean ====
section
/-! SUPPORT. What each operation of Machine/Registers.lean can touch: the pieces it names, and the memories keep their canonical form. -/

namespace Sys2Proof.Machine

open Sys2Proof

theorem latchHigh_via (s : State) (src : Source) (pg : Nat) (o : Nat) : Via [.views] s (latchHigh s src pg o) := by
  unfold latchHigh
  exact Via.ite (Via.step (setViews_via ..) rfl (Via.refl _ _)) (Via.refl _ _)

theorem latchEntry_via (s : State) : Via [.regs, .views] s (latchEntry s) := by
  unfold latchEntry
  extract_lets +onlyGivenNames -merge -underBinder y1
  try clear_value y1
  extract_lets +onlyGivenNames -merge -underBinder y2
  try clear_value y2
  extract_lets +onlyGivenNames -merge -underBinder y3
  try clear_value y3
  exact Via.step (setViews_via ..) rfl (Via.step (wr0_via ..) rfl (Via.refl _ _))

theorem autoAdvance_via (s : State) : Via [.regs] s (autoAdvance s) := by
  unfold autoAdvance
  refine Via.ite (?_) (Via.refl _ _)
  · extract_lets +onlyGivenNames -merge -underBinder y1
    try clear_value y1
    exact Via.step (wr0_via ..) rfl (Via.step (wr0_via ..) rfl (Via.refl _ _))

theorem freePeak_via (s : State) (pg : Nat) (f : Field) (cap : Nat) : Via [.free, .regs] s (freePeak s pg f cap) := by
  unfold freePeak
  split
  · rename_i v1 v2 e3
    refine Via.cut (Via.pair e3 (Via.step (drawNat_via ..) rfl (Via.refl _ _))) fun h4 => ?_
    exact Via.step (wr0_via ..) rfl h4

theorem refreshFree_via (s : State) (pg : Nat) (o : Nat) : Via [.free, .regs, .ptp] s (refreshFree s pg o) := by
  unfold refreshFree
  split
  · refine Via.ite (?_) (Via.refl _ _)
    · split
      · rename_i v1 v2 e3
        refine Via.cut (Via.pair e3 (Via.step (drawNat_via ..) rfl (Via.refl _ _))) fun h4 => ?_
        exact Via.step (bump_via ..) rfl h4
  · refine Via.ite (?_) (Via.ite (Via.step (passTime_via ..) rfl (Via.refl _ _)) (Via.refl _ _))
    · split
      · rename_i v5 v6 e7
        refine Via.cut (Via.pair e7 (Via.step (drawNat_via ..) rfl (Via.refl _ _))) fun h8 => ?_
        exact Via.step (bump_via ..) rfl h8
  · exact Via.ite (Via.step (freePeak_via ..) rfl (Via.refl _ _)) (Via.ite (Via.step (freePeak_via ..) rfl (Via.refl _ _)) (Via.refl _ _))
  · exact Via.refl _ _

theorem readWord_via (s : State) (src : Source) (pg : Nat) (o : Nat) : Via [.free, .regs, .views, .ptp] s (readWord s src pg o).2 := by
  unfold readWord
  refine Via.ite2 (Via.refl _ _) (Via.ite2 (?_) (Via.ite2 (Via.step (autoAdvance_via ..) rfl (Via.refl _ _)) (?_)))
  · extract_lets +onlyGivenNames -merge -underBinder x1
    refine Via.cut (t := x1) (Via.step (latchEntry_via ..) rfl (Via.refl _ _)) fun h2 => ?_
    clear_value x1
    try dsimp -zeta only
    exact h2
  · extract_lets +onlyGivenNames -merge -underBinder x3
    refine Via.cut (t := x3) (Via.step (refreshFree_via ..) rfl (Via.refl _ _)) fun h4 => ?_
    clear_value x3
    extract_lets +onlyGivenNames -merge -underBinder y5
    try clear_value y5
    try dsimp -zeta only
    exact Via.step (latchHigh_via ..) rfl h4

theorem execHiWordLatch_via (src : Source) (page : Fin 256) (word : Fin 1024) (s : State) : Reach [.free, .regs, .views, .ptp] s (execHiWordLatch src page word s) := by
  unfold execHiWordLatch
  exact Reach.next (Via.after (onPage_via rfl (fun _ => Via.step (latchHigh_via ..) rfl (Via.step (refreshFree_via ..) rfl (Via.refl _ _)))) (Via.refl _ _))

theorem execLogEntryLatch_via (src : Source) (s : State) : Reach [.regs, .views] s (execLogEntryLatch src s) := by
  unfold execLogEntryLatch
  exact Reach.next (Via.after (onPage_via rfl (fun _ => Via.step (latchEntry_via ..) rfl (Via.refl _ _))) (Via.refl _ _))

theorem execLogAutoAdvance_via (src : Source) (s : State) : Reach [.regs] s (execLogAutoAdvance src s) := by
  unfold execLogAutoAdvance
  exact Reach.next (Via.after (onPage_via rfl (fun _ => Via.step (autoAdvance_via ..) rfl (Via.refl _ _))) (Via.refl _ _))

theorem storeField_via (s : State) (pg : Nat) (v : Nat) (open_ : Bool) (f : Field) (i : Nat) : Via [.regs] s (storeField s pg v open_ f i) := by
  unfold storeField
  extract_lets +onlyGivenNames -merge -underBinder y1
  try clear_value y1
  split
  · exact Via.refl _ _
  · exact Via.refl _ _
  · exact Via.step (wr_via ..) rfl (Via.refl _ _)
  · exact Via.step (wr_via ..) rfl (Via.refl _ _)
  · exact Via.ite (Via.step (wr_via ..) rfl (Via.refl _ _)) (Via.refl _ _)
  · exact Via.ite (Via.step (wr_via ..) rfl (Via.refl _ _)) (Via.refl _ _)

theorem storeWord_via (s : State) (src : Source) (pg : Nat) (o : Nat) (v : Nat) : Via [.regs, .views, .log] s (storeWord s src pg o v) := by
  unfold storeWord
  extract_lets +onlyGivenNames -merge -underBinder y1
  try clear_value y1
  extract_lets +onlyGivenNames -merge -underBinder y2
  try clear_value y2
  extract_lets +onlyGivenNames -merge -underBinder x3
  refine Via.cut (t := x3) (Via.ite (Via.step (accessError_via ..) rfl (Via.refl _ _)) (Via.refl _ _)) fun h4 => ?_
  clear_value x3
  exact Via.forEach (fun _ _ => Via.step (storeField_via ..) rfl (Via.refl _ _)) h4

theorem clearCounters_via (s : State) (pg : Nat) : Via [.regs] s (clearCounters s pg) := by
  unfold clearCounters
  split
  · extract_lets +onlyGivenNames -merge -underBinder x1
    refine Via.cut (t := x1) (Via.forEach (fun _ _ => Via.forEach (fun _ _ => Via.step (wr_via ..) rfl (Via.refl _ _)) (Via.refl _ _)) (Via.refl _ _)) fun h2 => ?_
    clear_value x1
    exact Via.step (wr0_via ..) rfl h2
  · exact Via.refl _ _

theorem guarded_via (s : State) (src : Source) (pg : Nat) (o : Nat) (v : Nat) (test : State → Bool) : Via [.regs, .views, .log] s (guarded s src pg o v test) := by
  unfold guarded
  extract_lets +onlyGivenNames -merge -underBinder x1
  refine Via.cut (t := x1) (Via.step (storeWord_via ..) rfl (Via.refl _ _)) fun h2 => ?_
  clear_value x1
  exact Via.ite h2 (Via.step (accessError_via ..) rfl (Via.refl _ _))

theorem ring_via (s : State) (p : Nat) (c : Nat) : Via [.rung] s (ring s p c) := by
  unfold ring
  exact Via.step (setRung_via ..) rfl (Via.refl _ _)

theorem doorbell_via (s : State) (p : Nat) (c : Nat) (v : Nat) : Via [.regs, .rung] s (doorbell s p c v) := by
  unfold doorbell
  extract_lets +onlyGivenNames -merge -underBinder y1
  try clear_value y1
  exact Via.ite (Via.step (ring_via ..) rfl (Via.step (wr_via ..) rfl (Via.refl _ _))) (Via.step (bump_via ..) rfl (Via.refl _ _))

theorem ringHead_via (s : State) (p : Nat) (c : Nat) (v : Nat) : Via [.regs, .net, .out] s (ringHead s p c v) := by
  unfold ringHead
  exact Via.step (drain_via ..) rfl (Via.step (wr_via ..) rfl (Via.refl _ _))

theorem writePenWord_via (s : State) (src : Source) (pg : Nat) (o : Nat) (v : Nat) : Via [.regs, .views, .log, .mem, .fresh, .care, .drover, .net, .rung, .out] s (writePenWord s src pg o v) := by
  unfold writePenWord
  extract_lets +onlyGivenNames -merge -underBinder y1
  try clear_value y1
  exact Via.ite (Via.ite (Via.step (accessError_via ..) rfl (Via.refl _ _)) (Via.step (guarded_via ..) rfl (Via.refl _ _))) (Via.ite (Via.step (accessError_via ..) rfl (Via.refl _ _)) (Via.ite (Via.step (guarded_via ..) rfl (Via.refl _ _)) (Via.ite (Via.step (noteConfig_via ..) rfl (Via.step (writePfxKey_via ..) rfl (Via.refl _ _))) (Via.ite (Via.step (writeReplay_via ..) rfl (Via.step (storeWord_via ..) rfl (Via.refl _ _))) (Via.ite (Via.ite (Via.step (storeWord_via ..) rfl (Via.refl _ _)) (Via.step (accessError_via ..) rfl (Via.refl _ _))) (Via.ite (Via.step (doorbell_via ..) rfl (Via.refl _ _)) (Via.ite (Via.step (ringHead_via ..) rfl (Via.refl _ _)) (Via.step (storeWord_via ..) rfl (Via.refl _ _)))))))))

theorem execCalForce_via (src : Source) (fold : Fin 68) (s : State) : Reach [.folds, .drover] s (execCalForce src fold s) := by
  unfold execCalForce
  exact Reach.next (Via.after (onPage_via rfl (fun _ => Via.step (forceCal_via ..) rfl (Via.step (noteConfig_via ..) rfl (Via.refl _ _)))) (Via.refl _ _))

theorem writeFoldWord_via (s : State) (src : Source) (pg : Nat) (o : Nat) (v : Nat) : Via [.regs, .views, .log, .folds, .drover] s (writeFoldWord s src pg o v) := by
  unfold writeFoldWord
  extract_lets +onlyGivenNames -merge -underBinder y1
  try clear_value y1
  refine Via.ite (Via.step (writeFoldState_via ..) rfl (Via.refl _ _)) (Via.ite (?_) (Via.ite (Via.step (noteConfig_via ..) rfl (Via.step (storeWord_via ..) rfl (Via.refl _ _))) (Via.step (storeWord_via ..) rfl (Via.refl _ _))))
  · extract_lets +onlyGivenNames -merge -underBinder x2
    refine Via.cut (t := x2) (Via.step (noteConfig_via ..) rfl (Via.step (storeWord_via ..) rfl (Via.refl _ _))) fun h3 => ?_
    clear_value x2
    exact Via.ite (Via.step (forceCal_via ..) rfl h3) h3

theorem writeHkWord_via (s : State) (src : Source) (pg : Nat) (o : Nat) (v : Nat) : Via [.regs, .views, .log, .hks] s (writeHkWord s src pg o v) := by
  unfold writeHkWord
  extract_lets +onlyGivenNames -merge -underBinder y1
  try clear_value y1
  extract_lets +onlyGivenNames -merge -underBinder x2
  refine Via.cut (t := x2) (Via.step (storeWord_via ..) rfl (Via.refl _ _)) fun h3 => ?_
  clear_value x2
  exact Via.ite (Via.ite (Via.step (triggerSweep_via ..) rfl h3) h3) (Via.ite (Via.ite (Via.step (addSpot_via ..) rfl h3) h3) h3)

theorem writeOtherWord_via (s : State) (src : Source) (pg : Nat) (o : Nat) (v : Nat) : Via (allBut [.pending]) s (writeOtherWord s src pg o v) := by
  unfold writeOtherWord
  split
  · refine Via.ite (?_) (Via.step (storeWord_via ..) rfl (Via.refl _ _))
    · extract_lets +onlyGivenNames -merge -underBinder x1
      refine Via.cut (t := x1) (Via.step (writeEnable_via ..) rfl (Via.step (wr0_via ..) rfl (Via.refl _ _))) fun h2 => ?_
      clear_value x1
      exact Via.ite (Via.step (setTally_via ..) rfl h2) h2
  · extract_lets +onlyGivenNames -merge -underBinder x3
    refine Via.cut (t := x3) (Via.step (storeWord_via ..) rfl (Via.refl _ _)) fun h4 => ?_
    clear_value x3
    exact Via.ite (Via.step (startRetire_via ..) rfl h4) h4
  · refine Via.ite (?_) (Via.step (storeWord_via ..) rfl (Via.refl _ _))
    · extract_lets +onlyGivenNames -merge -underBinder x5
      refine Via.cut (t := x5) (Via.step (writeLinkEnable_via ..) rfl (Via.refl _ _)) fun h6 => ?_
      clear_value x5
      exact Via.ite (Via.step (toTrain_via ..) rfl h6) h6
  · exact Via.ite (Via.step (setViews_via ..) rfl (Via.refl _ _)) (Via.step (storeWord_via ..) rfl (Via.refl _ _))
  · exact Via.ite (Via.step (noteConfig_via ..) rfl (Via.step (storeWord_via ..) rfl (Via.refl _ _))) (Via.step (storeWord_via ..) rfl (Via.refl _ _))
  · exact Via.ite (Via.step (guarded_via ..) rfl (Via.refl _ _)) (Via.ite (Via.step (writeMargin_via ..) rfl (Via.refl _ _)) (Via.step (storeWord_via ..) rfl (Via.refl _ _)))
  · extract_lets +onlyGivenNames -merge -underBinder x7
    refine Via.cut (t := x7) (Via.step (storeWord_via ..) rfl (Via.refl _ _)) fun h8 => ?_
    clear_value x7
    exact Via.ite (Via.step (noteConfig_via ..) rfl h8) (Via.ite (Via.step (retireFold_via ..) rfl h8) h8)
  · exact Via.ite (Via.ite (Via.step (warmCommand_via ..) rfl (Via.refl _ _)) (Via.refl _ _)) (Via.step (storeWord_via ..) rfl (Via.refl _ _))
  · exact Via.ite (Via.ite (Via.step (attestStart_via ..) rfl (Via.refl _ _)) (Via.refl _ _)) (Via.step (storeWord_via ..) rfl (Via.refl _ _))
  · exact Via.step (storeWord_via ..) rfl (Via.refl _ _)

theorem writeSeen_via (s : State) (src : Source) (pg : Nat) (o : Nat) (v : Nat) : Via (allBut [.pending]) s (writeSeen s src pg o v) := by
  unfold writeSeen
  refine Via.ite (Via.ite (Via.step (clearCounters_via ..) rfl (Via.refl _ _)) (Via.refl _ _)) (Via.ite (Via.step (storeWord_via ..) rfl (Via.refl _ _)) (?_))
  · split
    · exact Via.step (writePenWord_via ..) rfl (Via.refl _ _)
    · exact Via.step (writeFoldWord_via ..) rfl (Via.refl _ _)
    · exact Via.step (writeHkWord_via ..) rfl (Via.refl _ _)
    · exact Via.step (writeOtherWord_via ..) rfl (Via.refl _ _)

theorem noPage_via (s : State) (src : Source) (o : Nat) (v : Nat) : Via [.regs, .views, .log] s (noPage s src o v) := by
  unfold noPage
  exact Via.ite (Via.step (accessError_via ..) rfl (Via.refl _ _)) (Via.refl _ _)

theorem writeWord_via (s : State) (src : Source) (pg : Nat) (o : Nat) (v : Nat) : Via (allBut [.pending]) s (writeWord s src pg o v) := by
  unfold writeWord
  exact Via.ite (Via.step (noPage_via ..) rfl (Via.refl _ _)) (Via.after (onPage_via rfl (fun _ => Via.step (writeSeen_via ..) rfl (Via.refl _ _))) (Via.refl _ _))

theorem execCntClr_via (src : Source) (page : Fin 256) (s : State) : Reach [.regs, .views, .log] s (execCntClr src page s) := by
  unfold execCntClr
  exact Reach.next (Via.ite (Via.step (noPage_via ..) rfl (Via.refl _ _)) (Via.after (onPage_via rfl (fun _ => Via.step (clearCounters_via ..) rfl (Via.refl _ _))) (Via.refl _ _)))

theorem execBootLock_via (src : Source) (page : Fin 256) (s : State) : Reach [.regs, .views, .log] s (execBootLock src page s) := by
  unfold execBootLock
  exact Reach.next (Via.ite (Via.step (noPage_via ..) rfl (Via.refl _ _)) (Via.after (onPage_via rfl (fun _ => Via.ite (Via.step (accessError_via ..) rfl (Via.refl _ _)) (Via.step (wr0_via ..) rfl (Via.refl _ _)))) (Via.refl _ _)))

theorem putTileWord_via (s : State) (src : Source) (f : Nat) (o : Nat) (v : Nat) : Via [.regs, .views, .log, .folds] s (putTileWord s src f o v) := by
  unfold putTileWord
  refine Via.ite (Via.refl _ _) (Via.ite (Via.step (tileWrite_via ..) rfl (Via.step (tileWrite_via ..) rfl (Via.refl _ _))) (?_))
  · extract_lets +onlyGivenNames -merge -underBinder y1
    try clear_value y1
    exact Via.step (tileWrite_via ..) rfl (Via.refl _ _)

theorem deviceRead_via (s : State) (src : Source) (a : Nat) : Via [.free, .regs, .views, .ptp] s (deviceRead s src a).2 := by
  unfold deviceRead
  exact Via.ite2 (Via.step (readWord_via ..) rfl (Via.refl _ _)) (Via.ite2 (Via.refl _ _) (Via.refl _ _))

theorem deviceWrite_via (s : State) (src : Source) (a : Nat) (v : Nat) : Via (allBut [.pending]) s (deviceWrite s src a v) := by
  unfold deviceWrite
  exact Via.ite (Via.step (writeWord_via ..) rfl (Via.refl _ _)) (Via.ite (Via.step (putTileWord_via ..) rfl (Via.refl _ _)) (Via.ite (Via.ite (Via.step (iodBytes_via ..) rfl (Via.refl _ _)) (Via.refl _ _)) (Via.step (accessError_via ..) rfl (Via.refl _ _))))

theorem deviceReads_via (src : Source) (n a : Nat) (s : State) : Via [.free, .regs, .views, .ptp] s (deviceReads src n a s).2 := by
  induction n generalizing s a with
  | zero => exact Via.refl _ _
  | succ n ih => exact Via.trans (Via.step (deviceRead_via ..) rfl (Via.refl _ _)) (ih _ _)

theorem deviceWrites_via (src : Source) (n a : Nat) (bs : List Byte) (s : State) : Via (allBut [.pending]) s (deviceWrites src n a bs s) := by
  induction n generalizing s a bs with
  | zero => exact Via.refl _ _
  | succ n ih => exact Via.trans (Via.step (deviceWrite_via ..) rfl (Via.refl _ _)) (ih _ _ _)

end Sys2Proof.Machine
end

