-- ==== Sys2Proof/Laws/ViaNet.lean ====
section
/-! SUPPORT. What each operation of Machine/Net.lean can touch: the pieces it names, and the memories keep their canonical form. -/

namespace Sys2Proof.Machine

open Sys2Proof

theorem execEthLinkChange_via (up : Bool) (s : State) : Reach [.regs] s (execEthLinkChange up s) := by
  unfold execEthLinkChange
  exact Reach.next (Via.ite (Via.step (wr0_via ..) rfl (Via.step (wr0_via ..) rfl (Via.refl _ _))) (Via.refl _ _))

theorem takeFrame_via (s : State) (f : EthFrame) : Via [.regs] s (takeFrame s f).2 := by
  unfold takeFrame
  refine Via.ite2 (Via.refl _ _) (Via.ite2 (Via.step (bump_via ..) rfl (Via.refl _ _)) (?_))
  · extract_lets +onlyGivenNames -merge -underBinder y1
    try clear_value y1
    refine Via.ite2 (Via.refl _ _) (?_)
    · extract_lets +onlyGivenNames -merge -underBinder x2
      refine Via.cut (t := x2) (Via.step (bump_via ..) rfl (Via.refl _ _)) fun h3 => ?_
      clear_value x2
      refine Via.ite2 (?_) h3
      · extract_lets +onlyGivenNames -merge -underBinder y4
        try clear_value y4
        try dsimp -zeta only
        exact Via.ite (Via.step (bump_via ..) rfl h3) h3

theorem answerArp_via (s : State) (f : EthFrame) (p : Nat) : Via [.regs, .out] s (answerArp s f p) := by
  unfold answerArp
  extract_lets +onlyGivenNames -merge -underBinder y1
  try clear_value y1
  extract_lets +onlyGivenNames -merge -underBinder y2
  try clear_value y2
  exact Via.ite (Via.step (emitFrame_via ..) rfl (Via.refl _ _)) (Via.refl _ _)

theorem answerNd_via (s : State) (f : EthFrame) (p : Nat) : Via [.regs, .out] s (answerNd s f p) := by
  unfold answerNd
  extract_lets +onlyGivenNames -merge -underBinder y1
  try clear_value y1
  split
  · exact Via.refl _ _
  · refine Via.ite (?_) (Via.refl _ _)
    · extract_lets +onlyGivenNames -merge -underBinder y2
      try clear_value y2
      extract_lets +onlyGivenNames -merge -underBinder y3
      try clear_value y3
      extract_lets +onlyGivenNames -merge -underBinder y4
      try clear_value y4
      extract_lets +onlyGivenNames -merge -underBinder y5
      try clear_value y5
      exact Via.step (emitFrame_via ..) rfl (Via.refl _ _)

theorem answerEcho_via (s : State) (f : EthFrame) (p : Nat) : Via [.regs, .out] s (answerEcho s f p) := by
  unfold answerEcho
  extract_lets +onlyGivenNames -merge -underBinder y1
  try clear_value y1
  refine Via.ite (?_) (Via.ite (?_) (Via.refl _ _))
  · extract_lets +onlyGivenNames -merge -underBinder y2
    try clear_value y2
    extract_lets +onlyGivenNames -merge -underBinder y3
    try clear_value y3
    exact Via.ite (Via.step (emitFrame_via ..) rfl (Via.refl _ _)) (Via.refl _ _)
  · split
    · exact Via.ite (Via.step (emitFrame_via ..) rfl (Via.refl _ _)) (Via.refl _ _)
    · exact Via.refl _ _

theorem frameIn_via (s : State) (f : EthFrame) : Via [.regs, .out] s (frameIn s f) := by
  unfold frameIn
  split
  · rename_i v1 v2 e3
    refine Via.cut (Via.pair e3 (Via.step (takeFrame_via ..) rfl (Via.refl _ _))) fun h4 => ?_
    exact Via.forEach (fun _ _ => Via.step (answerEcho_via ..) rfl (Via.step (answerNd_via ..) rfl (Via.step (answerArp_via ..) rfl (Via.refl _ _)))) h4

theorem execEthFrame_via (f : EthFrame) (s : State) : Reach [.regs, .out] s (execEthFrame f s) := by
  unfold execEthFrame
  exact Reach.next (Via.step (frameIn_via ..) rfl (Via.refl _ _))

theorem execArpRequest_via (f : EthFrame) (s : State) : Reach [.regs, .out] s (execArpRequest f s) := by
  unfold execArpRequest
  refine Reach.next (?_)
  · split
    · rename_i v1 v2 e3
      refine Via.cut (Via.pair e3 (Via.step (takeFrame_via ..) rfl (Via.refl _ _))) fun h4 => ?_
      exact Via.forEach (fun _ _ => Via.step (answerArp_via ..) rfl (Via.refl _ _)) h4

theorem execNeighbourSolicitation_via (f : EthFrame) (s : State) : Reach [.regs, .out] s (execNeighbourSolicitation f s) := by
  unfold execNeighbourSolicitation
  refine Reach.next (?_)
  · split
    · rename_i v1 v2 e3
      refine Via.cut (Via.pair e3 (Via.step (takeFrame_via ..) rfl (Via.refl _ _))) fun h4 => ?_
      exact Via.forEach (fun _ _ => Via.step (answerNd_via ..) rfl (Via.refl _ _)) h4

theorem execEchoRequest_via (f : EthFrame) (s : State) : Reach [.regs, .out] s (execEchoRequest f s) := by
  unfold execEchoRequest
  refine Reach.next (?_)
  · split
    · rename_i v1 v2 e3
      refine Via.cut (Via.pair e3 (Via.step (takeFrame_via ..) rfl (Via.refl _ _))) fun h4 => ?_
      exact Via.forEach (fun _ _ => Via.step (answerEcho_via ..) rfl (Via.refl _ _)) h4

theorem orphan_via (s : State) (p : Nat) (ch : Nat) : Via [.regs] s (orphan s p ch) := by
  unfold orphan
  exact Via.ite (Via.step (bump_via ..) rfl (Via.step (wr_via ..) rfl (Via.refl _ _))) (Via.refl _ _)

theorem qpFail_via (s : State) (q : Nat) : Via [.regs, .weights, .net] s (qpFail s q) := by
  unfold qpFail
  extract_lets +onlyGivenNames -merge -underBinder y1
  try clear_value y1
  exact Via.ite (Via.refl _ _) (Via.ite (Via.step (dropTargets_via ..) rfl (Via.step (putQp_via ..) rfl (Via.refl _ _))) (Via.step (orphan_via ..) rfl (Via.step (putQp_via ..) rfl (Via.refl _ _))))

theorem execQpError_via (qp : Fin 2048) (s : State) : Reach [.regs, .weights, .net] s (execQpError qp s) := by
  unfold execQpError
  exact Reach.next (Via.step (qpFail_via ..) rfl (Via.refl _ _))

theorem qpLeave_via (s : State) (q : Nat) : Via [.regs, .weights, .net] s (qpLeave s q) := by
  unfold qpLeave
  extract_lets +onlyGivenNames -merge -underBinder y1
  try clear_value y1
  exact Via.ite (Via.step (orphan_via ..) rfl (Via.step (putQp_via ..) rfl (Via.refl _ _))) (Via.step (dropTargets_via ..) rfl (Via.step (putQp_via ..) rfl (Via.refl _ _)))

theorem targetAnswer_via (s : State) (t : Nat) (m : CmMsg) : Via [.free, .regs, .weights, .net, .out] s (targetAnswer s t m) := by
  unfold targetAnswer
  split
  · exact Via.refl _ _
  · extract_lets +onlyGivenNames -merge -underBinder y1
    try clear_value y1
    exact Via.ite (Via.refl _ _) (Via.ite (Via.step (pumpAll_via ..) rfl (Via.step (wr_via ..) rfl (Via.step (putQp_via ..) rfl (Via.refl _ _)))) (Via.step (failTarget_via ..) rfl (Via.step (dropTarget_via ..) rfl (Via.step (putQp_via ..) rfl (Via.refl _ _)))))

theorem hostSetup_via (s : State) (m : CmMsg) : Via [.free, .regs, .net, .out] s (hostSetup s m) := by
  unfold hostSetup
  split
  · exact Via.step (emitFrame_via ..) rfl (Via.step (newQp_via ..) rfl (Via.refl _ _))
  · exact Via.step (emitFrame_via ..) rfl (Via.refl _ _)

theorem peerLeaves_via (s : State) (m : CmMsg) : Via [.regs, .weights, .net, .out] s (peerLeaves s m) := by
  unfold peerLeaves
  extract_lets +onlyGivenNames -merge -underBinder y1
  try clear_value y1
  exact Via.ite (Via.step (emitFrame_via ..) rfl (Via.step (qpLeave_via ..) rfl (Via.refl _ _))) (Via.refl _ _)

theorem execCmMessage_via (m : CmMsg) (s : State) : Reach [.free, .regs, .weights, .net, .out] s (execCmMessage m s) := by
  unfold execCmMessage
  refine Reach.ite (Reach.next (Via.refl _ _)) (Reach.next (Via.after (onPacket_via rfl (?_)) (Via.refl _ _)))
  · intro s1
    split
    · exact Via.step (targetAnswer_via ..) rfl (Via.refl _ _)
    · exact Via.ite (Via.step (hostSetup_via ..) rfl (Via.refl _ _)) (Via.step (peerLeaves_via ..) rfl (Via.refl _ _))

theorem goBack_via (s : State) (q : Nat) (psn : Nat) : Via [.regs, .out] s (goBack s q psn) := by
  unfold goBack
  exact Via.step (emit_via ..) rfl (Via.step (bump_via ..) rfl (Via.step (bump_via ..) rfl (Via.refl _ _)))

theorem takeRcAck_via (s : State) (q : Nat) (psn : Nat) (kind : AckKind) : Via [.regs, .weights, .net, .out] s (takeRcAck s q psn kind) := by
  unfold takeRcAck
  extract_lets +onlyGivenNames -merge -underBinder y1
  try clear_value y1
  refine Via.ite (?_) (Via.refl _ _)
  · split
    · exact Via.step (putQp_via ..) rfl (Via.refl _ _)
    · exact Via.step (goBack_via ..) rfl (Via.step (putQp_via ..) rfl (Via.refl _ _))
    · exact Via.step (goBack_via ..) rfl (Via.step (putQp_via ..) rfl (Via.refl _ _))
    · exact Via.step (qpFail_via ..) rfl (Via.step (putQp_via ..) rfl (Via.refl _ _))
    · exact Via.step (qpFail_via ..) rfl (Via.step (putQp_via ..) rfl (Via.refl _ _))
    · exact Via.step (qpFail_via ..) rfl (Via.step (putQp_via ..) rfl (Via.refl _ _))

theorem execRcAck_via (qp : Fin 2048) (pkt : Pkt) (kind : AckKind) (s : State) : Reach [.regs, .weights, .net, .out] s (execRcAck qp pkt kind s) := by
  unfold execRcAck
  exact Reach.next (Via.ite (Via.after (onPacket_via rfl (fun _ => Via.step (takeRcAck_via ..) rfl (Via.refl _ _))) (Via.refl _ _)) (Via.refl _ _))

theorem execRcAckTimeout_via (qp : Fin 2048) (s : State) : Reach [.regs, .weights, .net, .out] s (execRcAckTimeout qp s) := by
  unfold execRcAckTimeout
  extract_lets +onlyGivenNames -merge -underBinder y1
  try clear_value y1
  exact Reach.ite (Reach.ite (Reach.next (Via.step (goBack_via ..) rfl (Via.step (putQp_via ..) rfl (Via.refl _ _)))) (Reach.next (Via.step (qpFail_via ..) rfl (Via.refl _ _)))) (Reach.next (Via.refl _ _))

theorem execCnp_via (qp : Fin 2048) (s : State) : Reach [.regs, .net] s (execCnp qp s) := by
  unfold execCnp
  extract_lets +onlyGivenNames -merge -underBinder y1
  try clear_value y1
  refine Reach.ite (?_) (Reach.next (Via.refl _ _))
  · extract_lets +onlyGivenNames -merge -underBinder x2
    refine Reach.cut (t := x2) (Via.step (bump_via ..) rfl (Via.refl _ _)) fun h3 => ?_
    clear_value x2
    exact Reach.next (Via.ite h3 (Via.step (putQp_via ..) rfl h3))

theorem execRateRecovery_via (qp : Fin 2048) (s : State) : Reach [.net] s (execRateRecovery qp s) := by
  unfold execRateRecovery
  extract_lets +onlyGivenNames -merge -underBinder y1
  try clear_value y1
  exact Reach.ite (Reach.next (Via.step (putQp_via ..) rfl (Via.refl _ _))) (Reach.ite (Reach.next (Via.step (putQp_via ..) rfl (Via.refl _ _))) (Reach.next (Via.refl _ _)))

theorem synced_via (s : State) (t1 : Int) (t2 : Int) : Via [.free, .regs, .ptp, .out] s (synced s t1 t2) := by
  unfold synced
  extract_lets +onlyGivenNames -merge -underBinder x1
  refine Via.cut (t := x1) (Via.step (passTime_via ..) rfl (Via.refl _ _)) fun h2 => ?_
  clear_value x1
  extract_lets +onlyGivenNames -merge -underBinder y3
  try clear_value y3
  extract_lets +onlyGivenNames -merge -underBinder y4
  try clear_value y4
  split
  · rename_i v5 v6 e7
    refine Via.cut (Via.pair e7 (Via.step (drawNat_via ..) rfl h2)) fun h8 => ?_
    extract_lets +onlyGivenNames -merge -underBinder y9
    try clear_value y9
    extract_lets +onlyGivenNames -merge -underBinder x10
    refine Via.cut (t := x10) (Via.step (setPtp_via ..) rfl h8) fun h11 => ?_
    clear_value x10
    exact Via.step (emitFrame_via ..) rfl (Via.step (wr0_via ..) rfl (Via.step (wr0_via ..) rfl h11))

theorem execPtpSync_via (p : PtpMsg) (s : State) : Reach [.free, .regs, .ptp, .out] s (execPtpSync p s) := by
  unfold execPtpSync
  exact Reach.ite (Reach.ite (Reach.next (Via.step (setPtp_via ..) rfl (Via.refl _ _))) (Reach.next (Via.step (synced_via ..) rfl (Via.refl _ _)))) (Reach.next (Via.refl _ _))

theorem execPtpFollowUp_via (p : PtpMsg) (s : State) : Reach [.free, .regs, .ptp, .out] s (execPtpFollowUp p s) := by
  unfold execPtpFollowUp
  refine Reach.next (?_)
  · split
    · exact Via.ite (Via.step (synced_via ..) rfl (Via.refl _ _)) (Via.refl _ _)
    · exact Via.refl _ _

theorem execPtpDelayResp_via (p : PtpMsg) (s : State) : Reach [.ptp] s (execPtpDelayResp p s) := by
  unfold execPtpDelayResp
  extract_lets +onlyGivenNames -merge -underBinder y1
  try clear_value y1
  exact Reach.ite (Reach.next (Via.step (setPtp_via ..) rfl (Via.refl _ _))) (Reach.next (Via.refl _ _))

theorem execPtpHoldover_via (s : State) : Reach [.regs] s (execPtpHoldover s) := by
  unfold execPtpHoldover
  exact Reach.next (Via.ite (Via.step (wr0_via ..) rfl (Via.refl _ _)) (Via.refl _ _))

end Sys2Proof.Machine
end

