-- ==== Sys2Proof/Laws/ViaUpdate.lean ====
section
/-! SUPPORT. What each operation of Machine/Update.lean can touch: the pieces it names, and the memories keep their canonical form. -/

namespace Sys2Proof.Machine

open Sys2Proof

theorem answerMgmt_via (s : State) (h : MsgHead) (status : Nat) (more : List Byte) : Via [.regs, .net, .out] s (answerMgmt s h status more) := by
  unfold answerMgmt
  exact Via.step (respond_via ..) rfl (Via.step (showUpd_via ..) rfl (Via.refl _ _))

theorem mgmt_via {s : State} {h : MsgHead} {ok : Bool} {g : MsgHead → State → State} {ps : List StatePart} (hb : ([.regs, .net, .out].all fun p => ps.contains p) = true) (hg : ∀ a0 a1, Via ps a1 (g a0 a1)) :
    Via ps s (mgmt s h ok g) := by
  unfold mgmt
  exact Via.after (message_via (within rfl hb) (hg)) (Via.refl _ _)

theorem doNvmeTarget_via (h : MsgHead) (body : List Byte) (s : State) : Via [.free, .regs, .boot, .weights, .net, .out] s (doNvmeTarget h body s) := by
  unfold doNvmeTarget
  extract_lets +onlyGivenNames -merge -underBinder y1
  try clear_value y1
  extract_lets +onlyGivenNames -merge -underBinder y2
  try clear_value y2
  exact Via.step (answerMgmt_via ..) rfl (Via.step (putBank_via ..) rfl (Via.step (putTarget_via ..) rfl (Via.refl _ _)))

theorem msgNvmeTarget_via (s : State) (h : MsgHead) (body : List Byte) : Via [.free, .regs, .boot, .weights, .net, .out] s (msgNvmeTarget s h body) := by
  unfold msgNvmeTarget
  exact Via.after (mgmt_via rfl (fun _ _ => Via.step (doNvmeTarget_via ..) rfl (Via.refl _ _))) (Via.refl _ _)

theorem execNvmeTargetEntry_via (h : MsgHead) (body : List Byte) (s : State) : Reach [.free, .regs, .boot, .weights, .net, .out] s (execNvmeTargetEntry h body s) := by
  unfold execNvmeTargetEntry
  exact Reach.next (Via.after (sendIn_via rfl (fun _ => Via.step (msgNvmeTarget_via ..) rfl (Via.refl _ _))) (Via.refl _ _))

theorem flashWrite_via (s : State) : Via [.free, .regs] s (flashWrite s).2 := by
  unfold flashWrite
  split
  · rename_i v1 v2 e3
    refine Via.cut (Via.pair e3 (Via.step (drawNat_via ..) rfl (Via.refl _ _))) fun h4 => ?_
    extract_lets +onlyGivenNames -merge -underBinder y5
    try clear_value y5
    try dsimp -zeta only
    exact Via.step (bump_via ..) rfl h4

theorem answerObject_via (s : State) (h : MsgHead) (obj : Nat) (status : Nat) : Via [.regs, .net, .out] s (answerObject s h obj status) := by
  unfold answerObject
  refine Via.ite (?_) (?_)
  · extract_lets +onlyGivenNames -merge -underBinder y1
    try clear_value y1
    exact Via.step (answerMgmt_via ..) rfl (Via.refl _ _)
  · extract_lets +onlyGivenNames -merge -underBinder y2
    try clear_value y2
    exact Via.step (answerMgmt_via ..) rfl (Via.refl _ _)

theorem beginFirmware_via (h : MsgHead) (m : List Byte) (s : State) : Via [.free, .regs, .boot, .net, .out] s (beginFirmware h m s) := by
  unfold beginFirmware
  extract_lets +onlyGivenNames -merge -underBinder y1
  try clear_value y1
  extract_lets +onlyGivenNames -merge -underBinder y2
  try clear_value y2
  refine Via.ite (Via.step (answerMgmt_via ..) rfl (Via.refl _ _)) (Via.ite (Via.step (answerMgmt_via ..) rfl (Via.refl _ _)) (Via.ite (Via.step (answerMgmt_via ..) rfl (Via.refl _ _)) (Via.ite (Via.step (answerObject_via ..) rfl (Via.refl _ _)) (?_))))
  · extract_lets +onlyGivenNames -merge -underBinder y3
    try clear_value y3
    split
    · rename_i v4 v5 e6
      refine Via.cut (Via.pair e6 (Via.step (flashWrite_via ..) rfl (Via.refl _ _))) fun h7 => ?_
      exact Via.ite (Via.step (answerObject_via ..) rfl (Via.step (putBank_via ..) rfl h7)) (Via.step (answerMgmt_via ..) rfl (Via.step (putBank_via ..) rfl h7))

theorem beginPolicy_via (h : MsgHead) (hd : List Byte) (n : Nat) (s : State) : Via [.free, .regs, .boot, .net, .out] s (beginPolicy h hd n s) := by
  unfold beginPolicy
  extract_lets +onlyGivenNames -merge -underBinder y1
  try clear_value y1
  extract_lets +onlyGivenNames -merge -underBinder y2
  try clear_value y2
  refine Via.ite (Via.step (answerMgmt_via ..) rfl (Via.refl _ _)) (Via.ite (Via.step (answerObject_via ..) rfl (Via.refl _ _)) (?_))
  · split
    · rename_i v3 v4 e5
      refine Via.cut (Via.pair e5 (Via.step (flashWrite_via ..) rfl (Via.refl _ _))) fun h6 => ?_
      exact Via.ite (Via.step (answerObject_via ..) rfl (Via.step (putSlot_via ..) rfl h6)) (Via.step (answerMgmt_via ..) rfl (Via.step (putSlot_via ..) rfl h6))

theorem doUpdBegin_via (h : MsgHead) (body : List Byte) (s : State) : Via [.free, .regs, .boot, .net, .out] s (doUpdBegin h body s) := by
  unfold doUpdBegin
  extract_lets +onlyGivenNames -merge -underBinder y1
  try clear_value y1
  extract_lets +onlyGivenNames -merge -underBinder y2
  try clear_value y2
  exact Via.ite (Via.step (beginFirmware_via ..) rfl (Via.refl _ _)) (Via.step (beginPolicy_via ..) rfl (Via.refl _ _))

theorem msgUpdBegin_via (s : State) (h : MsgHead) (body : List Byte) : Via [.free, .regs, .boot, .net, .out] s (msgUpdBegin s h body) := by
  unfold msgUpdBegin
  exact Via.after (mgmt_via rfl (fun _ _ => Via.step (doUpdBegin_via ..) rfl (Via.refl _ _))) (Via.refl _ _)

theorem execUpdBegin_via (h : MsgHead) (body : List Byte) (s : State) : Reach [.free, .regs, .boot, .net, .out] s (execUpdBegin h body s) := by
  unfold execUpdBegin
  exact Reach.next (Via.after (sendIn_via rfl (fun _ => Via.step (msgUpdBegin_via ..) rfl (Via.refl _ _))) (Via.refl _ _))

theorem refusePiece_via (s : State) (h : MsgHead) (status : Nat) : Via [.regs, .net, .out] s (refusePiece s h status) := by
  unfold refusePiece
  exact Via.step (answerMgmt_via ..) rfl (Via.step (bump_via ..) rfl (Via.refl _ _))

theorem pieceFirmware_via (h : MsgHead) (i : Nat) (data : List Byte) (s : State) : Via [.free, .regs, .boot, .net, .out] s (pieceFirmware h i data s) := by
  unfold pieceFirmware
  extract_lets +onlyGivenNames -merge -underBinder y1
  try clear_value y1
  extract_lets +onlyGivenNames -merge -underBinder y2
  try clear_value y2
  extract_lets +onlyGivenNames -merge -underBinder y3
  try clear_value y3
  refine Via.ite (Via.step (refusePiece_via ..) rfl (Via.refl _ _)) (Via.ite (Via.step (refusePiece_via ..) rfl (Via.refl _ _)) (Via.ite (Via.step (answerMgmt_via ..) rfl (Via.refl _ _)) (Via.ite (Via.step (refusePiece_via ..) rfl (Via.refl _ _)) (?_))))
  · split
    · rename_i v4 v5 e6
      refine Via.cut (Via.pair e6 (Via.step (flashWrite_via ..) rfl (Via.refl _ _))) fun h7 => ?_
      refine Via.ite (Via.step (refusePiece_via ..) rfl h7) (?_)
      · extract_lets +onlyGivenNames -merge -underBinder y8
        try clear_value y8
        exact Via.ite (Via.step (answerMgmt_via ..) rfl (Via.step (putBank_via ..) rfl h7)) (Via.ite (Via.step (answerMgmt_via ..) rfl (Via.step (putBank_via ..) rfl h7)) (Via.step (answerMgmt_via ..) rfl (Via.step (putBank_via ..) rfl h7)))

theorem piecePolicy_via (h : MsgHead) (i : Nat) (data : List Byte) (s : State) : Via [.free, .regs, .boot, .net, .out] s (piecePolicy h i data s) := by
  unfold piecePolicy
  extract_lets +onlyGivenNames -merge -underBinder y1
  try clear_value y1
  extract_lets +onlyGivenNames -merge -underBinder y2
  try clear_value y2
  refine Via.ite (Via.step (refusePiece_via ..) rfl (Via.refl _ _)) (Via.ite (Via.step (refusePiece_via ..) rfl (Via.refl _ _)) (Via.ite (Via.step (answerMgmt_via ..) rfl (Via.refl _ _)) (?_)))
  · split
    · rename_i v3 v4 e5
      refine Via.cut (Via.pair e5 (Via.step (flashWrite_via ..) rfl (Via.refl _ _))) fun h6 => ?_
      refine Via.ite (Via.step (refusePiece_via ..) rfl h6) (?_)
      · extract_lets +onlyGivenNames -merge -underBinder y7
        try clear_value y7
        exact Via.ite (Via.step (answerMgmt_via ..) rfl (Via.step (putSlot_via ..) rfl h6)) (Via.ite (Via.step (answerMgmt_via ..) rfl (Via.step (putSlot_via ..) rfl h6)) (Via.ite (Via.step (answerMgmt_via ..) rfl (Via.step (putSlot_via ..) rfl h6)) (Via.step (answerMgmt_via ..) rfl (Via.step (putSlot_via ..) rfl h6))))

theorem doUpdPiece_via (h : MsgHead) (body : List Byte) (s : State) : Via [.free, .regs, .boot, .net, .out] s (doUpdPiece h body s) := by
  unfold doUpdPiece
  extract_lets +onlyGivenNames -merge -underBinder y1
  try clear_value y1
  refine Via.ite (Via.step (refusePiece_via ..) rfl (Via.refl _ _)) (?_)
  · extract_lets +onlyGivenNames -merge -underBinder y2
    try clear_value y2
    exact Via.ite (Via.step (pieceFirmware_via ..) rfl (Via.refl _ _)) (Via.step (piecePolicy_via ..) rfl (Via.refl _ _))

theorem msgUpdPiece_via (s : State) (h : MsgHead) (body : List Byte) : Via [.free, .regs, .boot, .net, .out] s (msgUpdPiece s h body) := by
  unfold msgUpdPiece
  exact Via.after (mgmt_via rfl (fun _ _ => Via.step (doUpdPiece_via ..) rfl (Via.refl _ _))) (Via.refl _ _)

theorem execUpdPiece_via (h : MsgHead) (body : List Byte) (s : State) : Reach [.free, .regs, .boot, .net, .out] s (execUpdPiece h body s) := by
  unfold execUpdPiece
  exact Reach.next (Via.after (sendIn_via rfl (fun _ => Via.step (msgUpdPiece_via ..) rfl (Via.refl _ _))) (Via.refl _ _))

theorem control_via {s : State} {h : MsgHead} {body : List Byte} {action : Nat} {g : MsgHead → Nat → State → State} {ps : List StatePart} (hb : ([.regs, .net, .out].all fun p => ps.contains p) = true) (hg : ∀ a0 a1 a2, Via ps a2 (g a0 a1 a2)) :
    Via ps s (control s h body action g) := by
  unfold control
  exact Via.after (mgmt_via (within rfl hb) (fun _ _ => Via.after (hg ..) (Via.refl _ _))) (Via.refl _ _)

theorem doUpdStatus_via (h : MsgHead) (obj : Nat) (s : State) : Via [.regs, .net, .out] s (doUpdStatus h obj s) := by
  unfold doUpdStatus
  exact Via.ite (Via.step (answerObject_via ..) rfl (Via.refl _ _)) (Via.step (answerMgmt_via ..) rfl (Via.refl _ _))

theorem msgUpdStatus_via (s : State) (h : MsgHead) (body : List Byte) : Via [.regs, .net, .out] s (msgUpdStatus s h body) := by
  unfold msgUpdStatus
  exact Via.after (control_via rfl (fun _ _ _ => Via.step (doUpdStatus_via ..) rfl (Via.refl _ _))) (Via.refl _ _)

theorem execUpdStatus_via (h : MsgHead) (body : List Byte) (s : State) : Reach [.regs, .net, .out] s (execUpdStatus h body s) := by
  unfold execUpdStatus
  exact Reach.next (Via.after (sendIn_via rfl (fun _ => Via.step (msgUpdStatus_via ..) rfl (Via.refl _ _))) (Via.refl _ _))

theorem doUpdActivate_via (h : MsgHead) (obj : Nat) (s : State) : Via [.regs, .boot, .net, .out] s (doUpdActivate h obj s) := by
  unfold doUpdActivate
  extract_lets +onlyGivenNames -merge -underBinder y1
  try clear_value y1
  extract_lets +onlyGivenNames -merge -underBinder y2
  try clear_value y2
  exact Via.ite (Via.step (answerMgmt_via ..) rfl (Via.refl _ _)) (Via.ite (Via.step (answerMgmt_via ..) rfl (Via.refl _ _)) (Via.ite (Via.step (answerMgmt_via ..) rfl (Via.step (putBank_via ..) rfl (Via.refl _ _))) (Via.step (answerMgmt_via ..) rfl (Via.refl _ _))))

theorem msgUpdActivate_via (s : State) (h : MsgHead) (body : List Byte) : Via [.regs, .boot, .net, .out] s (msgUpdActivate s h body) := by
  unfold msgUpdActivate
  exact Via.after (control_via rfl (fun _ _ _ => Via.step (doUpdActivate_via ..) rfl (Via.refl _ _))) (Via.refl _ _)

theorem execUpdActivate_via (h : MsgHead) (body : List Byte) (s : State) : Reach [.regs, .boot, .net, .out] s (execUpdActivate h body s) := by
  unfold execUpdActivate
  exact Reach.next (Via.after (sendIn_via rfl (fun _ => Via.step (msgUpdActivate_via ..) rfl (Via.refl _ _))) (Via.refl _ _))

theorem restate_via (s : State) (a : Nat) (b : Nat) : Via [.boot] s (restate s a b) := by
  unfold restate
  split
  · exact Via.step (putBank_via ..) rfl (Via.refl _ _)
  · exact Via.refl _ _

theorem doUpdConfirm_via (h : MsgHead) (obj : Nat) (s : State) : Via [.regs, .boot, .net, .out] s (doUpdConfirm h obj s) := by
  unfold doUpdConfirm
  exact Via.ite (Via.step (answerMgmt_via ..) rfl (Via.refl _ _)) (Via.ite (Via.step (answerMgmt_via ..) rfl (Via.refl _ _)) (Via.step (answerMgmt_via ..) rfl (Via.step (restate_via ..) rfl (Via.step (restate_via ..) rfl (Via.refl _ _)))))

theorem msgUpdConfirm_via (s : State) (h : MsgHead) (body : List Byte) : Via [.regs, .boot, .net, .out] s (msgUpdConfirm s h body) := by
  unfold msgUpdConfirm
  exact Via.after (control_via rfl (fun _ _ _ => Via.step (doUpdConfirm_via ..) rfl (Via.refl _ _))) (Via.refl _ _)

theorem execUpdConfirm_via (h : MsgHead) (body : List Byte) (s : State) : Reach [.regs, .boot, .net, .out] s (execUpdConfirm h body s) := by
  unfold execUpdConfirm
  exact Reach.next (Via.after (sendIn_via rfl (fun _ => Via.step (msgUpdConfirm_via ..) rfl (Via.refl _ _))) (Via.refl _ _))

theorem doUpdAbandon_via (h : MsgHead) (obj : Nat) (s : State) : Via [.regs, .boot, .net, .out] s (doUpdAbandon h obj s) := by
  unfold doUpdAbandon
  exact Via.ite (Via.step (answerMgmt_via ..) rfl (Via.refl _ _)) (Via.ite (Via.step (answerMgmt_via ..) rfl (Via.step (putBank_via ..) rfl (Via.refl _ _))) (Via.step (answerMgmt_via ..) rfl (Via.step (putSlot_via ..) rfl (Via.refl _ _))))

theorem msgUpdAbandon_via (s : State) (h : MsgHead) (body : List Byte) : Via [.regs, .boot, .net, .out] s (msgUpdAbandon s h body) := by
  unfold msgUpdAbandon
  exact Via.after (control_via rfl (fun _ _ _ => Via.step (doUpdAbandon_via ..) rfl (Via.refl _ _))) (Via.refl _ _)

theorem execUpdAbandon_via (h : MsgHead) (body : List Byte) (s : State) : Reach [.regs, .boot, .net, .out] s (execUpdAbandon h body s) := by
  unfold execUpdAbandon
  exact Reach.next (Via.after (sendIn_via rfl (fun _ => Via.step (msgUpdAbandon_via ..) rfl (Via.refl _ _))) (Via.refl _ _))

theorem doUpdRevert_via (h : MsgHead) (obj : Nat) (s : State) : Via [.regs, .boot, .net, .out] s (doUpdRevert h obj s) := by
  unfold doUpdRevert
  exact Via.ite (Via.step (answerMgmt_via ..) rfl (Via.refl _ _)) (Via.ite (Via.step (answerMgmt_via ..) rfl (Via.refl _ _)) (Via.step (answerMgmt_via ..) rfl (Via.step (restate_via ..) rfl (Via.refl _ _))))

theorem msgUpdRevert_via (s : State) (h : MsgHead) (body : List Byte) : Via [.regs, .boot, .net, .out] s (msgUpdRevert s h body) := by
  unfold msgUpdRevert
  exact Via.after (control_via rfl (fun _ _ _ => Via.step (doUpdRevert_via ..) rfl (Via.refl _ _))) (Via.refl _ _)

theorem execUpdRevert_via (h : MsgHead) (body : List Byte) (s : State) : Reach [.regs, .boot, .net, .out] s (execUpdRevert h body s) := by
  unfold execUpdRevert
  exact Reach.next (Via.after (sendIn_via rfl (fun _ => Via.step (msgUpdRevert_via ..) rfl (Via.refl _ _))) (Via.refl _ _))

end Sys2Proof.Machine
end

