-- ==== Sys2Proof/Laws/ViaChannels.lean ====
section
/-! SUPPORT. What each operation of Machine/Channels.lean can touch: the pieces it names, and the memories keep their canonical form. -/

namespace Sys2Proof.Machine

open Sys2Proof

theorem setChannel_via (s : State) (p : Nat) (q : Nat) (c : Nat) (x : Chan) (body : List Byte) : Via [.regs, .net] s (setChannel s p q c x body) := by
  unfold setChannel
  extract_lets +onlyGivenNames -merge -underBinder y1
  try clear_value y1
  extract_lets +onlyGivenNames -merge -underBinder y2
  try clear_value y2
  extract_lets +onlyGivenNames -merge -underBinder y3
  try clear_value y3
  extract_lets +onlyGivenNames -merge -underBinder x4
  refine Via.cut (t := x4) (Via.step (putQp_via ..) rfl (Via.step (putChan_via ..) rfl (Via.refl _ _))) fun h5 => ?_
  clear_value x4
  extract_lets +onlyGivenNames -merge -underBinder y6
  try clear_value y6
  exact Via.step (wr_via ..) rfl (Via.step (wr_via ..) rfl (Via.step (wr_via ..) rfl h5))

theorem answerOpen_via (s : State) (p : Nat) (c : Nat) (h : MsgHead) (more : List Byte) : Via [.regs, .net, .out] s (answerOpen s p c h more) := by
  unfold answerOpen
  exact Via.step (respond_via ..) rfl (Via.step (bump_via ..) rfl (Via.step (bump_via ..) rfl (Via.refl _ _)))

theorem openNew_via (s : State) (p : Nat) (q : Nat) (c : Nat) (h : MsgHead) (body : List Byte) : Via [.regs, .net, .out] s (openNew s p q c h body) := by
  unfold openNew
  extract_lets +onlyGivenNames -merge -underBinder y1
  try clear_value y1
  extract_lets +onlyGivenNames -merge -underBinder y2
  try clear_value y2
  extract_lets +onlyGivenNames -merge -underBinder x3
  refine Via.cut (t := x3) (Via.step (setChannel_via ..) rfl (Via.refl _ _)) fun h4 => ?_
  clear_value x3
  extract_lets +onlyGivenNames -merge -underBinder x5
  refine Via.cut (t := x5) (Via.step (wr_via ..) rfl (Via.step (wr_via ..) rfl (Via.step (wr_via ..) rfl h4))) fun h6 => ?_
  clear_value x5
  exact Via.step (answerOpen_via ..) rfl h6

theorem openAdopt_via (s : State) (p : Nat) (q : Nat) (c : Nat) (h : MsgHead) (body : List Byte) : Via [.regs, .net, .out] s (openAdopt s p q c h body) := by
  unfold openAdopt
  extract_lets +onlyGivenNames -merge -underBinder y1
  try clear_value y1
  extract_lets +onlyGivenNames -merge -underBinder x2
  refine Via.cut (t := x2) (Via.step (setChannel_via ..) rfl (Via.step (releaseQps_via ..) rfl (Via.refl _ _))) fun h3 => ?_
  clear_value x2
  exact Via.step (drain_via ..) rfl (Via.step (answerOpen_via ..) rfl (Via.step (bump_via ..) rfl h3))

theorem refuseOpen_via (s : State) (q : Nat) (h : MsgHead) (status : Nat) : Via [.regs, .net, .out] s (refuseOpen s q h status) := by
  unfold refuseOpen
  extract_lets +onlyGivenNames -merge -underBinder y1
  try clear_value y1
  exact Via.step (post_via ..) rfl (Via.step (bump_via ..) rfl (Via.refl _ _))

theorem takeOpen_via (s : State) (p : Fin 16) (q : Nat) (h : OpenHead) (tag : BitVec 64) (body : List Byte) : Via [.regs, .net, .out] s (takeOpen s p q h tag body) := by
  unfold takeOpen
  extract_lets +onlyGivenNames -merge -underBinder y1
  try clear_value y1
  extract_lets +onlyGivenNames -merge -underBinder y2
  try clear_value y2
  refine Via.ite (Via.after (message_via rfl (fun _ _ => Via.refl _ _)) (Via.refl _ _)) (Via.ite (Via.step (refuseOpen_via ..) rfl (Via.refl _ _)) (?_))
  · extract_lets +onlyGivenNames -merge -underBinder y3
    try clear_value y3
    split
    · exact Via.ite (Via.step (openAdopt_via ..) rfl (Via.refl _ _)) (Via.step (openNew_via ..) rfl (Via.refl _ _))
    · exact Via.step (refuseOpen_via ..) rfl (Via.refl _ _)

theorem execChannelOpen_via (pen : Fin 16) (qp : Fin 2048) (head : OpenHead) (tag : BitVec 64) (body : List Byte) (s : State) : Reach [.regs, .net, .out] s (execChannelOpen pen qp head tag body s) := by
  unfold execChannelOpen
  extract_lets +onlyGivenNames -merge -underBinder y1
  try clear_value y1
  exact Reach.next (Via.ite (Via.after (takePackets_via rfl (fun _ => Via.step (takeOpen_via ..) rfl (Via.refl _ _))) (Via.refl _ _)) (Via.refl _ _))

theorem execOrphanTimeout_via (pen : Fin 16) (ch : Fin 128) (s : State) : Reach [.regs, .drover, .net] s (execOrphanTimeout pen ch s) := by
  unfold execOrphanTimeout
  refine Reach.next (Via.ite (?_) (Via.refl _ _))
  · extract_lets +onlyGivenNames -merge -underBinder x1
    refine Via.cut (t := x1) (Via.step (modChan_via ..) rfl (Via.step (bump_via ..) rfl (Via.refl _ _))) fun h2 => ?_
    clear_value x1
    exact Via.step (waitFire_via ..) rfl (Via.step (wr_via ..) rfl (Via.step (wr_via ..) rfl h2))

theorem msgNop_via (s : State) (h : MsgHead) (body : List Byte) : Via [.regs, .net, .out] s (msgNop s h body) := by
  unfold msgNop
  exact Via.after (message_via rfl (fun _ _ => Via.step (respond_via ..) rfl (Via.refl _ _))) (Via.refl _ _)

theorem execNop_via (h : MsgHead) (body : List Byte) (s : State) : Reach [.regs, .net, .out] s (execNop h body s) := by
  unfold execNop
  exact Reach.next (Via.after (sendIn_via rfl (fun _ => Via.step (msgNop_via ..) rfl (Via.refl _ _))) (Via.refl _ _))

theorem msgUnknown_via (s : State) (h : MsgHead) (typ : Nat) (_body : List Byte) : Via [.regs, .net, .out] s (msgUnknown s h typ _body) := by
  unfold msgUnknown
  exact Via.after (message_via rfl (fun _ _ => Via.refl _ _)) (Via.refl _ _)

theorem execUnknownMessageType_via (h : MsgHead) (typ : BitVec 8) (body : List Byte) (s : State) : Reach [.regs, .net, .out] s (execUnknownMessageType h typ body s) := by
  unfold execUnknownMessageType
  exact Reach.next (Via.ite (Via.refl _ _) (Via.after (sendIn_via rfl (fun _ => Via.step (msgUnknown_via ..) rfl (Via.refl _ _))) (Via.refl _ _)))

theorem debugMsg_via {s : State} {h : MsgHead} {body : List Byte} {op : Nat} {g : MsgHead → State → State} {ps : List StatePart} (hb : ([.regs, .net, .out].all fun p => ps.contains p) = true) (hg : ∀ a0 a1, Via ps a1 (g a0 a1)) :
    Via ps s (debugMsg s h body op g) := by
  unfold debugMsg
  exact Via.after (message_via (within rfl hb) (hg)) (Via.refl _ _)

theorem debugRead_via (h : MsgHead) (body : List Byte) (s : State) : Via [.free, .regs, .views, .ptp, .net, .out] s (debugRead h body s) := by
  unfold debugRead
  split
  · rename_i v1 v2 e3
    refine Via.cut (Via.pair e3 (Via.step (deviceReads_via ..) rfl (Via.refl _ _))) fun h4 => ?_
    exact Via.step (respond_via ..) rfl h4

theorem msgDebugRead_via (s : State) (h : MsgHead) (body : List Byte) : Via [.free, .regs, .views, .ptp, .net, .out] s (msgDebugRead s h body) := by
  unfold msgDebugRead
  exact Via.after (debugMsg_via rfl (fun _ _ => Via.step (debugRead_via ..) rfl (Via.refl _ _))) (Via.refl _ _)

theorem execDebugRead_via (h : MsgHead) (body : List Byte) (s : State) : Reach [.free, .regs, .views, .ptp, .net, .out] s (execDebugRead h body s) := by
  unfold execDebugRead
  exact Reach.next (Via.after (sendIn_via rfl (fun _ => Via.step (msgDebugRead_via ..) rfl (Via.refl _ _))) (Via.refl _ _))

theorem debugWrite_via (h : MsgHead) (body : List Byte) (s : State) : Via (allBut [.pending]) s (debugWrite h body s) := by
  unfold debugWrite
  extract_lets +onlyGivenNames -merge -underBinder x1
  refine Via.cut (t := x1) (Via.step (deviceWrites_via ..) rfl (Via.refl _ _)) fun h2 => ?_
  clear_value x1
  exact Via.step (respond_via ..) rfl (Via.step (logWrite_via ..) rfl h2)

theorem msgDebugWrite_via (s : State) (h : MsgHead) (body : List Byte) : Via (allBut [.pending]) s (msgDebugWrite s h body) := by
  unfold msgDebugWrite
  exact Via.after (debugMsg_via rfl (fun _ _ => Via.step (debugWrite_via ..) rfl (Via.refl _ _))) (Via.refl _ _)

theorem haltCore_via (s : State) (k : Nat) : Via [.boot] s (haltCore s k) := by
  unfold haltCore
  exact Via.step (setBoot_via ..) rfl (Via.refl _ _)

theorem resumeCore_via (s : State) (k : Nat) : Via [.boot] s (resumeCore s k) := by
  unfold resumeCore
  exact Via.step (setBoot_via ..) rfl (Via.refl _ _)

theorem msgDebugHalt_via (s : State) (h : MsgHead) (body : List Byte) : Via [.regs, .boot, .net, .out] s (msgDebugHalt s h body) := by
  unfold msgDebugHalt
  exact Via.after (debugMsg_via rfl (fun _ _ => Via.step (respond_via ..) rfl (Via.step (haltCore_via ..) rfl (Via.refl _ _)))) (Via.refl _ _)

theorem execDebugHalt_via (h : MsgHead) (body : List Byte) (s : State) : Reach [.regs, .boot, .net, .out] s (execDebugHalt h body s) := by
  unfold execDebugHalt
  exact Reach.next (Via.after (sendIn_via rfl (fun _ => Via.step (msgDebugHalt_via ..) rfl (Via.refl _ _))) (Via.refl _ _))

theorem msgDebugResume_via (s : State) (h : MsgHead) (body : List Byte) : Via [.regs, .boot, .net, .out] s (msgDebugResume s h body) := by
  unfold msgDebugResume
  exact Via.after (debugMsg_via rfl (fun _ _ => Via.step (respond_via ..) rfl (Via.step (resumeCore_via ..) rfl (Via.refl _ _)))) (Via.refl _ _)

theorem execDebugResume_via (h : MsgHead) (body : List Byte) (s : State) : Reach [.regs, .boot, .net, .out] s (execDebugResume h body s) := by
  unfold execDebugResume
  exact Reach.next (Via.after (sendIn_via rfl (fun _ => Via.step (msgDebugResume_via ..) rfl (Via.refl _ _))) (Via.refl _ _))

end Sys2Proof.Machine
end

