-- ==== Sys2Proof/Laws/ViaCheckpoint.lean ====
section
/-! SUPPORT. What each operation of Machine/Checkpoint.lean can touch: the pieces it names, and the memories keep their canonical form. -/

namespace Sys2Proof.Machine

open Sys2Proof

theorem putCkpt_via (s : State) (p : Nat) (k : Nat) (x : Ckpt) : Via [.drover] s (putCkpt s p k x) := by
  unfold putCkpt
  exact Via.step (setDrover_via ..) rfl (Via.refl _ _)

theorem startCkpt_via (s : State) (k : Nat) (round : Nat) : Via [.regs, .views, .log, .mem, .fresh, .care, .links, .msgs, .drover, .out] s (startCkpt s k round) := by
  unfold startCkpt
  split
  · exact Via.refl _ _
  · extract_lets +onlyGivenNames -merge -underBinder y1
    try clear_value y1
    extract_lets +onlyGivenNames -merge -underBinder y2
    try clear_value y2
    refine Via.ite (Via.refl _ _) (?_)
    · extract_lets +onlyGivenNames -merge -underBinder y3
      try clear_value y3
      refine Via.ite (Via.step (bump_via ..) rfl (Via.refl _ _)) (?_)
      · extract_lets +onlyGivenNames -merge -underBinder x4
        refine Via.cut (t := x4) (Via.ite (Via.step (journalHere_via ..) rfl (Via.refl _ _)) (Via.refl _ _)) fun h5 => ?_
        clear_value x4
        exact Via.step (putCkpt_via ..) rfl h5

theorem finishCkpt_via (s : State) (p : Nat) (k : Nat) (round : Nat) (slot : Nat) (bytes : List Byte) : Via [.regs, .views, .log, .mem, .fresh, .care, .links, .msgs, .drover, .out] s (finishCkpt s p k round slot bytes) := by
  unfold finishCkpt
  extract_lets +onlyGivenNames -merge -underBinder y1
  try clear_value y1
  extract_lets +onlyGivenNames -merge -underBinder x2
  refine Via.cut (t := x2) (Via.step (coreWrite_via ..) rfl (Via.refl _ _)) fun h3 => ?_
  clear_value x2
  extract_lets +onlyGivenNames -merge -underBinder x4
  refine Via.cut (t := x4) (Via.step (wr_via ..) rfl h3) fun h5 => ?_
  clear_value x4
  extract_lets +onlyGivenNames -merge -underBinder y6
  try clear_value y6
  extract_lets +onlyGivenNames -merge -underBinder y7
  try clear_value y7
  refine Via.ite (?_) (Via.step (putCkpt_via ..) rfl h5)
  · split
    · rename_i v8 v9 e10
      refine Via.cut (Via.pair e10 (Via.step (sendMirror_via ..) rfl h5)) fun h11 => ?_
      exact Via.step (putCkpt_via ..) rfl h11

theorem execCkptWriteDone_via (pen : Fin 16) (flock : Fin 16) (s : State) : Reach [.regs, .views, .log, .mem, .fresh, .care, .links, .msgs, .drover, .out] s (execCkptWriteDone pen flock s) := by
  unfold execCkptWriteDone
  split
  · exact Reach.next (Via.step (finishCkpt_via ..) rfl (Via.refl _ _))
  · exact Reach.next (Via.refl _ _)

theorem ackMirrors_via (s : State) (dest : Nat) (seq : Nat) : Via [.regs, .drover] s (ackMirrors s dest seq) := by
  unfold ackMirrors
  refine Via.forEach (?_) (Via.refl _ _)
  · intro s1 a2
    extract_lets +onlyGivenNames -merge -underBinder y3
    try clear_value y3
    extract_lets +onlyGivenNames -merge -underBinder y4
    try clear_value y4
    extract_lets +onlyGivenNames -merge -underBinder y5
    try clear_value y5
    extract_lets +onlyGivenNames -merge -underBinder y6
    try clear_value y6
    refine Via.ite (Via.refl _ _) (?_)
    · split
      · exact Via.step (wr_via ..) rfl (Via.step (putCkpt_via ..) rfl (Via.refl _ _))
      · exact Via.refl _ _

theorem messageAck_via (s : State) (dest : Nat) (cls : Nat) (seq : Nat) : Via [.regs, .msgs, .drover] s (messageAck s dest cls seq) := by
  unfold messageAck
  extract_lets +onlyGivenNames -merge -underBinder x1
  refine Via.cut (t := x1) (Via.step (takeMsgAck_via ..) rfl (Via.refl _ _)) fun h2 => ?_
  clear_value x1
  exact Via.ite (Via.step (ackMirrors_via ..) rfl h2) h2

theorem takeClass_via (s : State) (source : Nat) (cls : Nat) (seq : Nat) (data : List Byte) : Via [.regs, .views, .log, .mem, .fresh, .care, .links, .msgs, .drover, .out] s (takeClass s source cls seq data) := by
  unfold takeClass
  split
  · exact Via.after (takeMessage_via rfl (fun _ => Via.refl _ _)) (Via.refl _ _)
  · exact Via.after (takeMessage_via rfl (fun _ => Via.step (storeBlock_via ..) rfl (Via.refl _ _))) (Via.refl _ _)
  · exact Via.ite (Via.after (takeMessage_via rfl (fun _ => Via.step (storeMirror_via ..) rfl (Via.refl _ _))) (Via.refl _ _)) (Via.refl _ _)
  · exact Via.step (messageAck_via ..) rfl (Via.refl _ _)
  · exact Via.refl _ _

theorem execMgmtMessage_via (m : LinkMsg) (s : State) : Reach [.regs, .views, .log, .mem, .fresh, .care, .links, .msgs, .drover, .out] s (execMgmtMessage m s) := by
  unfold execMgmtMessage
  exact Reach.next (Via.step (takeClass_via ..) rfl (Via.refl _ _))

theorem execLaneBlockMessage_via (m : LinkMsg) (s : State) : Reach [.regs, .views, .log, .mem, .fresh, .care, .links, .msgs, .drover, .out] s (execLaneBlockMessage m s) := by
  unfold execLaneBlockMessage
  exact Reach.next (Via.step (takeClass_via ..) rfl (Via.refl _ _))

theorem execCheckpointMessage_via (m : LinkMsg) (s : State) : Reach [.regs, .views, .log, .mem, .fresh, .care, .links, .msgs, .drover, .out] s (execCheckpointMessage m s) := by
  unfold execCheckpointMessage
  exact Reach.next (Via.step (takeClass_via ..) rfl (Via.refl _ _))

theorem execMessageAck_via (source : Fin 32768) (cls : Fin 8) (seq : BitVec 16) (s : State) : Reach [.regs, .msgs, .drover] s (execMessageAck source cls seq s) := by
  unfold execMessageAck
  exact Reach.next (Via.step (messageAck_via ..) rfl (Via.refl _ _))

theorem joinFlit_via (s : State) (f : MsgFlit) : Via [.regs, .views, .log, .mem, .fresh, .care, .links, .msgs, .drover, .out] s (joinFlit s f) := by
  unfold joinFlit
  extract_lets +onlyGivenNames -merge -underBinder y1
  try clear_value y1
  extract_lets +onlyGivenNames -merge -underBinder y2
  try clear_value y2
  extract_lets +onlyGivenNames -merge -underBinder y3
  try clear_value y3
  refine Via.ite (?_) (Via.refl _ _)
  · extract_lets +onlyGivenNames -merge -underBinder y4
    try clear_value y4
    exact Via.ite (Via.step (takeClass_via ..) rfl (Via.step (setMsgs_via ..) rfl (Via.refl _ _))) (Via.step (setMsgs_via ..) rfl (Via.refl _ _))

theorem msgFlit_via (s : State) (b : List Byte) : Via [.regs, .views, .log, .mem, .fresh, .care, .links, .msgs, .drover, .out] s (msgFlit s b) := by
  unfold msgFlit
  extract_lets +onlyGivenNames -merge -underBinder y1
  try clear_value y1
  exact Via.ite (Via.step (joinFlit_via ..) rfl (Via.refl _ _)) (Via.step (sendMsgFlit_via ..) rfl (Via.refl _ _))

theorem execMsgFlit_via (link : Fin 96) (f : Flit) (s : State) : Reach (allBut [.pending, .ptp, .hbmShort, .seg, .folds, .droves, .flocks, .hks, .boot, .muster, .weights, .net, .rung]) s (execMsgFlit link f s) := by
  unfold execMsgFlit
  exact Reach.next (Via.after (onFlit_via rfl (fun _ => Via.step (msgFlit_via ..) rfl (Via.refl _ _))) (Via.refl _ _))

end Sys2Proof.Machine
end

