-- ==== Sys2Proof/Laws/ViaMuster.lean ====
section
/-! SUPPORT. What each operation of Machine/Muster.lean can touch: the pieces it names, and the memories keep their canonical form. -/

namespace Sys2Proof.Machine

open Sys2Proof

theorem musterError_via (s : State) : Via [.free, .regs, .folds, .pause, .hks, .boot, .links, .weights, .net, .out] s (musterError s) := by
  unfold musterError
  exact Via.step (bootRest_via ..) rfl (Via.step (errEvent_via ..) rfl (Via.step (wr0_via ..) rfl (Via.refl _ _)))

theorem takePosition_via (s : State) (p : Nat) : Via [.free, .regs, .folds, .pause, .hks, .boot, .links, .weights, .net, .out] s (takePosition s p) := by
  unfold takePosition
  exact Via.step (bootRest_via ..) rfl (Via.step (wr0_via ..) rfl (Via.step (wr0_via ..) rfl (Via.refl _ _)))

theorem execMusterFrame_via (v : Fin 32) (s : State) : Reach [.free, .regs, .folds, .pause, .hks, .boot, .links, .muster, .weights, .net, .out] s (execMusterFrame v s) := by
  unfold execMusterFrame
  refine Reach.ite (?_) (Reach.next (Via.refl _ _))
  · extract_lets +onlyGivenNames -merge -underBinder y1
    try clear_value y1
    extract_lets +onlyGivenNames -merge -underBinder y2
    try clear_value y2
    extract_lets +onlyGivenNames -merge -underBinder x3
    refine Reach.cut (t := x3) (Via.step (setMuster_via ..) rfl (Via.refl _ _)) fun h4 => ?_
    clear_value x3
    exact Reach.next (Via.ite (Via.ite (Via.step (musterError_via ..) rfl h4) (Via.step (takePosition_via ..) rfl h4)) h4)

theorem execMusterHeadTimeout_via (s : State) : Reach [.free, .regs, .folds, .pause, .hks, .boot, .links, .weights, .net, .out] s (execMusterHeadTimeout s) := by
  unfold execMusterHeadTimeout
  exact Reach.next (Via.ite (Via.step (takePosition_via ..) rfl (Via.refl _ _)) (Via.refl _ _))

theorem execMusterTimeout_via (s : State) : Reach [.free, .regs, .folds, .pause, .hks, .boot, .links, .weights, .net, .out] s (execMusterTimeout s) := by
  unfold execMusterTimeout
  exact Reach.next (Via.ite (Via.step (musterError_via ..) rfl (Via.refl _ _)) (Via.refl _ _))

theorem execMusterFrameSend_via (s : State) : Reach [.muster, .out] s (execMusterFrameSend s) := by
  unfold execMusterFrameSend
  exact Reach.ite (Reach.next (Via.step (emit_via ..) rfl (Via.step (setMuster_via ..) rfl (Via.refl _ _)))) (Reach.next (Via.refl _ _))

end Sys2Proof.Machine
end

