-- ==== Sys2Proof/Laws/ViaPageTick.lean ====
section
/-! SUPPORT. What each operation of Machine/PageTick.lean can touch: the pieces it names, and the memories keep their canonical form. -/

namespace Sys2Proof.Machine

open Sys2Proof

theorem clearFold_via (s : State) (f : Nat) : Via [.regs, .folds] s (clearFold s f) := by
  unfold clearFold
  extract_lets +onlyGivenNames -merge -underBinder y1
  try clear_value y1
  extract_lets +onlyGivenNames -merge -underBinder x2
  refine Via.cut (t := x2) (Via.forEach (fun _ _ => Via.forEach (fun _ _ => Via.step (wr_via ..) rfl (Via.refl _ _)) (Via.refl _ _)) (Via.refl _ _)) fun h3 => ?_
  clear_value x2
  extract_lets +onlyGivenNames -merge -underBinder x4
  refine Via.cut (t := x4) (Via.step (wr0_via ..) rfl (Via.step (wr0_via ..) rfl h3)) fun h5 => ?_
  clear_value x4
  extract_lets +onlyGivenNames -merge -underBinder x6
  refine Via.cut (t := x6) (Via.step (wr0_via ..) rfl (Via.step (wr0_via ..) rfl h5)) fun h7 => ?_
  clear_value x6
  extract_lets +onlyGivenNames -merge -underBinder x8
  refine Via.cut (t := x8) (Via.step (wr0_via ..) rfl (Via.step (wr0_via ..) rfl h7)) fun h9 => ?_
  clear_value x8
  exact Via.step (modFold_via ..) rfl h9

theorem markCarried_via (s : State) (f : Nat) (m : Nat) : Via [.regs, .folds] s (markCarried s f m) := by
  unfold markCarried
  exact Via.step (modFold_via ..) rfl (Via.step (wr0_via ..) rfl (Via.refl _ _))

theorem forgetTiles_via (s : State) (f : Nat) : Via [.regs, .folds] s (forgetTiles s f) := by
  unfold forgetTiles
  exact Via.step (modFold_via ..) rfl (Via.step (markCarried_via ..) rfl (Via.refl _ _))

theorem swapLanes_via (s : State) (k : Nat) : Via [.regs, .views, .log, .mem, .fresh, .care, .links, .msgs, .drover, .out] s (swapLanes s k) := by
  unfold swapLanes
  extract_lets +onlyGivenNames -merge -underBinder y1
  try clear_value y1
  extract_lets +onlyGivenNames -merge -underBinder x2
  refine Via.cut (t := x2) (Via.step (settlePlaces_via ..) rfl (Via.refl _ _)) fun h3 => ?_
  clear_value x2
  extract_lets +onlyGivenNames -merge -underBinder x4
  refine Via.cut (t := x4) (Via.forEach (?_) h3) fun h5 => ?_
  · intro s6 a7
    extract_lets +onlyGivenNames -merge -underBinder y8
    try clear_value y8
    exact Via.step (putReq_via ..) rfl (Via.refl _ _)
  clear_value x4
  exact Via.step (putServing_via ..) rfl h5

theorem journalSwap_via (s : State) (k : Nat) (lead : Bool) (pen : Option Nat) (out : List Byte) (inc : List Byte) : Via [.regs, .views, .log, .mem, .fresh, .care, .links, .msgs, .out] s (journalSwap s k lead pen out inc) := by
  unfold journalSwap
  split
  · exact Via.ite (Via.step (journalHere_via ..) rfl (Via.refl _ _)) (Via.refl _ _)
  · exact Via.refl _ _

theorem goAway_via (s : State) (k : Nat) : Via [.free, .flocks] s (goAway s k) := by
  unfold goAway
  split
  · rename_i v1 v2 e3
    refine Via.cut (Via.pair e3 (Via.step (drawNat_via ..) rfl (Via.refl _ _))) fun h4 => ?_
    exact Via.step (modFlock_via ..) rfl h4

theorem applySwap_via (s : State) (k : Nat) (w : Swap) : Via (allBut [.pending, .ptp, .hbmShort, .seg, .tally, .pause, .power, .hks, .boot, .muster, .weights, .net, .rung]) s (applySwap s k w) := by
  unfold applySwap
  extract_lets +onlyGivenNames -merge -underBinder y1
  try clear_value y1
  extract_lets +onlyGivenNames -merge -underBinder y2
  try clear_value y2
  extract_lets +onlyGivenNames -merge -underBinder y3
  try clear_value y3
  extract_lets +onlyGivenNames -merge -underBinder y4
  try clear_value y4
  extract_lets +onlyGivenNames -merge -underBinder y5
  try clear_value y5
  extract_lets +onlyGivenNames -merge -underBinder y6
  try clear_value y6
  extract_lets +onlyGivenNames -merge -underBinder y7
  try clear_value y7
  extract_lets +onlyGivenNames -merge -underBinder y8
  try clear_value y8
  extract_lets +onlyGivenNames -merge -underBinder x9
  refine Via.cut (t := x9) (Via.ite (Via.refl _ _) (Via.step (swapLanes_via ..) rfl (Via.refl _ _))) fun h10 => ?_
  clear_value x9
  extract_lets +onlyGivenNames -merge -underBinder x11
  refine Via.cut (t := x11) (Via.ite h10 (Via.forEach (fun _ _ => Via.step (putDrove_via ..) rfl (Via.refl _ _)) h10)) fun h12 => ?_
  clear_value x11
  extract_lets +onlyGivenNames -merge -underBinder x13
  refine Via.cut (t := x13) (?_) fun h14 => ?_
  · subst x13
    split
    · exact Via.step (putDrove_via ..) rfl h12
    · exact h12
  clear_value x13
  extract_lets +onlyGivenNames -merge -underBinder x15
  refine Via.cut (t := x15) (Via.step (putFlock_via ..) rfl h14) fun h16 => ?_
  clear_value x15
  extract_lets +onlyGivenNames -merge -underBinder x17
  refine Via.cut (t := x17) (Via.ite (Via.step (goAway_via ..) rfl h16) h16) fun h18 => ?_
  clear_value x17
  extract_lets +onlyGivenNames -merge -underBinder y19
  try clear_value y19
  extract_lets +onlyGivenNames -merge -underBinder x20
  refine Via.cut (t := x20) (Via.step (setCare_via ..) rfl h18) fun h21 => ?_
  clear_value x20
  extract_lets +onlyGivenNames -merge -underBinder x22
  refine Via.cut (t := x22) (Via.forEach (fun _ _ => Via.step (clearFold_via ..) rfl (Via.refl _ _)) h21) fun h23 => ?_
  clear_value x22
  extract_lets +onlyGivenNames -merge -underBinder x24
  refine Via.cut (t := x24) (Via.forEach (fun _ _ => Via.step (forgetTiles_via ..) rfl (Via.refl _ _)) h23) fun h25 => ?_
  clear_value x24
  exact Via.step (journalSwap_via ..) rfl h25

theorem refuseActivation_via (s : State) (k : Nat) : Via [.regs, .views, .log, .droves, .flocks] s (refuseActivation s k) := by
  unfold refuseActivation
  extract_lets +onlyGivenNames -merge -underBinder x1
  refine Via.cut (t := x1) (?_) fun h2 => ?_
  · subst x1
    split
    · exact Via.step (putDrove_via ..) rfl (Via.refl _ _)
    · exact Via.refl _ _
  clear_value x1
  exact Via.step (accessError_via ..) rfl (Via.step (modFlock_via ..) rfl h2)

theorem forcedTests_via (s : State) : Via [.regs, .care] s (forcedTests s) := by
  unfold forcedTests
  exact Via.step (startForced_via ..) rfl (Via.step (setCare_via ..) rfl (Via.refl _ _))

theorem pageSwap_via (s : State) (k : Nat) : Via (allBut [.pending, .ptp, .hbmShort, .seg, .tally, .pause, .power, .hks, .boot, .muster, .weights, .net, .rung]) s (pageSwap s k) := by
  unfold pageSwap
  split
  · exact Via.ite (Via.ite (Via.step (forcedTests_via ..) rfl (Via.step (applySwap_via ..) rfl (Via.refl _ _))) (Via.step (refuseActivation_via ..) rfl (Via.refl _ _))) (Via.refl _ _)
  · exact Via.refl _ _

theorem finishSwitch_via (s : State) (p : Nat) : Via [.regs, .views, .log, .weights] s (finishSwitch s p) := by
  unfold finishSwitch
  refine Via.ite (?_) (Via.refl _ _)
  · extract_lets +onlyGivenNames -merge -underBinder y1
    try clear_value y1
    extract_lets +onlyGivenNames -merge -underBinder y2
    try clear_value y2
    extract_lets +onlyGivenNames -merge -underBinder x3
    refine Via.cut (t := x3) (Via.step (setWeights_via ..) rfl (Via.refl _ _)) fun h4 => ?_
    clear_value x3
    exact Via.step (switchEpoch_via ..) rfl (Via.step (wr0_via ..) rfl h4)

theorem journalEpoch_via (s : State) (p : Nat) (k : Nat) : Via [.regs, .views, .log, .mem, .fresh, .care, .links, .msgs, .out] s (journalEpoch s p k) := by
  unfold journalEpoch
  extract_lets +onlyGivenNames -merge -underBinder y1
  try clear_value y1
  extract_lets +onlyGivenNames -merge -underBinder y2
  try clear_value y2
  exact Via.ite (Via.step (journalHere_via ..) rfl (Via.refl _ _)) (Via.refl _ _)

theorem switchFlock_via (s : State) (p : Nat) (k : Nat) : Via [.regs, .views, .log, .mem, .fresh, .care, .links, .msgs, .weights, .out] s (switchFlock s p k) := by
  unfold switchFlock
  extract_lets +onlyGivenNames -merge -underBinder x1
  refine Via.cut (t := x1) (Via.step (journalEpoch_via ..) rfl (Via.refl _ _)) fun h2 => ?_
  clear_value x1
  exact Via.step (finishSwitch_via ..) rfl (Via.step (setWeights_via ..) rfl h2)

theorem pageEpoch_via (s : State) (k : Nat) : Via [.regs, .views, .log, .mem, .fresh, .care, .links, .msgs, .weights, .out] s (pageEpoch s k) := by
  unfold pageEpoch
  split
  · exact Via.ite (Via.step (switchFlock_via ..) rfl (Via.refl _ _)) (Via.refl _ _)
  · exact Via.refl _ _

theorem idleSwitches_via (s : State) : Via [.regs, .views, .log, .weights] s (idleSwitches s) := by
  unfold idleSwitches
  exact Via.forEach (fun _ _ => Via.ite (Via.step (finishSwitch_via ..) rfl (Via.refl _ _)) (Via.refl _ _)) (Via.refl _ _)

theorem showAlt_via (s : State) (l : Nat) : Via [.regs] s (showAlt s l) := by
  unfold showAlt
  exact Via.step (wr0_via ..) rfl (Via.refl _ _)

theorem pageLink_via (k : Nat) (s : State) (l : Nat) : Via [.regs, .links] s (pageLink k s l) := by
  unfold pageLink
  exact Via.ite (Via.step (showAlt_via ..) rfl (Via.step (modLink_via ..) rfl (Via.refl _ _))) (Via.refl _ _)

theorem closeRound_via (s : State) (k : Nat) : Via [.drover] s (closeRound s k) := by
  unfold closeRound
  exact Via.forEach (fun _ _ => Via.step (setDrover_via ..) rfl (Via.refl _ _)) (Via.refl _ _)

theorem openRound_via (old : List Nat) (s : State) (k : Nat) : Via [.drover] s (openRound old s k) := by
  unfold openRound
  exact Via.forEach (fun _ _ => Via.step (setDrover_via ..) rfl (Via.refl _ _)) (Via.refl _ _)

theorem pageFolds_via (s : State) (k : Nat) (r : Nat) : Via [.seg, .folds] s (pageFolds s k r) := by
  unfold pageFolds
  extract_lets +onlyGivenNames -merge -underBinder y1
  try clear_value y1
  extract_lets +onlyGivenNames -merge -underBinder x2
  refine Via.cut (t := x2) (Via.forEach (fun _ _ => Via.step (modFold_via ..) rfl (Via.refl _ _)) (Via.refl _ _)) fun h3 => ?_
  clear_value x2
  exact Via.forEach (fun _ _ => Via.step (pageFold_via ..) rfl (Via.refl _ _)) h3

theorem pageCkpt_via (s : State) (k : Nat) : Via [.regs, .views, .log, .mem, .fresh, .care, .links, .msgs, .drover, .out] s (pageCkpt s k) := by
  unfold pageCkpt
  exact Via.ite (Via.refl _ _) (Via.step (startCkpt_via ..) rfl (Via.refl _ _))

theorem pageRest_via (s : State) (k : Nat) (gone : List Nat) : Via [.regs, .hbmShort, .mem, .fresh, .seg, .folds, .care, .links] s (pageRest s k gone) := by
  unfold pageRest
  extract_lets +onlyGivenNames -merge -underBinder y1
  try clear_value y1
  extract_lets +onlyGivenNames -merge -underBinder x2
  refine Via.cut (t := x2) (Via.forEach (fun _ _ => Via.ite (Via.step (eraseSeg_via ..) rfl (Via.refl _ _)) (Via.refl _ _)) (Via.refl _ _)) fun h3 => ?_
  clear_value x2
  extract_lets +onlyGivenNames -merge -underBinder x4
  refine Via.cut (t := x4) (Via.step (pageFolds_via ..) rfl h3) fun h5 => ?_
  clear_value x4
  extract_lets +onlyGivenNames -merge -underBinder x6
  refine Via.cut (t := x6) (Via.forEach (fun _ _ => Via.step (pageLink_via ..) rfl (Via.refl _ _)) h5) fun h7 => ?_
  clear_value x6
  exact Via.step (pageRetired_via ..) rfl h7

theorem cancelNow_via (s : State) (f : Nat) : Via [.folds] s (cancelNow s f) := by
  unfold cancelNow
  exact Via.ite (Via.step (modFold_via ..) rfl (Via.refl _ _)) (Via.refl _ _)

theorem windowFold_via (s : State) (k : Nat) (f : Nat) : Via [.regs, .folds] s (windowFold s k f) := by
  unfold windowFold
  extract_lets +onlyGivenNames -merge -underBinder y1
  try clear_value y1
  extract_lets +onlyGivenNames -merge -underBinder y2
  try clear_value y2
  extract_lets +onlyGivenNames -merge -underBinder x3
  refine Via.cut (t := x3) (Via.ite (Via.step (wr0_via ..) rfl (Via.refl _ _)) (Via.step (markCarried_via ..) rfl (Via.refl _ _))) fun h4 => ?_
  clear_value x3
  extract_lets +onlyGivenNames -merge -underBinder y5
  try clear_value y5
  exact Via.ite (Via.step (modFold_via ..) rfl h4) h4

theorem execPageWindowSet_via (s : State) : Reach [.regs, .folds, .tally] s (execPageWindowSet s) := by
  unfold execPageWindowSet
  refine Reach.ite (?_) (Reach.next (Via.refl _ _))
  · extract_lets +onlyGivenNames -merge -underBinder y1
    try clear_value y1
    extract_lets +onlyGivenNames -merge -underBinder x2
    refine Reach.cut (t := x2) (Via.step (setTally_via ..) rfl (Via.refl _ _)) fun h3 => ?_
    clear_value x2
    exact Reach.next (Via.forEach (fun _ _ => Via.forEach (fun _ _ => Via.step (windowFold_via ..) rfl (Via.refl _ _)) (Via.refl _ _)) h3)

end Sys2Proof.Machine
end

