-- ==== Sys2Proof/Laws/ViaRings.lean ====
section
/-! SUPPORT. What each operation of Machine/Rings.lean can touch: the pieces it names, and the memories keep their canonical form. -/

namespace Sys2Proof.Machine

open Sys2Proof

theorem dispatchMgmt_via (s : State) (h : MsgHead) (body : List Byte) : Via [.free, .regs, .boot, .weights, .net, .out] s (dispatchMgmt s h body) := by
  unfold dispatchMgmt
  extract_lets +onlyGivenNames -merge -underBinder y1
  try clear_value y1
  extract_lets +onlyGivenNames -merge -underBinder y2
  try clear_value y2
  exact Via.ite (Via.step (msgNvmeTarget_via ..) rfl (Via.refl _ _)) (Via.ite (Via.step (msgUpdBegin_via ..) rfl (Via.refl _ _)) (Via.ite (Via.step (msgUpdPiece_via ..) rfl (Via.refl _ _)) (Via.ite (Via.step (msgUpdStatus_via ..) rfl (Via.refl _ _)) (Via.ite (Via.step (msgUpdActivate_via ..) rfl (Via.refl _ _)) (Via.ite (Via.step (msgUpdConfirm_via ..) rfl (Via.refl _ _)) (Via.ite (Via.step (msgUpdAbandon_via ..) rfl (Via.refl _ _)) (Via.ite (Via.step (msgUpdRevert_via ..) rfl (Via.refl _ _)) (Via.after (mgmt_via rfl (fun _ _ => Via.refl _ _)) (Via.refl _ _)))))))))

theorem dispatchDebug_via (s : State) (h : MsgHead) (body : List Byte) : Via (allBut [.pending]) s (dispatchDebug s h body) := by
  unfold dispatchDebug
  extract_lets +onlyGivenNames -merge -underBinder y1
  try clear_value y1
  exact Via.ite (Via.step (msgDebugRead_via ..) rfl (Via.refl _ _)) (Via.ite (Via.step (msgDebugWrite_via ..) rfl (Via.refl _ _)) (Via.ite (Via.step (msgDebugHalt_via ..) rfl (Via.refl _ _)) (Via.ite (Via.step (msgDebugResume_via ..) rfl (Via.refl _ _)) (Via.after (message_via rfl (fun _ _ => Via.refl _ _)) (Via.refl _ _)))))

theorem dispatch_via (s : State) (h : MsgHead) (typ : Nat) (body : List Byte) : Via (allBut [.pending]) s (dispatch s h typ body) := by
  unfold dispatch
  exact Via.ite (Via.step (msgClose_via ..) rfl (Via.refl _ _)) (Via.ite (Via.step (msgNop_via ..) rfl (Via.refl _ _)) (Via.ite (Via.step (msgAdmit_via ..) rfl (Via.refl _ _)) (Via.ite (Via.step (msgAbort_via ..) rfl (Via.refl _ _)) (Via.ite (Via.step (msgDroveLoad_via ..) rfl (Via.refl _ _)) (Via.ite (Via.step (msgDroveUnload_via ..) rfl (Via.refl _ _)) (Via.ite (Via.step (msgDroveSwap_via ..) rfl (Via.refl _ _)) (Via.ite (Via.step (msgEpochOpen_via ..) rfl (Via.refl _ _)) (Via.ite (Via.step (msgShardFetch_via ..) rfl (Via.refl _ _)) (Via.ite (Via.step (msgShardPush_via ..) rfl (Via.refl _ _)) (Via.ite (Via.step (msgArrivalCancel_via ..) rfl (Via.refl _ _)) (Via.ite (Via.step (msgEpochSwitch_via ..) rfl (Via.refl _ _)) (Via.ite (Via.step (msgEpochRetire_via ..) rfl (Via.refl _ _)) (Via.ite (Via.step (dispatchMgmt_via ..) rfl (Via.refl _ _)) (Via.ite (Via.step (dispatchDebug_via ..) rfl (Via.refl _ _)) (Via.step (msgUnknown_via ..) rfl (Via.refl _ _))))))))))))))))

theorem serveRing_via (s : State) (k : Nat) (rest : List Nat) : Via (allBut [.pending]) s (serveRing s k rest) := by
  unfold serveRing
  split
  · exact Via.step (dispatch_via ..) rfl (Via.step (wr_via ..) rfl (Via.refl _ _))
  · exact Via.step (setRung_via ..) rfl (Via.refl _ _)

theorem runRings_via (fuel : Nat) (s : State) : Via (allBut [.pending]) s (runRings fuel s) := by
  induction fuel generalizing s with
  | zero => exact Via.step (setRung_via ..) rfl (Via.refl _ _)
  | succ n ih =>
    unfold runRings
    split
    · exact Via.refl _ _
    · exact (serveRing_via ..).trans (ih _)

theorem serveRings_via (s : State) : Via (allBut [.pending]) s (serveRings s) := by
  unfold serveRings
  exact Via.step (runRings_via ..) rfl (Via.refl _ _)

theorem execChSqTail_via (src : Source) (pen : Fin 16) (ch : Fin 128) (v : Word) (s : State) : Reach (allBut [.pending]) s (execChSqTail src pen ch v s) := by
  unfold execChSqTail
  exact Reach.next (Via.step (serveRings_via ..) rfl (Via.after (onPage_via rfl (fun _ => Via.step (doorbell_via ..) rfl (Via.refl _ _))) (Via.refl _ _)))

theorem execChTrHead_via (src : Source) (pen : Fin 16) (ch : Fin 128) (v : Word) (s : State) : Reach [.regs, .net, .out] s (execChTrHead src pen ch v s) := by
  unfold execChTrHead
  exact Reach.next (Via.after (onPage_via rfl (fun _ => Via.step (ringHead_via ..) rfl (Via.refl _ _))) (Via.refl _ _))

theorem execRegisterWrite_via (src : Source) (page : Fin 256) (word : Fin 1024) (v : Word) (s : State) : Reach (allBut [.pending]) s (execRegisterWrite src page word v s) := by
  unfold execRegisterWrite
  exact Reach.next (Via.step (serveRings_via ..) rfl (Via.step (writeWord_via ..) rfl (Via.refl _ _)))

theorem execDebugWrite_via (h : MsgHead) (body : List Byte) (s : State) : Reach (allBut [.pending]) s (execDebugWrite h body s) := by
  unfold execDebugWrite
  exact Reach.next (Via.step (serveRings_via ..) rfl (Via.after (sendIn_via rfl (fun _ => Via.step (msgDebugWrite_via ..) rfl (Via.refl _ _))) (Via.refl _ _)))

theorem execJtagAccess_via (write : Bool) (addr : Nat) (v : Word) (s : State) : Reach (allBut [.pending]) s (execJtagAccess write addr v s) := by
  unfold execJtagAccess
  refine Reach.ite (Reach.next (Via.refl _ _)) (Reach.ite (Reach.next (Via.step (serveRings_via ..) rfl (Via.step (deviceWrite_via ..) rfl (Via.refl _ _)))) (Reach.next (?_)))
  · split
    · rename_i v1 v2 e3
      refine Via.cut (Via.pair e3 (Via.step (deviceRead_via ..) rfl (Via.refl _ _))) fun h4 => ?_
      exact Via.step (emit_via ..) rfl h4

theorem execJtagHalt_via (core : Fin 4) (s : State) : Reach [.boot] s (execJtagHalt core s) := by
  unfold execJtagHalt
  exact Reach.next (Via.ite (Via.step (haltCore_via ..) rfl (Via.refl _ _)) (Via.refl _ _))

theorem execJtagResume_via (core : Fin 4) (s : State) : Reach [.boot] s (execJtagResume core s) := by
  unfold execJtagResume
  exact Reach.next (Via.ite (Via.step (resumeCore_via ..) rfl (Via.refl _ _)) (Via.refl _ _))

theorem execAnchorClear_via (s : State) : Reach [.regs, .views, .log, .boot] s (execAnchorClear s) := by
  unfold execAnchorClear
  exact Reach.next (Via.ite (Via.step (logWrite_via ..) rfl (Via.step (putFlash_via ..) rfl (Via.refl _ _))) (Via.refl _ _))

theorem execTapLeaveReset_via (s : State) : Reach [.regs, .views, .log] s (execTapLeaveReset s) := by
  unfold execTapLeaveReset
  exact Reach.next (Via.ite (Via.step (logWrite_via ..) rfl (Via.refl _ _)) (Via.refl _ _))

end Sys2Proof.Machine
end

