-- ==== Sys2Proof/Laws/ViaRdma.lean ====
section
/-! SUPPORT. What each operation of Machine/Rdma.lean can touch: the pieces it names, and the memories keep their canonical form. -/

namespace Sys2Proof.Machine

open Sys2Proof

theorem nakRequest_via (s : State) (q : Nat) (psn : Nat) (code : Nat) : Via [.regs, .weights, .net, .out] s (nakRequest s q psn code) := by
  unfold nakRequest
  exact Via.step (qpFail_via ..) rfl (Via.step (sendRcAck_via ..) rfl (Via.refl _ _))

theorem writeWords_via (src : Source) (n a : Nat) (bs : List Byte) (s : State) : Via (allBut [.pending]) s (writeWords src n a bs s) := by
  induction n generalizing s a bs with
  | zero => exact Via.refl _ _
  | succ n ih => exact Via.trans (Via.step (writeWord_via ..) rfl (Via.refl _ _)) (ih _ _ _)

theorem readWords_via (src : Source) (n a : Nat) (s : State) : Via [.free, .regs, .views, .ptp] s (readWords src n a s).2 := by
  induction n generalizing s a with
  | zero => exact Via.refl _ _
  | succ n ih => exact Via.trans (Via.step (readWord_via ..) rfl (Via.refl _ _)) (ih _ _)

theorem regionWrite_via (s : State) (p : Nat) (r : RdmaReq) (data : List Byte) : Via (allBut [.pending]) s (regionWrite s p r data) := by
  unfold regionWrite
  exact Via.ite (Via.step (writeWords_via ..) rfl (Via.refl _ _)) (Via.step (winWrite_via ..) rfl (Via.refl _ _))

theorem regionRead_via (s : State) (p : Nat) (r : RdmaReq) : Via [.free, .regs, .views, .ptp] s (regionRead s p r).2 := by
  unfold regionRead
  exact Via.ite2 (Via.step (readWords_via ..) rfl (Via.refl _ _)) (Via.refl _ _)

theorem execRdmaWrite_via (r : RdmaReq) (data : List Byte) (s : State) : Reach (allBut [.pending]) s (execRdmaWrite r data s) := by
  unfold execRdmaWrite
  extract_lets +onlyGivenNames -merge -underBinder y1
  try clear_value y1
  extract_lets +onlyGivenNames -merge -underBinder y2
  try clear_value y2
  extract_lets +onlyGivenNames -merge -underBinder y3
  try clear_value y3
  exact Reach.next (Via.after (takePacket_via rfl (fun _ => Via.ite (Via.step (serveRings_via ..) rfl (Via.step (sendRcAck_via ..) rfl (Via.step (regionWrite_via ..) rfl (Via.step (movePsn_via ..) rfl (Via.refl _ _))))) (Via.step (nakRequest_via ..) rfl (Via.refl _ _))) (fun _ => Via.step (ackAgain_via ..) rfl (Via.refl _ _))) (Via.refl _ _))

theorem sendRead_via (s : State) (x : Qp) (r : RdmaReq) : Via [.free, .regs, .views, .ptp, .out] s (sendRead s x r) := by
  unfold sendRead
  split
  · rename_i v1 v2 e3
    refine Via.cut (Via.pair e3 (Via.step (regionRead_via ..) rfl (Via.refl _ _))) fun h4 => ?_
    exact Via.step (emit_via ..) rfl (Via.step (bump_via ..) rfl h4)

theorem execRdmaRead_via (r : RdmaReq) (s : State) : Reach [.free, .regs, .views, .ptp, .weights, .net, .out] s (execRdmaRead r s) := by
  unfold execRdmaRead
  extract_lets +onlyGivenNames -merge -underBinder y1
  try clear_value y1
  extract_lets +onlyGivenNames -merge -underBinder y2
  subst y2
  try dsimp -zeta only
  exact Reach.next (Via.after (takePacket_via rfl (fun _ => Via.ite (Via.step (sendRead_via ..) rfl (Via.ite (Via.step (movePsn_via ..) rfl (Via.refl _ _)) (Via.refl _ _))) (Via.step (nakRequest_via ..) rfl (Via.refl _ _))) (fun _ => Via.ite (Via.step (sendRead_via ..) rfl (Via.ite (Via.step (movePsn_via ..) rfl (Via.refl _ _)) (Via.refl _ _))) (Via.step (nakRequest_via ..) rfl (Via.refl _ _)))) (Via.refl _ _))

theorem execAtomic_via (qp : Fin 2048) (pkt : Pkt) (s : State) : Reach [.regs, .weights, .net, .out] s (execAtomic qp pkt s) := by
  unfold execAtomic
  extract_lets +onlyGivenNames -merge -underBinder y1
  subst y1
  try dsimp -zeta only
  exact Reach.next (Via.after (takePacket_via rfl (fun _ => Via.step (nakRequest_via ..) rfl (Via.refl _ _)) (fun _ => Via.step (nakRequest_via ..) rfl (Via.refl _ _))) (Via.refl _ _))

end Sys2Proof.Machine
end

