-- ==== Sys2Proof/Laws/ViaReplay.lean ====
section
/-! SUPPORT. What each operation of Machine/Replay.lean can touch: the pieces it names, and the memories keep their canonical form. -/

namespace Sys2Proof.Machine

open Sys2Proof

theorem stopReplay_via (s : State) (p : Nat) (cause : Nat) : Via [.regs] s (stopReplay s p cause) := by
  unfold stopReplay
  exact Via.step (wr0_via ..) rfl (Via.step (wr0_via ..) rfl (Via.refl _ _))

theorem useHandle_via (s : State) (handle : Nat) : Via [.drover] s (useHandle s handle) := by
  unfold useHandle
  exact Via.step (setDrover_via ..) rfl (Via.refl _ _)

theorem startCheckpoint_via (s : State) (p : Nat) (k : Nat) : Via [.free] s (startCheckpoint s p k).2 := by
  unfold startCheckpoint
  extract_lets +onlyGivenNames -merge -underBinder y1
  try clear_value y1
  refine Via.ite2 (Via.refl _ _) (?_)
  · split
    · rename_i v2 v3 e4
      refine Via.cut (Via.pair e4 (Via.step (drawNat_via ..) rfl (Via.refl _ _))) fun h5 => ?_
      try dsimp -zeta only
      exact h5

theorem restoreCarried_via (s : State) (d : Drove) (sec : List Byte) : Via [.folds] s (restoreCarried s d sec) := by
  unfold restoreCarried
  extract_lets +onlyGivenNames -merge -underBinder x1
  refine Via.cut (t := x1) (Via.forEach (fun _ _ => Via.step (modTile_via ..) rfl (Via.refl _ _)) (Via.refl _ _)) fun h2 => ?_
  clear_value x1
  refine Via.forEach (?_) h2
  · intro s3 a4
    split
    · exact Via.ite (Via.step (modFold_via ..) rfl (Via.refl _ _)) (Via.refl _ _)
    · exact Via.refl _ _

theorem restoreRequest_via (p : Nat) (k : Nat) (d : Drove) (s : State) (b : List Byte) : Via [.free, .regs, .views, .log, .drover] s (restoreRequest p k d s b) := by
  unfold restoreRequest
  extract_lets +onlyGivenNames -merge -underBinder y1
  try clear_value y1
  extract_lets +onlyGivenNames -merge -underBinder x2
  refine Via.cut (t := x2) (Via.step (setFree_via ..) rfl (Via.refl _ _)) fun h3 => ?_
  clear_value x2
  extract_lets +onlyGivenNames -merge -underBinder y4
  try clear_value y4
  split
  · rename_i v5 v6 e7
    refine Via.cut (Via.pair e7 (Via.step (drawNat_via ..) rfl h3)) fun h8 => ?_
    extract_lets +onlyGivenNames -merge -underBinder y9
    try clear_value y9
    exact Via.step (useHandle_via ..) rfl (Via.step (pinEpoch_via ..) rfl (Via.step (putReq_via ..) rfl h8))

theorem dropRequest_via (s : State) (r : Request) : Via [.regs, .views, .log, .drover] s (dropRequest s r) := by
  unfold dropRequest
  exact Via.step (pinEpoch_via ..) rfl (Via.step (setDrover_via ..) rfl (Via.refl _ _))

theorem restoreLead_via (s : State) (p : Nat) (k : Nat) (d : Drove) (r : List Byte) : Via [.free, .regs, .views, .log, .mem, .fresh, .care, .drover] s (restoreLead s p k d r) := by
  unfold restoreLead
  extract_lets +onlyGivenNames -merge -underBinder x1
  refine Via.cut (t := x1) (Via.forEach (fun _ _ => Via.step (dropRequest_via ..) rfl (Via.refl _ _)) (Via.refl _ _)) fun h2 => ?_
  clear_value x1
  extract_lets +onlyGivenNames -merge -underBinder x3
  refine Via.cut (t := x3) (Via.step (coreWrite_via ..) rfl h2) fun h4 => ?_
  clear_value x3
  extract_lets +onlyGivenNames -merge -underBinder y5
  try clear_value y5
  exact Via.forEach (fun _ _ => Via.step (restoreRequest_via ..) rfl (Via.refl _ _)) h4

theorem restoreFlock_via (s : State) (p : Nat) (k : Nat) (slot : Nat) (r : List Byte) : Via [.free, .regs, .views, .log, .mem, .fresh, .folds, .flocks, .care, .drover] s (restoreFlock s p k slot r) := by
  unfold restoreFlock
  split
  · extract_lets +onlyGivenNames -merge -underBinder x1
    refine Via.cut (t := x1) (Via.step (modFlock_via ..) rfl (Via.refl _ _)) fun h2 => ?_
    clear_value x1
    extract_lets +onlyGivenNames -merge -underBinder y3
    try clear_value y3
    extract_lets +onlyGivenNames -merge -underBinder x4
    refine Via.cut (t := x4) (Via.step (restoreCarried_via ..) rfl (Via.step (putCkpt_via ..) rfl h2)) fun h5 => ?_
    clear_value x4
    exact Via.ite (Via.step (restoreLead_via ..) rfl h5) h5
  · exact Via.refl _ _

theorem prepareReplay_via (s : State) (k : Nat) : Via [.free, .regs, .views, .log, .mem, .fresh, .folds, .flocks, .care, .drover] s (prepareReplay s k) := by
  unfold prepareReplay
  split
  · refine Via.ite (?_) (Via.refl _ _)
    · extract_lets +onlyGivenNames -merge -underBinder y1
      try clear_value y1
      extract_lets +onlyGivenNames -merge -underBinder x2
      refine Via.cut (t := x2) (Via.step (putReplay_via ..) rfl (Via.refl _ _)) fun h3 => ?_
      clear_value x2
      split
      · exact Via.step (modFlock_via ..) rfl h3
      · split
        · rename_i v4 v5 e6
          refine Via.cut (Via.pair e6 (Via.step (startCheckpoint_via ..) rfl h3)) fun h7 => ?_
          exact Via.step (restoreFlock_via ..) rfl h7
        · rename_i v8 e9
          refine Via.cut (Via.pair e9 (Via.step (startCheckpoint_via ..) rfl h3)) fun h10 => ?_
          exact h10
  · exact Via.refl _ _

theorem startReplay_via (s : State) (k : Nat) : Via [.regs] s (startReplay s k) := by
  unfold startReplay
  split
  · exact Via.ite (Via.step (wr0_via ..) rfl (Via.refl _ _)) (Via.refl _ _)
  · exact Via.refl _ _

theorem writeConfig_via (s : State) (page : Nat) (off : Nat) (v : Nat) : Via [.regs, .views, .log, .mem, .fresh, .folds, .care] s (writeConfig s page off v) := by
  unfold writeConfig
  split
  · exact Via.step (writePfxKey_via ..) rfl (Via.refl _ _)
  · refine Via.ite (?_) (Via.step (storeWord_via ..) rfl (Via.refl _ _))
    · extract_lets +onlyGivenNames -merge -underBinder x1
      refine Via.cut (t := x1) (Via.step (storeWord_via ..) rfl (Via.refl _ _)) fun h2 => ?_
      clear_value x1
      exact Via.ite (Via.step (forceCal_via ..) rfl h2) h2
  · exact Via.step (storeWord_via ..) rfl (Via.refl _ _)

theorem applyConfig_via (s : State) (page : Nat) (off : Nat) (v : Nat) : Via [.regs, .views, .log, .mem, .fresh, .folds, .care, .links, .msgs, .out] s (applyConfig s page off v) := by
  unfold applyConfig
  exact Via.ite (Via.step (journalConfig_via ..) rfl (Via.step (writeConfig_via ..) rfl (Via.refl _ _))) (Via.refl _ _)

theorem applyAdmit_via (s : State) (k : Nat) (p : Nat) (e : JEntry) : Via [.regs, .views, .log, .mem, .fresh, .care, .links, .msgs, .drover, .out] s (applyAdmit s k p e) := by
  unfold applyAdmit
  extract_lets +onlyGivenNames -merge -underBinder y1
  try clear_value y1
  refine Via.ite (Via.step (stopReplay_via ..) rfl (Via.refl _ _)) (?_)
  · extract_lets +onlyGivenNames -merge -underBinder y2
    try clear_value y2
    extract_lets +onlyGivenNames -merge -underBinder y3
    try clear_value y3
    extract_lets +onlyGivenNames -merge -underBinder y4
    try clear_value y4
    extract_lets +onlyGivenNames -merge -underBinder y5
    try clear_value y5
    exact Via.step (useHandle_via ..) rfl (Via.step (takeRequest_via ..) rfl (Via.refl _ _))

theorem applyAbort_via (s : State) (k : Nat) (p : Nat) (e : JEntry) : Via [.regs, .views, .log, .mem, .fresh, .folds, .flocks, .care, .links, .msgs, .drover, .net, .out] s (applyAbort s k p e) := by
  unfold applyAbort
  extract_lets +onlyGivenNames -merge -underBinder y1
  try clear_value y1
  split
  · rename_i v2 v3 e4
    refine Via.cut (Via.pair e4 (?_)) fun h5 => ?_
    · split
      · extract_lets +onlyGivenNames -merge -underBinder x6
        refine Via.cut (t := x6.2.2) (Via.step (abortHandle_via ..) rfl (Via.refl _ _)) fun h7 => ?_
        clear_value x6
        try dsimp -zeta only
        exact h7
      · try dsimp -zeta only
        exact Via.step (unknownAbort_via ..) rfl (Via.refl _ _)
    exact Via.ite h5 (Via.step (diverge_via ..) rfl h5)

theorem applyEnd_via (s : State) (e : JEntry) : Via [.regs, .views, .log, .mem, .fresh, .care, .links, .msgs, .drover, .net, .out] s (applyEnd s e) := by
  unfold applyEnd
  split
  · exact Via.step (endReq_via ..) rfl (Via.step (journalEnd_via ..) rfl (Via.refl _ _))
  · exact Via.refl _ _

theorem applyCommit_via (s : State) (k : Nat) (p : Nat) (e : JEntry) : Via [.regs, .views, .log, .flocks] s (applyCommit s k p e) := by
  unfold applyCommit
  exact Via.ite (Via.refl _ _) (Via.step (diverge_via ..) rfl (Via.refl _ _))

theorem applySwapEntry_via (s : State) (k : Nat) (p : Nat) (e : JEntry) : Via (allBut [.pending, .ptp, .tally, .pause, .power, .hks, .boot, .muster, .weights, .net, .rung]) s (applySwapEntry s k p e) := by
  unfold applySwapEntry
  extract_lets +onlyGivenNames -merge -underBinder y1
  try clear_value y1
  extract_lets +onlyGivenNames -merge -underBinder y2
  try clear_value y2
  extract_lets +onlyGivenNames -merge -underBinder y3
  subst y3
  try dsimp -zeta only
  refine Via.ite (?_) (?_)
  · extract_lets +onlyGivenNames -merge -underBinder x4
    refine Via.cut (t := x4) (Via.step (modFlock_via ..) rfl (Via.refl _ _)) fun h5 => ?_
    clear_value x4
    extract_lets +onlyGivenNames -merge -underBinder y6
    try clear_value y6
    exact Via.ite (Via.step (pageRest_via ..) rfl (Via.step (pageSwap_via ..) rfl h5)) h5
  · split
    · extract_lets +onlyGivenNames -merge -underBinder y7
      try clear_value y7
      extract_lets +onlyGivenNames -merge -underBinder x8
      refine Via.cut (t := x8) (Via.step (modFlock_via ..) rfl (Via.step (putDrove_via ..) rfl (Via.refl _ _))) fun h9 => ?_
      clear_value x8
      extract_lets +onlyGivenNames -merge -underBinder y10
      try clear_value y10
      exact Via.ite (Via.step (pageRest_via ..) rfl (Via.step (pageSwap_via ..) rfl h9)) h9
    · exact Via.step (stopReplay_via ..) rfl (Via.refl _ _)

theorem applyEpoch_via (s : State) (k : Nat) (p : Nat) (e : JEntry) : Via [.regs, .views, .log, .mem, .fresh, .care, .links, .msgs, .weights, .out] s (applyEpoch s k p e) := by
  unfold applyEpoch
  split
  · refine Via.ite (?_) (Via.step (stopReplay_via ..) rfl (Via.refl _ _))
    · extract_lets +onlyGivenNames -merge -underBinder y1
      try clear_value y1
      extract_lets +onlyGivenNames -merge -underBinder x2
      refine Via.cut (t := x2) (Via.step (wr0_via ..) rfl (Via.step (wr0_via ..) rfl (Via.step (wr0_via ..) rfl (Via.refl _ _)))) fun h3 => ?_
      clear_value x2
      exact Via.step (switchFlock_via ..) rfl (Via.step (wrPair_via ..) rfl h3)
  · exact Via.step (stopReplay_via ..) rfl (Via.refl _ _)

theorem applyEntry_via (s : State) (k : Nat) (p : Nat) (e : JEntry) : Via (allBut [.pending, .ptp, .tally, .pause, .power, .hks, .boot, .muster, .rung]) s (applyEntry s k p e) := by
  unfold applyEntry
  split
  · exact Via.step (applyAdmit_via ..) rfl (Via.refl _ _)
  · exact Via.step (applyAbort_via ..) rfl (Via.refl _ _)
  · exact Via.step (applyEnd_via ..) rfl (Via.refl _ _)
  · exact Via.step (applyCommit_via ..) rfl (Via.refl _ _)
  · exact Via.step (applySwapEntry_via ..) rfl (Via.refl _ _)
  · exact Via.step (applyEpoch_via ..) rfl (Via.refl _ _)
  · exact Via.step (applyConfig_via ..) rfl (Via.refl _ _)
  · exact Via.refl _ _

theorem applyEntries_via (k p n : Nat) (s : State) : Via (allBut [.pending, .ptp, .tally, .pause, .power, .hks, .boot, .muster, .rung]) s (applyEntries k p n s) := by
  induction n generalizing s with
  | zero => exact Via.refl _ _
  | succ n ih =>
    unfold applyEntries
    refine Via.ite (Via.refl _ _) ?_
    extract_lets +onlyGivenNames -merge -underBinder x
    refine Via.ite (Via.step (stopReplay_via ..) rfl (Via.refl _ _)) ?_
    split
    · exact Via.step (wr0_via ..) rfl (Via.refl _ _)
    · refine Via.ite (Via.trans (Via.step (putReplay_via ..) rfl (Via.refl _ _)) (ih _)) (Via.ite (Via.step (stopReplay_via ..) rfl (Via.refl _ _))
        (Via.ite (Via.trans (Via.step (putReplay_via ..) rfl (Via.refl _ _)) (ih _)) (Via.ite (Via.step (putReplay_via ..) rfl (Via.refl _ _))
        (Via.ite (Via.step (applyEntry_via ..) rfl (Via.refl _ _)) ?_))))
      exact Via.trans (Via.step (putReplay_via ..) rfl (Via.step (applyEntry_via ..) rfl (Via.refl _ _))) (ih _)

theorem replayFire_via (s : State) (k : Nat) : Via (allBut [.pending, .ptp, .tally, .pause, .power, .hks, .boot, .muster, .rung]) s (replayFire s k) := by
  unfold replayFire
  split
  · exact Via.step (applyEntries_via ..) rfl (Via.refl _ _)
  · exact Via.refl _ _

theorem pageFlock_via (s : State) (e : Nat × List Nat × List Nat) : Via [.free, .regs, .views, .hbmShort, .log, .mem, .fresh, .seg, .folds, .flocks, .care, .links, .drover] s (pageFlock s e) := by
  unfold pageFlock
  extract_lets +onlyGivenNames -merge -underBinder x1
  refine Via.cut (t := x1) (Via.step (openRound_via ..) rfl (Via.step (pageRest_via ..) rfl (Via.refl _ _))) fun h2 => ?_
  clear_value x1
  exact Via.ite h2 (Via.step (prepareReplay_via ..) rfl h2)

theorem pageTick_via (s : State) : Via (allBut [.pending, .ptp, .pause, .power, .hks, .boot, .muster, .rung]) s (pageTick s) := by
  unfold pageTick
  extract_lets +onlyGivenNames -merge -underBinder y1
  try clear_value y1
  extract_lets +onlyGivenNames -merge -underBinder y2
  try clear_value y2
  extract_lets +onlyGivenNames -merge -underBinder x3
  refine Via.cut (t := x3) (Via.step (setTally_via ..) rfl (Via.refl _ _)) fun h4 => ?_
  clear_value x3
  extract_lets +onlyGivenNames -merge -underBinder x5
  refine Via.cut (t := x5) (Via.step (bump_via ..) rfl h4) fun h6 => ?_
  clear_value x5
  extract_lets +onlyGivenNames -merge -underBinder y7
  try clear_value y7
  extract_lets +onlyGivenNames -merge -underBinder x8
  refine Via.cut (t := x8) (Via.forEach (fun _ _ => Via.step (closeRound_via ..) rfl (Via.refl _ _)) (Via.forEach (fun _ _ => Via.step (settleDeadlines_via ..) rfl (Via.refl _ _)) h6)) fun h9 => ?_
  clear_value x8
  extract_lets +onlyGivenNames -merge -underBinder x10
  refine Via.cut (t := x10) (Via.forEach (fun _ _ => Via.step (pageEpoch_via ..) rfl (Via.refl _ _)) (Via.forEach (fun _ _ => Via.step (pageSwap_via ..) rfl (Via.refl _ _)) h9)) fun h11 => ?_
  clear_value x10
  extract_lets +onlyGivenNames -merge -underBinder x12
  refine Via.cut (t := x12) (Via.forEach (fun _ _ => Via.step (endDraining_via ..) rfl (Via.refl _ _)) (Via.forEach (fun _ _ => Via.step (pageCkpt_via ..) rfl (Via.refl _ _)) h11)) fun h13 => ?_
  clear_value x12
  extract_lets +onlyGivenNames -merge -underBinder x14
  refine Via.cut (t := x14) (Via.forEach (fun _ _ => Via.step (pageFlock_via ..) rfl (Via.refl _ _)) h13) fun h15 => ?_
  clear_value x14
  extract_lets +onlyGivenNames -merge -underBinder x16
  refine Via.cut (t := x16) (Via.step (latchAll_via ..) rfl (Via.forEach (fun _ _ => Via.step (replayFire_via ..) rfl (Via.refl _ _)) h15)) fun h17 => ?_
  clear_value x16
  exact Via.forEach (fun _ _ => Via.step (cancelNow_via ..) rfl (Via.refl _ _)) h17

theorem execPageTick_via (s : State) : Reach (allBut [.pending, .ptp, .pause, .power, .hks, .boot, .muster, .rung]) s (execPageTick s) := by
  unfold execPageTick
  exact Reach.ite (Reach.next (orderLog_via _ rfl (Via.step (pageTick_via ..) rfl (Via.refl _ _)))) (Reach.next (Via.refl _ _))

end Sys2Proof.Machine
end

