-- ==== Sys2Proof/Laws/ViaTickFire.lean ====
section
/-! SUPPORT. What each operation of Machine/TickFire.lean can touch: the pieces it names, and the memories keep their canonical form. -/

namespace Sys2Proof.Machine

open Sys2Proof

theorem endDeadline_via (s : State) (k : Nat) : Via [.regs, .views, .log, .folds, .flocks, .tally] s (endDeadline s k) := by
  unfold endDeadline
  extract_lets +onlyGivenNames -merge -underBinder y1
  try clear_value y1
  extract_lets +onlyGivenNames -merge -underBinder y2
  try clear_value y2
  extract_lets +onlyGivenNames -merge -underBinder x3
  refine Via.cut (t := x3) (Via.step (recordSlack_via ..) rfl (Via.refl _ _)) fun h4 => ?_
  clear_value x3
  exact Via.ite (Via.step (resolveFault_via ..) rfl h4) h4

theorem endAwaited_via (s : State) (k : Nat) : Via [.regs, .flocks] s (endAwaited s k) := by
  unfold endAwaited
  exact Via.ite (Via.refl _ _) (Via.step (stepFault_via ..) rfl (Via.refl _ _))

theorem endTick_via (s : State) : Via [.free, .regs, .views, .log, .folds, .flocks, .tally] s (endTick s) := by
  unfold endTick
  extract_lets +onlyGivenNames -merge -underBinder x1
  refine Via.cut (t := x1) (Via.forEach (fun _ _ => Via.step (endShare_via ..) rfl (Via.refl _ _)) (Via.refl _ _)) fun h2 => ?_
  clear_value x1
  extract_lets +onlyGivenNames -merge -underBinder x3
  refine Via.cut (t := x3) (Via.forEach (fun _ _ => Via.forEach (fun _ _ => Via.step (endFold_via ..) rfl (Via.refl _ _)) (Via.refl _ _)) h2) fun h4 => ?_
  clear_value x3
  exact Via.forEach (fun _ _ => Via.ite (Via.refl _ _) (Via.step (endAwaited_via ..) rfl (Via.step (endDeadline_via ..) rfl (Via.refl _ _)))) h4

theorem clearTick_via (s : State) : Via [.regs, .folds, .pause, .links] s (clearTick s) := by
  unfold clearTick
  extract_lets +onlyGivenNames -merge -underBinder y1
  try clear_value y1
  extract_lets +onlyGivenNames -merge -underBinder x2
  refine Via.cut (t := x2) (Via.forEach (fun _ _ => Via.step (loadsTo_via ..) rfl (Via.refl _ _)) (Via.refl _ _)) fun h3 => ?_
  clear_value x2
  extract_lets +onlyGivenNames -merge -underBinder y4
  try clear_value y4
  extract_lets +onlyGivenNames -merge -underBinder x5
  refine Via.cut (t := x5) (Via.step (setPause_via ..) rfl h3) fun h6 => ?_
  clear_value x5
  extract_lets +onlyGivenNames -merge -underBinder x7
  refine Via.cut (t := x7) (Via.forEach (?_) h6) fun h8 => ?_
  · intro s9 a10
    extract_lets +onlyGivenNames -merge -underBinder y11
    try clear_value y11
    exact Via.step (wr0_via ..) rfl (Via.step (wr0_via ..) rfl (Via.step (wr0_via ..) rfl (Via.refl _ _)))
  clear_value x7
  extract_lets +onlyGivenNames -merge -underBinder x12
  refine Via.cut (t := x12) (Via.step (setFolds_via ..) rfl h8) fun h13 => ?_
  clear_value x12
  exact Via.step (setLinks_via ..) rfl h13

theorem moveTime_via (s : State) : Via [.free, .regs, .ptp, .flocks, .tally] s (moveTime s) := by
  unfold moveTime
  extract_lets +onlyGivenNames -merge -underBinder y1
  try clear_value y1
  extract_lets +onlyGivenNames -merge -underBinder x2
  refine Via.cut (t := x2) (Via.step (passTime_via ..) rfl (Via.refl _ _)) fun h3 => ?_
  clear_value x2
  extract_lets +onlyGivenNames -merge -underBinder y4
  try clear_value y4
  extract_lets +onlyGivenNames -merge -underBinder x5
  refine Via.cut (t := x5) (Via.step (setTally_via ..) rfl h3) fun h6 => ?_
  clear_value x5
  extract_lets +onlyGivenNames -merge -underBinder x7
  refine Via.cut (t := x7) (Via.step (setFlocks_via ..) rfl h6) fun h8 => ?_
  clear_value x7
  exact Via.step (wrPair_via ..) rfl (Via.step (wrPair_via ..) rfl (Via.step (showNum_via ..) rfl h8))

theorem takeBase_via (s : State) : Via [.regs, .tally] s (takeBase s) := by
  unfold takeBase
  exact Via.ite (Via.step (showNum_via ..) rfl (Via.step (setTally_via ..) rfl (Via.step (setTallyState_via ..) rfl (Via.refl _ _)))) (Via.refl _ _)

theorem cleanReplay_via (s : State) (f : Nat) : Via [.regs, .views, .log, .folds, .flocks, .care] s (cleanReplay s f) := by
  unfold cleanReplay
  extract_lets +onlyGivenNames -merge -underBinder y1
  try clear_value y1
  split
  · exact Via.refl _ _
  · refine Via.ite (?_) (Via.refl _ _)
    · extract_lets +onlyGivenNames -merge -underBinder x2
      refine Via.cut (t := x2) (Via.step (logWrite_via ..) rfl (Via.step (errEvent_via ..) rfl (Via.refl _ _))) fun h3 => ?_
      clear_value x2
      split
      · exact Via.step (takeSpare_via ..) rfl (Via.step (bump_via ..) rfl h3)
      · exact h3

theorem commitFold_via (s : State) (f : Nat) : Via [.regs, .views, .log, .folds, .flocks, .care] s (commitFold s f) := by
  unfold commitFold
  extract_lets +onlyGivenNames -merge -underBinder x1
  refine Via.cut (t := x1) (Via.step (cleanReplay_via ..) rfl (Via.step (wr0_via ..) rfl (Via.refl _ _))) fun h2 => ?_
  clear_value x1
  exact Via.step (modFold_via ..) rfl h2

theorem commitStep_via (s : State) (k : Nat) : Via (allBut [.pending, .ptp, .hbmShort, .seg, .droves, .tally, .pause, .power, .hks, .boot, .muster, .weights, .rung]) s (commitStep s k) := by
  unfold commitStep
  extract_lets +onlyGivenNames -merge -underBinder y1
  try clear_value y1
  extract_lets +onlyGivenNames -merge -underBinder y2
  try clear_value y2
  extract_lets +onlyGivenNames -merge -underBinder x3
  refine Via.cut (t := x3) (Via.step (wr_via ..) rfl (Via.step (wr_via ..) rfl (Via.refl _ _))) fun h4 => ?_
  clear_value x3
  extract_lets +onlyGivenNames -merge -underBinder x5
  refine Via.cut (t := x5) (Via.step (modFlock_via ..) rfl h4) fun h6 => ?_
  clear_value x5
  extract_lets +onlyGivenNames -merge -underBinder x7
  refine Via.cut (t := x7) (Via.ite (Via.step (settleResults_via ..) rfl h6) (Via.step (mirrorStep_via ..) rfl h6)) fun h8 => ?_
  clear_value x7
  extract_lets +onlyGivenNames -merge -underBinder x9
  refine Via.cut (t := x9) (Via.forEach (fun _ _ => Via.step (commitFold_via ..) rfl (Via.refl _ _)) h8) fun h10 => ?_
  clear_value x9
  extract_lets +onlyGivenNames -merge -underBinder x11
  refine Via.cut (t := x11) (Via.step (endReplay_via ..) rfl h10) fun h12 => ?_
  clear_value x11
  exact Via.step (modFlock_via ..) rfl h12

theorem restoreTiles_via (s : State) (f : Nat) : Via [.folds] s (restoreTiles s f) := by
  unfold restoreTiles
  extract_lets +onlyGivenNames -merge -underBinder y1
  try clear_value y1
  exact Via.step (modFold_via ..) rfl (Via.refl _ _)

theorem replayFold_via (s : State) (f : Nat) : Via [.regs, .folds] s (replayFold s f) := by
  unfold replayFold
  extract_lets +onlyGivenNames -merge -underBinder x1
  refine Via.cut (t := x1) (Via.ite (Via.refl _ _) (Via.step (wr0_via ..) rfl (Via.refl _ _))) fun h2 => ?_
  clear_value x1
  extract_lets +onlyGivenNames -merge -underBinder x3
  refine Via.cut (t := x3) (Via.step (restoreTiles_via ..) rfl h2) fun h4 => ?_
  clear_value x3
  exact Via.step (modFold_via ..) rfl h4

theorem endWhole_via (s : State) (k : Nat) : Via [.regs, .pause] s (endWhole s k) := by
  unfold endWhole
  extract_lets +onlyGivenNames -merge -underBinder y1
  try clear_value y1
  extract_lets +onlyGivenNames -merge -underBinder y2
  try clear_value y2
  extract_lets +onlyGivenNames -merge -underBinder x3
  refine Via.cut (t := x3) (Via.step (setPause_via ..) rfl (Via.refl _ _)) fun h4 => ?_
  clear_value x3
  exact Via.forEach (fun _ _ => Via.step (bump_via ..) rfl (Via.refl _ _)) h4

theorem replayStep_via (s : State) (k : Nat) : Via [.regs, .views, .log, .mem, .fresh, .folds, .flocks, .pause, .care, .links, .msgs, .drover, .out] s (replayStep s k) := by
  unfold replayStep
  extract_lets +onlyGivenNames -merge -underBinder x1
  refine Via.cut (t := x1) (Via.step (modFlock_via ..) rfl (Via.refl _ _)) fun h2 => ?_
  clear_value x1
  extract_lets +onlyGivenNames -merge -underBinder x3
  refine Via.cut (t := x3) (Via.step (discardBlock_via ..) rfl h2) fun h4 => ?_
  clear_value x3
  extract_lets +onlyGivenNames -merge -underBinder y5
  try clear_value y5
  extract_lets +onlyGivenNames -merge -underBinder x6
  refine Via.cut (t := x6) (Via.step (putServing_via ..) rfl h4) fun h7 => ?_
  clear_value x6
  exact Via.step (endWhole_via ..) rfl (Via.forEach (fun _ _ => Via.step (replayFold_via ..) rfl (Via.refl _ _)) (Via.step (restoreLines_via ..) rfl h7))

theorem holdFlock_via (s : State) (k : Nat) : Via [.regs, .views, .log, .mem, .fresh, .folds, .droves, .flocks, .care, .links, .msgs, .drover, .out] s (holdFlock s k) := by
  unfold holdFlock
  extract_lets +onlyGivenNames -merge -underBinder x1
  refine Via.cut (t := x1) (Via.step (discardBlock_via ..) rfl (Via.refl _ _)) fun h2 => ?_
  clear_value x1
  extract_lets +onlyGivenNames -merge -underBinder x3
  refine Via.cut (t := x3) (Via.forEach (fun _ _ => Via.step (modFold_via ..) rfl (Via.refl _ _)) h2) fun h4 => ?_
  clear_value x3
  extract_lets +onlyGivenNames -merge -underBinder x5
  refine Via.cut (t := x5) (Via.forEach (fun _ _ => Via.step (putDrove_via ..) rfl (Via.refl _ _)) h4) fun h6 => ?_
  clear_value x5
  exact Via.step (modFlock_via ..) rfl h6

theorem commitDeadlines_via (s : State) (k : Nat) : Via [.regs, .views, .log, .mem, .fresh, .care, .links, .msgs, .drover, .net, .out] s (commitDeadlines s k) := by
  unfold commitDeadlines
  exact Via.ite (Via.step (settleDeadlines_via ..) rfl (Via.refl _ _)) (Via.refl _ _)

theorem endStep_via (s : State) (k : Nat) : Via (allBut [.pending, .ptp, .hbmShort, .seg, .tally, .power, .hks, .boot, .muster, .weights, .rung]) s (endStep s k) := by
  unfold endStep
  extract_lets +onlyGivenNames -merge -underBinder y1
  try clear_value y1
  exact Via.ite (Via.ite (Via.step (commitStep_via ..) rfl (Via.refl _ _)) (Via.ite (Via.step (replayStep_via ..) rfl (Via.refl _ _)) (Via.step (holdFlock_via ..) rfl (Via.refl _ _)))) (Via.step (modFlock_via ..) rfl (Via.refl _ _))

theorem fillRest_via (s : State) (x : Fill) : Via [.free] s (fillRest s x).2 := by
  unfold fillRest
  refine Via.ite2 (Via.refl _ _) (?_)
  · split
    · rename_i v1 v2 e3
      refine Via.cut (Via.pair e3 (Via.step (drawNat_via ..) rfl (Via.refl _ _))) fun h4 => ?_
      try dsimp -zeta only
      exact h4

theorem wholeAttempt_via (s : State) (k : Nat) (x : Fill) : Via [.regs, .folds, .flocks, .pause, .care] s (wholeAttempt s k x) := by
  unfold wholeAttempt
  extract_lets +onlyGivenNames -merge -underBinder y1
  try clear_value y1
  extract_lets +onlyGivenNames -merge -underBinder y2
  try clear_value y2
  extract_lets +onlyGivenNames -merge -underBinder y3
  try clear_value y3
  extract_lets +onlyGivenNames -merge -underBinder x4
  refine Via.cut (t := x4) (Via.step (setCare_via ..) rfl (Via.refl _ _)) fun h5 => ?_
  clear_value x4
  extract_lets +onlyGivenNames -merge -underBinder x6
  refine Via.cut (t := x6) (Via.step (stepFault_via ..) rfl h5) fun h7 => ?_
  clear_value x6
  extract_lets +onlyGivenNames -merge -underBinder x8
  refine Via.cut (t := x8) (Via.forEach (fun _ _ => Via.step (modFold_via ..) rfl (Via.refl _ _)) h7) fun h9 => ?_
  clear_value x8
  extract_lets +onlyGivenNames -merge -underBinder x10
  refine Via.cut (t := x10) (Via.step (bump_via ..) rfl h9) fun h11 => ?_
  clear_value x10
  exact Via.step (askPause_via ..) rfl h11

theorem replaySwitch_via (s : State) (k : Nat) (x : Fill) : Via [.free, .regs, .views, .log, .mem, .fresh, .seg, .folds, .flocks, .pause, .care, .drover] s (replaySwitch s k x) := by
  unfold replaySwitch
  split
  · rename_i v1 v2 e3
    refine Via.cut (Via.pair e3 (Via.step (fillRest_via ..) rfl (Via.refl _ _))) fun h4 => ?_
    exact Via.ite (Via.step (wholeAttempt_via ..) rfl h4) (Via.ite (Via.step (switchFold_via ..) rfl h4) (Via.step (pauseSwitch_via ..) rfl (Via.step (setCare_via ..) rfl h4)))

theorem stepSwitches_via (s : State) (k : Nat) : Via [.free, .regs, .views, .log, .mem, .fresh, .seg, .folds, .flocks, .pause, .care, .drover] s (stepSwitches s k) := by
  unfold stepSwitches
  extract_lets +onlyGivenNames -merge -underBinder y1
  try clear_value y1
  exact Via.ite (Via.forEach (fun _ _ => Via.step (replaySwitch_via ..) rfl (Via.refl _ _)) (Via.refl _ _)) (Via.forEach (fun _ _ => Via.step (switchFold_via ..) rfl (Via.refl _ _)) (Via.refl _ _))

theorem freeSwitches_via (s : State) : Via [.regs, .views, .log, .mem, .fresh, .seg, .folds, .pause, .care, .drover] s (freeSwitches s) := by
  unfold freeSwitches
  exact Via.forEach (fun _ _ => Via.step (switchFold_via ..) rfl (Via.refl _ _)) (Via.refl _ _)

theorem winStore_via (s : State) (p w : Nat) (bs : List Byte) : Via [.mem] s (winStore s p w bs) := by
  induction bs generalizing s w with
  | nil => exact Via.refl _ _
  | cons b bs ih =>
    unfold winStore
    split
    · exact (writeByte_via ..).trans (ih _ _)
    · exact ih _ _

theorem saveTiles_via (s : State) (f : Nat) (slot : Nat) (p : Nat) (m : Nat) : Via [.mem] s (saveTiles s f slot p m) := by
  unfold saveTiles
  exact Via.ite (Via.refl _ _) (Via.forEach (fun _ _ => Via.step (winStore_via ..) rfl (Via.refl _ _)) (Via.refl _ _))

theorem loadTiles_via (s : State) (f : Nat) (slot : Nat) (dg : List Byte) (p : Nat) (m : Nat) : Via [.folds] s (loadTiles s f slot dg p m) := by
  unfold loadTiles
  refine Via.ite (Via.refl _ _) (Via.forEach (?_) (Via.refl _ _))
  · intro s1 a2
    extract_lets +onlyGivenNames -merge -underBinder y3
    try clear_value y3
    exact Via.step (modTile_via ..) rfl (Via.refl _ _)

theorem contextFold_via (s : State) (f : Nat) (d : Drove) (g : Segment) : Via [.regs, .mem, .folds] s (contextFold s f d g) := by
  unfold contextFold
  extract_lets +onlyGivenNames -merge -underBinder y1
  try clear_value y1
  refine Via.ite (Via.refl _ _) (?_)
  · extract_lets +onlyGivenNames -merge -underBinder x2
    refine Via.cut (t := x2) (?_) fun h3 => ?_
    · subst x2
      split
      · exact Via.step (modFold_via ..) rfl (Via.step (saveTiles_via ..) rfl (Via.refl _ _))
      · exact Via.refl _ _
    clear_value x2
    extract_lets +onlyGivenNames -merge -underBinder x4
    refine Via.cut (t := x4) (Via.step (modFold_via ..) rfl h3) fun h5 => ?_
    clear_value x4
    extract_lets +onlyGivenNames -merge -underBinder x6
    refine Via.cut (t := x6) (Via.step (markCarried_via ..) rfl (Via.step (loadTiles_via ..) rfl h5)) fun h7 => ?_
    clear_value x6
    exact Via.step (wr0_via ..) rfl h7

theorem carryCopy_via (s : State) (f : Nat) : Via [.folds] s (carryCopy s f) := by
  unfold carryCopy
  extract_lets +onlyGivenNames -merge -underBinder y1
  try clear_value y1
  exact Via.step (modFold_via ..) rfl (Via.refl _ _)

theorem startFold_via (k : Nat) (s : State) (f : Nat) : Via [.regs, .mem, .folds] s (startFold k s f) := by
  unfold startFold
  extract_lets +onlyGivenNames -merge -underBinder y1
  try clear_value y1
  split
  · exact Via.refl _ _
  · extract_lets +onlyGivenNames -merge -underBinder x2
    refine Via.cut (t := x2) (Via.ite (Via.refl _ _) (Via.step (modFold_via ..) rfl (Via.refl _ _))) fun h3 => ?_
    clear_value x2
    extract_lets +onlyGivenNames -merge -underBinder x4
    refine Via.cut (t := x4) (?_) fun h5 => ?_
    · subst x4
      split
      · exact Via.ite (Via.step (contextFold_via ..) rfl h3) h3
      · exact h3
    clear_value x4
    extract_lets +onlyGivenNames -merge -underBinder x6
    refine Via.cut (t := x6) (Via.ite h5 (Via.step (carryCopy_via ..) rfl h5)) fun h7 => ?_
    clear_value x6
    extract_lets +onlyGivenNames -merge -underBinder x8
    refine Via.cut (t := x8) (Via.step (modFold_via ..) rfl h7) fun h9 => ?_
    clear_value x8
    exact Via.step (wr0_via ..) rfl h9

theorem switchLate_via (s : State) (x : Fill) : Via [.regs, .views, .log, .mem, .fresh, .seg, .folds, .care, .drover] s (switchLate s x) := by
  unfold switchLate
  extract_lets +onlyGivenNames -merge -underBinder x1
  refine Via.cut (t := x1) (Via.step (switchNow_via ..) rfl (Via.refl _ _)) fun h2 => ?_
  clear_value x1
  split
  · exact Via.step (startFold_via ..) rfl h2
  · exact h2

theorem execSpareFillDone_via (spare : Fin 68) (bad : List LineErr) (s : State) : Reach (allBut [.pending, .ptp, .hbmShort, .droves, .power, .hks, .boot, .links, .msgs, .muster, .net, .rung, .out]) s (execSpareFillDone spare bad s) := by
  unfold execSpareFillDone
  split
  · extract_lets +onlyGivenNames -merge -underBinder x1
    refine Reach.cut (t := x1) (Via.step (finishFill_via ..) rfl (Via.refl _ _)) fun h2 => ?_
    clear_value x1
    exact Reach.next (Via.ite (Via.step (switchLate_via ..) rfl h2) h2)
  · exact Reach.next (Via.refl _ _)

theorem startStep_via (s : State) (k : Nat) : Via [.regs, .flocks] s (startStep s k) := by
  unfold startStep
  exact Via.step (startReplay_via ..) rfl (Via.step (modFlock_via ..) rfl (Via.refl _ _))

theorem startFolds_via (s : State) (k : Nat) : Via [.free, .regs, .views, .log, .mem, .fresh, .seg, .folds, .flocks, .pause, .care, .drover] s (startFolds s k) := by
  unfold startFolds
  extract_lets +onlyGivenNames -merge -underBinder x1
  refine Via.cut (t := x1) (Via.step (takeBlock_via ..) rfl (Via.refl _ _)) fun h2 => ?_
  clear_value x1
  extract_lets +onlyGivenNames -merge -underBinder y3
  try clear_value y3
  extract_lets +onlyGivenNames -merge -underBinder x4
  refine Via.cut (t := x4) (Via.step (setCare_via ..) rfl h2) fun h5 => ?_
  clear_value x4
  extract_lets +onlyGivenNames -merge -underBinder x6
  refine Via.cut (t := x6) (Via.forEach (fun _ _ => Via.step (modFold_via ..) rfl (Via.refl _ _)) h5) fun h7 => ?_
  clear_value x6
  extract_lets +onlyGivenNames -merge -underBinder x8
  refine Via.cut (t := x8) (Via.step (stepSwitches_via ..) rfl h7) fun h9 => ?_
  clear_value x8
  exact Via.forEach (fun _ _ => Via.step (startFold_via ..) rfl (Via.refl _ _)) h9

theorem replayHold_via (s : State) (k : Nat) : Via [.regs, .flocks, .tally] s (replayHold s k) := by
  unfold replayHold
  extract_lets +onlyGivenNames -merge -underBinder y1
  try clear_value y1
  extract_lets +onlyGivenNames -merge -underBinder y2
  try clear_value y2
  exact Via.ite (Via.step (raiseHold_via ..) rfl (Via.step (putFlock_via ..) rfl (Via.refl _ _))) (Via.refl _ _)

theorem emptyEpoch_via (s : State) (i : Nat) : Via [.regs, .weights] s (emptyEpoch s i) := by
  unfold emptyEpoch
  extract_lets +onlyGivenNames -merge -underBinder y1
  try clear_value y1
  extract_lets +onlyGivenNames -merge -underBinder y2
  try clear_value y2
  extract_lets +onlyGivenNames -merge -underBinder y3
  try clear_value y3
  extract_lets +onlyGivenNames -merge -underBinder x4
  refine Via.cut (t := x4) (Via.ite (Via.refl _ _) (Via.step (wr_via ..) rfl (Via.refl _ _))) fun h5 => ?_
  clear_value x4
  extract_lets +onlyGivenNames -merge -underBinder x6
  refine Via.cut (t := x6) (Via.step (wr_via ..) rfl (Via.step (wr_via ..) rfl (Via.step (wr_via ..) rfl h5))) fun h7 => ?_
  clear_value x6
  extract_lets +onlyGivenNames -merge -underBinder x8
  refine Via.cut (t := x8) (Via.step (wr_via ..) rfl (Via.step (wr_via ..) rfl (Via.step (wr_via ..) rfl (Via.step (wr_via ..) rfl h7)))) fun h9 => ?_
  clear_value x8
  exact Via.step (setWeights_via ..) rfl h9

theorem retireEpoch_via (s : State) (i : Nat) : Via [.regs, .weights] s (retireEpoch s i) := by
  unfold retireEpoch
  exact Via.ite (Via.refl _ _) (Via.step (emptyEpoch_via ..) rfl (Via.refl _ _))

theorem altLink_via (s : State) (e : Nat × Link) : Via [.regs, .links] s (altLink s e) := by
  unfold altLink
  exact Via.ite (Via.step (modLink_via ..) rfl (Via.step (wr0_via ..) rfl (Via.refl _ _))) (Via.refl _ _)

theorem altLinks_via (s : State) : Via [.regs, .links] s (altLinks s) := by
  unfold altLinks
  exact Via.forEach (fun _ _ => Via.ite (Via.step (bump_via ..) rfl (Via.refl _ _)) (Via.refl _ _)) (Via.forEach (fun _ _ => Via.step (altLink_via ..) rfl (Via.refl _ _)) (Via.refl _ _))

theorem newPeriod_via (s : State) : Via [.regs] s (newPeriod s) := by
  unfold newPeriod
  refine Via.ite (Via.step (setIdle_via ..) rfl (Via.refl _ _)) (Via.ite (?_) (Via.refl _ _))
  · split
    · exact Via.step (wr0_via ..) rfl (Via.step (wr0_via ..) rfl (Via.refl _ _))
    · exact Via.refl _ _

theorem duePage_via (s : State) (k : Nat) : Via [.free, .flocks] s (duePage s k) := by
  unfold duePage
  extract_lets +onlyGivenNames -merge -underBinder y1
  try clear_value y1
  refine Via.ite (?_) (Via.refl _ _)
  · split
    · rename_i v2 v3 e4
      refine Via.cut (Via.pair e4 (Via.ite2 (Via.step (drawNat_via ..) rfl (Via.refl _ _)) (Via.refl _ _))) fun h5 => ?_
      exact Via.ite (Via.step (putFlock_via ..) rfl h5) h5

theorem boundary_via (s : State) : Via [.regs, .views, .log, .mem, .fresh, .seg, .folds, .pause, .care, .links, .drover, .weights] s (boundary s) := by
  unfold boundary
  extract_lets +onlyGivenNames -merge -underBinder x1
  refine Via.cut (t := x1) (Via.step (setFresh_via ..) rfl (Via.refl _ _)) fun h2 => ?_
  clear_value x1
  extract_lets +onlyGivenNames -merge -underBinder x3
  refine Via.cut (t := x3) (Via.forEach (fun _ _ => Via.forEach (fun _ _ => Via.step (boundaryBoot_via ..) rfl (Via.refl _ _)) (Via.refl _ _)) h2) fun h4 => ?_
  clear_value x3
  extract_lets +onlyGivenNames -merge -underBinder y5
  try clear_value y5
  extract_lets +onlyGivenNames -merge -underBinder x6
  refine Via.cut (t := x6) (Via.forEach (fun _ _ => Via.step (retireEpoch_via ..) rfl (Via.refl _ _)) (Via.step (setWeights_via ..) rfl h4)) fun h7 => ?_
  clear_value x6
  extract_lets +onlyGivenNames -merge -underBinder x8
  refine Via.cut (t := x8) (Via.step (altLinks_via ..) rfl h7) fun h9 => ?_
  clear_value x8
  extract_lets +onlyGivenNames -merge -underBinder x10
  refine Via.cut (t := x10) (Via.step (freeSwitches_via ..) rfl h9) fun h11 => ?_
  clear_value x10
  exact Via.forEach (fun _ _ => Via.step (boundaryCal_via ..) rfl (Via.refl _ _)) h11

theorem boundaryPower_via (s : State) : Via [.regs, .views, .log, .power, .out] s (boundaryPower s) := by
  unfold boundaryPower
  exact Via.step (boundaryState_via ..) rfl (Via.step (boundaryThrottle_via ..) rfl (Via.refl _ _))

theorem sendTick_via (s : State) : Via [.regs, .links, .out] s (sendTick s) := by
  unfold sendTick
  exact Via.ite (Via.step (sendDown_via ..) rfl (Via.refl _ _)) (Via.refl _ _)

theorem startSteps_via (s : State) (ks : List Nat) : Via (allBut [.pending, .ptp, .tally, .power, .hks, .boot, .muster, .rung]) s (startSteps s ks) := by
  unfold startSteps
  extract_lets +onlyGivenNames -merge -underBinder x1
  refine Via.cut (t := x1) (Via.forEach (fun _ _ => Via.step (startStep_via ..) rfl (Via.refl _ _)) (Via.refl _ _)) fun h2 => ?_
  clear_value x1
  extract_lets +onlyGivenNames -merge -underBinder x3
  refine Via.cut (t := x3) (Via.ite (Via.step (latchAll_via ..) rfl (Via.forEach (fun _ _ => Via.step (replayFire_via ..) rfl (Via.refl _ _)) h2)) h2) fun h4 => ?_
  clear_value x3
  exact Via.forEach (fun _ _ => Via.step (startFolds_via ..) rfl (Via.refl _ _)) h4

theorem fireRun_via (s : State) : Via (allBut [.pending, .hks, .boot, .muster, .rung]) s (fireRun s) := by
  unfold fireRun
  extract_lets +onlyGivenNames -merge -underBinder x1
  refine Via.cut (t := x1) (Via.step (settleSwaps_via ..) rfl (Via.step (endTick_via ..) rfl (Via.refl _ _))) fun h2 => ?_
  clear_value x1
  extract_lets +onlyGivenNames -merge -underBinder y3
  try clear_value y3
  extract_lets +onlyGivenNames -merge -underBinder y4
  try clear_value y4
  extract_lets +onlyGivenNames -merge -underBinder y5
  try clear_value y5
  extract_lets +onlyGivenNames -merge -underBinder x6
  refine Via.cut (t := x6) (Via.step (moveTime_via ..) rfl (Via.step (clearTick_via ..) rfl h2)) fun h7 => ?_
  clear_value x6
  extract_lets +onlyGivenNames -merge -underBinder x8
  refine Via.cut (t := x8) (Via.step (boundary_via ..) rfl h7) fun h9 => ?_
  clear_value x8
  extract_lets +onlyGivenNames -merge -underBinder x10
  refine Via.cut (t := x10) (Via.forEach (fun _ _ => Via.step (modFlock_via ..) rfl (Via.refl _ _)) h9) fun h11 => ?_
  clear_value x10
  extract_lets +onlyGivenNames -merge -underBinder x12
  refine Via.cut (t := x12) (Via.step (loseLines_via ..) rfl h11) fun h13 => ?_
  clear_value x12
  extract_lets +onlyGivenNames -merge -underBinder x14
  refine Via.cut (t := x14) (Via.forEach (fun _ _ => Via.step (endStep_via ..) rfl (Via.refl _ _)) (Via.forEach (fun _ _ => Via.step (commitDeadlines_via ..) rfl (Via.refl _ _)) h13)) fun h15 => ?_
  clear_value x14
  extract_lets +onlyGivenNames -merge -underBinder x16
  refine Via.cut (t := x16) (Via.forEach (fun _ _ => Via.step (duePage_via ..) rfl (Via.refl _ _)) h15) fun h17 => ?_
  clear_value x16
  extract_lets +onlyGivenNames -merge -underBinder x18
  refine Via.cut (t := x18) (Via.step (boundaryPower_via ..) rfl (Via.step (idleSwitches_via ..) rfl (Via.step (newPeriod_via ..) rfl h17))) fun h19 => ?_
  clear_value x18
  extract_lets +onlyGivenNames -merge -underBinder y20
  try clear_value y20
  extract_lets +onlyGivenNames -merge -underBinder x21
  refine Via.cut (t := x21) (Via.step (startSteps_via ..) rfl h19) fun h22 => ?_
  clear_value x21
  extract_lets +onlyGivenNames -merge -underBinder x23
  refine Via.cut (t := x23) (Via.forEach (fun _ _ => Via.step (askPause_via ..) rfl (Via.step (bump_via ..) rfl (Via.refl _ _))) h22) fun h24 => ?_
  clear_value x23
  exact Via.step (predict_via ..) rfl (Via.forEach (fun _ _ => Via.step (replayHold_via ..) rfl (Via.refl _ _)) h24)

theorem execTickFire_via (s : State) : Reach (allBut [.pending, .hks, .boot, .muster, .rung]) s (execTickFire s) := by
  unfold execTickFire
  refine Reach.ite (Reach.next (Via.step (lockTally_via ..) rfl (Via.refl _ _))) (Reach.ite (?_) (Reach.next (Via.refl _ _)))
  · extract_lets +onlyGivenNames -merge -underBinder x1
    refine Reach.cut (t := x1) (Via.step (passStretch_via ..) rfl (Via.refl _ _)) fun h2 => ?_
    clear_value x1
    exact Reach.ite (Reach.next (orderLog_via _ rfl (Via.step (sendTick_via ..) rfl (Via.step (fireRun_via ..) rfl h2)))) (Reach.next (orderLog_via _ rfl (Via.step (sendTick_via ..) rfl (Via.step (takeBase_via ..) rfl (Via.step (latchAll_via ..) rfl (Via.step (boundaryPower_via ..) rfl (Via.step (newPeriod_via ..) rfl (Via.step (boundary_via ..) rfl (Via.step (moveTime_via ..) rfl (Via.step (clearTick_via ..) rfl (Via.forEach (fun _ _ => Via.step (endShare_via ..) rfl (Via.refl _ _)) h2)))))))))))

end Sys2Proof.Machine
end

