-- ==== Sys2Proof/Laws/ViaStep.lean ====
section
/-! SUPPORT. What each operation of Machine/Step.lean can touch: the pieces it names, and the memories keep their canonical form. -/

namespace Sys2Proof.Machine

open Sys2Proof

theorem State.withFetchWord_via (s : State) (nbits : Nat) (w : Nat) : Via [.pending] s (State.withFetchWord s nbits w) := by
  unfold State.withFetchWord
  split
  · exact Via.step (setPending_via ..) rfl (Via.refl _ _)
  · exact Via.refl _ _

end Sys2Proof.Machine
end

