-- ==== Sys2Proof/WellFormed.lean ====
section
/-! DEFINITION. Which commands a sender may send: relations between operands that their types do not say. Every command has a
meaning, well formed or not. -/

namespace Sys2Proof

/-- A line in error is a 64-byte line with 1 to 6 bad symbols (R256 to R258). -/
def LineErr.ok (e : LineErr) : Bool := e.addr % 64 == 0 && decide (1 ≤ e.syms) && decide (e.syms ≤ 6)

/-- A marker's fields fit their bytes, and it names each flock once and devices by 15-bit IDs (R208). -/
def Marker.ok (m : Marker) : Bool :=
  decide (m.domain < 65536) && decide (m.sender < 32768) && decide (m.hop < 256) && decide (m.num < 2 ^ 64) && decide (m.time < 2 ^ 64)
    && decide ((m.flocks.map (·.flock)).Nodup) && decide ((m.ready.map (·.1)).Nodup)
    && m.slacks.all (fun e => decide (e.dev < 32768))

/-- The digests of a SWAP marker have 32 bytes (R213). -/
def SwapFields.ok (w : SwapFields) : Bool := w.outgoing.length == 32 && w.incoming.length == 32

/-- A flit carries 256 bytes (R323). -/
def Flit.ok (f : Flit) : Bool := f.payload.length == 256

/-- A calibration gives each of 16 arrays the trims of its 256 columns (R69, R71). -/
def calOk (rs : List CalResult) : Bool := rs.length == 16
  && rs.all (fun r => r.g.length == 256 && r.o.length == 256 && r.zs.length == 256 && r.zq.length == 256)

/-- A sweep measures the four references of a working converter (R428). -/
def sweepOk (xs : List Rat) : Bool := xs.length == 4 || xs.isEmpty

/-- A frame is as long as its headers and its payload (R343). -/
def EthFrame.ok (f : EthFrame) : Bool := f.len == 14 + (if f.vlan.isSome then 4 else 0) + f.payload.length

/-- A path MTU that the device negotiates (R346). -/
def CmMsg.ok (m : CmMsg) : Bool := !m.setup || [1024, 2048, 4096].contains m.mtu

/-- Lengths of a request fit 32 bits (R346). -/
def RdmaReq.ok (r : RdmaReq) : Bool := decide (r.len < 2 ^ 32) && decide (r.addr < 2 ^ 64)

/-- A body fits its message unless the message is marked bad (R353). -/
def bodyOk (h : MsgHead) (body : List Byte) : Bool := h.bad || Nat.ble body.length 65504

/-- What a sender may send (R258, R323, R353, R359): the relations between operands that their types do not say. -/
def Instr.wf : Instr → Bool
  | .pld _ _ _ _ _ _ lines => lines.all LineErr.ok
  | .hrd _ _ _ lines => lines.all LineErr.ok
  | .xfer _ _ r => r.lines.all LineErr.ok
  | .hwr _ _ r => r.lines.all LineErr.ok
  | .lsnd _ _ r => r.lines.all LineErr.ok
  | .bootCalibration _ results => calOk results
  | .report _ m => m.body.ok
  | .slack _ m => m.body.ok
  | .decide _ m => m.body.ok
  | .credit _ m => m.body.ok
  | .tick _ m _ => m.body.ok
  | .commit _ m => m.body.ok
  | .droveLoad h body => bodyOk h body
  | .droveUnload h body => bodyOk h body
  | .droveSwap h body => bodyOk h body
  | .swapAnnounce _ w => w.body.ok && w.swap.ok
  | .swapConfirm _ w => w.body.ok && w.swap.ok
  | .swapRefuse _ w => w.body.ok && w.swap.ok
  | .admitMsg h body => bodyOk h body
  | .abort h body => bodyOk h body
  | .scrub line => line.ok
  | .epochOpen h body => bodyOk h body
  | .shardFetch h body => bodyOk h body
  | .shardPush h body => bodyOk h body
  | .arrivalCancel h body => bodyOk h body
  | .epochSwitch h body => bodyOk h body
  | .epochRetire h body => bodyOk h body
  | .nvmeCompletion _ cid _ _ => Nat.blt cid 65536
  | .nvmeTimeout _ cid => Nat.blt cid 65536
  | .dataFlit _ f => f.ok
  | .idleFlit _ f => f.ok
  | .ctrlFlit _ f => f.ok
  | .ethFrame f => f.ok
  | .arpRequest f => f.ok
  | .neighbourSolicitation f => f.ok
  | .echoRequest f => f.ok
  | .rdmaWrite r data => r.ok && data.length == r.len
  | .rdmaRead r => r.ok
  | .cmMessage m => m.ok
  | .channelOpen _ _ h _ body => h.bad || Nat.ble body.length 65504
  | .channelClose h body => bodyOk h body
  | .nop h body => bodyOk h body
  | .nvmeTargetEntry h body => bodyOk h body
  | .updBegin h body => bodyOk h body
  | .updPiece h body => bodyOk h body
  | .updStatus h body => bodyOk h body
  | .updActivate h body => bodyOk h body
  | .updConfirm h body => bodyOk h body
  | .updAbandon h body => bodyOk h body
  | .updRevert h body => bodyOk h body
  | .debugRead h body => bodyOk h body
  | .debugWrite h body => bodyOk h body
  | .debugHalt h body => bodyOk h body
  | .debugResume h body => bodyOk h body
  | .spareFillDone _ bad => bad.all LineErr.ok
  | .scanTestDone _ _ results => calOk results
  | .sweepEnd _ a b => sweepOk a && sweepOk b
  | .jtagAccess _ addr _ => addr % 4 == 0
  | .msgFlit _ f => f.ok
  | .unknownMessageType h _ body => bodyOk h body
  | .registerWrite _ _ _ _ | .hiWordLatch _ _ _ | .cntClr _ _ | .bootLock _ _ | .logEntryLatch _ | .logAutoAdvance _ | .tickFire
  | .bundleIssue _ _ | .tend _ | .send _ | .anop _ _ | .lnop _ _ | .vecNop _ _ | .mnop _ _ | .conv _ _ _ _ | .convLatch _ _
  | .zeroInputConversion _ _ | .convDeliver _ _ _ | .addAlign _ _ | .psw _ _ _ | .planeSwitch _ | .tclr _ _ _ _ _ _
  | .trnd _ _ _ _ _ _ _ | .resolveWindowEnd _ _ | .trndDeliver _ | .tcmb _ _ _ _ _ | .combineLand _ | .vadd _ _ | .vsub _ _
  | .vmul _ _ | .vfma _ _ | .vmax _ _ | .vmin _ _ | .vcmplt _ _ | .vwide _ _ | .vnarr _ _ | .vdec _ _ | .vexp _ _ | .vrcp _ _
  | .vrsq _ _ | .vsilu _ _ | .vgelu _ _ | .vrope _ _ | .vrsum _ _ | .vrmax _ _ | .vargmx _ _ | .vdraw _ _ | .vwalk _ _ | .vqmx4 _ _
  | .vqi4 _ _ | .tsnd _ _ _ _ _ _ | .dataVisible _ _ _ | .hwrComplete _ | .pauseRelease
  | .foldState _ _ _ | .tileWindowWrite _ _ _ _ | .calForce _ _ | .calPeriodExpiry _ | .calWindowClose _ _ | .calWindowTimeout _ _
  | .calApply _ _ | .holdCutoff | .holdReportSend | .decideSend | .markerMissing _ | .commitPoint | .commitReportSend | .commitSend
  | .tallyEnable _ _ | .tallyStart _ | .pageTick | .pageWindowSet | .ckptWriteDone _ _ | .laneBlockBuild _ | .laneBlockLand _
  | .pfxKey _ _ _ _ | .hbmRetireStart _ _ | .retireCopyDone _ | .stagingWriteResume | .shardComplete _ _ | .recheck
  | .shardRepair _ _ _ | .linkEnable _ _ _ | .retrain _ _ | .trainingDone _ _ _ _ _ | .trainingTimeout _ | .failedRetryTimer _
  | .ackTimeout _ | .retryEpisodeTimeout _ | .sendSlot _ | .forwardSlot _ | .mgmtMessage _ | .laneBlockMessage _
  | .checkpointMessage _ | .messageAck _ _ _ | .messageTimeout _ _ | .musterFrame _ | .musterHeadTimeout | .musterTimeout
  | .musterFrameSend | .atomic _ _ | .rcAck _ _ _ | .rcAckTimeout _ | .cnp _ | .rateRecovery _ | .ptpSync _ | .ptpFollowUp _
  | .ptpDelayResp _ | .ptpHoldover | .chSqTail _ _ _ _ | .chTrHead _ _ _ _ | .qpError _ | .orphanTimeout _ _
  | .collieBlockClose _ _ | .auditSample _ _ | .arbitrationStage1 _ _ | .arbitrationStage3 _ _ | .spareSwitchEnd _ | .rotation _
  | .quarantineTestStart _ | .testOverdue _ | .retire _ | .replayEnable _ _ _ | .hkRoundStart _ | .hkEntryEnd _ _
  | .spotRequest _ _ _ | .spotReqStart _ _ | .hkCalForce _ _ | .sweepStart _ | .sensorPublishTimeout _ | .avsComplete _
  | .voltageSettled | .avsTimeout | .marginInterval _ _ _ | .marginEn _ _ | .powerBin | .droopTrip _ | .droopStretchEnd
  | .regAlertAssert _ | .regAlertRelease | .alertHoldEnd | .compDisable _ _ | .thermalTrip _ _ | .thermalRelease | .pwrOkRise
  | .pwrOkFall | .resetNAssert | .resetRelease | .softReset _ | .jtagReset | .jtagHalt _ | .jtagResume _ | .anchorClear
  | .tapLeaveReset | .attestStart _ | .attestDone | .ethLinkChange _ | .hbmTempReport _ _ | .droveLoadDone _ => true

end Sys2Proof
end

