-- ==== Sys2Proof/Tests/Slice0.lean ====
section
/-! SUPPORT. Tests: for each statement, states and operands that meet the hypotheses of its clauses; checks of values worked out by
hand from the rules; and for each check of WellFormed a command that it refuses. -/

namespace Sys2Proof.Tests

set_option Elab.async false

open Sys2Proof Sys2Proof.Machine Sys2Proof.Claims

/-! ## Small states -/

/-- Reset. -/
def r0 : State := State.reset

/-- The state after a command, or the state itself where the command stops. -/
def after (c : Instr) (s : State) : State := match exec c s with
  | .next t => t
  | _ => s

/-- A step answers this next state. -/
def stepsTo (s t : State) : Bool := match step s with
  | .next u => u == t
  | _ => false

/-- A fold state as given, and on it a running drove of one tick. -/
def run (f : Fold) : State :=
  wr0 (((r0.setFolds [(0, { f with drove := some 0 })]).setDroves [(0, { Drove.empty with st := 3, k := 1, ticks := [0] })]).setFlocks
    [(0, { Flock.init with phase := 3, entries := [0] })]) (foldPg 0) F.SEQ_STATUS_ISSUING 1

/-- Fold 0 runs the step of a drove and issues. -/
def issuing : State := run Fold.init

/-- The same with little-endian bytes in its segment store. -/
def withSeg (s : State) (a n v : Nat) : State :=
  s.setSeg ((List.range n).foldl (fun m j => putD emptyByte m (a + j) (BitVec.ofNat 8 (v / 256 ^ j))) s.seg)

/-! ## The queue, registers and the log -/

theorem witness_frontCommandRuns : (r0.setPending [.pauseRelease, .tickFire]).pending = [.pauseRelease, .tickFire] := by decide

theorem witness_everyStep : (r0.setPending []).pending = [] ∧ (r0.setPending [.powerBin]).pending.tail = [] := by decide

theorem witness_memory : Memory.wf (writeByte r0 0x10000000003 7) = true
    ∧ stepsTo ((writeByte r0 0x10000000003 7).setPending [.tend 0]) (writeByte r0 0x10000000003 7) = true := by decide +kernel

theorem witness_rings : (r0.setPending [.chSqTail .jtag 0 0 1]).rung = []
    ∧ stepsTo (r0.setPending [.chSqTail .jtag 0 0 1]) (after (.chSqTail .jtag 0 0 1) r0) = true := by decide +kernel

theorem witness_hidden : seesPage r0 (.rdma 1) 206 = false ∧ seesPage r0 (.rdma 0) 206 = true
    ∧ seesPage (wr0 r0 (foldPg 3) F.LOCK_OWNER 1) (.rdma 1) (foldPg 3) = true ∧ rd (wr0 r0 (foldPg 3) F.LOCK_OWNER 1) (foldPg 3) F.LOCK_OWNER = 1 := by
  decide +kernel

/-- After a halt in the ROM a pen sees no page, and the debug port does (R460). -/
theorem witness_hidden_halt : let s := r0.setBoot { r0.boot with romHalt := true }
    (∀ p, seesPage s (.rdma p) 206 = false) ∧ seesPage s .jtag 206 = true := by decide +kernel

/-- No page, the clock's low word, and a low word of another page. -/
theorem witness_noPage : sourceRuns r0 .jtag = true ∧ pageType 207 = none ∧ pageType 255 = none ∧ seesPage r0 .jtag ethPg = true
    ∧ isLowWord ethPg 0x080 = true ∧ isLowWord iodPg 0x040 = true ∧ ethPg ≠ iodPg := by decide +kernel

theorem witness_registerWrite : seesPage r0 .jtag 206 = true ∧ r0.rung = [] ∧ rd r0 206 F.LOCK_BOOT_LOCK = 0 := by decide +kernel

theorem witness_header : seesPage r0 (.rdma 0) 0 = true ∧ rd r0 0 F.LOCK_BOOT_LOCK = 0 ∧ pageType 0 = some .dir
    ∧ rd (wr0 r0 (penPg 0) F.LOCK_BOOT_LOCK 1) (penPg 0) F.LOCK_BOOT_LOCK = 1 ∧ seesPage (wr0 r0 (penPg 0) F.LOCK_BOOT_LOCK 1) .jtag (penPg 0) = true := by
  decide +kernel

/-- The entries that LOG_SEL can name: the last one, the oldest one, one overwritten, and none. -/
theorem witness_latches : seesPage r0 .debug logPg = true
    ∧ (2 ^ 32 + 1 - 0) % 2 ^ 32 = 1 ∧ rd (wr0 r0 logPg F.LOG_INDEX 1) logPg F.LOG_INDEX = 1
    ∧ rd (wr0 r0 logPg F.LOG_INDEX 32768) logPg F.LOG_INDEX = 32768 ∧ rd (wr0 r0 logPg F.LOG_INDEX 32769) logPg F.LOG_INDEX = 32769
    ∧ rd r0 logPg F.LOG_SEL = 0 ∧ rd (wr0 r0 logPg F.LOG_CTRL 1) logPg F.LOG_CTRL = 1
    ∧ isLowWord 193 (4 * 128) = false ∧ (List.range 1024).any (fun w => isLowWord tallyPg (4 * w)) = true := by decide +kernel

theorem witness_errEvent : rd (wr0 r0 7 F.ERR_SUM 0x8000) 7 F.ERR_SUM = 0x8000 ∧ rd r0 7 F.ERR_SUM = 0 ∧ rd r0 7 F.EVT_PARITY < 2 ^ 32 - 2
    ∧ evtField 2 = some F.EVT_PARITY ∧ evtField 15 = none := by decide +kernel

theorem witness_log : rd (wr0 r0 logPg F.LOG_INDEX 32767) logPg F.LOG_INDEX = 32767 ∧ rd r0 logPg F.LOG_READ < 2 ^ 32
    ∧ rd r0 logPg F.LOG_OVERRUN < 2 ^ 32 - 2
    ∧ (2 ^ 33 - 32768 + 32768 - 0) % 2 ^ 32 < 2 ^ 31 := by decide +kernel

/-- SAT counters stop (R9): a counter at its last value but one that counts two stays at the top, with STATUS [0]. -/
theorem test_sat : rd (bump (wr0 r0 7 F.EVT_ACCESS (2 ^ 32 - 2)) 7 F.EVT_ACCESS 2) 7 F.EVT_ACCESS = 0xFFFFFFFF
    ∧ rd (bump (wr0 r0 7 F.EVT_ACCESS (2 ^ 32 - 2)) 7 F.EVT_ACCESS 2) 7 F.STATUS_SAT = 1 := by decide +kernel

/-- A pen that does not own a page writes nothing there (R11). -/
theorem test_hidden_write : after (.registerWrite (.rdma 1) 200 6 5) r0 = r0 := by decide +kernel

/-- Writing ones to bits of ERR_SUM clears those (R9). -/
theorem test_w1c : rd (after (.registerWrite .jtag 9 5 6) (wr0 r0 9 F.ERR_SUM 7)) 9 F.ERR_SUM = 1 := by decide +kernel

/-- `s` with one syllable of fold 0 waiting for its command. -/
def syl (s : State) (slot w : Nat) : State := modFold s 0 (fun x => { x with
  word := w * 2 ^ ([88, 64, 32, 0].getD slot 0), todo := [slot] })

theorem witness_bundleIssue : canIssue issuing 0 = true ∧ endPending issuing 0 = false ∧ (getFold issuing 0).pc ≤ 12287
    ∧ pushLoops issuing 0 (getFold issuing 0).pc = some [] ∧ bits (bundleAt issuing 0 0) 120 6 = 0 ∧ bit (bundleAt issuing 0 0) 126 = false := by
  decide +kernel

/-- Bundle 0 holds a reserved ARR opcode and an MNOP that is not zero. -/
def reservedBundle : State := withSeg issuing 0 16 (6 * 2 ^ 116 + 5)

/-- The reserved opcode is a fault of code 1 at once, and the MNOP waits (R162, R192). -/
theorem test_reserved : let t := after (.bundleIssue 0 false) reservedBundle
    (getFold t 0).todo = [3] ∧ (getFold t 0).faults = [{ clash := false, code := 1, bundle := 0, syl := 0 }] := by decide +kernel

/-- Fold 0 has issued a bundle with TEND and SEND. -/
def ended : State := run { Fold.init with word := 3 * 2 ^ 126, next := 4 }

theorem witness_ends : endsIssue ended 0 127 = true ∧ endsIssue ended 0 126 = true ∧ endsIssue issuing 0 127 = false := by decide +kernel

theorem witness_nops : (∀ y ∈ [0, 1, 2, 3], takes (syl issuing y 0) 0 y 0 = true ∧ takes (syl issuing y 5) 0 y 5 = true) ∧ (5 : BitVec 20) ≠ 0
    ∧ syllableOf (.mnop 0 5) = some (0, 3, 5) ∧ takes issuing 0 3 5 = false := by decide +kernel

/-- A word of each syllable, bit by bit from its encoding, and the command that it stands for (R161, R164, R174, R176, R183). -/
theorem test_syllables :
    syllableCommand 67 0 0x18001402 = some (.conv 67 0x8001 1 2)
    ∧ syllableCommand 67 1 0x1AF401 = some (.pld 67 10 15 2 1 [] [])
    ∧ syllableCommand 67 2 0x06000203 = some (.vadd 67 ⟨2, 1, 3, false⟩)
    ∧ syllableCommand 67 3 0x5FE06C05 = some (.tsnd 67 127 3 3 5 .ok)
    ∧ syllableCommand 67 3 0x60000000 = none := by decide +kernel

/-! ## Syllables -/

/-- A vector syllable of descriptor 0 in BF16. -/
def vsyl : VecSyl := ⟨0, 0, 0, false⟩

/-- The fold with a state of its own, its step running. -/
def foldAs (g : Fold → Fold) : State := run (g Fold.init)

/-- Tile 127 is open with tag 0. -/
def opened : State := foldAs (fun x => x.setTile 127 { Tile.zero with open_ := true })

/-- Slot 0 is served by fold 0, and the drove uses it. -/
def slotted (s : State) : State :=
  (wr (wr s iodPg F.HEFT_SLOT_EN 0 1) iodPg F.HEFT_SLOT_FOLD 0 0).setDroves
    [(0, { Drove.empty with st := 3, k := 1, ticks := [0], folds := 1 })]

/-- Extent 0 of pen `p` is the first 16 MiB of HBM port 0. -/
def extent (s : State) (p : Nat) : State := wr0 s (penPg p) F.EXT0_VALID 1

/-- Fold 0 runs with a window for its pen, and the drove books HBM port 0. -/
def withHbm : State := (extent issuing 0).setDroves [(0, { Drove.empty with st := 3, k := 1, ticks := [0], ports := [(0, 100, 100)] })]

/-- `issuing` with a CONV of all arrays waiting. -/
def conving (rsv : BitVec 2) : State := syl issuing 0 (convWord 0xFFFF rsv 1023)

theorem witness_conv : takes (conving 0) 0 0 (convWord 0xFFFF 0 1023) = true
    ∧ convCheck (convMask (dropSyllable (conving 0) 0) 0 1023) 0 0xFFFF 0 1023 = []
    ∧ takes (conving 3) 0 0 (convWord 0xFFFF 3 1023) = true ∧ convCheck (convMask (dropSyllable (conving 3) 0) 0 1023) 0 0xFFFF 3 1023 ≠ []
    ∧ issuing.pause.base ≤ 31 := by decide +kernel

/-- Array 15 has issued a conversion whose boundary is cycle 32, at cycle 28 or 32; a switch named before it holds it back. -/
def issuedAt (n : Nat) (sw : List (Nat × Nat × Nat)) (k : Conv) : State := foldAs (fun x => { x with convs := [k], switches := sw, next := n })

/-- A named switch whose boundary has come. -/
def switching : State := foldAs (fun x => { x with switches := [(0x8001, 32, 5)], next := 32 })

theorem witness_planeSwitch : takes (syl issuing 0 (pswWord 0xFFFF 0)) 0 0 (pswWord 0xFFFF 0) = true
    ∧ takes (syl issuing 0 (pswWord 0xFFFF 4095)) 0 0 (pswWord 0xFFFF 4095) = true
    ∧ (getFold switching 0).switches = [((0x8001 : BitVec 16).toNat, 32, 5)] ∧ due switching 32 = true
    ∧ ((getFold switching 0).arr 15).lastRow ≤ 32 := by decide +kernel

/-- Load descriptor 511 steps from plane slot to plane slot; a PLD of arrays 15 and on waits. -/
def loading (rsv : BitVec 3) : State := syl (withSeg issuing (0x36000 + 8 * 511) 8 (1024 * 2 ^ 17)) 1 (pldWord 15 15 rsv 511)

/-- A load of the last group of array 15 is in progress. -/
def load15 : Load := ⟨15, true, 0, 15, 1, 0, 0⟩

theorem witness_load : takes (loading 0) 0 1 (pldWord 15 15 0 511) = true
    ∧ loadCheck (dropSyllable (loading 0) 0) 0 (15 : Fin 16) ((15 : Fin 16) + 1) 0 511 = []
    ∧ (loadSources (15 : Fin 16) ((15 : Fin 16).val + 1) (loadDesc (loading 0) 0 511)).length = 16 ∧ takes (loading 7) 0 1 (pldWord 15 15 7 511) = true
    ∧ loadCheck (dropSyllable (loading 7) 0) 0 (15 : Fin 16) ((15 : Fin 16).val + 1) 7 511 ≠ []
    ∧ (getFold (foldAs (fun x => { x with loads := [load15] })) 0).loads = [load15] ∧ load15.c + load15.left ≤ 1
    ∧ load15.plane1 = !((getFold (foldAs (fun x => { x with loads := [load15] })) 0).arr load15.array).act1 := by decide +kernel

/-- A TCLR of tile 127 waits. -/
def clearing (s : State) (mode : BitVec 2) (rsv : BitVec 3) : State := syl s 0 (tclrWord mode 255 0 rsv 127)

theorem witness_clear : takes (clearing issuing 2 0) 0 0 (tclrWord 2 255 0 0 127) = true
    ∧ clearCheck (dropSyllable (clearing issuing 2 0) 0) 0 2 255 0 127 = []
    ∧ takes (clearing opened 2 0) 0 0 (tclrWord 2 255 0 0 127) = true ∧ ((getFold (clearing opened 2 0) 0).tile 127).open_ = true
    ∧ (2 : BitVec 2) ≠ 3 ∧ (getFold (clearing opened 2 0) 0).clashTick = false ∧ foldFlock (clearing opened 2 0) 0 = some 0
    ∧ (getFlock (clearing opened 2 0) 0).fault = 0
    ∧ takes (clearing issuing 3 7) 0 0 (tclrWord 3 255 0 7 127) = true ∧ clearCheck (dropSyllable (clearing issuing 3 7) 0) 0 3 255 7 127 ≠ [] := by
  decide +kernel

/-- A TRND, and a TCMB, of tile 127 in `opened`. -/
def rounding : State := syl opened 0 (trndWord 127 0 true 0 0)
/-- TCMB. -/
def combining (mode : Nat) : State := syl (foldAs (fun x => x.setTile 127 { Tile.zero with open_ := true, mode := mode })) 0 (tcmbWord 127 0 0)

theorem witness_round : takes rounding 0 0 (trndWord 127 0 true 0 0) = true ∧ roundCheck (dropSyllable rounding 0) 0 127 0 0 0 = []
    ∧ takes (combining 0) 0 0 (tcmbWord 127 0 0) = true ∧ combineCheck (dropSyllable (combining 0) 0) 0 127 0 0 = []
    ∧ takes (combining 2) 0 0 (tcmbWord 127 0 0) = true ∧ combineCheck (dropSyllable (combining 2) 0) 0 127 0 0 = []
    ∧ (combineOperand (dropSyllable (combining 2) 0) 0 127 0).mode ≠ ((getFold (combining 2) 0).tile 127).mode
    ∧ takes (syl opened 0 (trndWord 127 1 true 0 0)) 0 0 (trndWord 127 1 true 0 0) = true
    ∧ roundCheck (dropSyllable (syl opened 0 (trndWord 127 1 true 0 0)) 0) 0 127 1 0 0 ≠ []
    ∧ takes (syl opened 0 (tcmbWord 0 0 0)) 0 0 (tcmbWord 0 0 0) = true ∧ combineCheck (dropSyllable (syl opened 0 (tcmbWord 0 0 0)) 0) 0 0 0 0 ≠ [] := by
  decide +kernel

/-- A vector syllable waits. -/
def vecting (s : State) (op : VOp) (v : VecSyl) : State := syl s 2 (vecWord op.code v)

theorem witness_vec : (∀ op ∈ [VOp.vadd, .vsub, .vmul, .vfma, .vmax, .vmin, .vcmplt, .vwide, .vnarr, .vdec, .vexp, .vrcp, .vrsq, .vsilu, .vgelu, .vrope,
        .vrsum, .vrmax, .vargmx, .vdraw, .vwalk, .vqmx4, .vqi4],
      takes (vecting issuing op vsyl) 0 2 (vecWord op.code vsyl) = true ∧ vecCheck (dropSyllable (vecting issuing op vsyl) 0) 0 op vsyl = [])
    ∧ vsyl.residue = false ∧ (vecArgsOf (vecting issuing .vadd vsyl) 0 vsyl).masked = false ∧ 0 < (vecArgsOf (vecting issuing .vadd vsyl) 0 vsyl).n
    ∧ takes (vecting issuing .vadd ⟨2, 0, 0, false⟩) 0 2 (vecWord VOp.vadd.code ⟨2, 0, 0, false⟩) = true
    ∧ vecCheck (dropSyllable (vecting issuing .vadd ⟨2, 0, 0, false⟩) 0) 0 .vadd ⟨2, 0, 0, false⟩ ≠ [] := by decide +kernel

/-- A lane that the mask leaves out: bit 76 of the descriptor and an empty mask. -/
def maskedLane : State := vecting (withSeg (foldAs (fun x => { x with applied := 0 })) 0x3B000 16 (2 ^ 76)) .vadd vsyl

theorem witness_vecMasked : takes maskedLane 0 2 (vecWord VOp.vadd.code vsyl) = true ∧ vecCheck (dropSyllable maskedLane 0) 0 .vadd vsyl = []
    ∧ (vecArgsOf maskedLane 0 vsyl).masked = true := by decide +kernel

/-- A MOV syllable of opcode `op` waits, its descriptor with the bits `v`. -/
def moving (s : State) (op : Nat) (rsv : BitVec 18) (v : Nat) : State := syl (withSeg s 0x37000 16 v) 3 (movWord op rsv 0)

theorem witness_xfer : takes (moving issuing 1 0 0) 0 3 (movWord 1 0 0) = true ∧ xferCheck (dropSyllable (moving issuing 1 0 0) 0) 0 0 0 = []
    ∧ takes (moving issuing 1 1 0) 0 3 (movWord 1 1 0) = true ∧ xferCheck (dropSyllable (moving issuing 1 1 0) 0) 0 1 0 ≠ [] := by decide +kernel

/-- TSND to slot 0: kind 1 in bits 68 and 69. -/
def sending (tag : BitVec 8) : State := syl (withSeg (slotted opened) 0x37000 16 (2 ^ 68)) 3 (tsndWord 127 tag 0 0)

theorem witness_tsnd : takes (sending 0) 0 3 (tsndWord 127 0 0 0) = true ∧ tsndCheck (dropSyllable (sending 0) 0) 0 127 0 0 0 = []
    ∧ takes (sending 1) 0 3 (tsndWord 127 1 0 0) = true ∧ tsndCheck (dropSyllable (sending 1) 0) 0 127 1 0 0 ≠ [] := by decide +kernel

/-- HRD of 256 bytes from window address 0: source space 2. HWR there: destination space 2. -/
def reading (rsv : BitVec 18) : State := moving withHbm 2 rsv 2
/-- HWR. -/
def writing (rsv : BitVec 18) : State := moving withHbm 3 rsv (2 * 2 ^ 34)

theorem witness_hbm :
    (∃ d, foldDrove (reading 0) 0 = some d ∧ takes (reading 0) 0 3 (movWord 2 0 0) = true ∧ hrdCheck (dropSyllable (reading 0) 0) 0 0 0 d = []
        ∧ (hbmWay (reading 0) 0 d (xferOf (reading 0) 0 0) (xferOf (reading 0) 0 0).sa).isSome = true)
    ∧ (∃ d, foldDrove (reading 1) 0 = some d ∧ takes (reading 1) 0 3 (movWord 2 1 0) = true ∧ hrdCheck (dropSyllable (reading 1) 0) 0 1 0 d ≠ [])
    ∧ (∃ d, foldDrove (writing 0) 0 = some d ∧ takes (writing 0) 0 3 (movWord 3 0 0) = true ∧ hwrCheck (dropSyllable (writing 0) 0) 0 0 0 d = []
        ∧ (hbmWay (writing 0) 0 d (xferOf (writing 0) 0 0) (xferOf (writing 0) 0 0).da).isSome = true)
    ∧ (∃ d, foldDrove (writing 1) 0 = some d ∧ takes (writing 1) 0 3 (movWord 3 1 0) = true ∧ hwrCheck (dropSyllable (writing 1) 0) 0 1 0 d ≠ []) :=
  ⟨⟨_, rfl, by decide +kernel, by decide +kernel, by decide +kernel⟩, ⟨_, rfl, by decide +kernel, by decide +kernel⟩,
    ⟨_, rfl, by decide +kernel, by decide +kernel, by decide +kernel⟩, ⟨_, rfl, by decide +kernel, by decide +kernel⟩⟩

/-- A drove with one send entry on link `l`, at cycle 32 of the tick, and an LSND on it that waits. -/
def linked (l : Nat) (rsv : BitVec 18) : State := syl ((withSeg issuing 0x37000 16 (2 * 2 ^ 68 + 5 * 2 ^ 70)).setDroves
  [(0, { Drove.empty with st := 3, k := 1, ticks := [0], links := [{ kind := 0, pos := 0, cycle := 32, count := 1, link := l, peer := 9, lat := 0, alt := 0 }] })])
  3 (movWord 4 rsv 0)

theorem witness_lsnd :
    (∃ d e, foldDrove (linked 5 0) 0 = some d ∧ takes (linked 5 0) 0 3 (movWord 4 0 0) = true ∧ lsndCheck (dropSyllable (linked 5 0) 0) 0 0 0 d = []
      ∧ lsndEntry (linked 5 0) 0 d (xferOf (linked 5 0) 0 0) = some e ∧ routeEntry (linked 5 0) d e = some e)
    ∧ (∃ d, foldDrove (linked 5 1) 0 = some d ∧ takes (linked 5 1) 0 3 (movWord 4 1 0) = true ∧ lsndCheck (dropSyllable (linked 5 1) 0) 0 1 0 d ≠ []) :=
  ⟨⟨_, _, rfl, by decide +kernel, by decide +kernel, rfl, rfl⟩, ⟨_, rfl, by decide +kernel, by decide +kernel⟩⟩

theorem witness_runawayCounter : let s := foldAs (fun x => { x with pc := 12288 })
    canIssue s 0 = true ∧ endPending s 0 = false ∧ 12287 < (getFold s 0).pc ∧ (getFold s 0).pc < 2 ^ 14 := by decide +kernel

theorem witness_contractFault : (getFold issuing 0).oldFaults.contains { clash := false, code := 31, bundle := 16383, syl := 3 } = false
    ∧ (getFold issuing 0).faultTick = false ∧ (getFold (foldAs (fun x => { x with faultTick := true })) 0).faultTick = true
    ∧ foldFlock issuing 0 = some 0 ∧ (getFlock issuing 0).phase = 3 ∧ (getFlock issuing 0).fault = 0
    ∧ rd issuing (foldPg 0) F.CONTRACT_CNT < 2 ^ 32 - 2 := by decide +kernel

/-- 1.0 + 1.5 is 2.5 and 1.5 × 1.5 is 2.25 in BF16 (R178). -/
theorem test_vadd_vmul :
    let s := writeBytes (writeBytes (withSeg issuing 0x3B000 16 (1 * 2 ^ 16 + 2 * 2 ^ 32)) (vsAddr 0 0) [0xC0, 0x3F]) (vsAddr 0 64) [0xC0, 0x3F]
    readLe (after (.vmul 0 vsyl) (vecting s .vmul vsyl)) (vsAddr 0 128) 2 = 0x4010
    ∧ readLe (after (.vadd 0 vsyl) (vecting s .vadd vsyl)) (vsAddr 0 128) 2 = 0x4040 := by decide +kernel

/-- A clear of the open tile 127 is a clash of cause 3, and the step fails with cause 4 (R141, R142). -/
theorem test_clash : rd (after (.tclr 0 2 255 0 0 127) (clearing opened 2 0)) (foldPg 0) F.TILE_CLASH_INFO_CAUSE = 3
    ∧ (getFlock (after (.tclr 0 2 255 0 0 127) (clearing opened 2 0)) 0).fault = 4 := by decide +kernel

/-- A conversion issued at cycle 0 latches at cycle 32 (R168). -/
theorem test_conv_latch : ((getFold (after (.conv 0 0xFFFF 0 1023) (conving 0)) 0).convs.map (·.op.lat)).dedup = [32] := by decide +kernel
/-! ## Arrays, tiles and data in flight -/

/-- A conversion of array 15 to row 0 of tile 127. -/
def conv1 : ConvOp :=
  { array := 15, c := 0, lat := 32, bundle := 0, iter := 0, layer := 0, mode := 0, gain := 0, afmt := 0, recipe := 0, pass := 0
    static := false, ka := 0, es := 0, clipResolve := false, spillSat := false, tile := 127, row := 0, tag := 0, base := 0, n := 0
    masked := false, noAdd := false }

/-- What it holds from its latch on, with the column sum 3 in column 0. -/
def data1 : ConvData :=
  { drive := [], ea := 0, da := 0, strays := [], satStrays := false, exact := [3], crook := [], wexp := [], codes := [0], est := [], step := []
    delta := 1, g := [], o := [], eps := 0, chk := 0, poisoned := false, rangeOut := false, tally := 0, held := [], origins := [], kinds := [] }

/-- A fold at cycle `n` of the tick whose one conversion has issued, or latched, or delivered. -/
def issued (o : ConvOp) : State := foldAs (fun x => { x with convs := [{ op := o, data := none, delivered := false }], next := 32 })
/-- Latched. -/
def latched (o : ConvOp) : State := foldAs (fun x => { x with convs := [{ op := o, data := some data1, delivered := false }], next := 72 })
/-- Delivered. -/
def delivered (o : ConvOp) : State := foldAs (fun x => { x with convs := [{ op := o, data := some data1, delivered := true }], next := 80 })

theorem witness_latch : ∀ m ∈ [0, 2], nextLatch (getFold (issued { conv1 with mode := m }) 0) 15
      = some { op := { conv1 with mode := m }, data := none, delivered := false }
    ∧ mayLatch (issued { conv1 with mode := m }) 0 { op := { conv1 with mode := m }, data := none, delivered := false } = true := by decide +kernel

/-- It is not due yet, or a switch named for its boundary comes first. -/
theorem witness_latchWaits : ∀ e ∈ [(28, []), (32, [(1, 32, 0)])], let k : Conv := { op := conv1, data := none, delivered := false }
    nextLatch (getFold (issuedAt e.1 e.2 k) 0) 15 = some k ∧ mayLatch (issuedAt e.1 e.2 k) 0 k = false := by decide +kernel

theorem witness_deliveryWaits : let k : Conv := { op := conv1, data := some data1, delivered := false }
    nextDelivery (getFold (issuedAt 68 [] k) 0) 15 = some k ∧ Machine.due (issuedAt 68 [] k) (conv1.lat + 40) = false := by decide +kernel

theorem witness_latchMasked : nextLatch (getFold (issued { conv1 with masked := true }) 0) 15
      = some { op := { conv1 with masked := true }, data := none, delivered := false }
    ∧ mayLatch (issued { conv1 with masked := true }) 0 { op := { conv1 with masked := true }, data := none, delivered := false } = true := by
  decide +kernel

theorem witness_delivery : ∀ o ∈ [conv1, { conv1 with masked := true }, { conv1 with mode := 2 }],
    nextDelivery (getFold (latched o) 0) 15 = some { op := o, data := some data1, delivered := false } ∧ Machine.due (latched o) (o.lat + 40) = true
    ∧ rd (latched o) (foldPg 0) F.ARR_CLIP 15 + (data1.codes.filter isClip).length < 2 ^ 32 - 1
    ∧ rd (latched o) (foldPg 0) F.COLLIE_SKIP_CNT < 2 ^ 32 - 2 ∧ rd (latched o) (foldPg 0) F.REF_CONV_CNT < 2 ^ 32 - 2 := by decide +kernel

theorem witness_zeroInput : arraysRun issuing 0 = true ∧ roleOf issuing 0 ≠ roleRetired ∧ frozen issuing = false
    ∧ ((getFold (foldAs (fun x => x.setArr 15 { Arr.init with win := some (Machine.Window.fresh 0 0) })) 0).arr 15).win = some (Machine.Window.fresh 0 0)
    ∧ (Machine.Window.fresh 0 0).closed = none := by
  decide +kernel

/-- An add of two conversions takes place, and one of suppressed conversions only. -/
theorem witness_addAlign : ∀ b, let o := { conv1 with noAdd := b }
    firstDelivered (getFold (delivered o) 0).convs = some { op := o, data := some data1, delivered := true }
    ∧ Machine.due (delivered o) (o.lat + 48) = true
    ∧ (((getFold (delivered o) 0).convs.filter (fun q => sameAdd o q.op)).filter (fun q => !q.op.masked && !q.op.noAdd) = [] ↔ b = true) := by
  decide +kernel

/-- A combine that lands at cycle 32. -/
def combine1 : Combine := { tile := 127, operand := Tile.zero, layer := 0, c := 0, bundle := 0 }

theorem witness_combineLand : let s := foldAs (fun x => { x with combines := [combine1], next := 32 })
    (getFold s 0).combines = [combine1] ∧ Machine.due s (combine1.c + 32) = true := by decide +kernel

/-- A rounding operation with resolve work of `n` slots, whose window has ended, or not. -/
def trnd1 (ended : Bool) (n : Nat) : Trnd :=
  { tile := 127, close := true, c := 0, fo := 4, eo := 0, w := 0, dst := 0x3FE000, rows := 0xFFFF, layer := 0, fails := [], whole := false, slots := n
    left := n, ended := ended, snap := Tile.zero, ref := Tile.zero, bundle := 0 }

/-- A fold with it, at cycle `n` of the tick. -/
def trndAt (q : Trnd) (n : Nat) : State := foldAs (fun x => { x with trnds := [q], next := n })

/-- A window ends with no work left, or with work that goes on; and the outputs are delivered. -/
theorem witness_rounding :
    (∀ n ∈ [0, 256], nextWindow (getFold (trndAt (trnd1 false n) 12) 0) = some (trnd1 false n)
      ∧ Machine.due (trndAt (trnd1 false n) 12) (windowStop (trnd1 false n)) = true
      ∧ rd (trndAt (trnd1 false n) 12) (foldPg 0) F.RES_SLOT_CNT + n < 2 ^ 32 - 1)
    ∧ (endWindow (getFold (trndAt (trnd1 false 0) 12) 0) (trnd1 false 0)).2 = 0 ∧ (endWindow (getFold (trndAt (trnd1 false 256) 12) 0) (trnd1 false 256)).2 = 16
    ∧ nextOutputs (getFold (trndAt (trnd1 true 0) 32) 0) = some (trnd1 true 0) ∧ Machine.due (trndAt (trnd1 true 0) 32) (trndTime (trnd1 true 0)) = true
    ∧ (trnd1 true 0).dst + 16 * rowBytes (fmtOf (trnd1 true 0).fo) ≤ vsSize ∧ maskRows (trnd1 true 0).rows ≠ [] := by decide +kernel

/-- A transfer of one byte, visible in cycle 40. -/
def xfer1 (hwr : Bool) : Xfer := { hwr := hwr, c := 0, dst := vsAddr 0 0x3FFFFF, data := [7], vis := 40, fly := 41, port := 0, bundle := 0 }

/-- A fold with it, past its cycle. -/
def flying (hwr : Bool) : State := foldAs (fun x => { x with xfers := [xfer1 hwr], next := 44 })

/-- A link with a flit that has landed. -/
def landed95 : State := (foldAs (fun x => { x with next := 12 })).setLinks [(95, { Link.init with landing := [⟨9, vsAddr 0 0, [7]⟩] })]

theorem witness_flights :
    firstXfer (fun x => !x.hwr) (getFold (flying false) 0).xfers = some (xfer1 false) ∧ Machine.due (flying false) ((xfer1 false).vis + 1) = true
    ∧ firstXfer (·.hwr) (getFold (flying true) 0).xfers = some (xfer1 true) ∧ Machine.due (flying true) ((xfer1 true).vis + 1) = true
    ∧ firstLanding (getLink landed95 95).landing = some ⟨9, vsAddr 0 0, [7]⟩ ∧ Machine.due landed95 (9 + 1) = true
    ∧ rd landed95 (linkPg 95) F.LINK_STATE_STOP = b2n (decide (448 ≤ ((getLink landed95 95).landing.length - 1)))
    ∧ isMem r0 (vsAddr 0 0x3FFFFF) = true ∧ isMem r0 (vsAddr 0 0x400000) = false := by decide +kernel

/-- The one write to HBM in flight is the first issued. -/
theorem witness_firstWrite : ∀ g y, y ∈ (getFold (flying true) g).xfers → y.hwr = true → (xfer1 true).c ≤ y.c := fun _ _ _ _ => Nat.zero_le _

/-- Two causes owe 3 and 8 cycles. -/
def paused : State := issuing.setPause { Pauses.init with owed := [(pauseKey 3 causeEcc, 3), (pauseKey 6001 causeSwitch, 8)] }

theorem witness_pause : paused.power.droop = false ∧ 0 < owedCycles paused ∧ owedCycles paused = 8 ∧ rd paused (foldPg 67) F.PAUSE_SEEN_CYC + 8 < 2 ^ 32 - 1 := by decide +kernel

/-! ## The tile window and calibration -/

theorem witness_foldState : seesPage r0 .jtag (foldPg 67) = true ∧ srcPen .jtag = 0 ∧ (2 : BitVec 2) ≠ 3 ∧ slotOfFold r0 67 = none
    ∧ slotOfFold (slotted r0) 0 = some 0 ∧ seesPage (slotted r0) .jtag (foldPg 0) = true := by decide +kernel

theorem witness_tileWindow : windowOpen (wr0 r0 (foldPg 67) F.FOLD_STATE 1) .jtag 67 = true ∧ rd r0 (foldPg 67) F.FOLD_STATE = 0
    ∧ (0x3FFFF8 : BitVec 24).toNat = 0x8000 * 127 + 8 * 4095 ∧ (0x4FFFFE : BitVec 24).toNat = 0x400000 + 0x2000 * 127 + 2 * 4095
    ∧ (0x5003F8 : BitVec 24).toNat = 0x500000 + 8 * 127 ∧ bits (2 ^ 39 - 1) 39 25 = 0 ∧ bits (2 ^ 64 - 2 ^ 39) 39 25 = 2 ^ 25 - 1 := by decide +kernel

/-- A calibration window of array 15 that opened at fire 0, at fire 4,096; `x` sums column 0. -/
def windowed (np : Nat) (x : Int) : State :=
  (foldAs (fun y => y.setArr 15 { Arr.init with win := some { Machine.Window.fresh 0 0 with nz := 256, np := np, zs := putD 0 [] 0 x } })).setTally
    { Tally.init with fires := 4096 }

theorem witness_windows : let w := ((getFold (windowed 0 0) 0).arr 15).win
    (w.map (fun w => (w.closed.isNone, w.nz, w.np, w.opened + 4096))) = some (true, 256, 0, (windowed 0 0).tally.fires)
    ∧ (((getFold (windowed 65536 0) 0).arr 15).win.map (·.np)) = some 65536 := by decide +kernel

theorem getD_replicate_same {α : Type} (n : Nat) (x : α) (c : Nat) : (List.replicate n x).getD c x = x := by
  by_cases h : c < n
  · rw [List.getD_eq_getElem _ _ (by rw [List.length_replicate]; exact h), List.getElem_replicate]
  · rw [List.getD_eq_default _ _ (by rw [List.length_replicate]; omega)]
theorem getD_replicate_in {α : Type} (n : Nat) (x y : α) (c : Nat) (h : c < n) : (List.replicate n x).getD c y = x := by
  rw [List.getD_eq_getElem _ _ (by rw [List.length_replicate]; exact h), List.getElem_replicate]

theorem gainsOk_unit : gainsOk (List.replicate 256 16384) (List.replicate 256 16384) = true := by
  unfold gainsOk
  rw [List.all_eq_true]
  intro c hc
  rw [getD_replicate_same, getD_replicate_in _ _ _ _ (List.mem_range.1 hc)]
  decide +kernel

theorem gainsOk_none : gainsOk (List.replicate 256 16384) [] = false := by
  unfold gainsOk
  refine List.all_eq_false.2 ⟨0, List.mem_range.2 (by decide), ?_⟩
  rw [getD_replicate_same]
  decide +kernel

theorem offsetsOk_first (x : Int) : offsetsOk (List.replicate 256 0) (x :: List.replicate 255 0) = decide (x.natAbs ≤ 192) := by
  unfold offsetsOk
  by_cases h : x.natAbs ≤ 192
  · rw [decide_eq_true h, List.all_eq_true]
    intro c _
    cases c with
    | zero => exact decide_eq_true (by rw [getD_replicate_same, List.getD_cons_zero, Int.sub_zero]; exact h)
    | succ n => exact decide_eq_true (by rw [getD_replicate_same, List.getD_cons_succ, getD_replicate_same]; decide)
  · rw [decide_eq_false h]
    refine List.all_eq_false.2 ⟨0, List.mem_range.2 (by decide), ?_⟩
    rw [getD_replicate_same, List.getD_cons_zero, Int.sub_zero, decide_eq_false h]
    exact Bool.false_ne_true

/-- The window that `windowed` opens. -/
def window15 (x : Int) : Machine.Window := { Machine.Window.fresh 0 0 with nz := 256, zs := putD 0 [] 0 x }

theorem candidates_few (y : Arr) (w : Machine.Window) (free : Rat) (h : decide (1024 ≤ w.np) = false) :
    (candidates y w free).1 = gainsOf y ∧ (candidates y w free).2.1 = cols.map (fun c => rne (((getD (0 : Int) w.zs c : Int) : Rat) / (w.nz : Nat) * 64)) := by
  unfold candidates gainsOf
  rw [h]
  exact ⟨rfl, rfl⟩

theorem witness_windowed : (getFold (windowed 0 768) 0).arr 15 = { Arr.init with win := some (window15 768) }
    ∧ (getFold (windowed 0 1024) 0).arr 15 = { Arr.init with win := some (window15 1024) } := ⟨rfl, rfl⟩

theorem gainsOf_init : gainsOf Arr.init = List.replicate 256 16384 := by decide +kernel
theorem offsetsOf_init : offsetsOf Arr.init = List.replicate 256 0 := by decide +kernel

theorem offsets_768 : cols.map (fun c => rne (((getD (0 : Int) (window15 768).zs c : Int) : Rat) / ((window15 768).nz : Nat) * 64)) = 192 :: List.replicate 255 0 := by
  decide +kernel
theorem offsets_1024 : cols.map (fun c => rne (((getD (0 : Int) (window15 1024).zs c : Int) : Rat) / ((window15 1024).nz : Nat) * 64)) = 256 :: List.replicate 255 0 := by
  decide +kernel

/-- The limits of R57: 3 LSB of offset pass, 4 do not. -/
theorem witness_windowLimits (free : Rat) : gainsOk (gainsOf Arr.init) (candidates Arr.init (window15 768) free).1 = true
    ∧ offsetsOk (offsetsOf Arr.init) (candidates Arr.init (window15 768) free).2.1 = true
    ∧ offsetsOk (offsetsOf Arr.init) (candidates Arr.init (window15 1024) free).2.1 = false := by
  have h := candidates_few Arr.init (window15 768) free rfl
  have k := candidates_few Arr.init (window15 1024) free rfl
  rewrite [h.1, h.2, k.2, gainsOf_init, offsetsOf_init, offsets_768, offsets_1024, offsetsOk_first, offsetsOk_first]
  exact ⟨gainsOk_unit, rfl, rfl⟩

/-- A closed window of array 15 that is due at fire 0. -/
def applying : State :=
  foldAs (fun y => y.setArr 15 { Arr.init with win := some { Machine.Window.fresh 0 0 with closed := some ⟨[16385], [-1], 0⟩ } })

/-- The same with a broken sensor. -/
def brokenSensor : State := wr applying (hkPg 0) F.TELEM_FAULT 0 1

theorem witness_calApply : (((getFold applying 0).arr 15).win.bind (·.closed)) = some ⟨[16385], [-1], 0⟩ ∧ 0 = applying.tally.fires
    ∧ roleOf applying 0 = roleServing ∧ sampleFault applying 0 = false ∧ (((getFold brokenSensor 0).arr 15).win.bind (·.closed)) = some ⟨[16385], [-1], 0⟩
    ∧ roleOf brokenSensor 0 = roleServing ∧ sampleFault brokenSensor 0 = true := by decide +kernel

/-- What a calibration finds on an array that is as it was. -/
def same1 : CalResult := ⟨List.replicate 256 16384, List.replicate 256 0, [], 64, [], []⟩
/-- The hardware check takes what is in force, and not a set without gains. -/
theorem witness_trims : trimsOk applying 0 15 (List.replicate 256 16384) (List.replicate 256 0) = true
    ∧ ∀ o, trimsOk applying 0 15 [] o = false := by
  have h : gainsOf ((getFold applying 0).arr 15) = List.replicate 256 16384 := gainsOf_init
  have k : offsetsOf ((getFold applying 0).arr 15) = List.replicate 256 0 := offsetsOf_init
  unfold trimsOk
  rewrite [h, k]
  exact ⟨Bool.and_eq_true_iff.2 ⟨gainsOk_unit, offsetsOk_first 0⟩, fun o => Bool.and_eq_false_iff.2 (.inl gainsOk_none)⟩

/-- Results that wait for the next tick boundary; ticks fire, or not. -/
theorem witness_pend : (((getFold (foldAs (fun x => x.setArr 15 { Arr.init with pend := some (same1, -5) })) 0).arr 15).pend = some (same1, -5))
    ∧ ticking (wr0 r0 tallyPg F.TALLY_STATE_STATE 2) = true ∧ ticking r0 = false := ⟨rfl, by decide +kernel, by decide +kernel⟩

/-- The same on all arrays. -/
def same : List CalResult := [same1, same1, same1, same1, same1, same1, same1, same1, same1, same1, same1, same1, same1, same1, same1, same1]

theorem same_passes (s : State) (f : Nat) (h : ∀ a, a < 16 → (getFold s f).calBoot = false ∧ ((getFold s f).arr a).g = [] ∧ ((getFold s f).arr a).o = [])
    (a : Nat) (ha : a < 16) : calPasses s f a (same.getD a ⟨[], [], [], 0, [], []⟩) = true := by
  have hr : same.getD a ⟨[], [], [], 0, [], []⟩ = same1 := by interval_cases a <;> rfl
  have hc : calReference s f a = (cols.map (fun c => getD 16384 [] c), cols.map (fun c => getD 0 [] c)) := by
    unfold calReference gainsOf offsetsOf
    rw [(h a ha).1, (h a ha).2.1, (h a ha).2.2]
    rfl
  have hg : cols.map (fun c => getD 16384 [] c) = List.replicate 256 16384 := gainsOf_init
  have h0 : cols.map (fun c => getD (0 : Int) [] c) = List.replicate 256 0 := offsetsOf_init
  rewrite [hr]
  unfold calPasses
  rewrite [hc]
  exact Bool.and_eq_true_iff.2 ⟨(congrArg (gainsOk · _) hg).trans gainsOk_unit, (congrArg (offsetsOk · _) h0).trans (offsetsOk_first 0)⟩

/-- Fold 67 is quarantined, serves no slot and awaits a calibration; it has been quarantined before, or not. -/
def calibrating67 (quar : Nat) : State :=
  wr0 (wr0 (r0.setFolds [(67, { Fold.init with calDue := true })]) (hkPg 1) F.TELEM_NEVER 0) (foldPg 67) F.FOLD_ROLE_QUAR quar

theorem witness_bootCalibration : ∀ n ∈ [0, 1], let s := wr (wr0 (calibrating67 n) (foldPg 67) F.FOLD_ROLE_ROLE roleQuarantined) (hkPg 1) F.TELEM_NEVER 33 0
    calWaits s 67 = true ∧ hasSample s 67 = true ∧ roleOf s 67 ≠ roleRetired ∧ slotOfFold s 67 = none ∧ rd s (foldPg 67) F.FOLD_ROLE_QUAR = n := by
  decide +kernel

/-- An array that finds what is in force passes, and one that finds nothing does not. -/
theorem witness_calPasses (n : Nat) (a : Nat) (ha : a < 16) : calPasses (calibrating67 n) 67 a (same.getD a ⟨[], [], [], 0, [], []⟩) = true
    ∧ (∀ r : CalResult, r.g = [] → r.o = List.replicate 256 0 → gainsOk (List.replicate 256 16384) r.g = false → calPasses (calibrating67 n) 67 a r = false) := by
  refine ⟨same_passes _ _ (fun _ _ => ⟨rfl, rfl, rfl⟩) a ha, fun r _ _ h => ?_⟩
  unfold calPasses
  rewrite [show calReference (calibrating67 n) 67 a = (gainsOf Arr.init, offsetsOf Arr.init) from rfl]
  exact Bool.and_eq_false_iff.2 (.inl ((congrArg (gainsOk · r.g) gainsOf_init).trans h))

/-! ## Silent errors -/

/-- Array 15 of fold 0 with a full block of conversions with the sum of squares `q`. -/
def blocked (q : Rat) : State := foldAs (fun x => x.setArr 15 { Arr.init with blk := { CollieBlock.empty with n := 8192, q2 := q } })

/-- A block that passes and one that fails. -/
theorem witness_block : (∀ q, 8192 ≤ ((getFold (blocked q) 0).arr 15).blk.n ∧ ((getFold (blocked q) 0).arr 15).blk.q2 = q
      ∧ ∀ r, getD 0 ((getFold (blocked q) 0).arr 15).blk.sa r = 0)
    ∧ (0 : Rat) / 8192 ≤ (rd (blocked 0) testPg F.COLLIE_CFG_TR : Rat) * rd (blocked 0) testPg F.COLLIE_CFG_TR
    ∧ ¬ ((8192 * 4 * 10 ^ 12 : Rat) / 8192 ≤ (rd (blocked (8192 * 4 * 10 ^ 12)) testPg F.COLLIE_CFG_TR : Rat)
        * rd (blocked (8192 * 4 * 10 ^ 12)) testPg F.COLLIE_CFG_TR) :=
  ⟨fun _ => ⟨Nat.le_refl _, rfl, fun _ => rfl⟩, by decide +kernel, by decide +kernel⟩

/-- Array 15 of fold 0 has a conversion to audit. -/
def auditing : State := foldAs (fun x => x.setArr 15 { Arr.init with audit := some { op := conv1, data := some data1, delivered := true } })

theorem witness_audit : (((getFold auditing 0).arr 15).audit.bind (·.data)) = some data1 ∧ ((getFold auditing 0).arr 15).audited = false
    ∧ auditColumn data1.codes ((67 * ((foldFlock auditing 0).map (fun q => (getFlock auditing q).num)).getD 0 + 16 * 15 + 5 * (slotOfFold auditing 0).getD 0) % 256) = some 51
    ∧ outOfBound data1 (data1.exact.getD 51 0) 51 = false ∧ outOfBound { data1 with est := List.replicate 52 1 } 0 51 = true
    ∧ rd auditing (foldPg 0) F.AUDIT_CNT < 2 ^ 32 - 2 ∧ rd auditing (foldPg 0) F.AUDIT_FAIL_CNT < 2 ^ 32 - 2
    ∧ (getFold auditing 0).arrays.any (fun e => e.2.audited) = false := by decide +kernel

/-- A dispute of array 15, fold 67, slot 63. -/
def dispute (located : Bool) (held : List Int) : Dispute :=
  ⟨67, 63, 15, 0, 0, { data1 with drive := [1], held := held }, located, false, false, false⟩

theorem witness_arbitration :
    (∀ located, (r0.setCare { Care.init with disputes := [dispute located [0]] }).care.disputes.find?
      (fun y => y.fold == 67 && y.array == 15 && y.located == located) = some (dispute located [0]))
    ∧ (List.range (dispute false [0]).data.drive.length).map (stagingRowSum r0 67 (dispute false [0]).data) = (dispute false [0]).data.held
    ∧ (List.range (dispute false [1]).data.drive.length).map (stagingRowSum r0 67 (dispute false [1]).data) ≠ (dispute false [1]).data.held
    ∧ r0.care.fills.any (fun y => y.slot == 63) = false := by decide +kernel

/-- Spare 66 is being filled for slot 0 from fold 0. -/
def fill1 : Fill := ⟨66, 0, 0, 1, 1, false, false⟩
/-- The same in the pause of a replay. -/
def fillDue : Fill := { fill1 with due := true }
/-- The same with a staging line of fold 0 whose data is lost. -/
def filling (bad : List (Nat × Nat)) : State := r0.setCare { Care.init with fills := [fill1], bad := bad }

theorem witness_fill : (∀ bad ∈ [[], [(0, stagingAddr 0 0xA80000)]], (filling bad).care.fills.find? (fun y => y.spare == 66 && !y.done) = some fill1) ∧ fill1.slot < 64
    ∧ (filling []).care.bad = []
    ∧ (∀ e ∈ [LineErr.mk (stagingAddr 0 0xA80000) 3, ⟨stagingAddr 0 0xA7FFC0, 6⟩, ⟨stagingAddr 0 0xA80000, 2⟩],
        fillLost 0 e = decide (e.addr = stagingAddr 0 0xA80000 ∧ e.syms = 3))
    ∧ (restoreLines (filling [(0, stagingAddr 0 0xA80000)])).care.bad.any (fun e => stagingFold e.2 == some 0) = true
    ∧ (restoreLines (filling [])).care.bad.any (fun e => stagingFold e.2 == some 0) = false ∧ fill1.due = false := by
  decide +kernel

theorem witness_fillDue : let s := r0.setCare { Care.init with fills := [fillDue] }
    s.care.fills.find? (fun y => y.spare == 66 && !y.done) = some fillDue ∧ fillDue.due = true
    ∧ (restoreLines s).care.bad.any (fun e => stagingFold e.2 == some 0) = false ∧ s.care.fills.any (fun x => x.spare == 66 && x.due) = true := by
  decide +kernel

theorem witness_spareSwitch : getD 0 paused.pause.owed (pauseKey (6000 + 1) causeSwitch) = 8
    ∧ (dropKey paused.pause.owed (pauseKey 6001 causeSwitch)).foldl (fun m e => max m e.2) 0 = 3
    ∧ getD 0 (paused.setPause { paused.pause with owed := [(pauseKey 3 causeEcc, 8), (pauseKey 6001 causeSwitch, 8)] }).pause.owed
        (pauseKey 6001 causeSwitch) = 8 ∧ paused.care.fills.any (fun x => x.spare == 1 && x.due) = false := by decide +kernel

/-- The tests rotate; fold 0 has the role given. -/
def rotating (role : Nat) : State := wr0 (wr0 r0 testPg F.ROT_CTRL_EN 1) (foldPg 0) F.FOLD_ROLE_ROLE role

theorem witness_rotation : ∀ s ∈ [rotating roleSpare, (slotted (rotating roleServing)).setDroves []],
    rd s testPg F.ROT_CTRL_EN = 1 ∧ dieTesting s 0 = false ∧ s.care.fills.any (fun x => dieOf x.spare == 0 && x.why == 0) = false
    ∧ (foldsOf 0).any (fun f => roleOf s f == roleQuarantined && !s.care.released.contains f) = false ∧ oldestFold s 0 = some 0 := by decide +kernel

theorem witness_rotationRoles : roleOf (rotating roleSpare) 0 = roleSpare
    ∧ roleOf (slotted (rotating roleServing)) 0 = roleServing ∧ slotOfFold (slotted (rotating roleServing)) 0 = some 0
    ∧ slotUsed ((slotted (rotating roleServing)).setDroves []) 0 = false := by decide +kernel

/-- Fold 67 has the role given. -/
def role67 (role : Nat) : State := wr0 r0 (foldPg 67) F.FOLD_ROLE_ROLE role

/-- Fold 67 is under test, and its sensor has published. -/
def tested67 : State := wr (role67 roleTesting) (hkPg 1) F.TELEM_NEVER 33 0

theorem witness_tests : roleOf (role67 roleQuarantined) 67 = roleQuarantined ∧ dieTesting (role67 roleQuarantined) (dieOf 67) = false
    ∧ (role67 roleQuarantined).care.released.contains 67 = false ∧ serviceWaits (role67 roleQuarantined) .tests = false
    ∧ tested67.care.forced.contains 67 = false ∧ tested67.care.fills.all (fun y => y.spare != 67) = true ∧ roleOf tested67 67 = roleTesting
    ∧ (∀ a, a < 16 → calPasses tested67 67 a (same.getD a ⟨[], [], [], 0, [], []⟩) = true)
    ∧ hasSample tested67 67 = true :=
  ⟨by decide +kernel, by decide +kernel, by decide +kernel, rfl, by decide +kernel, by decide +kernel, by decide +kernel, fun a ha => same_passes _ _ (by decide +kernel) a ha, by decide +kernel⟩

theorem witness_overdue : slotOfFold (slotted r0) 0 = some 0 ∧ slotUsed (slotted r0) 0 = true ∧ sparesOf (slotted r0) (dieOf 0) = []
    ∧ rdBit (slotted r0) testPg F.TEST_OVERDUE 0 0 = false := by decide +kernel

theorem witness_retire : let s := wr0 r0 testPg F.RETIRE_REQ_FOLD 67
    seesPage s .jtag testPg = true ∧ s.care.droveRan = false ∧ rd s testPg F.RETIRE_REQ_FOLD = 67 ∧ slotOfFold s 67 = none := by decide +kernel

theorem witness_foldStateWrite : seesPage r0 (.rdma 0) (foldPg 67) = true ∧ srcPen (.rdma 0) = 0 ∧ slotOfFold r0 67 = none ∧ (2 : BitVec 2) ≠ 3 := by
  decide +kernel

/-- A device-wide pause lasts as long as its longest cause (R138). -/
theorem test_pause : (after .pauseRelease paused).pause.taken = 8 ∧ rd (after .pauseRelease paused) (foldPg 67) F.PAUSE_SEEN_CYC = 8 := by decide +kernel

/-- A window write of −1 to the last element of the last tile (R147). -/
theorem test_tileWindow : let t := after (.tileWindowWrite .jtag 67 0x3FFFF8 (-1)) (wr0 r0 (foldPg 67) F.FOLD_STATE 1)
    getD 0 ((getFold t 67).tile 127).m 4095 = -1 := by decide +kernel

/-- Data that becomes visible stands in the vector store (R22). -/
theorem test_visible : readByte (after (.dataVisible (.fold 0) 0 .none) (flying false)) (vsAddr 0 0x3FFFFF) = 7 := by
  decide +kernel
/-! ## The tally -/

/-- The tally unit in a state. -/
def tallyAt (n : Nat) : State := wr0 r0 tallyPg F.TALLY_STATE_STATE n
/-- The bellwether. -/
def rootOf (s : State) : State := wr0 s tallyPg F.TALLY_CTRL_ROOT 1
/-- Link 95 leads to the parent, link 0 to a child, and both are UP. -/
def family (s : State) : State :=
  let s := wr0 (wr0 s (linkPg 95) F.LINK_STATE_STATE 2) (linkPg 0) F.LINK_STATE_STATE 2
  wr (wr0 (wr0 s tallyPg F.TALLY_LINKS_PVALID 1) tallyPg F.TALLY_LINKS_PARENT 95) tallyPg F.TALLY_CHILD 0 1
/-- A marker of domain 0. -/
def mark (num q : Nat) : Marker :=
  { domain := 0, sender := 1, hop := 0, num := num, time := 5000, q := q, commitExchange := false, childMissing := false, flocks := [], ready := []
    slacks := [] }
/-- The fold's step runs and the tally is in RUN. -/
def runningTally : State := wr0 issuing tallyPg F.TALLY_STATE_STATE 3
/-- The step of flock 0 has passed its commit point. -/
def doneStep : State := family (runningTally.setFlocks [(0, { Flock.init with phase := 3, entries := [0], done := true })])

/-- The head of a flit of sequence `n`, with a NACK or not, and with the CRC of its payload; it acknowledges the last flit before 0. -/
def headFor (n : BitVec 12) (nack : Bool) (typ : Nat) (zero : Bool) (more payload : List Byte) : FlitHead :=
  { seq := n, ack := 0, nack := nack, crc := BitVec.ofNat 32 (crc32 (flitHeader typ zero n.toNat 0 nack more ++ payload)), fec := false }

theorem headFor_ok (n : BitVec 12) (nack : Bool) (typ : Nat) (zero : Bool) (more payload : List Byte) :
    headCrcOk (headFor n nack typ zero more payload) typ zero more payload = true := by
  refine beq_iff_eq.2 ?_
  rw [show (headFor n nack typ zero more payload).crc = BitVec.ofNat 32 (crc32 (flitHeader typ zero n.toNat 0 nack more ++ payload)) from rfl,
    BitVec.toNat_ofNat, Nat.mod_eq_of_lt (show crc32 _ < 2 ^ 32 from BitVec.isLt _)]
  rfl

/-- A marker flit. -/
def flitOf (kind : Nat) (m : Marker) : MarkerFlit := ⟨headFor 0 false 2 false (zeroBytes 10) (markerBytes kind m), m⟩

theorem witness_tickFire : tallyState (rootOf (tallyAt 1)) = 1 ∧ isRoot (rootOf (tallyAt 1)) = true
    ∧ (let s := (tallyAt 3).setTally { Tally.init with q := some 64, next := some 6000 }
      tallyState s = 3 ∧ isRoot s = false ∧ mayFire s = true ∧ s.tally.next = some 6000)
    ∧ tallyState (tallyAt 2) = 2 ∧ mayFire (tallyAt 2) = true ∧ (tallyAt 2).tally.next = none ∧ (tallyAt 2).tally.start = false
    ∧ tallyState (tallyAt 3) = 3 ∧ mayFire (tallyAt 3) = false := by decide +kernel

/-- The step of flock 0 in its last tick, with a decision; and in the first of two. -/
def deciding (n : Nat) : State := runningTally.setFlocks [(0, { Flock.init with phase := 3, entries := [0], decision := n })]
/-- Two ticks. -/
def twoTicks : State := runningTally.setDroves [(0, { Drove.empty with st := 3, k := 2, ticks := [0, 0] })]

theorem witness_endStep : (∀ n ∈ [1, 2, 3], lastTick (deciding n) 0 = true ∧ (getFlock (deciding n) 0).decision = n) ∧ lastTick twoTicks 0 = false := by
  decide +kernel

theorem witness_enable : seesPage (tallyAt 0) .jtag tallyPg = true ∧ tallyState (tallyAt 0) = 0 ∧ isRoot (rootOf (tallyAt 2)) = true
    ∧ tallyState (rootOf (tallyAt 2)) = 2 ∧ ¬(isRoot (rootOf (tallyAt 3)) = true ∧ tallyState (rootOf (tallyAt 3)) = 2)
    ∧ (getFlock runningTally 0).entries ≠ [] := by decide +kernel

theorem witness_missing : tallyState doneStep = 3 ∧ isRoot doneStep = false ∧ doneStep.tally.q = none ∧ (getFlock doneStep 0).done = true
    ∧ (getFlock doneStep 0).decision = 0 := by decide +kernel

/-- Links whose next flit has sequence 0, and a device of domain 0. -/
def takesFirst (s : State) (l : Nat) : Prop :=
  linkUp s l = true ∧ (getLink s l).rxSeq = 0 ∧ (getLink s l).held = [] ∧ rd s tallyPg F.TALLY_DOMAIN_ID = 0

theorem marked_of (s : State) (l kind : Nat) (m : Marker) (h : takesFirst s l) (d : m.domain = 0) :
    marked s l (flitOf kind m).head m (markerBytes kind m) :=
  ⟨⟨h.1, rfl, rfl, h.2.1.symm, h.2.2.1⟩, headFor_ok _ _ _ _ _ _, d.trans h.2.2.2.symm⟩

theorem witness_marked : ∀ n ∈ [0, 1, 2, 3, 4], takesFirst (family (tallyAt n)) 95 := by
  unfold takesFirst
  decide +kernel

theorem witness_tick : (let s := family runningTally
      takesFirst s 95 ∧ fromAbove s 95 = true ∧ tallyState s = 3 ∧ firstCopy s 1 95 7 = true
        ∧ firstCopy (s.setTally { Tally.init with seen := [(1, ⟨7, 95, false⟩)] }) 1 95 7 = false) ∧
  (∀ n ∈ [0, 1, 2, 3, 4], tallyState (family (tallyAt n)) = n ∧ fromAbove (family (tallyAt n)) 95 = true
      ∧ firstCopy (family (tallyAt n)) 1 95 7 = true ∧ (family (tallyAt n)).tally.good < 15)
    ∧ firstCopy ((family (tallyAt 1)).setTally { Tally.init with seen := [(1, ⟨7, 95, false⟩)] }) 1 95 7 = false := by
  unfold takesFirst
  decide +kernel

/-- The offsets where the clauses meet: 256 counts as good, 257 does not; 2,048 keeps RUN, 2,049 loses it. -/
theorem witness_tickOffsets : (256 : Int).natAbs ≤ 256 ∧ 256 < (-257 : Int).natAbs ∧ (-2048 : Int).natAbs ≤ 2048 ∧ 2048 < (2049 : Int).natAbs
    ∧ (mark 7 0).num ≠ 0 := by decide

/-- The same, and the device has raised the most quanta that a tick can need. -/
def held : State := runningTally.setTally { Tally.init with hold := 64 }

theorem witness_hold : tallyState runningTally = 3 ∧ runningTally.tally.cutoff = false ∧ idle runningTally = false
    ∧ runningTally.power.droop = false ∧ (∀ k ∈ stepping held, neededQuanta held k ≤ held.tally.hold) ∧ stepping held ≠ []
    ∧ tallyState held = 3 ∧ held.tally.cutoff = false ∧ idle held = false ∧ held.power.droop = false ∧ rewriting held = false
    ∧ (∀ k, k < 16 → blockLate runningTally k = false) ∧ (∀ k, k < 16 → blockLate held k = false)
    ∧ rewriting runningTally = false := by decide +kernel

/-- A REPORT of the commit exchange. -/
def commitReport : Marker := { mark 0 5 with commitExchange := true, flocks := [⟨0, 2, 0⟩, ⟨15, 1, 0⟩] }

theorem witness_report : takesFirst doneStep 0 ∧ (mark 0 5).domain = 0 ∧ commitReport.domain = 0 ∧ fromChild doneStep 0 = true ∧ tallyState doneStep = 3 ∧ (mark 0 5).num = doneStep.tally.num
    ∧ doneStep.tally.sent = false ∧ doneStep.tally.q = none ∧ (mark 0 5).commitExchange = false
    ∧ (commitReport.flocks.map (·.flock)).Nodup ∧ (getFlock doneStep 0).decision = 0 := by
  unfold takesFirst
  decide +kernel

/-- RUN, past the cutoff. -/
def pastCutoff : State := (family (tallyAt 3)).setTally { Tally.init with cutoff := true }

theorem witness_holdReport : tallyState pastCutoff = 3 ∧ isRoot pastCutoff = false ∧ pastCutoff.tally.sent = false ∧ pastCutoff.tally.cutoff = true
    ∧ parentUp pastCutoff := by
  unfold parentUp
  decide +kernel

theorem witness_decide : tallyState (rootOf (tallyAt 3)) = 3 ∧ isRoot (rootOf (tallyAt 3)) = true ∧ (rootOf (tallyAt 3)).tally.q = none
    ∧ idle (rootOf (tallyAt 3)) = true ∧ idle (rootOf runningTally) = false
    ∧ ((rootOf runningTally).setTally { Tally.init with cutoff := true }).tally.cutoff = true := by decide +kernel

theorem witness_decideMarker : let s := family (tallyAt 3)
    takesFirst s 95 ∧ (mark 0 64).domain = 0 ∧ fromAbove s 95 = true ∧ tallyState s = 3 ∧ (mark 0 64).num = s.tally.num
    ∧ (∀ k ∈ [2, 3, 10], firstCopy s k 95 0 = true) := by
  unfold takesFirst
  decide +kernel

/-- A COMMIT of flock 0's step, and of another step than the one that runs on flock 15. -/
def commits : Marker := { mark 0 0 with commitExchange := true, flocks := [⟨0, 1, 1⟩, ⟨15, 1, 7⟩, ⟨2, 3, 0⟩] }

theorem witness_commitMarker : takesFirst doneStep 95 ∧ commits.domain = 0 ∧ fromAbove doneStep 95 = true ∧ tallyState doneStep = 3
    ∧ commits.num = doneStep.tally.num ∧ firstCopy doneStep 3 95 commits.num = true ∧ (commits.flocks.map (·.flock)).Nodup
    ∧ (getFlock doneStep 0).num = 1 ∧ (getFlock doneStep 15).num ≠ 7 := by
  unfold takesFirst
  decide +kernel

theorem witness_commit : (let s := doneStep.setTally { Tally.init with q := some 0 }
      tallyState s = 3 ∧ s.tally.q = some 0 ∧ stepping s = [0] ∧ lastTick s 0 = true ∧ (getFlock s 15).phase ≠ 3 ∧ (getFlock s 0).done = true)
    ∧ (let s := runningTally.setTally { Tally.init with q := some 0 }
      tallyState s = 3 ∧ s.power.droop = false ∧ stepping s = [0] ∧ lastTick s 0 = true ∧ (getFlock s 0).done = false ∧ commitComes s 0 = true)
    ∧ (let s := runningTally.setTally { Tally.init with q := some 64 }
      lastTick s 0 = true ∧ (getFlock s 0).done = false ∧ commitComes s 0 = false)
    ∧ tallyState doneStep = 3 ∧ isRoot doneStep = false ∧ exchangeDue doneStep = [0] ∧ parentUp doneStep
    ∧ isRoot (rootOf doneStep) = true ∧ exchangeDue (rootOf doneStep) = [0] := by
  unfold parentUp
  decide +kernel

/-- A swap of flock 15 for the drove whose digest is all ones. -/
def swap15 : SwapFields := ⟨15, 0, List.replicate 32 0, List.replicate 32 1, 100⟩
/-- RUN, with the swap announced on flock 15. -/
def announced : State := (family (tallyAt 3)).setFlocks [(15, { Flock.init with swap := some ⟨List.replicate 32 1, 100, false, 0, none, none⟩ })]

/-- A SWAP flit of a phase. -/
def swapFlit (phase : Nat) : SwapFlit := ⟨headFor 0 false 2 false (zeroBytes 10) (swapBytes phase (mark 0 0) swap15), mark 0 0, swap15⟩

theorem swap_marked (p : Nat) (h : takesFirst announced 95) : marked announced 95 (swapFlit p).head (mark 0 0) (swapBytes p (mark 0 0) swap15) :=
  ⟨⟨h.1, rfl, rfl, h.2.1.symm, h.2.2.1⟩, headFor_ok _ _ _ _ _ _, h.2.2.2.symm⟩

theorem witness_swaps : takesFirst announced 95 ∧ (∀ p ∈ [1, 2, 3], announced.tally.swaps.contains (0, p, swap15) = false)
    ∧ fromAbove announced 95 = true ∧ tallyState announced = 3 ∧ (getFlock (announced.setFlocks []) 15).swap = none
    ∧ (getFlock announced 15).swap = some ⟨List.replicate 32 1, 100, false, 0, none, none⟩
    ∧ swapTiming announced 15 ⟨List.replicate 32 1, 100, false, 0, none, none⟩ = true := by
  unfold takesFirst
  decide +kernel

/-- The incoming drove is LOADED and confirmed in entry 31, and flock 15 has an active drove in entry 0; they time-share, or not. -/
def incoming (shared : Bool) (pen : Option Nat) : State := (announced.setDroves [(0, { Drove.empty with st := 3, k := 1, flock := 15, shared := shared }),
    (31, { Drove.empty with st := 2, confirmed := true, k := 1, digest := List.replicate 32 1, shared := shared, shareMask := 2 })]).setFlocks
  [(15, { Flock.init with phase := 3, entries := [0], swap := some ⟨List.replicate 32 1, 100, true, 0, none, pen⟩ })]

theorem witness_applySwap : ∀ pen ∈ [none, some 0], ∀ b, confirmedEntry (incoming b pen) 15 = some 31 ∧ joins (incoming b pen) 15 31 = b
    ∧ (getFlock (incoming b pen) 15).entries.all (· != 31) = true ∧ (getFlock (incoming b pen) 15).entries = [0] := by decide +kernel

/-- A swap does not take a drove of another pen (R364). -/
theorem test_swapPen : confirmedEntry (incoming false (some 1)) 15 = none := by decide +kernel

/-- Flock 0 is in its page tick. -/
def pageTicking : State := runningTally.setFlocks [(0, { Flock.init with phase := 2, entries := [0] })]

theorem witness_pageTick : tallyState pageTicking = 3 ∧ paging pageTicking = [0] ∧ pageTicking.tally.paged = 0
    ∧ (pageTicking.setTally { Tally.init with paged := 1 }).tally.paged = 1 := by decide +kernel

theorem witness_checkpoint : (getCkpt (r0.setDrover { Drover.init with ckpts := [(16 * 15 + 15, { Ckpt.init with writing := some (9, 1, [7]) })] }) 15 15).writing
    = some (9, 1, [7]) := by decide +kernel

/-- The drove of flock 0 has a lane. -/
def laned : State := runningTally.setDroves
  [(0, { Drove.empty with st := 3, k := 1, ticks := [0], lanes := { LaneTable.none with lanes := [⟨0, 0, 0, 1, 1, 3, 0, 1⟩] } })]

theorem witness_laneBlock : (buildDrove laned 0).isSome = true ∧ (buildDrove laned 0).all (fun d => d.lanes.lanes != []) = true ∧ isLead laned 0 = true ∧ (getFlock laned 0).phase = 3
    ∧ serviceWaits laned .laneBlocks = false ∧ (getServing laned 0).built ≠ buildStep (getFlock laned 0) + 1 := by decide +kernel

theorem witness_laneBlockLand : let s := issuing.setDrover { Drover.init with flocks := [(0, { Serving.init with blockStep := 2, block := [7] })] }
    foldFlock s 0 = some 0 ∧ (getServing s 0).blockStep = 2 ∧ (getFold s 0).landed ≠ some 1
    ∧ isMem s (vsAddr 0 (64 * bits (controlBlock s 0) (16 + 16 * (1 - (getFold s 0).laneBuf)) 16)) = true := by decide +kernel

/-- The bellwether decides the largest HOLD: F(n + 1) = F(n) + U + Q·q (R204, R220). -/
theorem test_decide : (after .decideSend ((rootOf runningTally).setTally { Tally.init with cutoff := true, hold := 3, childHold := 5 })).tally.q = some 5 := by
  decide +kernel

/-- In an idle tick it decides 0 (R220). -/
theorem test_decideIdle : (after .decideSend ((rootOf (tallyAt 3)).setTally { Tally.init with cutoff := true, hold := 3 })).tally.q = some 0 := by
  decide +kernel

/-- A copy of a TICK is no first one (R207). -/
theorem test_tickTwice : firstCopy (noteSeen (family (tallyAt 1)) 1 95 7) 1 0 7 = false := by decide +kernel

/-- The CRC of the nine digits 1 to 9 (R323). -/
theorem test_crc : crc32 [0x31, 0x32, 0x33, 0x34, 0x35, 0x36, 0x37, 0x38, 0x39] = 0xCBF43926 := by decide +kernel

/-! ## Messages -/

/-- The head of a message of sequence `n` on channel 127 of pen `p`. -/
def head (p : Fin 16) (n : BitVec 24) : MsgHead := { pen := p, ch := 127, seq := n, tag := 77, bad := false, pkt := ⟨9, false, false⟩ }
/-- Channel 127 of pen `p` is open on queue pair 5, and its last message had sequence 2^24 − 1. -/
def chan (s : State) (p : Nat) : State :=
  let s := s.setBoot { s.boot with up := true, romHalt := false }
  wr (wr (s.setNet { s.net with qps := [(5, { Qp.init with st := 1, epsn := 9, mtu := 256, limit := 7 })], chans := [(128 * p + 127, { Chan.init with seq := 2 ^ 24 - 1, answers := [(2 ^ 24 - 2, [9])], open_ := [2 ^ 24 - 1] })] })
    (penPg p) F.CH_STATE_STATE 127 1) (penPg p) F.CH_STATE_QP 127 5
/-- Zeros. -/
def z (n : Nat) : List Byte := List.replicate n 0
/-- A well-formed body for each message of `messages`. -/
def bodies : List (List Byte) :=
  [[], [], z 64, z 2, z 8, z 32, z 48, z 8, z 24, z 16, z 8, z 16, z 2, 1 :: z 246, 2 :: z 19, 3 :: z 19, [4, 0, 1], [4, 0, 2], [4, 0, 3],
    [4, 0, 4], [4, 0, 5], 1 :: z 15 ++ 4 :: z 15, 3 :: z 31, 4 :: z 31]

theorem witness_next : nextOn (chan r0 0) (head 0 0) := by
  unfold nextOn nextIn sendsInOrder ordered
  decide +kernel

/-- A header with a reserved field that is not 0; and SENDs with another PSN than the one expected, or a bad ICRC. -/
theorem witness_badHead : nextIn (chan r0 0) { head 0 0 with bad := true } ∧ ¬sendsInOrder (chan r0 0) { head 0 0 with pkt := ⟨8, false, false⟩ }
    ∧ ¬sendsInOrder (chan r0 0) { head 0 0 with pkt := ⟨9, false, true⟩ } ∧ chanState (chan r0 0) 0 127 ≠ 0 := by
  unfold nextIn sendsInOrder ordered
  decide +kernel

/-- The next message of a pen other than 0. -/
theorem witness_next15 : nextIn (chan r0 15) (head 15 0) := by
  unfold nextIn sendsInOrder ordered
  decide +kernel

/-- Every message can be well formed and allowed, and malformed. -/
theorem witness_messages : bodies.length = 24 ∧ (messages (chan r0 0) (head 0 0) []).length = 24
    ∧ (∀ i, i < 24 → ((messages (chan r0 0) (head 0 0) (bodies.getD i [])).map (fun e => e.2.2.1 && e.2.2.2.1)).getD i false = true)
    ∧ (messages (chan r0 0) (head 0 0) [9]).all (fun e => !e.2.2.2.1) = true := by decide +kernel

/-- A pen other than 0 may not send MGMT and DEBUG messages. -/
theorem witness_badPen : ∀ i, 13 ≤ i → i < 24 →
    ((messages (chan r0 15) (head 15 0) (bodies.getD i [])).map (fun e => !e.2.2.1 && e.2.2.2.1)).getD i false = true := by decide +kernel

/-- A message past a gap; and those that are not newer: answered, under way, and older. -/
theorem witness_outOfSequence : serialNewer 24 (1 : BitVec 24).toNat (getChan (chan r0 0) 0 127).seq = true
    ∧ (1 : BitVec 24).toNat ≠ ((getChan (chan r0 0) 0 127).seq + 1) % 2 ^ 24
    ∧ (∀ n ∈ [2, 1, 3], serialNewer 24 (2 ^ 24 - n) (getChan (chan r0 0) 0 127).seq = false
      ∧ 2 ^ 24 - n ≠ ((getChan (chan r0 0) 0 127).seq + 1) % 2 ^ 24)
    ∧ (getChan (chan r0 0) 0 127).answers.find? (fun a => a.1 == 2 ^ 24 - 2) = some (2 ^ 24 - 2, [9])
    ∧ (∀ n ∈ [1, 3], (getChan (chan r0 0) 0 127).answers.find? (fun a => a.1 == 2 ^ 24 - n) = none
      ∧ (getChan (chan r0 0) 0 127).open_.contains (2 ^ 24 - n) = (n == 1)) ∧ chanState r0 0 127 = 0
    ∧ (∀ n ∈ [1, 2 ^ 24 - 1, 2 ^ 24 - 2, 2 ^ 24 - 3], sendsInOrder (chan r0 0) (head 0 (BitVec.ofNat 24 n))) := by
  unfold sendsInOrder ordered
  decide +kernel

theorem witness_unknown : knownTypes.contains (0x51 : BitVec 8).toNat = false ∧ admitBody (z 64) = true ∧ (z 2).length = 2 := by decide +kernel

/-- A load of an image that fails its first check, new or that of a LOADED entry. -/
theorem witness_droveLoad : (z 8).length = 8 ∧ ∀ s ∈ [chan r0 0, (chan r0 0).setDroves [(31, { Drove.empty with st := 2, digest := z 32 })]],
    (readDrove (fun a n => winLe s 0 a n) 0 0 (z 32)).digest = z 32
    ∧ (s = chan r0 0 ∨ (entryOf s 0 (z 32)).orElse (fun _ => freeEntry s) = some 31)
    ∧ loadStatus (taken s (head 0 0) (z 8)) (fun a n => winLe s 0 a n) 0 0 (readDrove (fun a n => winLe s 0 a n) 0 0 (z 32)) = 1 := by decide +kernel

theorem witness_droveLoadNew : (entryOf (chan r0 0) 0 (z 32)).orElse (fun _ => freeEntry (chan r0 0)) = some 0 := by decide +kernel

/-- A LOADED drove, and an ACTIVE one. -/
theorem witness_droveUnload : ∀ n ∈ [2, 3], let s := (chan r0 0).setDroves [(31, { Drove.empty with st := n, digest := z 32 })]
    entryOf s 0 (z 32) = some 31 ∧ ((getDrove s 31).st = 2 ∧ (getDrove s 31).confirmed = false ↔ n = 2) := by decide +kernel

theorem witness_droveSwap : let s := rootOf (wr0 (chan r0 0) tallyPg F.TALLY_STATE_STATE 3)
    let b := 15 :: z 39 ++ 16 :: z 7
    swapBody b = true ∧ isRoot s = true ∧ tallyState s = 3 ∧ s.tally.num + 16 = fieldNat b 40 8 ∧ (getFlock s 15).swap = none
    ∧ flockDrove s 15 = none := by decide +kernel

theorem witness_loadDone : serviceWaits (r0.setDroves []) .droveLoad = false ∧ (head 0 0).life = chanLife r0 0 127 ∧ (getDrove (r0.setDroves [(31, { Drove.empty with st := 1, waiting := some (head 0 0) })]) 31).st = 1
    ∧ (getDrove (r0.setDroves [(31, { Drove.empty with st := 1, waiting := some (head 0 0) })]) 31).waiting = some (head 0 0) := by decide +kernel

theorem witness_epochOpen : let b : List Byte := 7 :: z 3 ++ [0xFF, 0xFF, 0, 0]
    b.length = 8 ∧ restZero b 0 [(0, 2), (4, 8)] = true ∧ fieldNat b 0 2 = 7 ∧ fieldNat b 4 4 = 65535
    ∧ epochOf (chan r0 0) 0 7 = none ∧ freeEpoch (chan r0 0) 0 = some 0 := by decide +kernel

/-- Pen 0 holds epoch 7 in a state, and a drove of its own requires it. -/
def epoch7 (st : Nat) : State := (wr (wr (chan r0 0) (penPg 0) F.EPOCH0_ID 1 7) (penPg 0) F.EPOCH0_STATE 1 st).setDroves
  [(31, { Drove.empty with st := 3, epochs := [(7, [])] })]

theorem witness_epochSwitch : let b : List Byte := 7 :: z 15
    restZero b 0 [(0, 3), (8, 16)] = true ∧ switchStatus (epoch7 2) 0 (fieldNat b 0 2) (fieldNat b 2 1) = (0, 1) := by decide +kernel

theorem witness_epochRetire : let s := (epoch7 4).setDroves []
    epochOf s 0 (fieldNat [7, 0] 0 2) = some 1 ∧ rd s (penPg 0) F.EPOCH0_STATE 1 ∈ [1, 2, 4]
    ∧ rd s (penPg 0) F.EPOCH2 1 = 0 ∧ epochNeeded s 0 7 true = false := by decide +kernel

theorem witness_shardFetch : let s := wr (chan r0 0) wloadPg F.WL_TARGET_STATE 63 1
    let b : List Byte := 63 :: z 15 ++ 1 :: z 7
    b.length = 24 ∧ restZero b 0 [(0, 1), (4, 24)] = true ∧ fieldNat b 0 1 = 63 ∧ fieldNat b 16 8 = 1
    ∧ rd s wloadPg F.WL_TARGET_STATE 63 ≠ 0 ∧ rd s wloadPg F.WL_TARGET_PEN 63 = 0 := by decide +kernel

theorem witness_shardPush : let b : List Byte := z 8 ++ [0, 1] ++ z 6
    b.length = 16 ∧ fieldNat b 0 8 % 4096 = 0 ∧ fieldNat b 8 8 = 256
    ∧ inWindow (extent (chan r0 0) 0) 0 (fieldNat b 0 8) (fieldNat b 8 8) = true := by decide +kernel

/-- An arrival of pen 0 that message 77 asked for, with one command outstanding that has been sent `n` times again. -/
def arrival (n : Nat) : Arrival :=
  { head := some (head 0 0), source := ⟨false, 63, 1, 0, 4096⟩, cmds := [⟨5, 0, 4096, n, none⟩], asked := 4096, place := none, header := [], repair := false
    held := none }
/-- It is under way, and target 63 is connected on queue pair 1,023. -/
def arriving (a : Arrival) : State :=
  let s := (chan r0 0).setWeights { Weights.init with arriving := [a], targets := [(63, { Target.none with qp := 1024 })] }
  s.setNet { s.net with qps := [(1023, { Qp.init with st := 1, epsn := 9, mtu := 256, limit := 7 })] }

theorem witness_cancel : findArrival (arriving (arrival 0)) 0 (fieldNat (77 :: z 7) 0 8) = some (arrival 0) ∧ findArrival (chan r0 0) 0 77 = none := by
  decide +kernel

/-- A command of offset 0 or 131,072, tried twice or three times again. -/
theorem witness_nvme : ∀ n ∈ [2, 3], ∀ o ∈ [0, 131072],
    (findCmd (arriving { arrival n with cmds := [⟨5, o, 4096, n, none⟩] }) 63 5).map (fun x => (x.2.tries, x.2.off)) = some (n, o)
    ∧ targetQp (arriving (arrival n)) 63 = some 1023 ∧ (getQp (arriving (arrival n)) 1023).st = 1
    ∧ ordered (arriving (arrival n)) 1023 ⟨9, false, false⟩ := by
  unfold ordered
  decide +kernel

/-- A first command of a fetch that the device itself started. -/
theorem witness_refetch : ((findCmd (arriving { arrival 0 with head := none }) 63 5).map (fun x => (x.1.head.isNone, x.2.off))) = some (true, 0) := by decide +kernel

/-- A pushed shard of pen 0 that has arrived, in entry 1. -/
def pushed : Arrival :=
  { head := some (head 0 0), source := ⟨true, 0, 0, 0, 256⟩, cmds := [], asked := 0, place := some (1, 0, 0, 0), header := z 256, repair := false, held := none }

theorem witness_shardComplete : findArrival (arriving pushed) 0 (77 : BitVec 64).toNat = some pushed ∧ pushed.arrived = true
    ∧ (underWay (arriving pushed)).contains pushed = true ∧ pushed.held = none ∧ pushed.repair = false ∧ (shardHeader pushed.header).flags ≠ 1 := by decide +kernel

/-- The same with its write to slot 0 held, while the drove of `busy` reads there. -/
def heldWrite (busy : Bool) : State := (arriving { pushed with held := some ([], []) }).setDroves
  [(0, { Drove.empty with st := 3, ranges := if busy then [(0, 0, 192)] else [] })]

theorem witness_resume : (heldWrite true).weights.arriving.length = 1
    ∧ stagingBusy (heldWrite true) 0 0 1 = true ∧ stagingBusy (heldWrite false) 0 0 1 = false := by decide +kernel

/-- A shard of no planes of pen 0's epoch 7, whose digest is that of nothing; it is damaged or not. -/
def shard (damaged : Bool) : Shard :=
  { index := 65534, digest := sha256 [], addr := 0, planes := 0, stage := some (0, 0), source := ⟨true, 0, 0, 0, 0⟩, checked := 0, damaged := damaged }
/-- It is resident in entry 1. -/
def resident (damaged : Bool) : State := (slotted (epoch7 3)).setWeights { Weights.init with shards := [(1, [shard damaged])] }

theorem witness_recheck : epochShards (resident false) 0 1 = [shard false] ∧ hbmCopy (resident false) 0 (shard false) = []
    ∧ (∀ p, p < 16 → ∀ k, k < 2 → ((epochShards (resident false) p k).map (·.index)).Nodup)
    ∧ (∀ p, p < 16 → ∀ k, k < 2 → (p, k) ≠ (0, 1) → epochShards (resident false) p k = []) :=
  ⟨rfl, rfl, by decide +kernel, by decide +kernel⟩

theorem witness_repair : epochOf (resident true) 0 7 = some 1
    ∧ (epochShards (resident true) 0 1).find? (fun x => x.index == 65534 && x.damaged) = some (shard true)
    ∧ stagingCopy (resident true) (shard true) = some [] ∧ sha256 [] = (shard true).digest ∧ serviceWaits (resident true) .repair = false :=
  ⟨by decide +kernel, rfl, rfl, rfl, by decide +kernel⟩

theorem witness_mgmt : (1 :: 63 :: 15 :: z 244).length = 247 ∧ num (1 :: 63 :: 15 :: z 244) 1 1 = 63 ∧ num (1 :: 63 :: 15 :: z 244) 2 1 = 15
    ∧ manifestOk [] = false ∧ inWindow (chan r0 0) 0 (num (2 :: z 15 ++ [1, 0, 0, 0]) 8 8) (num (2 :: z 15 ++ [1, 0, 0, 0]) 16 4) = false
    ∧ zeroAt (2 :: z 15 ++ [1, 0, 0, 0]) 2 6 = true ∧ num (3 :: z 17 ++ [1, 0]) 16 4 = 65536 ∧ (getBank (chan r0 0) (idleBank (chan r0 0))).st = 0 := by
  refine ⟨rfl, by decide +kernel, by decide +kernel, ?_, by decide +kernel, by decide +kernel, by decide +kernel, by decide +kernel⟩
  unfold manifestOk
  exact Bool.and_eq_false_iff.2 (Or.inl (by decide +kernel))

/-- Channel 127 of pen 0, with banks in the given states; bank 0 runs. -/
def banked (a b : Nat) : State := let s := chan r0 0
  s.setBoot { s.boot with flash := { s.boot.flash with bank0 := Bank.empty.mark a 0, bank1 := Bank.empty.mark b 0 } }

/-- A new target of pen 15 finds room for a queue pair. -/
theorem witness_target : targetQp (chan r0 0) 63 = none
    ∧ roomForQp (taken (wr0 (chan r0 0) (penPg 15) F.PEN_QP_QUOTA 1) (head 0 0) (1 :: 63 :: 15 :: z 244)) 15 = some 0 := by decide +kernel

theorem witness_banks : (getBank (banked 5 1) (idleBank (banked 5 1))).st = 1 ∧ (getBank (banked 5 3) (idleBank (banked 5 3))).st ∈ [1, 2, 3]
    ∧ (getBank (banked 5 2) (idleBank (banked 5 2))).st = 2 ∧ bankIn (banked 4 5) 5 = some (1 - 0) ∧ bankIn (banked 4 5) 4 = some 0
    ∧ num [4, 0, 5] 2 1 = 5 := by decide +kernel

theorem witness_firmwareBegin : let b : List Byte := 2 :: z 15 ++ [1, 0, 0, 0]
    let s := extent (chan r0 0) 0
    b.length = 20 ∧ zeroAt b 2 6 = true ∧ inWindow s 0 (num b 8 8) (num b 16 4) = true ∧ bankIn s 4 = none ∧ getBank s (idleBank s) = Bank.empty := by
  decide +kernel

/-- Bank 1 fills: an image of 65,537 bytes in two pieces, the second of which is one zero byte. -/
def fillingBank : State := let s := extent (chan r0 0) 0
  s.setBoot { s.boot with flash := { s.boot.flash with bank1 :=
    { Bank.empty with manifest := z 16 ++ [1, 0, 1, 0, 2] ++ z 1035 ++ sha256 [0] }.mark 1 0 } }

theorem witness_firmwarePiece : let b : List Byte := 3 :: z 3 ++ [1] ++ z 11 ++ [1, 0, 0, 0]
    let x := getBank fillingBank (idleBank fillingBank)
    b.length = 20 ∧ num b 0 1 = 3 ∧ zeroAt b 2 2 = true ∧ num b 4 4 = 1 ∧ num b 16 4 = 1 ∧ x.st = 1
    ∧ winBytes fillingBank 0 (num b 8 8) (num b 16 4) = [0] ∧ pieceFits (num x.manifest 16 4) (manifestPieces x.manifest) 1 1 = true
    ∧ getD [] x.pieces 1 = [] ∧ sha256 [0] = slice x.manifest 1056 32 ∧ (putD [] x.pieces 1 ([0] : List Byte)).length < manifestPieces x.manifest := by
  decide +kernel

theorem witness_debug : debugAllowed (chan r0 0) (head 0 0) = true ∧ debugForm (3 :: 3 :: z 30) 3 = true ∧ debugForm (4 :: 3 :: z 30) 4 = true
    ∧ debugForm (1 :: z 15 ++ [0, 16] ++ z 14) 1 = true ∧ debugForm (2 :: z 11 ++ [1, 0, 0, 0, 4] ++ z 19) 2 = true
    ∧ num (2 :: z 11 ++ [1, 0, 0, 0, 4] ++ z 19) 16 4 = 4 ∧ num (2 :: z 11 ++ [1, 0, 0, 0, 4] ++ z 19) 8 8 < 0x10000000000
    ∧ isMem (chan r0 0) (num (2 :: z 11 ++ [1, 0, 0, 0, 4] ++ z 19) 8 8) = true ∧ (chan r0 0).rung = [] := by decide +kernel

/-- A channel answers a repeated message with the answer that it keeps (R354). -/
theorem test_repeat : (after (.nop (head 0 (BitVec.ofNat 24 (2 ^ 24 - 2))) []) (chan r0 0)).out.getLast? = some (.response 0 127 [9]) := by decide +kernel

/-- An epoch of 65,536 shards is refused (R279). -/
theorem test_epochOpen : rd (after (.epochOpen (head 0 0) (7 :: z 3 ++ [0, 0, 1, 0])) (chan r0 0)) (penPg 0) F.EPOCH0_ID 0 = 0 := by decide +kernel

/-- SHA-256 of nothing begins e3 b0 c4 42 (FIPS 180-4). -/
theorem test_sha256 : (sha256 []).take 4 = [0xe3, 0xb0, 0xc4, 0x42] := by decide +kernel
/-! ## HBM lines -/

theorem witness_scrub : (lineCounters (stagingAddr 67 0xBFFFC0)).isSome = true ∧ (lineCounters (0x10000000000 - 64)).isSome = true
    ∧ stagingFold (stagingAddr 67 0xBFFFC0) = some 67 ∧ hbmStack (0x10000000000 - 64) = some 7 := by decide +kernel

/-- The request register of stack 7 names pseudo-channel 63. -/
def retiring (st : Nat) : State := wr0 (wr0 (wr0 r0 (hbmPg 7) F.HBM_RETIRE_REQ_PC 63) (hbmPg 7) F.HBM_RETIRE_STATE_STATE st) (hbmPg 7) F.HBM_RETIRE_STATE_PC 63

theorem witness_hbmRetire : seesPage (retiring 0) .jtag (hbmPg 7) = true ∧ rd (retiring 0) (hbmPg 7) F.HBM_RETIRE_REQ_PC = 63
    ∧ rd (retiring 0) (hbmPg 7) F.HBM_RETIRE_STATE_STATE = 0 ∧ rdBit (retiring 0) (hbmPg 7) F.HBM_RETIRED 1 31 = false
    ∧ reachesTop (retiring 0) (portOfPc 7 63) = false ∧ bit (retiring 0).hbmShort (portOfPc 7 63) = false := by decide +kernel

/-- An extent of pen 15 that ends at 24 GiB of port 31. -/
def topExtent : State := wr0 (wr0 (wr0 (wr0 (retiring 0) (penPg 15) F.EXT0_VALID 1) (penPg 15) F.EXT0_PORT 31) (penPg 15) F.EXT0_START 0) (penPg 15) F.EXT1 1535

theorem witness_hbmRetireBlocked : reachesTop topExtent (portOfPc 7 63) = true := by decide +kernel

theorem witness_retireDone : rd (retiring 1) (hbmPg 7) F.HBM_RETIRE_STATE_STATE = 1 ∧ rd (retiring 1) (hbmPg 7) F.HBM_RETIRE_STATE_PC = 63
    ∧ portActive (retiring 1) 31 = false ∧ rd (retiring 1) (hbmPg 7) F.HBM_CAP < 2 ^ 16
    ∧ portActive ((retiring 1).setDroves [(0, { Drove.empty with st := 3, ports := [(31, 0, 0)] })]) 31 = true := by decide +kernel

/-- 85 °C is 1,360 in 1/16 °C: it does not double refresh, 1/16 °C more does (R252). -/
theorem test_refresh : rd (after (.hbmTempReport 7 1360) r0) (hbmPg 7) F.HBM_TEMP_DOUBLED = 0
    ∧ rd (after (.hbmTempReport 7 1361) r0) (hbmPg 7) F.HBM_TEMP_DOUBLED = 1 := by decide +kernel

/-! ## Links, messages and the muster chain -/

/-- A flit of a type with sequence `n`, with a NACK or not, for device `dev`. -/
def flit (typ : Nat) (n : BitVec 12) (nack : Bool) (dev : BitVec 15) (payload : List Byte) : Flit :=
  { head := headFor n nack typ false (if typ = 1 then dataHeader dev.toNat 0 0 0 0 else zeroBytes 10) payload
    zero := false, dev := dev, slot := 0, space := 0, addr := 0, tally := 0, payload := payload, stop := true }

theorem flit_ok (typ : Nat) (n : BitVec 12) (nack : Bool) (dev : BitVec 15) (payload : List Byte) : flitCrcOk (flit typ n nack dev payload) typ = true := by
  unfold flitCrcOk
  rewrite [show (typ == 1 && (flit typ n nack dev payload).zero) = false from Bool.and_false _]
  exact headFor_ok _ _ _ _ _ _

/-- A flit of the expected sequence arrives in order on a link that takes it. -/
theorem inOrder_of (s : State) (l : Fin 96) (typ : Nat) (dev : BitVec 15) (payload : List Byte) (h : takesFirst s l) :
    inOrder s l (flit typ 0 false dev payload) typ :=
  ⟨⟨h.1, rfl, rfl, h.2.1.symm, h.2.2.1⟩, flit_ok _ _ _ _ _⟩

/-- Link 95 in a state. -/
def link95 (st : Nat) : State := wr0 r0 (linkPg 95) F.LINK_STATE_STATE st
/-- Link 95 UP, with its own state. -/
def up95 (x : Link) : State := (link95 2).setLinks [(95, x)]

/-- A link that is down, an error of FEC, a flit past a missing one, an older one, and one with a NACK that covers nothing. -/
theorem witness_flits : linkUp r0 95 = false ∧ takesFirst (link95 2) 95 ∧ ({ (flit 1 0 false 0 []).head with fec := true } : FlitHead).fec = true
    ∧ serialNewer 12 (1 : BitVec 12).toNat (getLink (link95 2) 95).rxSeq = true ∧ serialNewer 12 (4095 : BitVec 12).toNat (getLink (link95 2) 95).rxSeq = false
    ∧ (getLink (up95 { Link.init with txSeq := 1, buffer := [(0, .ctrl true)] }) 95).replays = 0
    ∧ afterAck (getLink (up95 { Link.init with txSeq := 1, buffer := [(0, .ctrl true)] }) 95) 0 = [(0, .ctrl true)]
    ∧ rd (link95 2) (linkPg 95) F.FEC_UNCORR_CW < 2 ^ 32 - 2 ∧ rd (link95 2) (linkPg 95) F.FLIT_CRC_ERR < 2 ^ 32 - 2 := by
  unfold takesFirst
  decide +kernel

/-- A flit whose payload its CRC does not cover: the right CRC with one bit turned. -/
theorem witness_badCrc : flitCrcOk { flit 3 0 false 0 [] with head := { (flit 3 0 false 0 []).head with crc := (flit 3 0 false 0 []).head.crc ^^^ 1 } } 3 = false := by
  decide +kernel

/-- The running drove of flock 0 has a receive entry and forward entries for link 95; the slot of the flit is served. -/
def expecting : State := (slotted (wr0 (wr0 runningTally (linkPg 95) F.LINK_STATE_STATE 2) bootPg F.DEVICE_ID_ID 3)).setDroves
  [(0, { Drove.empty with st := 3, k := 1, ticks := [0], folds := 1, links :=
    [⟨4, 0, 500, 1, 95, 9, 0, 0⟩, ⟨1, 0, 90, 1, 95, 95, 0, 0⟩, ⟨3, 0, 500, 1, 0, 95, 0, 0⟩] })]

theorem witness_dataFlit : takesFirst expecting 95 ∧ (getLink expecting 95).landing.length < 512
    ∧ (flit 1 0 false 3 []).dev.toNat = ownId expecting ∧ (receiveEntry expecting 95).isSome = true
    ∧ (flit 1 0 false 3 []).tally.toNat = expecting.tally.num % 65536 ∧ (flit 1 0 false 3 []).space.toNat < 2
    ∧ foldOfSlot expecting (flit 1 0 false 3 []).slot.toNat = some 0
    ∧ (flit 1 0 false 4 []).dev.toNat ≠ ownId expecting ∧ (forwardEntry expecting 95).isSome = true
    ∧ receiveEntry (link95 2) 95 = none ∧ forwardEntry (link95 2) 95 = none
    ∧ (1 : BitVec 16).toNat ≠ expecting.tally.num % 65536 ∧ (2 : BitVec 2).toNat = 2 := by
  unfold takesFirst
  decide +kernel

/-- The landing space is full. -/
theorem witness_landingFull : 512 ≤ (getLink (up95 { Link.init with landing := List.replicate 512 ⟨0, 0, []⟩ }) 95).landing.length
    ∧ takesFirst (up95 { Link.init with landing := List.replicate 512 ⟨0, 0, []⟩ }) 95 := by
  unfold takesFirst
  decide +kernel

/-- The stop bit was set. -/
theorem witness_stop : (getLink (up95 { Link.init with stopped := true }) 95).stopped = true ∧ takesFirst (up95 { Link.init with stopped := true }) 95 := by
  unfold takesFirst
  decide +kernel

theorem witness_msgFlit : (parseMsg [4, 0]).dest = 4 ∧ (let s := (wr0 (link95 2) bootPg F.DEVICE_ID_ID 3).setViews { Views.init with routes := [(4, 95 + 128)] }
    ownId s = 3 ∧ primaryLink s (parseMsg [4, 0]).dest = some 95 ∧ linkUp s 95 = true ∧ (getLink s 95).buffer.length < 512 ∧ takesFirst s 95) := by
  unfold takesFirst
  decide +kernel

theorem witness_linkStates : linkState r0 95 = 0 ∧ idValid (wr0 r0 bootPg F.DEVICE_ID_VALID 1) = true ∧ idValid r0 = false ∧ seesPage r0 .jtag (linkPg 95) = true
    ∧ linkState (link95 2) 95 ≠ 0 ∧ linkState (link95 1) 95 = 1 ∧ linkState (link95 3) 95 = 3 ∧ (0 : Word).toNat = rd (link95 1) bootPg F.INSTALL_ID
    ∧ (1 : Word).toNat ≠ rd (link95 1) bootPg F.INSTALL_ID ∧ rd (link95 1) (linkPg 95) F.LINK_FAIL_CNT < 2 ^ 32 - 2
    ∧ (getLink (link95 1) 95).stopped = false := by decide +kernel

/-- A scheduled flit whose slot comes in cycle 32, or that came late. -/
def outFlit (late : Bool) : OutFlit := ⟨32, late, ⟨false, 9, 0, 0, 0, 0, []⟩⟩
/-- Link 95 UP at cycle 32 of a tick, with flits unacknowledged, `n` replays, a flit scheduled or one to forward. -/
def retrying (m n : Nat) (sched fwd : List OutFlit) : State :=
  (wr0 (foldAs (fun x => { x with next := 32 })) (linkPg 95) F.LINK_STATE_STATE 2).setLinks
    [(95, { Link.init with txSeq := 1, buffer := List.replicate m (0, .data (outFlit false).flit), replays := n, sched := sched, fwd := fwd })]

theorem witness_retry : linkUp (retrying 1 7 [] []) 95 = true ∧ (getLink (retrying 1 7 [] []) 95).buffer = [(0, .data (outFlit false).flit)]
    ∧ (getLink (retrying 1 7 [] []) 95).replays = 7 ∧ (getLink (retrying 1 8 [] []) 95).replays = 8 ∧ (getLink (retrying 0 0 [] []) 95).buffer = []
    ∧ linkUp ((retrying 0 0 [] []).setRegs []) 95 = false ∧ rd (retrying 1 7 [] []) (linkPg 95) F.LINK_REPLAY_CNT < 2 ^ 32 - 2 := by decide +kernel

/-- A flit in its own slot, a forwarded one, and a late one, each with room in the replay buffer and without. -/
theorem witness_slots : ∀ m ∈ [0, 512],
    slotFlit (retrying m 0 [outFlit false] []) (getLink (retrying m 0 [outFlit false] []) 95).sched = some (outFlit false)
    ∧ (∀ b, forwardNext (retrying m 0 [] [outFlit b]) 95 = some (outFlit b))
    ∧ (getLink (retrying m 0 [] []) 95).buffer.length = m := by decide +kernel

/-- A message of device 32,767 with sequence `n`. -/
def linkMsg (n : BitVec 16) : LinkMsg := ⟨32767, n, 15 :: z 80⟩
/-- The last message of class 2 of that device was 65,535. -/
def received : State := r0.setMsgs { Msgs.init with rx := [(8 * 32767 + 2, 65536)] }

/-- A checkpoint message of device 32,767 that carries the sizes of this device's pen 15. -/
def mirrorMsg (n : BitVec 16) : LinkMsg := ⟨32767, n, 15 :: z 11 ++ mirrorSizes r0 15 ++ z 53⟩

theorem witness_mirror : mirrorFits r0 (mirrorMsg 0).data = true ∧ mirrorFits received (mirrorMsg 0).data = true
    ∧ mirrorFits r0 (15 :: 1 :: z 80) = (mirrorSizes r0 15 == z 16) ∧ mirrorFits r0 (15 :: List.replicate 80 1) = false := by decide +kernel

theorem witness_deviceMessages : getD 0 r0.msgs.rx (8 * (linkMsg 0).source.val + 1) = 0
    ∧ getD 0 received.msgs.rx (8 * (linkMsg 0).source.val + 2) = 65536 ∧ (linkMsg 0).seq.toNat = 65536 % 65536
    ∧ (linkMsg 65535).seq.toNat ≠ 65536 % 65536 ∧ serialNewer 16 (linkMsg 65535).seq.toNat (65535 + 65536) = false
    ∧ (linkMsg 1).seq.toNat ≠ 65536 % 65536 ∧ serialNewer 16 (linkMsg 1).seq.toNat (65535 + 65536) = true := by decide +kernel

/-- A message to device 32,767 is unacknowledged, and `n` timeouts of it have passed. -/
def unanswered (n : Nat) : State :=
  r0.setMsgs { Msgs.init with tx := [(8 * 32767 + 7, { next := 1, unacked := [(0, [1])] })], timeouts := [(32767, n)] }

theorem witness_messageTimeout : (getTx r0 32767 7).unacked = []
    ∧ (∀ n ∈ [2, 3], (getTx (unanswered n) 32767 7).unacked ≠ [] ∧ getD 0 (unanswered n).msgs.timeouts 32767 = n)
    ∧ ((getTx (unanswered 3) 32767 7).unacked.filter (fun x => serialNewer 16 x.1 (0 : BitVec 16).toNat)).length = 0
    ∧ ((getTx (unanswered 3) 32767 7).unacked.filter (fun x => serialNewer 16 x.1 (65535 : BitVec 16).toNat)).length = 1
    ∧ rd r0 iodPg F.MSG_TIMEOUT_CNT < 2 ^ 32 - 2 ∧ rd r0 iodPg F.MSG_UNREACH_CNT < 2 ^ 32 - 2 := by decide +kernel

/-- Reset is released, and the chain has no position; `last` is the last frame plus 1. -/
def mustering (last : Nat) (waiting : Bool) : State :=
  (r0.setBoot { r0.boot with resetN := true, up := !waiting, waiting := waiting }).setMuster { Muster.init with last := last }

theorem witness_muster : ∀ b ∈ [true, false], musterOpen (mustering 0 b) = true ∧ (mustering 0 b).boot.waiting = b ∧ (mustering 0 b).muster.last = 0
    ∧ (mustering 16 b).muster.last = (15 : Fin 32).val + 1 ∧ (mustering 17 b).muster.last = (16 : Fin 32).val + 1 := by decide +kernel

theorem witness_musterSend : positionValid (wr0 r0 iodPg F.MUSTER_STATUS_VALID 1) = true := by decide +kernel

/-- Two frames of position 15 give it, two of position 16 an error (R340). -/
theorem test_muster : rd (after (.musterFrame 15) (mustering 16 false)) iodPg F.MUSTER_STATUS_POS = 15
    ∧ rd (after (.musterFrame 16) (mustering 17 false)) iodPg F.MUSTER_STATUS_ERR = 1 := by decide +kernel

/-! ## The Ethernet port -/

/-- The device is up with the port up, and the policy defines pen `p`. -/
def upWith (p : Nat) : State := wr0 (r0.setBoot { r0.boot with up := true, resetN := true, pens := [(p, { PenGrant.none with defined := true })] }) ethPg F.ETH_STATUS_UP 1

/-- A frame to the address of pen 0. -/
def frame0 (etype : BitVec 16) (payload : List Byte) : EthFrame :=
  { dst := 0, src := 5, vlan := none, etype := etype, fcsBad := false, len := 14 + payload.length, payload := payload }

/-- An ICMPv6 message to the all-zero address of pen 0, from an address that ends in 9. -/
def packet (m : List Byte) : List Byte := [0x60, 0, 0, 0, 0, BitVec.ofNat 8 m.length, 58, 255] ++ z 15 ++ [9] ++ z 16 ++ m
/-- A neighbour solicitation for that address, and an echo request. -/
def solicit : List Byte := sealed (pseudo (z 15 ++ [9]) (z 16) 24) (135 :: z 23)
/-- An echo request of 10 bytes. -/
def echo : List Byte := sealed (pseudo (z 15 ++ [9]) (z 16) 10) (128 :: z 9)

theorem witness_port : netUp (upWith 0) = true ∧ portUp (upWith 0) = true ∧ portUp r0 = false ∧ ({ frame0 0x9000 [] with fcsBad := true } : EthFrame).fcsBad = true := by
  decide +kernel

theorem witness_frames : forPen (upWith 0) (frame0 0x9000 (z 46)) 0 ∧ (frame0 0x9000 []).etype ≠ 0x0806
    ∧ forPen (upWith 0) { frame0 0x9000 [] with len := 9212 } 0 := by
  unfold forPen
  decide +kernel

theorem witness_arp : let s := wr0 (upWith 0) (penPg 0) F.PEN_NET_IP4V 1
    let f := frame0 0x0806 ([0, 1, 8, 0, 6, 4, 0, 1] ++ z 20)
    (portUp s = true ∧ framePens s f = [0]) ∧ slice f.payload 0 8 = [0, 1, 8, 0, 6, 4, 0, 1] ∧ penV4 s 0 = some (z 4) ∧ slice f.payload 24 4 = z 4 := by
  decide +kernel

theorem witness_icmp : ∀ m ∈ [solicit, echo], let f := frame0 0x86DD (packet m)
    framePens (upWith 0) f = [0] ∧ packetPens (upWith 0) f [0] = [0] ∧ icmp6 f.payload = some m ∧ num f.payload 7 1 = 255
    ∧ (slice f.payload 8 16).any (· != 0) = true := by decide +kernel

theorem witness_solicit : num solicit 0 1 = 135 ∧ num solicit 1 1 = 0 ∧ solicit.length = 24 ∧ slice solicit 8 16 = penV6 (upWith 0) 0
    ∧ num echo 0 1 = 128 ∧ num echo 1 1 = 0 := by decide +kernel

/-- A PTP message. -/
def ptp (two : Bool) : PtpMsg := { origin := 1000, rx := 1500, tx := 0, corr := 100, twoStep := two, seq := 65535 }

theorem witness_ptp : (ptp true).twoStep = true ∧ (ptp false).twoStep = false ∧ (upWith 0).ptp.everSync = false
    ∧ ((upWith 0).setPtp { Ptp.init with waiting := some (65535, 1400) }).ptp.waiting = some ((ptp true).seq.toNat, 1400)
    ∧ ((upWith 0).setPtp { Ptp.init with everSync := true }).ptp.everSync = true ∧ rd (wr0 (upWith 0) ethPg F.ETH_STATUS_PTP 1) ethPg F.ETH_STATUS_PTP = 1 := by
  decide +kernel

/-- Queue pair 5 of pen 0, connected, of 4,096-byte packets. -/
def qp5 (x : Qp) : State := (extent (upWith 0) 0).setNet { Net.init with qps := [(5, { x with st := 1, mtu := 4096, epsn := 2 ^ 24 - 1 })] }
/-- A request of `n` bytes at an address, with a key and a PSN. -/
def req (key : Word) (psn : BitVec 24) (a n : Nat) : RdmaReq := { qp := 5, psn := psn, key := key, addr := a, len := n, ce := false, icrcBad := false }

theorem witness_rdma : nextPacket (qp5 Qp.init) (req 2 (BitVec.ofNat 24 (2 ^ 24 - 1)) (2 ^ 24 - 1) 1) ∧ oneExtent (qp5 Qp.init) 0 0 0 (2 ^ 24)
    ∧ (2 ^ 24 - 1) + 1 ≤ 2 ^ 24 ∧ inWindow (qp5 Qp.init) 0 (2 ^ 24 - 1) 1 = true
    ∧ regionOk (qp5 Qp.init) 0 (req 2 0 (2 ^ 24) 1) = false ∧ regionOk (qp5 Qp.init) 0 (req 3 0 0 1) = false ∧ (qp5 Qp.init).rung = []
    ∧ (0 : BitVec 24).toNat ≠ (getQp (qp5 Qp.init) 5).epsn ∧ serialNewer 24 (0 : BitVec 24).toNat (getQp (qp5 Qp.init) 5).epsn = true
    ∧ serialNewer 24 (BitVec.ofNat 24 (2 ^ 24 - 2)).toNat (getQp (qp5 Qp.init) 5).epsn = false
    ∧ (∀ b, (getQp (qp5 { Qp.init with notified := b }) 5).notified = b) ∧ ({ req 2 0 0 1 with icrcBad := true } : RdmaReq).icrcBad = true := by
  unfold nextPacket oneExtent
  decide +kernel

theorem witness_isolation : (req 2 0 0 1).key = 2 ∧ (qp5 Qp.init).rung = []
    ∧ ∀ b, (getQp (qp5 { Qp.init with naked := b }) 5).naked = b ∧ serialNewer 24 (0 : BitVec 24).toNat (getQp (qp5 { Qp.init with naked := b }) 5).epsn = true := by decide +kernel

theorem witness_queuePair : (5 : Fin 2048).val ≠ qp1 ∧ (⟨9, false, true⟩ : Pkt).icrcBad = true ∧ (getQp (qp5 Qp.init) 5).chan = 0
    ∧ (∀ k, k < 64 → targetQp (qp5 Qp.init) k ≠ some 5) ∧ netUp (qp5 Qp.init) = true ∧ (getQp (qp5 Qp.init) 5).st = 1
    ∧ (2 ^ 24 + (8 : BitVec 24).toNat - 0) % 2 ^ 24 < ({ Qp.init with psn := 9 } : Qp).outstanding ∧ 0 < ({ Qp.init with psn := 9 } : Qp).outstanding
    ∧ (getQp (qp5 { Qp.init with psn := 9, tries := 6, limit := 7 }) 5).tries < 7 ∧ (getQp (qp5 { Qp.init with psn := 9, tries := 7, limit := 7 }) 5).tries = 7
    ∧ (getQp (qp5 { Qp.init with chan := 128 }) 5).chan = 128 ∧ chanState (wr (qp5 { Qp.init with chan := 128 }) (penPg 0) F.CH_STATE_STATE 127 1) 0 127 = 1 := by
  decide +kernel

/-- A set-up for pen 0, or a teardown of queue pair 5. -/
def cm (setup : Bool) (target : Option (Fin 64)) : CmMsg := { pen := 0, setup := setup, qp := 5, mtu := 4096, psn := 9, retries := 7, target := target, ce := false, icrcBad := false }

theorem witness_cm : penThere (qp5 Qp.init) (cm true none).pen = true ∧ (cm true none).mtu ∈ [1024, 2048, 4096]
    ∧ (List.range 1024).find? (fun q => (getQp (qp5 Qp.init) q).st == 0) = some 0
    ∧ qpsUsed (qp5 Qp.init) (fun y => y.pen == (cm true none).pen.val) = 1 ∧ rd (wr0 (qp5 Qp.init) (penPg 0) F.PEN_QP_QUOTA 2) (penPg 0) F.PEN_QP_QUOTA = 2
    ∧ allQps (qp5 Qp.init) < 1024 ∧ rd (wr0 (qp5 Qp.init) (penPg 0) F.PEN_QP_QUOTA 0) (penPg 0) F.PEN_QP_QUOTA = 0 := by decide +kernel

/-- Target 63 has queue pair 6, in a state. -/
def targeted (st : Nat) : State :=
  ((upWith 0).setNet { Net.init with qps := [(6, { Qp.init with st := st })] }).setWeights { Weights.init with targets := [(63, { Target.none with qp := 7 })] }

/-- A target's answer, and a pair of a target that fails. -/
theorem witness_target6 : netUp (targeted 3) = true ∧ penThere (targeted 3) 0 = true ∧ (cm true (some 63)).target = some 63 ∧ targetQp (targeted 3) 63 = some 6
    ∧ (getQp (targeted 3) 6).st = 3 ∧ (getQp (targeted 3) 6).pen = 0 ∧ (getQp (targeted 1) 6).st = 1 ∧ (getQp (targeted 1) 6).chan = 0 := by decide +kernel

/-- Queue pair 5 of pen 0 has no channel, its pen's quota is 2, and channel 127 is an orphan. -/
def orphaned : State := wr (wr0 ((qp5 Qp.init).setNet { (qp5 Qp.init).net with chans := [(127, { Chan.init with key := z 8, seq := 3 })] }) (penPg 0) F.PEN_QP_QUOTA 2)
  (penPg 0) F.CH_STATE_STATE 127 2
/-- A CHANNEL_OPEN with flags, with no submission ring and 64 records. -/
def openBody (flags : Byte) : List Byte := z 8 ++ flags :: z 27 ++ [64, 0, 0, 0]

/-- The head of a CHANNEL_OPEN of sequence `n` in order on queue pair 5. -/
def openHead (n : BitVec 24) (bad : Bool) : OpenHead := ⟨n, bad, ⟨BitVec.ofNat 24 (2 ^ 24 - 1), false, false⟩⟩
/-- Queue pair 5 of pen 0 serves channel 127, which is open. -/
def served : State := wr (qp5 { Qp.init with chan := 128 }) (penPg 0) F.CH_STATE_STATE 127 1

theorem witness_openOrder : (∀ b, ordered orphaned 5 (openHead 0 b).pkt ∧ (openHead 0 b).pkt.ce = false ∧ (openHead 0 b).bad = b)
    ∧ ordered served 5 (openHead 1 false).pkt ∧ (getQp served 5).pen = 0 ∧ (getQp served 5).chan = 127 + 1 ∧ chanState served 0 127 ≠ 0
    ∧ (openHead 1 false).seq.toNat = ((getChan served 0 127).seq + 1) % 2 ^ 24 := by
  unfold ordered
  decide +kernel

theorem witness_channelOpen : (getQp orphaned 5).pen = 0 ∧ (getQp orphaned 5).chan = 0 ∧ openOk orphaned 0 (openBody 0) = true ∧ openOk orphaned 0 (openBody 2) = true
    ∧ bit (num (openBody 0) 8 1) 1 = false ∧ bit (num (openBody 2) 8 1) 1 = true ∧ freeChannel orphaned 0 = some 0 ∧ orphanOf orphaned 0 (slice (openBody 2) 0 8) = some 127
    ∧ openOk orphaned 0 (openBody 4) = false
    ∧ freeChannel (wr0 orphaned (penPg 0) F.PEN_QP_QUOTA 0) 0 = none ∧ orphanOf orphaned 0 (slice (1 :: (openBody 2).drop 1) 0 8) = none
    ∧ openOk orphaned 0 (1 :: (openBody 2).drop 1) = true ∧ chanState orphaned 0 127 = 2 := by decide +kernel

/-- Channel 127 of pen 0 has a ring of 65,536 slots; its head is at the top of the numbers. -/
def ringed : State := wr (wr (r0.setNet { Net.init with chans := [(127, { Chan.init with slots := 65536 })] }) (penPg 0) F.CH_SQ_HEAD 127 (2 ^ 32 - 1))
  (penPg 0) F.CH_SQ_TAIL 127 (2 ^ 32 - 1)

theorem witness_doorbell : seesPage ringed .jtag (penPg 0) = true ∧ rd ringed (penPg 0) F.CH_SQ_HEAD 127 < 2 ^ 32 ∧ (getChan r0 0 127).slots = 0 ∧ ringed.rung = []
    ∧ serialNewer 32 (65535 : Word).toNat (2 ^ 32 - 1) = true ∧ (2 ^ 32 + (65535 : Word).toNat - (2 ^ 32 - 1)) % 2 ^ 32 = (getChan ringed 0 127).slots
    ∧ (getChan ringed 0 127).spill = [] := by decide +kernel

/-- A ring of 16 slots whose next message needs two of them holds a part of it. -/
theorem witness_partMessage :
    let s := writeBytes ((extent r0 0).setNet { Net.init with chans := [(127, { Chan.init with slots := 16 })] }) 2 [0xFF, 0]
    serialNewer 32 1 (rd s (penPg 0) F.CH_SQ_HEAD 127) = true ∧ nextMessage (wr s (penPg 0) F.CH_SQ_TAIL 127 1) 0 127 = none := by decide +kernel

/-- Entry 0 of pen 0's prefix table is valid. -/
def prefixed : State := writeByte (wr0 (extent r0 0) (penPg 0) F.PFX_SETS 1) 20 2

theorem witness_prefixValid : (validPfx prefixed 0).map (·.1) = [0] ∧ pfxAddr prefixed 0 0 + 64 ≤ 2 ^ 24 ∧ oneExtent prefixed 0 0 0 (2 ^ 24)
    ∧ inWindow prefixed 0 (pfxAddr prefixed 0 0) 64 = true ∧ seesPage prefixed .jtag (penPg 0) = true := by
  unfold oneExtent
  decide +kernel

theorem witness_prefixReplay : seesPage (extent r0 0) (.rdma 0) (penPg 0) = true ∧ oneExtent (extent r0 0) 0 0 0 (2 ^ 24) ∧ hostWrite (.rdma 0) = true
    ∧ hostWrite .jtag = false ∧ replayState r0 0 = 0 ∧ replayState (wr0 r0 (penPg 0) F.REPLAY_STATE_STATE 2) 0 ≠ 0 := by
  unfold oneExtent
  decide +kernel

/-- A CNP halves the rate, not below 1 Gb/s, and once (R350). -/
theorem test_cnp : (getQp (after (.cnp 5) (after (.cnp 5) (qp5 { Qp.init with rate := 3000 }))) 5).rate = 1500
    ∧ (getQp (after (.cnp 5) (qp5 { Qp.init with rate := 1500 })) 5).rate = 1000 := by decide +kernel

/-- The echo reply is an ICMPv6 message of type 129 with a good checksum (RFC 4443). -/
theorem test_echo : (match (after (.echoRequest (frame0 0x86DD (packet echo))) (upWith 0)).out with
    | [.frame _ _ _ m] => num m 0 1 == 129 && checksum (pseudo (z 16) (z 15 ++ [9]) 10 ++ m) == 0
    | _ => false) = true := by decide +kernel
/-! ## Housekeeping and power -/

/-- Housekeeping unit 2 runs; its first scan entry is of a channel. -/
def scanning (x : Hk) (ch : Nat) : State :=
  wr (wr0 ((upWith 0).setHks [(2, { x with started := true })]) (hkPg 2) F.HK_SCAN_LEN 1) (hkPg 2) F.SCAN_CH 0 ch

/-- Round 1 with a capture every second round has none; round 0 has one, with a spot request in progress or not. -/
theorem witness_hkRound : (let s := wr0 (scanning { Hk.init with round := 1 } 16) (hkPg 2) F.HK_CTRL_CAP_DIV 1
      hkRuns s = true ∧ (getHk s 2).busy = false ∧ (getHk s 2).sweep = 0
      ∧ (getHk s 2).round % 2 ^ rd s (hkPg 2) F.HK_CTRL_CAP_DIV ≠ 0 ∧ nextEntry s 2 0 = some 0)
    ∧ (∀ xs ∈ [[], [⟨0, 0, false, false⟩]], let s := scanning { Hk.init with spots := xs } 16
      (getHk s 2).busy = false ∧ (getHk s 2).round % 2 ^ rd s (hkPg 2) F.HK_CTRL_CAP_DIV = 0 ∧ (getHk s 2).spots = xs)
    ∧ (getHk (scanning { Hk.init with busy := true } 16) 2).busy = true := by decide +kernel

/-- A capture ends. -/
theorem witness_capture : (getHk (scanning { Hk.init with capture := 2, busy := true } 16) 2).capture = 2
    ∧ (List.replicate (droopChannels 2).length 7 : List (BitVec 12)).length = (droopChannels 2).length
    ∧ nextEntry (scanning { Hk.init with capture := 2, busy := true } 16) 2 0 = some 0 := by decide +kernel

/-- Entry 0 converts. -/
def converting (ch : Nat) : State := scanning { Hk.init with busy := true, on := true } ch

theorem witness_hkEntry : ∀ ch ∈ [16, 21, 24, 27], (getHk (converting ch) 2).on = true ∧ (getHk (converting ch) 2).spots = [] ∧ (getHk (converting ch) 2).busy = true
    ∧ unitFailed (converting ch) 2 = false ∧ rd (converting ch) (hkPg 2) F.SCAN_CH 0 = ch ∧ ([7] : List (BitVec 12)).length = conversions (rd (converting ch) (hkPg 2) F.SCAN_AVG 0)
    ∧ converts 2 ch = true ∧ chKind 2 ch = (if ch < 22 then some .volt else some (.ref (ch - 24))) := by decide +kernel

theorem witness_spot : (getHk (scanning { Hk.init with spots := [⟨0, 0, false, false⟩, ⟨0, 0, false, false⟩, ⟨0, 0, false, false⟩] } 16) 2).spots.length = 3
    ∧ (getHk (scanning { Hk.init with spots := [⟨0, 0, false, false⟩, ⟨0, 0, false, false⟩, ⟨0, 0, false, false⟩, ⟨0, 0, false, false⟩] } 16) 2).spots.length = 4
    ∧ (getHk (scanning { Hk.init with sweep := 2 } 16) 2).sweep = 2 ∧ (getHk (scanning { Hk.init with sweep := 1 } 16) 2).sweep = 1
    ∧ (getHk (scanning { Hk.init with sweep := 1 } 16) 2).on = false ∧ (getHk (scanning { Hk.init with sweep := 1 } 16) 2).capture ≠ 2 ∧ seesPage (scanning Hk.init 16) .jtag (hkPg 2) = true := by decide +kernel

theorem witness_sweepEnd : let s := scanning { Hk.init with sweep := 2 } 16
    convRetired s 2 0 = false ∧ convRetired s 2 1 = false ∧ hkLimit s 2 0 [0, 1024, 2048, 3584] = 0 ∧ hkLimit s 2 1 [0, 1024, 2048, 3584] = 0
    ∧ hkLimit s 2 0 [13, 1037, 2061, 3597] = 1 ∧ getD 0 (getHk s 2).failed 0 < 2 ∧ getD 0 (getHk s 2).failed 2 < 2 := by decide +kernel

theorem witness_sensor : let s := wr (r0.setHks [(1, { Hk.init with started := true })]) (hkPg 1) F.TELEM_NEVER (foldChannel 67) 1
    (getHk s (dieOf 67)).started = true ∧ rd s (hkPg (dieOf 67)) F.TELEM_NEVER (foldChannel 67) = 1 := by decide +kernel

/-- The power unit runs with a state of its own; margins are enabled, up to 50 mV. -/
def powered (x : Power) : State := wr0 (wr0 ((upWith 0).setPower x) pwrPg F.PWR_MARGIN 1) pwrPg F.MARGIN_MAX 50

theorem witness_avs : (powered { Power.init with waits := 4, rise := some (1, 0) }).power.waits = 2 ^ (2 : Fin 3).val
    ∧ (powered { Power.init with waits := 4, rise := some (1, 0) }).power.rise = some (1, 0)
    ∧ (powered { Power.init with rise := some (0, 1) }).power.rise = some (0, 1)
    ∧ (∀ a ∈ [0, 1], let p := (powered { Power.init with waits := 4, alert := a }).power
      p.waits ≠ 0 ∧ p.alert = a ∧ p.state ≤ 7) := by decide +kernel

theorem witness_margin : voltageState (powered { Power.init with margins := [(1, ⟨45, true, 9⟩)] }) ≤ 7 ∧ powerRuns (powered Power.init) = true ∧ rd (powered Power.init) pwrPg F.PWR_MARGIN = 1
    ∧ (getMargin (powered { Power.init with margins := [(1, ⟨45, true, 9⟩)] }) 1).off + 5 = rd (powered Power.init) pwrPg F.MARGIN_MAX
    ∧ (getMargin (powered { Power.init with margins := [(1, ⟨45, true, 9⟩)] }) 1).run + 1 = 10
    ∧ (getMargin (powered { Power.init with margins := [(1, ⟨45, false, 999⟩)] }) 1).run + 1 = 1000 ∧ seesPage (powered Power.init) .jtag pwrPg = true := by
  decide +kernel

theorem witness_droop : (powered { Power.init with droop := true }).power.droop = true ∧ (powered { Power.init with alert := 2 }).power.alert = 2
    ∧ (∀ b, (powered { Power.init with droop := b }).power.alert = 0 ∧ (powered { Power.init with droop := b }).power.droop = b
      ∧ powerRuns (powered { Power.init with droop := b }) = true ∧ (powered { Power.init with droop := b }).tally.cutoff = false)
    ∧ (let s := runningTally.setPower { Power.init with droop := true }
      s.power.droop = true ∧ s.tally.cutoff = false ∧ stepping s = [0])
    ∧ (powered Power.init).power.alert = 0 ∧ (powered { Power.init with alert := 3 }).power.alert ≠ 0 := by decide +kernel

/-- A guard failure gives 5 mV back (R439). -/
theorem test_margin : (getMargin (after (.marginInterval 1 true false) (powered { Power.init with margins := [(1, ⟨45, true, 9⟩)] })) 1).off = 40 := by
  decide +kernel

/-- A reference channel publishes the rounded mean of its trimmed codes (R418, R430): 1,024 and 1,026 give 1,025. -/
theorem test_reference : let s := wr0 (wr0 (wr (converting 25) (hkPg 2) F.SCAN_AVG 0 1) (hkPg 2) F.HK_TRIM_A_G 16384) (hkPg 2) F.HK_TRIM_B_G 16384
    rd (after (.hkEntryEnd 2 [1024, 1026]) s) (hkPg 2) F.TELEM_VALUE 25 = 1025 := by decide +kernel

/-! ## Resets, the debug port and attestation -/

theorem witness_released : inReset r0 = true ∧ released r0 = false ∧ r0.boot.tripped = false ∧ released (upWith 0) = true ∧ inReset (upWith 0) = false
    ∧ (let s := (upWith 0).setBoot { (upWith 0).boot with resetN := false }
      s.boot.tripped = false ∧ s.boot.resetN = false ∧ s.boot.powerOk = true ∧ released s = true ∧ inReset s = false ∧ seesPage s .jtag bootPg = true)
    ∧ (let s := r0.setBoot { r0.boot with resetN := false }
      s.boot.powerOk = true ∧ s.boot.tripped = false ∧ released s = false) := by decide +kernel

theorem witness_resets : (r0.setBoot Boot.init).boot.powerOk = false ∧ (r0.setBoot Boot.init).boot.resetN = false ∧ r0.boot.powerOk = true
    ∧ r0.boot.tripped = false ∧ seesPage r0 .jtag bootPg = true ∧ (r0.setBoot { r0.boot with tripped := true }).boot.tripped = true
    ∧ (∀ d, d < 3 → compsDisabled (r0.setBoot { r0.boot with tripped := true }) d ≤ 2) := by decide +kernel

/-- Comparators 0 to `n` − 1 of the IOD are disabled. -/
def comps (n : Nat) : State := wr0 r0 thermPg F.COMP_OFF_IOD (2 ^ n - 1)

theorem witness_comps : compDisabled (comps 1) 2 7 = false ∧ compsDisabled (comps 1) 2 = 1 ∧ compsDisabled (comps 2) 2 = 2 ∧ compDisabled (comps 2) 2 7 = false
    ∧ (comps 2).boot.tripped = false := by decide +kernel

theorem witness_release : r0.boot.waiting = false ∧ r0.boot.up = false ∧ r0.boot.romHalt = false ∧ r0.power.inputs = 0 := by decide

theorem witness_jtag : jtagReaches (upWith 0) = true ∧ isMem (upWith 0) 0x5FFFFFFFC = true ∧ 0x5FFFFFFFC < 0x10000000000 ∧ 0x5FFFFFFFC % 4 = 0
    ∧ isMem (upWith 0) 0x600000000 = false ∧ jtagReaches r0 = false ∧ (upWith 0).rung = [] ∧ (upWith 0).boot.powerOk = true := by decide +kernel

/-- The device has an identity, or none; pen 0's window is 16 MiB; the report is asked for at 4 KiB times `page`. -/
def attesting (ident page : Nat) : State := wr0 (wr0 (extent (upWith 0) 0) bootPg F.BOOT_STATUS_IDENT ident) secPg F.ATTEST_ADDR page

theorem witness_attest : seesPage (attesting 0 0) .jtag secPg = true ∧ rd (attesting 0 0) secPg F.ATTEST_STATUS_STATUS ≠ 1
    ∧ rd (attesting 0 0) bootPg F.BOOT_STATUS_IDENT = 0 ∧ rd (attesting 1 0) bootPg F.BOOT_STATUS_IDENT ≠ 0
    ∧ inWindow (attesting 1 4095) 0 (4096 * rd (attesting 1 4095) secPg F.ATTEST_ADDR) reportSize = false
    ∧ inWindow (attesting 1 4092) 0 (4096 * rd (attesting 1 4092) secPg F.ATTEST_ADDR) reportSize = true := by decide +kernel

theorem fitTo_length (n : Nat) (bs : List Byte) : (fitTo n bs).length = n := by
  unfold fitTo
  rw [List.length_append, List.length_take, List.length_replicate]
  omega

/-- A report is asked for; no boot digest stands. -/
def reporting : State := let s := attesting 1 0
  s.setBoot { s.boot with attest := some ⟨z 64, 0, 0, 0⟩ }

/-- The report of a device without boot digests is at most 16 MiB long, whatever its signature and its measurement are. -/
theorem witness_attestDone : serviceWaits reporting .attest = false ∧ reporting.boot.attest = some ⟨z 64, 0, 0, 0⟩ ∧ oneExtent reporting 0 0 0 (2 ^ 24)
    ∧ 0 + (report reporting ⟨z 64, 0, 0, 0⟩).length ≤ 2 ^ 24 := by
  refine ⟨rfl, rfl, by unfold oneExtent; decide +kernel, ?_⟩
  unfold report reportHead
  simp only [List.length_append, fitTo_length]
  decide +kernel

/-! ## The spec's worked examples -/

/-- "One column at gain ×4" (02): code 81 with trims 45 and 16,190 gives 2,061 + 77/256. -/
theorem test_example_estimate : estimateOf 81 45 16190 128 = 2061 + 77 / 256 := by decide +kernel

/-- "Quantising an activation span with strays" (03): the scale and the grid values. -/
theorem test_example_span : scaleExp (23 / 32) .fp4 = -3
    ∧ quantiseAt [40, 13 / 16, 23 / 32, 5 / 16, -7 / 16, 205 / 2048, 1 / 32, 0] .fp4 (-3) = ⟨-3, [0, 0, 12, 4, -8, 2, 0, 0], [0, 1]⟩ := by decide +kernel

/-- "One element placed, and one column span quantised" (09): the scale of 0.09375. -/
theorem test_example_scale : scaleExp (3 / 32) .fp4 = -6 := by decide +kernel

/-- Pen 3 of "one HRD decoded and timed" (08): EXT[0] is 64 MiB on port 5, EXT[1] 2 GiB on port 20 from 8 GiB on. -/
def pen3 : State := let s := wr0 (wr0 (wr0 r0 (penPg 3) F.EXT0_VALID 1) (penPg 3) F.EXT0_PORT 5) (penPg 3) F.EXT1 3
  let s := wr (wr (wr (wr s (penPg 3) F.EXT0_VALID 1 1) (penPg 3) F.EXT0_PORT 1 20) (penPg 3) F.EXT0_START 1 512) (penPg 3) F.EXT1 1 127
  s.setFolds [(12, { Fold.init with now := 1000 })]

/-- The HRD's arguments: 4 KiB from window address 0x0500_0000. -/
def hrdArgs : XArgs := { xferOf pen3 12 0 with ss := 2, sa := 0x05000000, len := 4096, masked := false, valid := false }

theorem test_example_hrd : windowAddr pen3 3 0x05000000 4096 = some 0xA201000000
    ∧ (hbmWay pen3 12 { Drove.empty with pen := 3, pstate := 2 } hrdArgs 0x05000000).map (fun h => (h.port, hrdVis pen3 12 { Drove.empty with pstate := 2 } hrdArgs h))
      = some (20, 1367)
    ∧ (hbmWay pen3 12 { Drove.empty with pen := 3, pstate := 0 } hrdArgs 0x05000000).map (fun h => hrdVis pen3 12 { Drove.empty with pstate := 0 } hrdArgs h)
      = some 1418 := by decide +kernel

/-- "A stretched tick" (07): U and Q of N = 200 at P2; "a retry that makes data late" (11): a slot every 24 cycles. -/
theorem test_example_tick : unitsOf (200 * 64) 2 = 102400 ∧ quantum 2 = 2048 ∧ slotCycles 2 = 24 := by decide

/-- Channel 5 of "a wrapped ring message" (12): 64 slots, and the head at 1,000; the second message runs past the ring. -/
def ring64 : State := wr (wr (r0.setNet { Net.init with chans := [(5, { Chan.init with slots := 64 })] }) (penPg 0) F.CH_SQ_HEAD 5 1000) (penPg 0) F.CH_SQ_TAIL 5 1000

theorem test_example_doorbell : rd (after (.chSqTail .jtag 0 5 1065) ring64) (penPg 0) F.CH_SQ_TAIL 5 = 1000
    ∧ rd (after (.chSqTail .jtag 0 5 1065) ring64) (penPg 0) F.DB_BAD = 1
    ∧ rd (after (.chSqTail .jtag 0 5 1064) ring64) (penPg 0) F.DB_BAD = 0 := by decide +kernel

/-- "Catching up after a burst" (18): of 74,565 entries the oldest valid one is 41,797. -/
theorem test_example_log : let s := wr0 r0 logPg F.LOG_INDEX 74565
    rd (after (.logEntryLatch .jtag) (wr0 s logPg F.LOG_SEL 41797)) logPg F.LOG_SEL_STATUS = 0
    ∧ rd (after (.logEntryLatch .jtag) (wr0 s logPg F.LOG_SEL 41796)) logPg F.LOG_SEL_STATUS = 1
    ∧ rd (after (.logEntryLatch .jtag) (wr0 s logPg F.LOG_SEL 74565)) logPg F.LOG_SEL_STATUS = 2 := by decide +kernel


/-! ## WellFormed: each check refuses a term -/

theorem test_wf_lines : Instr.wf (.pld 0 0 0 0 0 [] [⟨65, 1⟩]) = false ∧ Instr.wf (.hrd 0 0 0 [⟨64, 0⟩]) = false ∧ Instr.wf (.scrub ⟨64, 7⟩) = false
    ∧ Instr.wf (.xfer 0 0 ⟨0, [⟨65, 1⟩]⟩) = false ∧ Instr.wf (.hwr 0 0 ⟨0, [⟨65, 1⟩]⟩) = false ∧ Instr.wf (.lsnd 0 0 ⟨0, [⟨65, 1⟩]⟩) = false
    ∧ Instr.wf (.spareFillDone 0 [⟨1, 1⟩]) = false ∧ Instr.wf (.scrub ⟨64, 6⟩) = true := by decide

theorem test_wf_calibration : Instr.wf (.bootCalibration 0 []) = false ∧ Instr.wf (.scanTestDone 0 true [⟨[], [], [], 0, [], []⟩]) = false
    ∧ calOk (same.map (fun r => { r with zs := List.replicate 256 0, zq := List.replicate 256 0 })) = true := by decide +kernel

theorem test_wf_sweep : Instr.wf (.sweepEnd 0 [1] []) = false ∧ Instr.wf (.sweepEnd 0 [] [1, 2, 3, 4, 5]) = false ∧ Instr.wf (.sweepEnd 0 [] [1, 2, 3, 4]) = true := by
  decide

theorem test_wf_markers : ∀ m ∈ [{ mark 0 0 with sender := 32768 }, { mark 0 0 with flocks := [⟨3, 0, 0⟩, ⟨3, 1, 0⟩] },
      { mark 0 0 with ready := [(3, 0), (3, 1)] }, { mark 0 0 with slacks := [⟨32768, 0⟩] }],
    ∀ i ∈ [Instr.report 0 (flitOf 8 m), .slack 0 (flitOf 9 m), .decide 0 (flitOf 2 m), .credit 0 (flitOf 10 m), .tick 0 (flitOf 1 m) 0, .commit 0 (flitOf 3 m)],
      i.wf = false := by decide +kernel

theorem test_wf_swaps : ∀ i ∈ [Instr.swapAnnounce 0 { swapFlit 1 with swap := { swap15 with incoming := [] } },
    .swapConfirm 0 { swapFlit 2 with swap := { swap15 with outgoing := [] } }, .swapRefuse 0 { swapFlit 3 with swap := { swap15 with incoming := z 33 } }],
    i.wf = false := by decide +kernel

theorem test_wf_flits : ∀ i ∈ [Instr.dataFlit 0 (flit 1 0 false 0 []), .idleFlit 0 (flit 0 0 false 0 []), .ctrlFlit 0 (flit 4 0 false 0 []),
    .msgFlit 0 (flit 3 0 false 0 [])], i.wf = false := by decide +kernel

theorem test_wf_frames : ∀ i ∈ [Instr.ethFrame { frame0 0 [] with len := 18 }, .arpRequest { frame0 0 [] with vlan := some 0 },
    .neighbourSolicitation { frame0 0 [] with len := 0 }, .echoRequest { frame0 0 [] with len := 15 }], i.wf = false := by decide

theorem test_wf_rdma : ∀ i ∈ [Instr.rdmaWrite (req 2 0 0 2) [1], .rdmaRead (req 2 0 (2 ^ 64) 1), .rdmaRead (req 2 0 0 (2 ^ 32)),
    .cmMessage { cm true none with mtu := 512 }, .nvmeCompletion 0 65536 ⟨true, ⟨0, false, false⟩⟩ [], .nvmeTimeout 0 65536, .jtagAccess false 2 0], i.wf = false := by decide

/-- A body one byte past the longest. -/
theorem test_wf_bodies (long : List Byte) (h : long.length = 65505) : ∀ i ∈ [Instr.droveLoad (head 0 0) long, .droveUnload (head 0 0) long, .droveSwap (head 0 0) long, .admitMsg (head 0 0) long,
    .abort (head 0 0) long, .epochOpen (head 0 0) long, .shardFetch (head 0 0) long, .shardPush (head 0 0) long, .arrivalCancel (head 0 0) long,
    .epochSwitch (head 0 0) long, .epochRetire (head 0 0) long, .channelOpen 0 0 ⟨0, false, ⟨0, false, false⟩⟩ 0 long, .channelClose (head 0 0) long, .nop (head 0 0) long,
    .nvmeTargetEntry (head 0 0) long, .updBegin (head 0 0) long, .updPiece (head 0 0) long, .updStatus (head 0 0) long, .updActivate (head 0 0) long,
    .updConfirm (head 0 0) long, .updAbandon (head 0 0) long, .updRevert (head 0 0) long, .debugRead (head 0 0) long, .debugWrite (head 0 0) long,
    .debugHalt (head 0 0) long, .debugResume (head 0 0) long, .unknownMessageType (head 0 0) 0 long], i.wf = false := by
  have h : Nat.ble long.length 65504 = false := by rw [h]; decide
  have k : bodyOk (head 0 0) long = false := h
  simp only [List.mem_cons, List.not_mem_nil, or_false, forall_eq_or_imp, forall_eq]
  exact ⟨k, k, k, k, k, k, k, k, k, k, k, h, k, k, k, k, k, k, k, k, k, k, k, k, k, k, k⟩

theorem test_wf_good : Instr.wf (.nop (head 0 0) []) = true ∧ Instr.wf (.jtagAccess true 4 0) = true := by decide

end Sys2Proof.Tests
end

section
/-! SUPPORT. Who reaches a register page (R11, R484): what a hidden page answers, and that a page that is seen is acted on. -/

namespace Sys2Proof.Machine

open Sys2Proof

/-- Pages 0 to 206 have a type, and 207 to 255 hold none (R484). -/
theorem pageType_isSome_iff (pg : Nat) : (pageType pg).isSome = true ↔ pg < 207 := by
  simp only [pageType, apply_ite Option.isSome, Option.isSome_some, Option.isSome_none, Bool.if_true_left, Bool.or_false, Bool.or_eq_true,
    decide_eq_true_eq]
  omega

theorem seesPage_eq_true_iff (s : State) (src : Source) (pg : Nat) : seesPage s src pg = true
    ↔ pg < 207 ∧ sourceRuns s src = true ∧ (srcPen src = 0 ∨ rd s pg F.LOCK_OWNER = srcPen src) := by
  simp only [seesPage, Bool.and_eq_true, Bool.or_eq_true, beq_iff_eq, pageType_isSome_iff, and_assoc]

theorem seesPage_page_lt {s : State} {src : Source} {pg : Nat} (h : seesPage s src pg = true) : pg < 207 :=
  ((seesPage_eq_true_iff s src pg).mp h).1

@[simp] theorem srcPen_rdma (p : Fin 16) : srcPen (.rdma p) = p.val := rfl

/-- A pen makes accesses until the ROM halts (R460). -/
theorem sourceRuns_rdma_iff (s : State) (p : Fin 16) : sourceRuns s (.rdma p) = true ↔ s.boot.romHalt = false := by
  simp [sourceRuns]

theorem onPage_of_hidden {s : State} {src : Source} {pg : Nat} (h : seesPage s src pg = false) (g : State → State) : onPage s src pg g = s := by
  simp [onPage, h]

theorem onPage_of_sees {s : State} {src : Source} {pg : Nat} (h : seesPage s src pg = true) (g : State → State) : onPage s src pg g = g s := by
  simp [onPage, h]

theorem readWord_of_hidden {s : State} {src : Source} {pg : Nat} (h : seesPage s src pg = false) (o : Nat) : readWord s src pg o = (0, s) := by
  simp [readWord, h]

theorem writeWord_of_page {pg : Nat} (h : pg < 207) (s : State) (src : Source) (o v : Nat) :
    writeWord s src pg o v = onPage s src pg fun s => writeSeen s src pg o v := by
  rw [writeWord, if_neg (by omega)]

/-- Settles O5: the view of a pen is its ownership while the device has not halted in the ROM, and the reads and writes of a page outside
it do not reach the page. -/
theorem hiddenPagesReadZeroAndIgnoreWrites : Obligations.HiddenPagesReadZeroAndIgnoreWrites := by
  unfold Obligations.HiddenPagesReadZeroAndIgnoreWrites
  intro s p pg o v hpg
  constructor
  · rw [seesPage_eq_true_iff, sourceRuns_rdma_iff, srcPen_rdma]
    constructor
    · rintro ⟨-, runs, owns⟩
      exact ⟨owns, runs⟩
    · rintro ⟨owns, runs⟩
      exact ⟨hpg, runs, owns⟩
  · intro hidden
    exact ⟨readWord_of_hidden hidden o, (writeWord_of_page hpg ..).trans (onPage_of_hidden hidden _)⟩

end Sys2Proof.Machine
end

section
/-! SUPPORT. A write of one word by the access codes of its fields (R9, R485): which fields the words of the common header hold, what
each access code stores, and what the write of such a word leaves unchanged. -/

namespace Sys2Proof.Machine

open Sys2Proof

/-! ## The fields of the words of the common header -/

/-- The block fields of every page type start behind the common header (R493). -/
theorem blockFields_off_ge (t : PageType) : ∀ f ∈ blockFields t, 0x040 ≤ f.off := by
  cases t <;> decide

theorem fieldAt_of_lt {f : Field} {o : Nat} (h : o < f.off) : fieldAt f o = none := if_pos h

/-- A word of the common header holds the same fields on every page. -/
theorem fieldsAt_header {pg o : Nat} (hpg : pg < 207) (ho : o < 0x040) :
    fieldsAt pg o = headerFields.filterMap fun f => (fieldAt f o).map fun i => (f, i) := by
  obtain ⟨t, ht⟩ := Option.isSome_iff_exists.mp ((pageType_isSome_iff pg).mpr hpg)
  have none_of_block : (blockFields t).filterMap (fun f => (fieldAt f o).map fun i => (f, i)) = [] := by
    rw [List.filterMap_eq_nil_iff]
    intro f hf
    rw [fieldAt_of_lt (Nat.lt_of_lt_of_le ho (blockFields_off_ge t f hf)), Option.map_none]
  simp only [fieldsAt, ht, List.filterMap_append, none_of_block, List.append_nil]

theorem fieldsAt_errSum {pg : Nat} (h : pg < 207) : fieldsAt pg 0x014 = [(F.ERR_SUM, 0)] := fieldsAt_header h (by decide)

theorem fieldsAt_errMask {pg : Nat} (h : pg < 207) : fieldsAt pg 0x018 = [(F.ERR_MASK, 0)] := fieldsAt_header h (by decide)

theorem fieldsAt_evtAccess {pg : Nat} (h : pg < 207) : fieldsAt pg 0x020 = [(F.EVT_ACCESS, 0)] := fieldsAt_header h (by decide)

theorem fieldsAt_lock {pg : Nat} (h : pg < 207) : fieldsAt pg 0x030 = [(F.LOCK_OWNER, 0), (F.LOCK_BOOT_LOCK, 0)] :=
  fieldsAt_header h (by decide)

/-! ## A field by its access code -/

/-- Storing a value in a field changes that field at most. -/
theorem OnlyFields.storeField {ks : List (Nat × Field × Nat)} {s t : State} (pg v : Nat) (open_ : Bool) (f : Field) (i : Nat)
    (h : OnlyFields ks s t) (k : (pg, f, i) ∈ ks) : OnlyFields ks s (storeField t pg v open_ f i) := by
  unfold Machine.storeField
  dsimp only
  split
  · exact h
  · exact h
  · exact h.wr pg f i _ k
  · exact h.wr pg f i _ k
  · split
    · exact h.wr pg f i _ k
    · exact h
  · split
    · exact h.wr pg f i _ k
    · exact h

theorem storeField_rw {f : Field} (h : f.acc = .rw) (s : State) (pg v : Nat) (open_ : Bool) (i : Nat) :
    storeField s pg v open_ f i = wr s pg f i (between f.wlo f.whi (bits v f.lo f.width)) := by
  simp only [storeField, h]

theorem storeField_w1c {f : Field} (h : f.acc = .w1c) (s : State) (pg v : Nat) (open_ : Bool) (i : Nat) :
    storeField s pg v open_ f i = wr s pg f i (rd s pg f i ^^^ (rd s pg f i &&& bits v f.lo f.width)) := by
  simp only [storeField, h]

theorem storeField_sat {f : Field} (h : f.acc = .sat) (s : State) (pg v : Nat) (open_ : Bool) (i : Nat) :
    storeField s pg v open_ f i = if bits v f.lo f.width = 0 then wr s pg f i 0 else s := by
  simp only [storeField, h]

theorem storeField_owner (s : State) (pg v : Nat) : storeField s pg v true F.LOCK_OWNER 0 = wr s pg F.LOCK_OWNER 0 (bits v 0 4) := rfl

theorem storeField_bootLock (s : State) (pg v : Nat) :
    storeField s pg v true F.LOCK_BOOT_LOCK 0 = wr s pg F.LOCK_BOOT_LOCK 0 (rd s pg F.LOCK_BOOT_LOCK ||| bits v 8 1) := rfl

theorem bits_lt (x lo width : Nat) : bits x lo width < 2 ^ width := Nat.mod_lt _ (Nat.two_pow_pos width)

theorem bit_bits (x lo width b : Nat) : bit (bits x lo width) b = (decide (b < width) && bit x (lo + b)) := by
  simp only [bit, bits, Nat.testBit_mod_two_pow, Nat.testBit_shiftRight]

/-- A value inside the limits of a write is stored as it is. -/
theorem between_of_le {lo hi v : Nat} (hlo : lo ≤ v) (hhi : v ≤ hi) : between lo hi v = v := by
  rw [between, if_neg (by omega), if_neg (by omega)]

/-- An RW field whose limits are those of its width holds what a write brings. -/
theorem rd_storeField_rw {f : Field} (hacc : f.acc = .rw) (hlo : f.wlo = 0) (hhi : f.whi + 1 = 2 ^ f.width) (s : State) (pg v : Nat)
    (open_ : Bool) (i : Nat) : rd (storeField s pg v open_ f i) pg f i = bits v f.lo f.width := by
  have hv := bits_lt v f.lo f.width
  rw [storeField_rw hacc, rd_wr, between_of_le (by omega) (by omega), Nat.mod_eq_of_lt hv]

/-- A W1C field loses the bits that are written as 1. -/
theorem bit_rd_storeField_w1c {f : Field} (hacc : f.acc = .w1c) (s : State) (pg v : Nat) (open_ : Bool) (i b : Nat) :
    bit (rd (storeField s pg v open_ f i) pg f i) b = (decide (b < f.width) && bit (rd s pg f i) b && !bit v (f.lo + b)) := by
  have written := bit_bits v f.lo f.width b
  unfold bit at written ⊢
  rw [storeField_w1c hacc, rd_wr, Nat.testBit_mod_two_pow, Nat.testBit_xor, Nat.testBit_and, written]
  cases decide (b < f.width) <;> cases (rd s pg f i).testBit b <;> simp

/-- A SAT counter is cleared by a write of 0, and keeps its value at any other write. -/
theorem rd_storeField_sat {f : Field} (hacc : f.acc = .sat) (s : State) (pg v : Nat) (open_ : Bool) (i : Nat) :
    rd (storeField s pg v open_ f i) pg f i = if bits v f.lo f.width = 0 then 0 else rd s pg f i := by
  rw [storeField_sat hacc]
  split
  · rw [rd_wr, Nat.zero_mod]
  · rfl

/-! ## A word of the common header -/

/-- A word of one field that the boot lock does not guard. -/
theorem storeWord_single {s : State} {pg o : Nat} {f : Field} (hf : fieldsAt pg o = [(f, 0)]) (hacc : f.acc ≠ .rwl) (src : Source) (v : Nat) :
    storeWord s src pg o v = storeField s pg v (rd s pg F.LOCK_BOOT_LOCK == 0) f 0 := by
  simp [storeWord, hf, hacc, forEach]

/-- A word whose boot lock is open is stored field by field. -/
theorem storeWord_of_unlocked {s : State} {pg : Nat} (h : rd s pg F.LOCK_BOOT_LOCK = 0) (src : Source) (o v : Nat) :
    storeWord s src pg o v = forEach s (fieldsAt pg o) fun s e => storeField s pg v true e.1 e.2 := by
  simp [storeWord, h]

/-- Registers alone change, and among them the named fields alone. -/
theorem OnlyIn.of_via {ks : List (Nat × Field × Nat)} {s t : State} (h : Via [.regs] s t) (k : OnlyFields ks s t) : OnlyIn [] ks s t :=
  ⟨h.same, k⟩

/-- Without a rung ring there is none to serve. -/
theorem serveRings_of_not_rung {s : State} (h : s.rung = []) : serveRings s = s := by
  have still : ∀ fuel, runRings fuel s = s := by
    intro fuel
    cases fuel with
    | zero => rw [runRings, ← h]; rfl
    | succ n => rw [runRings, h]
  exact still ringFuel

theorem storeWord_rung (s : State) (src : Source) (pg o v : Nat) : (storeWord s src pg o v).rung = s.rung :=
  (storeWord_via s src pg o v).same .rung (by decide)

/-- A header word other than CTRL is stored by the access codes of its fields. -/
theorem writeSeen_header {o : Nat} (ho : o < 0x040) (hctrl : o ≠ 0x00C) (s : State) (src : Source) (pg v : Nat) :
    writeSeen s src pg o v = storeWord s src pg o v := by
  rw [writeSeen, if_neg hctrl, if_pos ho]

/-- A REGISTER_WRITE of a header word other than CTRL, on a page that its source sees, stores the word and does no more. -/
theorem answers_registerWrite_header {s : State} {src : Source} {page : Fin 256} {word : Fin 1024} {v : Word} {P : State → Prop}
    (sees : seesPage s src page = true) (quiet : s.rung = []) (hword : word.val < 16) (hctrl : word.val ≠ 3)
    (h : P (storeWord s src page (4 * word.val) v.toNat)) : Answers (.registerWrite src page word v) s P := by
  refine ⟨storeWord s src page (4 * word.val) v.toNat, ?_, h⟩
  have written : writeWord s src page (4 * word.val) v.toNat = storeWord s src page (4 * word.val) v.toNat := by
    rw [writeWord_of_page (seesPage_page_lt sees), onPage_of_sees sees, writeSeen_header (by omega) (by omega)]
  calc exec (.registerWrite src page word v) s
      = .next (serveRings (writeWord s src page (4 * word.val) v.toNat)) := rfl
    _ = .next (storeWord s src page (4 * word.val) v.toNat) := by
      rw [written, serveRings_of_not_rung (by rw [storeWord_rung, quiet])]

/-- A REGISTER_WRITE of a header word of one field that the boot lock does not guard stores that field by its access code, and changes
nothing else. -/
theorem answers_registerWrite_single {s : State} {src : Source} {page : Fin 256} {word : Fin 1024} {v : Word} {f : Field} {P : State → Prop}
    (sees : seesPage s src page = true) (quiet : s.rung = []) (hword : word.val < 16) (hctrl : word.val ≠ 3)
    (hf : fieldsAt page (4 * word.val) = [(f, 0)]) (hacc : f.acc ≠ .rwl)
    (h : P (storeField s page v.toNat (rd s page F.LOCK_BOOT_LOCK == 0) f 0)) :
    Answers (.registerWrite src page word v) s fun t => P t ∧ OnlyIn [] [(page.val, f, 0)] s t := by
  refine answers_registerWrite_header sees quiet hword hctrl ?_
  rw [storeWord_single hf hacc]
  exact ⟨h, .of_via (storeField_via ..) (.storeField _ _ _ _ _ (.refl _ _) (List.mem_singleton_self _))⟩

theorem fkey_owner_ne_bootLock (pg : Nat) : fkey pg F.LOCK_OWNER 0 ≠ fkey pg F.LOCK_BOOT_LOCK 0 := by
  simp [fkey, F.LOCK_OWNER, F.LOCK_BOOT_LOCK]

/-- The LOCK word while the boot lock is open: OWNER first, then the lock. -/
theorem storeWord_lock {s : State} {pg : Nat} (hpg : pg < 207) (h : rd s pg F.LOCK_BOOT_LOCK = 0) (src : Source) (v : Nat) :
    storeWord s src pg 0x030 v = wr (wr s pg F.LOCK_OWNER 0 (bits v 0 4)) pg F.LOCK_BOOT_LOCK 0 (bits v 8 1) := by
  have kept : rd (wr s pg F.LOCK_OWNER 0 (bits v 0 4)) pg F.LOCK_BOOT_LOCK = 0 := by
    rw [rd_wr_ne _ _ _ _ _ _ _ _ (fkey_owner_ne_bootLock pg), h]
  rw [storeWord_of_unlocked h, fieldsAt_lock hpg]
  simp only [forEach, List.foldl_cons, List.foldl_nil, storeField_owner, storeField_bootLock, kept, Nat.zero_or]

/-- Settles O6: each header word is stored by the access code of its fields, and no other field or piece of the state changes. -/
theorem registerWriteFollowsAccessCodes : Obligations.RegisterWriteFollowsAccessCodes := by
  unfold Obligations.RegisterWriteFollowsAccessCodes
  intro s src page v sees quiet
  have hpg : page.val < 207 := seesPage_page_lt sees
  refine ⟨?errMask, ?errSum, ?evtAccess, fun unlocked => ?lock⟩
  case errMask =>
    refine answers_registerWrite_single sees quiet (by decide) (by decide) (fieldsAt_errMask hpg) (by decide) ?_
    exact rd_storeField_rw rfl rfl rfl ..
  case errSum =>
    refine answers_registerWrite_single sees quiet (by decide) (by decide) (fieldsAt_errSum hpg) (by decide) fun b => ?_
    rw [bit_rd_storeField_w1c rfl, show F.ERR_SUM.lo + b = b from Nat.zero_add b]
    rfl
  case evtAccess =>
    refine answers_registerWrite_single sees quiet (by decide) (by decide) (fieldsAt_evtAccess hpg) (by decide) ?_
    have zero_iff : bits v.toNat 0 32 = 0 ↔ v = 0 := by
      rw [bits, Nat.shiftRight_zero, Nat.mod_eq_of_lt v.isLt]
      exact BitVec.toNat_inj (y := 0#32)
    rw [rd_storeField_sat rfl]
    exact if_congr zero_iff rfl rfl
  case lock =>
    refine answers_registerWrite_header sees quiet (by decide) (by decide) ?_
    rw [show 4 * (12 : Fin 1024).val = 0x030 from rfl, storeWord_lock hpg unlocked]
    refine ⟨?_, ?_, .of_via ?_ ?_⟩
    · rw [rd_wr_ne _ _ _ _ _ _ _ _ (fkey_owner_ne_bootLock page).symm, rd_wr]
      exact Nat.mod_eq_of_lt (bits_lt v.toNat 0 4)
    · rw [rd_wr, ← Nat.shiftRight_eq_div_pow v.toNat 8]
      exact Nat.mod_eq_of_lt (bits_lt v.toNat 8 1)
    · exact (wr_via ..).trans (wr_via ..)
    · exact ((OnlyFields.refl _ s).wr _ _ _ _ (by simp)).wr _ _ _ _ (by simp)

end Sys2Proof.Machine
end

section
/-! SUPPORT. Folds under the operations that do not work on them: which leave every fold as it is, and which leave what a transfer in
flight rests on (R22, R185). -/

namespace Sys2Proof.Machine

open Sys2Proof Sys2Proof.Claims

/-! ## Loops -/

/-- A loop keeps what each of its steps keeps. -/
theorem forEach_keeps {α : Type} {I : State → Prop} {xs : List α} {g : State → α → State} (keep : ∀ u, ∀ x ∈ xs, I u → I (g u x))
    {s : State} (h : I s) : I (forEach s xs g) :=
  List.foldlRecOn (motive := I) xs g h fun u hu x hx => keep u x hx hu

/-- A loop ends with a property that one of its steps reaches and every step keeps, under an invariant of the loop. -/
theorem forEach_reaches {α : Type} {I P : State → Prop} {g : State → α → State} (inv : ∀ u x, I u → I (g u x))
    (keep : ∀ u x, I u → P u → P (g u x)) {x : α} (reach : ∀ u, I u → P (g u x)) {xs : List α} (hx : x ∈ xs) {s : State} (h : I s) :
    P (forEach s xs g) := by
  induction xs generalizing s with
  | nil => cases hx
  | cons y ys ih =>
    show P (forEach (g s y) ys g)
    rcases List.mem_cons.mp hx with rfl | hx
    · exact (forEach_keeps (I := fun u => I u ∧ P u) (fun u y _ ⟨hi, hp⟩ => ⟨inv u y hi, keep u y hi hp⟩) ⟨inv s x h, reach s h⟩).2
    · exact ih hx (inv s y h)

/-! ## Pieces that an operation does not name -/

section
variable {ps : List StatePart} {s t : State}

theorem Via.piece (h : Via ps s t) {p : StatePart} (k : ps.contains p = false) : p.same s t :=
  h.same p (by simpa using k)

theorem Via.getFold (h : Via ps s t) (k : ps.contains .folds = false) (g : Nat) : Machine.getFold t g = Machine.getFold s g :=
  h.same.folds k [] g (by simp)

theorem Via.isMem (h : Via ps s t) (k : ps.contains .hbmShort = false) (a : Nat) : Machine.isMem t a = Machine.isMem s a := by
  have short : t.hbmShort = s.hbmShort := h.piece k
  simp only [Machine.isMem, short]

theorem Via.readByte (h : Via ps s t) (km : ps.contains .mem = false) (ks : ps.contains .hbmShort = false) (a : Nat) :
    Machine.readByte t a = Machine.readByte s a := readByte_of_same (h.piece km) (h.piece ks) a

/-- What scheduled work reads rests on the memory and on what the IOD has written since the last tick boundary (R248). -/
theorem Via.droveByte (h : Via ps s t) (km : ps.contains .mem = false) (kf : ps.contains .fresh = false)
    (ks : ps.contains .hbmShort = false) (a : Nat) : Machine.droveByte t a = Machine.droveByte s a := by
  have fresh : t.fresh = s.fresh := h.piece kf
  simp only [Machine.droveByte, fresh, h.readByte km ks]

theorem Via.droveRead (h : Via ps s t) (km : ps.contains .mem = false) (kf : ps.contains .fresh = false)
    (ks : ps.contains .hbmShort = false) (a n : Nat) : Machine.droveRead t a n = Machine.droveRead s a n :=
  List.map_congr_left fun _ _ => h.droveByte km kf ks _

theorem Via.rd (h : Via ps s t) (k : ps.contains .regs = false) (pg : Nat) (f : Field) (i : Nat) : Machine.rd t pg f i = Machine.rd s pg f i :=
  h.same.fields k [] pg f i rfl

end

@[simp] theorem getFold_wr0 (s : State) (pg : Nat) (f : Field) (v g : Nat) : getFold (wr0 s pg f v) g = getFold s g := rfl

@[simp] theorem getFold_bump (s : State) (pg : Nat) (f : Field) (n g : Nat) : getFold (bump s pg f n) g = getFold s g :=
  (bump_via ..).getFold rfl g

@[simp] theorem getFold_errEvent (s : State) (pg b g : Nat) : getFold (errEvent s pg b) g = getFold s g :=
  (errEvent_via ..).getFold rfl g

@[simp] theorem getFold_logWrite (s : State) (pg ev pen : Nat) (fs : List LogField) (g : Nat) :
    getFold (logWrite s pg ev pen fs) g = getFold s g :=
  (logWrite_via ..).getFold rfl g

@[simp] theorem getFold_foldStepFault (s : State) (f cause g : Nat) : getFold (foldStepFault s f cause) g = getFold s g :=
  (foldStepFault_via ..).getFold rfl g

@[simp] theorem getFold_stopDrove (s : State) (f why g : Nat) : getFold (stopDrove s f why) g = getFold s g :=
  (stopDrove_via ..).getFold rfl g

/-- A contract fault marks its own fold, and nothing of it that an operation in flight rests on. -/
theorem getFold_contractFault (s : State) (f code bundle syl port : Nat) : ∃ faults, ∀ g,
    getFold (contractFault s f code bundle syl port) g =
      if g = f then { getFold s f with faultTick := true, faults := faults } else getFold s g := by
  refine ⟨(getFold s f).faults ++ [{ clash := false, code := code, bundle := bundle, syl := syl }], fun g => ?_⟩
  simp only [contractFault, apply_ite (getFold · g), getFold_stopDrove, getFold_wr0, getFold_foldStepFault, ite_self, getFold_modFold,
    getFold_logWrite, getFold_errEvent, apply_ite (getFold · f), getFold_bump]

/-! ## Transfers in flight stay -/

theorem OnlyFolds.trans {fs : List Nat} {s t u : State} (h : OnlyFolds fs s t) (k : OnlyFolds fs t u) : OnlyFolds fs s u :=
  fun g hg => (k g hg).trans (h g hg)

/-- From `s` to `t` every fold keeps its transfers in flight, its cycle and its last bundle, and of the other things only those of the folds
`here` may change. -/
structure FlightsStay (here : Nat → Prop) (s t : State) : Prop where
  /-- the other folds are the same -/
  other : ∀ g, ¬ here g → getFold t g = getFold s g
  /-- transfers -/
  xfers : ∀ g, (getFold t g).xfers = (getFold s g).xfers
  /-- the cycle of the last bundle -/
  now : ∀ g, (getFold t g).now = (getFold s g).now
  /-- the last bundle -/
  lastPc : ∀ g, (getFold t g).lastPc = (getFold s g).lastPc

namespace FlightsStay

variable {here : Nat → Prop} {r s t : State}

theorem refl (here : Nat → Prop) (s : State) : FlightsStay here s s := ⟨fun _ _ => rfl, fun _ => rfl, fun _ => rfl, fun _ => rfl⟩

theorem trans (h : FlightsStay here r s) (k : FlightsStay here s t) : FlightsStay here r t where
  other g hg := (k.other g hg).trans (h.other g hg)
  xfers g := (k.xfers g).trans (h.xfers g)
  now g := (k.now g).trans (h.now g)
  lastPc g := (k.lastPc g).trans (h.lastPc g)

theorem of_same (h : ∀ g, getFold t g = getFold s g) : FlightsStay here s t :=
  ⟨fun g _ => h g, fun g => by rw [h g], fun g => by rw [h g], fun g => by rw [h g]⟩

theorem mono {there : Nat → Prop} (h : FlightsStay here s t) (k : ∀ g, here g → there g) : FlightsStay there s t :=
  ⟨fun g hg => h.other g fun hh => hg (k g hh), h.xfers, h.now, h.lastPc⟩

/-- After operations that keep flights comes one that does not name the folds. -/
theorem via {ps : List StatePart} (h : FlightsStay here r s) (k : Via ps s t) (hps : ps.contains .folds = false) : FlightsStay here r t :=
  h.trans (.of_same (k.getFold hps))

theorem ite {a b : State} {c : Prop} [Decidable c] (h : FlightsStay here r a) (k : FlightsStay here r b) :
    FlightsStay here r (if c then a else b) := by
  split
  · exact h
  · exact k

theorem forEach {α : Type} {xs : List α} {g : State → α → State} (h : ∀ s, ∀ x ∈ xs, FlightsStay here s (g s x)) (s : State) :
    FlightsStay here s (Machine.forEach s xs g) :=
  forEach_keeps (I := FlightsStay here s) (fun t x hx ht => ht.trans (h t x hx)) (.refl here s)

/-- One fold changes, and keeps its transfers, its cycle and its last bundle. -/
theorem one {f : Nat} {x : Fold} (hf : here f) (h : ∀ g, getFold t g = if g = f then x else getFold s g)
    (hx : x.xfers = (getFold s f).xfers) (hn : x.now = (getFold s f).now) (hl : x.lastPc = (getFold s f).lastPc) : FlightsStay here s t where
  other g hg := by rw [h g, if_neg fun (e : g = f) => hg (e ▸ hf)]
  xfers g := by
    rw [h g, apply_ite Fold.xfers, hx]
    exact ite_eq_right_iff.mpr fun e => by rw [e]
  now g := by
    rw [h g, apply_ite Fold.now, hn]
    exact ite_eq_right_iff.mpr fun e => by rw [e]
  lastPc g := by
    rw [h g, apply_ite Fold.lastPc, hl]
    exact ite_eq_right_iff.mpr fun e => by rw [e]

theorem modFold {f : Nat} {g : Fold → Fold} (s : State) (hf : here f) (hx : ∀ x, (g x).xfers = x.xfers := by intro _; rfl)
    (hn : ∀ x, (g x).now = x.now := by intro _; rfl) (hl : ∀ x, (g x).lastPc = x.lastPc := by intro _; rfl) :
    FlightsStay here s (Machine.modFold s f g) :=
  .one hf (fun q => getFold_modFold s f q g) (hx _) (hn _) (hl _)

theorem onlyFolds {fs : List Nat} (h : FlightsStay (· ∈ fs) s t) : OnlyFolds fs s t := h.other

end FlightsStay

/-! ## A syllable (R161 to R163) -/

theorem syllable_of_takes {s : State} {f slot word : Nat} (h : takes s f slot word = true) (go : State → State) :
    syllable s f slot word go = settleTodo (go (dropSyllable s f)) f := if_pos h

theorem dropSyllable_stays (s : State) (f : Nat) : FlightsStay (· = f) s (dropSyllable s f) :=
  .modFold s rfl

theorem contractFault_stays (s : State) (f code bundle syl port : Nat) :
    FlightsStay (· = f) s (contractFault s f code bundle syl port) := by
  obtain ⟨_, marked⟩ := getFold_contractFault s f code bundle syl port
  exact .one rfl marked rfl rfl rfl

theorem settleSyllable_stays (f : Nat) (s : State) (y : Nat) : FlightsStay (· = f) s (settleSyllable f s y) := by
  unfold settleSyllable
  exact .ite (.ite (dropSyllable_stays s f) (.ite ((dropSyllable_stays s f).trans (contractFault_stays ..)) (.refl _ s))) (.refl _ s)

theorem settleTodo_stays (s : State) (f : Nat) : FlightsStay (· = f) s (settleTodo s f) :=
  .forEach (fun u y _ => settleSyllable_stays f u y) s

theorem dropSyllable_onlyFolds (s : State) (f : Nat) {fs : List Nat} (h : f ∈ fs) : OnlyFolds fs s (dropSyllable s f) :=
  ((dropSyllable_stays s f).mono fun g (e : g = f) => e ▸ h).onlyFolds

theorem settleTodo_onlyFolds (s : State) (f : Nat) {fs : List Nat} (h : f ∈ fs) : OnlyFolds fs s (settleTodo s f) :=
  ((settleTodo_stays s f).mono fun g (e : g = f) => e ▸ h).onlyFolds

/-- A syllable's command: its place is dealt with, its effect taken, and the places after it settled. -/
theorem syllable_parts {ps : List StatePart} {s u : State} {f : Nat} (h : Via ps (dropSyllable s f) u)
    (k : (stopParts.all fun p => ps.contains p) = true) : Only ps s (settleTodo u f) :=
  (Via.step (settleTodo_via u f) k (h.after ((dropSyllable_via s f).mono (within rfl k)))).same

theorem syllable_folds {fs : List Nat} {s u : State} {f : Nat} (h : OnlyFolds fs (dropSyllable s f) u) (hf : f ∈ fs) :
    OnlyFolds fs s (settleTodo u f) :=
  ((dropSyllable_onlyFolds s f hf).trans h).trans (settleTodo_onlyFolds u f hf)

/-! ## Suspects and lines in error (R256 to R258, R376, R377) -/

theorem noSpare_stays (s : State) (f k : Nat) : FlightsStay (fun _ => True) s (noSpare s f k) := by
  unfold noSpare
  refine .ite (.via (.via (.refl _ s) (quarantine_via ..) rfl) (failSlot_via ..) rfl) ?_
  exact .trans (.via (.refl _ s) (bump_via ..) rfl) (.modFold _ trivial)

theorem takeSpare_stays (s : State) (f k why : Nat) : FlightsStay (fun _ => True) s (takeSpare s f k why) := by
  unfold takeSpare
  refine .ite (.via (.refl _ s) (setCare_via ..) rfl) ?_
  have next : FlightsStay (fun _ => True) s (nextSpare s (dieOf f)).2 := .via (.refl _ s) (nextSpare_via ..) rfl
  have freed : FlightsStay (fun _ => True) s (forEach (nextSpare s (dieOf f)).2
      ((nextSpare s (dieOf f)).2.care.fills.filter fun x => x.slot == k) fun s x => setRole (abandonFill s x) x.spare roleSpare none) :=
    next.trans (.forEach (fun u _ _ => .via (.via (.refl _ u) (abandonFill_via ..) rfl) (setRole_via ..) rfl) _)
  dsimp only
  split
  · exact .via (.via freed (startFill_via ..) rfl) (orderSpares_via ..) rfl
  · split
    · exact .via (.via ((freed.via (dropFill_via ..) rfl).trans (noSpare_stays ..)) (startFill_via ..) rfl) (orderSpares_via ..) rfl
    · exact freed.trans (noSpare_stays ..)

theorem locate_stays (s : State) (f : Nat) : FlightsStay (fun _ => True) s (locate s f) := by
  unfold locate
  split
  · exact .refl _ s
  · exact .ite (.refl _ s) (.trans (.via (.refl _ s) (setCare_via ..) rfl) (takeSpare_stays ..))

theorem dataSuspect_stays (s : State) (f : Nat) : FlightsStay (fun _ => True) s (dataSuspect s f) := by
  have raised : FlightsStay (fun _ => True) s (raiseSuspect s f) := .via (.refl _ s) (raiseSuspect_via ..) rfl
  unfold dataSuspect classifyData
  exact .trans (.ite (raised.trans (locate_stays ..)) raised) (.modFold _ trivial)

theorem lineError_stays (s : State) (drove : Option Nat) (e : LineErr) : FlightsStay (fun _ => True) s (lineError s drove e) := by
  unfold lineError
  split
  · exact .refl _ s
  · refine .ite (.refl _ s) (.ite ?corrected ?lost)
    case corrected =>
      have counted : ∀ pg ce, FlightsStay (fun _ => True) s
          (if (hbmStack e.addr).isSome then countCe (bump s pg ce) e.addr else bump s pg ce) := fun pg ce =>
        .ite (.via (.via (.refl _ s) (bump_via ..) rfl) (countCe_via ..) rfl) (.via (.refl _ s) (bump_via ..) rfl)
      dsimp only
      split
      · exact .via ((counted ..).via (bump_via ..) rfl) (askPause_via ..) rfl
      · exact (counted ..).via (askPause_via ..) rfl
      · exact counted ..
    case lost =>
      have gone : ∀ pg ue, FlightsStay (fun _ => True) s (lineLost s pg ue e) := fun pg ue => .via (.refl _ s) (lineLost_via ..) rfl
      dsimp only
      split
      · exact .ite (gone ..) ((gone ..).trans (dataSuspect_stays ..))
      · exact gone ..

theorem readLines_stays (s : State) (f : Nat) (hit : Nat → Bool) (lines : List LineErr) :
    FlightsStay (fun _ => True) s (readLines s f hit lines) := by
  have read : FlightsStay (fun _ => True) s (forEach s (lines.filter fun e => hit e.addr) fun s e => lineError s (some f) e) :=
    .forEach (fun u e _ => lineError_stays u (some f) e) s
  unfold readLines
  exact .ite (read.trans (dataSuspect_stays ..)) read

/-- With no line in error, a read can find lines that are still poisoned: the step is suspect then. -/
theorem readLines_nil (s : State) (f : Nat) (hit : Nat → Bool) :
    readLines s f hit [] = if s.care.bad.any fun b => hit b.2 && !spared b.1 then dataSuspect s f else s := by
  simp only [readLines, forEach, List.filter_nil, List.foldl_nil, List.any_nil, Bool.not_false, Bool.and_true]

theorem readLines_nil_via (s : State) (f : Nat) (hit : Nat → Bool) : Via [.regs, .folds, .flocks, .care] s (readLines s f hit []) := by
  rw [readLines_nil]
  exact .ite (dataSuspect_via ..) (.refl _ s)

theorem readLines_of_clean {s : State} (h : s.care.bad = []) (f : Nat) (hit : Nat → Bool) : readLines s f hit [] = s := by
  simp [readLines_nil, h]

end Sys2Proof.Machine
end

section
/-! SUPPORT. Transfers inside the package (R22, R183, R185, R187, R257): what XFER and TSND put in flight, and what they leave. -/

namespace Sys2Proof.Machine

open Sys2Proof Sys2Proof.Claims

/-! ## What the operands of a transfer rest on -/

/-- The slot of a fold rests on the live map, the failed slots and the fold's role (R19, R377, R381). -/
theorem slotOfFold_congr {s t : State} {g : Nat} (map : ∀ k, k < 64 → foldOfSlot t k = foldOfSlot s k)
    (failed : ∀ k, slotFailed t k = slotFailed s k) (role : rd t (foldPg g) F.FOLD_ROLE_ROLE = rd s (foldPg g) F.FOLD_ROLE_ROLE) :
    slotOfFold t g = slotOfFold s g := by
  have mine : (List.range 64).filter (fun k => foldOfSlot t k == some g) = (List.range 64).filter (fun k => foldOfSlot s k == some g) :=
    List.filter_congr fun k hk => by rw [map k (List.mem_range.mp hk)]
  unfold slotOfFold
  simp only [mine, failed, role]

theorem Via.foldOfSlot {ps : List StatePart} {s t : State} (h : Via ps s t) (k : ps.contains .regs = false) (n : Nat) :
    Machine.foldOfSlot t n = Machine.foldOfSlot s n := by
  simp only [Machine.foldOfSlot, h.rd k]

theorem Via.slotOfFold {ps : List StatePart} {s t : State} (h : Via ps s t) (k : ps.contains .regs = false) (g : Nat) :
    Machine.slotOfFold t g = Machine.slotOfFold s g :=
  slotOfFold_congr (fun n _ => h.foldOfSlot k n) (fun n => by simp only [slotFailed, rdBit, h.rd k]) (h.rd k ..)

/-- A syllable's command has the operands that its bundle names: dropping the syllable from those to come changes none. -/
theorem xferOf_dropSyllable (s : State) (f desc : Nat) : xferOf (dropSyllable s f) f desc = xferOf s f desc := by
  have fold : getFold (dropSyllable s f) f = { getFold s f with todo := (getFold s f).todo.drop 1 } := by
    rw [dropSyllable, getFold_modFold, if_pos rfl]
  unfold xferOf
  rw [fold]
  rfl

theorem xferVis_dropSyllable (s : State) (f : Nat) (v : XArgs) : xferVis (dropSyllable s f) f v = xferVis s f v := by
  unfold xferVis
  rw [(dropSyllable_stays s f).now]
  rfl

theorem tile_dropSyllable (s : State) (f t : Nat) : (getFold (dropSyllable s f) f).tile t = (getFold s f).tile t := by
  rw [dropSyllable, getFold_modFold, if_pos rfl]
  rfl

theorem tsndVis_dropSyllable (s : State) (f t g : Nat) : tsndVis (dropSyllable s f) f t g = tsndVis s f t g := by
  simp only [tsndVis, (dropSyllable_stays s f).now, tile_dropSyllable]

theorem tsndUnits_dropSyllable (s : State) (f t : Nat) : tsndUnits (dropSyllable s f) f t = tsndUnits s f t := by
  simp only [tsndUnits, tile_dropSyllable]

/-! ## Bookings, reads and writes that a transfer records -/

theorem bookAll_stays {here : Nat → Prop} {asks : Asks} (h : ∀ e ∈ asks, here e.1) (s : State) : FlightsStay here s (bookAll s asks) :=
  .forEach (fun u e he => .modFold u (h e he)) s

/-- What a transfer from fold `f` to fold `g` books, it books with the two of them. -/
theorem crossAsks_fold {f g : Nat} {p q : Book × Nat} {src dst c k n src' dst' c' k' n' : Nat} :
    ∀ e ∈ [(f, p), (g, q)] ++ meshAsk f src dst c k n ++ bridgeAsk f src' dst' c' k' n', e.1 ∈ [f, g] := by
  intro e he
  simp only [meshAsk, bridgeAsk, List.cons_append, List.nil_append, List.mem_cons] at he
  rcases he with rfl | rfl | rfl | he
  · exact List.mem_cons_self
  · exact List.mem_cons_of_mem _ List.mem_cons_self
  · exact List.mem_cons_self
  · split at he
    · cases he
    · rw [List.mem_singleton.mp he]
      exact List.mem_cons_self

theorem xferAsks_fold {s : State} {f : Nat} {v : XArgs} : ∀ e ∈ xferAsks s f v, e.1 ∈ [f, xferDest s f v] := by
  unfold xferAsks
  dsimp only
  split
  · intro e he
    simp only [List.mem_cons, List.not_mem_nil, or_false] at he
    rcases he with rfl | rfl <;> exact List.mem_cons_self
  · exact crossAsks_fold

theorem tsndAsks_fold {s : State} {f t g : Nat} : ∀ e ∈ tsndAsks s f t g, e.1 ∈ [f, g] := crossAsks_fold

theorem pendVs_stays {here : Nat → Prop} {f : Nat} (s : State) (hf : here f) (q : VsPend) :
    FlightsStay here s (modFold s f fun x => pendVs x q) :=
  .modFold s hf (fun x => by unfold pendVs; split <;> rfl) (fun x => by unfold pendVs; split <;> rfl)
    (fun x => by unfold pendVs; split <;> rfl)

theorem pendSource_stays (s : State) (f : Nat) (v : XArgs) (k : Nat) : FlightsStay (· = f) s (pendSource s f v k) :=
  pendVs_stays (here := (· = f)) s rfl _

theorem sourceLines_stays (s : State) (f : Nat) (v : XArgs) (lines : List LineErr) :
    FlightsStay (fun _ => True) s (sourceLines s f v lines) := by
  unfold sourceLines
  exact .ite (readLines_stays ..) (.refl _ s)

/-- Reading a source without a line in error leaves the memory as it is. -/
theorem sourceLines_nil_via (s : State) (f : Nat) (v : XArgs) : Via [.regs, .folds, .flocks, .care] s (sourceLines s f v []) := by
  unfold sourceLines
  exact .ite (readLines_nil_via ..) (.refl _ s)

theorem sourceLines_of_clean {s : State} (h : s.care.bad = []) (f : Nat) (v : XArgs) : sourceLines s f v [] = s := by
  simp only [sourceLines, readLines_of_clean h, ite_self]

/-- A transfer joins those of its fold; its write is noted in its destination. -/
theorem xfers_addXfer (s : State) (f g sp a n k : Nat) (x : Xfer) :
    (getFold (addXfer s f g sp a n k x) f).xfers = (getFold s f).xfers ++ [x] := by
  have joined : (getFold (modFold s f fun y => { y with xfers := y.xfers ++ [x] }) f).xfers = (getFold s f).xfers ++ [x] := by
    rw [getFold_modFold, if_pos rfl]
  unfold addXfer
  dsimp only
  split
  · rw [(pendVs_stays (here := fun _ => True) _ trivial _).xfers f, joined]
  · exact joined

theorem addXfer_onlyFolds (s : State) (f g sp a n k : Nat) (x : Xfer) : OnlyFolds [f, g] s (addXfer s f g sp a n k x) := by
  unfold addXfer
  dsimp only
  have joined : OnlyFolds [f, g] s (modFold s f fun y => { y with xfers := y.xfers ++ [x] }) :=
    OnlyFolds.modFold f _ (fun _ _ => rfl) List.mem_cons_self
  split
  · exact joined.modFold g _ (List.mem_cons_of_mem _ List.mem_cons_self)
  · exact joined

/-! ## XFER (R22, R183) -/

/-- The state in which an XFER has booked its ports, counted and read its source. -/
def xferRead (s : State) (f : Nat) (v : XArgs) (lines : List LineErr) : State :=
  sourceLines (countMasked (bookAll s (xferAsks s f v)) f v.masked) f v lines

/-- The bytes that an XFER puts in flight. -/
def xferData (s : State) (f : Nat) (v : XArgs) (lines : List LineErr) : List Byte :=
  if v.masked ∧ v.ds = 1 ∧ xferDest s f v ≠ f then [] else sourceBytes (xferRead s f v lines) f v

/-- The transfer that an XFER puts in flight. -/
def xferFlight (s : State) (f : Nat) (v : XArgs) (lines : List LineErr) : Xfer :=
  { hwr := false, c := (getFold s f).now, dst := spaceAddr (xferDest s f v) v.ds v.da, data := xferData s f v lines, vis := xferVis s f v
    fly := xferVis s f v + 1, port := 0, bundle := (getFold s f).lastPc }

theorem booked_stays (s : State) (f : Nat) (v : XArgs) :
    FlightsStay (· ∈ [f, xferDest s f v]) s (countMasked (bookAll s (xferAsks s f v)) f v.masked) :=
  (bookAll_stays xferAsks_fold s).via (countMasked_via ..) rfl

theorem xferRead_stays (s : State) (f : Nat) (v : XArgs) (lines : List LineErr) : FlightsStay (fun _ => True) s (xferRead s f v lines) :=
  ((booked_stays s f v).mono fun _ _ => trivial).trans (sourceLines_stays ..)

theorem doXfer_eq (s : State) (f : Nat) (v : XArgs) (lines : List LineErr) : doXfer s f v lines =
    addXfer (pendSource (xferRead s f v lines) f v (v.len / 256)) f (xferDest s f v) v.ds v.da (xferData s f v lines).length (v.len / 256)
      (xferFlight s f v lines) := by
  simp only [xferFlight, ← (xferRead_stays s f v lines).now, ← (xferRead_stays s f v lines).lastPc]
  rfl

theorem xferData_masked {s : State} {f : Nat} {v : XArgs} (h : v.masked = true) (lines : List LineErr) :
    xferData s f v lines = if v.ds = 1 ∧ xferDest s f v ≠ f then [] else List.replicate v.len 0 := by
  simp only [xferData, sourceBytes, h, true_and, if_true]

theorem countMasked_false (s : State) (f : Nat) : countMasked s f false = s := rfl

theorem xferData_plain {s : State} {f : Nat} {v : XArgs} (h : v.masked = false) :
    xferData s f v [] = droveRead s (spaceAddr f v.ss v.sa) v.len := by
  have read : Via [.regs, .folds, .flocks, .care] s (xferRead s f v []) :=
    .trans (.step (countMasked_via ..) rfl ((bookAll_via ..).mono rfl)) (sourceLines_nil_via ..)
  simp only [xferData, sourceBytes, h, Bool.false_eq_true, false_and, if_false]
  exact read.droveRead rfl rfl rfl ..

theorem xfers_doXfer (s : State) (f : Nat) (v : XArgs) (lines : List LineErr) :
    (getFold (doXfer s f v lines) f).xfers = (getFold s f).xfers ++ [xferFlight s f v lines] := by
  rw [doXfer_eq, xfers_addXfer, (pendSource_stays ..).xfers, (xferRead_stays ..).xfers]

theorem xferRead_of_clean {s : State} (h : s.care.bad = []) (f : Nat) (v : XArgs) :
    xferRead s f v [] = countMasked (bookAll s (xferAsks s f v)) f v.masked := by
  have booked : Via [.regs, .folds] s (countMasked (bookAll s (xferAsks s f v)) f v.masked) :=
    .step (countMasked_via ..) rfl ((bookAll_via ..).mono rfl)
  have care : (countMasked (bookAll s (xferAsks s f v)) f v.masked).care = s.care := booked.piece (p := .care) rfl
  exact sourceLines_of_clean (by rw [care, h]) f v

theorem doXfer_clean {s : State} (h : s.care.bad = []) (f : Nat) (v : XArgs) :
    OnlyFolds [f, xferDest s f v] s (doXfer s f v []) ∧ Via stopParts s (doXfer s f v []) := by
  rw [doXfer_eq, xferRead_of_clean h]
  constructor
  · have read := (booked_stays s f v).trans ((pendSource_stays _ f v (v.len / 256)).mono fun g (e : g = f) => by simp [e])
    exact read.onlyFolds.trans fun g => addXfer_onlyFolds _ _ _ _ _ _ _ _ g
  · exact .step (addXfer_via ..) rfl (.step (pendSource_via ..) rfl (.step (countMasked_via ..) rfl ((bookAll_via ..).mono rfl)))

/-! ## TSND (R145, R183, R185, R518) -/

/-- The state in which a TSND to fold `g` has booked its ports, counted and read its tile. -/
def tsndRead (s : State) (f t g : Nat) (masked : Bool) (e : Ecc) : State :=
  let u := countMasked (bookAll s (tsndAsks s f t g)) f masked
  if masked then u else tileEcc u f t e

/-- The bytes that a TSND puts in flight. -/
def tsndData (s : State) (f t g : Nat) (masked : Bool) (e : Ecc) : List Byte :=
  let u := tsndRead s f t g masked e
  let mode := ((getFold s f).tile t).mode
  if masked then List.replicate (imageLen mode) 0
  else imageBytes (sendMarks ((getFold u f).tile t)) t ((slotOfFold u f).getD 0) u.tally.num (mode == 0)

/-- The transfer that a TSND to fold `g` puts in flight. -/
def tsndFlight (s : State) (f t g : Nat) (v : XArgs) (e : Ecc) : Xfer :=
  { hwr := false, c := (getFold s f).now, dst := vsAddr g v.da
    data := (tsndData s f t g v.masked e).take (imageLen ((getFold s f).tile t).mode)
    vis := tsndVis s f t g, fly := (getFold s f).now + 4 + tsndUnits s f t, port := 0, bundle := (getFold s f).lastPc }

theorem modTile_stays (s : State) (f t : Nat) (g : Tile → Tile) : FlightsStay (· = f) s (modTile s f t g) :=
  .modFold (f := f) s rfl

theorem tileEcc_stays (s : State) (f t : Nat) (e : Ecc) : FlightsStay (fun _ => True) s (tileEcc s f t e) := by
  cases e with
  | ok => exact .refl _ s
  | corrected => exact .via (.refl _ s) (bump_via ..) rfl
  | uncorrectable =>
    have poisoned := (modTile_stays s f t fun y => { y with poison := true }).mono (there := fun _ => True) fun _ _ => trivial
    exact ((poisoned.via (bump_via _ _ F.ACC_ECC_UNCORR _) rfl).via (errEvent_via ..) rfl).trans (dataSuspect_stays ..)

theorem tsndBooked_stays (s : State) (f t g : Nat) (masked : Bool) :
    FlightsStay (· ∈ [f, g]) s (countMasked (bookAll s (tsndAsks s f t g)) f masked) :=
  (bookAll_stays tsndAsks_fold s).via (countMasked_via ..) rfl

theorem tsndRead_stays (s : State) (f t g : Nat) (masked : Bool) (e : Ecc) : FlightsStay (fun _ => True) s (tsndRead s f t g masked e) := by
  have booked := (tsndBooked_stays s f t g masked).mono (there := fun _ => True) fun _ _ => trivial
  exact .ite booked (booked.trans (tileEcc_stays ..))

theorem doTsnd_eq (s : State) (f t : Nat) (v : XArgs) (e : Ecc) : doTsnd s f t v e =
    let g := (foldOfSlot s v.target).getD f
    addXfer (tsndRead s f t g v.masked e) f g 0 v.da (imageLen ((getFold s f).tile t).mode) (tsndUnits s f t) (tsndFlight s f t g v e) := by
  simp only [tsndFlight, ← (tsndRead_stays s f t ((foldOfSlot s v.target).getD f) v.masked e).now,
    ← (tsndRead_stays s f t ((foldOfSlot s v.target).getD f) v.masked e).lastPc]
  rfl

theorem xfers_doTsnd (s : State) (f t : Nat) (v : XArgs) (e : Ecc) : (getFold (doTsnd s f t v e) f).xfers =
    (getFold s f).xfers ++ [tsndFlight s f t ((foldOfSlot s v.target).getD f) v e] := by
  rw [doTsnd_eq, xfers_addXfer, (tsndRead_stays ..).xfers]

theorem tsndRead_ok (s : State) (f t g : Nat) (masked : Bool) :
    tsndRead s f t g masked .ok = countMasked (bookAll s (tsndAsks s f t g)) f masked := ite_self _

theorem doTsnd_ok (s : State) (f t : Nat) (v : XArgs) :
    OnlyFolds [f, (foldOfSlot s v.target).getD f] s (doTsnd s f t v .ok) ∧ Via stopParts s (doTsnd s f t v .ok) := by
  rw [doTsnd_eq]
  dsimp only
  rw [tsndRead_ok]
  constructor
  · exact (tsndBooked_stays ..).onlyFolds.trans fun g => addXfer_onlyFolds _ _ _ _ _ _ _ _ g
  · exact .step (addXfer_via ..) rfl (.step (countMasked_via ..) rfl ((bookAll_via ..).mono rfl))

theorem tile_bookAll (s : State) (asks : Asks) (f t : Nat) : (getFold (bookAll s asks) f).tile t = (getFold s f).tile t := by
  refine forEach_keeps (I := fun u => (getFold u f).tile t = (getFold s f).tile t) (fun u e _ hu => ?_) rfl
  rw [addBook, getFold_modFold]
  split
  · rename_i same
    rw [← hu, same]
    rfl
  · exact hu

theorem tsndData_masked {masked : Bool} (h : masked = true) (s : State) (f t g : Nat) (e : Ecc) :
    tsndData s f t g masked e = List.replicate (imageLen ((getFold s f).tile t).mode) 0 := by
  simp only [tsndData, h, if_true]

theorem tsndData_ok {masked : Bool} (h : masked = false) (s : State) (f t g : Nat) : tsndData s f t g masked .ok =
    imageBytes (sendMarks ((getFold s f).tile t)) t ((slotOfFold s f).getD 0) s.tally.num (((getFold s f).tile t).mode == 0) := by
  subst h
  have booked : tsndRead s f t g false .ok = bookAll s (tsndAsks s f t g) := by
    rw [tsndRead_ok, countMasked_false]
  have via : Via [.folds] s (bookAll s (tsndAsks s f t g)) := bookAll_via ..
  have tally : (bookAll s (tsndAsks s f t g)).tally = s.tally := via.piece (p := .tally) rfl
  simp only [tsndData, booked, tile_bookAll, via.slotOfFold rfl, tally, Bool.false_eq_true, if_false]

/-! ## The two commands -/

/-- An XFER that its check lets through does its effect, and the syllables after it that no command stands for are dealt with. -/
theorem answers_xfer {s : State} {f : Fin 68} {rsv : BitVec 18} {desc : MovRef} {P : State → Prop}
    (takes : takes s f 3 (movWord 1 rsv desc.desc) = true) (clean : xferCheck (dropSyllable s f) f rsv.toNat desc.desc = [])
    (h : P (settleTodo (doXfer (dropSyllable s f) f (xferOf s f desc.desc) desc.lines) f)) : Answers (.xfer f rsv desc) s P := by
  refine ⟨_, ?_, h⟩
  show Host.Outcome.next (syllable s f 3 (movWord 1 rsv desc.desc) _) = _
  rw [syllable_of_takes takes, issueXfer, clean, issueWith, xferOf_dropSyllable]

theorem answers_tsnd {s : State} {f : Fin 68} {tile : Fin 128} {tag : BitVec 8} {rsv : BitVec 3} {desc : Fin 1024} {e : Ecc}
    {P : State → Prop} (takes : takes s f 3 (tsndWord tile tag rsv desc) = true)
    (clean : tsndCheck (dropSyllable s f) f tile tag.toNat rsv.toNat desc = [])
    (h : P (settleTodo (doTsnd (dropSyllable s f) f tile (xferOf s f desc) e) f)) : Answers (.tsnd f tile tag rsv desc e) s P := by
  refine ⟨_, ?_, h⟩
  show Host.Outcome.next (syllable s f 3 (tsndWord tile tag rsv desc) _) = _
  rw [syllable_of_takes takes, issueTsnd, clean, issueWith, xferOf_dropSyllable]

/-- Settles O17: the transfer that XFER and TSND append to those of their fold, with its bytes, and the folds and pieces that it leaves. -/
theorem transfersFlyUntilVisible : Obligations.TransfersFlyUntilVisible := by
  unfold Obligations.TransfersFlyUntilVisible
  refine ⟨fun s f rsv desc taken clean => ?xfer, fun s f tile tag rsv desc e taken clean => ?tsnd⟩
  case xfer =>
    extract_lets v
    have drop := dropSyllable_stays s f
    have dropped : Via [.folds] s (dropSyllable s f) := dropSyllable_via ..
    refine answers_xfer taken clean ⟨⟨xferFlight (dropSyllable s f) f v desc.lines, ?_, rfl, drop.now f, rfl, xferVis_dropSyllable ..,
      rfl, drop.lastPc f, fun masked => xferData_masked masked _, fun unmasked noLines => ?_⟩, fun noLines noBad => ?_, ?_⟩
    · rw [(settleTodo_stays ..).xfers, xfers_doXfer, drop.xfers]
    · show xferData _ _ _ _ = _
      rw [noLines, xferData_plain unmasked, dropped.droveRead rfl rfl rfl]
    · rw [noLines]
      have care : (dropSyllable s f).care = s.care := dropped.piece (p := .care) rfl
      obtain ⟨folds, via⟩ := doXfer_clean (by rw [care, noBad]) f v
      exact ⟨syllable_folds folds List.mem_cons_self, syllable_parts via rfl⟩
    · exact syllable_parts (doXfer_via ..) rfl
  case tsnd =>
    extract_lets v g y
    have drop := dropSyllable_stays s f
    have dropped : Via [.folds] s (dropSyllable s f) := dropSyllable_via ..
    have tileKept := tile_dropSyllable s f tile
    refine answers_tsnd taken clean ⟨⟨tsndFlight (dropSyllable s f) f tile g v e, ?_, rfl, drop.now f, rfl, tsndVis_dropSyllable ..,
      ?_, drop.lastPc f, fun masked => ?_, fun unmasked ok => ?_⟩, fun ok => ?_, ?_⟩
    · rw [(settleTodo_stays ..).xfers, xfers_doTsnd, drop.xfers]
      rfl
    · simp only [tsndFlight, drop.now, tsndUnits_dropSyllable]
    · simp only [tsndFlight, tsndData_masked masked, tileKept, List.take_replicate, Nat.min_self]
      rfl
    · have tally : (dropSyllable s f).tally = s.tally := dropped.piece (p := .tally) rfl
      simp only [tsndFlight, ok, tsndData_ok unmasked, tileKept, dropped.slotOfFold rfl, tally]
      rfl
    · rw [ok]
      obtain ⟨folds, via⟩ := doTsnd_ok (dropSyllable s f) f tile v
      exact ⟨syllable_folds folds List.mem_cons_self, syllable_parts via rfl⟩
    · exact syllable_parts ((doTsnd_via ..).mono rfl) rfl

end Sys2Proof.Machine
end

section
/-! SUPPORT. Runs of bytes that scheduled work or the IOD writes (R239, R248): each byte of the run is read back where memory is populated,
and no other byte changes. -/

namespace Sys2Proof.Machine

open Sys2Proof

theorem readByte_writeByte_ne {a b : Nat} (s : State) (v : Byte) (h : b ≠ a) : readByte (writeByte s a v) b = readByte s b := by
  cases hm : isMem s a with
  | true => rw [readByte_writeByte s a b v hm, if_neg h]
  | false => exact readByte_writeByte_absent s a b v hm

/-! ## Scheduled work -/

/-- The state after one byte of scheduled work: the IOD's older byte no longer shows there. -/
def droveByteStored (s : State) (a : Nat) (v : Byte) : State := (writeByte s a v).setFresh (putD 0 s.fresh a 0)

theorem droveBytes_cons (s : State) (a : Nat) (b : Byte) (bs : List Byte) :
    droveBytes s a (b :: bs) = droveBytes (droveByteStored s a b) (a + 1) bs := rfl

theorem isMem_droveByteStored (s : State) (a : Nat) (v : Byte) (x : Nat) : isMem (droveByteStored s a v) x = isMem s x :=
  (Via.step (setFresh_via ..) rfl ((writeByte_via s a v).mono (ps := [.mem, .fresh]) rfl)).isMem rfl x

theorem readByte_droveByteStored_ne {a x : Nat} (s : State) (v : Byte) (h : x ≠ a) :
    readByte (droveByteStored s a v) x = readByte s x := readByte_writeByte_ne s v h

theorem droveByte_droveByteStored_ne {a x : Nat} (s : State) (v : Byte) (h : x ≠ a) :
    droveByte (droveByteStored s a v) x = droveByte s x := by
  have fresh : getD 0 (droveByteStored s a v).fresh x = getD 0 s.fresh x := by
    rw [droveByteStored, State.setFresh_fresh, getD_putD_other _ _ _ _ _ h]
  simp only [droveByte, fresh, readByte_droveByteStored_ne s v h]

theorem droveByte_droveByteStored {a : Nat} {s : State} (h : isMem s a = true) (v : Byte) : droveByte (droveByteStored s a v) a = v := by
  have fresh : getD 0 (droveByteStored s a v).fresh a = 0 := by
    rw [droveByteStored, State.setFresh_fresh, getD_putD_same]
  have read : readByte (droveByteStored s a v) a = v := (readByte_writeByte s a a v h).trans (if_pos rfl)
  simp only [droveByte, fresh, read, if_true]

theorem readByte_droveBytes_outside {x : Nat} (bs : List Byte) (s : State) (a : Nat) (h : ¬ (a ≤ x ∧ x < a + bs.length)) :
    readByte (droveBytes s a bs) x = readByte s x := by
  induction bs generalizing s a with
  | nil => rfl
  | cons b bs ih =>
    simp only [List.length_cons] at h
    rw [droveBytes_cons, ih _ _ (by omega), readByte_droveByteStored_ne _ _ (by omega)]

theorem droveByte_droveBytes_before {x : Nat} (bs : List Byte) (s : State) (a : Nat) (h : x < a) :
    droveByte (droveBytes s a bs) x = droveByte s x := by
  induction bs generalizing s a with
  | nil => rfl
  | cons b bs ih => rw [droveBytes_cons, ih _ _ (by omega), droveByte_droveByteStored_ne _ _ (by omega)]

/-- Scheduled work reads back the run that it wrote. -/
theorem droveByte_droveBytes (bs : List Byte) (s : State) (a j : Nat) (hj : j < bs.length) (hm : isMem s (a + j) = true) :
    droveByte (droveBytes s a bs) (a + j) = bs.getD j 0 := by
  induction bs generalizing s a j with
  | nil => cases hj
  | cons b bs ih =>
    rw [droveBytes_cons]
    cases j with
    | zero =>
      simp only [Nat.add_zero] at hm ⊢
      rw [droveByte_droveBytes_before _ _ _ (by omega), droveByte_droveByteStored hm, List.getD_cons_zero]
    | succ j =>
      have next : a + (j + 1) = a + 1 + j := by omega
      rw [next] at hm ⊢
      rw [List.getD_cons_succ]
      exact ih _ _ j (Nat.lt_of_succ_lt_succ hj) (by rw [isMem_droveByteStored, hm])

/-! ## The IOD -/

theorem iodByte_of_mem {s : State} {a : Nat} (h : isMem s a = true) (v : Byte) :
    ∃ u : State, u.mem = s.mem ∧ u.hbmShort = s.hbmShort ∧ iodByte s a v = writeByte u a v := by
  unfold iodByte
  rw [if_pos h]
  dsimp only
  split
  · exact ⟨s.setFresh (putD 0 s.fresh a ((readByte s a).toNat + 1)), rfl, rfl, rfl⟩
  · exact ⟨s, rfl, rfl, rfl⟩

theorem readByte_iodByte {s : State} {a : Nat} (h : isMem s a = true) (v : Byte) (x : Nat) :
    readByte (iodByte s a v) x = if x = a then v else readByte s x := by
  obtain ⟨u, mem, short, e⟩ := iodByte_of_mem h v
  have populated : isMem u a = true := by rw [← h, isMem, isMem, short]
  rw [e, readByte_writeByte u a x v populated, readByte_of_same mem short]

theorem readByte_iodByte_ne {a x : Nat} (s : State) (v : Byte) (h : x ≠ a) : readByte (iodByte s a v) x = readByte s x := by
  cases hm : isMem s a with
  | true => rw [readByte_iodByte hm, if_neg h]
  | false => rw [iodByte, hm]; rfl

theorem readByte_iodBytes_outside {x : Nat} (bs : List Byte) (s : State) (a : Nat) (h : ¬ (a ≤ x ∧ x < a + bs.length)) :
    readByte (iodBytes s a bs) x = readByte s x := by
  induction bs generalizing s a with
  | nil => rfl
  | cons b bs ih =>
    simp only [List.length_cons] at h
    rw [iodBytes, ih _ _ (by omega), readByte_iodByte_ne _ _ (by omega)]

theorem readByte_iodBytes (bs : List Byte) (s : State) (a j : Nat) (hj : j < bs.length) (hm : isMem s (a + j) = true) :
    readByte (iodBytes s a bs) (a + j) = bs.getD j 0 := by
  induction bs generalizing s a j with
  | nil => cases hj
  | cons b bs ih =>
    rw [iodBytes]
    cases j with
    | zero =>
      simp only [Nat.add_zero] at hm ⊢
      rw [readByte_iodBytes_outside _ _ _ (by omega), readByte_iodByte hm, if_pos rfl, List.getD_cons_zero]
    | succ j =>
      have next : a + (j + 1) = a + 1 + j := by omega
      rw [next] at hm ⊢
      rw [List.getD_cons_succ]
      exact ih _ _ j (Nat.lt_of_succ_lt_succ hj) (by rw [(iodByte_via s a b).isMem rfl, hm])

end Sys2Proof.Machine
end

section
/-! SUPPORT. Data in flight that lands, writes to HBM that complete, and the end of a pause (R22, R23, R138, R160, R245, R331, R333). -/

namespace Sys2Proof.Machine

open Sys2Proof

/-! ## The first of a list -/

/-- A choice along a list that takes the element at hand or keeps what it has ends with an element of the list. -/
theorem mem_of_foldl_choice {α : Type} {g : Option α → α → Option α} (first : ∀ y, g none y = some y)
    (choice : ∀ z y, g (some z) y = some y ∨ g (some z) y = some z) {xs : List α} {x : α} (e : xs.foldl g none = some x) : x ∈ xs := by
  have chosen : ∀ z, xs.foldl g none = some z → z ∈ xs := by
    refine List.foldlRecOn (motive := fun m => ∀ z, m = some z → z ∈ xs) xs g (fun _ hz => nomatch hz) fun m hm y hy z hz => ?_
    have taken_or_kept : g m y = some y ∨ g m y = m := by
      cases m with
      | none => exact .inl (first y)
      | some w => exact choice w y
    rcases taken_or_kept with take | keep
    · rw [take, Option.some_inj] at hz
      exact hz ▸ hy
    · exact hm z (keep ▸ hz)
  exact chosen x e

theorem mem_of_firstXfer {p : Xfer → Bool} {xs : List Xfer} {x : Xfer} (h : firstXfer p xs = some x) : x ∈ xs :=
  List.mem_of_mem_filter (mem_of_foldl_choice (fun _ => rfl) (fun _ _ => ite_eq_or_eq _ _ _) h)

theorem mem_of_firstLanding {xs : List Landing} {x : Landing} (h : firstLanding xs = some x) : x ∈ xs :=
  mem_of_foldl_choice (fun _ => rfl) (fun _ _ => ite_eq_or_eq _ _ _) h

theorem length_dropXfer {p : Xfer → Bool} {xs : List Xfer} {x : Xfer} (h : x ∈ xs) (hp : p x = true) :
    (dropXfer p xs).length + 1 = xs.length := by
  induction xs with
  | nil => cases h
  | cons y ys ih =>
    unfold dropXfer
    split
    · rfl
    · rename_i hy
      have tail : x ∈ ys := (List.mem_cons.mp h).resolve_left fun e => hy (e ▸ hp)
      rw [List.length_cons, List.length_cons, ih tail]

theorem length_dropLanding {xs : List Landing} {x : Landing} (h : x ∈ xs) : (dropLanding x xs).length = xs.length - 1 := by
  induction xs with
  | nil => cases h
  | cons y ys ih =>
    unfold dropLanding
    split
    · rfl
    · rename_i hy
      have tail : x ∈ ys := (List.mem_cons.mp h).resolve_left fun e => hy e.symm
      have := List.length_pos_of_mem tail
      rw [List.length_cons, List.length_cons, ih tail]
      omega

/-! ## Landing (R22, R38, R258) -/

theorem loadsTo_stays (s : State) (f t : Nat) : FlightsStay (· = f) s (loadsTo s f t) := by
  have loaded : FlightsStay (· = f) s (forEach s (getFold s f).loads fun s l => loadPart s f t l) :=
    .forEach (fun u l _ => by unfold loadPart; exact .modFold (f := f) u rfl) s
  unfold loadsTo
  exact loaded.trans (.modFold _ rfl)

/-- The state in which the plane loads of the staging slice that data lands in have taken what stood there before. -/
def loadsBefore (s : State) (dst vis : Nat) : State := match stagingFold dst with
  | some g => loadsTo s g (vis + 1)
  | none => s

theorem landBytes_eq (s : State) (dst vis : Nat) (data : List Byte) :
    landBytes s dst vis data = cureLines (droveBytes (loadsBefore s dst vis) dst data) (lineIn dst data.length) := rfl

theorem loadsBefore_stays (s : State) (dst vis : Nat) : FlightsStay (· ∈ (stagingFold dst).toList) s (loadsBefore s dst vis) := by
  unfold loadsBefore
  split
  · rename_i g hg
    exact (loadsTo_stays ..).mono fun q (e : q = g) => by simp [hg, e]
  · exact .refl _ s

theorem loadsBefore_via (s : State) (dst vis : Nat) : Via [.folds] s (loadsBefore s dst vis) := by
  unfold loadsBefore
  split
  · exact loadsTo_via ..
  · exact .refl _ s

theorem landBytes_stays (s : State) (dst vis : Nat) (data : List Byte) :
    FlightsStay (· ∈ (stagingFold dst).toList) s (landBytes s dst vis data) :=
  ((loadsBefore_stays s dst vis).via (droveBytes_via ..) rfl).via (cureLines_via ..) rfl

theorem droveByte_landBytes {s : State} {dst j : Nat} {data : List Byte} (vis : Nat) (hj : j < data.length)
    (hm : isMem s (dst + j) = true) : droveByte (landBytes s dst vis data) (dst + j) = data.getD j 0 := by
  rw [landBytes_eq, (cureLines_via ..).droveByte rfl rfl rfl]
  exact droveByte_droveBytes data _ dst j hj (by rw [(loadsBefore_via s dst vis).isMem rfl, hm])

theorem landBytes_onlyBytes (s : State) (dst vis : Nat) (data : List Byte) :
    OnlyBytes (fun a => dst ≤ a ∧ a < dst + data.length) s (landBytes s dst vis data) := by
  intro a outside
  rw [landBytes_eq, (cureLines_via ..).readByte rfl rfl, readByte_droveBytes_outside _ _ _ outside, (loadsBefore_via ..).readByte rfl rfl]

theorem landBytes_care (s : State) (dst vis : Nat) (data : List Byte) :
    (landBytes s dst vis data).care = { s.care with bad := s.care.bad.filter fun e => !lineIn dst data.length e.2 } := by
  have care : (droveBytes (loadsBefore s dst vis) dst data).care = s.care :=
    (Via.step (droveBytes_via ..) rfl ((loadsBefore_via s dst vis).mono (ps := [.mem, .fresh, .folds]) rfl)).piece (p := .care) rfl
  rw [landBytes_eq, cureLines, State.setCare_care, care]

/-! ## A fold's transfer becomes visible -/

/-- Data that is not late and meets no bus failure lands, and does no more. -/
theorem landXfer_onTime (s : State) (f : Nat) (x : Xfer) : landXfer s f x 0 .none =
    landBytes (modFold s f fun y => { y with xfers := dropXfer (· == x) y.xfers }) x.dst x.vis x.data := rfl

theorem xfers_landXfer (s : State) (f : Nat) (x : Xfer) :
    (getFold (landXfer s f x 0 .none) f).xfers = dropXfer (· == x) (getFold s f).xfers := by
  rw [landXfer_onTime, (landBytes_stays ..).xfers, getFold_modFold, if_pos rfl]

theorem landXfer_onlyFolds (s : State) (f : Nat) (x : Xfer) :
    OnlyFolds (f :: (stagingFold x.dst).toList) s (landXfer s f x 0 .none) := by
  rw [landXfer_onTime]
  exact (OnlyFolds.modFold f _ (fun _ _ => rfl) List.mem_cons_self).trans
    ((landBytes_stays ..).mono fun g (hg : g ∈ _) => List.mem_cons_of_mem f hg).onlyFolds

theorem landXfer_onTime_via (s : State) (f : Nat) (x : Xfer) : Via [.mem, .fresh, .folds, .care] s (landXfer s f x 0 .none) :=
  .trans ((modFold_via ..).mono rfl) (landBytes_via ..)

theorem answers_dataVisible_fold {s : State} {f : Fin 68} {x : Xfer} {P : State → Prop}
    (first : firstXfer (fun x => !x.hwr) (getFold s f).xfers = some x) (due : due s (x.vis + 1) = true) (h : P (landXfer s f x 0 .none)) :
    Answers (.dataVisible (.fold f) 0 .none) s P := by
  refine ⟨_, ?_, h⟩
  show execDataVisible (.fold f) 0 .none s = _
  simp only [execDataVisible, first, due, if_true]

/-! ## A link's flit becomes visible -/

section
variable {ps : List StatePart} {s t : State}

theorem Via.getLink (h : Via ps s t) (k : ps.contains .links = false) (l : Nat) : Machine.getLink t l = Machine.getLink s l := by
  have links : t.links = s.links := h.piece k
  simp only [Machine.getLink, links]

end

theorem getLink_putLink (s : State) (l i : Nat) (x : Link) : getLink (putLink s l x) i = if i = l then x else getLink s i := by
  rw [getLink, putLink, State.setLinks_links, getD_putD]
  rfl

theorem getLink_modLink (s : State) (l i : Nat) (g : Link → Link) :
    getLink (modLink s l g) i = if i = l then g (getLink s l) else getLink s i := getLink_putLink ..

/-- From `s` to `t` link `l` keeps the flits that wait to become visible, and every other link all that it has. -/
structure LandingsStay (l : Nat) (s t : State) : Prop where
  /-- the flits of link `l` -/
  landing : (getLink t l).landing = (getLink s l).landing
  /-- the other links -/
  other : ∀ i, i ≠ l → getLink t i = getLink s i

namespace LandingsStay

variable {l : Nat} {r s t : State}

theorem refl (l : Nat) (s : State) : LandingsStay l s s := ⟨rfl, fun _ _ => rfl⟩

theorem trans (h : LandingsStay l r s) (k : LandingsStay l s t) : LandingsStay l r t :=
  ⟨k.landing.trans h.landing, fun i hi => (k.other i hi).trans (h.other i hi)⟩

theorem via {ps : List StatePart} (h : LandingsStay l r s) (k : Via ps s t) (hps : ps.contains .links = false) : LandingsStay l r t :=
  h.trans ⟨by rw [k.getLink hps], fun i _ => k.getLink hps i⟩

theorem putLink {x : Link} (h : x.landing = (getLink s l).landing := by rfl) : LandingsStay l s (Machine.putLink s l x) where
  landing := by rw [getLink_putLink, if_pos rfl, h]
  other i hi := by rw [getLink_putLink, if_neg hi]

end LandingsStay

theorem emitFlit_landings (s : State) (l : Nat) (bytes : List Byte) : LandingsStay l s (emitFlit s l bytes) := by
  unfold emitFlit
  exact .via .putLink (emit_via ..) rfl

theorem sendNow_landings (s : State) (l : Nat) (b : Body) : LandingsStay l s (sendNow l s b) := by
  unfold sendNow
  exact .trans (.via .putLink (bump_via ..) rfl) (emitFlit_landings ..)

theorem sendSeq_landings (s : State) (l : Nat) (b : Body) : LandingsStay l s (sendSeq s l b) := by
  unfold sendSeq
  split
  · split
    · exact sendNow_landings ..
    · exact .putLink
  · exact .refl l s

theorem showStop_landings (s : State) (l : Nat) : LandingsStay l s (showStop s l) := by
  unfold showStop
  dsimp only
  split
  · exact .refl l s
  · exact .trans (.via (.refl l s) (wr0_via ..) rfl) (sendSeq_landings ..)

/-- The stop bit that stands as the landing space asks for changes nothing (R333). -/
theorem showStop_of_shown {s : State} {l : Nat} (h : rd s (linkPg l) F.LINK_STATE_STOP = b2n (decide (448 ≤ (getLink s l).landing.length))) :
    showStop s l = s := by
  unfold showStop
  rw [h]
  cases decide (448 ≤ (getLink s l).landing.length) <;> rfl

theorem landing_dropFlit (s : State) (l : Nat) (x : Landing) : (getLink (dropFlit s l x) l).landing = dropLanding x (getLink s l).landing := by
  unfold dropFlit
  dsimp only
  rw [getLink_modLink, if_pos rfl]

theorem dropFlit_other {l i : Nat} (h : i ≠ l) (s : State) (x : Landing) : getLink (dropFlit s l x) i = getLink s i := by
  unfold dropFlit
  dsimp only
  rw [getLink_modLink, if_neg h]

theorem landFlit_onTime (s : State) (l : Nat) (x : Landing) :
    landFlit s l x 0 .none = landBytes (showStop (dropFlit s l x) l) x.addr x.vis x.data := rfl

theorem shown_via (s : State) (l : Nat) (x : Landing) : Via [.regs, .links, .out] s (showStop (dropFlit s l x) l) :=
  .after (showStop_via ..) ((dropFlit_via ..).mono rfl)

theorem landing_landFlit (s : State) (l : Nat) (x : Landing) :
    (getLink (landFlit s l x 0 .none) l).landing = dropLanding x (getLink s l).landing := by
  rw [landFlit_onTime, (landBytes_via ..).getLink rfl, (showStop_landings ..).landing, landing_dropFlit]

theorem landFlit_other {l i : Nat} (h : i ≠ l) (s : State) (x : Landing) : getLink (landFlit s l x 0 .none) i = getLink s i := by
  rw [landFlit_onTime, (landBytes_via ..).getLink rfl, (showStop_landings ..).other i h, dropFlit_other h]

/-- No flit goes out when the stop bit stands as it must after the landing. -/
theorem landFlit_quiet {s : State} {l : Nat} {x : Landing} (hx : x ∈ (getLink s l).landing)
    (h : rd s (linkPg l) F.LINK_STATE_STOP = b2n (decide (448 ≤ (getLink s l).landing.length - 1))) :
    (landFlit s l x 0 .none).out = s.out ∧ (landFlit s l x 0 .none).regs = s.regs := by
  have shown : showStop (dropFlit s l x) l = dropFlit s l x := by
    refine showStop_of_shown ?_
    rw [landing_dropFlit, length_dropLanding hx, (dropFlit_via s l x).rd rfl, h]
  have quiet : Via [.mem, .fresh, .folds, .care, .links] s (landFlit s l x 0 .none) := by
    rw [landFlit_onTime, shown]
    exact .step (landBytes_via ..) rfl ((dropFlit_via ..).mono rfl)
  exact ⟨quiet.piece (p := .out) rfl, quiet.piece (p := .regs) rfl⟩

theorem answers_dataVisible_link {s : State} {l : Fin 96} {x : Landing} {P : State → Prop}
    (first : firstLanding (getLink s l).landing = some x) (due : due s (x.vis + 1) = true) (h : P (landFlit s l x 0 .none)) :
    Answers (.dataVisible (.link l) 0 .none) s P := by
  have here : firstLanding (getD Link.init s.links l).landing = some x := first
  refine ⟨_, ?_, h⟩
  show execDataVisible (.link l) 0 .none s = _
  simp only [execDataVisible, here, due, if_true]

/-! ## A write to HBM completes (R245, R248) -/

/-- The state in which the writes to HBM that `x` overtakes give way to it. -/
def overtakenAll (s : State) (x : Xfer) : State :=
  forEach s (s.folds.map (·.1)) fun u g => modFold u g fun y => { y with xfers := y.xfers.map (overtaken s x) }

theorem completeHwr_eq (s : State) (f : Nat) (x : Xfer) :
    completeHwr s f x = modFold (overtakenAll s x) f fun y => { y with xfers := dropXfer (· == x) y.xfers } := rfl

theorem overtaken_of_le {s : State} {x y : Xfer} (h : y.hwr = true → x.c ≤ y.c) : overtaken s x y = y := by
  unfold overtaken
  rw [if_neg]
  rintro ⟨hwr, earlier⟩
  have := h hwr
  omega

theorem overtakenAll_keeps_count {s : State} {f : Nat} {x : Xfer} (h : x ∈ (getFold s f).xfers) :
    x ∈ (getFold (overtakenAll s x) f).xfers ∧ (getFold (overtakenAll s x) f).xfers.length = (getFold s f).xfers.length := by
  refine forEach_keeps (I := fun u => x ∈ (getFold u f).xfers ∧ (getFold u f).xfers.length = (getFold s f).xfers.length)
    (fun u g _ ⟨hx, hl⟩ => ?_) ⟨h, rfl⟩
  rw [getFold_modFold]
  split
  · rename_i e
    subst e
    refine ⟨List.mem_map.mpr ⟨x, hx, overtaken_of_le fun _ => Nat.le_refl x.c⟩, ?_⟩
    rw [List.length_map, hl]
  · exact ⟨hx, hl⟩

/-- The write that issued first overtakes no other. -/
theorem overtakenAll_of_first {s : State} {x : Xfer} (h : ∀ g y, y ∈ (getFold s g).xfers → y.hwr = true → x.c ≤ y.c) (q : Nat) :
    getFold (overtakenAll s x) q = getFold s q := by
  refine forEach_keeps (I := fun u => ∀ q, getFold u q = getFold s q) (fun u g _ hu q => ?_) (fun _ => rfl) q
  have same : (getFold u g).xfers.map (overtaken s x) = (getFold u g).xfers := by
    rw [hu g]
    exact (List.map_congr_left (g := id) fun y hy => overtaken_of_le (h g y hy)).trans (List.map_id _)
  rw [getFold_modFold]
  split
  · rename_i e
    rw [same, e, hu g]
  · exact hu q

theorem length_xfers_completeHwr {s : State} {f : Nat} {x : Xfer} (h : x ∈ (getFold s f).xfers) :
    (getFold (completeHwr s f x) f).xfers.length + 1 = (getFold s f).xfers.length := by
  obtain ⟨there, count⟩ := overtakenAll_keeps_count h
  rw [completeHwr_eq, getFold_modFold, if_pos rfl, ← count]
  exact length_dropXfer there (beq_self_eq_true x)

theorem completeHwr_of_first {s : State} {x : Xfer} (h : ∀ g y, y ∈ (getFold s g).xfers → y.hwr = true → x.c ≤ y.c) (f : Nat) :
    (getFold (completeHwr s f x) f).xfers = dropXfer (· == x) (getFold s f).xfers ∧ OnlyFolds [f] s (completeHwr s f x) := by
  rw [completeHwr_eq]
  constructor
  · rw [getFold_modFold, if_pos rfl, overtakenAll_of_first h]
  · exact OnlyFolds.modFold f _ (fun g _ => overtakenAll_of_first h g) List.mem_cons_self

theorem answers_hwrComplete {s : State} {f : Fin 68} {x : Xfer} {P : State → Prop} (first : firstXfer (·.hwr) (getFold s f).xfers = some x)
    (due : due s (x.vis + 1) = true) (h : P (completeHwr s f x)) : Answers (.hwrComplete f) s P := by
  refine ⟨_, ?_, h⟩
  show execHwrComplete f s = _
  simp only [execHwrComplete, first, due, if_true]

/-! ## The pause ends (R138, R160) -/

/-- The pause lasts for its longest source. -/
theorem le_owedCycles {s : State} : ∀ e ∈ s.pause.owed, e.2 ≤ owedCycles s := by
  have bound : ∀ (xs : SMap Nat) (m : Nat), m ≤ xs.foldl (fun m e => max m e.2) m ∧ ∀ e ∈ xs, e.2 ≤ xs.foldl (fun m e => max m e.2) m := by
    intro xs
    induction xs with
    | nil => exact fun m => ⟨Nat.le_refl m, fun _ h => nomatch h⟩
    | cons x xs ih =>
      intro m
      obtain ⟨start, rest⟩ := ih (max m x.2)
      refine ⟨(Nat.le_max_left m x.2).trans start, fun e he => ?_⟩
      rcases List.mem_cons.mp he with rfl | he
      · exact (Nat.le_max_right m e.2).trans start
      · exact rest e he
  exact (bound s.pause.owed 0).2

/-- The fields that raising a HOLD can write. -/
def holdFields : List (Nat × Field × Nat) := [(tallyPg, F.HOLD_LATE, 0), (tallyPg, F.HOLD_RAISED, 0), (tallyPg, F.STATUS_SAT, 0)]

theorem raiseHold_fields (s : State) (q : Nat) : OnlyFields holdFields s (raiseHold s q) := by
  unfold raiseHold
  split
  · exact .refl _ s
  · split
    · exact (OnlyFields.refl _ s).bumpI _ _ _ _ (by simp [holdFields]) (by simp [holdFields])
    · exact OnlyFields.bumpI _ _ _ _ (fun _ _ _ _ => rfl) (by simp [holdFields]) (by simp [holdFields])

/-- The stretch that a prediction counts leaves what the pause owes and has taken, and draws nothing outside a droop (R446). -/
theorem passStretch_leaves (s : State) : (passStretch s).regs = s.regs ∧ (passStretch s).pause.owed = s.pause.owed
    ∧ (passStretch s).pause.taken = s.pause.taken ∧ (s.power.droop = false → passStretch s = s) := by
  unfold passStretch
  split
  · rename_i droop
    exact ⟨rfl, rfl, rfl, fun h => nomatch droop.symm.trans h⟩
  · exact ⟨rfl, rfl, rfl, fun _ => rfl⟩

theorem predict_after_stretch (s : State) :
    Via [.regs, .tally] (passStretch s) (predict s) ∧ OnlyFields holdFields (passStretch s) (predict s) := by
  unfold predict
  dsimp only
  split
  · exact ⟨.refl _ _, .refl _ _⟩
  · refine ⟨.forEach (fun u k => raiseHold_via ..) (.refl _ _), ?_⟩
    exact forEach_keeps (I := OnlyFields holdFields (passStretch s)) (fun t _ _ ht => ht.trans (raiseHold_fields t _)) (.refl _ _)

theorem pauseSeen_ne_sat (f g : Nat) : fkey (foldPg g) F.STATUS_SAT 0 ≠ fkey (foldPg f) F.PAUSE_SEEN_CYC 0 := by
  simp only [fkey, foldPg, F.STATUS_SAT, F.PAUSE_SEEN_CYC]
  omega

theorem pauseSeen_bump_other {f g : Nat} (h : f ≠ g) (s : State) (n : Nat) :
    rd (bump s (foldPg g) F.PAUSE_SEEN_CYC n) (foldPg f) F.PAUSE_SEEN_CYC = rd s (foldPg f) F.PAUSE_SEEN_CYC := by
  have pages : fkey (foldPg g) F.PAUSE_SEEN_CYC 0 ≠ fkey (foldPg f) F.PAUSE_SEEN_CYC 0 := by
    simp only [fkey, foldPg, F.PAUSE_SEEN_CYC]
    omega
  refine OnlyFields.bumpI (ks := [(foldPg g, F.PAUSE_SEEN_CYC, 0), (foldPg g, F.STATUS_SAT, 0)]) _ _ _ _ (.refl _ s)
    List.mem_cons_self (List.mem_cons_of_mem _ List.mem_cons_self) _ _ _ ?_
  simp [pages, pauseSeen_ne_sat]

/-- The folds of a list count the cycles of a pause, each once. -/
theorem pauseSeen_forEach {f : Nat} {fs : List Nat} (once : fs.Nodup) {s : State} {n : Nat}
    (small : rd s (foldPg f) F.PAUSE_SEEN_CYC + n < 2 ^ 32 - 1) :
    rd (forEach s fs fun s g => bump s (foldPg g) F.PAUSE_SEEN_CYC n) (foldPg f) F.PAUSE_SEEN_CYC =
      rd s (foldPg f) F.PAUSE_SEEN_CYC + if f ∈ fs then n else 0 := by
  induction fs generalizing s with
  | nil => rfl
  | cons g fs ih =>
    obtain ⟨fresh, once⟩ := List.nodup_cons.mp once
    show rd (forEach (bump s (foldPg g) F.PAUSE_SEEN_CYC n) fs _) _ _ = _
    by_cases e : f = g
    · subst e
      have counted : rd (bump s (foldPg f) F.PAUSE_SEEN_CYC n) (foldPg f) F.PAUSE_SEEN_CYC = rd s (foldPg f) F.PAUSE_SEEN_CYC + n :=
        rd_bumpI s _ _ 0 n rfl small
      have later : ∀ u : State, rd (forEach u fs fun s g => bump s (foldPg g) F.PAUSE_SEEN_CYC n) (foldPg f) F.PAUSE_SEEN_CYC =
          rd u (foldPg f) F.PAUSE_SEEN_CYC := fun u =>
        forEach_keeps (I := fun t => rd t (foldPg f) F.PAUSE_SEEN_CYC = rd u (foldPg f) F.PAUSE_SEEN_CYC)
          (fun t g hg ht => (pauseSeen_bump_other (ne_of_mem_of_not_mem hg fresh).symm t n).trans ht) rfl
      rw [later, counted, if_pos List.mem_cons_self]
    · have kept := pauseSeen_bump_other e s n
      rw [ih once (kept.symm ▸ small), kept]
      simp only [List.mem_cons, e, false_or]

/-- The state in which a pause has taken all that is owed. -/
def pauseTaken (s : State) : State := s.setPause { s.pause with owed := [], taken := s.pause.taken + owedCycles s }

/-- The state in which every fold has counted the pause that has ended. -/
def pauseEnded (s : State) : State := forEach (pauseTaken s) allFolds fun u f => bump u (foldPg f) F.PAUSE_SEEN_CYC (owedCycles s)

theorem pauseEnded_counts (s : State) : Via [.regs] (pauseTaken s) (pauseEnded s) :=
  .forEach (fun u f => bump_via u (foldPg f) F.PAUSE_SEEN_CYC (owedCycles s)) (.refl _ _)

theorem pauseEnded_via (s : State) : Via [.regs, .pause] s (pauseEnded s) :=
  .step (pauseEnded_counts s) rfl ((setPause_via ..).mono rfl)

theorem pause_pauseEnded (s : State) : (pauseEnded s).pause = { s.pause with owed := [], taken := s.pause.taken + owedCycles s } :=
  (pauseEnded_counts s).piece (p := .pause) rfl

theorem pauseSeen_pauseEnded {s : State} {f : Nat} (hf : f < 68) (small : rd s (foldPg f) F.PAUSE_SEEN_CYC + owedCycles s < 2 ^ 32 - 1) :
    rd (pauseEnded s) (foldPg f) F.PAUSE_SEEN_CYC = rd s (foldPg f) F.PAUSE_SEEN_CYC + owedCycles s := by
  have listed : f ∈ allFolds := List.mem_range.mpr hf
  have once : allFolds.Nodup := List.nodup_range
  rw [pauseEnded, pauseSeen_forEach (s := pauseTaken s) once small, if_pos listed]
  rfl

theorem pauseSeen_predict (s : State) (f : Nat) : rd (predict s) (foldPg f) F.PAUSE_SEEN_CYC = rd s (foldPg f) F.PAUSE_SEEN_CYC := by
  obtain ⟨regs, -, -, -⟩ := passStretch_leaves s
  have apart : (holdFields.all fun k => fkey k.1 k.2.1 k.2.2 != fkey (foldPg f) F.PAUSE_SEEN_CYC 0) = true := by
    simp only [holdFields, List.all_cons, List.all_nil, Bool.and_true, Bool.and_eq_true, bne_iff_ne, fkey, foldPg, tallyPg, F.HOLD_LATE,
      F.HOLD_RAISED, F.STATUS_SAT, F.PAUSE_SEEN_CYC]
    omega
  rw [(predict_after_stretch s).2 _ _ _ apart, rd, rd, regs]

theorem answers_pauseRelease {s : State} {P : State → Prop} (owed : 0 < owedCycles s) (h : P (predict (pauseEnded s))) :
    Answers .pauseRelease s P := by
  refine ⟨_, ?_, h⟩
  show execPauseRelease s = _
  unfold execPauseRelease
  dsimp only
  rw [if_neg (Nat.ne_of_gt owed)]
  rfl

/-- Settles O23: the landing of a transfer and of a link's flit, the completion of a write to HBM, and the end of a pause, each by the rules
above. -/
theorem flightsLandAndPausesEnd : Obligations.FlightsLandAndPausesEnd := by
  unfold Obligations.FlightsLandAndPausesEnd
  refine ⟨⟨fun s f x first due => ?fold, fun s l x first due => ?link, fun s f x first due => ?hwr⟩, fun s owed => ?pause⟩
  case fold =>
    have drop := modFold_via s f fun y => { y with xfers := dropXfer (· == x) y.xfers }
    refine answers_dataVisible_fold first due ⟨fun j hj hm => ?_, ?_, xfers_landXfer .., landXfer_onlyFolds s f x, ?_,
      (landXfer_onTime_via ..).same⟩
    · rw [landXfer_onTime]
      exact droveByte_landBytes _ hj (by rw [drop.isMem rfl, hm])
    · intro a outside
      rw [landXfer_onTime, landBytes_onlyBytes _ _ _ _ a outside, drop.readByte rfl rfl]
    · have care := drop.piece (p := .care) rfl
      rw [landXfer_onTime, landBytes_care]
      rfl
  case link =>
    have shown := shown_via s l x
    refine answers_dataVisible_link first due ⟨fun j hj hm => ?_, ?_, landing_landFlit .., fun i hi => landFlit_other hi .., fun quiet => ?_,
      ?_, ?_⟩
    · rw [landFlit_onTime]
      exact droveByte_landBytes _ hj (by rw [shown.isMem rfl, hm])
    · intro a outside
      rw [landFlit_onTime, landBytes_onlyBytes _ _ _ _ a outside, shown.readByte rfl rfl]
    · exact landFlit_quiet (mem_of_firstLanding first) quiet
    · rw [landFlit_onTime]
      exact (shown.same.folds rfl _).trans (landBytes_stays ..).onlyFolds
    · exact (Via.step (landBytes_via ..) rfl (shown.mono (ps := [.regs, .mem, .fresh, .folds, .care, .links, .out]) rfl)).same
  case hwr =>
    exact answers_hwrComplete first due
      ⟨length_xfers_completeHwr (mem_of_firstXfer first), fun earliest => completeHwr_of_first earliest f, (completeHwr_via ..).same⟩
  case pause =>
    obtain ⟨-, stretchOwed, stretchTaken, noDroop⟩ := passStretch_leaves (pauseEnded s)
    obtain ⟨predicted, -⟩ := predict_after_stretch (pauseEnded s)
    have pause : (predict (pauseEnded s)).pause = (passStretch (pauseEnded s)).pause := predicted.piece (p := .pause) rfl
    have taken : (predict (pauseEnded s)).pause.taken = s.pause.taken + owedCycles s := by
      rw [pause, stretchTaken, pause_pauseEnded]
    refine answers_pauseRelease owed ⟨?_, taken, fun e he => ?_, fun f hf small => ?_, fun calm => ?_, ?_⟩
    · have none_owed : (predict (pauseEnded s)).pause.owed = [] := by rw [pause, stretchOwed, pause_pauseEnded]
      rw [owedCycles, none_owed]
      rfl
    · have := le_owedCycles e he
      omega
    · rw [pauseSeen_predict, pauseSeen_pauseEnded hf small]
    · have power : (pauseEnded s).power = s.power := (pauseEnded_via s).piece (p := .power) rfl
      have free : (pauseEnded s).free = s.free := (pauseEnded_via s).piece (p := .free) rfl
      rw [noDroop (by rw [power, calm])] at predicted
      have power' : (predict (pauseEnded s)).power = (pauseEnded s).power := predicted.piece (p := .power) rfl
      have free' : (predict (pauseEnded s)).free = (pauseEnded s).free := predicted.piece (p := .free) rfl
      exact ⟨power'.trans power, free'.trans free⟩
    · exact (Via.after (predict_via ..) ((pauseEnded_via s).mono rfl)).same

end Sys2Proof.Machine
end

section
/-! SUPPORT. Page ticks, finished checkpoints and lane blocks (R28, R231, R304, R399). -/

namespace Sys2Proof.Machine

open Sys2Proof

/-! ## Cycle 0 of a page tick (R231) -/

/-- The state in which a page tick has begun. -/
def pageBegun (s : State) : State := s.setTally { s.tally with paged := 1 }

/-- Of what cycle 0 of a page tick does, nothing but its own mark concerns the tally. -/
theorem pageTick_via_tally (s : State) : Via (allBut [.tally]) (pageBegun s) (pageTick s) := by
  unfold pageTick
  dsimp only
  refine .forEach (fun u f => (cancelNow_via u f).mono rfl) (.step (latchAll_via ..) rfl ?_)
  refine .forEach (fun u k => (replayFire_via u k).mono rfl) (.forEach (fun u e => (pageFlock_via u e).mono rfl) ?_)
  refine .forEach (fun u k => (endDraining_via u k).mono rfl) (.forEach (fun u k => (pageCkpt_via u k).mono rfl) ?_)
  refine .forEach (fun u k => (pageEpoch_via u k).mono rfl) (.forEach (fun u k => (pageSwap_via u k).mono rfl) ?_)
  refine .forEach (fun u k => (closeRound_via u k).mono rfl) (.forEach (fun u k => (settleDeadlines_via u k).mono rfl) ?_)
  exact (bump_via ..).mono rfl

theorem answers_pageTick {s : State} {P : State → Prop} (run : tallyState s = 3) (due : paging s ≠ []) (first : s.tally.paged = 0)
    (h : P (orderLog s (pageTick s))) : Answers .pageTick s P := by
  refine ⟨_, ?_, h⟩
  show execPageTick s = _
  rw [execPageTick, if_pos ⟨run, by simpa using due, first⟩]

theorem tally_pageTick (s : State) : (orderLog s (pageTick s)).tally = { s.tally with paged := 1 } := by
  have done : Via (allBut [.tally]) (pageBegun s) (orderLog s (pageTick s)) := orderLog_via s rfl (pageTick_via_tally s)
  exact done.piece (p := .tally) rfl

/-! ## Cycle 2,304 of a page tick (R186, R231) -/

/-- From `s` to `t` every fold keeps its drove and its slot, by which its flock and its carried tiles are found. -/
structure RolesStay (s t : State) : Prop where
  /-- the drove of a fold -/
  drove : ∀ g, foldDrove t g = foldDrove s g
  /-- its slot -/
  slot : ∀ g, slotOfFold t g = slotOfFold s g

theorem RolesStay.trans {r s t : State} (h : RolesStay r s) (k : RolesStay s t) : RolesStay r t :=
  ⟨fun g => (k.drove g).trans (h.drove g), fun g => (k.slot g).trans (h.slot g)⟩

theorem RolesStay.carriedMask {s t : State} (h : RolesStay s t) (f : Nat) : Machine.carriedMask t f = Machine.carriedMask s f := by
  unfold Machine.carriedMask segOf
  rw [h.drove, h.slot]

theorem RolesStay.flockFolds {s t : State} (h : RolesStay s t) (k : Nat) : Machine.flockFolds t k = Machine.flockFolds s k := by
  simp only [Machine.flockFolds, foldFlock, h.drove]

theorem drove_markCarried (s : State) (f m g : Nat) : (getFold (markCarried s f m) g).drove = (getFold s g).drove := by
  have marked : ∀ x : Fold, ((List.range 16).foldl (fun x t => x.setTile t { x.tile t with carried := bit m t }) x).drove = x.drove :=
    fun x => List.foldlRecOn (motive := fun y : Fold => y.drove = x.drove) _ _ rfl fun y hy _ _ => hy
  rw [markCarried, getFold_modFold]
  split
  · rename_i e
    rw [marked, e]
    rfl
  · rfl

/-- The fold's tiles are marked as carried, at once or after its context interval (R144). -/
def windowMarked (s : State) (f : Nat) : State :=
  if (getFold s f).ctx.isSome then wr0 s (foldPg f) F.ACC_CARRIED (carriedMask s f) else markCarried s f (carriedMask s f)

theorem drove_windowMarked (s : State) (f g : Nat) : (getFold (windowMarked s f) g).drove = (getFold s g).drove := by
  unfold windowMarked
  split
  · rfl
  · exact drove_markCarried ..

/-- Cycle 2,304 marks the tiles of a fold and gives it a lane mask. -/
theorem windowFold_eq (s : State) (k f : Nat) : windowFold s k f = windowMarked s f
    ∨ ∃ mask, windowFold s k f = modFold (windowMarked s f) f fun y => { y with applied := mask } := by
  by_cases h : foldFlock (windowMarked s f) f = some k
  · exact .inr ⟨_, if_pos h⟩
  · exact .inl (if_neg h)

theorem regs_windowFold (s : State) (k f : Nat) :
    (windowFold s k f).regs = (wr0 s (foldPg f) F.ACC_CARRIED (carriedMask s f)).regs := by
  have marked : (windowMarked s f).regs = (wr0 s (foldPg f) F.ACC_CARRIED (carriedMask s f)).regs := by
    unfold windowMarked
    split <;> rfl
  rcases windowFold_eq s k f with e | ⟨mask, e⟩
  · rw [e, marked]
  · rw [e, ← marked]
    rfl

theorem drove_windowFold (s : State) (k f g : Nat) : (getFold (windowFold s k f) g).drove = (getFold s g).drove := by
  rcases windowFold_eq s k f with e | ⟨mask, e⟩
  · rw [e, drove_windowMarked]
  · rw [e, getFold_modFold]
    split
    · rename_i same
      rw [same]
      exact drove_windowMarked ..
    · exact drove_windowMarked ..

theorem rd_windowFold_ne {pg : Nat} {fld : Field} {i f : Nat} (h : fkey (foldPg f) F.ACC_CARRIED 0 ≠ fkey pg fld i) (s : State) (k : Nat) :
    rd (windowFold s k f) pg fld i = rd s pg fld i := by
  rw [rd, regs_windowFold]
  exact rd_wr_ne _ _ _ _ _ _ _ _ h

theorem carried_windowFold (s : State) (k f : Nat) : rd (windowFold s k f) (foldPg f) F.ACC_CARRIED = carriedMask s f % 2 ^ 16 := by
  rw [rd, regs_windowFold]
  exact rd_wr ..

theorem windowFold_roles (s : State) (k f : Nat) : RolesStay s (windowFold s k f) where
  drove g := by
    have droves : (windowFold s k f).droves = s.droves := (windowFold_via s k f).piece (p := .droves) rfl
    have entry : getDrove (windowFold s k f) = getDrove s := funext fun e => by rw [getDrove, getDrove, droves]
    rw [foldDrove, foldDrove, drove_windowFold, entry]
  slot g := by
    refine slotOfFold_congr (fun n hn => ?_) (fun n => ?_) ?_
    · have enable : fkey (foldPg f) F.ACC_CARRIED 0 ≠ fkey iodPg F.HEFT_SLOT_EN n := by
        simp only [fkey, foldPg, iodPg, F.ACC_CARRIED, F.HEFT_SLOT_EN]
        omega
      have fold : fkey (foldPg f) F.ACC_CARRIED 0 ≠ fkey iodPg F.HEFT_SLOT_FOLD n := by
        simp only [fkey, foldPg, iodPg, F.ACC_CARRIED, F.HEFT_SLOT_FOLD]
        omega
      rw [foldOfSlot, foldOfSlot, rd_windowFold_ne enable, rd_windowFold_ne fold]
    · have low : fkey (foldPg f) F.ACC_CARRIED 0 ≠ fkey testPg F.SLOT_FAILED_LO 0 := by
        simp only [fkey, foldPg, testPg, F.ACC_CARRIED, F.SLOT_FAILED_LO]
        omega
      have high : fkey (foldPg f) F.ACC_CARRIED 0 ≠ fkey testPg F.SLOT_FAILED_HI 0 := by
        simp only [fkey, foldPg, testPg, F.ACC_CARRIED, F.SLOT_FAILED_HI]
        omega
      rw [slotFailed, slotFailed, rdBit, rdBit, rdBit, rdBit, rd_windowFold_ne low, rd_windowFold_ne high]
    · refine rd_windowFold_ne ?_ s k
      simp only [fkey, foldPg, F.ACC_CARRIED, F.FOLD_ROLE_ROLE]
      omega

/-- The folds of a flock in cycle 2,304 of the page tick. -/
def windowFlock (s : State) (k : Nat) : State := forEach s (flockFolds s k) (windowFold · k)

section
variable {s u : State} {k f : Nat}

theorem windowFold_rolesStay (h : RolesStay s u) (g : Nat) : RolesStay s (windowFold u k g) := h.trans (windowFold_roles u k g)

theorem windowFold_reaches (h : RolesStay s u) : rd (windowFold u k f) (foldPg f) F.ACC_CARRIED = carriedMask s f % 2 ^ 16 := by
  rw [carried_windowFold, h.carriedMask]

theorem windowFold_keeps (h : RolesStay s u) (g : Nat) (done : rd u (foldPg f) F.ACC_CARRIED = carriedMask s f % 2 ^ 16) :
    rd (windowFold u k g) (foldPg f) F.ACC_CARRIED = carriedMask s f % 2 ^ 16 := by
  by_cases e : g = f
  · rw [e]
    exact windowFold_reaches h
  · have pages : fkey (foldPg g) F.ACC_CARRIED 0 ≠ fkey (foldPg f) F.ACC_CARRIED 0 := by
      simp only [fkey, foldPg]
      omega
    rw [rd_windowFold_ne pages, done]

theorem windowFlock_rolesStay (h : RolesStay s u) (k : Nat) : RolesStay s (windowFlock u k) :=
  forEach_keeps (I := RolesStay s) (fun _ g _ hu => windowFold_rolesStay hu g) h

theorem windowFlock_reaches (h : RolesStay s u) (hf : f ∈ flockFolds s k) :
    rd (windowFlock u k) (foldPg f) F.ACC_CARRIED = carriedMask s f % 2 ^ 16 :=
  forEach_reaches (I := RolesStay s) (fun _ g hu => windowFold_rolesStay hu g) (fun _ g hu => windowFold_keeps hu g)
    (fun _ hu => windowFold_reaches hu) (h.flockFolds k ▸ hf) h

theorem windowFlock_keeps (h : RolesStay s u) (k : Nat) (done : rd u (foldPg f) F.ACC_CARRIED = carriedMask s f % 2 ^ 16) :
    rd (windowFlock u k) (foldPg f) F.ACC_CARRIED = carriedMask s f % 2 ^ 16 :=
  (forEach_keeps (I := fun v => RolesStay s v ∧ rd v (foldPg f) F.ACC_CARRIED = carriedMask s f % 2 ^ 16)
    (fun _ g _ ⟨hv, hd⟩ => ⟨windowFold_rolesStay hv g, windowFold_keeps hv g hd⟩) ⟨h, done⟩).2

end

/-- The state after cycle 2,304 of the page tick. -/
def windowsSet (s : State) : State := forEach (s.setTally { s.tally with paged := 2 }) (paging s) windowFlock

theorem carried_windowsSet {s : State} {k f : Nat} (hk : k ∈ paging s) (hf : f ∈ flockFolds s k) :
    rd (windowsSet s) (foldPg f) F.ACC_CARRIED = carriedMask s f % 2 ^ 16 :=
  forEach_reaches (I := RolesStay s) (fun _ k hu => windowFlock_rolesStay hu k) (fun _ k hu => windowFlock_keeps hu k)
    (fun _ hu => windowFlock_reaches hu hf) hk ⟨fun _ => rfl, fun _ => rfl⟩

theorem windowFlock_via (s : State) (k : Nat) : Via [.regs, .folds] s (windowFlock s k) :=
  .forEach (fun u f => windowFold_via u k f) (.refl _ s)

theorem windowsSet_via (s : State) : Via [.regs, .folds] (s.setTally { s.tally with paged := 2 }) (windowsSet s) :=
  .forEach windowFlock_via (.refl _ _)

theorem answers_pageWindowSet {s : State} {P : State → Prop} (begun : s.tally.paged = 1) (h : P (windowsSet s)) :
    Answers .pageWindowSet s P :=
  ⟨windowsSet s, if_pos begun, h⟩

/-! ## A checkpoint is finished (R397, R399) -/

/-- From `s` to `t` the register pages before those of the links are the same. -/
def LowPagesStay (s t : State) : Prop := ∀ pg f i, fkey pg f i < linkPg 0 * 131072 → rd t pg f i = rd s pg f i

theorem LowPagesStay.trans {r s t : State} (h : LowPagesStay r s) (k : LowPagesStay s t) : LowPagesStay r t :=
  fun pg f i low => (k pg f i low).trans (h pg f i low)

theorem LowPagesStay.of_via {ps : List StatePart} {s t : State} (h : Via ps s t) (k : ps.contains .regs = false) : LowPagesStay s t :=
  fun pg f i _ => h.rd k pg f i

theorem bump_lowPages (s : State) (l : Nat) (f : Field) (n : Nat) : LowPagesStay s (bump s (linkPg l) f n) := by
  intro pg fld i low
  refine OnlyFields.bumpI (ks := [(linkPg l, f, 0), (linkPg l, F.STATUS_SAT, 0)]) _ _ _ _ (.refl _ s)
    List.mem_cons_self (List.mem_cons_of_mem _ List.mem_cons_self) _ _ _ ?_
  have above : ∀ g : Field, fkey (linkPg l) g 0 ≠ fkey pg fld i := fun g => by
    simp only [fkey, linkPg] at low ⊢
    omega
  simp [above]

theorem sendSeq_lowPages (s : State) (l : Nat) (b : Body) : LowPagesStay s (sendSeq s l b) := by
  have sent : LowPagesStay s (sendNow l s b) := by
    unfold sendNow
    refine LowPagesStay.trans ?_ (.of_via (emitFlit_via ..) rfl)
    exact .trans (.of_via (setLinks_via ..) rfl) (bump_lowPages _ l F.FLITS_TX 1)
  unfold sendSeq
  split
  · split
    · exact sent
    · exact .of_via (setLinks_via ..) rfl
  · exact fun _ _ _ _ => rfl

theorem sendMirror_lowPages (s : State) (p part off : Nat) (data : List Byte) : LowPagesStay s (sendMirror s p part off data).2 := by
  have sent : ∀ (u : State) link f, LowPagesStay u (sendMsgFlit u link f) := fun u link f => by
    cases link with
    | none => exact fun _ _ _ _ => rfl
    | some l => exact sendSeq_lowPages u l _
  refine forEach_keeps (I := LowPagesStay s) (fun u f _ hu => hu.trans (sent u _ f)) ?_
  exact .of_via (putTx_via ..) rfl

/-- A window address lies in an extent, whose addresses all have a place in the window. -/
theorem windowOf_of_findExtent {es : List (Nat × Nat × Nat)} {w q off left : Nat} (h : findExtent es w = some (q, off, left)) (base : Nat) :
    windowOf es (0x800000000 * q + off) base ≠ none := by
  induction es generalizing w base with
  | nil => cases h
  | cons e es ih =>
    obtain ⟨port, start, len⟩ := e
    simp only [windowOf]
    split
    · simp
    · rename_i outside
      rw [findExtent] at h
      split at h
      · simp only [Option.some.injEq, Prod.mk.injEq] at h
        obtain ⟨rfl, rfl, -⟩ := h
        omega
      · exact ih h _

theorem windowByte_in_window {s : State} {p w a : Nat} (h : windowByte s p w = some a) : windowOf (extents s p) a 0 ≠ none := by
  unfold windowByte windowAddr at h
  split at h
  · rename_i q off left found
    split at h
    · rw [← Option.some.inj h]
      exact windowOf_of_findExtent found 0
    · cases h
  · cases h

theorem Via.extents {ps : List StatePart} {s t : State} (h : Via ps s t) (k : ps.contains .regs = false) (p : Nat) :
    Machine.extents t p = Machine.extents s p := by
  simp only [Machine.extents, h.rd k]

/-- The IOD's writes into a pen's window reach the bytes of its extents alone (R243). -/
theorem winPut_onlyBytes (s : State) (p w : Nat) (bs : List Byte) :
    OnlyBytes (fun a => windowOf (extents s p) a 0 ≠ none) s (winPut s p w bs) := by
  induction bs generalizing s w with
  | nil => exact fun _ _ => rfl
  | cons b bs ih =>
    intro x outside
    unfold winPut
    split
    · rename_i a ha
      have stored := iodByte_via s a b
      have apart : x ≠ a := fun e => outside (e ▸ windowByte_in_window ha)
      rw [ih _ _ x (by rwa [stored.extents rfl]), readByte_iodByte_ne s b apart]
    · exact ih s _ x outside

theorem coreWrite_onlyBytes (s : State) (p w : Nat) (bs : List Byte) :
    OnlyBytes (fun a => windowOf (extents s p) a 0 ≠ none) s (coreWrite s p w bs) := by
  unfold coreWrite
  split
  · intro x outside
    exact ((cureLines_via ..).readByte rfl rfl x).trans (winPut_onlyBytes s p w bs x outside)
  · exact (accessError_via ..).same.bytes rfl rfl _

theorem getCkpt_putCkpt (s : State) (p k : Nat) (x : Ckpt) : getCkpt (putCkpt s p k x) p k = x := by
  rw [getCkpt, putCkpt, State.setDrover_drover, getD_putD_same]

/-- The state in which the record of a checkpoint is written and its round shows as done. -/
def ckptWritten (s : State) (p k round slot : Nat) (bytes : List Byte) : State :=
  wr (coreWrite s p ((checkpointRegion s p).base + (2 * ckptPlace s p k + slot) * slotSize s p) bytes) (penPg p) F.CKPT_DONE0 k round

/-- A finished checkpoint is written, goes to the partner when mirroring is on, and is the newest of its flock. -/
theorem finishCkpt_eq (s : State) (p k round slot : Nat) (bytes : List Byte) : ∃ u ms, finishCkpt s p k round slot bytes =
      putCkpt u p k { writing := none, newest := slot + 1, mirrors := ms }
    ∧ (u = ckptWritten s p k round slot bytes
      ∨ ∃ off, u = (sendMirror (ckptWritten s p k round slot bytes) p 0 off bytes).2) := by
  unfold finishCkpt
  dsimp only
  split
  · exact ⟨_, _, rfl, .inr ⟨_, rfl⟩⟩
  · exact ⟨_, _, rfl, .inl rfl⟩

theorem done_ckptWritten (s : State) (p k round slot : Nat) (bytes : List Byte) :
    rd (ckptWritten s p k round slot bytes) (penPg p) F.CKPT_DONE0 k = round % 2 ^ 32 := rd_wr ..

theorem ckptWritten_onlyBytes (s : State) (p k round slot : Nat) (bytes : List Byte) :
    OnlyBytes (fun a => windowOf (extents s p) a 0 ≠ none) s (ckptWritten s p k round slot bytes) := fun x outside =>
  ((wr_via ..).readByte rfl rfl x).trans (coreWrite_onlyBytes _ _ _ _ x outside)

theorem finishCkpt_newest (s : State) (p k : Fin 16) (round slot : Nat) (bytes : List Byte) :
    let t := finishCkpt s p k round slot bytes
    (getCkpt t p k).writing = none ∧ (getCkpt t p k).newest = slot + 1 ∧ rd t (penPg p) F.CKPT_DONE0 k = round % 2 ^ 32
      ∧ OnlyBytes (fun a => windowOf (extents s p) a 0 ≠ none) s t := by
  obtain ⟨u, ms, e, sent⟩ := finishCkpt_eq s p k round slot bytes
  have low : LowPagesStay (ckptWritten s p k round slot bytes) u := by
    rcases sent with rfl | ⟨off, rfl⟩
    · exact fun _ _ _ _ => rfl
    · exact sendMirror_lowPages _ _ _ _ _
  have bytesKept : ∀ x, readByte u x = readByte (ckptWritten s p k round slot bytes) x := by
    rcases sent with rfl | ⟨off, rfl⟩
    · exact fun _ => rfl
    · exact (sendMirror_via ..).readByte rfl rfl
  have donePage : fkey (penPg p) F.CKPT_DONE0 k < linkPg 0 * 131072 := by
    simp only [fkey, penPg, linkPg, F.CKPT_DONE0]
    omega
  dsimp only
  rw [e]
  refine ⟨by rw [getCkpt_putCkpt], by rw [getCkpt_putCkpt], ?_, fun x outside => ?_⟩
  · exact (low _ _ _ donePage).trans (done_ckptWritten ..)
  · exact (bytesKept x).trans (ckptWritten_onlyBytes _ _ _ _ _ _ x outside)

theorem answers_ckptWriteDone {s : State} {p k : Fin 16} {round slot : Nat} {bytes : List Byte} {P : State → Prop}
    (writing : (getCkpt s p k).writing = some (round, slot, bytes)) (h : P (finishCkpt s p k round slot bytes)) :
    Answers (.ckptWriteDone p k) s P := by
  refine ⟨_, ?_, h⟩
  show execCkptWriteDone p k s = _
  simp only [execCkptWriteDone, writing]

/-! ## Lane blocks (R28, R298, R304) -/

theorem getServing_putServing (s : State) (k : Nat) (x : Serving) : getServing (putServing s k x) k = x := by
  rw [getServing, putServing, State.setDrover_drover, getD_putD_same]

theorem Via.getServing {ps : List StatePart} {s t : State} (h : Via ps s t) (k : ps.contains .drover = false) (n : Nat) :
    Machine.getServing t n = Machine.getServing s n := by
  have drover : t.drover = s.drover := h.piece k
  simp only [Machine.getServing, drover]

/-- A message goes to devices one after another. -/
def sendAll (s : State) (devs : List Nat) (msg : List Byte) : State := forEach s devs fun s dev => (sendMessage s dev 1 msg).2

theorem sendAll_via (s : State) (devs : List Nat) (msg : List Byte) : Via [.regs, .links, .msgs, .out] s (sendAll s devs msg) :=
  .forEach (fun u dev => sendMessage_via u dev 1 msg) (.refl _ s)

/-- A lane block that is built stands with the Drover as that of its step, and goes to the other devices of the flock (R290). -/
theorem buildBlock_eq (s : State) (k step : Nat) (d : Drove) : ∃ u x devs msg,
    buildBlock s k step d = showLive (sendAll (putServing u k x) devs msg) ∧ x.built = step + 1 ∧ x.blockStep = step + 1 := by
  unfold buildBlock
  dsimp only
  split
  all_goals exact ⟨_, _, _, _, rfl, rfl, rfl⟩

theorem getServing_buildBlock (s : State) (k step : Nat) (d : Drove) :
    (getServing (buildBlock s k step d) k).built = step + 1 ∧ (getServing (buildBlock s k step d) k).blockStep = step + 1 := by
  obtain ⟨u, x, devs, msg, e, built, blockStep⟩ := buildBlock_eq s k step d
  rw [e, (showLive_via ..).getServing rfl, (sendAll_via ..).getServing rfl, getServing_putServing]
  exact ⟨built, blockStep⟩

theorem answers_laneBlockBuild {s : State} {k : Fin 16} {d : Drove} {P : State → Prop} (build : buildDrove s k = some d)
    (lead : isLead s k = true) (lanes : d.lanes.lanes ≠ []) (runs : (getFlock s k).phase = 3 ∨ (getFlock s k).phase = 2)
    (free : serviceWaits s .laneBlocks = false) (fresh : (getServing s k).built ≠ buildStep (getFlock s k) + 1)
    (h : P (buildBlock s k (buildStep (getFlock s k)) d)) : Answers (.laneBlockBuild k) s P := by
  refine ⟨_, ?_, h⟩
  show execLaneBlockBuild k s = _
  have ready : (!serviceWaits s .laneBlocks && isLead s k && !d.lanes.lanes.isEmpty && ((getFlock s k).phase == 3 || (getFlock s k).phase == 2)
      && (getServing s k).built != buildStep (getFlock s k) + 1) = true := by
    simp [free, lead, lanes, runs, fresh]
  simp only [execLaneBlockBuild, build, ready, if_true]

theorem answers_laneBlockLand {s : State} {f : Fin 68} {k : Nat} {P : State → Prop} (serves : foldFlock s f = some k)
    (built : (getServing s k).blockStep ≠ 0) (fresh : (getFold s f).landed ≠ some ((getServing s k).blockStep - 1))
    (h : P (landBlock s f (getServing s k))) : Answers (.laneBlockLand f) s P := by
  refine ⟨_, ?_, h⟩
  show execLaneBlockLand f s = _
  simp only [execLaneBlockLand, serves]
  exact if_pos ⟨built, fresh⟩

/-- The address of the lane block buffer of a fold that the running step does not read (R298). -/
def otherBuffer (s : State) (f : Nat) : Nat := vsAddr f (64 * bits (controlBlock s f) (16 + 16 * (1 - (getFold s f).laneBuf)) 16)

theorem landBlock_eq (s : State) (f : Nat) (v : Serving) : landBlock s f v =
    modFold (iodBytes s (otherBuffer s f) v.block) f fun x => { x with landed := some (v.blockStep - 1) } := rfl

theorem landed_landBlock (s : State) (f : Nat) (v : Serving) : (getFold (landBlock s f v) f).landed = some (v.blockStep - 1) := by
  rw [landBlock_eq, getFold_modFold, if_pos rfl]

theorem readByte_landBlock (s : State) (f : Nat) (v : Serving) (a : Nat) :
    readByte (landBlock s f v) a = readByte (iodBytes s (otherBuffer s f) v.block) a := rfl

theorem landBlock_onlyFolds (s : State) (f : Nat) (v : Serving) : OnlyFolds [f] s (landBlock s f v) :=
  OnlyFolds.modFold f _ ((iodBytes_via ..).same.folds rfl [f]) List.mem_cons_self

/-- Settles O37: the two cycles of a page tick, a finished checkpoint, and the building and landing of a lane block. -/
theorem pageTicksAndLaneBlocks : Obligations.PageTicksAndLaneBlocks := by
  unfold Obligations.PageTicksAndLaneBlocks
  refine ⟨fun s run due first => ?begin, fun s begun => ?windows, fun s p k round slot bytes writing => ?ckpt,
    fun s k d build lead lanes runs free fresh => ?build, fun s f k serves built fresh => ?land⟩
  case begin => exact answers_pageTick run due first (tally_pageTick s)
  case windows =>
    have set := windowsSet_via s
    refine answers_pageWindowSet begun ⟨set.piece (p := .tally) rfl, fun k hk f hf => carried_windowsSet hk hf, ?_⟩
    exact (Via.step set rfl ((setTally_via ..).mono (ps := [.regs, .folds, .tally]) rfl)).same
  case ckpt =>
    obtain ⟨done, newest, round, bytes⟩ := finishCkpt_newest s p k round slot bytes
    exact answers_ckptWriteDone writing ⟨done, newest, round, bytes, (finishCkpt_via ..).same⟩
  case build =>
    obtain ⟨built, blockStep⟩ := getServing_buildBlock s k (buildStep (getFlock s k)) d
    exact answers_laneBlockBuild build lead lanes runs free fresh ⟨built, blockStep, (buildBlock_via ..).same⟩
  case land =>
    refine answers_laneBlockLand serves built fresh
      ⟨landed_landBlock .., fun j hj hm => ?_, fun x outside => ?_, landBlock_onlyFolds _ _ _, (landBlock_via ..).same⟩
    · exact (readByte_landBlock ..).trans (readByte_iodBytes _ s _ j hj hm)
    · exact (readByte_landBlock ..).trans (readByte_iodBytes_outside _ s _ outside)

end Sys2Proof.Machine
end

section
/-! SUPPORT. What an operation leaves of a fold and of the registers: folds up to the marks that a suspect or a fault leaves on them (R193, R376,
R377), arrays (R29), register fields at places of any page (R9), and runs of a sparse table. -/

namespace Sys2Proof.Machine

open Sys2Proof

/-! ## Arrays of a fold -/

theorem Fold.arr_setArr (x : Fold) (a b : Nat) (y : Arr) : (x.setArr a y).arr b = if b = a then y else x.arr b := getD_putD ..

@[simp] theorem Fold.arr_setArr_same (x : Fold) (a : Nat) (y : Arr) : (x.setArr a y).arr a = y := by
  rw [Fold.arr_setArr, if_pos rfl]

theorem Fold.arr_setArr_ne {a b : Nat} (h : b ≠ a) (x : Fold) (y : Arr) : (x.setArr a y).arr b = x.arr b := by
  rw [Fold.arr_setArr, if_neg h]

@[simp] theorem getFold_modFold_same (s : State) (f : Nat) (g : Fold → Fold) : getFold (modFold s f g) f = g (getFold s f) := by
  rw [getFold_modFold, if_pos rfl]

@[simp] theorem getFold_modArr_same (s : State) (f a : Nat) (g : Arr → Arr) :
    getFold (modArr s f a g) f = (getFold s f).setArr a (g ((getFold s f).arr a)) := getFold_modFold_same ..

@[simp] theorem arr_modArr_same (s : State) (f a : Nat) (g : Arr → Arr) :
    (getFold (modArr s f a g) f).arr a = g ((getFold s f).arr a) := by
  rw [getFold_modArr_same, Fold.arr_setArr_same]

theorem arr_modArr_ne {a b : Nat} (h : b ≠ a) (s : State) (f : Nat) (g : Arr → Arr) :
    (getFold (modArr s f a g) f).arr b = (getFold s f).arr b := by
  rw [getFold_modArr_same, Fold.arr_setArr_ne h]

theorem OnlyFolds.refl (fs : List Nat) (s : State) : OnlyFolds fs s s := fun _ _ => rfl

theorem OnlyFolds.modArr {fs : List Nat} {s t : State} (f a : Nat) (g : Arr → Arr) (h : OnlyFolds fs s t) (k : f ∈ fs) :
    OnlyFolds fs s (modArr t f a g) := h.modFold f _ k

/-- After operations on some folds comes one that does not name the folds. -/
theorem OnlyFolds.via {ps : List StatePart} {fs : List Nat} {r s t : State} (h : OnlyFolds fs r s) (k : Via ps s t)
    (hps : ps.contains .folds = false) : OnlyFolds fs r t := h.trans (k.same.folds hps fs)

@[simp] theorem getFold_wr (s : State) (pg : Nat) (f : Field) (i v g : Nat) : getFold (wr s pg f i v) g = getFold s g := rfl

@[simp] theorem getFold_wrBit (s : State) (pg : Nat) (f : Field) (i b : Nat) (v : Bool) (g : Nat) :
    getFold (wrBit s pg f i b v) g = getFold s g := rfl

@[simp] theorem getFold_bumpI (s : State) (pg : Nat) (f : Field) (i n g : Nat) : getFold (bumpI s pg f i n) g = getFold s g :=
  (bumpI_via ..).getFold rfl g

@[simp] theorem getFold_setFree (s : State) (n g : Nat) : getFold (s.setFree n) g = getFold s g := rfl

@[simp] theorem rd_modFold (s : State) (q : Nat) (g : Fold → Fold) (pg : Nat) (f : Field) (i : Nat) :
    rd (modFold s q g) pg f i = rd s pg f i := rfl

@[simp] theorem rd_modArr (s : State) (q a : Nat) (g : Arr → Arr) (pg : Nat) (f : Field) (i : Nat) :
    rd (modArr s q a g) pg f i = rd s pg f i := rfl

/-! ## Folds up to their marks -/

/-- A fold without what a suspect, a contract fault or a syllable that has been dealt with leaves on it. -/
def Fold.unmarked (x : Fold) : Fold :=
  { x with sameHw := false, lastData := 0, faultTick := false, faults := [], todo := [] }

/-- From `s` to `t` every fold changes at most its marks. -/
structure MarksOnly (s t : State) : Prop where
  /-- each fold up to its marks -/
  fold : ∀ g, (getFold t g).unmarked = (getFold s g).unmarked

namespace MarksOnly

variable {r s t : State}

theorem refl (s : State) : MarksOnly s s := ⟨fun _ => rfl⟩

theorem trans (h : MarksOnly r s) (k : MarksOnly s t) : MarksOnly r t := ⟨fun g => (k.fold g).trans (h.fold g)⟩

/-- After operations that change marks comes one that does not name the folds. -/
theorem via {ps : List StatePart} (h : MarksOnly r s) (k : Via ps s t) (hps : ps.contains .folds = false) : MarksOnly r t :=
  h.trans ⟨fun g => by rw [k.getFold hps]⟩

theorem ite {a b : State} {c : Prop} [Decidable c] (h : MarksOnly r a) (k : MarksOnly r b) : MarksOnly r (if c then a else b) := by
  split
  · exact h
  · exact k

theorem forEach {α : Type} {xs : List α} {g : State → α → State} (h : ∀ s x, MarksOnly s (g s x)) (s : State) :
    MarksOnly s (Machine.forEach s xs g) :=
  forEach_keeps (I := MarksOnly s) (fun t x _ ht => ht.trans (h t x)) (.refl s)

/-- One fold changes, and no more than its marks. -/
theorem one {f : Nat} {x : Fold} (h : ∀ g, getFold t g = if g = f then x else getFold s g) (hx : x.unmarked = (getFold s f).unmarked) :
    MarksOnly s t where
  fold g := by
    rw [h g]
    split
    · rename_i e
      rw [e, hx]
    · rfl

theorem modFold {f : Nat} {g : Fold → Fold} (s : State) (hg : ∀ x, (g x).unmarked = x.unmarked := by intro _; rfl) :
    MarksOnly s (Machine.modFold s f g) := .one (fun q => getFold_modFold s f q g) (hg _)

variable (h : MarksOnly s t) (g : Nat)
include h

theorem arrays : (getFold t g).arrays = (getFold s g).arrays := (congrArg Fold.arrays (h.fold g) :)

theorem arr (a : Nat) : (getFold t g).arr a = (getFold s g).arr a := by rw [Fold.arr, h.arrays, Fold.arr]

theorem tiles : (getFold t g).tiles = (getFold s g).tiles := (congrArg Fold.tiles (h.fold g) :)

theorem convs : (getFold t g).convs = (getFold s g).convs := (congrArg Fold.convs (h.fold g) :)

theorem loads : (getFold t g).loads = (getFold s g).loads := (congrArg Fold.loads (h.fold g) :)

theorem now : (getFold t g).now = (getFold s g).now := (congrArg Fold.now (h.fold g) :)

theorem calDue : (getFold t g).calDue = (getFold s g).calDue := (congrArg Fold.calDue (h.fold g) :)

end MarksOnly

theorem contractFault_marks (s : State) (f code bundle syl port : Nat) : MarksOnly s (contractFault s f code bundle syl port) := by
  obtain ⟨_, marked⟩ := getFold_contractFault s f code bundle syl port
  exact .one marked rfl

theorem dropSyllable_marks (s : State) (f : Nat) : MarksOnly s (dropSyllable s f) := .modFold s

theorem settleTodo_marks (s : State) (f : Nat) : MarksOnly s (settleTodo s f) := by
  refine .forEach (fun u y => ?_) s
  unfold settleSyllable
  exact .ite (.ite (dropSyllable_marks u f) (.ite ((dropSyllable_marks u f).trans (contractFault_marks ..)) (.refl u))) (.refl u)

theorem noSpare_marks (s : State) (f k : Nat) : MarksOnly s (noSpare s f k) := by
  unfold noSpare
  refine .ite (.via (.via (.refl s) (quarantine_via ..) rfl) (failSlot_via ..) rfl) ?_
  exact .trans (.via (.refl s) (bump_via ..) rfl) (.modFold _)

/-- A spare is filled, or none is there: only the latter marks a fold. -/
theorem takeSpare_marks (s : State) (f k why : Nat) : MarksOnly s (takeSpare s f k why) := by
  unfold takeSpare
  refine .ite (.via (.refl s) (setCare_via ..) rfl) ?_
  have freed : ∀ u : State, MarksOnly s u → MarksOnly s (forEach u (u.care.fills.filter fun x => x.slot == k)
      fun s x => setRole (abandonFill s x) x.spare roleSpare none) := fun u hu =>
    hu.trans (.forEach (fun v _ => .via (.via (.refl v) (abandonFill_via ..) rfl) (setRole_via ..) rfl) u)
  have next := freed _ (.via (.refl s) (nextSpare_via s (dieOf f)) rfl)
  have filled : ∀ {u : State} sp g j, MarksOnly s u → MarksOnly s (orderSpares (startFill u sp g j why) f) := fun sp g j hu =>
    .via (.via hu (startFill_via ..) rfl) (orderSpares_via ..) rfl
  dsimp only
  split
  · exact filled _ _ _ next
  · split
    · exact filled _ _ _ ((next.via (dropFill_via ..) rfl).trans (noSpare_marks ..))
    · exact next.trans (noSpare_marks ..)

theorem locate_marks (s : State) (f : Nat) : MarksOnly s (locate s f) := by
  unfold locate
  split
  · exact .refl s
  · exact .ite (.refl s) (.trans (.via (.refl s) (setCare_via ..) rfl) (takeSpare_marks ..))

theorem raiseSuspect_marks (s : State) (f : Nat) : MarksOnly s (raiseSuspect s f) := .via (.refl s) (raiseSuspect_via ..) rfl

theorem dataSuspect_marks (s : State) (f : Nat) : MarksOnly s (dataSuspect s f) := by
  have raised := raiseSuspect_marks s f
  unfold dataSuspect classifyData
  exact .trans (.ite (raised.trans (locate_marks ..)) raised) (.modFold _)

theorem lineError_marks (s : State) (drove : Option Nat) (e : LineErr) : MarksOnly s (lineError s drove e) := by
  unfold lineError
  split
  · exact .refl s
  · refine .ite (.refl s) (.ite ?corrected ?lost)
    case corrected =>
      rename_i pg ce _ _
      have counted : MarksOnly s (if (hbmStack e.addr).isSome then countCe (bump s pg ce) e.addr else bump s pg ce) :=
        .ite (.via (.via (.refl s) (bump_via ..) rfl) (countCe_via ..) rfl) (.via (.refl s) (bump_via ..) rfl)
      dsimp only
      split
      · exact .via (counted.via (bump_via ..) rfl) (askPause_via ..) rfl
      · exact counted.via (askPause_via ..) rfl
      · exact counted
    case lost =>
      rename_i pg _ ue _
      have gone : MarksOnly s (lineLost s pg ue e) := .via (.refl s) (lineLost_via ..) rfl
      dsimp only
      split
      · exact .ite gone (gone.trans (dataSuspect_marks ..))
      · exact gone

theorem readLines_marks (s : State) (f : Nat) (hit : Nat → Bool) (lines : List LineErr) : MarksOnly s (readLines s f hit lines) := by
  unfold readLines
  have read : MarksOnly s (forEach s (lines.filter fun e => hit e.addr) fun s e => lineError s (some f) e) :=
    .forEach (fun u e => lineError_marks u (some f) e) s
  exact .ite (read.trans (dataSuspect_marks ..)) read

/-! ## Register fields at places of any page -/

/-- The place of a field within its page, in bits. -/
def place (f : Field) (i : Nat) : Nat := fkey 0 f i % 131072

/-- A page's keys follow one another: a field has the same place on every page. -/
theorem fkey_mod (pg : Nat) (f : Field) (i : Nat) : fkey pg f i % 131072 = place f i := by
  simp only [place, fkey]
  omega

/-- From `s` to `t` no register field changes but those at the places `here` of some page. -/
structure OnlyPlaces (here : Nat → Prop) (s t : State) : Prop where
  /-- a field at another place keeps its value -/
  field : ∀ pg g i, ¬ here (place g i) → rd t pg g i = rd s pg g i

/-- The places of some fields, each with its index. -/
abbrev placesOf (fs : List (Field × Nat)) (p : Nat) : Prop := p ∈ fs.map fun e => place e.1 e.2

namespace OnlyPlaces

variable {here : Nat → Prop} {r s t : State}

theorem refl (here : Nat → Prop) (s : State) : OnlyPlaces here s s := ⟨fun _ _ _ _ => rfl⟩

theorem trans (h : OnlyPlaces here r s) (k : OnlyPlaces here s t) : OnlyPlaces here r t :=
  ⟨fun pg g i hp => (k.field pg g i hp).trans (h.field pg g i hp)⟩

theorem mono {there : Nat → Prop} (h : OnlyPlaces there s t) (k : ∀ p, there p → here p) : OnlyPlaces here s t :=
  ⟨fun pg g i hp => h.field pg g i fun hg => hp (k _ hg)⟩

theorem via {ps : List StatePart} (h : OnlyPlaces here r s) (k : Via ps s t) (hps : ps.contains .regs = false) : OnlyPlaces here r t :=
  h.trans ⟨fun _ _ _ _ => k.rd hps ..⟩

theorem ite {a b : State} {c : Prop} [Decidable c] (h : OnlyPlaces here r a) (k : OnlyPlaces here r b) :
    OnlyPlaces here r (if c then a else b) := by
  split
  · exact h
  · exact k

theorem forEach {α : Type} {xs : List α} {g : State → α → State} (h : ∀ s x, OnlyPlaces here s (g s x)) (k : OnlyPlaces here r s) :
    OnlyPlaces here r (Machine.forEach s xs g) :=
  forEach_keeps (I := OnlyPlaces here r) (fun t x _ ht => ht.trans (h t x)) k

theorem wr (h : OnlyPlaces here r s) {f : Field} {i : Nat} (hf : here (place f i)) (pg v : Nat) : OnlyPlaces here r (wr s pg f i v) :=
  h.trans ⟨fun qg g j hp => rd_wr_ne _ _ _ _ _ _ _ _ fun e => hp (by rwa [← fkey_mod qg, ← e, fkey_mod])⟩

theorem wr0 (h : OnlyPlaces here r s) {f : Field} (hf : here (place f 0)) (pg v : Nat) : OnlyPlaces here r (wr0 s pg f v) := h.wr hf ..

theorem wrBit (h : OnlyPlaces here r s) {f : Field} {i : Nat} (hf : here (place f i)) (pg b : Nat) (v : Bool) :
    OnlyPlaces here r (wrBit s pg f i b v) := h.wr hf ..

theorem bump (h : OnlyPlaces here r s) {f : Field} (hf : here (place f 0)) (hsat : here (place F.STATUS_SAT 0)) (pg n : Nat) :
    OnlyPlaces here r (bump s pg f n) := by
  unfold Machine.bump bumpI
  exact .ite (h.wr0 hf ..) ((h.wr0 hf ..).wr0 hsat ..)

end OnlyPlaces

/-! ## Bits of a field -/

theorem bit_putBit_true (x b : Nat) : bit (putBit x b true) b = true := by
  unfold putBit bit
  cases hx : x.testBit b
  · simp [Nat.add_comm x, Nat.testBit_two_pow_add_eq, hx]
  · simp [hx]

theorem rdBit_wrBit_true {f : Field} {b : Nat} (h : b < f.width) (s : State) (pg i : Nat) :
    rdBit (wrBit s pg f i b true) pg f i b = true := by
  have set := bit_putBit_true (rd s pg f i) b
  unfold bit at set
  rw [rdBit, wrBit, rd_wr, bit, Nat.testBit_mod_two_pow, set, decide_eq_true h, Bool.and_self]

/-- The fields beside ERR_SUM that an error event can write (R486). -/
def eventFields : List (Field × Nat) :=
  [(F.ERR_FIRST_BIT, 0), (F.ERR_FIRST_TALLY, 0), (F.EVT_ACCESS, 0), (F.EVT_UNCORR, 0), (F.EVT_PARITY, 0), (F.STATUS_SAT, 0)]

theorem evtField_places {b : Nat} {f : Field} (h : evtField b = some f) : placesOf eventFields (place f 0) := by
  unfold evtField at h
  split at h
  · cases h; decide
  · cases h; decide
  · cases h; decide
  · cases h

theorem errEvent_places (s : State) (pg b : Nat) :
    OnlyPlaces (placesOf eventFields) (wrBit s pg F.ERR_SUM 0 b true) (errEvent s pg b) := by
  have first : ∀ u : State, OnlyPlaces (placesOf eventFields) u
      (if rd s pg F.ERR_SUM == 0 then wr0 (wr0 u pg F.ERR_FIRST_BIT b) pg F.ERR_FIRST_TALLY u.tally.num else u) := fun u =>
    .ite (((OnlyPlaces.refl _ u).wr0 (by decide) ..).wr0 (by decide) ..) (.refl _ u)
  unfold errEvent
  dsimp only
  split
  · rename_i f e
    exact (first _).bump (evtField_places e) (by decide) ..
  · exact first _

/-- An error event sets its bit of ERR_SUM, whatever else it writes (R486). -/
theorem errSum_errEvent {b : Nat} (h : b < 16) (s : State) (pg : Nat) : bit (rd (errEvent s pg b) pg F.ERR_SUM) b = true := by
  rw [(errEvent_places s pg b).field _ _ _ (by decide)]
  exact rdBit_wrBit_true h ..

/-- The fields that an entry of the trouble log can write (R478). -/
def logFields : List (Field × Nat) := [(F.LOG_OVERRUN, 0), (F.LOG_INDEX, 0), (F.EVT_LOG, 0), (F.STATUS_SAT, 0)]

theorem logWrite_places (s : State) (pg ev pen : Nat) (fs : List LogField) : OnlyPlaces (placesOf logFields) s (logWrite s pg ev pen fs) := by
  unfold logWrite
  generalize 32768 = z
  refine .bump (.wr0 ?_ (by decide) ..) (by decide) (by decide) ..
  have counted : OnlyPlaces (placesOf logFields) s
      (if s.views.full ∧ (2 ^ 33 - z + rd s logPg F.LOG_INDEX - rd s logPg F.LOG_READ) % 2 ^ 32 < 2 ^ 31 then bump s logPg F.LOG_OVERRUN
        else s) := .ite ((OnlyPlaces.refl _ s).bump (by decide) (by decide) ..) (.refl _ s)
  exact .ite (.via (counted.via (setLog_via ..) rfl) (setViews_via ..) rfl) (counted.via (setLog_via ..) rfl)

/-- A refused access sets bit 0 of ERR_SUM (R491). -/
theorem errSum_accessError (s : State) (pg off : Nat) (src : Source) (row v : Nat) :
    bit (rd (accessError s pg off src row v) pg F.ERR_SUM) 0 = true := by
  have set := errSum_errEvent (b := 0) (by decide) s pg
  unfold accessError
  dsimp only
  split
  · rwa [(logWrite_places ..).field _ _ _ (by decide)]
  · exact set

/-! ## Runs of a sparse table -/

/-- A run that is written reads back, and no other key changes. -/
theorem getD_putRun {α : Type} [DecidableEq α] (d : α) (vs : List α) (m : SMap α) (k j : Nat) :
    getD d (putRun d m k vs) j = if k ≤ j ∧ j < k + vs.length then vs.getD (j - k) d else getD d m j := by
  induction vs generalizing m k with
  | nil => rw [putRun, if_neg (by simp)]
  | cons v vs ih =>
    rw [putRun, ih, getD_putD]
    by_cases h : j = k
    · subst h
      simp
    · by_cases hk : k ≤ j
      · have step : j - k = (j - (k + 1)) + 1 := by omega
        simp only [h, step, List.length_cons, List.getD_cons_succ, if_false]
        exact if_congr (by omega) rfl rfl
      · rw [if_neg (by omega), if_neg h, if_neg (by omega)]

/-- A table of trims reads as its list (R50). -/
theorem getD_trimTable {α : Type} [DecidableEq α] (d : α) (xs : List α) (c : Nat) : getD d (trimTable d xs) c = xs.getD c d := by
  rw [trimTable, getD_putRun]
  split
  · rw [Nat.sub_zero]
  · rw [getD_nil, List.getD_eq_default _ _ (by omega)]

end Sys2Proof.Machine
end

section
/-! SUPPORT. Zero-input conversions, the triggers of a calibration, and the closing of its windows (R36, R51, R52, R54, R56 to R59). -/

namespace Sys2Proof.Machine

open Sys2Proof

/-! ## What a checked conversion leaves (R370, R372) -/

theorem repeatDispute_marks (s : State) (f : Nat) (same : Dispute → Bool) : MarksOnly s (repeatDispute s f same) := by
  unfold repeatDispute
  have noted : ∀ x : Care, MarksOnly s (s.setCare x) := fun x => .via (.refl s) (setCare_via s x) rfl
  exact .ite ((noted _).trans (locate_marks ..)) (noted _)

theorem instantTest_marks (s : State) (f a bundle iter : Nat) (d : ConvData) (q : Rat) : MarksOnly s (instantTest s f a bundle iter d q) := by
  have counted : MarksOnly s (bump s (foldPg f) F.COLLIE_CHK_CNT) := .via (.refl s) (bump_via ..) rfl
  unfold instantTest
  refine .ite counted ?_
  have raised := (counted.via (collieFail_via _ f a 1 0 (ceilN (absR q))) rfl).trans (raiseSuspect_marks _ f)
  exact .ite (raised.trans (repeatDispute_marks ..)) (raised.via (addDispute_via ..) rfl)

/-! ## A zero-input conversion (R36, R56) -/

/-- The state in which an array has made a zero-input conversion and gathered it. -/
def zeroConverted (s : State) (f a : Nat) : State :=
  modArr (s.setFree (s.free + 256)) f a fun x => gatherZero x (zeroData s f a).codes

/-- The Collie residual of a zero-input conversion: the sum of its trimmed columns (R369). -/
def zeroResidual (d : ConvData) : Rat := sumR (cols.map fun c => trimmed (d.codes.getD c 64) (d.o.getD c 0) (d.g.getD c 16384))

/-- The state after a zero-input conversion, which the checker tests. -/
def zeroTested (s : State) (f a : Nat) : State :=
  instantTest (zeroConverted s f a) f a noBundle 0 (zeroData s f a) (zeroResidual (zeroData s f a))

theorem answers_zeroInputConversion {s : State} {f : Fin 68} {a : Fin 16} {P : State → Prop} (runs : arraysRun s f = true)
    (h : P (zeroTested s f a)) : Answers (.zeroInputConversion f a) s P := by
  refine ⟨zeroTested s f a, ?_, h⟩
  show execZeroInputConversion f a s = _
  rw [execZeroInputConversion, if_pos runs]
  rfl

theorem zeroConverted_via (s : State) (f a : Nat) : Via [.free, .folds] s (zeroConverted s f a) :=
  .step (modArr_via ..) rfl ((setFree_via ..).mono rfl)

theorem zeroTested_via (s : State) (f a : Nat) : Via [.free, .regs, .folds, .flocks, .care] s (zeroTested s f a) :=
  .step (instantTest_via ..) rfl ((zeroConverted_via ..).mono rfl)

theorem arr_zeroTested (s : State) (f a : Nat) :
    (getFold (zeroTested s f a) f).arr a = gatherZero ((getFold s f).arr a) (zeroData s f a).codes := by
  rw [zeroTested, (instantTest_marks ..).arr, zeroConverted, arr_modArr_same, getFold_setFree]

/-- Gathering a conversion changes the array's window alone. -/
theorem gatherZero_eq (x : Arr) (codes : List Nat) : ∃ w, gatherZero x codes = { x with win := w } := by
  unfold gatherZero
  split
  · split
    · exact ⟨x.win, rfl⟩
    · exact ⟨_, rfl⟩
  · exact ⟨x.win, rfl⟩

/-- An open window gathers one zero-input conversion more, and as many product conversions as before. -/
theorem gatherZero_open {x : Arr} {w : Window} (h : x.win = some w) (hopen : w.closed = none) (codes : List Nat) :
    ∃ w', (gatherZero x codes).win = some w' ∧ w'.nz = w.nz + 1 ∧ w'.np = w.np := by
  simp only [gatherZero, h, hopen, Option.isSome_none, Bool.false_eq_true, if_false]
  exact ⟨_, rfl, rfl, rfl⟩

theorem nz_gatherZero (x : Arr) (codes : List Nat) :
    (gatherZero x codes).win.map (·.nz) = x.win.map fun w => if w.closed.isNone then w.nz + 1 else w.nz := by
  cases hw : x.win with
  | none => simp only [gatherZero, hw, Option.map_none]
  | some w =>
    cases hc : w.closed with
    | none =>
      obtain ⟨w', hw', nz, -⟩ := gatherZero_open hw hc codes
      simp only [hw', Option.map_some, nz, hc, Option.isNone_none, if_true]
    | some k => simp [gatherZero, hw, hc]

/-! ## The triggers (R51, R52) -/

theorem answers_calForce {s : State} {src : Source} {f : Fin 68} {P : State → Prop} (sees : seesPage s src (foldPg f) = true)
    (h : P (forceCal (noteConfig s src (foldPg f) 0x400 (wordValue s (foldPg f) 0x400 + 8192)) f)) : Answers (.calForce src f) s P := by
  refine ⟨_, ?_, h⟩
  show execCalForce src f s = _
  rw [execCalForce, onPage_of_sees sees]

theorem answers_calPeriodExpiry {s : State} {f : Fin 68} {P : State → Prop} (h : P (modFold s f fun x => { x with period := true })) :
    Answers (.calPeriodExpiry f) s P := ⟨_, rfl, h⟩

/-- A host's write waits to be journaled; no other does (R408). -/
theorem drover_noteConfig (s : State) (src : Source) (page off v : Nat) : (noteConfig s src page off v).drover =
    { s.drover with latch := s.drover.latch ++ if hostWrite src then [.config page off v] else [] } := by
  unfold noteConfig
  cases hostWrite src
  · simp only [Bool.false_eq_true, if_false, List.append_nil]
  · rfl

theorem forceCal_eq (s : State) (f : Nat) : forceCal s f = modFold s f fun x =>
    if rd s (foldPg f) F.ARR_CAL_CTRL_HOLD = 1 then { x with forceHeld := true } else { x with force := true } := by
  unfold forceCal
  split <;> rfl

/-! ## A reject (R57, R58) -/

/-- Discarding a window takes it from its array, and nothing else. -/
theorem arr_discardWindow (s : State) (f a : Nat) :
    (getFold (discardWindow s f a) f).arr a = { (getFold s f).arr a with win := none, reopen := false } := by
  rw [discardWindow, getFold_wrBit, arr_modArr_same]

theorem discardWindow_onlyFolds (s : State) (f a : Nat) : OnlyFolds [f] s (discardWindow s f a) :=
  .via (.modArr f a _ (.refl _ s) List.mem_cons_self) (wrBit_via ..) rfl

/-- The state in which a reject is shown, with its array and cause (R58). -/
def rejectShown (s : State) (f a cause : Nat) : State :=
  wr0 (wr0 (wrBit (discardWindow s f a) (foldPg f) F.ARR_CALREJ 0 a true) (foldPg f) F.ARR_REJ_CAUSE_ARRAY a)
    (foldPg f) F.ARR_REJ_CAUSE_CAUSE cause

/-- The state in which the third reject in a row is an error, once (R58). -/
def failShown (s : State) (f a : Nat) : State :=
  if rdBit s (foldPg f) F.ARR_CAL_FAIL 0 a then s else errEvent (wrBit s (foldPg f) F.ARR_CAL_FAIL 0 a true) (foldPg f) 7

/-- A reject counts; the first two in a row ask for another window, and from the third on the sample is kept (R57, R58). -/
theorem rejectSet_eq (s : State) (f a cause : Nat) : ∃ (u : State) (failTemp : Option Int) (reopen : Bool),
    rejectSet s f a cause = modArr u f a (fun y =>
      { y with rejects := ((getFold (rejectShown s f a cause) f).arr a).rejects + 1, failTemp := failTemp.or y.failTemp, reopen := reopen || y.reopen })
    ∧ (u = rejectShown s f a cause ∨ u = failShown (rejectShown s f a cause) f a) := by
  unfold rejectSet
  dsimp only
  split
  · exact ⟨_, some (sampleOf (failShown (rejectShown s f a cause) f a) f), false, rfl, .inr rfl⟩
  · exact ⟨_, none, true, rfl, .inl rfl⟩

theorem failShown_via (s : State) (f a : Nat) : Via [.regs] s (failShown s f a) := by
  unfold failShown
  exact .ite (.refl _ s) (.step (errEvent_via ..) rfl (wrBit_via ..))

/-- The fields that an error of the third reject can write (R58). -/
def failFields : List (Field × Nat) := (F.ARR_CAL_FAIL, 0) :: (F.ERR_SUM, 0) :: eventFields

theorem failShown_places (s : State) (f a : Nat) : OnlyPlaces (placesOf failFields) s (failShown s f a) := by
  unfold failShown
  refine .ite (.refl _ s) (.trans ?_ ((errEvent_places ..).mono (by simp +contextual [failFields])))
  exact ((OnlyPlaces.refl _ s).wrBit (by decide) ..).wrBit (by decide) ..

theorem rejectShown_onlyFolds (s : State) (f a cause : Nat) : OnlyFolds [f] s (rejectShown s f a cause) :=
  (((discardWindow_onlyFolds s f a).via (wrBit_via ..) rfl).via (wr0_via ..) rfl).via (wr0_via ..) rfl

theorem arr_rejectShown (s : State) (f a cause : Nat) :
    (getFold (rejectShown s f a cause) f).arr a = { (getFold s f).arr a with win := none, reopen := false } := by
  rw [rejectShown, getFold_wr0, getFold_wr0, getFold_wrBit, arr_discardWindow]

theorem calRej_rejectShown {a : Nat} (h : a < 16) (s : State) (f cause : Nat) :
    rdBit (rejectShown s f a cause) (foldPg f) F.ARR_CALREJ 0 a = true := by
  have set : rdBit (wrBit (discardWindow s f a) (foldPg f) F.ARR_CALREJ 0 a true) (foldPg f) F.ARR_CALREJ 0 a = true := rdBit_wrBit_true h ..
  have rest : OnlyPlaces (placesOf [(F.ARR_REJ_CAUSE_ARRAY, 0), (F.ARR_REJ_CAUSE_CAUSE, 0)]) _ (rejectShown s f a cause) :=
    .wr0 (.wr0 (.refl _ _) (by decide) ..) (by decide) ..
  rwa [rdBit, rest.field _ _ _ (by decide)]

/-- A reject changes its array, and of that what waits for a window and counts rejects (R57, R58). -/
theorem rejectSet_arr (s : State) (f a cause : Nat) : OnlyFolds [f] s (rejectSet s f a cause)
    ∧ ∃ failTemp reopen, (getFold (rejectSet s f a cause) f).arr a = { (getFold s f).arr a with
        win := none, rejects := ((getFold s f).arr a).rejects + 1, failTemp := failTemp, reopen := reopen } := by
  obtain ⟨u, failTemp, reopen, e, hu⟩ := rejectSet_eq s f a cause
  have folds : ∀ q, getFold u q = getFold (rejectShown s f a cause) q := by
    rcases hu with rfl | rfl
    · exact fun _ => rfl
    · exact (failShown_via ..).getFold rfl
  rw [e]
  constructor
  · refine .modArr f a _ (fun q hq => ?_) List.mem_cons_self
    rw [folds, rejectShown_onlyFolds s f a cause q hq]
  · rw [arr_modArr_same, folds, arr_rejectShown]
    exact ⟨_, _, rfl⟩

theorem calRej_rejectSet {a : Nat} (h : a < 16) (s : State) (f cause : Nat) :
    rdBit (rejectSet s f a cause) (foldPg f) F.ARR_CALREJ 0 a = true := by
  obtain ⟨u, failTemp, reopen, e, hu⟩ := rejectSet_eq s f a cause
  have places : OnlyPlaces (placesOf failFields) (rejectShown s f a cause) u := by
    rcases hu with rfl | rfl
    · exact .refl _ _
    · exact failShown_places ..
  rw [e, rdBit, rd_modArr, places.field _ _ _ (by decide)]
  exact calRej_rejectShown h s f cause

/-! ## A window closes (R54, R56 to R59) -/

/-- The set that a window closes with, and its σ_meas (R56). -/
def windowSet (s : State) (f a : Nat) (w : Window) : List Nat × List Int × Nat :=
  candidates ((getFold s f).arr a) w (Config.analogue s.free)

/-- The set keeps within the limits of R57. -/
def setOk (y : Arr) (q : List Nat × List Int × Nat) : Bool := gainsOk (gainsOf y) q.1 && offsetsOk (offsetsOf y) q.2.1

/-- The state in which a window that closes has given the array its σ_meas. -/
def windowMeasured (s : State) (f a : Nat) (w : Window) : State :=
  modArr (s.setFree (s.free + 1)) f a fun y => { y with sigma := (windowSet s f a w).2.2 }

section
variable {s : State} {f a : Nat} {w : Window}

/-- A set within the limits of R57 waits for the second tick boundary (R59). -/
theorem closeWindow_of_ok (ok : setOk ((getFold s f).arr a) (windowSet s f a w) = true) : closeWindow s f a w =
    modArr (windowMeasured s f a w) f a fun y => { y with
      win := some { w with closed := some ⟨(windowSet s f a w).1, (windowSet s f a w).2.1, s.tally.fires + 2⟩ } } := by
  unfold closeWindow
  dsimp only
  exact if_pos ok

/-- Any other set is rejected (R57, R58). -/
theorem closeWindow_of_not_ok (bad : setOk ((getFold s f).arr a) (windowSet s f a w) = false) :
    ∃ cause, closeWindow s f a w = rejectSet (windowMeasured s f a w) f a cause := by
  unfold closeWindow
  dsimp only
  exact ⟨_, if_neg (ne_true_of_eq_false bad)⟩

theorem windowMeasured_onlyFolds : OnlyFolds [f] s (windowMeasured s f a w) :=
  .modArr f a _ ((OnlyFolds.refl _ s).via (setFree_via ..) rfl) List.mem_cons_self

theorem free_windowMeasured : (windowMeasured s f a w).free = s.free + 1 := (modArr_via ..).piece (p := .free) rfl

theorem arr_windowMeasured :
    (getFold (windowMeasured s f a w) f).arr a = { (getFold s f).arr a with sigma := (windowSet s f a w).2.2 } := by
  rw [windowMeasured, arr_modArr_same, getFold_setFree]

/-- The array of a window that closes with a set that passes. -/
theorem arr_closeWindow_of_ok (ok : setOk ((getFold s f).arr a) (windowSet s f a w) = true) :
    (getFold (closeWindow s f a w) f).arr a = { (getFold s f).arr a with
      sigma := (windowSet s f a w).2.2
      win := some { w with closed := some ⟨(windowSet s f a w).1, (windowSet s f a w).2.1, s.tally.fires + 2⟩ } } := by
  rw [closeWindow_of_ok ok, arr_modArr_same, arr_windowMeasured]

end

section
variable {s : State} {f a : Nat} {w : Window}

/-- The array of a window that closes with a set that is rejected. -/
theorem arr_closeWindow_of_not_ok (bad : setOk ((getFold s f).arr a) (windowSet s f a w) = false) :
    ∃ failTemp reopen, (getFold (closeWindow s f a w) f).arr a = { (getFold s f).arr a with
      sigma := (windowSet s f a w).2.2, win := none, rejects := ((getFold s f).arr a).rejects + 1, failTemp := failTemp, reopen := reopen } := by
  obtain ⟨cause, e⟩ := closeWindow_of_not_ok bad
  obtain ⟨-, failTemp, reopen, arr⟩ := rejectSet_arr (windowMeasured s f a w) f a cause
  exact ⟨failTemp, reopen, by rw [e, arr, arr_windowMeasured]⟩

/-- Whatever its set, a window that closes draws one free value and changes its fold alone. -/
theorem closeWindow_leaves : (closeWindow s f a w).free = s.free + 1 ∧ OnlyFolds [f] s (closeWindow s f a w) := by
  cases hok : setOk ((getFold s f).arr a) (windowSet s f a w) with
  | true =>
    rw [closeWindow_of_ok hok]
    exact ⟨((modArr_via ..).piece (p := .free) rfl).trans free_windowMeasured, .modArr f a _ windowMeasured_onlyFolds List.mem_cons_self⟩
  | false =>
    obtain ⟨cause, e⟩ := closeWindow_of_not_ok hok
    rw [e]
    exact ⟨((rejectSet_via ..).piece (p := .free) rfl).trans free_windowMeasured, windowMeasured_onlyFolds.trans (rejectSet_arr ..).1⟩

end

/-- The two commands that close a window, with what each waits for (R54). -/
theorem answers_windowClosed {s : State} {f : Fin 68} {a : Fin 16} {w : Window} {c : Instr} {P : State → Prop}
    (hw : ((getFold s f).arr a).win = some w) (hopen : w.closed = none) (enough : 256 ≤ w.nz)
    (full : (c = Instr.calWindowClose f a ∧ 65536 ≤ w.np) ∨ (c = Instr.calWindowTimeout f a ∧ w.opened + 4096 ≤ s.tally.fires))
    (h : P (closeWindow s f a w)) : Answers c s P := by
  refine ⟨_, ?_, h⟩
  rcases full with ⟨rfl, many⟩ | ⟨rfl, late⟩
  · show execCalWindowClose f a s = _
    simp only [execCalWindowClose, hw]
    rw [if_pos ⟨by rw [hopen]; rfl, enough, many⟩]
  · show execCalWindowTimeout f a s = _
    simp only [execCalWindowTimeout, hw]
    rw [if_pos ⟨by rw [hopen]; rfl, enough, late⟩]

/-- Settles O25: a zero-input conversion counts in an open window, a trigger is kept, and a full window closes with a set that waits or a
reject. -/
theorem calibrationWindowsClose : Obligations.CalibrationWindowsClose := by
  unfold Obligations.CalibrationWindowsClose
  refine ⟨fun s f a runs => ?zero, fun s f => ⟨fun src sees => ?force, ?period⟩, fun s f a w hw hopen enough => ?close⟩
  case zero =>
    obtain ⟨w, gathered⟩ := gatherZero_eq ((getFold s f).arr a) (zeroData s f a).codes
    refine answers_zeroInputConversion runs ⟨?_, ?_, ?_, (zeroTested_via ..).same⟩
    · rw [arr_zeroTested, nz_gatherZero]
    · rw [arr_zeroTested, gathered]
    · rw [arr_zeroTested, gathered]
  case force =>
    have noted : Via [.drover] s (noteConfig s src (foldPg f) 0x400 (wordValue s (foldPg f) 0x400 + 8192)) := noteConfig_via ..
    refine answers_calForce sees ?_
    rw [forceCal_eq]
    refine ⟨?_, (modFold_via ..).piece (p := .drover) rfl |>.trans (drover_noteConfig ..), ?_, ?_⟩
    · rw [getFold_modFold_same, noted.getFold rfl, noted.rd rfl]
    · exact .modFold f _ (noted.same.folds rfl _) List.mem_cons_self
    · exact (Via.step (modFold_via ..) rfl (noted.mono rfl)).same
  case period =>
    exact answers_calPeriodExpiry ⟨getFold_modFold_same .., .modFold f _ (.refl _ s) List.mem_cons_self, (modFold_via ..).same⟩
  case close =>
    extract_lets y q ok
    intro c full
    obtain ⟨free, folds⟩ := closeWindow_leaves (s := s) (f := f) (a := a) (w := w)
    have only := (closeWindow_via s f a w).same
    have set : windowSet s f a w = q := rfl
    refine answers_windowClosed hw hopen enough full ?_
    cases hok : ok with
    | true =>
      have kept := arr_closeWindow_of_ok (s := s) (f := f) (a := a) (w := w) hok
      rw [set] at kept
      exact ⟨fun _ => by rw [kept], (nomatch ·), by rw [kept], by rw [kept], by rw [kept], free, folds, only⟩
    | false =>
      obtain ⟨cause, e⟩ := closeWindow_of_not_ok (s := s) (f := f) (a := a) (w := w) hok
      obtain ⟨failTemp, reopen, kept⟩ := arr_closeWindow_of_not_ok (s := s) (f := f) (a := a) (w := w) hok
      have shown : rdBit (closeWindow s f a w) (foldPg f) F.ARR_CALREJ 0 a = true := by
        rw [e]
        exact calRej_rejectSet a.isLt ..
      rw [set] at kept
      exact ⟨(nomatch ·), fun _ => ⟨by rw [kept], by rw [kept], shown⟩, by rw [kept], by rw [kept], by rw [kept], free, folds, only⟩

end Sys2Proof.Machine
end

section
/-! SUPPORT. Passing calibration sets and boot calibrations become trims (R50, R57, R59, R61, R63 to R69, R375). -/

namespace Sys2Proof.Machine

open Sys2Proof

/-! ## What a calibration of one array leaves -/

/-- A fold without its arrays and its period trigger. -/
def Fold.offArrays (x : Fold) : Fold := { x with arrays := [], period := false }

/-- From `s` to `t` array `a` of fold `f` changes, with the fold's period trigger, and of the folds nothing else. -/
structure ArrayOnly (f a : Nat) (s t : State) : Prop where
  /-- the other folds -/
  folds : OnlyFolds [f] s t
  /-- the other arrays of the fold -/
  other : ∀ b, b ≠ a → (getFold t f).arr b = (getFold s f).arr b
  /-- the rest of the fold -/
  rest : (getFold t f).offArrays = (getFold s f).offArrays

namespace ArrayOnly

variable {f a : Nat} {r s t : State}

theorem refl (f a : Nat) (s : State) : ArrayOnly f a s s := ⟨.refl _ s, fun _ _ => rfl, rfl⟩

theorem trans (h : ArrayOnly f a r s) (k : ArrayOnly f a s t) : ArrayOnly f a r t :=
  ⟨h.folds.trans k.folds, fun b hb => (k.other b hb).trans (h.other b hb), k.rest.trans h.rest⟩

theorem via {ps : List StatePart} (h : ArrayOnly f a r s) (k : Via ps s t) (hps : ps.contains .folds = false) : ArrayOnly f a r t :=
  ⟨h.folds.via k hps, fun b hb => by rw [k.getFold hps, h.other b hb], by rw [k.getFold hps, h.rest]⟩

theorem modArr (h : ArrayOnly f a r s) (g : Arr → Arr) : ArrayOnly f a r (modArr s f a g) := by
  refine ⟨h.folds.modArr f a g List.mem_cons_self, fun b hb => ?_, ?_⟩
  · rw [arr_modArr_ne hb, h.other b hb]
  · rw [getFold_modArr_same, ← h.rest]
    rfl

/-- The period trigger is over. -/
theorem periodOver (h : ArrayOnly f a r s) : ArrayOnly f a r (modFold s f fun x => { x with period := false }) := by
  refine ⟨h.folds.modFold f _ List.mem_cons_self, fun b hb => ?_, ?_⟩
  · rw [getFold_modFold_same, ← h.other b hb]
    rfl
  · rw [getFold_modFold_same, ← h.rest]
    rfl

end ArrayOnly

/-- The fields of an array that the error terms and the end of an update write (R64 to R67). -/
def termFields (a : Nat) : List (Field × Nat) :=
  [(F.ARR_NOISY, 0), (F.ARR_RANGE_OUT, 0), (F.ARR_CAL_FAIL, 0), (F.ARR_BOUND_RS, a), (F.ARR_BOUND_SIGMA, a), (F.ARR_BOUND_EPS, a),
    (F.ARR_CAL_UPDATES, 0), (F.STATUS_SAT, 0)]

/-- The places that calibration writes: the calibration words of a fold page, and STATUS [0]. -/
def calPlaces (p : Nat) : Prop := p = place F.STATUS_SAT 0 ∨ place F.ARR_CAL_PEND 0 ≤ p ∧ p < place F.ARR_CLIP 0

theorem placesOf_termFields {a p : Nat} (hp : placesOf (termFields a) p) :
    p = 33280 ∨ p = 33408 ∨ p = 33152 ∨ p = 34176 ∨ p = 512 ∨ p = (1088 + 4 * a) * 32 % 131072
      ∨ p = ((1088 + 4 * a) * 32 + 10) % 131072 ∨ p = ((1088 + 4 * a) * 32 + 18) % 131072 := by
  simp only [placesOf, termFields, List.map_cons, List.map_nil, List.mem_cons, List.not_mem_nil, or_false, place, fkey, F.ARR_NOISY,
    F.ARR_RANGE_OUT, F.ARR_CAL_FAIL, F.ARR_BOUND_RS, F.ARR_BOUND_SIGMA, F.ARR_BOUND_EPS, F.ARR_CAL_UPDATES, F.STATUS_SAT] at hp
  omega

theorem calPlaces_iff (p : Nat) : calPlaces p ↔ p = 512 ∨ 32896 ≤ p ∧ p < 40960 := Iff.rfl

theorem calPlaces_of_termFields {a : Nat} (h : a < 16) (p : Nat) (hp : placesOf (termFields a) p) : calPlaces p := by
  have := placesOf_termFields hp
  rw [calPlaces_iff]
  omega

/-- The error terms of an array change what it holds of them alone (R63 to R65). -/
theorem getFold_errorTerms (s : State) (f a : Nat) : ∃ rs su eps, ∀ q,
    getFold (errorTerms s f a) q = getFold (modArr s f a fun y => { y with rs := rs, su := su, eps := eps }) q := by
  refine ⟨?_, ?_, ?_, fun q => ?_⟩
  rotate_right
  · unfold errorTerms
    dsimp only
    rw [apply_ite (getFold · q), (showBound_via ..).getFold rfl, ite_self, apply_ite (getFold · q), getFold_wrBit, ite_self, getFold_wrBit]

theorem errorTerms_places (s : State) (f a : Nat) : OnlyPlaces (placesOf (termFields a)) s (errorTerms s f a) := by
  have start : ∀ g : Arr → Arr, OnlyPlaces (placesOf (termFields a)) s (modArr s f a g) := fun g => .via (.refl _ s) (modArr_via ..) rfl
  have noisy : ∀ {u : State} v, OnlyPlaces (placesOf (termFields a)) s u →
      OnlyPlaces (placesOf (termFields a)) s (wrBit u (foldPg f) F.ARR_NOISY 0 a v) := fun v h => h.wrBit (by simp [termFields]) ..
  have range : ∀ {u : State} v, OnlyPlaces (placesOf (termFields a)) s u →
      OnlyPlaces (placesOf (termFields a)) s (wrBit u (foldPg f) F.ARR_RANGE_OUT 0 a v) := fun v h => h.wrBit (by simp [termFields]) ..
  have shown : ∀ {u : State}, OnlyPlaces (placesOf (termFields a)) s u → OnlyPlaces (placesOf (termFields a)) s (showBound u f a) := fun h =>
    ((h.wr (by simp [termFields]) ..).wr (by simp [termFields]) ..).wr (by simp [termFields]) ..
  unfold errorTerms
  dsimp only
  exact .ite (.ite (range _ (noisy _ (start _))) (noisy _ (start _))) (shown (.ite (range _ (noisy _ (start _))) (noisy _ (start _))))

/-! ## An applied update (R59, R67, R69) -/

/-- The state in which an update shows its temperature and that the array is stale no more. -/
def updateShown (s : State) (f a : Nat) (t : Int) : State :=
  wr (wr (discardWindow s f a) (foldPg f) F.ARR_TREF a (ofSigned t 16)) (foldPg f) F.ARR_BOUND_STALE a 0

/-- The state in which an update has ended the rejects of its array and its fold's period. -/
def rejectsEnded (s : State) (f a : Nat) (t : Int) : State :=
  modFold (modArr (wrBit (wrBit (updateShown s f a t) (foldPg f) F.ARR_RANGE_OUT 0 a false) (foldPg f) F.ARR_CAL_FAIL 0 a false) f a
    fun y => { y with rejects := 0, failTemp := none }) f fun x => { x with period := false }

theorem applied_eq (s : State) (f a : Nat) (t : Int) :
    applied s f a t = bump (errorTerms (rejectsEnded s f a t) f a) (foldPg f) F.ARR_CAL_UPDATES := by
  simp only [applied, rejectsEnded, updateShown]

theorem arr_rejectsEnded (s : State) (f a : Nat) (t : Int) : (getFold (rejectsEnded s f a t) f).arr a =
    { (getFold s f).arr a with win := none, reopen := false, rejects := 0, failTemp := none } := by
  have off : ∀ x : Fold, ({ x with period := false } : Fold).arr a = x.arr a := fun _ => rfl
  rw [rejectsEnded, getFold_modFold_same, off, arr_modArr_same, getFold_wrBit, getFold_wrBit, updateShown, getFold_wr, getFold_wr,
    arr_discardWindow]

/-- An update leaves its array as it was, but for its window, its rejects and its error terms. -/
theorem arr_applied (s : State) (f a : Nat) (t : Int) : ∃ rs su eps, (getFold (applied s f a t) f).arr a =
    { (getFold s f).arr a with win := none, reopen := false, rejects := 0, failTemp := none, rs := rs, su := su, eps := eps } := by
  obtain ⟨rs, su, eps, terms⟩ := getFold_errorTerms (rejectsEnded s f a t) f a
  exact ⟨rs, su, eps, by rw [applied_eq, getFold_bump, terms, arr_modArr_same, arr_rejectsEnded]⟩

theorem discardWindow_arrayOnly (s : State) (f a : Nat) : ArrayOnly f a s (discardWindow s f a) :=
  ((ArrayOnly.refl f a s).modArr _).via (wrBit_via ..) rfl

theorem applied_arrayOnly (s : State) (f a : Nat) (t : Int) : ArrayOnly f a s (applied s f a t) := by
  have ended : ArrayOnly f a s (rejectsEnded s f a t) :=
    ((((((discardWindow_arrayOnly s f a).via (wr_via ..) rfl).via (wr_via ..) rfl).via (wrBit_via ..) rfl).via (wrBit_via ..) rfl).modArr
      _).periodOver
  obtain ⟨rs, su, eps, terms⟩ := getFold_errorTerms (rejectsEnded s f a t) f a
  have termed := ended.modArr fun y => { y with rs := rs, su := su, eps := eps }
  rw [applied_eq]
  refine .via ⟨fun q hq => ?_, fun b hb => ?_, ?_⟩ (bump_via ..) rfl
  · rw [terms, termed.folds q hq]
  · rw [terms, termed.other b hb]
  · rw [terms, termed.rest]

/-- After the update shows, only the error terms, the flags and the count of updates change. -/
theorem applied_places_updateShown (s : State) (f a : Nat) (t : Int) :
    OnlyPlaces (placesOf (termFields a)) (updateShown s f a t) (applied s f a t) := by
  have flags : OnlyPlaces (placesOf (termFields a)) (updateShown s f a t) (rejectsEnded s f a t) :=
    .via (.via (((OnlyPlaces.refl _ _).wrBit (by simp [termFields]) ..).wrBit (by simp [termFields]) ..) (modArr_via ..) rfl) (modFold_via ..) rfl
  rw [applied_eq]
  exact (flags.trans (errorTerms_places ..)).bump (by simp [termFields]) (by simp [termFields]) ..

theorem updateShown_places {a : Nat} (h : a < 16) (s : State) (f : Nat) (t : Int) : OnlyPlaces calPlaces s (updateShown s f a t) := by
  have tref : calPlaces (place F.ARR_TREF a) := by
    simp only [calPlaces, place, fkey, F.ARR_TREF, F.ARR_CAL_PEND, F.ARR_CLIP]
    omega
  have stale : calPlaces (place F.ARR_BOUND_STALE a) := by
    simp only [calPlaces, place, fkey, F.ARR_BOUND_STALE, F.ARR_CAL_PEND, F.ARR_CLIP]
    omega
  exact ((((OnlyPlaces.refl _ s).via (modArr_via ..) rfl).wrBit (.inr (by decide)) ..).wr tref ..).wr stale ..

theorem applied_places {a : Nat} (h : a < 16) (s : State) (f : Nat) (t : Int) : OnlyPlaces calPlaces s (applied s f a t) :=
  (updateShown_places h s f t).trans ((applied_places_updateShown s f a t).mono (calPlaces_of_termFields h))

theorem stale_applied (s : State) (f a : Nat) (t : Int) : rd (applied s f a t) (foldPg f) F.ARR_BOUND_STALE a = 0 := by
  rw [(applied_places_updateShown s f a t).field]
  · exact rd_wr ..
  · intro hp
    have := placesOf_termFields hp
    simp only [place, fkey, F.ARR_BOUND_STALE] at this
    omega

theorem toSigned_ofSigned_toSigned (x : Nat) : toSigned (ofSigned (toSigned x 16) 16) 16 = toSigned x 16 := by
  simp only [toSigned, ofSigned]
  split <;> split <;> omega

theorem tref_applied {a : Nat} (h : a < 16) (s : State) (f : Nat) (t : Int) :
    rd (applied s f a t) (foldPg f) F.ARR_TREF a = ofSigned t 16 % 2 ^ 16 := by
  rw [(applied_places_updateShown s f a t).field, updateShown, rd_wr_ne]
  · exact rd_wr ..
  · simp only [fkey, F.ARR_TREF, F.ARR_BOUND_STALE]
    omega
  · intro hp
    have := placesOf_termFields hp
    simp only [place, fkey, F.ARR_TREF] at this
    omega

/-! ## Registers that calibration leaves -/

section
variable {s t : State} (h : OnlyPlaces calPlaces s t)
include h

theorem OnlyPlaces.sampleOf (f : Nat) : Machine.sampleOf t f = Machine.sampleOf s f := by
  rw [Machine.sampleOf, h.field, Machine.sampleOf]
  simp only [calPlaces_iff, place, fkey, F.TELEM_VALUE, foldChannel]
  omega

theorem OnlyPlaces.sampleFault (f : Nat) : Machine.sampleFault t f = Machine.sampleFault s f := by
  rw [Machine.sampleFault, h.field, Machine.sampleFault]
  simp only [calPlaces_iff, place, fkey, F.TELEM_FAULT, foldChannel]
  omega

theorem OnlyPlaces.ticking : Machine.ticking t = Machine.ticking s := by
  rw [Machine.ticking, h.field _ _ _ (by rw [calPlaces_iff]; decide), Machine.ticking]

theorem OnlyPlaces.roleOf (f : Nat) : Machine.roleOf t f = Machine.roleOf s f := h.field _ _ _ (by rw [calPlaces_iff]; decide)

theorem OnlyPlaces.slotOfFold (f : Nat) : Machine.slotOfFold t f = Machine.slotOfFold s f := by
  refine slotOfFold_congr (fun k hk => ?_) (fun k => ?_) (h.roleOf f)
  · have enable : ¬ calPlaces (place F.HEFT_SLOT_EN k) := by
      simp only [calPlaces_iff, place, fkey, F.HEFT_SLOT_EN]
      omega
    have fold : ¬ calPlaces (place F.HEFT_SLOT_FOLD k) := by
      simp only [calPlaces_iff, place, fkey, F.HEFT_SLOT_FOLD]
      omega
    rw [foldOfSlot, foldOfSlot, h.field _ _ _ enable, h.field _ _ _ fold]
  · have low := h.field testPg F.SLOT_FAILED_LO 0 (by rw [calPlaces_iff]; decide)
    have high := h.field testPg F.SLOT_FAILED_HI 0 (by rw [calPlaces_iff]; decide)
    simp only [slotFailed, rdBit, low, high]

end

/-! ## CAL_APPLY (R59, R68, R375) -/

/-- The state in which a passing set has become the trims of its array. -/
def trimsSet (s : State) (f a : Nat) (k : Candidates) : State :=
  modArr s f a fun y => { y with g := trimTable 16384 k.g, o := trimTable 0 k.o }

/-- The state in which the set has applied. -/
def setApplied (s : State) (f a : Nat) (k : Candidates) : State := applied (trimsSet s f a k) f a (sampleOf s f)

theorem dueTrims_of_window {s : State} {y : Arr} {w : Window} {k : Candidates} (hw : y.win = some w) (hk : w.closed = some k)
    (due : k.due = s.tally.fires) : dueTrims s y = some k := by
  simp [dueTrims, hw, hk, due]

theorem answers_calApply_refused {s : State} {f : Fin 68} {a : Fin 16} {k : Candidates} {P : State → Prop}
    (due : dueTrims s ((getFold s f).arr a) = some k) (role : roleOf s f = roleServing) (bad : trimsOk s f a k.g k.o = false)
    (h : P (accessError (discardWindow s f a) (foldPg f) 0 (.core 0) 2 a)) : Answers (.calApply f a) s P := by
  refine ⟨_, ?_, h⟩
  show execCalApply f a s = _
  simp only [execCalApply, due, role, bad, if_true, Bool.false_eq_true, if_false]

theorem trimsSet_places (s : State) (f a : Nat) (k : Candidates) : OnlyPlaces calPlaces s (trimsSet s f a k) :=
  .via (.refl _ s) (modArr_via ..) rfl

theorem setApplied_places {a : Nat} (h : a < 16) (s : State) (f : Nat) (k : Candidates) : OnlyPlaces calPlaces s (setApplied s f a k) :=
  (trimsSet_places s f a k).trans (applied_places h ..)

theorem arr_trimsSet (s : State) (f a : Nat) (k : Candidates) :
    (getFold (trimsSet s f a k) f).arr a = { (getFold s f).arr a with g := trimTable 16384 k.g, o := trimTable 0 k.o } :=
  arr_modArr_same ..

theorem arr_openWindow (s : State) (f a : Nat) : (getFold (openWindow s f a) f).arr a =
    { (getFold s f).arr a with win := some (Window.fresh s.tally.fires (sampleOf s f)), reopen := false } := by
  rw [openWindow, getFold_wrBit, arr_modArr_same]

theorem openWindow_arrayOnly (s : State) (f a : Nat) : ArrayOnly f a s (openWindow s f a) :=
  ((ArrayOnly.refl f a s).modArr _).via (wrBit_via ..) rfl

theorem openWindow_places (s : State) (f a : Nat) : OnlyPlaces (placesOf [(F.ARR_CAL_PEND, 0)]) s (openWindow s f a) :=
  .wrBit (.via (.refl _ s) (modArr_via ..) rfl) (by decide) ..

/-- The state in which the set has applied, and the next window is open under a broken sensor (R68). -/
def calApplied (s : State) (f a : Nat) (k : Candidates) : State :=
  if sampleFault s f then openWindow (setApplied s f a k) f a else setApplied s f a k

theorem answers_calApply {s : State} {f : Fin 68} {a : Fin 16} {k : Candidates} {P : State → Prop}
    (due : dueTrims s ((getFold s f).arr a) = some k) (role : roleOf s f = roleServing) (ok : trimsOk s f a k.g k.o = true)
    (h : P (calApplied s f a k)) : Answers (.calApply f a) s P := by
  refine ⟨_, ?_, h⟩
  show execCalApply f a s = _
  rw [calApplied, ← (setApplied_places a.isLt s f k).sampleFault, setApplied, ← (trimsSet_places s f a k).sampleOf]
  simp only [execCalApply, due, role, ok, if_true]
  rfl

theorem arr_setApplied (s : State) (f a : Nat) (k : Candidates) : ∃ y, (getFold (setApplied s f a k) f).arr a = y
    ∧ y.g = trimTable 16384 k.g ∧ y.o = trimTable 0 k.o ∧ y.win = none := by
  obtain ⟨rs, su, eps, arr⟩ := arr_applied (trimsSet s f a k) f a (sampleOf s f)
  rw [arr_trimsSet] at arr
  exact ⟨_, arr, rfl, rfl, rfl⟩

/-- The array of a set that applies: its trims, and the window that is open then (R59, R68). -/
theorem arr_calApplied (s : State) (f a : Nat) (k : Candidates) : ∃ y, (getFold (calApplied s f a k) f).arr a = y
    ∧ (∀ c, c < 256 → getD 16384 y.g c = k.g.getD c 16384 ∧ getD 0 y.o c = k.o.getD c 0)
    ∧ (sampleFault s f = false → y.win = none)
    ∧ (sampleFault s f = true → ∃ w', y.win = some w' ∧ w'.closed = none ∧ w'.nz = 0 ∧ w'.np = 0) := by
  obtain ⟨y, arr, g, o, win⟩ := arr_setApplied s f a k
  have trims : ∀ c, c < 256 → getD 16384 y.g c = k.g.getD c 16384 ∧ getD 0 y.o c = k.o.getD c 0 := fun c _ => by
    rw [g, o]
    exact ⟨getD_trimTable .., getD_trimTable ..⟩
  unfold calApplied
  split
  · rename_i fault
    rw [arr_openWindow, arr]
    exact ⟨_, rfl, trims, fun h => absurd (fault.symm.trans h) (by decide), fun _ => ⟨_, rfl, rfl, rfl, rfl⟩⟩
  · rename_i sound
    exact ⟨y, arr, trims, fun _ => win, fun h => absurd h sound⟩

theorem calApplied_places_setApplied (s : State) (f a : Nat) (k : Candidates) :
    OnlyPlaces (placesOf [(F.ARR_CAL_PEND, 0)]) (setApplied s f a k) (calApplied s f a k) :=
  .ite (openWindow_places ..) (.refl _ _)

theorem stale_calApplied (s : State) (f a : Nat) (k : Candidates) :
    rd (calApplied s f a k) (foldPg f) F.ARR_BOUND_STALE a = 0 := by
  rw [(calApplied_places_setApplied s f a k).field, setApplied, stale_applied]
  simp only [placesOf, List.map_cons, List.map_nil, List.mem_singleton, place, fkey, F.ARR_BOUND_STALE, F.ARR_CAL_PEND]
  omega

theorem tref_calApplied {a : Nat} (h : a < 16) (s : State) (f : Nat) (k : Candidates) :
    trefOf (calApplied s f a k) f a = sampleOf s f := by
  have signed : toSigned (ofSigned (sampleOf s f) 16 % 2 ^ 16) 16 = sampleOf s f := by
    rw [toSigned, Nat.mod_mod]
    exact toSigned_ofSigned_toSigned _
  rw [trefOf, (calApplied_places_setApplied s f a k).field, setApplied, tref_applied h, signed]
  simp only [placesOf, List.map_cons, List.map_nil, List.mem_singleton, place, fkey, F.ARR_TREF, F.ARR_CAL_PEND]
  omega

theorem calApplied_arrayOnly (s : State) (f a : Nat) (k : Candidates) : ArrayOnly f a s (calApplied s f a k) := by
  have set : ArrayOnly f a s (setApplied s f a k) := ((ArrayOnly.refl f a s).modArr _).trans (applied_arrayOnly ..)
  unfold calApplied
  split
  · exact set.trans (openWindow_arrayOnly ..)
  · exact set

theorem calApplied_via (s : State) (f a : Nat) (k : Candidates) : Via [.regs, .folds] s (calApplied s f a k) := by
  have set : Via [.regs, .folds] s (setApplied s f a k) := .step (applied_via ..) rfl ((modArr_via ..).mono rfl)
  exact .ite (.step (openWindow_via ..) rfl set) set

/-! ## A boot calibration of one array (R50, R57, R69) -/

/-- The state in which the results of a boot calibration have become the trims of their array. -/
def resultsSet (s : State) (f a : Nat) (r : CalResult) : State :=
  wr (modArr s f a fun y => { y with
    g := trimTable 16384 r.g, o := trimTable 0 r.o, ratio := putRun 1 [] 0 r.ratio, sigma := calSigma r, pend := none })
    (foldPg f) F.ARR_INL a r.inl

theorem applyBoot_eq (s : State) (f a : Nat) (r : CalResult) (t : Int) : applyBoot s f a r t = applied (resultsSet s f a r) f a t := by
  simp only [applyBoot, resultsSet]

theorem arr_resultsSet (s : State) (f a : Nat) (r : CalResult) : (getFold (resultsSet s f a r) f).arr a = { (getFold s f).arr a with
    g := trimTable 16384 r.g, o := trimTable 0 r.o, ratio := putRun 1 [] 0 r.ratio, sigma := calSigma r, pend := none } := by
  rw [resultsSet, getFold_wr, arr_modArr_same]

theorem resultsSet_places {a : Nat} (h : a < 16) (s : State) (f : Nat) (r : CalResult) : OnlyPlaces calPlaces s (resultsSet s f a r) := by
  refine .wr (.via (.refl _ s) (modArr_via ..) rfl) ?_ ..
  simp only [calPlaces_iff, place, fkey, F.ARR_INL]
  omega

/-- The results of a boot calibration that apply are the array's trims and σ_meas, and wait no more (R69). -/
theorem arr_applyBoot (s : State) (f a : Nat) (r : CalResult) (t : Int) : ∃ y, (getFold (applyBoot s f a r t) f).arr a = y
    ∧ (∀ c, c < 256 → getD 16384 y.g c = r.g.getD c 16384 ∧ getD 0 y.o c = r.o.getD c 0) ∧ y.sigma = calSigma r ∧ y.pend = none := by
  obtain ⟨rs, su, eps, arr⟩ := arr_applied (resultsSet s f a r) f a t
  rw [arr_resultsSet, ← applyBoot_eq] at arr
  exact ⟨_, arr, fun c _ => ⟨getD_trimTable .., getD_trimTable ..⟩, by dsimp only, rfl⟩

theorem applyBoot_arrayOnly (s : State) (f a : Nat) (r : CalResult) (t : Int) : ArrayOnly f a s (applyBoot s f a r t) := by
  rw [applyBoot_eq]
  exact (((ArrayOnly.refl f a s).modArr _).via (wr_via ..) rfl).trans (applied_arrayOnly ..)

theorem applyBoot_places {a : Nat} (h : a < 16) (s : State) (f : Nat) (r : CalResult) (t : Int) :
    OnlyPlaces calPlaces s (applyBoot s f a r t) := by
  rw [applyBoot_eq]
  exact (resultsSet_places h s f r).trans (applied_places h ..)

theorem boundaryBoot_of_pend {s : State} {f a : Nat} {r : CalResult} {x : Int} (h : ((getFold s f).arr a).pend = some (r, x)) :
    boundaryBoot s f a = applyBoot s f a r x := by
  simp only [boundaryBoot, h]

theorem referencePlanes_eq (s : State) (f a : Nat) : referencePlanes s f a =
    modArr (s.setFree (s.free + 524288)) f a fun y => { y with p0 := freePlane s.free, p1 := freePlane (s.free + 262144) } := by
  simp only [referencePlanes]

/-- The reference pattern leaves the trims of its array (R69). -/
theorem arr_referencePlanes (s : State) (f a : Nat) : ∃ p0 p1, (getFold (referencePlanes s f a) f).arr a =
    { (getFold s f).arr a with p0 := p0, p1 := p1 } := by
  generalize first : freePlane s.free = p0
  generalize second : freePlane (s.free + 262144) = p1
  refine ⟨p0, p1, ?_⟩
  rw [referencePlanes_eq, arr_modArr_same, getFold_setFree, first, second]

theorem referencePlanes_arrayOnly (s : State) (f a : Nat) : ArrayOnly f a s (referencePlanes s f a) := by
  unfold referencePlanes
  exact ((ArrayOnly.refl f a s).via (setFree_via ..) rfl).modArr _

theorem referencePlanes_places (s : State) (f a : Nat) : OnlyPlaces calPlaces s (referencePlanes s f a) :=
  .via (.refl _ s) (referencePlanes_via ..) rfl

/-- What a boot calibration of array `a` from state `s` with results `r` has made of the array: results within the limits wait for a tick
boundary, or apply while no ticks fire, and others leave the trims. -/
structure Calibrated (s : State) (f a : Nat) (r : CalResult) (y : Arr) : Prop where
  /-- they wait -/
  waits : calPasses s f a r = true → ticking s = true →
    y.pend = some (r, sampleOf s f) ∧ y.g = ((getFold s f).arr a).g ∧ y.o = ((getFold s f).arr a).o
  /-- they apply -/
  applies : calPasses s f a r = true → ticking s = false →
    (∀ c, c < 256 → getD 16384 y.g c = r.g.getD c 16384 ∧ getD 0 y.o c = r.o.getD c 0) ∧ y.sigma = calSigma r
  /-- they are rejected -/
  keeps : calPasses s f a r = false → y.g = ((getFold s f).arr a).g ∧ y.o = ((getFold s f).arr a).o

theorem calibrateArray_eq (s : State) (f a : Nat) (r : CalResult) : calibrateArray s f a r =
    if calPasses s f a r then
      if ticking s then modArr (referencePlanes s f a) f a fun y => { y with pend := some (r, sampleOf s f) }
      else applyBoot (referencePlanes s f a) f a r (sampleOf s f)
    else referencePlanes s f a := by
  rw [← (referencePlanes_places s f a).ticking]
  unfold calibrateArray
  rfl

theorem calibrateArray_calibrated (s : State) (f a : Nat) (r : CalResult) :
    Calibrated s f a r ((getFold (calibrateArray s f a r) f).arr a) := by
  obtain ⟨p0, p1, planes⟩ := arr_referencePlanes s f a
  rw [calibrateArray_eq]
  cases pass : calPasses s f a r with
  | false =>
    refine ⟨fun h => ?_, fun h => ?_, fun _ => ?_⟩
    · exact absurd (pass.symm.trans h) (by decide)
    · exact absurd (pass.symm.trans h) (by decide)
    · simp only [Bool.false_eq_true, if_false, planes, and_self]
  | true =>
    cases ticks : ticking s with
    | true =>
      refine ⟨fun _ _ => ?_, fun _ h => absurd (ticks.symm.trans h) (by decide), fun h => absurd (pass.symm.trans h) (by decide)⟩
      simp only [if_true, arr_modArr_same, planes, and_self]
    | false =>
      refine ⟨fun _ h => absurd (ticks.symm.trans h) (by decide), fun _ _ => ?_, fun h => absurd (pass.symm.trans h) (by decide)⟩
      obtain ⟨y, arr, trims, sigma, -⟩ := arr_applyBoot (referencePlanes s f a) f a r (sampleOf s f)
      simp only [if_true, Bool.false_eq_true, if_false, arr]
      exact ⟨trims, sigma⟩

theorem calibrateArray_arrayOnly (s : State) (f a : Nat) (r : CalResult) : ArrayOnly f a s (calibrateArray s f a r) := by
  have planes := referencePlanes_arrayOnly s f a
  rw [calibrateArray_eq]
  split
  · split
    · exact planes.modArr _
    · exact planes.trans (applyBoot_arrayOnly ..)
  · exact planes

theorem calibrateArray_places {a : Nat} (h : a < 16) (s : State) (f : Nat) (r : CalResult) :
    OnlyPlaces calPlaces s (calibrateArray s f a r) := by
  have planes := referencePlanes_places s f a
  rw [calibrateArray_eq]
  exact .ite (.ite (planes.via (modArr_via ..) rfl) (planes.trans (applyBoot_places h ..))) planes

end Sys2Proof.Machine
end

section
/-! SUPPORT. The boot calibration of a fold (R61, R69) and the calibration sets that become trims (R59, R68, R375). -/

namespace Sys2Proof.Machine

open Sys2Proof

/-- A loop over distinct items works once on each: a piece `v` of the state that only the step of `x` changes goes into that step as it was,
and stays as the step leaves it. -/
theorem forEach_once {α β : Type} {I : State → Prop} {v : State → β} {g : State → α → State} {xs : List α} (distinct : xs.Nodup) {x : α}
    (hx : x ∈ xs) (keep : ∀ u, ∀ y ∈ xs, I u → I (g u y)) (other : ∀ u, ∀ y ∈ xs, y ≠ x → v (g u y) = v u) {s : State} (h : I s) :
    ∃ u, I u ∧ v u = v s ∧ v (forEach s xs g) = v (g u x) := by
  induction xs generalizing s with
  | nil => cases hx
  | cons y ys ih =>
    obtain ⟨fresh, rest⟩ := List.nodup_cons.mp distinct
    rcases List.mem_cons.mp hx with e | hx
    · refine ⟨s, h, rfl, ?_⟩
      rw [e]
      exact forEach_keeps (I := fun u => v u = v (g s y)) (fun u z hz hu =>
        (other u z (List.mem_cons_of_mem _ hz) fun he => fresh (e ▸ he ▸ hz)).trans hu) rfl
    · obtain ⟨u, hu, same, last⟩ := ih rest hx (fun u z hz => keep u z (List.mem_cons_of_mem _ hz))
        (fun u z hz => other u z (List.mem_cons_of_mem _ hz)) (keep s y List.mem_cons_self h)
      exact ⟨u, hu, same.trans (other s y List.mem_cons_self fun e => fresh (e ▸ hx)), last⟩

/-! ## All arrays of a fold -/

/-- What the calibration of arrays of fold `f` leaves. -/
structure BootFrame (f : Nat) (s u : State) : Prop where
  /-- the other folds -/
  folds : OnlyFolds [f] s u
  /-- the fold but for its arrays -/
  rest : (getFold u f).offArrays = (getFold s f).offArrays
  /-- the registers but for the calibration words -/
  places : OnlyPlaces calPlaces s u
  /-- the other pieces of the state -/
  pieces : Via [.free, .regs, .folds] s u

namespace BootFrame

variable {f : Nat} {s u : State}

theorem refl (f : Nat) (s : State) : BootFrame f s s := ⟨.refl _ s, rfl, .refl _ s, .refl _ s⟩

theorem calibrateArray (h : BootFrame f s u) {a : Nat} (ha : a < 16) (r : CalResult) : BootFrame f s (calibrateArray u f a r) := by
  obtain ⟨folds, -, rest⟩ := calibrateArray_arrayOnly u f a r
  exact ⟨h.folds.trans folds, rest.trans h.rest, h.places.trans (calibrateArray_places ha u f r), .step (calibrateArray_via ..) rfl h.pieces⟩

variable (h : BootFrame f s u)
include h

/-- The limits of an array's results are the same while its trims are (R57, R69). -/
theorem calPasses {a : Nat} (arr : (getFold u f).arr a = (getFold s f).arr a) (r : CalResult) :
    calPasses u f a r = calPasses s f a r := by
  have atBoot : (getFold u f).calBoot = (getFold s f).calBoot := (congrArg Fold.calBoot h.rest :)
  have boot : u.boot = s.boot := h.pieces.piece (p := .boot) rfl
  simp only [Machine.calPasses, calReference, atBoot, boot, arr]

theorem calibrated {a : Nat} {r : CalResult} {y : Arr} (arr : (getFold u f).arr a = (getFold s f).arr a) (k : Calibrated u f a r y) :
    Calibrated s f a r y := by
  obtain ⟨waits, applies, keeps⟩ := k
  rw [h.calPasses arr, h.places.ticking, h.places.sampleOf, arr] at waits
  rw [h.calPasses arr, h.places.ticking] at applies
  rw [h.calPasses arr, arr] at keeps
  exact ⟨waits, applies, keeps⟩

end BootFrame

/-- The results of array `a` in those of a fold's boot calibration. -/
def resultOf (rs : List CalResult) (a : Nat) : CalResult := rs.getD a ⟨[], [], [], 0, [], []⟩

/-- The state in which each array of a fold has taken its results. -/
def arraysCalibrated (s : State) (f : Nat) (rs : List CalResult) : State :=
  forEach s (List.range 16) fun u a => calibrateArray u f a (resultOf rs a)

theorem arraysCalibrated_frame (s : State) (f : Nat) (rs : List CalResult) : BootFrame f s (arraysCalibrated s f rs) :=
  forEach_keeps (I := BootFrame f s) (fun _ _ ha h => h.calibrateArray (List.mem_range.mp ha) _) (.refl f s)

theorem arraysCalibrated_calibrated (s : State) (f : Nat) (rs : List CalResult) {a : Nat} (h : a < 16) :
    Calibrated s f a (resultOf rs a) ((getFold (arraysCalibrated s f rs) f).arr a) := by
  obtain ⟨u, frame, before, after⟩ := forEach_once (I := BootFrame f s) (v := fun u => (getFold u f).arr a)
    (g := fun u a => calibrateArray u f a (resultOf rs a)) List.nodup_range (List.mem_range.mpr h)
    (fun _ _ ha h => h.calibrateArray (List.mem_range.mp ha) _)
    (fun u b _ hb => (calibrateArray_arrayOnly u f b _).other a fun e => hb e.symm) (.refl f s)
  rw [arraysCalibrated, after]
  exact frame.calibrated before (calibrateArray_calibrated ..)

/-- The state in which no calibration of the fold is due any more. -/
def bootOver (s : State) (f : Nat) (rs : List CalResult) : State :=
  let t := modFold (arraysCalibrated s f rs) f fun x => { x with calDue := false, calBoot := false }
  t.setCare { t.care with calib := t.care.calib.filter (· != f) }

theorem getFold_bootOver (s : State) (f : Nat) (rs : List CalResult) :
    getFold (bootOver s f rs) f = { getFold (arraysCalibrated s f rs) f with calDue := false, calBoot := false } := by
  rw [bootOver, (setCare_via ..).getFold rfl, getFold_modFold_same]

theorem bootOver_folds (s : State) (f : Nat) (rs : List CalResult) : OnlyFolds [f] s (bootOver s f rs) :=
  ((arraysCalibrated_frame s f rs).folds.modFold f _ List.mem_cons_self).via (setCare_via ..) rfl

theorem bootOver_places (s : State) (f : Nat) (rs : List CalResult) : OnlyPlaces calPlaces s (bootOver s f rs) :=
  .via (.via (arraysCalibrated_frame s f rs).places (modFold_via ..) rfl) (setCare_via ..) rfl

theorem bootOver_via (s : State) (f : Nat) (rs : List CalResult) : Via [.free, .regs, .folds, .care] s (bootOver s f rs) :=
  .step (setCare_via ..) rfl (.step (modFold_via ..) rfl ((arraysCalibrated_frame s f rs).pieces.mono rfl))

/-- Every array keeps within the limits of its reference (R57, R69). -/
def allPass (s : State) (f : Nat) (rs : List CalResult) : Bool := (List.range 16).all fun a => calPasses s f a (resultOf rs a)

theorem allPass_iff (s : State) (f : Nat) (rs : List CalResult) :
    allPass s f rs = true ↔ ∀ a, a < 16 → calPasses s f a (resultOf rs a) = true := by
  simp only [allPass, List.all_eq_true, List.mem_range]

/-- How a boot calibration ends: a fold with a failed array is reported, and a spare that waited for it is a spare again (R61, R69). -/
def bootEnded (s : State) (f : Nat) (rs : List CalResult) : State :=
  if allPass s f rs then if s.care.calib.contains f then setRole (bootOver s f rs) f roleSpare none else bootOver s f rs
  else calFailed (bootOver s f rs) f

theorem answers_bootCalibration {s : State} {f : Fin 68} {rs : List CalResult} {P : State → Prop} (waits : calWaits s f = true)
    (sample : hasSample s f = true) (role : roleOf s f ≠ roleRetired) (h : P (bootEnded s f rs)) : Answers (.bootCalibration f rs) s P := by
  have care : (modFold (arraysCalibrated s f rs) f fun x => { x with calDue := false, calBoot := false }).care = s.care :=
    (Via.step (modFold_via ..) rfl (arraysCalibrated_frame s f rs).pieces).piece (p := .care) rfl
  refine ⟨_, ?_, h⟩
  show execBootCalibration f rs s = _
  have start : (calWaits s f && hasSample s f && roleOf s f != roleRetired) = true := by
    simp only [waits, sample, Bool.true_and, bne_iff_ne]
    exact role
  have calibrated : calibrateFold s f rs = (allPass s f rs, modFold (arraysCalibrated s f rs) f fun x => { x with calDue := false, calBoot := false }) := by
    simp only [calibrateFold, allPass, arraysCalibrated, resultOf]
  simp only [execBootCalibration, start, calibrated, bootEnded, bootOver, care, if_true]
  cases allPass s f rs
  · simp only [Bool.not_false, if_true, Bool.false_eq_true, if_false]
  · simp only [Bool.not_true, if_true, Bool.false_eq_true, if_false]

theorem setRole_marks (s : State) (f role : Nat) (slot : Option Nat) : MarksOnly s (setRole s f role slot) :=
  .via (.refl s) (setRole_via ..) rfl

theorem calFailed_marks (s : State) (f : Nat) : MarksOnly s (calFailed s f) := by
  unfold calFailed
  split
  · exact takeSpare_marks ..
  · exact .via (.refl s) (quarantine_via ..) rfl

theorem bootEnded_marks (s : State) (f : Nat) (rs : List CalResult) : MarksOnly (bootOver s f rs) (bootEnded s f rs) :=
  .ite (.ite (setRole_marks ..) (.refl _)) (calFailed_marks ..)

theorem bootEnded_via (s : State) (f : Nat) (rs : List CalResult) : Via [.free, .regs, .folds, .flocks, .care] s (bootEnded s f rs) := by
  have ended := (bootOver_via s f rs).mono (ps := [.free, .regs, .folds, .flocks, .care]) rfl
  exact .ite (.ite (.step (setRole_via ..) rfl ended) ended) (.step (calFailed_via ..) rfl ended)

/-- When every array passes, the other folds stay, and so do the flocks. -/
theorem bootEnded_allPass {s : State} {f : Nat} {rs : List CalResult} (h : allPass s f rs = true) :
    OnlyFolds [f] s (bootEnded s f rs) ∧ Via [.free, .regs, .folds, .care] s (bootEnded s f rs) := by
  have ended := bootOver_folds s f rs
  rw [bootEnded, if_pos h]
  split
  · exact ⟨ended.via (setRole_via ..) rfl, .step (setRole_via ..) rfl (bootOver_via s f rs)⟩
  · exact ⟨ended, bootOver_via s f rs⟩

/-! ## A fold with a failed array (R69, R388) -/

/-- The register fields that show a fold's role, but for the role itself (R389). -/
def slotFields : List (Field × Nat) :=
  [(F.FOLD_ROLE_SLOT, 0), (F.FOLD_ROLE_SLOTV, 0), (F.HEFT_SPARE_CD0_FOLD1, 0), (F.HEFT_SPARE_CD0_VALID1, 0), (F.HEFT_SPARE_CD0_FOLD2, 0),
    (F.HEFT_SPARE_CD0_VALID2, 0), (F.HEFT_SPARE_CD1_FOLD1, 0), (F.HEFT_SPARE_CD1_VALID1, 0), (F.HEFT_SPARE_CD1_FOLD2, 0),
    (F.HEFT_SPARE_CD1_VALID2, 0)]

theorem showSpares_places (s : State) : OnlyPlaces (placesOf slotFields) s (showSpares s) :=
  ((((((((OnlyPlaces.refl _ s).wr0 (by decide) ..).wr0 (by decide) ..).wr0 (by decide) ..).wr0 (by decide) ..).wr0 (by decide) ..).wr0
    (by decide) ..).wr0 (by decide) ..).wr0 (by decide) ..

theorem setRole_places (s : State) (f role : Nat) (slot : Option Nat) :
    OnlyPlaces (placesOf slotFields) (wr0 s (foldPg f) F.FOLD_ROLE_ROLE role) (setRole s f role slot) :=
  (((OnlyPlaces.refl _ _).wr0 (by decide) ..).wr0 (by decide) ..).trans (showSpares_places ..)

theorem roleOf_setRole (s : State) (f role : Nat) (slot : Option Nat) : roleOf (setRole s f role slot) f = role % 8 := by
  rw [roleOf, (setRole_places ..).field _ _ _ (by decide), wr0, rd_wr]
  rfl

/-- A quarantined fold is retired when it was quarantined before (R388). -/
theorem roleOf_quarantine (s : State) (f : Nat) :
    roleOf (quarantine s f) f = if rd s (foldPg f) F.FOLD_ROLE_QUAR = 1 then roleRetired else roleQuarantined := by
  unfold quarantine
  split
  · exact roleOf_setRole ..
  · exact roleOf_setRole ..

theorem roleOf_bootEnded {s : State} {f : Nat} {rs : List CalResult} (h : allPass s f rs = false) (slot : slotOfFold s f = none) :
    roleOf (bootEnded s f rs) f = if rd s (foldPg f) F.FOLD_ROLE_QUAR = 1 then roleRetired else roleQuarantined := by
  have places := bootOver_places s f rs
  rw [bootEnded, h, if_neg Bool.false_ne_true, calFailed, places.slotOfFold, slot, roleOf_quarantine,
    places.field _ F.FOLD_ROLE_QUAR 0 (by rw [calPlaces_iff]; decide)]

/-! ## The claim -/

/-- Every array of the fold has taken its results, also where its failure is reported. -/
theorem bootEnded_calibrated (s : State) (f : Nat) (rs : List CalResult) {a : Nat} (h : a < 16) :
    Calibrated s f a (resultOf rs a) ((getFold (bootEnded s f rs) f).arr a) := by
  have off : ∀ x : Fold, ({ x with calDue := false, calBoot := false } : Fold).arr a = x.arr a := fun _ => rfl
  rw [(bootEnded_marks s f rs).arr, getFold_bootOver, off]
  exact arraysCalibrated_calibrated s f rs h

/-- Settles O26: the set of a window and the results of a boot calibration each become the trims of their array, unless its limits or the
hardware check refuse them; the loop of a boot calibration works once on each array (`forEach_once`). -/
theorem calibrationSetsApply : Obligations.CalibrationSetsApply := by
  unfold Obligations.CalibrationSetsApply
  refine ⟨fun s f a w k hw hk hdue role => ⟨fun bad => ?refused, fun ok => ?applies⟩, fun s f rs waits sample role => ?boot,
    fun s f a r x _ pend => ?boundary⟩
  case refused =>
    have error : Via [.regs, .views, .log] (discardWindow s f a) _ := accessError_via _ (foldPg f) 0 (.core 0) 2 a
    refine answers_calApply_refused (dueTrims_of_window hw hk hdue) role bad ?_
    rw [error.getFold rfl, arr_discardWindow]
    exact ⟨rfl, rfl, rfl, errSum_accessError .., (discardWindow_onlyFolds s f a).via error rfl,
      (Via.step error rfl ((discardWindow_via ..).mono rfl)).same⟩
  case applies =>
    obtain ⟨y, arr, trims, sound, broken⟩ := arr_calApplied s f a k
    obtain ⟨folds, other, -⟩ := calApplied_arrayOnly s f a k
    refine answers_calApply (dueTrims_of_window hw hk hdue) role ok ?_
    rw [arr]
    exact ⟨trims, sound, broken, stale_calApplied .., tref_calApplied a.isLt .., other, folds, (calApplied_via ..).same⟩
  case boot =>
    have marks := bootEnded_marks s f rs
    have calibrated := fun a ha => bootEnded_calibrated s f rs (a := a) ha
    refine answers_bootCalibration waits sample role ⟨fun a ha => (calibrated a ha).waits, fun a ha => (calibrated a ha).applies,
      fun a ha => (calibrated a ha).keeps, ?_, ?_, fun pass => ?_, fun ⟨a, ha, fails⟩ slot => ?_, (bootEnded_via s f rs).same⟩
    · rw [marks.calDue, getFold_bootOver]
    · rw [marks.tiles, getFold_bootOver]
      exact (congrArg Fold.tiles (arraysCalibrated_frame s f rs).rest :)
    · obtain ⟨folds, pieces⟩ := bootEnded_allPass ((allPass_iff s f rs).mpr pass)
      exact ⟨folds, pieces.same⟩
    · refine roleOf_bootEnded (Bool.eq_false_iff.mpr fun pass => ?_) slot
      exact absurd ((allPass_iff s f rs).mp pass a ha) (Bool.eq_false_iff.mp fails)
  case boundary =>
    obtain ⟨y, arr, trims, sigma, gone⟩ := arr_applyBoot s f a r x
    obtain ⟨folds, other, -⟩ := applyBoot_arrayOnly s f a r x
    dsimp only
    rw [boundaryBoot_of_pend pend, arr]
    exact ⟨trims, sigma, gone, other, folds, ((applyBoot_via ..).mono rfl).same⟩

end Sys2Proof.Machine
end

section
/-! SUPPORT. What a suspect writes in the registers, and conversions that latch and deliver (R32 to R36, R46 to R49, R56, R119, R376 to R378). -/

namespace Sys2Proof.Machine

open Sys2Proof

/-! ## The registers that a suspect writes (R376 to R378, R389, R400, R401) -/

/-- The register fields that a suspect on a fold can write, with those of the Collie test that raised it. -/
def suspectFields : List (Field × Nat) := slotFields ++
  [(F.FOLD_ROLE_ROLE, 0), (F.FOLD_ROLE_QUAR, 0), (F.ROT_STATE_CD0, 0), (F.ROT_STATE_FOLD0, 0), (F.ROT_STATE_CD1, 0), (F.ROT_STATE_FOLD1, 0),
    (F.SLOT_FAILED_LO, 0), (F.SLOT_FAILED_HI, 0), (F.ROT_ABANDON, 0), (F.SUSPECT_SAME_HW, 0), (F.SUSPECT_CNT, 0), (F.STEP_FAULT_CNT, 0),
    (F.STEP_FAULT_INFO_CAUSE, 0), (F.STEP_FAULT_INFO_FLOCK, 0), (F.STEP_FAULT_INFO_POS, 0), (F.STEP_FAULT_INFO_TALLY, 0),
    (F.COLLIE_FAIL_CNT, 0), (F.COLLIE_LAST_ARRAY, 0), (F.COLLIE_LAST_KIND, 0), (F.COLLIE_LAST_ROW, 0), (F.COLLIE_LAST_VALUE, 0),
    (F.STATUS_SAT, 0)]

/-- From `s` to `t` no register field changes but those that a suspect can write. -/
abbrev SuspectFields (s t : State) : Prop := OnlyPlaces (placesOf suspectFields) s t

theorem setRole_suspect (s : State) (f role : Nat) (slot : Option Nat) : SuspectFields s (setRole s f role slot) := by
  refine ((OnlyPlaces.refl _ s).wr0 (by decide) ..).trans ((setRole_places s f role slot).mono fun p hp => ?_)
  rw [placesOf, suspectFields, List.map_append]
  exact List.mem_append_left _ hp

theorem quarantine_suspect (s : State) (f : Nat) : SuspectFields s (quarantine s f) :=
  .ite (setRole_suspect ..) (((OnlyPlaces.refl _ s).wr0 (by decide) ..).trans (setRole_suspect ..))

theorem setRot_suspect (s : State) (die st f : Nat) : SuspectFields s (setRot s die st f) :=
  .ite (((OnlyPlaces.refl _ s).wr0 (by decide) ..).wr0 (by decide) ..) (((OnlyPlaces.refl _ s).wr0 (by decide) ..).wr0 (by decide) ..)

theorem failSlot_suspect (s : State) (k : Nat) : SuspectFields s (failSlot s k) :=
  .forEach (fun u q => .ite (.via (.refl _ u) (putFlock_via ..) rfl) (.refl _ u))
    (.ite ((OnlyPlaces.refl _ s).wrBit (by decide) ..) ((OnlyPlaces.refl _ s).wrBit (by decide) ..))

theorem startFill_suspect (s : State) (sp f k why : Nat) : SuspectFields s (startFill s sp f k why) :=
  .trans (.via (.refl _ s) (setCare_via ..) rfl) (setRole_suspect ..)

theorem dropFill_suspect (s : State) (sp : Nat) : SuspectFields s (dropFill s sp) := .via (.refl _ s) (dropFill_via ..) rfl

theorem abandonFill_suspect (s : State) (x : Fill) : SuspectFields s (abandonFill s x) :=
  (((OnlyPlaces.refl _ s).bump (by decide) (by decide) ..).trans (dropFill_suspect ..)).trans (setRot_suspect ..)

theorem noSpare_suspect (s : State) (f k : Nat) : SuspectFields s (noSpare s f k) :=
  .ite ((quarantine_suspect s f).trans (failSlot_suspect ..))
    (.via ((OnlyPlaces.refl _ s).bump (by decide) (by decide) ..) (modFold_via ..) rfl)

theorem nextSpare_suspect (s : State) (die : Nat) : SuspectFields s (nextSpare s die).2 := by
  unfold nextSpare
  split
  · exact .refl _ s
  · split
    · exact abandonFill_suspect ..
    · exact .refl _ s

theorem orderSpares_suspect (s : State) (f : Nat) : SuspectFields s (orderSpares s f) :=
  .forEach (fun u _ => .ite (.refl _ u) (.trans (.via (.refl _ u) (setCare_via ..) rfl) (setRole_suspect ..))) (.refl _ s)

theorem takeSpare_suspect (s : State) (f k why : Nat) : SuspectFields s (takeSpare s f k why) := by
  unfold takeSpare
  refine .ite (.via (.refl _ s) (setCare_via ..) rfl) ?_
  have freed : SuspectFields s (forEach (nextSpare s (dieOf f)).2 ((nextSpare s (dieOf f)).2.care.fills.filter fun x => x.slot == k)
      fun s x => setRole (abandonFill s x) x.spare roleSpare none) :=
    .forEach (fun u x => (abandonFill_suspect u x).trans (setRole_suspect ..)) (nextSpare_suspect ..)
  have filled : ∀ {u : State} sp g j, SuspectFields s u → SuspectFields s (orderSpares (startFill u sp g j why) f) := fun sp g j hu =>
    (hu.trans (startFill_suspect ..)).trans (orderSpares_suspect ..)
  dsimp only
  split
  · exact filled _ _ _ freed
  · split
    · exact filled _ _ _ ((freed.trans (dropFill_suspect ..)).trans (noSpare_suspect ..))
    · exact freed.trans (noSpare_suspect ..)

theorem locate_suspect (s : State) (f : Nat) : SuspectFields s (locate s f) := by
  unfold locate
  split
  · exact .refl _ s
  · exact .ite (.refl _ s) (.trans (.via (.refl _ s) (setCare_via ..) rfl) (takeSpare_suspect ..))

theorem stepFault_suspect (s : State) (k cause : Nat) : SuspectFields s (stepFault s k cause) :=
  .ite (((((OnlyPlaces.via (.refl _ s) (putFlock_via ..) rfl).bump (by decide) (by decide) ..).wr0 (by decide) ..).wr0 (by decide) ..).wr0
    (by decide) .. |>.wr0 (by decide) ..) (.refl _ s)

theorem raiseSuspect_suspect (s : State) (f : Nat) : SuspectFields s (raiseSuspect s f) := by
  have counted : SuspectFields s (bump s (foldPg f) F.SUSPECT_CNT) := (OnlyPlaces.refl _ s).bump (by decide) (by decide) ..
  unfold raiseSuspect markSuspect foldStepFault
  split
  · exact counted.trans (stepFault_suspect ..)
  · exact counted

theorem repeatDispute_suspect (s : State) (f : Nat) (same : Dispute → Bool) : SuspectFields s (repeatDispute s f same) := by
  have noted : ∀ x : Care, SuspectFields s (s.setCare x) := fun x => .via (.refl _ s) (setCare_via ..) rfl
  exact .ite ((noted _).trans (locate_suspect ..)) (noted _)

theorem collieFail_suspect (s : State) (f a kind row value : Nat) : SuspectFields s (collieFail s f a kind row value) :=
  (((((OnlyPlaces.refl _ s).bump (by decide) (by decide) ..).wr0 (by decide) ..).wr0 (by decide) ..).wr0 (by decide) ..).wr0 (by decide) ..

/-- The instant test counts the conversion as checked, and may raise a suspect (R370, R372). -/
theorem instantTest_suspect (s : State) (f a bundle iter : Nat) (d : ConvData) (q : Rat) :
    SuspectFields (bump s (foldPg f) F.COLLIE_CHK_CNT) (instantTest s f a bundle iter d q) := by
  refine .ite (.refl _ _) ?_
  have raised := (collieFail_suspect (bump s (foldPg f) F.COLLIE_CHK_CNT) f a 1 0 (ceilN (absR q))).trans (raiseSuspect_suspect _ f)
  exact .ite (raised.trans (repeatDispute_suspect ..)) (raised.via (addDispute_via ..) rfl)

/-- The instant test counts one more checked conversion. -/
theorem chkCnt_instantTest {s : State} {f : Nat} (h : rd s (foldPg f) F.COLLIE_CHK_CNT < 2 ^ 32 - 2) (a bundle iter : Nat) (d : ConvData)
    (q : Rat) : rd (instantTest s f a bundle iter d q) (foldPg f) F.COLLIE_CHK_CNT = rd s (foldPg f) F.COLLIE_CHK_CNT + 1 := by
  rw [(instantTest_suspect s f a bundle iter d q).field _ _ _ (by decide)]
  exact rd_bumpI s _ _ 0 1 rfl (by omega)

/-! ## The latch (R32 to R34, R46, R49, R119) -/

theorem getD_map_cols {α : Type} (h : Nat → α) (d : α) {c : Nat} (hc : c < 256) : (cols.map h).getD c d = h c := by
  rw [cols, List.getD_eq_getElem?_getD, List.getElem?_map, List.getElem?_range hc]
  rfl

/-- A converter has 128 codes (R46). -/
theorem converterCode_le (v : Rat) : converterCode v ≤ 127 := by
  unfold converterCode clamp
  omega

theorem columnCode_le (v : Int) (free : Rat) (o : Int) (g : Nat) (delta nominal eps : Rat) (fails : Bool) :
    columnCode v free o g delta nominal eps fails ≤ 127 := by
  unfold columnCode
  dsimp only
  split
  · exact converterCode_le _
  · exact converterCode_le _

/-- The data that a conversion takes at its latch. -/
def latchDataOf (s : State) (f : Nat) (k : Conv) : ConvData :=
  let vals := (if k.op.masked then [] else spanCodes s f k.op.base k.op.n).map bf16Value
  latchData s f k.op vals (actSpan vals k.op)

/-- A conversion takes the exact column sums of what it drives over the active plane (R32, R33). -/
theorem exact_latchData {o : ConvOp} (h : o.mode ≠ 2) (s : State) (f : Nat) (vals : List Rat) (sp : ActSpan) {c : Nat} (hc : c < 256) :
    (latchData s f o vals sp).exact.getD c 0 = sumZ ((List.range (latchData s f o vals sp).drive.length).map fun r =>
      (latchData s f o vals sp).drive.getD r 0 * getD 0 ((getFold s f).arr o.array).active.cells (256 * r + c)) := by
  rw [latchData]
  dsimp only
  rw [getD_map_cols _ _ hc, if_neg h]

/-- A reference conversion takes the sums over the staging copy of the plane (R119). -/
theorem exact_latchData_reference {o : ConvOp} (h : o.mode = 2) (s : State) (f : Nat) (vals : List Rat) (sp : ActSpan) {c : Nat}
    (hc : c < 256) : (latchData s f o vals sp).exact.getD c 0 =
      stagedColumn s f (latchData s f o vals sp).drive (latchData s f o vals sp).origins (latchData s f o vals sp).kinds
        (fun r => getD 0 ((getFold s f).arr o.array).active.cells (256 * r + c)) c := by
  rw [latchData]
  dsimp only
  rw [getD_map_cols _ _ hc, if_pos h]

theorem codes_latchData_le (s : State) (f : Nat) (o : ConvOp) (vals : List Rat) (sp : ActSpan) {c : Nat} (hc : c < 256) :
    (latchData s f o vals sp).codes.getD c 0 ≤ 127 := by
  rw [latchData]
  dsimp only
  rw [getD_map_cols _ _ hc]
  exact columnCode_le ..

/-- The estimates are the codes under the trims (R49). -/
theorem est_latchData (s : State) (f : Nat) (o : ConvOp) (vals : List Rat) (sp : ActSpan) {c : Nat} (hc : c < 256) :
    (latchData s f o vals sp).est.getD c 0 = estimateOf ((latchData s f o vals sp).codes.getD c 64) ((latchData s f o vals sp).o.getD c 0)
      ((latchData s f o vals sp).g.getD c 16384) (latchData s f o vals sp).delta := by
  rw [latchData]
  dsimp only
  rw [getD_map_cols _ _ hc]

theorem drive_latchData_masked {o : ConvOp} (h : o.masked = true) (s : State) (f : Nat) (vals : List Rat) (sp : ActSpan) :
    (latchData s f o vals sp).drive = [] := by
  rw [latchData]
  dsimp only
  rw [if_pos h]

/-- The state in which the conversion holds its data. -/
def latched (s : State) (f a : Nat) (k : Conv) : State :=
  modFold (s.setFree (s.free + 256)) f fun x => { x with
    convs := setConv (fun q => q.op.array == a && q.data.isNone) (fun q => { q with data := some (latchDataOf s f k) }) x.convs
    spent := if k.op.mode = 2 then x.spent else { x.spent with convs := x.spent.convs + 1 } }

/-- After that, the span's counters and pause and the ramp of the array currents do not name the folds (R85, R93, R97). -/
theorem latchConv_via_latched (s : State) (f a : Nat) (k : Conv) : Via [.regs, .views, .log, .pause] (latched s f a k) (latchConv s f a k) := by
  have spilled := fun n sp => spillEffects_via (latched s f a k) f k.op n sp
  unfold latchConv
  exact .ite (spilled _ _) (.step (rampDemand_via ..) rfl (spilled _ _))

theorem answers_convLatch {s : State} {f : Fin 68} {a : Fin 16} {k : Conv} {P : State → Prop} (next : nextLatch (getFold s f) a = some k)
    (may : mayLatch s f k = true) (h : P (latchConv s f a k)) : Answers (.convLatch f a) s P := by
  refine ⟨_, ?_, h⟩
  show execConvLatch f a s = _
  simp only [execConvLatch, next, may, if_true]

theorem array_of_nextLatch {x : Fold} {a : Nat} {k : Conv} (next : nextLatch x a = some k) : k.op.array = a := by
  have found := List.find?_some next
  simp only [Bool.and_eq_true, beq_iff_eq] at found
  exact found.1

/-! ## The delivery (R35, R47) -/

/-- The state in which the conversion has delivered. -/
def delivered (s : State) (f a : Nat) : State := modFold s f fun x => { x with
  convs := setConv (fun q => q.op.array == a && q.data.isSome && !q.delivered) (fun q => { q with delivered := true }) x.convs }

theorem deliver_masked {k : Conv} (h : k.op.masked = true) (s : State) (f a : Nat) (d : ConvData) :
    deliver s f a k d = bump (delivered s f a) (foldPg f) F.COLLIE_SKIP_CNT := by
  rw [deliver]
  dsimp only
  rw [if_pos h, delivered]

theorem deliver_reference {k : Conv} (h : k.op.masked = false) (ref : k.op.mode = 2) (s : State) (f a : Nat) (d : ConvData) :
    deliver s f a k d = bump (bump (delivered s f a) (foldPg f) F.REF_CONV_CNT) (foldPg f) F.COLLIE_SKIP_CNT := by
  rw [deliver]
  dsimp only
  rw [h, if_neg Bool.false_ne_true, if_pos ref, delivered]

/-- What the checker and the audit do with a conversion that has delivered: its fold keeps its conversions, and of the registers change
those of the checker (R369 to R373). -/
structure Checked (f : Nat) (s t : State) : Prop where
  /-- the conversions of the fold -/
  convs : (getFold t f).convs = (getFold s f).convs
  /-- the registers -/
  places : OnlyPlaces (placesOf ((F.COLLIE_CHK_CNT, 0) :: (F.COLLIE_SKIP_CNT, 0) :: suspectFields)) s t

namespace Checked

variable {f : Nat} {r s t : State}

theorem refl (f : Nat) (s : State) : Checked f s s := ⟨rfl, .refl _ s⟩

theorem trans (h : Checked f r s) (k : Checked f s t) : Checked f r t := ⟨k.convs.trans h.convs, h.places.trans k.places⟩

theorem ite {a b : State} {c : Prop} [Decidable c] (h : Checked f r a) (k : Checked f r b) : Checked f r (if c then a else b) := by
  split
  · exact h
  · exact k

theorem modArr (h : Checked f r s) (a : Nat) (g : Arr → Arr) : Checked f r (modArr s f a g) :=
  h.trans ⟨by rw [getFold_modArr_same]; rfl, .via (.refl _ s) (modArr_via ..) rfl⟩

theorem skip (h : Checked f r s) : Checked f r (bump s (foldPg f) F.COLLIE_SKIP_CNT) :=
  h.trans ⟨by rw [getFold_bump], (OnlyPlaces.refl _ s).bump (by decide) (by decide) ..⟩

theorem instantTest (h : Checked f r s) (a bundle iter : Nat) (d : ConvData) (q : Rat) : Checked f r (instantTest s f a bundle iter d q) :=
  h.trans ⟨(instantTest_marks ..).convs f, ((OnlyPlaces.refl _ s).bump (by decide) (by decide) ..).trans
    ((instantTest_suspect ..).mono fun _ hp => List.mem_cons_of_mem _ (List.mem_cons_of_mem _ hp))⟩

end Checked

/-- The state in which the conversion has delivered and its clipped columns count (R47, R48). -/
def clipsCounted (s : State) (f a : Nat) (k : Conv) (d : ConvData) : State :=
  modFold (bumpI (delivered s f a) (foldPg f) F.ARR_CLIP a (d.codes.filter isClip).length) f fun x => { x with
    layerN := modD 0 x.layerN k.op.layer (· + 256), layerC := modD 0 x.layerC k.op.layer (· + (d.codes.filter isClip).length) }

/-- A conversion that is neither masked nor a reference one goes to the audit and to the checker. -/
theorem deliver_checked {k : Conv} (h : k.op.masked = false) (product : k.op.mode ≠ 2) (s : State) (f a : Nat) (d : ConvData) :
    Checked f (clipsCounted s f a k d) (deliver s f a k d) := by
  have audited : Checked f (clipsCounted s f a k d) (if auditable (clipsCounted s f a k d) f k.op (d.codes.filter isClip).length then
      modArr (clipsCounted s f a k d) f a fun y => if y.audit.isNone then { y with audit := some { k with delivered := true } } else y
      else clipsCounted s f a k d) := .ite ((Checked.refl f _).modArr ..) (.refl f _)
  have tested := fun q => (audited.instantTest a k.op.bundle k.op.iter d q).modArr a fun y =>
    if y.blk.n < 8192 then { y with blk := gatherBlock y.blk d q } else y
  rw [deliver, h, if_neg Bool.false_ne_true, if_neg product]
  exact .ite (.ite ((tested _).modArr ..) (tested _)) audited.skip

theorem arrClip_places : ∀ a : Fin 16, ¬ placesOf ((F.COLLIE_CHK_CNT, 0) :: (F.COLLIE_SKIP_CNT, 0) :: suspectFields) (place F.ARR_CLIP a) := by
  decide

theorem convs_delivered (s : State) (f a : Nat) : (getFold (delivered s f a) f).convs =
    setConv (fun q => q.op.array == a && q.data.isSome && !q.delivered) (fun q => { q with delivered := true }) (getFold s f).convs := by
  rw [delivered, getFold_modFold_same]

theorem convs_clipsCounted (s : State) (f a : Nat) (k : Conv) (d : ConvData) :
    (getFold (clipsCounted s f a k d) f).convs = (getFold (delivered s f a) f).convs := by
  rw [clipsCounted, getFold_modFold_same, getFold_bumpI]

/-- Every delivery marks the conversion, and leaves the others of its fold. -/
theorem convs_deliver (s : State) (f a : Nat) (k : Conv) (d : ConvData) :
    (getFold (deliver s f a k d) f).convs = (getFold (delivered s f a) f).convs := by
  cases masked : k.op.masked with
  | true => rw [deliver_masked masked, getFold_bump]
  | false =>
    by_cases ref : k.op.mode = 2
    · rw [deliver_reference masked ref, getFold_bump, getFold_bump]
    · rw [(deliver_checked masked ref s f a d).convs, convs_clipsCounted]

/-- The clipped columns of a checked conversion count for its array. -/
theorem arrClip_deliver {s : State} {f : Nat} {a : Fin 16} {k : Conv} {d : ConvData} (masked : k.op.masked = false) (product : k.op.mode ≠ 2)
    (h : rd s (foldPg f) F.ARR_CLIP a + (d.codes.filter isClip).length < 2 ^ 32 - 1) :
    rd (deliver s f a k d) (foldPg f) F.ARR_CLIP a = rd s (foldPg f) F.ARR_CLIP a + (d.codes.filter isClip).length := by
  rw [(deliver_checked masked product s f a d).places.field _ _ _ (arrClip_places a), clipsCounted, rd_modFold]
  exact rd_bumpI (delivered s f a) _ _ a _ rfl h

theorem delivered_onlyFolds (s : State) (f a : Nat) : OnlyFolds [f] s (delivered s f a) := .modFold f _ (.refl _ s) List.mem_cons_self

theorem delivered_via (s : State) (f a : Nat) : Via [.folds] s (delivered s f a) := modFold_via ..

theorem rd_delivered (s : State) (f a pg : Nat) (g : Field) (i : Nat) : rd (delivered s f a) pg g i = rd s pg g i := rfl

theorem answers_convDeliver {s : State} {f : Fin 68} {a : Fin 16} {k : Conv} {d : ConvData} {P : State → Prop}
    (next : nextDelivery (getFold s f) a = some k) (data : k.data = some d) (at40 : due s (k.op.lat + 40) = true) (h : P (deliver s f a k d)) :
    Answers (.convDeliver f a false) s P := by
  refine ⟨_, ?_, h⟩
  show execConvDeliver f a false s = _
  simp only [execConvDeliver, next, data, at40, if_true, Bool.false_eq_true, if_false]

/-! ## The claim -/

/-- Settles O20: the data of a latch by the lemmas about `latchData`; what comes after a latch does not name the folds, and what the checker
does after a delivery changes no conversion and no count of clips. -/
theorem conversionsLatchAndDeliver : Obligations.ConversionsLatchAndDeliver := by
  unfold Obligations.ConversionsLatchAndDeliver
  refine ⟨fun s f a k next may => ?latch, fun s f a k d next data at40 => ?delivery, fun s f a role runs => ?zero⟩
  case latch =>
    have later := latchConv_via_latched s f a k
    have array := array_of_nextLatch next
    refine answers_convLatch next may ⟨⟨latchDataOf s f k, ?_, fun h c hc => ?_, fun h c hc => ?_, fun c hc => codes_latchData_le s f _ _ _ hc,
      fun c hc => est_latchData s f _ _ _ hc, fun h => drive_latchData_masked h ..⟩, ?_, ?_, ?_, ?_, (latchConv_via ..).same⟩
    · rw [later.getFold rfl, latched, getFold_modFold_same, getFold_setFree]
    · rw [← array]
      exact exact_latchData h s f _ _ hc
    · rw [← array]
      exact exact_latchData_reference h s f _ _ hc
    · exact later.piece (p := .free) rfl
    · rw [later.getFold rfl, latched, getFold_modFold_same, getFold_setFree]
    · rw [later.getFold rfl, latched, getFold_modFold_same, getFold_setFree]
    · exact (OnlyFolds.modFold f _ ((OnlyFolds.refl _ s).via (setFree_via ..) rfl) List.mem_cons_self).via later rfl
  case delivery =>
    have folds := delivered_onlyFolds s f a
    have via := (delivered_via s f a).mono (ps := [.regs, .folds]) rfl
    refine answers_convDeliver next data at40 ⟨(convs_deliver ..).trans (convs_delivered ..), fun masked small => ?_, fun masked ref small => ?_,
      fun masked product small => arrClip_deliver masked product small, (deliver_via ..).same⟩
    · rw [deliver_masked masked]
      refine ⟨?_, folds.via (bump_via ..) rfl, (Via.step (bump_via ..) rfl via).same⟩
      exact rd_bumpI (delivered s f a) _ _ 0 1 rfl (by rw [rd_delivered]; omega)
    · rw [deliver_reference masked ref]
      refine ⟨?_, (folds.via (bump_via ..) rfl).via (bump_via ..) rfl, (Via.step (bump_via ..) rfl (.step (bump_via ..) rfl via)).same⟩
      rw [((OnlyPlaces.refl (placesOf [(F.COLLIE_SKIP_CNT, 0), (F.STATUS_SAT, 0)]) _).bump (by decide) (by decide) ..).field _ _ _ (by decide)]
      exact rd_bumpI (delivered s f a) _ _ 0 1 rfl (by rw [rd_delivered]; omega)
  case zero =>
    have runs : arraysRun s f = true := by simp only [arraysRun, runs, Bool.not_false, Bool.and_true, bne_iff_ne, ne_eq, role, not_false_eq_true]
    refine answers_zeroInputConversion runs ⟨fun small => ?_, fun w hw hopen => ?_, ?_, ?_, (zeroTested_via ..).same⟩
    · exact chkCnt_instantTest (s := zeroConverted s f a) small ..
    · rw [arr_zeroTested]
      exact gatherZero_open hw hopen _
    · exact (instantTest_via (zeroConverted s f a) f a _ _ _ _).piece (p := .free) rfl
    · rw [zeroTested, (instantTest_marks ..).convs, zeroConverted, getFold_modArr_same]
      rfl

end Sys2Proof.Machine
end

section
/-! SUPPORT. Plane loads: what they write in the shadow plane, and what a PLD leaves (R38 to R44, R174, R175, R254). -/

namespace Sys2Proof.Machine

open Sys2Proof

/-! ## The planes of an array (R38) -/

namespace Arr

variable (x : Arr) (p : Plane)

@[simp] theorem active_setShadow : (x.setShadow p).active = x.active := by
  unfold setShadow active
  cases x.act1
  · rfl
  · rfl

@[simp] theorem shadow_setShadow : (x.setShadow p).shadow = p := by
  unfold setShadow shadow
  cases x.act1
  · rfl
  · rfl

@[simp] theorem act1_setShadow : (x.setShadow p).act1 = x.act1 := by
  unfold setShadow
  cases x.act1
  · rfl
  · rfl

/-- The plane of the other number than the active one is the shadow plane. -/
theorem plane_not_act1 : x.plane (!x.act1) = x.shadow := by
  unfold plane shadow
  cases x.act1
  · rfl
  · rfl

theorem setPlane_not_act1 : x.setPlane (!x.act1) p = x.setShadow p := by
  unfold setPlane setShadow
  cases x.act1
  · rfl
  · rfl

end Arr

/-! ## The cells that a load writes (R38, R254) -/

/-- What plane slot `o` in staging holds for cell `k` of a plane. -/
def slotCell (s : State) (f o kind k : Nat) : Int := cellValue kind (slotCode s f o (k / 256) (k % 256))

/-- A row that is written holds its values, and the other rows stay. -/
theorem getD_putRow (m : SMap Int) (r k : Nat) (h : Nat → Int) :
    getD 0 (putRun 0 m (256 * r) (cols.map h)) k = if k / 256 = r then h (k % 256) else getD 0 m k := by
  have wide : (cols.map h).length = 256 := by rw [List.length_map, cols, List.length_range]
  rw [getD_putRun, wide]
  by_cases e : k / 256 = r
  · have col : k - 256 * r = k % 256 := by omega
    rw [if_pos (by omega), if_pos e, col, getD_map_cols _ _ (by omega)]
  · rw [if_neg (by omega), if_neg e]

/-- The rows of a group that are written hold the codes of the slot, and the other rows stay. -/
theorem getD_cells_rows (s : State) (f o kind g : Nat) (p : Plane) (n k : Nat) :
    getD 0 ((List.range n).foldl (fun p i =>
      { p with cells := putRun 0 p.cells (256 * (16 * g + i)) (cols.map fun c => cellValue kind (slotCode s f o (16 * g + i) c))
               sums := putD 0 p.sums (16 * g + i) (sumZ (cols.map fun c => cellValue kind (slotCode s f o (16 * g + i) c))) }) p).cells k =
      if 16 * g ≤ k / 256 ∧ k / 256 < 16 * g + n then slotCell s f o kind k else getD 0 p.cells k := by
  induction n with
  | zero => rw [if_neg (by omega)]; rfl
  | succ n ih =>
    rw [List.range_succ, List.foldl_append, List.foldl_cons, List.foldl_nil]
    dsimp only
    rw [getD_putRow, ih]
    by_cases e : k / 256 = 16 * g + n
    · rw [if_pos e, if_pos (by omega), slotCell, e]
    · rw [if_neg e]
      exact if_congr (by omega) rfl rfl

/-- A group that is written holds the codes of the slot, and the other groups stay. -/
theorem getD_cells_loadGroup (s : State) (f o kind : Nat) (p : Plane) (g k : Nat) : getD 0 (loadGroup s f o kind p g).cells k =
    if 16 * g ≤ k / 256 ∧ k / 256 < 16 * g + 16 then slotCell s f o kind k else getD 0 p.cells k := by
  unfold loadGroup
  exact getD_cells_rows ..

/-- The groups that a load writes hold the codes of the slot, and the other groups stay. -/
theorem getD_cells_groups (s : State) (f o kind g : Nat) (p : Plane) (n k : Nat) :
    getD 0 ((List.range n).foldl (fun p j => loadGroup s f o kind p (g + j)) p).cells k =
      if 16 * g ≤ k / 256 ∧ k / 256 < 16 * (g + n) then slotCell s f o kind k else getD 0 p.cells k := by
  induction n with
  | zero => rw [if_neg (by omega)]; rfl
  | succ n ih =>
    rw [List.range_succ, List.foldl_append, List.foldl_cons, List.foldl_nil, getD_cells_loadGroup, ih]
    by_cases e : 16 * (g + n) ≤ k / 256 ∧ k / 256 < 16 * (g + n) + 16
    · rw [if_pos e, if_pos (by omega)]
    · rw [if_neg e]
      exact if_congr (by omega) rfl rfl

/-! ## A load that goes on (R38, R175) -/

/-- The plane that a load leaves before device cycle `t`. -/
def loadedPlane (s : State) (f t : Nat) (l : Load) (p : Plane) : Plane :=
  (List.range (loadDue l t)).foldl (fun p j => loadGroup s f l.src l.kind p (l.g + j)) p

theorem loadPart_eq (s : State) (f t : Nat) (l : Load) :
    loadPart s f t l = modArr s f l.array fun x => x.setPlane l.plane1 (loadedPlane s f t l (x.plane l.plane1)) := rfl

/-- The arrays of a fold after its only load has gone on: the shadow plane of the load's array changes (R38). -/
theorem arr_loadPart {s : State} {f : Nat} {l : Load} (h : l.plane1 = !((getFold s f).arr l.array).act1) (t a : Nat) :
    (getFold (loadPart s f t l) f).arr a =
      if a = l.array then ((getFold s f).arr l.array).setShadow (loadedPlane s f t l ((getFold s f).arr l.array).shadow)
      else (getFold s f).arr a := by
  rw [loadPart_eq]
  by_cases e : a = l.array
  · rw [if_pos e, e, arr_modArr_same, h, Arr.setPlane_not_act1, Arr.plane_not_act1]
  · rw [if_neg e, arr_modArr_ne e]

theorem getFold_loadsTo {s : State} {f t : Nat} {l : Load} (one : (getFold s f).loads = [l]) : getFold (loadsTo s f t) f =
    { getFold (loadPart s f t l) f with loads := ((getFold (loadPart s f t l) f).loads.map fun l =>
      { l with g := l.g + loadDue l t, left := l.left - loadDue l t, c := l.c + loadDue l t }).filter fun l => decide (0 < l.left) } := by
  rw [loadsTo, one]
  dsimp only
  rw [getFold_modFold_same, List.foldl_cons, List.foldl_nil]

theorem loads_loadPart (s : State) (f t : Nat) (l : Load) : (getFold (loadPart s f t l) f).loads = (getFold s f).loads := by
  rw [loadPart_eq, getFold_modArr_same]
  rfl

theorem convs_loadPart (s : State) (f t : Nat) (l : Load) : (getFold (loadPart s f t l) f).convs = (getFold s f).convs := by
  rw [loadPart_eq, getFold_modArr_same]
  rfl

theorem loadsTo_onlyFolds {s : State} {f t : Nat} {l : Load} (one : (getFold s f).loads = [l]) : OnlyFolds [f] s (loadsTo s f t) := by
  have part : OnlyFolds [f] s (loadPart s f t l) := .modArr f _ _ (.refl _ s) List.mem_cons_self
  rw [loadsTo, one, List.foldl_cons, List.foldl_nil]
  exact part.modFold f _ List.mem_cons_self

/-! ## A load that begins (R38, R174, R175) -/

/-- The shadow plane as a load of its groups begins: its kind, its lists and its poison are set, its cells are as they were. -/
def begunPlane (s : State) (f o g0 n kind : Nat) (bad : Bool) (p : Plane) : Plane :=
  { (if g0 = 0 then loadSide s f o p else p) with
    kind := kind, poisoned := if bad then true else if g0 = 0 ∧ n = 64 then false else (if g0 = 0 then loadSide s f o p else p).poisoned }

theorem cells_begunPlane (s : State) (f o g0 n kind : Nat) (bad : Bool) (p : Plane) :
    (begunPlane s f o g0 n kind bad p).cells = p.cells := by
  unfold begunPlane
  dsimp only
  split
  · rfl
  · rfl

theorem beginLoad_eq (s : State) (f a o g0 n kind : Nat) (bad : Bool) : beginLoad s f a o g0 n kind bad =
    modFold (modArr s f a fun x => { x.setShadow (begunPlane s f o g0 n kind bad x.shadow) with
      loadEnd := (getFold s f).now + n, lastRow := (getFold s f).now + n }) f fun x => { x with
      loads := x.loads ++ [⟨a, !((getFold s f).arr a).act1, o, g0, n, (getFold s f).now, kind⟩] } := rfl

/-- A fold without its arrays and its loads. -/
def Fold.offLoads (x : Fold) : Fold := { x with arrays := [], loads := [] }

theorem offLoads_beginLoad (s : State) (f a o g0 n kind : Nat) (bad : Bool) :
    (getFold (beginLoad s f a o g0 n kind bad) f).offLoads = (getFold s f).offLoads := by
  rw [beginLoad_eq, getFold_modFold_same, getFold_modArr_same]
  rfl

theorem loads_beginLoad (s : State) (f a o g0 n kind : Nat) (bad : Bool) : (getFold (beginLoad s f a o g0 n kind bad) f).loads =
    (getFold s f).loads ++ [⟨a, !((getFold s f).arr a).act1, o, g0, n, (getFold s f).now, kind⟩] := by
  rw [beginLoad_eq, getFold_modFold_same, getFold_modArr_same]
  rfl

theorem arr_beginLoad_same (s : State) (f a o g0 n kind : Nat) (bad : Bool) : (getFold (beginLoad s f a o g0 n kind bad) f).arr a =
    { ((getFold s f).arr a).setShadow (begunPlane s f o g0 n kind bad ((getFold s f).arr a).shadow) with
      loadEnd := (getFold s f).now + n, lastRow := (getFold s f).now + n } := by
  have off : ∀ (x : Fold) ls, ({ x with loads := ls } : Fold).arr a = x.arr a := fun _ _ => rfl
  rw [beginLoad_eq, getFold_modFold_same, off, arr_modArr_same]

theorem arr_beginLoad_ne {a b : Nat} (h : b ≠ a) (s : State) (f o g0 n kind : Nat) (bad : Bool) :
    (getFold (beginLoad s f a o g0 n kind bad) f).arr b = (getFold s f).arr b := by
  have off : ∀ (x : Fold) ls, ({ x with loads := ls } : Fold).arr b = x.arr b := fun _ _ => rfl
  rw [beginLoad_eq, getFold_modFold_same, off, arr_modArr_ne h]

/-- A load that begins switches no planes. -/
theorem act1_beginLoad (s : State) (f a o g0 n kind : Nat) (bad : Bool) (b : Nat) :
    ((getFold (beginLoad s f a o g0 n kind bad) f).arr b).act1 = ((getFold s f).arr b).act1 := by
  by_cases e : b = a
  · rw [e, arr_beginLoad_same]
    exact Arr.act1_setShadow ..
  · rw [arr_beginLoad_ne e]

/-- The load of one source begins. -/
def beginSource (f g0 n kind : Nat) (bad : List Nat) (s : State) (e : Nat × Nat) : State :=
  beginLoad s f e.1 e.2 g0 n kind (bad.contains e.1)

/-- The loads of several sources begin. -/
def beginLoads (s : State) (f : Nat) (srcs : List (Nat × Nat)) (g0 n kind : Nat) (bad : List Nat) : State :=
  forEach s srcs (beginSource f g0 n kind bad)

theorem offLoads_beginSource (f g0 n kind : Nat) (bad : List Nat) (s : State) (e : Nat × Nat) :
    (getFold (beginSource f g0 n kind bad s e) f).offLoads = (getFold s f).offLoads := offLoads_beginLoad ..

theorem arr_beginSource_ne {e : Nat × Nat} {b : Nat} (h : e.1 ≠ b) (f g0 n kind : Nat) (bad : List Nat) (s : State) :
    (getFold (beginSource f g0 n kind bad s e) f).arr b = (getFold s f).arr b := arr_beginLoad_ne h.symm ..

theorem offLoads_beginLoads (s : State) (f : Nat) (srcs : List (Nat × Nat)) (g0 n kind : Nat) (bad : List Nat) :
    (getFold (beginLoads s f srcs g0 n kind bad) f).offLoads = (getFold s f).offLoads :=
  forEach_keeps (I := fun u => (getFold u f).offLoads = (getFold s f).offLoads) (fun _ _ _ hu => (offLoads_beginSource ..).trans hu) rfl

/-- Each source's load stands behind those that go on already. -/
theorem loads_beginLoads (s : State) (f : Nat) (srcs : List (Nat × Nat)) (g0 n kind : Nat) (bad : List Nat) :
    (getFold (beginLoads s f srcs g0 n kind bad) f).loads = (getFold s f).loads ++
      srcs.map fun e => ⟨e.1, !((getFold s f).arr e.1).act1, e.2, g0, n, (getFold s f).now, kind⟩ := by
  induction srcs generalizing s with
  | nil => exact (List.append_nil _).symm
  | cons e es ih =>
    have now : (getFold (beginSource f g0 n kind bad s e) f).now = (getFold s f).now := (congrArg Fold.now (offLoads_beginSource ..) :)
    refine (ih (beginSource f g0 n kind bad s e)).trans ?_
    rw [now]
    simp only [beginSource, loads_beginLoad, act1_beginLoad, List.map_cons, List.append_assoc, List.singleton_append]

theorem arr_beginLoads_other {srcs : List (Nat × Nat)} {a : Nat} (h : ∀ e ∈ srcs, e.1 ≠ a) (s : State) (f g0 n kind : Nat) (bad : List Nat) :
    (getFold (beginLoads s f srcs g0 n kind bad) f).arr a = (getFold s f).arr a :=
  forEach_keeps (I := fun u => (getFold u f).arr a = (getFold s f).arr a)
    (fun _ e he hu => (arr_beginSource_ne (h e he) ..).trans hu) rfl

/-- Where the arrays are distinct, each takes its own load. -/
theorem arr_beginLoads {srcs : List (Nat × Nat)} (distinct : (srcs.map (·.1)).Nodup) {e : Nat × Nat} (he : e ∈ srcs) (s : State)
    (f g0 n kind : Nat) (bad : List Nat) : ∃ y, (getFold (beginLoads s f srcs g0 n kind bad) f).arr e.1 = y
      ∧ y.active = ((getFold s f).arr e.1).active ∧ y.loadEnd = (getFold s f).now + n
      ∧ y.shadow.cells = ((getFold s f).arr e.1).shadow.cells ∧ y.shadow.kind = kind := by
  obtain ⟨u, rest, before, after⟩ := forEach_once (I := fun u => (getFold u f).offLoads = (getFold s f).offLoads)
    (v := fun u => (getFold u f).arr e.1) (g := beginSource f g0 n kind bad) distinct.of_map he
    (fun u y _ hu => (offLoads_beginSource f g0 n kind bad u y).trans hu)
    (fun u y hy hne => arr_beginSource_ne (fun same => hne (List.inj_on_of_nodup_map distinct hy he same)) f g0 n kind bad u) rfl
  have now : (getFold u f).now = (getFold s f).now := (congrArg Fold.now rest :)
  rw [beginSource, arr_beginLoad_same, before, now] at after
  have active : ∀ (x : Arr) l r, ({ x with loadEnd := l, lastRow := r } : Arr).active = x.active := fun _ _ _ => rfl
  have shadow : ∀ (x : Arr) l r, ({ x with loadEnd := l, lastRow := r } : Arr).shadow = x.shadow := fun _ _ _ => rfl
  generalize begun : begunPlane u f e.2 g0 n kind (bad.contains e.1) ((getFold s f).arr e.1).shadow = p at after
  refine ⟨_, after, ?_, ?_, ?_, ?_⟩
  · rw [active, Arr.active_setShadow]
  · dsimp only
  · rw [shadow, Arr.shadow_setShadow, ← begun, cells_begunPlane]
  · rw [shadow, Arr.shadow_setShadow, ← begun, begunPlane]

/-- The arrays that a PLD names are distinct: there are no more than 16 (R174). -/
theorem loadSources_distinct {count : Nat} (h : count ≤ 16) (a0 d : Nat) : ((loadSources a0 count d).map (·.1)).Nodup := by
  rw [loadSources, List.map_map]
  refine List.Nodup.map_on (fun i hi j hj e => ?_) List.nodup_range
  rw [List.mem_range] at hi hj
  simp only [Function.comp_apply] at e
  omega

/-! ## A PLD (R38 to R44, R174, R175) -/

/-- From `s` to `t` fold `f` keeps its arrays, its loads, its conversions and its place in the step. -/
structure LoadsKept (f : Nat) (s t : State) : Prop where
  /-- the arrays -/
  arr : ∀ a, (getFold t f).arr a = (getFold s f).arr a
  /-- the loads -/
  loads : (getFold t f).loads = (getFold s f).loads
  /-- the conversions -/
  convs : (getFold t f).convs = (getFold s f).convs
  /-- the cycle -/
  now : (getFold t f).now = (getFold s f).now

theorem LoadsKept.trans {f : Nat} {r s t : State} (h : LoadsKept f r s) (k : LoadsKept f s t) : LoadsKept f r t :=
  ⟨fun a => (k.arr a).trans (h.arr a), k.loads.trans h.loads, k.convs.trans h.convs, k.now.trans h.now⟩

theorem MarksOnly.loadsKept {s t : State} (h : MarksOnly s t) (f : Nat) : LoadsKept f s t := ⟨h.arr f, h.loads f, h.convs f, h.now f⟩

/-- A fold that has booked the reads and the cycles of a load of `n` groups from each of `k` sources. -/
def Fold.bookLoad (x : Fold) (books : List Book) (n k : Nat) : Fold :=
  occupy { x with books := x.books ++ books, spent := { x.spent with loads := x.spent.loads + n * k } } (x.now + n) 1

theorem bookLoad_kept (s : State) (f : Nat) (books : List Book) (n k : Nat) :
    LoadsKept f s (modFold s f fun x => x.bookLoad books n k) := by
  have arrays : ∀ x : Fold, (x.bookLoad books n k).arrays = x.arrays := fun _ => rfl
  refine ⟨fun a => ?_, ?_, ?_, ?_⟩
  · rw [getFold_modFold_same, Fold.arr, arrays, Fold.arr]
  · rw [getFold_modFold_same]
    rfl
  · rw [getFold_modFold_same]
    rfl
  · rw [getFold_modFold_same]
    rfl

/-- The state in which a PLD has booked its reads and its cycles (R234, R253). -/
def loadBooked (s : State) (f a0 count desc : Nat) : State :=
  let srcs := loadSources a0 count (loadDesc s f desc)
  modFold (rampDemand s (dieOf f) (getFold s f).now (srcs.map fun e => 16 * f + e.1)) f fun x =>
    x.bookLoad (loadBooks s f a0 count desc) (bits (loadDesc s f desc) 40 6 + 1) srcs.length

theorem loadBooked_kept (s : State) (f a0 count desc : Nat) : LoadsKept f s (loadBooked s f a0 count desc) := by
  have ramp : MarksOnly s (rampDemand s (dieOf f) (getFold s f).now
      ((loadSources a0 count (loadDesc s f desc)).map fun e => 16 * f + e.1)) := .via (.refl s) (rampDemand_via ..) rfl
  exact (ramp.loadsKept f).trans (bookLoad_kept ..)

/-- The arrays of failing rows that a load with descriptor `d` reads (R44). -/
def badArrays (srcs : List (Nat × Nat)) (d : Nat) (badRows : List (Nat × Nat)) : List Nat :=
  (badRows.filter fun r => srcs.any (fun e => e.1 == r.1) && decide (16 * bits d 34 6 ≤ r.2)
    && decide (r.2 < 16 * (bits d 34 6 + (bits d 40 6 + 1)))).map (·.1)

/-- The state in which a PLD has begun the loads of its sources. -/
def loadsBegun (s : State) (f a0 count desc : Nat) (badRows : List (Nat × Nat)) (lines : List LineErr) : State :=
  let d := loadDesc s f desc
  let srcs := loadSources a0 count d
  beginLoads (readLines (loadBooked s f a0 count desc) f (loadLine f a0 count d) lines) f srcs (bits d 34 6) (bits d 40 6 + 1) (bits d 46 2)
    (badArrays srcs d badRows)

theorem doLoad_eq (s : State) (f a0 count desc : Nat) (badRows : List (Nat × Nat)) (lines : List LineErr) :
    doLoad s f a0 count desc badRows lines =
      let bad := badArrays (loadSources a0 count (loadDesc s f desc)) (loadDesc s f desc) badRows
      let t := loadsBegun s f a0 count desc badRows lines
      if bad.isEmpty then t else dataSuspect (bump (errEvent t (foldPg f) 2) (foldPg f) F.ARR_PARITY_CNT bad.dedup.length) f := by
  simp only [doLoad, loadsBegun, beginLoads, loadBooked, badArrays, Fold.bookLoad]
  rfl

/-- A load whose rows fail marks folds, and does no more to them (R44). -/
theorem doLoad_marks (s : State) (f a0 count desc : Nat) (badRows : List (Nat × Nat)) (lines : List LineErr) :
    MarksOnly (loadsBegun s f a0 count desc badRows lines) (doLoad s f a0 count desc badRows lines) := by
  rw [doLoad_eq]
  exact .ite (.refl _) (.trans (.via (.via (.refl _) (errEvent_via ..) rfl) (bump_via ..) rfl) (dataSuspect_marks ..))

/-- A PLD begins its loads on the fold as it was, but for what it books and what it marks (R175, R256). -/
theorem doLoad_begins (s : State) (f a0 count desc : Nat) (badRows : List (Nat × Nat)) (lines : List LineErr) : ∃ v bad, LoadsKept f s v ∧
    MarksOnly (beginLoads v f (loadSources a0 count (loadDesc s f desc)) (bits (loadDesc s f desc) 34 6) (bits (loadDesc s f desc) 40 6 + 1)
      (bits (loadDesc s f desc) 46 2) bad) (doLoad s f a0 count desc badRows lines) := by
  have read := readLines_marks (loadBooked s f a0 count desc) f (loadLine f a0 count (loadDesc s f desc)) lines
  exact ⟨_, _, (loadBooked_kept s f a0 count desc).trans (read.loadsKept f), doLoad_marks s f a0 count desc badRows lines⟩

theorem answers_pld {s : State} {f : Fin 68} {a0 count1 : Fin 16} {rsv : BitVec 3} {desc : Fin 512} {bad : List (Fin 16 × Fin 1024)}
    {lines : List LineErr} {P : State → Prop} (taken : takes s f 1 (pldWord a0 count1 rsv desc) = true)
    (clean : loadCheck (dropSyllable s f) f a0 (count1 + 1) rsv.toNat desc = [])
    (h : P (settleTodo (doLoad (dropSyllable s f) f a0 (count1 + 1) desc (bad.map fun r => (r.1.val, r.2.val)) lines) f)) :
    Answers (.pld f a0 count1 rsv desc bad lines) s P := by
  refine ⟨_, ?_, h⟩
  show Host.Outcome.next (syllable s f 1 (pldWord a0 count1 rsv desc) _) = _
  rw [syllable_of_takes taken, issuePld, clean, issueWith]

theorem loadDesc_dropSyllable (s : State) (f i : Nat) : loadDesc (dropSyllable s f) f i = loadDesc s f i := rfl

/-! ## The claim -/

/-- Settles O13: a PLD begins the load of each of its distinct arrays once (`arr_beginLoads`), and a load that goes on writes the groups that
are due, and of them their rows (`getD_cells_groups`). -/
theorem planeLoadWritesTheShadowPlane : Obligations.PlaneLoadWritesTheShadowPlane := by
  unfold Obligations.PlaneLoadWritesTheShadowPlane
  refine ⟨fun s f a0 count1 rsv desc bad lines taken clean => ?issue, fun s f t l one all other => ?goesOn⟩
  case issue =>
    extract_lets d srcs n
    obtain ⟨v, badArrays, kept, marks⟩ := doLoad_begins (dropSyllable s f) f a0 (count1 + 1) desc (bad.map fun r => (r.1.val, r.2.val)) lines
    have before := ((dropSyllable_marks s f).loadsKept f).trans kept
    have after := marks.trans (settleTodo_marks _ f)
    rw [loadDesc_dropSyllable] at after
    have distinct : (srcs.map (·.1)).Nodup := loadSources_distinct (by omega) ..
    refine answers_pld taken clean ⟨?_, fun e he => ?_, fun a ha => ?_, ?_, syllable_parts (doLoad_via ..) rfl⟩
    · rw [after.loads, loads_beginLoads, before.loads, before.now]
      simp only [before.arr]
      rfl
    · obtain ⟨y, arr, active, last, cells, kind⟩ := arr_beginLoads distinct he v f (bits d 34 6) n (bits d 46 2) badArrays
      rw [before.arr] at active cells
      rw [before.now] at last
      rw [after.arr, arr]
      exact ⟨active, last, cells, kind⟩
    · rw [after.arr, arr_beginLoads_other ha, before.arr]
    · rw [after.convs, ← before.convs]
      exact (congrArg Fold.convs (offLoads_beginLoads ..) :)
  case goesOn =>
    have due : loadDue l t = l.left := by
      rw [loadDue]
      omega
    have arr : ∀ a, (getFold (loadsTo s f t) f).arr a = (getFold (loadPart s f t l) f).arr a := fun a => by
      rw [getFold_loadsTo one]
      rfl
    have cells : ∀ k, getD 0 ((getFold (loadsTo s f t) f).arr l.array).shadow.cells k =
        if 16 * l.g ≤ k / 256 ∧ k / 256 < 16 * (l.g + l.left) then slotCell s f l.src l.kind k
        else getD 0 ((getFold s f).arr l.array).shadow.cells k := fun k => by
      rw [arr, arr_loadPart other, if_pos rfl, Arr.shadow_setShadow, loadedPlane, getD_cells_groups, due]
    refine ⟨?_, ?_, fun a => ?_, fun r c low high hc => ?_, fun k outside => ?_, loadsTo_onlyFolds one, (loadsTo_via s f t).same⟩
    · rw [getFold_loadsTo one, loads_loadPart, one]
      simp [due]
    · rw [getFold_loadsTo one, ← convs_loadPart s f t l]
    · rw [arr, arr_loadPart other]
      split
      · rename_i e
        rw [Arr.active_setShadow, e]
      · rfl
    · have row : (256 * r + c) / 256 = r := by omega
      have col : (256 * r + c) % 256 = c := by omega
      rw [cells, row, if_pos ⟨low, high⟩, slotCell, row, col]
    · rw [cells, if_neg (by omega)]

end Sys2Proof.Machine
end

section
/-! SUPPORT. The end of a resolve window and the delivery of rounded outputs (R119 to R123, R160, R171, R172). -/

namespace Sys2Proof.Machine

open Sys2Proof

/-! ## Rows in the vector store (R171, R172, R239) -/

/-- A run that scheduled work writes stands in memory. -/
theorem readByte_droveBytes (bs : List Byte) (s : State) (a j : Nat) (hj : j < bs.length) (hm : isMem s (a + j) = true) :
    readByte (droveBytes s a bs) (a + j) = bs.getD j 0 := by
  induction bs generalizing s a j with
  | nil => cases hj
  | cons b bs ih =>
    rw [droveBytes_cons]
    cases j with
    | zero =>
      rw [readByte_droveBytes_outside _ _ _ (by omega), List.getD_cons_zero]
      exact (readByte_writeByte s a _ b hm).trans (if_pos rfl)
    | succ j =>
      have next : a + (j + 1) = a + 1 + j := by omega
      rw [next] at hm ⊢
      rw [List.getD_cons_succ]
      exact ih _ _ j (Nat.lt_of_succ_lt_succ hj) (by rw [isMem_droveByteStored, hm])

theorem readBytes_droveBytes {s : State} {a : Nat} {bs : List Byte} (hm : ∀ j < bs.length, isMem s (a + j) = true) :
    readBytes (droveBytes s a bs) a bs.length = bs := by
  refine List.ext_getElem (by simp [readBytes]) fun j _ hj => ?_
  simp only [readBytes, List.getElem_map, List.getElem_range, readByte_droveBytes bs s a j hj (hm j hj)]
  exact List.getD_eq_getElem _ _ hj

theorem readBytes_droveBytes_apart {a b n : Nat} {bs : List Byte} (s : State) (h : b + n ≤ a ∨ a + bs.length ≤ b) :
    readBytes (droveBytes s a bs) b n = readBytes s b n :=
  List.map_congr_left fun j hj => readByte_droveBytes_outside bs s a (by have := List.mem_range.mp hj; omega)

/-- The vector store of every fold holds memory. -/
theorem isMem_vsAddr {f a : Nat} (hf : f < 68) (ha : a < vsSize) (s : State) : isMem s (vsAddr f a) = true := by
  unfold vsSize at ha
  unfold isMem vsAddr
  rw [if_neg (by omega), if_neg (by omega), if_pos (by omega), Bool.and_eq_true, decide_eq_true_eq, decide_eq_true_eq]
  omega

theorem vsAddr_add (f a j : Nat) : vsAddr f a + j = vsAddr f (a + j) := Nat.add_assoc ..

theorem toLe_length (n x : Nat) : (toLe n x).length = n := by
  induction n generalizing x with
  | zero => rfl
  | succ n ih => rw [toLe, List.length_cons, ih]

theorem packRow_length {codes : List Nat} (h : codes.length = 256) (fm : Fmt) : (packRow codes fm).length = rowBytes fm := by
  cases fm with
  | int4 | fp4 => exact (List.length_map ..).trans List.length_range
  | int8 | fp8 => exact (List.length_map ..).trans h
  | bf16 =>
    have row : (packRow codes .bf16).length = 2 * codes.length := by
      simp [packRow, List.length_flatten, Function.comp_def, toLe_length, Nat.mul_comm]
    rw [row, h, rowBytes]

theorem lt_of_mem_maskRows {m v : Nat} (h : v ∈ maskRows m) : v < 16 := List.mem_range.mp (List.mem_of_mem_filter h)

/-! ## The outputs of a rounding operation (R117, R118, R172) -/

/-- The bytes of row `v` of the outputs. -/
def outputRow (t : Trnd) (v : Nat) : List Byte :=
  packRow (cols.map fun c => encodeFmt (outputOf t (256 * v + c)) (fmtOf t.fo)) (fmtOf t.fo)

/-- Where row `v` of the outputs stands in the vector store of fold `f`. -/
def outputAddr (f : Nat) (t : Trnd) (v : Nat) : Nat := vsAddr f (t.dst + v * rowBytes (fmtOf t.fo))

/-- The state in which row `v` of the outputs is stored. -/
def rowStored (f : Nat) (t : Trnd) (s : State) (v : Nat) : State := droveBytes s (outputAddr f t v) (outputRow t v)

theorem writeOutputs_eq (s : State) (f : Nat) (t : Trnd) : writeOutputs s f t = forEach s (maskRows t.rows) (rowStored f t) := rfl

theorem outputRow_length (t : Trnd) (v : Nat) : (outputRow t v).length = rowBytes (fmtOf t.fo) :=
  packRow_length ((List.length_map ..).trans List.length_range) _

/-- Two rows lie apart. -/
theorem outputAddr_apart {v w : Nat} (h : v < w) (f : Nat) (t : Trnd) : outputAddr f t v + rowBytes (fmtOf t.fo) ≤ outputAddr f t w := by
  have rows := Nat.mul_le_mul_right (rowBytes (fmtOf t.fo)) (Nat.succ_le_of_lt h)
  rw [Nat.succ_mul] at rows
  unfold outputAddr vsAddr
  omega

/-- The rows of the outputs lie in the range of 16 rows from their destination. -/
theorem outputAddr_range {v : Nat} (h : v < 16) (f : Nat) (t : Trnd) :
    vsAddr f t.dst ≤ outputAddr f t v ∧ outputAddr f t v + rowBytes (fmtOf t.fo) ≤ vsAddr f (t.dst + 16 * rowBytes (fmtOf t.fo)) :=
  ⟨Nat.add_le_add_left (Nat.le_add_right ..) _, outputAddr_apart h f t⟩

/-- A row of outputs that fit in the vector store lies in memory. -/
theorem isMem_outputAddr {f v j : Nat} {t : Trnd} (hf : f < 68) (fits : t.dst + 16 * rowBytes (fmtOf t.fo) ≤ vsSize) (hv : v < 16)
    (hj : j < rowBytes (fmtOf t.fo)) (s : State) : isMem s (outputAddr f t v + j) = true := by
  have rows := Nat.mul_le_mul_right (rowBytes (fmtOf t.fo)) (Nat.succ_le_of_lt hv)
  rw [Nat.succ_mul] at rows
  rw [outputAddr, vsAddr_add]
  exact isMem_vsAddr hf (by omega) s

theorem readBytes_rowStored {f v : Nat} {t : Trnd} (hf : f < 68) (fits : t.dst + 16 * rowBytes (fmtOf t.fo) ≤ vsSize) (hv : v < 16) (s : State) :
    readBytes (rowStored f t s v) (outputAddr f t v) (rowBytes (fmtOf t.fo)) = outputRow t v := by
  have stored : readBytes (rowStored f t s v) (outputAddr f t v) (outputRow t v).length = outputRow t v :=
    readBytes_droveBytes fun j hj => isMem_outputAddr hf fits hv (by rwa [outputRow_length] at hj) s
  rwa [outputRow_length] at stored

/-- A row that is stored leaves the bytes of another. -/
theorem readBytes_rowStored_ne {v w : Nat} (h : v ≠ w) (f : Nat) (t : Trnd) (s : State) :
    readBytes (rowStored f t s w) (outputAddr f t v) (rowBytes (fmtOf t.fo)) = readBytes s (outputAddr f t v) (rowBytes (fmtOf t.fo)) := by
  refine readBytes_droveBytes_apart s ?_
  rw [outputRow_length]
  exact (Nat.lt_or_gt_of_ne h).imp (outputAddr_apart · f t) (outputAddr_apart · f t)

/-- Every row of the mask stands in the vector store: its write stores it, and the writes of other rows lie apart from it. -/
theorem readBytes_writeOutputs {f v : Nat} {t : Trnd} (hf : f < 68) (fits : t.dst + 16 * rowBytes (fmtOf t.fo) ≤ vsSize)
    (hv : v ∈ maskRows t.rows) (s : State) :
    readBytes (writeOutputs s f t) (outputAddr f t v) (rowBytes (fmtOf t.fo)) = outputRow t v := by
  have stored := readBytes_rowStored hf fits (lt_of_mem_maskRows hv)
  have kept : ∀ u w, readBytes u (outputAddr f t v) (rowBytes (fmtOf t.fo)) = outputRow t v →
      readBytes (rowStored f t u w) (outputAddr f t v) (rowBytes (fmtOf t.fo)) = outputRow t v := fun u w hu => by
    by_cases e : v = w
    · exact e ▸ stored u
    · rw [readBytes_rowStored_ne e, hu]
  exact forEach_reaches (I := fun _ => True) (fun _ _ _ => trivial) (fun u w _ hu => kept u w hu) (fun u _ => stored u) hv trivial

theorem writeOutputs_onlyBytes (s : State) (f : Nat) (t : Trnd) :
    OnlyBytes (fun a => vsAddr f t.dst ≤ a ∧ a < vsAddr f (t.dst + 16 * rowBytes (fmtOf t.fo))) s (writeOutputs s f t) := by
  rw [writeOutputs_eq]
  refine forEach_keeps (I := OnlyBytes _ s) (fun u v hv hu a ha => ?_) fun _ _ => rfl
  obtain ⟨low, high⟩ := outputAddr_range (lt_of_mem_maskRows hv) f t
  rw [rowStored, readByte_droveBytes_outside _ _ _ (by rw [outputRow_length]; omega), hu a ha]

/-! ## The delivery (R132, R172) -/

theorem Fold.tile_setTile (x : Fold) (i j : Nat) (y : Tile) : (x.setTile i y).tile j = if j = i then y else x.tile j := getD_putD ..

@[simp] theorem getFold_setRecipe (s : State) (f tag mask g : Nat) : getFold (setRecipe s f tag mask) g = getFold s g :=
  (setRecipe_via ..).getFold rfl g

/-- Counting the outputs changes of the folds no more than the totals of certified outputs on its own. -/
theorem getFold_countOutputs (s : State) (f : Nat) (t : Trnd) : ∃ out res, ∀ g, getFold (countOutputs s f t) g =
    if g = f then { getFold s f with certOut := out, certRes := res } else getFold s g := by
  unfold countOutputs
  extract_lets pg y tested n res clips u v w void
  have before : ∀ g, getFold v g = getFold s g := fun g => by
    simp only [v, u, apply_ite (getFold · g), getFold_bump, ite_self]
  split
  · have after : ∀ g, getFold w g = getFold s g := fun g => by rw [getFold_bump, getFold_bump, before]
    exact ⟨(getFold s f).certOut + n, (getFold s f).certRes + res, fun g => by rw [getFold_modFold, after, after]⟩
  · refine ⟨(getFold s f).certOut, (getFold s f).certRes, fun g => ?_⟩
    simp only [apply_ite (getFold · g), getFold_setRecipe, getFold_bump, before, ite_self]
    split
    · rename_i e
      rw [e]
    · rfl

/-- A delivery takes the operation off its fold, and of the tiles changes the operation's. -/
theorem getFold_deliverTrnd (s : State) (f : Nat) (t : Trnd) : ∃ out res, ∀ g, getFold (deliverTrnd s f t) g =
    if g = f then
      { getFold s f with trnds := (getFold s f).trnds.filter (fun u => u.c != t.c), certOut := out, certRes := res }.setTile t.tile
        (afterDelivery t ((getFold s f).tile t.tile))
    else getFold s g := by
  obtain ⟨out, res, counted⟩ := getFold_countOutputs
    (writeOutputs (modFold s f fun x => { x with trnds := x.trnds.filter fun u => u.c != t.c }) f t) f t
  refine ⟨out, res, fun g => ?_⟩
  rw [deliverTrnd, modTile, getFold_modFold, counted, counted, if_pos rfl, (writeOutputs_via ..).getFold rfl, (writeOutputs_via ..).getFold rfl,
    getFold_modFold_same, getFold_modFold]
  split
  · rfl
  · rfl

/-- After the outputs are written, a delivery writes no memory. -/
theorem deliverTrnd_readByte (s : State) (f : Nat) (t : Trnd) (a : Nat) :
    readByte (deliverTrnd s f t) a = readByte (writeOutputs (modFold s f fun x => { x with trnds := x.trnds.filter fun u => u.c != t.c }) f t) a := by
  rw [deliverTrnd, (modTile_via ..).readByte rfl rfl, (countOutputs_via ..).readByte rfl rfl]

theorem deliverTrnd_onlyBytes (s : State) (f : Nat) (t : Trnd) :
    OnlyBytes (fun a => vsAddr f t.dst ≤ a ∧ a < vsAddr f (t.dst + 16 * rowBytes (fmtOf t.fo))) s (deliverTrnd s f t) := fun a ha => by
  rw [deliverTrnd_readByte, writeOutputs_onlyBytes _ f t a ha, (modFold_via ..).readByte rfl rfl]

theorem readBytes_deliverTrnd {f v : Nat} {t : Trnd} (hf : f < 68) (fits : t.dst + 16 * rowBytes (fmtOf t.fo) ≤ vsSize)
    (hv : v ∈ maskRows t.rows) (s : State) :
    readBytes (deliverTrnd s f t) (outputAddr f t v) (rowBytes (fmtOf t.fo)) = outputRow t v :=
  (List.map_congr_left fun _ _ => deliverTrnd_readByte ..).trans (readBytes_writeOutputs hf fits hv _)

/-- The close bit ends the claim (R141, R172). -/
theorem open_afterDelivery {t : Trnd} (h : t.close = true) (y : Tile) : (afterDelivery t y).open_ = false := by
  simp only [afterDelivery, h, if_true]

theorem answers_trndDeliver {s : State} {f : Fin 68} {q : Trnd} {P : State → Prop} (next : nextOutputs (getFold s f) = some q)
    (due : due s (trndTime q) = true) (h : P (deliverTrnd s f q)) : Answers (.trndDeliver f) s P := by
  refine ⟨_, ?_, h⟩
  show execTrndDeliver f s = _
  simp only [execTrndDeliver, next, due, if_true]

/-! ## The pause that is asked for (R138, R160) -/

/-- A listed key's value is an entry of the table. -/
theorem getD_eq_or_mem {α : Type} (d : α) (m : SMap α) (k : Nat) : getD d m k = d ∨ (k, getD d m k) ∈ m := by
  induction m with
  | nil => exact .inl rfl
  | cons e m ih =>
    rw [getD_cons]
    split
    · rename_i same
      exact .inr (same ▸ List.mem_cons_self)
    · exact ih.imp_right (List.mem_cons_of_mem e)

/-- The pause lasts as long as each of its sources asks. -/
theorem getD_owed_le (s : State) (k : Nat) : getD 0 s.pause.owed k ≤ owedCycles s := by
  rcases getD_eq_or_mem 0 s.pause.owed k with none | listed
  · rw [none]
    exact Nat.zero_le _
  · exact le_owedCycles _ listed

/-- A pause that is asked for is in progress. -/
theorem frozen_askPause {n : Nat} (h : 0 < n) (s : State) (k : Nat) : frozen (askPause s k n) = true := by
  have asked : getD 0 (askPause s k n).pause.owed k = getD 0 s.pause.owed k + n := by
    rw [askPause, if_neg (Nat.ne_of_gt h), State.setPause_pause, modD, getD_putD_same]
  have owed : 0 < owedCycles (askPause s k n) := by
    have := getD_owed_le (askPause s k n) k
    omega
  rw [frozen, decide_eq_true owed, Bool.true_or]

/-! ## The end of a resolve window (R119 to R123) -/

/-- The fold in which the window of `t` has ended and its reference tile is computed. -/
def windowOver (s : State) (f : Nat) (t : Trnd) : Fold :=
  let x := (endWindow (getFold s f) t).1
  { x with trnds := x.trnds.map fun u => if u.c = t.c then { u with ref := resolvedTile s f t } else u }

/-- The state in which the window of `t` has ended and its slots count. -/
def slotsCounted (s : State) (f : Nat) (t : Trnd) : State := bump (putFold s f (windowOver s f t)) (foldPg f) F.RES_SLOT_CNT t.slots

/-- The state in which work that goes on past the window for `n` cycles is marked and counts (R123). -/
def overrunCounted (s : State) (f : Nat) (t : Trnd) (n : Nat) : State :=
  modFold (bump (setRecipe s f t.layer flagResolve) (foldPg f) F.RES_PAUSE_CYC n) f fun x => { x with resPaused := true }

theorem windowEnd_within {s : State} {f : Nat} {t : Trnd} (h : (endWindow (getFold s f) t).2 = 0) : windowEnd s f t = slotsCounted s f t :=
  if_pos h

theorem windowEnd_past {s : State} {f : Nat} {t : Trnd} (h : (endWindow (getFold s f) t).2 ≠ 0) : windowEnd s f t =
    askPause (overrunCounted (slotsCounted s f t) f t (endWindow (getFold s f) t).2) (pauseKey (16 * f) causeResolve)
      (endWindow (getFold s f) t).2 := if_neg h

theorem getFold_slotsCounted (s : State) (f : Nat) (t : Trnd) (g : Nat) :
    getFold (slotsCounted s f t) g = if g = f then windowOver s f t else getFold s g := by
  rw [slotsCounted, getFold_bump, getFold_putFold]

theorem getFold_overrunCounted (s : State) (f : Nat) (t : Trnd) (n g : Nat) :
    getFold (overrunCounted s f t n) g = if g = f then { getFold s f with resPaused := true } else getFold s g := by
  rw [overrunCounted, getFold_modFold, getFold_bump, getFold_bump, getFold_setRecipe, getFold_setRecipe]

/-- The end of a window leaves its fold with the window over, marked when the device pauses for it, and the other folds as they are. -/
theorem getFold_windowEnd (s : State) (f : Nat) (t : Trnd) : ∃ paused, ∀ g, getFold (windowEnd s f t) g =
    if g = f then { windowOver s f t with resPaused := paused } else getFold s g := by
  by_cases h : (endWindow (getFold s f) t).2 = 0
  · exact ⟨(windowOver s f t).resPaused, fun g => by rw [windowEnd_within h, getFold_slotsCounted]⟩
  · refine ⟨true, fun g => ?_⟩
    rw [windowEnd_past h, (askPause_via ..).getFold rfl, getFold_overrunCounted, getFold_slotsCounted, getFold_slotsCounted, if_pos rfl]
    split
    · rfl
    · rfl

/-- The flag bytes of the layer tags lie past the resolve counters of a fold's page, whatever the tag. -/
theorem fkey_flagField_ne_resSlots (pg tag i : Nat) : fkey pg (flagField tag) i ≠ fkey pg F.RES_SLOT_CNT 0 := by
  have off : (flagField tag).off = 0xC00 := by
    unfold flagField
    split
    all_goals rfl
  simp only [fkey, off, F.RES_SLOT_CNT]
  omega

/-- Setting flags of a layer leaves the count of resolve slots (R96, R132). -/
theorem resSlots_setRecipe (s : State) (f tag mask : Nat) :
    rd (setRecipe s f tag mask) (foldPg f) F.RES_SLOT_CNT = rd s (foldPg f) F.RES_SLOT_CNT := by
  unfold setRecipe
  extract_lets pg old add flag lastTag lastBits
  have transition : OnlyPlaces (placesOf ((F.RECIPE_LAST_TAG, 0) :: (F.RECIPE_LAST_BITS, 0) :: logFields)) flag
      (logWrite lastBits pg 0x10 0xFF [(32, (slotOfFold lastBits f).getD 0), (34, tag), (36, add)]) :=
    (((OnlyPlaces.refl _ flag).wr0 (by decide) pg tag).wr0 (by decide) pg add).trans
      ((logWrite_places ..).mono fun _ hp => List.mem_cons_of_mem _ (List.mem_cons_of_mem _ hp))
  split
  · rfl
  · rw [transition.field _ _ _ (by decide)]
    exact rd_wr_ne _ _ _ _ _ _ _ _ (fkey_flagField_ne_resSlots _ _ _)

theorem resSlots_overrunCounted (s : State) (f : Nat) (t : Trnd) (n : Nat) :
    rd (overrunCounted s f t n) (foldPg f) F.RES_SLOT_CNT = rd s (foldPg f) F.RES_SLOT_CNT := by
  have counted := (OnlyPlaces.refl (placesOf [(F.RES_PAUSE_CYC, 0), (F.STATUS_SAT, 0)]) (setRecipe s f t.layer flagResolve)).bump
    (f := F.RES_PAUSE_CYC) (by decide) (by decide) (foldPg f) n
  rw [overrunCounted, rd_modFold, counted.field _ _ _ (by decide), resSlots_setRecipe]

/-- The slots of the operation count at the end of its window, whether or not the device pauses (R132). -/
theorem resSlots_windowEnd {s : State} {f : Nat} {t : Trnd} (h : rd s (foldPg f) F.RES_SLOT_CNT + t.slots < 2 ^ 32 - 1) :
    rd (windowEnd s f t) (foldPg f) F.RES_SLOT_CNT = rd s (foldPg f) F.RES_SLOT_CNT + t.slots := by
  have counted : rd (slotsCounted s f t) (foldPg f) F.RES_SLOT_CNT = rd s (foldPg f) F.RES_SLOT_CNT + t.slots :=
    rd_bumpI (putFold s f (windowOver s f t)) _ _ 0 _ rfl h
  by_cases within : (endWindow (getFold s f) t).2 = 0
  · rw [windowEnd_within within, counted]
  · rw [windowEnd_past within, (askPause_via ..).rd rfl, resSlots_overrunCounted, counted]

theorem slotsCounted_via (s : State) (f : Nat) (t : Trnd) : Via [.regs, .folds] s (slotsCounted s f t) :=
  .step (bump_via ..) rfl ((putFold_via ..).mono rfl)

theorem answers_resolveWindowEnd {s : State} {f : Fin 68} {q : Trnd} {P : State → Prop} (next : nextWindow (getFold s f) = some q)
    (due : due s (windowStop q) = true) (h : P (windowEnd s f q)) : Answers (.resolveWindowEnd f false) s P := by
  refine ⟨_, ?_, h⟩
  show execResolveWindowEnd f false s = _
  simp only [execResolveWindowEnd, next, due, if_true, Bool.false_eq_true, if_false]

/-! ## The claim -/

/-- Settles O22: the end of a window by what it leaves of its fold (`getFold_windowEnd`), with a pause just when work goes on past it; a
delivery by the rows it writes (`readBytes_writeOutputs`) and by what it leaves of its fold (`getFold_deliverTrnd`). -/
theorem roundingResolvesAndDelivers : Obligations.RoundingResolvesAndDelivers := by
  unfold Obligations.RoundingResolvesAndDelivers
  refine ⟨fun s f q next due => ?windowEnds, fun s f q next due => ?delivers⟩
  case windowEnds =>
    extract_lets e
    obtain ⟨paused, folds⟩ := getFold_windowEnd s f q
    have fold := (folds f).trans (if_pos rfl)
    refine answers_resolveWindowEnd next due ⟨?_, ?_, ?_, resSlots_windowEnd, fun within => ?_, fun past => ?_, fun g hg => ?_,
      (windowEnd_via ..).same⟩
    · rw [fold]
      rfl
    · rw [fold]
      rfl
    · rw [fold]
      rfl
    · rw [windowEnd_within within]
      exact ⟨(slotsCounted_via ..).piece (p := .pause) rfl, (slotsCounted_via ..).piece (p := .log) rfl⟩
    · rw [windowEnd_past (Nat.ne_of_gt past)]
      exact frozen_askPause past ..
    · rw [folds, if_neg (List.mem_singleton.not.mp hg)]
  case delivers =>
    extract_lets n
    obtain ⟨out, res, folds⟩ := getFold_deliverTrnd s f q
    have fold := (folds f).trans (if_pos rfl)
    refine answers_trndDeliver next due ⟨?_, fun fits v hv => readBytes_deliverTrnd f.isLt fits hv s, deliverTrnd_onlyBytes s f q,
      fun close => ?_, fun j hj => ?_, fun g hg => ?_, (deliverTrnd_via ..).same⟩
    · rw [fold]
      rfl
    · rw [fold, Fold.tile_setTile, if_pos rfl, open_afterDelivery close]
    · rw [fold, Fold.tile_setTile, if_neg hj]
      rfl
    · rw [folds, if_neg (List.mem_singleton.not.mp hg)]

end Sys2Proof.Machine
end

section
/-! SUPPORT. What a fault leaves of the faults before it (R192, R193, R224, R225), and TCLR with its tile clash (R140 to R142, R170). -/

namespace Sys2Proof.Machine

open Sys2Proof Sys2Proof.Claims

/-! ## Faults are only added (R193, R225, R486) -/

/-- Setting a bit leaves the others. -/
theorem bit_putBit_ne {b k : Nat} (h : k ≠ b) (x : Nat) : bit (putBit x b true) k = bit x k := by
  unfold putBit bit
  cases hx : x.testBit b with
  | true => rfl
  | false =>
    have low : x % 2 ^ (b + 1) = x % 2 ^ b := by
      rw [Nat.testBit_eq_decide_div_mod_eq, decide_eq_false_iff_not] at hx
      rw [Nat.mod_pow_succ, show x / 2 ^ b % 2 = 0 by omega, Nat.mul_zero, Nat.add_zero]
    have small := Nat.mod_lt x (Nat.two_pow_pos b)
    have parts : 2 ^ (b + 1) * (x / 2 ^ (b + 1)) + x % 2 ^ b = x := by rw [← low, Nat.div_add_mod]
    have set : x + 2 ^ b = 2 ^ (b + 1) * (x / 2 ^ (b + 1)) + (2 ^ b + x % 2 ^ b) := by omega
    simp only [Bool.false_eq_true, if_false, if_true]
    rw [set, Nat.testBit_two_pow_mul_add _ (by omega)]
    conv_rhs => rw [← parts, Nat.testBit_two_pow_mul_add _ (by omega)]
    split
    · exact Nat.testBit_two_pow_add_gt (by omega) _
    · rfl

/-- An error event keeps the bits of ERR_SUM that are set, of every page (R486). -/
theorem errSum_kept_errEvent {s : State} {q k : Nat} (hk : k < 16) (h : bit (rd s q F.ERR_SUM) k = true) (pg b : Nat) :
    bit (rd (errEvent s pg b) q F.ERR_SUM) k = true := by
  rw [(errEvent_places s pg b).field _ _ _ (by decide), wrBit]
  by_cases same : q = pg
  · subst same
    have kept : (putBit (rd s q F.ERR_SUM) b true).testBit k = true := by
      by_cases e : k = b
      · rw [e]
        exact bit_putBit_true ..
      · exact (bit_putBit_ne e _).trans h
    have width : decide (k < F.ERR_SUM.width) = true := decide_eq_true hk
    rw [rd_wr, bit, Nat.testBit_mod_two_pow, kept, width, Bool.and_self]
  · rw [rd_wr_ne]
    · exact h
    · simp only [fkey]
      omega

/-- The register fields beside ERR_SUM that a contract fault, a stopped drove or a syllable that is settled can write. -/
def faultFields : List (Field × Nat) := eventFields ++ logFields ++
  [(F.CONTRACT_CNT, 0), (F.CONTRACT_INFO_CODE, 0), (F.CONTRACT_INFO_BUNDLE, 0), (F.CONTRACT_INFO_SYL, 0), (F.CONTRACT_INFO_RECUR, 0),
    (F.CONTRACT_INFO_PORT, 0), (F.CONTRACT_TALLY, 0), (F.NOC_OVERCOMMIT_CNT, 0), (F.SEQ_STATUS_CONTRACT_STOP, 0),
    (F.ACC_STATUS_CLASH_STOP, 0), (F.STEP_FAULT_CNT, 0), (F.STEP_FAULT_INFO_CAUSE, 0), (F.STEP_FAULT_INFO_FLOCK, 0),
    (F.STEP_FAULT_INFO_POS, 0), (F.STEP_FAULT_INFO_TALLY, 0)]

theorem faultFields_of_event {p : Nat} (h : placesOf eventFields p) : placesOf faultFields p := by
  simp only [placesOf, faultFields, List.map_append, List.mem_append]
  exact .inl (.inl h)

theorem faultFields_of_log {p : Nat} (h : placesOf logFields p) : placesOf faultFields p := by
  simp only [placesOf, faultFields, List.map_append, List.mem_append]
  exact .inl (.inr h)

theorem Via.getFlock {ps : List StatePart} {s t : State} (h : Via ps s t) (k : ps.contains .flocks = false) (q : Nat) :
    Machine.getFlock t q = Machine.getFlock s q := by
  have flocks : t.flocks = s.flocks := h.piece k
  rw [Machine.getFlock, flocks, Machine.getFlock]

/-- From `s` to `t` faults are only added: error bits stay set, the step of a flock keeps the cause that it has, and only the registers
that show faults change. -/
structure FaultsGrow (s t : State) : Prop where
  /-- the bits of ERR_SUM -/
  errs : ∀ pg b, b < 16 → bit (rd s pg F.ERR_SUM) b = true → bit (rd t pg F.ERR_SUM) b = true
  /-- the registers -/
  places : OnlyPlaces (placesOf ((F.ERR_SUM, 0) :: faultFields)) s t
  /-- the cause of a step fault -/
  fault : ∀ k, (getFlock s k).fault ≠ 0 → (getFlock t k).fault = (getFlock s k).fault

namespace FaultsGrow

variable {r s t : State}

theorem refl (s : State) : FaultsGrow s s := ⟨fun _ _ _ h => h, .refl _ s, fun _ _ => rfl⟩

theorem trans (h : FaultsGrow r s) (k : FaultsGrow s t) : FaultsGrow r t where
  errs pg b hb set := k.errs pg b hb (h.errs pg b hb set)
  places := h.places.trans k.places
  fault q hq := (k.fault q (by rwa [h.fault q hq])).trans (h.fault q hq)

theorem ite {a b : State} {c : Prop} [Decidable c] (h : FaultsGrow r a) (k : FaultsGrow r b) : FaultsGrow r (if c then a else b) := by
  split
  · exact h
  · exact k

theorem forEach {α : Type} {xs : List α} {g : State → α → State} (h : ∀ s x, FaultsGrow s (g s x)) (s : State) :
    FaultsGrow s (Machine.forEach s xs g) :=
  forEach_keeps (I := FaultsGrow s) (fun t x _ ht => ht.trans (h t x)) (.refl s)

/-- After operations that add faults comes one that writes the registers beside ERR_SUM and leaves the flocks. -/
theorem write {ps : List StatePart} (h : FaultsGrow r s) (k : OnlyPlaces (placesOf faultFields) s t) (v : Via ps s t)
    (hps : ps.contains .flocks = false) : FaultsGrow r t := by
  refine h.trans ⟨fun pg b _ set => ?_, k.mono fun p hp => List.mem_cons_of_mem _ hp, fun q _ => by rw [v.getFlock hps]⟩
  rwa [k.field _ _ _ (by decide)]

/-- After operations that add faults comes one that names neither registers nor flocks. -/
theorem via {ps : List StatePart} (h : FaultsGrow r s) (v : Via ps s t) (regs : ps.contains .regs = false)
    (flocks : ps.contains .flocks = false) : FaultsGrow r t := h.write (.via (.refl _ s) v regs) v flocks

theorem wr0 (h : FaultsGrow r s) {f : Field} (hf : placesOf faultFields (place f 0)) (pg v : Nat) : FaultsGrow r (wr0 s pg f v) :=
  h.write ((OnlyPlaces.refl _ s).wr0 hf ..) (wr0_via ..) rfl

theorem bump (h : FaultsGrow r s) {f : Field} (hf : placesOf faultFields (place f 0)) (pg n : Nat) : FaultsGrow r (bump s pg f n) :=
  h.write ((OnlyPlaces.refl _ s).bump hf (by decide) ..) (bump_via ..) rfl

theorem errEvent (h : FaultsGrow r s) (pg b : Nat) : FaultsGrow r (errEvent s pg b) := by
  refine h.trans ⟨fun q k hk set => errSum_kept_errEvent hk set pg b, ?_, fun q _ => by rw [(errEvent_via ..).getFlock rfl]⟩
  exact ((OnlyPlaces.refl _ s).wrBit List.mem_cons_self ..).trans
    ((errEvent_places s pg b).mono fun p hp => List.mem_cons_of_mem _ (faultFields_of_event hp))

theorem logWrite (h : FaultsGrow r s) (pg ev pen : Nat) (fs : List LogField) : FaultsGrow r (logWrite s pg ev pen fs) := by
  exact h.write ((logWrite_places s pg ev pen fs).mono fun p hp => faultFields_of_log hp) (logWrite_via ..) rfl

end FaultsGrow

/-- A flock that changes but for its fault. -/
theorem modFlock_grows {g : Flock → Flock} (hg : ∀ x, (g x).fault = x.fault) (s : State) (k : Nat) : FaultsGrow s (modFlock s k g) := by
  refine ⟨fun _ _ _ h => h, .via (.refl _ s) (modFlock_via ..) rfl, fun q _ => ?_⟩
  rw [modFlock, getFlock_putFlock]
  split
  · rename_i e
    rw [hg, e]
  · rfl

/-- A step fault is recorded when it is the first of the attempt (R225). -/
theorem stepFault_grows (s : State) (k cause : Nat) : FaultsGrow s (stepFault s k cause) := by
  unfold stepFault
  dsimp only
  split
  · rename_i first
    refine .wr0 (.wr0 (.wr0 (.wr0 (.bump ?_ (by decide) ..) (by decide) ..) (by decide) ..) (by decide) ..) (by decide) ..
    refine ⟨fun _ _ _ h => h, .via (.refl _ s) (putFlock_via ..) rfl, fun q hq => ?_⟩
    rw [getFlock_putFlock]
    split
    · rename_i e
      exact absurd (e ▸ first.2) hq
    · rfl
  · exact .refl s

theorem foldStepFault_grows (s : State) (f cause : Nat) : FaultsGrow s (foldStepFault s f cause) := by
  unfold foldStepFault
  split
  · exact stepFault_grows ..
  · exact .refl s

theorem stopDrove_grows (s : State) (f why : Nat) : FaultsGrow s (stopDrove s f why) := by
  unfold stopDrove
  extract_lets dg counted logged
  have told : FaultsGrow s logged := ((FaultsGrow.refl s).errEvent ..).logWrite ..
  clear_value logged
  split
  · rename_i k _
    exact told.trans (modFlock_grows (g := fun x => { x with stalled := true }) (fun _ => rfl) logged k)
  · exact told

/-- A contract fault counts, shows itself when it is the first of the tick, and is recorded with its fold and its step (R193). -/
theorem contractFault_grows (s : State) (f code bundle syl port : Nat) : FaultsGrow s (contractFault s f code bundle syl port) := by
  unfold contractFault
  extract_lets x pg fault again counted infoCode infoBundle infoSyl infoRecur infoPort shown mesh erred logged marked faulted
  have hcounted : FaultsGrow s counted := (FaultsGrow.refl s).bump (by decide) ..
  have hinfo : FaultsGrow s infoPort :=
    ((((hcounted.wr0 (by decide) ..).wr0 (by decide) ..).wr0 (by decide) ..).wr0 (by decide) ..).wr0 (by decide) ..
  have hshown : FaultsGrow s shown := .ite hcounted (hinfo.wr0 (by decide) ..)
  have hmesh : FaultsGrow s mesh := .ite (hshown.bump (by decide) ..) hshown
  have hlogged : FaultsGrow s logged := (hmesh.errEvent ..).logWrite ..
  have hfaulted : FaultsGrow s faulted := (hlogged.via (modFold_via ..) rfl rfl).trans (foldStepFault_grows ..)
  exact .ite ((hfaulted.wr0 (by decide) ..).trans (stopDrove_grows ..)) hfaulted

theorem settleTodo_grows (s : State) (f : Nat) : FaultsGrow s (settleTodo s f) := by
  refine .forEach (fun u y => ?_) s
  have dropped : FaultsGrow u (dropSyllable u f) := .via (.refl u) (dropSyllable_via ..) rfl rfl
  unfold settleSyllable
  exact .ite (.ite dropped (.ite (dropped.trans (contractFault_grows ..)) (.refl u))) (.refl u)

/-! ## A tile clash (R141, R142) -/

/-- The state in which a clash counts, and shows itself when it is the first of the tick. -/
def clashShown (s : State) (f tile cause named : Nat) : State :=
  let x := getFold s f
  let pg := foldPg f
  let again := x.oldFaults.contains { clash := true, code := cause, bundle := x.lastPc, syl := tile }
  let u := bump s pg F.TILE_CLASH_CNT
  if x.clashTick then u
  else wr0 (wr0 (wr0 (wr0 (wr0 u pg F.TILE_CLASH_INFO_TILE tile) pg F.TILE_CLASH_INFO_CAUSE cause) pg F.TILE_CLASH_INFO_HELD
    (x.tile tile).tag) pg F.TILE_CLASH_INFO_NAMED named) pg F.TILE_CLASH_INFO_RECUR (b2n again)

/-- The state in which a clash is logged too. -/
def clashLogged (s : State) (f tile cause named : Nat) : State :=
  let x := getFold s f
  logWrite (errEvent (clashShown s f tile cause named) (foldPg f) 3) (foldPg f) 0x11 0xFF
    [(32, tile), (33, cause), (34, (x.tile tile).tag), (35, named), (36, x.lastPc)]

/-- The state in which a clash has poisoned its tile, and the fold records it. -/
def clashMarked (s : State) (f tile cause named : Nat) : State :=
  modFold (modTile (clashLogged s f tile cause named) f tile fun t => { t with poison := true }) f fun y =>
    { y with clashTick := true, faults := y.faults ++ [{ clash := true, code := cause, bundle := (getFold s f).lastPc, syl := tile }] }

theorem clash_eq (s : State) (f tile cause named : Nat) : clash s f tile cause named =
    let u := foldStepFault (clashMarked s f tile cause named) f 4
    if (getFold s f).oldFaults.contains { clash := true, code := cause, bundle := (getFold s f).lastPc, syl := tile } then
      stopDrove (wr0 u (foldPg f) F.ACC_STATUS_CLASH_STOP 1) f 2
    else u := by
  unfold clash clashMarked clashLogged clashShown
  rfl

/-- After its fold has recorded a clash, only its step faults, and its drove stops when the clash recurs (R142). -/
theorem clash_grows_marked (s : State) (f tile cause named : Nat) :
    FaultsGrow (foldStepFault (clashMarked s f tile cause named) f 4) (clash s f tile cause named) := by
  rw [clash_eq]
  exact .ite (((FaultsGrow.refl _).wr0 (by decide) ..).trans (stopDrove_grows ..)) (.refl _)

theorem clashLogged_grows (s : State) (f tile cause named : Nat) :
    FaultsGrow (clashShown s f tile cause named) (clashLogged s f tile cause named) := ((FaultsGrow.refl _).errEvent ..).logWrite ..

theorem rd_clashMarked (s : State) (f tile cause named pg : Nat) (g : Field) (i : Nat) :
    rd (clashMarked s f tile cause named) pg g i = rd (clashLogged s f tile cause named) pg g i := by
  rw [clashMarked, rd_modFold, modTile, rd_modFold]

theorem clash_places_logged (s : State) (f tile cause named : Nat) :
    OnlyPlaces (placesOf ((F.ERR_SUM, 0) :: faultFields)) (clashLogged s f tile cause named) (clash s f tile cause named) := by
  have marked : OnlyPlaces (placesOf ((F.ERR_SUM, 0) :: faultFields)) (clashLogged s f tile cause named) (clashMarked s f tile cause named) :=
    ⟨fun _ _ _ _ => rd_clashMarked ..⟩
  exact (marked.trans (foldStepFault_grows ..).places).trans (clash_grows_marked s f tile cause named).places

theorem getFold_clashShown (s : State) (f tile cause named g : Nat) : getFold (clashShown s f tile cause named) g = getFold s g := by
  simp only [clashShown, apply_ite (getFold · g), getFold_wr0, getFold_bump, ite_self]

/-- A clash poisons its tile, and marks its fold. -/
theorem getFold_clash (s : State) (f tile cause named : Nat) : ∃ faults, ∀ g, getFold (clash s f tile cause named) g =
    if g = f then { (getFold s f).setTile tile { (getFold s f).tile tile with poison := true } with clashTick := true, faults := faults }
    else getFold s g := by
  refine ⟨(getFold s f).faults ++ [{ clash := true, code := cause, bundle := (getFold s f).lastPc, syl := tile }], fun g => ?_⟩
  have logged : ∀ q, getFold (clashLogged s f tile cause named) q = getFold s q := fun q => by
    rw [clashLogged, getFold_logWrite, getFold_errEvent, getFold_clashShown]
  have after : getFold (clash s f tile cause named) g = getFold (clashMarked s f tile cause named) g := by
    simp only [clash_eq, apply_ite (getFold · g), getFold_stopDrove, getFold_wr0, getFold_foldStepFault, ite_self]
  rw [after, clashMarked, getFold_modFold, modTile, getFold_modFold_same, getFold_modFold, logged, logged]
  split
  · rfl
  · rfl

theorem tile_clash (s : State) (f tile cause named : Nat) :
    (getFold (clash s f tile cause named) f).tile tile = { (getFold s f).tile tile with poison := true } := by
  obtain ⟨faults, clashed⟩ := getFold_clash s f tile cause named
  rw [clashed, if_pos rfl]
  exact getD_putD_same ..

theorem clash_onlyFolds (s : State) (f tile cause named : Nat) : OnlyFolds [f] s (clash s f tile cause named) := fun g hg => by
  obtain ⟨faults, clashed⟩ := getFold_clash s f tile cause named
  rw [clashed, if_neg (List.mem_singleton.not.mp hg)]

/-- A clash sets bit 3 of ERR_SUM (R142). -/
theorem errSum_clash (s : State) (f tile cause named : Nat) :
    bit (rd (clash s f tile cause named) (foldPg f) F.ERR_SUM) 3 = true := by
  have set := errSum_errEvent (b := 3) (by decide) (clashShown s f tile cause named) (foldPg f)
  have logged : bit (rd (clashLogged s f tile cause named) (foldPg f) F.ERR_SUM) 3 = true :=
    ((FaultsGrow.refl _).logWrite ..).errs _ _ (by decide) set
  refine (clash_grows_marked s f tile cause named).errs _ _ (by decide) ((foldStepFault_grows ..).errs _ _ (by decide) ?_)
  rwa [rd_clashMarked]

theorem tileClashInfo_clashShown {s : State} {f : Nat} (first : (getFold s f).clashTick = false) (tile cause named : Nat) :
    rd (clashShown s f tile cause named) (foldPg f) F.TILE_CLASH_INFO_TILE = tile % 2 ^ 7
      ∧ rd (clashShown s f tile cause named) (foldPg f) F.TILE_CLASH_INFO_CAUSE = cause % 2 ^ 3
      ∧ rd (clashShown s f tile cause named) (foldPg f) F.TILE_CLASH_INFO_NAMED = named % 2 ^ 8 := by
  have apart : ∀ {u : State} {g : Field} (h : Field) (v : Nat), place h 0 ≠ place g 0 →
      rd (wr0 u (foldPg f) h v) (foldPg f) g = rd u (foldPg f) g := fun {u g} h v ne =>
    rd_wr_ne _ _ _ _ _ _ _ _ fun e => ne (by rw [← fkey_mod (foldPg f), e, fkey_mod])
  rw [clashShown, first, if_neg Bool.false_ne_true]
  refine ⟨?_, ?_, ?_⟩
  · rw [apart _ _ (by decide), apart _ _ (by decide), apart _ _ (by decide), apart _ _ (by decide), rd_wr0]
    rfl
  · rw [apart _ _ (by decide), apart _ _ (by decide), apart _ _ (by decide), rd_wr0]
    rfl
  · rw [apart _ _ (by decide), rd_wr0]
    rfl

/-- The first clash of a tick shows its tile, its cause and the tag named (R142). -/
theorem tileClashInfo_clash {s : State} {f : Nat} (first : (getFold s f).clashTick = false) (tile cause named : Nat) :
    rd (clash s f tile cause named) (foldPg f) F.TILE_CLASH_INFO_TILE = tile % 2 ^ 7
      ∧ rd (clash s f tile cause named) (foldPg f) F.TILE_CLASH_INFO_CAUSE = cause % 2 ^ 3
      ∧ rd (clash s f tile cause named) (foldPg f) F.TILE_CLASH_INFO_NAMED = named % 2 ^ 8 := by
  have later := (clashLogged_grows s f tile cause named).places.trans (clash_places_logged s f tile cause named)
  rw [later.field _ _ _ (by decide), later.field _ _ _ (by decide), later.field _ _ _ (by decide)]
  exact tileClashInfo_clashShown first ..

/-- The first fault of an attempt gives the step its cause (R225). -/
theorem fault_stepFault {s : State} {k : Nat} (runs : (getFlock s k).phase = 3) (first : (getFlock s k).fault = 0) (cause : Nat) :
    (getFlock (stepFault s k cause) k).fault = cause := by
  unfold stepFault
  dsimp only
  rw [if_pos ⟨runs, first⟩, (wr0_via ..).getFlock rfl, (wr0_via ..).getFlock rfl, (wr0_via ..).getFlock rfl, (wr0_via ..).getFlock rfl,
    (bump_via ..).getFlock rfl, getFlock_putFlock, if_pos rfl]

theorem foldFlock_congr {s t : State} {f : Nat} (droves : t.droves = s.droves) (drove : (getFold t f).drove = (getFold s f).drove) :
    foldFlock t f = foldFlock s f := by
  have entry : getDrove t = getDrove s := funext fun e => by rw [getDrove, droves, getDrove]
  rw [foldFlock, foldDrove, drove, entry, foldFlock, foldDrove]

theorem clashMarked_via (s : State) (f tile cause named : Nat) : Via [.regs, .views, .log, .folds] s (clashMarked s f tile cause named) := by
  have shown : Via [.regs] s (clashShown s f tile cause named) :=
    .ite (bump_via ..) (.step (wr0_via ..) rfl (.step (wr0_via ..) rfl (.step (wr0_via ..) rfl (.step (wr0_via ..) rfl
      (.step (wr0_via ..) rfl (bump_via ..))))))
  have logged : Via [.regs, .views, .log] s (clashLogged s f tile cause named) := by
    unfold clashLogged
    exact .step (logWrite_via ..) rfl (.step (errEvent_via ..) rfl (shown.mono rfl))
  have poisoned : Via [.regs, .views, .log, .folds] s
      (modTile (clashLogged s f tile cause named) f tile fun t => { t with poison := true }) :=
    (logged.mono rfl).trans ((modTile_via ..).mono rfl)
  exact poisoned.trans ((modFold_via ..).mono rfl)

theorem foldStepFault_of_flock {s : State} {f k : Nat} (h : foldFlock s f = some k) (cause : Nat) :
    foldStepFault s f cause = stepFault s k cause := by
  simp only [foldStepFault, h]

/-- A clash is a step fault of cause 4 of the flock whose step runs on the fold, when it is its first (R142, R224, R225). -/
theorem fault_clash {s : State} {f k : Nat} (flock : foldFlock s f = some k) (runs : (getFlock s k).phase = 3)
    (first : (getFlock s k).fault = 0) (tile cause named : Nat) : (getFlock (clash s f tile cause named) k).fault = 4 := by
  have marked := clashMarked_via s f tile cause named
  have drove : (getFold (clashMarked s f tile cause named) f).drove = (getFold s f).drove := by
    rw [clashMarked, getFold_modFold_same, modTile, getFold_modFold_same, clashLogged, getFold_logWrite, getFold_errEvent, getFold_clashShown]
    rfl
  have flocks : getFlock (clashMarked s f tile cause named) k = getFlock s k := marked.getFlock rfl k
  have same : foldFlock (clashMarked s f tile cause named) f = some k :=
    (foldFlock_congr (marked.piece (p := .droves) rfl) drove).trans flock
  have raised : (getFlock (foldStepFault (clashMarked s f tile cause named) f 4) k).fault = 4 := by
    rw [foldStepFault_of_flock same]
    exact fault_stepFault (by rw [flocks, runs]) (by rw [flocks, first]) 4
  rw [(clash_grows_marked s f tile cause named).fault k (by rw [raised]; decide), raised]

/-! ## TCLR (R140, R170) -/

/-- The flock whose step runs on a fold that takes a syllable. -/
theorem phase_of_takes {s : State} {f slot word k : Nat} (h : takes s f slot word = true) (flock : foldFlock s f = some k) :
    (getFlock s k).phase = 3 := by
  simp only [takes, foldSteps, flock, Bool.and_eq_true, beq_iff_eq] at h
  exact h.1.1

theorem clashTick_dropSyllable (s : State) (f : Nat) : (getFold (dropSyllable s f) f).clashTick = (getFold s f).clashTick := by
  rw [dropSyllable, getFold_modFold_same]

theorem foldFlock_dropSyllable (s : State) (f : Nat) : foldFlock (dropSyllable s f) f = foldFlock s f :=
  foldFlock_congr rfl (by rw [dropSyllable, getFold_modFold_same])

theorem MarksOnly.tile {s t : State} (h : MarksOnly s t) (g k : Nat) : (getFold t g).tile k = (getFold s g).tile k := by
  rw [Fold.tile, h.tiles, Fold.tile]

/-- The state in which a TCLR has opened its tile. -/
def tileOpened (s : State) (f mode tag : Nat) (te : Int) (t : Nat) : State :=
  modFold (modTile s f t fun _ => openTile mode tag te (clearCarried s f t)) f fun x => occupy x (x.now + 4) 0

theorem issueTclr_of_no_stop {s : State} {f mode tag rsv t : Nat} (h : clearCheck s f mode tag rsv t = []) (te : Int) :
    issueTclr s f mode tag te rsv t = tileOpened s f mode tag te t := by
  rw [issueTclr, h]
  rfl

theorem tile_tileOpened (s : State) (f mode tag : Nat) (te : Int) (t k : Nat) : (getFold (tileOpened s f mode tag te t) f).tile k =
    if k = t then openTile mode tag te (clearCarried s f t) else (getFold s f).tile k := by
  have occupied : ∀ x : Fold, (occupy x (x.now + 4) 0).tile k = x.tile k := fun _ => rfl
  rw [tileOpened, getFold_modFold_same, occupied, modTile, getFold_modFold_same, Fold.tile_setTile]

theorem tileOpened_onlyFolds (s : State) (f mode tag : Nat) (te : Int) (t : Nat) : OnlyFolds [f] s (tileOpened s f mode tag te t) :=
  ((OnlyFolds.refl [f] s).modFold f _ List.mem_cons_self).modFold f _ List.mem_cons_self

theorem tileOpened_via (s : State) (f mode tag : Nat) (te : Int) (t : Nat) : Via stopParts s (tileOpened s f mode tag te t) :=
  .step (modFold_via ..) rfl ((modTile_via ..).mono rfl)

/-- A TCLR on a tile whose claim is open clashes, whatever the carry store holds (log entry 127). -/
theorem clearCheck_open {s : State} {f mode t : Nat} (valid : mode ≠ 3) (h : ((getFold s f).tile t).open_ = true) (tag : Nat) :
    clearCheck s f mode tag 0 t = [.clash t 3 tag] := by
  have ok : (mode == 3) = false := beq_eq_false_iff_ne.mpr valid
  simp [clearCheck, allStops, stopIf, h, ok]

theorem issueTclr_open {s : State} {f mode t : Nat} (valid : mode ≠ 3) (h : ((getFold s f).tile t).open_ = true) (tag : Nat) (te : Int) :
    issueTclr s f mode tag te 0 t = clash s f t 3 tag := by
  rw [issueTclr, clearCheck_open valid h]
  rfl

theorem answers_tclr {s : State} {f : Fin 68} {mode : BitVec 2} {tag te : BitVec 8} {rsv : BitVec 3} {tile : Fin 128} {P : State → Prop}
    (taken : takes s f 0 (tclrWord mode tag te rsv tile) = true)
    (h : P (settleTodo (issueTclr (dropSyllable s f) f mode.toNat tag.toNat (toSigned te.toNat 8) rsv.toNat tile) f)) :
    Answers (.tclr f mode tag te rsv tile) s P := by
  refine ⟨_, ?_, h⟩
  show execTclr f mode tag te rsv tile s = _
  rw [execTclr, syllable_of_takes taken]

/-! ## The claim -/

/-- Settles O14: what follows the effect of the syllable leaves the tiles (`settleTodo_marks`) and only adds faults (`settleTodo_grows`). -/
theorem clearOpensTheTileOrClashes : Obligations.ClearOpensTheTileOrClashes := by
  unfold Obligations.ClearOpensTheTileOrClashes
  refine ⟨fun s f mode tag te rsv tile taken free => ?opens, fun s f tag tile mode te taken valid claimed => ?clashes⟩
  case opens =>
    have tiles : ∀ k, (getFold (settleTodo (tileOpened (dropSyllable s f) f mode.toNat tag.toNat (toSigned te.toNat 8) tile) f) f).tile k =
        if k = tile.val then openTile mode.toNat tag.toNat (toSigned te.toNat 8) (clearCarried (dropSyllable s f) f tile)
        else (getFold s f).tile k := fun k => by
      rw [(settleTodo_marks ..).tile, tile_tileOpened, tile_dropSyllable]
    refine answers_tclr taken ?_
    rw [issueTclr_of_no_stop free, tiles, if_pos rfl]
    exact ⟨rfl, rfl, rfl, rfl, rfl, rfl, rfl, rfl, fun k hk => by rw [tiles, if_neg hk],
      syllable_folds (tileOpened_onlyFolds _ _ _ _ _ _) List.mem_cons_self, syllable_parts (tileOpened_via ..) rfl⟩
  case clashes =>
    have issued : issueTclr (dropSyllable s f) f mode.toNat tag.toNat (toSigned te.toNat 8) (0 : BitVec 3).toNat tile =
        clash (dropSyllable s f) f tile 3 tag.toNat :=
      issueTclr_open (fun e => valid (BitVec.eq_of_toNat_eq e)) (by rwa [tile_dropSyllable]) ..
    have settled := settleTodo_grows (clash (dropSyllable s f) f tile 3 tag.toNat) f
    refine answers_tclr taken ?_
    rw [issued, (settleTodo_marks ..).tile, tile_clash, tile_dropSyllable]
    refine ⟨rfl, rfl, settled.errs _ _ (by decide) (errSum_clash ..), fun first => ?_, fun k flock noFault => ?_,
      syllable_folds (clash_onlyFolds _ _ _ _ _) List.mem_cons_self, syllable_parts (clash_via ..) rfl⟩
    · obtain ⟨shownTile, shownCause, shownTag⟩ :=
        tileClashInfo_clash (s := dropSyllable s f) (f := f) (by rwa [clashTick_dropSyllable]) tile 3 tag.toNat
      rw [settled.places.field _ _ _ (by decide), settled.places.field _ _ _ (by decide), settled.places.field _ _ _ (by decide)]
      exact ⟨shownTile.trans (Nat.mod_eq_of_lt tile.isLt), shownCause, shownTag.trans (Nat.mod_eq_of_lt tag.isLt)⟩
    · have runs : (getFlock (dropSyllable s f) k).phase = 3 := phase_of_takes (s := s) taken flock
      have raised := fault_clash ((foldFlock_dropSyllable s f).trans flock) runs noFault tile 3 tag.toNat
      rw [settled.fault k (by rw [raised]; decide), raised]

end Sys2Proof.Machine
end

section
/-! SUPPORT. Adds and combines into tiles (R107, R108, R136, R148, R168, R173) and words of the tile window (R147). -/

namespace Sys2Proof.Machine

open Sys2Proof

/-! ## The passes of a repeat (R137 to R139) -/

/-- The passes of a repeat count on the layer, and change nothing else of the folds. -/
theorem getFold_repeatEffects (s : State) (f layer passes : Nat) (sat : Bool) : ∃ layerR, ∀ g,
    getFold (repeatEffects s f layer passes sat) g = if g = f then { getFold s f with layerR := layerR } else getFold s g := by
  unfold repeatEffects
  extract_lets pg counted cycles repeated
  have before : ∀ g, getFold counted g = getFold s g := fun g => by
    simp only [counted, apply_ite (getFold · g), getFold_bump, ite_self]
  split
  · refine ⟨(getFold s f).layerR, fun g => ?_⟩
    rw [before]
    split
    · rename_i e
      rw [e]
    · rfl
  · have after : ∀ g, getFold cycles g = getFold s g := fun g => by rw [getFold_bump, getFold_bump, before]
    refine ⟨modD 0 (getFold s f).layerR layer (· + passes), fun g => ?_⟩
    rw [(askPause_via ..).getFold rfl, getFold_modFold, after, after]

theorem getFold_repeatEffects_same (s : State) (f layer passes : Nat) (sat : Bool) : ∃ layerR,
    getFold (repeatEffects s f layer passes sat) f = { getFold s f with layerR := layerR } := by
  obtain ⟨layerR, repeated⟩ := getFold_repeatEffects s f layer passes sat
  exact ⟨layerR, (repeated f).trans (if_pos rfl)⟩

theorem repeatEffects_onlyFolds (s : State) (f layer passes : Nat) (sat : Bool) :
    OnlyFolds [f] s (repeatEffects s f layer passes sat) := fun g hg => by
  obtain ⟨layerR, repeated⟩ := getFold_repeatEffects s f layer passes sat
  rw [repeated, if_neg (List.mem_singleton.not.mp hg)]

/-- A tile after it is replaced, and the passes that follow. -/
theorem tile_repeatEffects_modTile (s : State) (f i : Nat) (g : Tile → Tile) (layer passes : Nat) (sat : Bool) (j : Nat) :
    (getFold (repeatEffects (modTile s f i g) f layer passes sat) f).tile j =
      if j = i then g ((getFold s f).tile i) else (getFold s f).tile j := by
  obtain ⟨layerR, repeated⟩ := getFold_repeatEffects_same (modTile s f i g) f layer passes sat
  rw [repeated]
  show (getFold (modTile s f i g) f).tile j = _
  rw [modTile, getFold_modFold_same, Fold.tile_setTile]

theorem OnlyFolds.modTile {fs : List Nat} {s t : State} (f i : Nat) (g : Tile → Tile) (h : OnlyFolds fs s t) (k : f ∈ fs) :
    OnlyFolds fs s (modTile t f i g) := h.modFold f _ k

/-! ## ADD_ALIGN (R107, R136, R168) -/

/-- The conversions of the add of `o` that add to its tile: those that are neither masked nor suppressed (R107, R168). -/
def addedConvs (x : Fold) (o : ConvOp) : List Conv :=
  (x.convs.filter fun k => sameAdd o k.op).filter fun k => !k.op.masked && !k.op.noAdd

/-- The state in which the conversions of the add of `o` have left their list. -/
def addTaken (s : State) (f : Nat) (o : ConvOp) : State :=
  putFold s f { getFold s f with convs := (getFold s f).convs.filter fun k => !sameAdd o k.op }

theorem getFold_addTaken (s : State) (f : Nat) (o : ConvOp) : getFold (addTaken s f o) f =
    { getFold s f with convs := (getFold s f).convs.filter fun k => !sameAdd o k.op } := by
  rw [addTaken, getFold_putFold, if_pos rfl]

theorem addTaken_onlyFolds (s : State) (f : Nat) (o : ConvOp) : OnlyFolds [f] s (addTaken s f o) := fun g hg => by
  rw [addTaken, getFold_putFold, if_neg (List.mem_singleton.not.mp hg)]

theorem alignAdd_of_none {s : State} {f : Nat} {o : ConvOp} (h : addedConvs (getFold s f) o = []) : alignAdd s f o .ok = addTaken s f o := by
  unfold alignAdd
  extract_lets x group taken ks
  have listed : ks = [] := h
  rw [listed]
  rfl

/-- The tile of an add with its row, tagged with the layer of the first conversion (log entry 79). -/
def addedTile (o : ConvOp) (k : Conv) (ks : List Conv) (y : Tile) : Tile :=
  { (addRow o.row ks y).tile with layer := k.op.layer, convs := if y.windowed then [] else y.convs ++ ks }

theorem alignAdd_of_some {s : State} {f : Nat} {o : ConvOp} {k : Conv} {ks : List Conv} (h : addedConvs (getFold s f) o = k :: ks) :
    alignAdd s f o .ok =
      let r := addRow o.row (k :: ks) ((getFold s f).tile o.tile)
      repeatEffects (modTile (addTaken s f o) f o.tile fun _ => addedTile o k (k :: ks) ((getFold s f).tile o.tile)) f k.op.layer
        r.passes r.sat := by
  have same : (getFold (addTaken s f o) f).tile o.tile = (getFold s f).tile o.tile := by
    rw [getFold_addTaken]
    rfl
  rw [← same]
  unfold alignAdd
  extract_lets x group taken added
  have listed : added = k :: ks := h
  clear_value added
  subst listed
  rfl

theorem alignAdd_onlyFolds (s : State) (f : Nat) (o : ConvOp) : OnlyFolds [f] s (alignAdd s f o .ok) := by
  cases h : addedConvs (getFold s f) o with
  | nil =>
    rw [alignAdd_of_none h]
    exact addTaken_onlyFolds s f o
  | cons k ks =>
    rw [alignAdd_of_some h]
    exact ((addTaken_onlyFolds s f o).modTile f _ _ List.mem_cons_self).trans (repeatEffects_onlyFolds _ _ _ _ _)

theorem alignAdd_ok_via (s : State) (f : Nat) (o : ConvOp) : Via [.regs, .folds, .pause] s (alignAdd s f o .ok) := by
  have taken : Via [.regs, .folds, .pause] s (addTaken s f o) := (putFold_via ..).mono rfl
  cases h : addedConvs (getFold s f) o with
  | nil =>
    rw [alignAdd_of_none h]
    exact taken
  | cons k ks =>
    rw [alignAdd_of_some h]
    exact .step (repeatEffects_via ..) rfl (.step (modTile_via ..) rfl taken)

/-- The conversions of the add leave the list, whether or not they add (R168). -/
theorem convs_alignAdd (s : State) (f : Nat) (o : ConvOp) :
    (getFold (alignAdd s f o .ok) f).convs = (getFold s f).convs.filter fun q => !sameAdd o q.op := by
  cases h : addedConvs (getFold s f) o with
  | nil => rw [alignAdd_of_none h, getFold_addTaken]
  | cons k ks =>
    rw [alignAdd_of_some h]
    dsimp only
    obtain ⟨layerR, repeated⟩ := getFold_repeatEffects_same (modTile (addTaken s f o) f o.tile fun _ => _) f k.op.layer _ _
    rw [repeated, modTile, getFold_modFold_same, getFold_addTaken]
    rfl

theorem tiles_alignAdd_of_none {s : State} {f : Nat} {o : ConvOp} (h : addedConvs (getFold s f) o = []) :
    (getFold (alignAdd s f o .ok) f).tiles = (getFold s f).tiles := by
  rw [alignAdd_of_none h, getFold_addTaken]

theorem tile_alignAdd_of_some {s : State} {f : Nat} {o : ConvOp} {k : Conv} {ks : List Conv} (h : addedConvs (getFold s f) o = k :: ks)
    (j : Nat) : (getFold (alignAdd s f o .ok) f).tile j =
      if j = o.tile then addedTile o k (k :: ks) ((getFold s f).tile o.tile) else (getFold s f).tile j := by
  rw [alignAdd_of_some h, tile_repeatEffects_modTile, getFold_addTaken]
  rfl

theorem answers_addAlign {s : State} {f : Fin 68} {k : Conv} {P : State → Prop} (first : firstDelivered (getFold s f).convs = some k)
    (at48 : due s (k.op.lat + 48) = true) (h : P (alignAdd s f k.op .ok)) : Answers (.addAlign f .ok) s P := by
  refine ⟨_, ?_, h⟩
  show execAddAlign f .ok s = _
  simp only [execAddAlign, first, at48, if_true]

/-! ## COMBINE_LAND (R148, R173) -/

theorem tile_landCombine (s : State) (f : Nat) (k : Combine) (rest : List Combine) (j : Nat) : (getFold (landCombine s f k rest) f).tile j =
    if j = k.tile then { (redAdd ((getFold s f).tile k.tile) k.operand).tile with layer := k.layer } else (getFold s f).tile j := by
  rw [landCombine, tile_repeatEffects_modTile, getFold_modFold_same]
  rfl

theorem combines_landCombine (s : State) (f : Nat) (k : Combine) (rest : List Combine) :
    (getFold (landCombine s f k rest) f).combines = rest := by
  unfold landCombine
  extract_lets r taken tile added
  obtain ⟨layerR, repeated⟩ := getFold_repeatEffects_same added f k.layer r.passes r.sat
  rw [repeated]
  simp only [added, taken, modTile, getFold_modFold_same, Fold.setTile]

theorem landCombine_onlyFolds (s : State) (f : Nat) (k : Combine) (rest : List Combine) : OnlyFolds [f] s (landCombine s f k rest) := by
  have taken : OnlyFolds [f] s (modFold s f fun x => { x with combines := rest }) := .modFold f _ (.refl _ s) List.mem_cons_self
  unfold landCombine
  exact (taken.modTile f _ _ List.mem_cons_self).trans (repeatEffects_onlyFolds _ _ _ _ _)

theorem answers_combineLand {s : State} {f : Fin 68} {k : Combine} {rest : List Combine} {P : State → Prop}
    (oldest : (getFold s f).combines = k :: rest) (at32 : due s (k.c + 32) = true) (h : P (landCombine s f k rest)) :
    Answers (.combineLand f) s P := by
  refine ⟨_, ?_, h⟩
  show execCombineLand f s = _
  simp only [execCombineLand, oldest, at32, if_true]

/-! ## TILE_WINDOW_WRITE (R147) -/

theorem answers_tileWindowWrite {s : State} {src : Source} {f : Fin 68} {o : BitVec 24} {v : BitVec 64} {P : State → Prop}
    (isOpen : windowOpen s src f = true) (h : P (tileWrite s src f o.toNat v.toNat)) : Answers (.tileWindowWrite src f o v) s P := by
  refine ⟨_, ?_, h⟩
  show execTileWindowWrite src f o v s = _
  rw [execTileWindowWrite, if_pos isOpen]

/-! ## The claim -/

/-- Settles O21: an open window stores the word; an add replaces its own tile alone, and only when it adds a conversion
(`tile_alignAdd_of_some`); a combine replaces its tile (`tile_landCombine`). -/
theorem rowsAndImagesAreAdded : Obligations.RowsAndImagesAreAdded := by
  unfold Obligations.RowsAndImagesAreAdded
  refine ⟨fun s src f o v isOpen => answers_tileWindowWrite isOpen rfl, fun s f k first at48 => ?add, fun s f k rest oldest at32 => ?combine⟩
  case add =>
    extract_lets ks y
    have frame : OnlyFolds [f.val] s (alignAdd s f k.op .ok) ∧ Only [.regs, .folds, .pause] s (alignAdd s f k.op .ok) :=
      ⟨alignAdd_onlyFolds _ _ _, (alignAdd_ok_via ..).same⟩
    refine answers_addAlign first at48 ⟨convs_alignAdd .., tiles_alignAdd_of_none, fun adds => ?_, fun j hj => ?_, frame⟩
    · obtain ⟨q, qs, added⟩ := List.exists_cons_of_ne_nil adds
      rw [tile_alignAdd_of_some added, if_pos rfl, added]
      exact ⟨rfl, rfl, rfl⟩
    · cases added : addedConvs (getFold s f) k.op with
      | nil => rw [Fold.tile, tiles_alignAdd_of_none added, Fold.tile]
      | cons q qs => rw [tile_alignAdd_of_some added, if_neg hj]
  case combine =>
    refine answers_combineLand oldest at32 ⟨combines_landCombine .., ?_, ?_, fun j hj => ?_, landCombine_onlyFolds _ _ _ _,
      (landCombine_via ..).same⟩
    · rw [tile_landCombine, if_pos rfl]
    · rw [tile_landCombine, if_pos rfl]
    · rw [tile_landCombine, if_neg hj]

end Sys2Proof.Machine
end

section
/-! SUPPORT. The state and the role of a fold under the tests, the rotation and the retirement (R146, R388 to R392, R401). -/

namespace Sys2Proof.Machine

open Sys2Proof

/-! ## What the tests of other folds leave (R377, R388 to R392) -/

/-- The register fields that show the rotation of a die (R401). -/
def rotFields : List (Field × Nat) := [(F.ROT_STATE_CD0, 0), (F.ROT_STATE_FOLD0, 0), (F.ROT_STATE_CD1, 0), (F.ROT_STATE_FOLD1, 0)]

/-- The register fields that the tests of other folds can write, beside a fold's state and role and the spares shown. -/
def slotTestFields : List (Field × Nat) := rotFields ++
  [(F.FOLD_ROLE_SLOT, 0), (F.FOLD_ROLE_SLOTV, 0), (F.SLOT_FAILED_LO, 0), (F.SLOT_FAILED_HI, 0), (F.ROT_ABANDON, 0), (F.STATUS_SAT, 0)]

/-- The register fields that the tests of other folds can write. -/
def testFields : List (Field × Nat) := (F.FOLD_STATE, 0) :: suspectFields

/-- The fields that show the state and the role of a fold (R146, R389). -/
def stateFields : List Field := [F.FOLD_STATE, F.FOLD_ROLE_ROLE]

/-- The registers that show the spares (R19). -/
def spareKeys : List (Nat × Field × Nat) :=
  [(iodPg, F.HEFT_SPARE_CD0_FOLD1, 0), (iodPg, F.HEFT_SPARE_CD0_VALID1, 0), (iodPg, F.HEFT_SPARE_CD0_FOLD2, 0),
    (iodPg, F.HEFT_SPARE_CD0_VALID2, 0), (iodPg, F.HEFT_SPARE_CD1_FOLD1, 0), (iodPg, F.HEFT_SPARE_CD1_VALID1, 0),
    (iodPg, F.HEFT_SPARE_CD1_FOLD2, 0), (iodPg, F.HEFT_SPARE_CD1_VALID2, 0)]

theorem showSpares_fields (s : State) : OnlyFields spareKeys s (showSpares s) := by
  unfold showSpares wr0
  exact ((((((((OnlyFields.refl _ s).wr _ _ _ _ (by decide)).wr _ _ _ _ (by decide)).wr _ _ _ _ (by decide)).wr _ _ _ _ (by decide)).wr
    _ _ _ _ (by decide)).wr _ _ _ _ (by decide)).wr _ _ _ _ (by decide)).wr _ _ _ _ (by decide)

/-- From `s` to `t` other folds than `f` are tested: `f` keeps its state and its role, and no passed test counts. -/
structure OthersTested (f : Nat) (s t : State) : Prop where
  /-- FOLD_STATE -/
  state : rd t (foldPg f) F.FOLD_STATE = rd s (foldPg f) F.FOLD_STATE
  /-- the role -/
  role : roleOf t f = roleOf s f
  /-- the count of passed tests -/
  passes : rd t testPg F.TEST_PASS_CNT = rd s testPg F.TEST_PASS_CNT
  /-- the registers -/
  places : OnlyPlaces (placesOf testFields) s t

theorem setRot_places (s : State) (die st f : Nat) : OnlyPlaces (placesOf rotFields) s (setRot s die st f) :=
  .ite (((OnlyPlaces.refl _ s).wr0 (by decide) ..).wr0 (by decide) ..) (((OnlyPlaces.refl _ s).wr0 (by decide) ..).wr0 (by decide) ..)

theorem placesOf_mono {fs gs : List (Field × Nat)} (h : (fs.map fun e => place e.1 e.2) ⊆ gs.map fun e => place e.1 e.2) :
    ∀ p, placesOf fs p → placesOf gs p := fun _ hp => h hp

theorem failSlot_places (s : State) (k : Nat) : OnlyPlaces (placesOf slotTestFields) s (failSlot s k) :=
  .forEach (fun u q => .ite (.via (.refl _ u) (putFlock_via ..) rfl) (.refl _ u))
    (.ite ((OnlyPlaces.refl _ s).wrBit (by decide) ..) ((OnlyPlaces.refl _ s).wrBit (by decide) ..))

theorem abandonFill_places (s : State) (x : Fill) : OnlyPlaces (placesOf slotTestFields) s (abandonFill s x) :=
  (((OnlyPlaces.refl _ s).bump (by decide) (by decide) ..).via (dropFill_via ..) rfl).trans
    ((setRot_places ..).mono (placesOf_mono (by decide)))

theorem nextSpare_places (s : State) (die : Nat) : OnlyPlaces (placesOf slotTestFields) s (nextSpare s die).2 := by
  unfold nextSpare
  split
  · exact .refl _ s
  · split
    · exact abandonFill_places ..
    · exact .refl _ s

namespace OthersTested

variable {f g : Nat} {r s t : State}

theorem refl (f : Nat) (s : State) : OthersTested f s s := ⟨rfl, rfl, rfl, .refl _ s⟩

theorem trans (h : OthersTested f r s) (k : OthersTested f s t) : OthersTested f r t :=
  ⟨k.state.trans h.state, k.role.trans h.role, k.passes.trans h.passes, h.places.trans k.places⟩

theorem ite {a b : State} {c : Prop} [Decidable c] (h : OthersTested f r a) (k : OthersTested f r b) :
    OthersTested f r (if c then a else b) := by
  split
  · exact h
  · exact k

theorem write (h : OthersTested f r s) (k : OnlyPlaces (placesOf slotTestFields) s t) : OthersTested f r t :=
  h.trans ⟨k.field _ _ _ (by decide), k.field _ _ _ (by decide), k.field _ _ _ (by decide), k.mono (placesOf_mono (by decide))⟩

theorem via {ps : List StatePart} (h : OthersTested f r s) (k : Via ps s t) (hps : ps.contains .regs = false) : OthersTested f r t :=
  h.write (.via (.refl _ s) k hps)

theorem showSpares (h : OthersTested f r s) : OthersTested f r (showSpares s) := by
  have shown := showSpares_fields s
  have apart : ∀ e ∈ spareKeys, ∀ i ∈ stateFields, place e.2.1 e.2.2 ≠ place i 0 := by decide
  have kept : ∀ i ∈ stateFields, (spareKeys.all fun k => fkey k.1 k.2.1 k.2.2 != fkey (foldPg f) i 0) = true := fun i hi =>
    List.all_eq_true.mpr fun e he => bne_iff_ne.mpr fun same => apart e he i hi (by rw [← fkey_mod e.1, same, fkey_mod])
  exact h.trans ⟨shown _ _ _ (kept _ (by decide)), shown _ _ _ (kept _ (by decide)), shown _ _ _ (by decide),
    (showSpares_places s).mono (placesOf_mono (by decide))⟩

/-- Another fold's state or role is written. -/
theorem other (h : OthersTested f r s) (ne : g ≠ f) {e : Field} (he : e ∈ stateFields) (v : Nat) :
    OthersTested f r (wr0 s (foldPg g) e v) := by
  have facts : ∀ e ∈ stateFields, fkey 0 e 0 < 131072 ∧ place e 0 ≠ place F.TEST_PASS_CNT 0 ∧ placesOf testFields (place e 0) := by decide
  obtain ⟨inPage, count, listed⟩ := facts e he
  have apart : ∀ i ∈ stateFields, fkey (foldPg g) e 0 ≠ fkey (foldPg f) i 0 := fun i hi => by
    have := (facts i hi).1
    simp only [fkey, foldPg] at *
    omega
  exact h.trans ⟨rd_wr_ne _ _ _ _ _ _ _ _ (apart _ (by decide)), rd_wr_ne _ _ _ _ _ _ _ _ (apart _ (by decide)),
    rd_wr_ne _ _ _ _ _ _ _ _ fun same => count (by rw [← fkey_mod (foldPg g), same, fkey_mod]), (OnlyPlaces.refl _ s).wr0 listed ..⟩

theorem setRole (h : OthersTested f r s) (ne : g ≠ f) (role : Nat) (slot : Option Nat) : OthersTested f r (setRole s g role slot) :=
  ((h.other ne (by decide) role).write (((OnlyPlaces.refl _ _).wr0 (by decide) ..).wr0 (by decide) ..)).showSpares

theorem startFill (h : OthersTested f r s) (ne : g ≠ f) (of k why : Nat) : OthersTested f r (startFill s g of k why) :=
  (h.via (setCare_via ..) rfl).setRole ne ..

theorem startTest (h : OthersTested f r s) (ne : g ≠ f) : OthersTested f r (startTest s g) :=
  ((h.other ne (by decide) 1).setRole ne ..).write
    ((setRot_places ..).mono (placesOf_mono (by decide)))

/-- The forced tests of other folds start (R392). -/
theorem startForced (h : OthersTested f r s) (free : f ∉ s.care.forced) : OthersTested f r (startForced s) := by
  refine h.trans (forEach_keeps (I := OthersTested f s) (fun u g hg hu => ?_) (.refl f s))
  have dropped : ∀ x : Care, OthersTested f s (u.setCare x) := fun x => hu.via (setCare_via ..) rfl
  exact .ite (dropped _) (.ite hu ((dropped _).startTest fun e => free (e ▸ hg)))

end OthersTested

/-! ## A test in place starts (R388, R390, R391) -/

theorem startTest_eq (s : State) (f : Nat) : startTest s f = setRot (setRole (wr0 s (foldPg f) F.FOLD_STATE 1) f roleTesting
    (if roleOf s f = roleQuarantined then none else slotOfFold s f)) (dieOf f) 2 f := rfl

theorem roleOf_startTest (s : State) (f : Nat) : roleOf (startTest s f) f = roleTesting := by
  rw [startTest_eq, roleOf, (setRot_places ..).field _ _ _ (by decide), ← roleOf, roleOf_setRole]
  rfl

/-- A fold's role does not touch its state. -/
theorem foldState_setRole (s : State) (f role : Nat) (slot : Option Nat) (g : Nat) :
    rd (setRole s f role slot) (foldPg g) F.FOLD_STATE = rd s (foldPg g) F.FOLD_STATE := by
  rw [(setRole_places ..).field _ _ _ (by decide),
    ((OnlyPlaces.refl (placesOf [(F.FOLD_ROLE_ROLE, 0)]) s).wr0 (by decide) ..).field _ _ _ (by decide)]

theorem foldState_startTest (s : State) (f : Nat) : rd (startTest s f) (foldPg f) F.FOLD_STATE = 1 := by
  rw [startTest_eq, (setRot_places ..).field _ _ _ (by decide), foldState_setRole, rd_wr0]
  rfl

/-- The rotation's choice is tested in place when it is a spare, or serves a slot that no active drove uses (R391). -/
theorem rotate_in_place {s : State} {f : Nat}
    (h : roleOf s f = roleSpare ∨ roleOf s f = roleServing ∧ ∃ k, slotOfFold s f = some k ∧ slotUsed s k = false) (die : Nat) :
    rotate s die f = startTest s f := by
  unfold rotate
  rcases h with spare | ⟨serving, k, slot, unused⟩
  · rw [if_pos spare]
  · have other : roleOf s f ≠ roleSpare := by
      rw [serving]
      decide
    simp only [if_neg other, if_pos serving, slot, unused, Bool.false_eq_true, if_false]

theorem answers_rotation {s : State} {die : Fin 2} {f : Nat} {P : State → Prop} (on : rd s testPg F.ROT_CTRL_EN = 1)
    (tests : dieTesting s die = false) (fills : s.care.fills.any (fun x => dieOf x.spare == die.val && x.why == 0) = false)
    (held : (foldsOf die).any (fun f => roleOf s f == roleQuarantined && !s.care.released.contains f) = false)
    (oldest : oldestFold s die = some f) (h : P (rotate s die f)) : Answers (.rotation die) s P := by
  refine ⟨_, ?_, h⟩
  show execRotation die s = _
  unfold execRotation
  rw [tests, fills, held, if_pos ⟨on, rfl⟩, oldest]

theorem answers_quarantineTestStart {s : State} {f : Fin 68} {P : State → Prop} (role : roleOf s f = roleQuarantined)
    (tests : dieTesting s (dieOf f) = false) (kept : s.care.released.contains f.val = false) (waits : serviceWaits s .tests = false)
    (h : P (startTest s f)) : Answers (.quarantineTestStart f) s P := by
  refine ⟨_, ?_, h⟩
  show execQuarantineTestStart f s = _
  rw [execQuarantineTestStart, tests, kept, waits, if_pos ⟨role, rfl, rfl, rfl⟩]

/-! ## A test that fails (R388, R390) -/

/-- The spare that a die gives is in state SPARE, or is being filled (R377). -/
theorem spare_of_nextSpare {s u : State} {die sp : Nat} (h : nextSpare s die = (some sp, u)) :
    roleOf s sp = roleSpare ∨ ∃ x ∈ s.care.fills, x.spare = sp := by
  unfold nextSpare at h
  split at h
  · rename_i g found
    cases h
    have listed := List.mem_of_find?_eq_some found
    rw [sparesOf, List.mem_filter, beq_iff_eq] at listed
    exact .inl listed.2
  · split at h
    · rename_i x found
      cases h
      exact .inr ⟨x, List.mem_of_find?_eq_some found, rfl⟩
    · cases h

/-- The state in which a fold that fails its test is counted and retired. -/
def failRetired (s : State) (f : Nat) : State :=
  let u := errEvent (bump s testPg F.TEST_FAIL_CNT) testPg 5
  setRole u f roleRetired (testSlot u f)

theorem failRetired_care (s : State) (f : Nat) : (failRetired s f).care = s.care :=
  (Via.step (setRole_via ..) rfl (.step (errEvent_via ..) rfl ((bump_via s testPg F.TEST_FAIL_CNT 1).mono
    (ps := [.regs]) rfl))).piece (p := .care) rfl

theorem roleOf_failRetired (s : State) (f : Nat) : roleOf (failRetired s f) f = roleRetired := roleOf_setRole ..

/-- A spare that takes over is another fold than the one that has failed. -/
theorem nextSpare_ne {s : State} {f : Nat} (fills : s.care.fills.all (fun y => y.spare != f) = true) {u : State} {die sp : Nat}
    (h : nextSpare (failRetired s f) die = (some sp, u)) : sp ≠ f := by
  rintro rfl
  rcases spare_of_nextSpare h with spare | ⟨x, hx, same⟩
  · rw [roleOf_failRetired] at spare
    exact absurd spare (by decide)
  · rw [failRetired_care] at hx
    exact bne_iff_ne.mp (List.all_eq_true.mp fills x hx) same

theorem forced_abandonFill (s : State) (x : Fill) : (abandonFill s x).care.forced = s.care.forced := by
  have rotated : (abandonFill s x).care = (dropFill (bump s testPg F.ROT_ABANDON) x.spare).care := (setRot_via ..).piece (p := .care) rfl
  have counted : (bump s testPg F.ROT_ABANDON).care = s.care := (bump_via ..).piece (p := .care) rfl
  rw [rotated, dropFill, State.setCare_care, counted]

theorem forced_nextSpare (s : State) (die : Nat) : (nextSpare s die).2.care.forced = s.care.forced := by
  unfold nextSpare
  split
  · rfl
  · split
    · exact forced_abandonFill ..
    · rfl

theorem forced_startFill (s : State) (sp f k why : Nat) : (startFill s sp f k why).care.forced = s.care.forced := by
  have care := (setRole_via (s.setCare { s.care with
    fills := s.care.fills ++ [{ spare := sp, fold := f, slot := k, why := why, left := fillBytes, done := false, due := false }] })
    sp roleFilling (some k)).piece (p := .care) rfl
  rw [startFill, care, State.setCare_care]

/-- After a fold has failed and is retired, a spare is filled for its slot, or the slot fails. -/
theorem testFailed_others {s : State} {f : Nat} (fills : s.care.fills.all (fun y => y.spare != f) = true) :
    OthersTested f (failRetired s f) (testFailed s f) ∧ (testFailed s f).care.forced = s.care.forced := by
  have care := failRetired_care s f
  unfold testFailed
  extract_lets counted slot retired
  have whole : retired = failRetired s f := rfl
  rw [whole]
  clear_value retired slot
  cases slot with
  | none => exact ⟨.refl _ _, by rw [care]⟩
  | some k =>
    have places := nextSpare_places (failRetired s f) (dieOf f)
    have forced : (nextSpare (failRetired s f) (dieOf f)).2.care.forced = s.care.forced := by
      rw [forced_nextSpare, care]
    dsimp only
    split
    · rename_i sp u found
      rw [found] at places forced
      exact ⟨((OthersTested.refl _ _).write places).startFill (nextSpare_ne fills found) .., (forced_startFill ..).trans forced⟩
    · rename_i u found
      rw [found] at places forced
      have care : (failSlot u k).care = u.care := (failSlot_via u k).piece (p := .care) rfl
      exact ⟨((OthersTested.refl _ _).write places).write (failSlot_places ..), by rw [care, forced]⟩

/-- The slot of a fold under test rests on the register that shows its role (R389). -/
theorem OnlyPlaces.testSlot {here : Nat → Prop} {s t : State} (h : OnlyPlaces here s t) (valid : ¬ here (place F.FOLD_ROLE_SLOTV 0))
    (slot : ¬ here (place F.FOLD_ROLE_SLOT 0)) (f : Nat) : Machine.testSlot t f = Machine.testSlot s f := by
  rw [Machine.testSlot, h.field _ _ _ valid, h.field _ _ _ slot, Machine.testSlot]

theorem failRetired_places (s : State) (f : Nat) : OnlyPlaces (placesOf ((F.FOLD_ROLE_ROLE, 0) :: slotFields))
    (errEvent (bump s testPg F.TEST_FAIL_CNT) testPg 5) (failRetired s f) :=
  ((OnlyPlaces.refl _ _).wr0 (by decide) ..).trans ((setRole_places ..).mono fun _ hp => List.mem_cons_of_mem _ hp)

theorem errSum_failRetired (s : State) (f : Nat) : bit (rd (failRetired s f) testPg F.ERR_SUM) 5 = true := by
  rw [(failRetired_places s f).field _ _ _ (by decide)]
  exact errSum_errEvent (by decide) ..

/-- An error event leaves the fields that are not in the words of the header (R486). -/
theorem rd_errEvent {g : Field} {i : Nat} (h : ¬ placesOf ((F.ERR_SUM, 0) :: eventFields) (place g i)) (s : State) (pg b q : Nat) :
    rd (errEvent s pg b) q g i = rd s q g i := by
  have event : OnlyPlaces (placesOf ((F.ERR_SUM, 0) :: eventFields)) s (errEvent s pg b) :=
    ((OnlyPlaces.refl _ s).wrBit List.mem_cons_self ..).trans ((errEvent_places s pg b).mono fun _ hp => List.mem_cons_of_mem _ hp)
  exact event.field _ _ _ h

theorem failCnt_failRetired {s : State} (h : rd s testPg F.TEST_FAIL_CNT < 2 ^ 32 - 2) (f : Nat) :
    rd (failRetired s f) testPg F.TEST_FAIL_CNT = rd s testPg F.TEST_FAIL_CNT + 1 := by
  rw [(failRetired_places s f).field _ _ _ (by decide), rd_errEvent (by decide)]
  exact rd_bumpI s _ _ 0 1 rfl (by omega)

theorem foldState_failRetired (s : State) (f : Nat) : rd (failRetired s f) (foldPg f) F.FOLD_STATE = rd s (foldPg f) F.FOLD_STATE := by
  rw [(failRetired_places s f).field _ _ _ (by decide), rd_errEvent (by decide),
    ((OnlyPlaces.refl (placesOf [(F.TEST_FAIL_CNT, 0), (F.STATUS_SAT, 0)]) s).bump (by decide) (by decide) ..).field _ _ _ (by decide)]

/-! ## A test that passes (R388, R390) -/

/-- The register fields that a passed test of fold `f` writes, beside its role. -/
def passFields (f : Nat) : List (Field × Nat) :=
  [(F.TEST_PASS_CNT, 0), (F.STATUS_SAT, 0), (F.LAST_TEST_LO, 0), (F.LAST_TEST_HI, 0), (F.TEST_OVERDUE, f / 32)]

/-- The state in which a passed test is counted and dated. -/
def passCounted (s : State) (f : Nat) : State :=
  let u := wrBit (wrPair (bump s testPg F.TEST_PASS_CNT) (foldPg f) F.LAST_TEST_LO F.LAST_TEST_HI s.tally.num) testPg F.TEST_OVERDUE
    (f / 32) (f % 32) false
  u.setCare { u.care with tested := putD 0 u.care.tested f u.tally.tb }

theorem testPassed_eq (s : State) (f : Nat) : testPassed s f = setRole (passCounted s f) f
    (if (testSlot (passCounted s f) f).isSome then roleServing else roleSpare) (testSlot (passCounted s f) f) := by
  unfold testPassed
  dsimp only
  split
  · rename_i k h
    rw [show testSlot (passCounted s f) f = some k from h]
    rfl
  · rename_i h
    rw [show testSlot (passCounted s f) f = none from h]
    rfl

theorem passCounted_places (s : State) (f : Nat) : OnlyPlaces (placesOf (passFields f)) s (passCounted s f) :=
  .via (((((OnlyPlaces.refl _ s).bump (by simp [passFields]) (by simp [passFields]) ..).wr0 (by simp [passFields]) ..).wr0
    (by simp [passFields]) ..).wrBit (by simp [passFields]) ..) (setCare_via ..) rfl

theorem passFields_apart : ∀ f : Fin 68, ∀ g ∈ [F.FOLD_STATE, F.FOLD_ROLE_SLOTV, F.FOLD_ROLE_SLOT], ¬ placesOf (passFields f) (place g 0) := by
  decide

/-- The words that date the test, and the bit of an overdue one, are other places than the count. -/
theorem passTail_apart : ∀ f : Fin 68,
    ¬ placesOf [(F.LAST_TEST_LO, 0), (F.LAST_TEST_HI, 0), (F.TEST_OVERDUE, f.val / 32)] (place F.TEST_PASS_CNT 0)
      ∧ ¬ placesOf [(F.LAST_TEST_HI, 0), (F.TEST_OVERDUE, f.val / 32)] (place F.LAST_TEST_LO 0) := by decide

theorem passCnt_passCounted {s : State} (h : rd s testPg F.TEST_PASS_CNT < 2 ^ 32 - 2) (f : Fin 68) :
    rd (passCounted s f) testPg F.TEST_PASS_CNT = rd s testPg F.TEST_PASS_CNT + 1 := by
  have tail : OnlyPlaces (placesOf [(F.LAST_TEST_LO, 0), (F.LAST_TEST_HI, 0), (F.TEST_OVERDUE, f.val / 32)])
      (bump s testPg F.TEST_PASS_CNT) (passCounted s f) :=
    .via ((((OnlyPlaces.refl _ _).wr0 (by simp) ..).wr0 (by simp) ..).wrBit (by simp) ..) (setCare_via ..) rfl
  rw [tail.field _ _ _ (passTail_apart f).1]
  exact rd_bumpI s _ _ 0 1 rfl (by omega)

theorem lastTest_passCounted (s : State) (f : Fin 68) : rd (passCounted s f) (foldPg f) F.LAST_TEST_LO = s.tally.num % 2 ^ 32 := by
  have tail : OnlyPlaces (placesOf [(F.LAST_TEST_HI, 0), (F.TEST_OVERDUE, f.val / 32)])
      (wr0 (bump s testPg F.TEST_PASS_CNT) (foldPg f) F.LAST_TEST_LO s.tally.num) (passCounted s f) :=
    .via (((OnlyPlaces.refl _ _).wr0 (by simp) ..).wrBit (by simp) ..) (setCare_via ..) rfl
  rw [tail.field _ _ _ (passTail_apart f).2, rd_wr0]
  rfl

theorem testSlot_passCounted (s : State) (f : Fin 68) : testSlot (passCounted s f) f = testSlot s f :=
  (passCounted_places s f).testSlot (passFields_apart f _ (by decide)) (passFields_apart f _ (by decide)) f

/-- What a passed test leaves of the registers of its fold, and its count. -/
theorem testPassed_keeps (s : State) (f : Fin 68) :
    roleOf (testPassed s f) f = (if (testSlot s f).isSome then roleServing else roleSpare)
      ∧ rd (testPassed s f) (foldPg f) F.FOLD_STATE = rd s (foldPg f) F.FOLD_STATE
      ∧ rd (testPassed s f) (foldPg f) F.LAST_TEST_LO = s.tally.num % 2 ^ 32
      ∧ rd (testPassed s f) testPg F.TEST_PASS_CNT = rd (passCounted s f) testPg F.TEST_PASS_CNT := by
  have places := passCounted_places s f
  rw [testPassed_eq, testSlot_passCounted, foldState_setRole, places.field _ _ _ (passFields_apart f _ (by decide)),
    (setRole_places ..).field _ F.LAST_TEST_LO _ (by decide),
    ((OnlyPlaces.refl (placesOf [(F.FOLD_ROLE_ROLE, 0)]) (passCounted s f)).wr0 (by decide) ..).field _ F.LAST_TEST_LO _ (by decide),
    lastTest_passCounted]
  refine ⟨?_, rfl, rfl, ?_⟩
  · rw [roleOf_setRole]
    split
    · rfl
    · rfl
  · exact ((OthersTested.refl (f + 1) (passCounted s f)).setRole (Nat.ne_of_lt (Nat.lt_succ_self _)) ..).passes

theorem forced_testPassed (s : State) (f : Nat) : (testPassed s f).care.forced = s.care.forced := by
  have role : (testPassed s f).care = (passCounted s f).care := by
    rw [testPassed_eq]
    exact (setRole_via ..).piece (p := .care) rfl
  have counted : (wrBit (wrPair (bump s testPg F.TEST_PASS_CNT) (foldPg f) F.LAST_TEST_LO F.LAST_TEST_HI s.tally.num) testPg
      F.TEST_OVERDUE (f / 32) (f % 32) false).care = s.care :=
    (Via.step (wrBit_via ..) rfl (.step (wrPair_via ..) rfl (bump_via s testPg F.TEST_PASS_CNT 1))).piece (p := .care) rfl
  rw [role, passCounted, State.setCare_care, counted]

/-! ## SCAN_TEST_DONE (R69, R390) -/

/-- The state in which a fold under test has run its scan and its boot calibration, and is in SERVICE again. -/
def scanned (s : State) (f : Nat) (rs : List CalResult) : State :=
  setRot (wr0 (modFold (arraysCalibrated s f rs) f fun x => { x with calDue := false, calBoot := false }) (foldPg f) F.FOLD_STATE 0)
    (dieOf f) 0 0

/-- How a test ends. -/
def testEnded (s : State) (f : Nat) (scan : Bool) (rs : List CalResult) : State :=
  if scan && allPass s f rs then testPassed (scanned s f rs) f else testFailed (scanned s f rs) f

theorem answers_scanTestDone {s : State} {f : Fin 68} {scan : Bool} {rs : List CalResult} {P : State → Prop}
    (role : roleOf s f = roleTesting) (sample : hasSample s f = true) (h : P (startForced (testEnded s f scan rs))) :
    Answers (.scanTestDone f scan rs) s P := by
  refine ⟨_, ?_, h⟩
  show execScanTestDone f scan rs s = _
  rw [execScanTestDone, if_pos ⟨role, sample⟩]
  rfl

/-- The scan and the calibration leave the pieces of the state but folds, registers and free values. -/
theorem scanned_via (s : State) (f : Nat) (rs : List CalResult) : Via [.free, .regs, .folds] s (scanned s f rs) :=
  .step (setRot_via ..) rfl (.step (wr0_via ..) rfl (.step (modFold_via ..) rfl (arraysCalibrated_frame s f rs).pieces))

theorem foldState_scanned (s : State) (f : Nat) (rs : List CalResult) : rd (scanned s f rs) (foldPg f) F.FOLD_STATE = 0 := by
  rw [scanned, (setRot_places ..).field _ _ _ (by decide), rd_wr0]
  rfl

/-- The places that the scan and the calibration write. -/
def scanPlaces (p : Nat) : Prop := calPlaces p ∨ placesOf ((F.FOLD_STATE, 0) :: rotFields) p

theorem scanned_places (s : State) (f : Nat) (rs : List CalResult) : OnlyPlaces scanPlaces s (scanned s f rs) := by
  have calibrated : OnlyPlaces scanPlaces s (modFold (arraysCalibrated s f rs) f fun x => { x with calDue := false, calBoot := false }) :=
    ((arraysCalibrated_frame s f rs).places.mono fun _ hp => .inl hp).via (modFold_via ..) rfl
  exact (calibrated.wr0 (.inr List.mem_cons_self) ..).trans ((setRot_places ..).mono fun _ hp => .inr (List.mem_cons_of_mem _ hp))

theorem scanPlaces_apart : ∀ g ∈ [F.FOLD_ROLE_SLOTV, F.FOLD_ROLE_SLOT, F.TEST_FAIL_CNT, F.TEST_PASS_CNT], ¬ scanPlaces (place g 0) := by
  have apart : ∀ g ∈ [F.FOLD_ROLE_SLOTV, F.FOLD_ROLE_SLOT, F.TEST_FAIL_CNT, F.TEST_PASS_CNT],
      ¬ (place g 0 = 512 ∨ 32896 ≤ place g 0 ∧ place g 0 < 40960) ∧ ¬ placesOf ((F.FOLD_STATE, 0) :: rotFields) (place g 0) := by decide
  rintro g hg (cal | scan)
  · exact (apart g hg).1 ((calPlaces_iff _).mp cal)
  · exact (apart g hg).2 scan

theorem testSlot_scanned (s : State) (f : Nat) (rs : List CalResult) : testSlot (scanned s f rs) f = testSlot s f :=
  (scanned_places s f rs).testSlot (scanPlaces_apart _ (by decide)) (scanPlaces_apart _ (by decide)) f

/-- A fold that has failed its scan or its calibration is retired, and the failure counts (R390). -/
theorem testEnded_fails {s : State} {f : Fin 68} {scan : Bool} {rs : List CalResult} (fails : (scan && allPass s f rs) = false)
    (forced : f.val ∉ s.care.forced) (fills : s.care.fills.all (fun y => y.spare != f.val) = true) :
    OthersTested f (failRetired (scanned s f rs) f) (startForced (testEnded s f scan rs)) := by
  have care : (scanned s f rs).care = s.care := (scanned_via s f rs).piece (p := .care) rfl
  obtain ⟨others, kept⟩ := testFailed_others (s := scanned s f rs) (f := f) (by rwa [care])
  rw [testEnded, fails, if_neg Bool.false_ne_true]
  exact others.startForced (by rwa [kept, care])

/-- A fold that has passed both is in its role again before the forced tests of other folds start (R390, R392). -/
theorem testEnded_passes {s : State} {f : Fin 68} {scan : Bool} {rs : List CalResult} (passes : (scan && allPass s f rs) = true)
    (forced : f.val ∉ s.care.forced) : OthersTested f (testPassed (scanned s f rs) f) (startForced (testEnded s f scan rs)) := by
  have care : (scanned s f rs).care = s.care := (scanned_via s f rs).piece (p := .care) rfl
  rw [testEnded, if_pos passes]
  exact (OthersTested.refl _ _).startForced (by rwa [forced_testPassed, care])

/-! ## TEST_OVERDUE (R392) -/

/-- The state in which a fold shows that its test is overdue. -/
def overdueShown (s : State) (f : Nat) : State := wrBit (errEvent s testPg 4) testPg F.TEST_OVERDUE (f / 32) (f % 32) true

theorem answers_testOverdue {s : State} {f : Fin 68} {k : Nat} {P : State → Prop} (slot : slotOfFold s f = some k)
    (used : slotUsed s k = true) (none : sparesOf s (dieOf f) = []) (first : rdBit s testPg F.TEST_OVERDUE (f / 32) (f % 32) = false)
    (h : P (logWrite (overdueShown s f) testPg 0x81 0xFF [(32, f)])) : Answers (.testOverdue f) s P := by
  refine ⟨_, ?_, h⟩
  show execTestOverdue f s = _
  simp only [execTestOverdue, slot, used, none, first, List.isEmpty_nil, Bool.not_false, and_self, if_true, overdueShown]

/-- An entry of the log takes the next index (R478, R497). -/
theorem logIndex_logWrite (s : State) (pg ev pen : Nat) (fs : List LogField) :
    rd (logWrite s pg ev pen fs) logPg F.LOG_INDEX = (rd s logPg F.LOG_INDEX + 1) % 2 ^ 32 := by
  unfold logWrite
  generalize 32768 = z
  dsimp only
  rw [((OnlyPlaces.refl (placesOf [(F.EVT_LOG, 0), (F.STATUS_SAT, 0)]) _).bump (by decide) (by decide) ..).field _ _ _ (by decide), rd_wr0]
  rfl

/-- The bits of overdue tests are other places than those of the log and of an error event. -/
theorem overdue_apart : ∀ f : Fin 68, ¬ placesOf logFields (place F.TEST_OVERDUE (f.val / 32))
    ∧ ¬ placesOf [(F.TEST_OVERDUE, f.val / 32)] (place F.ERR_SUM 0) ∧ ¬ placesOf [(F.TEST_OVERDUE, f.val / 32)] (place F.LOG_INDEX 0) := by
  decide

theorem overdueShown_places (s : State) (f : Nat) :
    OnlyPlaces (placesOf [(F.TEST_OVERDUE, f / 32)]) (errEvent s testPg 4) (overdueShown s f) :=
  (OnlyPlaces.refl _ _).wrBit List.mem_cons_self ..

theorem overdueShown_via (s : State) (f : Nat) : Via [.regs] s (overdueShown s f) := .step (wrBit_via ..) rfl (errEvent_via ..)

/-! ## FOLD_STATE and RETIRE (R146, R388, R401) -/

theorem answers_foldState {s : State} {src : Source} {f : Fin 68} {v : BitVec 2} {P : State → Prop} (sees : seesPage s src (foldPg f) = true)
    (pen : srcPen src = 0) (slot : slotOfFold s f = none) (valid : v.toNat < 3) (h : P (wr0 s (foldPg f) F.FOLD_STATE v.toNat)) :
    Answers (.foldState src f v) s P := by
  refine ⟨_, ?_, h⟩
  show execFoldState src f v s = _
  have free : (slotOfFold s f).isNone = true := by rw [slot, Option.isNone_none]
  rw [execFoldState, onPage_of_sees sees, writeFoldState, if_pos ⟨pen, free, valid⟩]

theorem answers_retire {s : State} {src : Source} {P : State → Prop} (sees : seesPage s src testPg = true) (ran : s.care.droveRan = false)
    (valid : rd s testPg F.RETIRE_REQ_FOLD ≤ 67) (slot : slotOfFold s (rd s testPg F.RETIRE_REQ_FOLD) = none)
    (h : P (setRole s (rd s testPg F.RETIRE_REQ_FOLD) roleRetired none)) : Answers (.retire src) s P := by
  refine ⟨_, ?_, h⟩
  show execRetire src s = _
  have may : ¬ (s.care.droveRan = true ∨ 67 < rd s testPg F.RETIRE_REQ_FOLD
      ∨ (slotOfFold s (rd s testPg F.RETIRE_REQ_FOLD)).isSome = true) := by
    rw [ran, slot]
    simpa using valid
  rw [execRetire, onPage_of_sees sees, retireFold, if_neg may]

/-! ## The claim -/

/-- Settles O30: a test in place starts with the fold's state and role (`roleOf_startTest`), its end leaves what the forced tests and the
spare of another fold keep (`OthersTested`), and an overdue test and a retirement write the registers that show them. -/
theorem testsMoveFoldRoles : Obligations.TestsMoveFoldRoles := by
  unfold Obligations.TestsMoveFoldRoles
  refine ⟨fun s src f v sees pen slot valid => ?state, fun s die f on tests fills held oldest inPlace => ?rotation,
    fun s f role tests kept waits => ?quarantined, fun s f scan rs role sample forced fills => ?done,
    fun s f k slot used none first => ?overdue, fun s src sees ran valid slot => ?retire⟩
  case state =>
    have small : v.toNat < 3 := by
      have ne : v.toNat ≠ 3 := fun e => valid (BitVec.eq_of_toNat_eq e)
      have := v.isLt
      omega
    refine answers_foldState sees pen slot small ⟨?_, ?_, (wr0_via ..).same⟩
    · rw [rd_wr0]
      exact Nat.mod_eq_of_lt v.isLt
    · exact ((OnlyPlaces.refl (placesOf [(F.FOLD_STATE, 0)]) s).wr0 (by decide) ..).field _ _ _ (by decide)
  case rotation =>
    refine answers_rotation on tests fills held oldest ?_
    rw [rotate_in_place inPlace]
    exact ⟨roleOf_startTest .., foldState_startTest .., (startTest_via ..).same⟩
  case quarantined =>
    exact answers_quarantineTestStart role tests kept waits ⟨roleOf_startTest .., foldState_startTest .., (startTest_via ..).same⟩
  case done =>
    extract_lets ok
    have free : f.val ∉ s.care.forced := by simpa using forced
    have places := scanned_places s f rs
    have num : (scanned s f rs).tally = s.tally := (scanned_via s f rs).piece (p := .tally) rfl
    refine answers_scanTestDone role sample ?_
    cases whole : scan && allPass s f rs with
    | false =>
      obtain ⟨state, role, -, others⟩ := testEnded_fails whole free fills
      have before : rd (scanned s f rs) testPg F.TEST_FAIL_CNT = rd s testPg F.TEST_FAIL_CNT :=
        places.field _ _ _ (scanPlaces_apart _ (by decide))
      refine ⟨?_, fun _ => ⟨?_, ?_, fun small => ?_⟩, fun passes => absurd (whole.symm.trans passes) (by decide)⟩
      · rw [state, foldState_failRetired, foldState_scanned]
      · rw [role, roleOf_failRetired]
      · rw [others.field _ _ _ (by decide)]
        exact errSum_failRetired ..
      · rw [others.field _ _ _ (by decide), failCnt_failRetired (by rwa [before]), before]
    | true =>
      obtain ⟨state, role, passes, others⟩ := testEnded_passes whole free
      obtain ⟨passedRole, passedState, dated, counted⟩ := testPassed_keeps (scanned s f rs) f
      have before : rd (scanned s f rs) testPg F.TEST_PASS_CNT = rd s testPg F.TEST_PASS_CNT :=
        places.field _ _ _ (scanPlaces_apart _ (by decide))
      refine ⟨?_, fun fails => absurd (whole.symm.trans fails) (by decide), fun _ => ⟨?_, ?_, fun small => ?_⟩⟩
      · rw [state, passedState, foldState_scanned]
      · rw [role, passedRole, testSlot_scanned]
      · rw [others.field _ _ _ (by decide), dated, num]
      · rw [passes, counted, passCnt_passCounted (by rwa [before]), before]
  case overdue =>
    obtain ⟨log, error, index⟩ := overdue_apart f
    have entry := logWrite_places (overdueShown s f) testPg 0x81 0xFF [(32, f)]
    have shown := overdueShown_places s f
    refine answers_testOverdue slot used none first ⟨?_, ?_, ?_, (Via.step (logWrite_via ..) rfl ((overdueShown_via s f).mono rfl)).same⟩
    · rw [rdBit, entry.field _ _ _ log]
      exact rdBit_wrBit_true (Nat.mod_lt _ (by decide)) ..
    · rw [entry.field _ _ _ (by decide), shown.field _ _ _ error]
      exact errSum_errEvent (by decide) ..
    · rw [logIndex_logWrite, shown.field _ _ _ index, rd_errEvent (by decide)]
  case retire =>
    exact answers_retire sees ran valid slot ⟨roleOf_setRole .., (setRole_via ..).same⟩

end Sys2Proof.Machine
end

section
/-! SUPPORT. The words of the syllables of a bundle, and the commands that they spell (R161 to R164, R174, R176, R177, R183). -/

namespace Sys2Proof.Machine

open Sys2Proof Sys2Proof.Claims

/-! ## The fields of a word -/

@[simp] theorem toNat_wordBits (w lo n : Nat) : (wordBits w lo n).toNat = w / 2 ^ lo % 2 ^ n := BitVec.toNat_ofNat ..

@[simp] theorem val_wordFin (w lo n : Nat) : (wordFin w lo n).val = w / 2 ^ lo % 2 ^ n := rfl

theorem toNat_beq_one (n : Nat) : (n % 2 == 1).toNat = n % 2 := by
  rcases Nat.mod_two_eq_zero_or_one n with h | h <;> rw [h] <;> rfl

theorem beq_one_toNat (b : Bool) : (b.toNat == 1) = b := by cases b <;> rfl

/-! ## Vector operations (R176, R177) -/

/-- The operands of a VEC word (R176). -/
def vecSylOf (w : Nat) : VecSyl := ⟨wordBits w 24 2, wordBits w 9 15, wordFin w 0 9, false⟩

/-- The vector operation of an opcode; none for 0 and for a reserved one (R177). -/
def vopOfCode (k : Nat) : Option VOp :=
  [VOp.vadd, .vsub, .vmul, .vfma, .vmax, .vmin, .vcmplt, .vwide, .vnarr, .vdec, .vexp, .vrcp, .vrsq, .vsilu, .vgelu, .vrope, .vrsum, .vrmax,
    .vargmx, .vdraw, .vwalk, .vqmx4, .vqi4].find? (fun op => op.code == k)

theorem vopOfCode_code (op : VOp) : vopOfCode op.code = some op := by cases op <;> rfl

theorem code_of_vopOfCode {k : Nat} {op : VOp} (h : vopOfCode k = some op) : op.code = k := by
  simpa using List.find?_some h

theorem VOp.code_lt (op : VOp) : op.code < 64 := by cases op <;> decide

theorem VOp.code_ne_zero (op : VOp) : op.code ≠ 0 := by cases op <;> decide

/-- A VEC word spells a no-operation, or the vector operation of its opcode. -/
theorem vecCommand_eq (f : Fin 68) (w : Nat) : vecCommand f w =
    if w / 2 ^ 26 % 64 = 0 then some (.vecNop f (wordBits w 0 26)) else (vopOfCode (w / 2 ^ 26 % 64)).map fun op => vecInstr op f (vecSylOf w) := by
  have small : w / 2 ^ 26 % 64 < 64 := Nat.mod_lt _ (by decide)
  unfold vecCommand
  generalize w / 2 ^ 26 % 64 = k at small
  interval_cases k <;> rfl

theorem syllableOf_vecInstr (op : VOp) (f : Fin 68) (v : VecSyl) : syllableOf (vecInstr op f v) = some (f, 2, vecWord op.code v) := by
  cases op <;> rfl

theorem plain_vecInstr (op : VOp) (f : Fin 68) (v : VecSyl) : plain (vecInstr op f v) = vecInstr op f { v with residue := false } := by
  cases op <;> rfl

/-! ## From a word to its command and back -/

theorem syllableOf_arrCommand {f : Fin 68} {w : Nat} {c : Instr} (small : w < 2 ^ 32) (h : arrCommand f w = some c) :
    syllableOf c = some (f, 0, w) := by
  unfold arrCommand at h
  split at h <;> cases h
  all_goals
    simp only [syllableOf, convWord, pswWord, tclrWord, trndWord, tcmbWord, toNat_wordBits, val_wordFin, toNat_beq_one, Option.some.injEq,
      Prod.mk.injEq, true_and]
    omega

theorem syllableOf_ldpCommand {f : Fin 68} {w : Nat} {c : Instr} (small : w < 2 ^ 24) (h : ldpCommand f w = some c) :
    syllableOf c = some (f, 1, w) := by
  unfold ldpCommand at h
  split at h <;> cases h
  all_goals
    simp only [syllableOf, pldWord, toNat_wordBits, val_wordFin, Option.some.injEq, Prod.mk.injEq, true_and]
    omega

theorem syllableOf_movCommand {f : Fin 68} {w : Nat} {c : Instr} (small : w < 2 ^ 32) (h : movCommand f w = some c) :
    syllableOf c = some (f, 3, w) := by
  unfold movCommand at h
  split at h <;> cases h
  all_goals
    simp only [syllableOf, movWord, tsndWord, toNat_wordBits, val_wordFin, Option.some.injEq, Prod.mk.injEq, true_and]
    omega

theorem syllableOf_vecCommand {f : Fin 68} {w : Nat} {c : Instr} (small : w < 2 ^ 32) (h : vecCommand f w = some c) :
    syllableOf c = some (f, 2, w) := by
  rw [vecCommand_eq] at h
  split at h
  · rename_i zero
    cases h
    simp only [syllableOf, toNat_wordBits, Option.some.injEq, Prod.mk.injEq, true_and]
    omega
  · obtain ⟨op, found, rfl⟩ := Option.map_eq_some_iff.mp h
    rw [syllableOf_vecInstr, vecWord, code_of_vopOfCode found]
    simp only [vecSylOf, toNat_wordBits, val_wordFin, Option.some.injEq, Prod.mk.injEq, true_and]
    omega

/-- A command is the one that a word at a place of the bundle spells, when nothing fails beside it. -/
structure Spelled (c : Instr) (f : Fin 68) (slot w : Nat) : Prop where
  /-- the place -/
  place : slot < 4
  /-- the width of the word -/
  small : w < 2 ^ syllableBits slot
  /-- the command -/
  command : syllableCommand f slot w = some (plain c)

theorem Spelled.arr {c : Instr} {f : Fin 68} {w : Nat} (small : w < 2 ^ 32) (h : arrCommand f w = some (plain c)) : Spelled c f 0 w :=
  ⟨by decide, small, h⟩

theorem Spelled.ldp {c : Instr} {f : Fin 68} {w : Nat} (small : w < 2 ^ 24) (h : ldpCommand f w = some (plain c)) : Spelled c f 1 w :=
  ⟨by decide, small, h⟩

theorem Spelled.vec {c : Instr} {f : Fin 68} {w : Nat} (small : w < 2 ^ 32) (h : vecCommand f w = some (plain c)) : Spelled c f 2 w :=
  ⟨by decide, small, h⟩

theorem Spelled.mov {c : Instr} {f : Fin 68} {w : Nat} (small : w < 2 ^ 32) (h : movCommand f w = some (plain c)) : Spelled c f 3 w :=
  ⟨by decide, small, h⟩

/-! ### The ARR syllable (R162, R164) -/

section
variable (f : Fin 68) (mask : BitVec 16) (tile : Fin 128) (tag te : BitVec 8)

theorem spelled_anop (r : BitVec 28) : Spelled (.anop f r) f 0 r.toNat := by
  have hr := r.isLt
  have op : r.toNat / 2 ^ 28 % 16 = 0 := by omega
  refine .arr (by omega) ?_
  simp only [arrCommand, op, plain, Option.some.injEq, Instr.anop.injEq, true_and, ← BitVec.toNat_inj, toNat_wordBits]
  omega

theorem spelled_conv (rsv : BitVec 2) (desc : Fin 1024) : Spelled (.conv f mask rsv desc) f 0 (convWord mask rsv desc) := by
  have op : convWord mask rsv desc / 2 ^ 28 % 16 = 1 := by unfold convWord; omega
  refine .arr (by unfold convWord; omega) ?_
  simp only [arrCommand, op, plain, Option.some.injEq, Instr.conv.injEq, true_and, ← BitVec.toNat_inj, Fin.ext_iff, toNat_wordBits, val_wordFin]
  unfold convWord
  omega

theorem spelled_psw (rsv : BitVec 12) : Spelled (.psw f mask rsv) f 0 (pswWord mask rsv) := by
  have op : pswWord mask rsv / 2 ^ 28 % 16 = 2 := by unfold pswWord; omega
  refine .arr (by unfold pswWord; omega) ?_
  simp only [arrCommand, op, plain, Option.some.injEq, Instr.psw.injEq, true_and, ← BitVec.toNat_inj, toNat_wordBits]
  unfold pswWord
  omega

theorem spelled_tclr (mode : BitVec 2) (rsv : BitVec 3) : Spelled (.tclr f mode tag te rsv tile) f 0 (tclrWord mode tag te rsv tile) := by
  have op : tclrWord mode tag te rsv tile / 2 ^ 28 % 16 = 3 := by unfold tclrWord; omega
  refine .arr (by unfold tclrWord; omega) ?_
  simp only [arrCommand, op, plain, Option.some.injEq, Instr.tclr.injEq, true_and, ← BitVec.toNat_inj, Fin.ext_iff, toNat_wordBits, val_wordFin]
  unfold tclrWord
  omega

theorem spelled_trnd (close : Bool) (rsv : BitVec 3) (desc : Fin 512) (e : Ecc) :
    Spelled (.trnd f tile tag close rsv desc e) f 0 (trndWord tile tag close rsv desc) := by
  have hc := Bool.toNat_lt close
  have op : trndWord tile tag close rsv desc / 2 ^ 28 % 16 = 4 := by unfold trndWord; omega
  have closes : trndWord tile tag close rsv desc / 4096 % 2 = close.toNat := by unfold trndWord; omega
  refine .arr (by unfold trndWord; omega) ?_
  simp only [arrCommand, op, closes, beq_one_toNat, plain, Option.some.injEq, Instr.trnd.injEq, true_and, and_true, ← BitVec.toNat_inj,
    Fin.ext_iff, toNat_wordBits, val_wordFin]
  unfold trndWord
  omega

theorem spelled_tcmb (image : BitVec 13) (e : Ecc) : Spelled (.tcmb f tile tag image e) f 0 (tcmbWord tile tag image) := by
  have op : tcmbWord tile tag image / 2 ^ 28 % 16 = 5 := by unfold tcmbWord; omega
  refine .arr (by unfold tcmbWord; omega) ?_
  simp only [arrCommand, op, plain, Option.some.injEq, Instr.tcmb.injEq, true_and, and_true, ← BitVec.toNat_inj, Fin.ext_iff,
    toNat_wordBits, val_wordFin]
  unfold tcmbWord
  omega

/-! ### The LDP and VEC syllables (R162, R174, R176, R177) -/

theorem spelled_lnop (r : BitVec 20) : Spelled (.lnop f r) f 1 r.toNat := by
  have op : r.toNat / 2 ^ 20 % 16 = 0 := by omega
  refine .ldp (by omega) ?_
  simp only [ldpCommand, op, plain, Option.some.injEq, Instr.lnop.injEq, true_and, ← BitVec.toNat_inj, toNat_wordBits]
  omega

theorem spelled_pld (a0 n : Fin 16) (rsv : BitVec 3) (desc : Fin 512) (bad : List (Fin 16 × Fin 1024)) (lines : List LineErr) :
    Spelled (.pld f a0 n rsv desc bad lines) f 1 (pldWord a0 n rsv desc) := by
  have op : pldWord a0 n rsv desc / 2 ^ 20 % 16 = 1 := by unfold pldWord; omega
  refine .ldp (by unfold pldWord; omega) ?_
  simp only [ldpCommand, op, plain, Option.some.injEq, Instr.pld.injEq, true_and, and_true, ← BitVec.toNat_inj, Fin.ext_iff, toNat_wordBits,
    val_wordFin]
  unfold pldWord
  omega

theorem spelled_vecNop (r : BitVec 26) : Spelled (.vecNop f r) f 2 r.toNat := by
  refine .vec (by omega) ?_
  rw [vecCommand_eq, if_pos (by omega)]
  simp only [plain, Option.some.injEq, Instr.vecNop.injEq, true_and, ← BitVec.toNat_inj, toNat_wordBits]
  omega

/-- The word of a vector operation has its opcode and its operands. -/
theorem vecWord_fields (op : VOp) (v : VecSyl) : vecWord op.code v < 2 ^ 32 ∧ vecWord op.code v / 2 ^ 26 % 64 = op.code
    ∧ vecSylOf (vecWord op.code v) = { v with residue := false } := by
  have hop := op.code_lt
  simp only [vecSylOf, VecSyl.mk.injEq, and_true, ← BitVec.toNat_inj, Fin.ext_iff, toNat_wordBits, val_wordFin]
  unfold vecWord
  omega

theorem spelled_vecInstr (op : VOp) (v : VecSyl) : Spelled (vecInstr op f v) f 2 (vecWord op.code v) := by
  obtain ⟨small, code, operands⟩ := vecWord_fields op v
  refine .vec small ?_
  rw [vecCommand_eq, code, if_neg op.code_ne_zero, vopOfCode_code, operands, plain_vecInstr, Option.map_some]

/-! ### The MOV syllable (R162, R183) -/

theorem spelled_mnop (r : BitVec 28) : Spelled (.mnop f r) f 3 r.toNat := by
  have op : r.toNat / 2 ^ 28 % 16 = 0 := by omega
  refine .mov (by omega) ?_
  simp only [movCommand, op, plain, Option.some.injEq, Instr.mnop.injEq, true_and, ← BitVec.toNat_inj, toNat_wordBits]
  omega

/-- The word of a transfer with a descriptor alone has its opcode and its operands. -/
theorem movWord_fields {k : Nat} (hk : k < 16) (rsv : BitVec 18) (desc : Fin 1024) : movWord k rsv desc < 2 ^ 32
    ∧ movWord k rsv desc / 2 ^ 28 % 16 = k ∧ wordBits (movWord k rsv desc) 10 18 = rsv ∧ wordFin (movWord k rsv desc) 0 10 = desc := by
  simp only [← BitVec.toNat_inj, Fin.ext_iff, toNat_wordBits, val_wordFin]
  unfold movWord
  omega

theorem spelled_xfer (rsv : BitVec 18) (desc : MovRef) : Spelled (.xfer f rsv desc) f 3 (movWord 1 rsv desc.desc) := by
  obtain ⟨small, op, operands⟩ := movWord_fields (k := 1) (by decide) rsv desc.desc
  refine .mov small ?_
  simp only [movCommand, op, operands, plain]

theorem spelled_hrd (rsv : BitVec 18) (desc : Fin 1024) (lines : List LineErr) : Spelled (.hrd f rsv desc lines) f 3 (movWord 2 rsv desc) := by
  obtain ⟨small, op, operands⟩ := movWord_fields (k := 2) (by decide) rsv desc
  refine .mov small ?_
  simp only [movCommand, op, operands, plain]

theorem spelled_hwr (rsv : BitVec 18) (desc : MovRef) : Spelled (.hwr f rsv desc) f 3 (movWord 3 rsv desc.desc) := by
  obtain ⟨small, op, operands⟩ := movWord_fields (k := 3) (by decide) rsv desc.desc
  refine .mov small ?_
  simp only [movCommand, op, operands, plain]

theorem spelled_lsnd (rsv : BitVec 18) (desc : MovRef) : Spelled (.lsnd f rsv desc) f 3 (movWord 4 rsv desc.desc) := by
  obtain ⟨small, op, operands⟩ := movWord_fields (k := 4) (by decide) rsv desc.desc
  refine .mov small ?_
  simp only [movCommand, op, operands, plain]

theorem spelled_tsnd (rsv : BitVec 3) (desc : Fin 1024) (e : Ecc) : Spelled (.tsnd f tile tag rsv desc e) f 3 (tsndWord tile tag rsv desc) := by
  have op : tsndWord tile tag rsv desc / 2 ^ 28 % 16 = 5 := by unfold tsndWord; omega
  refine .mov (by unfold tsndWord; omega) ?_
  simp only [movCommand, op, plain, Option.some.injEq, Instr.tsnd.injEq, true_and, and_true, ← BitVec.toNat_inj, Fin.ext_iff, toNat_wordBits,
    val_wordFin]
  unfold tsndWord
  omega

end

theorem spelled_of_syllableOf {c : Instr} {f : Fin 68} {slot w : Nat} (h : syllableOf c = some (f, slot, w)) : Spelled c f slot w := by
  unfold syllableOf at h
  split at h <;> cases h
  · exact spelled_anop ..
  · exact spelled_conv ..
  · exact spelled_psw ..
  · exact spelled_tclr ..
  · exact spelled_trnd ..
  · exact spelled_tcmb ..
  · exact spelled_lnop ..
  · exact spelled_pld ..
  · exact spelled_vecNop ..
  · exact spelled_vecInstr _ .vadd _
  · exact spelled_vecInstr _ .vsub _
  · exact spelled_vecInstr _ .vmul _
  · exact spelled_vecInstr _ .vfma _
  · exact spelled_vecInstr _ .vmax _
  · exact spelled_vecInstr _ .vmin _
  · exact spelled_vecInstr _ .vcmplt _
  · exact spelled_vecInstr _ .vwide _
  · exact spelled_vecInstr _ .vnarr _
  · exact spelled_vecInstr _ .vdec _
  · exact spelled_vecInstr _ .vexp _
  · exact spelled_vecInstr _ .vrcp _
  · exact spelled_vecInstr _ .vrsq _
  · exact spelled_vecInstr _ .vsilu _
  · exact spelled_vecInstr _ .vgelu _
  · exact spelled_vecInstr _ .vrope _
  · exact spelled_vecInstr _ .vrsum _
  · exact spelled_vecInstr _ .vrmax _
  · exact spelled_vecInstr _ .vargmx _
  · exact spelled_vecInstr _ .vdraw _
  · exact spelled_vecInstr _ .vwalk _
  · exact spelled_vecInstr _ .vqmx4 _
  · exact spelled_vecInstr _ .vqi4 _
  · exact spelled_mnop ..
  · exact spelled_xfer ..
  · exact spelled_hrd ..
  · exact spelled_hwr ..
  · exact spelled_lsnd ..
  · exact spelled_tsnd ..

/-- Settles O10: each place's command has the word that it is spelled by, and each syllable's word has the opcode and the operands of its
command (`spelled_of_syllableOf`). -/
theorem syllablesDecodeAndEncode : Obligations.SyllablesDecodeAndEncode := by
  unfold Obligations.SyllablesDecodeAndEncode
  refine ⟨fun f slot w c place small spelled => ?_, fun c f slot w h => ?_⟩
  · match slot, place with
    | 0, _ => exact syllableOf_arrCommand small spelled
    | 1, _ => exact syllableOf_ldpCommand small spelled
    | 2, _ => exact syllableOf_vecCommand small spelled
    | 3, _ => exact syllableOf_movCommand small spelled
  · obtain ⟨place, small, spelled⟩ := spelled_of_syllableOf h
    exact ⟨place, small, spelled⟩

end Sys2Proof.Machine
end

section
/-! SUPPORT. A syllable that its command takes or that stops (R161 to R163, R192, R194), and contract faults (R192, R193). -/

namespace Sys2Proof.Machine

open Sys2Proof Sys2Proof.Claims

/-! ## A syllable's command (R161 to R163) -/

/-- A syllable's command that its bundle brings does its effect, and the syllables after it that no command stands for are dealt with. -/
theorem answers_syllable {c : Instr} {s : State} {f slot word : Nat} {go : State → State} {P : State → Prop}
    (runs : exec c s = .next (syllable s f slot word go)) (taken : takes s f slot word = true)
    (h : P (settleTodo (go (dropSyllable s f)) f)) : Answers c s P :=
  ⟨_, runs.trans (congrArg _ (syllable_of_takes taken go)), h⟩

theorem exec_vecInstr (op : VOp) (f : Fin 68) (v : VecSyl) (s : State) : exec (vecInstr op f v) s = .next (vecSyllable s f op v) := by
  cases op <;> rfl

theorem vecSyllable_plain {v : VecSyl} (h : v.residue = false) (s : State) (f : Nat) (op : VOp) :
    vecSyllable s f op v = syllable s f 2 (vecWord op.code v) fun s => issueVec s f op v := by
  simp only [vecSyllable, h, Bool.false_eq_true, if_false]

theorem exec_hrd {s : State} {f : Fin 68} {d : Drove} (h : foldDrove s f = some d) (rsv : BitVec 18) (desc : Fin 1024) (lines : List LineErr) :
    exec (.hrd f rsv desc lines) s = .next (syllable s f 3 (movWord 2 rsv desc) fun s => issueHrd s f rsv.toNat desc lines d) := by
  show execHrd f rsv desc lines s = _
  rw [execHrd, h]

theorem exec_hwr {s : State} {f : Fin 68} {d : Drove} (h : foldDrove s f = some d) (rsv : BitVec 18) (desc : MovRef) :
    exec (.hwr f rsv desc) s =
      .next (syllable s f 3 (movWord 3 rsv desc.desc) fun s => issueHwr s f rsv.toNat desc.desc desc.lines d) := by
  show execHwr f rsv desc s = _
  rw [execHwr, h]

theorem exec_lsnd {s : State} {f : Fin 68} {d : Drove} (h : foldDrove s f = some d) (rsv : BitVec 18) (desc : MovRef) :
    exec (.lsnd f rsv desc) s =
      .next (syllable s f 3 (movWord 4 rsv desc.desc) fun s => issueLsnd s f rsv.toNat desc.desc desc.lines d) := by
  show execLsnd f rsv desc s = _
  rw [execLsnd, h]

/-! ## A syllable that stops (R192, R194) -/

/-- Everything that a syllable's checks find is raised in order, and its effect does not take place. -/
theorem issueWith_of_stops {xs : List Stop} (h : xs ≠ []) (s : State) (f : Nat) (go : State) :
    issueWith s f xs go = xs.foldl (fun s x => stopAt s f x) s := by
  cases xs with
  | nil => exact absurd rfl h
  | cons x xs => rfl

/-- A syllable's command whose checks find something raises it, and does nothing else. -/
theorem answers_stopped {c : Instr} {s : State} {f slot word : Nat} {go : State → State} {xs : List Stop} {effect : State}
    (runs : exec c s = .next (syllable s f slot word go)) (taken : takes s f slot word = true) (stops : xs ≠ [])
    (issues : go (dropSyllable s f) = issueWith (dropSyllable s f) f xs effect) :
    Answers c s (· = stopped (dropSyllable s f) f xs) :=
  answers_syllable runs taken (by rw [issues, issueWith_of_stops stops, stopped])

theorem contractFault_onlyFolds (s : State) (f code bundle syl port : Nat) : OnlyFolds [f] s (contractFault s f code bundle syl port) :=
  ((contractFault_stays ..).mono fun _ (e : _ = f) => List.mem_singleton.mpr e).onlyFolds

theorem stopAt_onlyFolds (s : State) (f : Nat) (x : Stop) : OnlyFolds [f] s (stopAt s f x) := by
  cases x with
  | contract code syl port => exact contractFault_onlyFolds s f code _ syl port
  | clash tile cause tag => exact clash_onlyFolds s f tile cause tag

/-- What stops a syllable touches its own fold, its registers and the flock whose step runs there. -/
theorem stopped_frame (s : State) (f : Nat) (xs : List Stop) : OnlyFolds [f] s (stopped s f xs) ∧ Only stopParts s (stopped s f xs) := by
  have folds : OnlyFolds [f] s (xs.foldl (fun s x => stopAt s f x) s) :=
    forEach_keeps (I := OnlyFolds [f] s) (fun u x _ hu => hu.trans (stopAt_onlyFolds u f x)) (.refl _ s)
  have parts : Via stopParts s (xs.foldl (fun s x => stopAt s f x) s) := stopAll_via s f xs
  exact ⟨folds.trans (settleTodo_onlyFolds _ f List.mem_cons_self), (parts.trans (settleTodo_via ..)).same⟩

/-- A reserved bit that is set stops a PSW (R164, R192). -/
theorem issuePsw_reserved (s : State) (f mask : Nat) {rsv : Nat} (h : rsv ≠ 0) :
    issuePsw s f mask rsv = stopAt s f (.contract 1 0 0) := by
  simp [issuePsw, stopIf, h, issueWith, stopAll, forEach]

/-- A CONV that stops still holds its arrays in the array cycle that it names (R192). -/
theorem issueConv_of_stops {s : State} {f mask rsv desc : Nat} (h : convCheck (convMask s f desc) f mask rsv desc ≠ []) :
    issueConv s f mask rsv desc = (convCheck (convMask s f desc) f mask rsv desc).foldl (fun s x => stopAt s f x)
      (holdArrays (convMask s f desc) f (convsOf (convMask s f desc) f mask desc)) := by
  unfold issueConv
  dsimp only
  split
  · rename_i clean
    exact absurd clean h
  · rfl

/-! ## A contract fault (R192, R193) -/

/-- The record of a contract fault. -/
def faultRec (code bundle syl : Nat) : StepFaultRec := { clash := false, code := code, bundle := bundle, syl := syl }

/-- The state in which a contract fault counts, and shows itself when it is the first of the tick. -/
def faultShown (s : State) (f code bundle syl port : Nat) : State :=
  let pg := foldPg f
  let u := bump s pg F.CONTRACT_CNT
  if (getFold s f).faultTick then u
  else wr0 (wr0 (wr0 (wr0 (wr0 (wr0 u pg F.CONTRACT_INFO_CODE code) pg F.CONTRACT_INFO_BUNDLE bundle) pg F.CONTRACT_INFO_SYL syl)
    pg F.CONTRACT_INFO_RECUR (b2n ((getFold s f).oldFaults.contains (faultRec code bundle syl)))) pg F.CONTRACT_INFO_PORT port)
    pg F.CONTRACT_TALLY u.tally.num

/-- The state in which a contract fault is logged too. -/
def faultLogged (s : State) (f code bundle syl port : Nat) : State :=
  let u := faultShown s f code bundle syl port
  logWrite (errEvent (if code = 7 ∧ 7 ≤ port then bump u (nocPg (dieOf f)) F.NOC_OVERCOMMIT_CNT else u) (foldPg f) 4) (foldPg f) 0x12 0xFF
    [(32, code), (34, bundle), (36, syl)]

/-- The state in which the fold of a contract fault has recorded it. -/
def faultMarked (s : State) (f code bundle syl port : Nat) : State :=
  modFold (faultLogged s f code bundle syl port) f fun y => { y with faultTick := true, faults := y.faults ++ [faultRec code bundle syl] }

theorem contractFault_eq (s : State) (f code bundle syl port : Nat) : contractFault s f code bundle syl port =
    let u := foldStepFault (faultMarked s f code bundle syl port) f 3
    if (getFold s f).oldFaults.contains (faultRec code bundle syl) then stopDrove (wr0 u (foldPg f) F.SEQ_STATUS_CONTRACT_STOP 1) f 3
    else u := by
  unfold contractFault faultMarked faultLogged faultShown faultRec
  rfl

theorem getFold_faultLogged (s : State) (f code bundle syl port g : Nat) : getFold (faultLogged s f code bundle syl port) g = getFold s g := by
  simp only [faultLogged, faultShown, apply_ite (getFold · g), getFold_logWrite, getFold_errEvent, getFold_wr0, getFold_bump, ite_self]

/-- A contract fault is recorded behind the faults of its fold before it, and no other fold changes. -/
theorem getFold_contractFault_eq (s : State) (f code bundle syl port g : Nat) : getFold (contractFault s f code bundle syl port) g =
    if g = f then { getFold s f with faultTick := true, faults := (getFold s f).faults ++ [faultRec code bundle syl] } else getFold s g := by
  have after : getFold (contractFault s f code bundle syl port) g = getFold (faultMarked s f code bundle syl port) g := by
    simp only [contractFault_eq, apply_ite (getFold · g), getFold_stopDrove, getFold_wr0, getFold_foldStepFault, ite_self]
  rw [after, faultMarked, getFold_modFold, getFold_faultLogged, getFold_faultLogged]

/-- The register fields that a contract fault can write once it has shown itself. -/
def laterFaultFields : List (Field × Nat) :=
  (F.ERR_SUM, 0) :: eventFields ++ logFields ++ suspectFields ++ [(F.NOC_OVERCOMMIT_CNT, 0), (F.SEQ_STATUS_CONTRACT_STOP, 0)]

/-- From `s` to `t` no register field changes but those that a contract fault can write once it has shown itself. -/
abbrev LaterFault (s t : State) : Prop := OnlyPlaces (placesOf laterFaultFields) s t

theorem errEvent_later (s : State) (pg b : Nat) : LaterFault s (errEvent s pg b) :=
  ((OnlyPlaces.refl _ s).wrBit (by decide) ..).trans ((errEvent_places s pg b).mono (placesOf_mono (by decide)))

theorem logWrite_later (s : State) (pg ev pen : Nat) (fs : List LogField) : LaterFault s (logWrite s pg ev pen fs) :=
  (logWrite_places s pg ev pen fs).mono (placesOf_mono (by decide))

theorem foldStepFault_later (s : State) (f cause : Nat) : LaterFault s (foldStepFault s f cause) := by
  unfold foldStepFault
  split
  · exact (stepFault_suspect ..).mono (placesOf_mono (by decide))
  · exact .refl _ s

theorem stopDrove_later (s : State) (f why : Nat) : LaterFault s (stopDrove s f why) := by
  unfold stopDrove
  extract_lets dg counted logged
  have told : LaterFault s logged := (errEvent_later ..).trans (logWrite_later ..)
  clear_value logged
  split
  · exact told.via (modFlock_via ..) rfl
  · exact told

theorem contractFault_later (s : State) (f code bundle syl port : Nat) :
    LaterFault (faultShown s f code bundle syl port) (contractFault s f code bundle syl port) := by
  have mesh : LaterFault (faultShown s f code bundle syl port) (faultLogged s f code bundle syl port) :=
    ((OnlyPlaces.ite ((OnlyPlaces.refl _ _).bump (by decide) (by decide) ..) (.refl _ _)).trans (errEvent_later ..)).trans (logWrite_later ..)
  have faulted : LaterFault (faultShown s f code bundle syl port) (foldStepFault (faultMarked s f code bundle syl port) f 3) :=
    (mesh.via (modFold_via ..) rfl).trans (foldStepFault_later ..)
  rw [contractFault_eq]
  exact .ite ((faulted.wr0 (by decide) ..).trans (stopDrove_later ..)) faulted

/-- A contract fault counts (R193). -/
theorem contractCnt_contractFault {s : State} {f : Nat} (small : rd s (foldPg f) F.CONTRACT_CNT < 2 ^ 32 - 2) (code bundle syl port : Nat) :
    rd (contractFault s f code bundle syl port) (foldPg f) F.CONTRACT_CNT = rd s (foldPg f) F.CONTRACT_CNT + 1 := by
  have counted : rd (bump s (foldPg f) F.CONTRACT_CNT) (foldPg f) F.CONTRACT_CNT = rd s (foldPg f) F.CONTRACT_CNT + 1 :=
    rd_bumpI s _ _ 0 1 rfl (by omega)
  have shown : OnlyPlaces (placesOf [(F.CONTRACT_INFO_CODE, 0), (F.CONTRACT_INFO_BUNDLE, 0), (F.CONTRACT_INFO_SYL, 0), (F.CONTRACT_INFO_RECUR, 0),
      (F.CONTRACT_INFO_PORT, 0), (F.CONTRACT_TALLY, 0)]) (bump s (foldPg f) F.CONTRACT_CNT) (faultShown s f code bundle syl port) :=
    .ite (.refl _ _) (((((((OnlyPlaces.refl _ _).wr0 (by decide) ..).wr0 (by decide) ..).wr0 (by decide) ..).wr0 (by decide) ..).wr0
      (by decide) ..).wr0 (by decide) ..)
  rw [(contractFault_later ..).field _ _ _ (by decide), shown.field _ _ _ (by decide), counted]

/-- A write of another field of the page. -/
theorem rd_wr0_apart {f g : Field} (h : place f 0 ≠ place g 0) (s : State) (pg v : Nat) : rd (wr0 s pg f v) pg g = rd s pg g :=
  rd_wr_ne _ _ _ _ _ _ _ _ fun e => h (by rw [← fkey_mod pg, e, fkey_mod])

/-- The first contract fault of a tick shows its code, its bundle, its syllable and its port (R193). -/
theorem contractInfo_contractFault {s : State} {f : Nat} (first : (getFold s f).faultTick = false) (code bundle syl port : Nat) :
    let t := contractFault s f code bundle syl port
    rd t (foldPg f) F.CONTRACT_INFO_CODE = code % 2 ^ 5 ∧ rd t (foldPg f) F.CONTRACT_INFO_BUNDLE = bundle % 2 ^ 14
      ∧ rd t (foldPg f) F.CONTRACT_INFO_SYL = syl % 2 ^ 2 ∧ rd t (foldPg f) F.CONTRACT_INFO_PORT = port % 2 ^ 4 := by
  have later := contractFault_later s f code bundle syl port
  dsimp only
  rw [later.field _ _ _ (by decide), later.field _ _ _ (by decide), later.field _ _ _ (by decide), later.field _ _ _ (by decide), faultShown,
    first, if_neg Bool.false_ne_true]
  refine ⟨?_, ?_, ?_, ?_⟩
  · rw [rd_wr0_apart (by decide), rd_wr0_apart (by decide), rd_wr0_apart (by decide), rd_wr0_apart (by decide), rd_wr0_apart (by decide), rd_wr0]
    rfl
  · rw [rd_wr0_apart (by decide), rd_wr0_apart (by decide), rd_wr0_apart (by decide), rd_wr0_apart (by decide), rd_wr0]
    rfl
  · rw [rd_wr0_apart (by decide), rd_wr0_apart (by decide), rd_wr0_apart (by decide), rd_wr0]
    rfl
  · rw [rd_wr0_apart (by decide), rd_wr0]
    rfl

/-- A later contract fault of the tick leaves the code that is shown (R193). -/
theorem contractCode_kept {s : State} {f : Nat} (later : (getFold s f).faultTick = true) (code bundle syl port : Nat) :
    rd (contractFault s f code bundle syl port) (foldPg f) F.CONTRACT_INFO_CODE = rd s (foldPg f) F.CONTRACT_INFO_CODE := by
  rw [(contractFault_later ..).field _ _ _ (by decide), faultShown, later, if_pos rfl]
  exact ((OnlyPlaces.refl (placesOf [(F.CONTRACT_CNT, 0), (F.STATUS_SAT, 0)]) s).bump (by decide) (by decide) ..).field _ _ _ (by decide)

theorem faultMarked_via (s : State) (f code bundle syl port : Nat) :
    Via [.regs, .views, .log, .folds] s (faultMarked s f code bundle syl port) := by
  have shown : Via [.regs] s (faultShown s f code bundle syl port) :=
    .ite (bump_via ..) (.step (wr0_via ..) rfl (.step (wr0_via ..) rfl (.step (wr0_via ..) rfl (.step (wr0_via ..) rfl
      (.step (wr0_via ..) rfl (.step (wr0_via ..) rfl (bump_via ..)))))))
  have logged : Via [.regs, .views, .log] s (faultLogged s f code bundle syl port) :=
    .step (logWrite_via ..) rfl (.step (errEvent_via ..) rfl (.ite (.step (bump_via ..) rfl (shown.mono rfl)) (shown.mono rfl)))
  exact .step (modFold_via ..) rfl (logged.mono rfl)

/-- A contract fault is a step fault of cause 3 of the flock whose step runs on the fold, when it is its first (R193, R224, R225). -/
theorem fault_contractFault {s : State} {f k : Nat} (flock : foldFlock s f = some k) (runs : (getFlock s k).phase = 3)
    (first : (getFlock s k).fault = 0) (code bundle syl port : Nat) :
    (getFlock (contractFault s f code bundle syl port) k).fault = 3 := by
  have marked := faultMarked_via s f code bundle syl port
  have drove : (getFold (faultMarked s f code bundle syl port) f).drove = (getFold s f).drove := by
    rw [faultMarked, getFold_modFold_same, getFold_faultLogged]
  have flocks : getFlock (faultMarked s f code bundle syl port) k = getFlock s k := marked.getFlock rfl k
  have same : foldFlock (faultMarked s f code bundle syl port) f = some k :=
    (foldFlock_congr (marked.piece (p := .droves) rfl) drove).trans flock
  have raised : (getFlock (foldStepFault (faultMarked s f code bundle syl port) f 3) k).fault = 3 := by
    rw [foldStepFault_of_flock same]
    exact fault_stepFault (by rw [flocks, runs]) (by rw [flocks, first]) 3
  have grows : FaultsGrow (foldStepFault (faultMarked s f code bundle syl port) f 3) (contractFault s f code bundle syl port) := by
    rw [contractFault_eq]
    exact .ite (((FaultsGrow.refl _).wr0 (by decide) ..).trans (stopDrove_grows ..)) (.refl _)
  rw [grows.fault k (by rw [raised]; decide), raised]

/-! ## A bundle that does not issue (R192 code 10) -/

/-- A program counter past the segment store, and a loop that breaks the rules, stop issue. -/
theorem issueBundle_of_broken {s : State} {f : Nat} (h : 12287 < (getFold s f).pc ∨ pushLoops s f (getFold s f).pc = none) :
    issueBundle s f = seqFault s f (getFold s f).pc := by
  unfold issueBundle
  dsimp only
  split
  · rfl
  · rename_i inStore
    rw [h.resolve_left inStore]

theorem getFold_seqFault (s : State) (f p : Nat) : getFold (seqFault s f p) f =
    { getFold s f with faultTick := true, faults := (getFold s f).faults ++ [faultRec 10 p 0], halted := true } := by
  rw [seqFault, getFold_modFold_same, getFold_wr0, getFold_contractFault_eq, if_pos rfl]

/-- A fault of code 10 ends issue (R192). -/
theorem issuing_seqFault (s : State) (f p : Nat) : rd (seqFault s f p) (foldPg f) F.SEQ_STATUS_ISSUING = 0 := by
  rw [seqFault, rd_modFold, rd_wr0]
  rfl

theorem seqFault_onlyFolds (s : State) (f p : Nat) : OnlyFolds [f] s (seqFault s f p) :=
  ((contractFault_onlyFolds s f 10 p 0 0).via (wr0_via ..) rfl).modFold f _ List.mem_cons_self

/-- A bundle that may issue, without a parity failure, issues. -/
theorem answers_bundleIssue {s : State} {f : Fin 68} {P : State → Prop} (may : canIssue s f = true) (goesOn : endPending s f = false)
    (h : P (issueBundle s f)) : Answers (.bundleIssue f false) s P := by
  refine ⟨_, ?_, h⟩
  show execBundleIssue f false s = _
  simp [execBundleIssue, may, goesOn]

/-! ## The claim -/

/-- Settles O19: a syllable's checks decide between its effect and everything that they find (`answers_stopped`), and a contract fault counts,
shows itself and fails its step by what it writes after it has shown itself (`contractFault_later`). -/
theorem contractFaultsStopTheSyllable : Obligations.ContractFaultsStopTheSyllable := by
  unfold Obligations.ContractFaultsStopTheSyllable
  refine ⟨fun s f => ?syllables, fun s f may goesOn broken => ?issue, fun s f code bundle syl port hf hcode hbundle hsyl hport new => ?fault⟩
  case syllables =>
    extract_lets u
    refine ⟨?conv, ?pld, ?psw, ?tclr, ?trnd, ?tcmb, ?vec, ?xfer, fun rsv desc lines d drove => ⟨?hrd, ?hwr, ?lsnd⟩, ?tsnd, stopped_frame s f⟩
    case conv =>
      intro mask rsv desc taken m xs stops
      refine answers_syllable (go := fun s => issueConv s f mask.toNat rsv.toNat desc) rfl taken ?_
      rw [issueConv_of_stops stops, stopped]
    case pld =>
      intro a0 n rsv desc bad lines taken xs stops
      exact answers_stopped (go := fun s => issuePld s f a0 (n + 1) rsv.toNat desc _ lines) rfl taken stops rfl
    case psw =>
      intro mask rsv taken set
      refine answers_stopped (go := fun s => issuePsw s f mask.toNat rsv.toNat) (effect := u) rfl taken (List.cons_ne_nil _ _) ?_
      exact issuePsw_reserved u f mask.toNat fun e => set (BitVec.eq_of_toNat_eq e)
    case tclr =>
      intro mode tag te rsv tile taken xs stops
      exact answers_stopped (go := fun s => issueTclr s f mode.toNat tag.toNat (toSigned te.toNat 8) rsv.toNat tile) rfl taken stops rfl
    case trnd =>
      intro tile tag close rsv desc e taken xs stops
      exact answers_stopped (go := fun s => issueTrnd s f tile tag.toNat close rsv.toNat desc e) rfl taken stops rfl
    case tcmb =>
      intro tile tag image e taken xs stops
      exact answers_stopped (go := fun s => issueTcmb s f tile tag.toNat image.toNat e) rfl taken stops rfl
    case vec =>
      intro op v taken agrees xs stops
      exact answers_stopped ((exec_vecInstr op f v s).trans (congrArg _ (vecSyllable_plain agrees s f op))) taken stops rfl
    case xfer =>
      intro rsv desc taken xs stops
      exact answers_stopped (go := fun s => issueXfer s f rsv.toNat desc.desc desc.lines) rfl taken stops rfl
    case hrd =>
      intro taken xs stops
      exact answers_stopped (exec_hrd drove ..) taken stops rfl
    case hwr =>
      intro taken xs stops
      exact answers_stopped (exec_hwr drove ..) taken stops rfl
    case lsnd =>
      intro taken xs stops
      exact answers_stopped (exec_lsnd drove ..) taken stops rfl
    case tsnd =>
      intro tile tag rsv desc e taken xs stops
      exact answers_stopped (go := fun s => issueTsnd s f tile tag.toNat rsv.toNat desc e) rfl taken stops rfl
  case issue =>
    refine answers_bundleIssue may goesOn ?_
    rw [issueBundle_of_broken broken, getFold_seqFault]
    exact ⟨rfl, issuing_seqFault .., rfl, seqFault_onlyFolds _ _ _, (seqFault_via ..).same⟩
  case fault =>
    extract_lets t
    have recorded : (getFold t f).faultTick = true := by rw [getFold_contractFault_eq, if_pos rfl]
    refine ⟨fun small => contractCnt_contractFault small .., fun first => ?_, fun later => contractCode_kept later ..,
      fun k flock runs noFault => fault_contractFault flock runs noFault .., recorded, contractFault_onlyFolds _ _ _ _ _ _,
      (contractFault_via ..).same⟩
    obtain ⟨shownCode, shownBundle, shownSyl, shownPort⟩ := contractInfo_contractFault first code bundle syl port
    exact ⟨shownCode.trans (Nat.mod_eq_of_lt hcode), shownBundle.trans (Nat.mod_eq_of_lt hbundle), shownSyl.trans (Nat.mod_eq_of_lt hsyl),
      shownPort.trans (Nat.mod_eq_of_lt (by omega))⟩

end Sys2Proof.Machine
end

section
/-! SUPPORT. The issue of a bundle, the syllables that no command stands for, and the end of issue (R156 to R158, R161 to R163, R192). -/

namespace Sys2Proof.Machine

open Sys2Proof Sys2Proof.Claims

/-! ## The syllables that no command stands for (R162, R192) -/

/-- No command stands for syllable `y` of bundle `b`: a no-operation of zeros or a reserved opcode. -/
def goneSyllable (b y : Nat) : Bool := syllableWord b y == 0 || reservedOp y (syllableWord b y)

/-- What a syllable that no command stands for records as a fault: a reserved opcode is one of code 1. -/
def goneFaults (b p y : Nat) : List StepFaultRec := if syllableWord b y = 0 then [] else [faultRec 1 p y]

/-- A fold whose syllables to come are `todo`, and that has recorded `new` faults. -/
def Fold.settled (x : Fold) (todo : List Nat) (tick : Bool) (new : List StepFaultRec) : Fold :=
  { x with todo := todo, faultTick := tick, faults := x.faults ++ new }

theorem Fold.settled_none (x : Fold) : x.settled x.todo x.faultTick [] = x := by
  rw [Fold.settled, List.append_nil]

theorem Fold.settled_settled (x : Fold) (todo todo' : List Nat) (tick tick' : Bool) (new new' : List StepFaultRec) :
    (x.settled todo tick new).settled todo' tick' new' = x.settled todo' tick' (new ++ new') := by
  simp only [Fold.settled, List.append_assoc]

theorem settleSyllable_of_head {s : State} {f y : Nat} (h : (getFold s f).todo.head? ≠ some y) : settleSyllable f s y = s := if_neg h

/-- A syllable that a command stands for waits for it. -/
theorem settleSyllable_waits {s : State} {f y : Nat} (h : goneSyllable (getFold s f).word y = false) : settleSyllable f s y = s := by
  simp only [goneSyllable, Bool.or_eq_false_iff, beq_eq_false_iff_ne] at h
  obtain ⟨word, op⟩ := h
  simp [settleSyllable, word, op]

/-- A syllable at the head that no command stands for is dropped, with its fault. -/
theorem getFold_settleSyllable {s : State} {f y : Nat} (head : (getFold s f).todo.head? = some y)
    (gone : goneSyllable (getFold s f).word y = true) : ∃ tick, getFold (settleSyllable f s y) f =
      (getFold s f).settled ((getFold s f).todo.drop 1) tick (goneFaults (getFold s f).word (getFold s f).lastPc y) := by
  by_cases zero : syllableWord (getFold s f).word y = 0
  · refine ⟨(getFold s f).faultTick, ?_⟩
    simp [settleSyllable, head, zero, goneFaults, dropSyllable, Fold.settled]
  · have reserved : reservedOp y (syllableWord (getFold s f).word y) = true := by simpa [goneSyllable, zero] using gone
    refine ⟨true, ?_⟩
    simp [settleSyllable, head, zero, reserved, goneFaults, getFold_contractFault_eq, dropSyllable, Fold.settled]

/-- While a syllable of another place stands at the head, nothing is dealt with. -/
theorem settle_others {s : State} {f y : Nat} (head : (getFold s f).todo.head? = some y) {ys : List Nat} (h : y ∉ ys) :
    ys.foldl (settleSyllable f) s = s := by
  induction ys with
  | nil => rfl
  | cons z zs ih =>
    rw [List.mem_cons, not_or] at h
    have other : (getFold s f).todo.head? ≠ some z := fun e => h.1 (Option.some.inj (head.symm.trans e))
    rw [List.foldl_cons, settleSyllable_of_head other, ih h.2]

/-- Of syllables that wait in order, those before the first that a command stands for are dealt with. -/
theorem getFold_settle {ys : List Nat} (distinct : ys.Nodup) {s : State} {f : Nat} (waiting : (getFold s f).todo = ys) :
    ∃ tick, getFold (ys.foldl (settleSyllable f) s) f =
      (getFold s f).settled (ys.dropWhile (goneSyllable (getFold s f).word)) tick
        ((ys.takeWhile (goneSyllable (getFold s f).word)).flatMap (goneFaults (getFold s f).word (getFold s f).lastPc)) := by
  induction ys generalizing s with
  | nil =>
    refine ⟨(getFold s f).faultTick, ?_⟩
    have same := (getFold s f).settled_none
    rw [waiting] at same
    exact same.symm
  | cons y ys ih =>
    have head : (getFold s f).todo.head? = some y := by rw [waiting]; rfl
    obtain ⟨apart, distinct⟩ := List.nodup_cons.mp distinct
    rw [List.foldl_cons]
    cases gone : goneSyllable (getFold s f).word y with
    | false =>
      refine ⟨(getFold s f).faultTick, ?_⟩
      rw [settleSyllable_waits gone, settle_others head apart, List.takeWhile_cons_of_neg (by simp [gone]),
        List.dropWhile_cons_of_neg (by simp [gone]), ← waiting, List.flatMap_nil, Fold.settled_none]
    | true =>
      obtain ⟨tick, first⟩ := getFold_settleSyllable head gone
      obtain ⟨tick', rest⟩ := ih distinct (s := settleSyllable f s y) (by rw [first, waiting]; rfl)
      have word : (getFold (settleSyllable f s y) f).word = (getFold s f).word := by rw [first]; rfl
      have last : (getFold (settleSyllable f s y) f).lastPc = (getFold s f).lastPc := by rw [first]; rfl
      refine ⟨tick', ?_⟩
      rw [rest, word, last, first, Fold.settled_settled, List.takeWhile_cons_of_pos gone, List.dropWhile_cons_of_pos gone,
        List.flatMap_cons]

/-! ## A bundle that issues (R156, R158, R161) -/

/-- The loop index that the syllables of a bundle see: that of the innermost loop (R158). -/
def innermostIter : List Loop → Nat
  | l :: _ => l.iter
  | [] => 0

/-- A fold whose bundle `b` at index `p` has issued in the cycle `base + x.next` with loop stack `st`. -/
def Fold.issued (x : Fold) (base b p : Nat) (st : List Loop) : Fold :=
  { x with
    pc := (popLoops p st).2, lastPc := p, iter := innermostIter st, loops := (popLoops p st).1, now := base + x.next, next := x.next + 4, word := b
    todo := syllables b }

/-- The state in which a bundle's header has issued. -/
def headIssued (s : State) (f p : Nat) (st : List Loop) : State :=
  let u := putFold (startBeat s (getFold s f).next) f
    ((getFold s f).issued (startBeat s (getFold s f).next).pause.base (bundleAt s f p) p st)
  wr0 (wr0 (wr0 (bump u (foldPg f) F.BUNDLE_CNT) (foldPg f) F.SEQ_PC p) (foldPg f) F.SEQ_STATUS_ISSUING 1) (foldPg f) F.SEQ_STATUS_DEPTH
    (popLoops p st).1.length

/-- The state in which a bundle's header has issued; its reserved bits are a contract fault (R161, R192). -/
def headChecked (s : State) (f p : Nat) (st : List Loop) : State :=
  if bits (bundleAt s f p) 120 6 = 0 then headIssued s f p st else contractFault (headIssued s f p st) f 1 p 0 0

/-- A bundle whose header has issued deals with its first syllables, unless its SEND breaks the rules of the step (R157, R192). -/
theorem issueAt_cases (s : State) (f p : Nat) (st : List Loop) : ∃ broken : Bool,
    issueAt s f p st = predict (settleTodo (if broken then seqFault (headChecked s f p st) f p else headChecked s f p st) f)
      ∧ (bit (bundleAt s f p) 126 = false → broken = false) := by
  let last := match foldFlock (headChecked s f p st) f with
    | some k => lastTick (headChecked s f p st) k
    | none => false
  refine ⟨bit (bundleAt s f p) 126 && (!last || !(popLoops p st).1.isEmpty), ?_, fun send => by rw [send, Bool.false_and]⟩
  cases st <;> rfl

/-- A bundle without reserved header bits and without SEND issues, and its first syllables are dealt with. -/
theorem issueAt_eq {s : State} {f p : Nat} (header : bits (bundleAt s f p) 120 6 = 0) (send : bit (bundleAt s f p) 126 = false)
    (st : List Loop) : issueAt s f p st = predict (settleTodo (headIssued s f p st) f) := by
  obtain ⟨broken, issued, sends⟩ := issueAt_cases s f p st
  rw [issued, sends send, if_neg Bool.false_ne_true, headChecked, if_pos header]

theorem base_startBeat (s : State) (n : Nat) : (startBeat s n).pause.base = s.pause.base := by
  simp only [startBeat, askPause, apply_ite (fun u : State => u.pause.base), State.setPause_pause, ite_self]

theorem getFold_headIssued (s : State) (f p : Nat) (st : List Loop) (g : Nat) : getFold (headIssued s f p st) g =
    if g = f then (getFold s f).issued s.pause.base (bundleAt s f p) p st else getFold s g := by
  simp only [headIssued, getFold_wr0, getFold_bump, getFold_putFold, base_startBeat, (startBeat_via s _).getFold rfl]

theorem headIssued_onlyFolds (s : State) (f p : Nat) (st : List Loop) : OnlyFolds [f] s (headIssued s f p st) := fun g hg => by
  rw [getFold_headIssued, if_neg (List.mem_singleton.not.mp hg)]

theorem raiseHold_places (s : State) (q : Nat) :
    OnlyPlaces (placesOf [(F.HOLD_LATE, 0), (F.HOLD_RAISED, 0), (F.STATUS_SAT, 0)]) s (raiseHold s q) :=
  .ite (.refl _ s) (.ite ((OnlyPlaces.refl _ s).bump (by decide) (by decide) ..)
    (.bump (.via (.refl _ s) (setTally_via ..) rfl) (by decide) (by decide) ..))

/-- The overrun prediction writes the counters of HOLD alone (R219). -/
theorem predict_places (s : State) : OnlyPlaces (placesOf [(F.HOLD_LATE, 0), (F.HOLD_RAISED, 0), (F.STATUS_SAT, 0)]) s (predict s) := by
  have passed : OnlyPlaces (placesOf [(F.HOLD_LATE, 0), (F.HOLD_RAISED, 0), (F.STATUS_SAT, 0)]) s (passStretch s) :=
    .via (.refl _ s) (passStretch_via s) rfl
  exact .ite passed (.forEach (fun u k => raiseHold_places u _) passed)

/-- The fold of a bundle that issues: the counter moves on by the loop table, and the syllables that no command stands for are dealt with. -/
theorem getFold_issueAt {s : State} {f p : Nat} (header : bits (bundleAt s f p) 120 6 = 0) (send : bit (bundleAt s f p) 126 = false)
    (st : List Loop) : ∃ tick, getFold (issueAt s f p st) f =
      ((getFold s f).issued s.pause.base (bundleAt s f p) p st).settled ([0, 1, 2, 3].dropWhile (goneSyllable (bundleAt s f p))) tick
        (([0, 1, 2, 3].takeWhile (goneSyllable (bundleAt s f p))).flatMap (goneFaults (bundleAt s f p) p)) := by
  have head : getFold (headIssued s f p st) f = (getFold s f).issued s.pause.base (bundleAt s f p) p st := by
    rw [getFold_headIssued, if_pos rfl]
  have waiting : (getFold (headIssued s f p st) f).todo = [0, 1, 2, 3] := by
    rw [head]
    exact if_pos header
  obtain ⟨tick, settled⟩ := getFold_settle (by decide) waiting
  refine ⟨tick, ?_⟩
  rw [issueAt_eq header send, (predict_via _).getFold rfl]
  rw [head] at settled
  exact settled

theorem issueAt_onlyFolds {s : State} {f p : Nat} (header : bits (bundleAt s f p) 120 6 = 0) (send : bit (bundleAt s f p) 126 = false)
    (st : List Loop) : OnlyFolds [f] s (issueAt s f p st) := by
  rw [issueAt_eq header send]
  exact ((headIssued_onlyFolds s f p st).trans (settleTodo_onlyFolds _ f List.mem_cons_self)).via (predict_via _) rfl

/-- The sequencer's registers show the bundle that has issued (R156). -/
theorem rd_issueAt {s : State} {f p : Nat} (header : bits (bundleAt s f p) 120 6 = 0) (send : bit (bundleAt s f p) 126 = false)
    (st : List Loop) : rd (issueAt s f p st) (foldPg f) F.SEQ_PC = p % 2 ^ 14 ∧ rd (issueAt s f p st) (foldPg f) F.SEQ_STATUS_ISSUING = 1 := by
  have later := (settleTodo_grows (headIssued s f p st) f).places
  rw [issueAt_eq header send, (predict_places _).field _ _ _ (by decide), (predict_places _).field _ _ _ (by decide),
    later.field _ _ _ (by decide), later.field _ _ _ (by decide), headIssued]
  constructor
  · rw [rd_wr0_apart (by decide), rd_wr0_apart (by decide), rd_wr0]
    rfl
  · rw [rd_wr0_apart (by decide), rd_wr0]
    rfl

theorem issueBundle_of_loops {s : State} {f : Nat} {st : List Loop} (inStore : (getFold s f).pc ≤ 12287)
    (loops : pushLoops s f (getFold s f).pc = some st) : issueBundle s f = issueAt s f (getFold s f).pc st := by
  unfold issueBundle
  dsimp only
  rw [if_neg (by omega), loops]

/-! ## A parity failure of the bundle's read (R374) -/

/-- From `s` to `t` the bits of ERR_SUM that are set stay set (R486). -/
structure ErrsStay (s t : State) : Prop where
  /-- each bit of each page -/
  errs : ∀ pg b, b < 16 → bit (rd s pg F.ERR_SUM) b = true → bit (rd t pg F.ERR_SUM) b = true

theorem FaultsGrow.errsStay {s t : State} (h : FaultsGrow s t) : ErrsStay s t := ⟨h.errs⟩

namespace ErrsStay

variable {r s t : State}

theorem refl (s : State) : ErrsStay s s := ⟨fun _ _ _ h => h⟩

theorem trans (h : ErrsStay r s) (k : ErrsStay s t) : ErrsStay r t := ⟨fun pg b hb set => k.errs pg b hb (h.errs pg b hb set)⟩

theorem ite {a b : State} {c : Prop} [Decidable c] (h : ErrsStay r a) (k : ErrsStay r b) : ErrsStay r (if c then a else b) := by
  split
  · exact h
  · exact k

/-- After operations that keep the bits comes one that writes fields beside ERR_SUM. -/
theorem write {here : Nat → Prop} (h : ErrsStay r s) (k : OnlyPlaces here s t) (apart : ¬ here (place F.ERR_SUM 0)) : ErrsStay r t :=
  h.trans ⟨fun pg b _ set => by rwa [k.field _ _ _ apart]⟩

theorem via {ps : List StatePart} (h : ErrsStay r s) (k : Via ps s t) (hps : ps.contains .regs = false) : ErrsStay r t :=
  h.write (here := fun _ => False) (.via (.refl _ s) k hps) id

end ErrsStay

/-- The register fields beside the faults that the issue of a bundle writes. -/
def issueFields : List (Field × Nat) :=
  [(F.BUNDLE_CNT, 0), (F.SEQ_PC, 0), (F.SEQ_STATUS_ISSUING, 0), (F.SEQ_STATUS_DEPTH, 0), (F.STATUS_SAT, 0)]

theorem headIssued_places (s : State) (f p : Nat) (st : List Loop) : OnlyPlaces (placesOf issueFields) s (headIssued s f p st) := by
  unfold headIssued
  extract_lets u
  have put : OnlyPlaces (placesOf issueFields) s u := .via (.via (.refl _ s) (startBeat_via ..) rfl) (putFold_via ..) rfl
  exact (((put.bump (by decide) (by decide) ..).wr0 (by decide) ..).wr0 (by decide) ..).wr0 (by decide) ..

theorem seqFault_errsStay (s : State) (f p : Nat) : ErrsStay s (seqFault s f p) := by
  have ended : OnlyPlaces (placesOf issueFields) (contractFault s f 10 p 0 0)
      (wr0 (contractFault s f 10 p 0 0) (foldPg f) F.SEQ_STATUS_ISSUING 0) := (OnlyPlaces.refl _ _).wr0 (by decide) ..
  exact ((contractFault_grows s f 10 p 0 0).errsStay.write ended (by decide)).via (modFold_via _ f fun y => { y with halted := true }) rfl

theorem issueAt_errsStay (s : State) (f p : Nat) (st : List Loop) : ErrsStay s (issueAt s f p st) := by
  have issued : ErrsStay s (headIssued s f p st) := (ErrsStay.refl s).write (headIssued_places s f p st) (by decide)
  have checked : ErrsStay s (headChecked s f p st) := .ite issued (issued.trans (contractFault_grows ..).errsStay)
  obtain ⟨broken, eq, -⟩ := issueAt_cases s f p st
  rw [eq]
  exact ((ErrsStay.ite (checked.trans (seqFault_errsStay ..)) checked).trans (settleTodo_grows ..).errsStay).write (predict_places _) (by decide)

theorem issueBundle_errsStay (s : State) (f : Nat) : ErrsStay s (issueBundle s f) := by
  unfold issueBundle
  dsimp only
  split
  · exact seqFault_errsStay ..
  · split
    · exact seqFault_errsStay ..
    · exact issueAt_errsStay ..

theorem dataSuspect_suspect (s : State) (f : Nat) : SuspectFields s (dataSuspect s f) := by
  have raised := raiseSuspect_suspect s f
  unfold dataSuspect classifyData
  exact .via (.ite (raised.trans (locate_suspect ..)) raised) (modFold_via ..) rfl

/-- A parity failure of the bundle's read shows in bit 2 of ERR_SUM, whether its bundle issues or breaks the contract (R374). -/
theorem answers_bundleIssue_parity {s : State} {f : Fin 68} (may : canIssue s f = true) (goesOn : endPending s f = false) :
    Answers (.bundleIssue f true) s fun t => bit (rd t (foldPg f) F.ERR_SUM) 2 = true := by
  have suspect : ErrsStay (errEvent s (foldPg f) 2) (issueBundle (dataSuspect (errEvent s (foldPg f) 2) f) f) :=
    ((ErrsStay.refl _).write (dataSuspect_suspect _ f) (by decide)).trans (issueBundle_errsStay ..)
  refine ⟨_, ?_, suspect.errs _ _ (by decide) (errSum_errEvent (by decide) ..)⟩
  show execBundleIssue f true s = _
  simp [execBundleIssue, may, goesOn]

/-! ## The end of issue (R157) -/

theorem endIssue_of_ends {s : State} {f b : Nat} (h : endsIssue s f b = true) : endIssue s f b =
    modFold (wr0 (wr0 s (foldPg f) F.SEQ_STATUS_ISSUING 0) (foldPg f) F.SEQ_STATUS_ENDED 1) f fun y => { y with endCycle := y.next } := if_pos h

theorem endIssue_of_not {s : State} {f b : Nat} (h : endsIssue s f b = false) : endIssue s f b = s := by
  rw [endIssue, h, if_neg Bool.false_ne_true]

/-- A fold whose issue has ended for the tick issues no bundle. -/
theorem canIssue_of_ended {s : State} {f : Nat} (h : rd s (foldPg f) F.SEQ_STATUS_ENDED = 1) : canIssue s f = false := by
  simp [canIssue, Machine.issuing, h]

theorem ended_endIssue {s : State} {f b : Nat} (h : endsIssue s f b = true) : rd (endIssue s f b) (foldPg f) F.SEQ_STATUS_ENDED = 1 := by
  rw [endIssue_of_ends h, rd_modFold, rd_wr0]
  rfl

theorem issuing_endIssue {s : State} {f b : Nat} (h : endsIssue s f b = true) : rd (endIssue s f b) (foldPg f) F.SEQ_STATUS_ISSUING = 0 := by
  rw [endIssue_of_ends h, rd_modFold, rd_wr0_apart (by decide), rd_wr0]
  rfl

theorem endIssue_frame (s : State) (f b : Nat) : OnlyFolds [f] s (endIssue s f b)
    ∧ OnlyIn [.folds] [(foldPg f, F.SEQ_STATUS_ISSUING, 0), (foldPg f, F.SEQ_STATUS_ENDED, 0)] s (endIssue s f b) := by
  refine ⟨?_, (endIssue_via s f b).same, ?_⟩
  · unfold endIssue
    split
    · exact .modFold f _ (fun _ _ => rfl) List.mem_cons_self
    · exact .refl _ s
  · unfold endIssue
    split
    · intro pg g i h
      rw [rd_modFold]
      exact (((OnlyFields.refl _ s).wr _ _ _ _ List.mem_cons_self).wr _ _ _ _ (by simp)) pg g i h
    · exact .refl _ s

/-! ## A command whose syllable is not there, and no-operations (R161, R162) -/

theorem syllable_of_not_takes {s : State} {f slot word : Nat} (h : takes s f slot word = false) (go : State → State) :
    syllable s f slot word go = s := by
  rw [syllable, h, if_neg Bool.false_ne_true]

/-- A syllable's command acts through its syllable, or not at all where a transfer's fold runs no drove. -/
theorem exec_of_syllableOf {c : Instr} {f : Fin 68} {slot w : Nat} (h : syllableOf c = some (f, slot, w)) (s : State) :
    (∃ go, exec c s = .next (syllable s f slot w go)) ∨ exec c s = .next s := by
  unfold syllableOf at h
  split at h <;> cases h
  case h_35.refl rsv desc lines =>
    cases drove : foldDrove s f with
    | none => exact .inr (by show execHrd f rsv desc lines s = _; rw [execHrd, drove])
    | some d => exact .inl ⟨_, exec_hrd drove ..⟩
  case h_36.refl rsv desc =>
    cases drove : foldDrove s f with
    | none => exact .inr (by show execHwr f rsv desc s = _; rw [execHwr, drove])
    | some d => exact .inl ⟨_, exec_hwr drove ..⟩
  case h_37.refl rsv desc =>
    cases drove : foldDrove s f with
    | none => exact .inr (by show execLsnd f rsv desc s = _; rw [execLsnd, drove])
    | some d => exact .inl ⟨_, exec_lsnd drove ..⟩
  all_goals exact .inl ⟨_, rfl⟩

/-- A command that does not carry the next syllable's word changes nothing (log entry 88). -/
theorem answers_not_taken {c : Instr} {f : Fin 68} {slot w : Nat} (h : syllableOf c = some (f, slot, w)) {s : State}
    (notTaken : takes s f slot w = false) : Answers c s (· = s) := by
  rcases exec_of_syllableOf h s with ⟨go, runs⟩ | idle
  · exact ⟨s, by rw [runs, syllable_of_not_takes notTaken], rfl⟩
  · exact ⟨s, idle, rfl⟩

/-- A no-operation of zeros is dealt with (R162). -/
theorem noOperation_zero {s : State} {f slot : Nat} (h : takes s f slot 0 = true) : noOperation s f slot 0 = stopped (dropSyllable s f) f [] := by
  rw [noOperation, syllable_of_takes h]
  rfl

/-- A no-operation with a bit that is not zero is a contract fault of code 1 (R162, R192). -/
theorem noOperation_rest {s : State} {f slot r : Nat} (set : r ≠ 0) (h : takes s f slot r = true) :
    noOperation s f slot r = stopped (dropSyllable s f) f [.contract 1 slot 0] := by
  rw [noOperation, syllable_of_takes h, if_neg set]
  rfl

/-! ## The claim -/

/-- Settles O11: the syllables of the bundle that issues settle in their order (`getFold_settle`), its registers are written before and left
by what follows, and a command whose syllable is not the next changes nothing (`exec_of_syllableOf`). -/
theorem bundlesIssueUntilTheTickEnds : Obligations.BundlesIssueUntilTheTickEnds := by
  unfold Obligations.BundlesIssueUntilTheTickEnds
  refine ⟨fun s f st may goesOn inStore => ?issue, fun s f c b ends => ?ends, fun s c f slot w h notTaken => answers_not_taken h notTaken,
    fun s f => ?noOperations⟩
  case issue =>
    extract_lets p b gone
    refine ⟨fun loops header send => answers_bundleIssue may goesOn ?_, answers_bundleIssue_parity may goesOn⟩
    obtain ⟨pc, shown⟩ := rd_issueAt header send st
    obtain ⟨tick, fold⟩ := getFold_issueAt header send st
    rw [issueBundle_of_loops inStore loops, fold]
    refine ⟨rfl, rfl, rfl, rfl, rfl, rfl, rfl, fun y hy word => ?_, pc.trans (Nat.mod_eq_of_lt (by omega)), shown, issueAt_onlyFolds header send st,
      ((issueAt_via s f p st).mono rfl).same⟩
    have mine : faultRec 1 p y ∈ goneFaults b p y := by rw [goneFaults, if_neg word]; exact List.mem_singleton_self _
    exact List.mem_append_right _ (List.mem_flatMap.mpr ⟨y, hy, mine⟩)
  case ends =>
    have runs : exec c s = .next (endIssue s f b) := by
      rcases ends with ⟨rfl, rfl⟩ | ⟨rfl, rfl⟩
      · rfl
      · rfl
    refine ⟨fun may => ⟨_, runs, issuing_endIssue may, ended_endIssue may, ?_, canIssue_of_ended (ended_endIssue may), endIssue_frame s f b⟩,
      fun not => ⟨s, by rw [runs, endIssue_of_not not], rfl⟩⟩
    rw [endIssue_of_ends may, getFold_modFold_same, getFold_wr0, getFold_wr0]
  case noOperations =>
    have nonzero : ∀ {n : Nat} {r : BitVec n}, r ≠ 0 → r.toNat ≠ 0 := fun set e => set (BitVec.eq_of_toNat_eq e)
    exact ⟨fun taken => ⟨_, rfl, noOperation_zero taken⟩, fun taken => ⟨_, rfl, noOperation_zero taken⟩,
      fun taken => ⟨_, rfl, noOperation_zero taken⟩, fun taken => ⟨_, rfl, noOperation_zero taken⟩,
      fun r set taken => ⟨_, rfl, noOperation_rest (nonzero set) taken⟩, fun r set taken => ⟨_, rfl, noOperation_rest (nonzero set) taken⟩,
      fun r set taken => ⟨_, rfl, noOperation_rest (nonzero set) taken⟩, fun r set taken => ⟨_, rfl, noOperation_rest (nonzero set) taken⟩⟩

end Sys2Proof.Machine
end

section
/-! SUPPORT. Rounding operations and combines that take their place among the operations in flight (R172, R173). -/

namespace Sys2Proof.Machine

open Sys2Proof Sys2Proof.Claims

/-! ## What the checks of a tile's storage leave (R134) -/

/-- A fold without its tiles and without its marks. -/
def Fold.untiled (x : Fold) : Fold := { x.unmarked with tiles := [] }

theorem MarksOnly.untiled {s t : State} (h : MarksOnly s t) (g : Nat) : (getFold t g).untiled = (getFold s g).untiled := by
  rw [Fold.untiled, h.fold, Fold.untiled]

theorem untiled_modTile (s : State) (f t : Nat) (h : Tile → Tile) (g : Nat) :
    (getFold (modTile s f t h) g).untiled = (getFold s g).untiled := by
  rw [modTile, getFold_modFold]
  split
  · rename_i e
    rw [e]
    rfl
  · rfl

/-- The check of a tile's storage can poison the tile and raise a suspect, and leaves the rest of every fold. -/
theorem untiled_tileEcc (s : State) (f t : Nat) (e : Ecc) (g : Nat) : (getFold (tileEcc s f t e) g).untiled = (getFold s g).untiled := by
  cases e with
  | ok => rfl
  | corrected => rw [tileEcc, getFold_bump]
  | uncorrectable => rw [tileEcc, (dataSuspect_marks ..).untiled, getFold_errEvent, getFold_bump, untiled_modTile]

theorem tileEcc_ok (s : State) (f t : Nat) : tileEcc s f t .ok = s := rfl

/-- Recording accesses to the vector store changes those records alone. -/
theorem foldl_pendVs (qs : List VsPend) (x : Fold) : ∃ vs, qs.foldl pendVs x = { x with vs := vs } := by
  induction qs generalizing x with
  | nil => exact ⟨x.vs, rfl⟩
  | cons q qs ih =>
    rw [List.foldl_cons, pendVs]
    split
    · exact ih x
    · exact ih _

theorem pendVs_vs (x : Fold) (q : VsPend) : ∃ vs, pendVs x q = { x with vs := vs } := foldl_pendVs [q] x

/-! ## TRND (R172) -/

/-- The rounding operation that a TRND with descriptor `d` on tile `t` puts in flight, when it has read `y`. -/
def roundOp (x : Fold) (t : Nat) (close : Bool) (d : Nat) (y : Tile) : Trnd :=
  let k := resolveWork y (bits d 39 16) (e8m0Exp (bits d 3 8)) ((Fmt.ofCode (bits d 0 3)).getD .int4)
  { tile := t, close := close, c := x.now, fo := bits d 0 3, eo := e8m0Exp (bits d 3 8), w := bits d 11 12, dst := 64 * bits d 23 16
    rows := bits d 39 16, layer := bits d 55 10, fails := k.fails, whole := k.whole, slots := k.slots, left := k.slots, ended := false
    snap := y, ref := Tile.zero, bundle := x.lastPc }

/-- A TRND stands behind the rounding operations in flight, with its tile as it has read it. -/
theorem trnds_doRound (s : State) (f t : Nat) (close : Bool) (desc : Nat) (e : Ecc) : (getFold (doRound s f t close desc e) f).trnds =
    (getFold s f).trnds ++ [roundOp (getFold s f) t close (roundDesc s f desc) ((getFold (tileEcc s f t e) f).tile t)] := by
  have kept := untiled_tileEcc s f t e f
  have trnds : (getFold (tileEcc s f t e) f).trnds = (getFold s f).trnds := (congrArg Fold.trnds kept :)
  have now : (getFold (tileEcc s f t e) f).now = (getFold s f).now := (congrArg Fold.now kept :)
  have last : (getFold (tileEcc s f t e) f).lastPc = (getFold s f).lastPc := (congrArg Fold.lastPc kept :)
  unfold doRound roundArgs
  dsimp only
  rw [getFold_modFold_same]
  obtain ⟨vs, pended⟩ := foldl_pendVs (roundWrites s f (roundDesc s f desc) (rowBytes ((Fmt.ofCode (bits (roundDesc s f desc) 0 3)).getD .int4)))
    (getFold (tileEcc s f t e) f)
  rw [pended, roundOp]
  dsimp only
  rw [trnds, now, last]

theorem doRound_ok (s : State) (f t : Nat) (close : Bool) (desc : Nat) :
    OnlyFolds [f] s (doRound s f t close desc .ok) ∧ Via stopParts s (doRound s f t close desc .ok) := by
  unfold doRound roundArgs
  dsimp only
  rw [tileEcc_ok]
  exact ⟨(OnlyFolds.refl [f] s).modFold f _ List.mem_cons_self, (modFold_via ..).mono rfl⟩

/-! ## TCMB (R173) -/

/-- The state in which a TCMB has booked its read of the image. -/
def combineBooked (s : State) (f t image : Nat) : State :=
  modFold s f fun x => pendVs { x with books := x.books ++ [combineBook s f t] } (combineRead s f t image)

/-- The combine of an image that fold `x` puts in flight. -/
def combineOp (x : Fold) (t : Nat) (op : Tile) : Combine := ⟨t, op, op.layer, x.now, x.lastPc⟩

theorem getFold_combineBooked (s : State) (f t image : Nat) : ∃ vs, getFold (combineBooked s f t image) f =
    { getFold s f with books := (getFold s f).books ++ [combineBook s f t], vs := vs } := by
  obtain ⟨vs, pended⟩ := pendVs_vs { getFold s f with books := (getFold s f).books ++ [combineBook s f t] } (combineRead s f t image)
  exact ⟨vs, by rw [combineBooked, getFold_modFold_same, pended]⟩

/-- A TCMB whose image has the mode of its tile. -/
theorem doCombine_same {s : State} {f t image : Nat} (same : (combineOperand s f t image).mode = ((getFold s f).tile t).mode) (e : Ecc) :
    doCombine s f t image e = modFold (tileEcc (combineBooked s f t image) f t e) f fun y =>
      { y with combines := y.combines ++ [combineOp y t (combineOperand s f t image)] } := by
  unfold doCombine
  dsimp only
  rw [if_pos (beq_iff_eq.mpr same)]
  rfl

/-- A TCMB whose image has another mode than its tile breaks the contract once it has booked its read. -/
theorem doCombine_other {s : State} {f t image : Nat} (other : (combineOperand s f t image).mode ≠ ((getFold s f).tile t).mode) (e : Ecc) :
    doCombine s f t image e = faultHere (combineBooked s f t image) f 3 0 := by
  unfold doCombine
  dsimp only
  rw [if_neg (by simpa using other)]
  rfl

/-- What a TCMB leaves: its booking always, and its combine or the fault that suppresses it. -/
theorem doCombine_leaves (s : State) (f t image : Nat) (e : Ecc) :
    let op := combineOperand s f t image
    let x := getFold (doCombine s f t image e) f
    x.books = (getFold s f).books ++ [combineBook s f t]
      ∧ (op.mode = ((getFold s f).tile t).mode → x.combines = (getFold s f).combines ++ [combineOp (getFold s f) t op])
      ∧ (op.mode ≠ ((getFold s f).tile t).mode →
        x.combines = (getFold s f).combines ∧ faultRec 3 (getFold s f).lastPc 0 ∈ x.faults) := by
  obtain ⟨vs, booked⟩ := getFold_combineBooked s f t image
  dsimp only
  by_cases same : (combineOperand s f t image).mode = ((getFold s f).tile t).mode
  · have kept := untiled_tileEcc (combineBooked s f t image) f t e f
    rw [booked] at kept
    have books : (getFold (tileEcc (combineBooked s f t image) f t e) f).books = (getFold s f).books ++ [combineBook s f t] :=
      (congrArg Fold.books kept :)
    have combines : (getFold (tileEcc (combineBooked s f t image) f t e) f).combines = (getFold s f).combines := (congrArg Fold.combines kept :)
    have now : (getFold (tileEcc (combineBooked s f t image) f t e) f).now = (getFold s f).now := (congrArg Fold.now kept :)
    have last : (getFold (tileEcc (combineBooked s f t image) f t e) f).lastPc = (getFold s f).lastPc := (congrArg Fold.lastPc kept :)
    rw [doCombine_same same, getFold_modFold_same, combineOp, combineOp, combines, now, last]
    exact ⟨books, fun _ => rfl, fun other => absurd same other⟩
  · rw [doCombine_other same, faultHere, getFold_contractFault_eq, if_pos rfl, booked]
    exact ⟨rfl, fun same' => absurd same' same, fun _ => ⟨rfl, List.mem_append_right _ (List.mem_singleton_self _)⟩⟩

theorem doCombine_ok (s : State) (f t image : Nat) :
    OnlyFolds [f] s (doCombine s f t image .ok) ∧ Via stopParts s (doCombine s f t image .ok) := by
  have folds : OnlyFolds [f] s (combineBooked s f t image) := (OnlyFolds.refl [f] s).modFold f _ List.mem_cons_self
  have parts : Via stopParts s (combineBooked s f t image) := (modFold_via ..).mono rfl
  by_cases same : (combineOperand s f t image).mode = ((getFold s f).tile t).mode
  · rw [doCombine_same same, tileEcc_ok]
    exact ⟨folds.modFold f _ List.mem_cons_self, .step (modFold_via ..) rfl parts⟩
  · rw [doCombine_other same]
    exact ⟨folds.trans (contractFault_onlyFolds _ _ _ _ _ _), .step (faultHere_via ..) rfl parts⟩

/-! ## What follows the effect of a syllable -/

theorem MarksOnly.trnds {s t : State} (h : MarksOnly s t) (g : Nat) : (getFold t g).trnds = (getFold s g).trnds :=
  (congrArg Fold.trnds (h.fold g) :)

theorem MarksOnly.combines {s t : State} (h : MarksOnly s t) (g : Nat) : (getFold t g).combines = (getFold s g).combines :=
  (congrArg Fold.combines (h.fold g) :)

theorem MarksOnly.books {s t : State} (h : MarksOnly s t) (g : Nat) : (getFold t g).books = (getFold s g).books :=
  (congrArg Fold.books (h.fold g) :)

/-- The faults that a fold has recorded stay when its syllables settle. -/
theorem mem_faults_settleTodo {s : State} {f g : Nat} {r : StepFaultRec} (h : r ∈ (getFold s g).faults) :
    r ∈ (getFold (settleTodo s f) g).faults := by
  have dropped : ∀ u, r ∈ (getFold u g).faults → r ∈ (getFold (dropSyllable u f) g).faults := fun u hu => by
    rw [dropSyllable, getFold_modFold]
    split
    · rename_i e
      rwa [e] at hu
    · exact hu
  have faulted : ∀ u code bundle y, r ∈ (getFold u g).faults → r ∈ (getFold (contractFault u f code bundle y 0) g).faults :=
    fun u code bundle y hu => by
      rw [getFold_contractFault_eq]
      split
      · rename_i e
        rw [e] at hu
        exact List.mem_append_left _ hu
      · exact hu
  refine forEach_keeps (I := fun u => r ∈ (getFold u g).faults) (fun u y _ hu => ?_) h
  unfold settleSyllable
  dsimp only
  split
  · split
    · exact dropped u hu
    · split
      · exact faulted _ _ _ _ (dropped u hu)
      · exact hu
  · exact hu

theorem roundDesc_dropSyllable (s : State) (f i : Nat) : roundDesc (dropSyllable s f) f i = roundDesc s f i := rfl

/-! ## The claim -/

/-- Settles O15: the operation that a TRND or TCMB leaves (`trnds_doRound`, `doCombine_leaves`) stays when the syllables after it settle. -/
theorem roundingAndCombineAreQueued : Obligations.RoundingAndCombineAreQueued := by
  unfold Obligations.RoundingAndCombineAreQueued
  refine ⟨fun s f tile tag close rsv desc e taken clean => ?round, fun s f tile tag image e taken clean => ?combine⟩
  case round =>
    have drop := dropSyllable_marks s f
    refine answers_syllable (go := fun s => issueTrnd s f tile tag.toNat close rsv.toNat desc e) rfl taken ?_
    rw [issueTrnd, clean, issueWith, (settleTodo_marks ..).trnds, trnds_doRound, drop.trnds]
    refine ⟨⟨_, rfl, rfl, rfl, drop.now f, rfl, rfl, rfl, rfl, rfl, fun ok => ?_⟩, fun ok => ?_,
      syllable_parts ((doRound_via ..).mono rfl) rfl⟩
    · rw [ok]
      exact tile_dropSyllable ..
    · obtain ⟨folds, parts⟩ := doRound_ok (dropSyllable s f) f tile close desc
      rw [ok]
      exact ⟨syllable_folds folds List.mem_cons_self, syllable_parts parts rfl⟩
  case combine =>
    extract_lets op
    have drop := dropSyllable_marks s f
    obtain ⟨books, same, other⟩ := doCombine_leaves (dropSyllable s f) f tile image.toNat e
    rw [tile_dropSyllable, drop.combines] at same other
    rw [drop.books] at books
    rw [(dropSyllable_stays s f).lastPc] at other
    refine answers_syllable (go := fun s => issueTcmb s f tile tag.toNat image.toNat e) rfl taken ?_
    rw [issueTcmb, clean, issueWith, (settleTodo_marks ..).combines, (settleTodo_marks ..).books]
    refine ⟨fun agree => ⟨_, same agree, rfl, drop.now f, rfl⟩,
      fun differ => ⟨(other differ).1, mem_faults_settleTodo (other differ).2⟩, books, fun ok => ?_,
      syllable_parts (doCombine_via ..) rfl⟩
    obtain ⟨folds, parts⟩ := doCombine_ok (dropSyllable s f) f tile image.toNat
    rw [ok]
    exact ⟨syllable_folds folds List.mem_cons_self, syllable_parts parts rfl⟩

end Sys2Proof.Machine
end

section
/-! SUPPORT. Conversions that a CONV schedules, and the switches of planes (R39, R40, R141, R165, R168, R169). -/

namespace Sys2Proof.Machine

open Sys2Proof Sys2Proof.Claims

/-! ## Conversions but for their adds (R141, R142) -/

/-- A conversion with its add: a clash suppresses the add and leaves the conversion. -/
def Conv.adding (k : Conv) : Conv := { k with op := { k.op with noAdd := false } }

/-- A conversion that has been scheduled. -/
def Conv.scheduled (o : ConvOp) : Conv := { op := o, data := none, delivered := false }

/-- From `s` to `t` only fold `f` changes, and its conversions change no more than whether they add. -/
structure ConvsStay (f : Nat) (s t : State) : Prop where
  /-- the other folds are the same -/
  folds : OnlyFolds [f] s t
  /-- the conversions, in their order -/
  convs : (getFold t f).convs.map Conv.adding = (getFold s f).convs.map Conv.adding

namespace ConvsStay

variable {f : Nat} {r s t : State}

theorem refl (f : Nat) (s : State) : ConvsStay f s s := ⟨.refl _ s, rfl⟩

theorem trans (h : ConvsStay f r s) (k : ConvsStay f s t) : ConvsStay f r t := ⟨h.folds.trans k.folds, k.convs.trans h.convs⟩

/-- After operations that keep the conversions comes one that does not name the folds. -/
theorem via {ps : List StatePart} (h : ConvsStay f r s) (k : Via ps s t) (hps : ps.contains .folds = false) : ConvsStay f r t :=
  ⟨h.folds.via k hps, by rw [k.getFold hps, h.convs]⟩

theorem ite {a b : State} {c : Prop} [Decidable c] (h : ConvsStay f r a) (k : ConvsStay f r b) : ConvsStay f r (if c then a else b) := by
  split
  · exact h
  · exact k

theorem forEach {α : Type} {xs : List α} {g : State → α → State} (h : ∀ s x, ConvsStay f s (g s x)) (k : ConvsStay f r s) :
    ConvsStay f r (Machine.forEach s xs g) :=
  forEach_keeps (I := ConvsStay f r) (fun t x _ ht => ht.trans (h t x)) k

theorem modFold {g : Fold → Fold} (h : ConvsStay f r s) (hg : ∀ x, (g x).convs.map Conv.adding = x.convs.map Conv.adding) :
    ConvsStay f r (Machine.modFold s f g) :=
  ⟨h.folds.modFold f g List.mem_cons_self, by rw [getFold_modFold_same, hg, h.convs]⟩

end ConvsStay

theorem clash_convsStay (s : State) (f tile cause named : Nat) : ConvsStay f s (clash s f tile cause named) := by
  obtain ⟨faults, clashed⟩ := getFold_clash s f tile cause named
  refine ⟨clash_onlyFolds s f tile cause named, ?_⟩
  rw [clashed, if_pos rfl]
  rfl

/-- Conversions of one array cycle that name different rows of a tile: all but those of the lowest row lose their adds. -/
theorem rowClash_convsStay (s : State) (f lat t tag : Nat) : ConvsStay f s (rowClash s f lat t tag) := by
  refine .ite (.refl f s) ((clash_convsStay ..).modFold fun x => ?_)
  rw [List.map_map]
  refine List.map_congr_left fun k _ => ?_
  rw [Function.comp_apply]
  split
  · rfl
  · rfl

/-! ## CONV (R165, R168) -/

theorem convs_scheduleConvs (s : State) (f : Nat) (ops : List ConvOp) :
    (getFold (scheduleConvs s f ops) f).convs = (getFold s f).convs ++ ops.map Conv.scheduled := by
  rw [scheduleConvs, getFold_modFold_same, holdArrays, getFold_modFold_same]
  rfl

theorem scheduleConvs_onlyFolds (s : State) (f : Nat) (ops : List ConvOp) : OnlyFolds [f] s (scheduleConvs s f ops) :=
  ((OnlyFolds.refl [f] s).modFold f _ List.mem_cons_self).modFold f _ List.mem_cons_self

theorem convs_bookReference (x : Fold) (lat n : Nat) : (bookReference x lat n).convs = x.convs := rfl

/-- A CONV schedules its conversions behind those of before, with their adds or without. -/
theorem doConv_schedules (s : State) (f mask desc : Nat) : OnlyFolds [f] s (doConv s f mask desc) ∧
    (getFold (doConv s f mask desc) f).convs.map Conv.adding =
      ((getFold s f).convs ++ (convsOf s f mask desc).map Conv.scheduled).map Conv.adding := by
  unfold doConv
  extract_lets ops reads book lat hits counted booked referenced clashed scheduled
  have hbooked : ConvsStay f s booked := by
    refine .modFold (.ite (.via (.refl f s) (bump_via ..) rfl) (.refl f s)) fun x => ?_
    obtain ⟨vs, pended⟩ := foldl_pendVs reads { x with books := x.books ++ [book] }
    rw [pended]
  have hreferenced : ConvsStay f s referenced := .ite (hbooked.modFold fun x => by rw [convs_bookReference]) hbooked
  have hclashed : ConvsStay f s clashed := .forEach (fun u c => clash_convsStay u f _ _ _) hreferenced
  have later : ConvsStay f scheduled (((ops.map fun o => (o.tile, o.tag)).dedup).foldl (fun s e => rowClash s f lat e.1 e.2) scheduled) :=
    .forEach (fun u e => rowClash_convsStay u f _ _ _) (.refl f scheduled)
  refine ⟨(hclashed.folds.trans (scheduleConvs_onlyFolds clashed f _)).trans later.folds, ?_⟩
  rw [later.convs, convs_scheduleConvs, List.map_append, List.map_append, hclashed.convs, List.map_map, List.map_map, List.map_map]
  rfl

/-- The conversions of a CONV: one of each array of its mask, in the same cycle and of the same bundle. -/
theorem convsOf_fields (s : State) (f mask desc : Nat) : (convsOf s f mask desc).map (·.array) = (List.range 16).filter (bit mask)
    ∧ ∀ o ∈ convsOf s f mask desc, o.lat = convBoundary s f ∧ o.bundle = (getFold s f).lastPc := by
  unfold convsOf convOps
  dsimp only
  constructor
  · rw [List.map_map]
    exact List.map_id _
  · intro o ho
    obtain ⟨a, -, rfl⟩ := List.mem_map.mp ho
    exact ⟨rfl, rfl⟩

/-- What stands behind the conversions of before is a scheduled one. -/
theorem exists_scheduled {xs ys : List Conv} {os : List ConvOp} (h : ys.map Conv.adding = (xs ++ os.map Conv.scheduled).map Conv.adding)
    {k : Conv} (hk : k ∈ ys.drop xs.length) : ∃ o ∈ os, k.adding = (Conv.scheduled o).adding := by
  have added : k.adding ∈ (ys.map Conv.adding).drop xs.length := by
    rw [← List.map_drop]
    exact List.mem_map_of_mem hk
  rw [h, ← List.map_drop, List.drop_left, List.map_map] at added
  obtain ⟨o, ho, e⟩ := List.mem_map.mp added
  exact ⟨o, ho, e.symm⟩

theorem arrays_of_adding {xs ys : List Conv} (h : ys.map Conv.adding = xs.map Conv.adding) :
    ys.map (·.op.array) = xs.map (·.op.array) := by
  have core : ∀ zs : List Conv, zs.map (·.op.array) = (zs.map Conv.adding).map (·.op.array) := fun zs => by
    rw [List.map_map]
    rfl
  rw [core, h, ← core]

/-- Taking back cancelled lanes changes the lane mask of the fold alone (R186). -/
theorem convMask_keeps (s : State) (f desc : Nat) : Via [.folds] s (convMask s f desc) ∧ ConvsStay f s (convMask s f desc)
    ∧ (getFold (convMask s f desc) f).now = (getFold s f).now ∧ (getFold (convMask s f desc) f).lastPc = (getFold s f).lastPc := by
  unfold convMask
  split
  · exact ⟨modFold_via .., (ConvsStay.refl f s).modFold fun _ => rfl, by rw [getFold_modFold_same], by rw [getFold_modFold_same]⟩
  · exact ⟨.refl _ s, .refl f s, rfl, rfl⟩

theorem issueConv_of_clean {s : State} {f mask rsv desc : Nat} (h : convCheck (convMask s f desc) f mask rsv desc = []) :
    issueConv s f mask rsv desc = doConv (convMask s f desc) f mask desc := by
  unfold issueConv
  dsimp only
  rw [h]

/-- An array-cycle boundary rests on the pauses alone. -/
theorem Via.arrayBoundary {ps : List StatePart} {s t : State} (h : Via ps s t) (k : ps.contains .pause = false) (c : Nat) :
    Machine.arrayBoundary t c = Machine.arrayBoundary s c := by
  have pause : t.pause = s.pause := h.piece k
  rw [Machine.arrayBoundary, pause, Machine.arrayBoundary]

/-- The array-cycle boundaries come every 32 cycles from the first of the tick on (R26). -/
theorem arrayBoundary_spec {s : State} {c : Nat} (h : s.pause.base ≤ c) :
    (arrayBoundary s c - s.pause.base) % 32 = 0 ∧ c ≤ arrayBoundary s c ∧ arrayBoundary s c < c + 32 := by
  unfold arrayBoundary roundUp ceilDiv
  omega

/-! ## PSW (R169) -/

theorem issuePsw_clean (s : State) (f mask : Nat) : issuePsw s f mask 0 =
    modFold s f fun x => { x with switches := x.switches ++ [(mask, arrayBoundary s (x.now + 1), x.lastPc)] } := rfl

theorem MarksOnly.switches {s t : State} (h : MarksOnly s t) (g : Nat) : (getFold t g).switches = (getFold s g).switches :=
  (congrArg Fold.switches (h.fold g) :)

/-! ## The plane switch (R39, R40) -/

/-- An array of fold `f` takes its load up to a cycle: which of its planes is active stays, and how long its rows are loaded. -/
theorem loadPart_keeps (s : State) (f t : Nat) (l : Load) (a : Nat) :
    ((getFold (loadPart s f t l) f).arr a).act1 = ((getFold s f).arr a).act1
      ∧ ((getFold (loadPart s f t l) f).arr a).lastRow = ((getFold s f).arr a).lastRow := by
  have plane : ∀ (x : Arr) b p, (x.setPlane b p).act1 = x.act1 ∧ (x.setPlane b p).lastRow = x.lastRow := fun x b p => by
    cases b <;> exact ⟨rfl, rfl⟩
  rw [loadPart_eq]
  by_cases e : a = l.array
  · rw [e, arr_modArr_same]
    exact plane ..
  · rw [arr_modArr_ne e]
    exact ⟨rfl, rfl⟩

/-- What the loads of a fold leave of it as they go on: the arrays' active planes and load cycles, the switches, and the other folds. -/
structure LoadsGoOn (f : Nat) (s t : State) : Prop where
  /-- the other folds are the same -/
  folds : OnlyFolds [f] s t
  /-- the switches -/
  switches : (getFold t f).switches = (getFold s f).switches
  /-- the active planes -/
  act1 : ∀ a, ((getFold t f).arr a).act1 = ((getFold s f).arr a).act1
  /-- the last rows -/
  lastRow : ∀ a, ((getFold t f).arr a).lastRow = ((getFold s f).arr a).lastRow

theorem LoadsGoOn.trans {f : Nat} {r s t : State} (h : LoadsGoOn f r s) (k : LoadsGoOn f s t) : LoadsGoOn f r t :=
  ⟨h.folds.trans k.folds, k.switches.trans h.switches, fun a => (k.act1 a).trans (h.act1 a), fun a => (k.lastRow a).trans (h.lastRow a)⟩

theorem loadPart_goesOn (s : State) (f t : Nat) (l : Load) : LoadsGoOn f s (loadPart s f t l) :=
  ⟨.modArr f _ _ (.refl _ s) List.mem_cons_self, by rw [loadPart_eq, getFold_modArr_same]; rfl, fun a => (loadPart_keeps s f t l a).1,
    fun a => (loadPart_keeps s f t l a).2⟩

theorem loadsTo_goesOn (s : State) (f t : Nat) : LoadsGoOn f s (loadsTo s f t) := by
  have parts : LoadsGoOn f s ((getFold s f).loads.foldl (fun s l => loadPart s f t l) s) :=
    forEach_keeps (I := LoadsGoOn f s) (fun u l _ hu => hu.trans (loadPart_goesOn u f t l)) ⟨.refl _ s, rfl, fun _ => rfl, fun _ => rfl⟩
  have off : ∀ (x : Fold) ls a, ({ x with loads := ls } : Fold).arr a = x.arr a := fun _ _ _ => rfl
  rw [loadsTo]
  refine parts.trans ⟨(OnlyFolds.refl [f] _).modFold f _ List.mem_cons_self, ?_, fun a => ?_, fun a => ?_⟩
  · rw [getFold_modFold_same]
  · rw [getFold_modFold_same, off]
  · rw [getFold_modFold_same, off]

/-- An array changes its planes once when it is among those that switch. -/
theorem arr_flip {as : List Nat} (distinct : as.Nodup) (x : Fold) (a : Nat) :
    (as.foldl (fun x a => x.setArr a { x.arr a with act1 := !(x.arr a).act1 }) x).arr a =
      if a ∈ as then { x.arr a with act1 := !(x.arr a).act1 } else x.arr a := by
  induction as generalizing x with
  | nil => rfl
  | cons b bs ih =>
    obtain ⟨apart, distinct⟩ := List.nodup_cons.mp distinct
    rw [List.foldl_cons, ih distinct, Fold.arr_setArr]
    by_cases e : a = b
    · rw [e, if_neg apart, if_pos rfl, if_pos List.mem_cons_self]
    · simp [e]

/-- The arrays of a mask change their planes, and the other arrays do not (R40). -/
theorem arr_flipPlanes (x : Fold) (mask : Nat) {a : Nat} (h : a < 16) : (flipPlanes x mask).arr a =
    { x.arr a with act1 := (x.arr a).act1 != bit mask a } := by
  have member : a ∈ (List.range 16).filter (bit mask) ↔ bit mask a = true := by simp [h]
  rw [flipPlanes, arr_flip (List.nodup_range.filter _)]
  by_cases hit : bit mask a = true
  · rw [if_pos (member.mpr hit), hit, Bool.bne_true]
  · rw [if_neg (mt member.mp hit), Bool.eq_false_of_not_eq_true hit, Bool.bne_false]

theorem switches_flipPlanes (x : Fold) (mask : Nat) : (flipPlanes x mask).switches = x.switches :=
  List.foldlRecOn (motive := fun y : Fold => y.switches = x.switches) _ _ rfl fun _ hy _ _ => hy

/-- The earliest switch takes effect where no row of its arrays is still loaded. -/
theorem switchPlanes_of_loaded {s : State} {f mask b : Nat}
    (loaded : ∀ a, a < 16 → bit mask a = true → ((getFold s f).arr a).lastRow ≤ b) (bundle : Nat) :
    switchPlanes s f mask b bundle =
      modFold (modFold (loadsTo s f b) f fun x => { x with switches := x.switches.drop 1 }) f (flipPlanes · mask) := by
  have off : ∀ (x : Fold) ws a, ({ x with switches := ws } : Fold).arr a = x.arr a := fun _ _ _ => rfl
  have free : (((List.range 16).filter (bit mask)).any fun a => decide (b < ((getFold (modFold (loadsTo s f b) f fun x =>
      { x with switches := x.switches.drop 1 }) f).arr a).lastRow)) = false := by
    rw [List.any_eq_false]
    intro a ha
    obtain ⟨small, hit⟩ := List.mem_filter.mp ha
    rw [getFold_modFold_same, off, (loadsTo_goesOn s f b).lastRow]
    simpa using loaded a (List.mem_range.mp small) hit
  unfold switchPlanes
  dsimp only
  rw [free, if_neg Bool.false_ne_true]

theorem answers_planeSwitch {s : State} {f : Fin 68} {mask b bundle : Nat} {rest : List (Nat × Nat × Nat)} {P : State → Prop}
    (first : (getFold s f).switches = (mask, b, bundle) :: rest) (come : due s b = true) (h : P (switchPlanes s f mask b bundle)) :
    Answers (.planeSwitch f) s P := by
  refine ⟨_, ?_, h⟩
  show execPlaneSwitch f s = _
  simp only [execPlaneSwitch, first, come, if_true]

/-! ## The claim -/

/-- Settles O12: a CONV's conversions stand behind those of before whatever clashes do to their adds (`doConv_schedules`), and a switch
flips each array of its mask once (`arr_flipPlanes`). -/
theorem conversionsAndSwitchesAreScheduled : Obligations.ConversionsAndSwitchesAreScheduled := by
  unfold Obligations.ConversionsAndSwitchesAreScheduled
  refine ⟨fun s f mask rsv desc taken clean => ?conv, fun s c h => arrayBoundary_spec h,
    ⟨fun s f mask taken => ?psw, fun s f mask b bundle rest first come loaded => ?switch⟩, fun s f a k next => ?latch,
    fun s f a k d next data => ?delivery⟩
  case conv =>
    obtain ⟨maskVia, masked, now, last⟩ := convMask_keeps (dropSyllable s f) f desc
    have dropped : ConvsStay f s (dropSyllable s f) := (ConvsStay.refl f s).modFold fun _ => rfl
    have before := dropped.trans masked
    have drop := dropSyllable_stays s f
    have via : Via [.folds] s (convMask (dropSyllable s f) f desc) := (dropSyllable_via s f).trans maskVia
    obtain ⟨folds, convs⟩ := doConv_schedules (convMask (dropSyllable s f) f desc) f mask.toNat desc
    obtain ⟨arrays, fields⟩ := convsOf_fields (convMask (dropSyllable s f) f desc) f mask.toNat desc
    have all : (getFold (settleTodo (doConv (convMask (dropSyllable s f) f desc) f mask.toNat desc) f) f).convs.map Conv.adding =
        ((getFold s f).convs ++ (convsOf (convMask (dropSyllable s f) f desc) f mask.toNat desc).map Conv.scheduled).map Conv.adding := by
      rw [(settleTodo_marks ..).convs, convs, List.map_append, before.convs, ← List.map_append]
    refine answers_syllable (go := fun s => issueConv s f mask.toNat rsv.toNat desc) rfl taken ?_
    rw [issueConv_of_clean clean]
    refine ⟨?_, fun k hk => ?_, syllable_folds (masked.folds.trans folds) List.mem_cons_self,
      syllable_parts (.step (doConv_via ..) rfl (maskVia.mono rfl)) rfl⟩
    · rw [arrays_of_adding all, List.map_append, List.map_map, ← arrays]
      rfl
    · obtain ⟨o, ho, e⟩ := exists_scheduled all hk
      obtain ⟨lat, bundle⟩ := fields o ho
      rw [convBoundary, now, drop.now, via.arrayBoundary rfl] at lat
      rw [last, drop.lastPc] at bundle
      exact ⟨(congrArg (·.op.lat) e :).trans lat, (congrArg (·.op.bundle) e :).trans bundle, (congrArg (·.data) e :),
        (congrArg (·.delivered) e :)⟩
  case psw =>
    have drop := dropSyllable_stays s f
    have fold : getFold (dropSyllable s f) f = { getFold s f with todo := (getFold s f).todo.drop 1 } := by
      rw [dropSyllable, getFold_modFold_same]
    refine answers_syllable (go := fun s => issuePsw s f mask.toNat 0) rfl taken ?_
    rw [issuePsw_clean]
    refine ⟨?_, ?_, syllable_folds ((OnlyFolds.refl _ _).modFold f _ List.mem_cons_self) List.mem_cons_self,
      syllable_parts ((modFold_via ..).mono rfl) rfl⟩
    · rw [(settleTodo_marks ..).switches, getFold_modFold_same, (dropSyllable_via s f).arrayBoundary rfl, fold]
    · rw [(settleTodo_marks ..).arrays, getFold_modFold_same, fold]
  case switch =>
    have goOn := loadsTo_goesOn s f b
    have off : ∀ (x : Fold) ws a, ({ x with switches := ws } : Fold).arr a = x.arr a := fun _ _ _ => rfl
    refine answers_planeSwitch first come ?_
    rw [switchPlanes_of_loaded loaded]
    refine ⟨?_, fun a ha => ?_, (goOn.folds.modFold f _ List.mem_cons_self).modFold f _ List.mem_cons_self,
      (Via.step (modFold_via ..) rfl (.step (modFold_via ..) rfl (loadsTo_via s f b))).same⟩
    · rw [getFold_modFold_same, switches_flipPlanes, getFold_modFold_same, goOn.switches, first]
      rfl
    · rw [getFold_modFold_same, arr_flipPlanes _ _ ha, getFold_modFold_same, off]
      exact ⟨by rw [goOn.act1], rfl, rfl⟩
  case latch =>
    refine ⟨fun may => answers_convLatch next may rfl, fun early => ⟨s, ?_, rfl⟩⟩
    show execConvLatch f a s = _
    simp only [execConvLatch, next, early, Bool.false_eq_true, if_false]
  case delivery =>
    refine ⟨fun at40 => ⟨answers_convDeliver next data at40 rfl, ⟨_, ?_, rfl⟩⟩, fun early residue => ⟨s, ?_, rfl⟩⟩
    · show execConvDeliver f a true s = _
      simp only [execConvDeliver, next, data, at40, if_true]
    · show execConvDeliver f a residue s = _
      simp only [execConvDeliver, next, data, early, Bool.false_eq_true, if_false]

end Sys2Proof.Machine
end

section
/-! SUPPORT. Vector operations: how many bytes each writes, and that its result stands in them (R176 to R182, R187). -/

namespace Sys2Proof.Machine

open Sys2Proof Sys2Proof.Claims

/-! ## Little-endian numbers and runs of them -/

/-- The little-endian bytes of a number give it back, as far as they hold it. -/
theorem leNat_toLe (n x : Nat) : leNat (toLe n x) = x % 2 ^ (8 * n) := by
  induction n generalizing x with
  | zero => rw [Nat.mul_zero, Nat.pow_zero, Nat.mod_one]; rfl
  | succ n ih =>
    have wide : 2 ^ (8 * (n + 1)) = 256 * 2 ^ (8 * n) := by rw [Nat.mul_add, Nat.pow_add, Nat.mul_comm]
    rw [toLe, leNat, ih, BitVec.toNat_ofNat, wide, Nat.mod_mul]

theorem length_flatten_of_eq {α : Type} {ls : List (List α)} {k : Nat} (h : ∀ l ∈ ls, l.length = k) : ls.flatten.length = k * ls.length := by
  induction ls with
  | nil => rfl
  | cons l ls ih =>
    rw [List.flatten_cons, List.length_append, h l List.mem_cons_self, ih fun m hm => h m (List.mem_cons_of_mem _ hm), List.length_cons,
      Nat.mul_succ, Nat.add_comm]

/-- Of runs of equal length one behind another, each stands at its place. -/
theorem slice_flatten {α : Type} {ls : List (List α)} {k : Nat} (h : ∀ l ∈ ls, l.length = k) {j : Nat} (hj : j < ls.length) :
    (ls.flatten.drop (k * j)).take k = ls[j] := by
  induction ls generalizing j with
  | nil => cases hj
  | cons l ls ih =>
    have hl : l.length = k := h l List.mem_cons_self
    rw [List.flatten_cons]
    cases j with
    | zero => rw [Nat.mul_zero, List.drop_zero, ← hl, List.take_left, List.getElem_cons_zero]
    | succ j =>
      have skip : k * (j + 1) = l.length + k * j := by rw [hl, Nat.mul_succ, Nat.add_comm]
      rw [skip, List.drop_length_add_append, List.getElem_cons_succ]
      exact ih (fun m hm => h m (List.mem_cons_of_mem _ hm)) (Nat.lt_of_succ_lt_succ hj)

/-- Reading a part of a run. -/
theorem readBytes_slice (s : State) (a : Nat) {i k n : Nat} (h : i + k ≤ n) :
    readBytes s (a + i) k = ((readBytes s a n).drop i).take k := by
  refine List.ext_getElem (by simp [readBytes]; omega) fun j hj _ => ?_
  simp only [readBytes, List.getElem_map, List.getElem_range, List.getElem_take, List.getElem_drop, Nat.add_assoc]

theorem Via.readBytes {ps : List StatePart} {s t : State} (h : Via ps s t) (km : ps.contains .mem = false) (ks : ps.contains .hbmShort = false)
    (a n : Nat) : Machine.readBytes t a n = Machine.readBytes s a n :=
  List.map_congr_left fun _ _ => h.readByte km ks _

/-! ## How many bytes an operation writes (R177) -/

theorem length_storeVals (xs : List FV) (sz : Nat) (fm : FloatFmt) : (storeVals xs sz fm).length = sz * xs.length := by
  rw [storeVals, length_flatten_of_eq (k := sz), List.length_map]
  intro l hl
  obtain ⟨x, -, rfl⟩ := List.mem_map.mp hl
  exact toLe_length ..

theorem length_loadVals (s : State) (f a n sz : Nat) (fm : FloatFmt) : (loadVals s f a n sz fm).length = n := by
  rw [loadVals, List.length_map, List.length_range]

theorem length_loadB (s : State) (f : Nat) (v : VArgs) : (loadB s f v).length = v.n := by
  unfold loadB
  split
  · exact List.length_replicate
  · exact length_loadVals ..

/-- A rotation gives a pair for each pair. -/
theorem length_rope (f : FloatFmt) (k : Nat) : ∀ {xs cs : List FV}, xs.length = 2 * k → cs.length = 2 * k → (rope f xs cs).length = 2 * k := by
  induction k with
  | zero =>
    intro xs cs hx _
    rw [List.length_eq_zero_iff.mp hx]
    rfl
  | succ k ih =>
    intro xs cs hx hc
    match xs, cs, hx, hc with
    | x0 :: x1 :: xs, c :: sn :: cs, hx, hc =>
      simp only [List.length_cons] at hx hc
      rw [rope, List.length_cons, List.length_cons, ih (by omega) (by omega)]
      omega

theorem length_resOne (x : FV) {sz : Nat} (h : sz ≤ 64) (fm : FloatFmt) (n : Nat) : (resOne x sz fm n).bytes.length = 64 := by
  simp only [resOne, List.length_append, toLe_length]
  omega

theorem length_quantise (fo : Fmt) (xs : List FV) : (quantise fo xs).length = 16 * (xs.length / 32) + xs.length / 32 := by
  unfold quantise
  dsimp only
  rw [List.length_append, length_flatten_of_eq (k := 16)]
  · simp only [List.length_map, List.length_range]
  · intro l hl
    simp only [List.map_map, List.mem_map, Function.comp_apply] at hl
    obtain ⟨k, -, rfl⟩ := hl
    rw [quantBlock, List.length_map, List.length_range]

theorem VArgs.size_le (v : VArgs) : v.size ≤ 64 := by
  unfold VArgs.size
  split <;> decide

/-- Every operation writes the bytes that R177 gives it: its elements come in blocks of 64. -/
theorem length_vecResult (s : State) (f : Nat) (op : VOp) {v : VArgs} (h : 64 ∣ v.n) :
    (vecResult s f op v).1.bytes.length = vecWrites op v := by
  obtain ⟨k, hk⟩ := h
  cases op with
  | vadd | vsub | vmul | vmax | vmin | vcmplt =>
    simp only [vecResult, resVals, length_storeVals, List.length_zipWith, length_loadVals, length_loadB, Nat.min_self, vecWrites, Nat.mul_comm]
  | vfma =>
    simp only [vecResult, resVals, length_storeVals, List.length_zipWith, List.length_zip, length_loadVals, length_loadB, Nat.min_self, vecWrites,
      Nat.mul_comm]
  | vwide => simp only [vecResult, resVals, length_storeVals, length_loadVals, vecWrites]
  | vnarr => simp only [vecResult, resVals, length_storeVals, List.length_map, length_loadVals, vecWrites]
  | vdec => simp only [vecResult, resVals, length_storeVals, List.length_map, List.length_range, vecWrites]
  | vexp | vrcp | vrsq | vsilu | vgelu =>
    simp only [vecResult, resVals, length_storeVals, List.length_map, length_loadVals, vecWrites, Nat.mul_comm]
  | vrope =>
    have pairs : (rope v.fmt (loadVals s f v.a v.n v.size v.fmt) (loadB s f v)).length = v.n := by
      rw [length_rope v.fmt (32 * k) (by rw [length_loadVals]; omega) (by rw [length_loadB]; omega)]
      omega
    simp only [vecResult, resVals, length_storeVals, pairs, vecWrites, Nat.mul_comm]
  | vrsum => exact length_resOne _ (by decide) ..
  | vrmax => exact length_resOne _ v.size_le ..
  | vargmx => simp only [vecResult, argBytes, List.length_append, toLe_length, vecWrites]
  | vdraw => simp only [vecResult, walkBytes, List.length_append, toLe_length, vecWrites]
  | vwalk => simp only [vecResult, walkBytes, List.length_append, toLe_length, vecWrites]
  | vqmx4 | vqi4 =>
    simp only [vecResult, length_quantise, length_loadVals, vecWrites]
    omega

/-- A masked operation writes as many bytes (R187). -/
theorem length_vecOutcome (s : State) (f : Nat) (op : VOp) {v : VArgs} (h : 64 ∣ v.n) :
    (vecOutcome s f op v).1.bytes.length = vecWrites op v := by
  unfold vecOutcome
  split
  · exact List.length_replicate
  · exact length_vecResult s f op h

theorem n_vecArgsOf (s : State) (f : Nat) (q : VecSyl) : 64 ∣ (vecArgsOf s f q).n := Nat.dvd_mul_right ..


/-! ## What the check of an operation gives -/

theorem getFold_dropSyllable (s : State) (f : Nat) :
    getFold (dropSyllable s f) f = { getFold s f with todo := (getFold s f).todo.drop 1 } := by
  rw [dropSyllable, getFold_modFold, if_pos rfl]

/-- A syllable's command has the operands that its bundle names. -/
theorem vecArgsOf_dropSyllable (s : State) (f : Nat) (q : VecSyl) : vecArgsOf (dropSyllable s f) f q = vecArgsOf s f q := by
  unfold vecArgsOf
  rw [getFold_dropSyllable]
  rfl

theorem false_of_stopIf_nil {b : Bool} {x : Stop} (h : stopIf b x = []) : b = false := by
  cases b with
  | false => rfl
  | true => cases h

/-- An operation that its check lets through writes inside the vector store (R192). -/
theorem dest_fits {s : State} {f : Nat} {op : VOp} {q : VecSyl} (clean : vecCheck s f op q = []) :
    (vecArgsOf s f q).d + vecWrites op (vecArgsOf s f q) ≤ vsSize := by
  obtain ⟨fields, -⟩ := List.append_eq_nil_iff.mp (clean : allStops _ _ = [])
  obtain ⟨-, ranges⟩ := List.append_eq_nil_iff.mp (fields : _ ++ stopIf _ _ = [])
  have within := (Bool.or_eq_false_iff.mp (false_of_stopIf_nil ranges)).2
  have dest := List.any_eq_false.mp within _ (List.mem_append_right _ List.mem_cons_self)
  simpa using dest

/-! ## An operation at its issue -/

/-- The state in which an operation writes: its outcome drawn or counted, and its reads and its write recorded in the fold. -/
def vecBooked (s : State) (f : Nat) (op : VOp) (v : VArgs) : State :=
  modFold (vecOutcome s f op v).2 f fun x =>
    pendVs ((vecPendings s f op v).foldl pendVs (occupy x (x.now + op.lat) 2)) (vecWrite s f op v)

theorem doVec_eq (s : State) (f : Nat) (op : VOp) (v : VArgs) :
    doVec s f op v = bump (droveBytes (vecBooked s f op v) (vsAddr f v.d) (vecOutcome s f op v).1.bytes) (foldPg f) F.VEC_NAN_CNT
      (vecOutcome s f op v).1.nans := rfl

theorem vecBooked_via (s : State) (f : Nat) (op : VOp) (v : VArgs) : Via [.free, .regs, .folds] s (vecBooked s f op v) :=
  .step (modFold_via ..) rfl ((vecOutcome_via s f op v).mono rfl)

theorem doVec_onlyFolds (s : State) (f : Nat) (op : VOp) (v : VArgs) : OnlyFolds [f] s (doVec s f op v) :=
  have drawn : OnlyFolds [f] s (vecOutcome s f op v).2 := (OnlyFolds.refl [f] s).via (vecOutcome_via ..) rfl
  ((drawn.modFold f _ List.mem_cons_self).via (droveBytes_via ..) rfl).via (bump_via ..) rfl

section
variable {s : State} {f : Fin 68} {op : VOp} {q : VecSyl}

/-- The bytes from D hold the operation's result. -/
theorem readBytes_doVec (clean : vecCheck s f op q = []) :
    readBytes (doVec s f op (vecArgsOf s f q)) (vsAddr f (vecArgsOf s f q).d) (vecWrites op (vecArgsOf s f q))
      = (vecOutcome s f op (vecArgsOf s f q)).1.bytes := by
  have fits := dest_fits clean
  have long := length_vecOutcome s f op (n_vecArgsOf s f q)
  rw [doVec_eq, (bump_via ..).readBytes rfl rfl, ← long]
  refine readBytes_droveBytes fun j hj => ?_
  rw [vsAddr_add]
  exact isMem_vsAddr f.isLt (by omega) _

theorem readByte_doVec_outside {a : Nat} (h : ¬ inDest s f op q a) : readByte (doVec s f op (vecArgsOf s f q)) a = readByte s a := by
  rw [doVec_eq, (bump_via ..).readByte rfl rfl, readByte_droveBytes_outside, (vecBooked_via ..).readByte rfl rfl]
  rw [length_vecOutcome s f op (n_vecArgsOf s f q)]
  exact h

/-- An operation's command: the operation at its issue, with the syllable's place dealt with and the places after it settled. -/
theorem answers_vec {P : State → Prop} (taken : takes s f 2 (vecWord op.code q) = true) (agrees : q.residue = false)
    (clean : vecCheck (dropSyllable s f) f op q = []) (h : P (settleTodo (doVec (dropSyllable s f) f op (vecArgsOf (dropSyllable s f) f q)) f)) :
    Answers (vecInstr op f q) s P := by
  refine answers_syllable ((exec_vecInstr op f q s).trans (congrArg _ (vecSyllable_plain agrees s f op))) taken ?_
  rw [issueVec, clean]
  exact h

end

/-! ## Elements (R177, R178) -/

/-- Element `j` of an operand, as it stands before the operation. -/
def elemOf (s : State) (f : Nat) (a : VArgs) (base j : Nat) : FV :=
  decodeFloat a.fmt (droveLe s (vsAddr f (base + a.size * j)) a.size)

/-- Element `j` of operand B: element 0 for every element under broadcast. -/
def elemB (s : State) (f : Nat) (a : VArgs) (j : Nat) : FV := if a.bcast then elemOf s f a a.b 0 else elemOf s f a a.b j

theorem loadVals_eq (s : State) (f base : Nat) (a : VArgs) :
    loadVals s f base a.n a.size a.fmt = (List.range a.n).map (elemOf s f a base) := rfl

theorem loadB_eq (s : State) (f : Nat) (a : VArgs) : loadB s f a = (List.range a.n).map (elemB s f a) := by
  unfold loadB elemB
  split
  · exact (List.eq_replicate_iff.mpr ⟨by simp, by simp [elemOf]⟩).symm
  · exact loadVals_eq s f a.b a

theorem elemOf_dropSyllable (s : State) (f g : Nat) (a : VArgs) (base j : Nat) : elemOf (dropSyllable s f) g a base j = elemOf s g a base j := by
  unfold elemOf droveLe
  rw [(dropSyllable_via s f).droveRead rfl rfl rfl]

theorem elemB_dropSyllable (s : State) (f g : Nat) (a : VArgs) (j : Nat) : elemB (dropSyllable s f) g a j = elemB s g a j := by
  simp only [elemB, elemOf_dropSyllable]

/-- Where the values of a function of the element's number stand, each element reads back, rounded once. -/
theorem readLe_of_storeVals {t : State} {f : Nat} {a : VArgs} {el : Nat → FV}
    (h : readBytes t (vsAddr f a.d) (a.n * a.size) = storeVals ((List.range a.n).map el) a.size a.fmt) {j : Nat} (hj : j < a.n) :
    readLe t (vsAddr f (a.d + a.size * j)) a.size = encodeFloat a.fmt (el j) % 2 ^ (8 * a.size) := by
  have fits : a.size * j + a.size ≤ a.n * a.size := by
    rw [← Nat.mul_succ, Nat.mul_comm]
    exact Nat.mul_le_mul_right _ hj
  have each : ∀ l ∈ ((List.range a.n).map el).map (fun x => toLe a.size (encodeFloat a.fmt x)), l.length = a.size := fun l hl => by
    obtain ⟨x, -, rfl⟩ := List.mem_map.mp hl
    exact toLe_length ..
  rw [readLe, ← vsAddr_add, readBytes_slice t _ fits, h, storeVals, slice_flatten each (by simpa using hj)]
  simp only [List.getElem_map, List.getElem_range, leNat_toLe]

/-- The command of an elementwise operation that no lane masks gives each element of D its value, rounded once. -/
theorem answers_vec_elem {s : State} {f : Fin 68} {op : VOp} {q : VecSyl} {el : Nat → FV} (taken : takes s f 2 (vecWord op.code q) = true)
    (agrees : q.residue = false) (clean : vecCheck (dropSyllable s f) f op q = []) (live : (vecArgsOf s f q).masked = false)
    (size : vecWrites op (vecArgsOf s f q) = (vecArgsOf s f q).n * (vecArgsOf s f q).size)
    (bytes : (vecResult (dropSyllable s f) f op (vecArgsOf s f q)).1.bytes
      = storeVals ((List.range (vecArgsOf s f q).n).map el) (vecArgsOf s f q).size (vecArgsOf s f q).fmt)
    {j : Nat} (hj : j < (vecArgsOf s f q).n) :
    Answers (vecInstr op f q) s fun t => readLe t (vsAddr f ((vecArgsOf s f q).d + (vecArgsOf s f q).size * j)) (vecArgsOf s f q).size
      = encodeFloat (vecArgsOf s f q).fmt (el j) % 2 ^ (8 * (vecArgsOf s f q).size) := by
  have plain : vecOutcome (dropSyllable s f) f op (vecArgsOf s f q) = vecResult (dropSyllable s f) f op (vecArgsOf s f q) := by
    rw [vecOutcome, live]
    rfl
  have result := readBytes_doVec clean
  rw [vecArgsOf_dropSyllable, plain, bytes, size] at result
  refine answers_vec taken agrees clean (readLe_of_storeVals ?_ hj)
  rw [vecArgsOf_dropSyllable, (settleTodo_via ..).readBytes rfl rfl, result]

/-- The operations of two operands. -/
def twoOps : List VOp := [.vadd, .vsub, .vmul, .vmax, .vmin, .vcmplt]

theorem vecResult_two {op : VOp} (h : op ∈ twoOps) (s : State) (f : Nat) (a : VArgs) :
    vecWrites op a = a.n * a.size ∧ (vecResult s f op a).1.bytes
      = storeVals ((List.range a.n).map fun j => vecTwo op a.fmt (elemOf s f a a.a j) (elemB s f a j)) a.size a.fmt := by
  have pairs : List.zipWith (vecTwo op a.fmt) (loadVals s f a.a a.n a.size a.fmt) (loadB s f a)
      = (List.range a.n).map fun j => vecTwo op a.fmt (elemOf s f a a.a j) (elemB s f a j) := by
    rw [loadVals_eq, loadB_eq, List.zipWith_map, List.zipWith_self]
  rw [← pairs]
  simp only [twoOps, List.mem_cons, List.not_mem_nil, or_false] at h
  obtain rfl | rfl | rfl | rfl | rfl | rfl := h <;> exact ⟨rfl, rfl⟩

theorem vecResult_vfma (s : State) (f : Nat) (a : VArgs) :
    (vecResult s f .vfma a).1.bytes
      = storeVals ((List.range a.n).map fun j => fFma a.fmt (elemOf s f a a.a j) (elemB s f a j) (elemOf s f a a.d j)) a.size a.fmt := by
  simp only [vecResult, resVals, loadVals_eq, loadB_eq, List.zip_map', List.zipWith_map, List.zipWith_self]

/-- Settles O16: the check keeps the destination inside the vector store, where the operation writes the bytes of its outcome and nothing
else; the elementwise results are stored one element behind another, so that each reads back by itself. -/
theorem vectorOperationsWriteTheirResults : Obligations.VectorOperationsWriteTheirResults := by
  unfold Obligations.VectorOperationsWriteTheirResults
  refine ⟨fun s f op q taken agrees clean => ?_, fun s f op q taken agrees clean live => ?_⟩
  case refine_1 =>
    have result := readBytes_doVec clean
    have outside : ∀ a, ¬ inDest s f op q a →
        readByte (doVec (dropSyllable s f) f op (vecArgsOf (dropSyllable s f) f q)) a = readByte (dropSyllable s f) a := fun a ha =>
      readByte_doVec_outside (by rwa [inDest, vecArgsOf_dropSyllable])
    refine answers_vec taken agrees clean ?_
    rw [vecArgsOf_dropSyllable] at result outside ⊢
    have settled := settleTodo_via (doVec (dropSyllable s f) f op (vecArgsOf s f q)) f
    refine ⟨(settled.readBytes rfl rfl ..).trans result, fun masked => ?_, fun a ha => ?_,
      syllable_folds (doVec_onlyFolds _ _ _ _) List.mem_cons_self, syllable_parts ((doVec_via ..).mono rfl) rfl⟩
    · rw [settled.readBytes rfl rfl, result, vecOutcome, if_pos masked]
    · rw [settled.readByte rfl rfl, outside a ha, (dropSyllable_via s f).readByte rfl rfl]
  case refine_2 =>
    intro a el elB j hj
    refine ⟨fun two => ?_, fun fma => ?_⟩
    · obtain ⟨size, bytes⟩ := vecResult_two two (dropSyllable s f) f a
      simp only [elemOf_dropSyllable, elemB_dropSyllable] at bytes
      exact answers_vec_elem taken agrees clean live size bytes hj
    · subst fma
      have bytes := vecResult_vfma (dropSyllable s f) f a
      simp only [elemOf_dropSyllable, elemB_dropSyllable] at bytes
      exact answers_vec_elem taken agrees clean live rfl bytes hj

end Sys2Proof.Machine
end

section
/-! SUPPORT. Transfers with HBM and over links (R183, R245 to R248, R301, R328, R335): what HRD, HWR and LSND record, and what they leave. -/

namespace Sys2Proof.Machine

open Sys2Proof Sys2Proof.Claims

/-! ## What the operands of a transfer rest on -/

theorem blockAddr_dropSyllable (s : State) (f : Nat) : blockAddr (dropSyllable s f) f = blockAddr s f := by
  simp only [blockAddr, getFold_dropSyllable]
  rfl

/-- The KV mapping of a lane, and with it the way of an HBM transfer, rests on the lane block, which the syllables to come do not touch. -/
theorem hbmWay_dropSyllable (s : State) (f : Nat) (d : Drove) (v : XArgs) (w : Nat) :
    hbmWay (dropSyllable s f) f d v w = hbmWay s f d v w := by
  have field : ∀ lane off n, laneField (dropSyllable s f) f lane off n = laneField s f lane off n := fun lane off n => by
    rw [laneField, blockAddr_dropSyllable, droveLe, (dropSyllable_via s f).droveRead rfl rfl rfl]
    rfl
  have segs : laneSegs (dropSyllable s f) f v.lane = laneSegs s f v.lane := by
    simp only [laneSegs, field]
  have way : kvWay (dropSyllable s f) f d v w = kvWay s f d v w := by
    simp only [kvWay, segs]
    rfl
  rw [hbmWay, way]
  rfl

theorem hrdVis_dropSyllable (s : State) (f : Nat) (d : Drove) (v : XArgs) (h : HbmWay) :
    hrdVis (dropSyllable s f) f d v h = hrdVis s f d v h := by
  simp only [hrdVis, getFold_dropSyllable]

theorem hwrVis_dropSyllable (s : State) (f : Nat) (d : Drove) (v : XArgs) (h : HbmWay) :
    hwrVis (dropSyllable s f) f d v h = hwrVis s f d v h := by
  simp only [hwrVis, getFold_dropSyllable]

/-! ## What a transfer with HBM books -/

/-- The transfer is masked, or acts as masked for want of a segment (R301). -/
def moot (v : XArgs) (h : HbmWay) : Bool := v.masked || h.unmapped

/-- The state in which a transfer with HBM has booked its ports and counted. -/
def wayBooked (s : State) (f : Nat) (asks : Asks) (v : XArgs) (h : HbmWay) : State :=
  spendHbm (countWay (bookAll s asks) f v h) f (if moot v h then 0 else v.len)

theorem hrdAsks_fold {s : State} {f : Nat} {d : Drove} {v : XArgs} {h : HbmWay} : ∀ e ∈ hrdAsks s f d v h, e.1 ∈ [f] := fun e he => by
  simpa using (crossAsks_fold (f := f) (g := f) e he : e.1 ∈ [f, f])

theorem hwrAsks_fold {s : State} {f : Nat} {d : Drove} {v : XArgs} {h : HbmWay} : ∀ e ∈ hwrAsks s f d v h, e.1 ∈ [f] := fun e he => by
  simpa using (crossAsks_fold (f := f) (g := f) e he : e.1 ∈ [f, f])

theorem spendHbm_stays (s : State) (f n : Nat) : FlightsStay (· ∈ [f]) s (spendHbm s f n) := .modFold s List.mem_cons_self

theorem wayBooked_stays {s : State} {f : Nat} {asks : Asks} (here : ∀ e ∈ asks, e.1 ∈ [f]) (v : XArgs) (h : HbmWay) :
    FlightsStay (· ∈ [f]) s (wayBooked s f asks v h) :=
  ((bookAll_stays (here := (· ∈ [f])) here s).via (countWay_via _ f v h) rfl).trans (spendHbm_stays ..)

theorem wayBooked_via (s : State) (f : Nat) (asks : Asks) (v : XArgs) (h : HbmWay) : Via [.regs, .folds] s (wayBooked s f asks v h) :=
  .step (spendHbm_via ..) rfl (.step (countWay_via ..) rfl ((bookAll_via ..).mono rfl))

/-! ## HRD (R183, R245) -/

/-- The state in which an HRD has read its lines. -/
def hrdRead (s : State) (f : Nat) (lines : List LineErr) (d : Drove) (v : XArgs) (h : HbmWay) : State :=
  let u := wayBooked s f (hrdAsks s f d v h) v h
  if moot v h then u else readLines u f (lineMeets h.addr v.len) lines

/-- The bytes that an HRD puts in flight. -/
def hrdData (s : State) (f : Nat) (lines : List LineErr) (d : Drove) (v : XArgs) (h : HbmWay) : List Byte :=
  if moot v h then List.replicate v.len 0 else droveRead (hrdRead s f lines d v h) h.addr v.len

/-- The transfer that an HRD puts in flight. -/
def hrdFlight (s : State) (f : Nat) (lines : List LineErr) (d : Drove) (v : XArgs) (h : HbmWay) : Xfer :=
  { hwr := false, c := (getFold s f).now, dst := spaceAddr f v.ds v.da, data := hrdData s f lines d v h, vis := hrdVis s f d v h
    fly := hrdVis s f d v h + 1, port := h.port + 1, bundle := (getFold s f).lastPc }

section
variable (s : State) (f : Nat) (lines : List LineErr) (d : Drove) (v : XArgs) (h : HbmWay)

theorem hrdRead_stays : FlightsStay (fun _ => True) s (hrdRead s f lines d v h) := by
  have booked : FlightsStay (fun _ => True) s (wayBooked s f (hrdAsks s f d v h) v h) := (wayBooked_stays hrdAsks_fold v h).mono fun _ _ => trivial
  exact .ite booked (booked.trans (readLines_stays ..))

theorem doHrd_eq : doHrd s f lines d v h =
    addXfer (hrdRead s f lines d v h) f f v.ds v.da v.len (hbmSpan v h) (hrdFlight s f lines d v h) := by
  simp only [hrdFlight, ← (hrdRead_stays s f lines d v h).now, ← (hrdRead_stays s f lines d v h).lastPc]
  rfl

theorem xfers_doHrd : (getFold (doHrd s f lines d v h) f).xfers = (getFold s f).xfers ++ [hrdFlight s f lines d v h] := by
  rw [doHrd_eq, xfers_addXfer, (hrdRead_stays ..).xfers]

/-- An HRD that finds no line in error flies the bytes that stand at its address. -/
theorem hrdData_plain (live : moot v h = false) : hrdData s f [] d v h = droveRead s h.addr v.len := by
  have read : Via [.regs, .folds, .flocks, .care] s (hrdRead s f [] d v h) :=
    .ite ((wayBooked_via ..).mono rfl) (((wayBooked_via ..).mono rfl).trans (readLines_nil_via ..))
  rw [hrdData, live, if_neg Bool.false_ne_true, read.droveRead rfl rfl rfl]

variable {s} in
theorem hrdRead_of_clean (clean : s.care.bad = []) : hrdRead s f [] d v h = wayBooked s f (hrdAsks s f d v h) v h := by
  have care : (wayBooked s f (hrdAsks s f d v h) v h).care = s.care := (wayBooked_via ..).piece (p := .care) rfl
  rw [hrdRead, readLines_of_clean (by rw [care, clean]), ite_self]

variable {s} in
theorem doHrd_clean (clean : s.care.bad = []) : OnlyFolds [f] s (doHrd s f [] d v h) ∧ Via stopParts s (doHrd s f [] d v h) := by
  rw [doHrd_eq, hrdRead_of_clean f d v h clean]
  constructor
  · refine (wayBooked_stays hrdAsks_fold v h).onlyFolds.trans fun g hg => addXfer_onlyFolds _ f f _ _ _ _ _ g ?_
    simpa using hg
  · exact .step (addXfer_via ..) rfl ((wayBooked_via ..).mono rfl)

end

/-! ## HWR (R183, R245, R246, R248) -/

/-- The state in which an HWR has read its source's lines. -/
def hwrRead (s : State) (f : Nat) (lines : List LineErr) (d : Drove) (v : XArgs) (h : HbmWay) : State :=
  let u := wayBooked s f (hwrAsks s f d v h) v h
  if moot v h then u else sourceLines u f v lines

/-- The state in which the bytes of an HWR stand in HBM, and its read is recorded. -/
def hwrStored (s : State) (f : Nat) (lines : List LineErr) (d : Drove) (v : XArgs) (h : HbmWay) : State :=
  let u := hwrRead s f lines d v h
  let w := if moot v h then u else droveStore u h.addr (droveRead u (spaceAddr f v.ss v.sa) v.len)
  if moot v h then w else pendSource w f v (hbmSpan v h)

/-- The transfer of an HWR, with the bytes that it replaced. -/
def hwrFlight (s : State) (f : Nat) (lines : List LineErr) (d : Drove) (v : XArgs) (h : HbmWay) : Xfer :=
  { hwr := true, c := (getFold s f).now, dst := h.addr, data := if moot v h then [] else readBytes (hwrRead s f lines d v h) h.addr v.len
    vis := hwrVis s f d v h, fly := hwrVis s f d v h + 1, port := h.port + 1, bundle := (getFold s f).lastPc }

/-- A transfer joins those of its fold. -/
def withXfer (x : Xfer) (y : Fold) : Fold := { y with xfers := y.xfers ++ [x] }

section
variable (s : State) (f : Nat) (lines : List LineErr) (d : Drove) (v : XArgs) (h : HbmWay)

theorem hwrRead_stays : FlightsStay (fun _ => True) s (hwrRead s f lines d v h) := by
  have booked : FlightsStay (fun _ => True) s (wayBooked s f (hwrAsks s f d v h) v h) := (wayBooked_stays hwrAsks_fold v h).mono fun _ _ => trivial
  exact .ite booked (booked.trans (sourceLines_stays ..))

theorem hwrStored_stays : FlightsStay (fun _ => True) s (hwrStored s f lines d v h) :=
  have read := hwrRead_stays s f lines d v h
  have stored := FlightsStay.ite (c := moot v h) read (read.via (droveStore_via ..) rfl)
  .ite stored (stored.trans ((pendSource_stays ..).mono fun _ _ => trivial))

theorem doHwr_eq : doHwr s f lines d v h = modFold (hwrStored s f lines d v h) f (withXfer (hwrFlight s f lines d v h)) := by
  have stays := hwrStored_stays s f lines d v h
  have fold : withXfer (hwrFlight s f lines d v h) (getFold (hwrStored s f lines d v h) f) =
      withXfer { hwrFlight s f lines d v h with
        c := (getFold (hwrStored s f lines d v h) f).now, bundle := (getFold (hwrStored s f lines d v h) f).lastPc }
        (getFold (hwrStored s f lines d v h) f) := by
    rw [stays.now, stays.lastPc]
    rfl
  rw [modFold, fold]
  rfl

theorem xfers_doHwr : (getFold (doHwr s f lines d v h) f).xfers = (getFold s f).xfers ++ [hwrFlight s f lines d v h] := by
  rw [doHwr_eq, getFold_modFold_same, withXfer, (hwrStored_stays ..).xfers]

theorem hwrRead_nil_via : Via [.regs, .folds, .flocks, .care] s (hwrRead s f [] d v h) :=
  .ite ((wayBooked_via ..).mono rfl) (((wayBooked_via ..).mono rfl).trans (sourceLines_nil_via ..))

/-- An HWR that finds no line in error keeps the bytes that stand at its destination. -/
theorem hwrData_nil : (hwrFlight s f [] d v h).data = if moot v h then [] else readBytes s h.addr v.len := by
  simp only [hwrFlight, (hwrRead_nil_via s f d v h).readBytes rfl rfl]

end

/-! ## An HWR that meets no line in error -/

theorem cureLines_of_clean {s : State} (clean : s.care.bad = []) (test : Nat → Bool) : cureLines s test = s := by
  have same : { s.care with bad := s.care.bad.filter fun e => !test e.2 } = s.care := by
    rw [clean, List.filter_nil, ← clean]
  rw [cureLines, same]
  rfl

theorem droveStore_of_clean {s : State} (clean : s.care.bad = []) (a : Nat) (bs : List Byte) : droveStore s a bs = droveBytes s a bs := by
  have care : (droveBytes s a bs).care = s.care := (droveBytes_via ..).piece (p := .care) rfl
  exact cureLines_of_clean (by rw [care, clean]) _

section
variable {s : State} (clean : s.care.bad = []) (f : Nat) (d : Drove) (v : XArgs) (h : HbmWay)
include clean

theorem hwrRead_of_clean : hwrRead s f [] d v h = wayBooked s f (hwrAsks s f d v h) v h := by
  have care : (wayBooked s f (hwrAsks s f d v h) v h).care = s.care := (wayBooked_via ..).piece (p := .care) rfl
  rw [hwrRead, sourceLines_of_clean (by rw [care, clean]), ite_self]

/-- A masked or unmapped HWR writes nothing (R187, R301). -/
theorem hwrStored_moot (off : moot v h = true) : Via [.regs, .folds] s (hwrStored s f [] d v h) := by
  simp only [hwrStored, off, if_true, hwrRead_of_clean clean]
  exact wayBooked_via ..

/-- Any other HWR writes the bytes of its source. -/
theorem hwrStored_live (live : moot v h = false) :
    ∃ u, Via [.regs, .folds] s u ∧ OnlyFolds [f] s u ∧ hwrStored s f [] d v h =
      pendSource (droveBytes u h.addr (droveRead s (spaceAddr f v.ss v.sa) v.len)) f v (hbmSpan v h) := by
  have booked := wayBooked_via s f (hwrAsks s f d v h) v h
  have care : (wayBooked s f (hwrAsks s f d v h) v h).care = s.care := booked.piece (p := .care) rfl
  refine ⟨_, booked, (wayBooked_stays hwrAsks_fold v h).onlyFolds, ?_⟩
  simp only [hwrStored, live, Bool.false_eq_true, if_false, hwrRead_of_clean clean, droveStore_of_clean (care ▸ clean),
    booked.droveRead rfl rfl rfl]

theorem doHwr_clean : OnlyFolds [f] s (doHwr s f [] d v h) ∧ Via [.regs, .mem, .fresh, .folds] s (doHwr s f [] d v h) := by
  rw [doHwr_eq]
  cases way : moot v h with
  | true =>
    have stored := hwrStored_moot clean f d v h way
    have folds : OnlyFolds [f] s (hwrStored s f [] d v h) := by
      simp only [hwrStored, way, if_true, hwrRead_of_clean clean]
      exact (wayBooked_stays hwrAsks_fold v h).onlyFolds
    exact ⟨folds.modFold f _ List.mem_cons_self, .step (modFold_via ..) rfl (stored.mono rfl)⟩
  | false =>
    obtain ⟨u, booked, folds, stored⟩ := hwrStored_live clean f d v h way
    rw [stored]
    exact ⟨((folds.via (droveBytes_via ..) rfl).modFold f _ List.mem_cons_self).modFold f _ List.mem_cons_self,
      .step (modFold_via ..) rfl (.step (pendSource_via ..) rfl (.step (droveBytes_via ..) rfl (booked.mono rfl)))⟩

theorem droveByte_doHwr (live : moot v h = false) {j : Nat} (hj : j < v.len) (hm : isMem s (h.addr + j) = true) :
    droveByte (doHwr s f [] d v h) (h.addr + j) = droveByte s (spaceAddr f v.ss v.sa + j) := by
  obtain ⟨u, booked, -, stored⟩ := hwrStored_live clean f d v h live
  have later := Via.step (modFold_via _ f (withXfer (hwrFlight s f [] d v h))) rfl
    (pendSource_via (droveBytes u h.addr (droveRead s (spaceAddr f v.ss v.sa) v.len)) f v (hbmSpan v h))
  have long : j < (droveRead s (spaceAddr f v.ss v.sa) v.len).length := by simpa [droveRead] using hj
  rw [doHwr_eq, stored, later.droveByte rfl rfl rfl, droveByte_droveBytes _ u h.addr j long ((booked.isMem rfl _).trans hm),
    List.getD_eq_getElem _ _ long]
  simp only [droveRead, List.getElem_map, List.getElem_range]

theorem readByte_doHwr {a : Nat} (outside : ¬ (h.addr ≤ a ∧ a < h.addr + v.len ∧ moot v h = false)) :
    readByte (doHwr s f [] d v h) a = readByte s a := by
  rw [doHwr_eq, (modFold_via ..).readByte rfl rfl]
  cases way : moot v h with
  | true => exact (hwrStored_moot clean f d v h way).readByte rfl rfl a
  | false =>
    obtain ⟨u, booked, -, stored⟩ := hwrStored_live clean f d v h way
    have apart : ¬ (h.addr ≤ a ∧ a < h.addr + (droveRead s (spaceAddr f v.ss v.sa) v.len).length) := by
      rw [droveRead, List.length_map, List.length_range]
      exact fun ⟨low, high⟩ => outside ⟨low, high, way⟩
    rw [stored, (pendSource_via ..).readByte rfl rfl, readByte_droveBytes_outside _ _ _ apart, booked.readByte rfl rfl]

end

/-! ## The tick that a flit bears, and the times it enters at -/

/-- From `s` to `t` the present tick keeps its number and its first cycle. -/
structure TickStays (s t : State) : Prop where
  /-- first cycle -/
  base : t.pause.base = s.pause.base
  /-- number -/
  num : t.tally.num = s.tally.num

namespace TickStays
variable {r s t : State}

theorem refl (s : State) : TickStays s s := ⟨rfl, rfl⟩

theorem trans (h : TickStays r s) (k : TickStays s t) : TickStays r t := ⟨k.base.trans h.base, k.num.trans h.num⟩

theorem via {ps : List StatePart} (h : TickStays r s) (k : Via ps s t) (pause : ps.contains .pause = false)
    (tally : ps.contains .tally = false) : TickStays r t :=
  have samePause : t.pause = s.pause := k.piece pause
  have sameTally : t.tally = s.tally := k.piece tally
  h.trans ⟨congrArg _ samePause, congrArg _ sameTally⟩

theorem ite {a b : State} {c : Prop} [Decidable c] (h : TickStays r a) (k : TickStays r b) : TickStays r (if c then a else b) := by
  split
  · exact h
  · exact k

end TickStays

theorem raiseHold_tick (s : State) (q : Nat) : TickStays s (raiseHold s q) := by
  unfold raiseHold
  have raised : TickStays s (s.setTally { s.tally with hold := q }) := ⟨rfl, rfl⟩
  exact .ite (.refl s) (.ite (.via (.refl s) (bump_via ..) rfl rfl) (raised.via (bump_via ..) rfl rfl))

theorem holdForLine_tick (s : State) : TickStays s (holdForLine s) := by
  unfold holdForLine
  have drawn : TickStays s (drawNat s).2 := ⟨rfl, rfl⟩
  exact .ite (drawn.trans (raiseHold_tick ..)) (.refl s)

theorem lineLost_tick (s : State) (pg : Nat) (ue : Field) (e : LineErr) : TickStays s (lineLost s pg ue e) := by
  have counted : TickStays s (if (hbmStack e.addr).isSome then countUe s e.addr else s) :=
    .ite (.via (.refl s) (countUe_via ..) rfl rfl) (.refl s)
  have bumped := counted.via (bump_via _ pg ue 1) rfl rfl
  have named := TickStays.ite (c := errorRegion s e.addr = 0) (bumped.via (wr0_via _ pg F.STG_LAST_UE ((e.addr % 0x1000000) / 64)) rfl rfl)
    (bumped.via (wrPair_via _ pg F.HBM_LAST_UE_LO F.HBM_LAST_UE_HI e.addr) rfl rfl)
  have logged := (named.via (errEvent_via _ pg 1) rfl rfl).via
    (logWrite_via _ pg 2 0xFF [(32, e.addr), (40, errorRegion s e.addr)]) rfl rfl
  have lost := (logged.via (loseData_via _ e.addr) rfl rfl).via (noteBad_via _ (errorRegion s e.addr) e.addr) rfl rfl
  have damaged := TickStays.ite (c := errorRegion s e.addr = 1) (lost.via (damageShards_via _ e.addr) rfl rfl) lost
  exact .ite (damaged.trans (holdForLine_tick _)) damaged

theorem askPause_tick (s : State) (k n : Nat) : TickStays s (askPause s k n) := by
  unfold askPause
  exact .ite (.refl s) ⟨rfl, rfl⟩

theorem lineError_tick (s : State) (f : Option Nat) (e : LineErr) : TickStays s (lineError s f e) := by
  unfold lineError
  split
  · exact .refl s
  · refine .ite (.refl s) (.ite ?corrected ?lost)
    case corrected =>
      have counted : ∀ pg ce, TickStays s (if (hbmStack e.addr).isSome then countCe (bump s pg ce) e.addr else bump s pg ce) := fun pg ce =>
        have bumped := (TickStays.refl s).via (bump_via s pg ce 1) rfl rfl
        .ite (bumped.via (countCe_via ..) rfl rfl) bumped
      dsimp only
      split
      · exact ((counted ..).via (bump_via ..) rfl rfl).trans (askPause_tick ..)
      · exact (counted ..).trans (askPause_tick ..)
      · exact counted ..
    case lost =>
      dsimp only
      split
      · exact .ite (lineLost_tick ..) ((lineLost_tick ..).via (dataSuspect_via ..) rfl rfl)
      · exact lineLost_tick ..

theorem readLines_tick (s : State) (f : Nat) (hit : Nat → Bool) (lines : List LineErr) : TickStays s (readLines s f hit lines) := by
  have read : TickStays s (forEach s (lines.filter fun e => hit e.addr) fun s e => lineError s (some f) e) :=
    forEach_keeps (I := TickStays s) (fun u e _ h => h.trans (lineError_tick u (some f) e)) (.refl s)
  exact .ite (read.via (dataSuspect_via ..) rfl rfl) read

theorem sourceLines_tick (s : State) (f : Nat) (v : XArgs) (lines : List LineErr) : TickStays s (sourceLines s f v lines) :=
  .ite (readLines_tick ..) (.refl s)

/-! ## LSND (R183, R328, R330, R335) -/

theorem TickStays.lsndFlits {s t : State} (h : TickStays s t) (d : Drove) (v : XArgs) (r : LinkEntry) (data : List Byte) :
    Machine.lsndFlits t d v r data = Machine.lsndFlits s d v r data := by
  simp only [Machine.lsndFlits, h.base, h.num]

theorem length_lsndFlits (s : State) (d : Drove) (v : XArgs) (r : LinkEntry) (data : List Byte) :
    (lsndFlits s d v r data).length = v.len / 256 := by
  rw [lsndFlits, List.length_map, List.length_range]

theorem Via.routeEntry {ps : List StatePart} {s t : State} (h : Via ps s t) (k : ps.contains .links = false) (d : Drove) :
    Machine.routeEntry t d = Machine.routeEntry s d := by
  funext e
  simp only [Machine.routeEntry, h.getLink k]

theorem lsndEntry_dropSyllable (s : State) (f : Nat) (d : Drove) (v : XArgs) : lsndEntry (dropSyllable s f) f d v = lsndEntry s f d v := by
  simp only [lsndEntry, foldPos, foldFlock, foldDrove, lsndEnter, getFold_dropSyllable]
  rfl

/-- The state in which an LSND has booked its ports, counted and read its source's lines. -/
def lsndRead (s : State) (f : Nat) (lines : List LineErr) (v : XArgs) : State :=
  sourceLines (countMasked (bookAll s (lsndAsks s f v)) f v.masked) f v lines

/-- The state in which an LSND has recorded its read and its stretch of cycles too. -/
def lsndBooked (s : State) (f : Nat) (lines : List LineErr) (d : Drove) (v : XArgs) : State :=
  modFold (pendSource (lsndRead s f lines v) f v (v.len / 256)) f fun x => occupy x (s.pause.base + lsndLast s f d v) 3

/-- A link with flits more to send. -/
def withSched (xs : List OutFlit) (l : Link) : Link := { l with sched := l.sched ++ xs }

theorem lsndAsks_fold {s : State} {f : Nat} {v : XArgs} : ∀ e ∈ lsndAsks s f v, e.1 ∈ [f] := fun e he => by
  simpa using (crossAsks_fold (f := f) (g := f) e he : e.1 ∈ [f, f])

section
variable (s : State) (f : Nat) (lines : List LineErr) (d : Drove) (v : XArgs)

theorem lsndRead_tick : TickStays s (lsndRead s f lines v) :=
  .trans (.via (.via (.refl s) (bookAll_via ..) rfl rfl) (countMasked_via ..) rfl rfl) (sourceLines_tick ..)

theorem lsndBooked_tick : TickStays s (lsndBooked s f lines d v) :=
  ((lsndRead_tick s f lines v).via (pendSource_via ..) rfl rfl).via (modFold_via ..) rfl rfl

theorem lsndBooked_via :
    Via [.free, .regs, .views, .log, .mem, .fresh, .folds, .flocks, .tally, .pause, .care, .weights] s (lsndBooked s f lines d v) :=
  .step (modFold_via ..) rfl (.step (pendSource_via ..) rfl (.step (sourceLines_via ..) rfl (.step (countMasked_via ..) rfl
    ((bookAll_via ..).mono rfl))))

/-- The flits of an LSND wait on the link that carries them; none does when the alternate's link is out of scheduled use too. -/
theorem doLsnd_eq : doLsnd s f lines d v = ((lsndEntry s f d v).bind (routeEntry s d)).elim (lsndBooked s f lines d v) fun r =>
    (lsndBooked s f lines d v).setLinks (modD Link.init (lsndBooked s f lines d v).links r.link
      (withSched (lsndFlits s d v r (sourceBytes (lsndRead s f lines v) f v)))) := by
  have goes : doLsnd s f lines d v = match (lsndEntry s f d v).bind (routeEntry (lsndBooked s f lines d v) d) with
    | none => lsndBooked s f lines d v
    | some r => (lsndBooked s f lines d v).setLinks (modD Link.init (lsndBooked s f lines d v).links r.link
        (withSched (lsndFlits (lsndBooked s f lines d v) d v r (sourceBytes (lsndRead s f lines v) f v)))) := rfl
  rw [goes, (lsndBooked_via s f lines d v).routeEntry rfl d]
  cases (lsndEntry s f d v).bind (routeEntry s d) with
  | none => rfl
  | some r => simp only [(lsndBooked_tick s f lines d v).lsndFlits, Option.elim_some]

/-- A masked LSND sends zeros, and one that finds no line in error the bytes of its source. -/
theorem sourceBytes_lsndRead (known : v.masked = true ∨ lines = []) : sourceBytes (lsndRead s f lines v) f v = sourceBytes s f v := by
  rcases known with masked | rfl
  · simp only [sourceBytes, masked, if_true]
  · have read : Via [.regs, .folds, .flocks, .care] s (lsndRead s f [] v) :=
      .trans (.step (countMasked_via ..) rfl ((bookAll_via ..).mono rfl)) (sourceLines_nil_via ..)
    simp only [sourceBytes, read.droveRead rfl rfl rfl]

variable {s} in
theorem lsndBooked_clean (clean : s.care.bad = []) :
    OnlyFolds [f] s (lsndBooked s f [] d v) ∧ Via stopParts s (lsndBooked s f [] d v) := by
  have booked : FlightsStay (· ∈ [f]) s (countMasked (bookAll s (lsndAsks s f v)) f v.masked) :=
    (bookAll_stays lsndAsks_fold s).via (countMasked_via ..) rfl
  have via : Via [.regs, .folds] s (countMasked (bookAll s (lsndAsks s f v)) f v.masked) :=
    .step (countMasked_via ..) rfl ((bookAll_via ..).mono rfl)
  have care : (countMasked (bookAll s (lsndAsks s f v)) f v.masked).care = s.care := via.piece (p := .care) rfl
  rw [lsndBooked, lsndRead, sourceLines_of_clean (by rw [care, clean])]
  have read := booked.trans ((pendSource_stays _ f v (v.len / 256)).mono fun g (e : g = f) => List.mem_singleton.mpr e)
  exact ⟨read.onlyFolds.modFold f _ List.mem_cons_self,
    .step (modFold_via ..) rfl (.step (pendSource_via ..) rfl (via.mono rfl))⟩

end

theorem getLink_withSched (s : State) (k : Nat) (xs : List OutFlit) (l : Nat) :
    getLink (s.setLinks (modD Link.init s.links k (withSched xs))) l = if l = k then withSched xs (getLink s k) else getLink s l := by
  simp only [getLink, State.setLinks_links, modD]
  split
  case isTrue same => rw [same, getD_putD_same]
  case isFalse other => exact getD_putD_other _ _ _ _ _ other

/-! ## The three commands -/

section
variable {s : State} {f : Fin 68} {rsv : BitVec 18} {d : Drove} {P : State → Prop}

theorem answers_hrd {desc : Fin 1024} {lines : List LineErr} {h : HbmWay} (taken : takes s f 3 (movWord 2 rsv desc) = true)
    (drove : foldDrove s f = some d) (clean : hrdCheck (dropSyllable s f) f rsv.toNat desc d = [])
    (way : hbmWay s f d (xferOf s f desc) (xferOf s f desc).sa = some h)
    (holds : P (settleTodo (doHrd (dropSyllable s f) f lines d (xferOf s f desc) h) f)) : Answers (.hrd f rsv desc lines) s P := by
  refine answers_syllable (exec_hrd drove ..) taken ?_
  simp only [issueHrd, clean, issueWith, xferOf_dropSyllable, hbmWay_dropSyllable, way]
  exact holds

theorem answers_hwr {desc : MovRef} {h : HbmWay} (taken : takes s f 3 (movWord 3 rsv desc.desc) = true)
    (drove : foldDrove s f = some d) (clean : hwrCheck (dropSyllable s f) f rsv.toNat desc.desc d = [])
    (way : hbmWay s f d (xferOf s f desc.desc) (xferOf s f desc.desc).da = some h)
    (holds : P (settleTodo (doHwr (dropSyllable s f) f desc.lines d (xferOf s f desc.desc) h) f)) : Answers (.hwr f rsv desc) s P := by
  refine answers_syllable (exec_hwr drove ..) taken ?_
  simp only [issueHwr, clean, issueWith, xferOf_dropSyllable, hbmWay_dropSyllable, way]
  exact holds

theorem answers_lsnd {desc : MovRef} (taken : takes s f 3 (movWord 4 rsv desc.desc) = true) (drove : foldDrove s f = some d)
    (clean : lsndCheck (dropSyllable s f) f rsv.toNat desc.desc d = [])
    (holds : P (settleTodo (doLsnd (dropSyllable s f) f desc.lines d (xferOf s f desc.desc)) f)) : Answers (.lsnd f rsv desc) s P := by
  refine answers_syllable (exec_lsnd drove ..) taken ?_
  rw [issueLsnd, clean, issueWith, xferOf_dropSyllable]
  exact holds

/-- The way of an LSND's flits, seen once its syllable's place is dealt with. -/
theorem route_dropSyllable (s : State) (f : Nat) (d : Drove) (v : XArgs) :
    (lsndEntry (dropSyllable s f) f d v).bind (routeEntry (dropSyllable s f) d) = (lsndEntry s f d v).bind (routeEntry s d) := by
  rw [lsndEntry_dropSyllable, (dropSyllable_via s f).routeEntry rfl]

end

/-- Settles O18: the transfer that HRD and HWR append to those of their fold with its bytes, the bytes that an HWR stores, and the flits that
an LSND appends to those of the link that carries them. -/
theorem hbmAndLinkTransfers : Obligations.HbmAndLinkTransfers := by
  unfold Obligations.HbmAndLinkTransfers
  refine ⟨⟨fun s f rsv desc lines d h taken drove clean way => ?hrd, fun s f rsv desc d h taken drove clean way => ?hwr⟩,
    fun s f rsv desc d e r taken drove clean entry route => ?lsnd, fun s f rsv desc d taken drove clean unrouted => ?unrouted⟩
  case hrd =>
    extract_lets v
    have drop := dropSyllable_stays s f
    have dropped : Via [.folds] s (dropSyllable s f) := dropSyllable_via ..
    have care : (dropSyllable s f).care = s.care := dropped.piece (p := .care) rfl
    have vis := hrdVis_dropSyllable s f d v h
    refine answers_hrd taken drove clean way ⟨⟨hrdFlight (dropSyllable s f) f lines d v h, ?_, rfl, drop.now f, rfl, vis,
      rfl, rfl, fun off => ?_, fun unmasked mapped noLines => ?_⟩, fun noLines noBad => ?_, syllable_parts (doHrd_via ..) rfl⟩
    · rw [(settleTodo_stays ..).xfers, xfers_doHrd, drop.xfers]
    · have off : moot v h = true := Bool.or_eq_true_iff.mpr off
      simp only [hrdFlight, hrdData, off, if_true]
    · have live : moot v h = false := Bool.or_eq_false_iff.mpr ⟨unmasked, mapped⟩
      rw [hrdFlight, noLines, hrdData_plain _ _ _ _ _ live, dropped.droveRead rfl rfl rfl]
    · obtain ⟨folds, via⟩ := doHrd_clean f d v h (by rw [care, noBad])
      rw [noLines]
      exact ⟨syllable_folds folds List.mem_cons_self, syllable_parts via rfl⟩
  case hwr =>
    extract_lets v
    have drop := dropSyllable_stays s f
    have dropped : Via [.folds] s (dropSyllable s f) := dropSyllable_via ..
    have care : (dropSyllable s f).care = s.care := dropped.piece (p := .care) rfl
    have vis := hwrVis_dropSyllable s f d v h
    refine answers_hwr taken drove clean way ⟨⟨hwrFlight (dropSyllable s f) f desc.lines d v h, ?_, rfl, drop.now f, rfl, vis,
      fun noLines => ?_⟩, fun noLines noBad => ?_, syllable_parts (doHwr_via ..) rfl⟩
    · rw [(settleTodo_stays ..).xfers, xfers_doHwr, drop.xfers]
    · rw [noLines, hwrData_nil, dropped.readBytes rfl rfl]
      rfl
    · have noBad : (dropSyllable s f).care.bad = [] := by rw [care, noBad]
      obtain ⟨folds, via⟩ := doHwr_clean noBad f d v h
      have settled := settleTodo_via (doHwr (dropSyllable s f) f [] d v h) f
      rw [noLines]
      refine ⟨fun unmasked mapped j hj hm => ?_, fun a outside => ?_, syllable_folds folds List.mem_cons_self,
        syllable_parts (via.mono rfl) rfl⟩
      · have live : moot v h = false := Bool.or_eq_false_iff.mpr ⟨unmasked, mapped⟩
        rw [settled.droveByte rfl rfl rfl, droveByte_doHwr noBad f d v h live hj ((dropped.isMem rfl _).trans hm),
          dropped.droveByte rfl rfl rfl]
      · have outside : ¬ (h.addr ≤ a ∧ a < h.addr + v.len ∧ moot v h = false) := fun ⟨low, high, live⟩ =>
          outside ⟨low, high, Bool.or_eq_false_iff.mp live⟩
        rw [settled.readByte rfl rfl, readByte_doHwr noBad f d v h outside, dropped.readByte rfl rfl]
  case lsnd =>
    extract_lets v
    have dropped : Via [.folds] s (dropSyllable s f) := dropSyllable_via ..
    have care : (dropSyllable s f).care = s.care := dropped.piece (p := .care) rfl
    have tick : TickStays s (dropSyllable s f) := (TickStays.refl s).via dropped rfl rfl
    have found : (lsndEntry (dropSyllable s f) f d v).bind (routeEntry (dropSyllable s f) d) = some r := by
      rw [route_dropSyllable, entry, Option.bind_some, route]
    have sent := doLsnd_eq (dropSyllable s f) f desc.lines d v
    rw [found, Option.elim_some, tick.lsndFlits] at sent
    have links : ∀ l, getLink (settleTodo (doLsnd (dropSyllable s f) f desc.lines d v) f) l = if l = r.link
        then withSched (lsndFlits s d v r (sourceBytes (lsndRead (dropSyllable s f) f desc.lines v) f v)) (getLink s r.link)
        else getLink s l := fun l => by
      rw [(settleTodo_via ..).getLink rfl, sent, getLink_withSched]
      simp only [(lsndBooked_via ..).getLink rfl, dropped.getLink rfl]
    refine answers_lsnd taken drove clean ⟨⟨sourceBytes (lsndRead (dropSyllable s f) f desc.lines v) f v, fun known => ?_, ?_,
      length_lsndFlits ..⟩, fun l other => ?_, fun noLines noBad => ?_, syllable_parts (doLsnd_via ..) rfl⟩
    · rw [sourceBytes_lsndRead _ _ _ _ known]
      simp only [sourceBytes, dropped.droveRead rfl rfl rfl]
    · rw [links, if_pos rfl]
      rfl
    · rw [links, if_neg other]
    · rw [noLines] at sent ⊢
      obtain ⟨folds, via⟩ := lsndBooked_clean f d v (by rw [care, noBad])
      rw [sent]
      exact ⟨syllable_folds (folds.via (setLinks_via ..) rfl) List.mem_cons_self,
        syllable_parts (.step (setLinks_via ..) rfl (via.mono rfl)) rfl⟩
  case unrouted =>
    have sent := doLsnd_eq (dropSyllable s f) f desc.lines d (xferOf s f desc.desc)
    rw [route_dropSyllable, unrouted, Option.elim_none] at sent
    refine answers_lsnd taken drove clean ?_
    have booked := lsndBooked_via (dropSyllable s f) f desc.lines d (xferOf s f desc.desc)
    have links : (lsndBooked (dropSyllable s f) f desc.lines d (xferOf s f desc.desc)).links = (dropSyllable s f).links :=
      booked.piece (p := .links) rfl
    have settled : (settleTodo (lsndBooked (dropSyllable s f) f desc.lines d (xferOf s f desc.desc)) f).links = _ :=
      (settleTodo_via ..).piece (p := .links) rfl
    rw [sent, settled, links]
    rfl

end Sys2Proof.Machine
end

section
/-! SUPPORT. Markers that arrive in order and what goes out on links because of them (R207, R208, R322, R325): the state that a marker acts
on, and what the traffic of links leaves of the rest. -/

namespace Sys2Proof.Machine

open Sys2Proof Sys2Proof.Claims

/-! ## The traffic of links -/

/-- The fields that a flit sent or taken in order can write. -/
def flitFields : List (Field × Nat) := [(F.FLITS_TX, 0), (F.FLITS_RX, 0), (F.STATUS_SAT, 0)]

/-- From `s` to `t` links carry flits, and nothing else happens. -/
structure Traffic (s t : State) : Prop where
  /-- the pieces that links work on -/
  via : Via [.regs, .links, .out] s t
  /-- the counters of flits -/
  places : OnlyPlaces (placesOf flitFields) s t

namespace Traffic

variable {r s t : State}

theorem refl (s : State) : Traffic s s := ⟨.refl _ s, .refl _ s⟩

theorem trans (h : Traffic r s) (k : Traffic s t) : Traffic r t := ⟨h.via.trans k.via, h.places.trans k.places⟩

theorem ite {a b : State} {c : Prop} [Decidable c] (h : Traffic r a) (k : Traffic r b) : Traffic r (if c then a else b) :=
  ⟨.ite h.via k.via, .ite h.places k.places⟩

theorem forEach {α : Type} {xs : List α} {g : State → α → State} (h : ∀ s x, Traffic s (g s x)) (s : State) :
    Traffic s (Machine.forEach s xs g) :=
  forEach_keeps (I := Traffic s) (fun u x _ hu => hu.trans (h u x)) (.refl s)

/-- An operation of the links that writes no register. -/
theorem of_links (v : Via [.links, .out] s t) : Traffic s t := ⟨v.mono rfl, .via (.refl _ s) v rfl⟩

theorem bump (h : Traffic r s) {f : Field} (hf : placesOf flitFields (place f 0)) (pg n : Nat) : Traffic r (bump s pg f n) :=
  ⟨.step (bump_via ..) rfl h.via, h.places.bump hf (by decide) pg n⟩

theorem tally (h : Traffic s t) : t.tally = s.tally := h.via.piece (p := .tally) rfl
theorem flocks (h : Traffic s t) : t.flocks = s.flocks := h.via.piece (p := .flocks) rfl
theorem droves (h : Traffic s t) : t.droves = s.droves := h.via.piece (p := .droves) rfl

theorem getFlock (h : Traffic s t) (k : Nat) : Machine.getFlock t k = Machine.getFlock s k := h.via.getFlock rfl k

/-- A field of another place than the counters of flits. -/
theorem rd (h : Traffic s t) {pg : Nat} {f : Field} {i : Nat} (apart : ¬ placesOf flitFields (place f i)) :
    Machine.rd t pg f i = Machine.rd s pg f i := h.places.field pg f i apart

/-- A field that has no index. -/
theorem rd0 (h : Traffic s t) (pg : Nat) (f : Field) (apart : ¬ placesOf flitFields (place f 0)) : Machine.rd t pg f = Machine.rd s pg f :=
  h.rd apart

theorem tallyState (h : Traffic s t) : Machine.tallyState t = Machine.tallyState s := h.rd (by decide)

theorem isRoot (h : Traffic s t) : Machine.isRoot t = Machine.isRoot s := by rw [Machine.isRoot, h.rd (by decide), Machine.isRoot]

theorem domain (h : Traffic s t) : Machine.rd t tallyPg F.TALLY_DOMAIN_ID = Machine.rd s tallyPg F.TALLY_DOMAIN_ID := h.rd (by decide)

theorem fromAbove (h : Traffic s t) (l : Nat) : Machine.fromAbove t l = Machine.fromAbove s l := by
  simp only [Machine.fromAbove, h.isRoot, h.rd0 _ F.TALLY_LINKS_PVALID (by decide), h.rd0 _ F.TALLY_LINKS_PARENT (by decide),
    h.rd0 _ F.TALLY_LINKS_BVALID (by decide), h.rd0 _ F.TALLY_LINKS_BACKUP (by decide)]

theorem childLinks (h : Traffic s t) : Machine.childLinks t = Machine.childLinks s := by
  unfold Machine.childLinks
  refine List.filter_congr fun l hl => ?_
  have word : ∀ w, w < 3 → Machine.rd t tallyPg F.TALLY_CHILD w = Machine.rd s tallyPg F.TALLY_CHILD w := fun w hw =>
    h.rd ((by decide : ∀ w < 3, ¬ placesOf flitFields (place F.TALLY_CHILD w)) w hw)
  rw [rdBit, word _ (by have := List.mem_range.mp hl; omega), rdBit]

theorem fromChild (h : Traffic s t) (l : Nat) : Machine.fromChild t l = Machine.fromChild s l := by
  rw [Machine.fromChild, h.childLinks, Machine.fromChild]

theorem tickU (h : Traffic s t) : Machine.tickU t = Machine.tickU s := by
  simp only [Machine.tickU, tickN, tickP, h.rd0 _ F.TICK_CFG_N (by decide), h.rd0 _ F.TICK_CFG_PSTATE (by decide)]

theorem firstCopy (h : Traffic s t) (kind link num : Nat) : Machine.firstCopy t kind link num = Machine.firstCopy s kind link num := by
  simp only [Machine.firstCopy, copyOf, h.tally]

end Traffic

theorem sendNow_traffic (l : Nat) (s : State) (b : Body) : Traffic s (sendNow l s b) := by
  unfold sendNow
  exact ((Traffic.of_links ((putLink_via ..).mono rfl)).bump (by decide) ..).trans (.of_links (emitFlit_via ..))

theorem sendSeq_traffic (s : State) (l : Nat) (b : Body) : Traffic s (sendSeq s l b) := by
  unfold sendSeq
  exact .ite (.ite (sendNow_traffic ..) (.of_links ((modLink_via ..).mono rfl))) (.refl s)

theorem sendMarker_traffic (s : State) (l kind : Nat) (m : Marker) : Traffic s (sendMarker s l kind m) := sendSeq_traffic ..

theorem sendDown_traffic (s : State) (kind : Nat) (m : Marker) : Traffic s (sendDown s kind m) :=
  .forEach (fun u l => sendMarker_traffic u l kind m) s

theorem forward_traffic (s : State) (kind : Nat) (m : Marker) : Traffic s (forward s kind m) := sendDown_traffic ..

theorem sendSwap_traffic (s : State) (phase : Nat) (m : Marker) (w : SwapFields) : Traffic s (sendSwap s phase m w) :=
  .forEach (fun u l => sendSeq_traffic u l _) s

theorem sendIdle_traffic (s : State) (l : Nat) : Traffic s (sendIdle s l) := .of_links (sendIdle_via ..)

theorem sendHeld_traffic (s : State) (l : Nat) : Traffic s (sendHeld s l) := by
  unfold sendHeld
  exact (Traffic.of_links ((putLink_via ..).mono rfl)).trans (.forEach (fun u b => sendNow_traffic l u b) _)

theorem acceptSeq_traffic (s : State) (l : Nat) : Traffic s (acceptSeq s l) := by
  unfold acceptSeq
  exact (Traffic.of_links ((modLink_via ..).mono rfl)).bump (by decide) ..

/-! ## A marker in order -/

/-- The state in which a link has heard a flit and its acknowledgement, before its sequence is looked at (R325). -/
def heard (s : State) (l : Nat) (h : FlitHead) : State :=
  sendHeld (takeAck (modLink s l fun x => { x with flits := x.flits + 1 }) l h.ack.toNat) l

/-- The state in which a sequenced flit is taken in order, before its effect (R322, R325). -/
def inOrder (s : State) (l : Nat) (h : FlitHead) : State := acceptSeq (modLink (heard s l h) l fun x => { x with gap := false }) l

theorem inOrder_traffic (s : State) (l : Nat) (h : FlitHead) : Traffic s (inOrder s l h) := by
  have flit : Traffic s (modLink s l fun x => { x with flits := x.flits + 1 }) := .of_links ((modLink_via ..).mono rfl)
  have acked : Traffic s (takeAck (modLink s l fun x => { x with flits := x.flits + 1 }) l h.ack.toNat) :=
    flit.trans (.of_links ((takeAck_via ..).mono rfl))
  exact ((acked.trans (sendHeld_traffic ..)).trans (.of_links ((modLink_via ..).mono rfl))).trans (acceptSeq_traffic ..)

theorem getLink_modLink_same (s : State) (l : Nat) (g : Link → Link) : getLink (modLink s l g) l = g (getLink s l) := by
  rw [getLink_modLink, if_pos rfl]

/-- With nothing that waits for room, a link expects the sequence that it expected before the flit came. -/
theorem rxSeq_heard {s : State} {l : Nat} (held : (getLink s l).held = []) (h : FlitHead) :
    (getLink (heard s l h) l).rxSeq = (getLink s l).rxSeq := by
  have flit := getLink_modLink_same s l fun x => { x with flits := x.flits + 1 }
  have acked := getLink_modLink_same (modLink s l fun x => { x with flits := x.flits + 1 }) l fun x =>
    { x with
      buffer := afterAck x h.ack.toNat
      replays := if decide (0 < x.replays) && (h.ack.toNat == x.epEnd || serialNewer 12 h.ack.toNat x.epEnd) then 0 else x.replays }
  rw [heard, sendHeld, takeAck, acked, flit, held, List.take_nil, forEach, List.foldl_nil, getLink_putLink, if_pos rfl]

/-- A sequenced flit that arrives in order, undamaged and where there is room, has its effect, and an IDLE flit goes back (R322, R325). -/
theorem onFlit_of_arrives {s : State} {l : Nat} {h : FlitHead} (a : arrives s l h) (g : State → State) :
    onFlit s l h true true true g = sendIdle (g (inOrder s l h)) l := by
  obtain ⟨up, fec, nack, seq, held⟩ := a
  have taken : takeFlit (modLink s l fun x => { x with flits := x.flits + 1 }) l h true true g = g (inOrder s l h) := by
    have next := (rxSeq_heard held h).symm
    unfold heard at next
    unfold takeFlit inOrder heard
    simp only [nack, seq, next, Bool.false_eq_true, if_false, if_true, Bool.not_true, Bool.and_false]
  simp only [onFlit, up, fec, taken, Bool.not_true, Bool.false_eq_true, if_false]

theorem onMarker_of_marked {s : State} {l : Nat} {h : FlitHead} {m : Marker} {payload : List Byte} (a : marked s l h m payload)
    (g : State → State) : onMarker s l h m payload g = sendIdle (g (inOrder s l h)) l := by
  obtain ⟨came, crc, domain⟩ := a
  have same := (inOrder_traffic s l h).domain.trans domain.symm
  rw [onMarker, crc, onFlit_of_arrives came, if_pos same.symm]

theorem onDown_of_marked {s : State} {l : Nat} {h : FlitHead} {m : Marker} {payload : List Byte} (a : marked s l h m payload)
    (above : fromAbove s l = true) (g : State → State) : onDown s l h m payload g = sendIdle (g (inOrder s l h)) l := by
  rw [onDown, onMarker_of_marked a, (inOrder_traffic s l h).fromAbove, if_pos above]

theorem onUp_of_marked {s : State} {l : Nat} {h : FlitHead} {m : Marker} {payload : List Byte} (a : marked s l h m payload)
    (child : fromChild s l = true) (g : State → State) : onUp s l h m payload g = sendIdle (g (inOrder s l h)) l := by
  rw [onUp, onMarker_of_marked a, (inOrder_traffic s l h).fromChild, if_pos child]

/-- The state in which the first copy of a downward marker is noted and passed on, before its effect (R207). -/
def passedOn (s : State) (kind link num : Nat) (m : Marker) : State := forward (noteSeen s kind link num) kind m

theorem firstOf_of_first {s : State} {kind link : Nat} {m : Marker} (first : firstCopy s kind link m.num = true) (g : State → State) :
    firstOf s kind link m g = g (passedOn s kind link m.num m) := if_pos first

end Sys2Proof.Machine
end

section
/-! SUPPORT. A SLACK marker that the device does not gather (R443): the statement on the HOLD exchange takes every SLACK of the tick to be
gathered, whatever the tick and whatever has been sent in it. -/

namespace Sys2Proof.Machine

open Sys2Proof Sys2Proof.Claims

/-- A child's entries count only until the device's own SLACK of the exchange has gone out: a later SLACK leaves the tally as it is (R443). -/
theorem tally_of_late_slack {s : State} {l : Fin 96} {m : MarkerFlit} (a : marked s l m.head m.body (markerBytes 9 m.body))
    (child : fromChild s l = true) (sent : s.tally.sent = true) {t : State} (e : exec (.slack l m) s = .next t) : t.tally = s.tally := by
  have next : execSlack l m s = .next t := e
  have came := inOrder_traffic s l m.head
  rw [execSlack, onUp_of_marked a child, if_neg fun gathers => by simp [came.tally, sent] at gathers] at next
  rw [← Host.Outcome.next.inj next, (sendIdle_traffic ..).tally, came.tally]

/-- A device in RUN that has sent its SLACK of the tick, with a child on link 0, which is UP. -/
def slackSent : State :=
  (wr (wr0 (wr0 State.reset tallyPg F.TALLY_STATE_STATE 3) (linkPg 0) F.LINK_STATE_STATE 2) tallyPg F.TALLY_CHILD 0 1).setTally
    { Tally.init with sent := true }

/-- The SLACK of a device 1 that has 5 cycles to spare. -/
def slackOf1 : Marker :=
  { domain := 0, sender := 1, hop := 0, num := 0, time := 0, q := 0, commitExchange := false, childMissing := false, flocks := [], ready := []
    slacks := [⟨1, 5⟩] }

/-- The head of the first flit of a link, with the CRC of the marker that it carries. -/
def firstHead (payload : List Byte) : FlitHead :=
  { seq := 0, ack := 0, nack := false, fec := false
    crc := BitVec.ofNat 32 (crc32 (flitHeader 2 false (0 : BitVec 12).toNat (0 : BitVec 12).toNat false (zeroBytes 10) ++ payload)) }

theorem headCrcOk_firstHead (payload : List Byte) : headCrcOk (firstHead payload) 2 false (zeroBytes 10) payload = true := by
  rw [headCrcOk, firstHead, BitVec.toNat_ofNat, Nat.mod_eq_of_lt (show crc32 _ < 2 ^ 32 from BitVec.isLt _)]
  exact beq_self_eq_true _

/-- The flit that brings it, the first of its link. -/
def slackFlit : MarkerFlit := ⟨firstHead (markerBytes 9 slackOf1), slackOf1⟩

theorem slackFlit_marked : marked slackSent (0 : Fin 96) slackFlit.head slackFlit.body (markerBytes 9 slackFlit.body) :=
  ⟨by unfold arrives; decide +kernel, headCrcOk_firstHead _, by decide +kernel⟩

/-- Refutes O34: its clause on SLACK has the entries of a child gathered in every tick. A device that has sent its own SLACK of the tick
(slackSent) takes the marker of device 1 (slackOf1) in order and gathers nothing of it (R443). -/
theorem not_theStretchIsGatheredAndDecided : ¬ Obligations.TheStretchIsGatheredAndDecided := by
  unfold Obligations.TheStretchIsGatheredAndDecided
  rintro ⟨⟨-, -, gather, -⟩, -⟩
  have child : fromChild slackSent (0 : Fin 96) = true := by decide +kernel
  have sent : slackSent.tally.sent = true := rfl
  have gathered := (gather slackSent 0 slackFlit child (by decide +kernel)).1 slackFlit_marked
  obtain ⟨t, next, tally, -⟩ := gathered
  rw [tally_of_late_slack slackFlit_marked child sent next] at tally
  exact absurd tally (by decide +kernel)

end Sys2Proof.Machine
end

section
/-! SUPPORT. What a fire of RUN makes of the tally (R204, R205, R209), and a state in which the flags of a layer that no operation can name
take the place of the tally's own register. -/

namespace Sys2Proof.Machine

open Sys2Proof

/-! ## The tally after a fire -/

/-- From `s` to `t` the tally changes but for the HOLD that this device raises. -/
def HoldOnly (s t : State) : Prop := ∃ q, t.tally = { s.tally with hold := q }

namespace HoldOnly

variable {ps : List StatePart} {r s t : State}

theorem refl (s : State) : HoldOnly s s := ⟨_, rfl⟩

theorem trans (h : HoldOnly r s) (k : HoldOnly s t) : HoldOnly r t := by
  obtain ⟨p, hp⟩ := h
  obtain ⟨q, hq⟩ := k
  exact ⟨q, by rw [hq, hp]⟩

theorem via (v : Via ps s t) (k : ps.contains .tally = false) : HoldOnly s t := ⟨_, v.piece (p := .tally) k⟩

theorem ite {a b : State} {c : Prop} [Decidable c] (h : HoldOnly r a) (k : HoldOnly r b) : HoldOnly r (if c then a else b) := by
  split
  · exact h
  · exact k

theorem forEach {α : Type} {xs : List α} {g : State → α → State} (h : ∀ s x, HoldOnly s (g s x)) (s : State) :
    HoldOnly s (Machine.forEach s xs g) :=
  forEach_keeps (I := HoldOnly s) (fun u x _ hu => hu.trans (h u x)) (.refl s)

end HoldOnly

theorem raiseHold_holdOnly (s : State) (q : Nat) : HoldOnly s (raiseHold s q) := by
  unfold raiseHold
  exact .ite (.refl s) (.ite (.via (bump_via ..) rfl) (.trans (s := s.setTally { s.tally with hold := q }) ⟨q, rfl⟩ (.via (bump_via ..) rfl)))

theorem predict_holdOnly (s : State) : HoldOnly s (predict s) := by
  have stretched : HoldOnly s (passStretch s) := .via (passStretch_via s) rfl
  unfold predict
  exact .ite stretched (stretched.trans (.forEach (fun u k => raiseHold_holdOnly u _) _))

theorem replayHold_holdOnly (s : State) (k : Nat) : HoldOnly s (replayHold s k) := by
  unfold replayHold
  exact .ite ((HoldOnly.via (putFlock_via ..) rfl).trans (raiseHold_holdOnly ..)) (.refl s)

/-- The state in which the tick has ended and been cleared, before the timebase moves on. -/
def tickOver (s : State) : State := clearTick (settleSwaps (endTick s))

/-- What a fire of RUN does once the timebase has moved on leaves the tally as it is, but for the HOLD of the new tick. -/
theorem fireRun_holdOnly (s : State) : HoldOnly (moveTime (tickOver s)) (fireRun s) := by
  have later : ∀ u : State, HoldOnly u (predict (forEach u (stepping u) replayHold)) := fun u =>
    (HoldOnly.forEach replayHold_holdOnly u).trans (predict_holdOnly _)
  refine .trans (HoldOnly.via (ps := allBut [.pending, .ptp, .tally, .hks, .boot, .muster, .rung]) ?_ rfl) (later _)
  refine .forEach (fun _ _ => .step (askPause_via ..) rfl (.step (bump_via ..) rfl (.refl _ _))) (.step (startSteps_via ..) rfl ?_)
  refine .step (boundaryPower_via ..) rfl (.step (idleSwitches_via ..) rfl (.step (newPeriod_via ..) rfl ?_))
  refine .forEach (fun _ _ => .step (duePage_via ..) rfl (.refl _ _)) (.forEach (fun _ _ => .step (endStep_via ..) rfl (.refl _ _)) ?_)
  refine .forEach (fun _ _ => .step (commitDeadlines_via ..) rfl (.refl _ _)) (.step (loseLines_via ..) rfl ?_)
  exact .forEach (fun _ _ => .step (modFlock_via ..) rfl (.refl _ _)) (.step (boundary_via ..) rfl (.refl _ _))

/-- The tally as the timebase moves on: the next tick fires when it is due, and nothing of the tick before it stays (R204, R209). -/
theorem tally_moveTime (s : State) : (moveTime s).tally = { s.tally with
    tb := nextFire s, fire := nextFire s, num := if tallyState s = 3 then s.tally.num + 1 else s.tally.num, fires := s.tally.fires + 1
    q := none, next := none, hold := 0, childHold := 0, childSeen := [], cutoff := false, sent := false, paged := 0 } := rfl

/-- A fire counts the tally number up when the unit is in RUN once the tick has ended (R209). -/
theorem num_fireRun (s : State) : (fireRun s).tally.num = if tallyState (tickOver s) = 3 then (tickOver s).tally.num + 1 else (tickOver s).tally.num := by
  obtain ⟨q, tally⟩ := fireRun_holdOnly s
  rw [tally, tally_moveTime]

/-- In RUN the next tick's fire is told to the children, and the log is put in order; the tally is that of the fire. -/
theorem tally_of_fireRun {s t : State} (run : tallyState s = 3) (may : mayFire s = true) (smooth : s.power.droop = false)
    (e : exec .tickFire s = .next t) : t.tally = (fireRun s).tally := by
  have next : execTickFire s = .next t := e
  have on : passStretch s = s := if_neg (by rw [smooth]; decide)
  simp only [execTickFire, may, if_true, on, run] at next
  rw [← Host.Outcome.next.inj next]
  exact ((orderLog_via (ps := [.log]) s rfl (.refl _ _)).piece (p := .tally) rfl).trans ((sendTick_via _).piece (p := .tally) rfl)

/-! ## A layer that is none -/

/-- A device in RUN whose fold 0 has counted four repeats of layer 709,720, a number beyond the ten bits of a layer tag. The flags of that
layer would lie at the place of TALLY_STATE. -/
def strayLayer : State :=
  ((wr0 State.reset tallyPg F.TALLY_STATE_STATE 3).setTally { Tally.init with q := some 0 }).setFolds
    [(0, { Fold.init with layerR := [(709720, 4)] })]

/-- Refutes O31: the statement speaks of every state, and a state may hold a count for a layer tag of any size. In strayLayer the tick ends
with REPEAT_STORM for layer 709,720 (R139), whose flags overwrite TALLY_STATE; the fire then no longer finds the unit in RUN and does not count
the tally number up. No command counts for such a layer, since a descriptor gives a layer tag ten bits. -/
theorem not_ticksFireInOrder : ¬ Obligations.TicksFireInOrder := by
  unfold Obligations.TicksFireInOrder
  rintro ⟨-, count, -⟩
  have run : tallyState strayLayer = 3 := by decide +kernel
  have may : mayFire strayLayer = true := by decide +kernel
  obtain ⟨t, next, num, -⟩ := count strayLayer run may
  have lost : tallyState (tickOver strayLayer) ≠ 3 := by decide +kernel
  have same : (tickOver strayLayer).tally.num = strayLayer.tally.num := by decide +kernel
  rw [tally_of_fireRun run may rfl next, num_fireRun, if_neg lost, same] at num
  exact absurd num (by decide)

end Sys2Proof.Machine
end

section
/-! SUPPORT. The refusal of a swap where the drove table holds two entries of one number (R212, R213, R238). -/

namespace Sys2Proof.Machine

open Sys2Proof Sys2Proof.Claims

theorem getDrove_putDrove (s : State) (e i : Nat) (d : Drove) : getDrove (putDrove s e d) i = if i = e then d else getDrove s i :=
  getD_putD ..

theorem Via.getDrove {ps : List StatePart} {s t : State} (h : Via ps s t) (k : ps.contains .droves = false) (e : Nat) :
    Machine.getDrove t e = Machine.getDrove s e := by
  have droves : t.droves = s.droves := h.piece k
  rw [Machine.getDrove, droves, Machine.getDrove]

/-- The state in which a SWAP marker that comes first is noted (R207). -/
def swapNoted (s : State) (phase : Nat) (m : Marker) (w : SwapFields) : State :=
  s.setTally { s.tally with swaps := (m.num, phase, w) :: s.tally.swaps.filter fun e => e.1 == m.num }

theorem tallyState_swapNoted (s : State) (phase : Nat) (m : Marker) (w : SwapFields) : tallyState (swapNoted s phase m w) = tallyState s := rfl

theorem getFlock_swapNoted (s : State) (phase : Nat) (m : Marker) (w : SwapFields) (k : Nat) : getFlock (swapNoted s phase m w) k = getFlock s k :=
  rfl

theorem droves_swapNoted (s : State) (phase : Nat) (m : Marker) (w : SwapFields) : (swapNoted s phase m w).droves = s.droves := rfl

/-- The state in which it is passed on too, before its effect (R207, R213). -/
def swapPassed (s : State) (phase : Nat) (m : Marker) (w : SwapFields) : State :=
  sendSwap (swapNoted s phase m w) phase { m with sender := ownId s, hop := m.hop + 1 } w

theorem swapPassed_traffic (s : State) (phase : Nat) (m : Marker) (w : SwapFields) : Traffic (swapNoted s phase m w) (swapPassed s phase m w) :=
  sendSwap_traffic ..

theorem swapMarker_of_marked {s : State} {l phase : Nat} {h : FlitHead} {m : Marker} {w : SwapFields}
    (a : marked s l h m (swapBytes phase m w)) (above : fromAbove s l = true) (run : tallyState s = 3)
    (first : s.tally.swaps.contains (m.num, phase, w) = false) (g : State → State) :
    swapMarker s l phase h m w g = sendIdle (g (swapPassed (inOrder s l h) phase m w)) l := by
  have came := inOrder_traffic s l h
  have passed : tallyState (swapPassed (inOrder s l h) phase m w) = 3 :=
    (swapPassed_traffic (inOrder s l h) phase m w).tallyState.trans ((tallyState_swapNoted ..).trans (came.tallyState.trans run))
  have fresh : (inOrder s l h).tally.swaps.contains (m.num, phase, w) = false := by rw [came.tally, first]
  rw [swapMarker, onDown_of_marked a above, fresh, if_neg Bool.false_ne_true]
  exact congrArg (sendIdle · l) (if_pos passed)

/-! ## A swap is refused -/

/-- The entry that an incoming drove has as its last status that of its swap: the first of the table that names it. -/
def namesIncoming (p : Option Nat) (digest : List Byte) (e : Nat × Drove) : Bool := e.2.st != 0 && penOwns p e.2 && e.2.digest == digest

theorem getDrove_swapStatus {s : State} {p : Option Nat} {digest : List Byte} {e : Nat} {d : Drove}
    (found : s.droves.find? (namesIncoming p digest) = some (e, d)) (status : Nat) :
    getDrove (swapStatus s p digest status) e = { d with status := status } := by
  have same : swapStatus s p digest status = putDrove s e { d with status := status } := by
    unfold swapStatus
    unfold namesIncoming at found
    rw [found]
  rw [same, getDrove_putDrove, if_pos rfl]

theorem takeRefuse_of_announced {s : State} {w : SwapFields} {y : Swap} (swap : (getFlock s w.flock).swap = some y)
    (open_ : y.confirmed = false) : takeRefuse s w =
      modFlock (swapStatus s y.pen w.incoming w.status) w.flock fun x => { x with swap := none, childReady := [] } := by
  simp only [takeRefuse, swap, open_, Bool.false_eq_true, if_false]

/-- A refusal that comes first gives the incoming drove's entry its status (R212, R213, R238). -/
theorem getDrove_of_swapRefuse {s t : State} {l : Fin 96} {w : SwapFlit} {y : Swap} {e : Nat} {d : Drove}
    (a : marked s l w.head w.body (swapBytes 3 w.body w.swap)) (above : fromAbove s l = true) (run : tallyState s = 3)
    (first : s.tally.swaps.contains (w.body.num, 3, w.swap) = false) (swap : (getFlock s w.swap.flock).swap = some y)
    (open_ : y.confirmed = false) (found : s.droves.find? (namesIncoming y.pen w.swap.incoming) = some (e, d))
    (next : exec (.swapRefuse l w) s = .next t) : getDrove t e = { d with status := w.swap.status } := by
  have answer : execSwapRefuse l w s = .next t := next
  have came := inOrder_traffic s l w.head
  have passed := swapPassed_traffic (inOrder s l w.head) 3 w.body w.swap
  have flock : (getFlock (swapPassed (inOrder s l w.head) 3 w.body w.swap) w.swap.flock).swap = some y := by
    rw [passed.getFlock, getFlock_swapNoted, came.getFlock, swap]
  have droves : (swapPassed (inOrder s l w.head) 3 w.body w.swap).droves = s.droves := 
    passed.droves.trans ((droves_swapNoted ..).trans came.droves)
  rw [execSwapRefuse, swapMarker_of_marked a above run first, takeRefuse_of_announced flock open_] at answer
  rw [← Host.Outcome.next.inj answer, (sendIdle_traffic _ _).via.getDrove rfl, (modFlock_via ..).getDrove rfl]
  exact getDrove_swapStatus (by rw [droves, found]) _

/-- A device in RUN whose parent is on link 95, which is UP, with a swap announced on flock 0. Its drove table holds two entries of number 0:
that of an ACTIVE drove, and that of the incoming drove, LOADED. -/
def doubleEntry : State :=
  ((wr0 (wr0 (wr0 (wr0 State.reset tallyPg F.TALLY_STATE_STATE 3) (linkPg 95) F.LINK_STATE_STATE 2) tallyPg F.TALLY_LINKS_PVALID 1)
    tallyPg F.TALLY_LINKS_PARENT 95).setFlocks [(0, { Flock.init with swap := some ⟨[1], 100, false, 1, none, none⟩ })]).setDroves
    [(0, { Drove.empty with st := 3 }), (0, { Drove.empty with st := 2, digest := [1] })]

/-- A refusal of the swap. -/
def refusal0 : SwapFields := { flock := 0, status := 0x0F, outgoing := List.replicate 32 0, incoming := [1], ts := 100 }

/-- A marker of domain 0 with nothing but its head. -/
def plainMarker : Marker :=
  { domain := 0, sender := 1, hop := 0, num := 0, time := 0, q := 0, commitExchange := false, childMissing := false, flocks := [], ready := []
    slacks := [] }

/-- The flit that brings the refusal, the first of its link. -/
def refusalFlit : SwapFlit := ⟨firstHead (swapBytes 3 plainMarker refusal0), plainMarker, refusal0⟩

theorem refusalFlit_marked : marked doubleEntry (95 : Fin 96) refusalFlit.head refusalFlit.body (swapBytes 3 refusalFlit.body refusalFlit.swap) :=
  ⟨by unfold arrives; decide +kernel, headCrcOk_firstHead _, by decide +kernel⟩

/-- Refutes O36: the statement speaks of every state, and a state's drove table may hold one number twice. In doubleEntry the refusal finds
the incoming drove under the second entry 0, and writes it back with its last status as the one entry that number 0 reads as; before, that
was the ACTIVE drove. No command leaves such a table, since each writes an entry in the place of its number. -/
theorem not_swapsAreAgreedAndApplied : ¬ Obligations.SwapsAreAgreedAndApplied := by
  unfold Obligations.SwapsAreAgreedAndApplied
  rintro ⟨markers, -⟩
  have above : fromAbove doubleEntry (95 : Fin 96) = true := by decide +kernel
  have run : tallyState doubleEntry = 3 := by decide +kernel
  have swap : (getFlock doubleEntry refusalFlit.swap.flock).swap = some ⟨[1], 100, false, 1, none, none⟩ := by decide +kernel
  have first : doubleEntry.tally.swaps.contains (refusalFlit.body.num, 3, refusalFlit.swap) = false := by decide +kernel
  obtain ⟨-, -, refuse⟩ := markers doubleEntry 95 refusalFlit above run
  obtain ⟨t, next, -, -, states, -⟩ := refuse _ ⟨refusalFlit_marked, first⟩ swap rfl
  have written := getDrove_of_swapRefuse (e := 0) (d := { Drove.empty with st := 2, digest := [1] }) refusalFlit_marked above run first swap rfl
    (by decide +kernel) next
  have state := states 0
  rw [written] at state
  exact absurd state (by decide +kernel)

end Sys2Proof.Machine
end

section
/-! SUPPORT. The tally unit is enabled, started and lost (R209, R238). -/

namespace Sys2Proof.Machine

open Sys2Proof Sys2Proof.Claims

theorem getFlock_modFlock (s : State) (k : Nat) (g : Flock → Flock) (j : Nat) :
    getFlock (modFlock s k g) j = if j = k then g (getFlock s k) else getFlock s j := by
  rw [modFlock, getFlock_putFlock]

theorem tallyState_setTallyState (s : State) {x : Nat} (h : x < 8) : tallyState (setTallyState s x) = x := by
  rw [tallyState, setTallyState, rd_wr0]
  exact Nat.mod_eq_of_lt h

/-- No drove runs any more: every flock that holds one is stopped (R209). -/
def stopFlocks (s : State) : State :=
  forEach s (List.range 16) fun s k => if (getFlock s k).entries.isEmpty then s else modFlock s k fun x => { x with phase := 4 }

theorem stopFlocks_via (s : State) : Via [.flocks] s (stopFlocks s) :=
  .forEach (fun u _ => .ite (.refl _ u) (modFlock_via ..)) (.refl _ s)

/-- A flock that holds a drove is stopped. -/
theorem phase_stopFlocks (s : State) {k : Nat} (hk : k < 16) (holds : (getFlock s k).entries ≠ []) : (getFlock (stopFlocks s) k).phase = 4 := by
  refine forEach_reaches (I := fun u => (getFlock u k).entries = (getFlock s k).entries) (P := fun u => (getFlock u k).phase = 4)
    (fun u j hu => ?_) (fun u j _ hu => ?_) (fun u hu => ?_) (List.mem_range.mpr hk) rfl
  · split
    · exact hu
    · rw [getFlock_modFlock]
      split
      case isTrue same => rw [← hu, same]
      case isFalse => exact hu
  · split
    · exact hu
    · rw [getFlock_modFlock]
      split
      · rfl
      · exact hu
  · rw [if_neg (by rw [hu, List.isEmpty_iff]; exact holds), getFlock_modFlock, if_pos rfl]

/-! ## The loss of the tally -/

/-- The loss of the tally is recorded: before the flocks stop (R209). -/
def lossNoted (s : State) (cause : Nat) : State := logWrite (errEvent (setTallyState s 4) tallyPg 3) tallyPg 0x20 0xFF [(32, cause)]

theorem enterLost_eq (s : State) (cause : Nat) : enterLost s cause = stopFlocks (lossNoted s cause) := rfl

theorem lossNoted_via (s : State) (cause : Nat) : Via [.regs, .views, .log] s (lossNoted s cause) :=
  .step (logWrite_via ..) rfl (.step (errEvent_via ..) rfl (.step (setTallyState_via ..) rfl (.refl _ s)))

/-- In LOST (R209) the unit's state is 4, its error bit is set and every flock that holds a drove is stopped. -/
theorem tallyState_enterLost (s : State) (cause : Nat) : tallyState (enterLost s cause) = 4 := by
  have event : tallyState (errEvent (setTallyState s 4) tallyPg 3) = tallyState (setTallyState s 4) :=
    ((errEvent_places ..).field _ _ _ (by decide)).trans (rd_wr_ne _ _ _ _ _ _ _ _ (by decide))
  calc tallyState (enterLost s cause)
      = tallyState (lossNoted s cause) := (stopFlocks_via _).rd rfl ..
    _ = tallyState (errEvent (setTallyState s 4) tallyPg 3) := (logWrite_places ..).field _ _ _ (by decide)
    _ = 4 := event.trans (tallyState_setTallyState s (by decide))

theorem errSum_enterLost (s : State) (cause : Nat) : bit (rd (enterLost s cause) tallyPg F.ERR_SUM) 3 = true := by
  rw [enterLost_eq, (stopFlocks_via _).rd rfl, lossNoted, (logWrite_places ..).field _ _ _ (by decide)]
  exact errSum_errEvent (by decide) ..

theorem phase_enterLost (s : State) (cause : Nat) {k : Nat} (hk : k < 16) (holds : (getFlock s k).entries ≠ []) :
    (getFlock (enterLost s cause) k).phase = 4 :=
  phase_stopFlocks (lossNoted s cause) hk (by rwa [(lossNoted_via s cause).getFlock rfl])

/-! ## ENABLE and START -/

/-- The unit is disabled and its tally is cleared: before the flocks stop (R209). -/
def tallyCleared (s : State) : State :=
  showNum ((setTallyState (wr0 s tallyPg F.TALLY_CTRL_ENABLE 0) 0).setTally
    { s.tally with num := 0, q := none, next := none, start := false, good := 0, credit := 0, creditW := 0 })

theorem writeEnable_false (s : State) : writeEnable false s = stopFlocks (tallyCleared s) := rfl

theorem tallyCleared_via (s : State) : Via [.regs, .tally] s (tallyCleared s) := by
  unfold tallyCleared
  exact .step (showNum_via ..) rfl (.step (setTally_via ..) rfl (.step (setTallyState_via ..) rfl (.step (wr_via ..) rfl (.refl _ s))))

theorem num_tallyCleared (s : State) : (tallyCleared s).tally.num = 0 := by
  have shown : (tallyCleared s).tally = _ := (showNum_via _).piece (p := .tally) rfl
  rw [shown]
  rfl

theorem rd_showNum_ne (s : State) (f : Field) (lo : fkey tallyPg F.TALLY_NUM_LO 0 ≠ fkey tallyPg f 0)
    (hi : fkey tallyPg F.TALLY_NUM_HI 0 ≠ fkey tallyPg f 0) : rd (showNum s) tallyPg f = rd s tallyPg f :=
  (rd_wr_ne _ _ _ _ _ _ _ _ hi).trans (rd_wr_ne _ _ _ _ _ _ _ _ lo)

theorem numLo_showNum (s : State) : rd (showNum s) tallyPg F.TALLY_NUM_LO = s.tally.num % 2 ^ 32 :=
  (rd_wr_ne _ _ _ _ _ _ _ _ (by decide)).trans (rd_wr0 ..)

theorem numHi_showNum (s : State) : rd (showNum s) tallyPg F.TALLY_NUM_HI = s.tally.num / 2 ^ 32 % 2 ^ 32 := rd_wr0 ..

theorem tallyState_tallyCleared (s : State) : tallyState (tallyCleared s) = 0 :=
  (rd_showNum_ne _ _ (by decide) (by decide)).trans
    (show tallyState (setTallyState (wr0 s tallyPg F.TALLY_CTRL_ENABLE 0) 0) = 0 from tallyState_setTallyState _ (by decide))

theorem numHi_tallyCleared (s : State) : rd (tallyCleared s) tallyPg F.TALLY_NUM_HI = 0 := by
  have shown : rd (tallyCleared s) tallyPg F.TALLY_NUM_HI = 0 / 2 ^ 32 % 2 ^ 32 := numHi_showNum _
  rw [shown, Nat.zero_div, Nat.zero_mod]

/-- An OFF unit that is enabled is in ACQUIRE (R209). -/
theorem enabled_of_off {s : State} (off : tallyState s = 0) :
    tallyState (writeEnable true s) = 1
      ∧ OnlyIn [] [(tallyPg, F.TALLY_CTRL_ENABLE, 0), (tallyPg, F.TALLY_STATE_STATE, 0)] s (writeEnable true s) := by
  have same : tallyState (wr0 s tallyPg F.TALLY_CTRL_ENABLE 1) = 0 := (rd_wr_ne _ _ _ _ _ _ _ _ (by decide)).trans off
  have acquires : writeEnable true s = setTallyState (wr0 s tallyPg F.TALLY_CTRL_ENABLE 1) 1 := if_pos same
  rw [acquires]
  refine ⟨tallyState_setTallyState _ (by decide), .of_via (.step (setTallyState_via ..) rfl (wr_via ..)) ?_⟩
  exact ((OnlyFields.refl _ s).wr _ _ _ _ (by simp)).wr _ _ _ _ (by simp)

/-- In any other state it stays where it is. -/
theorem enabled_of_on {s : State} (on : tallyState s ≠ 0) :
    tallyState (writeEnable true s) = tallyState s ∧ OnlyIn [] [(tallyPg, F.TALLY_CTRL_ENABLE, 0)] s (writeEnable true s) := by
  have same : tallyState (wr0 s tallyPg F.TALLY_CTRL_ENABLE 1) = tallyState s := rd_wr_ne _ _ _ _ _ _ _ _ (by decide)
  have stays : writeEnable true s = wr0 s tallyPg F.TALLY_CTRL_ENABLE 1 := if_neg (same.trans_ne on)
  rw [stays]
  exact ⟨same, .of_via (wr_via ..) ((OnlyFields.refl _ s).wr _ _ _ _ (by simp))⟩

/-- A unit that is disabled is OFF, with no number and every drove stopped (R209). -/
theorem disabled (s : State) :
    tallyState (writeEnable false s) = 0 ∧ (writeEnable false s).tally.num = 0 ∧ rd (writeEnable false s) tallyPg F.TALLY_NUM_LO = 0
      ∧ rd (writeEnable false s) tallyPg F.TALLY_NUM_HI = 0
      ∧ (∀ k, k < 16 → (getFlock s k).entries ≠ [] → (getFlock (writeEnable false s) k).phase = 4)
      ∧ Only [.regs, .flocks, .tally] s (writeEnable false s) := by
  have stop := stopFlocks_via (tallyCleared s)
  have tally : (stopFlocks (tallyCleared s)).tally = (tallyCleared s).tally := stop.piece (p := .tally) rfl
  refine ⟨?_, ?_, ?_, ?_, fun k hk holds => ?_, (writeEnable_via false s).same⟩ <;> rw [writeEnable_false]
  · exact (stop.rd rfl ..).trans (tallyState_tallyCleared s)
  · rw [tally, num_tallyCleared]
  · exact (stop.rd rfl ..).trans (numLo_showNum _)
  · exact (stop.rd rfl ..).trans (numHi_tallyCleared s)
  · exact phase_stopFlocks _ hk (by rwa [(tallyCleared_via s).getFlock rfl])

/-- A marker that the device misses in RUN loses the tally (R209). -/
theorem lost_of_missing {s : State} (run : tallyState s = 3) (child : isRoot s = false) {w : Missing}
    (late : w = Missing.tick ∨ (w = Missing.decide ∧ s.tally.q = none)
      ∨ (w = Missing.commit ∧ ∃ k, k < 16 ∧ (getFlock s k).done = true ∧ (getFlock s k).decision = 0)) :
    ∃ cause, exec (.markerMissing w) s = .next (enterLost s cause) := by
  have here : tallyState s = 3 ∧ !isRoot s := ⟨run, by rw [child]; rfl⟩
  rcases late with rfl | ⟨rfl, undecided⟩ | ⟨rfl, k, hk, done, open_⟩
  · exact ⟨2, if_pos here⟩
  · refine ⟨3, (if_pos here).trans ?_⟩
    rw [undecided]
    rfl
  · have past : ((List.range 16).any fun k => (getFlock s k).done && (getFlock s k).decision == 0) = true :=
      List.any_eq_true.mpr ⟨k, List.mem_range.mpr hk, by rw [done, open_]; rfl⟩
    exact ⟨3, (if_pos here).trans (congrArg Host.Outcome.next (if_pos past))⟩

/-- Settles O32: ENABLE and START act through the page's window, and a missing marker loses the tally, which stops every flock. -/
theorem tallyIsEnabledAndLost : Obligations.TallyIsEnabledAndLost := by
  unfold Obligations.TallyIsEnabledAndLost
  constructor
  · intro s src sees
    have seen (on : Bool) : exec (.tallyEnable src on) s = .next (writeEnable on s) :=
      congrArg Host.Outcome.next (onPage_of_sees sees (writeEnable on))
    have start : exec (.tallyStart src) s = .next (if isRoot s ∧ tallyState s = 2 then s.setTally { s.tally with start := true } else s) :=
      congrArg Host.Outcome.next (onPage_of_sees sees _)
    refine ⟨fun off => ⟨_, seen true, enabled_of_off off⟩, fun on => ⟨_, seen true, enabled_of_on on⟩, ⟨_, seen false, disabled s⟩,
      fun root locked => ⟨_, start, ?_⟩, fun other => ⟨_, start, if_neg other⟩⟩
    rw [if_pos ⟨root, locked⟩]
    exact ⟨rfl, (setTally_via ..).same⟩
  · intro s run child w late
    obtain ⟨cause, lost⟩ := lost_of_missing run child late
    exact ⟨_, lost, tallyState_enterLost s cause, fun k hk => phase_enterLost s cause hk, errSum_enterLost s cause,
      (enterLost_via s cause).same⟩

end Sys2Proof.Machine
end

section
/-! SUPPORT. TICK markers and the timebase (R207 to R209): what a first copy and another copy do in each state of the tally unit. -/

namespace Sys2Proof.Machine

open Sys2Proof Sys2Proof.Claims

/-! ## The copies that a device notes -/

theorem find?_insKey {α : Type} (m : SMap α) (k : Nat) (v : α) : (insKey m k v).find? (fun e => e.1 == k) = some (k, v) := by
  induction m with
  | nil => simp [insKey]
  | cons e r ih =>
    obtain ⟨j, w⟩ := e
    rw [insKey]
    split
    · simp
    · split
      · simp
      · have apart : j ≠ k := by omega
        simp [apart, ih]

/-- The copy that a device has noted stands there whatever happens to the rest of its tally. -/
theorem copyOf_of_seen {s t : State} (h : t.tally.seen = s.tally.seen) (kind : Nat) : copyOf t kind = copyOf s kind := by
  rw [copyOf, h, copyOf]

theorem copyOf_noteSeen (s : State) (kind link num : Nat) :
    copyOf (noteSeen s kind link num) kind = some { num := num, link := link, both := false } := by
  have seen : (noteSeen s kind link num).tally.seen =
    insKey (if kind = 1 ∧ num = 0 then [] else s.tally.seen) kind { num := num, link := link, both := false } := rfl
  rw [copyOf, seen, find?_insKey]
  rfl

theorem tally_noteCopy_congr {s t : State} (h : t.tally = s.tally) (kind : Nat) : (noteCopy t kind).tally = (noteCopy s kind).tally := by
  have same : copyOf t kind = copyOf s kind := copyOf_of_seen (by rw [h]) kind
  unfold noteCopy
  rw [same]
  split
  next c _ => exact congrArg (fun u : Tally => { u with seen := insKey u.seen kind { c with both := true } }) h
  next => exact h

/-! ## The timebase -/

theorem tally_shiftTime (s : State) (n : Int) : (shiftTime s n).tally = { s.tally with tb := ((s.tally.tb : Int) + n).toNat } :=
  (wrPair_via ..).piece (p := .tally) rfl

theorem rd_shiftTime_ne (s : State) (n : Int) (f : Field) (lo : fkey tallyPg F.TB_LO 0 ≠ fkey tallyPg f 0)
    (hi : fkey tallyPg F.TB_HI 0 ≠ fkey tallyPg f 0) : rd (shiftTime s n) tallyPg f = rd s tallyPg f :=
  (rd_wr_ne _ _ _ _ _ _ _ _ hi).trans (rd_wr_ne _ _ _ _ _ _ _ _ lo)

theorem tallyState_shiftTime (s : State) (n : Int) : tallyState (shiftTime s n) = tallyState s :=
  rd_shiftTime_ne _ _ _ (by decide) (by decide)

theorem slew_le (s : State) (o : Int) : slew s o ≤ (tickU s / 1024 : Nat) := by
  unfold slew
  dsimp only
  omega

theorem ofSigned_lt (x : Int) (w : Nat) : ofSigned x w < 2 ^ w := by
  have pos : (0 : Int) < ((2 ^ w : Nat) : Int) := Int.natCast_pos.mpr (Nat.two_pow_pos w)
  have below := Int.emod_lt_of_pos x pos
  have least := Int.emod_nonneg x pos.ne'
  unfold ofSigned
  omega

/-- The state in which a measured offset shows (R209). -/
def offsetShown (s : State) (o : Int) : State := wr0 s tallyPg F.TB_OFFSET (ofSigned o 16)

theorem tallyState_offsetShown (s : State) (o : Int) : tallyState (offsetShown s o) = tallyState s :=
  rd_wr_ne _ _ _ _ _ _ _ _ (by decide)

/-- In ACQUIRE the timebase moves by the offset's whole units, and the good offsets in a row are counted. -/
def acquireMoved (s : State) (o : Int) : State :=
  shiftTime ((offsetShown s o).setTally { s.tally with good := if o.natAbs ≤ 256 then s.tally.good + 1 else 0 }) (o / 256)

theorem tally_acquireMoved (s : State) (o : Int) :
    (acquireMoved s o).tally =
      { s.tally with tb := ((s.tally.tb : Int) + o / 256).toNat, good := if o.natAbs ≤ 256 then s.tally.good + 1 else 0 } :=
  tally_shiftTime ..

theorem tallyState_acquireMoved (s : State) (o : Int) : tallyState (acquireMoved s o) = tallyState s :=
  (tallyState_shiftTime ..).trans (tallyState_offsetShown s o)

theorem takeOffset_of_acquire {s : State} (acquire : tallyState s = 1) (m : Marker) (o : Int) :
    takeOffset s m o = if 16 ≤ (acquireMoved s o).tally.good then lockTally (acquireMoved s o) (m.hop + 1) m.time else acquireMoved s o :=
  if_pos ((tallyState_offsetShown s o).trans acquire)

theorem takeOffset_of_run {s : State} (run : tallyState s = 3) (m : Marker) (o : Int) :
    takeOffset s m o =
      if 2048 < o.natAbs then enterLost (offsetShown s o) 1 else shiftTime (offsetShown s o) (slew (offsetShown s o) o) := by
  have state := (tallyState_offsetShown s o).trans run
  exact (if_neg (by rw [← offsetShown, state]; decide)).trans (if_pos state)

/-- In the other states the offset only shows. -/
theorem takeOffset_of_other {s : State} (notAcquire : tallyState s ≠ 1) (notRun : tallyState s ≠ 3) (m : Marker) (o : Int) :
    takeOffset s m o = offsetShown s o :=
  have state := tallyState_offsetShown s o
  (if_neg (state.trans_ne notAcquire)).trans (if_neg (state.trans_ne notRun))

theorem takeStart_of_other {s : State} {m : Marker} (h : ¬(tallyState s = 2 ∧ m.num ≠ 0)) : takeStart s m = s := if_neg h

theorem slew_offsetShown (s : State) (o : Int) : slew (offsetShown s o) o = slew s o := by
  have n : rd (offsetShown s o) tallyPg F.TICK_CFG_N = rd s tallyPg F.TICK_CFG_N := rd_wr_ne _ _ _ _ _ _ _ _ (by decide)
  have p : rd (offsetShown s o) tallyPg F.TICK_CFG_PSTATE = rd s tallyPg F.TICK_CFG_PSTATE := rd_wr_ne _ _ _ _ _ _ _ _ (by decide)
  simp only [slew, tickU, tickN, tickP, n, p]

/-! ## LOCKED -/

/-- The fields that LOCKED sets beside the unit's state. -/
def lockFields : List (Field × Nat) :=
  [(F.TALLY_STATE_DEPTH, 0), (F.TICK_CFG_N, 0), (F.TICK_CFG_PSTATE, 0), (F.TALLY_STATE_HS, 0), (F.TALLY_RTT, 0)]

theorem setHop_places (s : State) : OnlyPlaces (placesOf lockFields) s (setHop s) := by
  unfold setHop
  split
  rename_i n u drawn
  have still : OnlyPlaces (placesOf lockFields) s u := by
    split at drawn
    · cases drawn
      exact .refl _ s
    · cases drawn
      exact .via (.refl _ s) (drawNat_via ..) rfl
  exact (still.wr0 (by decide) ..).wr0 (by decide) ..

theorem lockTally_places (s : State) (d t : Nat) : OnlyPlaces (placesOf lockFields) (setTallyState s 2) (lockTally s d t) := by
  have depth := (OnlyPlaces.refl (placesOf lockFields) (setTallyState s 2)).wr0 (f := F.TALLY_STATE_DEPTH) (by decide) tallyPg d
  have idle := (depth.wr0 (f := F.TICK_CFG_N) (by decide) tallyPg
    (rd (wr0 (setTallyState s 2) tallyPg F.TALLY_STATE_DEPTH d) tallyPg F.TALLY_IDLE_N)).wr0 (f := F.TICK_CFG_PSTATE) (by decide) tallyPg 2
  exact .via (idle.trans (setHop_places _)) (setTally_via ..) rfl

theorem tallyState_lockTally (s : State) (d t : Nat) : tallyState (lockTally s d t) = 2 :=
  ((lockTally_places s d t).field _ _ _ (by decide)).trans (tallyState_setTallyState s (by decide))

/-- LOCKED at a fire keeps the rest of the tally. -/
theorem tally_lockTally (s : State) (d t : Nat) : (lockTally s d t).tally = { s.tally with fire := t, good := 0 } := by
  have unit : Via [.free, .regs] s (setHop (setIdle (wr0 (setTallyState s 2) tallyPg F.TALLY_STATE_DEPTH d))) :=
    .step (setHop_via ..) rfl (.step (setIdle_via ..) rfl (.step (wr_via ..) rfl (.step (setTallyState_via ..) rfl (.refl _ s))))
  have same := unit.piece (p := .tally) rfl
  rw [← same]
  rfl

/-! ## What an offset and a start keep -/

theorem tally_enterLost (s : State) (cause : Nat) : (enterLost s cause).tally = s.tally := (enterLost_via s cause).piece (p := .tally) rfl

theorem seen_takeOffset (s : State) (m : Marker) (o : Int) : (takeOffset s m o).tally.seen = s.tally.seen := by
  have moved : (acquireMoved s o).tally.seen = s.tally.seen := by rw [tally_acquireMoved]
  by_cases acquire : tallyState s = 1
  · rw [takeOffset_of_acquire acquire]
    split
    · rw [tally_lockTally, moved]
    · exact moved
  · by_cases run : tallyState s = 3
    · rw [takeOffset_of_run run]
      split
      · rw [tally_enterLost]
        rfl
      · rw [tally_shiftTime]
        rfl
    · rw [takeOffset_of_other acquire run]
      rfl

/-- RUN begins at a numbered TICK (R209). -/
def runEntered (s : State) (m : Marker) : State :=
  showNum ((setTallyState s 3).setTally { s.tally with num := m.num, fire := m.time, q := none, next := none })

theorem takeStart_of_locked {s : State} {m : Marker} (locked : tallyState s = 2) (numbered : m.num ≠ 0) : takeStart s m = runEntered s m :=
  if_pos ⟨locked, numbered⟩

theorem tally_runEntered (s : State) (m : Marker) :
    (runEntered s m).tally = { s.tally with num := m.num, fire := m.time, q := none, next := none } :=
  (showNum_via _).piece (p := .tally) rfl

theorem tallyState_runEntered (s : State) (m : Marker) : tallyState (runEntered s m) = 3 :=
  (rd_showNum_ne _ _ (by decide) (by decide)).trans (show tallyState (setTallyState s 3) = 3 from tallyState_setTallyState s (by decide))

theorem seen_takeStart (s : State) (m : Marker) : (takeStart s m).tally.seen = s.tally.seen := by
  by_cases h : tallyState s = 2 ∧ m.num ≠ 0
  · rw [takeStart_of_locked h.1 h.2, tally_runEntered]
  · rw [takeStart_of_other h]

/-! ## A TICK marker -/

/-- A first copy of TICK has been noted and passed on, and has not yet acted (R207, R208). -/
structure TickNoted (s u : State) (l num : Nat) : Prop where
  /-- the pieces of that -/
  via : Via [.regs, .tally, .links, .out] s u
  /-- the noted copy is all that is new in the tally -/
  tally : u.tally = (noteSeen s 1 l num).tally
  state : tallyState u = tallyState s
  ticks : tickU u = tickU s

theorem tick_of_first {s : State} {l : Fin 96} {m : MarkerFlit} (a : marked s l m.head m.body (markerBytes 1 m.body))
    (above : fromAbove s l = true) (first : firstCopy s 1 l m.body.num = true) (o : Int) :
    ∃ u, TickNoted s u l m.body.num ∧ exec (.tick l m o) s = .next (sendIdle (takeStart (takeOffset u m.body o) m.body) l) := by
  have came := inOrder_traffic s l m.head
  refine ⟨forward (noteSeen (inOrder s l m.head) 1 l m.body.num) 1 { m.body with time := (inOrder s l m.head).tally.tb }, ?_, ?_⟩
  · have passed := forward_traffic (noteSeen (inOrder s l m.head) 1 l m.body.num) 1 { m.body with time := (inOrder s l m.head).tally.tb }
    have noted : ∀ u : State, tallyState (noteSeen u 1 l m.body.num) = tallyState u := fun _ => rfl
    have ticks : ∀ u : State, tickU (noteSeen u 1 l m.body.num) = tickU u := fun _ => rfl
    have tally : ∀ u : State, u.tally = s.tally → (noteSeen u 1 l m.body.num).tally = (noteSeen s 1 l m.body.num).tally := by
      intro u hu
      unfold noteSeen
      rw [hu]
      rfl
    exact {
      via := .step passed.via rfl (.step (noteSeen_via ..) rfl (.step came.via rfl (.refl _ s)))
      tally := passed.tally.trans (tally _ came.tally)
      state := passed.tallyState.trans ((noted _).trans came.tallyState)
      ticks := passed.tickU.trans ((ticks _).trans came.tickU) }
  · refine congrArg Host.Outcome.next ((onDown_of_marked a above _).trans (congrArg (sendIdle · l) (if_pos ?_)))
    rw [came.firstCopy, first]

theorem tick_of_later {s : State} {l : Fin 96} {m : MarkerFlit} (a : marked s l m.head m.body (markerBytes 1 m.body))
    (above : fromAbove s l = true) (later : firstCopy s 1 l m.body.num = false) (o : Int) :
    exec (.tick l m o) s = .next (sendIdle (noteCopy (inOrder s l m.head) 1) l) := by
  refine congrArg Host.Outcome.next ((onDown_of_marked a above _).trans (congrArg (sendIdle · l) (if_neg ?_)))
  rw [(inOrder_traffic s l m.head).firstCopy, later]
  decide

section

variable {s u : State} {l : Nat} {m : Marker} (h : TickNoted s u l m.num)

include h

namespace TickNoted

theorem tb : u.tally.tb = s.tally.tb := by
  rw [h.tally]
  rfl

theorem good : u.tally.good = s.tally.good := by
  rw [h.tally]
  rfl

/-- In ACQUIRE the offset moves the timebase; below sixteen good ones in a row the unit stays there (R209). -/
theorem of_acquire (acquire : tallyState s = 1) {o : Int} (few : (if o.natAbs ≤ 256 then s.tally.good + 1 else 0) < 16) :
    takeStart (takeOffset u m o) m = acquireMoved u o := by
  have stays : ¬ 16 ≤ (acquireMoved u o).tally.good := by
    rw [tally_acquireMoved, h.good]
    exact Nat.not_le.mpr few
  have state : tallyState (acquireMoved u o) = 1 := (tallyState_acquireMoved u o).trans (h.state.trans acquire)
  rw [takeOffset_of_acquire (h.state.trans acquire), if_neg stays]
  exact takeStart_of_other fun start => by simp [state] at start

/-- At the sixteenth it locks (R209). -/
theorem of_sixteenth (acquire : tallyState s = 1) {o : Int} (within : o.natAbs ≤ 256) (fifteen : s.tally.good = 15) (idle : m.num = 0) :
    takeStart (takeOffset u m o) m = lockTally (acquireMoved u o) (m.hop + 1) m.time := by
  have locks : 16 ≤ (acquireMoved u o).tally.good := by
    rw [tally_acquireMoved, h.good, fifteen, if_pos within]
  rw [takeOffset_of_acquire (h.state.trans acquire), if_pos locks]
  exact takeStart_of_other fun start => start.2 idle

theorem of_locked (locked : tallyState s = 2) (numbered : m.num ≠ 0) (o : Int) :
    takeStart (takeOffset u m o) m = runEntered (offsetShown u o) m := by
  have state := h.state.trans locked
  rw [takeOffset_of_other (by rw [state]; decide) (by rw [state]; decide)]
  exact takeStart_of_locked ((tallyState_offsetShown u o).trans state) numbered

theorem of_run (run : tallyState s = 3) {o : Int} (near : o.natAbs ≤ 2048) :
    takeStart (takeOffset u m o) m = shiftTime (offsetShown u o) (slew s o) := by
  have same : slew u o = slew s o := by simp only [slew, h.ticks]
  have state : tallyState (shiftTime (offsetShown u o) (slew s o)) = 3 :=
    (tallyState_shiftTime ..).trans ((tallyState_offsetShown u o).trans (h.state.trans run))
  rw [takeOffset_of_run (h.state.trans run), if_neg (by omega), slew_offsetShown, same]
  exact takeStart_of_other fun start => by simp [state] at start

theorem of_far (run : tallyState s = 3) {o : Int} (far : 2048 < o.natAbs) :
    takeStart (takeOffset u m o) m = enterLost (offsetShown u o) 1 := by
  rw [takeOffset_of_run (h.state.trans run), if_pos far]
  exact takeStart_of_other fun start => by simp [tallyState_enterLost] at start

/-- In OFF and LOST it only shows (R209). -/
theorem of_idle (idle : tallyState s = 0 ∨ tallyState s = 4) (o : Int) : takeStart (takeOffset u m o) m = offsetShown u o := by
  have state : tallyState u = 0 ∨ tallyState u = 4 := by rwa [h.state]
  have shown := tallyState_offsetShown u o
  rw [takeOffset_of_other (by omega) (by omega)]
  exact takeStart_of_other (by omega)

/-- The copy that has acted is the one noted (R207). -/
theorem copyOf_acted (o : Int) : copyOf (takeStart (takeOffset u m o) m) 1 = some { num := m.num, link := l, both := false } := by
  rw [copyOf_of_seen ((seen_takeStart ..).trans ((seen_takeOffset ..).trans (congrArg Tally.seen h.tally))), copyOf_noteSeen]

end TickNoted

end

/-- The state after a first copy of TICK. -/
def tickDone (u : State) (l : Nat) (m : Marker) (o : Int) : State := sendIdle (takeStart (takeOffset u m o) m) l

theorem tickDone_traffic {u v : State} {m : Marker} {o : Int} (acts : takeStart (takeOffset u m o) m = v) (l : Nat) :
    Traffic v (tickDone u l m o) := by
  rw [tickDone, acts]
  exact sendIdle_traffic ..

section

variable {s u : State} {l : Nat} {m : Marker} (h : TickNoted s u l m.num)

include h

namespace TickNoted

/-- In ACQUIRE (R209). -/
theorem done_acquire (acquire : tallyState s = 1) {o : Int} {good : Nat} (count : (if o.natAbs ≤ 256 then s.tally.good + 1 else 0) = good)
    (few : good < 16) :
    (tickDone u l m o).tally.tb = ((s.tally.tb : Int) + o / 256).toNat ∧ (tickDone u l m o).tally.good = good
      ∧ tallyState (tickDone u l m o) = 1 := by
  have idle := tickDone_traffic (h.of_acquire acquire (count ▸ few)) l
  rw [idle.tally, idle.tallyState, tally_acquireMoved, tallyState_acquireMoved, h.tb, h.good, h.state]
  exact ⟨rfl, count, acquire⟩

theorem done_sixteenth (acquire : tallyState s = 1) {o : Int} (within : o.natAbs ≤ 256) (fifteen : s.tally.good = 15) (zero : m.num = 0) :
    tallyState (tickDone u l m o) = 2 ∧ (tickDone u l m o).tally.fire = m.time := by
  have idle := tickDone_traffic (h.of_sixteenth acquire within fifteen zero) l
  rw [idle.tally, idle.tallyState, tallyState_lockTally, tally_lockTally]
  exact ⟨rfl, rfl⟩

theorem done_locked (locked : tallyState s = 2) (numbered : m.num ≠ 0) (o : Int) :
    tallyState (tickDone u l m o) = 3 ∧ (tickDone u l m o).tally.num = m.num ∧ (tickDone u l m o).tally.fire = m.time
      ∧ rd (tickDone u l m o) tallyPg F.TALLY_NUM_LO = m.num % 2 ^ 32 := by
  have idle := tickDone_traffic (h.of_locked locked numbered o) l
  rw [idle.tally, idle.tallyState, idle.rd (by decide), tallyState_runEntered, tally_runEntered]
  exact ⟨rfl, rfl, rfl, numLo_showNum _⟩

theorem done_run (run : tallyState s = 3) {o : Int} (near : o.natAbs ≤ 2048) :
    (tickDone u l m o).tally = { (noteSeen s 1 l m.num).tally with tb := ((s.tally.tb : Int) + slew s o).toNat }
      ∧ tallyState (tickDone u l m o) = 3 ∧ rd (tickDone u l m o) tallyPg F.TB_OFFSET = ofSigned o 16
      ∧ Only [.regs, .tally, .links, .out] s (tickDone u l m o) := by
  have idle := tickDone_traffic (h.of_run run near) l
  have moved := tally_shiftTime (offsetShown u o) (slew s o)
  have shown : (offsetShown u o).tally = u.tally := rfl
  refine ⟨?_, ?_, ?_, Via.same (.step idle.via rfl (.step (shiftTime_via ..) rfl (.step (wr_via ..) rfl h.via)))⟩
  · rw [idle.tally, moved, shown, h.tb, h.tally]
  · rw [idle.tallyState, tallyState_shiftTime, tallyState_offsetShown, h.state, run]
  · rw [tickDone, h.of_run run near, (sendIdle_via ..).rd rfl, rd_shiftTime_ne _ _ _ (by decide) (by decide), offsetShown, rd_wr0]
    exact Nat.mod_eq_of_lt (ofSigned_lt o 16)

theorem done_far (run : tallyState s = 3) {o : Int} (far : 2048 < o.natAbs) :
    tallyState (tickDone u l m o) = 4 ∧ ∀ k, k < 16 → (getFlock s k).entries ≠ [] → (getFlock (tickDone u l m o) k).phase = 4 := by
  have idle := tickDone_traffic (h.of_far run far) l
  have flock (k : Nat) : getFlock (offsetShown u o) k = getFlock s k := Via.getFlock (.step (wr_via ..) rfl h.via) rfl k
  refine ⟨by rw [idle.tallyState, tallyState_enterLost], fun k hk holds => ?_⟩
  rw [idle.getFlock]
  exact phase_enterLost _ _ hk (by rwa [flock])

theorem done_idle (off : tallyState s = 0 ∨ tallyState s = 4) (o : Int) :
    tallyState (tickDone u l m o) = tallyState s ∧ (tickDone u l m o).tally.tb = s.tally.tb ∧ (tickDone u l m o).tally.num = s.tally.num
      ∧ Only [.regs, .tally, .links, .out] s (tickDone u l m o) := by
  have idle := tickDone_traffic (h.of_idle off o) l
  have shown : (offsetShown u o).tally = u.tally := rfl
  rw [idle.tallyState, idle.tally, tallyState_offsetShown, h.state, shown, h.tally]
  exact ⟨rfl, rfl, rfl, Via.same (.step idle.via rfl (.step (wr_via ..) rfl h.via))⟩

theorem done_noted (o : Int) :
    copyOf (tickDone u l m o) 1 = some { num := m.num, link := l, both := false }
      ∧ Only [.free, .regs, .views, .log, .flocks, .tally, .links, .out] s (tickDone u l m o) := by
  have idle := tickDone_traffic (u := u) (m := m) (o := o) rfl l
  refine ⟨by rw [copyOf_of_seen (congrArg Tally.seen idle.tally), h.copyOf_acted], Via.same (.step idle.via rfl ?_)⟩
  exact .step (takeStart_via ..) rfl (.step (takeOffset_via ..) rfl (h.via.mono rfl))

end TickNoted

end

/-- Settles O33: the first copy acts on the state in which it is noted and passed on, by the state of the unit; another copy is noted. -/
theorem tickMarkersAlignTheTimebase : Obligations.TickMarkersAlignTheTimebase := by
  unfold Obligations.TickMarkersAlignTheTimebase
  intro s l m o a above
  refine ⟨fun first => ?_, fun later => ⟨_, tick_of_later a above later o, ?_, ?_⟩⟩
  · obtain ⟨u, noted, next⟩ := tick_of_first a above first o
    have answer : exec (.tick l m o) s = .next (tickDone u l m.body o) := next
    refine ⟨fun acquire near few => ⟨_, answer, noted.done_acquire acquire (if_pos near) (by omega)⟩,
      fun acquire near fifteen zero => ⟨_, answer, noted.done_sixteenth acquire near fifteen zero⟩,
      fun acquire far => ⟨_, answer, noted.done_acquire acquire (if_neg (by omega)) (by decide)⟩,
      fun locked numbered => ⟨_, answer, noted.done_locked locked numbered o⟩, fun run near => ⟨_, answer, ?_⟩,
      fun run far => ⟨_, answer, noted.done_far run far⟩, fun off => ⟨_, answer, noted.done_idle off o⟩, ⟨_, answer, noted.done_noted o⟩⟩
    obtain ⟨tally, state, shows, only⟩ := noted.done_run run near
    have top := slew_le s o
    rw [tally]
    refine ⟨state, rfl, rfl, rfl, rfl, rfl, ?_, shows, only⟩
    show ((((s.tally.tb : Int) + slew s o).toNat : Int)) - s.tally.tb ≤ _
    omega
  · rw [(sendIdle_traffic ..).tally]
    exact tally_noteCopy_congr (inOrder_traffic s l m.head).tally 1
  · exact Via.same (.step (sendIdle_traffic ..).via rfl (.step (noteCopy_via ..) rfl (.step (inOrder_traffic s l m.head).via rfl (.refl _ s))))

end Sys2Proof.Machine
end

section
/-! SUPPORT. The commit point of one flock (R223, R224): it sets its own flock's state and no other flock's. -/

namespace Sys2Proof.Machine

open Sys2Proof Sys2Proof.Claims

/-! ## What a command answers -/

/-- What a command answers, it answers within its pieces. -/
theorem Answers.within {c : Instr} {s : State} {P : State → Prop} {ps : List StatePart} (h : Answers c s P) (k : Reach ps s (exec c s)) :
    Answers c s fun t => P t ∧ Only ps s t := by
  obtain ⟨t, answer, holds⟩ := h
  obtain ⟨u, next, via⟩ := k
  obtain rfl := Host.Outcome.next.inj (answer.symm.trans next)
  exact ⟨t, answer, holds, via.same⟩

theorem Answers.imp {c : Instr} {s : State} {P Q : State → Prop} (h : Answers c s P) (k : ∀ t, P t → Q t) : Answers c s Q :=
  let ⟨t, answer, holds⟩ := h
  ⟨t, answer, k t holds⟩

/-! ## What concerns one flock only -/

/-- From `s` to `t` no other flock than `k` changes, and every fold serves the flock that it served. -/
structure FlockOnly (k : Nat) (s t : State) : Prop where
  /-- the other flocks -/
  other : ∀ j, j ≠ k → getFlock t j = getFlock s j
  /-- the flock of each fold -/
  serves : ∀ f, foldFlock t f = foldFlock s f

namespace FlockOnly

variable {k : Nat} {r s t : State}

theorem refl (k : Nat) (s : State) : FlockOnly k s s := ⟨fun _ _ => rfl, fun _ => rfl⟩

theorem trans (h : FlockOnly k r s) (g : FlockOnly k s t) : FlockOnly k r t :=
  ⟨fun j hj => (g.other j hj).trans (h.other j hj), fun f => (g.serves f).trans (h.serves f)⟩

theorem ite {a b : State} {c : Prop} [Decidable c] (h : FlockOnly k r a) (g : FlockOnly k r b) : FlockOnly k r (if c then a else b) := by
  split
  · exact h
  · exact g

/-- What touches neither flocks nor droves, and leaves each fold its drove. -/
theorem of_drove {ps : List StatePart} (h : FlockOnly k r s) (v : Via ps s t) (flocks : ps.contains .flocks = false)
    (droves : ps.contains .droves = false) (drove : ∀ f, (getFold t f).drove = (getFold s f).drove) : FlockOnly k r t :=
  h.trans ⟨fun j _ => v.getFlock flocks j, fun f => foldFlock_congr (v.piece droves) (drove f)⟩

theorem via {ps : List StatePart} (h : FlockOnly k r s) (v : Via ps s t) (flocks : ps.contains .flocks = false)
    (droves : ps.contains .droves = false) (folds : ps.contains .folds = false) : FlockOnly k r t :=
  h.of_drove v flocks droves fun f => by rw [v.getFold folds]

/-- What touches the flock itself. -/
theorem flock (h : FlockOnly k r s) {u : State} (v : Via [.flocks] s u) (other : ∀ j, j ≠ k → getFlock u j = getFlock s j) : FlockOnly k r u :=
  h.trans ⟨other, fun f => foldFlock_congr (v.piece (p := .droves) rfl) (by rw [v.getFold rfl])⟩

theorem modFlock (h : FlockOnly k r s) (g : Flock → Flock) : FlockOnly k r (modFlock s k g) :=
  h.flock (modFlock_via ..) fun j hj => by rw [getFlock_modFlock, if_neg hj]

theorem putFlock (h : FlockOnly k r s) (x : Flock) : FlockOnly k r (putFlock s k x) :=
  h.flock (putFlock_via ..) fun j hj => by rw [getFlock_putFlock, if_neg hj]

/-- What a fold does but for its drove. -/
theorem modFold (h : FlockOnly k r s) (f : Nat) {g : Fold → Fold} (keeps : ∀ x, (g x).drove = x.drove) : FlockOnly k r (modFold s f g) := by
  refine h.of_drove (modFold_via ..) rfl rfl fun q => ?_
  rw [getFold_modFold]
  split
  case isTrue same => rw [keeps, same]
  case isFalse => rfl

/-- A loop each of whose steps works for the flock. -/
theorem loop {α : Type} {xs : List α} {g : State → α → State} (h : FlockOnly k r s)
    (step : ∀ u, ∀ x ∈ xs, FlockOnly k s u → FlockOnly k u (g u x)) :
    FlockOnly k r (forEach s xs g) :=
  h.trans (forEach_keeps (I := FlockOnly k s) (fun u x hx hu => hu.trans (step u x hx hu)) (.refl k s))

end FlockOnly

/-! ## Faults of a fold, and the flock that it serves -/

theorem stepFault_flockOnly (s : State) (k cause : Nat) : FlockOnly k s (stepFault s k cause) := by
  unfold stepFault
  refine .ite ?_ (.refl k s)
  have shown (u : State) (n : Nat) (h : FlockOnly k s u) (f : Field) : FlockOnly k s (wr0 u tallyPg f n) := h.via (wr0_via ..) rfl rfl rfl
  exact shown _ _ (shown _ _ (shown _ _ (shown _ _ (((FlockOnly.refl k s).putFlock _).via (bump_via ..) rfl rfl rfl) _) _) _) _

theorem foldStepFault_flockOnly {s : State} {f k : Nat} (serves : foldFlock s f = some k) (cause : Nat) :
    FlockOnly k s (foldStepFault s f cause) := by
  rw [foldStepFault_of_flock serves]
  exact stepFault_flockOnly ..

theorem stopDrove_flockOnly {s : State} {f k : Nat} (serves : foldFlock s f = some k) (why : Nat) : FlockOnly k s (stopDrove s f why) := by
  unfold stopDrove
  extract_lets dg counted logged
  have told : FlockOnly k s logged := ((FlockOnly.refl k s).via (errEvent_via ..) rfl rfl rfl).via (logWrite_via ..) rfl rfl rfl
  clear_value logged
  rw [told.serves, serves]
  exact told.modFlock _

theorem drove_faultMarked (s : State) (f code bundle syl port g : Nat) :
    (getFold (faultMarked s f code bundle syl port) g).drove = (getFold s g).drove := by
  rw [faultMarked, getFold_modFold, getFold_faultLogged, getFold_faultLogged]
  split
  case isTrue same => rw [same]
  case isFalse => rfl

theorem contractFault_flockOnly {s : State} {f k : Nat} (serves : foldFlock s f = some k) (code bundle syl port : Nat) :
    FlockOnly k s (contractFault s f code bundle syl port) := by
  have marked := (FlockOnly.refl k s).of_drove (faultMarked_via s f code bundle syl port) rfl rfl (drove_faultMarked s f code bundle syl port)
  have raised := marked.trans (foldStepFault_flockOnly ((marked.serves f).trans serves) 3)
  rw [contractFault_eq]
  have counted := raised.via (wr0_via _ (foldPg f) F.SEQ_STATUS_CONTRACT_STOP 1) rfl rfl rfl
  exact .ite (counted.trans (stopDrove_flockOnly ((counted.serves f).trans serves) 3)) raised

theorem drove_clashMarked (s : State) (f tile cause named g : Nat) :
    (getFold (clashMarked s f tile cause named) g).drove = (getFold s g).drove := by
  have logged : ∀ q, getFold (clashLogged s f tile cause named) q = getFold s q := fun q => by
    rw [clashLogged, getFold_logWrite, getFold_errEvent, getFold_clashShown]
  rw [clashMarked, getFold_modFold, modTile, getFold_modFold_same, getFold_modFold, logged, logged]
  split
  case isTrue same =>
    rw [same]
    rfl
  case isFalse => rfl

theorem clash_flockOnly {s : State} {f k : Nat} (serves : foldFlock s f = some k) (tile cause named : Nat) :
    FlockOnly k s (clash s f tile cause named) := by
  have marked := (FlockOnly.refl k s).of_drove (clashMarked_via s f tile cause named) rfl rfl (drove_clashMarked s f tile cause named)
  have raised := marked.trans (foldStepFault_flockOnly ((marked.serves f).trans serves) 4)
  have counted := raised.via (wr0_via _ (foldPg f) F.ACC_STATUS_CLASH_STOP 1) rfl rfl rfl
  rw [clash_eq]
  exact .ite (counted.trans (stopDrove_flockOnly ((counted.serves f).trans serves) 2)) raised

/-! ## The commit point -/

theorem resolveFold_flockOnly {s : State} {f k : Nat} (serves : foldFlock s f = some k) : FlockOnly k s (resolveFold s f) := by
  unfold resolveFold
  extract_lets x n counted marked
  have shown : FlockOnly k s counted := (FlockOnly.refl k s).via (.step (wr0_via ..) rfl (bump_via ..)) rfl rfl rfl
  clear_value counted
  have noted : FlockOnly k s marked := shown.modFold f fun _ => rfl
  clear_value marked
  have stalls := noted.via (wr0_via _ (foldPg f) F.RES_STATUS_STALL 1) rfl rfl rfl
  exact .ite (.ite (stalls.trans (stopDrove_flockOnly ((stalls.serves f).trans serves) 1)) noted) (.refl k s)

theorem serves_of_flockFolds {s : State} {f k : Nat} (h : f ∈ flockFolds s k) : foldFlock s f = some k :=
  beq_iff_eq.mp (List.mem_filter.mp h).2

theorem resolveFault_flockOnly (s : State) (k past : Nat) : FlockOnly k s (resolveFault s k past) := by
  unfold resolveFault
  extract_lets q lacks
  have lack : FlockOnly k s lacks := (FlockOnly.refl k s).modFlock _
  clear_value lacks
  have fault := lack.trans (stepFault_flockOnly lacks k 6)
  refine fault.loop fun u f hf hu => resolveFold_flockOnly ?_
  exact (hu.serves f).trans ((stepFault_flockOnly ..).serves f |>.trans (serves_of_flockFolds hf))

theorem overrun_flockOnly (s : State) (k limit : Nat) : FlockOnly k s (overrun s k limit) :=
  .ite (resolveFault_flockOnly ..) (stepFault_flockOnly ..)

theorem closeFold_flockOnly {s : State} {f k : Nat} (serves : foldFlock s f = some k) (j : Nat) : FlockOnly k s (closeFold s j f) := by
  unfold closeFold
  extract_lets x starves clashes
  refine .ite (.refl k s) ?_
  have starve : FlockOnly k s starves := .ite (contractFault_flockOnly serves ..) (.refl k s)
  clear_value starves
  have clashed : FlockOnly k s clashes := by
    refine .ite (starve.loop fun u t _ hu => ?_) starve
    have drawn := (FlockOnly.refl k u).via (drawNat_via u) rfl rfl rfl
    exact drawn.trans (clash_flockOnly ((drawn.serves f).trans ((hu.serves f).trans ((starve.serves f).trans serves))) ..)
  clear_value clashes
  exact clashed.modFold f fun _ => rfl

theorem commitPoint_flockOnly (s : State) (k : Nat) : FlockOnly k s (commitPoint s k) := by
  unfold commitPoint
  extract_lets x limit slack late closed damaged
  refine .ite ?_ (.refl k s)
  have slacks : FlockOnly k s slack := (FlockOnly.refl k s).via (recordSlack_via ..) rfl rfl rfl
  clear_value slack
  have overruns : FlockOnly k s late := .ite (slacks.trans (overrun_flockOnly ..)) slacks
  clear_value late
  have closes : FlockOnly k s closed := overruns.loop fun u f hf hu =>
    .ite (.refl k u) (closeFold_flockOnly ((hu.serves f).trans (serves_of_flockFolds hf)) k)
  clear_value closed
  have faults : FlockOnly k s damaged := .ite (closes.trans (stepFault_flockOnly ..)) closes
  clear_value damaged
  exact faults.modFlock _

/-- A step in its last tick whose commit point has come has its state (R223). -/
theorem done_commitPoint {s : State} {k : Nat} (last : lastTick s k = true) (open_ : (getFlock s k).done = false)
    (comes : commitComes s k = true) : (getFlock (commitPoint s k) k).done = true := by
  simp only [commitPoint, last, open_, comes, Bool.not_false, Bool.and_self, if_true, getFlock_modFlock]

/-- Once it has it, or before its commit point comes, nothing happens. -/
theorem commitPoint_of_not_due {s : State} {k : Nat} (h : (getFlock s k).done = true ∨ commitComes s k = false) : commitPoint s k = s := by
  rcases h with done | early
  · simp only [commitPoint, done, Bool.not_true, Bool.and_false, Bool.false_and, Bool.false_eq_true, if_false]
  · simp only [commitPoint, early, Bool.and_false, Bool.false_eq_true, if_false]

theorem done_of_commitComes {s : State} {k : Nat} (last : lastTick s k = true) (comes : commitComes s k = true) :
    (getFlock (commitPoint s k) k).done = true := by
  cases done : (getFlock s k).done
  · exact done_commitPoint last done comes
  · rw [commitPoint_of_not_due (.inl done), done]

theorem stepping_passStretch (s : State) : stepping (passStretch s) = stepping s := by
  unfold stepping
  exact List.filter_congr fun k _ => by rw [(passStretch_via s).getFlock rfl]

theorem passStretch_of_no_droop {s : State} (h : s.power.droop = false) : passStretch s = s := if_neg (by rw [h]; decide)

theorem getFlock_orderLog (s t : State) (k : Nat) : getFlock (orderLog s t) k = getFlock t k :=
  (orderLog_via s (ps := [.log]) rfl (.refl _ t)).getFlock rfl k

theorem commitPoint_answer {s : State} {q : Nat} (run : tallyState s = 3) (decided : s.tally.q = some q) :
    exec .commitPoint s = .next (orderLog (passStretch s) (forEach (passStretch s) (stepping s) commitPoint)) := by
  have due : tallyState s = 3 ∧ s.tally.q.isSome := ⟨run, by rw [decided]; rfl⟩
  refine (if_pos due).trans ?_
  rw [stepping_passStretch]

/-- A flock that is not stepping is no flock's commit point's business. -/
theorem getFlock_commitPoints (s : State) {k : Nat} (still : (getFlock s k).phase ≠ 3) :
    getFlock (forEach (passStretch s) (stepping s) commitPoint) k = getFlock s k := by
  have other (u : State) (j : Nat) (hj : j ∈ stepping s) : getFlock (commitPoint u j) k = getFlock u k := by
    refine (commitPoint_flockOnly u j).other k fun same => still ?_
    rw [same]
    exact beq_iff_eq.mp (List.mem_filter.mp hj).2
  exact forEach_keeps (I := fun u => getFlock u k = getFlock s k) (fun u j hj hu => (other u j hj).trans hu)
    ((passStretch_via s).getFlock rfl k)

end Sys2Proof.Machine
end

section
/-! SUPPORT. The commit exchange (R224 to R227): the states that a device reports, and the decision that it takes. -/

namespace Sys2Proof.Machine

open Sys2Proof Sys2Proof.Claims

/-! ## The states of the flocks due -/

/-- The fields that gathering commit states can write: the error bit of a stalled step, its log entry, and the count of late markers. -/
def commitKeys : List (Nat × Field × Nat) :=
  [(tallyPg, F.ERR_SUM, 0), (tallyPg, F.ERR_FIRST_BIT, 0), (tallyPg, F.ERR_FIRST_TALLY, 0), (tallyPg, F.MARKER_LATE, 0),
    (tallyPg, F.EVT_LOG, 0), (tallyPg, F.STATUS_SAT, 0), (logPg, F.LOG_OVERRUN, 0), (logPg, F.LOG_INDEX, 0), (logPg, F.STATUS_SAT, 0)]

theorem bump_commitKeys (s : State) {pg : Nat} {f : Field} (hf : (pg, f, 0) ∈ commitKeys) (sat : (pg, F.STATUS_SAT, 0) ∈ commitKeys)
    (n : Nat) : OnlyFields commitKeys s (bump s pg f n) := (OnlyFields.refl _ s).bumpI pg f 0 n hf sat

theorem errEvent_commitKeys (s : State) : OnlyFields commitKeys s (errEvent s tallyPg 4) := by
  have summed : OnlyFields commitKeys s (wrBit s tallyPg F.ERR_SUM 0 4 true) := (OnlyFields.refl _ s).wr _ _ _ _ (by decide)
  have named (a b : Nat) : OnlyFields commitKeys s
      (wr0 (wr0 (wrBit s tallyPg F.ERR_SUM 0 4 true) tallyPg F.ERR_FIRST_BIT a) tallyPg F.ERR_FIRST_TALLY b) :=
    (summed.wr tallyPg F.ERR_FIRST_BIT 0 a (by decide)).wr tallyPg F.ERR_FIRST_TALLY 0 b (by decide)
  have event : errEvent s tallyPg 4 = if rd s tallyPg F.ERR_SUM == 0 then
      wr0 (wr0 (wrBit s tallyPg F.ERR_SUM 0 4 true) tallyPg F.ERR_FIRST_BIT 4) tallyPg F.ERR_FIRST_TALLY s.tally.num
    else wrBit s tallyPg F.ERR_SUM 0 4 true := rfl
  rw [event]
  split
  · exact named 4 s.tally.num
  · exact summed

theorem logWrite_commitKeys (s : State) (ev pen : Nat) (fs : List LogField) : OnlyFields commitKeys s (logWrite s tallyPg ev pen fs) := by
  have quiet {u v : State} {ps : List StatePart} (h : OnlyFields commitKeys s u) (k : Via ps u v) (regs : ps.contains .regs = false) :
      OnlyFields commitKeys s v := h.trans fun _ _ _ _ => k.rd regs ..
  unfold logWrite
  extract_lets i e counted entered views filled indexed
  have hc : OnlyFields commitKeys s counted := by
    unfold counted
    split
    · exact bump_commitKeys s (by decide) (by decide) _
    · exact .refl _ s
  clear_value counted
  have he : OnlyFields commitKeys s entered := quiet hc (setLog_via ..) rfl
  clear_value entered
  have hf : OnlyFields commitKeys s filled := by
    unfold filled
    split
    · exact quiet he (setViews_via ..) rfl
    · exact he
  clear_value filled
  have hi : OnlyFields commitKeys s indexed := hf.wr logPg F.LOG_INDEX 0 _ (by decide)
  clear_value indexed
  exact hi.trans (bump_commitKeys indexed (pg := tallyPg) (f := F.EVT_LOG) (by decide) (by decide) 1)

/-- From `s` to `t` commit states are gathered: events are recorded, and a flock can be marked stalled. -/
structure CommitNoted (s t : State) : Prop where
  /-- the pieces of that -/
  via : Via [.regs, .views, .log, .flocks] s t
  /-- the registers -/
  fields : OnlyFields commitKeys s t
  /-- the steps that the flocks run -/
  num : ∀ k, (getFlock t k).num = (getFlock s k).num

namespace CommitNoted

variable {r s t : State}

theorem refl (s : State) : CommitNoted s s := ⟨.refl _ s, .refl _ s, fun _ => rfl⟩

theorem trans (h : CommitNoted r s) (k : CommitNoted s t) : CommitNoted r t :=
  ⟨h.via.trans k.via, h.fields.trans k.fields, fun j => (k.num j).trans (h.num j)⟩

/-- A field of another place of its page. -/
theorem rd_place (h : CommitNoted s t) (pg : Nat) (f : Field) (i : Nat) (apart : (commitKeys.all fun k => place k.2.1 k.2.2 != place f i) = true) :
    rd t pg f i = rd s pg f i := by
  refine h.fields pg f i (List.all_eq_true.mpr fun k hk => bne_iff_ne.mpr fun same => ?_)
  have places : place k.2.1 k.2.2 = place f i := by rw [← fkey_mod k.1, same, fkey_mod]
  exact bne_iff_ne.mp (List.all_eq_true.mp apart k hk) places

theorem tallyRd (h : CommitNoted s t) (f : Field) (apart : (commitKeys.all fun k => fkey k.1 k.2.1 k.2.2 != fkey tallyPg f 0) = true) :
    rd t tallyPg f = rd s tallyPg f := h.fields _ _ _ apart

theorem childLinks (h : CommitNoted s t) : Machine.childLinks t = Machine.childLinks s := by
  refine List.filter_congr fun l hl => ?_
  have word : ∀ w, w < 3 → rd t tallyPg F.TALLY_CHILD w = rd s tallyPg F.TALLY_CHILD w := fun w hw =>
    h.rd_place _ _ _ ((by decide : ∀ w < 3, (commitKeys.all fun k => place k.2.1 k.2.2 != place F.TALLY_CHILD w) = true) w hw)
  rw [rdBit, word _ (by have := List.mem_range.mp hl; omega), rdBit]

theorem tally (h : CommitNoted s t) : t.tally = s.tally := h.via.piece (p := .tally) rfl

end CommitNoted

theorem bump_commitNoted (s : State) (n : Nat) : CommitNoted s (bump s tallyPg F.MARKER_LATE n) :=
  ⟨(bump_via ..).mono rfl, bump_commitKeys s (by decide) (by decide) n, fun k => by rw [(bump_via ..).getFlock rfl]⟩

theorem ownCommit_congr {s t : State} {k : Nat} (h : getFlock t k = getFlock s k) : (ownCommit t k).1 = (ownCommit s k).1 := by
  simp only [ownCommit, h, apply_ite Prod.fst]

theorem ownCommit_noted (s : State) (k : Nat) :
    CommitNoted s (ownCommit s k).2 ∧ ∀ j, j ≠ k → getFlock (ownCommit s k).2 j = getFlock s j := by
  unfold ownCommit
  extract_lets x stalls logged
  have event : Via [.regs, .views, .log] s logged := .step (logWrite_via ..) rfl ((errEvent_via ..).mono rfl)
  have written : OnlyFields commitKeys s logged := (errEvent_commitKeys s).trans (logWrite_commitKeys _ _ _ _)
  clear_value logged
  split
  · dsimp only
    refine ⟨⟨(event.mono rfl).trans ((modFlock_via ..).mono rfl), written.trans fun _ _ _ _ => (modFlock_via ..).rd rfl ..,
      fun j => ?_⟩, fun j hj => ?_⟩
    · rw [getFlock_modFlock, event.getFlock rfl, event.getFlock rfl]
      split
      case isTrue same => rw [same]
      case isFalse => rfl
    · rw [getFlock_modFlock, if_neg hj, event.getFlock rfl]
  · exact ⟨.refl s, fun _ _ => rfl⟩

/-- A flock that does not run has nothing of its own to report. -/
theorem mergedCommit_of_idle {s : State} {k : Nat} (idle : (getFlock s k).phase ≠ 3) :
    mergedCommit s k = (max 1 (max (getFlock s k).childState (if (getFlock s k).childSeen < (childLinks s).length then 2 else 1)), s) := by
  rw [mergedCommit, if_neg idle]

theorem mergedCommit_of_step {s : State} {k : Nat} (runs : (getFlock s k).phase = 3) :
    mergedCommit s k = (max (ownCommit s k).1 (max (getFlock s k).childState
      (if (getFlock s k).childSeen < (childLinks s).length then 2 else 1)), (ownCommit s k).2) := by
  rw [mergedCommit, if_pos runs]
  dsimp only
  rw [(ownCommit_noted s k).1.childLinks]

theorem mergedCommit_pos (s : State) (k : Nat) : (mergedCommit s k).1 ≠ 0 := by
  have childPart : 1 ≤ (if (getFlock s k).childSeen < (childLinks s).length then 2 else 1) := by split <;> decide
  by_cases runs : (getFlock s k).phase = 3
  · rw [mergedCommit_of_step runs]
    dsimp only
    omega
  · rw [mergedCommit_of_idle runs]
    dsimp only
    omega

/-- What a flock's state is merged from stays, once others have been gathered. -/
theorem mergedCommit_congr {s t : State} {k : Nat} (flock : getFlock t k = getFlock s k) (children : childLinks t = childLinks s) :
    (mergedCommit t k).1 = (mergedCommit s k).1 := by
  by_cases runs : (getFlock s k).phase = 3
  · rw [mergedCommit_of_step runs, mergedCommit_of_step (by rw [flock, runs]), flock, children, ownCommit_congr flock]
  · rw [mergedCommit_of_idle runs, mergedCommit_of_idle (by rwa [flock]), flock, children]

theorem mergedCommit_noted (s : State) (k : Nat) :
    CommitNoted s (mergedCommit s k).2 ∧ ∀ j, j ≠ k → getFlock (mergedCommit s k).2 j = getFlock s j := by
  by_cases runs : (getFlock s k).phase = 3
  · rw [mergedCommit_of_step runs]
    exact ownCommit_noted s k
  · rw [mergedCommit_of_idle runs]
    exact ⟨.refl s, fun _ _ => rfl⟩

/-- One flock's entry joins those gathered. -/
def addEntry (acc : List FlockEntry × State) (k : Nat) : List FlockEntry × State :=
  let (v, s) := mergedCommit acc.2 k
  (if h : k < 16 then acc.1 ++ [⟨⟨k, h⟩, v, (getFlock s k).num⟩] else acc.1, s)

theorem commitEntries_eq (s : State) (ks : List Nat) : commitEntries s ks = ks.foldl addEntry ([], s) := rfl

/-- An entry gives its flock's merged state, and the step that the flock runs. -/
def EntryOf (s : State) (e : FlockEntry) : Prop := e.state = (mergedCommit s e.flock).1 ∧ e.step = (getFlock s e.flock).num

theorem foldl_addEntry (ks : List Nat) : ∀ (es : List FlockEntry) (s : State), (∀ k ∈ ks, k < 16) → ks.Nodup →
    ∃ new t, ks.foldl addEntry (es, s) = (es ++ new, t) ∧ new.map (·.flock.val) = ks ∧ (∀ e ∈ new, EntryOf s e) ∧ CommitNoted s t := by
  induction ks with
  | nil => exact fun es s _ _ => ⟨[], s, by simp, rfl, by simp, .refl s⟩
  | cons k ks ih =>
    intro es s small apart
    obtain ⟨fresh, rest⟩ := List.nodup_cons.mp apart
    have hk : k < 16 := small k List.mem_cons_self
    obtain ⟨gathered, others⟩ := mergedCommit_noted s k
    obtain ⟨new, t, done, flocks, entries, noted⟩ := ih (es ++ [⟨⟨k, hk⟩, (mergedCommit s k).1, (getFlock (mergedCommit s k).2 k).num⟩])
      (mergedCommit s k).2 (fun j hj => small j (List.mem_cons_of_mem _ hj)) rest
    refine ⟨⟨⟨k, hk⟩, (mergedCommit s k).1, (getFlock (mergedCommit s k).2 k).num⟩ :: new, t, ?_, by simp [flocks], ?_, gathered.trans noted⟩
    · rw [List.foldl_cons, addEntry]
      simp only [dif_pos hk, done, List.append_assoc, List.cons_append, List.nil_append]
    · intro e he
      rcases List.mem_cons.mp he with rfl | later
      · exact ⟨rfl, gathered.num k⟩
      · obtain ⟨state, step⟩ := entries e later
        have other : getFlock (mergedCommit s k).2 e.flock = getFlock s e.flock := by
          refine others _ fun same => fresh ?_
          rw [← same, ← flocks]
          exact List.mem_map_of_mem later
        exact ⟨state.trans (mergedCommit_congr other gathered.childLinks), step.trans (by rw [other])⟩

/-- The entries of the flocks due, in their order. -/
theorem commitEntries_exchangeDue (s u : State) :
    ∃ es t, commitEntries u (exchangeDue s) = (es, t) ∧ es.map (·.flock.val) = exchangeDue s ∧ (∀ e ∈ es, EntryOf u e) ∧ CommitNoted u t := by
  have small (k : Nat) (hk : k ∈ exchangeDue s) : k < 16 := List.mem_range.mp (List.mem_filter.mp hk).1
  have apart : (exchangeDue s).Nodup := List.nodup_range.filter _
  obtain ⟨es, t, done, rest⟩ := foldl_addEntry (exchangeDue s) [] u small apart
  exact ⟨es, t, by rw [commitEntries_eq, done, List.nil_append], rest⟩

/-! ## The report to the parent -/

theorem out_emitFlit (s : State) (l : Nat) (bytes : List Byte) : (emitFlit s l bytes).out = s.out ++ [.flit l bytes] := by
  have link : (modLink s l fun x => { x with nackDue := false, flits := x.flits + 1 }).out = s.out := (modLink_via ..).piece (p := .out) rfl
  rw [← link]
  rfl

/-- A flit that a link can take now goes out at once (R325). -/
theorem out_sendSeq {s : State} {l : Nat} (up : linkUp s l = true) (room : (getLink s l).buffer.length < 512) (b : Body) :
    (sendSeq s l b).out = s.out ++ [.flit l ((getLink s l).flit (getLink s l).txSeq b)] := by
  have kept : Via [.regs, .links] s (bump (putLink s l { getLink s l with
      txSeq := ((getLink s l).txSeq + 1) % 4096, buffer := (getLink s l).buffer ++ [((getLink s l).txSeq, b)] }) (linkPg l) F.FLITS_TX) :=
    .step (bump_via ..) rfl ((putLink_via ..).mono rfl)
  have same := kept.piece (p := .out) rfl
  rw [sendSeq, if_pos up, if_pos (show _ < replayRoom from room), sendNow, out_emitFlit, same]

theorem sendUp_of_parentUp {s t : State} (up : parentUp s) (noted : CommitNoted s t) (m : Marker) :
    (sendUp t 8 m).out = s.out ++ [toParent s 8 m] := by
  obtain ⟨valid, linkIsUp, room⟩ := up
  have parent := noted.tallyRd F.TALLY_LINKS_PARENT (by decide)
  have links : ∀ l, getLink t l = getLink s l := noted.via.getLink rfl
  have state : ∀ l, linkUp t l = linkUp s l := fun l => by rw [linkUp, linkState, noted.rd_place _ _ _ (by decide), linkUp, linkState]
  have out : t.out = s.out := noted.via.piece (p := .out) rfl
  rw [sendUp, if_pos ((noted.tallyRd F.TALLY_LINKS_PVALID (by decide)).trans valid), parent, sendMarker,
    out_sendSeq (by rw [state, linkIsUp]) (by rw [links]; exact room), out, links, toParent]

/-! ## The decision -/

/-- One entry of a decision (R227). -/
def decideFlock (s : State) (e : FlockEntry) : State :=
  if e.state = 0 then s
  else if e.state = 1 ∧ e.step ≠ (getFlock s e.flock).num then accessError s tallyPg 0 (.core 0) 5 e.flock
  else modFlock s e.flock fun x => { x with decision := e.state }

theorem takeCommit_eq (s : State) (es : List FlockEntry) : takeCommit s es = forEach s es decideFlock := rfl

theorem getFlock_decideFlock (s : State) (e : FlockEntry) (k : Nat) :
    getFlock (decideFlock s e) k =
      if k = e.flock ∧ e.state ≠ 0 ∧ ¬(e.state = 1 ∧ e.step ≠ (getFlock s e.flock).num) then { getFlock s k with decision := e.state }
      else getFlock s k := by
  unfold decideFlock
  split
  case isTrue none => rw [if_neg fun h => h.2.1 none]
  case isFalse some =>
    split
    case isTrue refused =>
      rw [if_neg fun h => h.2.2 refused]
      exact (accessError_via ..).getFlock rfl k
    case isFalse taken =>
      rw [getFlock_modFlock]
      by_cases same : k = e.flock
      · rw [if_pos same, if_pos ⟨same, some, taken⟩, same]
      · rw [if_neg same, if_neg fun h => same h.1]

theorem num_decideFlock (s : State) (e : FlockEntry) (k : Nat) : (getFlock (decideFlock s e) k).num = (getFlock s k).num := by
  rw [getFlock_decideFlock]
  split <;> rfl

/-- A flock that no entry names. -/
theorem getFlock_takeCommit_other {es : List FlockEntry} {k : Nat} (h : ∀ e ∈ es, e.flock.val ≠ k) (s : State) :
    getFlock (takeCommit s es) k = getFlock s k :=
  forEach_keeps (I := fun u => getFlock u k = getFlock s k)
    (fun u e he hu => (getFlock_decideFlock u e k).trans ((if_neg fun c => h e he c.1.symm).trans hu)) rfl

/-- A flock that one entry names. -/
theorem getFlock_takeCommit : ∀ (es : List FlockEntry) (s : State), (es.map (·.flock)).Nodup → ∀ e ∈ es,
    getFlock (takeCommit s es) e.flock = getFlock (decideFlock s e) e.flock := by
  intro es
  induction es with
  | nil => exact fun _ _ _ h => absurd h List.not_mem_nil
  | cons x xs ih =>
    intro s apart e he
    obtain ⟨fresh, rest⟩ := List.nodup_cons.mp apart
    have first : takeCommit s (x :: xs) = takeCommit (decideFlock s x) xs := rfl
    rw [first]
    rcases List.mem_cons.mp he with rfl | later
    · exact getFlock_takeCommit_other (fun y hy same => fresh (List.mem_map.mpr ⟨y, hy, Fin.ext same⟩)) _
    · have other : getFlock (decideFlock s x) e.flock = getFlock s e.flock := by
        rw [getFlock_decideFlock, if_neg]
        rintro ⟨same, -⟩
        exact fresh (List.mem_map.mpr ⟨e, later, Fin.ext same⟩)
      rw [ih _ rest e later, getFlock_decideFlock (decideFlock s x), other, ← getFlock_decideFlock]

theorem decision_takeCommit {s : State} {es : List FlockEntry} (apart : (es.map (·.flock)).Nodup) {e : FlockEntry} (he : e ∈ es)
    (decides : e.state ≠ 0) (step : e.state = 1 → e.step = (getFlock s e.flock).num) :
    (getFlock (takeCommit s es) e.flock).decision = e.state := by
  rw [getFlock_takeCommit es s apart e he, getFlock_decideFlock, if_pos ⟨rfl, decides, fun h => h.2 (step h.1)⟩]

theorem accessError_grows (s : State) (pg off : Nat) (src : Source) (row v : Nat) : FaultsGrow s (accessError s pg off src row v) := by
  have event := (FaultsGrow.refl s).errEvent pg 0
  exact .ite (event.logWrite ..) event

/-- A refusal is recorded (R375). -/
theorem errSum_takeCommit {s : State} {es : List FlockEntry} {e : FlockEntry} (he : e ∈ es) (commits : e.state = 1)
    (other : e.step ≠ (getFlock s e.flock).num) : bit (rd (takeCommit s es) tallyPg F.ERR_SUM) 0 = true := by
  rw [takeCommit_eq]
  refine forEach_reaches (I := fun u => (getFlock u e.flock).num = (getFlock s e.flock).num)
    (P := fun u => bit (rd u tallyPg F.ERR_SUM) 0 = true) (fun u x hu => (num_decideFlock u x _).trans hu) (fun u x _ set => ?_)
    (fun u hu => ?_) he rfl
  · unfold decideFlock
    split
    · exact set
    · split
      · exact (accessError_grows ..).errs _ _ (by decide) set
      · rwa [(modFlock_via ..).rd rfl]
  · rw [decideFlock, if_neg (by rw [commits]; decide), if_pos ⟨commits, by rwa [hu]⟩]
    exact errSum_accessError ..

/-! ## The commands of the exchange -/

theorem commitReport_answers {s : State} (run : tallyState s = 3) (child : isRoot s = false) (due : exchangeDue s ≠ []) (up : parentUp s) :
    Answers .commitReportSend s fun t => ∃ m : Marker, t.out = s.out ++ [toParent s 8 m] ∧ m.commitExchange = true
      ∧ m.num = s.tally.num ∧ m.ready = readyFields s ∧ m.flocks.map (·.flock.val) = exchangeDue s
      ∧ ∀ e ∈ m.flocks, e.state = (mergedCommit s e.flock).1 := by
  obtain ⟨es, u, done, flocks, entries, noted⟩ := commitEntries_exchangeDue s s
  have goes : tallyState s = 3 ∧ !isRoot s ∧ !(exchangeDue s).isEmpty := ⟨run, by rw [child]; rfl, by simpa using due⟩
  have answer : exec .commitReportSend s = .next (sendUp (bump u tallyPg F.MARKER_LATE (childrenMissing s (exchangeDue s))) 8
      { blankMarker u with
        commitExchange := true, childMissing := decide (0 < childrenMissing s (exchangeDue s)), flocks := es, ready := readyFields s }) := by
    show execCommitReportSend s = _
    simp only [execCommitReportSend, if_pos goes, done]
  refine ⟨_, answer, _, sendUp_of_parentUp up (noted.trans (bump_commitNoted ..)) _, rfl, ?_, rfl, flocks, fun e he => (entries e he).1⟩
  exact congrArg Tally.num noted.tally

theorem commitSend_answers {s : State} (run : tallyState s = 3) (root : isRoot s = true) (due : exchangeDue s ≠ []) :
    Answers .commitSend s fun t => ∀ k ∈ exchangeDue s, (getFlock t k).decision = (mergedCommit s k).1 := by
  have counted := bump_commitNoted s (childrenMissing s (exchangeDue s))
  obtain ⟨es, u, done, flocks, entries, noted⟩ := commitEntries_exchangeDue s (bump s tallyPg F.MARKER_LATE (childrenMissing s (exchangeDue s)))
  have goes : tallyState s = 3 ∧ isRoot s ∧ !(exchangeDue s).isEmpty := ⟨run, root, by simpa using due⟩
  have answer : exec .commitSend s = .next (takeCommit (sendDown u 3 { blankMarker u with flocks := es }) es) := by
    show execCommitSend s = _
    simp only [execCommitSend, if_pos goes, done]
  refine ⟨_, answer, fun k hk => ?_⟩
  have apart : (es.map (·.flock)).Nodup := by
    have vals : ((es.map (·.flock)).map Fin.val).Nodup := by
      rw [List.map_map]
      exact flocks ▸ List.nodup_range.filter _
    exact vals.of_map
  rw [← flocks] at hk
  obtain ⟨e, he, rfl⟩ := List.mem_map.mp hk
  obtain ⟨state, step⟩ := entries e he
  have value : e.state = (mergedCommit s e.flock).1 :=
    state.trans (mergedCommit_congr ((bump_via ..).getFlock rfl _) counted.childLinks)
  have sent : (getFlock (sendDown u 3 { blankMarker u with flocks := es }) e.flock).num = e.step := by
    rw [(sendDown_traffic ..).getFlock, noted.num, step]
  rw [decision_takeCommit apart he (by rw [value]; exact mergedCommit_pos s _) fun _ => sent.symm, value]

/-- A first COMMIT of the tick is noted and passed on, and its decision is taken (R207, R227). -/
theorem commit_answer {s : State} {l : Fin 96} {m : MarkerFlit} (a : marked s l m.head m.body (markerBytes 3 m.body))
    (above : fromAbove s l = true) (run : tallyState s = 3) (num : m.body.num = s.tally.num) (first : firstCopy s 3 l m.body.num = true) :
    ∃ u, exec (.commit l m) s = .next (sendIdle (takeCommit u m.body.flocks) l) ∧ Via [.regs, .tally, .links, .out] s u
      ∧ (∀ k, getFlock u k = getFlock s k)
      ∧ u.tally = { s.tally with seen := noted s 3 l m.body.num } := by
  have came := inOrder_traffic s l m.head
  have passed := forward_traffic (noteSeen (inOrder s l m.head) 3 l m.body.num) 3 m.body
  have note (v : State) : tallyState (noteSeen v 3 l m.body.num) = tallyState v := rfl
  have flocks (v : State) (k : Nat) : getFlock (noteSeen v 3 l m.body.num) k = getFlock v k := rfl
  have tally (v : State) (h : v.tally = s.tally) : (noteSeen v 3 l m.body.num).tally = { s.tally with seen := noted s 3 l m.body.num } := by
    rw [noted, ← h]
    rfl
  have seen := passed.tally.trans (tally _ came.tally)
  have takes : tallyState (passedOn (inOrder s l m.head) 3 l m.body.num m.body) = 3
      ∧ m.body.num = (passedOn (inOrder s l m.head) 3 l m.body.num m.body).tally.num :=
    ⟨passed.tallyState.trans ((note _).trans (came.tallyState.trans run)), num.trans (congrArg Tally.num seen).symm⟩
  refine ⟨passedOn (inOrder s l m.head) 3 l m.body.num m.body, ?_,
    .step passed.via rfl (.step (noteSeen_via ..) rfl (came.via.mono rfl)), fun k => ?_, seen⟩
  · refine congrArg Host.Outcome.next ((onDown_of_marked a above _).trans (congrArg (sendIdle · l) ?_))
    rw [firstOf_of_first (by rw [came.firstCopy, first]), if_pos takes]
  · exact (passed.getFlock k).trans ((flocks _ k).trans (came.getFlock k))

/-- Settles O35: the commit point of a flock changes that flock alone; the states reported are the merged ones, and decisions are taken by
entry. -/
theorem stepsCommitByTheWorstState : Obligations.StepsCommitByTheWorstState := by
  unfold Obligations.StepsCommitByTheWorstState
  refine ⟨fun s q run decided => ?_, fun s k last => ?_, fun s run child due up => ?_, fun s run root due => ?_,
    fun s l m a above run num first apart => ?_⟩
  · obtain ⟨t, answer, via⟩ := execCommitPoint_via s
    have points := commitPoint_answer run decided
    obtain rfl := Host.Outcome.next.inj (points.symm.trans answer)
    refine ⟨_, points, rfl, fun calm k only last comes => ?_, fun k _ still => ?_, via.same⟩
    · rw [getFlock_orderLog, passStretch_of_no_droop calm, only]
      exact done_of_commitComes last comes
    · rw [getFlock_orderLog, getFlock_commitPoints s still]
  · exact ⟨fun open_ comes => done_commitPoint last open_ comes, commitPoint_of_not_due⟩
  · exact (commitReport_answers run child due up).within (execCommitReportSend_via s)
  · exact (commitSend_answers run root due).within (execCommitSend_via s)
  · obtain ⟨u, answer, via, flocks, tally⟩ := commit_answer a above run num first
    have idle := sendIdle_traffic (takeCommit u m.body.flocks) l
    refine ⟨_, answer, fun e he decides step => ?_, fun e he commits other => ⟨?_, ?_⟩, ?_, ?_⟩
    · rw [idle.getFlock]
      exact decision_takeCommit apart he decides fun h => by rw [flocks, step h]
    · rw [idle.getFlock, getFlock_takeCommit _ _ apart e he, getFlock_decideFlock, flocks, if_neg fun h => h.2.2 ⟨commits, other⟩]
    · rw [idle.rd (by decide)]
      exact errSum_takeCommit he commits (by rwa [flocks])
    · rw [idle.tally, (takeCommit_via ..).piece (p := .tally) rfl, tally]
    · exact Via.same (.step idle.via rfl (.step (takeCommit_via ..) rfl (via.mono rfl)))

end Sys2Proof.Machine
end

section
/-! SUPPORT. A message that comes in order on its channel (R346, R352 to R354): the state that its effect works on, and its answer. -/

namespace Sys2Proof.Machine

open Sys2Proof Sys2Proof.Claims

/-! ## Packets -/

theorem OnlyFields.mono {ks js : List (Nat × Field × Nat)} {s t : State} (h : OnlyFields ks s t) (k : ∀ e ∈ ks, e ∈ js) : OnlyFields js s t :=
  fun pg f i hh => h pg f i (List.all_eq_true.mpr fun e he => List.all_eq_true.mp hh e (k e he))

/-- The fields that the packets of a queue pair can write. -/
def packetKeys : List (Nat × Field × Nat) :=
  [(ethPg, F.FRAMES_TX, 0), (ethPg, F.ECN_CE_RX, 0), (ethPg, F.CNP_TX, 0), (ethPg, F.STATUS_SAT, 0)]

/-- From `s` to `t` packets come and are acknowledged on queue pairs. -/
structure PacketsPass (s t : State) : Prop where
  /-- the pieces of that -/
  via : Via [.regs, .net, .out] s t
  /-- the registers -/
  fields : OnlyFields packetKeys s t
  /-- the channels -/
  chans : t.net.chans = s.net.chans
  /-- how often each has closed -/
  lives : t.net.lives = s.net.lives

namespace PacketsPass

variable {r s t : State}

theorem refl (s : State) : PacketsPass s s := ⟨.refl _ s, .refl _ s, rfl, rfl⟩

theorem trans (h : PacketsPass r s) (k : PacketsPass s t) : PacketsPass r t :=
  ⟨h.via.trans k.via, h.fields.trans k.fields, k.chans.trans h.chans, k.lives.trans h.lives⟩

theorem ite {a b : State} {c : Prop} [Decidable c] (h : PacketsPass r a) (k : PacketsPass r b) : PacketsPass r (if c then a else b) := by
  split
  · exact h
  · exact k

theorem putQp (h : PacketsPass r s) (q : Nat) (x : Qp) : PacketsPass r (putQp s q x) :=
  h.trans ⟨(putQp_via ..).mono rfl, fun _ _ _ _ => (putQp_via ..).rd rfl .., rfl, rfl⟩

theorem bump (h : PacketsPass r s) {f : Field} (hf : (ethPg, f, 0) ∈ packetKeys) (n : Nat) : PacketsPass r (bump s ethPg f n) := by
  have net : (Machine.bump s ethPg f n).net = s.net := (bump_via ..).piece (p := .net) rfl
  exact h.trans ⟨(bump_via ..).mono rfl, (OnlyFields.refl _ s).bumpI ethPg f 0 n hf (by decide), by rw [net], by rw [net]⟩

theorem emit (h : PacketsPass r s) (o : Out) : PacketsPass r (emit s o) :=
  h.trans ⟨(emit_via ..).mono rfl, fun _ _ _ _ => (emit_via ..).rd rfl .., rfl, rfl⟩

end PacketsPass

theorem sendRcAck_pass (s : State) (q psn nak : Nat) : PacketsPass s (sendRcAck s q psn nak) := ((PacketsPass.refl s).bump (by decide) 1).emit _

theorem noteCe_pass (s : State) (q : Nat) : PacketsPass s (noteCe s q) := by
  have counted := (PacketsPass.refl s).bump (f := F.ECN_CE_RX) (by decide) 1
  exact .ite counted ((((counted.putQp ..).bump (by decide) 1).bump (by decide) 1).emit _)

theorem getQp_putQp (s : State) (q : Nat) (x : Qp) : getQp (putQp s q x) q = x := getD_putD_same ..

theorem Via.getQp {ps : List StatePart} {s t : State} (h : Via ps s t) (k : ps.contains .net = false) (q : Nat) :
    Machine.getQp t q = Machine.getQp s q := by
  have net : t.net = s.net := h.piece k
  rw [Machine.getQp, net, Machine.getQp]

/-- A CE mark that is noted leaves the PSN that is expected (R350). -/
theorem epsn_noteCe (s : State) (q : Nat) : (getQp (noteCe s q) q).epsn = (getQp s q).epsn := by
  have counted : getQp (bump s ethPg F.ECN_CE_RX) q = getQp s q := (bump_via ..).getQp rfl q
  unfold noteCe
  dsimp only
  split
  · rw [counted]
  · have sent (u : State) : getQp (emitFrame u (.cnp q)) q = getQp u q := (emitFrame_via ..).getQp rfl q
    rw [sent, (bump_via ..).getQp rfl, getQp_putQp, counted]

/-- The state with a CE mark noted. -/
def ceNoted (s : State) (q : Nat) (k : Pkt) : State := if k.ce then noteCe s q else s

/-- The state with packets that come in order acknowledged, before what they carry acts (R346). -/
def packetsTaken (s : State) (q n : Nat) (k : Pkt) : State :=
  sendRcAck (movePsn (ceNoted s q k) q n) q (((getQp (ceNoted s q k) q).epsn + n - 1) % 2 ^ 24) 0

theorem packetsTaken_pass (s : State) (q n : Nat) (k : Pkt) : PacketsPass s (packetsTaken s q n k) := by
  have noted : PacketsPass s (ceNoted s q k) := .ite (noteCe_pass ..) (.refl s)
  exact (noted.putQp ..).trans (sendRcAck_pass ..)

theorem takePackets_of_ordered {s : State} {q : Nat} {k : Pkt} (o : ordered s q k) (n : Nat) (g : State → State) :
    takePackets s q n k g = g (packetsTaken s q n k) := by
  obtain ⟨up, connected, good, psn⟩ := o
  have expected : (getQp (ceNoted s q k) q).epsn = (getQp s q).epsn := by
    unfold ceNoted
    split
    · exact epsn_noteCe s q
    · rfl
  have here : (!netUp s || (getQp s q).st != 1) = false := by rw [up, connected]; rfl
  rw [takePackets, takePacket, here, onPacket, good]
  show (if k.psn.toNat = (getQp (ceNoted s q k) q).epsn then _ else _) = _
  rw [if_pos (psn.trans expected.symm)]
  rfl

/-! ## A message in order -/

/-- What a message carries acts on the state in which it has come (R346, R352). -/
theorem sendIn_inOrder {s : State} {h : MsgHead} (o : sendsInOrder s h) (b : List Byte) (g : State → State) :
    sendIn s h b.length g = g (came s h b) := by
  unfold came sendIn
  split
  case isTrue sends => rw [takePackets_of_ordered (o sends.1 sends.2), takePackets_of_ordered (o sends.1 sends.2), id]
  case isFalse => rfl

theorem came_pass {s : State} {h : MsgHead} (o : sendsInOrder s h) (b : List Byte) : PacketsPass s (came s h b) := by
  unfold came sendIn
  split
  case isTrue sends =>
    rw [takePackets_of_ordered (o sends.1 sends.2)]
    exact packetsTaken_pass ..
  case isFalse => exact .refl s

/-- The fields that a message of a pen can write before its effect. -/
def messageKeys (p : Nat) : List (Nat × Field × Nat) :=
  packetKeys ++ [(penPg p, F.SHOB_MSG_CNT, 0), (penPg p, F.STATUS_SAT, 0), (shobPg, F.SHOB_MSG_ALL, 0), (shobPg, F.STATUS_SAT, 0)]

/-- From `s` to `t` a message of a pen is taken, before its effect. -/
structure MessagePasses (p : Nat) (s t : State) : Prop where
  /-- the pieces of that -/
  via : Via [.regs, .net, .out] s t
  /-- the registers -/
  fields : OnlyFields (messageKeys p) s t
  /-- how often each channel has closed -/
  lives : t.net.lives = s.net.lives

theorem taken_passes {s : State} {h : MsgHead} (o : sendsInOrder s h) (b : List Byte) : MessagePasses h.pen s (taken s h b) := by
  have pass := came_pass o b
  have one : Via [.regs] (came s h b) (bump (came s h b) (penPg h.pen) F.SHOB_MSG_CNT) := bump_via ..
  have counted : Via [.regs] (came s h b) (bump (bump (came s h b) (penPg h.pen) F.SHOB_MSG_CNT) shobPg F.SHOB_MSG_ALL) :=
    .step (bump_via ..) rfl one
  have net := counted.piece (p := .net) rfl
  have pen : (penPg h.pen, F.SHOB_MSG_CNT, 0) ∈ messageKeys h.pen := by simp [messageKeys]
  have penSat : (penPg h.pen, F.STATUS_SAT, 0) ∈ messageKeys h.pen := by simp [messageKeys]
  have all : (shobPg, F.SHOB_MSG_ALL, 0) ∈ messageKeys h.pen := by simp [messageKeys]
  have allSat : (shobPg, F.STATUS_SAT, 0) ∈ messageKeys h.pen := by simp [messageKeys]
  have fields := ((pass.fields.mono fun e he => List.mem_append_left _ he).bumpI _ _ 0 1 pen penSat).bumpI _ _ 0 1 all allSat
  exact {
    via := .step (putChan_via ..) rfl (.step counted rfl pass.via)
    fields := fields.trans fun _ _ _ _ => (putChan_via ..).rd rfl ..
    lives := (congrArg Net.lives net).trans pass.lives }

/-! ## Fields that a message does not write -/

theorem fkey_page (pg : Nat) (f : Field) (i : Nat) : fkey pg f i = pg * 131072 + fkey 0 f i := by
  simp only [fkey]
  omega

/-- Fields of different pages differ, and so do those at different places of one page. -/
theorem fkey_ne {pg qg : Nat} {f g : Field} {i j : Nat} (hf : fkey 0 f i < 131072) (hg : fkey 0 g j < 131072)
    (h : pg ≠ qg ∨ place f i ≠ place g j) : fkey pg f i ≠ fkey qg g j := by
  have pf : place f i = fkey 0 f i := Nat.mod_eq_of_lt hf
  have pg' : place g j = fkey 0 g j := Nat.mod_eq_of_lt hg
  rw [fkey_page pg, fkey_page qg]
  omega

/-- A field of a pen's page that is no counter of messages. -/
theorem messageKeys_apart {p : Nat} (hp : p < 16) {f : Field} {i : Nat} (inPage : fkey 0 f i < 131072)
    (count : place F.SHOB_MSG_CNT 0 ≠ place f i) (sat : place F.STATUS_SAT 0 ≠ place f i) :
    ((messageKeys p).all fun k => fkey k.1 k.2.1 k.2.2 != fkey (penPg p) f i) = true := by
  have page : 190 ≠ penPg p ∧ 191 ≠ penPg p := by unfold penPg; omega
  have other (pg : Nat) (g : Field) (hg : fkey 0 g 0 < 131072) (h : pg ≠ penPg p ∨ place g 0 ≠ place f i) :
      (fkey pg g 0 != fkey (penPg p) f i) = true := bne_iff_ne.mpr (fkey_ne hg inPage h)
  simp only [messageKeys, packetKeys, List.all_append, List.all_cons, List.all_nil, Bool.and_true, Bool.and_eq_true]
  exact ⟨⟨other _ _ (by decide) (.inl page.1), other _ _ (by decide) (.inl page.1), other _ _ (by decide) (.inl page.1),
    other _ _ (by decide) (.inl page.1)⟩, other _ _ (by decide) (.inr count), other _ _ (by decide) (.inr sat),
    other _ _ (by decide) (.inl page.2), other _ _ (by decide) (.inl page.2)⟩

namespace MessagePasses

variable {p : Nat} {s t : State}

theorem rdPen (h : MessagePasses p s t) (hp : p < 16) {f : Field} {i : Nat} (inPage : fkey 0 f i < 131072)
    (count : place F.SHOB_MSG_CNT 0 ≠ place f i) (sat : place F.STATUS_SAT 0 ≠ place f i) : rd t (penPg p) f i = rd s (penPg p) f i :=
  h.fields _ _ _ (messageKeys_apart hp inPage count sat)

/-- An indexed field that lies apart from them at each index. -/
theorem rdPen_below (h : MessagePasses p s t) (hp : p < 16) {f : Field} {n : Nat}
    (apart : ∀ i < n, fkey 0 f i < 131072 ∧ place F.SHOB_MSG_CNT 0 ≠ place f i ∧ place F.STATUS_SAT 0 ≠ place f i) {i : Nat} (hi : i < n) :
    rd t (penPg p) f i = rd s (penPg p) f i :=
  h.rdPen hp (apart i hi).1 (apart i hi).2.1 (apart i hi).2.2

/-- A field of the tally unit's page. -/
theorem rdTally (h : MessagePasses p s t) (hp : p < 16) {f : Field} (inPage : fkey 0 f 0 < 131072) : rd t tallyPg f = rd s tallyPg f := by
  have page : penPg p ≠ tallyPg := by unfold penPg tallyPg; omega
  have other (pg : Nat) (g : Field) (hg : fkey 0 g 0 < 131072) (apart : pg ≠ tallyPg) : (fkey pg g 0 != fkey tallyPg f 0) = true :=
    bne_iff_ne.mpr (fkey_ne hg inPage (.inl apart))
  refine h.fields _ _ _ ?_
  simp only [messageKeys, packetKeys, List.all_append, List.all_cons, List.all_nil, Bool.and_true, Bool.and_eq_true]
  exact ⟨⟨other _ _ (by decide) (by decide), other _ _ (by decide) (by decide), other _ _ (by decide) (by decide),
    other _ _ (by decide) (by decide)⟩, other _ _ (by decide) page, other _ _ (by decide) page, other _ _ (by decide) (by decide),
    other _ _ (by decide) (by decide)⟩

theorem extents (h : MessagePasses p s t) (hp : p < 16) : Machine.extents t p = Machine.extents s p := by
  have valid (i : Nat) (hi : i < 64) := h.rdPen_below hp (f := F.EXT0_VALID) (by decide) hi
  have port (i : Nat) (hi : i < 64) := h.rdPen_below hp (f := F.EXT0_PORT) (by decide) hi
  have start (i : Nat) (hi : i < 64) := h.rdPen_below hp (f := F.EXT0_START) (by decide) hi
  have size (i : Nat) (hi : i < 64) := h.rdPen_below hp (f := F.EXT1) (by decide) hi
  have same : ((List.range 64).filter fun i => rd t (penPg p) F.EXT0_VALID i == 1) =
      (List.range 64).filter fun i => rd s (penPg p) F.EXT0_VALID i == 1 :=
    List.filter_congr fun i hi => by rw [valid i (List.mem_range.mp hi)]
  unfold Machine.extents
  rw [same]
  refine List.map_congr_left fun i hi => ?_
  have small : i < 64 := List.mem_range.mp (List.mem_filter.mp hi).1
  rw [port i small, start i small, size i small]

/-- The pen's window reads the same (R243, R248). -/
theorem winBytes (h : MessagePasses p s t) (hp : p < 16) (w n : Nat) : Machine.winBytes t p w n = Machine.winBytes s p w n := by
  have folds : t.folds = s.folds := h.via.piece (p := .folds) rfl
  have byte (a : Nat) : iodRead t a = iodRead s a := by
    unfold iodRead
    rw [folds, h.via.readByte rfl rfl]
  refine List.map_congr_left fun j _ => ?_
  unfold winByte windowByte windowAddr
  simp only [h.extents hp, byte]

theorem winLe (h : MessagePasses p s t) (hp : p < 16) (w n : Nat) : Machine.winLe t p w n = Machine.winLe s p w n := by
  rw [Machine.winLe, h.winBytes hp, Machine.winLe]

theorem tallyState (h : MessagePasses p s t) (hp : p < 16) : Machine.tallyState t = Machine.tallyState s := h.rdTally hp (by decide)

theorem isRoot (h : MessagePasses p s t) (hp : p < 16) : Machine.isRoot t = Machine.isRoot s := by
  rw [Machine.isRoot, h.rdTally hp (by decide), Machine.isRoot]

theorem chanLife (h : MessagePasses p s t) (pen ch : Nat) : Machine.chanLife t pen ch = Machine.chanLife s pen ch := by
  rw [Machine.chanLife, h.lives, Machine.chanLife]

end MessagePasses

/-! ## The effect and the answer -/

theorem chanState_came {s : State} {h : MsgHead} (o : sendsInOrder s h) (b : List Byte) :
    chanState (came s h b) h.pen h.ch = chanState s h.pen h.ch := by
  have pass := came_pass o b
  have passes : MessagePasses h.pen s (came s h b) := ⟨pass.via, pass.fields.mono fun e he => List.mem_append_left _ he, pass.lives⟩
  exact passes.rdPen_below h.pen.isLt (f := F.CH_STATE_STATE) (by decide) h.ch.isLt

/-- The next message of a channel, well formed, has its effect on the state in which it is taken (R352 to R354). -/
theorem sendIn_message {s : State} {h : MsgHead} (next : nextOn s h) (b : List Byte) (typ : Nat) {len : Bool} (formed : len = true)
    (g : MsgHead → State → State) : sendIn s h b.length (fun u => message u h typ true len g) = g (own s h) (taken s h b) := by
  obtain ⟨⟨opened, order, seq⟩, good⟩ := next
  have pass := came_pass order b
  have chan : getChan (came s h b) h.pen h.ch = getChan s h.pen h.ch := by rw [getChan, pass.chans, getChan]
  have life : chanLife (came s h b) h.pen h.ch = chanLife s h.pen h.ch := by rw [chanLife, pass.lives, chanLife]
  have open_ : chanState (came s h b) h.pen h.ch ≠ 0 := by rwa [chanState_came order]
  rw [sendIn_inOrder order, message, if_neg open_]
  simp only [chan, life]
  rw [if_pos seq]
  simp only [good, formed, taken, own, chan, Bool.not_true, Bool.false_eq_true, Bool.or_self, if_false]

theorem getChan_putChan (s : State) (pen ch : Nat) (c : Chan) : getChan (putChan s pen ch c) pen ch = c := getD_putD_same ..

theorem getLast?_lastN_concat {α : Type} {n : Nat} (some_ : 0 < n) (xs : List α) (x : α) : (lastN n (xs ++ [x])).getLast? = some x := by
  have inside : (xs ++ [x]).length - n ≤ xs.length := by
    rw [List.length_append, List.length_singleton]
    omega
  rw [lastN, List.drop_append_of_le_length inside, List.getLast?_concat]

theorem getChan_sendHost (s : State) (pen ch : Nat) (bytes : List Byte) (p c : Nat) : getChan (sendHost s pen ch bytes) p c = getChan s p c := by
  unfold sendHost
  split
  · have frames (u : State) (n : Nat) : (bump u ethPg F.FRAMES_TX n).net = u.net := (bump_via ..).piece (p := .net) rfl
    unfold post
    rw [getChan]
    show getD Chan.init (bump _ ethPg F.FRAMES_TX _).net.chans _ = _
    rw [frames]
    rfl
  · rfl

/-- A message of a channel that has not closed is answered, once it has been (R354, R359). -/
theorem answered_respond {s : State} {h g : MsgHead} (pen : g.pen = h.pen) (ch : g.ch = h.ch) (seq : g.seq = h.seq) (tag : g.tag = h.tag)
    (life : g.life = chanLife s h.pen h.ch) (typ status : Nat) (more : List Byte) : answered (respond s g typ status more) h typ status more := by
  have bytes : responseBytes g typ status more = responseBytes h typ status more := by simp only [responseBytes, seq, tag]
  unfold respond
  rw [pen, ch, if_neg (not_not.mpr life), bytes, seq]
  dsimp only
  rw [answered, getChan_sendHost, modChan, getChan_putChan]
  dsimp only
  rw [getLast?_lastN_concat (by decide)]

end Sys2Proof.Machine
end

section
/-! SUPPORT. DROVE messages (R200, R211, R212, R238): a load, an unload, a swap request, and the end of a load. -/

namespace Sys2Proof.Machine

open Sys2Proof Sys2Proof.Claims

/-! ## The drove table -/

theorem entryOf_of_droves {s t : State} (h : t.droves = s.droves) (p : Nat) (dg : List Byte) : entryOf t p dg = entryOf s p dg := by
  rw [entryOf, h, entryOf]

theorem freeEntry_of_droves {s t : State} (h : t.droves = s.droves) : freeEntry t = freeEntry s := by
  have entry (e : Nat) : getDrove t e = getDrove s e := by rw [getDrove, h, getDrove]
  simp only [freeEntry, entry]

theorem st_of_freeEntry {s : State} {i : Nat} (h : freeEntry s = some i) : (getDrove s i).st = 0 := by
  have free := List.find?_some h
  exact beq_iff_eq.mp free

theorem getDrove_respond (s : State) (h : MsgHead) (typ status : Nat) (more : List Byte) (i : Nat) :
    getDrove (respond s h typ status more) i = getDrove s i := (respond_via ..).getDrove rfl i

theorem Via.chanLife {ps : List StatePart} {s t : State} (h : Via ps s t) (k : ps.contains .net = false) (pen ch : Nat) :
    Machine.chanLife t pen ch = Machine.chanLife s pen ch := by
  have net : t.net = s.net := h.piece k
  rw [Machine.chanLife, net, Machine.chanLife]

section

variable {s : State} {e : Option Nat} {i : Nat} (place : (e.orElse fun _ => freeEntry s) = some i)

include place

/-- A failed load leaves its status in the LOADED entry of its image, if no swap has confirmed that (R200, R238). -/
theorem getDrove_reloadFailed_same (st : Nat) : getDrove (reloadFailed s e st) i =
    if (getDrove s i).st = 2 ∧ (getDrove s i).confirmed = false then { getDrove s i with status := st } else getDrove s i := by
  cases e with
  | none =>
    have free := st_of_freeEntry (show freeEntry s = some i from place)
    rw [if_neg (by rw [free]; exact fun h => absurd h.1 (by decide))]
    rfl
  | some k =>
    obtain rfl : k = i := Option.some.inj place
    simp only [reloadFailed, Bool.not_eq_true', apply_ite (getDrove · k), getDrove_putDrove, if_true]

theorem getDrove_reloadFailed_ne {j : Nat} (h : j ≠ i) (st : Nat) : getDrove (reloadFailed s e st) j = getDrove s j := by
  cases e with
  | none => rfl
  | some k =>
    obtain rfl : k = i := Option.some.inj place
    simp only [reloadFailed, apply_ite (getDrove · j), getDrove_putDrove, if_neg h, ite_self]

end

/-! ## DROVE_LOAD -/

/-- The drove that an image describes, as a reader reads it (R196). -/
def imageDrove (r : Rd) (h : MsgHead) (b : List Byte) : Drove := readDrove r h.pen (fieldNat b 0 8) (toLe 32 (r 480 32))

/-- The status of the load of an image (R200). -/
def imageResult (s : State) (r : Rd) (h : MsgHead) (b : List Byte) : Nat := loadStatus s r h.pen (fieldNat b 0 8) (imageDrove r h b)

section

variable {u : State} {g : MsgHead} {b : List Byte} {r : Rd} (reads : (fun a n => winLe u g.pen (fieldNat b 0 8 + a) n) = r)

include reads

theorem doDroveLoad_of_fault (fault : imageResult u r g b ≠ 0) : doDroveLoad g b u =
    respond (reloadFailed u (entryOf u g.pen (imageDrove r g b).digest) (imageResult u r g b)) g 0x20 (imageResult u r g b) := by
  subst reads
  exact if_pos fault

theorem doDroveLoad_of_pass (pass : imageResult u r g b = 0) {i : Nat}
    (place : ((entryOf u g.pen (imageDrove r g b).digest).orElse fun _ => freeEntry u) = some i) :
    doDroveLoad g b u = putDrove u i { imageDrove r g b with waiting := some g } := by
  subst reads
  refine (if_neg (not_not.mpr pass)).trans ?_
  unfold imageDrove at place
  simp only [place]
  rfl

end

section

variable {s : State} {h : MsgHead} (order : sendsInOrder s h) (b : List Byte)

include order

/-- The image reads the same once the message is taken. -/
theorem winLe_taken : (fun a n => winLe (taken s h b) (own s h).pen (fieldNat b 0 8 + a) n) = fun a n => winLe s h.pen (fieldNat b 0 8 + a) n :=
  funext fun _ => funext fun _ => (taken_passes order b).winLe h.pen.isLt ..

theorem droves_taken : (taken s h b).droves = s.droves := (taken_passes order b).via.piece (p := .droves) rfl

theorem getDrove_taken (i : Nat) : getDrove (taken s h b) i = getDrove s i := (taken_passes order b).via.getDrove rfl i

theorem chanLife_taken : (own s h).life = chanLife (taken s h b) h.pen h.ch := ((taken_passes order b).chanLife ..).symm

end

theorem exec_droveLoad {s : State} {h : MsgHead} (next : nextOn s h) {b : List Byte} (len : b.length = 8) :
    exec (.droveLoad h b) s = .next (doDroveLoad (own s h) b (taken s h b)) :=
  congrArg Host.Outcome.next (sendIn_message next b 0x20 (len := b.length == 8) (by rw [len]; rfl) fun g => doDroveLoad g b)

/-- A load gives its entry to the image, or its status to its sender and to a LOADED entry of the image (R200). -/
theorem droveLoad_answers {s : State} {h : MsgHead} (next : nextOn s h) {b : List Byte} (len : b.length = 8) {r : Rd}
    (reads : (fun a n => winLe s h.pen (fieldNat b 0 8 + a) n) = r) {st : Nat} (status : imageResult (taken s h b) r h b = st) {i : Nat}
    (place : ((entryOf s h.pen (imageDrove r h b).digest).orElse fun _ => freeEntry s) = some i) :
    Answers (.droveLoad h b) s fun t =>
      (st = 0 → getDrove t i = { imageDrove r h b with waiting := some (own s h) } ∧ (getDrove t i).st = 1)
        ∧ (st ≠ 0 → answered t h 0x20 st [] ∧ getDrove t i = (if (getDrove s i).st = 2 ∧ (getDrove s i).confirmed = false then
            { getDrove s i with status := st } else getDrove s i))
        ∧ (∀ j, j ≠ i → getDrove t j = getDrove s j) := by
  have order := next.1.2.1
  have same := winLe_taken order b
  have entry := entryOf_of_droves (droves_taken order b) h.pen (imageDrove r h b).digest
  have placed : ((entryOf (taken s h b) h.pen (imageDrove r h b).digest).orElse fun _ => freeEntry (taken s h b)) = some i := by
    rw [entry, freeEntry_of_droves (droves_taken order b), place]
  refine ⟨_, exec_droveLoad next len, ?_⟩
  by_cases pass : st = 0
  · rw [doDroveLoad_of_pass (same.trans reads) (status.trans pass) placed]
    refine ⟨fun _ => ?_, fun fault => absurd pass fault, fun j hj => ?_⟩
    · rw [getDrove_putDrove, if_pos rfl]
      exact ⟨rfl, rfl⟩
    · rw [getDrove_putDrove, if_neg hj, getDrove_taken order]
  · rw [doDroveLoad_of_fault (same.trans reads) (status.trans_ne pass)]
    have result : imageResult (taken s h b) r (own s h) b = st := status
    have kept (e : Option Nat) : chanLife (reloadFailed (taken s h b) e st) h.pen h.ch = chanLife (taken s h b) h.pen h.ch :=
      (reloadFailed_via ..).chanLife rfl ..
    rw [result]
    refine ⟨fun zero => absurd zero pass, fun _ => ⟨?_, ?_⟩, fun j hj => ?_⟩
    · exact answered_respond rfl rfl rfl rfl ((chanLife_taken order b).trans (kept _).symm) ..
    · rw [getDrove_respond, ← getDrove_taken order b i]
      exact getDrove_reloadFailed_same placed st
    · rw [getDrove_respond]
      exact (getDrove_reloadFailed_ne placed hj st).trans (getDrove_taken order b j)

/-! ## DROVE_UNLOAD -/

theorem exec_droveUnload {s : State} {h : MsgHead} (next : nextOn s h) {b : List Byte} (len : b.length = 32) :
    exec (.droveUnload h b) s = .next (doDroveUnload (own s h) b (taken s h b)) :=
  congrArg Host.Outcome.next (sendIn_message next b 0x21 (len := b.length == 32) (by rw [len]; rfl) fun g => doDroveUnload g b)

/-- An entry changes, and a message of the channel is answered. -/
theorem answered_putDrove {s : State} {h : MsgHead} (order : sendsInOrder s h) (b : List Byte) (e : Nat) (d : Drove) (typ status : Nat) :
    answered (respond (putDrove (taken s h b) e d) (own s h) typ status) h typ status []
      ∧ getDrove (respond (putDrove (taken s h b) e d) (own s h) typ status) e = d
      ∧ ∀ j, j ≠ e → getDrove (respond (putDrove (taken s h b) e d) (own s h) typ status) j = getDrove s j := by
  have kept : chanLife (putDrove (taken s h b) e d) h.pen h.ch = chanLife (taken s h b) h.pen h.ch := (putDrove_via ..).chanLife rfl ..
  refine ⟨answered_respond rfl rfl rfl rfl ((chanLife_taken order b).trans kept.symm) .., ?_, fun j hj => ?_⟩
  · rw [getDrove_respond, getDrove_putDrove, if_pos rfl]
  · rw [getDrove_respond, getDrove_putDrove, if_neg hj, getDrove_taken order]

theorem droveUnload_answers {s : State} {h : MsgHead} (next : nextOn s h) {b : List Byte} (len : b.length = 32) {e : Nat}
    (entry : entryOf s h.pen b = some e) : Answers (.droveUnload h b) s fun t =>
      ((getDrove s e).st = 2 ∧ (getDrove s e).confirmed = false → getDrove t e = Drove.empty ∧ answered t h 0x21 0 [])
        ∧ (¬((getDrove s e).st = 2 ∧ (getDrove s e).confirmed = false) →
            getDrove t e = { getDrove s e with status := 0x0D } ∧ answered t h 0x21 0x0D [])
        ∧ ∀ j, j ≠ e → getDrove t j = getDrove s j := by
  have order := next.1.2.1
  have found : entryOf (taken s h b) (own s h).pen (b.take 32) = some e := by
    rw [List.take_of_length_le (by omega), entryOf_of_droves (droves_taken order b)]
    exact entry
  refine ⟨_, exec_droveUnload next len, ?_⟩
  unfold doDroveUnload
  simp only [found, getDrove_taken order, Bool.not_eq_true']
  by_cases loaded : (getDrove s e).st = 2 ∧ (getDrove s e).confirmed = false
  · obtain ⟨answer, entry, others⟩ := answered_putDrove order b e Drove.empty 0x21 0
    rw [if_pos loaded]
    exact ⟨fun _ => ⟨entry, answer⟩, fun active => absurd loaded active, others⟩
  · obtain ⟨answer, entry, others⟩ := answered_putDrove order b e { getDrove s e with status := 0x0D } 0x21 0x0D
    rw [if_neg loaded]
    exact ⟨fun idle => absurd idle loaded, fun _ => ⟨entry, answer⟩, others⟩

/-! ## DROVE_LOAD_DONE -/

theorem droveLoadDone_answers {s : State} {e : Fin 32} (loading : (getDrove s e).st = 1) (serves : serviceWaits s .droveLoad = false) :
    Answers (.droveLoadDone e) s fun t =>
      getDrove t e = { getDrove s e with st := 2, status := 0, waiting := none }
        ∧ (∀ h, (getDrove s e).waiting = some h → h.life = chanLife s h.pen h.ch → answered t h 0x20 0 [])
        ∧ ∀ j, j ≠ e.val → getDrove t j = getDrove s j := by
  have goes : (getDrove s e).st = 1 ∧ !serviceWaits s .droveLoad := ⟨loading, by rw [serves]; rfl⟩
  have loaded (j : Nat) : getDrove (putDrove s e { getDrove s e with st := 2, status := 0, waiting := none }) j =
      if j = e then { getDrove s e with st := 2, status := 0, waiting := none } else getDrove s j := getDrove_putDrove ..
  refine ⟨_, if_pos goes, ?_⟩
  cases waits : (getDrove s e).waiting with
  | none =>
    refine ⟨(loaded e).trans (if_pos rfl), fun h same => ?_, fun j hj => (loaded j).trans (if_neg hj)⟩
    cases same
  | some g =>
    refine ⟨?_, fun h same life => ?_, fun j hj => ?_⟩
    · rw [getDrove_respond, loaded, if_pos rfl]
    · obtain rfl := Option.some.inj same
      exact answered_respond rfl rfl rfl rfl (life.trans ((putDrove_via ..).chanLife rfl ..).symm) ..
    · rw [getDrove_respond, loaded, if_neg hj]

/-! ## DROVE_SWAP -/

theorem exec_droveSwap {s : State} {h : MsgHead} (next : nextOn s h) {b : List Byte} (formed : swapBody b = true) :
    exec (.droveSwap h b) s = .next (doDroveSwap (own s h) b (taken s h b)) :=
  congrArg Host.Outcome.next (sendIn_message next b 0x22 formed fun g => doDroveSwap g b)

theorem answerSwap_flocks (s : State) (h : MsgHead) (dg : List Byte) (status k : Nat) : getFlock (answerSwap s h dg status) k = getFlock s k :=
  (answerSwap_via ..).getFlock rfl k

/-- An announced swap takes the place of one that is not confirmed (R213). -/
theorem getFlock_takeAnnounce {s : State} {w : SwapFields} (open_ : ∀ y, (getFlock s w.flock).swap = some y → y.confirmed = false)
    (origin : Option MsgHead) (j : Nat) : getFlock (takeAnnounce s w origin) j =
      if j = w.flock then { getFlock s w.flock with
        swap := some { incoming := w.incoming, ts := w.ts, confirmed := false
                       ready := readyFor s w.flock (swapPen s w.flock origin) w.incoming, origin := origin, pen := swapPen s w.flock origin }
        childReady := [] }
      else getFlock s j := by
  have announced : takeAnnounce s w origin = takeAnnounce.set s w origin := by
    unfold takeAnnounce
    split
    case h_1 y announced => rw [open_ y announced, if_neg Bool.false_ne_true]
    case h_2 => rfl
  rw [announced, takeAnnounce.set, getFlock_modFlock]

/-- The request of an announced swap that another takes the place of is answered (R212). -/
def displaceSwap (s : State) (old : Option Swap) : State := match old with
  | some y => match y.origin with
    | some g => answerSwap s g y.incoming 0x11
    | none => s
  | none => s

theorem displaceSwap_flocks (s : State) (old : Option Swap) (j : Nat) : getFlock (displaceSwap s old) j = getFlock s j := by
  unfold displaceSwap
  split
  · split
    · exact answerSwap_flocks ..
    · rfl
  · rfl

/-- The swap that a request announces (R211, R213). -/
def requested (s : State) (k : Fin 16) (incoming : List Byte) (ts : Nat) : SwapFields :=
  { flock := k, status := 0, outgoing := outgoing s k, incoming := incoming, ts := ts }

/-- The announcement goes to every child. -/
def announceSent (s : State) (w : SwapFields) : State := sendSwap s 1 (blankMarker s) w

section

variable {s : State} {h : MsgHead} {k : Fin 16} {ts : Nat} (open_ : ∀ w, (getFlock s k).swap = some w → w.confirmed = false)

include open_

/-- A swap request that the bellwether accepts is announced (R211 to R213). -/
theorem requestSwap_of_accepted (soon : s.tally.num + 16 ≤ ts) (pen : ∀ d, flockDrove s k = some d → d.pen = h.pen.val)
    (incoming : List Byte) :
    let u := displaceSwap s (getFlock s k).swap
    requestSwap s h k incoming ts = takeAnnounce (announceSent u (requested u k incoming ts)) (requested u k incoming ts) (some h) := by
  have unconfirmed : (getFlock s k).swap.any (·.confirmed) = false := by
    cases swap : (getFlock s k).swap with
    | none => rfl
    | some w => exact open_ w swap
  have mine : (flockDrove s k).any (fun d => d.pen != h.pen.val) = false := by
    cases drove : flockDrove s k with
    | none => rfl
    | some d => simp [pen d drove]
  intro u
  unfold requestSwap
  dsimp only
  rw [if_neg (by rw [unconfirmed]; decide), if_neg (by omega), if_neg (by rw [mine]; decide)]
  rfl

theorem getFlock_requestSwap (soon : s.tally.num + 16 ≤ ts) (pen : ∀ d, flockDrove s k = some d → d.pen = h.pen.val) (incoming : List Byte) :
    (∃ w, (getFlock (requestSwap s h k incoming ts) k).swap = some w ∧ w.incoming = incoming ∧ w.ts = ts ∧ w.confirmed = false
        ∧ w.origin = some h)
      ∧ ∀ j, j ≠ k.val → getFlock (requestSwap s h k incoming ts) j = getFlock s j := by
  have sent (w : SwapFields) (j : Nat) : getFlock (announceSent (displaceSwap s (getFlock s k).swap) w) j = getFlock s j :=
    ((sendSwap_traffic ..).getFlock j).trans (displaceSwap_flocks ..)
  rw [requestSwap_of_accepted open_ soon pen]
  have taken := getFlock_takeAnnounce (s := announceSent (displaceSwap s (getFlock s k).swap)
    (requested (displaceSwap s (getFlock s k).swap) k incoming ts)) (w := requested (displaceSwap s (getFlock s k).swap) k incoming ts)
    (fun y hy => open_ y (by rw [← sent]; exact hy)) (some h)
  refine ⟨⟨_, congrArg Flock.swap ((taken k).trans (if_pos rfl)), rfl, rfl, rfl, rfl⟩, fun j hj => ?_⟩
  · exact (taken j).trans ((if_neg hj).trans (sent _ j))

end

theorem flockDrove_congr {s t : State} (flocks : t.flocks = s.flocks) (droves : t.droves = s.droves) (k : Nat) : flockDrove t k = flockDrove s k := by
  have entry : getDrove t = getDrove s := funext fun e => by rw [getDrove, droves, getDrove]
  have flock : getFlock t k = getFlock s k := by rw [getFlock, flocks, getFlock]
  rw [flockDrove, flock, entry, flockDrove]

theorem droveSwap_answers {s : State} {h : MsgHead} (next : nextOn s h) {b : List Byte} (formed : swapBody b = true) (root : isRoot s = true)
    (run : tallyState s = 3) (soon : s.tally.num + 16 ≤ fieldNat b 40 8) {k : Fin 16} (flock : Fin.ofNat 16 (fieldNat b 0 1) = k)
    (open_ : ∀ w, (getFlock s k).swap = some w → w.confirmed = false) (pen : ∀ d, flockDrove s k = some d → d.pen = h.pen.val) :
    Answers (.droveSwap h b) s fun t => (∃ w, (getFlock t k).swap = some w ∧ w.incoming = field b 8 32 ∧ w.ts = fieldNat b 40 8
      ∧ w.confirmed = false ∧ w.origin = some (own s h)) ∧ ∀ j, j ≠ k.val → getFlock t j = getFlock s j := by
  have passes := taken_passes next.1.2.1 b
  have flocks (j : Nat) : getFlock (taken s h b) j = getFlock s j := passes.via.getFlock rfl j
  have drove := flockDrove_congr (passes.via.piece (p := .flocks) rfl) (droves_taken next.1.2.1 b) k
  have tally : (taken s h b).tally = s.tally := passes.via.piece (p := .tally) rfl
  have accepts : ¬(!isRoot (taken s h b) ∨ tallyState (taken s h b) ≠ 3) := by
    rw [passes.isRoot h.pen.isLt, passes.tallyState h.pen.isLt, root, run]
    simp
  have request : doDroveSwap (own s h) b (taken s h b) = requestSwap (taken s h b) (own s h) k (field b 8 32) (fieldNat b 40 8) := by
    rw [doDroveSwap, if_neg accepts, flock]
  obtain ⟨announced, others⟩ := getFlock_requestSwap (s := taken s h b) (h := own s h) (k := k) (ts := fieldNat b 40 8)
    (fun w hw => open_ w (by rw [← flocks]; exact hw)) (by rw [tally]; exact soon) (fun d hd => pen d (by rw [← drove]; exact hd)) (field b 8 32)
  refine ⟨_, exec_droveSwap next formed, ?_⟩
  rw [request]
  exact ⟨announced, fun j hj => (others j hj).trans (flocks j)⟩

/-- Settles O40: each message acts on the state in which it is taken, which reads the image, the drove table and the flocks as before. -/
theorem drovesLoadUnloadAndSwap : Obligations.DrovesLoadUnloadAndSwap := by
  unfold Obligations.DrovesLoadUnloadAndSwap
  refine ⟨fun s h next => ⟨?_, ?_, ?_⟩, fun s e loading serves => ?_⟩
  · intro b len r d st i place
    exact ((droveLoad_answers next len (r := r) rfl (st := st) rfl place).within (execDroveLoad_via ..)).imp
      fun t ⟨⟨pass, fault, others⟩, only⟩ => ⟨pass, fault, others, only⟩
  · intro b e len entry
    exact ((droveUnload_answers next len entry).within (execDroveUnload_via ..)).imp
      fun t ⟨⟨idle, active, others⟩, only⟩ => ⟨idle, active, others, only⟩
  · intro b formed root run soon k open_ pen
    exact ((droveSwap_answers next formed root run soon (k := k) rfl open_ pen).within (execDroveSwap_via ..)).imp
      fun t ⟨⟨announced, others⟩, only⟩ => ⟨announced, others, only⟩
  · exact ((droveLoadDone_answers loading serves).within (execDroveLoadDone_via ..)).imp
      fun t ⟨⟨loaded, answer, others⟩, only⟩ => ⟨loaded, answer, others, only⟩

end Sys2Proof.Machine
end

section
/-! SUPPORT. Every command as one operation: it answers a next state, and what leads to it keeps the memories canonical (R155, R239). -/

namespace Sys2Proof.Machine

open Sys2Proof

theorem Reach.mono {ps qs : List StatePart} {s : State} {o : Host.Outcome State Fault Refusal} (h : Reach qs s o)
    (k : (qs.all fun p => ps.contains p) = true) : Reach ps s o :=
  let ⟨t, answer, via⟩ := h
  ⟨t, answer, via.mono k⟩

/-- Every command answers a next state, and none touches the queue of commands. -/
theorem exec_reach (c : Instr) (s : State) : Reach (allBut [.pending]) s (exec c s) := match c with
  | .registerWrite .. => (execRegisterWrite_via ..).mono rfl
  | .hiWordLatch .. => (execHiWordLatch_via ..).mono rfl
  | .cntClr .. => (execCntClr_via ..).mono rfl
  | .bootLock .. => (execBootLock_via ..).mono rfl
  | .logEntryLatch .. => (execLogEntryLatch_via ..).mono rfl
  | .logAutoAdvance .. => (execLogAutoAdvance_via ..).mono rfl
  | .tickFire => (execTickFire_via ..).mono rfl
  | .bundleIssue .. => (execBundleIssue_via ..).mono rfl
  | .tend .. => (execTend_via ..).mono rfl
  | .send .. => (execSend_via ..).mono rfl
  | .anop .. => (execAnop_via ..).mono rfl
  | .lnop .. => (execLnop_via ..).mono rfl
  | .vecNop .. => (execVecNop_via ..).mono rfl
  | .mnop .. => (execMnop_via ..).mono rfl
  | .conv .. => (execConv_via ..).mono rfl
  | .convLatch .. => (execConvLatch_via ..).mono rfl
  | .zeroInputConversion .. => (execZeroInputConversion_via ..).mono rfl
  | .convDeliver .. => (execConvDeliver_via ..).mono rfl
  | .addAlign .. => (execAddAlign_via ..).mono rfl
  | .psw .. => (execPsw_via ..).mono rfl
  | .planeSwitch .. => (execPlaneSwitch_via ..).mono rfl
  | .pld .. => (execPld_via ..).mono rfl
  | .tclr .. => (execTclr_via ..).mono rfl
  | .trnd .. => (execTrnd_via ..).mono rfl
  | .resolveWindowEnd .. => (execResolveWindowEnd_via ..).mono rfl
  | .trndDeliver .. => (execTrndDeliver_via ..).mono rfl
  | .tcmb .. => (execTcmb_via ..).mono rfl
  | .combineLand .. => (execCombineLand_via ..).mono rfl
  | .vadd .. => (execVadd_via ..).mono rfl
  | .vsub .. => (execVsub_via ..).mono rfl
  | .vmul .. => (execVmul_via ..).mono rfl
  | .vfma .. => (execVfma_via ..).mono rfl
  | .vmax .. => (execVmax_via ..).mono rfl
  | .vmin .. => (execVmin_via ..).mono rfl
  | .vcmplt .. => (execVcmplt_via ..).mono rfl
  | .vwide .. => (execVwide_via ..).mono rfl
  | .vnarr .. => (execVnarr_via ..).mono rfl
  | .vdec .. => (execVdec_via ..).mono rfl
  | .vexp .. => (execVexp_via ..).mono rfl
  | .vrcp .. => (execVrcp_via ..).mono rfl
  | .vrsq .. => (execVrsq_via ..).mono rfl
  | .vsilu .. => (execVsilu_via ..).mono rfl
  | .vgelu .. => (execVgelu_via ..).mono rfl
  | .vrope .. => (execVrope_via ..).mono rfl
  | .vrsum .. => (execVrsum_via ..).mono rfl
  | .vrmax .. => (execVrmax_via ..).mono rfl
  | .vargmx .. => (execVargmx_via ..).mono rfl
  | .vdraw .. => (execVdraw_via ..).mono rfl
  | .vwalk .. => (execVwalk_via ..).mono rfl
  | .vqmx4 .. => (execVqmx4_via ..).mono rfl
  | .vqi4 .. => (execVqi4_via ..).mono rfl
  | .xfer .. => (execXfer_via ..).mono rfl
  | .hrd .. => (execHrd_via ..).mono rfl
  | .hwr .. => (execHwr_via ..).mono rfl
  | .lsnd .. => (execLsnd_via ..).mono rfl
  | .tsnd .. => (execTsnd_via ..).mono rfl
  | .dataVisible .. => (execDataVisible_via ..).mono rfl
  | .hwrComplete .. => (execHwrComplete_via ..).mono rfl
  | .pauseRelease => (execPauseRelease_via ..).mono rfl
  | .foldState .. => (execFoldState_via ..).mono rfl
  | .tileWindowWrite .. => (execTileWindowWrite_via ..).mono rfl
  | .calForce .. => (execCalForce_via ..).mono rfl
  | .calPeriodExpiry .. => (execCalPeriodExpiry_via ..).mono rfl
  | .calWindowClose .. => (execCalWindowClose_via ..).mono rfl
  | .calWindowTimeout .. => (execCalWindowTimeout_via ..).mono rfl
  | .calApply .. => (execCalApply_via ..).mono rfl
  | .bootCalibration .. => (execBootCalibration_via ..).mono rfl
  | .holdCutoff => (execHoldCutoff_via ..).mono rfl
  | .holdReportSend => (execHoldReportSend_via ..).mono rfl
  | .report .. => (execReport_via ..).mono rfl
  | .slack .. => (execSlack_via ..).mono rfl
  | .decideSend => (execDecideSend_via ..).mono rfl
  | .decide .. => (execDecide_via ..).mono rfl
  | .credit .. => (execCredit_via ..).mono rfl
  | .tick .. => (execTick_via ..).mono rfl
  | .markerMissing .. => (execMarkerMissing_via ..).mono rfl
  | .commitPoint => (execCommitPoint_via ..).mono rfl
  | .commitReportSend => (execCommitReportSend_via ..).mono rfl
  | .commitSend => (execCommitSend_via ..).mono rfl
  | .commit .. => (execCommit_via ..).mono rfl
  | .tallyEnable .. => (execTallyEnable_via ..).mono rfl
  | .tallyStart .. => (execTallyStart_via ..).mono rfl
  | .droveLoad .. => (execDroveLoad_via ..).mono rfl
  | .droveUnload .. => (execDroveUnload_via ..).mono rfl
  | .droveSwap .. => (execDroveSwap_via ..).mono rfl
  | .swapAnnounce .. => (execSwapAnnounce_via ..).mono rfl
  | .swapConfirm .. => (execSwapConfirm_via ..).mono rfl
  | .swapRefuse .. => (execSwapRefuse_via ..).mono rfl
  | .pageTick => (execPageTick_via ..).mono rfl
  | .pageWindowSet => (execPageWindowSet_via ..).mono rfl
  | .ckptWriteDone .. => (execCkptWriteDone_via ..).mono rfl
  | .laneBlockBuild .. => (execLaneBlockBuild_via ..).mono rfl
  | .laneBlockLand .. => (execLaneBlockLand_via ..).mono rfl
  | .admitMsg .. => (execAdmitMsg_via ..).mono rfl
  | .abort .. => (execAbort_via ..).mono rfl
  | .pfxKey .. => (execPfxKey_via ..).mono rfl
  | .scrub .. => (execScrub_via ..).mono rfl
  | .hbmRetireStart .. => (execHbmRetireStart_via ..).mono rfl
  | .retireCopyDone .. => (execRetireCopyDone_via ..).mono rfl
  | .stagingWriteResume => (execStagingWriteResume_via ..).mono rfl
  | .epochOpen .. => (execEpochOpen_via ..).mono rfl
  | .shardFetch .. => (execShardFetch_via ..).mono rfl
  | .shardPush .. => (execShardPush_via ..).mono rfl
  | .arrivalCancel .. => (execArrivalCancel_via ..).mono rfl
  | .epochSwitch .. => (execEpochSwitch_via ..).mono rfl
  | .epochRetire .. => (execEpochRetire_via ..).mono rfl
  | .nvmeCompletion .. => (execNvmeCompletion_via ..).mono rfl
  | .nvmeTimeout .. => (execNvmeTimeout_via ..).mono rfl
  | .shardComplete .. => (execShardComplete_via ..).mono rfl
  | .recheck => (execRecheck_via ..).mono rfl
  | .shardRepair .. => (execShardRepair_via ..).mono rfl
  | .linkEnable .. => (execLinkEnable_via ..).mono rfl
  | .retrain .. => (execRetrain_via ..).mono rfl
  | .trainingDone .. => (execTrainingDone_via ..).mono rfl
  | .trainingTimeout .. => (execTrainingTimeout_via ..).mono rfl
  | .failedRetryTimer .. => (execFailedRetryTimer_via ..).mono rfl
  | .dataFlit .. => (execDataFlit_via ..).mono rfl
  | .idleFlit .. => (execIdleFlit_via ..).mono rfl
  | .ctrlFlit .. => (execCtrlFlit_via ..).mono rfl
  | .ackTimeout .. => (execAckTimeout_via ..).mono rfl
  | .retryEpisodeTimeout .. => (execRetryEpisodeTimeout_via ..).mono rfl
  | .sendSlot .. => (execSendSlot_via ..).mono rfl
  | .forwardSlot .. => (execForwardSlot_via ..).mono rfl
  | .mgmtMessage .. => (execMgmtMessage_via ..).mono rfl
  | .laneBlockMessage .. => (execLaneBlockMessage_via ..).mono rfl
  | .checkpointMessage .. => (execCheckpointMessage_via ..).mono rfl
  | .messageAck .. => (execMessageAck_via ..).mono rfl
  | .messageTimeout .. => (execMessageTimeout_via ..).mono rfl
  | .musterFrame .. => (execMusterFrame_via ..).mono rfl
  | .musterHeadTimeout => (execMusterHeadTimeout_via ..).mono rfl
  | .musterTimeout => (execMusterTimeout_via ..).mono rfl
  | .musterFrameSend => (execMusterFrameSend_via ..).mono rfl
  | .ethFrame .. => (execEthFrame_via ..).mono rfl
  | .arpRequest .. => (execArpRequest_via ..).mono rfl
  | .neighbourSolicitation .. => (execNeighbourSolicitation_via ..).mono rfl
  | .echoRequest .. => (execEchoRequest_via ..).mono rfl
  | .rdmaWrite .. => (execRdmaWrite_via ..).mono rfl
  | .rdmaRead .. => (execRdmaRead_via ..).mono rfl
  | .atomic .. => (execAtomic_via ..).mono rfl
  | .rcAck .. => (execRcAck_via ..).mono rfl
  | .rcAckTimeout .. => (execRcAckTimeout_via ..).mono rfl
  | .cmMessage .. => (execCmMessage_via ..).mono rfl
  | .cnp .. => (execCnp_via ..).mono rfl
  | .rateRecovery .. => (execRateRecovery_via ..).mono rfl
  | .ptpSync .. => (execPtpSync_via ..).mono rfl
  | .ptpFollowUp .. => (execPtpFollowUp_via ..).mono rfl
  | .ptpDelayResp .. => (execPtpDelayResp_via ..).mono rfl
  | .ptpHoldover => (execPtpHoldover_via ..).mono rfl
  | .channelOpen .. => (execChannelOpen_via ..).mono rfl
  | .channelClose .. => (execChannelClose_via ..).mono rfl
  | .nop .. => (execNop_via ..).mono rfl
  | .nvmeTargetEntry .. => (execNvmeTargetEntry_via ..).mono rfl
  | .updBegin .. => (execUpdBegin_via ..).mono rfl
  | .updPiece .. => (execUpdPiece_via ..).mono rfl
  | .updStatus .. => (execUpdStatus_via ..).mono rfl
  | .updActivate .. => (execUpdActivate_via ..).mono rfl
  | .updConfirm .. => (execUpdConfirm_via ..).mono rfl
  | .updAbandon .. => (execUpdAbandon_via ..).mono rfl
  | .updRevert .. => (execUpdRevert_via ..).mono rfl
  | .debugRead .. => (execDebugRead_via ..).mono rfl
  | .debugWrite .. => (execDebugWrite_via ..).mono rfl
  | .debugHalt .. => (execDebugHalt_via ..).mono rfl
  | .debugResume .. => (execDebugResume_via ..).mono rfl
  | .chSqTail .. => (execChSqTail_via ..).mono rfl
  | .chTrHead .. => (execChTrHead_via ..).mono rfl
  | .qpError .. => (execQpError_via ..).mono rfl
  | .orphanTimeout .. => (execOrphanTimeout_via ..).mono rfl
  | .collieBlockClose .. => (execCollieBlockClose_via ..).mono rfl
  | .auditSample .. => (execAuditSample_via ..).mono rfl
  | .arbitrationStage1 .. => (execArbitrationStage1_via ..).mono rfl
  | .arbitrationStage3 .. => (execArbitrationStage3_via ..).mono rfl
  | .spareFillDone .. => (execSpareFillDone_via ..).mono rfl
  | .spareSwitchEnd .. => (execSpareSwitchEnd_via ..).mono rfl
  | .rotation .. => (execRotation_via ..).mono rfl
  | .quarantineTestStart .. => (execQuarantineTestStart_via ..).mono rfl
  | .scanTestDone .. => (execScanTestDone_via ..).mono rfl
  | .testOverdue .. => (execTestOverdue_via ..).mono rfl
  | .retire .. => (execRetire_via ..).mono rfl
  | .replayEnable .. => (execReplayEnable_via ..).mono rfl
  | .hkRoundStart .. => (execHkRoundStart_via ..).mono rfl
  | .hkEntryEnd .. => (execHkEntryEnd_via ..).mono rfl
  | .spotRequest .. => (execSpotRequest_via ..).mono rfl
  | .spotReqStart .. => (execSpotReqStart_via ..).mono rfl
  | .hkCalForce .. => (execHkCalForce_via ..).mono rfl
  | .sweepStart .. => (execSweepStart_via ..).mono rfl
  | .sweepEnd .. => (execSweepEnd_via ..).mono rfl
  | .sensorPublishTimeout .. => (execSensorPublishTimeout_via ..).mono rfl
  | .avsComplete .. => (execAvsComplete_via ..).mono rfl
  | .voltageSettled => (execVoltageSettled_via ..).mono rfl
  | .avsTimeout => (execAvsTimeout_via ..).mono rfl
  | .marginInterval .. => (execMarginInterval_via ..).mono rfl
  | .marginEn .. => (execMarginEn_via ..).mono rfl
  | .powerBin => (execPowerBin_via ..).mono rfl
  | .droopTrip die => (execDroopTrip_via die s).mono rfl
  | .droopStretchEnd => (execDroopStretchEnd_via ..).mono rfl
  | .regAlertAssert .. => (execRegAlertAssert_via ..).mono rfl
  | .regAlertRelease => (execRegAlertRelease_via ..).mono rfl
  | .alertHoldEnd => (execAlertHoldEnd_via ..).mono rfl
  | .compDisable .. => (execCompDisable_via ..).mono rfl
  | .thermalTrip .. => (execThermalTrip_via ..).mono rfl
  | .thermalRelease => (execThermalRelease_via ..).mono rfl
  | .pwrOkRise => (execPwrOkRise_via ..).mono rfl
  | .pwrOkFall => (execPwrOkFall_via ..).mono rfl
  | .resetNAssert => (execResetNAssert_via ..).mono rfl
  | .resetRelease => (execResetRelease_via ..).mono rfl
  | .softReset .. => (execSoftReset_via ..).mono rfl
  | .jtagReset => (execJtagReset_via ..).mono rfl
  | .jtagAccess .. => (execJtagAccess_via ..).mono rfl
  | .jtagHalt .. => (execJtagHalt_via ..).mono rfl
  | .jtagResume .. => (execJtagResume_via ..).mono rfl
  | .anchorClear => (execAnchorClear_via ..).mono rfl
  | .tapLeaveReset => (execTapLeaveReset_via ..).mono rfl
  | .attestStart .. => (execAttestStart_via ..).mono rfl
  | .attestDone => (execAttestDone_via ..).mono rfl
  | .msgFlit .. => (execMsgFlit_via ..).mono rfl
  | .ethLinkChange .. => (execEthLinkChange_via ..).mono rfl
  | .hbmTempReport .. => (execHbmTempReport_via ..).mono rfl
  | .droveLoadDone .. => (execDroveLoadDone_via ..).mono rfl
  | .unknownMessageType .. => (execUnknownMessageType_via ..).mono rfl

/-- A step takes at most the command at the front of the queue, and then runs it. -/
theorem step_via {s t : State} (h : step s = .next t) : Via StatePart.every s t := by
  unfold step at h
  split at h
  · cases h
    exact .refl _ s
  · rename_i c r _
    obtain ⟨u, answer, via⟩ := exec_reach c (s.setPending r)
    obtain rfl := Host.Outcome.next.inj (h.symm.trans answer)
    exact .step via rfl ((setPending_via ..).mono rfl)

/-- Settles O3: a step is made of operations that each keep the canonical form (`step_via`). -/
theorem memoryStaysCanonical : Obligations.MemoryStaysCanonical := by
  unfold Obligations.MemoryStaysCanonical
  exact fun _ _ canonical_ stepped => (step_via stepped).wf canonical_

end Sys2Proof.Machine
end

section
/-! SUPPORT. The extents of a pen under writes of other registers, and runs of bytes that the IOD stores in a window (R239, R243, R248). -/

namespace Sys2Proof.Machine

open Sys2Proof Sys2Proof.Claims

/-! ## Registers off the extents -/

/-- The places of a page that lie off the extents of a pen's page. -/
abbrev offExtents (p : Nat) : Prop := p < 16384 ∨ 32768 ≤ p

/-- The fields of the 64 extents lie within their range of places. -/
theorem place_extents {i : Nat} (h : i < 64) : ¬offExtents (place F.EXT0_VALID i) ∧ ¬offExtents (place F.EXT0_PORT i)
    ∧ ¬offExtents (place F.EXT0_START i) ∧ ¬offExtents (place F.EXT1 i) := by
  simp only [place, fkey, F.EXT0_VALID, F.EXT0_PORT, F.EXT0_START, F.EXT1]
  omega

/-- Operations that write off the extents leave those of every pen. -/
theorem OnlyPlaces.extents {s t : State} (h : OnlyPlaces offExtents s t) (p : Nat) : Machine.extents t p = Machine.extents s p := by
  have valid (i : Nat) (hi : i < 64) := h.field (penPg p) _ _ (place_extents hi).1
  have port (i : Nat) (hi : i < 64) := h.field (penPg p) _ _ (place_extents hi).2.1
  have start (i : Nat) (hi : i < 64) := h.field (penPg p) _ _ (place_extents hi).2.2.1
  have size (i : Nat) (hi : i < 64) := h.field (penPg p) _ _ (place_extents hi).2.2.2
  have same : ((List.range 64).filter fun i => rd t (penPg p) F.EXT0_VALID i == 1) =
      (List.range 64).filter fun i => rd s (penPg p) F.EXT0_VALID i == 1 :=
    List.filter_congr fun i hi => by rw [valid i (List.mem_range.mp hi)]
  unfold Machine.extents
  rw [same]
  refine List.map_congr_left fun i hi => ?_
  have small : i < 64 := List.mem_range.mp (List.mem_filter.mp hi).1
  rw [port i small, start i small, size i small]

/-- Named fields change at their places alone. -/
theorem OnlyFields.places {ks : List (Nat × Field × Nat)} {s t : State} (h : OnlyFields ks s t) {here : Nat → Prop}
    (k : ∀ e ∈ ks, here (place e.2.1 e.2.2)) : OnlyPlaces here s t :=
  ⟨fun pg g i away => h pg g i (List.all_eq_true.mpr fun e he => bne_iff_ne.mpr fun same =>
    away (by rw [← fkey_mod pg, ← same, fkey_mod]; exact k e he))⟩

/-- A window reads the same while memory, transfers and extents are the same (R243, R248). -/
theorem winBytes_congr {ps : List StatePart} {s t : State} (h : Via ps s t) (mem : ps.contains .mem = false)
    (short : ps.contains .hbmShort = false) (folds : ps.contains .folds = false) {p : Nat} (same : extents t p = extents s p) (w n : Nat) :
    winBytes t p w n = winBytes s p w n := by
  have flying : t.folds = s.folds := h.piece (p := .folds) folds
  have byte (a : Nat) : iodRead t a = iodRead s a := by
    unfold iodRead
    rw [flying, h.readByte mem short]
  refine List.map_congr_left fun j _ => ?_
  unfold winByte windowByte windowAddr
  simp only [same, byte]

/-! ## Bytes of a window -/

theorem winWrite_onlyBytes (s : State) (p w : Nat) (bs : List Byte) :
    OnlyBytes (fun a => windowOf (extents s p) a 0 ≠ none) s (winWrite s p w bs) := fun x outside =>
  ((cureLines_via ..).readByte rfl rfl x).trans (winPut_onlyBytes s p w bs x outside)

theorem readBytes_iodBytes {s : State} {a : Nat} {bs : List Byte} (hm : ∀ j < bs.length, isMem s (a + j) = true) :
    readBytes (iodBytes s a bs) a bs.length = bs := by
  refine List.ext_getElem (by simp [readBytes]) fun j _ hj => ?_
  simp only [readBytes, List.getElem_map, List.getElem_range, readByte_iodBytes bs s a j hj (hm j hj)]
  exact List.getD_eq_getElem _ _ hj

section
variable {s : State} {p q st len : Nat}

theorem windowByte_of_oneExtent (one : oneExtent s p q st len) {w : Nat} (inside : w < len) :
    windowByte s p w = some (0x800000000 * q + st + w) := by
  obtain ⟨extent, -, -⟩ := one
  have left : 1 ≤ len - w := by omega
  rw [windowByte, windowAddr, extent, findExtent, if_pos inside]
  simp only [if_pos left, Option.some.injEq]
  omega

/-- A window of one extent is a run of device addresses. -/
theorem winPut_of_oneExtent (one : oneExtent s p q st len) {w : Nat} {bs : List Byte} (inside : w + bs.length ≤ len) :
    winPut s p w bs = iodBytes s (0x800000000 * q + st + w) bs := by
  induction bs generalizing s w with
  | nil => rfl
  | cons b bs ih =>
    rw [List.length_cons] at inside
    have here := windowByte_of_oneExtent one (w := w) (by omega)
    have kept (a : Nat) : oneExtent (iodByte s a b) p q st len := by
      rw [oneExtent, (iodByte_via s a b).extents rfl]
      exact one
    rw [winPut, here, iodBytes]
    exact ih (kept _) (by omega)

/-- An extent below the reach of a retired pseudo-channel is memory (R239, R260). -/
theorem isMem_of_oneExtent (one : oneExtent s p q st len) {w : Nat} (inside : w < len) : isMem s (0x800000000 * q + st + w) = true := by
  obtain ⟨-, port, below⟩ := one
  unfold shortPort at below
  have offset : (0x800000000 * q + st + w) % 0x800000000 = st + w := by omega
  unfold isMem
  rw [if_pos (by omega), decide_eq_true_eq, offset]
  split <;> omega

/-- A write into the window stores its run there, and changes no byte beside it. -/
theorem readByte_winWrite (one : oneExtent s p q st len) {w : Nat} {bs : List Byte} (inside : w + bs.length ≤ len) (a : Nat) :
    readByte (winWrite s p w bs) a = readByte (iodBytes s (0x800000000 * q + st + w) bs) a := by
  rw [winWrite, (cureLines_via ..).readByte rfl rfl, winPut_of_oneExtent one inside]

theorem readBytes_winWrite (one : oneExtent s p q st len) {w : Nat} {bs : List Byte} (inside : w + bs.length ≤ len) :
    readBytes (winWrite s p w bs) (0x800000000 * q + st + w) bs.length = bs := by
  have populated : ∀ j < bs.length, isMem s (0x800000000 * q + st + w + j) = true := fun j hj => by
    rw [Nat.add_assoc]
    exact isMem_of_oneExtent one (by omega)
  exact (List.map_congr_left fun j _ => readByte_winWrite one inside _).trans (readBytes_iodBytes populated)

theorem winWrite_run_onlyBytes (one : oneExtent s p q st len) {w : Nat} {bs : List Byte} (inside : w + bs.length ≤ len) :
    OnlyBytes (fun a => 0x800000000 * q + st + w ≤ a ∧ a < 0x800000000 * q + st + w + bs.length) s (winWrite s p w bs) := fun a outside =>
  (readByte_winWrite one inside a).trans (readByte_iodBytes_outside bs s _ outside)

end

end Sys2Proof.Machine
end

section
/-! SUPPORT. RDMA requests to the window of a pen (R239, R243, R346 to R350): how their packets are taken, and what a write can reach. -/

namespace Sys2Proof.Machine

open Sys2Proof Sys2Proof.Claims

/-! ## Packets by the way that they come -/

section
variable {s : State} {q : Nat} {k : Pkt} {g dup : State → State}

/-- Packets are discarded, refused by their ICRC, or taken in order, ahead of the expected PSN, or once more. -/
theorem takePacket_cases {P : State → Prop} (off : P s) (bad : P (bump s ethPg F.ICRC_ERR)) (next : P (g (ceNoted s q k)))
    (ahead : P (nakAhead (ceNoted s q k) q)) (again : P (dup (ceNoted s q k))) : P (takePacket s q k g dup) := by
  unfold takePacket onPacket
  split
  · exact off
  · split
    · exact bad
    · show P (if _ = (getQp (ceNoted s q k) q).epsn then g (ceNoted s q k)
        else if serialNewer 24 _ (getQp (ceNoted s q k) q).epsn then nakAhead (ceNoted s q k) q else dup (ceNoted s q k))
      split
      · exact next
      · split
        · exact ahead
        · exact again

theorem epsn_ceNoted (s : State) (q : Nat) (k : Pkt) : (getQp (ceNoted s q k) q).epsn = (getQp s q).epsn := by
  unfold ceNoted
  split
  · exact epsn_noteCe s q
  · rfl

theorem takePacket_of_connected (up : netUp s = true) (connected : (getQp s q).st = 1) :
    takePacket s q k g dup = if k.icrcBad then bump s ethPg F.ICRC_ERR
      else if k.psn.toNat = (getQp s q).epsn then g (ceNoted s q k)
      else if serialNewer 24 k.psn.toNat (getQp s q).epsn then nakAhead (ceNoted s q k) q else dup (ceNoted s q k) := by
  have here : (!netUp s || (getQp s q).st != 1) = false := by rw [up, connected]; rfl
  rw [takePacket, here, ← epsn_ceNoted s q k]
  rfl

theorem takePacket_next (up : netUp s = true) (connected : (getQp s q).st = 1) (good : k.icrcBad = false)
    (psn : k.psn.toNat = (getQp s q).epsn) : takePacket s q k g dup = g (ceNoted s q k) := by
  rw [takePacket_of_connected up connected, good, if_pos psn]
  rfl

theorem takePacket_ahead (up : netUp s = true) (connected : (getQp s q).st = 1) (good : k.icrcBad = false)
    (psn : k.psn.toNat ≠ (getQp s q).epsn) (newer : serialNewer 24 k.psn.toNat (getQp s q).epsn = true) :
    takePacket s q k g dup = nakAhead (ceNoted s q k) q := by
  rw [takePacket_of_connected up connected, good, if_neg psn, newer]
  rfl

theorem takePacket_again (up : netUp s = true) (connected : (getQp s q).st = 1) (good : k.icrcBad = false)
    (psn : k.psn.toNat ≠ (getQp s q).epsn) (older : serialNewer 24 k.psn.toNat (getQp s q).epsn = false) :
    takePacket s q k g dup = dup (ceNoted s q k) := by
  rw [takePacket_of_connected up connected, good, if_neg psn, older]
  rfl

theorem takePacket_bad (up : netUp s = true) (connected : (getQp s q).st = 1) (bad : k.icrcBad = true) :
    takePacket s q k g dup = bump s ethPg F.ICRC_ERR := by
  rw [takePacket_of_connected up connected, bad]
  rfl

end

theorem ceNoted_of_plain {k : Pkt} (h : k.ce = false) (s : State) (q : Nat) : ceNoted s q k = s := by rw [ceNoted, h]; rfl

theorem ceNoted_pass (s : State) (q : Nat) (k : Pkt) : PacketsPass s (ceNoted s q k) := .ite (noteCe_pass ..) (.refl s)

theorem nakAhead_pass (s : State) (q : Nat) : PacketsPass s (nakAhead s q) :=
  .ite (.refl s) (((PacketsPass.refl s).putQp ..).trans (sendRcAck_pass ..))

theorem movePsn_pass (s : State) (q n : Nat) : PacketsPass s (movePsn s q n) := (PacketsPass.refl s).putQp ..

theorem PacketsPass.places {s t : State} (h : PacketsPass s t) : OnlyPlaces offExtents s t := h.fields.places (by decide)

/-! ## What goes out -/

theorem out_sendRcAck (s : State) (q psn nak : Nat) : (sendRcAck s q psn nak).out = s.out ++ [.ack q psn nak] := by
  have counted : (bump s ethPg F.FRAMES_TX).out = s.out := (bump_via ..).piece (p := .out) rfl
  rw [sendRcAck, emitFrame, emit, State.setOut_out, counted]

theorem getQp_sendRcAck (s : State) (q psn nak k : Nat) : getQp (sendRcAck s q psn nak) k = getQp s k := (sendRcAck_via ..).getQp rfl k

/-! ## A noted CE mark (R350) -/

theorem Qp.notified_of_notified {x : Qp} (h : x.notified = true) : { x with notified := true } = x := by rw [← h]

/-- The CE mark counted, before it is answered. -/
theorem getQp_ceCounted (s : State) (q : Nat) : getQp (bump s ethPg F.ECN_CE_RX) q = getQp s q := (bump_via ..).getQp rfl q

theorem noteCe_eq (s : State) (q : Nat) : noteCe s q = if (getQp s q).notified then bump s ethPg F.ECN_CE_RX
    else emitFrame (bump (putQp (bump s ethPg F.ECN_CE_RX) q { getQp s q with notified := true }) ethPg F.CNP_TX) (.cnp q) := by
  rw [noteCe, getQp_ceCounted]

theorem getQp_noteCe (s : State) (q : Nat) : getQp (noteCe s q) q = { getQp s q with notified := true } := by
  rw [noteCe_eq]
  split
  case isTrue noted => rw [getQp_ceCounted, Qp.notified_of_notified noted]
  case isFalse => rw [(emitFrame_via ..).getQp rfl, (bump_via ..).getQp rfl, getQp_putQp]

theorem out_noteCe (s : State) (q : Nat) : (noteCe s q).out = s.out ++ if (getQp s q).notified then [] else [.cnp q] := by
  have counted (u : State) (f : Field) : (bump u ethPg f).out = u.out := (bump_via ..).piece (p := .out) rfl
  have put (u : State) (x : Qp) : (putQp u q x).out = u.out := rfl
  rw [noteCe_eq]
  split
  · rw [counted, List.append_nil]
  · rw [emitFrame, emit, State.setOut_out, counted, counted, put, counted]

theorem ceRx_noteCe {s : State} (room : rd s ethPg F.ECN_CE_RX < 2 ^ 32 - 2) (q : Nat) :
    rd (noteCe s q) ethPg F.ECN_CE_RX = rd s ethPg F.ECN_CE_RX + 1 := by
  have counted : rd (bump s ethPg F.ECN_CE_RX) ethPg F.ECN_CE_RX = rd s ethPg F.ECN_CE_RX + 1 := rd_bumpI _ _ _ _ _ rfl (by omega)
  have answered (u : State) : OnlyFields [(ethPg, F.CNP_TX, 0), (ethPg, F.FRAMES_TX, 0), (ethPg, F.STATUS_SAT, 0)] u
      (emitFrame (bump u ethPg F.CNP_TX) (.cnp q)) :=
    ((OnlyFields.refl _ u).bumpI ethPg F.CNP_TX 0 1 (by decide) (by decide)).bumpI ethPg F.FRAMES_TX 0 1 (by decide) (by decide)
  rw [noteCe_eq]
  split
  · exact counted
  · rw [answered _ _ _ _ (by decide), ← counted]
    rfl

theorem ceNoted_same (s : State) (q : Nat) (k : Pkt) :
    (getQp (ceNoted s q k) q).pen = (getQp s q).pen ∧ (getQp (ceNoted s q k) q).chan = (getQp s q).chan := by
  unfold ceNoted
  split
  · rw [getQp_noteCe]
    exact ⟨rfl, rfl⟩
  · exact ⟨rfl, rfl⟩

/-! ## A queue pair that fails (R287, R346, R363) -/

/-- The fields that the failure of a queue pair can write: the state of its channel, and of the targets that it serves. -/
def failKeys (s : State) (q : Nat) : List (Nat × Field × Nat) :=
  [(shobPg, F.SHOB_ORPHAN_CNT, 0), (shobPg, F.STATUS_SAT, 0), (penPg (getQp s q).pen, F.CH_STATE_STATE, (getQp s q).chan - 1)]
    ++ ((List.range 64).filter fun k => targetQp s k == some q).map fun k => (wloadPg, F.WL_TARGET_STATE, k)

theorem OnlyFields.via {ks : List (Nat × Field × Nat)} {ps : List StatePart} {r s t : State} (h : OnlyFields ks r s) (k : Via ps s t)
    (hps : ps.contains .regs = false) : OnlyFields ks r t := h.trans fun _ _ _ _ => k.rd hps ..

theorem dropTargets_fields {ks : List (Nat × Field × Nat)} {s : State} {q : Nat}
    (k : ∀ e ∈ ((List.range 64).filter fun t => targetQp s t == some q).map fun t => (wloadPg, F.WL_TARGET_STATE, t), e ∈ ks) :
    OnlyFields ks s (dropTargets s q) := by
  refine forEach_keeps (I := OnlyFields ks s) (fun u t ht hu => ?_) (.refl _ s)
  exact (hu.via (setTargetQp_via ..) rfl).wr wloadPg F.WL_TARGET_STATE t 3 (k _ (List.mem_map_of_mem ht))

theorem orphan_fields {ks : List (Nat × Field × Nat)} (s : State) (p ch : Nat) (state : (penPg p, F.CH_STATE_STATE, ch) ∈ ks)
    (count : (shobPg, F.SHOB_ORPHAN_CNT, 0) ∈ ks) (sat : (shobPg, F.STATUS_SAT, 0) ∈ ks) : OnlyFields ks s (orphan s p ch) := by
  unfold orphan
  split
  · exact ((OnlyFields.refl ks s).wr _ _ _ _ state).bumpI _ _ _ _ count sat
  · exact .refl ks s

theorem qpFail_fields (s : State) (q : Nat) : OnlyFields (failKeys s q) s (qpFail s q) := by
  have put (x : Qp) : OnlyFields (failKeys s q) s (putQp s q x) := (OnlyFields.refl _ s).via (putQp_via ..) rfl
  unfold qpFail
  dsimp only
  split
  · exact .refl _ s
  · split
    · exact (put _).trans (dropTargets_fields fun e he => List.mem_append_right _ he)
    · exact (put _).trans (orphan_fields _ _ _ (by simp [failKeys]) (by simp [failKeys]) (by simp [failKeys]))

theorem st_qpFail (s : State) (q : Nat) : (getQp (qpFail s q) q).st ≠ 1 := by
  unfold qpFail
  dsimp only
  split
  · assumption
  · split
    · rw [(dropTargets_via ..).getQp rfl, getQp_putQp]
      exact Nat.zero_ne_one
    · rw [(orphan_via ..).getQp rfl, getQp_putQp]
      exact Nat.succ_succ_ne_one 0

/-- A request that is turned down is answered with its NAK, and its queue pair fails (R347). -/
theorem nakRequest_answers (s : State) (q psn code : Nat) :
    (nakRequest s q psn code).out = s.out ++ [.ack q psn code] ∧ (getQp (nakRequest s q psn code) q).st ≠ 1 := by
  have failed : (qpFail (sendRcAck s q psn code) q).out = (sendRcAck s q psn code).out := (qpFail_via ..).piece (p := .out) rfl
  exact ⟨by rw [nakRequest, failed, out_sendRcAck], st_qpFail _ q⟩

/-! ## What a write with the key of a window can reach (R239, R347) -/

/-- The fields that a write with the key of a window can change. -/
def windowWriteKeys (s : State) (q : Nat) : List (Nat × Field × Nat) :=
  [(ethPg, F.ICRC_ERR, 0), (ethPg, F.ECN_CE_RX, 0), (ethPg, F.CNP_TX, 0), (ethPg, F.FRAMES_TX, 0), (ethPg, F.STATUS_SAT, 0),
    (shobPg, F.SHOB_ORPHAN_CNT, 0), (shobPg, F.STATUS_SAT, 0), (penPg (getQp s q).pen, F.CH_STATE_STATE, (getQp s q).chan - 1)]
    ++ ((List.range 64).filter fun k => targetQp s k == some q).map fun k => (wloadPg, F.WL_TARGET_STATE, k)

/-- From `s` to `t` nothing changes but what a write with the key of a window, on queue pair `q`, can reach. -/
structure StaysInWindow (q : Nat) (s t : State) : Prop where
  /-- the pieces of that -/
  via : Via [.regs, .mem, .fresh, .care, .weights, .net, .out] s t
  /-- the registers -/
  fields : OnlyFields (windowWriteKeys s q) s t
  /-- the bytes: those of the pen's own extents -/
  bytes : OnlyBytes (fun a => windowOf (extents s (getQp s q).pen) a 0 ≠ none) s t

theorem packetKeys_window (s : State) (q : Nat) : ∀ e ∈ packetKeys, e ∈ windowWriteKeys s q := fun e he =>
  List.mem_append_left _ (by revert he; simp only [packetKeys, List.mem_cons, List.not_mem_nil]; tauto)

theorem PacketsPass.staysInWindow {s t : State} (h : PacketsPass s t) (q : Nat) : StaysInWindow q s t :=
  ⟨h.via.mono rfl, h.fields.mono (packetKeys_window s q), h.via.same.bytes rfl rfl _⟩

namespace StaysInWindow

variable {q : Nat} {s t : State}

theorem pass (h : StaysInWindow q s t) {u : State} (k : PacketsPass t u) : StaysInWindow q s u :=
  ⟨h.via.trans (k.via.mono rfl), h.fields.trans (k.fields.mono (packetKeys_window s q)),
    fun a outside => (k.via.readByte rfl rfl a).trans (h.bytes a outside)⟩

/-- Bytes are stored in the pen's own window. -/
theorem winWrite (h : PacketsPass s t) (w : Nat) (bs : List Byte) : StaysInWindow q s (winWrite t (getQp s q).pen w bs) := by
  have stays := h.staysInWindow q
  have own := winWrite_onlyBytes t (getQp s q).pen w bs
  rw [h.places.extents] at own
  exact ⟨.step (winWrite_via ..) rfl stays.via, stays.fields.via (winWrite_via ..) rfl,
    fun a outside => (own a outside).trans (stays.bytes a outside)⟩

/-- The queue pair fails after packets that leave its pen and its channel. -/
theorem qpFail (h : PacketsPass s t) (pen : (getQp t q).pen = (getQp s q).pen) (chan : (getQp t q).chan = (getQp s q).chan) :
    StaysInWindow q s (qpFail t q) := by
  have stays := h.staysInWindow q
  have weights : t.weights = s.weights := h.via.piece (p := .weights) rfl
  have targets : ∀ k, targetQp t k = targetQp s k := fun k => by rw [targetQp, weights, targetQp]
  have keys : ∀ e ∈ failKeys t q, e ∈ windowWriteKeys s q := fun e he => by
    rw [failKeys, pen, chan] at he
    simp only [targets] at he
    rw [windowWriteKeys]
    rcases List.mem_append.mp he with he | he
    · exact List.mem_append_left _ (by revert he; simp only [List.mem_cons, List.not_mem_nil]; tauto)
    · exact List.mem_append_right _ he
  exact ⟨.step (qpFail_via ..) rfl stays.via, stays.fields.trans ((qpFail_fields t q).mono keys),
    fun a outside => ((qpFail_via ..).readByte rfl rfl a).trans (stays.bytes a outside)⟩

end StaysInWindow

theorem regionWrite_window {r : RdmaReq} (key : r.key = 2) (s : State) (p : Nat) (data : List Byte) :
    regionWrite s p r data = winWrite s p r.addr data := by
  have other : ¬r.key.toNat = 1 := by rw [key]; decide
  rw [regionWrite, if_neg other]

/-- A write in its region, its acknowledgement, and no ring to serve. -/
theorem served_of_quiet {r : RdmaReq} {s : State} (key : r.key = 2) (quiet : s.rung = []) (p n last : Nat) (data : List Byte) :
    serveRings (sendRcAck (regionWrite (movePsn s r.qp n) p r data) r.qp last 0) =
      sendRcAck (winWrite (movePsn s r.qp n) p r.addr data) r.qp last 0 := by
  rw [regionWrite_window key]
  refine serveRings_of_not_rung ?_
  have moved : (movePsn s r.qp n).rung = s.rung := (movePsn_via ..).piece (p := .rung) rfl
  have stored : (winWrite (movePsn s r.qp n) p r.addr data).rung = (movePsn s r.qp n).rung := (winWrite_via ..).piece (p := .rung) rfl
  have sent := (sendRcAck_via (winWrite (movePsn s r.qp n) p r.addr data) r.qp last 0).piece (p := .rung) rfl
  exact sent.trans (stored.trans (moved.trans quiet))

/-- Settles O53: however the packets come, they write in the pen's own extents, or in none, and the queue pair that fails names its own
channel and targets. -/
theorem windowWritesStayInTheWindow : Obligations.WindowWritesStayInTheWindow := by
  unfold Obligations.WindowWritesStayInTheWindow
  intro s r data key quiet
  have noted := ceNoted_pass s r.qp r.pkt
  obtain ⟨pen, chan⟩ := ceNoted_same s r.qp r.pkt
  have still : (ceNoted s r.qp r.pkt).rung = [] := (noted.via.piece (p := .rung) rfl).trans quiet
  suffices stays : ∃ t, exec (.rdmaWrite r data) s = .next t ∧ StaysInWindow r.qp s t by
    obtain ⟨t, answer, via, fields, bytes⟩ := stays
    exact ⟨t, answer, bytes, via.same, fields⟩
  refine ⟨_, rfl, takePacket_cases ((PacketsPass.refl s).staysInWindow _) ?bad ?next ?ahead ?again⟩
  case bad =>
    exact ⟨(bump_via ..).mono rfl,
      (OnlyFields.refl _ s).bumpI ethPg F.ICRC_ERR 0 1 (by simp [windowWriteKeys]) (by simp [windowWriteKeys]),
      (bump_via ..).same.bytes rfl rfl _⟩
  case next =>
    split
    · rw [served_of_quiet key still]
      exact (StaysInWindow.winWrite (noted.trans (movePsn_pass ..)) _ _).pass (sendRcAck_pass ..)
    · exact StaysInWindow.qpFail (noted.trans (sendRcAck_pass ..)) (by rw [getQp_sendRcAck, pen]) (by rw [getQp_sendRcAck, chan])
  case ahead => exact (noted.trans (nakAhead_pass ..)).staysInWindow _
  case again => exact (noted.trans (sendRcAck_pass ..)).staysInWindow _

end Sys2Proof.Machine
end

section
/-! SUPPORT. What RDMA requests to the window of a pen are answered (R243, R346 to R350). -/

namespace Sys2Proof.Machine

open Sys2Proof Sys2Proof.Claims

/-! ## A sequence error, and packets once more (R346) -/

theorem nakAhead_of_naked {s : State} {q : Nat} (h : (getQp s q).naked = true) : nakAhead s q = s := if_pos h

theorem nakAhead_of_not_naked {s : State} {q : Nat} (h : (getQp s q).naked = false) :
    nakAhead s q = sendRcAck (putQp s q { getQp s q with naked := true }) q (getQp s q).epsn nakSequence := by
  rw [nakAhead]
  exact if_neg (by rw [h]; decide)

/-- The requests of a queue pair, whatever they ask. -/
def isRequest (r : RdmaReq) (c : Instr) : Prop := (∃ data, c = Instr.rdmaWrite r data) ∨ c = Instr.rdmaRead r ∨ c = Instr.atomic r.qp r.pkt

/-- Every request is taken by the way that its packets come. -/
theorem exec_of_isRequest {r : RdmaReq} {c : Instr} (h : isRequest r c) (s : State) :
    ∃ g dup, exec c s = .next (takePacket s r.qp r.pkt g dup) := by
  rcases h with ⟨data, rfl⟩ | rfl | rfl
  · exact ⟨_, _, rfl⟩
  · exact ⟨_, _, rfl⟩
  · exact ⟨_, _, rfl⟩

section
variable {s : State} {r : RdmaReq} {c : Instr} (up : netUp s = true) (connected : (getQp s r.qp).st = 1)
include up connected

/-- One NAK answers packets ahead of the expected PSN until some come in order. -/
theorem answers_ahead (good : r.icrcBad = false) (plain : r.ce = false) (psn : r.psn.toNat ≠ (getQp s r.qp).epsn)
    (newer : serialNewer 24 r.psn.toNat (getQp s r.qp).epsn = true) (h : isRequest r c) :
    ((getQp s r.qp).naked = false → Answers c s fun t => t.out = s.out ++ [.ack r.qp (getQp s r.qp).epsn 1]
        ∧ getQp t r.qp = { getQp s r.qp with naked := true } ∧ t.mem = s.mem ∧ Only [.regs, .net, .out] s t)
      ∧ ((getQp s r.qp).naked = true → Answers c s (· = s)) := by
  obtain ⟨g, dup, exec_⟩ := exec_of_isRequest h s
  rw [takePacket_ahead up connected (show r.pkt.icrcBad = false from good) (show r.pkt.psn.toNat ≠ _ from psn) newer,
    ceNoted_of_plain (show r.pkt.ce = false from plain)] at exec_
  refine ⟨fun first => ⟨_, exec_, ?_⟩, fun later => ⟨_, exec_, nakAhead_of_naked later⟩⟩
  have via := (nakAhead_pass s r.qp).via
  rw [nakAhead_of_not_naked first] at via ⊢
  exact ⟨out_sendRcAck .., by rw [getQp_sendRcAck, getQp_putQp], via.piece (p := .mem) rfl, via.same⟩

/-- A request whose ICRC fails is counted and dropped. -/
theorem answers_bad (bad : r.icrcBad = true) (h : isRequest r c) : Answers c s fun t =>
    (rd s ethPg F.ICRC_ERR < 2 ^ 32 - 2 → rd t ethPg F.ICRC_ERR = rd s ethPg F.ICRC_ERR + 1)
      ∧ OnlyIn [] [(ethPg, F.ICRC_ERR, 0), (ethPg, F.STATUS_SAT, 0)] s t := by
  obtain ⟨g, dup, exec_⟩ := exec_of_isRequest h s
  rw [takePacket_bad up connected (show r.pkt.icrcBad = true from bad)] at exec_
  exact ⟨_, exec_, fun room => rd_bumpI _ _ _ _ _ rfl (by omega),
    .of_via (bump_via ..) ((OnlyFields.refl _ s).bumpI ethPg F.ICRC_ERR 0 1 (by decide) (by decide))⟩

end

/-- A write that the device has had before is acknowledged again. -/
theorem answers_again {s : State} {r : RdmaReq} (up : netUp s = true) (connected : (getQp s r.qp).st = 1) (good : r.icrcBad = false)
    (plain : r.ce = false) (psn : r.psn.toNat ≠ (getQp s r.qp).epsn) (older : serialNewer 24 r.psn.toNat (getQp s r.qp).epsn = false)
    (data : List Byte) : Answers (.rdmaWrite r data) s fun t => t.out = s.out ++ [.ack r.qp ((2 ^ 24 - 1 + (getQp s r.qp).epsn) % 2 ^ 24) 0]
      ∧ getQp t r.qp = getQp s r.qp ∧ t.mem = s.mem ∧ Only [.regs, .out] s t := by
  refine ⟨ackAgain s r.qp, ?_, out_sendRcAck .., getQp_sendRcAck .., (sendRcAck_via ..).piece (p := .mem) rfl, (sendRcAck_via ..).same⟩
  show execRdmaWrite r data s = _
  rw [execRdmaWrite, takePacket_again up connected (show r.pkt.icrcBad = false from good) (show r.pkt.psn.toNat ≠ _ from psn) older,
    ceNoted_of_plain (show r.pkt.ce = false from plain)]

/-! ## Packets in order -/

section
variable {s : State} {r : RdmaReq} (next : nextPacket s r)
include next

theorem exec_rdmaWrite_next (data : List Byte) : exec (.rdmaWrite r data) s = .next
    (if regionOk s (getQp s r.qp).pen r then
      serveRings (sendRcAck (regionWrite (movePsn s r.qp ((getQp s r.qp).packets r.len)) (getQp s r.qp).pen r (dataOf r data)) r.qp
        ((r.psn.toNat + (getQp s r.qp).packets r.len - 1) % 2 ^ 24) 0)
    else nakRequest s r.qp r.psn.toNat nakAccess) := by
  obtain ⟨up, connected, good, plain, psn⟩ := next
  show execRdmaWrite r data s = _
  rw [execRdmaWrite, takePacket_next up connected (show r.pkt.icrcBad = false from good) (show r.pkt.psn.toNat = _ from psn),
    ceNoted_of_plain (show r.pkt.ce = false from plain)]

theorem exec_rdmaRead_next : exec (.rdmaRead r) s = .next
    (if regionOk s (getQp s r.qp).pen r then
      sendRead (movePsn s r.qp ((getQp s r.qp).packets r.len)) (getQp s r.qp) r
    else nakRequest s r.qp r.psn.toNat nakAccess) := by
  obtain ⟨up, connected, good, plain, psn⟩ := next
  show execRdmaRead r s = _
  rw [execRdmaRead, takePacket_next up connected (show r.pkt.icrcBad = false from good) (show r.pkt.psn.toNat = _ from psn),
    ceNoted_of_plain (show r.pkt.ce = false from plain)]
  rfl

/-- A request outside the regions of the pen (R347). -/
theorem answers_outside {c : Instr} (outside : regionOk s (getQp s r.qp).pen r = false)
    (h : (∃ data, c = Instr.rdmaWrite r data) ∨ c = Instr.rdmaRead r) : Answers c s fun t =>
      t.out = s.out ++ [.ack r.qp r.psn.toNat 3] ∧ (getQp t r.qp).st ≠ 1 ∧ Only [.regs, .weights, .net, .out] s t := by
  have refused : exec c s = .next (nakRequest s r.qp r.psn.toNat nakAccess) := by
    rcases h with ⟨data, rfl⟩ | rfl
    · rw [exec_rdmaWrite_next next, outside]
      rfl
    · rw [exec_rdmaRead_next next, outside]
      rfl
  obtain ⟨out, failed⟩ := nakRequest_answers s r.qp r.psn.toNat nakAccess
  exact ⟨_, refused, out, failed, (nakRequest_via ..).same⟩

theorem answers_atomic : Answers (.atomic r.qp r.pkt) s fun t =>
    t.out = s.out ++ [.ack r.qp r.psn.toNat 2] ∧ (getQp t r.qp).st ≠ 1 ∧ Only [.regs, .weights, .net, .out] s t := by
  obtain ⟨up, connected, good, plain, psn⟩ := next
  obtain ⟨out, failed⟩ := nakRequest_answers s r.qp r.psn.toNat nakInvalid
  refine ⟨_, ?_, out, failed, (nakRequest_via ..).same⟩
  show execAtomic r.qp r.pkt s = _
  rw [execAtomic, takePacket_next up connected (show r.pkt.icrcBad = false from good) (show r.pkt.psn.toNat = _ from psn),
    ceNoted_of_plain (show r.pkt.ce = false from plain)]
  rfl

end

/-! ## A write in the window (R243, R347) -/

theorem regionOk_window {r : RdmaReq} (key : r.key = 2) (s : State) (p : Nat) : regionOk s p r = inWindow s p r.addr r.len := by
  rw [regionOk, key]
  rfl

theorem dataOf_full {r : RdmaReq} {data : List Byte} (h : data.length = r.len) : dataOf r data = data := by
  rw [dataOf, ← h, List.take_length, Nat.sub_self]
  exact List.append_nil data

theorem inWindow_of_oneExtent {s : State} {p q st len : Nat} (one : oneExtent s p q st len) (w n : Nat) :
    inWindow s p w n = decide (w + n ≤ len) := by
  rw [inWindow, winSize, one.1]
  rfl

theorem epsn_movePsn (s : State) (q n : Nat) : (getQp (movePsn s q n) q).epsn = ((getQp s q).epsn + n) % 2 ^ 24 := by
  rw [movePsn, getQp_putQp]

/-- A write puts its data in the window and is acknowledged. -/
theorem answers_write {s : State} {r : RdmaReq} (next : nextPacket s r) {data : List Byte} {q st len : Nat} (quiet : s.rung = [])
    (key : r.key = 2) (whole : data.length = r.len) (one : oneExtent s (getQp s r.qp).pen q st len) (inside : r.addr + r.len ≤ len) :
    Answers (.rdmaWrite r data) s fun t =>
      readBytes t (0x800000000 * q + st + r.addr) r.len = data
        ∧ (getQp t r.qp).epsn = ((getQp s r.qp).epsn + (getQp s r.qp).packets r.len) % 2 ^ 24
        ∧ t.out = s.out ++ [.ack r.qp ((r.psn.toNat + (getQp s r.qp).packets r.len - 1) % 2 ^ 24) 0]
        ∧ OnlyBytes (fun a => 0x800000000 * q + st + r.addr ≤ a ∧ a < 0x800000000 * q + st + r.addr + r.len) s t
        ∧ Only [.regs, .mem, .fresh, .care, .net, .out] s t := by
  have ok : regionOk s (getQp s r.qp).pen r = true := by
    rw [regionOk_window key, inWindow_of_oneExtent one, decide_eq_true inside]
  have answer := exec_rdmaWrite_next next data
  rw [if_pos ok, dataOf_full whole, served_of_quiet key quiet] at answer
  have moved := movePsn_via s r.qp ((getQp s r.qp).packets r.len)
  have epsn := epsn_movePsn s r.qp ((getQp s r.qp).packets r.len)
  have out : (movePsn s r.qp ((getQp s r.qp).packets r.len)).out = s.out := moved.piece (p := .out) rfl
  generalize movePsn s r.qp ((getQp s r.qp).packets r.len) = m at *
  have one' : oneExtent m (getQp s r.qp).pen q st len := by
    rw [oneExtent, moved.extents rfl]
    exact one
  have fits : r.addr + data.length ≤ len := by rw [whole]; exact inside
  have same := readBytes_winWrite one' fits
  have others := winWrite_run_onlyBytes one' fits
  have stored := winWrite_via m (getQp s r.qp).pen r.addr data
  have kept : (winWrite m (getQp s r.qp).pen r.addr data).out = m.out := stored.piece (p := .out) rfl
  rw [whole] at same others
  refine ⟨_, answer, ?_, ?_, ?_, fun a outside => ?_, ?_⟩
  · exact ((sendRcAck_via ..).readBytes rfl rfl _ _).trans same
  · rw [getQp_sendRcAck, stored.getQp rfl, epsn]
  · rw [out_sendRcAck, kept, out]
  · rw [(sendRcAck_via ..).readByte rfl rfl, others a outside, moved.readByte rfl rfl]
  · exact (Via.step (sendRcAck_via ..) rfl (.step stored rfl (moved.mono rfl)) : Via [.regs, .mem, .fresh, .care, .net, .out] s _).same

/-! ## A read of the window (R243, R350) -/

/-- A read sends the bytes that the window has held since before its packets came. -/
theorem sendRead_answers {r : RdmaReq} (key : r.key = 2) {s u : State} (pass : PacketsPass s u) (x : Qp) :
    (sendRead u x r).out = u.out ++ [.readData r.qp r.psn.toNat (winBytes s x.pen r.addr r.len)] ∧ PacketsPass u (sendRead u x r)
      ∧ getQp (sendRead u x r) r.qp = getQp u r.qp := by
  have other : ¬r.key.toNat = 1 := by rw [key]; decide
  have read : regionRead u x.pen r = (winBytes s x.pen r.addr r.len, u) := by
    rw [regionRead, if_neg other, winBytes_congr pass.via rfl rfl rfl (pass.places.extents _)]
  have counted := bump_via u ethPg F.FRAMES_TX (x.packets r.len)
  have out : (bump u ethPg F.FRAMES_TX (x.packets r.len)).out = u.out := counted.piece (p := .out) rfl
  have sent : sendRead u x r = emit (bump u ethPg F.FRAMES_TX (x.packets r.len)) (.readData r.qp r.psn.toNat (winBytes s x.pen r.addr r.len)) := by
    rw [sendRead, read]
  rw [sent]
  exact ⟨by rw [emit, State.setOut_out, out], ((PacketsPass.refl u).bump (by decide) _).emit _,
    ((emit_via ..).getQp rfl _).trans (counted.getQp rfl _)⟩

section
variable {s : State} {r : RdmaReq} (next : nextPacket s r) (key : r.key = 2) (inside : inWindow s (getQp s r.qp).pen r.addr r.len = true)
include next key inside

theorem answers_read : Answers (.rdmaRead r) s fun t =>
    t.out = s.out ++ [.readData r.qp r.psn.toNat (winBytes s (getQp s r.qp).pen r.addr r.len)]
      ∧ (getQp t r.qp).epsn = ((getQp s r.qp).epsn + (getQp s r.qp).packets r.len) % 2 ^ 24 ∧ Only [.regs, .net, .out] s t := by
  have answer := exec_rdmaRead_next next
  rw [regionOk_window key, if_pos inside] at answer
  have moved := movePsn_pass s r.qp ((getQp s r.qp).packets r.len)
  have out : (movePsn s r.qp ((getQp s r.qp).packets r.len)).out = s.out := (movePsn_via ..).piece (p := .out) rfl
  obtain ⟨sent, pass, qp⟩ := sendRead_answers key moved (getQp s r.qp)
  exact ⟨_, answer, by rw [sent, out], by rw [qp, epsn_movePsn], (moved.trans pass).via.same⟩

/-- A read that is CE-marked: the mark is counted and answered before the read is (R350). -/
theorem answers_readMarked : Answers (.rdmaRead { r with ce := true }) s fun t =>
    t.out = s.out ++ (if (getQp s r.qp).notified then [] else [.cnp r.qp])
        ++ [.readData r.qp r.psn.toNat (winBytes s (getQp s r.qp).pen r.addr r.len)]
      ∧ (getQp t r.qp).notified = true
      ∧ (rd s ethPg F.ECN_CE_RX < 2 ^ 32 - 2 → rd t ethPg F.ECN_CE_RX = rd s ethPg F.ECN_CE_RX + 1) ∧ Only [.regs, .net, .out] s t := by
  obtain ⟨up, connected, good, -, psn⟩ := next
  have noted := noteCe_pass s r.qp
  have moved := movePsn_pass (noteCe s r.qp) r.qp ((getQp s r.qp).packets r.len)
  have out : (movePsn (noteCe s r.qp) r.qp ((getQp s r.qp).packets r.len)).out = (noteCe s r.qp).out := (movePsn_via ..).piece (p := .out) rfl
  have ok : regionOk (noteCe s r.qp) (getQp s r.qp).pen { r with ce := true } = true := by
    rw [regionOk_window (r := { r with ce := true }) key, inWindow, winSize, noted.places.extents]
    exact inside
  obtain ⟨sent, pass, qp⟩ := sendRead_answers (r := { r with ce := true }) key (noted.trans moved) (getQp s r.qp)
  have frames : OnlyFields [(ethPg, F.FRAMES_TX, 0), (ethPg, F.STATUS_SAT, 0)] (noteCe s r.qp)
      (sendRead (movePsn (noteCe s r.qp) r.qp ((getQp s r.qp).packets r.len)) (getQp s r.qp) { r with ce := true }) := by
    have other : ¬r.key.toNat = 1 := by rw [key]; decide
    rw [sendRead, regionRead, if_neg other]
    exact (((OnlyFields.refl _ _).via (movePsn_via ..) rfl).bumpI ethPg F.FRAMES_TX 0 _ (by decide) (by decide)).via (emit_via ..) rfl
  refine ⟨sendRead (movePsn (noteCe s r.qp) r.qp ((getQp s r.qp).packets r.len)) (getQp s r.qp) { r with ce := true }, ?_, ?_, ?_,
    fun room => ?_, ((noted.trans moved).trans pass).via.same⟩
  · show execRdmaRead { r with ce := true } s = _
    rw [execRdmaRead, takePacket_next up connected (show RdmaReq.icrcBad _ = false from good) (show BitVec.toNat _ = _ from psn)]
    show Host.Outcome.next (if regionOk (noteCe s r.qp) (getQp s r.qp).pen { r with ce := true } then _ else _) = _
    rw [ok]
    rfl
  · rw [sent, out, out_noteCe]
  · rw [qp, movePsn, getQp_putQp, getQp_noteCe]
  · rw [frames _ _ _ (by decide), ceRx_noteCe room]

end

/-- Settles O52: each request by the way that its packets come, and in order by its region. -/
theorem rdmaRequestsReachTheWindow : Obligations.RdmaRequestsReachTheWindow := by
  unfold Obligations.RdmaRequestsReachTheWindow
  refine ⟨fun s r next => ⟨?write, answers_read next, ?outside, answers_atomic next, ?ahead, ?again, answers_readMarked next⟩, ?bad⟩
  case write => exact fun data q st len quiet key whole one inside => answers_write next quiet key whole one inside
  case outside => exact fun outside c h => answers_outside next outside h
  case ahead =>
    obtain ⟨up, connected, good, plain, -⟩ := next
    exact fun psn far newer c h => answers_ahead (r := { r with psn := psn }) up connected good plain far newer h
  case again =>
    obtain ⟨up, connected, good, plain, -⟩ := next
    exact fun psn data far older => answers_again (r := { r with psn := psn }) up connected good plain far older data
  case bad =>
    intro s r up connected bad c h
    exact answers_bad up connected bad (h.imp id .inl)

end Sys2Proof.Machine
end

section
/-! SUPPORT. What an operation writes on one register page: operations that write on several pages, seen from one of them (R258, R259). -/

namespace Sys2Proof.Machine

open Sys2Proof

/-! ## One page -/

/-- From `s` to `t` no register field of page `pg` changes but those at the places `here`. -/
structure PageOnly (pg : Nat) (here : Nat → Prop) (s t : State) : Prop where
  /-- a field of the page at another place keeps its value -/
  field : ∀ f i, fkey 0 f i < 131072 → ¬here (place f i) → rd t pg f i = rd s pg f i

namespace PageOnly

variable {pg : Nat} {here : Nat → Prop} {r s t : State}

theorem refl (pg : Nat) (here : Nat → Prop) (s : State) : PageOnly pg here s s := ⟨fun _ _ _ _ => rfl⟩

theorem trans (h : PageOnly pg here r s) (k : PageOnly pg here s t) : PageOnly pg here r t :=
  ⟨fun f i inside away => (k.field f i inside away).trans (h.field f i inside away)⟩

theorem mono {there : Nat → Prop} (h : PageOnly pg there s t) (k : ∀ p, there p → here p) : PageOnly pg here s t :=
  ⟨fun f i inside away => h.field f i inside fun hp => away (k _ hp)⟩

theorem of_places (h : OnlyPlaces here s t) : PageOnly pg here s t := ⟨fun f i _ away => h.field pg f i away⟩

theorem of_via {ps : List StatePart} (h : Via ps s t) (hps : ps.contains .regs = false) : PageOnly pg here s t := ⟨fun _ _ _ _ => h.rd hps ..⟩

theorem via {ps : List StatePart} (h : PageOnly pg here r s) (k : Via ps s t) (hps : ps.contains .regs = false) : PageOnly pg here r t :=
  h.trans (.of_via k hps)

theorem ite {a b : State} {c : Prop} [Decidable c] (h : PageOnly pg here r a) (k : PageOnly pg here r b) :
    PageOnly pg here r (if c then a else b) := by
  split
  · exact h
  · exact k

/-- A write on another page, or at one of the places. -/
theorem wr (h : PageOnly pg here r s) {qg : Nat} {f : Field} {i : Nat} (inPage : fkey 0 f i < 131072) (ok : qg ≠ pg ∨ here (place f i))
    (v : Nat) : PageOnly pg here r (wr s qg f i v) := by
  refine h.trans ⟨fun g j inside away => rd_wr_ne _ _ _ _ _ _ _ _ (fkey_ne inPage inside ?_)⟩
  exact ok.imp id fun at_ same => away (same ▸ at_)

theorem bump (h : PageOnly pg here r s) {qg : Nat} {f : Field} (inPage : fkey 0 f 0 < 131072)
    (ok : qg ≠ pg ∨ here (place f 0) ∧ here (place F.STATUS_SAT 0)) (n : Nat) : PageOnly pg here r (bump s qg f n) := by
  unfold Machine.bump bumpI
  exact .ite (h.wr inPage (ok.imp id And.left) _) ((h.wr inPage (ok.imp id And.left) _).wr (by decide) (ok.imp id And.right) _)

end PageOnly

/-- A counter below its bound counts; a later operation that does not write it leaves it so. -/
theorem rd_bump {f : Field} (hw : f.width = 32) {s : State} {pg : Nat} (room : rd s pg f < 2 ^ 32 - 2) :
    rd (bump s pg f) pg f = rd s pg f + 1 := rd_bumpI s pg f 0 1 hw (by omega)

theorem PageOnly.count {pg : Nat} {here : Nat → Prop} {s t : State} {f : Field} (h : PageOnly pg here (Machine.bump s pg f) t)
    (inPage : fkey 0 f 0 < 131072) (away : ¬here (place f 0)) (hw : f.width = 32) (room : rd s pg f < 2 ^ 32 - 2) :
    rd t pg f = rd s pg f + 1 := (h.field f 0 inPage away).trans (rd_bump hw room)

/-! ## Events, the log and the tally's counters -/

theorem errEvent_allPlaces (s : State) (pg b : Nat) : OnlyPlaces (placesOf ((F.ERR_SUM, 0) :: eventFields)) s (errEvent s pg b) :=
  ((OnlyPlaces.refl _ s).wrBit (by decide) ..).trans ((errEvent_places s pg b).mono fun _ => .tail _)

/-- On its own page an entry of the log leaves a mark that is no more than a count (R480). -/
theorem logWrite_page {pg : Nat} (h : logPg ≠ pg) (s : State) (qg ev pen : Nat) (fs : List LogField) :
    PageOnly pg (placesOf [(F.EVT_LOG, 0), (F.STATUS_SAT, 0)]) s (logWrite s qg ev pen fs) := by
  unfold logWrite
  generalize 32768 = z
  refine .bump (.wr (f := F.LOG_INDEX) (i := 0) ?_ (by decide) (.inl h) _) (by decide) (.inr ⟨by decide, by decide⟩) _
  have counted : PageOnly pg (placesOf [(F.EVT_LOG, 0), (F.STATUS_SAT, 0)]) s
      (if s.views.full ∧ (2 ^ 33 - z + rd s logPg F.LOG_INDEX - rd s logPg F.LOG_READ) % 2 ^ 32 < 2 ^ 31 then bump s logPg F.LOG_OVERRUN
        else s) := .ite ((PageOnly.refl pg _ s).bump (by decide) (.inl h) _) (.refl pg _ s)
  exact .ite (.via (counted.via (setLog_via ..) rfl) (setViews_via ..) rfl) (counted.via (setLog_via ..) rfl)

theorem raiseHold_page {pg : Nat} (h : tallyPg ≠ pg) (here : Nat → Prop) (s : State) (q : Nat) : PageOnly pg here s (raiseHold s q) := by
  have counted (u : State) (f : Field) (inPage : fkey 0 f 0 < 131072) : PageOnly pg here u (bump u tallyPg f) :=
    (PageOnly.refl pg here u).bump inPage (.inl h) 1
  exact .ite (.refl pg _ s) (.ite (counted s F.HOLD_LATE (by decide))
    (.trans (.of_via (setTally_via ..) rfl) (counted _ F.HOLD_RAISED (by decide))))

end Sys2Proof.Machine
end

section
/-! SUPPORT. Lines in error and their counters (R252, R257, R258, R262), and the request to retire a pseudo-channel (R259, R260). -/

namespace Sys2Proof.Machine

open Sys2Proof Sys2Proof.Claims

/-! ## Where a line lies (R239, R257) -/

/-- The page and the counters of a line: those of a staging slice or of a stack. -/
inductive LinePlace (a : Nat) : Nat → Field → Field → Prop
  | staging {f : Nat} (fold : stagingFold a = some f) (stack : hbmStack a = none) (slice : f < 68) :
      LinePlace a (foldPg f) F.STG_CE_CNT F.STG_UE_CNT
  | hbm {k : Nat} (fold : stagingFold a = none) (stack : hbmStack a = some k) (eight : k < 8) : LinePlace a (hbmPg k) F.HBM_CE_CNT F.HBM_UE_CNT

theorem stagingFold_some {a f : Nat} (h : stagingFold a = some f) : f < 68 ∧ hbmStack a = none := by
  unfold stagingFold at h
  split at h
  · rename_i within
    cases h
    exact ⟨by omega, if_neg (by omega)⟩
  · cases h

theorem hbmStack_some {a k : Nat} (h : hbmStack a = some k) : k < 8 ∧ k = a / 0x800000000 / 4 ∧ a < 0x10000000000 := by
  unfold hbmStack at h
  split at h
  · cases h
    exact ⟨by omega, rfl, by assumption⟩
  · cases h

theorem linePlace_of_counters {a pg : Nat} {ce ue : Field} (h : lineCounters a = some (pg, ce, ue)) : LinePlace a pg ce ue := by
  unfold lineCounters at h
  split at h
  · rename_i f _ fold
    cases h
    exact .staging fold (stagingFold_some fold).2 (stagingFold_some fold).1
  · rename_i k fold stack
    cases h
    exact .hbm fold stack (hbmStack_some stack).1
  · cases h

namespace LinePlace

variable {a pg : Nat} {ce ue : Field}

theorem page (h : LinePlace a pg ce ue) : 18 ≤ pg ∧ pg < 94 := by
  cases h
  all_goals
    simp only [foldPg, hbmPg]
    omega

theorem inPage (h : LinePlace a pg ce ue) : fkey 0 ce 0 < 131072 ∧ fkey 0 ue 0 < 131072 := by cases h <;> decide

theorem width (h : LinePlace a pg ce ue) : ce.width = 32 ∧ ue.width = 32 := by cases h <;> decide

end LinePlace

theorem regionCode_ne_zero (s : State) (p w : Nat) : regionCode s p w ≠ 0 := by
  unfold regionCode
  split_ifs <;> decide

/-- The log names staging lines alone by region 0 (R492). -/
theorem errorRegion_of_hbm {a : Nat} (h : stagingFold a = none) (s : State) : errorRegion s a ≠ 0 := by
  rw [errorRegion, h]
  show lineRegion s a ≠ 0
  unfold lineRegion
  split
  · exact regionCode_ne_zero s _ _
  · decide

theorem errorRegion_of_staging {a f : Nat} (h : stagingFold a = some f) (s : State) : errorRegion s a = 0 := by rw [errorRegion, h]; rfl

/-! ## The request to retire (R259, R260) -/

/-- The fields of a stack's page that a request to retire can write, beside the log's count. -/
def retireFields : List (Field × Nat) :=
  [(F.HBM_RETIRE_STATE_STATE, 0), (F.HBM_RETIRE_STATE_PC, 0), (F.ERR_SUM, 0), (F.EVT_LOG, 0)] ++ eventFields

theorem retireState_places (s : State) (stack st pc : Nat) :
    OnlyPlaces (placesOf [(F.HBM_RETIRE_STATE_STATE, 0), (F.HBM_RETIRE_STATE_PC, 0)]) s (retireState s stack st pc) :=
  ((OnlyPlaces.refl _ s).wr0 (by decide) ..).wr0 (by decide) ..

theorem retireState_onlyIn (s : State) (stack st pc : Nat) :
    OnlyIn [] [(hbmPg stack, F.HBM_RETIRE_STATE_STATE, 0), (hbmPg stack, F.HBM_RETIRE_STATE_PC, 0)] s (retireState s stack st pc) :=
  .of_via (retireState_via ..) (((OnlyFields.refl _ s).wr _ _ _ _ (by simp)).wr _ _ _ _ (by simp))

theorem state_retireState (s : State) (stack st pc : Nat) : rd (retireState s stack st pc) (hbmPg stack) F.HBM_RETIRE_STATE_STATE = st % 4 := by
  have kept := ((OnlyPlaces.refl (placesOf [(F.HBM_RETIRE_STATE_PC, 0)]) (wr0 s (hbmPg stack) F.HBM_RETIRE_STATE_STATE st)).wr0
    (f := F.HBM_RETIRE_STATE_PC) (by decide) (hbmPg stack) pc).field (hbmPg stack) F.HBM_RETIRE_STATE_STATE 0 (by decide)
  exact kept.trans (rd_wr0 ..)

theorem pc_retireState (s : State) (stack st pc : Nat) : rd (retireState s stack st pc) (hbmPg stack) F.HBM_RETIRE_STATE_PC = pc % 64 :=
  rd_wr0 ..

/-- A retirement that an extent or an earlier one blocks (R260). -/
def retireBlocked (s : State) (stack pc : Nat) : State :=
  logWrite (errEvent (retireState s stack 3 pc) (hbmPg stack) 3) (hbmPg stack) 0x31 0xFF [(32, pc)]

theorem startRetire_eq (s : State) (stack pc : Nat) : startRetire s stack pc =
    if rd s (hbmPg stack) F.HBM_RETIRE_STATE_STATE = 1 ∨ rd s (hbmPg stack) F.HBM_RETIRE_STATE_STATE = 2
        ∨ rdBit s (hbmPg stack) F.HBM_RETIRED (pc / 32) (pc % 32) then s
    else if reachesTop s (portOfPc stack pc) ∨ bit s.hbmShort (portOfPc stack pc) then retireBlocked s stack pc
    else retireState s stack 1 pc := rfl

/-- A blocked retirement shows its state, whatever its event and its entry in the log write. -/
theorem retireBlocked_places (s : State) (stack pc : Nat) : OnlyPlaces (placesOf ((F.ERR_SUM, 0) :: eventFields ++ logFields))
    (retireState s stack 3 pc) (retireBlocked s stack pc) :=
  ((errEvent_allPlaces ..).mono fun _ hp => (by simp only [placesOf, List.map_append] at hp ⊢; exact List.mem_append_left _ hp)).trans
    ((logWrite_places ..).mono fun _ hp => (by simp only [placesOf, List.map_append] at hp ⊢; exact List.mem_append_right _ hp))

theorem errSum_retireBlocked (s : State) (stack pc : Nat) : bit (rd (retireBlocked s stack pc) (hbmPg stack) F.ERR_SUM) 3 = true := by
  rw [retireBlocked, (logWrite_places ..).field _ _ _ (by decide)]
  exact errSum_errEvent (by decide) ..

theorem startRetire_page {pg : Nat} (h : pg < 94) (s : State) (stack pc : Nat) :
    PageOnly pg (placesOf retireFields) s (startRetire s stack pc) := by
  have log : logPg ≠ pg := by unfold logPg; omega
  have shown (st : Nat) : PageOnly pg (placesOf retireFields) s (retireState s stack st pc) :=
    .of_places ((retireState_places ..).mono (by decide))
  have event (u : State) : PageOnly pg (placesOf retireFields) u (errEvent u (hbmPg stack) 3) :=
    .of_places ((errEvent_allPlaces ..).mono (by decide))
  rw [startRetire_eq]
  exact .ite (.refl pg _ s) (.ite (((shown 3).trans (event _)).trans ((logWrite_page log ..).mono (by decide))) (shown 1))

theorem countCe_page {pg : Nat} (h : pg < 94) (s : State) (a : Nat) : PageOnly pg (placesOf retireFields) s (countCe s a) :=
  .ite (.trans (.of_via (setCare_via ..) rfl) (startRetire_page h ..)) (.of_via (setCare_via ..) rfl)

theorem countUe_page {pg : Nat} (h : pg < 94) (s : State) (a : Nat) : PageOnly pg (placesOf retireFields) s (countUe s a) :=
  .ite (startRetire_page h ..) (.of_via (setCare_via ..) rfl)

/-! ## A corrected line (R257) -/

/-- The fields of a line's page that the patrol can write beside the counters of lines. -/
def passFieldsOfLine : List (Field × Nat) := [(F.STG_SCRUB_PASSES, 0), (F.HBM_SCRUB_PASSES, 0), (F.STATUS_SAT, 0)]

theorem passDone_places (s : State) (a : Nat) : OnlyPlaces (placesOf passFieldsOfLine) s (passDone s a) := by
  unfold passDone
  split
  · exact .ite ((OnlyPlaces.refl _ s).bump (by decide) (by decide) ..) (.refl _ s)
  · exact .ite ((OnlyPlaces.refl _ s).bump (by decide) (by decide) ..) (.refl _ s)
  · exact .refl _ s

/-- The state with a corrected line counted, and its pseudo-channel held to its limit. -/
def lineCorrected (s : State) (pg : Nat) (ce : Field) (a : Nat) : State :=
  if (hbmStack a).isSome then countCe (bump s pg ce) a else bump s pg ce

theorem lineCorrected_via (s : State) (pg : Nat) (ce : Field) (a : Nat) : Via [.regs, .views, .log, .care] s (lineCorrected s pg ce a) :=
  .ite (.step (countCe_via ..) rfl ((bump_via ..).mono rfl)) ((bump_via ..).mono rfl)

theorem lineCorrected_page {pg : Nat} (h : pg < 94) (s : State) (ce : Field) (a : Nat) :
    PageOnly pg (placesOf retireFields) (bump s pg ce) (lineCorrected s pg ce a) := .ite (countCe_page h ..) (.refl pg _ _)

/-- What the patrol makes of a line by its symbols in error. -/
theorem lineError_patrol {e : LineErr} {pg : Nat} {ce ue : Field} (h : lineCounters e.addr = some (pg, ce, ue)) (s : State) :
    lineError s none e = if e.syms = 0 ∨ 6 < e.syms then s else if e.syms ≤ 2 then lineCorrected s pg ce e.addr else lineLost s pg ue e := by
  rw [lineError, h]
  rfl

/-! ## A lost line (R258) -/

/-- The state with a lost line counted. -/
def lossCounted (s : State) (pg : Nat) (ue : Field) (a : Nat) : State := bump (if (hbmStack a).isSome then countUe s a else s) pg ue

/-- The state in which a page names its lost line. -/
def lossNamed (s : State) (pg region a : Nat) : State :=
  if region = 0 then wr0 s pg F.STG_LAST_UE (a % 0x1000000 / 64) else wrPair s pg F.HBM_LAST_UE_LO F.HBM_LAST_UE_HI a

/-- The state in which the data of a lost line is gone, and the line is poisoned. -/
def linePoisoned (s : State) (pg region a : Nat) : State :=
  noteBad (loseData (logWrite s pg 2 0xFF [(32, a), (40, region)]) a) region a

/-- A copy that is to be rewritten holds the ticks. -/
def lineAwaited (s : State) (region a : Nat) : State :=
  if region = 1 ∨ region = 2 then holdForLine (if region = 1 then damageShards s a else s) else if region = 1 then damageShards s a else s

theorem lineLost_eq (s : State) (pg : Nat) (ue : Field) (e : LineErr) : lineLost s pg ue e =
    lineAwaited (linePoisoned (errEvent (lossNamed (lossCounted s pg ue e.addr) pg (errorRegion s e.addr) e.addr) pg 1) pg
      (errorRegion s e.addr) e.addr) (errorRegion s e.addr) e.addr := rfl

section
variable {pg : Nat} (page : 18 ≤ pg ∧ pg < 94)
include page

theorem damageShards_page (here : Nat → Prop) (s : State) (a : Nat) : PageOnly pg here s (damageShards s a) := by
  unfold damageShards
  split
  · exact .refl pg _ s
  · rename_i p w found
    have pen : penPg p ≠ pg := by
      obtain ⟨q, hq, hit⟩ := List.exists_of_findSome?_eq_some found
      obtain ⟨v, -, same⟩ := Option.map_eq_some_iff.mp hit
      have small := List.mem_range.mp hq
      have : q = p := congrArg Prod.fst same
      unfold penPg
      omega
    refine forEach_keeps (I := PageOnly pg here s) (fun u k hk hu => .ite ?_ hu) (.refl pg _ s)
    refine (hu.via (setWeights_via ..) rfl).wr ?_ (.inl pen) 1
    revert k
    decide

theorem holdForLine_page (here : Nat → Prop) (s : State) : PageOnly pg here s (holdForLine s) :=
  .ite (.trans (.of_via (drawNat_via s) rfl) (raiseHold_page (by unfold tallyPg; omega) ..)) (.refl pg _ s)

theorem lineAwaited_page (here : Nat → Prop) (s : State) (region a : Nat) : PageOnly pg here s (lineAwaited s region a) := by
  have damaged : PageOnly pg here s (if region = 1 then damageShards s a else s) := .ite (damageShards_page page ..) (.refl pg _ s)
  exact .ite (damaged.trans (holdForLine_page page ..)) damaged

/-- After its event a lost line leaves only the log's count on its page. -/
theorem linePoisoned_page (s : State) (region a : Nat) :
    PageOnly pg (placesOf [(F.EVT_LOG, 0), (F.STATUS_SAT, 0)]) s (linePoisoned s pg region a) :=
  .via (.via (logWrite_page (by unfold logPg; omega) ..) (loseData_via ..) rfl) (noteBad_via ..) rfl

end

/-- The state that the patrol leaves after a lost line's event. -/
theorem patrolled_page {pg : Nat} (page : 18 ≤ pg ∧ pg < 94) (s : State) (region a b : Nat) :
    PageOnly pg (placesOf ((F.EVT_LOG, 0) :: passFieldsOfLine)) s (passDone (lineAwaited (linePoisoned s pg region a) region a) b) :=
  .trans (.trans ((linePoisoned_page page ..).mono (by decide)) (lineAwaited_page page ..)) (.of_places ((passDone_places ..).mono (by decide)))

theorem lossNamed_places (s : State) (pg region a : Nat) :
    OnlyPlaces (placesOf [(F.STG_LAST_UE, 0), (F.HBM_LAST_UE_LO, 0), (F.HBM_LAST_UE_HI, 0)]) s (lossNamed s pg region a) :=
  .ite ((OnlyPlaces.refl _ s).wr0 (by decide) ..) (((OnlyPlaces.refl _ s).wr0 (by decide) ..).wr0 (by decide) ..)

/-- The fields of a line's page that its loss can write, beside its counters. -/
def lossFields : List (Field × Nat) :=
  [(F.STG_LAST_UE, 0), (F.HBM_LAST_UE_LO, 0), (F.HBM_LAST_UE_HI, 0), (F.ERR_SUM, 0), (F.EVT_LOG, 0)] ++ eventFields ++ passFieldsOfLine

section
variable {e : LineErr} {pg : Nat} {ce ue : Field} (at_ : LinePlace e.addr pg ce ue) (s : State)
include at_

/-- The state that the patrol leaves of a lost line. -/
theorem lost_page : PageOnly pg (placesOf lossFields) (lossCounted s pg ue e.addr) (passDone (lineLost s pg ue e) e.addr) := by
  rw [lineLost_eq]
  exact .trans (.trans (.of_places ((lossNamed_places ..).mono (by decide))) (.of_places ((errEvent_allPlaces ..).mono (by decide))))
    ((patrolled_page at_.page ..).mono (by decide))

theorem ceCount_lost : rd (passDone (lineLost s pg ue e) e.addr) pg ce = rd s pg ce := by
  have counted : PageOnly pg (placesOf ((ue, 0) :: retireFields)) s (lossCounted s pg ue e.addr) := by
    have noted : PageOnly pg (placesOf ((ue, 0) :: retireFields)) s (if (hbmStack e.addr).isSome then countUe s e.addr else s) :=
      .ite ((countUe_page at_.page.2 ..).mono fun _ hp => .tail _ hp) (.refl pg _ s)
    exact noted.bump at_.inPage.2 (.inr ⟨.head _, List.mem_cons_of_mem _ (by decide)⟩) 1
  have away : ¬placesOf lossFields (place ce 0) ∧ ¬placesOf ((ue, 0) :: retireFields) (place ce 0) := by cases at_ <;> decide
  exact ((lost_page at_ s).field ce 0 at_.inPage.1 away.1).trans (counted.field ce 0 at_.inPage.1 away.2)

theorem ueCount_lost (room : rd s pg ue < 2 ^ 32 - 2) : rd (passDone (lineLost s pg ue e) e.addr) pg ue = rd s pg ue + 1 := by
  have away : ¬placesOf lossFields (place ue 0) ∧ ¬placesOf retireFields (place ue 0) := by cases at_ <;> decide
  have kept : rd (if (hbmStack e.addr).isSome then countUe s e.addr else s) pg ue = rd s pg ue :=
    (PageOnly.ite (countUe_page at_.page.2 ..) (.refl pg _ s)).field ue 0 at_.inPage.2 away.2
  rw [(lost_page at_ s).count at_.inPage.2 away.1 at_.width.2 (by rw [kept]; exact room), kept]

theorem errSum_lost : bit (rd (passDone (lineLost s pg ue e) e.addr) pg F.ERR_SUM) 1 = true := by
  rw [lineLost_eq, (patrolled_page at_.page ..).field _ _ (by decide) (by decide)]
  exact errSum_errEvent (by decide) ..

/-- A lost staging line is named by its number in the slice, and stays poisoned (R258). -/
theorem lost_staging {f : Nat} (fold : stagingFold e.addr = some f) : rd (passDone (lineLost s pg ue e) e.addr) pg F.STG_LAST_UE = e.addr % 0x1000000 / 64
    ∧ (passDone (lineLost s pg ue e) e.addr).care.bad.contains (0, e.addr) = true := by
  have kept (u : State) : rd (errEvent u pg 1) pg F.STG_LAST_UE = rd u pg F.STG_LAST_UE := (errEvent_allPlaces ..).field _ _ _ (by decide)
  have region := errorRegion_of_staging fold s
  rw [lineLost_eq, region]
  refine ⟨?_, ?_⟩
  · rw [(patrolled_page at_.page ..).field _ _ (by decide) (by decide), kept]
    exact (rd_wr0 ..).trans (Nat.mod_eq_of_lt (show _ < 2 ^ 18 by omega))
  · have same (u : State) : (passDone u e.addr).care = u.care := (passDone_via ..).piece (p := .care) rfl
    rw [same]
    show (linePoisoned _ pg 0 e.addr).care.bad.contains (0, e.addr) = true
    unfold linePoisoned noteBad
    rw [if_neg (by decide)]
    split
    · assumption
    · simp

/-- A lost HBM line is named by its address (R258). -/
theorem lost_hbm {k : Nat} (stack : hbmStack e.addr = some k) :
    rdPair (passDone (lineLost s pg ue e) e.addr) pg F.HBM_LAST_UE_LO F.HBM_LAST_UE_HI = e.addr := by
  have fold : stagingFold e.addr = none := by
    cases at_ with
    | staging _ none_ => rw [stack] at none_; cases none_
    | hbm fold => exact fold
  have small := (hbmStack_some stack).2.2
  have kept {u : State} {g : Field} (inPage : fkey 0 g 0 < 131072) (away : ¬placesOf ((F.ERR_SUM, 0) :: eventFields) (place g 0))
      (away' : ¬placesOf ((F.EVT_LOG, 0) :: passFieldsOfLine) (place g 0)) (region : Nat) :
      rd (passDone (lineAwaited (linePoisoned (errEvent u pg 1) pg region e.addr) region e.addr) e.addr) pg g = rd u pg g :=
    ((patrolled_page at_.page ..).field g 0 inPage away').trans ((errEvent_allPlaces ..).field _ _ _ away)
  rw [lineLost_eq, rdPair, kept (by decide) (by decide) (by decide), kept (by decide) (by decide) (by decide), lossNamed,
    if_neg (errorRegion_of_hbm fold s), wrPair, rd_wr0]
  have low (u : State) (v : Nat) : rd (wr0 u pg F.HBM_LAST_UE_HI v) pg F.HBM_LAST_UE_LO = rd u pg F.HBM_LAST_UE_LO :=
    ((OnlyPlaces.refl (placesOf [(F.HBM_LAST_UE_HI, 0)]) u).wr0 (by decide) ..).field _ _ _ (by decide)
  rw [low, rd_wr0]
  show e.addr % 2 ^ 32 + 2 ^ 32 * (e.addr / 2 ^ 32 % 2 ^ 32) = e.addr
  omega

end

/-- Losing a line touches its own 64 bytes. -/
theorem loseData_onlyBytes (s : State) (a : Nat) : OnlyBytes (fun b => a ≤ b ∧ b < a + 64) s (loseData s a) := fun b outside => by
  have length : (freeBytes s 64).1.length = 64 := by simp [freeBytes]
  show readByte (droveBytes (freeBytes s 64).2 a (freeBytes s 64).1) b = readByte s b
  rw [readByte_droveBytes_outside _ _ _ (by rw [length]; exact outside), (freeBytes_via s 64).readByte rfl rfl]

theorem lineLost_onlyBytes (s : State) (pg : Nat) (ue : Field) (e : LineErr) :
    OnlyBytes (fun b => e.addr ≤ b ∧ b < e.addr + 64) s (lineLost s pg ue e) := fun b outside => by
  have awaited (u : State) (region : Nat) : Via [.free, .regs, .tally, .weights] u (lineAwaited u region e.addr) := by
    have damaged : Via [.free, .regs, .tally, .weights] u (if region = 1 then damageShards u e.addr else u) :=
      .ite ((damageShards_via ..).mono rfl) (.refl _ u)
    exact .ite (.step (holdForLine_via ..) rfl damaged) damaged
  have counted : Via [.regs, .views, .log, .care] s (lossCounted s pg ue e.addr) :=
    .step (bump_via ..) rfl (.ite (countUe_via ..) (.refl _ s))
  have named (u : State) (region : Nat) : Via [.regs] u (lossNamed u pg region e.addr) := .ite (wr0_via ..) (wrPair_via ..)
  rw [lineLost_eq, (awaited ..).readByte rfl rfl, linePoisoned, (noteBad_via ..).readByte rfl rfl, loseData_onlyBytes _ _ _ outside,
    (logWrite_via ..).readByte rfl rfl, (errEvent_via ..).readByte rfl rfl, (named ..).readByte rfl rfl, counted.readByte rfl rfl]

end Sys2Proof.Machine
end

section
/-! SUPPORT. The switch of a retired pseudo-channel (R260), and what the commands of HBM lines answer (R252, R257 to R260, R262). -/

namespace Sys2Proof.Machine

open Sys2Proof Sys2Proof.Claims

/-! ## The memory of a port that has lost a pseudo-channel (R239, R260) -/

theorem getD_filter_key {α : Type} (d : α) (keep : Nat → Bool) (m : SMap α) {k : Nat} (h : keep k = true) :
    getD d (m.filter fun e => keep e.1) k = getD d m k := by
  induction m with
  | nil => rfl
  | cons e m ih =>
    obtain ⟨k', v⟩ := e
    rw [List.filter_cons]
    by_cases same : k' = k
    · subst same
      simp [h, getD]
    · split
      · simp only [getD, same, if_false, ih]
      · simp only [getD, same, if_false, ih]

/-- A device address that the retired pseudo-channel of port `q` takes from its port. -/
def lostTop (q a : Nat) : Bool := a / 0x800000000 == q && decide (shortPort ≤ a % 0x800000000)

/-- The state in which port `q` holds 22.5 GiB. -/
def portShortened (s : State) (q : Nat) : State :=
  ((s.setMem (s.mem.filter fun e => !lostTop q e.1)).setFresh (s.fresh.filter fun e => !lostTop q e.1)).setHbmShort (s.hbmShort ||| 2 ^ q)

theorem bit_or_two_pow (x q j : Nat) : bit (x ||| 2 ^ q) j = (bit x j || decide (q = j)) := by
  rw [bit, Nat.testBit_or, Nat.testBit_two_pow, bit]

theorem isMem_portShortened {s : State} {q a : Nat} (keep : lostTop q a = false) : isMem (portShortened s q) a = isMem s a := by
  have short : bit (portShortened s q).hbmShort (a / 0x800000000) = (bit s.hbmShort (a / 0x800000000) || decide (q = a / 0x800000000)) :=
    bit_or_two_pow ..
  by_cases port : q = a / 0x800000000
  · have low : a % 0x800000000 < shortPort := by
      rw [lostTop, ← port, beq_self_eq_true, Bool.true_and, decide_eq_false_iff_not] at keep
      omega
    have inside (b : Bool) : decide (a % 0x800000000 < 0x600000000 - if b then 0x60000000 else 0) = true := by
      unfold shortPort at low
      rw [decide_eq_true_eq]
      split <;> omega
    simp only [isMem, inside]
  · simp only [isMem, short, decide_eq_false port, Bool.or_false]

/-- Below the top that a port loses, memory reads the same. -/
theorem readByte_portShortened {s : State} {q a : Nat} (keep : lostTop q a = false) : readByte (portShortened s q) a = readByte s a := by
  have held : getD emptyByte (portShortened s q).mem a = getD emptyByte s.mem a :=
    getD_filter_key emptyByte (fun a => !lostTop q a) s.mem (by rw [keep]; rfl)
  rw [readByte, isMem_portShortened keep, held, readByte]

/-! ## The switch (R260) -/

/-- The state with a pseudo-channel shown as retired, and its port's capacity lower by 1.5 GiB. -/
def retirementShown (s : State) (stack pc : Nat) : State :=
  wr0 (wrBit s (hbmPg stack) F.HBM_RETIRED (pc / 32) (pc % 32) true) (hbmPg stack) F.HBM_CAP
    (rd (wrBit s (hbmPg stack) F.HBM_RETIRED (pc / 32) (pc % 32) true) (hbmPg stack) F.HBM_CAP - 24)

/-- The state with no flock's page tick counted for the stack's next retirement. -/
def turnsCleared (s : State) (stack : Nat) : State := s.setCare { s.care with turned := putD 0 s.care.turned stack 0 }

theorem turnsCleared_via (s : State) (stack : Nat) : Via [.care] s (turnsCleared s stack) := setCare_via ..

theorem switchRetired_eq (s : State) (stack pc : Nat) : switchRetired s stack pc =
    errEvent (retireState (turnsCleared (retirementShown (portShortened s (portOfPc stack pc)) stack pc) stack) stack 0 pc) (hbmPg stack) 4 := rfl

/-- The fields that the switch writes after the retirement is shown. -/
def switchedFields : List (Field × Nat) :=
  [(F.HBM_RETIRE_STATE_STATE, 0), (F.HBM_RETIRE_STATE_PC, 0), (F.ERR_SUM, 0)] ++ eventFields

theorem switchRetired_places (s : State) (stack pc : Nat) : OnlyPlaces (placesOf switchedFields)
    (retirementShown (portShortened s (portOfPc stack pc)) stack pc) (switchRetired s stack pc) := by
  rw [switchRetired_eq]
  exact .trans (.trans (.via (.refl _ _) (turnsCleared_via ..) rfl) ((retireState_places ..).mono (by decide)))
    ((errEvent_allPlaces ..).mono (by decide))

section
variable (s : State) (stack pc : Nat)

theorem state_switchRetired : rd (switchRetired s stack pc) (hbmPg stack) F.HBM_RETIRE_STATE_STATE = 0 := by
  rw [switchRetired_eq, (errEvent_allPlaces ..).field _ _ _ (by decide), state_retireState]

theorem retired_switchRetired (two : pc / 32 < 2) : rdBit (switchRetired s stack pc) (hbmPg stack) F.HBM_RETIRED (pc / 32) (pc % 32) = true := by
  have away : ∀ i < 2, ¬placesOf ((F.HBM_CAP, 0) :: switchedFields) (place F.HBM_RETIRED i) := by decide
  have capped := (OnlyPlaces.refl (placesOf ((F.HBM_CAP, 0) :: switchedFields))
    (wrBit (portShortened s (portOfPc stack pc)) (hbmPg stack) F.HBM_RETIRED (pc / 32) (pc % 32) true)).wr0 (f := F.HBM_CAP) (by decide) (hbmPg stack)
      (rd (wrBit (portShortened s (portOfPc stack pc)) (hbmPg stack) F.HBM_RETIRED (pc / 32) (pc % 32) true) (hbmPg stack) F.HBM_CAP - 24)
  have kept := (capped.trans ((switchRetired_places s stack pc).mono fun _ => .tail _)).field (hbmPg stack) F.HBM_RETIRED (pc / 32) (away _ two)
  rw [rdBit, kept]
  exact rdBit_wrBit_true (show pc % 32 < 32 from Nat.mod_lt _ (by decide)) ..

theorem cap_switchRetired (two : pc / 32 < 2) (narrow : rd s (hbmPg stack) F.HBM_CAP < 2 ^ 16) :
    rd (switchRetired s stack pc) (hbmPg stack) F.HBM_CAP = rd s (hbmPg stack) F.HBM_CAP - 24 := by
  have away : ∀ i < 2, ¬placesOf [(F.HBM_RETIRED, i)] (place F.HBM_CAP 0) := by decide
  have shown := ((OnlyPlaces.refl (placesOf [(F.HBM_RETIRED, pc / 32)]) (portShortened s (portOfPc stack pc))).wrBit (f := F.HBM_RETIRED)
    (i := pc / 32) (.head _) (hbmPg stack) (pc % 32) true).field (hbmPg stack) F.HBM_CAP 0 (away _ two)
  rw [(switchRetired_places s stack pc).field _ _ _ (by decide), retirementShown, rd_wr0, shown]
  exact Nat.mod_eq_of_lt (show rd s (hbmPg stack) F.HBM_CAP - 24 < 2 ^ 16 by omega)

theorem short_switchRetired : (switchRetired s stack pc).hbmShort = s.hbmShort ||| 2 ^ portOfPc stack pc := by
  rw [switchRetired_eq]
  exact (errEvent_via ..).piece (p := .hbmShort) rfl

theorem switchRetired_onlyBytes : OnlyBytes (fun a => a / 0x800000000 = portOfPc stack pc ∧ shortPort ≤ a % 0x800000000) s (switchRetired s stack pc) := by
  intro a outside
  have keep : lostTop (portOfPc stack pc) a = false := by
    rw [lostTop, Bool.and_eq_false_iff, beq_eq_false_iff_ne, decide_eq_false_iff_not]
    exact Decidable.not_and_iff_not_or_not.mp outside
  have shown (u : State) : Via [.regs, .care] u (errEvent (retireState (turnsCleared (retirementShown u stack pc) stack) stack 0 pc) (hbmPg stack) 4) :=
    .step (errEvent_via ..) rfl (.step (retireState_via ..) rfl (.step (turnsCleared_via ..) rfl (.step (wr0_via ..) rfl ((wrBit_via ..).mono rfl))))
  rw [switchRetired_eq, (shown _).readByte rfl rfl, readByte_portShortened keep]

end

/-! ## The commands -/

/-- What the patrol leaves of a line with its counters on page `pg` (R257, R258, R262). -/
def Patrolled (s : State) (e : LineErr) (pg : Nat) (ce ue : Field) (t : State) : Prop :=
  rd t pg ce = rd s pg ce + (if e.syms = 1 ∨ e.syms = 2 then 1 else 0)
    ∧ rd t pg ue = rd s pg ue + (if 3 ≤ e.syms ∧ e.syms ≤ 6 then 1 else 0)
    ∧ (3 ≤ e.syms → e.syms ≤ 6 → bit (rd t pg F.ERR_SUM) 1 = true
        ∧ (∀ f, stagingFold e.addr = some f → rd t pg F.STG_LAST_UE = e.addr % 0x1000000 / 64 ∧ t.care.bad.contains (0, e.addr) = true)
        ∧ (∀ k, hbmStack e.addr = some k → rdPair t pg F.HBM_LAST_UE_LO F.HBM_LAST_UE_HI = e.addr))
    ∧ (e.syms < 3 ∨ 6 < e.syms → Only [.regs, .views, .log, .care] s t)
    ∧ OnlyBytes (fun a => e.addr ≤ a ∧ a < e.addr + 64) s t

section
variable {s : State} {e : LineErr} {pg : Nat} {ce ue : Field} (at_ : LinePlace e.addr pg ce ue)
include at_

theorem patrolled_clean (clean : e.syms = 0 ∨ 6 < e.syms) : Patrolled s e pg ce ue (passDone s e.addr) := by
  have away : ¬placesOf passFieldsOfLine (place ce 0) ∧ ¬placesOf passFieldsOfLine (place ue 0) := by cases at_ <;> decide
  have via : Via [.regs, .views, .log, .care] s (passDone s e.addr) := (passDone_via ..).mono rfl
  refine ⟨?_, ?_, fun _ _ => absurd clean (by omega), fun _ => via.same, via.same.bytes rfl rfl _⟩
  · rw [(passDone_places ..).field _ _ _ away.1, if_neg (by omega)]
    rfl
  · rw [(passDone_places ..).field _ _ _ away.2, if_neg (by omega)]
    rfl

theorem patrolled_corrected (some_ : 1 ≤ e.syms) (few : e.syms ≤ 2) (room : rd s pg ce < 2 ^ 32 - 2) :
    Patrolled s e pg ce ue (passDone (lineCorrected s pg ce e.addr) e.addr) := by
  have via : Via [.regs, .views, .log, .care] s (passDone (lineCorrected s pg ce e.addr) e.addr) :=
    .step (passDone_via ..) rfl (lineCorrected_via ..)
  have page : PageOnly pg (placesOf (passFieldsOfLine ++ retireFields)) (bump s pg ce) (passDone (lineCorrected s pg ce e.addr) e.addr) :=
    ((lineCorrected_page at_.page.2 s ce e.addr).mono (by decide)).trans (.of_places ((passDone_places ..).mono (by decide)))
  have away : ¬placesOf (passFieldsOfLine ++ retireFields) (place ce 0) ∧ ¬placesOf (passFieldsOfLine ++ retireFields) (place ue 0)
      ∧ ¬placesOf [(ce, 0), (F.STATUS_SAT, 0)] (place ue 0) := by cases at_ <;> decide
  have other : rd (bump s pg ce) pg ue = rd s pg ue :=
    ((OnlyPlaces.refl (placesOf [(ce, 0), (F.STATUS_SAT, 0)]) s).bump (.head _) (.tail _ (.head _)) pg 1).field _ _ _ away.2.2
  refine ⟨?_, ?_, fun le _ => absurd le (by omega), fun _ => via.same, via.same.bytes rfl rfl _⟩
  · rw [page.count at_.inPage.1 away.1 at_.width.1 room, if_pos (by omega)]
  · rw [page.field ue 0 at_.inPage.2 away.2.1, other, if_neg (by omega)]
    rfl

theorem patrolled_lost (many : 3 ≤ e.syms) (most : e.syms ≤ 6) (room : rd s pg ue < 2 ^ 32 - 2) :
    Patrolled s e pg ce ue (passDone (lineLost s pg ue e) e.addr) := by
  refine ⟨?_, ?_, fun _ _ => ⟨errSum_lost at_ s, fun f fold => lost_staging at_ s fold, fun k stack => lost_hbm at_ s stack⟩,
    fun neither => absurd neither (by omega), fun b outside => ?_⟩
  · rw [ceCount_lost at_, if_neg (by omega)]
    rfl
  · rw [ueCount_lost at_ s room, if_pos ⟨many, most⟩]
  · rw [(passDone_via ..).readByte rfl rfl, lineLost_onlyBytes s pg ue e b outside]

end

theorem scrub_answers {s : State} {e : LineErr} {pg : Nat} {ce ue : Field} (line : lineCounters e.addr = some (pg, ce, ue))
    (roomCe : rd s pg ce < 2 ^ 32 - 2) (roomUe : rd s pg ue < 2 ^ 32 - 2) : Answers (.scrub e) s (Patrolled s e pg ce ue) := by
  have at_ := linePlace_of_counters line
  refine ⟨_, rfl, ?_⟩
  rw [lineError_patrol line]
  by_cases clean : e.syms = 0 ∨ 6 < e.syms
  · rw [if_pos clean]
    exact patrolled_clean at_ clean
  · rw [if_neg clean]
    by_cases few : e.syms ≤ 2
    · rw [if_pos few]
      exact patrolled_corrected at_ (by omega) few roomCe
    · rw [if_neg few]
      exact patrolled_lost at_ (by omega) (by omega) roomUe

/-- A report of a stack's temperature is shown, with refresh doubled above 85 °C (R252). -/
theorem hbmTempReport_answers {s : State} (runs : s.boot.romHalt = false) (k : Fin 8) (x : Int) : Answers (.hbmTempReport k x) s fun t =>
    rd t (hbmPg k) F.HBM_TEMP_T = ofSigned x 16 ∧ rd t (hbmPg k) F.HBM_TEMP_DOUBLED = (if 1360 < x then 1 else 0)
      ∧ OnlyIn [] [(hbmPg k, F.HBM_TEMP_T, 0), (hbmPg k, F.HBM_TEMP_DOUBLED, 0)] s t := by
  refine ⟨wr0 (wr0 s (hbmPg k) F.HBM_TEMP_T (ofSigned x 16)) (hbmPg k) F.HBM_TEMP_DOUBLED (b2n (decide (1360 < x))), ?_, ?_, ?_, ?_⟩
  · show execHbmTempReport k x s = _
    rw [execHbmTempReport, if_neg (by rw [runs]; decide)]
  · have shown (u : State) (v : Nat) : rd (wr0 u (hbmPg k) F.HBM_TEMP_DOUBLED v) (hbmPg k) F.HBM_TEMP_T = rd u (hbmPg k) F.HBM_TEMP_T :=
      ((OnlyPlaces.refl (placesOf [(F.HBM_TEMP_DOUBLED, 0)]) u).wr0 (by decide) ..).field _ _ _ (by decide)
    rw [shown, rd_wr0]
    exact Nat.mod_eq_of_lt (ofSigned_lt x 16)
  · rw [rd_wr0]
    by_cases hot : 1360 < x
    · rw [if_pos hot, decide_eq_true hot]
      rfl
    · rw [if_neg hot, decide_eq_false hot]
      rfl
  · exact .of_via (.step (wr0_via ..) rfl (wr0_via ..)) (((OnlyFields.refl _ s).wr _ _ _ _ (by simp)).wr _ _ _ _ (by simp))

/-- A request to retire starts a copy, unless an extent reaches the top of the port (R259, R260). -/
theorem hbmRetireStart_answers {s : State} {src : Source} {k : Fin 8} (sees : seesPage s src (hbmPg k) = true)
    (low : rd s (hbmPg k) F.HBM_RETIRE_REQ_PC < 64) (copying : rd s (hbmPg k) F.HBM_RETIRE_STATE_STATE ≠ 1)
    (waiting : rd s (hbmPg k) F.HBM_RETIRE_STATE_STATE ≠ 2)
    (kept : rdBit s (hbmPg k) F.HBM_RETIRED (rd s (hbmPg k) F.HBM_RETIRE_REQ_PC / 32) (rd s (hbmPg k) F.HBM_RETIRE_REQ_PC % 32) = false) :
    Answers (.hbmRetireStart src k) s fun t =>
      rd t (hbmPg k) F.HBM_RETIRE_STATE_PC = rd s (hbmPg k) F.HBM_RETIRE_REQ_PC
        ∧ (reachesTop s (portOfPc k (rd s (hbmPg k) F.HBM_RETIRE_REQ_PC)) = false →
          bit s.hbmShort (portOfPc k (rd s (hbmPg k) F.HBM_RETIRE_REQ_PC)) = false → rd t (hbmPg k) F.HBM_RETIRE_STATE_STATE = 1
            ∧ OnlyIn [] [(hbmPg k, F.HBM_RETIRE_STATE_STATE, 0), (hbmPg k, F.HBM_RETIRE_STATE_PC, 0)] s t)
        ∧ (reachesTop s (portOfPc k (rd s (hbmPg k) F.HBM_RETIRE_REQ_PC)) = true → rd t (hbmPg k) F.HBM_RETIRE_STATE_STATE = 3
            ∧ bit (rd t (hbmPg k) F.ERR_SUM) 3 = true) := by
  have answer : exec (.hbmRetireStart src k) s = .next (startRetire s k (rd s (hbmPg k) F.HBM_RETIRE_REQ_PC)) := by
    show execHbmRetireStart src k s = _
    rw [execHbmRetireStart, onPage_of_sees sees]
  refine ⟨_, answer, ?_⟩
  generalize rd s (hbmPg k) F.HBM_RETIRE_REQ_PC = pc at *
  rw [startRetire_eq, if_neg (by rw [kept]; simp [copying, waiting])]
  have pcShown (st : Nat) : rd (retireState s k st pc) (hbmPg k) F.HBM_RETIRE_STATE_PC = pc :=
    (pc_retireState ..).trans (Nat.mod_eq_of_lt low)
  split
  case isTrue blocked =>
    have shown := retireBlocked_places s k pc
    refine ⟨?_, fun free whole => absurd blocked (by rw [free, whole]; decide), fun _ => ⟨?_, errSum_retireBlocked ..⟩⟩
    · rw [shown.field _ _ _ (by decide), pcShown]
    · rw [shown.field _ _ _ (by decide), state_retireState]
  case isFalse free =>
    exact ⟨pcShown 1, fun _ _ => ⟨state_retireState .., retireState_onlyIn ..⟩, fun top => absurd (.inl top) free⟩

/-- A copy that ends switches its port, or waits for the page ticks of the flocks that name it (R260). -/
theorem retireCopyDone_answers {s : State} {k : Fin 8} (copying : rd s (hbmPg k) F.HBM_RETIRE_STATE_STATE = 1)
    (low : rd s (hbmPg k) F.HBM_RETIRE_STATE_PC < 64) : Answers (.retireCopyDone k) s fun t =>
      (portActive s (portOfPc k (rd s (hbmPg k) F.HBM_RETIRE_STATE_PC)) = true → rd t (hbmPg k) F.HBM_RETIRE_STATE_STATE = 2
          ∧ OnlyIn [] [(hbmPg k, F.HBM_RETIRE_STATE_STATE, 0), (hbmPg k, F.HBM_RETIRE_STATE_PC, 0)] s t)
        ∧ (portActive s (portOfPc k (rd s (hbmPg k) F.HBM_RETIRE_STATE_PC)) = false → rd t (hbmPg k) F.HBM_RETIRE_STATE_STATE = 0
            ∧ bit t.hbmShort (portOfPc k (rd s (hbmPg k) F.HBM_RETIRE_STATE_PC)) = true
            ∧ rdBit t (hbmPg k) F.HBM_RETIRED (rd s (hbmPg k) F.HBM_RETIRE_STATE_PC / 32) (rd s (hbmPg k) F.HBM_RETIRE_STATE_PC % 32) = true
            ∧ (rd s (hbmPg k) F.HBM_CAP < 2 ^ 16 → rd t (hbmPg k) F.HBM_CAP = rd s (hbmPg k) F.HBM_CAP - 24))
        ∧ OnlyBytes (fun a => a / 0x800000000 = portOfPc k (rd s (hbmPg k) F.HBM_RETIRE_STATE_PC) ∧ shortPort ≤ a % 0x800000000) s t := by
  have answer : exec (.retireCopyDone k) s = .next (if portActive s (portOfPc k (rd s (hbmPg k) F.HBM_RETIRE_STATE_PC)) then
      retireState s k 2 (rd s (hbmPg k) F.HBM_RETIRE_STATE_PC) else switchRetired s k (rd s (hbmPg k) F.HBM_RETIRE_STATE_PC)) := by
    show execRetireCopyDone k s = _
    rw [execRetireCopyDone, if_pos copying]
  have two : rd s (hbmPg k) F.HBM_RETIRE_STATE_PC / 32 < 2 := by omega
  refine ⟨_, answer, ?_⟩
  generalize rd s (hbmPg k) F.HBM_RETIRE_STATE_PC = pc at *
  split
  case isTrue active =>
    rw [active]
    exact ⟨fun _ => ⟨state_retireState .., retireState_onlyIn ..⟩, nofun, (retireState_via ..).same.bytes rfl rfl _⟩
  case isFalse idle =>
    refine ⟨fun active => absurd active idle, fun _ => ⟨state_switchRetired .., ?_, retired_switchRetired s k pc two,
      cap_switchRetired s k pc two⟩, switchRetired_onlyBytes s k pc⟩
    rw [short_switchRetired, bit_or_two_pow, decide_eq_true rfl, Bool.or_true]

/-- Settles O46: the patrol by the page of its line (`LinePlace`), and a retirement by its state and the memory of its port. -/
theorem linesAreScrubbedAndChannelsRetired : Obligations.LinesAreScrubbedAndChannelsRetired := by
  unfold Obligations.LinesAreScrubbedAndChannelsRetired
  refine ⟨fun s e pg ce ue line roomCe roomUe => ?scrub, fun s k x runs => hbmTempReport_answers runs k x, ?start, ?done⟩
  case scrub =>
    exact ((scrub_answers line roomCe roomUe).within (execScrub_via ..)).imp
      fun t ⟨⟨corrected, lost, named, light, bytes⟩, only⟩ => ⟨corrected, lost, named, light, bytes, only⟩
  case start =>
    intro s src k sees pc low copying waiting kept
    exact ((hbmRetireStart_answers sees low copying waiting kept).within (execHbmRetireStart_via ..)).imp
      fun t ⟨⟨named, starts, blocked⟩, only⟩ => ⟨named, starts, blocked, only⟩
  case done =>
    intro s k copying pc q low
    exact ((retireCopyDone_answers copying low).within (ps := [.regs, .mem, .fresh, .hbmShort, .care]) ((execRetireCopyDone_via ..).mono rfl)).imp
      fun t ⟨⟨waits, switches, bytes⟩, only⟩ => ⟨waits, switches, bytes, only⟩

end Sys2Proof.Machine
end

section
/-! SUPPORT. The weight loader's work that leaves the shards that are resident (R271, R276, R285 to R287), and its writes into a window (R243, R273). -/

namespace Sys2Proof.Machine

open Sys2Proof Sys2Proof.Claims

/-! ## What leaves the shards -/

/-- The places of the registers without the status of the last refusal (R287). -/
abbrev offRefusal (here : Nat) : Prop := here ≠ place F.WL_LAST_REFUSE_STATUS 0

/-- From `s` to `t` the loader goes on: reads go out and requests are answered, and the resident shards and the status of the last refusal
stay. -/
structure LoaderGoesOn (s t : State) : Prop where
  /-- the pieces of that -/
  via : Via [.free, .regs, .weights, .net, .out] s t
  /-- the resident shards of every epoch -/
  shards : t.weights.shards = s.weights.shards
  /-- the registers -/
  places : OnlyPlaces offRefusal s t

namespace LoaderGoesOn

variable {r s t : State}

theorem refl (s : State) : LoaderGoesOn s s := ⟨.refl _ s, rfl, .refl _ s⟩

theorem trans (h : LoaderGoesOn r s) (k : LoaderGoesOn s t) : LoaderGoesOn r t :=
  ⟨h.via.trans k.via, k.shards.trans h.shards, h.places.trans k.places⟩

theorem ite {a b : State} {c : Prop} [Decidable c] (h : LoaderGoesOn r a) (k : LoaderGoesOn r b) : LoaderGoesOn r (if c then a else b) := by
  split
  · exact h
  · exact k

/-- An operation on free values, queue pairs, channels and what is sent. -/
theorem aside (h : LoaderGoesOn r s) {ps : List StatePart} (k : Via ps s t) (hps : (ps.all fun p => [.free, .net, .out].contains p) = true) :
    LoaderGoesOn r t := by
  have narrow : Via [.free, .net, .out] s t := k.mono hps
  have weights : t.weights = s.weights := narrow.piece (p := .weights) rfl
  exact h.trans ⟨narrow.mono rfl, by rw [weights], .via (.refl _ s) narrow rfl⟩

/-- The loader's own records change. -/
theorem setWeights (h : LoaderGoesOn r s) {w : Weights} (same : w.shards = s.weights.shards) : LoaderGoesOn r (s.setWeights w) :=
  h.trans ⟨(setWeights_via ..).mono rfl, same, .via (.refl _ s) (setWeights_via ..) rfl⟩

theorem wr (h : LoaderGoesOn r s) {f : Field} {i : Nat} (hf : offRefusal (place f i)) (pg v : Nat) :
    LoaderGoesOn r (wr s pg f i v) := h.trans ⟨(wr_via ..).mono rfl, rfl, OnlyPlaces.wr (here := offRefusal) (.refl _ s) hf pg v⟩

theorem bump (h : LoaderGoesOn r s) {f : Field} (hf : offRefusal (place f 0)) (pg n : Nat) :
    LoaderGoesOn r (bump s pg f n) := by
  have weights : (Machine.bump s pg f n).weights = s.weights := (bump_via ..).piece (p := .weights) rfl
  exact h.trans ⟨(bump_via ..).mono rfl, by rw [weights], OnlyPlaces.bump (here := offRefusal) (.refl _ s) hf (by decide) pg n⟩

theorem epochShards (h : LoaderGoesOn s t) (p k : Nat) : Machine.epochShards t p k = Machine.epochShards s p k := by
  rw [Machine.epochShards, h.shards, Machine.epochShards]

end LoaderGoesOn

theorem post_goesOn (s : State) (q n : Nat) (o : Out) : LoaderGoesOn s (post s q n o) :=
  (((LoaderGoesOn.refl s).aside (putQp_via ..) rfl).bump (by decide) ..).aside (emit_via ..) rfl

theorem sendCmd_goesOn (s : State) (a : Arrival) (c : NvmeCmd) : LoaderGoesOn s (sendCmd s a c) := by
  unfold sendCmd
  split
  · exact .ite (post_goesOn ..) (.refl s)
  · exact .refl s

theorem newCid_goesOn (s : State) : LoaderGoesOn s (newCid s).2 := (LoaderGoesOn.refl s).setWeights rfl

theorem putArrival_goesOn (s : State) (a b : Arrival) : LoaderGoesOn s (putArrival s a b) := (LoaderGoesOn.refl s).setWeights rfl

theorem askNext_goesOn (s : State) (a : Arrival) : LoaderGoesOn s (askNext s a) := by
  unfold askNext
  split
  next v drawn draw =>
    have drawn : LoaderGoesOn s drawn := by
      have h := (LoaderGoesOn.refl s).aside (drawNat_via s) rfl
      rwa [draw] at h
    extract_lets n len
    clear_value n len
    split
    next cid numbered number =>
      have numbered : LoaderGoesOn s numbered := by
        have h := drawn.trans (newCid_goesOn _)
        rwa [number] at h
      exact (numbered.trans (putArrival_goesOn ..)).trans (sendCmd_goesOn ..)

theorem pump_goesOn (fuel t : Nat) (s : State) : LoaderGoesOn s (pump s t fuel) := by
  induction fuel generalizing s with
  | zero => exact .refl s
  | succ fuel ih =>
    unfold pump
    split
    · exact .refl s
    · split
      · exact (askNext_goesOn ..).trans (ih _)
      · exact .refl s

/-- The commands outstanding at each target are shown beside the last refusal. -/
theorem showLoader_goesOn {t : Nat} (h : t < 64) (s : State) : LoaderGoesOn s (showLoader s t) := by
  have apart : ∀ j < 64, offRefusal (place F.WL_TARGET_OUT j) := by decide
  exact ((LoaderGoesOn.refl s).wr (by decide) ..).wr (apart t h) ..

theorem pumpAll_goesOn (s : State) : LoaderGoesOn s (pumpAll s) :=
  forEach_keeps (I := LoaderGoesOn s) (fun _ _ ht hu => hu.trans ((pump_goesOn ..).trans (showLoader_goesOn (List.mem_range.mp ht) _))) (.refl s)

theorem respond_goesOn (s : State) (h : MsgHead) (typ status : Nat) (more : List Byte) : LoaderGoesOn s (respond s h typ status more) := by
  unfold respond
  split
  · exact .refl s
  · have counted : LoaderGoesOn s (if 0xF0 ≤ status ∧ status ≤ 0xF4 then bump s (penPg h.pen) F.SHOB_BAD_CNT else s) :=
      .ite ((LoaderGoesOn.refl s).bump (by decide) ..) (.refl s)
    exact .trans (counted.aside (modChan_via ..) rfl) (.ite (post_goesOn ..) (.refl _))

/-! ## The end of an arrival (R276, R285, R287) -/

/-- The state in which a refusal is shown. -/
def refusalShown (s : State) (h : MsgHead) (index status : Nat) : State :=
  wr0 (wr0 (wr0 (bump s wloadPg F.WL_SHARDS_REFUSED) wloadPg F.WL_LAST_REFUSE_STATUS status) wloadPg F.WL_LAST_REFUSE_PEN h.pen) wloadPg
    F.WL_LAST_REFUSE_SHARD index

/-- The state without an arrival. -/
def arrivalGone (s : State) (a : Arrival) : State := s.setWeights { s.weights with arriving := s.weights.arriving.erase a }

theorem endShard_refused {a : Arrival} {h : MsgHead} (head : a.head = some h) {status : Nat} (fails : status ≠ 0) (s : State) (more : List Byte) :
    endShard s a status more = pumpAll (respond (refusalShown (arrivalGone s a) h a.named.2 status) h a.typ status
      (toLe 2 a.named.1 ++ toLe 4 a.named.2 ++ more)) := by
  rw [endShard, head]
  dsimp only
  rw [if_neg fails]
  rfl

theorem status_endShard {a : Arrival} {h : MsgHead} (head : a.head = some h) {status : Nat} (fails : status ≠ 0) (s : State) (more : List Byte) :
    rd (endShard s a status more) wloadPg F.WL_LAST_REFUSE_STATUS = status % 2 ^ 8 := by
  have named (u : State) : OnlyPlaces offRefusal u
      (wr0 (wr0 u wloadPg F.WL_LAST_REFUSE_PEN h.pen) wloadPg F.WL_LAST_REFUSE_SHARD a.named.2) :=
    ((OnlyPlaces.refl _ u).wr0 (by decide) ..).wr0 (by decide) ..
  rw [endShard_refused head fails, ((respond_goesOn ..).trans (pumpAll_goesOn _)).places.field _ _ _ (not_not.mpr rfl), refusalShown,
    (named _).field _ _ _ (not_not.mpr rfl)]
  exact rd_wr0 ..

theorem shards_endShard (s : State) (a : Arrival) (status : Nat) (more : List Byte) :
    (endShard s a status more).weights.shards = s.weights.shards := by
  have counted (u : State) (f : Field) : (bump u wloadPg f).weights = u.weights := (bump_via ..).piece (p := .weights) rfl
  unfold endShard
  rw [(pumpAll_goesOn _).shards]
  split
  · rfl
  · rw [(respond_goesOn ..).shards]
    split
    · rw [counted]
      rfl
    · show (bump _ wloadPg F.WL_SHARDS_REFUSED).weights.shards = _
      rw [counted]
      rfl

theorem epochShards_endShard (s : State) (a : Arrival) (status : Nat) (more : List Byte) (p k : Nat) :
    epochShards (endShard s a status more) p k = epochShards s p k := by rw [epochShards, shards_endShard, epochShards]

theorem Via.epochShards {ps : List StatePart} {s t : State} (h : Via ps s t) (hps : ps.contains .weights = false) (p k : Nat) :
    Machine.epochShards t p k = Machine.epochShards s p k := by
  have weights : t.weights = s.weights := h.piece (p := .weights) hps
  rw [Machine.epochShards, weights, Machine.epochShards]

theorem epochShards_putShards (s : State) (p k : Nat) (xs : List Shard) : epochShards (putShards s p k xs) p k = xs := getD_putD_same ..

theorem epochShards_putShards_ne {p k q j : Nat} (h : epochKey q j ≠ epochKey p k) (s : State) (xs : List Shard) :
    epochShards (putShards s p k xs) q j = epochShards s q j := getD_putD_other _ _ _ _ _ h

/-! ## The loader's writes into a window (R243, R273) -/

theorem accessError_places (s : State) (pg off : Nat) (src : Source) (row v : Nat) :
    OnlyPlaces offExtents s (accessError s pg off src row v) := by
  have event : OnlyPlaces offExtents s (errEvent s pg 0) := (errEvent_allPlaces ..).mono (by decide)
  unfold accessError
  split
  · exact event.trans ((logWrite_places ..).mono (by decide))
  · exact event

theorem coreWrite_places (s : State) (p w : Nat) (bs : List Byte) : OnlyPlaces offExtents s (coreWrite s p w bs) := by
  unfold coreWrite
  split
  · exact .via (.refl _ s) (winWrite_via ..) rfl
  · exact accessError_places ..

/-- From `s` to `t` bytes of the window of a pen change alone, and its extents stay. -/
structure FillsWindow (p : Nat) (s t : State) : Prop where
  /-- the bytes -/
  bytes : OnlyBytes (fun x => windowOf (extents s p) x 0 ≠ none) s t
  /-- the extents -/
  extents : extents t p = extents s p

namespace FillsWindow

variable {p : Nat} {r s t : State}

theorem refl (p : Nat) (s : State) : FillsWindow p s s := ⟨fun _ _ => rfl, rfl⟩

theorem trans (h : FillsWindow p r s) (k : FillsWindow p s t) : FillsWindow p r t :=
  ⟨fun a outside => (k.bytes a (by rw [h.extents]; exact outside)).trans (h.bytes a outside), k.extents.trans h.extents⟩

theorem ite {a b : State} {c : Prop} [Decidable c] (h : FillsWindow p r a) (k : FillsWindow p r b) : FillsWindow p r (if c then a else b) := by
  split
  · exact h
  · exact k

theorem of_via {ps : List StatePart} (k : Via ps s t) (mem : ps.contains .mem = false) (short : ps.contains .hbmShort = false)
    (places : OnlyPlaces offExtents s t) : FillsWindow p s t := ⟨k.same.bytes mem short _, places.extents p⟩

/-- What comes after the writes and leaves memory as it is. -/
theorem onlyBytes (h : FillsWindow p r s) {ps : List StatePart} (k : Via ps s t) (mem : ps.contains .mem = false)
    (short : ps.contains .hbmShort = false) : OnlyBytes (fun x => windowOf (Machine.extents r p) x 0 ≠ none) r t :=
  fun a outside => (k.readByte mem short a).trans (h.bytes a outside)

end FillsWindow

theorem coreWrite_fills (s : State) (p w : Nat) (bs : List Byte) : FillsWindow p s (coreWrite s p w bs) :=
  ⟨coreWrite_onlyBytes s p w bs, (coreWrite_places s p w bs).extents p⟩

/-- A container that fails its digest leaves the buffer as it is; one that fails later leaves there what nobody knows. -/
theorem fillBuffer_error (s : State) (p : Nat) (h : ShardHeader) (e : Nat) : fillBuffer s p h (.error e) =
    if e = 0x02 then s else coreWrite (freeBytes s h.buffer).2 p (h.addr - h.buffer) (freeBytes s h.buffer).1 := rfl

theorem fillBuffer_fills (s : State) (p : Nat) (h : ShardHeader) (r : Except Nat (List Byte × List Byte)) :
    FillsWindow p s (fillBuffer s p h r) := by
  cases r with
  | ok r => exact coreWrite_fills ..
  | error e =>
    have drawn : FillsWindow p s (freeBytes s h.buffer).2 :=
      .of_via (freeBytes_via ..) rfl rfl (.via (.refl _ s) (freeBytes_via ..) rfl)
    rw [fillBuffer_error]
    exact .ite (.refl p s) (drawn.trans (coreWrite_fills ..))

end Sys2Proof.Machine
end

section
/-! SUPPORT. The completion of a shard whose bytes are there (R255, R273, R279). -/

namespace Sys2Proof.Machine

open Sys2Proof Sys2Proof.Claims

/-! ## The pipeline's verdict (R273, R276) -/

theorem transform_error {h : ShardHeader} {d : List Byte} {e : Nat} (fails : transform h d = .error e) : e = 0x04 ∨ e = 0x05 := by
  unfold transform at fails
  split at fails
  · split at fails <;> cases fails
    exact .inr rfl
  · dsimp only at fails
    split at fails <;> cases fails
    exact .inl rfl

/-- A check that fails has a status of its own. -/
theorem loadShard_error_ne_zero {header payload : List Byte} {e : Nat} (fails : loadShard header payload = .error e) : e ≠ 0 := by
  unfold loadShard at fails
  dsimp only at fails
  split at fails
  · cases fails
    decide
  · split at fails
    · cases fails
      decide
    · split at fails
      next status bad =>
        cases fails
        have := transform_error bad
        omega
      next form good =>
        split at fails <;> cases fails
        decide

/-! ## A shard joins the resident ones (R269, R279) -/

theorem shards_epochResident (s : State) (p k : Nat) : (epochResident s p k).2.weights.shards = s.weights.shards := by
  have written (u : State) (pg : Nat) (f : Field) (v : Nat) : (wr u pg f k v).weights = u.weights := (wr_via ..).piece (p := .weights) rfl
  unfold epochResident
  dsimp only
  split
  · dsimp only
    split <;> simp only [written] <;> rfl
  · rfl

/-- The state with the bytes of a shard in the window of its pen, and in staging when its header says so (R254, R275). -/
def shardStored (s : State) (p : Nat) (h : ShardHeader) (form : List Byte) : State :=
  if h.flags = 1 then writeStaging (coreWrite s p h.addr form) h.slot h.plane form h.planes else coreWrite s p h.addr form

/-- The resident shard that an arrival becomes. -/
def shardOf (s : State) (a : Arrival) (dg : List Byte) : Shard :=
  let h := shardHeader a.header
  { index := h.index, digest := dg, addr := h.addr, planes := h.planes, stage := if h.flags = 1 then some (h.slot, h.plane) else none
    source := a.source, checked := s.tally.num, damaged := false }

/-- The state with one more resident shard of an epoch. -/
def shardJoins (s : State) (p k : Nat) (x : Shard) : State := putShards s p k (epochShards s p k ++ [x])

/-- A new shard is stored, joins its epoch, and its message is answered with its digest. -/
theorem completeShard_new {a : Arrival} (new : a.repair = false) (s : State) (p k : Nat) (form dg : List Byte) :
    completeShard s p k a form dg =
      let t := shardStored s p (shardHeader a.header) form
      let e := epochResident (shardJoins t p k (shardOf t a dg)) p k
      endShard e.2 a 0 (dg ++ e.1) := by
  unfold completeShard
  rw [new]
  rfl

theorem shardStored_via (s : State) (p : Nat) (h : ShardHeader) (form : List Byte) :
    Via [.regs, .views, .log, .mem, .fresh, .care] s (shardStored s p h form) := by
  unfold shardStored
  exact Via.ite (Via.step (writeStaging_via ..) rfl (coreWrite_via ..)) (coreWrite_via ..)

theorem epochShards_completeShard {a : Arrival} (new : a.repair = false) (s : State) (p k : Nat) (form dg : List Byte) :
    epochShards (completeShard s p k a form dg) p k =
      epochShards s p k ++ [shardOf (shardStored s p (shardHeader a.header) form) a dg] := by
  rw [completeShard_new new]
  dsimp only
  rw [epochShards_endShard, epochShards, shards_epochResident]
  exact (epochShards_putShards ..).trans (by rw [(shardStored_via ..).epochShards rfl])

/-- A shard without a staging placement fills bytes of its window alone. -/
theorem completeShard_onlyBytes {a : Arrival} (new : a.repair = false) (plain : (shardHeader a.header).flags ≠ 1) (s : State) (p k : Nat)
    (form dg : List Byte) : OnlyBytes (fun x => windowOf (extents s p) x 0 ≠ none) s (completeShard s p k a form dg) := by
  have stored : shardStored s p (shardHeader a.header) form = coreWrite s p (shardHeader a.header).addr form := if_neg plain
  rw [completeShard_new new, stored]
  exact (coreWrite_fills ..).onlyBytes (ps := [.free, .regs, .weights, .net, .out]) (Via.step (endShard_via ..) rfl (Via.step (epochResident_via ..)
    rfl (Via.step (putShards_via ..) rfl (.refl _ _)))) rfl rfl

/-! ## SHARD_COMPLETE and STAGING_WRITE_RESUME -/

/-- The state in which the stored payload of a push is counted (R287). -/
def payloadCounted (s : State) (a : Arrival) : State := if a.source.push then countIn s (shardHeader a.header).stored else s

theorem countIn_goesOn (s : State) (n : Nat) : LoaderGoesOn s (countIn s n) := by
  have counted : LoaderGoesOn s (s.setWeights { s.weights with inBytes := (s.weights.inBytes + n) % 1048576 }) := .setWeights (.refl s) rfl
  exact counted.bump (f := F.WL_MIB_IN) (by decide) ..

theorem payloadCounted_goesOn (s : State) (a : Arrival) : LoaderGoesOn s (payloadCounted s a) := .ite (countIn_goesOn ..) (.refl s)

theorem countIn_places (s : State) (n : Nat) : OnlyPlaces offExtents s (countIn s n) :=
  OnlyPlaces.bump (here := offExtents) (.via (.refl _ s) (setWeights_via ..) rfl) (by decide) (by decide) ..

theorem payloadCounted_via (s : State) (a : Arrival) : Via [.regs, .weights] s (payloadCounted s a) := .ite (countIn_via ..) (.refl _ s)

theorem payloadCounted_fills (s : State) (p : Nat) (a : Arrival) : FillsWindow p s (payloadCounted s a) :=
  .of_via (payloadCounted_via s a) rfl rfl (.ite (countIn_places ..) (.refl _ s))

section
variable {s : State} {p k i lo hi : Nat} {a : Arrival} (place : a.place = some (k, i, lo, hi)) (arrived : a.arrived = true)
  (first : (underWay s).contains a = true) (free : a.held = none)
include place arrived first free

/-- The pipeline of a shard that fails a check. -/
theorem endPipeline_error {e : Nat} (fails : loadShard a.header (arrivalPayload s p a) = .error e) :
    endPipeline s p a = endShard (fillBuffer (payloadCounted s a) p (shardHeader a.header) (.error e)) a e [] := by
  rw [endPipeline, place]
  dsimp only
  rw [arrived, first, free, fails]
  rfl

/-- The pipeline of a new shard that passes and whose writes wait for nothing. -/
theorem endPipeline_ok {form dg : List Byte} (new : a.repair = false) (plain : (shardHeader a.header).flags ≠ 1)
    (passes : loadShard a.header (arrivalPayload s p a) = .ok (form, dg)) :
    endPipeline s p a = completeShard (fillBuffer (payloadCounted s a) p (shardHeader a.header) (.ok (form, dg))) p k a form dg := by
  have kept (u : State) : digestKept u p k a dg = true := by rw [digestKept, new]; rfl
  have placed (u : State) : placeShard u p k a form dg = completeShard u p k a form dg := if_neg fun h => plain h.1
  rw [endPipeline, place]
  dsimp only
  rw [arrived, first, free, passes]
  dsimp only
  rw [kept, if_pos rfl, placed]
  rfl

end

theorem findArrival_head {s : State} {p tag : Nat} {a : Arrival} (found : findArrival s p tag = some a) : ∃ h, a.head = some h := by
  have matching := List.find?_some found
  cases head : a.head with
  | none =>
    rw [head] at matching
    exact absurd matching Bool.false_ne_true
  | some h => exact ⟨h, rfl⟩

/-- What SHARD_COMPLETE leaves of a shard that failed with a status. -/
structure ShardFailed (e p k : Nat) (s t : State) : Prop where
  /-- the resident shards stay -/
  shards : epochShards t p k = epochShards s p k
  /-- a container with a wrong digest leaves the buffer -/
  mem : e = 0x02 → t.mem = s.mem
  /-- the status is shown -/
  status : rd t wloadPg F.WL_LAST_REFUSE_STATUS = e % 2 ^ 8
  /-- the buffer is in the window -/
  bytes : OnlyBytes (fun x => windowOf (extents s p) x 0 ≠ none) s t

theorem endShard_failed {s : State} {p k e : Nat} {a : Arrival} {h : MsgHead} (head : a.head = some h) (fails : e ≠ 0) :
    ShardFailed e p k s (endShard (fillBuffer (payloadCounted s a) p (shardHeader a.header) (.error e)) a e []) where
  shards := by rw [epochShards_endShard, (fillBuffer_via ..).epochShards rfl, (payloadCounted_goesOn s a).epochShards]
  mem := by
    rintro rfl
    have filled : fillBuffer (payloadCounted s a) p (shardHeader a.header) (.error 0x02) = payloadCounted s a := rfl
    rw [filled]
    exact ((Via.step (endShard_via ..) rfl ((payloadCounted_goesOn s a).via)) : Via [.free, .regs, .weights, .net, .out] _ _).piece (p := .mem) rfl
  status := status_endShard head fails ..
  bytes := ((payloadCounted_fills s p a).trans (fillBuffer_fills ..)).onlyBytes (endShard_via ..) rfl rfl

/-- What SHARD_COMPLETE leaves of a shard that passed: it is resident, and its bytes are in the window. -/
theorem completeShard_resident {s : State} {p k : Nat} {a : Arrival} (new : a.repair = false) (form dg : List Byte) :
    ∃ x ∈ epochShards (completeShard s p k a form dg) p k, x.index = (shardHeader a.header).index ∧ x.digest = dg ∧ x.damaged = false
      ∧ x.addr = (shardHeader a.header).addr := by
  rw [epochShards_completeShard new]
  exact ⟨_, List.mem_append_right _ (List.mem_singleton.mpr rfl), rfl, rfl, rfl, rfl⟩

theorem shardComplete_answers {s : State} {p : Fin 16} {tag : BitVec 64} {a : Arrival} {k i lo hi : Nat}
    (found : findArrival s p tag.toNat = some a) (place : a.place = some (k, i, lo, hi)) (arrived : a.arrived = true)
    (first : (underWay s).contains a = true) (free : a.held = none) (new : a.repair = false) (plain : (shardHeader a.header).flags ≠ 1) :
    Answers (.shardComplete p tag) s fun t =>
      (match loadShard a.header (arrivalPayload s p a) with
        | .ok (_, dg) => ∃ x ∈ epochShards t p k, x.index = (shardHeader a.header).index ∧ x.digest = dg ∧ x.damaged = false
            ∧ x.addr = (shardHeader a.header).addr
        | .error e => epochShards t p k = epochShards s p k ∧ (e = 0x02 → t.mem = s.mem) ∧ rd t wloadPg F.WL_LAST_REFUSE_STATUS = e % 2 ^ 8)
        ∧ OnlyBytes (fun x => windowOf (extents s p) x 0 ≠ none) s t := by
  have answer : exec (.shardComplete p tag) s = .next (endPipeline s p a) := by
    show execShardComplete p tag s = _
    rw [execShardComplete, found]
  refine ⟨_, answer, ?_⟩
  match load : loadShard a.header (arrivalPayload s p a) with
  | .error e =>
    obtain ⟨h, head⟩ := findArrival_head found
    rw [endPipeline_error place arrived first free load]
    have failed : ShardFailed e p k s _ := endShard_failed head (loadShard_error_ne_zero load)
    exact ⟨⟨failed.shards, failed.mem, failed.status⟩, failed.bytes⟩
  | .ok (form, dg) =>
    rw [endPipeline_ok place arrived first free new plain load]
    have filled := (payloadCounted_fills s p a).trans (fillBuffer_fills _ p (shardHeader a.header) (.ok (form, dg)))
    refine ⟨completeShard_resident new form dg, fun x outside => ?_⟩
    exact (completeShard_onlyBytes new plain _ _ k form dg x (by rw [filled.extents]; exact outside)).trans (filled.bytes x outside)

/-- The waiting writes of the one arrival there. -/
theorem resumeShard_held {a : Arrival} {h : MsgHead} {k i lo hi : Nat} {form dg : List Byte} (head : a.head = some h)
    (place : a.place = some (k, i, lo, hi)) (held : a.held = some (form, dg)) (s : State) :
    resumeShard s a = if stagingBusy s (shardHeader a.header).slot (shardHeader a.header).plane (shardHeader a.header).planes then s
      else completeShard s h.pen k a form dg := by
  rw [resumeShard, head, place, held]

theorem execStagingWriteResume_one {s : State} {a : Arrival} (alone : s.weights.arriving = [a]) :
    exec .stagingWriteResume s = .next (resumeShard s a) := by
  show execStagingWriteResume s = _
  rw [execStagingWriteResume, alone]
  rfl

end Sys2Proof.Machine
end

section
/-! SUPPORT. Re-checks of shards whose copies are good (R277), and repairs from staging (R278). -/

namespace Sys2Proof.Machine

open Sys2Proof Sys2Proof.Claims

/-! ## Re-checks (R277) -/

/-- A shard without the stamp of its last check. -/
def Shard.unchecked (x : Shard) : Shard := { x with checked := 0 }

/-- The shards of an epoch without their stamps. -/
def plainShards (s : State) (p k : Nat) : List Shard := (epochShards s p k).map Shard.unchecked

theorem map_plainShards {α : Type} {f : Shard → α} (same : ∀ x, f x.unchecked = f x) (s : State) (p k : Nat) :
    (plainShards s p k).map f = (epochShards s p k).map f := by
  rw [plainShards, List.map_map]
  exact List.map_congr_left fun x _ => same x

/-- The shards of the 32 epoch entries have indices of their own, and good copies in the window. -/
def GoodCopies (s : State) : Prop :=
  ∀ p k, p < 16 → k < 2 → ((epochShards s p k).map (·.index)).Nodup ∧ ∀ x ∈ epochShards s p k, sha256 (hbmCopy s p x) = x.digest

/-- From `s` to `u` shards were checked and found good: counts and stamps change alone. -/
structure Rechecked (s u : State) : Prop where
  /-- the pieces of that -/
  via : Via [.regs, .weights] s u
  /-- the extents stay -/
  places : OnlyPlaces offExtents s u
  /-- so do the shards, but for their stamps -/
  shards : ∀ p k, p < 16 → k < 2 → plainShards u p k = plainShards s p k

theorem hbmCopy_unchecked (s : State) (p : Nat) (x : Shard) : hbmCopy s p x.unchecked = hbmCopy s p x := rfl

namespace Rechecked

variable {s u : State}

theorem refl (s : State) : Rechecked s s := ⟨.refl _ s, .refl _ s, fun _ _ _ _ => rfl⟩

theorem hbmCopy (h : Rechecked s u) (p : Nat) (x : Shard) : Machine.hbmCopy u p x = Machine.hbmCopy s p x :=
  winBytes_congr h.via rfl rfl rfl (h.places.extents p) ..

/-- Good copies stay good. -/
theorem goodCopies (h : Rechecked s u) (good : GoodCopies s) : GoodCopies u := by
  intro p k hp hk
  obtain ⟨apart, matching⟩ := good p k hp hk
  have same := h.shards p k hp hk
  refine ⟨?_, fun x hx => ?_⟩
  · rw [← map_plainShards (fun _ => rfl), same, map_plainShards (fun _ => rfl)]
    exact apart
  · have there : x.unchecked ∈ plainShards s p k := same ▸ List.mem_map_of_mem hx
    obtain ⟨y, hy, alike⟩ := List.mem_map.mp there
    calc sha256 (Machine.hbmCopy u p x) = sha256 (Machine.hbmCopy s p y.unchecked) := by rw [h.hbmCopy, alike, hbmCopy_unchecked]
      _ = y.unchecked.digest := matching y hy
      _ = x.digest := by rw [alike]; rfl

end Rechecked

/-- Entries of different pens or epochs have keys of their own. -/
theorem epochKey_inj {p k q j : Nat} (hk : k < 2) (hj : j < 2) (same : epochKey q j = epochKey p k) : q = p ∧ j = k := by
  unfold epochKey at same
  omega

/-- Each of a list's shards that has the index of `x` becomes `x` with a new stamp. -/
def stamped (xs : List Shard) (x : Shard) (n : Nat) : List Shard := xs.map fun z => if z.index = x.index then { x with checked := n } else z

/-- A shard whose copy is good is stamped, and counted. -/
theorem recheckShard_good {s : State} {p : Nat} {x : Shard} (good : sha256 (hbmCopy s p x) = x.digest) (k : Nat) :
    recheckShard s p k x =
      putShards (bump s wloadPg F.WL_RECHECK_PASS) p k (stamped (epochShards (bump s wloadPg F.WL_RECHECK_PASS) p k) x
        s.tally.num) := by
  rw [recheckShard]
  exact (if_pos good).trans rfl

/-- A stamp changes nothing else of shards whose indices differ. -/
theorem stamped_unchecked {xs : List Shard} {x : Shard} (apart : (xs.map (·.index)).Nodup) (there : x.unchecked ∈ xs.map Shard.unchecked)
    (n : Nat) : (stamped xs x n).map Shard.unchecked = xs.map Shard.unchecked := by
  obtain ⟨y, hy, alike⟩ := List.mem_map.mp there
  rw [stamped, List.map_map]
  refine List.map_congr_left fun z hz => ?_
  rw [Function.comp_apply]
  split
  next same =>
    have index : z.index = y.index := same.trans (congrArg (·.index) alike).symm
    have one : z = y := List.inj_on_of_nodup_map apart hz hy index
    rw [one, alike]
    rfl
  next => rfl

theorem putShards_places {k : Nat} (hk : k < 2) (s : State) (p : Nat) (xs : List Shard) : OnlyPlaces offExtents s (putShards s p k xs) := by
  have apart : ∀ j < 2, offExtents (place F.EPOCH1_RESIDENT j) := by decide
  exact OnlyPlaces.wr (here := offExtents) (.via (.refl _ s) (setWeights_via ..) rfl) (apart k hk) ..

theorem plainShards_putShards (s : State) (p k : Nat) (xs : List Shard) : plainShards (putShards s p k xs) p k = xs.map Shard.unchecked := by
  rw [plainShards, epochShards_putShards]

/-- The re-check of one shard of good copies. -/
theorem Rechecked.shard {s u : State} (h : Rechecked s u) (good : GoodCopies s) {p k : Nat} (hp : p < 16) (hk : k < 2) {x : Shard}
    (there : x.unchecked ∈ plainShards u p k) : Rechecked s (recheckShard u p k x) := by
  obtain ⟨apart, matching⟩ := h.goodCopies good p k hp hk
  obtain ⟨y, hy, alike⟩ := List.mem_map.mp there
  have passes : sha256 (Machine.hbmCopy u p x) = x.digest := by
    calc sha256 (Machine.hbmCopy u p x) = sha256 (Machine.hbmCopy u p y) := by rw [← hbmCopy_unchecked u p x, ← alike, hbmCopy_unchecked]
      _ = y.unchecked.digest := matching y hy
      _ = x.digest := by rw [alike]; rfl
  have counted (q j : Nat) : epochShards (bump u wloadPg F.WL_RECHECK_PASS) q j = epochShards u q j := (bump_via ..).epochShards rfl q j
  rw [recheckShard_good passes, counted]
  refine ⟨h.via.trans (Via.step (putShards_via ..) rfl ((bump_via ..).mono rfl)), ?_, fun q j hq hj => ?_⟩
  · exact (OnlyPlaces.bump (here := offExtents) h.places (by decide) (by decide) ..).trans (putShards_places hk ..)
  · rw [← h.shards q j hq hj]
    by_cases same : epochKey q j = epochKey p k
    · obtain ⟨rfl, rfl⟩ := epochKey_inj hk hj same
      rw [plainShards_putShards]
      exact stamped_unchecked apart there _
    · rw [plainShards, epochShards_putShards_ne same, counted, plainShards]

/-- A re-check of every shard finds good copies good. -/
theorem execRecheck_good {s : State} (good : GoodCopies s) : ∃ t, exec .recheck s = .next t ∧ Rechecked s t := by
  refine ⟨_, rfl, forEach_keeps (I := Rechecked s) (fun u p hp hu => ?_) (.refl s)⟩
  refine forEach_keeps (I := Rechecked s) (fun v k hk hv => ?_) hu
  have pen := List.mem_range.mp hp
  have entry := List.mem_range.mp hk
  refine forEach_keeps (I := Rechecked s) (fun w x hx hw => hw.shard good pen entry ?_) hv
  rw [hw.shards p k pen entry, ← hv.shards p k pen entry]
  exact List.mem_map_of_mem hx

/-! ## Repair from staging (R278) -/

theorem shards_repaired (s : State) (p k index addr : Nat) (stage : Option (Nat × Nat)) (src : ShardSource) :
    epochShards (repaired s p k index addr stage src) p k = (epochShards s p k).map fun x =>
      if x.index = index then { x with damaged := false, checked := s.tally.num, addr := addr, stage := stage, source := src } else x := by
  have dropped (u : State) (test : Arrival → Bool) : (dropRepairs u test).weights.shards = u.weights.shards := by
    unfold dropRepairs
    rw [show (wr0 _ _ _ _).weights = _ from (wr0_via ..).piece (p := .weights) rfl]
    rfl
  rw [repaired, (bump_via ..).epochShards rfl, epochShards, dropped]
  exact ((showDamaged_via ..).epochShards rfl p k).trans (epochShards_putShards ..)

/-- A damaged shard with a good staging copy is written again from that. -/
theorem repairShard_staged {s : State} {x : Shard} {form : List Byte} (copy : stagingCopy s x = some form) (good : sha256 form = x.digest)
    (p k : Nat) : repairShard s p k x = repaired (coreWrite s p x.addr form) p k x.index x.addr x.stage x.source := by
  have kept : (stagingCopy s x).filter (fun b => sha256 b == x.digest) = some form := by
    rw [copy]
    exact Option.filter_eq_some_iff.mpr ⟨rfl, by rw [good]; exact beq_self_eq_true _⟩
  rw [repairShard, kept]

/-- What the repair of a shard from its staging copy leaves. -/
structure RepairedFromStaging (p k n : Nat) (s t : State) : Prop where
  /-- the pieces of that -/
  via : Via [.regs, .views, .log, .mem, .fresh, .care, .weights] s t
  /-- the shard is good -/
  mended : ∀ y ∈ epochShards t p k, y.index = n → y.damaged = false
  /-- the same shards are there -/
  indices : (epochShards t p k).map (·.index) = (epochShards s p k).map (·.index)
  /-- the bytes lie in the window -/
  bytes : OnlyBytes (fun x => windowOf (extents s p) x 0 ≠ none) s t

theorem repaired_fromStaging (s : State) (p k : Nat) (x : Shard) (form : List Byte) :
    RepairedFromStaging p k x.index s (repaired (coreWrite s p x.addr form) p k x.index x.addr x.stage x.source) where
  via := Via.step (repaired_via ..) rfl ((coreWrite_via ..).mono rfl)
  mended := by
    intro y hy index
    rw [shards_repaired] at hy
    obtain ⟨z, -, rfl⟩ := List.mem_map.mp hy
    split at index
    · next same => rw [if_pos same]
    · next other => exact absurd index other
  indices := by
    rw [shards_repaired, (coreWrite_via ..).epochShards rfl, List.map_map]
    refine List.map_congr_left fun z _ => ?_
    rw [Function.comp_apply]
    split <;> rfl
  bytes := (coreWrite_fills ..).onlyBytes (repaired_via ..) rfl rfl

theorem shardRepair_answers {s : State} {p : Fin 16} {id n k : Nat} {x : Shard} {form : List Byte} (epoch : epochOf s p id = some k)
    (found : (epochShards s p k).find? (fun x => x.index == n && x.damaged) = some x) (copy : stagingCopy s x = some form)
    (good : sha256 form = x.digest) (runs : serviceWaits s .repair = false) :
    ∃ t, exec (.shardRepair p id n) s = .next t ∧ RepairedFromStaging p k n s t := by
  have named := List.find?_some found
  obtain ⟨index, -⟩ := (Bool.and_eq_true _ _).mp named
  have answer : exec (.shardRepair p id n) s = .next (repairShard s p k x) := by
    show execShardRepair p id n s = _
    rw [execShardRepair, runs, epoch]
    dsimp only
    rw [found]
    rfl
  refine ⟨_, answer, ?_⟩
  rw [repairShard_staged copy good, ← beq_iff_eq.mp index]
  exact repaired_fromStaging ..

/-- Settles O43: completion by the pipeline's verdict (`endPipeline_ok`, `endPipeline_error`), re-checks by the invariant `Rechecked`. -/
theorem shardsBecomeResidentAndAreRepaired : Obligations.ShardsBecomeResidentAndAreRepaired := by
  unfold Obligations.ShardsBecomeResidentAndAreRepaired
  refine ⟨fun s p tag a k i lo hi found place arrived first free new plain => ?complete, fun s a h k i lo hi form dg alone head place held new =>
    ⟨fun busy => ?waits, fun idle => ?resumes⟩, fun s good => ?recheck, fun s p id n k x form epoch found copy good runs => ?repair⟩
  case complete =>
    exact ((shardComplete_answers found place arrived first free new plain).within (execShardComplete_via ..)).imp
      fun t ⟨⟨verdict, bytes⟩, only⟩ => ⟨verdict, bytes, only⟩
  case waits =>
    exact ⟨_, execStagingWriteResume_one alone, by rw [resumeShard_held head place held, if_pos busy]⟩
  case resumes =>
    refine Answers.within ⟨_, execStagingWriteResume_one alone, ?_⟩ (execStagingWriteResume_via ..)
    rw [resumeShard_held head place held, if_neg (by rw [idle]; exact Bool.false_ne_true)]
    obtain ⟨y, there, index, digest, sound, -⟩ := completeShard_resident (s := s) (p := h.pen) (k := k) new form dg
    exact ⟨y, there, index, digest, sound⟩
  case recheck =>
    obtain ⟨t, answer, checked⟩ := execRecheck_good good
    refine ⟨t, answer, fun p k hp hk => ?_, checked.via.same⟩
    rw [← map_plainShards (fun _ => rfl), checked.shards p k hp hk, map_plainShards (fun _ => rfl)]
  case repair =>
    obtain ⟨t, answer, mended⟩ := shardRepair_answers epoch found copy good runs
    exact ⟨t, answer, mended.mended, mended.indices, mended.bytes, mended.via.same⟩

end Sys2Proof.Machine
end

section
/-! SUPPORT. What the effect of a message finds in the state in which the message is taken, and its answer (R354, R359); what the loader
leaves of its arrivals, targets and epochs when it goes on (R271, R286, R287). -/

namespace Sys2Proof.Machine

open Sys2Proof Sys2Proof.Claims

/-! ## Little-endian numbers and register writes -/

theorem leNat_lt (bs : List Byte) : leNat bs < 256 ^ bs.length := by
  induction bs with
  | nil => decide
  | cons b bs ih =>
    have byte := b.isLt
    rw [leNat, List.length_cons, pow_succ]
    omega

theorem leNat_take_lt (bs : List Byte) (n : Nat) : leNat (bs.take n) < 256 ^ n :=
  (leNat_lt _).trans_le (Nat.pow_le_pow_right (by decide) (List.length_take_le n bs))

theorem fieldNat_lt (b : List Byte) (a n : Nat) : fieldNat b a n < 256 ^ n := leNat_take_lt ..

/-- A write leaves the fields at other places of a page. -/
theorem rd_wr_place {f g : Field} {i j : Nat} (h : place f i ≠ place g j) (s : State) (pg qg v : Nat) :
    rd (wr s pg f i v) qg g j = rd s qg g j :=
  rd_wr_ne _ _ _ _ _ _ _ _ fun same => h (by rw [← fkey_mod pg, same, fkey_mod])

theorem rd_wr_lt {f : Field} {i v : Nat} (h : v < 2 ^ f.width) (s : State) (pg : Nat) : rd (wr s pg f i v) pg f i = v :=
  (rd_wr ..).trans (Nat.mod_eq_of_lt h)

/-! ## How often the channels have closed -/

theorem Via.lives {ps : List StatePart} {s t : State} (h : Via ps s t) (k : ps.contains .net = false) : t.net.lives = s.net.lives := by
  have net : t.net = s.net := h.piece k
  rw [net]

theorem lives_post (s : State) (q n : Nat) (o : Out) : (post s q n o).net.lives = s.net.lives := by
  unfold post
  rw [(emit_via ..).lives rfl, (bump_via ..).lives rfl]
  rfl

theorem lives_sendHost (s : State) (pen ch : Nat) (bytes : List Byte) : (sendHost s pen ch bytes).net.lives = s.net.lives := by
  unfold sendHost
  split
  · exact lives_post ..
  · rfl

theorem lives_respond (s : State) (h : MsgHead) (typ status : Nat) (more : List Byte) :
    (respond s h typ status more).net.lives = s.net.lives := by
  unfold respond
  split
  · rfl
  · have counted : (if 0xF0 ≤ status ∧ status ≤ 0xF4 then bump s (penPg h.pen) F.SHOB_BAD_CNT else s).net.lives = s.net.lives := by
      split
      · exact (bump_via ..).lives rfl
      · rfl
    exact (lives_sendHost ..).trans counted

/-! ## The answer to a message -/

@[simp] theorem own_pen (s : State) (h : MsgHead) : (own s h).pen = h.pen := rfl

/-- A message is answered once its effect has left the channels open. -/
theorem answered_own {s : State} {h : MsgHead} (order : sendsInOrder s h) (b : List Byte) {u : State}
    (lives : u.net.lives = (taken s h b).net.lives) (typ status : Nat) (more : List Byte) :
    answered (respond u (own s h) typ status more) h typ status more := by
  have life : chanLife u h.pen h.ch = chanLife (taken s h b) h.pen h.ch := by rw [chanLife, lives, chanLife]
  exact answered_respond rfl rfl rfl rfl ((chanLife_taken order b).trans life.symm) ..

theorem answered_via {s : State} {h : MsgHead} (order : sendsInOrder s h) (b : List Byte) {ps : List StatePart} {u : State}
    (k : Via ps (taken s h b) u) (hps : ps.contains .net = false) (typ status : Nat) (more : List Byte) :
    answered (respond u (own s h) typ status more) h typ status more := answered_own order b (k.lives hps) ..

theorem post_page {pg : Nat} (eth : ethPg ≠ pg) (here : Nat → Prop) (s : State) (q n : Nat) (o : Out) : PageOnly pg here s (post s q n o) :=
  .via (.bump (.of_via (putQp_via ..) rfl) (by decide) (.inl eth) _) (emit_via ..) rfl

/-- An answer shows on the pages of the port and of its pen alone, and on the latter only when the message is bad. -/
theorem respond_page {pg : Nat} (eth : ethPg ≠ pg) {h : MsgHead} {status : Nat} (apart : penPg h.pen ≠ pg ∨ status < 0xF0) (here : Nat → Prop)
    (s : State) (typ : Nat) (more : List Byte) : PageOnly pg here s (respond s h typ status more) := by
  have counted : PageOnly pg here s (if 0xF0 ≤ status ∧ status ≤ 0xF4 then bump s (penPg h.pen) F.SHOB_BAD_CNT else s) := by
    split
    case isTrue bad => exact .bump (.refl pg here s) (by decide) (.inl (apart.resolve_right (by omega))) _
    case isFalse => exact .refl pg here s
  unfold respond sendHost
  exact .ite (.refl pg here s) (.ite ((counted.via (modChan_via ..) rfl).trans (post_page eth ..)) (counted.via (modChan_via ..) rfl))

/-! ## What a message finds in the state in which it is taken -/

section

variable {s : State} {h : MsgHead} (order : sendsInOrder s h) (b : List Byte)

include order

theorem weights_taken : (taken s h b).weights = s.weights := (taken_passes order b).via.piece (p := .weights) rfl

theorem boot_taken : (taken s h b).boot = s.boot := (taken_passes order b).via.piece (p := .boot) rfl

theorem free_taken : (taken s h b).free = s.free := (taken_passes order b).via.piece (p := .free) rfl

/-- A field of the weight loader's page. -/
theorem rd_taken_wload {f : Field} {i : Nat} (inPage : fkey 0 f i < 131072) : rd (taken s h b) wloadPg f i = rd s wloadPg f i := by
  have pen : penPg h.pen ≠ wloadPg := by have := h.pen.isLt; unfold penPg wloadPg; omega
  have other (pg : Nat) (g : Field) (hg : fkey 0 g 0 < 131072) (apart : pg ≠ wloadPg) : (fkey pg g 0 != fkey wloadPg f i) = true :=
    bne_iff_ne.mpr (fkey_ne hg inPage (.inl apart))
  refine (taken_passes order b).fields _ _ _ ?_
  simp only [messageKeys, packetKeys, List.all_append, List.all_cons, List.all_nil, Bool.and_true, Bool.and_eq_true]
  exact ⟨⟨other _ _ (by decide) (by decide), other _ _ (by decide) (by decide), other _ _ (by decide) (by decide),
    other _ _ (by decide) (by decide)⟩, other _ _ (by decide) pen, other _ _ (by decide) pen, other _ _ (by decide) (by decide),
    other _ _ (by decide) (by decide)⟩

theorem inWindow_taken (w n : Nat) : inWindow (taken s h b) h.pen w n = inWindow s h.pen w n := by
  rw [inWindow, winSize, (taken_passes order b).extents h.pen.isLt, inWindow, winSize]

theorem findArrival_taken (p tag : Nat) : findArrival (taken s h b) p tag = findArrival s p tag := by
  rw [findArrival, weights_taken order, findArrival]

end

/-! ## Arrivals that go on -/

/-- An arrival after more of its reads have been sent. -/
structure Arrival.GoesOn (a b : Arrival) : Prop where
  /-- the message -/
  head : b.head = a.head
  /-- the source -/
  source : b.source = a.source
  /-- the header, once it is there -/
  header : b.header = a.header
  /-- the place, once it is known -/
  place : b.place = a.place
  /-- the reads -/
  cmds : ∀ c ∈ a.cmds, c ∈ b.cmds

theorem Arrival.GoesOn.refl (a : Arrival) : a.GoesOn a := ⟨rfl, rfl, rfl, rfl, fun _ => id⟩

theorem Arrival.GoesOn.trans {a b c : Arrival} (h : a.GoesOn b) (k : b.GoesOn c) : a.GoesOn c :=
  ⟨k.head.trans h.head, k.source.trans h.source, k.header.trans h.header, k.place.trans h.place, fun x hx => k.cmds x (h.cmds x hx)⟩

/-- The places of the registers without the states of the targets (R287). -/
abbrev offStates (here : Nat) : Prop := ∀ i < 64, here ≠ place F.WL_TARGET_STATE i

/-- From `s` to `t` reads go out and messages are answered: no arrival joins or leaves, and no target or epoch changes. -/
structure ArrivalsGoOn (s t : State) : Prop where
  /-- how many arrive -/
  count : t.weights.arriving.length = s.weights.arriving.length
  /-- each of them -/
  kept : ∀ a ∈ s.weights.arriving, ∃ b ∈ t.weights.arriving, a.GoesOn b
  /-- the epochs that are being retired -/
  retiring : t.weights.retiring = s.weights.retiring
  /-- the targets -/
  targets : t.weights.targets = s.weights.targets
  /-- how often each channel has closed -/
  lives : t.net.lives = s.net.lives
  /-- the states of the targets -/
  states : PageOnly wloadPg offStates s t

namespace ArrivalsGoOn

variable {r s t : State}

/-- What does not name the loader's records. -/
theorem of_weights (weights : t.weights = s.weights) (lives : t.net.lives = s.net.lives) (states : PageOnly wloadPg offStates s t) :
    ArrivalsGoOn s t :=
  ⟨by rw [weights], fun a ha => ⟨a, by rwa [weights], .refl a⟩, by rw [weights], by rw [weights], lives, states⟩

theorem refl (s : State) : ArrivalsGoOn s s := .of_weights rfl rfl (.refl _ _ s)

theorem trans (h : ArrivalsGoOn r s) (k : ArrivalsGoOn s t) : ArrivalsGoOn r t where
  count := k.count.trans h.count
  kept a ha := by
    obtain ⟨b, there, on⟩ := h.kept a ha
    obtain ⟨c, arrives, further⟩ := k.kept b there
    exact ⟨c, arrives, on.trans further⟩
  retiring := k.retiring.trans h.retiring
  targets := k.targets.trans h.targets
  lives := k.lives.trans h.lives
  states := h.states.trans k.states

theorem ite {a b : State} {c : Prop} [Decidable c] (h : ArrivalsGoOn r a) (k : ArrivalsGoOn r b) : ArrivalsGoOn r (if c then a else b) := by
  split
  · exact h
  · exact k

theorem bump {f : Field} (inPage : fkey 0 f 0 < 131072) {pg : Nat} (ok : pg ≠ wloadPg ∨ offStates (place f 0)) (s : State) (n : Nat) :
    ArrivalsGoOn s (bump s pg f n) :=
  .of_weights ((bump_via ..).piece (p := .weights) rfl) ((bump_via ..).lives rfl)
    (.bump (.refl ..) inPage (ok.imp id fun off => ⟨off, by decide⟩) n)

theorem wr {f : Field} {i : Nat} (inPage : fkey 0 f i < 131072) (off : offStates (place f i)) (s : State) (pg v : Nat) :
    ArrivalsGoOn s (wr s pg f i v) := .of_weights rfl rfl (.wr (.refl ..) inPage (.inr off) v)

theorem targetQp (h : ArrivalsGoOn s t) (n : Nat) : Machine.targetQp t n = Machine.targetQp s n := by
  rw [Machine.targetQp, h.targets, Machine.targetQp]

theorem state (h : ArrivalsGoOn s t) {n : Nat} (hn : n < 64) : rd t wloadPg F.WL_TARGET_STATE n = rd s wloadPg F.WL_TARGET_STATE n := by
  have inPage : ∀ i < 64, fkey 0 F.WL_TARGET_STATE i < 131072 := by decide
  exact h.states.field _ _ (inPage n hn) fun off => off n hn rfl

end ArrivalsGoOn

theorem post_arrivals (s : State) (q n : Nat) (o : Out) : ArrivalsGoOn s (post s q n o) :=
  .of_weights ((post_via ..).piece (p := .weights) rfl) (lives_post ..) (post_page (by decide) ..)

theorem respond_arrivals (s : State) (h : MsgHead) (typ status : Nat) (more : List Byte) :
    ArrivalsGoOn s (respond s h typ status more) := by
  have pen : penPg h.pen ≠ wloadPg := by have := h.pen.isLt; unfold penPg wloadPg; omega
  exact .of_weights ((respond_via ..).piece (p := .weights) rfl) (lives_respond ..) (respond_page (by decide) (.inl pen) ..)

theorem sendCmd_arrivals (s : State) (a : Arrival) (c : NvmeCmd) : ArrivalsGoOn s (sendCmd s a c) := by
  unfold sendCmd
  split
  · exact .ite (post_arrivals ..) (.refl s)
  · exact .refl s

theorem mem_putArrival {s : State} {a : Arrival} (h : a ∈ s.weights.arriving) (b : Arrival) : b ∈ (putArrival s a b).weights.arriving :=
  List.mem_map.mpr ⟨a, h, if_pos rfl⟩

theorem length_putArrival (s : State) (a b : Arrival) : (putArrival s a b).weights.arriving.length = s.weights.arriving.length :=
  List.length_map ..

theorem putArrival_arrivals {a b : Arrival} (h : a.GoesOn b) (s : State) : ArrivalsGoOn s (putArrival s a b) where
  count := length_putArrival ..
  kept x hx := by
    refine ⟨_, List.mem_map_of_mem hx, ?_⟩
    split
    case isTrue same => exact same ▸ h
    case isFalse => exact .refl x
  retiring := rfl
  targets := rfl
  lives := rfl
  states := .of_via (putArrival_via ..) rfl

theorem newCid_arrivals (s : State) : ArrivalsGoOn s (newCid s).2 :=
  ⟨rfl, fun a ha => ⟨a, ha, .refl a⟩, rfl, rfl, rfl, .of_via (newCid_via s) rfl⟩

theorem drawNat_arrivals (s : State) : ArrivalsGoOn s (drawNat s).2 := .of_weights rfl rfl (.of_via (drawNat_via s) rfl)

theorem askNext_arrivals (s : State) (a : Arrival) : ArrivalsGoOn s (askNext s a) := by
  have on (c : NvmeCmd) (n : Nat) : a.GoesOn { a with cmds := a.cmds ++ [c], asked := n } := ⟨rfl, rfl, rfl, rfl, fun _ => List.mem_append_left _⟩
  exact ((drawNat_arrivals s).trans (newCid_arrivals _)).trans ((putArrival_arrivals (on ..) _).trans (sendCmd_arrivals ..))

theorem pump_arrivals (fuel t : Nat) (s : State) : ArrivalsGoOn s (pump s t fuel) := by
  induction fuel generalizing s with
  | zero => exact .refl s
  | succ fuel ih =>
    unfold pump
    split
    · exact .refl s
    · split
      · exact (askNext_arrivals ..).trans (ih _)
      · exact .refl s

theorem showLoader_arrivals {t : Nat} (h : t < 64) (s : State) : ArrivalsGoOn s (showLoader s t) := by
  have out : ∀ j < 64, fkey 0 F.WL_TARGET_OUT j < 131072 ∧ offStates (place F.WL_TARGET_OUT j) := by decide
  exact (ArrivalsGoOn.wr (by decide) (by decide) ..).trans (.wr (out t h).1 (out t h).2 ..)

theorem pumpAll_arrivals (s : State) : ArrivalsGoOn s (pumpAll s) :=
  forEach_keeps (I := ArrivalsGoOn s)
    (fun _ _ ht hu => hu.trans ((pump_arrivals ..).trans (showLoader_arrivals (List.mem_range.mp ht) _))) (.refl s)

/-! ## An arrival that ends (R276, R285, R287) -/

theorem refusalShown_arrivals (s : State) (h : MsgHead) (index status : Nat) : ArrivalsGoOn s (refusalShown s h index status) :=
  (ArrivalsGoOn.bump (by decide) (.inr (by decide)) ..).trans (.trans (.wr (by decide) (by decide) ..)
    (.trans (.wr (by decide) (by decide) ..) (.wr (by decide) (by decide) ..)))

/-- The end of an arrival takes it off the list, and the other ones go on. -/
theorem endShard_arrivals (s : State) (a : Arrival) (status : Nat) (more : List Byte) : ArrivalsGoOn (arrivalGone s a) (endShard s a status more) := by
  unfold endShard
  refine .trans ?_ (pumpAll_arrivals _)
  split
  · exact .refl _
  · exact .trans (.ite (.bump (by decide) (.inr (by decide)) ..) (refusalShown_arrivals ..)) (respond_arrivals ..)

theorem lives_endShard (s : State) (a : Arrival) (status : Nat) (more : List Byte) : (endShard s a status more).net.lives = s.net.lives :=
  (endShard_arrivals ..).lives

theorem length_arrivalGone {s : State} {a : Arrival} (h : a ∈ s.weights.arriving) :
    (arrivalGone s a).weights.arriving.length + 1 = s.weights.arriving.length := by
  have some_ := List.length_pos_of_mem h
  show (s.weights.arriving.erase a).length + 1 = _
  rw [List.length_erase_of_mem h]
  omega

theorem length_endShard {s : State} {a : Arrival} (h : a ∈ s.weights.arriving) (status : Nat) (more : List Byte) :
    (endShard s a status more).weights.arriving.length + 1 = s.weights.arriving.length := by
  rw [(endShard_arrivals ..).count, length_arrivalGone h]

end Sys2Proof.Machine
end

section
/-! SUPPORT. Epoch messages (R279, R281 to R285): an epoch that opens, a switch that is accepted, and an epoch that is retired. -/

namespace Sys2Proof.Machine

open Sys2Proof Sys2Proof.Claims

/-! ## The epoch entries of a pen -/

theorem epochOf_lt {s : State} {p id k : Nat} (h : epochOf s p id = some k) : k < 2 := by
  rw [epochOf, Option.ite_none_left_eq_some] at h
  exact List.mem_range.mp (List.mem_of_find?_eq_some h.2)

theorem freeEpoch_lt {s : State} {p k : Nat} (h : freeEpoch s p = some k) : k < 2 := List.mem_range.mp (List.mem_of_find?_eq_some h)

theorem state_of_freeEpoch {s : State} {p k : Nat} (h : freeEpoch s p = some k) : rd s (penPg p) F.EPOCH0_STATE k = 0 := by
  have empty := List.find?_some h
  exact beq_iff_eq.mp (Bool.and_eq_true_iff.mp empty).2

section

variable {s : State} {h : MsgHead} (order : sendsInOrder s h) (b : List Byte)

include order

theorem epochId_taken {k : Nat} (hk : k < 2) : rd (taken s h b) (penPg h.pen) F.EPOCH0_ID k = rd s (penPg h.pen) F.EPOCH0_ID k :=
  (taken_passes order b).rdPen_below h.pen.isLt (by decide) hk

theorem epochState_taken {k : Nat} (hk : k < 2) : rd (taken s h b) (penPg h.pen) F.EPOCH0_STATE k = rd s (penPg h.pen) F.EPOCH0_STATE k :=
  (taken_passes order b).rdPen_below h.pen.isLt (by decide) hk

theorem epochUse_taken {k : Nat} (hk : k < 2) : rd (taken s h b) (penPg h.pen) F.EPOCH2 k = rd s (penPg h.pen) F.EPOCH2 k :=
  (taken_passes order b).rdPen_below h.pen.isLt (by decide) hk

theorem epochOf_taken (id : Nat) : epochOf (taken s h b) h.pen id = epochOf s h.pen id := by
  have same : ∀ k ∈ List.range 2, (rd (taken s h b) (penPg h.pen) F.EPOCH0_ID k == id) = (rd s (penPg h.pen) F.EPOCH0_ID k == id) :=
    fun k hk => by rw [epochId_taken order b (List.mem_range.mp hk)]
  rw [epochOf, List.find?_congr same, epochOf]

theorem freeEpoch_taken : freeEpoch (taken s h b) h.pen = freeEpoch s h.pen :=
  List.find?_congr fun k hk => by
    rw [epochId_taken order b (List.mem_range.mp hk), epochState_taken order b (List.mem_range.mp hk)]

theorem epochNeeded_taken (p id : Nat) (held : Bool) : epochNeeded (taken s h b) p id held = epochNeeded s p id held := by
  rw [epochNeeded, droves_taken order, epochNeeded]

/-- A switch is judged on the epochs as they were before the message came (R281 to R283). -/
theorem switchStatus_taken (id policy : Nat) : switchStatus (taken s h b) h.pen id policy = switchStatus s h.pen id policy := by
  have pending : rd (taken s h b) (penPg h.pen) F.EPOCH_SWITCH_PENDING = rd s (penPg h.pen) F.EPOCH_SWITCH_PENDING :=
    (taken_passes order b).rdPen h.pen.isLt (by decide) (by decide) (by decide)
  unfold switchStatus
  simp only [epochOf_taken order, freeEpoch_taken order, epochNeeded_taken order, pending]
  cases entry : epochOf s h.pen id with
  | none => rfl
  | some k => simp only [epochState_taken order b (epochOf_lt entry)]

end

/-! ## EPOCH_OPEN -/

theorem exec_epochOpen {s : State} {h : MsgHead} (next : nextOn s h) {b : List Byte} (len : b.length = 8)
    (rest : restZero b 0 [(0, 2), (4, 8)] = true) : exec (.epochOpen h b) s = .next (doEpochOpen (own s h) b (taken s h b)) :=
  congrArg Host.Outcome.next (sendIn_message next b 0x30 (len := b.length == 8 && restZero b 0 [(0, 2), (4, 8)])
    (by rw [len, rest]; rfl) fun g => doEpochOpen g b)

/-- The state with a free entry of a pen given to an epoch of `n` shards. -/
def epochOpened (s : State) (p k id n : Nat) : State :=
  wr (wr (wr s (penPg p) F.EPOCH0_ID k id) (penPg p) F.EPOCH1_COUNT k n) (penPg p) F.EPOCH0_STATE k 1

theorem epochOpened_via (s : State) (p k id n : Nat) : Via [.regs] s (epochOpened s p k id n) :=
  .step (wr_via ..) rfl (.step (wr_via ..) rfl (wr_via ..))

/-- The words of an entry hold its ID, state and shard count apart from one another (R287). -/
theorem epochFields_apart : ∀ k < 2, place F.EPOCH1_COUNT k ≠ place F.EPOCH0_ID k ∧ place F.EPOCH0_STATE k ≠ place F.EPOCH0_ID k
    ∧ place F.EPOCH0_STATE k ≠ place F.EPOCH1_COUNT k := by decide

section

variable {k : Nat} (hk : k < 2) (s : State) (p : Nat)

include hk

theorem id_epochOpened {id : Nat} (fits : id < 2 ^ 16) (n : Nat) : rd (epochOpened s p k id n) (penPg p) F.EPOCH0_ID k = id := by
  obtain ⟨count, state, -⟩ := epochFields_apart k hk
  rw [epochOpened, rd_wr_place state, rd_wr_place count]
  exact rd_wr_lt fits ..

theorem count_epochOpened (id : Nat) {n : Nat} (fits : n < 2 ^ 16) : rd (epochOpened s p k id n) (penPg p) F.EPOCH1_COUNT k = n := by
  obtain ⟨-, -, state⟩ := epochFields_apart k hk
  rw [epochOpened, rd_wr_place state]
  exact rd_wr_lt fits ..

end

theorem state_epochOpened (s : State) (p k id n : Nat) : rd (epochOpened s p k id n) (penPg p) F.EPOCH0_STATE k = 1 := rd_wr_lt (by decide) ..

theorem doEpochOpen_of_free {u : State} {g : MsgHead} {b : List Byte} {k : Nat} (named : fieldNat b 0 2 ≠ 0) (some_ : fieldNat b 4 4 ≠ 0)
    (few : fieldNat b 4 4 ≤ 65535) (new : epochOf u g.pen (fieldNat b 0 2) = none) (free : freeEpoch u g.pen = some k) :
    doEpochOpen g b u = respond (epochOpened u g.pen k (fieldNat b 0 2) (fieldNat b 4 4)) g 0x30 0 [BitVec.ofNat 8 k] := by
  obtain ⟨-, stateId, stateCount⟩ := epochFields_apart k (freeEpoch_lt free)
  have empty : rd (wr (wr u (penPg g.pen) F.EPOCH0_ID k (fieldNat b 0 2)) (penPg g.pen) F.EPOCH1_COUNT k (fieldNat b 4 4)) (penPg g.pen)
      F.EPOCH0_STATE k = 0 := by
    rw [rd_wr_place stateCount.symm, rd_wr_place stateId.symm, state_of_freeEpoch free]
  unfold doEpochOpen
  simp only [new, free]
  rw [if_neg (by omega), if_pos empty]
  rfl

/-- An epoch that opens takes a free entry of its pen (R279). -/
theorem epochOpen_answers {s : State} {h : MsgHead} (next : nextOn s h) {b : List Byte} {k : Nat} (len : b.length = 8)
    (rest : restZero b 0 [(0, 2), (4, 8)] = true) (named : fieldNat b 0 2 ≠ 0) (some_ : fieldNat b 4 4 ≠ 0) (few : fieldNat b 4 4 ≤ 65535)
    (new : epochOf s h.pen (fieldNat b 0 2) = none) (free : freeEpoch s h.pen = some k) :
    Answers (.epochOpen h b) s fun t => rd t (penPg h.pen) F.EPOCH0_ID k = fieldNat b 0 2
      ∧ rd t (penPg h.pen) F.EPOCH1_COUNT k = fieldNat b 4 4 ∧ rd t (penPg h.pen) F.EPOCH0_STATE k = 1
      ∧ answered t h 0x30 0 [BitVec.ofNat 8 k] := by
  have order := next.1.2.1
  have hk := freeEpoch_lt free
  have page : ethPg ≠ penPg h.pen := by have := h.pen.isLt; unfold ethPg penPg; omega
  have inPage : ∀ j < 2, fkey 0 F.EPOCH0_ID j < 131072 ∧ fkey 0 F.EPOCH1_COUNT j < 131072 ∧ fkey 0 F.EPOCH0_STATE j < 131072 := by decide
  obtain ⟨idAt, countAt, stateAt⟩ := inPage k hk
  have kept {f : Field} (inside : fkey 0 f k < 131072) := (respond_page page (.inr (by decide)) (fun _ => False)
    (epochOpened (taken s h b) h.pen k (fieldNat b 0 2) (fieldNat b 4 4)) (h := own s h) (status := 0) 0x30 [BitVec.ofNat 8 k]).field f k inside id
  refine ⟨_, exec_epochOpen next len rest, ?_⟩
  rw [doEpochOpen_of_free (g := own s h) named some_ few ((epochOf_taken order b _).trans new) ((freeEpoch_taken order b).trans free)]
  exact ⟨(kept idAt).trans (id_epochOpened hk _ _ (fieldNat_lt b 0 2) _), (kept countAt).trans (count_epochOpened hk _ _ _ (by omega)),
    (kept stateAt).trans (state_epochOpened ..), answered_via order b (epochOpened_via ..) rfl ..⟩

/-! ## EPOCH_SWITCH -/

theorem exec_epochSwitch {s : State} {h : MsgHead} (next : nextOn s h) {b : List Byte} (len : b.length = 16)
    (rest : restZero b 0 [(0, 3), (8, 16)] = true) : exec (.epochSwitch h b) s = .next (doEpochSwitch (own s h) b (taken s h b)) :=
  congrArg Host.Outcome.next (sendIn_message next b 0x34 (len := b.length == 16 && restZero b 0 [(0, 3), (8, 16)])
    (by rw [len, rest]; rfl) fun g => doEpochSwitch g b)

/-- The registers of a switch that is pending, once its entry has its ID. -/
def switchShown (s : State) (p k policy when_ : Nat) : State :=
  wrPair (wr0 (wr0 (wr0 s (penPg p) F.EPOCH_SWITCH_PENDING 1) (penPg p) F.EPOCH_SWITCH_POLICY policy) (penPg p) F.EPOCH_SWITCH_ENTRY k)
    (penPg p) F.EPOCH_SW_T_LO F.EPOCH_SW_T_HI when_

theorem pending_switchShown (s : State) (p k policy when_ : Nat) : rd (switchShown s p k policy when_) (penPg p) F.EPOCH_SWITCH_PENDING = 1 := by
  unfold switchShown wrPair wr0
  iterate 4 rw [rd_wr_place (by decide)]
  exact rd_wr_lt (by decide) ..

theorem policy_switchShown (s : State) (p k policy when_ : Nat) :
    rd (switchShown s p k policy when_) (penPg p) F.EPOCH_SWITCH_POLICY = policy % 2 := by
  unfold switchShown wrPair wr0
  iterate 3 rw [rd_wr_place (by decide)]
  exact rd_wr ..

theorem entry_switchShown (s : State) (p k policy when_ : Nat) : rd (switchShown s p k policy when_) (penPg p) F.EPOCH_SWITCH_ENTRY = k % 2 := by
  unfold switchShown wrPair wr0
  iterate 2 rw [rd_wr_place (by decide)]
  exact rd_wr ..

theorem when_switchShown {when_ : Nat} (fits : when_ < 2 ^ 64) (s : State) (p k policy : Nat) :
    rdPair (switchShown s p k policy when_) (penPg p) F.EPOCH_SW_T_LO F.EPOCH_SW_T_HI = when_ := by
  unfold switchShown wrPair wr0
  rw [rdPair, rd_wr_place (f := F.EPOCH_SW_T_HI) (by decide), rd_wr, rd_wr_lt (v := when_ / 2 ^ 32) (Nat.div_lt_of_lt_mul fits)]
  exact Nat.mod_add_div ..

/-- The state in which a switch of a pen has been accepted (R281). -/
def switchAccepted (s : State) (p k id policy when_ : Nat) : State :=
  let u := switchShown (wr s (penPg p) F.EPOCH0_ID k id) p k policy when_
  u.setWeights { u.weights with switched := putD 0 u.weights.switched p 0 }

theorem rd_switchAccepted (s : State) (p k id policy when_ pg : Nat) (f : Field) : rd (switchAccepted s p k id policy when_) pg f =
    rd (switchShown (wr s (penPg p) F.EPOCH0_ID k id) p k policy when_) pg f := rfl

theorem switchAccepted_via (s : State) (p k id policy when_ : Nat) : Via [.regs, .weights] s (switchAccepted s p k id policy when_) :=
  .step (setWeights_via ..) rfl (.step (wrPair_via ..) rfl (.step (wr0_via ..) rfl (.step (wr0_via ..) rfl (.step (wr0_via ..) rfl
    (.step (wr_via ..) rfl (.refl _ s))))))

theorem doEpochSwitch_of_accepted {u : State} {g : MsgHead} {b : List Byte} {k : Nat}
    (good : switchStatus u g.pen (fieldNat b 0 2) (fieldNat b 2 1) = (0, k)) : doEpochSwitch g b u =
      respond (switchAccepted u g.pen k (fieldNat b 0 2) (fieldNat b 2 1) (fieldNat b 8 8)) g 0x34 0 [BitVec.ofNat 8 k] := by
  unfold doEpochSwitch
  simp only [good]
  rfl

/-- A switch that is accepted is pending (R281). -/
theorem epochSwitch_answers {s : State} {h : MsgHead} (next : nextOn s h) {b : List Byte} {k : Nat} (len : b.length = 16)
    (rest : restZero b 0 [(0, 3), (8, 16)] = true) (good : switchStatus s h.pen (fieldNat b 0 2) (fieldNat b 2 1) = (0, k)) :
    Answers (.epochSwitch h b) s fun t => rd t (penPg h.pen) F.EPOCH_SWITCH_PENDING = 1 ∧ rd t (penPg h.pen) F.EPOCH_SWITCH_ENTRY = k % 2
      ∧ rd t (penPg h.pen) F.EPOCH_SWITCH_POLICY = fieldNat b 2 1 % 2
      ∧ rdPair t (penPg h.pen) F.EPOCH_SW_T_LO F.EPOCH_SW_T_HI = fieldNat b 8 8 ∧ answered t h 0x34 0 [BitVec.ofNat 8 k] := by
  have order := next.1.2.1
  have page : ethPg ≠ penPg h.pen := by have := h.pen.isLt; unfold ethPg penPg; omega
  have kept {f : Field} (inside : fkey 0 f 0 < 131072) := ((respond_page page (.inr (by decide)) (fun _ => False)
    (switchAccepted (taken s h b) h.pen k (fieldNat b 0 2) (fieldNat b 2 1) (fieldNat b 8 8)) (h := own s h) (status := 0) 0x34
    [BitVec.ofNat 8 k]).field f 0 inside id).trans (rd_switchAccepted ..)
  refine ⟨_, exec_epochSwitch next len rest, ?_⟩
  rw [doEpochSwitch_of_accepted (g := own s h) ((switchStatus_taken order b _ _).trans good), own_pen]
  refine ⟨(kept (by decide)).trans (pending_switchShown ..), (kept (by decide)).trans (entry_switchShown ..),
    (kept (by decide)).trans (policy_switchShown ..), ?_, answered_via order b (switchAccepted_via ..) rfl ..⟩
  rw [rdPair, kept (by decide), kept (by decide)]
  exact when_switchShown ((fieldNat_lt b 8 8).trans_eq (by norm_num)) ..

/-! ## EPOCH_RETIRE -/

theorem exec_epochRetire {s : State} {h : MsgHead} (next : nextOn s h) {b : List Byte} (len : b.length = 2) :
    exec (.epochRetire h b) s = .next (doEpochRetire (own s h) b (taken s h b)) :=
  congrArg Host.Outcome.next (sendIn_message next b 0x35 (len := b.length == 2) (by rw [len]; rfl) fun g => doEpochRetire g b)

/-- A set of keys with one key put in. -/
def withKey (ks : List Nat) (e : Nat) : List Nat := if ks.contains e then ks else ks ++ [e]

theorem contains_withKey (ks : List Nat) (e : Nat) : (withKey ks e).contains e = true := by
  unfold withKey
  split
  case isTrue there => exact there
  case isFalse => simp

theorem endShards_keep (s : State) (xs : List Arrival) (status : Nat) :
    (forEach s xs fun u a => endShard u a status []).weights.retiring = s.weights.retiring
      ∧ (forEach s xs fun u a => endShard u a status []).net.lives = s.net.lives :=
  forEach_keeps (I := fun u => u.weights.retiring = s.weights.retiring ∧ u.net.lives = s.net.lives)
    (fun u a _ ⟨retiring, lives⟩ => ⟨(endShard_arrivals u a status []).retiring.trans retiring, (lives_endShard u a status []).trans lives⟩)
    ⟨rfl, rfl⟩

/-- An epoch that is not CURRENT, that nothing uses and that no drove requires is retired, whatever arrives for it (R284). -/
theorem doEpochRetire_of_idle {u : State} {g : MsgHead} {b : List Byte} {k : Nat} (named : fieldNat b 0 2 ≠ 0)
    (entry : epochOf u g.pen (fieldNat b 0 2) = some k) (state : rd u (penPg g.pen) F.EPOCH0_STATE k ∈ [1, 2, 4])
    (unused : rd u (penPg g.pen) F.EPOCH2 k = 0) (free : epochNeeded u g.pen (fieldNat b 0 2) true = false) :
    ∃ w, doEpochRetire g b u = respond w g 0x35 0 ∧ w.weights.retiring = withKey u.weights.retiring (epochKey g.pen k)
      ∧ w.net.lives = u.net.lives := by
  have live : rd u (penPg g.pen) F.EPOCH0_STATE k ≠ 0 ∧ rd u (penPg g.pen) F.EPOCH0_STATE k ≠ 3 := by
    simp only [List.mem_cons, List.not_mem_nil, or_false] at state
    omega
  have held : (epochOf u g.pen (fieldNat b 0 2)).filter (fun k => rd u (penPg g.pen) F.EPOCH0_STATE k != 0) = some k := by
    rw [entry]
    exact Option.filter_some_pos (bne_iff_ne.mpr live.1)
  unfold doEpochRetire
  simp only [held, if_neg named, if_neg live.2, unused, free]
  refine ⟨_, rfl, ?_⟩
  exact endShards_keep ..

/-- An epoch that is retired waits for the next tick boundary (R284). -/
theorem epochRetire_answers {s : State} {h : MsgHead} (next : nextOn s h) {b : List Byte} {k : Nat} (len : b.length = 2)
    (named : fieldNat b 0 2 ≠ 0) (entry : epochOf s h.pen (fieldNat b 0 2) = some k) (state : rd s (penPg h.pen) F.EPOCH0_STATE k ∈ [1, 2, 4])
    (unused : rd s (penPg h.pen) F.EPOCH2 k = 0) (free : epochNeeded s h.pen (fieldNat b 0 2) true = false) :
    Answers (.epochRetire h b) s fun t => t.weights.retiring.contains (epochKey h.pen k) = true ∧ answered t h 0x35 0 [] := by
  have order := next.1.2.1
  have hk := epochOf_lt entry
  obtain ⟨w, retires, retiring, lives⟩ := doEpochRetire_of_idle (u := taken s h b) (g := own s h) named ((epochOf_taken order b _).trans entry)
    ((epochState_taken order b hk).symm ▸ state) ((epochUse_taken order b hk).trans unused) ((epochNeeded_taken order b ..).trans free)
  refine ⟨_, exec_epochRetire next len, ?_⟩
  rw [retires]
  refine ⟨?_, answered_own order b lives ..⟩
  rw [(respond_arrivals ..).retiring, retiring]
  exact contains_withKey ..

/-- Settles O41: each message acts on the state in which it is taken, whose epochs and droves are those of before. -/
theorem epochsOpenSwitchAndRetire : Obligations.EpochsOpenSwitchAndRetire := by
  unfold Obligations.EpochsOpenSwitchAndRetire
  refine fun s h next => ⟨fun b k len rest named some_ few new free => ?opens, fun b k len rest good => ?switches,
    fun b k len named entry state unused free => ?retires⟩
  case opens =>
    exact ((epochOpen_answers next len rest named some_ few new free).within (execEpochOpen_via ..)).imp
      fun t ⟨⟨epoch, count, state, answer⟩, only⟩ => ⟨epoch, count, state, answer, only⟩
  case switches =>
    exact ((epochSwitch_answers next len rest good).within (execEpochSwitch_via ..)).imp
      fun t ⟨⟨pending, entry, policy, at_, answer⟩, only⟩ => ⟨pending, entry, policy, at_, answer, only⟩
  case retires =>
    exact ((epochRetire_answers next len named entry state unused free).within (execEpochRetire_via ..)).imp
      fun t ⟨⟨retiring, answer⟩, only⟩ => ⟨retiring, answer, only⟩

end Sys2Proof.Machine
end

section
/-! SUPPORT. Shard requests (R270 to R272): a fetch, a push whose header passes, and a cancel. -/

namespace Sys2Proof.Machine

open Sys2Proof Sys2Proof.Claims

/-! ## Connections that a fetch wants -/

theorem arriving_setTargetQp (s : State) (t q : Nat) : (setTargetQp s t q).weights.arriving = s.weights.arriving := rfl

theorem arriving_connectTarget (s : State) (t : Nat) : (connectTarget s t).weights.arriving = s.weights.arriving := by
  have sent (u : State) (o : Out) : (emitFrame u o).weights = u.weights := (emitFrame_via ..).piece (p := .weights) rfl
  have made (u : State) (q : Nat) (x : Qp) : (newQp u q x).weights = u.weights := (newQp_via ..).piece (p := .weights) rfl
  unfold connectTarget
  dsimp only
  split
  · rw [sent, arriving_setTargetQp, made]
    rfl
  · rfl

theorem arriving_wantTarget (s : State) (t : Nat) : (wantTarget s t).weights.arriving = s.weights.arriving := by
  unfold wantTarget
  split
  · exact arriving_connectTarget ..
  · rfl

theorem mem_addArrival (s : State) (a : Arrival) : a ∈ (addArrival s a).weights.arriving := List.mem_concat_self

theorem length_addArrival (s : State) (a : Arrival) : (addArrival s a).weights.arriving.length = s.weights.arriving.length + 1 :=
  List.length_append ..

/-! ## SHARD_FETCH -/

theorem exec_shardFetch {s : State} {h : MsgHead} (next : nextOn s h) {b : List Byte} (len : b.length = 24)
    (rest : restZero b 0 [(0, 1), (4, 24)] = true) : exec (.shardFetch h b) s = .next (doShardFetch (own s h) b (taken s h b)) :=
  congrArg Host.Outcome.next (sendIn_message next b 0x31 (len := b.length == 24 && restZero b 0 [(0, 1), (4, 24)])
    (by rw [len, rest]; rfl) fun g => doShardFetch g b)

/-- An arrival of a message, before anything of it is there. -/
def newArrival (g : MsgHead) (x : ShardSource) : Arrival :=
  { head := some g, source := x, cmds := [], asked := 0, place := none, header := [], repair := false, held := none }

/-- The source that a fetch names (R271). -/
def fetchSource (b : List Byte) : ShardSource := ⟨false, fieldNat b 0 1, fieldNat b 4 4, fieldNat b 8 8, fieldNat b 16 8⟩

theorem doShardFetch_of_owned {u : State} {g : MsgHead} {b : List Byte} (target : fieldNat b 0 1 ≤ 63) (len : fieldNat b 16 8 ≠ 0)
    (there : rd u wloadPg F.WL_TARGET_STATE (fieldNat b 0 1) ≠ 0) (owner : rd u wloadPg F.WL_TARGET_PEN (fieldNat b 0 1) = g.pen) :
    doShardFetch g b u = pumpAll (wantTarget (addArrival u (newArrival g (fetchSource b))) (fieldNat b 0 1)) := by
  unfold doShardFetch
  dsimp only
  rw [if_neg (not_or.mpr ⟨by omega, len⟩), if_neg (not_or.mpr ⟨there, not_not.mpr owner⟩)]
  rfl

/-- A fetch from a target of its pen joins the arriving shards (R271). -/
theorem shardFetch_answers {s : State} {h : MsgHead} (next : nextOn s h) {b : List Byte} (len : b.length = 24)
    (rest : restZero b 0 [(0, 1), (4, 24)] = true) (target : fieldNat b 0 1 ≤ 63) (some_ : fieldNat b 16 8 ≠ 0)
    (there : rd s wloadPg F.WL_TARGET_STATE (fieldNat b 0 1) ≠ 0) (owner : rd s wloadPg F.WL_TARGET_PEN (fieldNat b 0 1) = h.pen) :
    Answers (.shardFetch h b) s fun t => t.weights.arriving.length = s.weights.arriving.length + 1
      ∧ ∃ a ∈ t.weights.arriving, a.head = some (own s h) ∧ a.source = fetchSource b := by
  have order := next.1.2.1
  have inPage : ∀ j < 64, fkey 0 F.WL_TARGET_STATE j < 131072 ∧ fkey 0 F.WL_TARGET_PEN j < 131072 := by decide
  obtain ⟨stateIn, penIn⟩ := inPage _ (Nat.lt_succ_of_le target)
  have pumped := pumpAll_arrivals (wantTarget (addArrival (taken s h b) (newArrival (own s h) (fetchSource b))) (fieldNat b 0 1))
  have arrives := mem_addArrival (taken s h b) (newArrival (own s h) (fetchSource b))
  rw [← arriving_wantTarget _ (fieldNat b 0 1)] at arrives
  obtain ⟨a, listed, on⟩ := pumped.kept _ arrives
  refine ⟨_, exec_shardFetch next len rest, ?_⟩
  rw [doShardFetch_of_owned (g := own s h) target some_ ((rd_taken_wload order b stateIn).trans_ne there)
    ((rd_taken_wload order b penIn).trans owner)]
  exact ⟨by rw [pumped.count, arriving_wantTarget, length_addArrival, weights_taken order], a, listed, on.head, on.source⟩

/-! ## SHARD_PUSH -/

section

variable {p : Nat} (hp : p < 16) (s : State) (n : Nat)

include hp

/-- The number of shards under way is not shown on the pages of pens (R287). -/
theorem rdPen_showActive {f : Field} {i : Nat} (inPage : fkey 0 f i < 131072) :
    rd (wr0 s wloadPg F.WL_ACTIVE n) (penPg p) f i = rd s (penPg p) f i := by
  have page : wloadPg ≠ penPg p := by unfold wloadPg penPg; omega
  exact rd_wr_ne _ _ _ _ _ _ _ _ (fkey_ne (by decide) inPage (.inl page))

theorem epochOf_showActive (id : Nat) : epochOf (wr0 s wloadPg F.WL_ACTIVE n) p id = epochOf s p id := by
  have inPage : ∀ k < 2, fkey 0 F.EPOCH0_ID k < 131072 := by decide
  have same : ∀ k ∈ List.range 2, (rd (wr0 s wloadPg F.WL_ACTIVE n) (penPg p) F.EPOCH0_ID k == id) = (rd s (penPg p) F.EPOCH0_ID k == id) :=
    fun k hk => by rw [rdPen_showActive hp s n (inPage k (List.mem_range.mp hk))]
  rw [epochOf, List.find?_congr same, epochOf]

theorem count_showActive {k : Nat} (hk : k < 2) :
    rd (wr0 s wloadPg F.WL_ACTIVE n) (penPg p) F.EPOCH1_COUNT k = rd s (penPg p) F.EPOCH1_COUNT k := by
  have inPage : ∀ k < 2, fkey 0 F.EPOCH1_COUNT k < 131072 := by decide
  exact rdPen_showActive hp s n (inPage k hk)

theorem takesShards_showActive {k : Nat} (hk : k < 2) : takesShards (wr0 s wloadPg F.WL_ACTIVE n) p k = takesShards s p k := by
  have inPage : ∀ k < 2, fkey 0 F.EPOCH1_RESIDENT k < 131072 := by decide
  rw [takesShards, count_showActive hp s n hk, rdPen_showActive hp s n (inPage k hk)]
  rfl

theorem damagedEntry_showActive (h : ShardHeader) : damagedEntry (wr0 s wloadPg F.WL_ACTIVE n) p h = damagedEntry s p h := by
  unfold damagedEntry
  rw [epochOf_showActive hp]
  cases entry : epochOf s p h.epoch with
  | none => rfl
  | some k => simp only [Option.filter_some, count_showActive hp s n (epochOf_lt entry), epochShards, wr0_weights]

theorem placementOk_showActive (h : ShardHeader) (a : Arrival) (same : Option (Nat × Nat)) :
    placementOk (wr0 s wloadPg F.WL_ACTIVE n) p h a same = placementOk s p h a same := by
  have extents : extents (wr0 s wloadPg F.WL_ACTIVE n) p = extents s p :=
    (OnlyPlaces.wr0 (here := offExtents) (.refl _ s) (by decide) wloadPg n).extents p
  have regions : penRegions (wr0 s wloadPg F.WL_ACTIVE n) p = penRegions s p := by
    have field {f : Field} := rdPen_showActive hp s n (f := f) (i := 0)
    unfold penRegions journalRegion prefixRegion prefixSets kvRegion contextRegion checkpointRegion
    simp (disch := decide) only [field]
  unfold placementOk inWindow winSize
  rw [extents, regions]
  rfl

/-- A header is judged the same whether or not the number of shards under way has been shown. -/
theorem headerStatus_showActive (a : Arrival) (hd : List Byte) :
    headerStatus (wr0 s wloadPg F.WL_ACTIVE n) p a hd = headerStatus s p a hd := by
  have arriving (k index : Nat) : arrivingIndex (wr0 s wloadPg F.WL_ACTIVE n) p a k index = arrivingIndex s p a k index := rfl
  have shards (k : Nat) : epochShards (wr0 s wloadPg F.WL_ACTIVE n) p k = epochShards s p k := rfl
  unfold headerStatus
  simp only [damagedEntry_showActive hp, placementOk_showActive hp, epochOf_showActive hp, arriving, shards]
  cases entry : epochOf s p (shardHeader hd).epoch with
  | none => rfl
  | some k => simp only [takesShards_showActive hp s n (epochOf_lt entry), count_showActive hp s n (epochOf_lt entry)]

end

/-- A fetch that the device started itself keeps its header as it is (R278). -/
theorem readHeader_of_started {a : Arrival} (head : a.head = none) (s : State) (hd : List Byte) :
    readHeader s a hd = putArrival s a { a with header := hd } := by
  unfold readHeader
  simp only [head]

/-- A header that passes gives its arrival a place (R273). -/
theorem readHeader_of_pass {s : State} {a : Arrival} {m : MsgHead} (head : a.head = some m) {hd : List Byte}
    (pass : (headerStatus s m.pen a hd).1 = 0) : ∃ k rep, readHeader s a hd = putArrival s a
      { a with header := hd, repair := rep, place := some (k, (shardHeader hd).index, (shardHeader hd).addr - (shardHeader hd).buffer,
               (shardHeader hd).addr + (shardHeader hd).size) } := by
  unfold readHeader
  simp only [head]
  exact ⟨_, _, if_pos pass⟩

theorem exec_shardPush {s : State} {h : MsgHead} (next : nextOn s h) {b : List Byte} (len : b.length = 16) :
    exec (.shardPush h b) s = .next (doShardPush (own s h) b (taken s h b)) :=
  congrArg Host.Outcome.next (sendIn_message next b 0x32 (len := b.length == 16) (by rw [len]; rfl) fun g => doShardPush g b)

/-- The source that a push names (R272). -/
def pushSource (b : List Byte) : ShardSource := ⟨true, 0, 0, fieldNat b 0 8, fieldNat b 8 8⟩

theorem doShardPush_of_inside {u : State} {g : MsgHead} {b : List Byte} (aligned : fieldNat b 0 8 % 4096 = 0) (len : fieldNat b 8 8 ≠ 0)
    (inside : inWindow u g.pen (fieldNat b 0 8) (fieldNat b 8 8) = true) :
    let v := addArrival u (newArrival g (pushSource b))
    doShardPush g b u = readHeader (wr0 v wloadPg F.WL_ACTIVE (underWay v).length) (newArrival g (pushSource b))
      (winBytes v g.pen (fieldNat b 0 8) 256) := by
  unfold doShardPush
  dsimp only
  rw [if_neg (not_or.mpr ⟨not_not.mpr aligned, len⟩), if_neg (by rw [inside]; decide)]
  rfl

/-- A push of a container in the window joins the arriving shards, once its header passes (R272, R273). -/
theorem shardPush_answers {s : State} {h : MsgHead} (next : nextOn s h) {b : List Byte} (len : b.length = 16)
    (aligned : fieldNat b 0 8 % 4096 = 0) (some_ : fieldNat b 8 8 ≠ 0) (inside : inWindow s h.pen (fieldNat b 0 8) (fieldNat b 8 8) = true) :
    let a := newArrival (own s h) (pushSource b)
    let u := addArrival (taken s h b) a
    Answers (.shardPush h b) s fun t => (headerStatus u h.pen a (winBytes u h.pen (fieldNat b 0 8) 256)).1 = 0 →
      ∃ x ∈ t.weights.arriving, x.head = some (own s h) ∧ x.source = a.source ∧ x.place ≠ none := by
  intro a u
  refine ⟨_, exec_shardPush next len, fun pass => ?_⟩
  rw [doShardPush_of_inside (g := own s h) aligned some_ ((inWindow_taken next.1.2.1 b ..).trans inside)]
  obtain ⟨k, rep, read⟩ := readHeader_of_pass (s := wr0 u wloadPg F.WL_ACTIVE (underWay u).length) (a := a) (m := own s h) rfl
    (hd := winBytes u h.pen (fieldNat b 0 8) 256) ((congrArg Prod.fst (headerStatus_showActive h.pen.isLt ..)).trans pass)
  have listed : a ∈ (wr0 u wloadPg F.WL_ACTIVE (underWay u).length).weights.arriving := by
    rw [wr0_weights]
    exact mem_addArrival ..
  rw [own_pen, read]
  exact ⟨_, mem_putArrival listed _, rfl, rfl, Option.some_ne_none _⟩

/-! ## ARRIVAL_CANCEL -/

theorem exec_arrivalCancel {s : State} {h : MsgHead} (next : nextOn s h) {b : List Byte} (len : b.length = 8) :
    exec (.arrivalCancel h b) s = .next (doArrivalCancel (own s h) b (taken s h b)) :=
  congrArg Host.Outcome.next (sendIn_message next b 0x33 (len := b.length == 8) (by rw [len]; rfl) fun g => doArrivalCancel g b)

/-- A cancel that names no arrival of its pen is answered so (R270, R285). -/
theorem arrivalCancel_unknown {s : State} {h : MsgHead} (next : nextOn s h) {b : List Byte} (len : b.length = 8)
    (unknown : findArrival s h.pen (fieldNat b 0 8) = none) :
    Answers (.arrivalCancel h b) s fun t => answered t h 0x33 0x25 [] ∧ Only [.regs, .net, .out] s t := by
  have order := next.1.2.1
  have turned : doArrivalCancel (own s h) b (taken s h b) = respond (taken s h b) (own s h) 0x33 0x25 := by
    unfold doArrivalCancel
    rw [own_pen, findArrival_taken order, unknown]
    rfl
  refine ⟨_, exec_arrivalCancel next len, ?_⟩
  rw [turned]
  exact ⟨answered_own order b rfl .., ((taken_passes order b).via.trans (respond_via ..)).same⟩

/-- A cancelled arrival leaves the arriving shards (R270). -/
theorem arrivalCancel_answers {s : State} {h : MsgHead} (next : nextOn s h) {b : List Byte} (len : b.length = 8) {a : Arrival}
    (found : findArrival s h.pen (fieldNat b 0 8) = some a) :
    Answers (.arrivalCancel h b) s fun t => t.weights.arriving.length + 1 = s.weights.arriving.length ∧ answered t h 0x33 0 [] := by
  have order := next.1.2.1
  have arrives : a ∈ (taken s h b).weights.arriving := by
    rw [weights_taken order]
    exact List.mem_of_find?_eq_some found
  have cancelled : doArrivalCancel (own s h) b (taken s h b) = respond (endShard (taken s h b) a 0x0B []) (own s h) 0x33 0 := by
    unfold doArrivalCancel
    rw [own_pen, findArrival_taken order, found]
    rfl
  refine ⟨_, exec_arrivalCancel next len, ?_⟩
  rw [cancelled]
  refine ⟨?_, answered_own order b (lives_endShard ..) ..⟩
  rw [(respond_arrivals ..).count, length_endShard arrives, weights_taken order]

end Sys2Proof.Machine
end

section
/-! SUPPORT. Loader events (R271, R278): a read that completes, that fails and is sent again, and that does not complete in time. -/

namespace Sys2Proof.Machine

open Sys2Proof Sys2Proof.Claims

/-! ## The command of an event -/

theorem findCmd_some {s : State} {t cid : Nat} {a : Arrival} {c : NvmeCmd} (h : findCmd s t cid = some (a, c)) :
    a ∈ s.weights.arriving ∧ a.source.target = t ∧ c ∈ a.cmds := by
  obtain ⟨x, arrives, here⟩ := List.exists_of_findSome?_eq_some h
  rw [Option.ite_none_left_eq_some, Option.map_eq_some_iff] at here
  obtain ⟨target, d, found, same⟩ := here
  obtain ⟨rfl, rfl⟩ := Prod.mk.inj same
  exact ⟨arrives, not_not.mp (not_or.mp target).2, List.mem_of_find?_eq_some found⟩

theorem mem_setCmd {a : Arrival} {c : NvmeCmd} (h : c ∈ a.cmds) (d : NvmeCmd) : d ∈ (a.setCmd c d).cmds :=
  List.mem_map.mpr ⟨c, h, if_pos rfl⟩

/-! ## The packets of a completion (R346) -/

/-- The state in which the packets of a completion have come in order on a queue pair: those of `n` bytes, and the entry. -/
def completionCame (s : State) (q n : Nat) (k : Pkt) : State := packetsTaken s q ((if n = 0 then 0 else (getQp s q).packets n) + 1) k

section

variable {s : State} {q t : Nat} {k : Pkt}

theorem completionIn_of_ordered (qp : targetQp s t = some q) (o : ordered s q k) (n : Nat) (g : State → State) :
    completionIn s t n k g = g (completionCame s q n k) := by
  unfold completionIn
  simp only [qp]
  exact takePackets_of_ordered o _ g

theorem completionCame_pass (s : State) (q n : Nat) (k : Pkt) : PacketsPass s (completionCame s q n k) := packetsTaken_pass ..

theorem weights_completionCame (s : State) (q n : Nat) (k : Pkt) : (completionCame s q n k).weights = s.weights :=
  (completionCame_pass ..).via.piece (p := .weights) rfl

theorem targetQp_of_weights {s u : State} (h : u.weights = s.weights) (t : Nat) : targetQp u t = targetQp s t := by
  rw [targetQp, h, targetQp]

theorem st_noteCe (s : State) (q : Nat) : (getQp (noteCe s q) q).st = (getQp s q).st := by
  have counted : getQp (bump s ethPg F.ECN_CE_RX) q = getQp s q := (bump_via ..).getQp rfl q
  have sent (u : State) : getQp (emitFrame u (.cnp q)) q = getQp u q := (emitFrame_via ..).getQp rfl q
  unfold noteCe
  dsimp only
  split
  · rw [counted]
  · rw [sent, (bump_via ..).getQp rfl, getQp_putQp, counted]

/-- A queue pair stays in its state when packets come. -/
theorem st_completionCame (s : State) (q n : Nat) (k : Pkt) : (getQp (completionCame s q n k) q).st = (getQp s q).st := by
  have noted : (getQp (ceNoted s q k) q).st = (getQp s q).st := by
    unfold ceNoted
    split
    · exact st_noteCe s q
    · rfl
  have acknowledged (u : State) (psn : Nat) : getQp (sendRcAck u q psn 0) q = getQp u q := (emitFrame_via ..).getQp rfl q
  unfold completionCame packetsTaken
  rw [acknowledged, movePsn, getQp_putQp, ← noted]

/-- A counter of the weight loader is not written by packets. -/
theorem rd_completionCame (s : State) (q n : Nat) (k : Pkt) {f : Field} (inPage : fkey 0 f 0 < 131072) :
    rd (completionCame s q n k) wloadPg f = rd s wloadPg f := by
  have other (g : Field) (hg : fkey 0 g 0 < 131072) : (fkey ethPg g 0 != fkey wloadPg f 0) = true :=
    bne_iff_ne.mpr (fkey_ne hg inPage (.inl (by decide)))
  refine (completionCame_pass s q n k).fields _ _ _ ?_
  simp only [packetKeys, List.all_cons, List.all_nil, Bool.and_true, Bool.and_eq_true]
  exact ⟨other _ (by decide), other _ (by decide), other _ (by decide), other _ (by decide)⟩

end

/-! ## NVME_COMPLETION with data -/

/-- The bytes of a read: as many as it asked for. -/
def NvmeCmd.filled (c : NvmeCmd) (data : List Byte) : List Byte := data.take c.len ++ List.replicate (c.len - data.length) (0 : Byte)

/-- An arrival with the data of one of its reads. -/
def Arrival.withData (a : Arrival) (c : NvmeCmd) (data : List Byte) : Arrival := a.setCmd c { c with data := some (c.filled data) }

/-- The state in which the data of a read is there. -/
def dataThere (s : State) (a : Arrival) (c : NvmeCmd) (data : List Byte) : State :=
  putArrival (countIn s (min (c.off + c.len) a.source.len - max c.off 256)) a (a.withData c data)

theorem arriving_countIn (s : State) (n : Nat) : (countIn s n).weights.arriving = s.weights.arriving := by
  have counted (u : State) (n : Nat) : (bump u wloadPg F.WL_MIB_IN n).weights = u.weights := (bump_via ..).piece (p := .weights) rfl
  unfold countIn
  rw [counted]
  rfl

section

variable {s : State} {a : Arrival} (c : NvmeCmd) (data : List Byte)

theorem mem_dataThere (arrives : a ∈ s.weights.arriving) : a.withData c data ∈ (dataThere s a c data).weights.arriving :=
  mem_putArrival (by rwa [arriving_countIn]) _

theorem length_dataThere (s : State) (a : Arrival) : (dataThere s a c data).weights.arriving.length = s.weights.arriving.length := by
  rw [dataThere, length_putArrival, arriving_countIn]

end

section

variable {s : State} {t : Fin 64} {cid q : Nat} {a : Arrival} {c : NvmeCmd} (found : findCmd s t cid = some (a, c)) (qp : targetQp s t = some q)

include found qp

/-- A completion with data gives its arrival the data; the first read holds the header (R271, R273). -/
theorem exec_nvmeCompletion_ok {k : Pkt} (o : ordered s q k) (data : List Byte) : exec (.nvmeCompletion t cid ⟨true, k⟩ data) s =
    let u := dataThere (completionCame s q c.len k) a c data
    .next (pumpAll (if c.off = 0 then readHeader u (a.withData c data) ((c.filled data).take (min 256 a.source.len)) else u)) := by
  show execNvmeCompletion t cid ⟨true, k⟩ data s = _
  unfold execNvmeCompletion
  simp only [found, completionIn_of_ordered qp o, Bool.not_true, Bool.false_eq_true, if_false, if_true]
  rfl

/-- A read that completes past the header leaves its data with its arrival (R271). -/
theorem nvmeCompletion_gives_data {k : Pkt} (o : ordered s q k) (data : List Byte) (past : c.off ≠ 0) :
    Answers (.nvmeCompletion t cid ⟨true, k⟩ data) s fun u =>
      (∃ b ∈ u.weights.arriving, b.head = a.head ∧ b.source = a.source ∧ ∃ d ∈ b.cmds, d.off = c.off ∧ d.data = some (c.filled data))
        ∧ u.weights.arriving.length = s.weights.arriving.length := by
  obtain ⟨arrives, -, command⟩ := findCmd_some found
  have pumped := pumpAll_arrivals (dataThere (completionCame s q c.len k) a c data)
  obtain ⟨b, listed, on⟩ := pumped.kept _ (mem_dataThere c data (by rwa [weights_completionCame]))
  refine ⟨_, exec_nvmeCompletion_ok found qp o data, ?_⟩
  rw [if_neg past]
  refine ⟨⟨b, listed, on.head, on.source, _, on.cmds _ (mem_setCmd command _), rfl, rfl⟩, ?_⟩
  rw [pumped.count, length_dataThere, weights_completionCame]

/-- A read that holds the header of a fetch that the device started leaves the header with its arrival (R271, R278). -/
theorem nvmeCompletion_gives_header {k : Pkt} (o : ordered s q k) (data : List Byte) (first : c.off = 0) (started : a.head = none) :
    Answers (.nvmeCompletion t cid ⟨true, k⟩ data) s fun u => ∃ b ∈ u.weights.arriving, b.source = a.source
      ∧ b.header = (c.filled data).take (min 256 a.source.len) := by
  obtain ⟨arrives, -, -⟩ := findCmd_some found
  have there := mem_dataThere c data (s := completionCame s q c.len k) (by rwa [weights_completionCame])
  have read := readHeader_of_started (a := a.withData c data) started (dataThere (completionCame s q c.len k) a c data)
    ((c.filled data).take (min 256 a.source.len))
  obtain ⟨b, listed, on⟩ := (pumpAll_arrivals _).kept _ (mem_putArrival there _)
  refine ⟨_, exec_nvmeCompletion_ok found qp o data, ?_⟩
  rw [if_pos first, read]
  exact ⟨b, listed, on.source, on.header⟩

end

/-! ## Reads that are sent again -/

/-- A read as it is sent again, with a new identifier (R271). -/
def NvmeCmd.again (c : NvmeCmd) (cid : Nat) : NvmeCmd := { c with cid := cid, tries := c.tries + 1 }

/-- The state in which a read is to be sent again. -/
def retryCounted (s : State) (a : Arrival) (c : NvmeCmd) : State :=
  putArrival (newCid (bump s wloadPg F.WL_NVME_RETRY)).2 a (a.setCmd c (c.again s.weights.cid))

theorem retryCounted_via (s : State) (a : Arrival) (c : NvmeCmd) : Via [.regs, .weights] s (retryCounted s a c) :=
  .step (putArrival_via ..) rfl (.step (newCid_via ..) rfl (.step (bump_via ..) rfl (.refl _ s)))

section

variable {s : State} {a : Arrival} {c : NvmeCmd}

theorem weights_bump_retry (s : State) : (bump s wloadPg F.WL_NVME_RETRY).weights = s.weights := (bump_via ..).piece (p := .weights) rfl

theorem cid_newCid (s : State) : (newCid s).2.weights.cid = (s.weights.cid + 1) % 65536 := rfl

theorem cid_retryCounted (s : State) (a : Arrival) (c : NvmeCmd) : (retryCounted s a c).weights.cid = (s.weights.cid + 1) % 65536 := by
  have kept (u : State) (x y : Arrival) : (putArrival u x y).weights.cid = u.weights.cid := rfl
  rw [retryCounted, kept, cid_newCid, weights_bump_retry]

theorem rd_retryCounted (s : State) (a : Arrival) (c : NvmeCmd) (pg : Nat) (f : Field) :
    rd (retryCounted s a c) pg f = rd (bump s wloadPg F.WL_NVME_RETRY) pg f :=
  ((putArrival_via ..).rd rfl ..).trans ((newCid_via _).rd rfl ..)

theorem targetQp_retryCounted (s : State) (a : Arrival) (c : NvmeCmd) (t : Nat) : targetQp (retryCounted s a c) t = targetQp s t := by
  have kept (u : State) (x y : Arrival) : targetQp (putArrival u x y) t = targetQp u t := rfl
  have numbered (u : State) : targetQp (newCid u).2 t = targetQp u t := rfl
  rw [retryCounted, kept, numbered, targetQp_of_weights (weights_bump_retry s)]

theorem out_post (s : State) (q n : Nat) (o : Out) : (post s q n o).out = s.out ++ [o] := by
  have counted (u : State) (m : Nat) : (bump u ethPg F.FRAMES_TX m).out = u.out := (bump_via ..).piece (p := .out) rfl
  unfold post
  show (bump _ ethPg F.FRAMES_TX _).out ++ [o] = _
  rw [counted]
  rfl

variable {q : Nat} (few : c.tries < 3) (qp : targetQp s a.source.target = some q) (connected : (getQp s q).st = 1)

include few qp connected

theorem retryCmd_of_few (status : Nat) : retryCmd s a c status = post (retryCounted s a c) q 64
    (.nvme a.source.target s.weights.cid a.source.nsid a.source.addr c.off c.len) := by
  have target := (targetQp_retryCounted s a c a.source.target).trans qp
  have pair : (getQp (retryCounted s a c) q).st = 1 := by rw [(retryCounted_via ..).getQp rfl, connected]
  have cid : (newCid (bump s wloadPg F.WL_NVME_RETRY)).1 = s.weights.cid := by rw [newCid, weights_bump_retry]
  have wanted : wantTarget (retryCounted s a c) a.source.target = retryCounted s a c := by
    rw [wantTarget, target]
    rfl
  have sent : retryCmd s a c status = sendCmd (wantTarget (retryCounted s a c) a.source.target) a (c.again s.weights.cid) := by
    unfold retryCmd
    rw [if_pos few]
    dsimp only
    rw [cid]
    rfl
  rw [sent, wanted, sendCmd, target]
  exact if_pos pair

/-- A read is sent again on the connection of its target, and the retry is counted (R271, R287). -/
theorem retryCmd_resends (status : Nat) :
    (retryCmd s a c status).out = s.out ++ [.nvme a.source.target s.weights.cid a.source.nsid a.source.addr c.off c.len]
      ∧ (retryCmd s a c status).weights.cid = (s.weights.cid + 1) % 65536
      ∧ (rd s wloadPg F.WL_NVME_RETRY < 2 ^ 32 - 2 → rd (retryCmd s a c status) wloadPg F.WL_NVME_RETRY = rd s wloadPg F.WL_NVME_RETRY + 1)
      ∧ Via [.regs, .weights, .net, .out] s (retryCmd s a c status) := by
  have out : (retryCounted s a c).out = s.out := (retryCounted_via ..).piece (p := .out) rfl
  have weights (o : Out) : (post (retryCounted s a c) q 64 o).weights = (retryCounted s a c).weights :=
    (post_via ..).piece (p := .weights) rfl
  rw [retryCmd_of_few few qp connected]
  refine ⟨by rw [out_post, out], by rw [weights, cid_retryCounted], fun room => ?_,
    .step (post_via ..) rfl (.step (retryCounted_via ..) rfl (.refl _ s))⟩
  rw [(post_page (by decide) (fun _ => False) ..).field _ _ (by decide) id, rd_retryCounted]
  exact rd_bump rfl room

end

section

variable {s : State} {t : Fin 64} {cid q : Nat} {a : Arrival} {c : NvmeCmd} (found : findCmd s t cid = some (a, c)) (qp : targetQp s t = some q)

include found

theorem exec_nvmeTimeout : exec (.nvmeTimeout t cid) s = .next (retryCmd s a c 0x0A) := by
  show execNvmeTimeout t cid s = _
  unfold execNvmeTimeout
  simp only [found]

include qp

theorem exec_nvmeCompletion_fails {k : Pkt} (o : ordered s q k) (data : List Byte) :
    exec (.nvmeCompletion t cid ⟨false, k⟩ data) s = .next (retryCmd (completionCame s q 0 k) a c 0x09) := by
  show execNvmeCompletion t cid ⟨false, k⟩ data s = _
  unfold execNvmeCompletion
  simp only [found, completionIn_of_ordered qp o, Bool.false_eq_true, Bool.not_false, if_false, if_true]

variable (connected : (getQp s q).st = 1)

include connected

/-- A read that has not completed in time is sent again, at most three times (R271). -/
theorem nvmeTimeout_resends (few : c.tries < 3) : Answers (.nvmeTimeout t cid) s fun u =>
    u.out = s.out ++ [.nvme t s.weights.cid a.source.nsid a.source.addr c.off c.len] ∧ u.weights.cid = (s.weights.cid + 1) % 65536
      ∧ (rd s wloadPg F.WL_NVME_RETRY < 2 ^ 32 - 2 → rd u wloadPg F.WL_NVME_RETRY = rd s wloadPg F.WL_NVME_RETRY + 1)
      ∧ Only [.regs, .weights, .net, .out] s u := by
  obtain ⟨-, target, -⟩ := findCmd_some found
  obtain ⟨out, number, count, via⟩ := retryCmd_resends few (by rw [target]; exact qp) connected 0x0A
  rw [target] at out
  exact ⟨_, exec_nvmeTimeout found, out, number, count, via.same⟩

/-- A read that fails is sent again, at most three times (R271). -/
theorem nvmeCompletion_resends (few : c.tries < 3) {k : Pkt} (o : ordered s q k) (data : List Byte) :
    Answers (.nvmeCompletion t cid ⟨false, k⟩ data) s fun u =>
      u.out = (completionIn s t 0 k id).out ++ [.nvme t s.weights.cid a.source.nsid a.source.addr c.off c.len]
        ∧ (rd s wloadPg F.WL_NVME_RETRY < 2 ^ 32 - 2 → rd u wloadPg F.WL_NVME_RETRY = rd s wloadPg F.WL_NVME_RETRY + 1)
        ∧ Only [.regs, .weights, .net, .out] s u := by
  obtain ⟨-, target, -⟩ := findCmd_some found
  have pair : targetQp (completionCame s q 0 k) a.source.target = some q := by
    rw [target, targetQp_of_weights (weights_completionCame ..)]
    exact qp
  obtain ⟨out, -, count, via⟩ := retryCmd_resends few pair ((st_completionCame ..).trans connected) 0x09
  rw [target, weights_completionCame] at out
  rw [rd_completionCame s q 0 k (by decide)] at count
  refine ⟨_, exec_nvmeCompletion_fails found qp o data, ?_, count, (Via.trans ((completionCame_pass ..).via.mono rfl) via).same⟩
  rw [completionIn_of_ordered qp o]
  exact out

end

/-! ## Targets that fail -/

theorem loseTarget_leaves (s : State) {t : Nat} : (loseTarget s t).weights.arriving = s.weights.arriving
    ∧ targetQp (loseTarget s t) t = none ∧ rd (loseTarget s t) wloadPg F.WL_TARGET_STATE t = 3 := by
  have dropped (u : State) : targetQp (dropTarget u t) t = none := by
    have entry : getD Target.none (dropTarget u t).weights.targets t = { getD Target.none u.weights.targets t with qp := 0 } :=
      getD_putD_same ..
    rw [targetQp, entry]
  unfold loseTarget
  split
  · exact ⟨rfl, dropped _, rd_wr_lt (by decide) ..⟩
  · exact ⟨rfl, dropped _, rd_wr_lt (by decide) ..⟩

/-- A timeout past the third retry leaves the target in error and ends its shard (R271, R276, R287). -/
theorem nvmeTimeout_fails {s : State} {t : Fin 64} {cid : Nat} {a : Arrival} {c : NvmeCmd} (found : findCmd s t cid = some (a, c))
    (last : 3 ≤ c.tries) : Answers (.nvmeTimeout t cid) s fun u => rd u wloadPg F.WL_TARGET_STATE t = 3 ∧ targetQp u t = none
      ∧ u.weights.arriving.length + 1 = s.weights.arriving.length := by
  obtain ⟨arrives, target, -⟩ := findCmd_some found
  obtain ⟨arriving, pair, state⟩ := loseTarget_leaves s (t := t)
  have ended := endShard_arrivals (loseTarget s t) a 0x0A []
  have fails : retryCmd s a c 0x0A = endShard (loseTarget s t) a 0x0A [] := by
    rw [retryCmd, if_neg (by omega), if_pos rfl, target]
  refine ⟨_, exec_nvmeTimeout found, ?_⟩
  rw [fails]
  refine ⟨(ended.state t.isLt).trans state, (ended.targetQp t).trans pair, ?_⟩
  rw [length_endShard (by rwa [arriving]), arriving]

/-- Settles O42: requests act on the state in which they are taken (`ArrivalsGoOn` says what becomes of the arrivals when reads go out), and
events on the one in which the completion's packets have come. -/
theorem shardsAreRequestedAndFetched : Obligations.ShardsAreRequestedAndFetched := by
  unfold Obligations.ShardsAreRequestedAndFetched
  refine ⟨fun s h next => ⟨fun b len rest target some_ there owner => ?fetch, fun b len aligned some_ inside => ?push,
    fun b len => ⟨fun unknown => arrivalCancel_unknown next len unknown, fun a found => ?cancel⟩⟩,
    fun s t cid q a c found qp connected => ⟨fun data k o past => ?data, fun data k o first => ?header,
      fun few => ⟨nvmeTimeout_resends found qp connected few, fun data k o => nvmeCompletion_resends found qp connected few o data⟩,
      fun last => ?fails⟩⟩
  case fetch =>
    exact ((shardFetch_answers next len rest target some_ there owner).within (execShardFetch_via ..)).imp
      fun t ⟨⟨count, arrives⟩, only⟩ => ⟨count, arrives, only⟩
  case push => exact (shardPush_answers next len aligned some_ inside).within (execShardPush_via ..)
  case cancel =>
    exact ((arrivalCancel_answers next len found).within (execArrivalCancel_via ..)).imp fun t ⟨⟨gone, answer⟩, only⟩ => ⟨gone, answer, only⟩
  case data =>
    exact ((nvmeCompletion_gives_data found qp o data past).within (execNvmeCompletion_via ..)).imp
      fun u ⟨⟨arrives, count⟩, only⟩ => ⟨arrives, count, only⟩
  case header =>
    refine Answers.within ?_ (execNvmeCompletion_via ..)
    by_cases started : a.head = none
    · exact (nvmeCompletion_gives_header found qp o data first started).imp fun u arrives _ => arrives
    · exact ⟨_, exec_nvmeCompletion_ok found qp o data, fun none => absurd none started⟩
  case fails =>
    exact ((nvmeTimeout_fails found last).within (execNvmeTimeout_via ..)).imp
      fun u ⟨⟨state, pair, count⟩, only⟩ => ⟨state, pair, count, only⟩

end Sys2Proof.Machine
end

section
/-! SUPPORT. MGMT messages that come in order (R356), and the entries of NVMe targets (R271, R346). -/

namespace Sys2Proof.Machine

open Sys2Proof Sys2Proof.Claims

/-! ## MGMT messages -/

section

variable {s : State} {h : MsgHead} (next : nextOn s h) (first : h.pen = 0)

include next first

/-- A MGMT message of pen 0, well formed, has its effect on the state in which it is taken. -/
theorem sendIn_mgmt (b : List Byte) {ok : Bool} (formed : ok = true) (g : MsgHead → State → State) :
    sendIn s h b.length (fun u => mgmt u h ok g) = g (own s h) (taken s h b) := by
  have sender : (h.pen.val == 0) = true := by rw [first]; rfl
  simp only [mgmt, sender]
  exact sendIn_message next b 0x40 formed g

/-- A UPD_CONTROL message of the firmware has the effect of its action. -/
theorem sendIn_control {b : List Byte} (len : b.length = 3) (kind : num b 0 1 = 4) (object : num b 1 1 = 0) {action : Nat}
    (names : num b 2 1 = action) (g : MsgHead → Nat → State → State) :
    sendIn s h b.length (fun u => control u h b action g) = g (own s h) 0 (taken s h b) := by
  have formed : (b.length == 3 && num b 0 1 == 4 && decide (num b 1 1 < 2) && num b 2 1 == action) = true := by
    simp [len, kind, object, names]
  unfold control
  rw [sendIn_mgmt next first b formed, object]

end

theorem showUpd_page {pg : Nat} (h : updPg ≠ pg) (here : Nat → Prop) (s : State) : PageOnly pg here s (showUpd s) := by
  unfold showUpd
  iterate 7 refine .wr (i := 0) ?_ (by decide) (.inl h) _
  exact .refl pg here s

section

variable {s : State} {h : MsgHead} (order : sendsInOrder s h) (b : List Byte)

include order

theorem answered_answerMgmt {u : State} (lives : u.net.lives = (taken s h b).net.lives) (status : Nat) (more : List Byte) :
    answered (answerMgmt u (own s h) status more) h 0x40 status more :=
  answered_own order b (((showUpd_via u).lives rfl).trans lives) ..

/-- A message that is answered without another effect. -/
theorem answerMgmt_only (status : Nat) (more : List Byte) :
    answered (answerMgmt (taken s h b) (own s h) status more) h 0x40 status more
      ∧ (answerMgmt (taken s h b) (own s h) status more).boot = s.boot
      ∧ Only [.regs, .net, .out] s (answerMgmt (taken s h b) (own s h) status more) :=
  ⟨answered_answerMgmt order b rfl .., ((answerMgmt_via ..).piece (p := .boot) rfl).trans (boot_taken order b),
    ((taken_passes order b).via.trans (answerMgmt_via ..)).same⟩

end

/-! ## Queue pairs of targets -/

theorem roomForQp_congr {s t : State} (net : t.net = s.net) {p : Nat} (quota : rd t (penPg p) F.PEN_QP_QUOTA = rd s (penPg p) F.PEN_QP_QUOTA) :
    roomForQp t p = roomForQp s p := by
  have pair : getQp t = getQp s := funext fun q => by rw [getQp, net, getQp]
  unfold roomForQp allQps qpsUsed
  rw [net, quota, pair]

/-- The state of a queue pair does not change when messages go out on it. -/
theorem st_post (s : State) (q n : Nat) (o : Out) (j : Nat) : (getQp (post s q n o) j).st = (getQp s j).st := by
  unfold post
  rw [(emit_via ..).getQp rfl, (bump_via ..).getQp rfl]
  show (getD Qp.init (putD Qp.init s.net.qps q _) j).st = _
  rw [getD_putD]
  split
  case isTrue same => rw [same]
  case isFalse => rfl

theorem st_sendHost (s : State) (pen ch : Nat) (bytes : List Byte) (j : Nat) : (getQp (sendHost s pen ch bytes) j).st = (getQp s j).st := by
  unfold sendHost
  split
  · exact st_post ..
  · rfl

theorem st_respond (s : State) (h : MsgHead) (typ status : Nat) (more : List Byte) (j : Nat) :
    (getQp (respond s h typ status more) j).st = (getQp s j).st := by
  unfold respond
  split
  · rfl
  · have counted : getQp (if 0xF0 ≤ status ∧ status ≤ 0xF4 then bump s (penPg h.pen) F.SHOB_BAD_CNT else s) j = getQp s j := by
      split
      · exact (bump_via ..).getQp rfl j
      · rfl
    exact (st_sendHost ..).trans (congrArg Qp.st counted)

/-- The state in which a target is asked for a connection on a queue pair (R271, R346). -/
def targetAsked (s : State) (p t q : Nat) : State :=
  emitFrame (setTargetQp (newQp s q { Qp.init with st := 3, pen := p }) t (q + 1)) (.cmRequest t q)

section

variable (s : State) (p t q : Nat)

theorem targetAsked_page (here : Nat → Prop) : PageOnly wloadPg here s (targetAsked s p t q) :=
  .via (.bump (.of_via (.step (setTargetQp_via ..) rfl (.mono (ps := [.free, .net, .weights]) (newQp_via ..) rfl)) rfl) (by decide)
    (.inl (by decide)) _) (emit_via ..) rfl

theorem lives_targetAsked : (targetAsked s p t q).net.lives = s.net.lives := by
  unfold targetAsked
  rw [(emitFrame_via ..).lives rfl, (setTargetQp_via ..).lives rfl]
  rfl

/-- A target names the queue pair on which it is asked, and keeps the rest of its entry. -/
theorem target_targetAsked : getD Target.none (targetAsked s p t q).weights.targets t =
    { getD Target.none s.weights.targets t with qp := q + 1 } := by
  have sent (u : State) : (emitFrame u (.cmRequest t q)).weights = u.weights := (emitFrame_via ..).piece (p := .weights) rfl
  unfold targetAsked
  rw [sent, setTargetQp]
  exact getD_putD_same ..

theorem targetQp_targetAsked : targetQp (targetAsked s p t q) t = some q := by rw [targetQp, target_targetAsked]

theorem st_targetAsked : (getQp (targetAsked s p t q) q).st = 3 := by
  unfold targetAsked
  rw [(emitFrame_via ..).getQp rfl, (setTargetQp_via ..).getQp rfl]
  show (getQp (putQp _ q _) q).st = 3
  rw [getQp_putQp]

end

theorem connectTarget_of_room {s : State} {t q : Nat} (room : roomForQp (wr s wloadPg F.WL_TARGET_STATE t 1) (rd s wloadPg F.WL_TARGET_PEN t) = some q) :
    connectTarget s t = targetAsked (wr s wloadPg F.WL_TARGET_STATE t 1) (rd s wloadPg F.WL_TARGET_PEN t) t q := by
  unfold connectTarget
  simp only [room]
  rfl

theorem connectTarget_of_full {s : State} {t : Nat} (full : roomForQp (wr s wloadPg F.WL_TARGET_STATE t 1) (rd s wloadPg F.WL_TARGET_PEN t) = none) :
    connectTarget s t = wr s wloadPg F.WL_TARGET_STATE t 1 := by
  unfold connectTarget
  simp only [full]

/-- A target that is to be connected: it is connecting, whether or not a queue pair is free, and keeps its owner and its name. -/
structure Connects (t : Nat) (s u : State) : Prop where
  /-- its state -/
  state : rd u wloadPg F.WL_TARGET_STATE t = 1
  /-- its pen -/
  owner : rd u wloadPg F.WL_TARGET_PEN t = rd s wloadPg F.WL_TARGET_PEN t
  /-- its subsystem -/
  nqn : (getD Target.none u.weights.targets t).nqn = (getD Target.none s.weights.targets t).nqn
  /-- how often each channel has closed -/
  lives : u.net.lives = s.net.lives

/-- The words of a target hold its state and its pen apart from one another, within the page (R287). -/
theorem targetFields_apart : ∀ t < 64, place F.WL_TARGET_STATE t ≠ place F.WL_TARGET_PEN t ∧ fkey 0 F.WL_TARGET_STATE t < 131072
    ∧ fkey 0 F.WL_TARGET_PEN t < 131072 := by decide

theorem connectTarget_connects {t : Nat} (ht : t < 64) (s : State) : Connects t s (connectTarget s t) := by
  obtain ⟨apart, stateIn, penIn⟩ := targetFields_apart t ht
  have state : rd (wr s wloadPg F.WL_TARGET_STATE t 1) wloadPg F.WL_TARGET_STATE t = 1 := rd_wr_lt (by decide) ..
  have owner := rd_wr_place apart s wloadPg wloadPg 1
  cases room : roomForQp (wr s wloadPg F.WL_TARGET_STATE t 1) (rd s wloadPg F.WL_TARGET_PEN t) with
  | none =>
    rw [connectTarget_of_full room]
    exact ⟨state, owner, rfl, rfl⟩
  | some q =>
    have page := targetAsked_page (wr s wloadPg F.WL_TARGET_STATE t 1) (rd s wloadPg F.WL_TARGET_PEN t) t q fun _ => False
    rw [connectTarget_of_room room]
    refine ⟨(page.field _ _ stateIn id).trans state, (page.field _ _ penIn id).trans owner, ?_, lives_targetAsked ..⟩
    rw [target_targetAsked]
    rfl

/-! ## NVME_TARGET_ENTRY -/

/-- The state in which the place of a target has lost its queue pair. -/
def targetFreed (s : State) (t : Nat) : State := match targetQp s t with
  | some q => putQp s q Qp.init
  | none => s

/-- The target that an entry describes (R356). -/
def entryTarget (e : List Byte) : Target := { port := num e 3 2, addr := slice e 7 16, nqn := slice e 23 223, qp := 0 }

/-- The state in which an entry has filled the place of its target, before a connection is asked for. -/
def targetFilled (s : State) (e : List Byte) : State :=
  let u := targetFreed s (num e 0 1)
  wr (u.setWeights { u.weights with targets := putD Target.none u.weights.targets (num e 0 1) (entryTarget e) }) wloadPg F.WL_TARGET_PEN
    (num e 0 1) (num e 1 1)

theorem putTarget_eq (s : State) (e : List Byte) : putTarget s e = connectTarget (targetFilled s e) (num e 0 1) := rfl

theorem owner_targetFilled {e : List Byte} (pen : num e 1 1 < 16) (s : State) :
    rd (targetFilled s e) wloadPg F.WL_TARGET_PEN (num e 0 1) = num e 1 1 := rd_wr_lt pen ..

theorem target_targetFilled (s : State) (e : List Byte) : getD Target.none (targetFilled s e).weights.targets (num e 0 1) = entryTarget e := by
  unfold targetFilled
  exact getD_putD_same ..

theorem lives_targetFilled (s : State) (e : List Byte) : (targetFilled s e).net.lives = s.net.lives := by
  show (targetFreed s (num e 0 1)).net.lives = _
  unfold targetFreed
  split <;> rfl

theorem net_targetFilled {s : State} {e : List Byte} (alone : targetQp s (num e 0 1) = none) : (targetFilled s e).net = s.net := by
  show (targetFreed s (num e 0 1)).net = _
  unfold targetFreed
  simp only [alone]

/-- The quotas of queue pairs stand on the pages of pens. -/
theorem quota_targetFilled {p : Nat} (hp : p < 16) {e : List Byte} (target : num e 0 1 < 64) {s : State} (v : Nat) :
    rd (wr (targetFilled s e) wloadPg F.WL_TARGET_STATE (num e 0 1) v) (penPg p) F.PEN_QP_QUOTA = rd s (penPg p) F.PEN_QP_QUOTA := by
  obtain ⟨-, stateIn, penIn⟩ := targetFields_apart _ target
  have page : wloadPg ≠ penPg p := by unfold wloadPg penPg; omega
  have freed : rd (targetFreed s (num e 0 1)) (penPg p) F.PEN_QP_QUOTA = rd s (penPg p) F.PEN_QP_QUOTA := by
    unfold targetFreed
    split <;> rfl
  unfold targetFilled
  rw [rd_wr_ne _ _ _ _ _ _ _ _ (fkey_ne stateIn (by decide) (.inl page)), rd_wr_ne _ _ _ _ _ _ _ _ (fkey_ne penIn (by decide) (.inl page)),
    rd_setWeights, freed]

/-- A place without a queue pair takes one when its pen has room (R271, R346). -/
theorem putTarget_of_room {s : State} {e : List Byte} {q : Nat} (target : num e 0 1 < 64) (pen : num e 1 1 < 16)
    (alone : targetQp s (num e 0 1) = none) (room : roomForQp s (num e 1 1) = some q) :
    putTarget s e = targetAsked (wr (targetFilled s e) wloadPg F.WL_TARGET_STATE (num e 0 1) 1) (num e 1 1) (num e 0 1) q := by
  have owner := owner_targetFilled pen s
  have same : roomForQp (wr (targetFilled s e) wloadPg F.WL_TARGET_STATE (num e 0 1) 1) (num e 1 1) = some q := by
    have net : (wr (targetFilled s e) wloadPg F.WL_TARGET_STATE (num e 0 1) 1).net = s.net := net_targetFilled alone
    rw [roomForQp_congr net (quota_targetFilled pen target 1), room]
  rw [putTarget_eq, connectTarget_of_room (owner.symm ▸ same), owner]

theorem num_drop (b : List Byte) (k a n : Nat) : num (b.drop k) a n = num b (k + a) n := by
  rw [num, slice, List.drop_drop, num, slice]

theorem exec_nvmeTargetEntry {s : State} {h : MsgHead} (next : nextOn s h) (first : h.pen = 0) {b : List Byte} (len : b.length = 247)
    (kind : num b 0 1 = 1) (target : num b 1 1 < 64) (pen : num b 2 1 < 16) (zero : num b 3 1 = 0) :
    exec (.nvmeTargetEntry h b) s = .next (doNvmeTarget (own s h) b (taken s h b)) :=
  congrArg Host.Outcome.next (sendIn_mgmt next first b
    (ok := b.length == 247 && num b 0 1 == 1 && decide (num b 1 1 < 64) && decide (num b 2 1 < 16) && num b 3 1 == 0)
    (by simp [len, kind, target, pen, zero]) fun g => doNvmeTarget g b)

/-- What an entry leaves once the settings of the running bank have it and the message is answered is what it leaves of the loader. -/
theorem doNvmeTarget_leaves (g : MsgHead) (b : List Byte) (u : State) :
    (doNvmeTarget g b u).weights = (putTarget u (b.drop 1)).weights ∧ PageOnly wloadPg (fun _ => False) (putTarget u (b.drop 1)) (doNvmeTarget g b u)
      ∧ ∀ q, (getQp (doNvmeTarget g b u) q).st = (getQp (putTarget u (b.drop 1)) q).st := by
  have pen : penPg g.pen ≠ wloadPg := by have := g.pen.isLt; unfold penPg wloadPg; omega
  have kept (w x : State) (h : Via [.regs, .boot] w x) :
      (respond x g 0x40 0).weights = w.weights ∧ ∀ q, (getQp (respond x g 0x40 0) q).st = (getQp w q).st :=
    ⟨((respond_via ..).piece (p := .weights) rfl).trans (h.piece (p := .weights) rfl), fun q => by rw [st_respond, h.getQp rfl]⟩
  unfold doNvmeTarget answerMgmt
  dsimp only
  obtain ⟨weights, pairs⟩ := kept _ _ (.step (showUpd_via _) rfl ((putBank_via ..).mono rfl))
  exact ⟨weights, ((PageOnly.of_via (putBank_via ..) rfl).trans (showUpd_page (by decide) ..)).trans (respond_page (by decide) (.inl pen) ..), pairs⟩

/-- A target entry fills the place of its target, which is asked for a connection when a queue pair is free (R271). -/
theorem nvmeTargetEntry_answers {s : State} {h : MsgHead} (next : nextOn s h) (first : h.pen = 0) {b : List Byte} (len : b.length = 247)
    (kind : num b 0 1 = 1) (target : num b 1 1 < 64) (pen : num b 2 1 < 16) (zero : num b 3 1 = 0) :
    Answers (.nvmeTargetEntry h b) s fun t => rd t wloadPg F.WL_TARGET_PEN (num b 1 1) = num b 2 1
      ∧ rd t wloadPg F.WL_TARGET_STATE (num b 1 1) = 1
      ∧ (∀ q, targetQp s (num b 1 1) = none → roomForQp (taken s h b) (num b 2 1) = some q →
          targetQp t (num b 1 1) = some q ∧ (getQp t q).st = 3)
      ∧ (getD Target.none t.weights.targets (num b 1 1)).nqn = slice (b.drop 1) 23 223 ∧ answered t h 0x40 0 [] := by
  have order := next.1.2.1
  have place : num (b.drop 1) 0 1 = num b 1 1 := num_drop ..
  have owner : num (b.drop 1) 1 1 = num b 2 1 := num_drop ..
  obtain ⟨-, stateIn, penIn⟩ := targetFields_apart _ target
  obtain ⟨weights, page, pairs⟩ := doNvmeTarget_leaves (own s h) b (taken s h b)
  have connects := connectTarget_connects target (targetFilled (taken s h b) (b.drop 1))
  rw [← place, ← putTarget_eq, place] at connects
  refine ⟨_, exec_nvmeTargetEntry next first len kind target pen zero, (page.field _ _ penIn id).trans (connects.owner.trans ?_),
    (page.field _ _ stateIn id).trans connects.state, fun q alone room => ?_, ?_, ?_⟩
  · rw [← place, owner_targetFilled (by rwa [owner]), owner]
  · have free : targetQp (taken s h b) (num (b.drop 1) 0 1) = none := by
      rw [targetQp_of_weights (weights_taken order b), place, alone]
    have put := putTarget_of_room (e := b.drop 1) (by rwa [place]) (by rwa [owner]) free (by rwa [owner])
    rw [targetQp_of_weights weights, pairs, put, place]
    exact ⟨targetQp_targetAsked .., st_targetAsked ..⟩
  · rw [weights, connects.nqn, ← place, target_targetFilled]
    rfl
  · refine answered_answerMgmt order b ?_ ..
    rw [(putBank_via ..).lives rfl, connects.lives, lives_targetFilled]

end Sys2Proof.Machine
end

section
/-! SUPPORT. Updates of the firmware (R470, R472 to R477): the banks of the flash, and the states through which the idle bank moves. -/

namespace Sys2Proof.Machine

open Sys2Proof Sys2Proof.Claims

/-! ## Banks of the flash -/

/-- A bank has the state that is written into its header: that copy is the newer one (R459, R472). -/
theorem Bank.st_mark (b : Bank) (st trial : Nat) : (b.mark st trial).st = st := by
  obtain ⟨head0, head1, manifest, pieces, settings⟩ := b
  cases head0 with
  | none =>
    cases head1 with
    | none => rfl
    | some y => simp [Bank.mark, Bank.st, Bank.head]
  | some x =>
    cases head1 with
    | none => simp [Bank.mark, Bank.st, Bank.head]
    | some y =>
      by_cases older : x.seq < y.seq
      · simp [Bank.mark, Bank.st, Bank.head, older]
      · simp [Bank.mark, Bank.st, Bank.head, older]

theorem getBank_putBank (s : State) (i j : Nat) (x : Bank) :
    getBank (putBank s i x) j = if i = 0 ↔ j = 0 then x else getBank s j := by
  by_cases hi : i = 0 <;> by_cases hj : j = 0 <;> simp [getBank, putBank, putFlash, hi, hj]

@[simp] theorem getBank_putBank_same (s : State) (i : Nat) (x : Bank) : getBank (putBank s i x) i = x := by rw [getBank_putBank, if_pos Iff.rfl]

theorem getBank_of_boot {s t : State} (h : t.boot = s.boot) (i : Nat) : getBank t i = getBank s i := by rw [getBank, h, getBank]

theorem idleBank_of_boot {s t : State} (h : t.boot = s.boot) : idleBank t = idleBank s := by rw [idleBank, h, idleBank]

theorem bankIn_of_boot {s t : State} (h : t.boot = s.boot) (st : Nat) : bankIn t st = bankIn s st := by
  simp only [bankIn, getBank_of_boot h]

theorem Via.getBank {ps : List StatePart} {s t : State} (h : Via ps s t) (k : ps.contains .boot = false) (i : Nat) :
    Machine.getBank t i = Machine.getBank s i := getBank_of_boot (h.piece (p := .boot) k) i

/-- The bank that runs is not the idle one. -/
theorem getBank_putBank_idle (s : State) (x : Bank) : getBank (putBank s (idleBank s) x) s.boot.bank = getBank s s.boot.bank := by
  rw [getBank_putBank, if_neg (by unfold idleBank; omega)]

theorem bankIn_some {s : State} {st i : Nat} (h : bankIn s st = some i) : (getBank s i).st = st := by
  have found := List.find?_some h
  exact beq_iff_eq.mp found

theorem bankIn_of {s : State} {st i : Nat} (hi : i < 2) (here : (getBank s i).st = st) (other : (getBank s (1 - i)).st ≠ st) :
    bankIn s st = some i := by
  obtain rfl | rfl : i = 0 ∨ i = 1 := by omega
  · simp [bankIn, here]
  · have first : (getBank s 0).st ≠ st := other
    simp [bankIn, here, first]

theorem restate_of {s : State} {a i : Nat} (h : bankIn s a = some i) (b : Nat) :
    restate s a b = putBank s i ((getBank s i).mark b (getBank s i).trial) := by
  unfold restate
  simp only [h]

/-! ## What an answer leaves of the banks -/

theorem getBank_answerMgmt (s : State) (h : MsgHead) (status : Nat) (more : List Byte) (i : Nat) :
    getBank (answerMgmt s h status more) i = getBank s i := (answerMgmt_via ..).getBank rfl i

theorem getBank_answerObject (s : State) (h : MsgHead) (obj status i : Nat) : getBank (answerObject s h obj status) i = getBank s i :=
  (answerObject_via ..).getBank rfl i

theorem getBank_refusePiece (s : State) (h : MsgHead) (status i : Nat) : getBank (refusePiece s h status) i = getBank s i :=
  (refusePiece_via ..).getBank rfl i

section

variable {s : State} {h : MsgHead} (order : sendsInOrder s h) (b : List Byte)

include order

theorem getBank_taken (i : Nat) : getBank (taken s h b) i = getBank s i := getBank_of_boot (boot_taken order b) i

theorem idleBank_taken : idleBank (taken s h b) = idleBank s := idleBank_of_boot (boot_taken order b)

theorem bankIn_taken (st : Nat) : bankIn (taken s h b) st = bankIn s st := bankIn_of_boot (boot_taken order b) st

theorem objectThere_taken (live : (getBank s (idleBank s)).st ∈ [1, 2, 3]) : objectThere (taken s h b) 0 = true := by
  have state : (getBank (taken s h b) (idleBank (taken s h b))).st ∈ [1, 2, 3] := by rwa [getBank_taken order, idleBank_taken order]
  simpa [objectThere, or_assoc] using state

/-- A bank is replaced and the message answered. -/
theorem answered_putBank (i : Nat) (x : Bank) (status : Nat) (more : List Byte) :
    getBank (answerMgmt (putBank (taken s h b) i x) (own s h) status more) i = x
      ∧ answered (answerMgmt (putBank (taken s h b) i x) (own s h) status more) h 0x40 status more :=
  ⟨by rw [getBank_answerMgmt, getBank_putBank_same], answered_answerMgmt order b ((putBank_via ..).lives rfl) ..⟩

/-- A piece that is refused changes no bank. -/
theorem refusePiece_only (status : Nat) : answered (refusePiece (taken s h b) (own s h) status) h 0x40 status []
    ∧ (refusePiece (taken s h b) (own s h) status).boot = s.boot ∧ Only [.regs, .net, .out] s (refusePiece (taken s h b) (own s h) status) :=
  ⟨answered_answerMgmt order b ((bump_via ..).lives rfl) .., ((refusePiece_via ..).piece (p := .boot) rfl).trans (boot_taken order b),
    ((taken_passes order b).via.trans (refusePiece_via ..)).same⟩

end

/-- A message of pen 0 leaves the window of that pen. -/
theorem passes_taken_first {s : State} {h : MsgHead} (next : nextOn s h) (first : h.pen = 0) (b : List Byte) :
    MessagePasses 0 s (taken s h b) := by
  have passes := taken_passes next.1.2.1 b
  have pen : h.pen.val = 0 := by rw [first]; rfl
  rwa [pen] at passes

/-! ## UPD_BEGIN -/

section

variable {s : State} {h : MsgHead} (next : nextOn s h) (first : h.pen = 0) {b : List Byte}

include next first

theorem exec_updBegin (len : b.length = 20) (kind : num b 0 1 = 2) (object : num b 1 1 = 0) (zero : zeroAt b 2 6 = true) :
    exec (.updBegin h b) s = .next (beginFirmware (own s h)
      (if inWindow s 0 (num b 8 8) (num b 16 4) then winBytes s 0 (num b 8 8) (num b 16 4) else []) (taken s h b)) := by
  have passes := passes_taken_first next first b
  have window (w n : Nat) : inWindow (taken s h b) 0 w n = inWindow s 0 w n := by
    rw [inWindow, winSize, passes.extents (by decide), inWindow, winSize]
  have bytes (w n : Nat) : winBytes (taken s h b) 0 w n = winBytes s 0 w n := passes.winBytes (by decide) w n
  have begun : doUpdBegin (own s h) b (taken s h b) = beginFirmware (own s h)
      (if inWindow s 0 (num b 8 8) (num b 16 4) then winBytes s 0 (num b 8 8) (num b 16 4) else []) (taken s h b) := by
    rw [doUpdBegin, if_pos object, window, bytes]
  rw [← begun]
  exact congrArg Host.Outcome.next (sendIn_mgmt next first b
    (ok := b.length == 20 && num b 0 1 == 2 && decide (num b 1 1 < 2) && zeroAt b 2 6) (by simp [len, kind, object, zero]) fun g => doUpdBegin g b)

end

theorem beginFirmware_of_bad {m : List Byte} (bad : manifestOk m = false) (g : MsgHead) (u : State) :
    beginFirmware g m u = answerMgmt u g 0x01 := by
  unfold beginFirmware
  rw [bad]
  rfl

theorem beginFirmware_of_old {m : List Byte} (good : manifestOk m = true) (old : Config.romVersion < num m 24 4) (g : MsgHead) (u : State) :
    beginFirmware g m u = answerMgmt u g 0x0B := by
  unfold beginFirmware
  dsimp only
  rw [if_neg (by rw [good]; decide), if_pos old]

/-- A manifest that is accepted fills an empty idle bank, once the flash write succeeds (R473). -/
theorem beginFirmware_of_good {m : List Byte} (good : manifestOk m = true) (new : num m 24 4 ≤ Config.romVersion) {u : State}
    (trial : bankIn u 4 = none) (empty : getBank u (idleBank u) = Bank.empty) (g : MsgHead) :
    beginFirmware g m u = if (flashWrite u).1 then
        answerObject (putBank (flashWrite u).2 (idleBank u) ({ Bank.empty with manifest := m }.mark 1 0)) g 0 0
      else answerMgmt (putBank (flashWrite u).2 (idleBank u) Bank.empty) g 0x0A := by
  have state : Bank.empty.st = 0 := rfl
  unfold beginFirmware
  dsimp only
  rw [if_neg (by rw [good]; decide), if_neg (by omega), trial, if_neg (by decide), empty, state, if_neg (by simp)]
  rfl

theorem flashWrite_succeeds (u : State) : (flashWrite u).1 = decide (Config.freeNat u.free % 4 < 3) := rfl

/-- The bank that a manifest leaves in the place of an empty one (R473). -/
def begunBank (m : List Byte) (free : Nat) : Bank :=
  if manifestOk m = true ∧ num m 24 4 ≤ Config.romVersion ∧ Config.freeNat free % 4 < 3 then { Bank.empty with manifest := m }.mark 1 0
  else Bank.empty

/-- A manifest takes an empty idle bank when it is accepted and written, and leaves the bank that runs (R473). -/
theorem banks_beginFirmware {u : State} (trial : bankIn u 4 = none) (empty : getBank u (idleBank u) = Bank.empty) (g : MsgHead) (m : List Byte) :
    getBank (beginFirmware g m u) (idleBank u) = begunBank m u.free ∧ getBank (beginFirmware g m u) u.boot.bank = getBank u u.boot.bank := by
  by_cases good : manifestOk m = true
  case neg =>
    rw [beginFirmware_of_bad (Bool.not_eq_true _ ▸ good), begunBank, if_neg fun h => good h.1, getBank_answerMgmt, getBank_answerMgmt, empty]
    exact ⟨rfl, rfl⟩
  by_cases new : num m 24 4 ≤ Config.romVersion
  case neg =>
    rw [beginFirmware_of_old good (by omega), begunBank, if_neg fun h => new h.2.1, getBank_answerMgmt, getBank_answerMgmt, empty]
    exact ⟨rfl, rfl⟩
  have boot : (flashWrite u).2.boot = u.boot := (flashWrite_via u).piece (p := .boot) rfl
  have running (x : Bank) : getBank (putBank (flashWrite u).2 (idleBank u) x) u.boot.bank = getBank u u.boot.bank := by
    rw [← idleBank_of_boot boot, ← boot, getBank_putBank_idle, getBank_of_boot boot]
  rw [beginFirmware_of_good good new trial empty, flashWrite_succeeds]
  by_cases written : Config.freeNat u.free % 4 < 3
  · rw [if_pos (decide_eq_true written), begunBank, if_pos ⟨good, new, written⟩, getBank_answerObject, getBank_answerObject]
    exact ⟨getBank_putBank_same .., running _⟩
  · rw [if_neg (by simpa using written), begunBank, if_neg fun h => written h.2.2, getBank_answerMgmt, getBank_answerMgmt]
    exact ⟨getBank_putBank_same .., running _⟩

/-! ## UPD_PIECE -/

section

variable {s : State} {h : MsgHead} (next : nextOn s h) (first : h.pen = 0) {b : List Byte}

include next first

theorem exec_updPiece (len : b.length = 20) (kind : num b 0 1 = 3) (object : num b 1 1 = 0) (zero : zeroAt b 2 2 = true)
    (fits : num b 16 4 ≤ 65536) : exec (.updPiece h b) s =
      .next (pieceFirmware (own s h) (num b 4 4) (winBytes s 0 (num b 8 8) (num b 16 4)) (taken s h b)) := by
  have passes := passes_taken_first next first b
  have bytes (w n : Nat) : winBytes (taken s h b) 0 w n = winBytes s 0 w n := passes.winBytes (by decide) w n
  have pieced : doUpdPiece (own s h) b (taken s h b) =
      pieceFirmware (own s h) (num b 4 4) (winBytes s 0 (num b 8 8) (num b 16 4)) (taken s h b) := by
    unfold doUpdPiece
    dsimp only
    rw [if_neg (by omega), if_pos object, bytes]
  rw [← pieced]
  exact congrArg Host.Outcome.next (sendIn_mgmt next first b
    (ok := b.length == 20 && num b 0 1 == 3 && decide (num b 1 1 < 2) && zeroAt b 2 2) (by simp [len, kind, object, zero]) fun g => doUpdPiece g b)

end

theorem pieceFirmware_of_empty {u : State} (empty : (getBank u (idleBank u)).st = 0) (g : MsgHead) (i : Nat) (data : List Byte) :
    pieceFirmware g i data u = refusePiece u g 0x05 := by
  unfold pieceFirmware
  dsimp only
  rw [empty]
  rfl

/-- A piece that fits a filling bank and its manifest's digest, and is not the last (R474). -/
structure PieceAccepted (x : Bank) (i : Nat) (data : List Byte) : Prop where
  /-- the bank fills -/
  filling : x.st = 1
  /-- index and length -/
  fits : pieceFits (num x.manifest 16 4) (manifestPieces x.manifest) i data.length = true
  /-- it is not there yet -/
  new : getD [] x.pieces i = []
  /-- its digest -/
  digest : sha256 data = slice x.manifest (1024 + 32 * i) 32
  /-- more pieces are to come -/
  more : (putD [] x.pieces i data).length < manifestPieces x.manifest

theorem pieceFirmware_of_accepted {u : State} {i : Nat} {data : List Byte} (accepted : PieceAccepted (getBank u (idleBank u)) i data) (g : MsgHead) :
    pieceFirmware g i data u = if (flashWrite u).1 then
        answerMgmt (putBank (flashWrite u).2 (idleBank u)
          { getBank u (idleBank u) with pieces := putD [] (getBank u (idleBank u)).pieces i data }) g 0
      else refusePiece (flashWrite u).2 g 0x0A := by
  obtain ⟨filling, fits, new, digest, more⟩ := accepted
  unfold pieceFirmware
  dsimp only
  rw [filling, if_neg (by decide), fits, if_neg (by decide), if_neg (not_not.mpr new), if_neg (not_not.mpr digest), if_pos more]
  cases (flashWrite u).1 with
  | false => simp only [Bool.not_false, if_true, Bool.false_eq_true, if_false]
  | true => simp only [Bool.not_true, if_true, Bool.false_eq_true, if_false]

/-- A piece that is accepted joins the idle bank when it is written, and leaves the bank that runs (R474). -/
theorem banks_pieceFirmware {u : State} {i : Nat} {data : List Byte} (accepted : PieceAccepted (getBank u (idleBank u)) i data) (g : MsgHead) :
    getBank (pieceFirmware g i data u) (idleBank u) = (if Config.freeNat u.free % 4 < 3 then
        { getBank u (idleBank u) with pieces := putD [] (getBank u (idleBank u)).pieces i data } else getBank u (idleBank u))
      ∧ getBank (pieceFirmware g i data u) u.boot.bank = getBank u u.boot.bank := by
  have boot : (flashWrite u).2.boot = u.boot := (flashWrite_via u).piece (p := .boot) rfl
  rw [pieceFirmware_of_accepted accepted, flashWrite_succeeds]
  by_cases written : Config.freeNat u.free % 4 < 3
  · rw [if_pos (decide_eq_true written), if_pos written, getBank_answerMgmt, getBank_answerMgmt]
    refine ⟨getBank_putBank_same .., ?_⟩
    rw [← idleBank_of_boot boot, ← boot, getBank_putBank_idle, getBank_of_boot boot]
  · rw [if_neg (by simpa using written), if_neg written, getBank_refusePiece, getBank_refusePiece]
    exact ⟨getBank_of_boot boot _, getBank_of_boot boot _⟩

/-! ## UPD_CONTROL -/

section

variable {s : State} {h : MsgHead} (next : nextOn s h) (first : h.pen = 0) {b : List Byte} (len : b.length = 3) (kind : num b 0 1 = 4)
  (object : num b 1 1 = 0)

include next first len kind object

/-- STATUS of a firmware that is not there says so (R473). -/
theorem updStatus_absent (action : num b 2 1 = 1) (empty : (getBank s (idleBank s)).st = 0) : Answers (.updStatus h b) s fun t =>
    answered t h 0x40 0x05 [] ∧ t.boot = s.boot ∧ Only [.regs, .net, .out] s t := by
  have order := next.1.2.1
  have state : (getBank (taken s h b) (idleBank (taken s h b))).st = 0 := by rw [getBank_taken order, idleBank_taken order, empty]
  have absent : doUpdStatus (own s h) 0 (taken s h b) = answerMgmt (taken s h b) (own s h) 0x05 := by
    unfold doUpdStatus objectThere
    rw [if_pos rfl, state]
    rfl
  exact ⟨_, congrArg Host.Outcome.next ((sendIn_control next first len kind object action doUpdStatus).trans absent), answerMgmt_only order b ..⟩

/-- STATUS of a firmware that is there lists its pieces (R473). -/
theorem updStatus_there (action : num b 2 1 = 1) (live : (getBank s (idleBank s)).st ∈ [1, 2, 3]) : Answers (.updStatus h b) s fun t =>
    answered t h 0x40 0 (pieceMap (manifestPieces (getBank s (idleBank s)).manifest) (getBank s (idleBank s)).pieces) ∧ t.boot = s.boot
      ∧ Only [.regs, .net, .out] s t := by
  have order := next.1.2.1
  have some_ : (getBank s (idleBank s)).st ≠ 0 := fun none => by simp [none] at live
  have shown : doUpdStatus (own s h) 0 (taken s h b) = answerMgmt (taken s h b) (own s h) 0
      (pieceMap (manifestPieces (getBank s (idleBank s)).manifest) (getBank s (idleBank s)).pieces) := by
    unfold doUpdStatus answerObject
    rw [if_pos (objectThere_taken order b live), if_pos rfl, getBank_taken order, idleBank_taken order]
    dsimp only
    rw [if_neg some_]
  exact ⟨_, congrArg Host.Outcome.next ((sendIn_control next first len kind object action doUpdStatus).trans shown), answerMgmt_only order b ..⟩

/-- A COMPLETE bank becomes PENDING (R475). -/
theorem updActivate_answers (action : num b 2 1 = 2) (complete : (getBank s (idleBank s)).st = 2) : Answers (.updActivate h b) s fun t =>
    getBank t (idleBank s) = (getBank s (idleBank s)).mark 3 0 ∧ answered t h 0x40 0 [] := by
  have order := next.1.2.1
  have marked : doUpdActivate (own s h) 0 (taken s h b) =
      answerMgmt (putBank (taken s h b) (idleBank s) ((getBank s (idleBank s)).mark 3 0)) (own s h) 0 := by
    unfold doUpdActivate
    dsimp only
    rw [getBank_taken order, idleBank_taken order, complete, if_neg (by decide), if_neg (by decide), if_pos rfl]
  exact ⟨_, congrArg Host.Outcome.next ((sendIn_control next first len kind object action doUpdActivate).trans marked), answered_putBank order b ..⟩

/-- The bank on trial becomes ACTIVE, and the one that was ACTIVE becomes the FALLBACK (R475). -/
theorem updConfirm_answers (action : num b 2 1 = 3) {i : Nat} (active : bankIn s 5 = some (1 - i)) (trial : bankIn s 4 = some i) (hi : i < 2) :
    Answers (.updConfirm h b) s fun t => (getBank t i).st = 5 ∧ (getBank t (1 - i)).st = 6 ∧ answered t h 0x40 0 [] := by
  have order := next.1.2.1
  have others : ¬(1 - i = 0 ↔ i = 0) := by omega
  let x := (getBank s (1 - i)).mark 6 (getBank s (1 - i)).trial
  let u := putBank (taken s h b) (1 - i) x
  have kept : getBank u i = getBank s i := (getBank_putBank ..).trans ((if_neg others).trans (getBank_taken order b i))
  have put : getBank u (1 - i) = x := getBank_putBank_same ..
  have still : bankIn u 4 = some i := by
    refine bankIn_of hi (by rw [kept, bankIn_some trial]) ?_
    rw [put, Bank.st_mark]
    decide
  have confirmed : doUpdConfirm (own s h) 0 (taken s h b) =
      answerMgmt (putBank u i ((getBank u i).mark 5 (getBank u i).trial)) (own s h) 0 := by
    unfold doUpdConfirm
    rw [if_neg (by decide), bankIn_taken order, trial, if_neg (by simp), restate_of ((bankIn_taken order b 5).trans active), getBank_taken order,
      restate_of still]
  refine ⟨_, congrArg Host.Outcome.next ((sendIn_control next first len kind object action doUpdConfirm).trans confirmed), ?_, ?_,
    answered_answerMgmt order b (((putBank_via ..).lives rfl).trans ((putBank_via ..).lives rfl)) ..⟩
  · rw [getBank_answerMgmt, getBank_putBank_same, Bank.st_mark]
  · rw [getBank_answerMgmt, getBank_putBank, if_neg (by omega), put, Bank.st_mark]

/-- An update that is given up leaves its bank EMPTY (R473). -/
theorem updAbandon_answers (action : num b 2 1 = 4) (live : (getBank s (idleBank s)).st ∈ [1, 2, 3]) : Answers (.updAbandon h b) s fun t =>
    getBank t (idleBank s) = Bank.empty ∧ answered t h 0x40 0 [] := by
  have order := next.1.2.1
  have erased : doUpdAbandon (own s h) 0 (taken s h b) = answerMgmt (putBank (taken s h b) (idleBank s) Bank.empty) (own s h) 0 := by
    unfold doUpdAbandon
    rw [objectThere_taken order b live, if_neg (by decide), if_pos rfl, idleBank_taken order]
  exact ⟨_, congrArg Host.Outcome.next ((sendIn_control next first len kind object action doUpdAbandon).trans erased), answered_putBank order b ..⟩

/-- The bank on trial becomes REJECTED (R475). -/
theorem updRevert_answers (action : num b 2 1 = 5) {i : Nat} (trial : bankIn s 4 = some i) : Answers (.updRevert h b) s fun t =>
    getBank t i = (getBank s i).mark 7 (getBank s i).trial ∧ answered t h 0x40 0 [] := by
  have order := next.1.2.1
  have rejected : doUpdRevert (own s h) 0 (taken s h b) =
      answerMgmt (putBank (taken s h b) i ((getBank s i).mark 7 (getBank s i).trial)) (own s h) 0 := by
    unfold doUpdRevert
    rw [if_neg (by decide), bankIn_taken order, trial, if_neg (by simp), restate_of ((bankIn_taken order b 4).trans trial), getBank_taken order]
  exact ⟨_, congrArg Host.Outcome.next ((sendIn_control next first len kind object action doUpdRevert).trans rejected), answered_putBank order b ..⟩

end

/-! ## A manifest or a piece that comes in order -/

section

variable {s : State} {h : MsgHead} (next : nextOn s h) (first : h.pen = 0) {b : List Byte} (len : b.length = 20) (object : num b 1 1 = 0)

include next first len object

/-- A firmware whose manifest does not lie in the window is refused for its manifest (R473). -/
theorem updBegin_outside (kind : num b 0 1 = 2) (zero : zeroAt b 2 6 = true) (bad : manifestOk [] = false)
    (outside : inWindow s 0 (num b 8 8) (num b 16 4) = false) : Answers (.updBegin h b) s fun t =>
      answered t h 0x40 0x01 [] ∧ t.boot = s.boot ∧ Only [.regs, .net, .out] s t := by
  refine ⟨_, exec_updBegin next first len kind object zero, ?_⟩
  rw [if_neg (by rw [outside]; decide), beginFirmware_of_bad bad]
  exact answerMgmt_only next.1.2.1 b ..

/-- A firmware manifest fills the empty idle bank when it is accepted and written (R473). -/
theorem updBegin_answers (kind : num b 0 1 = 2) (zero : zeroAt b 2 6 = true) {m : List Byte} (bytes : winBytes s 0 (num b 8 8) (num b 16 4) = m)
    (inside : inWindow s 0 (num b 8 8) (num b 16 4) = true) (trial : bankIn s 4 = none) (empty : getBank s (idleBank s) = Bank.empty) :
    Answers (.updBegin h b) s fun t => getBank t (idleBank s) = begunBank m s.free ∧ (manifestOk m = false → answered t h 0x40 0x01 [])
      ∧ getBank t s.boot.bank = getBank s s.boot.bank := by
  have order := next.1.2.1
  obtain ⟨begun, runs⟩ := banks_beginFirmware (u := taken s h b) ((bankIn_taken order b 4).trans trial)
    (by rw [getBank_taken order, idleBank_taken order, empty]) (own s h) m
  rw [idleBank_taken order, free_taken order] at begun
  rw [boot_taken order, getBank_taken order] at runs
  refine ⟨_, exec_updBegin next first len kind object zero, ?_⟩
  rw [if_pos inside, bytes]
  refine ⟨begun, fun bad => ?_, runs⟩
  rw [beginFirmware_of_bad bad]
  exact answered_answerMgmt order b rfl ..

/-- A piece of a firmware that is not there is refused (R473). -/
theorem updPiece_absent (kind : num b 0 1 = 3) (zero : zeroAt b 2 2 = true) (fits : num b 16 4 ≤ 65536)
    (empty : (getBank s (idleBank s)).st = 0) : Answers (.updPiece h b) s fun t =>
      answered t h 0x40 0x05 [] ∧ t.boot = s.boot ∧ Only [.regs, .net, .out] s t := by
  have order := next.1.2.1
  refine ⟨_, exec_updPiece next first len kind object zero fits, ?_⟩
  rw [pieceFirmware_of_empty (by rw [getBank_taken order, idleBank_taken order, empty])]
  exact refusePiece_only order b ..

/-- A piece that is accepted joins the idle bank when it is written (R474). -/
theorem updPiece_answers (kind : num b 0 1 = 3) (zero : zeroAt b 2 2 = true) (fits : num b 16 4 ≤ 65536)
    (accepted : PieceAccepted (getBank s (idleBank s)) (num b 4 4) (winBytes s 0 (num b 8 8) (num b 16 4))) :
    Answers (.updPiece h b) s fun t =>
      getBank t (idleBank s) = (if Config.freeNat s.free % 4 < 3 then { getBank s (idleBank s) with
          pieces := putD [] (getBank s (idleBank s)).pieces (num b 4 4) (winBytes s 0 (num b 8 8) (num b 16 4)) } else getBank s (idleBank s))
        ∧ getBank t s.boot.bank = getBank s s.boot.bank := by
  have order := next.1.2.1
  have bank : getBank (taken s h b) (idleBank (taken s h b)) = getBank s (idleBank s) := by rw [getBank_taken order, idleBank_taken order]
  obtain ⟨joined, runs⟩ := banks_pieceFirmware (u := taken s h b) (bank.symm ▸ accepted) (own s h)
  rw [bank, idleBank_taken order, free_taken order] at joined
  rw [boot_taken order, getBank_taken order] at runs
  exact ⟨_, exec_updPiece next first len kind object zero fits, joined, runs⟩

end

/-- Settles O44: each message acts on the state in which it is taken, whose banks, window and targets are those of before; a bank has the
state that was last written into its header (`Bank.st_mark`). -/
theorem firmwareMovesThroughTheIdleBank : Obligations.FirmwareMovesThroughTheIdleBank := by
  unfold Obligations.FirmwareMovesThroughTheIdleBank
  refine ⟨fun s h next first => ⟨fun b len kind target pen zero => ?target, fun b len kind object zero bad outside =>
      updBegin_outside next first len object kind zero bad outside, fun b len kind object zero fits empty =>
      updPiece_absent next first len object kind zero fits empty, fun b len kind object =>
      ⟨updStatus_absent next first len kind object, updStatus_there next first len kind object, fun action complete => ?activate,
        fun action i active trial hi => ?confirm, fun action live => ?abandon, fun action i trial => ?revert⟩⟩,
    fun s h next first => ⟨fun b len kind object zero => ?manifest, fun b len kind object zero fits => ?piece⟩⟩
  case target =>
    exact ((nvmeTargetEntry_answers next first len kind target pen zero).within (execNvmeTargetEntry_via ..)).imp
      fun t ⟨⟨owner, state, pair, name, answer⟩, only⟩ => ⟨owner, state, pair, name, answer, only⟩
  case activate =>
    exact ((updActivate_answers next first len kind object action complete).within (execUpdActivate_via ..)).imp
      fun t ⟨⟨bank, answer⟩, only⟩ => ⟨bank, answer, only⟩
  case confirm =>
    exact ((updConfirm_answers next first len kind object action active trial hi).within (execUpdConfirm_via ..)).imp
      fun t ⟨⟨confirmed, fallback, answer⟩, only⟩ => ⟨confirmed, fallback, answer, only⟩
  case abandon =>
    exact ((updAbandon_answers next first len kind object action live).within (execUpdAbandon_via ..)).imp
      fun t ⟨⟨bank, answer⟩, only⟩ => ⟨bank, answer, only⟩
  case revert =>
    exact ((updRevert_answers next first len kind object action trial).within (execUpdRevert_via ..)).imp
      fun t ⟨⟨bank, answer⟩, only⟩ => ⟨bank, answer, only⟩
  case manifest =>
    intro m inside trial empty
    exact ((updBegin_answers next first len object kind zero (m := m) rfl inside trial empty).within (execUpdBegin_via ..)).imp
      fun t ⟨⟨begun, refused, runs⟩, only⟩ => ⟨begun, refused, runs, only⟩
  case piece =>
    intro x i data filling fit new _ digest more
    exact ((updPiece_answers next first len object kind zero fits ⟨filling, fit, new, digest, more⟩).within (execUpdPiece_via ..)).imp
      fun t ⟨⟨joined, runs⟩, only⟩ => ⟨joined, runs, only⟩

end Sys2Proof.Machine
end

section
/-! SUPPORT. The message layer between devices (R290, R337 to R339, R397, R399): what sending leaves, how a message is taken by its sequence,
and what acknowledgements and timeouts do to the messages that a source holds. -/

namespace Sys2Proof.Machine

open Sys2Proof

/-! ## Sending -/

/-- The fields that the flits of a message can write, on the page of their link. -/
def sendFields : List (Field × Nat) := [(F.FLITS_TX, 0), (F.STATUS_SAT, 0)]

theorem sendSeq_places (s : State) (l : Nat) (b : Body) : OnlyPlaces (placesOf sendFields) s (sendSeq s l b) := by
  have sent : OnlyPlaces (placesOf sendFields) s (sendNow l s b) := by
    unfold sendNow
    exact .via (.bump (.via (.refl _ s) (putLink_via ..) rfl) (by decide) (by decide) ..) (emitFlit_via ..) rfl
  unfold sendSeq
  exact .ite (.ite sent (.via (.refl _ s) (modLink_via ..) rfl)) (.refl _ s)

theorem sendMsgFlit_places (s : State) (link : Option Nat) (f : MsgFlit) : OnlyPlaces (placesOf sendFields) s (sendMsgFlit s link f) := by
  cases link with
  | none => exact .refl _ s
  | some l => exact sendSeq_places s l _

theorem sendFlits_places (s : State) (link : Option Nat) (dest cls seq : Nat) (data : List Byte) :
    OnlyPlaces (placesOf sendFields) s (sendFlits s link dest cls seq data) :=
  .forEach (fun u f => sendMsgFlit_places u link f) (.refl _ s)

theorem sendAck_places (s : State) (dest cls seq : Nat) : OnlyPlaces (placesOf sendFields) s (sendAck s dest cls seq) :=
  .trans (.via (.refl _ s) (putTx_via ..) rfl) (sendFlits_places ..)

/-- An acknowledgement that goes out is itself a message to the destination; what has come in stays. -/
theorem rx_sendAck (s : State) (dest cls seq : Nat) : (sendAck s dest cls seq).msgs.rx = s.msgs.rx := by
  have sent (u : State) (link : Option Nat) (n : Nat) (data : List Byte) : (sendFlits u link dest 7 n data).msgs = u.msgs :=
    (sendFlits_via ..).piece (p := .msgs) rfl
  unfold sendAck
  rw [sent]
  rfl

/-! ## A message by its sequence (R338, R339) -/

/-- The state in which the next message of a source and class counts as taken and is acknowledged. -/
def messageTaken (s : State) (source cls seq : Nat) : State :=
  sendAck (s.setMsgs { s.msgs with rx := insKey s.msgs.rx (8 * source + cls) (seq + 1) }) source cls seq

/-- The state in which an older message is counted and the last one taken is acknowledged again. -/
def messageRepeated (s : State) (source cls : Nat) : State :=
  sendAck (bump s iodPg F.MSG_DUP_CNT) source cls ((65535 + getD 0 s.msgs.rx (8 * source + cls)) % 65536)

section
variable {s : State} {source cls seq : Nat} {g : State → State}

theorem takeMessage_of_next (next : seq = getD 0 s.msgs.rx (8 * source + cls) % 65536) :
    takeMessage s source cls seq g = g (messageTaken s source cls seq) := if_pos next

theorem takeMessage_of_older (other : seq ≠ getD 0 s.msgs.rx (8 * source + cls) % 65536) (seen : getD 0 s.msgs.rx (8 * source + cls) ≠ 0)
    (older : serialNewer 16 seq (65535 + getD 0 s.msgs.rx (8 * source + cls)) = false) :
    takeMessage s source cls seq g = messageRepeated s source cls :=
  (if_neg other).trans (if_neg (by simp [seen, older]))

theorem takeMessage_of_gap (other : seq ≠ getD 0 s.msgs.rx (8 * source + cls) % 65536)
    (gap : getD 0 s.msgs.rx (8 * source + cls) = 0 ∨ serialNewer 16 seq (65535 + getD 0 s.msgs.rx (8 * source + cls)) = true) :
    takeMessage s source cls seq g = s := (if_neg other).trans (if_pos gap)

end

theorem messageTaken_via (s : State) (source cls seq : Nat) : Via [.regs, .links, .msgs, .out] s (messageTaken s source cls seq) :=
  .step (sendAck_via ..) rfl ((setMsgs_via ..).mono rfl)

theorem rx_messageTaken (s : State) (source cls seq : Nat) :
    getD 0 (messageTaken s source cls seq).msgs.rx (8 * source + cls) = seq + 1 := by
  rw [messageTaken, rx_sendAck]
  exact getD_insKey_same ..

theorem extents_messageTaken (s : State) (source cls seq p : Nat) : extents (messageTaken s source cls seq) p = extents s p :=
  (OnlyPlaces.mono (.trans (.via (.refl _ s) (setMsgs_via ..) rfl) (sendAck_places ..)) (by decide)).extents p

theorem messageRepeated_via (s : State) (source cls : Nat) : Via [.regs, .links, .msgs, .out] s (messageRepeated s source cls) :=
  .step (sendAck_via ..) rfl ((bump_via ..).mono rfl)

theorem rx_messageRepeated (s : State) (source cls : Nat) : (messageRepeated s source cls).msgs.rx = s.msgs.rx := by
  have counted : (bump s iodPg F.MSG_DUP_CNT).msgs = s.msgs := (bump_via ..).piece (p := .msgs) rfl
  rw [messageRepeated, rx_sendAck, counted]

theorem dupCnt_messageRepeated {s : State} (room : rd s iodPg F.MSG_DUP_CNT < 2 ^ 32 - 2) (source cls : Nat) :
    rd (messageRepeated s source cls) iodPg F.MSG_DUP_CNT = rd s iodPg F.MSG_DUP_CNT + 1 := by
  rw [messageRepeated, (sendAck_places ..).field _ _ _ (by decide), rd_bump rfl room]

/-! ## What a message does by its class (R290, R397, R399) -/

/-- What a message does once it is taken: a lane block goes to its flock, a mirror message to its pen's checkpoint area. -/
def messageEffect (m : LinkMsg) : Nat → State → State
  | 1, s => storeBlock s m.data
  | 2, s => storeMirror s m.data
  | _, s => s

/-- The command that brings a message of class `cls`. -/
def Brings (m : LinkMsg) (cls : Nat) (c : Instr) : Prop :=
  (c = .mgmtMessage m ∧ cls = 0) ∨ (c = .laneBlockMessage m ∧ cls = 1) ∨ (c = .checkpointMessage m ∧ cls = 2)

section
variable {m : LinkMsg} {cls : Nat} {c : Instr} (brings : Brings m cls c) {s : State}
include brings

theorem exec_brings_fit (fits : cls = 2 → mirrorFits s m.data = true) :
    exec c s = .next (takeMessage s m.source cls m.seq.toNat (messageEffect m cls)) := by
  rcases brings with ⟨rfl, rfl⟩ | ⟨rfl, rfl⟩ | ⟨rfl, rfl⟩
  · rfl
  · rfl
  · exact congrArg Host.Outcome.next (if_pos (fits rfl))

theorem exec_brings_unfit (mirror : cls = 2) (unfit : mirrorFits s m.data = false) : exec c s = .next s := by
  rcases brings with ⟨-, rfl⟩ | ⟨-, rfl⟩ | ⟨rfl, -⟩
  · cases mirror
  · cases mirror
  · exact congrArg Host.Outcome.next (if_neg (by simp [unfit]))

/-- A message past a gap waits, and a mirror message of other sizes does nothing in any case. -/
theorem exec_brings_gap (other : m.seq.toNat ≠ getD 0 s.msgs.rx (8 * m.source.val + cls) % 65536)
    (gap : getD 0 s.msgs.rx (8 * m.source.val + cls) = 0
      ∨ serialNewer 16 m.seq.toNat (65535 + getD 0 s.msgs.rx (8 * m.source.val + cls)) = true) : exec c s = .next s := by
  by_cases fits : cls = 2 → mirrorFits s m.data = true
  · rw [exec_brings_fit brings fits, takeMessage_of_gap other gap]
  · obtain ⟨mirror, unfit⟩ := Classical.not_imp.mp fits
    exact exec_brings_unfit brings mirror (Bool.eq_false_iff.mpr unfit)

end

/-- What a message does leaves the message layer. -/
theorem msgs_messageEffect (m : LinkMsg) (cls : Nat) (s : State) : (messageEffect m cls s).msgs = s.msgs := by
  unfold messageEffect
  split
  · exact (storeBlock_via ..).piece (p := .msgs) rfl
  · exact (storeMirror_via ..).piece (p := .msgs) rfl
  · rfl

theorem getServing_storeBlock (s : State) (data : List Byte) :
    getServing (storeBlock s data) (fieldNat data 0 1 % 16) = { getServing s (fieldNat data 0 1 % 16) with
      block := data.drop 1, blockStep := fieldNat (data.drop 1) 64 8 + 1 } := getServing_putServing ..

/-- A mirror message is stored in the window of its pen (R399). -/
theorem storeMirror_fills (s : State) (data : List Byte) : FillsWindow (fieldNat data 0 1 % 16) s (storeMirror s data) := coreWrite_fills ..

/-- A checkpoint that is taken changes the bytes of its pen's window alone. -/
theorem storeMirror_messageTaken_onlyBytes (s : State) (source cls seq : Nat) (data : List Byte) :
    OnlyBytes (fun a => windowOf (extents s (fieldNat data 0 1 % 16)) a 0 ≠ none) s (storeMirror (messageTaken s source cls seq) data) := by
  have taken : FillsWindow (fieldNat data 0 1 % 16) s (messageTaken s source cls seq) :=
    ⟨(messageTaken_via ..).same.bytes rfl rfl _, extents_messageTaken ..⟩
  exact (taken.trans (storeMirror_fills ..)).bytes

/-! ## Acknowledgements (R338) -/

theorem getTx_putTx (s : State) (dest cls d k : Nat) (t : TxMsgs) :
    getTx (putTx s dest cls t) d k = if 8 * d + k = 8 * dest + cls then t else getTx s d k := by
  rw [getTx, putTx, State.setMsgs_msgs, getD_putD, ← getTx]

/-- What an acknowledgement up to `seq` leaves unacknowledged. -/
def unackedAfter (s : State) (dest cls seq : Nat) : List (Nat × List Byte) :=
  (getTx s dest cls).unacked.filter fun m => serialNewer 16 m.1 seq

section
variable {s : State} {dest cls seq : Nat}

theorem takeMsgAck_of_advance (h : (unackedAfter s dest cls seq).length < (getTx s dest cls).unacked.length) :
    takeMsgAck s dest cls seq = (putTx s dest cls { getTx s dest cls with unacked := unackedAfter s dest cls seq }).setMsgs
      { (putTx s dest cls { getTx s dest cls with unacked := unackedAfter s dest cls seq }).msgs with
        timeouts := dropKey s.msgs.timeouts dest, unreach := s.msgs.unreach.filter (· != dest) } := if_pos h

theorem takeMsgAck_of_still (h : ¬(unackedAfter s dest cls seq).length < (getTx s dest cls).unacked.length) :
    takeMsgAck s dest cls seq = s := if_neg h

end

theorem length_unackedAfter_le (s : State) (dest cls seq : Nat) :
    (unackedAfter s dest cls seq).length ≤ (getTx s dest cls).unacked.length := List.length_filter_le ..

/-- An acknowledgement releases what it covers and nothing else (R338). -/
theorem getTx_takeMsgAck (s : State) (dest cls seq d k : Nat) : getTx (takeMsgAck s dest cls seq) d k =
    if 8 * d + k = 8 * dest + cls then { getTx s dest cls with unacked := unackedAfter s dest cls seq } else getTx s d k := by
  by_cases h : (unackedAfter s dest cls seq).length < (getTx s dest cls).unacked.length
  · rw [takeMsgAck_of_advance h]
    exact getTx_putTx ..
  · have all : unackedAfter s dest cls seq = (getTx s dest cls).unacked :=
      List.filter_sublist.eq_of_length (Nat.le_antisymm (length_unackedAfter_le ..) (Nat.le_of_not_lt h))
    rw [takeMsgAck_of_still h, all]
    split
    case isTrue same => rw [getTx, same, ← getTx]
    case isFalse => rfl

/-- The mirrors that an acknowledgement of class 2 completes are none of the message layer's. -/
theorem msgs_messageAck (s : State) (dest cls seq : Nat) : (messageAck s dest cls seq).msgs = (takeMsgAck s dest cls seq).msgs := by
  unfold messageAck
  dsimp only
  split
  · exact (ackMirrors_via ..).piece (p := .msgs) rfl
  · rfl

theorem getTx_messageAck (s : State) (dest cls seq d k : Nat) : getTx (messageAck s dest cls seq) d k =
    if 8 * d + k = 8 * dest + cls then { getTx s dest cls with unacked := unackedAfter s dest cls seq } else getTx s d k := by
  rw [← getTx_takeMsgAck, getTx, msgs_messageAck, ← getTx]

/-- An acknowledgement that advances ends the run of timeouts of its destination, which answers again (R338). -/
theorem messageAck_answers_again {s : State} {dest cls seq : Nat}
    (advances : (unackedAfter s dest cls seq).length < (getTx s dest cls).unacked.length) :
    getD 0 (messageAck s dest cls seq).msgs.timeouts dest = 0 ∧ (messageAck s dest cls seq).msgs.unreach.contains dest = false := by
  rw [msgs_messageAck, takeMsgAck_of_advance advances, State.setMsgs_msgs]
  exact ⟨getD_dropKey_same .., by simp⟩

theorem messageAck_onlyMsgs {cls : Nat} (h : cls ≠ 2) (s : State) (dest seq : Nat) : Only [.msgs] s (messageAck s dest cls seq) := by
  unfold messageAck
  dsimp only
  rw [if_neg h]
  exact (takeMsgAck_via ..).same

/-! ## Timeouts (R338) -/

/-- The state in which a timeout of a destination is counted and its messages of a class are sent again. -/
def messagesResent (s : State) (dest cls : Nat) : State :=
  resendMessages (s.setMsgs { s.msgs with timeouts := insKey s.msgs.timeouts dest (getD 0 s.msgs.timeouts dest + 1) }) dest cls

/-- A destination that is marked unreachable is counted, with an error and an entry in the log. -/
def reportUnreachable (s : State) (dest cls : Nat) : State :=
  logWrite (errEvent (bump s iodPg F.MSG_UNREACH_CNT) iodPg 3) iodPg 0x50 0xFF [(32, dest), (34, cls)]

/-- The state in which a destination is marked unreachable. -/
def markUnreachable (s : State) (dest cls : Nat) : State :=
  reportUnreachable (s.setMsgs { s.msgs with unreach := dest :: s.msgs.unreach.filter (· != dest) }) dest cls

theorem msgTimeout_of_none {s : State} {dest cls : Nat} (h : (getTx s dest cls).unacked = []) : msgTimeout s dest cls = s :=
  if_pos (by rw [h]; rfl)

/-- The fourth timeout in a row of a destination marks it unreachable. -/
theorem msgTimeout_of_some {s : State} {dest cls : Nat} (h : (getTx s dest cls).unacked ≠ []) : msgTimeout s dest cls =
    if getD 0 s.msgs.timeouts dest = 3 then markUnreachable (messagesResent s dest cls) dest cls else messagesResent s dest cls := by
  have fourth : getD 0 s.msgs.timeouts dest + 1 = 4 ↔ getD 0 s.msgs.timeouts dest = 3 := by omega
  unfold msgTimeout
  rw [if_neg (by simpa using h)]
  exact if_congr fourth rfl rfl

/-- Resending changes nothing of the message layer but the run of timeouts. -/
theorem msgs_messagesResent (s : State) (dest cls : Nat) : (messagesResent s dest cls).msgs =
    { s.msgs with timeouts := insKey s.msgs.timeouts dest (getD 0 s.msgs.timeouts dest + 1) } :=
  (resendMessages_via ..).piece (p := .msgs) rfl

theorem log_messagesResent (s : State) (dest cls : Nat) : (messagesResent s dest cls).log = s.log :=
  (resendMessages_via ..).piece (p := .log) rfl

theorem resendMessages_places (s : State) (dest cls : Nat) :
    OnlyPlaces (placesOf sendFields) (bump s iodPg F.MSG_TIMEOUT_CNT) (resendMessages s dest cls) :=
  .forEach (fun _ _ => sendFlits_places ..) (.refl _ _)

theorem timeoutCnt_messagesResent {s : State} (room : rd s iodPg F.MSG_TIMEOUT_CNT < 2 ^ 32 - 2) (dest cls : Nat) :
    rd (messagesResent s dest cls) iodPg F.MSG_TIMEOUT_CNT = rd s iodPg F.MSG_TIMEOUT_CNT + 1 :=
  ((resendMessages_places ..).field _ _ _ (by decide)).trans (rd_bump rfl room)

theorem unreachCnt_messagesResent (s : State) (dest cls : Nat) :
    rd (messagesResent s dest cls) iodPg F.MSG_UNREACH_CNT = rd s iodPg F.MSG_UNREACH_CNT :=
  (OnlyPlaces.trans (here := placesOf ((F.MSG_TIMEOUT_CNT, 0) :: sendFields))
    (.bump (.via (.refl _ s) (setMsgs_via ..) rfl) (by decide) (by decide) ..)
    ((resendMessages_places ..).mono fun _ => .tail _)).field _ _ _ (by decide)

theorem reportUnreachable_via (s : State) (dest cls : Nat) : Via [.regs, .views, .log] s (reportUnreachable s dest cls) :=
  .step (logWrite_via ..) rfl (.step (errEvent_via ..) rfl ((bump_via ..).mono rfl))

/-- The fields that an error and its entry in the log can write. -/
def reportFields : List (Field × Nat) := (F.ERR_SUM, 0) :: eventFields ++ logFields

theorem reportUnreachable_places (s : State) (dest cls : Nat) :
    OnlyPlaces (placesOf reportFields) (bump s iodPg F.MSG_UNREACH_CNT) (reportUnreachable s dest cls) :=
  ((errEvent_allPlaces ..).mono (placesOf_mono (by decide))).trans ((logWrite_places ..).mono (placesOf_mono (by decide)))

theorem errSum_reportUnreachable (s : State) (dest cls : Nat) : bit (rd (reportUnreachable s dest cls) iodPg F.ERR_SUM) 3 = true := by
  rw [reportUnreachable, (logWrite_places ..).field _ _ _ (by decide)]
  exact errSum_errEvent (by decide) ..

theorem unreachCnt_reportUnreachable {s : State} (room : rd s iodPg F.MSG_UNREACH_CNT < 2 ^ 32 - 2) (dest cls : Nat) :
    rd (reportUnreachable s dest cls) iodPg F.MSG_UNREACH_CNT = rd s iodPg F.MSG_UNREACH_CNT + 1 :=
  ((reportUnreachable_places ..).field _ _ _ (by decide)).trans (rd_bump rfl room)

theorem unreachCnt_markUnreachable {s : State} (room : rd s iodPg F.MSG_UNREACH_CNT < 2 ^ 32 - 2) (dest cls : Nat) :
    rd (markUnreachable s dest cls) iodPg F.MSG_UNREACH_CNT = rd s iodPg F.MSG_UNREACH_CNT + 1 := by
  rw [markUnreachable, unreachCnt_reportUnreachable (by rwa [rd_setMsgs]), rd_setMsgs]

theorem timeoutCnt_markUnreachable (s : State) (dest cls : Nat) :
    rd (markUnreachable s dest cls) iodPg F.MSG_TIMEOUT_CNT = rd s iodPg F.MSG_TIMEOUT_CNT :=
  (OnlyPlaces.trans (here := placesOf ((F.MSG_UNREACH_CNT, 0) :: reportFields))
    (.bump (.via (.refl _ s) (setMsgs_via ..) rfl) (by decide) (by decide) ..)
    ((reportUnreachable_places ..).mono (placesOf_mono (by decide)))).field _ _ _ (by decide)

theorem msgs_markUnreachable (s : State) (dest cls : Nat) : (markUnreachable s dest cls).msgs =
    { s.msgs with unreach := dest :: s.msgs.unreach.filter (· != dest) } := (reportUnreachable_via ..).piece (p := .msgs) rfl

/-- What a timeout leaves of the messages that wait, and what it counts, whether or not it marks the destination. -/
theorem msgTimeout_counts {s : State} {dest cls : Nat} (h : (getTx s dest cls).unacked ≠ []) :
    (msgTimeout s dest cls).msgs.tx = s.msgs.tx
      ∧ (msgTimeout s dest cls).msgs.timeouts = insKey s.msgs.timeouts dest (getD 0 s.msgs.timeouts dest + 1)
      ∧ (rd s iodPg F.MSG_TIMEOUT_CNT < 2 ^ 32 - 2 →
        rd (msgTimeout s dest cls) iodPg F.MSG_TIMEOUT_CNT = rd s iodPg F.MSG_TIMEOUT_CNT + 1) := by
  rw [msgTimeout_of_some h]
  split
  · rw [msgs_markUnreachable, msgs_messagesResent, timeoutCnt_markUnreachable]
    exact ⟨rfl, rfl, fun room => timeoutCnt_messagesResent room ..⟩
  · rw [msgs_messagesResent]
    exact ⟨rfl, rfl, fun room => timeoutCnt_messagesResent room ..⟩

theorem msgTimeout_unreachable {s : State} {dest cls : Nat} (h : (getTx s dest cls).unacked ≠ []) (fourth : getD 0 s.msgs.timeouts dest = 3) :
    (msgTimeout s dest cls).msgs.unreach.contains dest = true ∧ bit (rd (msgTimeout s dest cls) iodPg F.ERR_SUM) 3 = true
      ∧ (rd s iodPg F.MSG_UNREACH_CNT < 2 ^ 32 - 2 →
        rd (msgTimeout s dest cls) iodPg F.MSG_UNREACH_CNT = rd s iodPg F.MSG_UNREACH_CNT + 1) := by
  have before : rd (messagesResent s dest cls) iodPg F.MSG_UNREACH_CNT = rd s iodPg F.MSG_UNREACH_CNT := unreachCnt_messagesResent ..
  rw [msgTimeout_of_some h, if_pos fourth, msgs_markUnreachable, ← before]
  exact ⟨by simp, errSum_reportUnreachable .., fun room => unreachCnt_markUnreachable room ..⟩

theorem msgTimeout_reachable {s : State} {dest cls : Nat} (h : (getTx s dest cls).unacked ≠ []) (early : getD 0 s.msgs.timeouts dest ≠ 3) :
    (msgTimeout s dest cls).msgs.unreach = s.msgs.unreach ∧ (msgTimeout s dest cls).log = s.log := by
  rw [msgTimeout_of_some h, if_neg early, msgs_messagesResent]
  exact ⟨rfl, log_messagesResent ..⟩

/-! ## The three commands -/

/-- The next message of a source and class is taken. -/
theorem answers_brings_next {m : LinkMsg} {cls : Nat} {c : Instr} (brings : Brings m cls c) {s : State}
    (fits : cls = 2 → mirrorFits s m.data = true) (next : m.seq.toNat = getD 0 s.msgs.rx (8 * m.source.val + cls) % 65536) :
    Answers c s fun t => getD 0 t.msgs.rx (8 * m.source.val + cls) = m.seq.toNat + 1
      ∧ (cls = 0 → Only [.regs, .links, .msgs, .out] s t)
      ∧ (cls = 1 → (getServing t (fieldNat m.data 0 1 % 16)).block = m.data.drop 1
          ∧ (getServing t (fieldNat m.data 0 1 % 16)).blockStep = fieldNat (m.data.drop 1) 64 8 + 1
          ∧ Only [.regs, .links, .msgs, .drover, .out] s t)
      ∧ (cls = 2 → OnlyBytes (fun a => windowOf (extents s (fieldNat m.data 0 1 % 16)) a 0 ≠ none) s t
          ∧ Only [.regs, .views, .log, .mem, .fresh, .care, .links, .msgs, .out] s t) := by
  refine ⟨_, (exec_brings_fit brings fits).trans (congrArg Host.Outcome.next (takeMessage_of_next next)), ?taken, ?mgmt, ?block, ?mirror⟩
  case taken => rw [msgs_messageEffect, rx_messageTaken]
  case mgmt =>
    rintro rfl
    exact (messageTaken_via ..).same
  case block =>
    rintro rfl
    have stored := getServing_storeBlock (messageTaken s m.source 1 m.seq.toNat) m.data
    refine ⟨congrArg Serving.block stored, congrArg Serving.blockStep stored, ?_⟩
    exact (Via.step (storeBlock_via ..) rfl ((messageTaken_via ..).mono rfl) : Via [.regs, .links, .msgs, .drover, .out] s _).same
  case mirror =>
    rintro rfl
    refine ⟨storeMirror_messageTaken_onlyBytes s m.source 2 m.seq.toNat m.data, ?_⟩
    exact (Via.step (storeMirror_via ..) rfl ((messageTaken_via ..).mono rfl) :
      Via [.regs, .views, .log, .mem, .fresh, .care, .links, .msgs, .out] s _).same

/-- An older message is counted, and acknowledged again. -/
theorem answers_brings_older {m : LinkMsg} {cls : Nat} {c : Instr} (brings : Brings m cls c) {s : State}
    (fits : cls = 2 → mirrorFits s m.data = true) (seen : getD 0 s.msgs.rx (8 * m.source.val + cls) ≠ 0)
    (other : m.seq.toNat ≠ getD 0 s.msgs.rx (8 * m.source.val + cls) % 65536)
    (older : serialNewer 16 m.seq.toNat (65535 + getD 0 s.msgs.rx (8 * m.source.val + cls)) = false) :
    Answers c s fun t => t.msgs.rx = s.msgs.rx
      ∧ (rd s iodPg F.MSG_DUP_CNT < 2 ^ 32 - 2 → rd t iodPg F.MSG_DUP_CNT = rd s iodPg F.MSG_DUP_CNT + 1)
      ∧ Only [.regs, .links, .msgs, .out] s t :=
  ⟨_, (exec_brings_fit brings fits).trans (congrArg Host.Outcome.next (takeMessage_of_older other seen older)),
    rx_messageRepeated .., fun room => dupCnt_messageRepeated room .., (messageRepeated_via ..).same⟩

theorem answers_messageAck (s : State) (dest : Fin 32768) (cls : Fin 8) (seq : BitVec 16) : Answers (.messageAck dest cls seq) s fun t =>
    let rest := unackedAfter s dest cls seq.toNat
    (getTx t dest cls).unacked = rest ∧ (getTx t dest cls).next = (getTx s dest cls).next
      ∧ (rest.length < (getTx s dest cls).unacked.length → getD 0 t.msgs.timeouts dest = 0 ∧ t.msgs.unreach.contains dest.val = false)
      ∧ (rest.length = (getTx s dest cls).unacked.length → t.msgs = s.msgs)
      ∧ (∀ d k, 8 * d + k ≠ 8 * dest.val + cls.val → getTx t d k = getTx s d k)
      ∧ (cls ≠ 2 → Only [.msgs] s t) ∧ Only [.regs, .msgs, .drover] s t := by
  have own : getTx (messageAck s dest cls seq.toNat) dest cls = { getTx s dest cls with unacked := unackedAfter s dest cls seq.toNat } := by
    rw [getTx_messageAck, if_pos rfl]
  refine ⟨messageAck s dest cls seq.toNat, rfl, by rw [own], by rw [own], messageAck_answers_again, fun still => ?_, fun d k apart => ?_,
    fun other => messageAck_onlyMsgs (fun e => other (Fin.ext e)) _ _ _, (messageAck_via ..).same⟩
  · rw [msgs_messageAck, takeMsgAck_of_still (Nat.not_lt_of_ge still.ge)]
  · rw [getTx_messageAck, if_neg apart]

theorem answers_messageTimeout {s : State} {dest : Fin 32768} {cls : Fin 8} (h : (getTx s dest cls).unacked ≠ []) :
    Answers (.messageTimeout dest cls) s fun t =>
      getD 0 t.msgs.timeouts dest = getD 0 s.msgs.timeouts dest + 1 ∧ (getTx t dest cls).unacked = (getTx s dest cls).unacked
        ∧ (rd s iodPg F.MSG_TIMEOUT_CNT < 2 ^ 32 - 2 → rd t iodPg F.MSG_TIMEOUT_CNT = rd s iodPg F.MSG_TIMEOUT_CNT + 1)
        ∧ (getD 0 s.msgs.timeouts dest = 3 → t.msgs.unreach.contains dest.val = true ∧ bit (rd t iodPg F.ERR_SUM) 3 = true
            ∧ (rd s iodPg F.MSG_UNREACH_CNT < 2 ^ 32 - 2 → rd t iodPg F.MSG_UNREACH_CNT = rd s iodPg F.MSG_UNREACH_CNT + 1))
        ∧ (getD 0 s.msgs.timeouts dest ≠ 3 → t.msgs.unreach = s.msgs.unreach ∧ t.log = s.log)
        ∧ Only [.regs, .views, .log, .links, .msgs, .out] s t := by
  obtain ⟨sent, run, counted⟩ := msgTimeout_counts h
  refine ⟨msgTimeout s dest cls, rfl, ?_, ?_, counted, msgTimeout_unreachable h, msgTimeout_reachable h, (msgTimeout_via ..).same⟩
  · rw [run, getD_insKey_same]
  · rw [getTx, sent, ← getTx]

/-- Settles O49: a message by its sequence (`takeMessage_of_next`, `takeMessage_of_older`, `takeMessage_of_gap`), an acknowledgement by
whether it advances, and a timeout by whether it is the fourth in a row. -/
theorem deviceMessagesRunInOrder : Obligations.DeviceMessagesRunInOrder := by
  unfold Obligations.DeviceMessagesRunInOrder
  refine ⟨fun s m cls c brings => ⟨fun mirror unfit => ?unfit, fun fits next => answers_brings_next brings fits next,
      fun fits seen other older => answers_brings_older brings fits seen other older, fun other gap => ?gap⟩,
    fun s dest cls => ⟨answers_messageAck s dest cls, fun empty => ?idle, answers_messageTimeout⟩⟩
  case unfit => exact ⟨s, exec_brings_unfit brings mirror unfit, rfl⟩
  case gap => exact ⟨s, exec_brings_gap brings other gap, rfl⟩
  case idle => exact ⟨s, congrArg Host.Outcome.next (msgTimeout_of_none empty), rfl⟩

end Sys2Proof.Machine
end

section
/-! SUPPORT. The key of the table of a pen, which invalidates the table (R312, R408), and the enabling of a replay (R412, R415). -/

namespace Sys2Proof.Machine

open Sys2Proof Sys2Proof.Claims

/-! ## What a core's write into a window leaves of the registers (R243, R375) -/

theorem accessError_reports (s : State) (pg off : Nat) (src : Source) (row v : Nat) :
    OnlyPlaces (placesOf reportFields) s (accessError s pg off src row v) := by
  have event : OnlyPlaces (placesOf reportFields) s (errEvent s pg 0) := (errEvent_allPlaces ..).mono (placesOf_mono (by decide))
  unfold accessError
  exact .ite (event.trans ((logWrite_places ..).mono (placesOf_mono (by decide)))) event

theorem coreWrite_reports (s : State) (p w : Nat) (bs : List Byte) : OnlyPlaces (placesOf reportFields) s (coreWrite s p w bs) := by
  unfold coreWrite
  exact .ite (.via (.refl _ s) (winWrite_via ..) rfl) (accessError_reports ..)

theorem coreWrite_of_inside {s : State} {p w : Nat} {bs : List Byte} (h : inWindow s p w bs.length = true) :
    coreWrite s p w bs = winWrite s p w bs := if_pos h

/-- In a window of one extent a core's write changes its own run of bytes at most, or is refused and changes none. -/
theorem coreWrite_run_onlyBytes {s : State} {p q st len : Nat} (one : oneExtent s p q st len) (w : Nat) (bs : List Byte) :
    OnlyBytes (fun a => 0x800000000 * q + st + w ≤ a ∧ a < 0x800000000 * q + st + w + bs.length) s (coreWrite s p w bs) := by
  unfold coreWrite
  rw [inWindow_of_oneExtent one]
  split
  case isTrue inside => exact winWrite_run_onlyBytes one (of_decide_eq_true inside)
  case isFalse => exact (accessError_via ..).same.bytes rfl rfl _

/-- A core's write that lies in a window of one extent stores its bytes. -/
theorem readByte_coreWrite {s : State} {p q st len : Nat} (one : oneExtent s p q st len) {w : Nat} {bs : List Byte}
    (inside : w + bs.length ≤ len) {j : Nat} (hj : j < bs.length) :
    readByte (coreWrite s p w bs) (0x800000000 * q + st + w + j) = bs.getD j 0 := by
  have populated : isMem s (0x800000000 * q + st + w + j) = true := by
    rw [Nat.add_assoc]
    exact isMem_of_oneExtent one (by omega)
  rw [coreWrite_of_inside (by rw [inWindow_of_oneExtent one, decide_eq_true inside]), readByte_winWrite one inside,
    readByte_iodBytes bs s _ j hj populated]

theorem Via.inWindow {ps : List StatePart} {s t : State} (h : Via ps s t) (k : ps.contains .regs = false) (p w n : Nat) :
    Machine.inWindow t p w n = Machine.inWindow s p w n := by
  rw [Machine.inWindow, winSize, h.extents k, ← winSize, ← Machine.inWindow]

theorem OnlyPlaces.oneExtent {s t : State} (h : OnlyPlaces offExtents s t) {p q st len : Nat} (one : oneExtent s p q st len) :
    Claims.oneExtent t p q st len := by
  rw [Claims.oneExtent, h.extents]
  exact one

/-! ## Entries of the table of a pen (R309) -/

/-- The bytes of an entry of the table of a pen. -/
def pfxBytes (e : PfxEntry) : List Byte :=
  toLe 8 e.key ++ toLe 4 e.block ++ toLe 4 e.prev ++ toLe 2 e.epoch ++ toLe 2 e.refs ++ toLe 1 e.st ++ toLe 3 0 ++ toLe 8 e.tally
    ++ List.replicate 32 0

theorem length_pfxBytes (e : PfxEntry) : (pfxBytes e).length = 64 := rfl

/-- The state of an entry is its byte 20. -/
theorem state_pfxBytes (e : PfxEntry) : (pfxBytes e).getD 20 0 = BitVec.ofNat 8 e.st := rfl

/-- The base of a table is no field that a refused write can write. -/
theorem pfxAddr_of_places {s t : State} (h : OnlyPlaces (placesOf reportFields) s t) (p i : Nat) : pfxAddr t p i = pfxAddr s p i := by
  have base : rd t (penPg p) F.PFX_BASE = rd s (penPg p) F.PFX_BASE := h.field _ _ _ (by decide)
  unfold pfxAddr prefixRegion
  rw [base]

theorem Via.pfxAddr {ps : List StatePart} {s t : State} (h : Via ps s t) (k : ps.contains .regs = false) (p i : Nat) :
    Machine.pfxAddr t p i = Machine.pfxAddr s p i := pfxAddr_of_places (.via (.refl _ s) h k) p i

/-! ## Invalidating a table (R312) -/

/-- An entry of the table of a pen that is free, with what it held. -/
def PfxEntry.freed (e : PfxEntry) : PfxEntry := { e with st := 0 }

/-- An entry of the table of a pen becomes free. -/
def freePfx (p : Nat) (s : State) (e : Nat × PfxEntry) : State := putPfx s p e.1 e.2.freed

theorem freePfx_eq (p : Nat) (s : State) (e : Nat × PfxEntry) :
    freePfx p s e = coreWrite s p (pfxAddr s p e.1) (pfxBytes e.2.freed) := rfl

/-- The state in which every valid entry of a pen's table has become free. -/
def tableFreed (s : State) (p : Nat) : State := forEach s (validPfx s p) (freePfx p)

theorem freePfx_places (p : Nat) (s : State) (e : Nat × PfxEntry) : OnlyPlaces (placesOf reportFields) s (freePfx p s e) :=
  coreWrite_reports ..

theorem freePfx_via (p : Nat) (s : State) (e : Nat × PfxEntry) : Via [.regs, .views, .log, .mem, .fresh, .care] s (freePfx p s e) :=
  putPfx_via ..

theorem freePfx_fills (p : Nat) (s : State) (e : Nat × PfxEntry) : FillsWindow p s (freePfx p s e) := coreWrite_fills ..

section
variable {s : State} {p q st len : Nat} (one : oneExtent s p q st len)
include one

/-- The entry that becomes free reads as free. -/
theorem state_freePfx (e : Nat × PfxEntry) (inside : pfxAddr s p e.1 + 64 ≤ len) :
    readByte (freePfx p s e) (0x800000000 * q + st + pfxAddr s p e.1 + 20) = 0 := by
  rw [freePfx_eq, readByte_coreWrite one (by rwa [length_pfxBytes]) (by rw [length_pfxBytes]; decide), state_pfxBytes]
  rfl

/-- Freeing an entry of 64 bytes leaves the state of every other. -/
theorem state_freePfx_ne (e : Nat × PfxEntry) {i : Nat} (h : i ≠ e.1) :
    readByte (freePfx p s e) (0x800000000 * q + st + pfxAddr s p i + 20) = readByte s (0x800000000 * q + st + pfxAddr s p i + 20) := by
  rw [freePfx_eq]
  refine coreWrite_run_onlyBytes one _ _ _ ?_
  rw [length_pfxBytes]
  unfold pfxAddr
  omega

/-- Every entry of a freed table that lies in the window reads as free. -/
theorem state_tableFreed {e : Nat × PfxEntry} (he : e ∈ validPfx s p) (inside : pfxAddr s p e.1 + 64 ≤ len) :
    readByte (tableFreed s p) (0x800000000 * q + st + pfxAddr s p e.1 + 20) = 0 := by
  have extent {u : State} (hu : OnlyPlaces (placesOf reportFields) s u) : oneExtent u p q st len := (hu.mono (by decide)).oneExtent one
  refine forEach_reaches (g := freePfx p) (I := OnlyPlaces (placesOf reportFields) s)
    (P := fun u => readByte u (0x800000000 * q + st + pfxAddr s p e.1 + 20) = 0) (fun u x hu => hu.trans (freePfx_places p u x))
    ?keep ?reach he (.refl _ s)
  case reach =>
    intro u hu
    rw [← pfxAddr_of_places hu]
    exact state_freePfx (extent hu) e (by rwa [pfxAddr_of_places hu])
  case keep =>
    intro u x hu free
    rw [← pfxAddr_of_places hu] at free ⊢
    by_cases same : e.1 = x.1
    · rw [same]
      exact state_freePfx (extent hu) x (by rwa [pfxAddr_of_places hu, ← same])
    · rw [state_freePfx_ne (extent hu) x same, free]

end

theorem tableFreed_fills (s : State) (p : Nat) : FillsWindow p s (tableFreed s p) :=
  forEach_keeps (I := FillsWindow p s) (fun u e _ hu => hu.trans (freePfx_fills p u e)) (.refl p s)

/-- A table that lies in its pen's window is freed without a refusal. -/
theorem tableFreed_inside {s : State} {p : Nat} (inside : ∀ e ∈ validPfx s p, inWindow s p (pfxAddr s p e.1) 64 = true) :
    Via [.mem, .fresh, .care] s (tableFreed s p) := by
  refine forEach_keeps (I := Via [.mem, .fresh, .care] s) (fun u e he hu => ?_) (.refl _ s)
  have fits : inWindow u p (pfxAddr u p e.1) (pfxBytes e.2.freed).length = true := by
    rw [length_pfxBytes, hu.inWindow rfl, hu.pfxAddr rfl]
    exact inside e he
  rw [freePfx_eq, coreWrite_of_inside fits]
  exact hu.trans (winWrite_via ..)

/-! ## A write of the key (R312, R408) -/

/-- The state after a write to PFX_KEY. -/
def keyWritten (s : State) (src : Source) (p k v : Nat) : State :=
  noteConfig (wr (tableFreed s p) (penPg p) F.PFX_KEY k v) src (penPg p) (0x430 + 4 * k) v

theorem keyWritten_of_table (s : State) (src : Source) (p k v : Nat) : Via [.regs, .drover] (tableFreed s p) (keyWritten s src p k v) :=
  .step (noteConfig_via ..) rfl ((wr_via ..).mono rfl)

theorem exec_pfxKey {s : State} {src : Source} {p : Fin 16} (sees : seesPage s src (penPg p) = true) (k : Fin 4) (v : Word) :
    exec (.pfxKey src p k v) s = .next (keyWritten s src p k v.toNat) := congrArg Host.Outcome.next (onPage_of_sees sees _)

theorem key_keyWritten (s : State) (src : Source) (p k v : Nat) : rd (keyWritten s src p k v) (penPg p) F.PFX_KEY k = v % 2 ^ 32 := by
  rw [keyWritten, (noteConfig_via ..).rd rfl]
  exact rd_wr ..

theorem drover_keyWritten (s : State) (src : Source) (p k v : Nat) : (keyWritten s src p k v).drover = { s.drover with
    latch := s.drover.latch ++ if hostWrite src then [.config (penPg p) (0x430 + 4 * k) v] else [] } := by
  have kept : (wr (tableFreed s p) (penPg p) F.PFX_KEY k v).drover = s.drover := (writePfxKey_via p k v s).piece (p := .drover) rfl
  rw [keyWritten, drover_noteConfig, kept]

theorem keyWritten_fields {s : State} {p : Nat} (inside : ∀ e ∈ validPfx s p, inWindow s p (pfxAddr s p e.1) 64 = true) (src : Source)
    (k v : Nat) : OnlyIn [.mem, .fresh, .care, .drover] [(penPg p, F.PFX_KEY, k)] s (keyWritten s src p k v) := by
  have freed := tableFreed_inside inside
  refine ⟨((freed.mono rfl).trans ((keyWritten_of_table ..).mono rfl) : Via [.regs, .mem, .fresh, .care, .drover] s _).same, ?_⟩
  exact (((OnlyFields.refl _ s).via freed rfl).wr _ _ _ _ List.mem_cons_self).via (noteConfig_via ..) rfl

theorem answers_pfxKey {s : State} {src : Source} {p : Fin 16} (sees : seesPage s src (penPg p) = true) (k : Fin 4) (v : Word) :
    Answers (.pfxKey src p k v) s fun t => rd t (penPg p) F.PFX_KEY k = v.toNat
      ∧ (∀ q st len, oneExtent s p q st len → ∀ e ∈ validPfx s p, pfxAddr s p e.1 + 64 ≤ len →
          readByte t (0x800000000 * q + st + pfxAddr s p e.1 + 20) = 0)
      ∧ (hostWrite src = true → t.drover.latch = s.drover.latch ++ [.config (penPg p) (0x430 + 4 * k.val) v.toNat])
      ∧ (hostWrite src = false → t.drover = s.drover)
      ∧ OnlyBytes (fun a => windowOf (extents s p) a 0 ≠ none) s t
      ∧ ((∀ e ∈ validPfx s p, inWindow s p (pfxAddr s p e.1) 64 = true) →
          OnlyIn [.mem, .fresh, .care, .drover] [(penPg p, F.PFX_KEY, k)] s t) := by
  have table := keyWritten_of_table s src p k v.toNat
  have drover := drover_keyWritten s src p k v.toNat
  refine ⟨_, exec_pfxKey sees k v, ?key, fun q st len one e he inside => ?state, fun host => ?host, fun core => ?core,
    (tableFreed_fills s p).onlyBytes table rfl rfl, fun inside => keyWritten_fields inside src k v.toNat⟩
  case key => rw [key_keyWritten, Nat.mod_eq_of_lt v.isLt]
  case state => rw [table.readByte rfl rfl, state_tableFreed one he inside]
  case host => rw [drover, host, if_pos rfl]
  case core => rw [drover, core, if_neg Bool.false_ne_true, List.append_nil]

/-! ## Enabling a replay (R412, R415) -/

/-- The state in which an IDLE replay waits for its flock. -/
def replayWaits (s : State) (p : Nat) : State :=
  putReplay (wr0 s (penPg p) F.REPLAY_STATE_STATE 1) p { Replay.init with next := rd s (penPg p) F.REPLAY_START_SEQ }

/-- The replay waits, with its position in the register beside its state. -/
theorem replayState_replayWaits (s : State) (p : Nat) : replayState (replayWaits s p) p = 1 := by
  rw [replayState, replayWaits, putReplay, wr0, rd_wr_ne _ _ _ _ _ _ _ _ (fkey_ne (by decide) (by decide) (.inr (by decide))),
    rd_setDrover, rd_wr0]
  rfl

theorem replayWaits_places (s : State) (p : Nat) :
    OnlyPlaces (placesOf [(F.REPLAY_STATE_STATE, 0), (F.REPLAY_POS, 0)]) s (replayWaits s p) :=
  .wr0 (.via (.wr0 (.refl _ s) (by decide) ..) (setDrover_via ..) rfl) (by decide) ..

theorem replayState_wr_enable (s : State) (p v : Nat) : replayState (wr0 s (penPg p) F.REPLAY_CTRL_ENABLE v) p = replayState s p :=
  rd_wr_ne _ _ _ _ _ _ _ _ (fkey_ne (by decide) (by decide) (.inr (by decide)))

theorem writeReplay_eq (p : Nat) (on : Bool) (s : State) : writeReplay p on s =
    if on ∧ replayState s p = 0 then replayWaits (wr0 s (penPg p) F.REPLAY_CTRL_ENABLE (b2n on)) p
    else wr0 s (penPg p) F.REPLAY_CTRL_ENABLE (b2n on) := by
  rw [← replayState_wr_enable s p (b2n on)]
  rfl

theorem enable_writeReplay (p : Nat) (on : Bool) (s : State) : rd (writeReplay p on s) (penPg p) F.REPLAY_CTRL_ENABLE = on.toNat := by
  have stored : rd (wr0 s (penPg p) F.REPLAY_CTRL_ENABLE (b2n on)) (penPg p) F.REPLAY_CTRL_ENABLE = on.toNat := by
    rw [rd_wr0]
    cases on <;> rfl
  rw [writeReplay_eq]
  split
  · rw [(replayWaits_places ..).field _ _ _ (by decide), stored]
  · exact stored

theorem answers_replayEnable {s : State} {src : Source} {p : Fin 16} (sees : seesPage s src (penPg p) = true) (on : Bool) :
    Answers (.replayEnable src p on) s fun t => rd t (penPg p) F.REPLAY_CTRL_ENABLE = on.toNat
      ∧ (on = true → replayState s p = 0 → replayState t p = 1)
      ∧ (on = false ∨ replayState s p ≠ 0 → OnlyIn [] [(penPg p, F.REPLAY_CTRL_ENABLE, 0)] s t) := by
  refine ⟨writeReplay p on s, congrArg Host.Outcome.next (onPage_of_sees sees _), enable_writeReplay .., fun enabled idle => ?_, fun stays => ?_⟩
  · rw [writeReplay_eq, if_pos ⟨enabled, idle⟩, replayState_replayWaits]
  · rw [writeReplay_eq, if_neg fun ⟨enabled, idle⟩ => stays.elim (fun off => Bool.false_ne_true (off.symm.trans enabled)) (· idle)]
    exact .of_via (wr0_via ..) ((OnlyFields.refl _ s).wr _ _ _ _ List.mem_cons_self)

/-- Settles O56: the key is written after the table is freed entry by entry (`state_tableFreed`), and an IDLE replay waits
(`replayState_replayWaits`). -/
theorem prefixKeysAndReplay : Obligations.PrefixKeysAndReplay := by
  unfold Obligations.PrefixKeysAndReplay
  refine fun s src p sees => ⟨fun k v => ?key, fun on => ?replay⟩
  case key =>
    exact ((answers_pfxKey sees k v).within (execPfxKey_via ..)).imp
      fun t ⟨⟨key, free, host, core, bytes, fields⟩, only⟩ => ⟨key, free, host, core, bytes, fields, only⟩
  case replay =>
    exact ((answers_replayEnable sees on).within (execReplayEnable_via ..)).imp
      fun t ⟨⟨enable, waits, stays⟩, only⟩ => ⟨enable, waits, stays, only⟩

end Sys2Proof.Machine
end
